-- ==== Sys2Proof/Word.lean ====
section
/-! DEFINITION. The words of the hub (R10: registers and packet words of 32 bits, little-endian bytes) and plain
arithmetic on numbers that stand for fields: bit, slice, wrapping and saturating sums. -/

namespace Sys2Proof

/-- A 32-bit word (R10). -/
abbrev Word := BitVec 32

/-- A byte. -/
abbrev Byte := BitVec 8

/-- The word of a number, taken modulo 2^32. -/
abbrev W (n : Nat) : Word := BitVec.ofNat 32 n

/-- Bit `i` of a number. -/
def bit (n i : Nat) : Bool := n / 2 ^ i % 2 == 1

/-- The `w` bits of `n` from bit `lo` up. -/
def slice (n lo w : Nat) : Nat := n / 2 ^ lo % 2 ^ w

/-- `n` with its `w` bits from bit `lo` up replaced by those of `v`. -/
def setSlice (n lo w v : Nat) : Nat :=
  n / 2 ^ (lo + w) * 2 ^ (lo + w) + v % 2 ^ w * 2 ^ lo + n % 2 ^ lo

/-- `a − b` modulo `m`. -/
def subMod (m a b : Nat) : Nat := (a % m + (m - b % m)) % m

/-- A sum that saturates at `top`. -/
def satAdd (top a b : Nat) : Nat := min top (a + b)

/-- One or zero. -/
def b2n (b : Bool) : Nat := if b then 1 else 0

/-- The value of an `w`-bit two's complement number. -/
def signed (w n : Nat) : Int := if n % 2 ^ w < 2 ^ (w - 1) then (n % 2 ^ w : Nat) else (n % 2 ^ w : Nat) - (2 ^ w : Nat)

/-- An integer as a two's complement number of `w` bits. -/
def unsigned (w : Nat) (i : Int) : Nat := (i % (2 ^ w : Nat)).toNat

/-- The smallest number not below `a / b`. -/
def ceilDiv (a b : Nat) : Nat := (a + b - 1) / b

/-- The four bytes of a word, byte 0 (bits 7–0) first (R10). -/
def wordBytes (w : Word) : List Byte :=
  [BitVec.ofNat 8 w.toNat, BitVec.ofNat 8 (w.toNat / 256), BitVec.ofNat 8 (w.toNat / 65536),
   BitVec.ofNat 8 (w.toNat / 16777216)]

/-- The number spelled by bytes, the first the least significant. -/
def leNat : List Byte → Nat
  | [] => 0
  | b :: rest => b.toNat + 256 * leNat rest

/-- The number spelled by bytes, the first the most significant. -/
def beNat (bs : List Byte) : Nat := leNat bs.reverse

/-- `n` bytes of a number, the least significant first. -/
def leBytes : Nat → Nat → List Byte
  | 0, _ => []
  | k + 1, v => BitVec.ofNat 8 v :: leBytes k (v / 256)

/-- `n` bytes of a number, the most significant first. -/
def beBytes (n v : Nat) : List Byte := (leBytes n v).reverse

/-- The words spelled by bytes in fours, a short last word padded with zero bytes. -/
def bytesWords : Nat → List Byte → List Word
  | 0, _ => []
  | k + 1, bs => W (leNat (bs.take 4)) :: bytesWords k (bs.drop 4)

/-- The words of a byte string, its last word padded with zeros. -/
def wordsOf (bs : List Byte) : List Word := bytesWords (ceilDiv bs.length 4) bs

/-- The bytes of a word string. -/
def bytesOf (ws : List Word) : List Byte := ws.flatMap wordBytes

end Sys2Proof
end

