-- ==== Sys2Proof/Config.lean ====
section
/-! DEFINITION. What one implementation fixes and what the spec leaves open: constants with no body, so that no proof
can lean on a value of them. -/

namespace Sys2Proof

/-- The low byte of DEV_STEPPING: the one value that differs between silicon steppings (R7, R9)
(assumption 2, DESIGN CHOICE). -/
opaque Config.devStepping : BitVec 8

/-- A value the spec leaves open, fresh at each use of the counter `Hub.free` (assumption 4, DESIGN CHOICE). -/
opaque Config.freeWord : Nat → BitVec 32

/-- The upsets that strike memory: in a tick of root time, the place of the word struck in the order scrub visits words and
then through the non-volatile store, and whether two of its bits or one changed (R145, R195, R360)
(assumption 123, DESIGN CHOICE). -/
opaque Config.upset : Nat → Option (Nat × Bool)

/-- Control checker mismatches: in a tick of root time, the output, the queue and the bank at which one shows (R456, FAB
0x30): the spec names the entry and not what makes it (assumption 147, DESIGN CHOICE). -/
opaque Config.controlFault : Nat → Option (Nat × Nat × Nat)

/-- Whether the security store is found to have lost its integrity in a tick of root time (R456, SEC 0x03)
(assumption 147, DESIGN CHOICE). -/
opaque Config.storeFault : Nat → Bool

/-- The 1 KiB slices of structure memory, whose size no rule gives (R463, R466) (assumption 73, DEDUCED). -/
opaque Config.structSlices : Nat

/-- The memory macro in which a slice of structure memory lies (R463) (assumption 73, DEDUCED). -/
opaque Config.structMacro : Nat → Nat

/-- The bytes that the deterministic generator of key turning makes from a seed: the mask, then the next seed (R444). No rule
gives the generator past its being built on SHA-384 (assumption 148, DESIGN CHOICE). -/
opaque Config.drbgByte : List (BitVec 8) → Nat → BitVec 8

/-- Root periods for which the character in progress on a serial channel's RXD at an instant still lasts, 0 where none is in
progress: what the channel knows when a transmit bank fills (R329) (assumption 62, DEDUCED). -/
opaque Config.rxLeft : Nat → Nat → Nat

/-- The transmitter coefficients of equaliser presets P0 to P9 (R49, R52: TSE names them, no rule gives them)
(assumption 11, DESIGN CHOICE). -/
opaque Config.preset : Nat → BitVec 32

/-- Bytes of the hub function's USB descriptors that no rule gives (R347): descriptor 1 device, 2 configuration, 0x29 hub
(assumption 65, PRESUMED). -/
opaque Config.usbByte : Nat → Nat → BitVec 8

/-- The chain value before the first sealed record of a journal with no checkpoint (R362) (assumption 67, DEDUCED). -/
opaque Config.chainStart : Nat → BitVec 8

/-- DEST of the packets that a DIRECT event group of a tunnel sends: R136 gives none (assumption 36, DESIGN CHOICE). -/
opaque Config.evtDest : Nat → BitVec 14

/-- The private scalars of the vendor attestation key and of the device import key (R433), drawn at manufacture. -/
opaque Config.attestKey : Nat

/-- The device import key's private scalar (R433). -/
opaque Config.importKey : Nat

/-- The device unique secret of 256 bits (R433), drawn at manufacture; no operation of the spec uses it. -/
opaque Config.deviceSecret : BitVec 256

/-- Length and bytes of the DER certificate chains (R445): 0 attestation, 1 import, leaf first. -/
opaque Config.certLength : Nat → Nat

/-- Bytes of the certificate chains. -/
opaque Config.certByte : Nat → Nat → BitVec 8

/-- The SHA-384 of the boot ROM, measured at power-up (R450, R474). -/
opaque Config.bootHash : Nat → BitVec 8

end Sys2Proof
end

