-- ==== Sys2Proof/Machine/Regs.lean ====
section
/-! DEFINITION. The register tables of the spec (every "Offset, Register, Access, Reset, Purpose" table and every
"Bits, Field, Access, Reset, Meaning" table of chapters 00 to 20): the internal address of every register (slot
base 0x4000 × slot, R390), every named field, the reset values, and which fields a plain write sets (R10–R13). -/

namespace Sys2Proof.Machine

/-- A register field: the register's internal address, the field's lowest bit and its width in bits. -/
structure RF where
  addr : Nat
  lo : Nat
  width : Nat
deriving DecidableEq, Repr

/-- What a plain write does to a field (R13). Fields of the other access codes keep their value on a plain write. -/
inductive WKind where
  | rw | rwl | w1c
deriving DecidableEq, Repr

/-- A writable field of a register row: place, width, access, and the ranges of legal encodings (none listed: all
encodings are legal; R12 otherwise). -/
structure WField where
  lo : Nat
  width : Nat
  kind : WKind
  legal : List (Nat × Nat)
deriving DecidableEq, Repr

/-- One row of a register table: offset in its slot, the strides and counts of its indices, its reset value, and
its writable fields. -/
structure RegRow where
  off : Nat
  idx : List (Nat × Nat)
  reset : Nat
  fields : List WField
deriving DecidableEq, Repr

/-- DEV_ID: Vendor code and part number. -/
def A.DEV_ID : Nat := 0x0
/-- DEV_BEHAVIOUR: Behaviour version. -/
def A.DEV_BEHAVIOUR : Nat := 0x4
/-- DEV_STEPPING: Silicon stepping, for traceability only. -/
def A.DEV_STEPPING : Nat := 0x8
/-- LNKE_CTRL: Enable, gear ceiling, retrain, loopback. -/
def A.LNK_CTRL (i : Nat) : Nat := 0x38000 + 16384 * i
/-- LNKE_STATUS: Training state, gear, widths, partner. -/
def A.LNK_STATUS (i : Nat) : Nat := 0x38004 + 16384 * i
/-- LNKE_LANE_RX: Receive state per lane. -/
def A.LNK_LANE_RX (i : Nat) : Nat := 0x38008 + 16384 * i
/-- LNKE_LANE_TX: Transmit state per lane. -/
def A.LNK_LANE_TX (i : Nat) : Nat := 0x3800c + 16384 * i
/-- LNKE_LANE_MAP: Physical pair of each logical receive lane. -/
def A.LNK_LANE_MAP (i : Nat) : Nat := 0x38010 + 16384 * i
/-- LNKE_LOWPWR: Lull and Shed control. -/
def A.LNK_LOWPWR (i : Nat) : Nat := 0x38014 + 16384 * i
/-- LNKE_WITHDRAW: Lane withdrawal. -/
def A.LNK_WITHDRAW (i : Nat) : Nat := 0x38018 + 16384 * i
/-- LNKE_PATTERN: Loopback pattern. -/
def A.LNK_PATTERN (i : Nat) : Nat := 0x3801c + 16384 * i
/-- LNKE_EQ_INDEX: Selects lane, gear and side for LNKE_EQ_DATA. -/
def A.LNK_EQ_INDEX (i : Nat) : Nat := 0x38020 + 16384 * i
/-- LNKE_EQ_DATA: Stored equaliser settings. -/
def A.LNK_EQ_DATA (i : Nat) : Nat := 0x38024 + 16384 * i
/-- LNKE_ERASED: Erased symbols per lane, or checker errors in loopback. -/
def A.LNK_ERASED (i a : Nat) : Nat := 0x38030 + 16384 * i + 4 * a
/-- LNKE_UNCORR: Uncorrectable columns. -/
def A.LNK_UNCORR (i : Nat) : Nat := 0x38044 + 16384 * i
/-- LNKE_NARROW_CNT: Entries to Narrow mode. -/
def A.LNK_NARROW_CNT (i : Nat) : Nat := 0x38048 + 16384 * i
/-- LNKE_DOWN_CNT: Link-down events. -/
def A.LNK_DOWN_CNT (i : Nat) : Nat := 0x3804c + 16384 * i
/-- LNKE_SLIPS: Elastic-buffer slips. -/
def A.LNK_SLIPS (i : Nat) : Nat := 0x38050 + 16384 * i
/-- LNKE_TRAIN_FAIL: Failed bring-ups. -/
def A.LNK_TRAIN_FAIL (i : Nat) : Nat := 0x38054 + 16384 * i
/-- LNKE_CNT_CLEAR: Bit 0 clears every counter at 0x0030–0x005C. -/
def A.LNK_CNT_CLEAR (i : Nat) : Nat := 0x38058 + 16384 * i
/-- LNKE_DISCARD: Packets and columns discarded outside ACTIVE. -/
def A.LNK_DISCARD (i : Nat) : Nat := 0x3805c + 16384 * i
/-- LNKE_PKT_CTRL: Cut-through, wrap, replay limits. -/
def A.LNK_PKT_CTRL (i : Nat) : Nat := 0x38100 + 16384 * i
/-- LNKE_CREDIT_ALLOT: Receive allotment per class. -/
def A.LNK_CREDIT_ALLOT (i : Nat) : Nat := 0x38104 + 16384 * i
/-- LNKE_CREDIT_TX0: Transmit credit available, P and M. -/
def A.LNK_CREDIT_TX0 (i : Nat) : Nat := 0x38108 + 16384 * i
/-- LNKE_CREDIT_TX1: Transmit credit available, D and B. -/
def A.LNK_CREDIT_TX1 (i : Nat) : Nat := 0x3810c + 16384 * i
/-- LNKE_REPLAY_SEQ: Next and last acknowledged LSEQ. -/
def A.LNK_REPLAY_SEQ (i : Nat) : Nat := 0x38110 + 16384 * i
/-- LNKE_REPLAY_FILL: Replay buffer use. -/
def A.LNK_REPLAY_FILL (i : Nat) : Nat := 0x38114 + 16384 * i
/-- LNKE_RX_SEQ: Expected receive LSEQ. -/
def A.LNK_RX_SEQ (i : Nat) : Nat := 0x38118 + 16384 * i
/-- LNKE_CRC_ERR: Bad packets (R79). -/
def A.LNK_CRC_ERR (i : Nat) : Nat := 0x38140 + 16384 * i
/-- LNKE_HDR_ERR: Header errors. -/
def A.LNK_HDR_ERR (i : Nat) : Nat := 0x38144 + 16384 * i
/-- LNKE_LC_ERR: Rejected link-control words. -/
def A.LNK_LC_ERR (i : Nat) : Nat := 0x38148 + 16384 * i
/-- LNKE_NAK_TX: NAKs sent. -/
def A.LNK_NAK_TX (i : Nat) : Nat := 0x3814c + 16384 * i
/-- LNKE_NAK_RX: NAKs received. -/
def A.LNK_NAK_RX (i : Nat) : Nat := 0x38150 + 16384 * i
/-- LNKE_REPLAYED: Packets replayed. -/
def A.LNK_REPLAYED (i : Nat) : Nat := 0x38154 + 16384 * i
/-- LNKE_REPLAY_TO: Replay timeouts. -/
def A.LNK_REPLAY_TO (i : Nat) : Nat := 0x38158 + 16384 * i
/-- LNKE_POISON_RX: Poisoned packets received. -/
def A.LNK_POISON_RX (i : Nat) : Nat := 0x3815c + 16384 * i
/-- LNKE_POISON_TX: Packets poisoned by this transmitter. -/
def A.LNK_POISON_TX (i : Nat) : Nat := 0x38160 + 16384 * i
/-- LNKE_P_COPY_DROP: P copies dropped at this onward port. -/
def A.LNK_P_COPY_DROP (i : Nat) : Nat := 0x38164 + 16384 * i
/-- LNKE_WRAPPED: Packets wrapped away from this port. -/
def A.LNK_WRAPPED (i : Nat) : Nat := 0x38168 + 16384 * i
/-- LNKE_WRAP_DROP: Packets that could not be wrapped or continued. -/
def A.LNK_WRAP_DROP (i : Nat) : Nat := 0x3816c + 16384 * i
/-- LNKE_NOROUTE: Packets with no usable route. -/
def A.LNK_NOROUTE (i : Nat) : Nat := 0x38170 + 16384 * i
/-- LNKE_HOP_DROP: Packets over the hop limit. -/
def A.LNK_HOP_DROP (i : Nat) : Nat := 0x38174 + 16384 * i
/-- LNKE_CREDIT_ERR: Rejected CREDIT values. -/
def A.LNK_CREDIT_ERR (i : Nat) : Nat := 0x38178 + 16384 * i
/-- LNKE_ROUTE_CTRL: Route hold time. -/
def A.LNK_ROUTE_CTRL (i : Nat) : Nat := 0x38200 + 16384 * i
/-- LNKE_WIN_DUP_P_LO: P duplicates discarded, bits [31:0]. -/
def A.LNK_WIN_DUP_P_LO (i : Nat) : Nat := 0x38204 + 16384 * i
/-- LNKE_WIN_DUP_P_HI: P duplicates discarded, bits [47:32] in [15:0]. -/
def A.LNK_WIN_DUP_P_HI (i : Nat) : Nat := 0x38208 + 16384 * i
/-- LNKE_WIN_DUP: M, D and B duplicates discarded. -/
def A.LNK_WIN_DUP (i : Nat) : Nat := 0x3820c + 16384 * i
/-- LNKE_WIN_OUT: Packets accepted outside the window. -/
def A.LNK_WIN_OUT (i : Nat) : Nat := 0x38210 + 16384 * i
/-- LNKE_WIN_RESYNC: RESYNC packets accepted. -/
def A.LNK_WIN_RESYNC (i : Nat) : Nat := 0x38214 + 16384 * i
/-- LNKE_ROUTE: Route entry for each destination address. -/
def A.LNK_ROUTE (i a : Nat) : Nat := 0x38400 + 16384 * i + 4 * a
/-- CLK_CTRL: Preferred candidate and revert. -/
def A.CLK_CTRL : Nat := 0x4000
/-- CLK_STATUS: Mode, selection, qualification. -/
def A.CLK_STATUS : Nat := 0x4004
/-- CLK_EVENT: Clock events; HOLDOVER holds ALERT_N. -/
def A.CLK_EVENT : Nat := 0x4008
/-- CLK_OFFSET_W: W clock against frequency memory. -/
def A.CLK_OFFSET_W : Nat := 0x400c
/-- CLK_OFFSET_E: E clock against frequency memory. -/
def A.CLK_OFFSET_E : Nat := 0x4010
/-- CLK_SLOW_FREQ: Slow clock frequency in Hz (R120). -/
def A.CLK_SLOW_FREQ : Nat := 0x4014
/-- CLK_SWITCH_CNT: Switches to the other candidate. -/
def A.CLK_SWITCH_CNT : Nat := 0x4018
/-- CLK_HOLDOVER_CNT: Entries to HOLDOVER. -/
def A.CLK_HOLDOVER_CNT : Nat := 0x401c
/-- CLK_HOLDOVER_TIME: Duration of the current or last HOLDOVER in µs, saturating. -/
def A.CLK_HOLDOVER_TIME : Nat := 0x4020
/-- CLK_CNT_CLEAR: Bit 0 clears 0x0018–0x0020. -/
def A.CLK_CNT_CLEAR : Nat := 0x4024
/-- TIME_CTRL: Delay recheck and recalibration. -/
def A.TIME_CTRL : Nat := 0x8000
/-- TIME_STATUS: Quality, validity, slewing. -/
def A.TIME_STATUS : Nat := 0x8004
/-- TIME_NOW_LO: Station time [31:0]. -/
def A.TIME_NOW_LO : Nat := 0x8008
/-- TIME_NOW_HI: Station time [63:32]. -/
def A.TIME_NOW_HI : Nat := 0x800c
/-- TIME_MARK_ERR: Last e (R126), 0.25 ns units, two's complement. -/
def A.TIME_MARK_ERR : Nat := 0x8010
/-- TIME_STEP_LAST: Last forward step in ticks, saturating at 0xFFFF_FFFF. -/
def A.TIME_STEP_LAST : Nat := 0x8014
/-- TIME_DELAY_W: Hop delay per port. -/
def A.TIME_DELAY_W : Nat := 0x8018
/-- TIME_DELAY_E: Hop delay per port. -/
def A.TIME_DELAY_E : Nat := 0x801c
/-- TIME_DELAY_S: Hop delay per port. -/
def A.TIME_DELAY_S : Nat := 0x8020
/-- TIME_MARK_MISS: 10 µs marker gaps. -/
def A.TIME_MARK_MISS : Nat := 0x8024
/-- TIME_MARK_BAD: Markers discarded. -/
def A.TIME_MARK_BAD : Nat := 0x8028
/-- TIME_CAL_CNT: Calibrations completed. -/
def A.TIME_CAL_CNT : Nat := 0x802c
/-- TIME_CNT_CLEAR: Bit 0 clears 0x0024–0x002C; bit 1 clears 0x0064–0x0068 and every TIME_EVO_SKIP. -/
def A.TIME_CNT_CLEAR : Nat := 0x8030
/-- TIME_EVI_EDGE0: Edge selection, pins 0–15. -/
def A.TIME_EVI_EDGE0 : Nat := 0x8040
/-- TIME_EVI_EDGE1: Edge selection, pins 16–31. -/
def A.TIME_EVI_EDGE1 : Nat := 0x8044
/-- TIME_EVI_LEVEL: Filtered level, bit n for EVIn. -/
def A.TIME_EVI_LEVEL : Nat := 0x8048
/-- TIME_EVI_FIFO_STAT: FIFO fill and next sequence. -/
def A.TIME_EVI_FIFO_STAT : Nat := 0x804c
/-- TIME_EVI_POP: Bit 0 removes the oldest record. -/
def A.TIME_EVI_POP : Nat := 0x8050
/-- TIME_EVI_REC: Oldest record, words 0–3; zero when empty. -/
def A.TIME_EVI_REC (a : Nat) : Nat := 0x8054 + 4 * a
/-- TIME_EVI_LOST: Records discarded on a full FIFO. -/
def A.TIME_EVI_LOST : Nat := 0x8064
/-- TIME_EVI_GLITCH: Glitches, all pins. -/
def A.TIME_EVI_GLITCH : Nat := 0x8068
/-- TIME_EVI_FILT: Filter per pin. -/
def A.TIME_EVI_FILT (a : Nat) : Nat := 0x8080 + 4 * a
/-- TIME_EVO_CTRL_n: Output n control, n = 0–7. -/
def A.TIME_EVO_CTRL (a : Nat) : Nat := 0x8100 + 32 * a
/-- TIME_EVO_START_LO_n: START [31:0]. -/
def A.TIME_EVO_START_LO (a : Nat) : Nat := 0x8104 + 32 * a
/-- TIME_EVO_START_HI_n: START [63:32]. -/
def A.TIME_EVO_START_HI (a : Nat) : Nat := 0x8108 + 32 * a
/-- TIME_EVO_PERIOD_n: PERIOD in ticks. -/
def A.TIME_EVO_PERIOD (a : Nat) : Nat := 0x810c + 32 * a
/-- TIME_EVO_COUNT_n: COUNT [15:0], 1–65,535; 0 reserved; [31:16] reserved. -/
def A.TIME_EVO_COUNT (a : Nat) : Nat := 0x8110 + 32 * a
/-- TIME_EVO_WIDTH_n: WIDTH in ticks. -/
def A.TIME_EVO_WIDTH (a : Nat) : Nat := 0x8114 + 32 * a
/-- TIME_EVO_STATUS_n: Output state. -/
def A.TIME_EVO_STATUS (a : Nat) : Nat := 0x8118 + 32 * a
/-- TIME_EVO_SKIP_n: Edges skipped. -/
def A.TIME_EVO_SKIP (a : Nat) : Nat := 0x811c + 32 * a
/-- FAB_CTRL: Sweep enable. -/
def A.FAB_CTRL : Nat := 0x28000
/-- FAB_STATUS: Rebuild in progress. -/
def A.FAB_STATUS : Nat := 0x28004
/-- FAB_CELLS_FREE: Free cells, 0–131,072. -/
def A.FAB_CELLS_FREE : Nat := 0x28008
/-- FAB_DESC_FREE: Free descriptors, 0–32,768. -/
def A.FAB_DESC_FREE : Nat := 0x2800c
/-- FAB_POOL: Pool size in cells (R151). -/
def A.FAB_POOL : Nat := 0x28010
/-- FAB_MRES: M reserve in cells and descriptors. -/
def A.FAB_MRES : Nat := 0x28014
/-- FAB_SWEEP: Sweep interval. -/
def A.FAB_SWEEP : Nat := 0x28018
/-- FAB_QDUMP: Dump request. -/
def A.FAB_QDUMP : Nat := 0x2801c
/-- FAB_SPARGE: Sparge request. -/
def A.FAB_SPARGE : Nat := 0x28020
/-- FAB_QRESET_LAST: Last reset queue. -/
def A.FAB_QRESET_LAST : Nat := 0x28024
/-- FAB_QRESET_STAMP: Short stamp of that reset. -/
def A.FAB_QRESET_STAMP : Nat := 0x28028
/-- FAB_CNT_INDEX: Counter selection. -/
def A.FAB_CNT_INDEX : Nat := 0x2802c
/-- FAB_CNT_LO: Selected counter [31:0]. -/
def A.FAB_CNT_LO : Nat := 0x28030
/-- FAB_CNT_HI: Selected counter [47:32] in [15:0]. -/
def A.FAB_CNT_HI : Nat := 0x28034
/-- FAB_CNT_CLEAR: Bit 0 clears every FAB counter. -/
def A.FAB_CNT_CLEAR : Nat := 0x28038
/-- FAB_AGE_P: P age limit. -/
def A.FAB_AGE_P : Nat := 0x28040
/-- FAB_AGE_M: M age limit. -/
def A.FAB_AGE_M : Nat := 0x28044
/-- FAB_AGE_D: D age limit. -/
def A.FAB_AGE_D : Nat := 0x28048
/-- FAB_AGE_B: B age limit. -/
def A.FAB_AGE_B : Nat := 0x2804c
/-- FAB_QLIM_P: Link-output queue limit, P. -/
def A.FAB_QLIM_P : Nat := 0x28050
/-- FAB_QLIM_M: Link-output queue limit, M. -/
def A.FAB_QLIM_M : Nat := 0x28054
/-- FAB_QLIM_D: Link-output queue limit, D. -/
def A.FAB_QLIM_D : Nat := 0x28058
/-- FAB_QLIM_B: Link-output queue limit, B. -/
def A.FAB_QLIM_B : Nat := 0x2805c
/-- FAB_OLIM_o_c: Output limit, output o = 0–13, class c in CLASS encoding. -/
def A.FAB_OLIM (a b : Nat) : Nat := 0x28100 + 16 * a + 4 * b
/-- FAB_TLIM_n: Local queue limit of tunnel n = 0–95. -/
def A.FAB_TLIM (a : Nat) : Nat := 0x28200 + 4 * a
/-- FAB_OUSE_o_c: Cells in use, output o, class c. -/
def A.FAB_OUSE (a b : Nat) : Nat := 0x28400 + 16 * a + 4 * b
/-- POL_CNT_CLEAR: Bit 0 clears every POL_DROP and POL_PASS. -/
def A.POL_CNT_CLEAR : Nat := 0x2c000
/-- POL_CFG_n: Enable. -/
def A.POL_CFG (a : Nat) : Nat := 0x2c100 + 32 * a
/-- POL_RATE_n: RATE. -/
def A.POL_RATE (a : Nat) : Nat := 0x2c104 + 32 * a
/-- POL_BURST_n: BURST. -/
def A.POL_BURST (a : Nat) : Nat := 0x2c108 + 32 * a
/-- POL_TOKENS_n: Bucket content. -/
def A.POL_TOKENS (a : Nat) : Nat := 0x2c10c + 32 * a
/-- POL_DROP_LO_n: Packets dropped [31:0]. -/
def A.POL_DROP_LO (a : Nat) : Nat := 0x2c110 + 32 * a
/-- POL_DROP_HI_n: Packets dropped [47:32] in [15:0]. -/
def A.POL_DROP_HI (a : Nat) : Nat := 0x2c114 + 32 * a
/-- POL_PASS_LO_n: Packets admitted [31:0]. -/
def A.POL_PASS_LO (a : Nat) : Nat := 0x2c118 + 32 * a
/-- POL_PASS_HI_n: Packets admitted [47:32] in [15:0]. -/
def A.POL_PASS_HI (a : Nat) : Nat := 0x2c11c + 32 * a
/-- SCH_CTRL: D excess, arm, disarm. -/
def A.SCH_CTRL : Nat := 0x30000
/-- SCH_STATUS: Active bank, arming state, swap count. -/
def A.SCH_STATUS : Nat := 0x30004
/-- SCH_EPOCH: Current epoch number (R180). -/
def A.SCH_EPOCH : Nat := 0x30008
/-- SCH_ARM_EPOCH: Target epoch number. -/
def A.SCH_ARM_EPOCH : Nat := 0x3000c
/-- SCH_MISSED_EPOCH: Target of the last missed swap (R185). -/
def A.SCH_MISSED_EPOCH : Nat := 0x30010
/-- SCH_PCAP: Staged and active P cap. -/
def A.SCH_PCAP : Nat := 0x30014
/-- SCH_PBURST: P bucket depth. -/
def A.SCH_PBURST : Nat := 0x30018
/-- SCH_SETTLE: Settle interval. -/
def A.SCH_SETTLE : Nat := 0x3001c
/-- SCH_DRES_E: DRES per scheduler (R173). -/
def A.SCH_DRES_E : Nat := 0x30020
/-- SCH_DRES_W: DRES per scheduler (R173). -/
def A.SCH_DRES_W : Nat := 0x30024
/-- SCH_DRES_S: DRES per scheduler (R173). -/
def A.SCH_DRES_S : Nat := 0x30028
/-- SCH_DRES_LOCAL: DRES per scheduler (R173). -/
def A.SCH_DRES_LOCAL : Nat := 0x3002c
/-- SCH_OVERSUB: Oversubscribed epochs (R176). -/
def A.SCH_OVERSUB : Nat := 0x30030
/-- SCH_CNT_CLEAR: Bit 0 clears SCH_OVERSUB and SWAP_CNT. -/
def A.SCH_CNT_CLEAR : Nat := 0x30034
/-- SCH_QMON_INDEX: Queue selection (R188). -/
def A.SCH_QMON_INDEX : Nat := 0x30040
/-- SCH_QMON_DEPTH_LAST: Latest depth. -/
def A.SCH_QMON_DEPTH_LAST : Nat := 0x30044
/-- SCH_QMON_DEPTH_MAX: Largest depth; restarts when read. -/
def A.SCH_QMON_DEPTH_MAX : Nat := 0x30048
/-- SCH_QMON_DEPTH_MEAN: Mean depth; restarts when read. -/
def A.SCH_QMON_DEPTH_MEAN : Nat := 0x3004c
/-- SCH_QMON_HOL_LAST: Latest head-of-line delay. -/
def A.SCH_QMON_HOL_LAST : Nat := 0x30050
/-- SCH_QMON_HOL_MAX: Largest delay; restarts when read. -/
def A.SCH_QMON_HOL_MAX : Nat := 0x30054
/-- SCH_QMON_HOL_MEAN: Mean delay; restarts when read. -/
def A.SCH_QMON_HOL_MEAN : Nat := 0x30058
/-- SCH_GRANT_s_b_e: Entry e = 0–127 of bank b = 0–1 of scheduler s: 0 E, 1 W, 2 S, 3 LOCAL. -/
def A.SCH_GRANT (a b c : Nat) : Nat := 0x31000 + 1024 * a + 512 * b + 4 * c
/-- TUNC_CTRL: Spare enable. -/
def A.TUNC_CTRL : Nat := 0x34000
/-- TUNC_STATUS: Spare state, failed tuns. -/
def A.TUNC_STATUS : Nat := 0x34004
/-- TUNC_FORCE: Forced takeover (R218). -/
def A.TUNC_FORCE : Nat := 0x34008
/-- TUNC_WDOG: Watchdog limit (R202). -/
def A.TUNC_WDOG : Nat := 0x3400c
/-- TUNC_PITCH_SRC: Internal address of the image. -/
def A.TUNC_PITCH_SRC : Nat := 0x34010
/-- TUNC_PITCH_CTRL: Tunnel, mode, GO. -/
def A.TUNC_PITCH_CTRL : Nat := 0x34014
/-- TUNC_PITCH_BASE: Window bases. -/
def A.TUNC_PITCH_BASE : Nat := 0x34018
/-- TUNC_PITCH_STATUS: Busy, result, count. -/
def A.TUNC_PITCH_STATUS : Nat := 0x3401c
/-- TUNC_STOP: Stop a context (R217). -/
def A.TUNC_STOP : Nat := 0x34020
/-- TUNC_DOORBELL: Ring a context's MAIL event. -/
def A.TUNC_DOORBELL : Nat := 0x34024
/-- TUNC_COLD_RESULT0: Cold-pitch results, entries 0–7. -/
def A.TUNC_COLD_RESULT0 : Nat := 0x34028
/-- TUNC_COLD_RESULT1: Cold-pitch results, entries 8–15. -/
def A.TUNC_COLD_RESULT1 : Nat := 0x3402c
/-- TUNC_MEAS_CHAIN: Pitch chain, bytes 4k to 4k + 3 in word k. -/
def A.TUNC_MEAS_CHAIN (a : Nat) : Nat := 0x34030 + 4 * a
/-- TUNC_BIND_REQ_n: Binding request. -/
def A.TUNC_BIND_REQ (a : Nat) : Nat := 0x34100 + 64 * a
/-- TUNC_BOUND_n: Binding in force and result. -/
def A.TUNC_BOUND (a : Nat) : Nat := 0x34104 + 64 * a
/-- TUNC_CTX_CFG_n: Trap handling. -/
def A.TUNC_CTX_CFG (a : Nat) : Nat := 0x34108 + 64 * a
/-- TUNC_CTX_STATUS_n: State and trap cause. -/
def A.TUNC_CTX_STATUS (a : Nat) : Nat := 0x3410c + 64 * a
/-- TUNC_CTX_PC_n: PC last issued, or of the trap. -/
def A.TUNC_CTX_PC (a : Nat) : Nat := 0x34110 + 64 * a
/-- TUNC_CTX_ADDR_n: Faulting address or TRAP code. -/
def A.TUNC_CTX_ADDR (a : Nat) : Nat := 0x34114 + 64 * a
/-- TUNC_CTX_CODE_n: Code window. -/
def A.TUNC_CTX_CODE (a : Nat) : Nat := 0x34118 + 64 * a
/-- TUNC_CTX_DATA_n: Data window. -/
def A.TUNC_CTX_DATA (a : Nat) : Nat := 0x3411c + 64 * a
/-- TUNC_CTX_EVENTS_n: Event bits (R200) in [17:0]. -/
def A.TUNC_CTX_EVENTS (a : Nat) : Nat := 0x34120 + 64 * a
/-- TUNC_CTX_ISSUED_n: Instructions issued, wrapping modulo 2^32. -/
def A.TUNC_CTX_ISSUED (a : Nat) : Nat := 0x34124 + 64 * a
/-- TUNC_MEAS_n_k: Program hash H, bytes 4k to 4k + 3. -/
def A.TUNC_MEAS (a b : Nat) : Nat := 0x36000 + 64 * a + 4 * b
/-- TUNC_MEAS_INFO_n: Measurement attributes. -/
def A.TUNC_MEAS_INFO (a : Nat) : Nat := 0x36030 + 64 * a
/-- DSP0_CTRL: Enable, link, mapping, divisor, fallback. -/
def A.DSP_CTRL (i : Nat) : Nat := 0x54000 + 16384 * i
/-- DSP0_STATUS: Running state and refusals. -/
def A.DSP_STATUS (i : Nat) : Nat := 0x54004 + 16384 * i
/-- DSP0_START_LO: START [31:0]. -/
def A.DSP_START_LO (i : Nat) : Nat := 0x54008 + 16384 * i
/-- DSP0_START_HI: START [63:32]. -/
def A.DSP_START_HI (i : Nat) : Nat := 0x5400c + 16384 * i
/-- DSP0_HTIME0: [11:0] HACTIVE, [27:16] HFP. -/
def A.DSP_HTIME0 (i : Nat) : Nat := 0x54010 + 16384 * i
/-- DSP0_HTIME1: [11:0] HSYNC, [27:16] HBP. -/
def A.DSP_HTIME1 (i : Nat) : Nat := 0x54014 + 16384 * i
/-- DSP0_VTIME0: [11:0] VACTIVE, [27:16] VFP. -/
def A.DSP_VTIME0 (i : Nat) : Nat := 0x54018 + 16384 * i
/-- DSP0_VTIME1: [11:0] VSYNC, [27:16] VBP. -/
def A.DSP_VTIME1 (i : Nat) : Nat := 0x5401c + 16384 * i
/-- DSP0_FRAME_CNT: Frame counter (R297). -/
def A.DSP_FRAME_CNT (i : Nat) : Nat := 0x54020 + 16384 * i
/-- DSP0_FLIP_LO: Last flip stamp [31:0]. -/
def A.DSP_FLIP_LO (i : Nat) : Nat := 0x54024 + 16384 * i
/-- DSP0_FLIP_HI: Last flip stamp [63:32]. -/
def A.DSP_FLIP_HI (i : Nat) : Nat := 0x54028 + 16384 * i
/-- DSP0_FLIP_FRAME: FRAME_CNT of the last flip. -/
def A.DSP_FLIP_FRAME (i : Nat) : Nat := 0x5402c + 16384 * i
/-- DSP0_UNDER_BASE: Base layer underruns. -/
def A.DSP_UNDER_BASE (i : Nat) : Nat := 0x54030 + 16384 * i
/-- DSP0_UNDER_MAIN: Main layer underruns. -/
def A.DSP_UNDER_MAIN (i : Nat) : Nat := 0x54034 + 16384 * i
/-- DSP0_DROP: Segments and banner packets discarded. -/
def A.DSP_DROP (i : Nat) : Nat := 0x54038 + 16384 * i
/-- DSP0_FB_CNT: Fallback entries. -/
def A.DSP_FB_CNT (i : Nat) : Nat := 0x5403c + 16384 * i
/-- DSP0_CNT_CLEAR: Bit 0 clears 0x0030–0x003C. -/
def A.DSP_CNT_CLEAR (i : Nat) : Nat := 0x54040 + 16384 * i
/-- DSP0_LL_CTRL: Layer enable, format, source, alpha. -/
def A.DSP_L_CTRL (i a : Nat) : Nat := 0x54100 + 16384 * i + 64 * a
/-- DSP0_LL_POS: [11:0] X, [27:16] Y. -/
def A.DSP_L_POS (i a : Nat) : Nat := 0x54104 + 16384 * i + 64 * a
/-- DSP0_LL_SIZE: [11:0] W, [27:16] H. -/
def A.DSP_L_SIZE (i a : Nat) : Nat := 0x54108 + 16384 * i + 64 * a
/-- DSP0_LL_COLOUR: Base colour, XRGB8888. -/
def A.DSP_L_COLOUR (i a : Nat) : Nat := 0x5410c + 16384 * i + 64 * a
/-- DSP0_LL_ADDR: Bitmap internal address; [1:0] must be zero (R293). -/
def A.DSP_L_ADDR (i a : Nat) : Nat := 0x54110 + 16384 * i + 64 * a
/-- DSP0_LL_STRIDE: [15:0] line stride in bytes. -/
def A.DSP_L_STRIDE (i a : Nat) : Nat := 0x54114 + 16384 * i + 64 * a
/-- DSP0_LL_STATUS: Layer status. -/
def A.DSP_L_STATUS (i a : Nat) : Nat := 0x54118 + 16384 * i + 64 * a
/-- ETH0_CTRL: Mode, auto-negotiation, frame limit. -/
def A.ETH_CTRL (i : Nat) : Nat := 0x5c000 + 16384 * i
/-- ETH0_STATUS: Link state. -/
def A.ETH_STATUS (i : Nat) : Nat := 0x5c004 + 16384 * i
/-- ETH0_AN_LP: Partner base page in [15:0]; [31:16] reserved. -/
def A.ETH_AN_LP (i : Nat) : Nat := 0x5c008 + 16384 * i
/-- ETH0_MAC_LO: Port MAC address bytes 0–3, byte 0 sent first, in [7:0]. -/
def A.ETH_MAC_LO (i : Nat) : Nat := 0x5c00c + 16384 * i
/-- ETH0_MAC_HI: Bytes 4–5 in [15:0]; [31:16] reserved. -/
def A.ETH_MAC_HI (i : Nat) : Nat := 0x5c010 + 16384 * i
/-- ETH0_RX_FRAMES: Frames sent into sets or PTP. -/
def A.ETH_RX_FRAMES (i : Nat) : Nat := 0x5c040 + 16384 * i
/-- ETH0_RX_FCS_ERR: FCS and code errors. -/
def A.ETH_RX_FCS_ERR (i : Nat) : Nat := 0x5c044 + 16384 * i
/-- ETH0_RX_LEN_ERR: Runt and oversize frames. -/
def A.ETH_RX_LEN_ERR (i : Nat) : Nat := 0x5c048 + 16384 * i
/-- ETH0_RX_OVERFLOW: Receive FIFO full. -/
def A.ETH_RX_OVERFLOW (i : Nat) : Nat := 0x5c04c + 16384 * i
/-- ETH0_RX_NOMATCH: No rule matched. -/
def A.ETH_RX_NOMATCH (i : Nat) : Nat := 0x5c050 + 16384 * i
/-- ETH0_RX_NOSET: Set unbound or DEST unusable. -/
def A.ETH_RX_NOSET (i : Nat) : Nat := 0x5c054 + 16384 * i
/-- ETH0_RX_ADMIT: Frames cut short by admission. -/
def A.ETH_RX_ADMIT (i : Nat) : Nat := 0x5c058 + 16384 * i
/-- ETH0_RX_PAUSE: PAUSE frames. -/
def A.ETH_RX_PAUSE (i : Nat) : Nat := 0x5c05c + 16384 * i
/-- ETH0_TX_FRAMES: Frames sent, PTP included. -/
def A.ETH_TX_FRAMES (i : Nat) : Nat := 0x5c060 + 16384 * i
/-- ETH0_TX_DOWN_DROP: Frames discarded, link not UP. -/
def A.ETH_TX_DOWN_DROP (i : Nat) : Nat := 0x5c064 + 16384 * i
/-- ETH0_TX_REASM_ERR: Partial frames discarded. -/
def A.ETH_TX_REASM_ERR (i : Nat) : Nat := 0x5c068 + 16384 * i
/-- ETH0_TX_TRUNC: Frames cut off (R307). -/
def A.ETH_TX_TRUNC (i : Nat) : Nat := 0x5c06c + 16384 * i
/-- ETH0_LINK_DOWN_CNT: Falls from UP. -/
def A.ETH_LINK_DOWN_CNT (i : Nat) : Nat := 0x5c070 + 16384 * i
/-- ETH0_CNT_CLEAR: Bit 0 clears 0x0040–0x0070. -/
def A.ETH_CNT_CLEAR (i : Nat) : Nat := 0x5c074 + 16384 * i
/-- ETH0_RULE_A_k: Rule k = 0–15, VID and set. -/
def A.ETH_RULE_A (i a : Nat) : Nat := 0x5c100 + 16384 * i + 8 * a
/-- ETH0_RULE_B_k: Rule k, EtherType and PCP. -/
def A.ETH_RULE_B (i a : Nat) : Nat := 0x5c104 + 16384 * i + 8 * a
/-- ETH0_SET_DEST_s: Set s = 0–7: DEST in [13:0]; [31:14] reserved. -/
def A.ETH_SET_DEST (i a : Nat) : Nat := 0x5c200 + 16384 * i + 8 * a
/-- ETH0_SET_EGRESS_s: Set s egress handling. -/
def A.ETH_SET_EGRESS (i a : Nat) : Nat := 0x5c204 + 16384 * i + 8 * a
/-- PTP_CTRL: Enable, two-step, apply origin. -/
def A.PTP_CTRL : Nat := 0x6c000
/-- PTP_STATUS: Origin state. -/
def A.PTP_STATUS : Nat := 0x6c004
/-- PTP_ORIGIN_NS: [29:0] nanoseconds 0–999,999,999; larger values reserved; [31:30] reserved. -/
def A.PTP_ORIGIN_NS : Nat := 0x6c008
/-- PTP_ORIGIN_S_LO: Seconds [31:0]. -/
def A.PTP_ORIGIN_S_LO : Nat := 0x6c00c
/-- PTP_ORIGIN_S_HI: Seconds [47:32] in [15:0]; [31:16] reserved. -/
def A.PTP_ORIGIN_S_HI : Nat := 0x6c010
/-- PTP_CLOCK_ID_LO: clockIdentity bytes 0–3, 4–7, byte 0 in [7:0]. -/
def A.PTP_CLOCK_ID_LO : Nat := 0x6c014
/-- PTP_CLOCK_ID_HI: clockIdentity bytes 0–3, 4–7, byte 0 in [7:0]. -/
def A.PTP_CLOCK_ID_HI : Nat := 0x6c018
/-- PTP_DS: [7:0] DOMAIN, [15:8] PRIORITY1, [23:16] PRIORITY2; [31:24] reserved. -/
def A.PTP_DS : Nat := 0x6c01c
/-- PTP_GM_ID_LO: grandmasterIdentity, as CLOCK_ID. -/
def A.PTP_GM_ID_LO : Nat := 0x6c020
/-- PTP_GM_ID_HI: grandmasterIdentity, as CLOCK_ID. -/
def A.PTP_GM_ID_HI : Nat := 0x6c024
/-- PTP_GM_QUAL: [7:0] CLASS, [15:8] ACCURACY, [31:16] VARIANCE. -/
def A.PTP_GM_QUAL : Nat := 0x6c028
/-- PTP_GM_PRIO: [7:0] GM_PRIORITY1, [15:8] GM_PRIORITY2, [23:16] TIME_SOURCE; [31:24] reserved. -/
def A.PTP_GM_PRIO : Nat := 0x6c02c
/-- PTP_GM_PATH: [15:0] STEPS_REMOVED; [31:16] reserved. -/
def A.PTP_GM_PATH : Nat := 0x6c030
/-- PTP_UTC: UTC offset and flags. -/
def A.PTP_UTC : Nat := 0x6c034
/-- PTP_HOLD: [7:0] CLASS_HOLD, [15:8] ACCURACY_HOLD; [31:16] reserved. -/
def A.PTP_HOLD : Nat := 0x6c038
/-- PTP_INTERVALS: Log message intervals. -/
def A.PTP_INTERVALS : Nat := 0x6c03c
/-- PTP_CNT_CLEAR: Bit 0 clears every port counter. -/
def A.PTP_CNT_CLEAR : Nat := 0x6c080
/-- PTP_PORT_CTRL_x: Port enable and tagging. -/
def A.PTP_PORT_CTRL (a : Nat) : Nat := 0x6c100 + 32 * a
/-- PTP_PORT_STATUS_x: Port state. -/
def A.PTP_PORT_STATUS (a : Nat) : Nat := 0x6c104 + 32 * a
/-- PTP_PDELAY_x: [23:0] meanLinkDelay in 0.25 ns, saturating; [30:24] reserved; [31] VALID. -/
def A.PTP_PDELAY (a : Nat) : Nat := 0x6c108 + 32 * a
/-- PTP_SYNC_TX_x: Syncs sent. -/
def A.PTP_SYNC_TX (a : Nat) : Nat := 0x6c10c + 32 * a
/-- PTP_PDELAY_RX_x: Pdelay_Req answered. -/
def A.PTP_PDELAY_RX (a : Nat) : Nat := 0x6c110 + 32 * a
/-- PTP_DISCARD_x: Messages discarded (R314). -/
def A.PTP_DISCARD (a : Nat) : Nat := 0x6c114 + 32 * a
/-- PTP_FOREIGN_x: Foreign Announce and Sync. -/
def A.PTP_FOREIGN (a : Nat) : Nat := 0x6c118 + 32 * a
/-- SER_CNT_CLEAR: Bit 0 clears every channel counter. -/
def A.SER_CNT_CLEAR : Nat := 0x70000
/-- SER_CFG_c: Format, mode, flow control. -/
def A.SER_CFG (a : Nat) : Nat := 0x70100 + 64 * a
/-- SER_BAUD_c: [23:0] DIV (R321); values below 80 reserved; [31:24] reserved. -/
def A.SER_BAUD (a : Nat) : Nat := 0x70104 + 64 * a
/-- SER_FRAME_c: Packet closing. -/
def A.SER_FRAME (a : Nat) : Nat := 0x70108 + 64 * a
/-- SER_WMARK_c: Watermarks. -/
def A.SER_WMARK (a : Nat) : Nat := 0x7010c + 64 * a
/-- SER_DE_c: [3:0] LEAD, [11:8] TRAIL, 0–15 bit times; other bits reserved. -/
def A.SER_DE (a : Nat) : Nat := 0x70110 + 64 * a
/-- SER_DEST_c: [13:0] DIRECT destination; [31:14] reserved. -/
def A.SER_DEST (a : Nat) : Nat := 0x70114 + 64 * a
/-- SER_STATUS_c: Fills and pin states. -/
def A.SER_STATUS (a : Nat) : Nat := 0x70118 + 64 * a
/-- SER_FLUSH_c: [0] DUMP_RX, [1] DUMP_TX (R330). -/
def A.SER_FLUSH (a : Nat) : Nat := 0x7011c + 64 * a
/-- SER_RX_ERR_c: Parity and framing errors. -/
def A.SER_RX_ERR (a : Nat) : Nat := 0x70120 + 64 * a
/-- SER_RX_BREAK_c: Breaks. -/
def A.SER_RX_BREAK (a : Nat) : Nat := 0x70124 + 64 * a
/-- SER_RX_OVERRUN_c: Characters overrun. -/
def A.SER_RX_OVERRUN (a : Nat) : Nat := 0x70128 + 64 * a
/-- SER_RX_DISCARD_c: Receive packets and characters discarded. -/
def A.SER_RX_DISCARD (a : Nat) : Nat := 0x7012c + 64 * a
/-- SER_TX_DISCARD_c: Transmit packets discarded. -/
def A.SER_TX_DISCARD (a : Nat) : Nat := 0x70130 + 64 * a
/-- USBH_CTRL: Enable, SOF, hold, retries, reset length. -/
def A.USBH_CTRL : Nat := 0x74000
/-- USBH_FRAME: Microframe index. -/
def A.USBH_FRAME : Nat := 0x74004
/-- USBH_FRAME_ADJ: [7:0] ADJ in bit times, two's complement; [31:8] reserved. -/
def A.USBH_FRAME_ADJ : Nat := 0x74008
/-- USBH_BASE_UF: [13:0] index at BASE; [31:14] reserved. -/
def A.USBH_BASE_UF : Nat := 0x7400c
/-- USBH_BASE_LO: BASE [31:0]. -/
def A.USBH_BASE_LO : Nat := 0x74010
/-- USBH_BASE_HI: BASE [63:32]. -/
def A.USBH_BASE_HI : Nat := 0x74014
/-- USBH_SOF_LO: Full stamp of the last microframe 0 start [31:0]. -/
def A.USBH_SOF_LO : Nat := 0x74018
/-- USBH_SOF_HI: The same stamp [63:32]. -/
def A.USBH_SOF_HI : Nat := 0x7401c
/-- USBH_CNT_CLEAR: Bit 0 clears every port counter. -/
def A.USBH_CNT_CLEAR : Nat := 0x74020
/-- USBH_PORT_CTRL_p: Port actions (R343). -/
def A.USBH_PORT_CTRL (a : Nat) : Nat := 0x74100 + 64 * a
/-- USBH_PORT_STATUS_p: Port state and changes. -/
def A.USBH_PORT_STATUS (a : Nat) : Nat := 0x74104 + 64 * a
/-- USBH_DEST_p_k: [13:0] result destination for instance k = 0–2; [31:14] reserved. -/
def A.USBH_DEST (a b : Nat) : Nat := 0x74108 + 64 * a + 4 * b
/-- USBH_SPLITS_p: SSPLITs accepted. -/
def A.USBH_SPLITS (a : Nat) : Nat := 0x74114 + 64 * a
/-- USBH_SPLIT_EXPIRED_p: Results expired (R338). -/
def A.USBH_SPLIT_EXPIRED (a : Nat) : Nat := 0x74118 + 64 * a
/-- USBH_SPLIT_DISCARD_p: Malformed records and undeliverable results (R335). -/
def A.USBH_SPLIT_DISCARD (a : Nat) : Nat := 0x7411c + 64 * a
/-- USBH_XACT_ERR_p: ERR and BABBLE results. -/
def A.USBH_XACT_ERR (a : Nat) : Nat := 0x74120 + 64 * a
/-- USBH_HALTS_p: HALTED results (R342). -/
def A.USBH_HALTS (a : Nat) : Nat := 0x74124 + 64 * a
/-- EMMC_CTRL: Enable, reset, mode, width, divisor. -/
def A.EMMC_CTRL : Nat := 0x78000
/-- EMMC_STATUS: Busy, done, error. -/
def A.EMMC_STATUS : Nat := 0x78004
/-- EMMC_CMD: Command. -/
def A.EMMC_CMD : Nat := 0x78008
/-- EMMC_ARG: Command argument. -/
def A.EMMC_ARG : Nat := 0x7800c
/-- EMMC_RESP: Response bits [31:0] to [127:96]. -/
def A.EMMC_RESP (a : Nat) : Nat := 0x78010 + 4 * a
/-- EMMC_DMA_ADDR: Internal address; [1:0] must be zero, or GO sets ERR 5. -/
def A.EMMC_DMA_ADDR : Nat := 0x78020
/-- EMMC_BLOCKS: [15:0] blocks, 1–65,535; 0 reserved; [31:16] reserved. -/
def A.EMMC_BLOCKS : Nat := 0x78024
/-- EMMC_TIMEOUT: [23:0] data timeout in µs, 1–16,777,215; 0 reserved; [31:24] reserved. -/
def A.EMMC_TIMEOUT : Nat := 0x78028
/-- EMMC_TUNE: [5:0] sample delay tap 0–63; [31:6] reserved. -/
def A.EMMC_TUNE : Nat := 0x7802c
/-- EMMC_CRC_ERR: Response and data CRC errors. -/
def A.EMMC_CRC_ERR : Nat := 0x78030
/-- EMMC_TO_CNT: Response and data timeouts. -/
def A.EMMC_TO_CNT : Nat := 0x78034
/-- EMMC_CNT_CLEAR: Bit 0 clears 0x0030–0x0034. -/
def A.EMMC_CNT_CLEAR : Nat := 0x78038
/-- JRN_CTRL: [0] WEAR_EN (R367); [31:1] reserved. -/
def A.JRN_CTRL : Nat := 0x24000
/-- JRN_STATUS: Head, pass, state. -/
def A.JRN_STATUS : Nat := 0x24004
/-- JRN_PROT_CNT: [14:0] protected records, 0–16,384; [31:15] reserved. -/
def A.JRN_PROT_CNT : Nat := 0x24008
/-- JRN_PROT_LIMIT: Protection limit and lock. -/
def A.JRN_PROT_LIMIT : Nat := 0x2400c
/-- JRN_UNPROTECT: Unprotect request. -/
def A.JRN_UNPROTECT : Nat := 0x24010
/-- JRN_STORE_SRC: Image address; [5:0] must be zero, or the store gives SOURCE. -/
def A.JRN_STORE_SRC : Nat := 0x24014
/-- JRN_STORE_CTRL: Store request. -/
def A.JRN_STORE_CTRL : Nat := 0x24018
/-- JRN_STORE_BASE: Window bases, laid out as TUNC_PITCH_BASE. -/
def A.JRN_STORE_BASE : Nat := 0x2401c
/-- JRN_STORE_LEN: [17:0] panel-image bytes; [31:18] reserved. -/
def A.JRN_STORE_LEN : Nat := 0x24020
/-- JRN_STORE_STATUS: Busy and result. -/
def A.JRN_STORE_STATUS : Nat := 0x24024
/-- JRN_LOST: Commits lost to power loss (R363). -/
def A.JRN_LOST : Nat := 0x24028
/-- JRN_SKIPPED: Protected slots skipped (R365). -/
def A.JRN_SKIPPED : Nat := 0x2402c
/-- JRN_MOVES: Wear moves. -/
def A.JRN_MOVES : Nat := 0x24030
/-- JRN_CNT_CLEAR: Bit 0 clears 0x0028–0x0030. -/
def A.JRN_CNT_CLEAR : Nat := 0x24034
/-- BRG_CTRL: Completion timeout, retry delay. -/
def A.BRG_CTRL : Nat := 0x14000
/-- BRG_STATUS: Error flags. -/
def A.BRG_STATUS : Nat := 0x14004
/-- BRG_PW_ERR_ADDR: Address of the last failed posted write. -/
def A.BRG_PW_ERR_ADDR : Nat := 0x14008
/-- BRG_PW_ERR_INFO: Its cause and count. -/
def A.BRG_PW_ERR_INFO : Nat := 0x1400c
/-- BRG_OUTSTANDING: Reads outstanding. -/
def A.BRG_OUTSTANDING : Nat := 0x14010
/-- BRG_BAD_REQ: Discarded requests and completions. -/
def A.BRG_BAD_REQ : Nat := 0x14014
/-- BRG_CPL_TIMEOUTS: Tags timed out (R389). -/
def A.BRG_CPL_TIMEOUTS : Nat := 0x14018
/-- BRG_RETRIES: Reads re-issued on RETRY. -/
def A.BRG_RETRIES : Nat := 0x1401c
/-- BRG_LATE_CPL: Completions after timeout. -/
def A.BRG_LATE_CPL : Nat := 0x14020
/-- BRG_CNT_CLEAR: Bit 0 clears 0x0014–0x0020. -/
def A.BRG_CNT_CLEAR : Nat := 0x14024
/-- BRG_OUT_LOCAL_k: Internal address; [1:0] must be zero. -/
def A.BRG_OUT_LOCAL (a : Nat) : Nat := 0x14100 + 16 * a
/-- BRG_OUT_HOST_k: Head offset; [1:0] must be zero. -/
def A.BRG_OUT_HOST (a : Nat) : Nat := 0x14104 + 16 * a
/-- BRG_OUT_CTRL_k: Length, direction, GO. -/
def A.BRG_OUT_CTRL (a : Nat) : Nat := 0x14108 + 16 * a
/-- BRG_OUT_STATUS_k: Channel state. -/
def A.BRG_OUT_STATUS (a : Nat) : Nat := 0x1410c + 16 * a
/-- ACC_CTRL: [0] EN (R397); [31:1] reserved. -/
def A.ACC_CTRL : Nat := 0x10000
/-- ACC_STATUS: Holding, faults, hash state. -/
def A.ACC_STATUS : Nat := 0x10004
/-- ACC_DENY_CNT: Refusals. -/
def A.ACC_DENY_CNT : Nat := 0x10008
/-- ACC_DENY_ADDR: Internal address of the last refusal. -/
def A.ACC_DENY_ADDR : Nat := 0x1000c
/-- ACC_DENY_INFO: Details of the last refusal. -/
def A.ACC_DENY_INFO : Nat := 0x10010
/-- ACC_DEBUG_DENY: Debug accesses refused by locked entries. -/
def A.ACC_DEBUG_DENY : Nat := 0x10014
/-- ACC_CNT_CLEAR: Bit 0 clears ACC_DENY_CNT. -/
def A.ACC_CNT_CLEAR : Nat := 0x10018
/-- ACC_HASH: Table hash, bytes 4k to 4k + 3 in word k (R396). -/
def A.ACC_HASH (a : Nat) : Nat := 0x10040 + 4 * a
/-- ACC_SLOT_n: Slot entry n = 0–63. -/
def A.ACC_SLOT (a : Nat) : Nat := 0x10100 + 4 * a
/-- ACC_REG_BASE_r: Region r = 0–31, base and size. -/
def A.ACC_REG_BASE (a : Nat) : Nat := 0x10200 + 8 * a
/-- ACC_REG_PERM_r: Region r permissions. -/
def A.ACC_REG_PERM (a : Nat) : Nat := 0x10204 + 8 * a
/-- CCE_CTRL: Role, EPR, swap, reset, fault clear. -/
def A.CC_CTRL (i : Nat) : Nat := 0x44000 + 16384 * i
/-- CCE_STATUS: Attach, orientation, PD state. -/
def A.CC_STATUS (i : Nat) : Nat := 0x44004 + 16384 * i
/-- CCE_EVENT: Power events. -/
def A.CC_EVENT (i : Nat) : Nat := 0x44008 + 16384 * i
/-- CCE_SRC_CFG: HV PDO offered. -/
def A.CC_SRC_CFG (i : Nat) : Nat := 0x4400c + 16384 * i
/-- CCE_SNK_CFG: Highest level and current requested. -/
def A.CC_SNK_CFG (i : Nat) : Nat := 0x44010 + 16384 * i
/-- CCE_CONTRACT: Contract in force. -/
def A.CC_CONTRACT (i : Nat) : Nat := 0x44014 + 16384 * i
/-- CCE_PROT: Protection thresholds. -/
def A.CC_PROT (i : Nat) : Nat := 0x44018 + 16384 * i
/-- CCE_VBUS: VCAB telemetry, updated every 1 ms. -/
def A.CC_VBUS (i : Nat) : Nat := 0x4401c + 16384 * i
/-- CCE_ATTACHES: Attaches. -/
def A.CC_ATTACHES (i : Nat) : Nat := 0x44030 + 16384 * i
/-- CCE_HARD_RESETS: Hard resets sent or received. -/
def A.CC_HARD_RESETS (i : Nat) : Nat := 0x44034 + 16384 * i
/-- CCE_FAULTS: Protection trips and forced source removals. -/
def A.CC_FAULTS (i : Nat) : Nat := 0x44038 + 16384 * i
/-- CCE_COLLISIONS: Swap collisions. -/
def A.CC_COLLISIONS (i : Nat) : Nat := 0x4403c + 16384 * i
/-- CCE_UNSUPPORTED: Unsupported attaches and messages. -/
def A.CC_UNSUPPORTED (i : Nat) : Nat := 0x44040 + 16384 * i
/-- CCE_CNT_CLEAR: Bit 0 clears 0x0030–0x0040. -/
def A.CC_CNT_CLEAR (i : Nat) : Nat := 0x44044 + 16384 * i
/-- LOAD_CTRL: Enable, fault mode, sensing, feeds. -/
def A.LOAD_CTRL : Nat := 0x50000
/-- LOAD_STATUS: Fuse state, PG, feeds. -/
def A.LOAD_STATUS : Nat := 0x50004
/-- LOAD_EVENT: Fuse and feed events. -/
def A.LOAD_EVENT : Nat := 0x50008
/-- LOAD_WINDOW: UV and OV thresholds. -/
def A.LOAD_WINDOW : Nat := 0x5000c
/-- LOAD_TIMING: Insertion delay, retry, UV filter. -/
def A.LOAD_TIMING : Nat := 0x50010
/-- LOAD_RAMP: Slew, ramp timeout, PG delay. -/
def A.LOAD_RAMP : Nat := 0x50014
/-- LOAD_ILIM: Current limit and fault timer. -/
def A.LOAD_ILIM : Nat := 0x50018
/-- LOAD_VOLTS: [11:0] VCOM, [27:16] VOUT; other bits reserved; every 1 ms. -/
def A.LOAD_VOLTS : Nat := 0x5001c
/-- LOAD_IOUT: [15:0] sense voltage in 10 µV, saturating; [31:16] reserved. -/
def A.LOAD_IOUT : Nat := 0x50020
/-- LOAD_FEED_E: [11:0] feed voltage; [12] ON, conducting; [31:13] reserved. -/
def A.LOAD_FEED_E : Nat := 0x50024
/-- LOAD_FEED_W: [11:0] feed voltage; [12] ON, conducting; [31:13] reserved. -/
def A.LOAD_FEED_W : Nat := 0x50028
/-- LOAD_FEED_L: [11:0] feed voltage; [12] ON, conducting; [31:13] reserved. -/
def A.LOAD_FEED_L : Nat := 0x5002c
/-- LOAD_TRIPS: Fuse trips. -/
def A.LOAD_TRIPS : Nat := 0x50030
/-- LOAD_INSERTS: Debounced insertions. -/
def A.LOAD_INSERTS : Nat := 0x50034
/-- LOAD_RCB: Reverse turn-offs, all feeds. -/
def A.LOAD_RCB : Nat := 0x50038
/-- LOAD_CNT_CLEAR: Bit 0 clears 0x0030–0x0038. -/
def A.LOAD_CNT_CLEAR : Nat := 0x5003c
/-- LOAD_TM_RTH_f: Model network. -/
def A.LOAD_TM_RTH (a : Nat) : Nat := 0x50100 + 16 * a
/-- LOAD_TM_LIM_f: Temperature limits. -/
def A.LOAD_TM_LIM (a : Nat) : Nat := 0x50104 + 16 * a
/-- LOAD_TM_TEMP_f: [15:0] temperature in 0.125 °C, two's complement; [31:16] reserved. -/
def A.LOAD_TM_TEMP (a : Nat) : Nat := 0x50108 + 16 * a
/-- SEC_STATUS: Lifecycle and security state. -/
def A.SEC_STATUS : Nat := 0x1c000
/-- SEC_LC_REQ: Lifecycle request and result. -/
def A.SEC_LC_REQ : Nat := 0x1c004
/-- SEC_OP_ADDR: Block address; [5:0] must be zero, or GO gives RANGE. -/
def A.SEC_OP_ADDR : Nat := 0x1c008
/-- SEC_OP_CTRL: Operation and GO. -/
def A.SEC_OP_CTRL : Nat := 0x1c00c
/-- SEC_OP_STATUS: Busy, outcome, length. -/
def A.SEC_OP_STATUS : Nat := 0x1c010
/-- SEC_TAP_REFUSED: Refused taps (R441). -/
def A.SEC_TAP_REFUSED : Nat := 0x1c014
/-- SEC_SVC_CNT: Service sessions opened. -/
def A.SEC_SVC_CNT : Nat := 0x1c018
/-- SEC_LC_CNT: Lifecycle transitions. -/
def A.SEC_LC_CNT : Nat := 0x1c01c
/-- SEC_CNT_CLEAR: Bit 0 clears SEC_TAP_REFUSED. -/
def A.SEC_CNT_CLEAR : Nat := 0x1c020
/-- SEC_SLOT_s: Slot s = 0–31. -/
def A.SEC_SLOT (a : Nat) : Nat := 0x1c100 + 4 * a
/-- ERR_CTRL: Alert, EVENT, hold and notice masks. -/
def A.ERR_CTRL : Nat := 0xc000
/-- ERR_STATUS: Newest index, alert, handling, unacknowledged count. -/
def A.ERR_STATUS : Nat := 0xc004
/-- ERR_SEQ: [15:0] SEQ of the newest entry; [31:16] last acknowledged SEQ. -/
def A.ERR_SEQ : Nat := 0xc008
/-- ERR_ACK: [15:0] SEQ to acknowledge (R460); [31:16] reserved. -/
def A.ERR_ACK : Nat := 0xc00c
/-- ERR_OVERFLOW: Unacknowledged entries overwritten. -/
def A.ERR_OVERFLOW : Nat := 0xc010
/-- ERR_SUPPRESSED: Occurrences suppressed (R457). -/
def A.ERR_SUPPRESSED : Nat := 0xc014
/-- ERR_COUNT_C: Entries by recorded severity. -/
def A.ERR_COUNT_C : Nat := 0xc018
/-- ERR_COUNT_DG: Entries by recorded severity. -/
def A.ERR_COUNT_DG : Nat := 0xc01c
/-- ERR_COUNT_CT: Entries by recorded severity. -/
def A.ERR_COUNT_CT : Nat := 0xc020
/-- ERR_COUNT_F: Entries by recorded severity. -/
def A.ERR_COUNT_F : Nat := 0xc024
/-- ERR_FATAL_RESETS: Fatal resets since power-up. -/
def A.ERR_FATAL_RESETS : Nat := 0xc028
/-- ERR_EVT_LOST: EVENTs discarded from a full event queue. -/
def A.ERR_EVT_LOST : Nat := 0xc02c
/-- ERR_INJECT: [0] GO; [2:1] severity; [31:16] DETAIL0 value. Makes an ERR 0xFFFF entry; ignored from classes other than 0. -/
def A.ERR_INJECT : Nat := 0xc030
/-- ERR_CNT_CLEAR: Bit 0 clears 0x0010–0x0024 and 0x002C. -/
def A.ERR_CNT_CLEAR : Nat := 0xc034
/-- ERR_REC_i_w: Word w of record i (R455). -/
def A.ERR_REC (a b : Nat) : Nat := 0xc400 + 32 * a + 4 * b
/-- COOP_CTRL: Background test enables. -/
def A.COOP_CTRL : Nat := 0x20000
/-- COOP_STATUS: Power-up result and activity. -/
def A.COOP_STATUS : Nat := 0x20004
/-- COOP_FAIL_ADDR: Internal address of the last failing word. -/
def A.COOP_FAIL_ADDR : Nat := 0x20008
/-- COOP_FAIL_INFO: Bit, memory and outcome of that failure. -/
def A.COOP_FAIL_INFO : Nat := 0x2000c
/-- COOP_SPARES: Spares in use and cells retired. -/
def A.COOP_SPARES : Nat := 0x20010
/-- COOP_PASS_TIME: [15:0] duration of the last full slice pass in ms; [31:16] reserved. -/
def A.COOP_PASS_TIME : Nat := 0x20014
/-- COOP_LANE: Last withdrawal. -/
def A.COOP_LANE : Nat := 0x20018
/-- COOP_MISSED: Deadlines missed (R470). -/
def A.COOP_MISSED : Nat := 0x2001c
/-- COOP_NOT_RUN: Slices refused by the access table. -/
def A.COOP_NOT_RUN : Nat := 0x20020
/-- COOP_CNT_CLEAR: Bit 0 clears 0x001C–0x0020. -/
def A.COOP_CNT_CLEAR : Nat := 0x20024
/-- DEV_CTRL: Hub reset. -/
def A.DEV_CTRL : Nat := 0x10
/-- DEV_STATUS: Address, release, image, reset cause. -/
def A.DEV_STATUS : Nat := 0x14
/-- DEV_RELEASE_TIME: [15:0] ms from the last reset's start to release; [31:16] reserved. -/
def A.DEV_RELEASE_TIME : Nat := 0x18
/-- DEV_IMAGE_ADDR: Capture address; [5:0] must be zero. -/
def A.DEV_IMAGE_ADDR : Nat := 0x1c
/-- DEV_IMAGE_CTRL: Capture request and result. -/
def A.DEV_IMAGE_CTRL : Nat := 0x20
/-- DEV_IMAGE_LEN: [17:0] last captured length in bytes; [31:18] reserved. -/
def A.DEV_IMAGE_LEN : Nat := 0x24
/-- DEV_IMAGE_SKIPPED: Words skipped at the last restore, outside the capture set or fixed by a lock, saturating. -/
def A.DEV_IMAGE_SKIPPED : Nat := 0x28
/-- PWRS_CTRL: Steep request. -/
def A.PWRS_CTRL : Nat := 0x18000
/-- PWRS_STATUS: State, last refuser, last wake. -/
def A.PWRS_STATUS : Nat := 0x18004
/-- PWRS_REFUSED: Refused requests. -/
def A.PWRS_REFUSED : Nat := 0x18008
/-- PWRS_ABORTED: Aborted entries. -/
def A.PWRS_ABORTED : Nat := 0x1800c
/-- PWRS_STEEP_CNT: Entries completed. -/
def A.PWRS_STEEP_CNT : Nat := 0x18010
/-- PWRS_WAKE_LO: Station time of the last wake event [31:0]. -/
def A.PWRS_WAKE_LO : Nat := 0x18014
/-- PWRS_WAKE_HI: [63:32]; latched by reading LO. -/
def A.PWRS_WAKE_HI : Nat := 0x18018
/-- PWRS_WAKE_TX: [0] E, [1] W, [2] S: send a wake tone (R489); [31:3] reserved. -/
def A.PWRS_WAKE_TX : Nat := 0x1801c
/-- PWRS_GATE: Bit n: slot n's clocks running (R481). -/
def A.PWRS_GATE : Nat := 0x18020
/-- PWRS_CNT_CLEAR: Bit 0 clears 0x0008–0x0010. -/
def A.PWRS_CNT_CLEAR : Nat := 0x18024
/-- PINS_WAKE_CTRL: Wake source enables and polarity. -/
def A.PINS_WAKE_CTRL : Nat := 0x7c000
/-- PINS_WAKE_FILT: [7:0] filter, 1–255 slow-clock cycles; 0 reserved; [31:8] reserved. -/
def A.PINS_WAKE_FILT : Nat := 0x7c004
/-- PINS_WAKE_LEVEL: [3:0] filtered WAKEk, 1 = active; [31:4] reserved. -/
def A.PINS_WAKE_LEVEL : Nat := 0x7c008

/-! ### Fields. -/

def R.DEV_ID_VENDOR : RF := ⟨A.DEV_ID, 16, 16⟩
def R.DEV_ID_PART : RF := ⟨A.DEV_ID, 0, 16⟩
def R.DEV_BEHAVIOUR : RF := ⟨A.DEV_BEHAVIOUR, 0, 32⟩
def R.DEV_STEPPING_MAJOR : RF := ⟨A.DEV_STEPPING, 4, 4⟩
def R.DEV_STEPPING_MINOR : RF := ⟨A.DEV_STEPPING, 0, 4⟩
def R.LNK_CTRL_ENABLE (i : Nat) : RF := ⟨(A.LNK_CTRL i), 0, 1⟩
def R.LNK_CTRL_MAX_GEAR (i : Nat) : RF := ⟨(A.LNK_CTRL i), 4, 3⟩
def R.LNK_CTRL_RETRAIN (i : Nat) : RF := ⟨(A.LNK_CTRL i), 8, 1⟩
def R.LNK_CTRL_LOOPBACK (i : Nat) : RF := ⟨(A.LNK_CTRL i), 12, 3⟩
def R.LNK_CTRL_FAR_LOOP_ALLOW (i : Nat) : RF := ⟨(A.LNK_CTRL i), 15, 1⟩
def R.LNK_CTRL_CAL_EN (i : Nat) : RF := ⟨(A.LNK_CTRL i), 16, 1⟩
def R.LNK_STATUS_STATE (i : Nat) : RF := ⟨(A.LNK_STATUS i), 0, 5⟩
def R.LNK_STATUS_GEAR (i : Nat) : RF := ⟨(A.LNK_STATUS i), 5, 3⟩
def R.LNK_STATUS_RX_WIDTH (i : Nat) : RF := ⟨(A.LNK_STATUS i), 8, 2⟩
def R.LNK_STATUS_TX_WIDTH (i : Nat) : RF := ⟨(A.LNK_STATUS i), 10, 2⟩
def R.LNK_STATUS_RX_NARROW (i : Nat) : RF := ⟨(A.LNK_STATUS i), 12, 1⟩
def R.LNK_STATUS_TX_NARROW (i : Nat) : RF := ⟨(A.LNK_STATUS i), 13, 1⟩
def R.LNK_STATUS_RX_LULL (i : Nat) : RF := ⟨(A.LNK_STATUS i), 14, 1⟩
def R.LNK_STATUS_TX_LULL (i : Nat) : RF := ⟨(A.LNK_STATUS i), 15, 1⟩
def R.LNK_STATUS_FLIPPED (i : Nat) : RF := ⟨(A.LNK_STATUS i), 16, 1⟩
def R.LNK_STATUS_ORIENT_MISMATCH (i : Nat) : RF := ⟨(A.LNK_STATUS i), 17, 1⟩
def R.LNK_STATUS_PARTNER (i : Nat) : RF := ⟨(A.LNK_STATUS i), 18, 3⟩
def R.LNK_STATUS_MISWIRED (i : Nat) : RF := ⟨(A.LNK_STATUS i), 21, 1⟩
def R.LNK_STATUS_OPEN_END (i : Nat) : RF := ⟨(A.LNK_STATUS i), 22, 1⟩
def R.LNK_STATUS_UP (i : Nat) : RF := ⟨(A.LNK_STATUS i), 23, 1⟩
def R.LNK_STATUS_FAULT (i : Nat) : RF := ⟨(A.LNK_STATUS i), 24, 4⟩
def R.LNK_LANE_RX_L (i l : Nat) : RF := ⟨(A.LNK_LANE_RX i), 4 * l, 4⟩
def R.LNK_LANE_TX_L (i l : Nat) : RF := ⟨(A.LNK_LANE_TX i), 4 * l, 4⟩
def R.LNK_LANE_MAP_L (i l : Nat) : RF := ⟨(A.LNK_LANE_MAP i), 3 * l, 3⟩
def R.LNK_LOWPWR_LULL_EN (i : Nat) : RF := ⟨(A.LNK_LOWPWR i), 0, 1⟩
def R.LNK_LOWPWR_SHED_EN (i : Nat) : RF := ⟨(A.LNK_LOWPWR i), 1, 1⟩
def R.LNK_LOWPWR_PAR_SHED_EN (i : Nat) : RF := ⟨(A.LNK_LOWPWR i), 2, 1⟩
def R.LNK_LOWPWR_P_SEEN (i : Nat) : RF := ⟨(A.LNK_LOWPWR i), 3, 1⟩
def R.LNK_LOWPWR_LULL_IDLE (i : Nat) : RF := ⟨(A.LNK_LOWPWR i), 8, 8⟩
def R.LNK_LOWPWR_SHED_IDLE (i : Nat) : RF := ⟨(A.LNK_LOWPWR i), 16, 8⟩
def R.LNK_LOWPWR_SHED_WAKE (i : Nat) : RF := ⟨(A.LNK_LOWPWR i), 24, 8⟩
def R.LNK_WITHDRAW_LANE (i : Nat) : RF := ⟨(A.LNK_WITHDRAW i), 0, 3⟩
def R.LNK_WITHDRAW_REQ (i : Nat) : RF := ⟨(A.LNK_WITHDRAW i), 3, 1⟩
def R.LNK_WITHDRAW_RETURN (i : Nat) : RF := ⟨(A.LNK_WITHDRAW i), 4, 1⟩
def R.LNK_WITHDRAW_RESULT (i : Nat) : RF := ⟨(A.LNK_WITHDRAW i), 8, 2⟩
def R.LNK_PATTERN_SEL (i : Nat) : RF := ⟨(A.LNK_PATTERN i), 0, 2⟩
def R.LNK_PATTERN_RUN (i : Nat) : RF := ⟨(A.LNK_PATTERN i), 2, 1⟩
def R.LNK_EQ_INDEX_LANE (i : Nat) : RF := ⟨(A.LNK_EQ_INDEX i), 0, 3⟩
def R.LNK_EQ_INDEX_GEAR (i : Nat) : RF := ⟨(A.LNK_EQ_INDEX i), 4, 3⟩
def R.LNK_EQ_INDEX_SIDE (i : Nat) : RF := ⟨(A.LNK_EQ_INDEX i), 7, 1⟩
def R.LNK_EQ_DATA_PRE (i : Nat) : RF := ⟨(A.LNK_EQ_DATA i), 0, 6⟩
def R.LNK_EQ_DATA_MAIN (i : Nat) : RF := ⟨(A.LNK_EQ_DATA i), 8, 6⟩
def R.LNK_EQ_DATA_POST (i : Nat) : RF := ⟨(A.LNK_EQ_DATA i), 16, 6⟩
def R.LNK_ERASED (i a : Nat) : RF := ⟨(A.LNK_ERASED i a), 0, 32⟩
def R.LNK_UNCORR (i : Nat) : RF := ⟨(A.LNK_UNCORR i), 0, 32⟩
def R.LNK_NARROW_CNT (i : Nat) : RF := ⟨(A.LNK_NARROW_CNT i), 0, 32⟩
def R.LNK_DOWN_CNT (i : Nat) : RF := ⟨(A.LNK_DOWN_CNT i), 0, 32⟩
def R.LNK_SLIPS (i : Nat) : RF := ⟨(A.LNK_SLIPS i), 0, 32⟩
def R.LNK_TRAIN_FAIL (i : Nat) : RF := ⟨(A.LNK_TRAIN_FAIL i), 0, 32⟩
def R.LNK_CNT_CLEAR (i : Nat) : RF := ⟨(A.LNK_CNT_CLEAR i), 0, 32⟩
def R.LNK_DISCARD (i : Nat) : RF := ⟨(A.LNK_DISCARD i), 0, 32⟩
def R.LNK_PKT_CTRL_CUT_EN (i : Nat) : RF := ⟨(A.LNK_PKT_CTRL i), 0, 1⟩
def R.LNK_PKT_CTRL_WRAP_EN (i : Nat) : RF := ⟨(A.LNK_PKT_CTRL i), 1, 1⟩
def R.LNK_PKT_CTRL_REPLAY_MAX (i : Nat) : RF := ⟨(A.LNK_PKT_CTRL i), 4, 4⟩
def R.LNK_PKT_CTRL_REPLAY_TO (i : Nat) : RF := ⟨(A.LNK_PKT_CTRL i), 8, 8⟩
def R.LNK_CREDIT_ALLOT_P (i : Nat) : RF := ⟨(A.LNK_CREDIT_ALLOT i), 0, 8⟩
def R.LNK_CREDIT_ALLOT_M (i : Nat) : RF := ⟨(A.LNK_CREDIT_ALLOT i), 8, 8⟩
def R.LNK_CREDIT_ALLOT_D (i : Nat) : RF := ⟨(A.LNK_CREDIT_ALLOT i), 16, 8⟩
def R.LNK_CREDIT_ALLOT_B (i : Nat) : RF := ⟨(A.LNK_CREDIT_ALLOT i), 24, 8⟩
def R.LNK_CREDIT_TX0_P (i : Nat) : RF := ⟨(A.LNK_CREDIT_TX0 i), 0, 16⟩
def R.LNK_CREDIT_TX0_M (i : Nat) : RF := ⟨(A.LNK_CREDIT_TX0 i), 16, 16⟩
def R.LNK_CREDIT_TX1_D (i : Nat) : RF := ⟨(A.LNK_CREDIT_TX1 i), 0, 16⟩
def R.LNK_CREDIT_TX1_B (i : Nat) : RF := ⟨(A.LNK_CREDIT_TX1 i), 16, 16⟩
def R.LNK_REPLAY_SEQ_NEXT (i : Nat) : RF := ⟨(A.LNK_REPLAY_SEQ i), 0, 12⟩
def R.LNK_REPLAY_SEQ_ACKED (i : Nat) : RF := ⟨(A.LNK_REPLAY_SEQ i), 16, 12⟩
def R.LNK_REPLAY_FILL_BYTES (i : Nat) : RF := ⟨(A.LNK_REPLAY_FILL i), 0, 17⟩
def R.LNK_REPLAY_FILL_PACKETS (i : Nat) : RF := ⟨(A.LNK_REPLAY_FILL i), 17, 11⟩
def R.LNK_RX_SEQ_EXPECTED (i : Nat) : RF := ⟨(A.LNK_RX_SEQ i), 0, 12⟩
def R.LNK_CRC_ERR (i : Nat) : RF := ⟨(A.LNK_CRC_ERR i), 0, 32⟩
def R.LNK_HDR_ERR (i : Nat) : RF := ⟨(A.LNK_HDR_ERR i), 0, 32⟩
def R.LNK_LC_ERR (i : Nat) : RF := ⟨(A.LNK_LC_ERR i), 0, 32⟩
def R.LNK_NAK_TX (i : Nat) : RF := ⟨(A.LNK_NAK_TX i), 0, 32⟩
def R.LNK_NAK_RX (i : Nat) : RF := ⟨(A.LNK_NAK_RX i), 0, 32⟩
def R.LNK_REPLAYED (i : Nat) : RF := ⟨(A.LNK_REPLAYED i), 0, 32⟩
def R.LNK_REPLAY_TO (i : Nat) : RF := ⟨(A.LNK_REPLAY_TO i), 0, 32⟩
def R.LNK_POISON_RX (i : Nat) : RF := ⟨(A.LNK_POISON_RX i), 0, 32⟩
def R.LNK_POISON_TX (i : Nat) : RF := ⟨(A.LNK_POISON_TX i), 0, 32⟩
def R.LNK_P_COPY_DROP (i : Nat) : RF := ⟨(A.LNK_P_COPY_DROP i), 0, 32⟩
def R.LNK_WRAPPED (i : Nat) : RF := ⟨(A.LNK_WRAPPED i), 0, 32⟩
def R.LNK_WRAP_DROP (i : Nat) : RF := ⟨(A.LNK_WRAP_DROP i), 0, 32⟩
def R.LNK_NOROUTE (i : Nat) : RF := ⟨(A.LNK_NOROUTE i), 0, 32⟩
def R.LNK_HOP_DROP (i : Nat) : RF := ⟨(A.LNK_HOP_DROP i), 0, 32⟩
def R.LNK_CREDIT_ERR (i : Nat) : RF := ⟨(A.LNK_CREDIT_ERR i), 0, 32⟩
def R.LNK_ROUTE_CTRL_HOLD_TIME (i : Nat) : RF := ⟨(A.LNK_ROUTE_CTRL i), 0, 8⟩
def R.LNK_WIN_DUP_P_LO (i : Nat) : RF := ⟨(A.LNK_WIN_DUP_P_LO i), 0, 32⟩
def R.LNK_WIN_DUP_P_HI_V (i : Nat) : RF := ⟨(A.LNK_WIN_DUP_P_HI i), 0, 16⟩
def R.LNK_WIN_DUP (i : Nat) : RF := ⟨(A.LNK_WIN_DUP i), 0, 32⟩
def R.LNK_WIN_OUT (i : Nat) : RF := ⟨(A.LNK_WIN_OUT i), 0, 32⟩
def R.LNK_WIN_RESYNC (i : Nat) : RF := ⟨(A.LNK_WIN_RESYNC i), 0, 32⟩
def R.LNK_ROUTE_PORT (i a : Nat) : RF := ⟨(A.LNK_ROUTE i a), 0, 2⟩
def R.LNK_ROUTE_VALID (i a : Nat) : RF := ⟨(A.LNK_ROUTE i a), 2, 1⟩
def R.LNK_ROUTE_P_E (i a : Nat) : RF := ⟨(A.LNK_ROUTE i a), 3, 1⟩
def R.LNK_ROUTE_P_W (i a : Nat) : RF := ⟨(A.LNK_ROUTE i a), 4, 1⟩
def R.LNK_ROUTE_HOLD (i a : Nat) : RF := ⟨(A.LNK_ROUTE i a), 5, 1⟩
def R.CLK_CTRL_PREF : RF := ⟨A.CLK_CTRL, 0, 2⟩
def R.CLK_CTRL_REVERT_EN : RF := ⟨A.CLK_CTRL, 2, 1⟩
def R.CLK_CTRL_REVERT_TIME : RF := ⟨A.CLK_CTRL, 8, 8⟩
def R.CLK_STATUS_MODE : RF := ⟨A.CLK_STATUS, 0, 3⟩
def R.CLK_STATUS_SEL : RF := ⟨A.CLK_STATUS, 3, 2⟩
def R.CLK_STATUS_W_QUAL : RF := ⟨A.CLK_STATUS, 5, 1⟩
def R.CLK_STATUS_E_QUAL : RF := ⟨A.CLK_STATUS, 6, 1⟩
def R.CLK_STATUS_PREFERRED : RF := ⟨A.CLK_STATUS, 7, 1⟩
def R.CLK_EVENT_SWITCHED : RF := ⟨A.CLK_EVENT, 0, 1⟩
def R.CLK_EVENT_HOLDOVER : RF := ⟨A.CLK_EVENT, 1, 1⟩
def R.CLK_EVENT_REVERTED : RF := ⟨A.CLK_EVENT, 2, 1⟩
def R.CLK_EVENT_RECOVERED : RF := ⟨A.CLK_EVENT, 3, 1⟩
def R.CLK_EVENT_STEP_OVERRUN : RF := ⟨A.CLK_EVENT, 4, 1⟩
def R.CLK_OFFSET_W_OFFSET : RF := ⟨A.CLK_OFFSET_W, 0, 16⟩
def R.CLK_OFFSET_E_OFFSET : RF := ⟨A.CLK_OFFSET_E, 0, 16⟩
def R.CLK_SLOW_FREQ : RF := ⟨A.CLK_SLOW_FREQ, 0, 32⟩
def R.CLK_SWITCH_CNT : RF := ⟨A.CLK_SWITCH_CNT, 0, 32⟩
def R.CLK_HOLDOVER_CNT : RF := ⟨A.CLK_HOLDOVER_CNT, 0, 32⟩
def R.CLK_HOLDOVER_TIME : RF := ⟨A.CLK_HOLDOVER_TIME, 0, 32⟩
def R.CLK_CNT_CLEAR : RF := ⟨A.CLK_CNT_CLEAR, 0, 32⟩
def R.TIME_CTRL_RECHECK_EN : RF := ⟨A.TIME_CTRL, 0, 1⟩
def R.TIME_CTRL_CAL_NOW : RF := ⟨A.TIME_CTRL, 1, 1⟩
def R.TIME_STATUS_QUALITY : RF := ⟨A.TIME_STATUS, 0, 2⟩
def R.TIME_STATUS_VALID : RF := ⟨A.TIME_STATUS, 2, 1⟩
def R.TIME_STATUS_SLEWING : RF := ⟨A.TIME_STATUS, 3, 1⟩
def R.TIME_NOW_LO : RF := ⟨A.TIME_NOW_LO, 0, 32⟩
def R.TIME_NOW_HI : RF := ⟨A.TIME_NOW_HI, 0, 32⟩
def R.TIME_MARK_ERR : RF := ⟨A.TIME_MARK_ERR, 0, 32⟩
def R.TIME_STEP_LAST : RF := ⟨A.TIME_STEP_LAST, 0, 32⟩
def R.TIME_DELAY_W_DELAY : RF := ⟨A.TIME_DELAY_W, 0, 24⟩
def R.TIME_DELAY_W_CAL : RF := ⟨A.TIME_DELAY_W, 31, 1⟩
def R.TIME_DELAY_E_DELAY : RF := ⟨A.TIME_DELAY_E, 0, 24⟩
def R.TIME_DELAY_E_CAL : RF := ⟨A.TIME_DELAY_E, 31, 1⟩
def R.TIME_DELAY_S_DELAY : RF := ⟨A.TIME_DELAY_S, 0, 24⟩
def R.TIME_DELAY_S_CAL : RF := ⟨A.TIME_DELAY_S, 31, 1⟩
def R.TIME_MARK_MISS : RF := ⟨A.TIME_MARK_MISS, 0, 32⟩
def R.TIME_MARK_BAD : RF := ⟨A.TIME_MARK_BAD, 0, 32⟩
def R.TIME_CAL_CNT : RF := ⟨A.TIME_CAL_CNT, 0, 32⟩
def R.TIME_CNT_CLEAR : RF := ⟨A.TIME_CNT_CLEAR, 0, 32⟩
def R.TIME_EVI_EDGE0 : RF := ⟨A.TIME_EVI_EDGE0, 0, 32⟩
def R.TIME_EVI_EDGE1 : RF := ⟨A.TIME_EVI_EDGE1, 0, 32⟩
def R.TIME_EVI_LEVEL : RF := ⟨A.TIME_EVI_LEVEL, 0, 32⟩
def R.TIME_EVI_FIFO_STAT_FILL : RF := ⟨A.TIME_EVI_FIFO_STAT, 0, 9⟩
def R.TIME_EVI_FIFO_STAT_NEXT_SEQ : RF := ⟨A.TIME_EVI_FIFO_STAT, 16, 16⟩
def R.TIME_EVI_POP : RF := ⟨A.TIME_EVI_POP, 0, 32⟩
def R.TIME_EVI_REC (a : Nat) : RF := ⟨(A.TIME_EVI_REC a), 0, 32⟩
def R.TIME_EVI_LOST : RF := ⟨A.TIME_EVI_LOST, 0, 32⟩
def R.TIME_EVI_GLITCH : RF := ⟨A.TIME_EVI_GLITCH, 0, 32⟩
def R.TIME_EVI_FILT_FILTER (a : Nat) : RF := ⟨(A.TIME_EVI_FILT a), 0, 16⟩
def R.TIME_EVI_FILT_SCALE (a : Nat) : RF := ⟨(A.TIME_EVI_FILT a), 16, 1⟩
def R.TIME_EVO_CTRL_MODE (a : Nat) : RF := ⟨(A.TIME_EVO_CTRL a), 0, 2⟩
def R.TIME_EVO_CTRL_POLARITY (a : Nat) : RF := ⟨(A.TIME_EVO_CTRL a), 2, 1⟩
def R.TIME_EVO_CTRL_ARM (a : Nat) : RF := ⟨(A.TIME_EVO_CTRL a), 3, 1⟩
def R.TIME_EVO_CTRL_QUAL_GATE (a : Nat) : RF := ⟨(A.TIME_EVO_CTRL a), 4, 1⟩
def R.TIME_EVO_CTRL_TUN_OWN (a : Nat) : RF := ⟨(A.TIME_EVO_CTRL a), 5, 1⟩
def R.TIME_EVO_START_LO (a : Nat) : RF := ⟨(A.TIME_EVO_START_LO a), 0, 32⟩
def R.TIME_EVO_START_HI (a : Nat) : RF := ⟨(A.TIME_EVO_START_HI a), 0, 32⟩
def R.TIME_EVO_PERIOD (a : Nat) : RF := ⟨(A.TIME_EVO_PERIOD a), 0, 32⟩
def R.TIME_EVO_COUNT_COUNT (a : Nat) : RF := ⟨(A.TIME_EVO_COUNT a), 0, 16⟩
def R.TIME_EVO_WIDTH (a : Nat) : RF := ⟨(A.TIME_EVO_WIDTH a), 0, 32⟩
def R.TIME_EVO_STATUS_ARMED (a : Nat) : RF := ⟨(A.TIME_EVO_STATUS a), 0, 1⟩
def R.TIME_EVO_STATUS_ACTIVE (a : Nat) : RF := ⟨(A.TIME_EVO_STATUS a), 1, 1⟩
def R.TIME_EVO_STATUS_LATE (a : Nat) : RF := ⟨(A.TIME_EVO_STATUS a), 2, 1⟩
def R.TIME_EVO_STATUS_GATED (a : Nat) : RF := ⟨(A.TIME_EVO_STATUS a), 3, 1⟩
def R.TIME_EVO_STATUS_REFUSED (a : Nat) : RF := ⟨(A.TIME_EVO_STATUS a), 4, 1⟩
def R.TIME_EVO_SKIP (a : Nat) : RF := ⟨(A.TIME_EVO_SKIP a), 0, 32⟩
def R.FAB_CTRL_SWEEP_EN : RF := ⟨A.FAB_CTRL, 0, 1⟩
def R.FAB_STATUS_REBUILD : RF := ⟨A.FAB_STATUS, 0, 1⟩
def R.FAB_STATUS_SWEEPING : RF := ⟨A.FAB_STATUS, 1, 1⟩
def R.FAB_CELLS_FREE : RF := ⟨A.FAB_CELLS_FREE, 0, 32⟩
def R.FAB_DESC_FREE : RF := ⟨A.FAB_DESC_FREE, 0, 32⟩
def R.FAB_POOL : RF := ⟨A.FAB_POOL, 0, 32⟩
def R.FAB_MRES_CELLS : RF := ⟨A.FAB_MRES, 0, 16⟩
def R.FAB_SWEEP_INTERVAL : RF := ⟨A.FAB_SWEEP, 0, 16⟩
def R.FAB_QDUMP_QUEUE : RF := ⟨A.FAB_QDUMP, 0, 14⟩
def R.FAB_QDUMP_OUTPUT : RF := ⟨A.FAB_QDUMP, 14, 4⟩
def R.FAB_QDUMP_GO : RF := ⟨A.FAB_QDUMP, 18, 1⟩
def R.FAB_QDUMP_BUSY : RF := ⟨A.FAB_QDUMP, 19, 1⟩
def R.FAB_SPARGE_TID : RF := ⟨A.FAB_SPARGE, 0, 14⟩
def R.FAB_SPARGE_GO : RF := ⟨A.FAB_SPARGE, 14, 1⟩
def R.FAB_SPARGE_BUSY : RF := ⟨A.FAB_SPARGE, 15, 1⟩
def R.FAB_SPARGE_REFUSED : RF := ⟨A.FAB_SPARGE, 16, 1⟩
def R.FAB_QRESET_LAST_QUEUE : RF := ⟨A.FAB_QRESET_LAST, 0, 14⟩
def R.FAB_QRESET_LAST_OUTPUT : RF := ⟨A.FAB_QRESET_LAST, 14, 4⟩
def R.FAB_QRESET_LAST_VALID : RF := ⟨A.FAB_QRESET_LAST, 18, 1⟩
def R.FAB_QRESET_LAST_CLASS_P : RF := ⟨A.FAB_QRESET_LAST, 19, 1⟩
def R.FAB_QRESET_LAST_COUNT : RF := ⟨A.FAB_QRESET_LAST, 20, 12⟩
def R.FAB_QRESET_STAMP : RF := ⟨A.FAB_QRESET_STAMP, 0, 32⟩
def R.FAB_CNT_INDEX_OUTPUT : RF := ⟨A.FAB_CNT_INDEX, 0, 4⟩
def R.FAB_CNT_INDEX_CLASS : RF := ⟨A.FAB_CNT_INDEX, 4, 2⟩
def R.FAB_CNT_INDEX_CAUSE : RF := ⟨A.FAB_CNT_INDEX, 8, 4⟩
def R.FAB_CNT_LO : RF := ⟨A.FAB_CNT_LO, 0, 32⟩
def R.FAB_CNT_HI : RF := ⟨A.FAB_CNT_HI, 0, 32⟩
def R.FAB_CNT_CLEAR : RF := ⟨A.FAB_CNT_CLEAR, 0, 32⟩
def R.FAB_AGE_P_AGE : RF := ⟨A.FAB_AGE_P, 0, 22⟩
def R.FAB_AGE_M_AGE : RF := ⟨A.FAB_AGE_M, 0, 22⟩
def R.FAB_AGE_D_AGE : RF := ⟨A.FAB_AGE_D, 0, 22⟩
def R.FAB_AGE_B_AGE : RF := ⟨A.FAB_AGE_B, 0, 22⟩
def R.FAB_QLIM_P_LIM : RF := ⟨A.FAB_QLIM_P, 0, 18⟩
def R.FAB_QLIM_M_LIM : RF := ⟨A.FAB_QLIM_M, 0, 18⟩
def R.FAB_QLIM_D_LIM : RF := ⟨A.FAB_QLIM_D, 0, 18⟩
def R.FAB_QLIM_B_LIM : RF := ⟨A.FAB_QLIM_B, 0, 18⟩
def R.FAB_OLIM_LIM (a b : Nat) : RF := ⟨(A.FAB_OLIM a b), 0, 18⟩
def R.FAB_TLIM_LIM (a : Nat) : RF := ⟨(A.FAB_TLIM a), 0, 18⟩
def R.FAB_OUSE (a b : Nat) : RF := ⟨(A.FAB_OUSE a b), 0, 32⟩
def R.POL_CNT_CLEAR : RF := ⟨A.POL_CNT_CLEAR, 0, 32⟩
def R.POL_CFG_EN (a : Nat) : RF := ⟨(A.POL_CFG a), 0, 1⟩
def R.POL_RATE_RATE (a : Nat) : RF := ⟨(A.POL_RATE a), 0, 27⟩
def R.POL_BURST_BURST (a : Nat) : RF := ⟨(A.POL_BURST a), 0, 20⟩
def R.POL_TOKENS_BYTES (a : Nat) : RF := ⟨(A.POL_TOKENS a), 0, 21⟩
def R.POL_DROP_LO (a : Nat) : RF := ⟨(A.POL_DROP_LO a), 0, 32⟩
def R.POL_DROP_HI (a : Nat) : RF := ⟨(A.POL_DROP_HI a), 0, 32⟩
def R.POL_PASS_LO (a : Nat) : RF := ⟨(A.POL_PASS_LO a), 0, 32⟩
def R.POL_PASS_HI (a : Nat) : RF := ⟨(A.POL_PASS_HI a), 0, 32⟩
def R.SCH_CTRL_D_EXCESS : RF := ⟨A.SCH_CTRL, 0, 1⟩
def R.SCH_CTRL_ARM : RF := ⟨A.SCH_CTRL, 1, 1⟩
def R.SCH_CTRL_DISARM : RF := ⟨A.SCH_CTRL, 2, 1⟩
def R.SCH_STATUS_ACTIVE_BANK : RF := ⟨A.SCH_STATUS, 0, 1⟩
def R.SCH_STATUS_ARMED : RF := ⟨A.SCH_STATUS, 1, 1⟩
def R.SCH_STATUS_SETTLING : RF := ⟨A.SCH_STATUS, 2, 1⟩
def R.SCH_STATUS_MISSED : RF := ⟨A.SCH_STATUS, 3, 1⟩
def R.SCH_STATUS_RESULT : RF := ⟨A.SCH_STATUS, 4, 4⟩
def R.SCH_STATUS_OVER_SCHED : RF := ⟨A.SCH_STATUS, 8, 2⟩
def R.SCH_STATUS_SWAP_CNT : RF := ⟨A.SCH_STATUS, 16, 16⟩
def R.SCH_EPOCH : RF := ⟨A.SCH_EPOCH, 0, 32⟩
def R.SCH_ARM_EPOCH : RF := ⟨A.SCH_ARM_EPOCH, 0, 32⟩
def R.SCH_MISSED_EPOCH : RF := ⟨A.SCH_MISSED_EPOCH, 0, 32⟩
def R.SCH_PCAP_STAGED : RF := ⟨A.SCH_PCAP, 0, 12⟩
def R.SCH_PCAP_ACTIVE : RF := ⟨A.SCH_PCAP, 16, 12⟩
def R.SCH_PBURST_DEPTH : RF := ⟨A.SCH_PBURST, 0, 3⟩
def R.SCH_SETTLE_TICKS : RF := ⟨A.SCH_SETTLE, 0, 16⟩
def R.SCH_DRES_E_UNITS : RF := ⟨A.SCH_DRES_E, 0, 13⟩
def R.SCH_DRES_W_UNITS : RF := ⟨A.SCH_DRES_W, 0, 13⟩
def R.SCH_DRES_S_UNITS : RF := ⟨A.SCH_DRES_S, 0, 13⟩
def R.SCH_DRES_LOCAL_UNITS : RF := ⟨A.SCH_DRES_LOCAL, 0, 13⟩
def R.SCH_OVERSUB : RF := ⟨A.SCH_OVERSUB, 0, 32⟩
def R.SCH_CNT_CLEAR : RF := ⟨A.SCH_CNT_CLEAR, 0, 32⟩
def R.SCH_QMON_INDEX_QUEUE : RF := ⟨A.SCH_QMON_INDEX, 0, 14⟩
def R.SCH_QMON_INDEX_OUTPUT : RF := ⟨A.SCH_QMON_INDEX, 14, 4⟩
def R.SCH_QMON_DEPTH_LAST_CELLS : RF := ⟨A.SCH_QMON_DEPTH_LAST, 0, 18⟩
def R.SCH_QMON_DEPTH_MAX_CELLS : RF := ⟨A.SCH_QMON_DEPTH_MAX, 0, 18⟩
def R.SCH_QMON_DEPTH_MEAN_CELLS : RF := ⟨A.SCH_QMON_DEPTH_MEAN, 0, 18⟩
def R.SCH_QMON_HOL_LAST_DELAY : RF := ⟨A.SCH_QMON_HOL_LAST, 0, 27⟩
def R.SCH_QMON_HOL_MAX_DELAY : RF := ⟨A.SCH_QMON_HOL_MAX, 0, 27⟩
def R.SCH_QMON_HOL_MEAN_DELAY : RF := ⟨A.SCH_QMON_HOL_MEAN, 0, 27⟩
def R.SCH_GRANT_QUEUE (a b c : Nat) : RF := ⟨(A.SCH_GRANT a b c), 0, 14⟩
def R.SCH_GRANT_VALID (a b c : Nat) : RF := ⟨(A.SCH_GRANT a b c), 14, 1⟩
def R.SCH_GRANT_UNITS (a b c : Nat) : RF := ⟨(A.SCH_GRANT a b c), 16, 12⟩
def R.SCH_GRANT_WSHIFT (a b c : Nat) : RF := ⟨(A.SCH_GRANT a b c), 28, 4⟩
def R.TUNC_CTRL_SPARE_EN : RF := ⟨A.TUNC_CTRL, 0, 1⟩
def R.TUNC_STATUS_SPARE : RF := ⟨A.TUNC_STATUS, 0, 2⟩
def R.TUNC_STATUS_SERVED : RF := ⟨A.TUNC_STATUS, 4, 4⟩
def R.TUNC_STATUS_MOVING : RF := ⟨A.TUNC_STATUS, 8, 1⟩
def R.TUNC_STATUS_FAILED : RF := ⟨A.TUNC_STATUS, 9, 9⟩
def R.TUNC_FORCE_TUN : RF := ⟨A.TUNC_FORCE, 0, 4⟩
def R.TUNC_FORCE_GO : RF := ⟨A.TUNC_FORCE, 4, 1⟩
def R.TUNC_WDOG_LIMIT : RF := ⟨A.TUNC_WDOG, 0, 16⟩
def R.TUNC_PITCH_SRC_ADDR : RF := ⟨A.TUNC_PITCH_SRC, 0, 32⟩
def R.TUNC_PITCH_CTRL_TUNNEL : RF := ⟨A.TUNC_PITCH_CTRL, 0, 7⟩
def R.TUNC_PITCH_CTRL_MODE : RF := ⟨A.TUNC_PITCH_CTRL, 7, 1⟩
def R.TUNC_PITCH_CTRL_GO : RF := ⟨A.TUNC_PITCH_CTRL, 31, 1⟩
def R.TUNC_PITCH_BASE_CODE_BASE : RF := ⟨A.TUNC_PITCH_BASE, 0, 13⟩
def R.TUNC_PITCH_BASE_DATA_BASE : RF := ⟨A.TUNC_PITCH_BASE, 16, 10⟩
def R.TUNC_PITCH_STATUS_BUSY : RF := ⟨A.TUNC_PITCH_STATUS, 0, 1⟩
def R.TUNC_PITCH_STATUS_RESULT : RF := ⟨A.TUNC_PITCH_STATUS, 4, 4⟩
def R.TUNC_PITCH_STATUS_TUNNEL : RF := ⟨A.TUNC_PITCH_STATUS, 8, 7⟩
def R.TUNC_PITCH_STATUS_COUNT : RF := ⟨A.TUNC_PITCH_STATUS, 16, 16⟩
def R.TUNC_STOP_TUNNEL : RF := ⟨A.TUNC_STOP, 0, 7⟩
def R.TUNC_STOP_GO : RF := ⟨A.TUNC_STOP, 7, 1⟩
def R.TUNC_DOORBELL_TUNNEL : RF := ⟨A.TUNC_DOORBELL, 0, 7⟩
def R.TUNC_DOORBELL_RING : RF := ⟨A.TUNC_DOORBELL, 7, 1⟩
def R.TUNC_COLD_RESULT0 : RF := ⟨A.TUNC_COLD_RESULT0, 0, 32⟩
def R.TUNC_COLD_RESULT1 : RF := ⟨A.TUNC_COLD_RESULT1, 0, 32⟩
def R.TUNC_MEAS_CHAIN (a : Nat) : RF := ⟨(A.TUNC_MEAS_CHAIN a), 0, 32⟩
def R.TUNC_BIND_REQ_MODE (a : Nat) : RF := ⟨(A.TUNC_BIND_REQ a), 0, 2⟩
def R.TUNC_BIND_REQ_CLASS (a : Nat) : RF := ⟨(A.TUNC_BIND_REQ a), 2, 2⟩
def R.TUNC_BIND_REQ_ENDPOINT (a : Nat) : RF := ⟨(A.TUNC_BIND_REQ a), 4, 6⟩
def R.TUNC_BIND_REQ_ARG (a : Nat) : RF := ⟨(A.TUNC_BIND_REQ a), 10, 8⟩
def R.TUNC_BIND_REQ_GO (a : Nat) : RF := ⟨(A.TUNC_BIND_REQ a), 31, 1⟩
def R.TUNC_BOUND_BINDING (a : Nat) : RF := ⟨(A.TUNC_BOUND a), 0, 18⟩
def R.TUNC_BOUND_RESULT (a : Nat) : RF := ⟨(A.TUNC_BOUND a), 20, 4⟩
def R.TUNC_BOUND_PENDING (a : Nat) : RF := ⟨(A.TUNC_BOUND a), 24, 1⟩
def R.TUNC_CTX_CFG_TRAP_ACTION (a : Nat) : RF := ⟨(A.TUNC_CTX_CFG a), 0, 2⟩
def R.TUNC_CTX_CFG_RESTART_MAX (a : Nat) : RF := ⟨(A.TUNC_CTX_CFG a), 4, 4⟩
def R.TUNC_CTX_STATUS_STATE (a : Nat) : RF := ⟨(A.TUNC_CTX_STATUS a), 0, 3⟩
def R.TUNC_CTX_STATUS_TRAPPED_FLAG (a : Nat) : RF := ⟨(A.TUNC_CTX_STATUS a), 3, 1⟩
def R.TUNC_CTX_STATUS_CAUSE (a : Nat) : RF := ⟨(A.TUNC_CTX_STATUS a), 4, 4⟩
def R.TUNC_CTX_STATUS_RESTARTS (a : Nat) : RF := ⟨(A.TUNC_CTX_STATUS a), 8, 8⟩
def R.TUNC_CTX_PC_PC (a : Nat) : RF := ⟨(A.TUNC_CTX_PC a), 0, 13⟩
def R.TUNC_CTX_ADDR_ADDR (a : Nat) : RF := ⟨(A.TUNC_CTX_ADDR a), 0, 32⟩
def R.TUNC_CTX_CODE_BASE (a : Nat) : RF := ⟨(A.TUNC_CTX_CODE a), 0, 13⟩
def R.TUNC_CTX_CODE_SIZE (a : Nat) : RF := ⟨(A.TUNC_CTX_CODE a), 16, 14⟩
def R.TUNC_CTX_DATA_BASE (a : Nat) : RF := ⟨(A.TUNC_CTX_DATA a), 0, 10⟩
def R.TUNC_CTX_DATA_SIZE (a : Nat) : RF := ⟨(A.TUNC_CTX_DATA a), 16, 11⟩
def R.TUNC_CTX_EVENTS (a : Nat) : RF := ⟨(A.TUNC_CTX_EVENTS a), 0, 32⟩
def R.TUNC_CTX_ISSUED (a : Nat) : RF := ⟨(A.TUNC_CTX_ISSUED a), 0, 32⟩
def R.TUNC_MEAS (a b : Nat) : RF := ⟨(A.TUNC_MEAS a b), 0, 32⟩
def R.TUNC_MEAS_INFO_VALID (a : Nat) : RF := ⟨(A.TUNC_MEAS_INFO a), 0, 1⟩
def R.TUNC_MEAS_INFO_SIGNED (a : Nat) : RF := ⟨(A.TUNC_MEAS_INFO a), 1, 1⟩
def R.TUNC_MEAS_INFO_KEY_INDEX (a : Nat) : RF := ⟨(A.TUNC_MEAS_INFO a), 2, 2⟩
def R.TUNC_MEAS_INFO_SHARED (a : Nat) : RF := ⟨(A.TUNC_MEAS_INFO a), 4, 1⟩
def R.TUNC_MEAS_INFO_SEQ (a : Nat) : RF := ⟨(A.TUNC_MEAS_INFO a), 16, 16⟩
def R.DSP_CTRL_EN (i : Nat) : RF := ⟨(A.DSP_CTRL i), 0, 1⟩
def R.DSP_CTRL_DUAL (i : Nat) : RF := ⟨(A.DSP_CTRL i), 1, 1⟩
def R.DSP_CTRL_MAP (i : Nat) : RF := ⟨(A.DSP_CTRL i), 2, 1⟩
def R.DSP_CTRL_PAIR3_OFF (i : Nat) : RF := ⟨(A.DSP_CTRL i), 3, 1⟩
def R.DSP_CTRL_HS_NEG (i : Nat) : RF := ⟨(A.DSP_CTRL i), 4, 1⟩
def R.DSP_CTRL_VS_NEG (i : Nat) : RF := ⟨(A.DSP_CTRL i), 5, 1⟩
def R.DSP_CTRL_N (i : Nat) : RF := ⟨(A.DSP_CTRL i), 8, 8⟩
def R.DSP_CTRL_FB_FRAMES (i : Nat) : RF := ⟨(A.DSP_CTRL i), 16, 4⟩
def R.DSP_CTRL_FB_FORCE (i : Nat) : RF := ⟨(A.DSP_CTRL i), 20, 1⟩
def R.DSP_STATUS_RUNNING (i : Nat) : RF := ⟨(A.DSP_STATUS i), 0, 1⟩
def R.DSP_STATUS_WAITING (i : Nat) : RF := ⟨(A.DSP_STATUS i), 1, 1⟩
def R.DSP_STATUS_FALLBACK (i : Nat) : RF := ⟨(A.DSP_STATUS i), 2, 1⟩
def R.DSP_STATUS_HOLD_VALID (i : Nat) : RF := ⟨(A.DSP_STATUS i), 3, 1⟩
def R.DSP_STATUS_HALF (i : Nat) : RF := ⟨(A.DSP_STATUS i), 4, 1⟩
def R.DSP_STATUS_REFUSED (i : Nat) : RF := ⟨(A.DSP_STATUS i), 5, 1⟩
def R.DSP_STATUS_CUT (i : Nat) : RF := ⟨(A.DSP_STATUS i), 6, 1⟩
def R.DSP_STATUS_REASON (i : Nat) : RF := ⟨(A.DSP_STATUS i), 8, 4⟩
def R.DSP_START_LO (i : Nat) : RF := ⟨(A.DSP_START_LO i), 0, 32⟩
def R.DSP_START_HI (i : Nat) : RF := ⟨(A.DSP_START_HI i), 0, 32⟩
def R.DSP_HTIME0_HACTIVE (i : Nat) : RF := ⟨(A.DSP_HTIME0 i), 0, 12⟩
def R.DSP_HTIME0_HFP (i : Nat) : RF := ⟨(A.DSP_HTIME0 i), 16, 12⟩
def R.DSP_HTIME1_HSYNC (i : Nat) : RF := ⟨(A.DSP_HTIME1 i), 0, 12⟩
def R.DSP_HTIME1_HBP (i : Nat) : RF := ⟨(A.DSP_HTIME1 i), 16, 12⟩
def R.DSP_VTIME0_VACTIVE (i : Nat) : RF := ⟨(A.DSP_VTIME0 i), 0, 12⟩
def R.DSP_VTIME0_VFP (i : Nat) : RF := ⟨(A.DSP_VTIME0 i), 16, 12⟩
def R.DSP_VTIME1_VSYNC (i : Nat) : RF := ⟨(A.DSP_VTIME1 i), 0, 12⟩
def R.DSP_VTIME1_VBP (i : Nat) : RF := ⟨(A.DSP_VTIME1 i), 16, 12⟩
def R.DSP_FRAME_CNT (i : Nat) : RF := ⟨(A.DSP_FRAME_CNT i), 0, 32⟩
def R.DSP_FLIP_LO (i : Nat) : RF := ⟨(A.DSP_FLIP_LO i), 0, 32⟩
def R.DSP_FLIP_HI (i : Nat) : RF := ⟨(A.DSP_FLIP_HI i), 0, 32⟩
def R.DSP_FLIP_FRAME (i : Nat) : RF := ⟨(A.DSP_FLIP_FRAME i), 0, 32⟩
def R.DSP_UNDER_BASE (i : Nat) : RF := ⟨(A.DSP_UNDER_BASE i), 0, 32⟩
def R.DSP_UNDER_MAIN (i : Nat) : RF := ⟨(A.DSP_UNDER_MAIN i), 0, 32⟩
def R.DSP_DROP (i : Nat) : RF := ⟨(A.DSP_DROP i), 0, 32⟩
def R.DSP_FB_CNT (i : Nat) : RF := ⟨(A.DSP_FB_CNT i), 0, 32⟩
def R.DSP_CNT_CLEAR (i : Nat) : RF := ⟨(A.DSP_CNT_CLEAR i), 0, 32⟩
def R.DSP_L_CTRL_EN (i a : Nat) : RF := ⟨(A.DSP_L_CTRL i a), 0, 1⟩
def R.DSP_L_CTRL_FMT (i a : Nat) : RF := ⟨(A.DSP_L_CTRL i a), 1, 2⟩
def R.DSP_L_CTRL_SRC (i a : Nat) : RF := ⟨(A.DSP_L_CTRL i a), 3, 1⟩
def R.DSP_L_CTRL_GALPHA (i a : Nat) : RF := ⟨(A.DSP_L_CTRL i a), 8, 8⟩
def R.DSP_L_POS_X (i a : Nat) : RF := ⟨(A.DSP_L_POS i a), 0, 12⟩
def R.DSP_L_POS_Y (i a : Nat) : RF := ⟨(A.DSP_L_POS i a), 16, 12⟩
def R.DSP_L_SIZE_W (i a : Nat) : RF := ⟨(A.DSP_L_SIZE i a), 0, 12⟩
def R.DSP_L_SIZE_H (i a : Nat) : RF := ⟨(A.DSP_L_SIZE i a), 16, 12⟩
def R.DSP_L_COLOUR (i a : Nat) : RF := ⟨(A.DSP_L_COLOUR i a), 0, 32⟩
def R.DSP_L_ADDR (i a : Nat) : RF := ⟨(A.DSP_L_ADDR i a), 0, 32⟩
def R.DSP_L_STRIDE_STRIDE (i a : Nat) : RF := ⟨(A.DSP_L_STRIDE i a), 0, 16⟩
def R.DSP_L_STATUS_SHOWN (i a : Nat) : RF := ⟨(A.DSP_L_STATUS i a), 0, 1⟩
def R.DSP_L_STATUS_GEOM (i a : Nat) : RF := ⟨(A.DSP_L_STATUS i a), 1, 1⟩
def R.DSP_L_STATUS_UNDERRUN (i a : Nat) : RF := ⟨(A.DSP_L_STATUS i a), 2, 1⟩
def R.DSP_L_STATUS_ACCESS (i a : Nat) : RF := ⟨(A.DSP_L_STATUS i a), 3, 1⟩
def R.DSP_L_STATUS_UNBOUND (i a : Nat) : RF := ⟨(A.DSP_L_STATUS i a), 4, 1⟩
def R.ETH_CTRL_MODE (i : Nat) : RF := ⟨(A.ETH_CTRL i), 0, 2⟩
def R.ETH_CTRL_AN_EN (i : Nat) : RF := ⟨(A.ETH_CTRL i), 4, 1⟩
def R.ETH_CTRL_AN_RESTART (i : Nat) : RF := ⟨(A.ETH_CTRL i), 5, 1⟩
def R.ETH_CTRL_TXDIS_FORCE (i : Nat) : RF := ⟨(A.ETH_CTRL i), 6, 1⟩
def R.ETH_CTRL_MAX_FRAME (i : Nat) : RF := ⟨(A.ETH_CTRL i), 8, 12⟩
def R.ETH_STATUS_LINK (i : Nat) : RF := ⟨(A.ETH_STATUS i), 0, 2⟩
def R.ETH_STATUS_LOS (i : Nat) : RF := ⟨(A.ETH_STATUS i), 2, 1⟩
def R.ETH_STATUS_AN_DONE (i : Nat) : RF := ⟨(A.ETH_STATUS i), 3, 1⟩
def R.ETH_STATUS_AN_FAIL (i : Nat) : RF := ⟨(A.ETH_STATUS i), 4, 1⟩
def R.ETH_STATUS_RF (i : Nat) : RF := ⟨(A.ETH_STATUS i), 5, 1⟩
def R.ETH_AN_LP_PAGE (i : Nat) : RF := ⟨(A.ETH_AN_LP i), 0, 16⟩
def R.ETH_MAC_LO (i : Nat) : RF := ⟨(A.ETH_MAC_LO i), 0, 32⟩
def R.ETH_MAC_HI_HI (i : Nat) : RF := ⟨(A.ETH_MAC_HI i), 0, 16⟩
def R.ETH_RX_FRAMES (i : Nat) : RF := ⟨(A.ETH_RX_FRAMES i), 0, 32⟩
def R.ETH_RX_FCS_ERR (i : Nat) : RF := ⟨(A.ETH_RX_FCS_ERR i), 0, 32⟩
def R.ETH_RX_LEN_ERR (i : Nat) : RF := ⟨(A.ETH_RX_LEN_ERR i), 0, 32⟩
def R.ETH_RX_OVERFLOW (i : Nat) : RF := ⟨(A.ETH_RX_OVERFLOW i), 0, 32⟩
def R.ETH_RX_NOMATCH (i : Nat) : RF := ⟨(A.ETH_RX_NOMATCH i), 0, 32⟩
def R.ETH_RX_NOSET (i : Nat) : RF := ⟨(A.ETH_RX_NOSET i), 0, 32⟩
def R.ETH_RX_ADMIT (i : Nat) : RF := ⟨(A.ETH_RX_ADMIT i), 0, 32⟩
def R.ETH_RX_PAUSE (i : Nat) : RF := ⟨(A.ETH_RX_PAUSE i), 0, 32⟩
def R.ETH_TX_FRAMES (i : Nat) : RF := ⟨(A.ETH_TX_FRAMES i), 0, 32⟩
def R.ETH_TX_DOWN_DROP (i : Nat) : RF := ⟨(A.ETH_TX_DOWN_DROP i), 0, 32⟩
def R.ETH_TX_REASM_ERR (i : Nat) : RF := ⟨(A.ETH_TX_REASM_ERR i), 0, 32⟩
def R.ETH_TX_TRUNC (i : Nat) : RF := ⟨(A.ETH_TX_TRUNC i), 0, 32⟩
def R.ETH_LINK_DOWN_CNT (i : Nat) : RF := ⟨(A.ETH_LINK_DOWN_CNT i), 0, 32⟩
def R.ETH_CNT_CLEAR (i : Nat) : RF := ⟨(A.ETH_CNT_CLEAR i), 0, 32⟩
def R.ETH_RULE_A_VID_LO (i a : Nat) : RF := ⟨(A.ETH_RULE_A i a), 0, 12⟩
def R.ETH_RULE_A_VID_HI (i a : Nat) : RF := ⟨(A.ETH_RULE_A i a), 12, 12⟩
def R.ETH_RULE_A_UNTAG (i a : Nat) : RF := ⟨(A.ETH_RULE_A i a), 24, 1⟩
def R.ETH_RULE_A_SET (i a : Nat) : RF := ⟨(A.ETH_RULE_A i a), 25, 3⟩
def R.ETH_RULE_A_EN (i a : Nat) : RF := ⟨(A.ETH_RULE_A i a), 31, 1⟩
def R.ETH_RULE_B_ETYPE (i a : Nat) : RF := ⟨(A.ETH_RULE_B i a), 0, 16⟩
def R.ETH_RULE_B_ETYPE_EN (i a : Nat) : RF := ⟨(A.ETH_RULE_B i a), 16, 1⟩
def R.ETH_RULE_B_PCP_MASK (i a : Nat) : RF := ⟨(A.ETH_RULE_B i a), 24, 8⟩
def R.ETH_SET_DEST_DEST (i a : Nat) : RF := ⟨(A.ETH_SET_DEST i a), 0, 14⟩
def R.ETH_SET_EGRESS_TAGMODE (i a : Nat) : RF := ⟨(A.ETH_SET_EGRESS i a), 0, 2⟩
def R.ETH_SET_EGRESS_PCP (i a : Nat) : RF := ⟨(A.ETH_SET_EGRESS i a), 4, 3⟩
def R.ETH_SET_EGRESS_TRAILER (i a : Nat) : RF := ⟨(A.ETH_SET_EGRESS i a), 8, 1⟩
def R.ETH_SET_EGRESS_VID (i a : Nat) : RF := ⟨(A.ETH_SET_EGRESS i a), 16, 12⟩
def R.PTP_CTRL_EN : RF := ⟨A.PTP_CTRL, 0, 1⟩
def R.PTP_CTRL_TWO_STEP : RF := ⟨A.PTP_CTRL, 1, 1⟩
def R.PTP_CTRL_APPLY : RF := ⟨A.PTP_CTRL, 2, 1⟩
def R.PTP_STATUS_ORIGIN_SET : RF := ⟨A.PTP_STATUS, 0, 1⟩
def R.PTP_STATUS_APPLY_PENDING : RF := ⟨A.PTP_STATUS, 1, 1⟩
def R.PTP_ORIGIN_NS_NS : RF := ⟨A.PTP_ORIGIN_NS, 0, 30⟩
def R.PTP_ORIGIN_S_LO : RF := ⟨A.PTP_ORIGIN_S_LO, 0, 32⟩
def R.PTP_ORIGIN_S_HI_S_HI : RF := ⟨A.PTP_ORIGIN_S_HI, 0, 16⟩
def R.PTP_CLOCK_ID_LO : RF := ⟨A.PTP_CLOCK_ID_LO, 0, 32⟩
def R.PTP_CLOCK_ID_HI : RF := ⟨A.PTP_CLOCK_ID_HI, 0, 32⟩
def R.PTP_DS_DOMAIN : RF := ⟨A.PTP_DS, 0, 8⟩
def R.PTP_DS_PRIORITY1 : RF := ⟨A.PTP_DS, 8, 8⟩
def R.PTP_DS_PRIORITY2 : RF := ⟨A.PTP_DS, 16, 8⟩
def R.PTP_GM_ID_LO : RF := ⟨A.PTP_GM_ID_LO, 0, 32⟩
def R.PTP_GM_ID_HI : RF := ⟨A.PTP_GM_ID_HI, 0, 32⟩
def R.PTP_GM_QUAL_CLASS : RF := ⟨A.PTP_GM_QUAL, 0, 8⟩
def R.PTP_GM_QUAL_ACCURACY : RF := ⟨A.PTP_GM_QUAL, 8, 8⟩
def R.PTP_GM_QUAL_VARIANCE : RF := ⟨A.PTP_GM_QUAL, 16, 16⟩
def R.PTP_GM_PRIO_GM_PRIORITY1 : RF := ⟨A.PTP_GM_PRIO, 0, 8⟩
def R.PTP_GM_PRIO_GM_PRIORITY2 : RF := ⟨A.PTP_GM_PRIO, 8, 8⟩
def R.PTP_GM_PRIO_TIME_SOURCE : RF := ⟨A.PTP_GM_PRIO, 16, 8⟩
def R.PTP_GM_PATH_STEPS_REMOVED : RF := ⟨A.PTP_GM_PATH, 0, 16⟩
def R.PTP_UTC_UTC_OFFSET : RF := ⟨A.PTP_UTC, 0, 16⟩
def R.PTP_UTC_UTC_VALID : RF := ⟨A.PTP_UTC, 16, 1⟩
def R.PTP_UTC_LEAP61 : RF := ⟨A.PTP_UTC, 17, 1⟩
def R.PTP_UTC_LEAP59 : RF := ⟨A.PTP_UTC, 18, 1⟩
def R.PTP_UTC_PTP_TIMESCALE : RF := ⟨A.PTP_UTC, 19, 1⟩
def R.PTP_UTC_TIME_TRACEABLE : RF := ⟨A.PTP_UTC, 20, 1⟩
def R.PTP_UTC_FREQ_TRACEABLE : RF := ⟨A.PTP_UTC, 21, 1⟩
def R.PTP_HOLD_CLASS_HOLD : RF := ⟨A.PTP_HOLD, 0, 8⟩
def R.PTP_HOLD_ACCURACY_HOLD : RF := ⟨A.PTP_HOLD, 8, 8⟩
def R.PTP_INTERVALS_LOG_SYNC : RF := ⟨A.PTP_INTERVALS, 0, 8⟩
def R.PTP_INTERVALS_LOG_ANNOUNCE : RF := ⟨A.PTP_INTERVALS, 8, 8⟩
def R.PTP_INTERVALS_LOG_PDELAY : RF := ⟨A.PTP_INTERVALS, 16, 8⟩
def R.PTP_CNT_CLEAR : RF := ⟨A.PTP_CNT_CLEAR, 0, 32⟩
def R.PTP_PORT_CTRL_EN (a : Nat) : RF := ⟨(A.PTP_PORT_CTRL a), 0, 1⟩
def R.PTP_PORT_CTRL_TAG (a : Nat) : RF := ⟨(A.PTP_PORT_CTRL a), 1, 1⟩
def R.PTP_PORT_CTRL_PCP (a : Nat) : RF := ⟨(A.PTP_PORT_CTRL a), 2, 3⟩
def R.PTP_PORT_CTRL_VID (a : Nat) : RF := ⟨(A.PTP_PORT_CTRL a), 16, 12⟩
def R.PTP_PORT_STATUS_STATE (a : Nat) : RF := ⟨(A.PTP_PORT_STATUS a), 0, 2⟩
def R.PTP_PORT_STATUS_FOREIGN (a : Nat) : RF := ⟨(A.PTP_PORT_STATUS a), 2, 1⟩
def R.PTP_PDELAY_DELAY (a : Nat) : RF := ⟨(A.PTP_PDELAY a), 0, 24⟩
def R.PTP_PDELAY_VALID (a : Nat) : RF := ⟨(A.PTP_PDELAY a), 31, 1⟩
def R.PTP_SYNC_TX (a : Nat) : RF := ⟨(A.PTP_SYNC_TX a), 0, 32⟩
def R.PTP_PDELAY_RX (a : Nat) : RF := ⟨(A.PTP_PDELAY_RX a), 0, 32⟩
def R.PTP_DISCARD (a : Nat) : RF := ⟨(A.PTP_DISCARD a), 0, 32⟩
def R.PTP_FOREIGN (a : Nat) : RF := ⟨(A.PTP_FOREIGN a), 0, 32⟩
def R.SER_CNT_CLEAR : RF := ⟨A.SER_CNT_CLEAR, 0, 32⟩
def R.SER_CFG_EN (a : Nat) : RF := ⟨(A.SER_CFG a), 0, 1⟩
def R.SER_CFG_FRAME_MODE (a : Nat) : RF := ⟨(A.SER_CFG a), 1, 1⟩
def R.SER_CFG_RS485 (a : Nat) : RF := ⟨(A.SER_CFG a), 2, 1⟩
def R.SER_CFG_DATA7 (a : Nat) : RF := ⟨(A.SER_CFG a), 3, 1⟩
def R.SER_CFG_PARITY (a : Nat) : RF := ⟨(A.SER_CFG a), 4, 2⟩
def R.SER_CFG_STOP2 (a : Nat) : RF := ⟨(A.SER_CFG a), 6, 1⟩
def R.SER_CFG_FLOW_EN (a : Nat) : RF := ⟨(A.SER_CFG a), 7, 1⟩
def R.SER_BAUD_DIV (a : Nat) : RF := ⟨(A.SER_BAUD a), 0, 24⟩
def R.SER_FRAME_GAP (a : Nat) : RF := ⟨(A.SER_FRAME a), 0, 10⟩
def R.SER_FRAME_CHARS (a : Nat) : RF := ⟨(A.SER_FRAME a), 16, 10⟩
def R.SER_WMARK_LOW (a : Nat) : RF := ⟨(A.SER_WMARK a), 0, 11⟩
def R.SER_WMARK_HIGH (a : Nat) : RF := ⟨(A.SER_WMARK a), 16, 11⟩
def R.SER_DE_LEAD (a : Nat) : RF := ⟨(A.SER_DE a), 0, 4⟩
def R.SER_DE_TRAIL (a : Nat) : RF := ⟨(A.SER_DE a), 8, 4⟩
def R.SER_DEST_DEST (a : Nat) : RF := ⟨(A.SER_DEST a), 0, 14⟩
def R.SER_STATUS_RX_FILL (a : Nat) : RF := ⟨(A.SER_STATUS a), 0, 11⟩
def R.SER_STATUS_TX_FILL (a : Nat) : RF := ⟨(A.SER_STATUS a), 16, 11⟩
def R.SER_STATUS_RTS (a : Nat) : RF := ⟨(A.SER_STATUS a), 27, 1⟩
def R.SER_STATUS_CTS (a : Nat) : RF := ⟨(A.SER_STATUS a), 28, 1⟩
def R.SER_STATUS_TX_BUSY (a : Nat) : RF := ⟨(A.SER_STATUS a), 29, 1⟩
def R.SER_FLUSH_DUMP_RX (a : Nat) : RF := ⟨(A.SER_FLUSH a), 0, 1⟩
def R.SER_FLUSH_DUMP_TX (a : Nat) : RF := ⟨(A.SER_FLUSH a), 1, 1⟩
def R.SER_RX_ERR (a : Nat) : RF := ⟨(A.SER_RX_ERR a), 0, 32⟩
def R.SER_RX_BREAK (a : Nat) : RF := ⟨(A.SER_RX_BREAK a), 0, 32⟩
def R.SER_RX_OVERRUN (a : Nat) : RF := ⟨(A.SER_RX_OVERRUN a), 0, 32⟩
def R.SER_RX_DISCARD (a : Nat) : RF := ⟨(A.SER_RX_DISCARD a), 0, 32⟩
def R.SER_TX_DISCARD (a : Nat) : RF := ⟨(A.SER_TX_DISCARD a), 0, 32⟩
def R.USBH_CTRL_EN : RF := ⟨A.USBH_CTRL, 0, 1⟩
def R.USBH_CTRL_SOF_EN : RF := ⟨A.USBH_CTRL, 1, 1⟩
def R.USBH_CTRL_HUB_RESET : RF := ⟨A.USBH_CTRL, 2, 1⟩
def R.USBH_CTRL_HOLD_UF : RF := ⟨A.USBH_CTRL, 8, 8⟩
def R.USBH_CTRL_NAK_LIMIT : RF := ⟨A.USBH_CTRL, 16, 4⟩
def R.USBH_CTRL_RESET_MS : RF := ⟨A.USBH_CTRL, 24, 5⟩
def R.USBH_FRAME_INDEX : RF := ⟨A.USBH_FRAME, 0, 14⟩
def R.USBH_FRAME_RUNNING : RF := ⟨A.USBH_FRAME, 14, 1⟩
def R.USBH_FRAME_ADJ_ADJ : RF := ⟨A.USBH_FRAME_ADJ, 0, 8⟩
def R.USBH_BASE_UF_INDEX : RF := ⟨A.USBH_BASE_UF, 0, 14⟩
def R.USBH_BASE_LO : RF := ⟨A.USBH_BASE_LO, 0, 32⟩
def R.USBH_BASE_HI : RF := ⟨A.USBH_BASE_HI, 0, 32⟩
def R.USBH_SOF_LO : RF := ⟨A.USBH_SOF_LO, 0, 32⟩
def R.USBH_SOF_HI : RF := ⟨A.USBH_SOF_HI, 0, 32⟩
def R.USBH_CNT_CLEAR : RF := ⟨A.USBH_CNT_CLEAR, 0, 32⟩
def R.USBH_PORT_CTRL_POWER_ON (a : Nat) : RF := ⟨(A.USBH_PORT_CTRL a), 0, 1⟩
def R.USBH_PORT_CTRL_POWER_OFF (a : Nat) : RF := ⟨(A.USBH_PORT_CTRL a), 1, 1⟩
def R.USBH_PORT_CTRL_RESET (a : Nat) : RF := ⟨(A.USBH_PORT_CTRL a), 2, 1⟩
def R.USBH_PORT_CTRL_DISABLE (a : Nat) : RF := ⟨(A.USBH_PORT_CTRL a), 3, 1⟩
def R.USBH_PORT_CTRL_SUSPEND (a : Nat) : RF := ⟨(A.USBH_PORT_CTRL a), 4, 1⟩
def R.USBH_PORT_CTRL_RESUME (a : Nat) : RF := ⟨(A.USBH_PORT_CTRL a), 5, 1⟩
def R.USBH_PORT_STATUS_STATE (a : Nat) : RF := ⟨(A.USBH_PORT_STATUS a), 0, 3⟩
def R.USBH_PORT_STATUS_SPEED (a : Nat) : RF := ⟨(A.USBH_PORT_STATUS a), 3, 2⟩
def R.USBH_PORT_STATUS_CONNECT (a : Nat) : RF := ⟨(A.USBH_PORT_STATUS a), 5, 1⟩
def R.USBH_PORT_STATUS_OC (a : Nat) : RF := ⟨(A.USBH_PORT_STATUS a), 6, 1⟩
def R.USBH_PORT_STATUS_C_CONNECT (a : Nat) : RF := ⟨(A.USBH_PORT_STATUS a), 8, 1⟩
def R.USBH_PORT_STATUS_C_ENABLE (a : Nat) : RF := ⟨(A.USBH_PORT_STATUS a), 9, 1⟩
def R.USBH_PORT_STATUS_C_SUSPEND (a : Nat) : RF := ⟨(A.USBH_PORT_STATUS a), 10, 1⟩
def R.USBH_PORT_STATUS_C_OVERCURRENT (a : Nat) : RF := ⟨(A.USBH_PORT_STATUS a), 11, 1⟩
def R.USBH_PORT_STATUS_C_RESET (a : Nat) : RF := ⟨(A.USBH_PORT_STATUS a), 12, 1⟩
def R.USBH_PORT_STATUS_WAKE_SEEN (a : Nat) : RF := ⟨(A.USBH_PORT_STATUS a), 13, 1⟩
def R.USBH_DEST_DEST (a b : Nat) : RF := ⟨(A.USBH_DEST a b), 0, 14⟩
def R.USBH_SPLITS (a : Nat) : RF := ⟨(A.USBH_SPLITS a), 0, 32⟩
def R.USBH_SPLIT_EXPIRED (a : Nat) : RF := ⟨(A.USBH_SPLIT_EXPIRED a), 0, 32⟩
def R.USBH_SPLIT_DISCARD (a : Nat) : RF := ⟨(A.USBH_SPLIT_DISCARD a), 0, 32⟩
def R.USBH_XACT_ERR (a : Nat) : RF := ⟨(A.USBH_XACT_ERR a), 0, 32⟩
def R.USBH_HALTS (a : Nat) : RF := ⟨(A.USBH_HALTS a), 0, 32⟩
def R.EMMC_CTRL_EN : RF := ⟨A.EMMC_CTRL, 0, 1⟩
def R.EMMC_CTRL_RST_N : RF := ⟨A.EMMC_CTRL, 1, 1⟩
def R.EMMC_CTRL_MODE : RF := ⟨A.EMMC_CTRL, 2, 2⟩
def R.EMMC_CTRL_WIDTH : RF := ⟨A.EMMC_CTRL, 4, 2⟩
def R.EMMC_CTRL_DIV : RF := ⟨A.EMMC_CTRL, 8, 10⟩
def R.EMMC_STATUS_BUSY : RF := ⟨A.EMMC_STATUS, 0, 1⟩
def R.EMMC_STATUS_DONE : RF := ⟨A.EMMC_STATUS, 1, 1⟩
def R.EMMC_STATUS_ERR : RF := ⟨A.EMMC_STATUS, 2, 4⟩
def R.EMMC_STATUS_DAT0 : RF := ⟨A.EMMC_STATUS, 6, 1⟩
def R.EMMC_CMD_INDEX : RF := ⟨A.EMMC_CMD, 0, 6⟩
def R.EMMC_CMD_RESP : RF := ⟨A.EMMC_CMD, 6, 2⟩
def R.EMMC_CMD_DATA : RF := ⟨A.EMMC_CMD, 8, 2⟩
def R.EMMC_CMD_GO : RF := ⟨A.EMMC_CMD, 31, 1⟩
def R.EMMC_ARG : RF := ⟨A.EMMC_ARG, 0, 32⟩
def R.EMMC_RESP (a : Nat) : RF := ⟨(A.EMMC_RESP a), 0, 32⟩
def R.EMMC_DMA_ADDR : RF := ⟨A.EMMC_DMA_ADDR, 0, 32⟩
def R.EMMC_BLOCKS_BLOCKS : RF := ⟨A.EMMC_BLOCKS, 0, 16⟩
def R.EMMC_TIMEOUT_US : RF := ⟨A.EMMC_TIMEOUT, 0, 24⟩
def R.EMMC_TUNE_TAP : RF := ⟨A.EMMC_TUNE, 0, 6⟩
def R.EMMC_CRC_ERR : RF := ⟨A.EMMC_CRC_ERR, 0, 32⟩
def R.EMMC_TO_CNT : RF := ⟨A.EMMC_TO_CNT, 0, 32⟩
def R.EMMC_CNT_CLEAR : RF := ⟨A.EMMC_CNT_CLEAR, 0, 32⟩
def R.JRN_CTRL_WEAR_EN : RF := ⟨A.JRN_CTRL, 0, 1⟩
def R.JRN_STATUS_HEAD : RF := ⟨A.JRN_STATUS, 0, 16⟩
def R.JRN_STATUS_PASS : RF := ⟨A.JRN_STATUS, 16, 14⟩
def R.JRN_STATUS_READY : RF := ⟨A.JRN_STATUS, 30, 1⟩
def R.JRN_STATUS_CHAIN_BREAK : RF := ⟨A.JRN_STATUS, 31, 1⟩
def R.JRN_PROT_CNT_COUNT : RF := ⟨A.JRN_PROT_CNT, 0, 15⟩
def R.JRN_PROT_LIMIT_LIMIT : RF := ⟨A.JRN_PROT_LIMIT, 0, 15⟩
def R.JRN_PROT_LIMIT_LOCK : RF := ⟨A.JRN_PROT_LIMIT, 15, 1⟩
def R.JRN_UNPROTECT_SLOT : RF := ⟨A.JRN_UNPROTECT, 0, 16⟩
def R.JRN_UNPROTECT_GO : RF := ⟨A.JRN_UNPROTECT, 16, 1⟩
def R.JRN_UNPROTECT_NOTPROT : RF := ⟨A.JRN_UNPROTECT, 17, 1⟩
def R.JRN_STORE_SRC : RF := ⟨A.JRN_STORE_SRC, 0, 32⟩
def R.JRN_STORE_CTRL_TARGET : RF := ⟨A.JRN_STORE_CTRL, 0, 5⟩
def R.JRN_STORE_CTRL_ERASE : RF := ⟨A.JRN_STORE_CTRL, 5, 1⟩
def R.JRN_STORE_CTRL_MODE : RF := ⟨A.JRN_STORE_CTRL, 6, 1⟩
def R.JRN_STORE_CTRL_TUNNEL : RF := ⟨A.JRN_STORE_CTRL, 8, 7⟩
def R.JRN_STORE_CTRL_GO : RF := ⟨A.JRN_STORE_CTRL, 31, 1⟩
def R.JRN_STORE_BASE_CODE_BASE : RF := ⟨A.JRN_STORE_BASE, 0, 13⟩
def R.JRN_STORE_BASE_DATA_BASE : RF := ⟨A.JRN_STORE_BASE, 16, 10⟩
def R.JRN_STORE_LEN_LEN : RF := ⟨A.JRN_STORE_LEN, 0, 18⟩
def R.JRN_STORE_STATUS_BUSY : RF := ⟨A.JRN_STORE_STATUS, 0, 1⟩
def R.JRN_STORE_STATUS_RESULT : RF := ⟨A.JRN_STORE_STATUS, 4, 4⟩
def R.JRN_LOST : RF := ⟨A.JRN_LOST, 0, 32⟩
def R.JRN_SKIPPED : RF := ⟨A.JRN_SKIPPED, 0, 32⟩
def R.JRN_MOVES : RF := ⟨A.JRN_MOVES, 0, 32⟩
def R.JRN_CNT_CLEAR : RF := ⟨A.JRN_CNT_CLEAR, 0, 32⟩
def R.BRG_CTRL_CPL_TIMEOUT : RF := ⟨A.BRG_CTRL, 0, 8⟩
def R.BRG_CTRL_RETRY_DELAY : RF := ⟨A.BRG_CTRL, 8, 8⟩
def R.BRG_STATUS_PW_ERR : RF := ⟨A.BRG_STATUS, 0, 1⟩
def R.BRG_STATUS_OUT_PW_ERR : RF := ⟨A.BRG_STATUS, 1, 1⟩
def R.BRG_STATUS_CPL_TO : RF := ⟨A.BRG_STATUS, 2, 1⟩
def R.BRG_STATUS_BAD_REQ : RF := ⟨A.BRG_STATUS, 3, 1⟩
def R.BRG_PW_ERR_ADDR : RF := ⟨A.BRG_PW_ERR_ADDR, 0, 32⟩
def R.BRG_PW_ERR_INFO_CAUSE : RF := ⟨A.BRG_PW_ERR_INFO, 0, 3⟩
def R.BRG_PW_ERR_INFO_OUTBOUND : RF := ⟨A.BRG_PW_ERR_INFO, 3, 1⟩
def R.BRG_PW_ERR_INFO_PRIV : RF := ⟨A.BRG_PW_ERR_INFO, 4, 1⟩
def R.BRG_PW_ERR_INFO_COUNT : RF := ⟨A.BRG_PW_ERR_INFO, 16, 16⟩
def R.BRG_OUTSTANDING_HEAD_READS : RF := ⟨A.BRG_OUTSTANDING, 0, 9⟩
def R.BRG_OUTSTANDING_HUB_READS : RF := ⟨A.BRG_OUTSTANDING, 16, 9⟩
def R.BRG_BAD_REQ : RF := ⟨A.BRG_BAD_REQ, 0, 32⟩
def R.BRG_CPL_TIMEOUTS : RF := ⟨A.BRG_CPL_TIMEOUTS, 0, 32⟩
def R.BRG_RETRIES : RF := ⟨A.BRG_RETRIES, 0, 32⟩
def R.BRG_LATE_CPL : RF := ⟨A.BRG_LATE_CPL, 0, 32⟩
def R.BRG_CNT_CLEAR : RF := ⟨A.BRG_CNT_CLEAR, 0, 32⟩
def R.BRG_OUT_LOCAL (a : Nat) : RF := ⟨(A.BRG_OUT_LOCAL a), 0, 32⟩
def R.BRG_OUT_HOST (a : Nat) : RF := ⟨(A.BRG_OUT_HOST a), 0, 32⟩
def R.BRG_OUT_CTRL_LEN (a : Nat) : RF := ⟨(A.BRG_OUT_CTRL a), 0, 21⟩
def R.BRG_OUT_CTRL_DIR (a : Nat) : RF := ⟨(A.BRG_OUT_CTRL a), 24, 1⟩
def R.BRG_OUT_CTRL_GO (a : Nat) : RF := ⟨(A.BRG_OUT_CTRL a), 31, 1⟩
def R.BRG_OUT_STATUS_BUSY (a : Nat) : RF := ⟨(A.BRG_OUT_STATUS a), 0, 1⟩
def R.BRG_OUT_STATUS_DONE (a : Nat) : RF := ⟨(A.BRG_OUT_STATUS a), 1, 1⟩
def R.BRG_OUT_STATUS_RESULT (a : Nat) : RF := ⟨(A.BRG_OUT_STATUS a), 2, 2⟩
def R.ACC_CTRL_EN : RF := ⟨A.ACC_CTRL, 0, 1⟩
def R.ACC_STATUS_HOLDING : RF := ⟨A.ACC_STATUS, 0, 1⟩
def R.ACC_STATUS_LONG_HOLD : RF := ⟨A.ACC_STATUS, 1, 1⟩
def R.ACC_STATUS_BAD_WRITE : RF := ⟨A.ACC_STATUS, 2, 1⟩
def R.ACC_STATUS_HASH_VALID : RF := ⟨A.ACC_STATUS, 3, 1⟩
def R.ACC_DENY_CNT : RF := ⟨A.ACC_DENY_CNT, 0, 32⟩
def R.ACC_DENY_ADDR : RF := ⟨A.ACC_DENY_ADDR, 0, 32⟩
def R.ACC_DENY_INFO_CLASS : RF := ⟨A.ACC_DENY_INFO, 0, 3⟩
def R.ACC_DENY_INFO_WRITE : RF := ⟨A.ACC_DENY_INFO, 3, 1⟩
def R.ACC_DENY_INFO_FETCH : RF := ⟨A.ACC_DENY_INFO, 4, 1⟩
def R.ACC_DENY_INFO_NOMATCH : RF := ⟨A.ACC_DENY_INFO, 5, 1⟩
def R.ACC_DENY_INFO_PRIVONLY : RF := ⟨A.ACC_DENY_INFO, 6, 1⟩
def R.ACC_DENY_INFO_LOCKED : RF := ⟨A.ACC_DENY_INFO, 7, 1⟩
def R.ACC_DENY_INFO_INDEX : RF := ⟨A.ACC_DENY_INFO, 8, 7⟩
def R.ACC_DEBUG_DENY : RF := ⟨A.ACC_DEBUG_DENY, 0, 32⟩
def R.ACC_CNT_CLEAR : RF := ⟨A.ACC_CNT_CLEAR, 0, 32⟩
def R.ACC_HASH (a : Nat) : RF := ⟨(A.ACC_HASH a), 0, 32⟩
def R.ACC_SLOT_PERM (a : Nat) : RF := ⟨(A.ACC_SLOT a), 0, 18⟩
def R.ACC_SLOT_PRIV_ONLY (a : Nat) : RF := ⟨(A.ACC_SLOT a), 18, 1⟩
def R.ACC_SLOT_VALID (a : Nat) : RF := ⟨(A.ACC_SLOT a), 30, 1⟩
def R.ACC_SLOT_LOCK (a : Nat) : RF := ⟨(A.ACC_SLOT a), 31, 1⟩
def R.ACC_REG_BASE_SIZE (a : Nat) : RF := ⟨(A.ACC_REG_BASE a), 0, 5⟩
def R.ACC_REG_BASE_BASE (a : Nat) : RF := ⟨(A.ACC_REG_BASE a), 12, 20⟩
def R.ACC_REG_PERM_PERM (a : Nat) : RF := ⟨(A.ACC_REG_PERM a), 0, 18⟩
def R.ACC_REG_PERM_PRIV_ONLY (a : Nat) : RF := ⟨(A.ACC_REG_PERM a), 18, 1⟩
def R.ACC_REG_PERM_CACHE (a : Nat) : RF := ⟨(A.ACC_REG_PERM a), 19, 1⟩
def R.ACC_REG_PERM_RELAXED (a : Nat) : RF := ⟨(A.ACC_REG_PERM a), 20, 1⟩
def R.ACC_REG_PERM_VALID (a : Nat) : RF := ⟨(A.ACC_REG_PERM a), 30, 1⟩
def R.ACC_REG_PERM_LOCK (a : Nat) : RF := ⟨(A.ACC_REG_PERM a), 31, 1⟩
def R.CC_CTRL_EN (i : Nat) : RF := ⟨(A.CC_CTRL i), 0, 1⟩
def R.CC_CTRL_ROLE (i : Nat) : RF := ⟨(A.CC_CTRL i), 1, 2⟩
def R.CC_CTRL_EPR_EN (i : Nat) : RF := ⟨(A.CC_CTRL i), 3, 1⟩
def R.CC_CTRL_PR_SWAP (i : Nat) : RF := ⟨(A.CC_CTRL i), 4, 1⟩
def R.CC_CTRL_HARD_RESET (i : Nat) : RF := ⟨(A.CC_CTRL i), 5, 1⟩
def R.CC_CTRL_FAULT_CLR (i : Nat) : RF := ⟨(A.CC_CTRL i), 6, 1⟩
def R.CC_CTRL_VCONN_EN (i : Nat) : RF := ⟨(A.CC_CTRL i), 7, 1⟩
def R.CC_STATUS_ATTACH (i : Nat) : RF := ⟨(A.CC_STATUS i), 0, 4⟩
def R.CC_STATUS_FLIPPED (i : Nat) : RF := ⟨(A.CC_STATUS i), 4, 1⟩
def R.CC_STATUS_VCONN_ON (i : Nat) : RF := ⟨(A.CC_STATUS i), 5, 1⟩
def R.CC_STATUS_RP_SEEN (i : Nat) : RF := ⟨(A.CC_STATUS i), 6, 2⟩
def R.CC_STATUS_PD_STATE (i : Nat) : RF := ⟨(A.CC_STATUS i), 8, 3⟩
def R.CC_STATUS_CABLE_5A (i : Nat) : RF := ⟨(A.CC_STATUS i), 11, 1⟩
def R.CC_STATUS_CABLE_EPR (i : Nat) : RF := ⟨(A.CC_STATUS i), 12, 1⟩
def R.CC_STATUS_HUB_DEFAULT (i : Nat) : RF := ⟨(A.CC_STATUS i), 13, 1⟩
def R.CC_EVENT_ATTACH_CHG (i : Nat) : RF := ⟨(A.CC_EVENT i), 0, 1⟩
def R.CC_EVENT_CONTRACT_CHG (i : Nat) : RF := ⟨(A.CC_EVENT i), 1, 1⟩
def R.CC_EVENT_SWAP_DONE (i : Nat) : RF := ⟨(A.CC_EVENT i), 2, 1⟩
def R.CC_EVENT_HARD_RESET (i : Nat) : RF := ⟨(A.CC_EVENT i), 3, 1⟩
def R.CC_EVENT_OVP (i : Nat) : RF := ⟨(A.CC_EVENT i), 4, 1⟩
def R.CC_EVENT_OCP (i : Nat) : RF := ⟨(A.CC_EVENT i), 5, 1⟩
def R.CC_EVENT_RCP (i : Nat) : RF := ⟨(A.CC_EVENT i), 6, 1⟩
def R.CC_EVENT_COLLISION (i : Nat) : RF := ⟨(A.CC_EVENT i), 7, 1⟩
def R.CC_EVENT_LATCHED (i : Nat) : RF := ⟨(A.CC_EVENT i), 8, 1⟩
def R.CC_SRC_CFG_HV_LEVEL (i : Nat) : RF := ⟨(A.CC_SRC_CFG i), 0, 3⟩
def R.CC_SRC_CFG_I_HV (i : Nat) : RF := ⟨(A.CC_SRC_CFG i), 8, 4⟩
def R.CC_SNK_CFG_MAX_LEVEL (i : Nat) : RF := ⟨(A.CC_SNK_CFG i), 0, 3⟩
def R.CC_SNK_CFG_I_MAX (i : Nat) : RF := ⟨(A.CC_SNK_CFG i), 8, 4⟩
def R.CC_CONTRACT_VOLTAGE (i : Nat) : RF := ⟨(A.CC_CONTRACT i), 0, 12⟩
def R.CC_CONTRACT_CURRENT (i : Nat) : RF := ⟨(A.CC_CONTRACT i), 12, 10⟩
def R.CC_CONTRACT_EPR (i : Nat) : RF := ⟨(A.CC_CONTRACT i), 22, 1⟩
def R.CC_CONTRACT_SOURCE (i : Nat) : RF := ⟨(A.CC_CONTRACT i), 23, 1⟩
def R.CC_PROT_OVP_PCT (i : Nat) : RF := ⟨(A.CC_PROT i), 0, 8⟩
def R.CC_PROT_OCP_PCT (i : Nat) : RF := ⟨(A.CC_PROT i), 8, 8⟩
def R.CC_PROT_RETRY_MAX (i : Nat) : RF := ⟨(A.CC_PROT i), 16, 4⟩
def R.CC_VBUS_VOLT (i : Nat) : RF := ⟨(A.CC_VBUS i), 0, 12⟩
def R.CC_VBUS_AMPS (i : Nat) : RF := ⟨(A.CC_VBUS i), 12, 10⟩
def R.CC_VBUS_INTO_HUB (i : Nat) : RF := ⟨(A.CC_VBUS i), 22, 1⟩
def R.CC_ATTACHES (i : Nat) : RF := ⟨(A.CC_ATTACHES i), 0, 32⟩
def R.CC_HARD_RESETS (i : Nat) : RF := ⟨(A.CC_HARD_RESETS i), 0, 32⟩
def R.CC_FAULTS (i : Nat) : RF := ⟨(A.CC_FAULTS i), 0, 32⟩
def R.CC_COLLISIONS (i : Nat) : RF := ⟨(A.CC_COLLISIONS i), 0, 32⟩
def R.CC_UNSUPPORTED (i : Nat) : RF := ⟨(A.CC_UNSUPPORTED i), 0, 32⟩
def R.CC_CNT_CLEAR (i : Nat) : RF := ⟨(A.CC_CNT_CLEAR i), 0, 32⟩
def R.LOAD_CTRL_EN : RF := ⟨A.LOAD_CTRL, 0, 1⟩
def R.LOAD_CTRL_FAULT_MODE : RF := ⟨A.LOAD_CTRL, 1, 1⟩
def R.LOAD_CTRL_TEMP_SEL : RF := ⟨A.LOAD_CTRL, 2, 1⟩
def R.LOAD_CTRL_PRES_IGNORE : RF := ⟨A.LOAD_CTRL, 3, 1⟩
def R.LOAD_CTRL_LOCAL_EN : RF := ⟨A.LOAD_CTRL, 4, 1⟩
def R.LOAD_CTRL_FAULT_CLR : RF := ⟨A.LOAD_CTRL, 5, 1⟩
def R.LOAD_STATUS_STATE : RF := ⟨A.LOAD_STATUS, 0, 3⟩
def R.LOAD_STATUS_PG : RF := ⟨A.LOAD_STATUS, 3, 1⟩
def R.LOAD_STATUS_PRESENT : RF := ⟨A.LOAD_STATUS, 4, 1⟩
def R.LOAD_STATUS_WINDOW_OK : RF := ⟨A.LOAD_STATUS, 5, 1⟩
def R.LOAD_STATUS_DEFAULT : RF := ⟨A.LOAD_STATUS, 6, 1⟩
def R.LOAD_STATUS_FEEDS : RF := ⟨A.LOAD_STATUS, 7, 3⟩
def R.LOAD_STATUS_RETRIES : RF := ⟨A.LOAD_STATUS, 12, 4⟩
def R.LOAD_EVENT_SHORT : RF := ⟨A.LOAD_EVENT, 0, 1⟩
def R.LOAD_EVENT_ILIM_TIMEOUT : RF := ⟨A.LOAD_EVENT, 1, 1⟩
def R.LOAD_EVENT_RAMP_TIMEOUT : RF := ⟨A.LOAD_EVENT, 2, 1⟩
def R.LOAD_EVENT_OVERTEMP : RF := ⟨A.LOAD_EVENT, 3, 1⟩
def R.LOAD_EVENT_LATCHED : RF := ⟨A.LOAD_EVENT, 4, 1⟩
def R.LOAD_EVENT_OV : RF := ⟨A.LOAD_EVENT, 5, 1⟩
def R.LOAD_EVENT_UV : RF := ⟨A.LOAD_EVENT, 6, 1⟩
def R.LOAD_EVENT_PRES_LOST : RF := ⟨A.LOAD_EVENT, 7, 1⟩
def R.LOAD_EVENT_FEED_LOST : RF := ⟨A.LOAD_EVENT, 8, 1⟩
def R.LOAD_EVENT_REINSERT : RF := ⟨A.LOAD_EVENT, 9, 1⟩
def R.LOAD_WINDOW_UV : RF := ⟨A.LOAD_WINDOW, 0, 12⟩
def R.LOAD_WINDOW_OV : RF := ⟨A.LOAD_WINDOW, 16, 12⟩
def R.LOAD_TIMING_INS_DELAY : RF := ⟨A.LOAD_TIMING, 0, 8⟩
def R.LOAD_TIMING_RETRY : RF := ⟨A.LOAD_TIMING, 8, 8⟩
def R.LOAD_TIMING_RETRY_MAX : RF := ⟨A.LOAD_TIMING, 16, 4⟩
def R.LOAD_TIMING_UV_FILT : RF := ⟨A.LOAD_TIMING, 24, 8⟩
def R.LOAD_RAMP_SLEW : RF := ⟨A.LOAD_RAMP, 0, 8⟩
def R.LOAD_RAMP_RAMP_TO : RF := ⟨A.LOAD_RAMP, 8, 8⟩
def R.LOAD_RAMP_PG_DELAY : RF := ⟨A.LOAD_RAMP, 16, 8⟩
def R.LOAD_ILIM_ILIM : RF := ⟨A.LOAD_ILIM, 0, 8⟩
def R.LOAD_ILIM_ILIM_T : RF := ⟨A.LOAD_ILIM, 8, 8⟩
def R.LOAD_VOLTS_VCOM : RF := ⟨A.LOAD_VOLTS, 0, 12⟩
def R.LOAD_VOLTS_VOUT : RF := ⟨A.LOAD_VOLTS, 16, 12⟩
def R.LOAD_IOUT_SENSE : RF := ⟨A.LOAD_IOUT, 0, 16⟩
def R.LOAD_FEED_E_VOLT : RF := ⟨A.LOAD_FEED_E, 0, 12⟩
def R.LOAD_FEED_E_ON : RF := ⟨A.LOAD_FEED_E, 12, 1⟩
def R.LOAD_FEED_W_VOLT : RF := ⟨A.LOAD_FEED_W, 0, 12⟩
def R.LOAD_FEED_W_ON : RF := ⟨A.LOAD_FEED_W, 12, 1⟩
def R.LOAD_FEED_L_VOLT : RF := ⟨A.LOAD_FEED_L, 0, 12⟩
def R.LOAD_FEED_L_ON : RF := ⟨A.LOAD_FEED_L, 12, 1⟩
def R.LOAD_TRIPS : RF := ⟨A.LOAD_TRIPS, 0, 32⟩
def R.LOAD_INSERTS : RF := ⟨A.LOAD_INSERTS, 0, 32⟩
def R.LOAD_RCB : RF := ⟨A.LOAD_RCB, 0, 32⟩
def R.LOAD_CNT_CLEAR : RF := ⟨A.LOAD_CNT_CLEAR, 0, 32⟩
def R.LOAD_TM_RTH_RTH1 (a : Nat) : RF := ⟨(A.LOAD_TM_RTH a), 0, 8⟩
def R.LOAD_TM_RTH_TAU1 (a : Nat) : RF := ⟨(A.LOAD_TM_RTH a), 8, 8⟩
def R.LOAD_TM_RTH_RTH2 (a : Nat) : RF := ⟨(A.LOAD_TM_RTH a), 16, 8⟩
def R.LOAD_TM_RTH_TAU2 (a : Nat) : RF := ⟨(A.LOAD_TM_RTH a), 24, 8⟩
def R.LOAD_TM_LIM_TJ_MAX (a : Nat) : RF := ⟨(A.LOAD_TM_LIM a), 0, 8⟩
def R.LOAD_TM_LIM_TJ_RETRY (a : Nat) : RF := ⟨(A.LOAD_TM_LIM a), 8, 8⟩
def R.LOAD_TM_TEMP_TEMP (a : Nat) : RF := ⟨(A.LOAD_TM_TEMP a), 0, 16⟩
def R.SEC_STATUS_LIFECYCLE : RF := ⟨A.SEC_STATUS, 0, 3⟩
def R.SEC_STATUS_SERVICE : RF := ⟨A.SEC_STATUS, 3, 1⟩
def R.SEC_STATUS_ORS_VALID : RF := ⟨A.SEC_STATUS, 4, 1⟩
def R.SEC_STATUS_TRNG_FAIL : RF := ⟨A.SEC_STATUS, 5, 1⟩
def R.SEC_STATUS_PKEYS : RF := ⟨A.SEC_STATUS, 6, 4⟩
def R.SEC_LC_REQ_TARGET : RF := ⟨A.SEC_LC_REQ, 0, 3⟩
def R.SEC_LC_REQ_GO : RF := ⟨A.SEC_LC_REQ, 3, 1⟩
def R.SEC_LC_REQ_RESULT : RF := ⟨A.SEC_LC_REQ, 4, 4⟩
def R.SEC_LC_REQ_KEY : RF := ⟨A.SEC_LC_REQ, 16, 16⟩
def R.SEC_OP_ADDR : RF := ⟨A.SEC_OP_ADDR, 0, 32⟩
def R.SEC_OP_CTRL_OP : RF := ⟨A.SEC_OP_CTRL, 0, 4⟩
def R.SEC_OP_CTRL_GO : RF := ⟨A.SEC_OP_CTRL, 31, 1⟩
def R.SEC_OP_STATUS_BUSY : RF := ⟨A.SEC_OP_STATUS, 0, 1⟩
def R.SEC_OP_STATUS_DONE_FLAG : RF := ⟨A.SEC_OP_STATUS, 1, 1⟩
def R.SEC_OP_STATUS_BUSY_REFUSED : RF := ⟨A.SEC_OP_STATUS, 2, 1⟩
def R.SEC_OP_STATUS_CODE : RF := ⟨A.SEC_OP_STATUS, 8, 7⟩
def R.SEC_OP_STATUS_VALUE : RF := ⟨A.SEC_OP_STATUS, 16, 16⟩
def R.SEC_TAP_REFUSED : RF := ⟨A.SEC_TAP_REFUSED, 0, 32⟩
def R.SEC_SVC_CNT : RF := ⟨A.SEC_SVC_CNT, 0, 32⟩
def R.SEC_LC_CNT : RF := ⟨A.SEC_LC_CNT, 0, 32⟩
def R.SEC_CNT_CLEAR : RF := ⟨A.SEC_CNT_CLEAR, 0, 32⟩
def R.SEC_SLOT_TUNNEL (a : Nat) : RF := ⟨(A.SEC_SLOT a), 0, 7⟩
def R.SEC_SLOT_ASSIGNED (a : Nat) : RF := ⟨(A.SEC_SLOT a), 7, 1⟩
def R.SEC_SLOT_ENGINE (a : Nat) : RF := ⟨(A.SEC_SLOT a), 8, 3⟩
def R.SEC_SLOT_LOADED (a : Nat) : RF := ⟨(A.SEC_SLOT a), 11, 1⟩
def R.SEC_SLOT_KEG_ID (a : Nat) : RF := ⟨(A.SEC_SLOT a), 16, 16⟩
def R.ERR_CTRL_ALERT_MASK : RF := ⟨A.ERR_CTRL, 0, 3⟩
def R.ERR_CTRL_ALERT_F : RF := ⟨A.ERR_CTRL, 3, 1⟩
def R.ERR_CTRL_EVENT_MASK : RF := ⟨A.ERR_CTRL, 4, 4⟩
def R.ERR_CTRL_HOLD_MASK : RF := ⟨A.ERR_CTRL, 8, 3⟩
def R.ERR_CTRL_HOLD_F : RF := ⟨A.ERR_CTRL, 11, 1⟩
def R.ERR_CTRL_NOTICE_EN : RF := ⟨A.ERR_CTRL, 12, 1⟩
def R.ERR_STATUS_NEWEST : RF := ⟨A.ERR_STATUS, 0, 6⟩
def R.ERR_STATUS_VALID : RF := ⟨A.ERR_STATUS, 6, 1⟩
def R.ERR_STATUS_ALERT : RF := ⟨A.ERR_STATUS, 7, 1⟩
def R.ERR_STATUS_HANDLING : RF := ⟨A.ERR_STATUS, 8, 1⟩
def R.ERR_STATUS_UNACKED : RF := ⟨A.ERR_STATUS, 16, 16⟩
def R.ERR_SEQ_NEWEST : RF := ⟨A.ERR_SEQ, 0, 16⟩
def R.ERR_SEQ_ACKED : RF := ⟨A.ERR_SEQ, 16, 16⟩
def R.ERR_ACK_SEQ : RF := ⟨A.ERR_ACK, 0, 16⟩
def R.ERR_OVERFLOW : RF := ⟨A.ERR_OVERFLOW, 0, 32⟩
def R.ERR_SUPPRESSED : RF := ⟨A.ERR_SUPPRESSED, 0, 32⟩
def R.ERR_COUNT_C : RF := ⟨A.ERR_COUNT_C, 0, 32⟩
def R.ERR_COUNT_DG : RF := ⟨A.ERR_COUNT_DG, 0, 32⟩
def R.ERR_COUNT_CT : RF := ⟨A.ERR_COUNT_CT, 0, 32⟩
def R.ERR_COUNT_F : RF := ⟨A.ERR_COUNT_F, 0, 32⟩
def R.ERR_FATAL_RESETS : RF := ⟨A.ERR_FATAL_RESETS, 0, 32⟩
def R.ERR_EVT_LOST : RF := ⟨A.ERR_EVT_LOST, 0, 32⟩
def R.ERR_INJECT_GO : RF := ⟨A.ERR_INJECT, 0, 1⟩
def R.ERR_INJECT_SEVERITY : RF := ⟨A.ERR_INJECT, 1, 2⟩
def R.ERR_INJECT_DETAIL0 : RF := ⟨A.ERR_INJECT, 16, 16⟩
def R.ERR_CNT_CLEAR : RF := ⟨A.ERR_CNT_CLEAR, 0, 32⟩
def R.ERR_REC (a b : Nat) : RF := ⟨(A.ERR_REC a b), 0, 32⟩
def R.COOP_CTRL_SLICE_EN : RF := ⟨A.COOP_CTRL, 0, 1⟩
def R.COOP_CTRL_LANE_EN : RF := ⟨A.COOP_CTRL, 1, 1⟩
def R.COOP_CTRL_ADC_EN : RF := ⟨A.COOP_CTRL, 2, 1⟩
def R.COOP_STATUS_POWERUP : RF := ⟨A.COOP_STATUS, 0, 2⟩
def R.COOP_STATUS_SLICE_HELD : RF := ⟨A.COOP_STATUS, 2, 1⟩
def R.COOP_STATUS_WITHDRAWN : RF := ⟨A.COOP_STATUS, 3, 1⟩
def R.COOP_FAIL_ADDR : RF := ⟨A.COOP_FAIL_ADDR, 0, 32⟩
def R.COOP_FAIL_INFO_BIT : RF := ⟨A.COOP_FAIL_INFO, 0, 7⟩
def R.COOP_FAIL_INFO_REPAIRED : RF := ⟨A.COOP_FAIL_INFO, 8, 1⟩
def R.COOP_FAIL_INFO_UNREPAIRABLE : RF := ⟨A.COOP_FAIL_INFO, 9, 1⟩
def R.COOP_FAIL_INFO_POWERUP_FOUND : RF := ⟨A.COOP_FAIL_INFO, 10, 1⟩
def R.COOP_FAIL_INFO_MEMORY : RF := ⟨A.COOP_FAIL_INFO, 12, 4⟩
def R.COOP_FAIL_INFO_COUNT : RF := ⟨A.COOP_FAIL_INFO, 16, 16⟩
def R.COOP_SPARES_ROWS : RF := ⟨A.COOP_SPARES, 0, 8⟩
def R.COOP_SPARES_COLUMNS : RF := ⟨A.COOP_SPARES, 8, 8⟩
def R.COOP_SPARES_RETIRED : RF := ⟨A.COOP_SPARES, 16, 13⟩
def R.COOP_PASS_TIME_MS : RF := ⟨A.COOP_PASS_TIME, 0, 16⟩
def R.COOP_LANE_PORT : RF := ⟨A.COOP_LANE, 0, 2⟩
def R.COOP_LANE_LANE : RF := ⟨A.COOP_LANE, 2, 3⟩
def R.COOP_LANE_PASS : RF := ⟨A.COOP_LANE, 5, 1⟩
def R.COOP_LANE_GIVEN_BACK : RF := ⟨A.COOP_LANE, 6, 1⟩
def R.COOP_MISSED : RF := ⟨A.COOP_MISSED, 0, 32⟩
def R.COOP_NOT_RUN : RF := ⟨A.COOP_NOT_RUN, 0, 32⟩
def R.COOP_CNT_CLEAR : RF := ⟨A.COOP_CNT_CLEAR, 0, 32⟩
def R.DEV_CTRL_HUB_RESET : RF := ⟨A.DEV_CTRL, 0, 1⟩
def R.DEV_CTRL_KEY : RF := ⟨A.DEV_CTRL, 16, 16⟩
def R.DEV_STATUS_ADDR : RF := ⟨A.DEV_STATUS, 0, 7⟩
def R.DEV_STATUS_ENUM_PORT : RF := ⟨A.DEV_STATUS, 8, 2⟩
def R.DEV_STATUS_RELEASED : RF := ⟨A.DEV_STATUS, 10, 1⟩
def R.DEV_STATUS_SPUR : RF := ⟨A.DEV_STATUS, 11, 1⟩
def R.DEV_STATUS_IMAGE : RF := ⟨A.DEV_STATUS, 12, 2⟩
def R.DEV_STATUS_RESET_CAUSE : RF := ⟨A.DEV_STATUS, 16, 3⟩
def R.DEV_RELEASE_TIME_MS : RF := ⟨A.DEV_RELEASE_TIME, 0, 16⟩
def R.DEV_IMAGE_ADDR : RF := ⟨A.DEV_IMAGE_ADDR, 0, 32⟩
def R.DEV_IMAGE_CTRL_CAPTURE : RF := ⟨A.DEV_IMAGE_CTRL, 0, 1⟩
def R.DEV_IMAGE_CTRL_BUSY : RF := ⟨A.DEV_IMAGE_CTRL, 1, 1⟩
def R.DEV_IMAGE_CTRL_RESULT : RF := ⟨A.DEV_IMAGE_CTRL, 2, 2⟩
def R.DEV_IMAGE_LEN_LEN : RF := ⟨A.DEV_IMAGE_LEN, 0, 18⟩
def R.DEV_IMAGE_SKIPPED : RF := ⟨A.DEV_IMAGE_SKIPPED, 0, 32⟩
def R.PWRS_CTRL_STEEP : RF := ⟨A.PWRS_CTRL, 0, 1⟩
def R.PWRS_STATUS_STATE : RF := ⟨A.PWRS_STATUS, 0, 2⟩
def R.PWRS_STATUS_LAST_REFUSER : RF := ⟨A.PWRS_STATUS, 2, 6⟩
def R.PWRS_STATUS_ABORTED_LAST : RF := ⟨A.PWRS_STATUS, 8, 1⟩
def R.PWRS_STATUS_LAST_WAKE : RF := ⟨A.PWRS_STATUS, 9, 4⟩
def R.PWRS_REFUSED : RF := ⟨A.PWRS_REFUSED, 0, 32⟩
def R.PWRS_ABORTED : RF := ⟨A.PWRS_ABORTED, 0, 32⟩
def R.PWRS_STEEP_CNT : RF := ⟨A.PWRS_STEEP_CNT, 0, 32⟩
def R.PWRS_WAKE_LO : RF := ⟨A.PWRS_WAKE_LO, 0, 32⟩
def R.PWRS_WAKE_HI : RF := ⟨A.PWRS_WAKE_HI, 0, 32⟩
def R.PWRS_WAKE_TX_E : RF := ⟨A.PWRS_WAKE_TX, 0, 1⟩
def R.PWRS_WAKE_TX_W : RF := ⟨A.PWRS_WAKE_TX, 1, 1⟩
def R.PWRS_WAKE_TX_S : RF := ⟨A.PWRS_WAKE_TX, 2, 1⟩
def R.PWRS_GATE : RF := ⟨A.PWRS_GATE, 0, 32⟩
def R.PWRS_CNT_CLEAR : RF := ⟨A.PWRS_CNT_CLEAR, 0, 32⟩
def R.PINS_WAKE_CTRL_PIN_EN : RF := ⟨A.PINS_WAKE_CTRL, 0, 4⟩
def R.PINS_WAKE_CTRL_PIN_POL : RF := ⟨A.PINS_WAKE_CTRL, 4, 4⟩
def R.PINS_WAKE_CTRL_CC_EN : RF := ⟨A.PINS_WAKE_CTRL, 8, 3⟩
def R.PINS_WAKE_CTRL_TONE_EN : RF := ⟨A.PINS_WAKE_CTRL, 11, 3⟩
def R.PINS_WAKE_FILT_FILTER : RF := ⟨A.PINS_WAKE_FILT, 0, 8⟩
def R.PINS_WAKE_LEVEL_LEVEL : RF := ⟨A.PINS_WAKE_LEVEL, 0, 4⟩

/-! ### Rows by block. -/

/-- Register rows of block DEV. -/
def rowsDEV : List RegRow := [
  ⟨0x0, [], 0x4a4803c4, []⟩,
  ⟨0x4, [], 0x1, []⟩,
  ⟨0x8, [], 0x0, []⟩,
  ⟨0x10, [], 0x0, []⟩,
  ⟨0x14, [], 0x7f, []⟩,
  ⟨0x18, [], 0x0, []⟩,
  ⟨0x1c, [], 0x0, [⟨0, 32, .rw, []⟩]⟩,
  ⟨0x20, [], 0x0, []⟩,
  ⟨0x24, [], 0x0, []⟩,
  ⟨0x28, [], 0x0, []⟩]

/-- Register rows of block CLK. -/
def rowsCLK : List RegRow := [
  ⟨0x0, [], 0xa04, [⟨0, 2, .rw, [(0, 2)]⟩, ⟨2, 1, .rw, []⟩, ⟨8, 8, .rw, [(1, 255)]⟩]⟩,
  ⟨0x4, [], 0x0, []⟩,
  ⟨0x8, [], 0x0, [⟨0, 1, .w1c, []⟩, ⟨1, 1, .w1c, []⟩, ⟨2, 1, .w1c, []⟩, ⟨3, 1, .w1c, []⟩, ⟨4, 1, .w1c, []⟩]⟩,
  ⟨0xc, [], 0x0, []⟩,
  ⟨0x10, [], 0x0, []⟩,
  ⟨0x14, [], 0x17d7840, []⟩,
  ⟨0x18, [], 0x0, []⟩,
  ⟨0x1c, [], 0x0, []⟩,
  ⟨0x20, [], 0x0, []⟩,
  ⟨0x24, [], 0x0, []⟩]

/-- Register rows of block TIME. -/
def rowsTIME : List RegRow := [
  ⟨0x0, [], 0x1, [⟨0, 1, .rw, []⟩]⟩,
  ⟨0x4, [], 0x2, []⟩,
  ⟨0x8, [], 0x0, []⟩,
  ⟨0xc, [], 0x0, []⟩,
  ⟨0x10, [], 0x0, []⟩,
  ⟨0x14, [], 0x0, []⟩,
  ⟨0x18, [], 0x0, []⟩,
  ⟨0x1c, [], 0x0, []⟩,
  ⟨0x20, [], 0x0, []⟩,
  ⟨0x24, [], 0x0, []⟩,
  ⟨0x28, [], 0x0, []⟩,
  ⟨0x2c, [], 0x0, []⟩,
  ⟨0x30, [], 0x0, []⟩,
  ⟨0x40, [], 0x0, [⟨0, 32, .rw, []⟩]⟩,
  ⟨0x44, [], 0x0, [⟨0, 32, .rw, []⟩]⟩,
  ⟨0x48, [], 0x0, []⟩,
  ⟨0x4c, [], 0x0, []⟩,
  ⟨0x50, [], 0x0, []⟩,
  ⟨0x54, [(4, 4)], 0x0, []⟩,
  ⟨0x64, [], 0x0, []⟩,
  ⟨0x68, [], 0x0, []⟩,
  ⟨0x80, [(4, 32)], 0x0, [⟨0, 16, .rw, []⟩, ⟨16, 1, .rw, []⟩]⟩,
  ⟨0x100, [(32, 8)], 0x0, [⟨0, 2, .rw, [(0, 2)]⟩, ⟨2, 1, .rw, []⟩, ⟨4, 1, .rw, []⟩, ⟨5, 1, .rw, []⟩]⟩,
  ⟨0x104, [(32, 8)], 0x0, [⟨0, 32, .rw, []⟩]⟩,
  ⟨0x108, [(32, 8)], 0x0, [⟨0, 32, .rw, []⟩]⟩,
  ⟨0x10c, [(32, 8)], 0x0, [⟨0, 32, .rw, []⟩]⟩,
  ⟨0x110, [(32, 8)], 0x1, [⟨0, 16, .rw, [(1, 65535)]⟩]⟩,
  ⟨0x114, [(32, 8)], 0x0, [⟨0, 32, .rw, []⟩]⟩,
  ⟨0x118, [(32, 8)], 0x0, [⟨2, 1, .w1c, []⟩, ⟨4, 1, .w1c, []⟩]⟩,
  ⟨0x11c, [(32, 8)], 0x0, []⟩]

/-- Register rows of block ERR. -/
def rowsERR : List RegRow := [
  ⟨0x0, [], 0x18fe, [⟨0, 3, .rw, []⟩, ⟨4, 4, .rw, []⟩, ⟨8, 3, .rw, []⟩, ⟨12, 1, .rw, []⟩]⟩,
  ⟨0x4, [], 0x0, []⟩,
  ⟨0x8, [], 0x0, []⟩,
  ⟨0xc, [], 0x0, [⟨0, 16, .rw, []⟩]⟩,
  ⟨0x10, [], 0x0, []⟩,
  ⟨0x14, [], 0x0, []⟩,
  ⟨0x18, [], 0x0, []⟩,
  ⟨0x1c, [], 0x0, []⟩,
  ⟨0x20, [], 0x0, []⟩,
  ⟨0x24, [], 0x0, []⟩,
  ⟨0x28, [], 0x0, []⟩,
  ⟨0x2c, [], 0x0, []⟩,
  ⟨0x30, [], 0x0, []⟩,
  ⟨0x34, [], 0x0, []⟩,
  ⟨0x400, [(32, 64), (4, 8)], 0x0, []⟩]

/-- Register rows of block ACC. -/
def rowsACC : List RegRow := [
  ⟨0x0, [], 0x1, [⟨0, 1, .rw, []⟩]⟩,
  ⟨0x4, [], 0x0, [⟨1, 1, .w1c, []⟩, ⟨2, 1, .w1c, []⟩]⟩,
  ⟨0x8, [], 0x0, []⟩,
  ⟨0xc, [], 0x0, []⟩,
  ⟨0x10, [], 0x0, []⟩,
  ⟨0x14, [], 0x0, []⟩,
  ⟨0x18, [], 0x0, []⟩,
  ⟨0x40, [(4, 12)], 0x0, []⟩,
  ⟨0x100, [(4, 64)], 0x0, [⟨0, 18, .rwl, []⟩, ⟨18, 1, .rwl, []⟩, ⟨30, 1, .rwl, []⟩, ⟨31, 1, .rwl, []⟩]⟩,
  ⟨0x200, [(8, 32)], 0x0, [⟨0, 5, .rwl, [(12, 25)]⟩, ⟨12, 20, .rwl, []⟩]⟩,
  ⟨0x204, [(8, 32)], 0x0, [⟨0, 18, .rwl, []⟩, ⟨18, 1, .rwl, []⟩, ⟨19, 1, .rwl, []⟩, ⟨20, 1, .rwl, []⟩, ⟨30, 1, .rwl, []⟩, ⟨31, 1, .rwl, []⟩]⟩]

/-- Register rows of block BRG. -/
def rowsBRG : List RegRow := [
  ⟨0x0, [], 0x40a, [⟨0, 8, .rw, [(1, 255)]⟩, ⟨8, 8, .rw, [(1, 255)]⟩]⟩,
  ⟨0x4, [], 0x0, [⟨0, 1, .w1c, []⟩, ⟨1, 1, .w1c, []⟩, ⟨2, 1, .w1c, []⟩, ⟨3, 1, .w1c, []⟩]⟩,
  ⟨0x8, [], 0x0, []⟩,
  ⟨0xc, [], 0x0, []⟩,
  ⟨0x10, [], 0x0, []⟩,
  ⟨0x14, [], 0x0, []⟩,
  ⟨0x18, [], 0x0, []⟩,
  ⟨0x1c, [], 0x0, []⟩,
  ⟨0x20, [], 0x0, []⟩,
  ⟨0x24, [], 0x0, []⟩,
  ⟨0x100, [(16, 4)], 0x0, [⟨0, 32, .rw, []⟩]⟩,
  ⟨0x104, [(16, 4)], 0x0, [⟨0, 32, .rw, []⟩]⟩,
  ⟨0x108, [(16, 4)], 0x0, [⟨0, 21, .rw, []⟩, ⟨24, 1, .rw, []⟩]⟩,
  ⟨0x10c, [(16, 4)], 0x0, [⟨1, 1, .w1c, []⟩]⟩]

/-- Register rows of block PWRS. -/
def rowsPWRS : List RegRow := [
  ⟨0x0, [], 0x0, []⟩,
  ⟨0x4, [], 0x0, []⟩,
  ⟨0x8, [], 0x0, []⟩,
  ⟨0xc, [], 0x0, []⟩,
  ⟨0x10, [], 0x0, []⟩,
  ⟨0x14, [], 0x0, []⟩,
  ⟨0x18, [], 0x0, []⟩,
  ⟨0x1c, [], 0x0, []⟩,
  ⟨0x20, [], 0x0, []⟩,
  ⟨0x24, [], 0x0, []⟩]

/-- Register rows of block SEC. -/
def rowsSEC : List RegRow := [
  ⟨0x0, [], 0x0, []⟩,
  ⟨0x4, [], 0x0, [⟨0, 3, .rw, []⟩]⟩,
  ⟨0x8, [], 0x0, [⟨0, 32, .rw, []⟩]⟩,
  ⟨0xc, [], 0x0, [⟨0, 4, .rw, []⟩]⟩,
  ⟨0x10, [], 0x0, [⟨1, 1, .w1c, []⟩, ⟨2, 1, .w1c, []⟩]⟩,
  ⟨0x14, [], 0x0, []⟩,
  ⟨0x18, [], 0x0, []⟩,
  ⟨0x1c, [], 0x0, []⟩,
  ⟨0x20, [], 0x0, []⟩,
  ⟨0x100, [(4, 32)], 0x0, [⟨0, 7, .rw, [(1, 95)]⟩, ⟨7, 1, .rw, []⟩]⟩]

/-- Register rows of block COOP. -/
def rowsCOOP : List RegRow := [
  ⟨0x0, [], 0x7, [⟨0, 1, .rw, []⟩, ⟨1, 1, .rw, []⟩, ⟨2, 1, .rw, []⟩]⟩,
  ⟨0x4, [], 0x0, []⟩,
  ⟨0x8, [], 0x0, []⟩,
  ⟨0xc, [], 0x0, []⟩,
  ⟨0x10, [], 0x0, []⟩,
  ⟨0x14, [], 0x0, []⟩,
  ⟨0x18, [], 0x0, []⟩,
  ⟨0x1c, [], 0x0, []⟩,
  ⟨0x20, [], 0x0, []⟩,
  ⟨0x24, [], 0x0, []⟩]

/-- Register rows of block JRN. -/
def rowsJRN : List RegRow := [
  ⟨0x0, [], 0x1, [⟨0, 1, .rw, []⟩]⟩,
  ⟨0x4, [], 0x0, [⟨31, 1, .w1c, []⟩]⟩,
  ⟨0x8, [], 0x0, []⟩,
  ⟨0xc, [], 0x4000, [⟨0, 15, .rwl, [(0, 16384)]⟩, ⟨15, 1, .rwl, []⟩]⟩,
  ⟨0x10, [], 0x0, [⟨0, 16, .rw, []⟩, ⟨17, 1, .w1c, []⟩]⟩,
  ⟨0x14, [], 0x0, [⟨0, 32, .rw, []⟩]⟩,
  ⟨0x18, [], 0x0, [⟨0, 5, .rw, [(0, 16)]⟩, ⟨5, 1, .rw, []⟩, ⟨6, 1, .rw, []⟩, ⟨8, 7, .rw, []⟩]⟩,
  ⟨0x1c, [], 0x0, [⟨0, 13, .rw, []⟩, ⟨16, 10, .rw, []⟩]⟩,
  ⟨0x20, [], 0x0, [⟨0, 18, .rw, []⟩]⟩,
  ⟨0x24, [], 0x0, []⟩,
  ⟨0x28, [], 0x0, []⟩,
  ⟨0x2c, [], 0x0, []⟩,
  ⟨0x30, [], 0x0, []⟩,
  ⟨0x34, [], 0x0, []⟩]

/-- Register rows of block FAB. -/
def rowsFAB : List RegRow := [
  ⟨0x0, [], 0x1, [⟨0, 1, .rw, []⟩]⟩,
  ⟨0x4, [], 0x0, []⟩,
  ⟨0x8, [], 0x20000, []⟩,
  ⟨0xc, [], 0x8000, []⟩,
  ⟨0x10, [], 0x1f000, []⟩,
  ⟨0x14, [], 0x400, [⟨0, 16, .rw, [(0, 8192)]⟩]⟩,
  ⟨0x18, [], 0x3e8, [⟨0, 16, .rw, [(1, 65535)]⟩]⟩,
  ⟨0x1c, [], 0x0, [⟨0, 14, .rw, []⟩, ⟨14, 4, .rw, [(0, 13)]⟩]⟩,
  ⟨0x20, [], 0x0, [⟨0, 14, .rw, []⟩, ⟨16, 1, .w1c, []⟩]⟩,
  ⟨0x24, [], 0x0, []⟩,
  ⟨0x28, [], 0x0, []⟩,
  ⟨0x2c, [], 0x0, [⟨0, 4, .rw, []⟩, ⟨4, 2, .rw, []⟩, ⟨8, 4, .rw, []⟩]⟩,
  ⟨0x30, [], 0x0, []⟩,
  ⟨0x34, [], 0x0, []⟩,
  ⟨0x38, [], 0x0, []⟩,
  ⟨0x40, [], 0x62, [⟨0, 22, .rw, [(1, 3906250)]⟩]⟩,
  ⟨0x44, [], 0xee6b3, [⟨0, 22, .rw, [(1, 3906250)]⟩]⟩,
  ⟨0x48, [], 0x7a2, [⟨0, 22, .rw, [(1, 3906250)]⟩]⟩,
  ⟨0x4c, [], 0x3b9aca, [⟨0, 22, .rw, [(1, 3906250)]⟩]⟩,
  ⟨0x50, [], 0x40, [⟨0, 18, .rw, [(1, 131072)]⟩]⟩,
  ⟨0x54, [], 0x100, [⟨0, 18, .rw, [(1, 131072)]⟩]⟩,
  ⟨0x58, [], 0x400, [⟨0, 18, .rw, [(1, 131072)]⟩]⟩,
  ⟨0x5c, [], 0x1000, [⟨0, 18, .rw, [(1, 131072)]⟩]⟩,
  ⟨0x100, [(16, 14), (4, 4)], 0x0, [⟨0, 18, .rw, [(1, 131072)]⟩]⟩,
  ⟨0x200, [(4, 96)], 0x400, [⟨0, 18, .rw, [(1, 131072)]⟩]⟩,
  ⟨0x400, [(16, 14), (4, 4)], 0x0, []⟩]

/-- Register rows of block POL. -/
def rowsPOL : List RegRow := [
  ⟨0x0, [], 0x0, []⟩,
  ⟨0x100, [(32, 96)], 0x0, [⟨0, 1, .rw, []⟩]⟩,
  ⟨0x104, [(32, 96)], 0x0, [⟨0, 27, .rw, []⟩]⟩,
  ⟨0x108, [(32, 96)], 0x0, [⟨0, 20, .rw, []⟩]⟩,
  ⟨0x10c, [(32, 96)], 0x0, []⟩,
  ⟨0x110, [(32, 96)], 0x0, []⟩,
  ⟨0x114, [(32, 96)], 0x0, []⟩,
  ⟨0x118, [(32, 96)], 0x0, []⟩,
  ⟨0x11c, [(32, 96)], 0x0, []⟩]

/-- Register rows of block SCH. -/
def rowsSCH : List RegRow := [
  ⟨0x0, [], 0x0, [⟨0, 1, .rw, []⟩]⟩,
  ⟨0x4, [], 0x0, [⟨3, 1, .w1c, []⟩]⟩,
  ⟨0x8, [], 0x0, []⟩,
  ⟨0xc, [], 0x0, [⟨0, 32, .rw, []⟩]⟩,
  ⟨0x10, [], 0x0, []⟩,
  ⟨0x14, [], 0x4000400, [⟨0, 12, .rw, [(0, 3072)]⟩]⟩,
  ⟨0x18, [], 0x4, [⟨0, 3, .rw, [(1, 7)]⟩]⟩,
  ⟨0x1c, [], 0x61a8, [⟨0, 16, .rw, [(0, 62500)]⟩]⟩,
  ⟨0x20, [], 0x0, []⟩,
  ⟨0x24, [], 0x0, []⟩,
  ⟨0x28, [], 0x0, []⟩,
  ⟨0x2c, [], 0x0, []⟩,
  ⟨0x30, [], 0x0, []⟩,
  ⟨0x34, [], 0x0, []⟩,
  ⟨0x40, [], 0x0, [⟨0, 14, .rw, []⟩, ⟨14, 4, .rw, [(0, 13)]⟩]⟩,
  ⟨0x44, [], 0x0, []⟩,
  ⟨0x48, [], 0x0, []⟩,
  ⟨0x4c, [], 0x0, []⟩,
  ⟨0x50, [], 0x0, []⟩,
  ⟨0x54, [], 0x0, []⟩,
  ⟨0x58, [], 0x0, []⟩,
  ⟨0x1000, [(1024, 4), (512, 2), (4, 128)], 0x0, [⟨0, 14, .rw, []⟩, ⟨14, 1, .rw, []⟩, ⟨16, 12, .rw, [(0, 4055)]⟩, ⟨28, 4, .rw, [(0, 12)]⟩]⟩]

/-- Register rows of block TUNC. -/
def rowsTUNC : List RegRow := [
  ⟨0x0, [], 0x1, [⟨0, 1, .rw, []⟩]⟩,
  ⟨0x4, [], 0xf0, []⟩,
  ⟨0x8, [], 0x0, [⟨0, 4, .rw, []⟩]⟩,
  ⟨0xc, [], 0x3e8, [⟨0, 16, .rw, []⟩]⟩,
  ⟨0x10, [], 0x0, [⟨0, 32, .rw, []⟩]⟩,
  ⟨0x14, [], 0x0, [⟨0, 7, .rw, []⟩, ⟨7, 1, .rw, []⟩]⟩,
  ⟨0x18, [], 0x0, [⟨0, 13, .rw, []⟩, ⟨16, 10, .rw, []⟩]⟩,
  ⟨0x1c, [], 0x0, []⟩,
  ⟨0x20, [], 0x0, [⟨0, 7, .rw, []⟩]⟩,
  ⟨0x24, [], 0x0, []⟩,
  ⟨0x28, [], 0x0, []⟩,
  ⟨0x2c, [], 0x0, []⟩,
  ⟨0x30, [(4, 12)], 0x0, []⟩,
  ⟨0x100, [(64, 96)], 0x0, [⟨0, 2, .rw, [(0, 2)]⟩, ⟨2, 2, .rw, []⟩, ⟨4, 6, .rw, []⟩, ⟨10, 8, .rw, []⟩]⟩,
  ⟨0x104, [(64, 96)], 0x0, []⟩,
  ⟨0x108, [(64, 96)], 0x30, [⟨0, 2, .rw, [(0, 2)]⟩, ⟨4, 4, .rw, []⟩]⟩,
  ⟨0x10c, [(64, 96)], 0x0, [⟨3, 1, .w1c, []⟩]⟩,
  ⟨0x110, [(64, 96)], 0x0, []⟩,
  ⟨0x114, [(64, 96)], 0x0, []⟩,
  ⟨0x118, [(64, 96)], 0x0, []⟩,
  ⟨0x11c, [(64, 96)], 0x0, []⟩,
  ⟨0x120, [(64, 96)], 0x0, []⟩,
  ⟨0x124, [(64, 96)], 0x0, []⟩,
  ⟨0x2000, [(64, 96), (4, 12)], 0x0, []⟩,
  ⟨0x2030, [(64, 96)], 0x0, []⟩]

/-- Register rows of block LNK. -/
def rowsLNK : List RegRow := [
  ⟨0x0, [], 0x18041, [⟨0, 1, .rw, []⟩, ⟨4, 3, .rw, [(1, 4)]⟩, ⟨12, 3, .rw, [(0, 3)]⟩, ⟨15, 1, .rw, []⟩, ⟨16, 1, .rw, []⟩]⟩,
  ⟨0x4, [], 0x1c0001, []⟩,
  ⟨0x8, [], 0x66666, []⟩,
  ⟨0xc, [], 0x66666, []⟩,
  ⟨0x10, [], 0x4688, []⟩,
  ⟨0x14, [], 0x40100a03, [⟨0, 1, .rw, []⟩, ⟨1, 1, .rw, []⟩, ⟨2, 1, .rw, []⟩, ⟨3, 1, .w1c, []⟩, ⟨8, 8, .rw, [(1, 255)]⟩, ⟨16, 8, .rw, [(1, 255)]⟩, ⟨24, 8, .rw, []⟩]⟩,
  ⟨0x18, [], 0x0, [⟨0, 3, .rw, [(0, 4)]⟩]⟩,
  ⟨0x1c, [], 0x0, [⟨0, 2, .rw, []⟩, ⟨2, 1, .rw, []⟩]⟩,
  ⟨0x20, [], 0x10, [⟨0, 3, .rw, [(0, 4)]⟩, ⟨4, 3, .rw, [(1, 4)]⟩, ⟨7, 1, .rw, []⟩]⟩,
  ⟨0x24, [], 0x0, []⟩,
  ⟨0x30, [(4, 5)], 0x0, []⟩,
  ⟨0x44, [], 0x0, []⟩,
  ⟨0x48, [], 0x0, []⟩,
  ⟨0x4c, [], 0x0, []⟩,
  ⟨0x50, [], 0x0, []⟩,
  ⟨0x54, [], 0x0, []⟩,
  ⟨0x58, [], 0x0, []⟩,
  ⟨0x5c, [], 0x0, []⟩,
  ⟨0x100, [], 0x2041, [⟨0, 1, .rw, []⟩, ⟨1, 1, .rw, []⟩, ⟨4, 4, .rw, [(1, 15)]⟩, ⟨8, 8, .rw, [(1, 255)]⟩]⟩,
  ⟨0x104, [], 0x40201010, [⟨0, 8, .rw, [(1, 255)]⟩, ⟨8, 8, .rw, [(1, 255)]⟩, ⟨16, 8, .rw, [(1, 255)]⟩, ⟨24, 8, .rw, [(1, 255)]⟩]⟩,
  ⟨0x108, [], 0x0, []⟩,
  ⟨0x10c, [], 0x0, []⟩,
  ⟨0x110, [], 0xfff0000, []⟩,
  ⟨0x114, [], 0x0, []⟩,
  ⟨0x118, [], 0x0, []⟩,
  ⟨0x140, [], 0x0, []⟩,
  ⟨0x144, [], 0x0, []⟩,
  ⟨0x148, [], 0x0, []⟩,
  ⟨0x14c, [], 0x0, []⟩,
  ⟨0x150, [], 0x0, []⟩,
  ⟨0x154, [], 0x0, []⟩,
  ⟨0x158, [], 0x0, []⟩,
  ⟨0x15c, [], 0x0, []⟩,
  ⟨0x160, [], 0x0, []⟩,
  ⟨0x164, [], 0x0, []⟩,
  ⟨0x168, [], 0x0, []⟩,
  ⟨0x16c, [], 0x0, []⟩,
  ⟨0x170, [], 0x0, []⟩,
  ⟨0x174, [], 0x0, []⟩,
  ⟨0x178, [], 0x0, []⟩,
  ⟨0x200, [], 0x32, [⟨0, 8, .rw, []⟩]⟩,
  ⟨0x204, [], 0x0, []⟩,
  ⟨0x208, [], 0x0, []⟩,
  ⟨0x20c, [], 0x0, []⟩,
  ⟨0x210, [], 0x0, []⟩,
  ⟨0x214, [], 0x0, []⟩,
  ⟨0x400, [(4, 128)], 0x0, [⟨0, 2, .rw, []⟩, ⟨2, 1, .rw, []⟩, ⟨3, 1, .rw, []⟩, ⟨4, 1, .rw, []⟩, ⟨5, 1, .rw, []⟩]⟩]

/-- Register rows of block CC. -/
def rowsCC : List RegRow := [
  ⟨0x0, [], 0x89, [⟨0, 1, .rw, []⟩, ⟨1, 2, .rw, [(0, 2)]⟩, ⟨3, 1, .rw, []⟩, ⟨7, 1, .rw, []⟩]⟩,
  ⟨0x4, [], 0x0, []⟩,
  ⟨0x8, [], 0x0, [⟨0, 1, .w1c, []⟩, ⟨1, 1, .w1c, []⟩, ⟨2, 1, .w1c, []⟩, ⟨3, 1, .w1c, []⟩, ⟨4, 1, .w1c, []⟩, ⟨5, 1, .w1c, []⟩, ⟨6, 1, .w1c, []⟩, ⟨7, 1, .w1c, []⟩, ⟨8, 1, .w1c, []⟩]⟩,
  ⟨0xc, [], 0xa04, [⟨0, 3, .rw, [(0, 4)]⟩, ⟨8, 4, .rw, [(1, 10)]⟩]⟩,
  ⟨0x10, [], 0xa04, [⟨0, 3, .rw, [(0, 4)]⟩, ⟨8, 4, .rw, [(1, 10)]⟩]⟩,
  ⟨0x14, [], 0x0, []⟩,
  ⟨0x18, [], 0x37d0a, [⟨0, 8, .rw, [(5, 20)]⟩, ⟨8, 8, .rw, [(105, 150)]⟩, ⟨16, 4, .rw, [(1, 15)]⟩]⟩,
  ⟨0x1c, [], 0x0, []⟩,
  ⟨0x30, [], 0x0, []⟩,
  ⟨0x34, [], 0x0, []⟩,
  ⟨0x38, [], 0x0, []⟩,
  ⟨0x3c, [], 0x0, []⟩,
  ⟨0x40, [], 0x0, []⟩,
  ⟨0x44, [], 0x0, []⟩]

/-- Register rows of block LOAD. -/
def rowsLOAD : List RegRow := [
  ⟨0x0, [], 0x10, [⟨0, 1, .rw, []⟩, ⟨1, 1, .rw, []⟩, ⟨2, 1, .rw, []⟩, ⟨3, 1, .rw, []⟩, ⟨4, 1, .rw, []⟩]⟩,
  ⟨0x4, [], 0x0, []⟩,
  ⟨0x8, [], 0x0, [⟨0, 1, .w1c, []⟩, ⟨1, 1, .w1c, []⟩, ⟨2, 1, .w1c, []⟩, ⟨3, 1, .w1c, []⟩, ⟨4, 1, .w1c, []⟩, ⟨5, 1, .w1c, []⟩, ⟨6, 1, .w1c, []⟩, ⟨7, 1, .w1c, []⟩, ⟨8, 1, .w1c, []⟩, ⟨9, 1, .w1c, []⟩]⟩,
  ⟨0xc, [], 0x4380168, [⟨0, 12, .rw, [(180, 1040)]⟩, ⟨16, 12, .rw, [(200, 1200)]⟩]⟩,
  ⟨0x10, [], 0x32030a0a, [⟨0, 8, .rw, [(1, 255)]⟩, ⟨8, 8, .rw, [(1, 255)]⟩, ⟨16, 4, .rw, [(1, 15)]⟩, ⟨24, 8, .rw, [(1, 255)]⟩]⟩,
  ⟨0x14, [], 0xa1404, [⟨0, 8, .rw, [(1, 64)]⟩, ⟨8, 8, .rw, [(1, 255)]⟩, ⟨16, 8, .rw, []⟩]⟩,
  ⟨0x18, [], 0xa64, [⟨0, 8, .rw, [(20, 200)]⟩, ⟨8, 8, .rw, [(1, 255)]⟩]⟩,
  ⟨0x1c, [], 0x0, []⟩,
  ⟨0x20, [], 0x0, []⟩,
  ⟨0x24, [], 0x0, []⟩,
  ⟨0x28, [], 0x0, []⟩,
  ⟨0x2c, [], 0x0, []⟩,
  ⟨0x30, [], 0x0, []⟩,
  ⟨0x34, [], 0x0, []⟩,
  ⟨0x38, [], 0x0, []⟩,
  ⟨0x3c, [], 0x0, []⟩,
  ⟨0x100, [(16, 5)], 0x64960a0a, [⟨0, 8, .rw, [(1, 255)]⟩, ⟨8, 8, .rw, [(1, 255)]⟩, ⟨16, 8, .rw, [(1, 255)]⟩, ⟨24, 8, .rw, [(1, 255)]⟩]⟩,
  ⟨0x104, [(16, 5)], 0x6496, [⟨0, 8, .rw, [(100, 175)]⟩, ⟨8, 8, .rw, []⟩]⟩,
  ⟨0x108, [(16, 5)], 0x0, []⟩]

/-- Register rows of block DSP. -/
def rowsDSP : List RegRow := [
  ⟨0x0, [], 0x35000, [⟨0, 1, .rw, []⟩, ⟨1, 1, .rw, []⟩, ⟨2, 1, .rw, []⟩, ⟨3, 1, .rw, []⟩, ⟨4, 1, .rw, []⟩, ⟨5, 1, .rw, []⟩, ⟨8, 8, .rw, []⟩, ⟨16, 4, .rw, [(1, 15)]⟩, ⟨20, 1, .rw, []⟩]⟩,
  ⟨0x4, [], 0x0, [⟨5, 1, .w1c, []⟩]⟩,
  ⟨0x8, [], 0x0, [⟨0, 32, .rw, []⟩]⟩,
  ⟨0xc, [], 0x0, [⟨0, 32, .rw, []⟩]⟩,
  ⟨0x10, [], 0x0, [⟨0, 12, .rw, []⟩, ⟨16, 12, .rw, []⟩]⟩,
  ⟨0x14, [], 0x0, [⟨0, 12, .rw, []⟩, ⟨16, 12, .rw, []⟩]⟩,
  ⟨0x18, [], 0x0, [⟨0, 12, .rw, []⟩, ⟨16, 12, .rw, []⟩]⟩,
  ⟨0x1c, [], 0x0, [⟨0, 12, .rw, []⟩, ⟨16, 12, .rw, []⟩]⟩,
  ⟨0x20, [], 0x0, []⟩,
  ⟨0x24, [], 0x0, []⟩,
  ⟨0x28, [], 0x0, []⟩,
  ⟨0x2c, [], 0x0, []⟩,
  ⟨0x30, [], 0x0, []⟩,
  ⟨0x34, [], 0x0, []⟩,
  ⟨0x38, [], 0x0, []⟩,
  ⟨0x3c, [], 0x0, []⟩,
  ⟨0x40, [], 0x0, []⟩,
  ⟨0x100, [], 0xff00, [⟨0, 1, .rw, []⟩, ⟨1, 2, .rw, []⟩, ⟨3, 1, .rw, []⟩, ⟨8, 8, .rw, []⟩]⟩,
  ⟨0x140, [(64, 2)], 0xff00, [⟨0, 1, .rw, []⟩, ⟨1, 2, .rw, []⟩, ⟨8, 8, .rw, []⟩]⟩,
  ⟨0x104, [], 0x0, []⟩,
  ⟨0x144, [(64, 2)], 0x0, [⟨0, 12, .rw, []⟩, ⟨16, 12, .rw, []⟩]⟩,
  ⟨0x108, [], 0x0, []⟩,
  ⟨0x148, [(64, 2)], 0x0, [⟨0, 12, .rw, []⟩, ⟨16, 12, .rw, []⟩]⟩,
  ⟨0x10c, [], 0x0, [⟨0, 32, .rw, []⟩]⟩,
  ⟨0x14c, [(64, 2)], 0x0, []⟩,
  ⟨0x110, [(64, 2)], 0x0, []⟩,
  ⟨0x190, [], 0x0, [⟨0, 32, .rw, []⟩]⟩,
  ⟨0x114, [(64, 2)], 0x0, []⟩,
  ⟨0x194, [], 0x0, [⟨0, 16, .rw, []⟩]⟩,
  ⟨0x118, [(64, 3)], 0x0, [⟨1, 1, .w1c, []⟩, ⟨2, 1, .w1c, []⟩, ⟨3, 1, .w1c, []⟩]⟩]

/-- Register rows of block ETH. -/
def rowsETH : List RegRow := [
  ⟨0x0, [], 0x5f210, [⟨0, 2, .rw, [(0, 2)]⟩, ⟨4, 1, .rw, []⟩, ⟨6, 1, .rw, []⟩, ⟨8, 12, .rw, [(64, 2048)]⟩]⟩,
  ⟨0x4, [], 0x0, []⟩,
  ⟨0x8, [], 0x0, []⟩,
  ⟨0xc, [], 0x0, [⟨0, 32, .rw, []⟩]⟩,
  ⟨0x10, [], 0x0, [⟨0, 16, .rw, []⟩]⟩,
  ⟨0x40, [], 0x0, []⟩,
  ⟨0x44, [], 0x0, []⟩,
  ⟨0x48, [], 0x0, []⟩,
  ⟨0x4c, [], 0x0, []⟩,
  ⟨0x50, [], 0x0, []⟩,
  ⟨0x54, [], 0x0, []⟩,
  ⟨0x58, [], 0x0, []⟩,
  ⟨0x5c, [], 0x0, []⟩,
  ⟨0x60, [], 0x0, []⟩,
  ⟨0x64, [], 0x0, []⟩,
  ⟨0x68, [], 0x0, []⟩,
  ⟨0x6c, [], 0x0, []⟩,
  ⟨0x70, [], 0x0, []⟩,
  ⟨0x74, [], 0x0, []⟩,
  ⟨0x100, [(8, 16)], 0x0, [⟨0, 12, .rw, []⟩, ⟨12, 12, .rw, []⟩, ⟨24, 1, .rw, []⟩, ⟨25, 3, .rw, []⟩, ⟨31, 1, .rw, []⟩]⟩,
  ⟨0x104, [(8, 16)], 0xff000000, [⟨0, 16, .rw, []⟩, ⟨16, 1, .rw, []⟩, ⟨24, 8, .rw, []⟩]⟩,
  ⟨0x200, [(8, 8)], 0x0, [⟨0, 14, .rw, []⟩]⟩,
  ⟨0x204, [(8, 8)], 0x0, [⟨0, 2, .rw, [(0, 2)]⟩, ⟨4, 3, .rw, []⟩, ⟨8, 1, .rw, []⟩, ⟨16, 12, .rw, []⟩]⟩]

/-- Register rows of block PTP. -/
def rowsPTP : List RegRow := [
  ⟨0x0, [], 0x0, [⟨0, 1, .rw, []⟩, ⟨1, 1, .rw, []⟩]⟩,
  ⟨0x4, [], 0x0, []⟩,
  ⟨0x8, [], 0x0, [⟨0, 30, .rw, [(0, 999999999)]⟩]⟩,
  ⟨0xc, [], 0x0, [⟨0, 32, .rw, []⟩]⟩,
  ⟨0x10, [], 0x0, [⟨0, 16, .rw, []⟩]⟩,
  ⟨0x14, [], 0x0, [⟨0, 32, .rw, []⟩]⟩,
  ⟨0x18, [], 0x0, [⟨0, 32, .rw, []⟩]⟩,
  ⟨0x1c, [], 0x808000, [⟨0, 8, .rw, []⟩, ⟨8, 8, .rw, []⟩, ⟨16, 8, .rw, []⟩]⟩,
  ⟨0x20, [], 0x0, [⟨0, 32, .rw, []⟩]⟩,
  ⟨0x24, [], 0x0, [⟨0, 32, .rw, []⟩]⟩,
  ⟨0x28, [], 0xfffffef8, [⟨0, 8, .rw, []⟩, ⟨8, 8, .rw, []⟩, ⟨16, 16, .rw, []⟩]⟩,
  ⟨0x2c, [], 0xa08080, [⟨0, 8, .rw, []⟩, ⟨8, 8, .rw, []⟩, ⟨16, 8, .rw, []⟩]⟩,
  ⟨0x30, [], 0x0, [⟨0, 16, .rw, []⟩]⟩,
  ⟨0x34, [], 0x80025, [⟨0, 16, .rw, []⟩, ⟨16, 1, .rw, []⟩, ⟨17, 1, .rw, []⟩, ⟨18, 1, .rw, []⟩, ⟨19, 1, .rw, []⟩, ⟨20, 1, .rw, []⟩, ⟨21, 1, .rw, []⟩]⟩,
  ⟨0x38, [], 0xfe07, [⟨0, 8, .rw, []⟩, ⟨8, 8, .rw, []⟩]⟩,
  ⟨0x3c, [], 0x0, [⟨0, 8, .rw, [(0, 4), (249, 255)]⟩, ⟨8, 8, .rw, [(0, 4), (249, 255)]⟩, ⟨16, 8, .rw, [(0, 4), (249, 255)]⟩]⟩,
  ⟨0x80, [], 0x0, []⟩,
  ⟨0x100, [(32, 4)], 0x10, [⟨0, 1, .rw, []⟩, ⟨1, 1, .rw, []⟩, ⟨2, 3, .rw, []⟩, ⟨16, 12, .rw, []⟩]⟩,
  ⟨0x104, [(32, 4)], 0x0, [⟨2, 1, .w1c, []⟩]⟩,
  ⟨0x108, [(32, 4)], 0x0, []⟩,
  ⟨0x10c, [(32, 4)], 0x0, []⟩,
  ⟨0x110, [(32, 4)], 0x0, []⟩,
  ⟨0x114, [(32, 4)], 0x0, []⟩,
  ⟨0x118, [(32, 4)], 0x0, []⟩]

/-- Register rows of block SER. -/
def rowsSER : List RegRow := [
  ⟨0x0, [], 0x0, []⟩,
  ⟨0x100, [(64, 8)], 0x0, [⟨0, 1, .rw, []⟩, ⟨1, 1, .rw, []⟩, ⟨2, 1, .rw, []⟩, ⟨3, 1, .rw, []⟩, ⟨4, 2, .rw, [(0, 2)]⟩, ⟨6, 1, .rw, []⟩, ⟨7, 1, .rw, []⟩]⟩,
  ⟨0x104, [(64, 8)], 0x21e9, [⟨0, 24, .rw, [(80, 16777215)]⟩]⟩,
  ⟨0x108, [(64, 8)], 0x2000027, [⟨0, 10, .rw, [(2, 1023)]⟩, ⟨16, 10, .rw, [(1, 512)]⟩]⟩,
  ⟨0x10c, [(64, 8)], 0x3000100, [⟨0, 11, .rw, [(0, 1023)]⟩, ⟨16, 11, .rw, [(1, 1024)]⟩]⟩,
  ⟨0x110, [(64, 8)], 0x101, [⟨0, 4, .rw, []⟩, ⟨8, 4, .rw, []⟩]⟩,
  ⟨0x114, [(64, 8)], 0x0, [⟨0, 14, .rw, []⟩]⟩,
  ⟨0x118, [(64, 8)], 0x0, []⟩,
  ⟨0x11c, [(64, 8)], 0x0, []⟩,
  ⟨0x120, [(64, 8)], 0x0, []⟩,
  ⟨0x124, [(64, 8)], 0x0, []⟩,
  ⟨0x128, [(64, 8)], 0x0, []⟩,
  ⟨0x12c, [(64, 8)], 0x0, []⟩,
  ⟨0x130, [(64, 8)], 0x0, []⟩]

/-- Register rows of block USBH. -/
def rowsUSBH : List RegRow := [
  ⟨0x0, [], 0xa084000, [⟨0, 1, .rw, []⟩, ⟨1, 1, .rw, []⟩, ⟨8, 8, .rw, [(1, 255)]⟩, ⟨16, 4, .rw, [(1, 15)]⟩, ⟨24, 5, .rw, [(10, 20)]⟩]⟩,
  ⟨0x4, [], 0x0, []⟩,
  ⟨0x8, [], 0x0, [⟨0, 8, .rw, []⟩]⟩,
  ⟨0xc, [], 0x0, [⟨0, 14, .rw, []⟩]⟩,
  ⟨0x10, [], 0x0, [⟨0, 32, .rw, []⟩]⟩,
  ⟨0x14, [], 0x0, [⟨0, 32, .rw, []⟩]⟩,
  ⟨0x18, [], 0x0, []⟩,
  ⟨0x1c, [], 0x0, []⟩,
  ⟨0x20, [], 0x0, []⟩,
  ⟨0x100, [(64, 4)], 0x0, []⟩,
  ⟨0x104, [(64, 4)], 0x18, [⟨8, 1, .w1c, []⟩, ⟨9, 1, .w1c, []⟩, ⟨10, 1, .w1c, []⟩, ⟨11, 1, .w1c, []⟩, ⟨12, 1, .w1c, []⟩, ⟨13, 1, .w1c, []⟩]⟩,
  ⟨0x108, [(64, 4), (4, 3)], 0x0, [⟨0, 14, .rw, []⟩]⟩,
  ⟨0x114, [(64, 4)], 0x0, []⟩,
  ⟨0x118, [(64, 4)], 0x0, []⟩,
  ⟨0x11c, [(64, 4)], 0x0, []⟩,
  ⟨0x120, [(64, 4)], 0x0, []⟩,
  ⟨0x124, [(64, 4)], 0x0, []⟩]

/-- Register rows of block EMMC. -/
def rowsEMMC : List RegRow := [
  ⟨0x0, [], 0x1f400, [⟨0, 1, .rw, []⟩, ⟨1, 1, .rw, []⟩, ⟨2, 2, .rw, []⟩, ⟨4, 2, .rw, [(0, 2)]⟩, ⟨8, 10, .rw, [(1, 1023)]⟩]⟩,
  ⟨0x4, [], 0x0, [⟨1, 1, .w1c, []⟩]⟩,
  ⟨0x8, [], 0x0, [⟨0, 6, .rw, []⟩, ⟨6, 2, .rw, []⟩, ⟨8, 2, .rw, [(0, 2)]⟩]⟩,
  ⟨0xc, [], 0x0, [⟨0, 32, .rw, []⟩]⟩,
  ⟨0x10, [(4, 4)], 0x0, []⟩,
  ⟨0x20, [], 0x0, [⟨0, 32, .rw, []⟩]⟩,
  ⟨0x24, [], 0x1, [⟨0, 16, .rw, [(1, 65535)]⟩]⟩,
  ⟨0x28, [], 0xf4240, [⟨0, 24, .rw, [(1, 16777215)]⟩]⟩,
  ⟨0x2c, [], 0x20, [⟨0, 6, .rw, []⟩]⟩,
  ⟨0x30, [], 0x0, []⟩,
  ⟨0x34, [], 0x0, []⟩,
  ⟨0x38, [], 0x0, []⟩]

/-- Register rows of block PINS. -/
def rowsPINS : List RegRow := [
  ⟨0x0, [], 0x3f00, [⟨0, 4, .rw, []⟩, ⟨4, 4, .rw, []⟩, ⟨8, 3, .rw, []⟩, ⟨11, 3, .rw, []⟩]⟩,
  ⟨0x4, [], 0x19, [⟨0, 8, .rw, [(1, 255)]⟩]⟩,
  ⟨0x8, [], 0x0, []⟩]

/-- The rows of the block that sits in slot `n` (R390); none for the reserved slots 32–63. -/
def slotRows (n : Nat) : List RegRow :=
  match n with
  | 0 => rowsDEV
  | 1 => rowsCLK
  | 2 => rowsTIME
  | 3 => rowsERR
  | 4 => rowsACC
  | 5 => rowsBRG
  | 6 => rowsPWRS
  | 7 => rowsSEC
  | 8 => rowsCOOP
  | 9 => rowsJRN
  | 10 => rowsFAB
  | 11 => rowsPOL
  | 12 => rowsSCH
  | 13 => rowsTUNC
  | 14 => rowsLNK
  | 15 => rowsLNK
  | 16 => rowsLNK
  | 17 => rowsCC
  | 18 => rowsCC
  | 19 => rowsCC
  | 20 => rowsLOAD
  | 21 => rowsDSP
  | 22 => rowsDSP
  | 23 => rowsETH
  | 24 => rowsETH
  | 25 => rowsETH
  | 26 => rowsETH
  | 27 => rowsPTP
  | 28 => rowsSER
  | 29 => rowsUSBH
  | 30 => rowsEMMC
  | 31 => rowsPINS
  | _ => []

/-- Whether `d` (a byte distance from a row's offset) is one of the row's words, by its strides and counts. -/
def idxHit (d : Nat) : List (Nat × Nat) → Bool
  | [] => d == 0
  | (st, n) :: rest => decide (d / st < n) && idxHit (d % st) rest

/-- The row of internal address `a`, if a register sits there. -/
def regRow? (a : Nat) : Option RegRow :=
  (slotRows (a / 0x4000)).find? (fun r => decide (r.off ≤ a % 0x4000) && idxHit (a % 0x4000 - r.off) r.idx)

/-- The reset value of the register word at internal address `a`. The index-dependent ones are FAB_OLIM (R166:
0x1000 for P and M, 0x4000 for D, 0x8000 for B) and TUNC_BOUND_0 (R203: 0x15). The stored values (SEC_STATUS,
SEC_SVC_CNT, SEC_LC_CNT) are those of a hub as shipped (R4: BLANK; log entry 2, DESIGN CHOICE) and DEV_STEPPING is the
implementation's own (R7). -/
def regReset (a : Nat) : BitVec 32 :=
  if a = A.TUNC_BOUND 0 then 0x15#32
  else if a = A.DEV_STEPPING then BitVec.ofNat 32 Config.devStepping.toNat
  else if A.FAB_OLIM 0 0 ≤ a ∧ a < A.FAB_OLIM 14 0 then
    match (a - A.FAB_OLIM 0 0) / 4 % 4 with
    | 2 => 0x4000#32
    | 3 => 0x8000#32
    | _ => 0x1000#32
  else
    match regRow? a with
    | some r => BitVec.ofNat 32 r.reset
    | none => 0#32

end Sys2Proof.Machine
end

