-- ==== Sys2Proof/Machine/SMap.lean ====
section
/-! DEFINITION. Sparse tables kept as plain data: a list of key and value in one canonical form, keys strictly
rising. `KMap` holds what is listed; `SMap` reads an unlisted key as a given default and never lists an entry equal
to it, so that equal tables are equal lists. -/

namespace Sys2Proof.Machine

/-- A table of listed entries by key. -/
abbrev KMap (α : Type) := List (Nat × α)

/-- The entry at a key, if one is listed. -/
def KMap.get? {α : Type} : KMap α → Nat → Option α
  | [], _ => none
  | (a, v) :: t, k => if a = k then some v else KMap.get? t k

/-- The table without its entry at a key. -/
def KMap.del {α : Type} (m : KMap α) (k : Nat) : KMap α := m.filter (fun e => e.1 != k)

/-- An entry put in front of the first larger key. -/
def KMap.ins {α : Type} : KMap α → Nat → α → KMap α
  | [], k, v => [(k, v)]
  | (a, w) :: t, k, v => if k < a then (k, v) :: (a, w) :: t else (a, w) :: KMap.ins t k v

/-- The table with the entry at a key set. -/
def KMap.put {α : Type} (m : KMap α) (k : Nat) (v : α) : KMap α := KMap.ins (KMap.del m k) k v

/-- The values listed. -/
def KMap.vals {α : Type} (m : KMap α) : List α := m.map Prod.snd

/-- Whether keys rise strictly. -/
def KMap.sorted {α : Type} : KMap α → Bool
  | [] => true
  | [_] => true
  | (a, _) :: (b, w) :: t => decide (a < b) && KMap.sorted ((b, w) :: t)

/-- A table that reads an unlisted key as a default. -/
abbrev SMap (α : Type) := List (Nat × α)

/-- The value at a key: the listed one, or the default `d k`. -/
def SMap.get {α : Type} (d : Nat → α) (m : SMap α) (k : Nat) : α := (KMap.get? m k).getD (d k)

/-- The table with the value at a key set; setting the default unlists the key. -/
def SMap.set {α : Type} [DecidableEq α] (d : Nat → α) (m : SMap α) (k : Nat) (v : α) : SMap α :=
  if v = d k then KMap.del m k else KMap.put m k v

/-- The canonical form: keys strictly rising, and no entry equal to what an unlisted key reads as. -/
def SMap.wf {α : Type} [DecidableEq α] (d : Nat → α) (m : SMap α) : Bool :=
  KMap.sorted m && m.all (fun e => decide (e.2 ≠ d e.1))

end Sys2Proof.Machine
end

