-- ==== Sys2Proof/Machine/Types.lean ====
section
/-! DEFINITION. The things the hub handles, as the spec names them: link ports, classes, packets, log records, queue
descriptors, clock and event items. Their fields are plain numbers, flags and lists. -/

namespace Sys2Proof.Machine

/-! ### Link ports and classes -/

/-- A Smitar Link port (R14): East, West or Spur. -/
inductive Port where
  | E | W | S
deriving DecidableEq, Repr

/-- The port's place among the three link slots 14, 15, 16 and among outputs 0, 1, 2 (R148, R390). -/
def Port.ix : Port → Nat
  | .E => 0
  | .W => 1
  | .S => 2

/-- The port of an index; S beyond 1. -/
def Port.ofIx : Nat → Port
  | 0 => .E
  | 1 => .W
  | _ => .S

/-- The port named by a 2-bit code 1 E, 2 W, 3 S (LNKE_ROUTE PORT, DEV_STATUS.ENUM_PORT); code 0 names none. -/
def Port.ofCode : Nat → Option Port
  | 1 => some .E
  | 2 => some .W
  | 3 => some .S
  | _ => none

/-- The 2-bit code of a port. -/
def Port.code (p : Port) : Nat := p.ix + 1

/-- The other ring port; S has none and answers itself. -/
def Port.other : Port → Port
  | .E => .W
  | .W => .E
  | .S => .S

/-- The three ports in slot order. -/
def Port.all : List Port := [.E, .W, .S]

/-- One value per link port. -/
structure PerPort (α : Type) where
  e : α
  w : α
  s : α
deriving DecidableEq, Repr

/-- The value of a port. -/
def PerPort.at {α : Type} (x : PerPort α) : Port → α
  | .E => x.e
  | .W => x.w
  | .S => x.s

/-- The values with one port's replaced. -/
def PerPort.set {α : Type} (x : PerPort α) (p : Port) (v : α) : PerPort α :=
  match p with
  | .E => { x with e := v }
  | .W => { x with w := v }
  | .S => { x with s := v }

/-- The four traffic classes (R27, CLASS encoding of R73). -/
inductive Cls where
  | P | M | D | B
deriving DecidableEq, Repr

/-- CLASS encoding (R73). -/
def Cls.ix : Cls → Nat
  | .P => 0
  | .M => 1
  | .D => 2
  | .B => 3

/-- The class of a 2-bit code. -/
def Cls.ofIx : Nat → Cls
  | 0 => .P
  | 1 => .M
  | 2 => .D
  | _ => .B

/-- The classes in CLASS order. -/
def Cls.all : List Cls := [.P, .M, .D, .B]

/-- One number per class. -/
structure PerCls where
  p : Nat
  m : Nat
  d : Nat
  b : Nat
deriving DecidableEq, Repr

/-- The number of a class. -/
def PerCls.at (x : PerCls) : Cls → Nat
  | .P => x.p
  | .M => x.m
  | .D => x.d
  | .B => x.b

/-- The numbers with one class's replaced. -/
def PerCls.set (x : PerCls) (c : Cls) (v : Nat) : PerCls :=
  match c with
  | .P => { x with p := v }
  | .M => { x with m := v }
  | .D => { x with d := v }
  | .B => { x with b := v }

/-! ### Packets (R70–R78) -/

/-- A packet: its header fields (R73) and its payload words. LENGTH is the payload's length. -/
structure Packet where
  dest : Nat
  cls : Cls
  src : Nat
  kind : Nat
  hops : Nat
  lseq : Nat
  wrap : Bool
  west : Bool
  resync : Bool
  tseq : Nat
  aux : Nat
  stamp : Nat
  payload : List Word
deriving DecidableEq, Repr

/-- LENGTH: payload words (R73). -/
def Packet.length (p : Packet) : Nat := p.payload.length

/-- Cells of a packet with `len` payload words (R88). -/
def cellsOf (len : Nat) : Nat := (16 + 4 * len + 63) / 64

/-- The cells a packet uses (R88). -/
def Packet.cells (p : Packet) : Nat := cellsOf p.length

/-- The four header words (R73), reserved bits zero (R76). -/
def Packet.header (p : Packet) : List Word :=
  [W (p.dest % 2 ^ 14 + p.cls.ix * 2 ^ 14 + p.src % 128 * 2 ^ 16 + p.kind % 16 * 2 ^ 24),
   W (p.length % 256 + p.hops % 256 * 2 ^ 8 + p.lseq % 4096 * 2 ^ 16 + b2n p.wrap * 2 ^ 28 + b2n p.west * 2 ^ 29
      + b2n p.resync * 2 ^ 30),
   W (p.tseq % 65536 + p.aux % 65536 * 65536),
   W p.stamp]

/-- The packet spelled by header and payload words, and the LENGTH its header gives; none when words are missing. -/
def Packet.parse? : List Word → Option (Packet × Nat)
  | w0 :: w1 :: w2 :: w3 :: payload =>
    some
      ({ dest := slice w0.toNat 0 14, cls := Cls.ofIx (slice w0.toNat 14 2), src := slice w0.toNat 16 7,
         kind := slice w0.toNat 24 4, hops := slice w1.toNat 8 8, lseq := slice w1.toNat 16 12,
         wrap := bit w1.toNat 28, west := bit w1.toNat 29, resync := bit w1.toNat 30,
         tseq := slice w2.toNat 0 16, aux := slice w2.toNat 16 16, stamp := w3.toNat, payload := payload },
       slice w1.toNat 0 8)
  | _ => none

/-- One step of the reflected CRC-32 register over a bit (R78). -/
def crcBit (c : Nat) : Nat := if c % 2 = 1 then Nat.xor (c / 2) 0xEDB88320 else c / 2

/-- The CRC-32 register after a byte (R78: least significant bit first). -/
def crcByte (c : Nat) (b : Byte) : Nat :=
  crcBit (crcBit (crcBit (crcBit (crcBit (crcBit (crcBit (crcBit (Nat.xor c b.toNat))))))))

/-- CRC-32 of a byte string (R78: start 0xFFFF_FFFF, result complemented). -/
def crc32 (bs : List Byte) : Word := W (Nat.xor (bs.foldl crcByte 0xFFFFFFFF) 0xFFFFFFFF)

/-- The CRC word of a packet as sent (R78). -/
def Packet.crc (p : Packet) : Word := crc32 (bytesOf (p.header ++ p.payload))

/-- A packet as a receiver sees it on a link: its words, its CRC word, the marks of R79, and whether its arrival had
begun when the latest sparge that changed its tunnel's binding passed the tunnel's boundary (R30). -/
structure Wire where
  words : List Word
  crc : Word
  poisoned : Bool
  uncorrectable : Bool
  restarted : Bool
  early : Bool
deriving DecidableEq, Repr

/-! ### Shared buffer and queues (R143–R166) -/

/-- Whose cells or descriptors a packet holds (R151, R152): a link input's reservation, the pool, or the M reserve. -/
inductive Acct where
  | link (p : Port)
  | pool
  | mres
deriving DecidableEq, Repr

/-- A packet in the shared buffer: its cells in order, their account, how many descriptors name it, the port it
arrived on, the local tunnel that sent it (R147), and the bytes that a write through the test window left in its cells
beside what its fields spell (R146): place and byte. -/
structure Stored where
  pkt : Packet
  cells : List Nat
  acct : Acct
  refs : Nat
  arr : Option Port
  orig : Option Nat
  raw : List (Nat × Byte)
  cls : Cls
deriving DecidableEq, Repr

/-- A descriptor: the packet it names, its own account, the WEST and WRAP bits of this copy (R96, R99), the class and STAMP it
records (R147), and whether its packet has passed its expiry test (R158): cut-through, or selected for its context. -/
structure Desc where
  pid : Nat
  acct : Acct
  west : Bool
  wrap : Bool
  cls : Cls
  stamp : Nat
  tested : Bool
deriving DecidableEq, Repr

/-- One queue: its descriptors from the head, the root time its head packet got there (R188), the start and finish
tags of R177, and whether the last packet queued was of class P (FAB_QRESET_LAST.CLASS_P). -/
structure Queue where
  items : List Desc
  headAt : Nat
  s : Nat
  f : Nat
  wasP : Bool
deriving DecidableEq, Repr

/-- A queue that has held nothing. -/
def Queue.empty : Queue := ⟨[], 0, 0, 0, false⟩

/-- The key of queue `q` of output `o` (R148). -/
def qkey (o q : Nat) : Nat := o * 16384 + q

/-- The binding change that a sparge belongs to (R30, R203): the local tunnel, the requested BINDING, the output of its
queue under the old binding, and whether that output has passed its boundary, so that the new binding holds. -/
structure BindChange where
  tunnel : Nat
  binding : Nat
  old : Option Nat
  switched : Bool
deriving DecidableEq, Repr

/-- A sparge in progress or waiting: the tunnel ID, the outputs that have not passed their boundary, and the binding
change it belongs to (R30, R161). -/
structure Sparge where
  tid : Nat
  pending : List Nat
  bind : Option BindChange
deriving DecidableEq, Repr

/-- A policer (R154): bucket content in units of 2 × 10⁻⁶ bit, last time in ticks, and the 48-bit counters. -/
structure Pol where
  tokens : Nat
  last : Nat
  pass : Nat
  drop : Nat
deriving DecidableEq, Repr

/-- A packet being sent on a link output or delivered at LOCAL until the next packet boundary: output, queue, the
packet, and whether it sits in the replay buffer. -/
structure OnWire where
  output : Nat
  queue : Nat
  pkt : Packet
  replayed : Bool
deriving DecidableEq, Repr

/-- A monitor of one quantity of a queue (R188): the latest sample, the largest since MAX was read and whether the
next sample restarts it, the sum since MEAN was read, and the number of samples taken when MEAN was read. -/
structure Mon where
  last : Nat
  max : Nat
  again : Bool
  sum : Nat
  base : Nat
deriving DecidableEq, Repr

/-- A monitor that has seen only zeros. -/
def Mon.zero : Mon := ⟨0, 0, false, 0, 0⟩

/-- A packet held at a route change (R102): the packet, its arrival port and its sending tunnel. -/
structure HeldPkt where
  pkt : Packet
  arr : Option Port
  orig : Option Nat
deriving DecidableEq, Repr

/-- A route hold (R102): the old ports, one for each change of PORT during the hold, and the packets held, oldest first. -/
structure Hold where
  old : List Port
  pkts : List HeldPkt
deriving DecidableEq, Repr

/-- A window entry (R94). -/
structure Win where
  last : Nat
  r : Bool
deriving DecidableEq, Repr

/-- A tunnel-sequence counter (R92): its destination, the next TSEQ, and whether RESYNC is pending. -/
structure TCtr where
  dest : Nat
  next : Nat
  resync : Bool
deriving DecidableEq, Repr

/-- A packet delivered to a local output, and the local tunnel it is for. -/
structure Delivered where
  tunnel : Nat
  pkt : Packet
deriving DecidableEq, Repr

/-- A packet that a port consumes itself (R87), with the root time of its start column. -/
structure PortPkt where
  pkt : Packet
  at_ : Nat
deriving DecidableEq, Repr

/-! ### Errors (R454–R462) -/

/-- A log record (R455). -/
structure Rec where
  sev : Nat
  nested : Bool
  esc : Bool
  source : Nat
  notice : Bool
  code : Nat
  stamp : Nat
  quality : Nat
  nestOf : Nat
  rep : Nat
  seq : Nat
  d0 : Nat
  d1 : Nat
  d2 : Nat
  hub : Nat
deriving DecidableEq, Repr

/-- A record's eight words (R455). -/
def Rec.words (r : Rec) : List Word :=
  [W (r.sev % 4 + b2n r.nested * 4 + b2n r.esc * 8 + r.source % 64 * 16 + b2n r.notice * 1024 + r.code % 65536 * 65536),
   W r.stamp, W (r.stamp / 2 ^ 32),
   W (r.quality % 4 + r.nestOf % 64 * 4 + r.rep % 256 * 256 + r.seq % 65536 * 65536),
   W r.d0, W r.d1, W r.d2, W (r.hub % 128)]

/-- The recoveries during which an entry is being handled (R458). -/
inductive Recovery where
  | narrow (p : Port)
  | linkDown (p : Port)
  | clock
  | rebuild
  | takeover
  | trip (slot : Nat)
  | fatal
deriving DecidableEq, Repr

/-- An entry being handled: its index, its source, its recovery and the root time it was made, oldest first in the
list (R458). -/
structure Handling where
  idx : Nat
  source : Nat
  by_ : Recovery
  at_ : Nat
deriving DecidableEq, Repr

/-- A waiting EVENT (R462): the record, its AUX, and whether it is the EVENT of a missed swap (R185). -/
structure Ev where
  rec_ : Rec
  aux : Nat
  missed : Bool
deriving DecidableEq, Repr

end Sys2Proof.Machine
end

