-- ==== Sys2Proof/Machine/Hub.lean ====
section
/-! DEFINITION. Everything the hub holds but its queue of waiting commands, block by block. Every register word sits in
`regs` under its internal address, at its reset value while unlisted; the structures here hold what the spec gives
the hub beside its registers. -/

namespace Sys2Proof.Machine

/-! ### Link ports -/

/-- An ordered set (R48): its columns 3 to 14. -/
structure OSet where
  typ : Nat
  gear : Nat
  caps : Nat
  port : Nat
  addr : Nat
  a0 : Nat
  a1 : Nat
  a2 : Nat
  a3 : Nat
  seq : Nat
  col13 : Nat
  check : Nat
deriving DecidableEq, Repr

/-- A layout of one direction: active lane mask, data width 4, 2 or 1, and whether the parity lane is shed (R44, R64). -/
structure Layout where
  mask : Nat
  width : Nat
  parShed : Bool
deriving DecidableEq, Repr

/-- Full width: five lanes, four of data, parity active (R36). -/
def Layout.full : Layout := ⟨31, 4, false⟩

/-- One received symbol of a lane: K-code or D-code, its byte, whether it is a code violation or a disparity error, or
its lane has lost lock (R40), and whether it came with its pair's polarity inverted (R35). -/
structure Sym where
  k : Bool
  byte : Byte
  bad : Bool
  unlocked : Bool
  inv : Bool
deriving DecidableEq, Repr

/-- A received column (R36): the symbols of lanes L0 to L4, and the change of the elastic buffer's fill in columns
(R39). -/
structure Column where
  syms : List Sym
  drift : Int
deriving DecidableEq, Repr

/-- A column as a transmitter sends it (R36, R44, R64): K-code or data, and the byte of each active lane. -/
structure TxCol where
  control : Bool
  lanes : List (Nat × Byte)
deriving DecidableEq, Repr

/-- A column after rebuild (R41): control or data, and the bytes of lanes L0 to L4 with the erased one rebuilt. -/
structure RxCol where
  control : Bool
  bytes : List Byte
deriving DecidableEq, Repr

/-- An ordered set as received (R49): its columns, whether no column has more than one erased lane, the masks of
physical pairs that hold lock and that align within 8 columns, and the lane identity seen on each pair (R50). -/
structure RxSet where
  o : OSet
  clean : Bool
  lock : Nat
  align : Nat
  ids : List Nat
deriving DecidableEq, Repr

/-- A receiver's column stream (R37, R44, R64): whether it stands inside a packet, the packet's words so far, the bytes
of its word in arrival, and of a time-marker or link-control sequence the words still to come, those come, and the
bytes of the one in arrival. -/
structure RxStream where
  inPacket : Bool
  words : List Word
  part : List Byte
  side : Nat
  sideWords : List Word
  sidePart : List Byte
deriving DecidableEq, Repr

/-- A stream between packets. -/
def RxStream.empty : RxStream := ⟨false, [], [], 0, [], []⟩

/-- One link port beyond its registers: lane layer (R33–R67), packet layer (R81–R90). -/
structure LinkPort where
  /-- consecutive failed bring-ups (R54) -/
  fails : Nat
  /-- mask of the pairs in use in this bring-up, and of those whose lane failed its power-up loop (R467) -/
  pairs : Nat
  dead : Nat
  /-- consecutive accepted sets of the current state, the last TS2 received, the sets sent since the first accepted one,
  and in RESUME whether three lanes hold lock and deskew (R50) -/
  run : Nat
  lastTs2 : Option OSet
  sets : Nat
  ready : Bool
  /-- pairs found to be inverted, by physical pair (R35) -/
  inverted : Nat
  /-- the lane identities of the run of ORIENT -/
  ids : List Nat
  /-- target gear (R51) and the partner's CAPS byte -/
  target : Nat
  pcaps : Nat
  /-- the gear before the step in progress, and whether the step was accepted and its rate changed (R52) -/
  oldGear : Nat
  accepted : Bool
  relock : Bool
  /-- lanes for which this end and the partner have sent lane done, and the check results of both ends (R52) -/
  doneHere : Nat
  doneThere : Nat
  checkHere : Option Bool
  checkThere : Option Bool
  /-- stored equaliser settings and those of the step in progress, keyed lane + 8 × gear + 64 × side -/
  eq : SMap Word
  eqNow : SMap Word
  /-- receive and transmit layouts in force, and the layout announced and not yet in force (R46) -/
  rx : Layout
  tx : Layout
  txNext : Option Layout
  /-- the ceiling of the last NAR accepted: mask and width (R67) -/
  narMask : Nat
  narWidth : Nat
  /-- mask of the NAR sent and not yet answered, and the width it asked for (R46, R47) -/
  narSent : Option Nat
  narAsked : Nat
  /-- columns in which each lane was active, and those in which it was erased lately, newest first: (lane, column) (R42);
  lanes whose K28.5 came outside a COM column (R38) -/
  cols : List Nat
  erased : List (Nat × Nat)
  stray : Nat
  /-- consecutive uncorrectable columns (R43), the last column rebuilt, a mark for the packet in arrival (R41), and the
  column stream (R37) -/
  bad : Nat
  lastCol : Option RxCol
  pktBad : Bool
  stream : RxStream
  /-- a loopback's pattern: the generator's register, the checker's, the columns checked, and SEQ of the first set of a
  TS1 pattern (R58) -/
  gen : Nat
  chk : Nat
  chkCols : Nat
  chkSeq : Nat
  /-- elastic buffer drift in columns (R39) -/
  drift : Int
  /-- lane whose withdrawal is asked for, and lane withdrawn (R60) -/
  asked : Option Nat
  withdrawn : Option Nat
  /-- shed lanes returned by SHED_WAKE, and the queue not yet quiet for SHED_IDLE (R65) -/
  woken : Bool
  /-- SEQ of the next ordered set (R48) -/
  oseq : Nat
  /-- stored gear for RESUME (R57), and whether STP was sent and RESUME is due at the wake (R53, R487) -/
  storedGear : Nat
  slept : Bool
  /-- out of service, and LINK_DOWN not yet taken (R43, R99) -/
  lost : Bool
  /-- unacknowledged packets held for replay, oldest first (R81), those still to be replayed (R85), and by LSEQ the local
  tunnel that sent a packet of the hub's own (R147) -/
  replay : List Packet
  rq : List Packet
  orig : KMap Nat
  /-- replays without progress (R86) -/
  noProg : Nat
  /-- a NAK is outstanding for the expected LSEQ; good packets since the last ACK or NAK (R82, R84) -/
  nakOut : Bool
  good : Nat
  /-- receive credits: allotment in force, cells released, value of the last CREDIT sent (R89) -/
  allot : PerCls
  rel : PerCls
  relSent : PerCls
  /-- transmit credits: used, limit, and 1 while the last CREDIT was sane (R90) -/
  used : PerCls
  limit : PerCls
  seen : PerCls
  /-- packets that the port consumes itself, oldest first (R87) -/
  ctl : List PortPkt
  /-- the packet on the wire until the next packet boundary -/
  wire : Option OnWire
deriving DecidableEq, Repr

/-- No cells of any class. -/
def PerCls.zero : PerCls := ⟨0, 0, 0, 0⟩

/-- A link port after reset. -/
def LinkPort.reset : LinkPort :=
  { fails := 0, pairs := 0, dead := 0, run := 0, lastTs2 := none, ids := [], target := 0, pcaps := 0, oldGear := 0,
    accepted := false, relock := false, doneHere := 0, doneThere := 0, checkHere := none, checkThere := none, eq := [], eqNow := [],
    sets := 0, ready := false, inverted := 0,
    rx := .full, tx := .full, txNext := none, narMask := 31, narWidth := 4, narSent := none, narAsked := 4,
    cols := [0, 0, 0, 0, 0], erased := [], stray := 0, bad := 0, lastCol := none, pktBad := false, stream := .empty,
    gen := 2 ^ 31 - 1, chk := 2 ^ 31 - 1, chkCols := 0, chkSeq := 0,
    drift := 0, asked := none, withdrawn := none, woken := false, oseq := 0,
    storedGear := 0, slept := false, lost := false, replay := [], rq := [], orig := [], noProg := 0, nakOut := false, good := 0,
    allot := ⟨16, 16, 32, 64⟩, rel := .zero, relSent := .zero, used := .zero, limit := .zero, seen := .zero, ctl := [],
    wire := none }

/-- Routing and sequences that all ports share (R92–R102). -/
structure RouteState where
  /-- tunnel-sequence counters of each local tunnel, most recently used first (R92) -/
  tseq : SMap (List TCtr)
  /-- window entries, keyed tunnel × 128 + source (R94) -/
  win : KMap Win
  /-- the 48-bit count of P duplicates (LNKE_WIN_DUP_P) -/
  dupP : Nat
  /-- route holds by destination hub (R102) -/
  holds : KMap Hold
deriving DecidableEq, Repr

/-- Routing with nothing sent or received. -/
def RouteState.reset : RouteState := ⟨[], [], 0, []⟩

/-! ### Errors -/

/-- The error log and its surroundings (R454–R462). -/
structure ErrState where
  log : KMap Rec
  /-- the newest entry of a source, code and instance: its root time, its slot and its SEQ (R457) -/
  lastAt : KMap (Nat × Nat × Nat)
  handling : List Handling
  evtq : List Ev
  /-- held in reset after a fourth fatal reset (R459) -/
  held : Bool
  fatalAt : List Nat
  fatalPending : Bool
deriving DecidableEq, Repr

/-- An empty log. -/
def ErrState.reset : ErrState := ⟨[], [], [], [], false, [], false⟩

/-! ### Shared buffer -/

/-- The shared buffer, its queues, policers and counters (R143–R169). -/
structure FabState where
  pkts : KMap Stored
  nextPid : Nat
  /-- the bank of the next cell taken (R144) -/
  bank : Nat
  /-- cells retired by Cooper (R463) or claimed for a test (R467) -/
  retired : List Nat
  queues : SMap Queue
  /-- 48-bit counters, keyed (output × 4 + class) × 16 + cause (R165) -/
  cnt : SMap Nat
  pol : SMap Pol
  sparge : Option Sparge
  spargeWait : List Sparge
  /-- the output of each re-bound tunnel's old queue, for arrivals that began before its boundary (R30) -/
  late : KMap Nat
  /-- 64-bit words of the buffer, tun and common memories that hold a single-bit error, by internal address / 8
  (R145, R195) -/
  soft : List Nat
  /-- packets "counted against the tunnel" (R26, R28) -/
  unbound : SMap Nat
  /-- packets delivered to a local output and not yet taken, by output -/
  inbox : KMap (List Delivered)
  /-- the packet being delivered at LOCAL -/
  wire : Option OnWire
deriving DecidableEq, Repr

/-- An empty shared buffer. -/
def FabState.reset : FabState :=
  { pkts := [], nextPid := 0, bank := 0, retired := [], queues := [], cnt := [], pol := [], sparge := none,
    spargeWait := [], late := [], soft := [], unbound := [], inbox := [], wire := none }

/-! ### Schedulers -/

/-- One scheduler (R172, R177): time of the last refill in root units, buckets, and virtual times per class. -/
structure Sched where
  last : Nat
  pB : Int
  mB : Int
  dB : KMap Int
  v : PerCls
deriving DecidableEq, Repr

/-- The schedulers (R170–R188). -/
structure SchState where
  s0 : Sched
  s1 : Sched
  s2 : Sched
  s3 : Sched
  /-- old grants of the settle interval: scheduler × 16384 + queue, old UNITS (R184) -/
  settle : KMap Nat
  /-- queue samples taken since reset, and the monitors of depth and head-of-line delay, by queue key (R188) -/
  samples : Nat
  depth : SMap Mon
  hol : SMap Mon
deriving DecidableEq, Repr

/-- A scheduler that has served nothing. -/
def Sched.reset : Sched := ⟨0, 0, 0, [], .zero⟩

/-- LOCAL on release from reset: its P and M buckets are at their caps, for PBURST 4 (R172). -/
def Sched.released : Sched := { Sched.reset with pB := 4 * 135 * 4096, mB := 2 * 135 * 4096 }

/-- Schedulers that have served nothing. -/
def SchState.reset : SchState := ⟨.reset, .reset, .reset, .released, [], 0, [], []⟩

/-! ### Clock and station time -/

/-- An accepted marker: its value and the root time of its receive reference point. -/
structure Mark where
  value : Nat
  at_ : Nat
deriving DecidableEq, Repr

/-- A delay probe not yet answered (R129): t1 in root periods, whether it was transmitted more than once, and whether it
is a recheck. -/
structure Probe where
  t1 : Nat
  again : Bool
  recheck : Bool
deriving DecidableEq, Repr

/-- What a port keeps of markers and of its hop delay (R125, R129, R130). -/
structure TimePort where
  mark : Option Mark
  /-- markers that failed the check in a row, newest first -/
  badRun : List Mark
  gap : Bool
  /-- good samples in 0.125 ns units -/
  samples : List Int
  /-- probes sent and not answered, by PROBE_ID -/
  probes : KMap Probe
  probeId : Nat
  calibrating : Bool
  sentProbes : Nat
  /-- consecutive rechecks off by more than 1 ns, and whether they caused the calibration in progress -/
  off : Nat
  recal : Bool
deriving DecidableEq, Repr

/-- A port with no marker and no sample. -/
def TimePort.reset : TimePort := ⟨none, [], false, [], [], 0, false, 0, 0, false⟩

/-- An event record, with the root tick in which it entered the FIFO (R135). -/
structure EviRec where
  entered : Nat
  stamp : Nat
  pin : Nat
  level : Bool
  quality : Nat
  seq : Nat
  glitch : Nat
deriving DecidableEq, Repr

/-- The record's four words (R135). -/
def EviRec.words (r : EviRec) : List Word :=
  [W r.stamp, W (r.stamp / 2 ^ 32),
   W (r.pin % 32 + b2n r.level * 32 + r.quality % 4 * 64 + r.seq % 65536 * 65536), W (r.glitch % 256)]

/-- A level being filtered (R134): the level, the stamp of its first sample and the time quality then (R127). -/
structure EviPend where
  level : Bool
  stamp : Nat
  quality : Nat
deriving DecidableEq, Repr

/-- An event pin: the new level being filtered, and glitches since its last record (R134) (assumption 103, DEDUCED). -/
structure EviPin where
  pend : Option EviPend
  glitch : Nat
deriving DecidableEq, Repr

/-- A queued transition of a triggered output (R273): time and level. -/
structure Trans where
  at_ : Nat
  active : Bool
deriving DecidableEq, Repr

/-- A triggered output's schedule (R137): START, PERIOD, COUNT, WIDTH, periodic or single, and the next edge `k`. -/
structure EvoSched where
  start : Nat
  period : Nat
  count : Nat
  width : Nat
  periodic : Bool
  k : Nat
deriving DecidableEq, Repr

/-- A triggered output: the running schedule, the end of the pulse in progress, the level driven before any gating
(R139), and queued transitions in time order. -/
structure Evo where
  sched : Option EvoSched
  pulseEnd : Option Nat
  on : Bool
  queue : List Trans
deriving DecidableEq, Repr

/-- An output with nothing armed. -/
def Evo.idle : Evo := ⟨none, none, false, []⟩

/-- Clock and station time beyond CLK and TIME (R113–R142). -/
structure TimeState where
  ports : PerPort TimePort
  /-- counts of the last 102 windows of W and of E, newest first; none where the window did not pass (R114) -/
  winW : List (Option Nat)
  winE : List (Option Nat)
  /-- the frequency memory as a fraction, absent while `memDen` is 0, and the windows ended since it was set (R114) -/
  memNum : Nat
  memDen : Nat
  memAge : Nat
  /-- the last monitor window has not passed, per candidate -/
  failW : Bool
  failE : Bool
  /-- the clock showed no edge for 80 ns in the window in progress, per candidate (R114 case 1) -/
  edgeW : Bool
  edgeE : Bool
  /-- mode to return to from STEP_HOLD (R115) -/
  holdFrom : Nat
  /-- candidate followed in ACQUIRE -/
  followed : Option Port
  /-- slow clock last measured out of range (R120) -/
  slowBad : Bool
  /-- root time of the entry to HOLDOVER -/
  holdAt : Nat
  /-- error still to slew, in 0.25 ns units (R126) -/
  err : Int
  /-- moves of station time against the root in the last 2^17 root periods, newest first: root time, 0.25 ns units -/
  moves : List (Nat × Int)
  pins : SMap EviPin
  fifo : List EviRec
  evo : SMap Evo
deriving DecidableEq, Repr

/-- Clock and station time after a reset that clears station time. -/
def TimeState.reset : TimeState :=
  { ports := ⟨.reset, .reset, .reset⟩, winW := [], winE := [], memNum := 0, memDen := 0, memAge := 0, failW := true,
    failE := true, edgeW := false, edgeE := false, holdFrom := 0, followed := none, slowBad := false, holdAt := 0, err := 0,
    moves := [], pins := [], fifo := [], evo := [] }

/-! ### Tun contexts -/

/-- A packet held in a descriptor register (R252): its place in the shared buffer, CAPACITY, ORIGIN (0 output 13,
1 endpoint, 2 PNEW), STAMPED, and the account of its descriptor. -/
structure Held where
  pid : Nat
  cap : Nat
  origin : Nat
  stamped : Bool
  acct : Acct
deriving DecidableEq, Repr

/-- A TNOW sample (R269): station time, sub-tick, quality and VALID. -/
structure Sample where
  ticks : Nat
  sub : Nat
  quality : Nat
  valid : Bool
deriving DecidableEq, Repr

/-- An access through the register window (R196, R244): its context, its internal address, its bytes, and of a store the
value. -/
structure WinAcc where
  ctx : Nat
  addr : Nat
  bytes : Nat
  store : Option Nat
deriving DecidableEq, Repr

/-- One context beyond its TUNC registers (R199, R223). -/
structure Ctx where
  /-- g1–g15; g0 reads zero (R223) -/
  g : SMap Word
  z : Bool
  n : Bool
  c : Bool
  v : Bool
  /-- the next instruction index -/
  pc : Nat
  /-- the entry index of the program pitched (R199) -/
  entry : Nat
  /-- whether its program image is SHAREABLE (R206, R207 check 11) -/
  shareable : Bool
  d0 : Option Held
  d1 : Option Held
  d2 : Option Held
  d3 : Option Held
  /-- latched event bits, laid out as R200 -/
  events : Nat
  /-- the mask and destination of the WAIT in progress (R267) -/
  mask : Nat
  waitGd : Nat
  /-- the timer's target in ticks of station time (R271) -/
  timer : Option Nat
  sample : Option Sample
  /-- root time at which the watchdog count began (R202) -/
  wdogAt : Nat
  /-- cause of the trap that led to the latest restart (R248) -/
  restartCause : Nat
  /-- a RESTART is due (R216) -/
  restart : Bool
  /-- packets for the tunnel are discarded until a pitch or a stop (R216) -/
  discard : Bool
  /-- the state before MOVING (R214) -/
  was : Nat
  /-- a stop or a doorbell that waits for the takeover to end (R221) -/
  stopLater : Bool
  mailLater : Bool
  /-- the register-window access on which the context is stalled (R244) -/
  win : Option WinAcc
deriving DecidableEq, Repr

/-- A context with no program. -/
def Ctx.empty : Ctx :=
  { g := [], z := false, n := false, c := false, v := false, pc := 0, entry := 0, shareable := false, d0 := none,
    d1 := none, d2 := none, d3 := none, events := 0, mask := 0, waitGd := 0, timer := none, sample := none, wdogAt := 0,
    restartCause := 0, restart := false, discard := false, was := 0, stopLater := false, mailLater := false,
    win := none }

/-- The packets a context holds. -/
def Ctx.held (x : Ctx) : List Held := x.d0.toList ++ x.d1.toList ++ x.d2.toList ++ x.d3.toList

/-- The asynchronous instructions (R279). -/
inductive AsyncKind where
  | garm | tap | seal | jrec
deriving DecidableEq, Repr

/-- An operation in an engine (R278): what it is, the context that issued it and whether it still waits for the result,
the data-window address of its result word, the block copied at issue, and the outcome once its engine has one. -/
structure AsyncOp where
  kind : AsyncKind
  ctx : Nat
  live : Bool
  result : Nat
  block : List Word
  outcome : Option Nat
deriving DecidableEq, Repr

/-- A pitch in progress (R209): tunnel, SHARE, where the image lies, window bases, sizes, entry, key index, signing
check, SHAREABLE, and the cold-pitch entry it serves. -/
structure Pitching where
  tunnel : Nat
  share : Bool
  src : Nat
  codeBase : Nat
  dataBase : Nat
  codeBytes : Nat
  initBytes : Nat
  dataBytes : Nat
  entry : Nat
  key : Nat
  signed : Bool
  shareable : Bool
  cold : Option Nat
deriving DecidableEq, Repr

/-- A pitch whose source read the access table holds (R397): tunnel, mode, and the source and window bases at its GO. -/
structure PitchReq where
  tunnel : Nat
  share : Bool
  src : Nat
  codeBase : Nat
  dataBase : Nat
deriving DecidableEq, Repr

/-- The tuns and their contexts (R190–R222). -/
structure TunState where
  ctxs : SMap Ctx
  /-- 64-bit words of the tun, common and buffer memories that are uncorrectable, by internal address / 8 (R145, R195,
  R463) -/
  bad : List Nat
  ops : List AsyncOp
  pitch : Option Pitching
  /-- the pitch that waits for the access table (R397) -/
  pitchWait : Option PitchReq
  /-- cold-pitch entries that wait for it, in ascending order (R212, R397) -/
  coldWait : List Nat
  /-- the tun being moved to the spare (R219) -/
  moving : Option Nat
  /-- an instruction has issued on tun 8 since it took over (R458) -/
  spareRan : Bool
  /-- register-window accesses whose context has left them, oldest first: they still complete (R244) -/
  left : List WinAcc
  /-- packets that an endpoint holds for its context, oldest first, by tunnel (R200 ADP_IN) -/
  epIn : KMap (List Packet)
  /-- packets that a context handed to its endpoint and the endpoint has not taken, by tunnel (R261) -/
  epOut : KMap (List Packet)
deriving DecidableEq, Repr

/-- Tuns with no program. -/
def TunState.reset : TunState :=
  { ctxs := [], bad := [], ops := [], pitch := none, pitchWait := none, coldWait := [], moving := none,
    spareRan := false, left := [], epIn := [], epOut := [] }

/-! ### Access control -/

/-- A register access held at its initiator while EN is 0 (R397): class, address, and the word and byte enables of a write. -/
structure LateAcc where
  cls : Nat
  addr : Nat
  store : Option (Word × Nat)
deriving DecidableEq, Repr

/-- Access control beyond ACC (R396, R397, R209, R219, R281): a table hash is due; writes held until their range is free,
oldest first: address and byte; register accesses held until EN returns to 1, oldest first; the contexts whose fetch is held,
and whether another initiator's access is. -/
structure AccState where
  hashDue : Bool
  held : List (Nat × Byte)
  late : List LateAcc
  ctxs : List Nat
  other : Bool
deriving DecidableEq, Repr

/-- Nothing due and nothing held. -/
def AccState.reset : AccState := ⟨false, [], [], [], false⟩

/-! ### Security -/

/-- A key slot (R442, R443): the key XOR its mask, the mask, the engine it was delivered to, and the tunnel ID of a
link-cipher key. -/
structure KeySlot where
  masked : List Byte
  mask : List Byte
  engine : Nat
  tid : Nat
deriving DecidableEq, Repr

/-- A SEC operation running (R445): OP, its block's address, the block as read at its start (none while the access table
holds the read), and the statement that ATTEST made at its start. -/
structure SecOp where
  op : Nat
  addr : Nat
  block : Option (List Byte)
  made : List Byte
deriving DecidableEq, Repr

/-- Keys, engines and sessions beyond SEC (R433–R452). -/
structure SecState where
  /-- the owner root secret XOR its mask, and the mask; both empty while none is held -/
  ors : List Byte
  orsMask : List Byte
  /-- the key-encryption key XOR its mask, and the mask; both empty while none is held (R434, R443) -/
  kek : List Byte
  kekMask : List Byte
  /-- owner program keys X ‖ Y, empty where none is provisioned -/
  pkeys : List (List Byte)
  slots : KMap KeySlot
  /-- the next slot to turn -/
  turn : Nat
  /-- slots most recently delivered to the journal sealer, the attestation signer and the program verifier -/
  sealer : Option Nat
  signer : Option Nat
  verifier : Option Nat
  op : Option SecOp
  /-- scan test enabled (R452) -/
  scan : Bool
  /-- the seed of the deterministic generator while the random source fails (R444) -/
  seed : List Byte
  /-- the root time at which service access opened last (R452) -/
  openedAt : Option Nat
deriving DecidableEq, Repr

/-- A security block with no key. -/
def SecState.blank : SecState :=
  { ors := [], orsMask := [], kek := [], kekMask := [], pkeys := [[], [], [], []], slots := [], turn := 0, sealer := none,
    signer := none, verifier := none, op := none, scan := false, seed := [], openedAt := none }

/-! ### Display heads -/

/-- A line in a layer's FIFO (R287): its number, the bytes and the segments received, and whether it is complete. -/
structure DspLine where
  y : Nat
  bytes : List Byte
  segs : Nat
  done : Bool
deriving DecidableEq, Repr

/-- A layer's settings as latched at a frame start (R293). -/
structure DspSet where
  en : Bool
  fmt : Nat
  src : Bool
  galpha : Nat
  x : Nat
  y : Nat
  w : Nat
  h : Nat
  colour : Nat
  addr : Nat
  stride : Nat
deriving DecidableEq, Repr

/-- One layer: FIFO (R288), latched settings, whether they pass the latch check and a tunnel was bound, whether the
layer underran or was refused in this frame, and lines scanned in it. -/
structure DspLayer where
  fifo : List DspLine
  set : DspSet
  geom : Bool
  bound : Bool
  off : Bool
  lines : Nat
deriving DecidableEq, Repr

/-- A layer never latched. -/
def DspLayer.blank : DspLayer := ⟨[], ⟨false, 0, false, 0, 0, 0, 0, 0, 0, 0, 0⟩, false, false, false, 0⟩

/-- A banner line whose fetch the access table holds (R397): the frame's FRAME_CNT, the line of the active area, and the
bytes to read. -/
structure BannerFetch where
  frame : Nat
  line : Nat
  addr : Nat
  bytes : Nat
deriving DecidableEq, Repr

/-- A display head beyond its registers (R284–R301). -/
structure DspHead where
  base : DspLayer
  main : DspLayer
  banner : DspLayer
  /-- a frame has started since enable; a frame is being scanned -/
  begun : Bool
  inFrame : Bool
  /-- lines of the active area begun in this frame, and the bytes scanned for the line in progress -/
  line : Nat
  baseLine : Option (List Byte)
  mainLine : Option (List Byte)
  /-- banner bytes of the line in progress and of the next line, absent where the banner has none -/
  bannerNow : Option (List Byte)
  bannerNext : Option (List Byte)
  /-- banner fetches that the access table holds, oldest first -/
  bannerHeld : List BannerFetch
  /-- station time in ticks of the frame's start -/
  startAt : Nat
  /-- consecutive frames in which the main layer underran (R300) -/
  run : Nat
  /-- the bank that holds the last flip, and the two banks of captured lines in RGB565 (R299) -/
  holdBank : Nat
  bank0 : KMap (List Nat)
  bank1 : KMap (List Nat)
deriving DecidableEq, Repr

/-- A head with nothing in it. -/
def DspHead.reset : DspHead :=
  { base := .blank, main := .blank, banner := .blank, begun := false, inFrame := false, line := 0, baseLine := none,
    mainLine := none, bannerNow := none, bannerNext := none, bannerHeld := [], startAt := 0, run := 0, holdBank := 0,
    bank0 := [], bank1 := [] }

/-! ### Ethernet and PTP -/

/-- A partial frame at an Ethernet output (R312): set and source, BYTES, TRAILER, the next segment, the bytes so far,
and the root time of its first segment. -/
structure EthPart where
  set : Nat
  src : Nat
  len : Nat
  trailer : Bool
  next : Nat
  bytes : List Byte
  at_ : Nat
deriving DecidableEq, Repr

/-- An Ethernet port beyond its registers: partial frames, completed frames waiting for the wire with their set, the
root time at which the frame on the wire ends, and frames that wait in the receive FIFO for a rebuild to end, with
their set and the time of their SFD (R164). -/
structure EthPort where
  parts : List EthPart
  txq : List (Nat × List Byte)
  wireEnd : Nat
  rxWait : List (Nat × List Byte × Nat)
deriving DecidableEq, Repr

/-- A port with nothing in it. -/
def EthPort.reset : EthPort := ⟨[], [], 0, []⟩

/-- A port's peer-delay exchange (R317): sequenceId and t1 of its last Pdelay_Req, and t2, the correction and t4 of a
two-step response, in units of 0.25 ns and of 2⁻¹⁶ ns. -/
structure PtpReq where
  seq : Nat
  t1 : Nat
  t2 : Option (Nat × Int × Nat)
deriving DecidableEq, Repr

/-- A PTP port beyond its registers: sequenceId of the next Sync, Announce and Pdelay_Req, the exchange in progress,
and messages taken and not yet handled with the stamp of their timestamp point in 0.25 ns. -/
structure PtpPort where
  syncSeq : Nat
  annSeq : Nat
  reqSeq : Nat
  req : Option PtpReq
  inq : List (List Byte × Nat)
deriving DecidableEq, Repr

/-- A PTP port with nothing sent. -/
def PtpPort.reset : PtpPort := ⟨0, 0, 0, none, []⟩

/-- Ethernet ports, PTP ports and the active PTP origin (R315): seconds and nanoseconds. -/
structure EthState where
  ports : SMap EthPort
  ptp : SMap PtpPort
  originS : Nat
  originNs : Nat
deriving DecidableEq, Repr

/-- Ethernet and PTP with nothing in them. -/
def EthState.reset : EthState := ⟨[], [], 0, 0⟩

/-! ### Serial channels -/

/-- A closed receive packet (R325): its characters, END and ERR, and the root time of its close. -/
structure SerRx where
  bytes : List Byte
  fin : Bool
  err : Bool
  at_ : Nat
deriving DecidableEq, Repr

/-- A transmit bank (R326): the characters still to send, the break still to send, whether it has started on the line,
and the tunnel it came from. -/
structure SerTx where
  bytes : List Byte
  brk : Bool
  started : Bool
  tunnel : Nat
deriving DecidableEq, Repr

/-- A serial channel: the receive packet being filled, closed packets (the oldest drains), transmit banks, the level of
RTS or DE, the root time at which the character on the line ends, at which DE last rose, and at which the last received
character ended. -/
structure SerChan where
  fill : List Byte
  fillErr : Bool
  closed : List SerRx
  tx : List SerTx
  rts : Bool
  charEnd : Nat
  deAt : Nat
  rxEnd : Option Nat
  cts : Option Bool
deriving DecidableEq, Repr

/-- A channel with empty banks, nothing connected to its CTS ball. -/
def SerChan.reset : SerChan := ⟨[], false, [], [], false, 0, 0, none, none⟩

/-! ### USB hub -/

/-- A split record's fields (R336) and its data. -/
structure UsbRec where
  handle : Nat
  kind : Nat
  token : Nat
  dev : Nat
  hub : Bool
  ep : Nat
  typ : Nat
  toggle : Bool
  uframe : Nat
  bytes : Nat
  data : List Byte
deriving DecidableEq, Repr

/-- A final result (R339): STATUS, data PID and data. -/
structure UsbRes where
  status : Nat
  toggle : Bool
  data : List Byte
deriving DecidableEq, Repr

/-- An endpoint of a device (R334): address, endpoint number, and whether it is an IN endpoint (never for control). -/
abbrev UsbEnd : Type := Nat × Nat × Bool

/-- An occupied handle (R338): its instance, its SSPLIT, its final result with the microframe count of its completion, and
its NAK and error counts. -/
structure UsbSplit where
  k : Nat
  rec_ : UsbRec
  res : Option UsbRes
  doneUf : Nat
  naks : Nat
  errs : Nat
deriving DecidableEq, Repr

/-- One instance's tunnel: halted (R342), and the record in arrival: its header words, its data so far and the next
segment; `bad` while the rest of a malformed record is passed over. -/
structure UsbInst where
  halted : Bool
  w0 : Nat
  w1 : Nat
  data : List Byte
  next : Nat
  bad : Bool
deriving DecidableEq, Repr

/-- An instance between records. -/
def UsbInst.reset : UsbInst := ⟨false, 0, 0, [], 0, false⟩

/-- A USB port: VBUS_EN, the device's pull-up (true: D−, low speed), a chirp seen during reset, its occupied handles in
acceptance order, the endpoints that have had their transaction with the microframe count of each (R334), the endpoints
whose next OUT starts with PING (R340), and its three instances. -/
structure UsbPort where
  vbus : Bool
  low : Bool
  chirp : Bool
  splits : List UsbSplit
  tried : List (Nat × UsbEnd)
  pings : List UsbEnd
  i0 : UsbInst
  i1 : UsbInst
  i2 : UsbInst
deriving DecidableEq, Repr

/-- A port without power. -/
def UsbPort.reset : UsbPort := ⟨false, false, false, [], [], [], .reset, .reset, .reset⟩

/-- The USB hub: ports, microframes counted since reset, the root time of the current microframe's start, ADJ as the
last microframe 7 began with it (R351), the index of the next microframe; the hub function (R347–R350): the SETUP not
yet served with its port, the data stage of endpoint 0 and its next PID, a protocol stall, reports of endpoint 1 and
its next PID, and the configuration. -/
structure UsbState where
  ports : SMap UsbPort
  uf : Nat
  ufAt : Nat
  adj7 : Int
  nextIdx : Nat
  setup : Option (Nat × List Byte)
  data0 : List Byte
  pid0 : Bool
  stall : Bool
  reports : List Nat
  pid1 : Bool
  config : Nat
deriving DecidableEq, Repr

/-- The hub function and ports after reset. -/
def UsbState.reset : UsbState :=
  { ports := [], uf := 0, ufAt := 0, adj7 := 0, nextIdx := 0, setup := none, data0 := [], pid0 := true, stall := false,
    reports := [], pid1 := false, config := 0 }

/-! ### eMMC and journal -/

/-- A store or erase in progress (R369, R370): target, erase, the image's bytes, its descriptor line, and its result. -/
structure JrnStore where
  target : Nat
  erase : Bool
  image : List Byte
  hash : List Byte
  tunnel : Nat
  mode : Bool
  codeBase : Nat
  dataBase : Nat
deriving DecidableEq, Repr

/-- A store whose source read the access table holds (R397): target, TUNNEL, MODE, SRC, window bases and LEN at its GO. -/
structure StoreReq where
  target : Nat
  tunnel : Nat
  share : Bool
  src : Nat
  codeBase : Nat
  dataBase : Nat
  len : Nat
deriving DecidableEq, Repr

/-- The eMMC command last issued (R356): RESP, DATA, the DMA address and the bytes of its blocks, as they stood at GO. -/
structure EmmcRun where
  resp : Nat
  data : Nat
  addr : Nat
  bytes : Nat
deriving DecidableEq, Repr

/-- No command yet. -/
def EmmcRun.none : EmmcRun := ⟨0, 0, 0, 0⟩

/-- The journal beyond JRN and its array (R359–R370): the chain value while a key is delivered and the sealer slot it
was computed with, sealed records since the last checkpoint, the next checkpoint line, old slots of moves with the slot
of the copy (R367), and the store in progress. -/
structure JrnState where
  chain : Option (List Byte)
  sealed : Nat
  ckpt : Nat
  moves : List (Nat × Nat)
  store : Option JrnStore
  /-- the store whose source read waits for the access table (R397) -/
  storeWait : Option StoreReq
deriving DecidableEq, Repr

/-- A journal before its scan. -/
def JrnState.reset : JrnState := ⟨none, 0, 0, [], none, none⟩

/-! ### Bridge -/

/-- A copy of the outbound engine (R387): running, direction, the two addresses, length, the offset of the next request,
and the bytes moved. -/
structure OutChan where
  live : Bool
  write : Bool
  loc : Nat
  host : Nat
  len : Nat
  next : Nat
  moved : Nat
deriving DecidableEq, Repr

/-- A channel that has copied nothing. -/
def OutChan.idle : OutChan := ⟨false, false, 0, 0, 0, 0, 0⟩

/-- An outstanding read of the hub (R387, R389): channel, whether that copy still runs, addresses, bytes asked and
delivered, and whether a RETRY has been received and not answered. -/
structure OutReq where
  chan : Nat
  live : Bool
  loc : Nat
  host : Nat
  bytes : Nat
  got : Nat
  retry : Bool
deriving DecidableEq, Repr

/-- The bridge beyond BRG: the outbound channels, outstanding tags 256–511, the next tag in rotation, the root time at
which a tag timed out, and RESET completions not yet admitted (R386). -/
structure BrgState where
  chans : SMap OutChan
  tags : KMap OutReq
  rotor : Nat
  late : KMap Nat
  cplq : List Nat
deriving DecidableEq, Repr

/-- A bridge with nothing in progress. -/
def BrgState.reset : BrgState := ⟨[], [], 256, [], []⟩

/-! ### Cable power and bay load -/

/-- A fixed supply PDO or a request: voltage in 50 mV and current in 10 mA (R407, R418). -/
structure Pdo where
  volts : Nat
  amps : Nat
deriving DecidableEq, Repr

/-- What a port waits for in its PD exchange (R409–R413, R417): the answer to its request, PS_RDY of the source, the
answer to its PR_Swap, the old source's PS_RDY and the new source's PS_RDY in a swap, EPR mode, PS_RDY of VCONN. -/
inductive PdWait where
  | none | answer | psRdy | swapAnswer | sourceOff | sourceOn | epr | vconn
deriving DecidableEq, Repr

/-- A message sequence that a sink starts of its own accord (R406): a swap, a new request, entry to EPR mode, a
keep-alive. -/
inductive SinkSeq where
  | swap | request | epr | keepAlive
deriving DecidableEq, Repr

/-- A cable port beyond its CC registers: termination presented (Rp), the power role, VCAB driven as source in 50 mV, the
sink's ideal-diode path closed, or to close once VCAB lies in the vSafe5V window (R405), the partner's capabilities,
whether they show EPR capability, GoodCRC received and capabilities sent since, what the port waits for, the request or
contract in transition, EPR mode, the role before a swap in progress, the root time until which a swap may not be asked
again, the times of the trips of its fault window (newest first), a path that its failed comparator keeps off, how far a
try of the other role has come (R403): 0 none, 1 trying, 2 back, and the sequences that wait for SinkTxOK (R406). -/
structure CcPort where
  rp : Bool
  source : Bool
  vout : Nat
  path : Bool
  closing : Bool
  caps : List Pdo
  capsEpr : Bool
  snkCaps : List Pdo
  good : Bool
  sent : Nat
  wait : PdWait
  pend : Option Pdo
  epr : Bool
  before : Option Bool
  retryAt : Nat
  trips : List Nat
  barred : Bool
  tried : Nat
  due : List SinkSeq
deriving DecidableEq, Repr

/-- A port that has seen no partner. -/
def CcPort.reset : CcPort :=
  { rp := false, source := false, vout := 0, path := false, closing := false, caps := [], capsEpr := false, snkCaps := [],
    good := false, sent := 0, wait := .none, pend := none, epr := false, before := none, retryAt := 0, trips := [],
    barred := false, tried := 0, due := [] }

/-- The power path beyond LOAD (R419–R431): UV in force, the fuse's comparator failed, LOCAL held off for its temperature,
the two heat terms of each FET set in 10⁻⁹ °C, and the temperatures of the high-voltage die and of the core die in 0.125 °C
(R428, R509). -/
structure LoadState where
  uv : Nat
  barred : Bool
  locHot : Bool
  d1 : List Nat
  d2 : List Nat
  die : Int
  core : Int
deriving DecidableEq, Repr

/-- The power path at power-up (assumption 82, DESIGN CHOICE). -/
def LoadState.reset : LoadState := ⟨0x168, false, false, [0, 0, 0, 0, 0], [0, 0, 0, 0, 0], 0, 0⟩

/-! ### Cooper, power states and pins -/

/-- Cooper beyond COOP (R463–R470): the next memory slice and the root time its pass began, the next shared-buffer slice
and the start of its pass, the cells of that slice already tested, the spare rows and columns used of each memory,
references dropped, no two references agreeing, FET temperatures reading TJ_MAX, and the scrub's next word. -/
structure CoopState where
  slice : Nat
  sliceAt : Nat
  cells : Nat
  cellsAt : Nat
  cellsDone : List Nat
  used : KMap (Nat × Nat)
  dropped : List Nat
  noRefs : Bool
  held : Bool
  scrub : Nat
deriving DecidableEq, Repr

/-- Cooper at power-up. -/
def CoopState.reset : CoopState := ⟨0, 0, 0, 0, [], [], [], false, false, 0⟩

/-- Supply and power states (R474–R490): no supply, a rail out of tolerance, retention, an STP sent in the entry in
progress, a wake event to serve when entry completes, a hub reset asked for, the root time of the last reset's start, the
address of a capture in progress, and the log entries that wait for the wake (R488). -/
structure PowerState where
  dark : Bool
  rail : Bool
  steep : Bool
  stp : Bool
  wake : Option Nat
  reset : Bool
  since : Nat
  capture : Option Nat
  slept : List Rec
deriving DecidableEq, Repr

/-- Supplied and running. -/
def PowerState.running : PowerState := ⟨false, false, false, false, none, false, 0, none, []⟩

/-- The test access port (R508): instruction, boundary register, the balls driven from it, balls in high impedance, the
64-bit data register of DEBUG_ACCESS, the port whose service accessory opened the session (none: JTAG), and the bypass
register. -/
structure JtagState where
  ir : Nat
  boundary : List Bool
  drive : Option (List Bool)
  hiz : Bool
  dr : Nat
  by_ : Option Port
  bypass : Bool
deriving DecidableEq, Repr

/-- The TAP after its reset: IDCODE selected. -/
def JtagState.reset : JtagState := ⟨0x02, [], none, false, 0, none, false⟩

/-- Groups of balls with a reset state of their own (R495). -/
inductive BallGroup where
  | smitar
  | lvds
  | ethSerdes
  | ethTxdis
  | usbData
  | vbusEn
  | emmcClk
  | emmcCmdDat
  | emmcDs
  | emmcRst
  | serTxd
  | serRxd
  | serRts
  | serCts
  | evo
  | alert
  | tckTrst
  | tmsTdi
  | tdo
deriving DecidableEq, Repr

/-- What a ball shows with no logic behind it (R495). -/
inductive BallState where
  | idle
  | highZ
  | low
  | high
  | pullUp
  | pullDown
deriving DecidableEq, Repr

/-- The reset states of the core die's balls (R495). -/
def resetBalls : List (BallGroup × BallState) :=
  [(.smitar, .idle), (.lvds, .highZ), (.ethSerdes, .idle), (.ethTxdis, .highZ), (.usbData, .highZ), (.vbusEn, .low),
   (.emmcClk, .low), (.emmcCmdDat, .pullUp), (.emmcDs, .pullDown), (.emmcRst, .low), (.serTxd, .high), (.serRxd, .pullUp),
   (.serRts, .low), (.serCts, .pullUp), (.evo, .pullDown), (.alert, .highZ), (.tckTrst, .pullDown), (.tmsTdi, .pullUp),
   (.tdo, .highZ)]

/-- A Power Delivery message the hub sends (R406). -/
inductive PdMsg where
  | sourceCaps (pdos : List Pdo) (epr : Bool)
  | eprSourceCaps (pdos : List Pdo)
  | sinkCaps (pdos : List Pdo)
  | request (p : Pdo)
  | eprRequest (p : Pdo)
  | accept
  | reject
  | wait
  | psRdy
  | softReset
  | hardReset
  | prSwap
  | eprMode (action : Nat)
  | eprKeepAlive
  | eprKeepAliveAck
  | notSupported
  | discoverIdentity
deriving DecidableEq, Repr

/-! ### What leaves the hub -/

/-- What the hub puts on its wires and balls, recorded newest first. The record is the model's own
(assumption 104, DESIGN CHOICE). -/
inductive Tx where
  /-- a packet on a link port -/
  | packet (port : Port) (p : Packet)
  /-- a packet ended with K30.7 on a link port (R71) -/
  | poison (port : Port) (p : Packet)
  /-- a link-control word (R80) -/
  | lc (port : Port) (w : Word)
  /-- an ordered set (R48) -/
  | oset (port : Port) (o : OSet)
  /-- an alignment marker and a skip column (R38) -/
  | marker (port : Port)
  /-- a time marker with its value (R122) -/
  | time (port : Port) (value : Nat)
  /-- electrical idle on every lane of a port -/
  | idle (port : Port)
  /-- the CAL pattern on a lane (R47) -/
  | cal (port : Port) (lane : Nat)
  /-- columns of a loopback's pattern, the same byte on every lane (R58), and a column's symbols as a far loop sends them
  back (R59) -/
  | pattern (port : Port) (cols : List Byte)
  | loopback (port : Port) (syms : List Sym)
  /-- a wake tone (R489) -/
  | tone (port : Port)
  /-- a triggered output's ball (R137) -/
  | evo (n : Nat) (level : Bool)
  /-- one line of a display link: head, link B, line, and 35 bits of each pixel period: pair p, slot s at bit 7p + s − 1,
  the clock pair as pair 4 (R295) -/
  | lvds (head : Nat) (linkB : Bool) (line : Nat) (pixels : List Nat)
  /-- what a display link's pairs show from now on, until a line (R296): head, link B, whether the clock pair runs with DE
  inactive, or else every pair is high-impedance -/
  | lvdsRest (head : Nat) (linkB : Bool) (clock : Bool)
  /-- an Ethernet frame with its FCS, or the error code-group that cuts one off (R307) -/
  | eth (port : Nat) (frame : List Byte)
  | ethCut (port : Nat)
  /-- an Ethernet port's TX_DISABLE ball; whether its transmitter is at electrical idle (R304); the Clause 37 base page that
  it advertises (R305) -/
  | ethTxdis (port : Nat) (disable : Bool)
  | ethIdle (port : Nat) (idle : Bool)
  | ethPage (port page : Nat)
  /-- a serial character by its bits in line order (R322), a break (R324), and TXD's return to idle within a character that
  is cut off (R330) -/
  | ser (chan : Nat) (bits : List Bool)
  | serBreak (chan : Nat)
  | serCut (chan : Nat)
  /-- a USB transaction: port, token (0 SETUP, 1 OUT, 2 IN, 3 PING), address, endpoint, data PID and data (R340) -/
  | usb (port token dev ep : Nat) (data1 : Bool) (data : List Byte)
  /-- SOF with its frame number, a keep-alive, reset signalling, KJ pairs, resume signalling (R345, R351, R352) -/
  | usbSof (port frame : Nat)
  | usbKeepAlive (port : Nat)
  | usbReset (port : Nat)
  | usbKj (port : Nat)
  | usbResume (port : Nat)
  /-- an eMMC command with its argument, and data written to the device (R356) -/
  | emmc (index : Nat) (arg : Word)
  | emmcData (data : List Byte)
  /-- a PD message on a port's CC line, and SinkTxNG on a source's Rp before a sequence that it starts (R406) -/
  | pd (port : Port) (m : PdMsg)
  | sinkTxNg (port : Port)
  /-- the VCAB a port drives as source, in 50 mV, 0 for its FET pair off (R405, R411) -/
  | vcab (port : Port) (volts : Nat)
  /-- TDO bits of a JTAG data register scanned out (R508) -/
  | tdo (bits : Nat)
  /-- balls take the states listed, until something else drives them (R495) -/
  | balls (states : List (BallGroup × BallState))
deriving DecidableEq, Repr

/-- The hub without its command queue. -/
structure Hub where
  /-- the root count in periods of 0.25 ns -/
  root : Nat
  /-- station time in 0.25 ns units: ticks and sub-tick (R121) -/
  stime : Nat
  regs : SMap Word
  /-- memory bytes by internal address: tun, common, shared-buffer free cells and the non-volatile store -/
  mem : SMap Byte
  /-- partner values of latched pairs, by the partner's address (R511) -/
  latch : SMap Word
  /-- free values taken so far -/
  free : Nat
  out : List Tx
  links : PerPort LinkPort
  rt : RouteState
  err : ErrState
  fab : FabState
  sch : SchState
  tm : TimeState
  tun : TunState
  acc : AccState
  sec : SecState
  dsp0 : DspHead
  dsp1 : DspHead
  eth : EthState
  ser : SMap SerChan
  usb : UsbState
  emmc : EmmcRun
  jrn : JrnState
  brg : BrgState
  cc : PerPort CcPort
  load : LoadState
  coop : CoopState
  pw : PowerState
  jtag : JtagState
deriving DecidableEq, Repr

/-- The hub at reset: every register at its reset value, nothing stored and nothing in progress (R480, R481)
(assumption 1, DESIGN CHOICE). -/
def Hub.reset : Hub :=
  { root := 0, stime := 0, regs := [], mem := [], latch := [], free := 0, out := [.balls resetBalls],
    links := ⟨.reset, .reset, .reset⟩, rt := .reset, err := .reset, fab := .reset, sch := .reset, tm := .reset,
    tun := .reset, acc := .reset, sec := .blank, dsp0 := .reset, dsp1 := .reset, eth := .reset, ser := [],
    usb := .reset, emmc := .none, jrn := .reset, brg := .reset, cc := ⟨.reset, .reset, .reset⟩, load := .reset,
    coop := .reset, pw := .running, jtag := .reset }

end Sys2Proof.Machine
end

