-- ==== Sys2Proof/Machine/Inputs.lean ====
section
/-! DEFINITION. What a command brings from outside as its operand: findings of tests, readings, line states, and how a
transaction ended. -/

namespace Sys2Proof.Machine

/-- What a CC line reads as after debounce: open, Rd, Ra, or Rp at level 1 Default USB, 2 1.5 A, 3 3.0 A. -/
inductive CcSense where
  | open_ | rd | ra | rp (level : Fin 4)
deriving DecidableEq, Repr

/-- The cable's answer to Discover Identity: rated 5 A, EPR-capable at 50 V; none where it does not answer (R407). -/
abbrev CableId := Option (Bool × Bool)

/-- What the diode on LOAD_TD_P and LOAD_TD_N gives: no reading in this microsecond, open or shorted, or a temperature in
0.125 °C. -/
inductive Diode where
  | none_ | broken | temp (t : Int)
deriving DecidableEq, Repr

/-- How far a commit of the journal had got as power was lost (R363): none was between its steps 1 and 3, or its last step
done was 1 (the tag) or 2 (the record line) (assumption 67, DEDUCED). -/
inductive CommitCut where
  | none_ | tag | record
deriving DecidableEq, Repr

/-- How a command ended on the bus: completion, or ERR 1 to 4 or 8. -/
inductive EmmcEnd where
  | ok | respTimeout | respCrc | dataTimeout | dataCrc | endBit
deriving DecidableEq, Repr

/-- What replaced a failing word or bit (R463): a spare row, a spare column, or nothing. -/
inductive Spare where
  | row | column | none_
deriving DecidableEq, Repr

/-- A failure that a test found: the failing bit 0–71, the word's place in the slice or cells, and the repair. -/
structure MemFail where
  bit : Fin 72
  word : Nat
  spare : Spare
deriving DecidableEq, Repr

/-- How a lane's check ended (R468): not granted before its 10 s were up, the loop passed, the loop failed, or given back
early. -/
inductive LaneCheck where
  | refused | passed | failed | givenBack
deriving DecidableEq, Repr

/-- What scrub finds in a word. -/
inductive ScrubRead where
  | clean | single | double
deriving DecidableEq, Repr

/-- Why a lane fails (R42). -/
inductive LaneFault where
  | lostLock
  | erasures
  | misaligned
  | idle
deriving DecidableEq, Repr

/-- A port's VCAB reading: voltage in 50 mV, current magnitude in 10 mA, and whether it flows into VCOM (R418). -/
structure VcabRead where
  volts : BitVec 12
  amps : Nat
  into : Bool
deriving DecidableEq, Repr

/-- One telemetry sample (R418, R428, R432, R509): the temperatures of the high-voltage die and of the core die in 0.125 °C,
VCOM, VOUT and the feeds E, W and LOCAL in 50 mV, the sense voltage in 10 µV, and the cable ports. -/
structure Telemetry where
  die : Int
  core : Int
  vcom : BitVec 12
  vout : BitVec 12
  feedE : BitVec 12
  feedW : BitVec 12
  feedL : BitVec 12
  sense : Nat
  cable : PerPort VcabRead
deriving DecidableEq, Repr

/-- What a device did with a transaction. -/
inductive UsbOutcome where
  /-- data taken, or data sent with their PID -/
  | ack (data : List Byte) (data1 : Bool)
  | nak
  | nyet
  | stall
  /-- a timeout, or a CRC or PID error -/
  | error
  | babble
deriving DecidableEq, Repr

/-- A failing word of a memory: its kind (0 shared buffer, 1 program, 2 data, 3 common, 4 structure), its address and
what repaired it. -/
structure MemFinding where
  mem : Fin 5
  addr : BitVec 25
  fail : MemFail
deriving DecidableEq, Repr

/-- What start-up finds (R404, R465): failing words, lanes whose loop fails, the three references' readings, protection
comparators that fail (of each cable port over-voltage, over-current, short and reverse current; of the fuse the fast
comparator and the UV and OV window), regulator monitors out of tolerance, VCOM below 9 V, and the CC reading of each cable
port where VCAB is present. -/
structure SelfTest where
  mems : List MemFinding
  lanes : PerPort (BitVec 5)
  refA : BitVec 16
  refB : BitVec 16
  refC : BitVec 16
  comps : PerPort (BitVec 4)
  fuseComp : BitVec 2
  monitors : Nat
  low : Bool
  cables : PerPort (Option (CcSense × CcSense))
deriving DecidableEq, Repr

end Sys2Proof.Machine
end

