-- ==== Sys2Proof/Syntax.lean ====
section
/-! DEFINITION. The commands: one constructor for each row of the opcode table, with the operands that the row's rule
leaves to whoever sends it. -/

namespace Sys2Proof

open Machine

/-- A command of the hub. -/
inductive Instr where
  /-- REGISTER_WRITE (R10): A write to a register that has no row of its own applies its enabled bytes under the
  access rules and ignores reserved encodings. -/
  | registerWrite (cls : Fin 6) (addr : BitVec 25) (be : BitVec 4) (value : Word)
  /-- LATCHED_PAIR_READ (R511): A read of a *_LO register returns the live low half and latches its partner registers
  for every initiator. -/
  | latchedPairRead (cls : Fin 6) (addr : BitVec 25)
  /-- RECEIVE_COLUMN (R41): A received column is checked per lane, erased symbols are marked, and a single erased lane
  is rebuilt from parity. -/
  | receiveColumn (p : Port) (c : Column)
  /-- SEND_ALIGNMENT_MARKER (R38): The transmitter sends an alignment marker and a skip column when its column count
  since the last pair runs out. -/
  | sendAlignmentMarker (p : Port)
  /-- LANE_FAILED (R42): A lane that loses lock, reaches 16 erasures in 1,024 columns, misaligns or goes idle is
  declared failed. -/
  | laneFailed (p : Port) (lane : Fin 5) (why : LaneFault)
  /-- NAR_RECEIVED (R67): An accepted NAR set caps the transmitter's layout, and the transmitter ends its packet and
  sends a WID set. -/
  | narReceived (p : Port) (mask : BitVec 5) (width : Nat)
  /-- WIDTH_SWITCH (R46): The transmitter switches to the layout announced by its WID set at the column that the set
  names. -/
  | widthSwitch (p : Port)
  /-- WID_RECEIVED (R49): The receiver follows the layout of an accepted WID set from the column it names. -/
  | widReceived (p : Port) (mask : BitVec 5) (width : Nat) (parShed : Bool)
  /-- DIRECTION_LOST (R43): A direction that cannot keep three usable lanes, or is uncorrectable for 1 µs, makes the
  port declare the link down. -/
  | directionLost (p : Port) (uncorrectable : Bool)
  /-- LINK_DOWN (R99): A port whose link goes down stops service, and wraps or discards its replay buffer and queued
  M, D and B packets. -/
  | linkDown (p : Port)
  /-- LANE_PROBE (R47): Every 10 s the hub probes each failed lane with a CAL pattern. -/
  | laneProbe (p : Port)
  /-- LANE_PROBE_PASS (R47): A probed lane that holds lock without erasure for 100 ms is returned to service by NAR
  and WID sets. -/
  | laneProbePass (p : Port) (lane : Fin 5)
  /-- ORDERED_SET_RECEIVED (R49): An ordered set with a matching CHECK is accepted and drives the training state
  machine of its type. -/
  | orderedSetReceived (p : Port) (set : RxSet)
  /-- LINK_ATTACH (R50): A debounced CC attach moves the port from DETECT_ATTACH to receiver detection. -/
  | linkAttach (p : Port)
  /-- RECEIVER_DETECTION (R50): Every 1 ms in DETECT_RX the port runs receiver detection on every pair and moves to
  LOCK when three pairs detect. -/
  | receiverDetection (p : Port) (pairs : BitVec 5)
  /-- TRAINING_TIMEOUT (R50): A training state whose timeout expires counts a failed bring-up, records its FAULT code
  and moves as the table states. -/
  | trainingTimeout (p : Port)
  /-- GEAR_STEP_REQUEST (R52): The leader requests one gear above the current one with TSG sets and the follower
  accepts or refuses. -/
  | gearStepRequest (p : Port)
  /-- GEAR_RATE_CHANGE (R52): After 16 more TSG sets both ends change rate during 1 µs of electrical idle and relock
  at the new gear. -/
  | gearRateChange (p : Port)
  /-- EQ_TRAIN_DONE (R52): When both ends have sent lane done for every lane, the port enters EQ_CHECK. -/
  | eqTrainDone (p : Port)
  /-- EQ_CHECK_DONE (R52): After 2^20 columns the results are exchanged and the port steps on, reaches ACTIVE, or
  falls back to the previous gear. -/
  | eqCheckDone (p : Port) (pass : Bool)
  /-- LINK_UP (R53): The port enters ACTIVE at its target gear, sets UP, resets link sequences and credits, and sends
  a link-up notice. -/
  | linkUp (p : Port)
  /-- LINK_DISABLE (R53): Writing LNKE_CTRL.ENABLE to 0 takes the port to DISABLED with every lane at electrical idle
  within 1 µs. -/
  | linkDisable (p : Port)
  /-- LINK_RETRAIN (R53): Writing LNKE_CTRL.RETRAIN drives 4 µs of idle and retrains the port from DETECT_RX at Gear
  1. -/
  | linkRetrain (p : Port)
  /-- LINK_DETACH (R53): A CC detach moves the port to DETECT_ATTACH in the same cycle from any state. -/
  | linkDetach (p : Port)
  /-- BACKOFF_EXPIRE (R54): After 100 ms in BACKOFF the port tries again from DETECT_RX. -/
  | backoffExpire (p : Port)
  /-- LOOPBACK_NEAR_END (R58): Writing a near-end LOOPBACK value takes the port out of service into a parallel or
  serial loop running LNKE_PATTERN. -/
  | loopbackNearEnd (p : Port) (serial : Bool)
  /-- LOOPBACK_FAR_END (R59): Writing far-end LOOPBACK sends 16 LPB sets and enters LOOP_FAR. -/
  | loopbackFarEnd (p : Port)
  /-- LPB_RECEIVED (R59): A partner accepts an LPB set and retransmits every received symbol, or answers with refusal
  sets. -/
  | lpbReceived (p : Port) (arg0 : Byte)
  /-- FAR_LOOP_REFUSED (R59): A refusal set or 100 µs without its own pattern ends the far-end request with FAULT 9.
  -/
  | farLoopRefused (p : Port)
  /-- LOOPBACK_END (R59): Writing LOOPBACK to 0b000 ends the loopback and returns both ends to DETECT_RX. -/
  | loopbackEnd (p : Port)
  /-- WITHDRAW_REQUEST (R60): Writing LNKE_WITHDRAW.REQ sends a WDR request, which the partner grants only at full
  width. -/
  | withdrawRequest (p : Port) (lane : BitVec 3)
  /-- WDR_RECEIVED (R60): A received WDR set grants, refuses, requests or returns a lane withdrawal. -/
  | wdrReceived (p : Port) (lane : Byte) (op : Byte)
  /-- WITHDRAW_RETURN (R60): Writing LNKE_WITHDRAW.RETURN announces the lane's return, and it re-enters service at the
  column of a WID set. -/
  | withdrawReturn (p : Port)
  /-- WITHDRAW_GIVE_BACK (R61): Another lane failing during a withdrawal gives the withdrawn lane back within 200 ns
  with its stored coefficients. -/
  | withdrawGiveBack (p : Port)
  /-- LULL_ENTRY (R62): A direction with nothing to send for LULL_IDLE µs sends a LUL set and idles every lane except
  L0 where the partner needs it. -/
  | lullEntry (p : Port)
  /-- LULL_EXIT (R63): Work to send enables the drivers, sends a TS1 burst and a WID set, and ends Lull within 5 µs.
  -/
  | lullExit (p : Port)
  /-- SHED_WAKE (R65): Queued data above SHED_WAKE cells returns the shed lanes within 48 columns plus 16 ns. -/
  | shedWake (p : Port)
  /-- SHED_IDLE_EXPIRE (R65): A queue that has stayed below SHED_WAKE for SHED_IDLE lets the direction shed again. -/
  | shedIdleExpire (p : Port)
  /-- PARITY_FORCED_BACK (R66): A P packet reaching a direction with a shed parity lane returns the lane, clears
  PAR_SHED_EN and sets P_SEEN. -/
  | parityForcedBack (p : Port)
  /-- LNKE_CLEAR_LANE_COUNTERS (R69): Writing LNKE_CNT_CLEAR bit 0 clears every lane counter at 0x0030–0x005C. -/
  | lnkeClearLaneCounters (p : Port)
  /-- LNKE_CLEAR_PACKET_COUNTERS (R104): Writing LNKE_CNT_CLEAR bit 1 clears the port's packet counters at
  0x0140–0x0178. -/
  | lnkeClearPacketCounters (p : Port)
  /-- LNKE_CLEAR_WINDOW_COUNTERS (R104): Writing LNKE_CNT_CLEAR bit 2 clears the hub-wide window counters at
  0x0204–0x0214. -/
  | lnkeClearWindowCounters
  /-- STP_RECEIVED (R53): A received STP set moves the port to PARTNER_STEEP and reports the link down. -/
  | stpReceived (p : Port) (gear : Byte)
  /-- PACKET_RECEIVED (R79): A packet received whole is classified by the receive checks and, if accepted, admitted
  and routed. -/
  | packetReceived (p : Port) (wire : Wire) (cut : Option Port)
  /-- NAK_REPEAT (R84): A receiver sends another NAK in the same gap when the expected packet has not arrived 2 µs
  after the last NAK. -/
  | nakRepeat (p : Port)
  /-- SEND_ACK (R82): The receiver sends an ACK within 0.5 µs of a good in-order packet, or at once after 16 such
  packets. -/
  | sendAck (p : Port)
  /-- ACK_RECEIVED (R82): An ACK frees every held packet up to the one it names. -/
  | ackReceived (p : Port) (lseq : BitVec 12)
  /-- NAK_RECEIVED (R85): A NAK frees packets up to the one named and replays every later held packet after the
  current packet. -/
  | nakReceived (p : Port) (lseq : BitVec 12)
  /-- LINK_CONTROL_ERROR (R80): A link-control word whose CHK fails or whose TYPE is unknown is ignored and counted.
  -/
  | linkControlError (p : Port) (word : Word)
  /-- REPLAY_TIMEOUT (R86): Held packets with no progress for REPLAY_TO are all replayed, and REPLAY_MAX such replays
  declare the link lost. -/
  | replayTimeout (p : Port)
  /-- CREDIT_RECEIVED (R90): A CREDIT word updates the class limit when it gives a sane avail, or is counted as a
  credit error. -/
  | creditReceived (p : Port) (cls : Cls) (cells : BitVec 16)
  /-- SEND_CREDIT (R89): A receiver sends a CREDIT for a class after 8 cells, after 1 µs with any release, or every 10
  µs. -/
  | sendCredit (p : Port) (cls : Cls)
  /-- ROUTE_ENTRY_WRITE (R101): A write of a route entry applies whole, and with HOLD and a changed port holds newly
  routed packets. -/
  | routeEntryWrite (entry : Fin 128) (value : Word)
  /-- ROUTE_HOLD_RELEASE (R102): Held packets are released once the old port has drained them and HOLD_TIME has
  passed. -/
  | routeHoldRelease (entry : Fin 128)
  /-- CLOCK_ACQUIRE (R115): TS1 on three lanes of a candidate moves the clock from FREE to ACQUIRE on that candidate.
  -/
  | clockAcquire (p : Port)
  /-- CLOCK_ENTER_RING (R513): A qualifying candidate moves the clock to RING, selecting the preferred candidate when
  it meets the exit condition. -/
  | clockEnterRing
  /-- ACQUIRE_TIMEOUT (R115): A followed port not UP 100 ms after entry to ACQUIRE returns the clock to FREE. -/
  | acquireTimeout
  /-- STEP_HOLD_ENTER (R115): The followed port starting a gear step freezes PLL control in STEP_HOLD. -/
  | stepHoldEnter
  /-- STEP_HOLD_RELOCK (R115): Relock at the new gear returns the clock to its previous mode. -/
  | stepHoldRelock
  /-- STEP_HOLD_OVERRUN (R115): STEP_HOLD lasting 0.6 ms without relock moves the clock to FREE and sets STEP_OVERRUN.
  -/
  | stepHoldOverrun
  /-- MONITOR_WINDOW_END (R114): At the end of each 10 µs window the monitor judges each candidate's count and updates
  or relearns the frequency memory. -/
  | monitorWindowEnd (w : Option Nat) (e : Option Nat)
  /-- MISSING_EDGES (R114): A candidate clock showing no edge for 80 ns fails its window at once. -/
  | missingEdges (p : Port)
  /-- CLOCK_SWITCH (R116): When the selected candidate fails and the other is qualified, the root moves to the other
  within 1 µs. -/
  | clockSwitch
  /-- HOLDOVER_ENTER (R117): With no qualified candidate the root moves to the corrected slow clock and ALERT_N is
  held low. -/
  | holdoverEnter
  /-- HOLDOVER_EXIT (R115): A candidate qualified continuously for 1 ms returns the clock from HOLDOVER to RING. -/
  | holdoverExit (w : Bool) (e : Bool)
  /-- CLOCK_REVERT (R118): A preferred candidate qualified for REVERT_TIME takes the root back and a revert notice is
  sent. -/
  | clockRevert
  /-- SLOW_CLOCK_MEASURE (R120): In RING the slow clock is measured and a first measurement outside 23.75–26.25 MHz
  logs an error. -/
  | slowClockMeasure (hz : BitVec 32)
  /-- TIME_MARKER_RECEIVED (R125): A received time marker is checked against the previous marker, forwarded, and on
  the selected candidate disciplines station time. -/
  | timeMarkerReceived (p : Port) (value : BitVec 64) (erased : Bool) (res : PerPort Nat)
  /-- MARKER_GAP (R125): 10 µs without an accepted marker on a port begins a gap and counts TIME_MARK_MISS. -/
  | markerGap (p : Port)
  /-- DELAY_CALIBRATION (R130): On entry to ACTIVE or exit from RESUME a port sends 64 probes 1 µs apart and sets its
  delay from the median. -/
  | delayCalibration (p : Port)
  /-- DELAY_PROBE_RECEIVED (R129): A DELAY_PROBE is consumed and answered within 10 µs with a DELAY_REPLY carrying
  TURN. -/
  | delayProbeReceived (p : Port)
  /-- DELAY_REPLY_RECEIVED (R129): A DELAY_REPLY is consumed and yields a delay sample. -/
  | delayReplyReceived (p : Port)
  /-- DELAY_PROBE_TIMEOUT (R129): A probe without a reply within 100 µs gives no sample. -/
  | delayProbeTimeout (p : Port) (probe : BitVec 16)
  /-- DELAY_RECHECK (R130): Every 1 s a port sends one probe and recalibrates after four checks that differ by more
  than 1 ns. -/
  | delayRecheck (p : Port)
  /-- CALIBRATION_RETRY (R130): A calibration with fewer than 32 good samples is repeated after 1 ms. -/
  | calibrationRetry (p : Port)
  /-- CAL_NOW (R141): Writing TIME_CTRL.CAL_NOW recalibrates the delay of every UP port. -/
  | calNow
  /-- EVI_LEVEL_CHANGE (R134): A new level sampled on an event input starts its filter, or counts a glitch if the
  level changes back first. -/
  | eviLevelChange (pin : Fin 32) (level : Bool)
  /-- EVI_FILTER_ACCEPT (R134): A level held for FILTER units is accepted and a selected edge makes a stamped record
  in the FIFO. -/
  | eviFilterAccept (pin : Fin 32)
  /-- EVI_PACKET_SEND (R136): A DIRECT event group sends waiting records as a DATA packet at 32 records or 1 µs after
  the oldest. -/
  | eviPacketSend
  /-- EVI_POP (R136): Writing TIME_EVI_POP removes the oldest record from the event FIFO. -/
  | eviPop
  /-- EVO_ARM (R138): Writing TIME_EVO_CTRL.ARM latches the schedule or refuses it, advancing past late edges. -/
  | evoArm (n : Fin 8)
  /-- EVO_STOP (R142): Writing MODE 0b00 or clearing TUN_OWN stops the schedule, ends any pulse and cancels queued
  transitions. -/
  | evoStop (n : Fin 8) (clearOwn : Bool)
  /-- EVO_EDGE (R137): At each computed edge time the output goes active for WIDTH ticks, unless gated in HOLDOVER. -/
  | evoEdge (n : Fin 8)
  /-- EVO_PULSE_END (R137): WIDTH ticks after its edge the output returns inactive. -/
  | evoPulseEnd (n : Fin 8)
  /-- CLK_COUNTER_CLEAR (R140): Writing CLK_CNT_CLEAR clears the switch and holdover counters. -/
  | clkCounterClear
  /-- TIME_CLEAR_MARKER_COUNTERS (R141): Writing TIME_CNT_CLEAR bit 0 clears the marker and calibration counters. -/
  | timeClearMarkerCounters
  /-- TIME_CLEAR_EVENT_COUNTERS (R141): Writing TIME_CNT_CLEAR bit 1 clears the event-input counters and every
  TIME_EVO_SKIP. -/
  | timeClearEventCounters
  /-- SWEEP_PASS (R159): Every sweep interval a pass visits every queue and discards expired head packets. -/
  | sweepPass
  /-- QUEUE_DUMP (R160): Writing FAB_QDUMP.GO empties the named queue at once, poisoning or cutting off a packet in
  flight. -/
  | queueDump (output : Fin 16) (queue : BitVec 14)
  /-- FAB_SPARGE_GO (R161): Writing FAB_SPARGE.GO starts a tunnel sparge, or is refused when one is busy. -/
  | fabSpargeGo (tid : BitVec 14)
  /-- SPARGE_BOUNDARY (R161): At its next packet boundary each output discards every queued packet of the sparged
  tunnel. -/
  | spargeBoundary (output : Fin 14)
  /-- SPARGE_COMPLETE (R161): When every output has passed its boundary BUSY clears, and any binding it implied stops
  pending. -/
  | spargeComplete
  /-- QUEUE_RESET (R163): A pointer mismatch or double-bit descriptor error resets one queue, discarding and counting
  its packets. -/
  | queueReset (output : Fin 14) (queue : BitVec 14)
  /-- FREE_LIST_REBUILD (R164): A free-list mismatch stops allocation and rebuilds both free lists, refusing arrivals
  meanwhile. -/
  | freeListRebuild
  /-- FREE_LIST_REBUILD_DONE (R164): The rebuild completes and allocation resumes. -/
  | freeListRebuildDone
  /-- FAB_COUNTER_CLEAR (R167): Writing FAB_CNT_CLEAR clears every FAB counter. -/
  | fabCounterClear
  /-- POL_COUNTER_CLEAR (R169): Writing POL_CNT_CLEAR clears every POL_DROP and POL_PASS. -/
  | polCounterClear
  /-- POLICER_CONFIG_WRITE (R155): A write to RATE, BURST or EN refills or fills the bucket and applies the new
  settings. -/
  | policerConfigWrite (tunnel : Fin 96) (reg : Fin 3) (value : Word)
  /-- SCHEDULER_SELECT (R174): At each packet boundary a scheduler serves the first eligible class step and the
  smallest start tag within it. -/
  | schedulerSelect (sched : Fin 4) (bad : Bool)
  /-- EPOCH_START (R180): Each 62,500 ticks a new epoch begins and oversubscription is counted. -/
  | epochStart
  /-- SCH_ARM (R181): Writing SCH_CTRL.ARM checks and arms a grant swap for the target epoch. -/
  | schArm
  /-- SCH_DISARM (R182): Writing SCH_CTRL.DISARM clears an armed swap. -/
  | schDisarm
  /-- GRANT_SWAP (R183): At the target epoch's first tick an armed hub exchanges every grant bank and PCAP, or misses
  the swap. -/
  | grantSwap
  /-- MISSED_SWAP_EVENT (R185): After a missed swap the hub sends its EVENT once quality and a route to the head
  return. -/
  | missedSwapEvent
  /-- SETTLE_END (R184): SCH_SETTLE ticks after a swap every D queue drops to its new UNITS. -/
  | settleEnd
  /-- QMON_SAMPLE (R188): Every 512 ticks every queue's depth and head-of-line delay are sampled. -/
  | qmonSample
  /-- QMON_MAX_MEAN_READ (R188): A read of a MAX or MEAN monitor returns its value and restarts it from the next
  sample. -/
  | qmonMaxMeanRead (depth : Bool) (mean : Bool)
  /-- SCH_COUNTER_CLEAR (R189): Writing SCH_CNT_CLEAR clears SCH_OVERSUB and SWAP_CNT. -/
  | schCounterClear
  /-- BIND_REQUEST (R203): Writing TUNC_BIND_REQ with GO checks the binding and applies it with an implied sparge, or
  refuses it. -/
  | bindRequest (tunnel : Fin 96) (binding : BitVec 18)
  /-- PITCH (R207): Writing TUNC_PITCH_CTRL with GO checks a pitch image and moves the context to LOADING, or refuses
  it. -/
  | pitch (tunnel : BitVec 7) (share : Bool)
  /-- PITCH_COMPLETE (R209): The pitch engine finishes copying and verification, records the measurement and starts
  the context, or empties it. -/
  | pitchComplete
  /-- CONTEXT_RESTART (R216): Within 1 µs of a trap with RESTART the tunnel is sparged and the context re-enters at
  its entry. -/
  | contextRestart (n : Fin 96)
  /-- WATCHDOG_EXPIRE (R202): A context out of WAIT for TUNC_WDOG µs without YIELD or HALT traps with WATCHDOG. -/
  | watchdogExpire (n : Fin 96)
  /-- CONTEXT_STOP (R217): Writing TUNC_STOP stops the context, releases its packets, frees its windows and leaves it
  EMPTY. -/
  | contextStop (tunnel : BitVec 7)
  /-- DOORBELL (R200): Writing TUNC_DOORBELL with RING latches the MAIL event of the named context. -/
  | doorbell (tunnel : BitVec 7)
  /-- CONTEXT_WAKE (R201): An event in a waiting context's mask makes it ready within 16 ns. -/
  | contextWake (n : Fin 96)
  /-- TUN_CHECKER_MISMATCH (R218): A tun's checker mismatch or an unrepairable memory fault starts takeover by the
  spare, or fails the tun. -/
  | tunCheckerMismatch (t : Fin 9)
  /-- TUNC_FORCE (R218): Writing TUNC_FORCE with GO forces a takeover of the named tun by the standby spare. -/
  | tuncForce (t : BitVec 4)
  /-- TAKEOVER_COMPLETE (R219): Tun 8 resumes every moved context in its previous state after the copy. -/
  | takeoverComplete
  /-- TUN_FAILED_NO_SPARE (R221): A tun failing with no spare available traps each of its contexts with TUN_FAIL. -/
  | tunFailedNoSpare (t : Fin 8)
  /-- ILLEGAL_INSTRUCTION (R226): Issuing an illegal word traps the context with ILLEGAL. -/
  | illegalInstruction (n : Fin 96)
  /-- NOP (R229): NOP does nothing for one cycle. -/
  | nop (n : Fin 96)
  /-- YIELD (R230): YIELD restarts the watchdog count and gives up issue until the tun's other ready contexts have
  issued. -/
  | yield (n : Fin 96)
  /-- HALT (R231): HALT moves the context to HALTED, keeping its windows. -/
  | halt (n : Fin 96)
  /-- TRAP (R231): TRAP raises a trap with cause TRAP and its code. -/
  | trap (n : Fin 96) (code : BitVec 12)
  /-- FENCE (R232): FENCE waits until earlier loads have returned and earlier stores are visible. -/
  | fence (n : Fin 96)
  /-- CSRR (R233): CSRR reads a context status register into gd. -/
  | csrr (n : Fin 96) (gd : Fin 16) (csr : BitVec 12)
  /-- CSRW (R233): CSRW writes ga to a writable context status register. -/
  | csrw (n : Fin 96) (csr : BitVec 12) (ga : Fin 16)
  /-- ADD (R234): ADD sets gd to ga plus gb, and with F sets Z, N, C and V. -/
  | add (n : Fin 96) (gd : Fin 16) (ga : Fin 16) (gb : Fin 16) (f : Bool)
  /-- SUB (R234): SUB sets gd to ga minus gb, and with F sets Z, N, C and V. -/
  | sub (n : Fin 96) (gd : Fin 16) (ga : Fin 16) (gb : Fin 16) (f : Bool)
  /-- ADC (R234): ADC sets gd to ga plus gb plus C. -/
  | adc (n : Fin 96) (gd : Fin 16) (ga : Fin 16) (gb : Fin 16) (f : Bool)
  /-- SBC (R234): SBC sets gd to ga minus gb minus 1 plus C. -/
  | sbc (n : Fin 96) (gd : Fin 16) (ga : Fin 16) (gb : Fin 16) (f : Bool)
  /-- AND (R234): AND sets gd to ga AND gb. -/
  | and (n : Fin 96) (gd : Fin 16) (ga : Fin 16) (gb : Fin 16) (f : Bool)
  /-- OR (R234): OR sets gd to ga OR gb. -/
  | or (n : Fin 96) (gd : Fin 16) (ga : Fin 16) (gb : Fin 16) (f : Bool)
  /-- XOR (R234): XOR sets gd to ga XOR gb. -/
  | xor (n : Fin 96) (gd : Fin 16) (ga : Fin 16) (gb : Fin 16) (f : Bool)
  /-- ANDN (R234): ANDN sets gd to ga AND NOT gb. -/
  | andn (n : Fin 96) (gd : Fin 16) (ga : Fin 16) (gb : Fin 16) (f : Bool)
  /-- SHL (R236): SHL shifts ga left by gb[4:0]. -/
  | shl (n : Fin 96) (gd : Fin 16) (ga : Fin 16) (gb : Fin 16) (f : Bool)
  /-- SHR (R236): SHR shifts ga right logically by gb[4:0]. -/
  | shr (n : Fin 96) (gd : Fin 16) (ga : Fin 16) (gb : Fin 16) (f : Bool)
  /-- SAR (R236): SAR shifts ga right arithmetically by gb[4:0]. -/
  | sar (n : Fin 96) (gd : Fin 16) (ga : Fin 16) (gb : Fin 16) (f : Bool)
  /-- ROR (R236): ROR rotates ga right by gb[4:0]. -/
  | ror (n : Fin 96) (gd : Fin 16) (ga : Fin 16) (gb : Fin 16) (f : Bool)
  /-- MUL (R234): MUL sets gd to the low 32 bits of ga times gb. -/
  | mul (n : Fin 96) (gd : Fin 16) (ga : Fin 16) (gb : Fin 16) (f : Bool)
  /-- MULHU (R234): MULHU sets gd to the high 32 bits of the unsigned product. -/
  | mulhu (n : Fin 96) (gd : Fin 16) (ga : Fin 16) (gb : Fin 16) (f : Bool)
  /-- MULHS (R234): MULHS sets gd to the high 32 bits of the signed product. -/
  | mulhs (n : Fin 96) (gd : Fin 16) (ga : Fin 16) (gb : Fin 16) (f : Bool)
  /-- MINU (R234): MINU sets gd to the unsigned smaller of ga and gb. -/
  | minu (n : Fin 96) (gd : Fin 16) (ga : Fin 16) (gb : Fin 16) (f : Bool)
  /-- MAXU (R234): MAXU sets gd to the unsigned larger of ga and gb. -/
  | maxu (n : Fin 96) (gd : Fin 16) (ga : Fin 16) (gb : Fin 16) (f : Bool)
  /-- MINS (R234): MINS sets gd to the signed smaller of ga and gb. -/
  | mins (n : Fin 96) (gd : Fin 16) (ga : Fin 16) (gb : Fin 16) (f : Bool)
  /-- MAXS (R234): MAXS sets gd to the signed larger of ga and gb. -/
  | maxs (n : Fin 96) (gd : Fin 16) (ga : Fin 16) (gb : Fin 16) (f : Bool)
  /-- CLZ (R234): CLZ sets gd to the count of leading zeros of ga. -/
  | clz (n : Fin 96) (gd : Fin 16) (ga : Fin 16) (f : Bool)
  /-- POPC (R234): POPC sets gd to the number of 1 bits in ga. -/
  | popc (n : Fin 96) (gd : Fin 16) (ga : Fin 16) (f : Bool)
  /-- BSWAP (R234): BSWAP sets gd to ga with its bytes reversed. -/
  | bswap (n : Fin 96) (gd : Fin 16) (ga : Fin 16) (f : Bool)
  /-- ADDI (R237): ADDI sets gd to ga plus the sign-extended immediate. -/
  | addi (n : Fin 96) (gd : Fin 16) (ga : Fin 16) (imm : BitVec 18)
  /-- ANDI (R237): ANDI sets gd to ga AND the sign-extended immediate. -/
  | andi (n : Fin 96) (gd : Fin 16) (ga : Fin 16) (imm : BitVec 18)
  /-- ORI (R237): ORI sets gd to ga OR the zero-extended immediate. -/
  | ori (n : Fin 96) (gd : Fin 16) (ga : Fin 16) (imm : BitVec 18)
  /-- XORI (R237): XORI sets gd to ga XOR the zero-extended immediate. -/
  | xori (n : Fin 96) (gd : Fin 16) (ga : Fin 16) (imm : BitVec 18)
  /-- MOVHI (R238): MOVHI sets gd to the immediate shifted left by 14. -/
  | movhi (n : Fin 96) (gd : Fin 16) (imm : BitVec 18)
  /-- SHLI (R239): SHLI shifts ga left by a constant. -/
  | shli (n : Fin 96) (gd : Fin 16) (ga : Fin 16) (k : Fin 32)
  /-- SHRI (R239): SHRI shifts ga right logically by a constant. -/
  | shri (n : Fin 96) (gd : Fin 16) (ga : Fin 16) (k : Fin 32)
  /-- SARI (R239): SARI shifts ga right arithmetically by a constant. -/
  | sari (n : Fin 96) (gd : Fin 16) (ga : Fin 16) (k : Fin 32)
  /-- RORI (R239): RORI rotates ga right by a constant. -/
  | rori (n : Fin 96) (gd : Fin 16) (ga : Fin 16) (k : Fin 32)
  /-- CMP (R240): CMP sets the flags as SUB.F of ga and gb. -/
  | cmp (n : Fin 96) (ga : Fin 16) (gb : Fin 16)
  /-- CMPI (R240): CMPI sets the flags as SUB.F of ga and the immediate. -/
  | cmpi (n : Fin 96) (ga : Fin 16) (imm : BitVec 18)
  /-- TST (R240): TST sets Z and N as AND.F of ga and gb. -/
  | tst (n : Fin 96) (ga : Fin 16) (gb : Fin 16)
  /-- TSTI (R240): TSTI sets Z and N as AND.F of ga and the immediate. -/
  | tsti (n : Fin 96) (ga : Fin 16) (imm : BitVec 18)
  /-- LDW (R241): LDW loads a word from the effective address into gd. -/
  | ldw (n : Fin 96) (gd : Fin 16) (ga : Fin 16) (imm : BitVec 18)
  /-- LDH (R241): LDH loads a zero-extended half-word. -/
  | ldh (n : Fin 96) (gd : Fin 16) (ga : Fin 16) (imm : BitVec 18)
  /-- LDB (R241): LDB loads a zero-extended byte. -/
  | ldb (n : Fin 96) (gd : Fin 16) (ga : Fin 16) (imm : BitVec 18)
  /-- STW (R241): STW stores gd as a word at the effective address. -/
  | stw (n : Fin 96) (gd : Fin 16) (ga : Fin 16) (imm : BitVec 18)
  /-- STH (R241): STH stores gd[15:0] at the effective address. -/
  | sth (n : Fin 96) (gd : Fin 16) (ga : Fin 16) (imm : BitVec 18)
  /-- STB (R241): STB stores gd[7:0] at the effective address. -/
  | stb (n : Fin 96) (gd : Fin 16) (ga : Fin 16) (imm : BitVec 18)
  /-- B (R245): B branches to PC plus the offset when its condition holds. -/
  | b (n : Fin 96) (cond : BitVec 4) (off : BitVec 22)
  /-- CALL (R245): CALL branches on its condition and writes PC plus 1 into g15. -/
  | call (n : Fin 96) (cond : BitVec 4) (off : BitVec 22)
  /-- JR (R246): JR jumps to the index in ga when its condition holds, optionally linking g15. -/
  | jr (n : Fin 96) (cond : BitVec 4) (ga : Fin 16) (link : Bool)
  /-- PGET (R255): PGET moves the head packet of the output-13 queue or the endpoint into a descriptor register. -/
  | pget (n : Fin 96) (dd : Fin 4) (gd : Fin 16) (endpoint : Bool)
  /-- PHDR (R256): PHDR reads a header field of a held packet into gd. -/
  | phdr (n : Fin 96) (gd : Fin 16) (dd : Fin 4) (field : BitVec 12)
  /-- PSETH (R256): PSETH writes a writable header field of a held packet. -/
  | pseth (n : Fin 96) (dd : Fin 4) (field : BitVec 12) (ga : Fin 16)
  /-- PLD (R257): PLD loads a payload word, half-word or byte into gd. -/
  | pld (n : Fin 96) (gd : Fin 16) (dd : Fin 4) (ga : Fin 16) (imm : BitVec 12) (width : BitVec 4)
  /-- PST (R257): PST stores gd's low bytes into the payload. -/
  | pst (n : Fin 96) (gd : Fin 16) (dd : Fin 4) (ga : Fin 16) (imm : BitVec 12) (width : BitVec 4)
  /-- PEMIT_FABRIC (R261): PEMIT with sub 0 sets the header and sends the held packet into the fabric through policing
  and admission. -/
  | pemitFabric (n : Fin 96) (dd : Fin 4) (gd : Fin 16) (keep : Bool)
  /-- PEMIT_ENDPOINT (R261): PEMIT with sub 1 hands the held packet to the bound endpoint. -/
  | pemitEndpoint (n : Fin 96) (dd : Fin 4) (gd : Fin 16) (keep : Bool)
  /-- PDROP (R263): PDROP releases the held packet without counting it. -/
  | pdrop (n : Fin 96) (dd : Fin 4)
  /-- PCOPY_TO_MEMORY (R258): PCOPY with sub 0 copies payload bytes to memory. -/
  | pcopyToMemory (n : Fin 96) (dd : Fin 4) (gd : Fin 16) (ga : Fin 16) (bytes : BitVec 12)
  /-- PCOPY_FROM_MEMORY (R258): PCOPY with sub 1 copies memory bytes into the payload. -/
  | pcopyFromMemory (n : Fin 96) (dd : Fin 4) (gd : Fin 16) (ga : Fin 16) (bytes : BitVec 12)
  /-- PSPLIT (R260): PSPLIT cuts a held packet's payload and moves the rest into another register. -/
  | psplit (n : Fin 96) (dd : Fin 4) (gd : Fin 16) (ga : Fin 16) (dt : Fin 4)
  /-- PJOIN (R260): PJOIN appends one held packet's payload to another and releases the source. -/
  | pjoin (n : Fin 96) (dd : Fin 4) (gd : Fin 16) (ds : Fin 4)
  /-- PNEW (R259): PNEW takes zeroed cells and a descriptor for a new packet in a register. -/
  | pnew (n : Fin 96) (dd : Fin 4) (gd : Fin 16) (words : BitVec 12)
  /-- QDEPTH (R265): QDEPTH returns a queue depth, head-of-line delay or free-cell count. -/
  | qdepth (n : Fin 96) (gd : Fin 16) (ga : Fin 16) (sel : Fin 4) (out : Fin 4)
  /-- SPARGE (R266): SPARGE requests a sparge of a tunnel ID as FAB_SPARGE does. -/
  | sparge (n : Fin 96) (gd : Fin 16) (ga : Fin 16)
  /-- WAIT (R267): WAIT completes at once on a masked event or puts the context in WAITING, returning and clearing
  latched bits. -/
  | wait (n : Fin 96) (gd : Fin 16) (mask : BitVec 9)
  /-- TNOW_SAMPLE (R269): TNOW part 0 samples station time with sub-tick and quality and returns bits [31:0]. -/
  | tnowSample (n : Fin 96) (gd : Fin 16)
  /-- TNOW_PART (R269): TNOW parts 1 and 2 return the high bits or status of the context's last sample. -/
  | tnowPart (n : Fin 96) (gd : Fin 16) (part : BitVec 18)
  /-- TSTAMP (R270): TSTAMP returns the age of a short stamp or the high bits of its rebuilt full time. -/
  | tstamp (n : Fin 96) (gd : Fin 16) (ga : Fin 16) (part : BitVec 18)
  /-- TARM_AT (R271): TARM mode 0 arms the context timer for a short stamp. -/
  | tarmAt (n : Fin 96) (gd : Fin 16) (ga : Fin 16)
  /-- TARM_AFTER (R271): TARM mode 1 arms the context timer for ga ticks from now. -/
  | tarmAfter (n : Fin 96) (gd : Fin 16) (ga : Fin 16)
  /-- TARM_CANCEL (R271): TARM mode 2 cancels the context timer. -/
  | tarmCancel (n : Fin 96) (gd : Fin 16)
  /-- TARM_OUTPUT (R272): TARM mode 3 arms a triggered output from a parameter block. -/
  | tarmOutput (n : Fin 96) (gd : Fin 16) (ga : Fin 16) (output : Fin 8)
  /-- CONTEXT_TIMER_FIRE (R271): The context timer reaching its target sets TIMER. -/
  | contextTimerFire (n : Fin 96)
  /-- OUTAT (R273): OUTAT queues an active or inactive transition on a triggered output at a short stamp. -/
  | outat (n : Fin 96) (gd : Fin 16) (ga : Fin 16) (output : Fin 8) (active : Bool)
  /-- OUTAT_CANCEL (R273): OUTAT with action 0b10 cancels all queued transitions of an output. -/
  | outatCancel (n : Fin 96) (gd : Fin 16) (output : Fin 8)
  /-- OUTAT_TRANSITION (R273): A queued transition takes effect at the ball at its time. -/
  | outatTransition (output : Fin 8)
  /-- GSTAGE (R275): GSTAGE writes a staged grant entry as a register write. -/
  | gstage (n : Fin 96) (gd : Fin 16) (ga : Fin 16) (sched : Fin 4) (entry : Fin 128)
  /-- GARM (R276): GARM writes SCH_ARM_EPOCH and arms asynchronously, reporting the result in its block. -/
  | garm (n : Fin 96) (gd : Fin 16) (ga : Fin 16)
  /-- GARM_DISARM (R276): GARM with imm18[0] set disarms as SCH_CTRL.DISARM does. -/
  | garmDisarm (n : Fin 96) (gd : Fin 16)
  /-- POLSET (R277): POLSET writes the context's own policer from a block. -/
  | polset (n : Fin 96) (gd : Fin 16) (ga : Fin 16)
  /-- TAP (R280): TAP unwraps a keg into a key slot and delivers the key to one engine asynchronously. -/
  | tap (n : Fin 96) (gd : Fin 16) (ga : Fin 16)
  /-- SEAL_GCM_SEAL (R281): SEAL OP 0 encrypts with AES-256-GCM and appends the tag. -/
  | sealGcmSeal (n : Fin 96) (gd : Fin 16) (ga : Fin 16)
  /-- SEAL_GCM_OPEN (R281): SEAL OP 1 decrypts with AES-256-GCM and checks the tag. -/
  | sealGcmOpen (n : Fin 96) (gd : Fin 16) (ga : Fin 16)
  /-- SEAL_HMAC (R281): SEAL OP 2 computes an HMAC-SHA-384 with the journal sealer's slot. -/
  | sealHmac (n : Fin 96) (gd : Fin 16) (ga : Fin 16)
  /-- SEAL_XTS (R281): SEAL OP 3 encrypts or decrypts sectors with AES-256-XTS. -/
  | sealXts (n : Fin 96) (gd : Fin 16) (ga : Fin 16)
  /-- JREC (R282): JREC queues one journal record for commit. -/
  | jrec (n : Fin 96) (gd : Fin 16) (ga : Fin 16)
  /-- ASYNC_OPERATION_DONE (R278): An engine finishing GARM, TAP, SEAL or JREC writes the result word and sets DONE
  within 16 ns. -/
  | asyncOperationDone (kind : AsyncKind)
  /-- DISPLAY_ENABLE (R291): Writing DSP CTRL.EN from 0 to 1 checks the timing and schedules frame 0, or refuses. -/
  | displayEnable (d : Fin 2)
  /-- DISPLAY_DISABLE (R292): Writing EN to 0 stops the scan at the end of the line and empties both FIFOs. -/
  | displayDisable (d : Fin 2)
  /-- FRAME_START (R293): At each frame start the layer registers are latched and checked, FRAME_CNT increments, and
  fallback is entered or left. -/
  | frameStart (d : Fin 2)
  /-- LINE_SCAN (R289): At the first pixel of a layer line the layer scans its FIFO head line, discards late lines, or
  underruns. -/
  | lineScan (d : Fin 2) (layer : Fin 2) (bad : Option Nat)
  /-- FRAME_END (R298): A frame that scanned without underrun is recorded as a flip and its capture becomes the hold
  bank. -/
  | frameEnd (d : Fin 2) (bad : Option Nat)
  /-- DISPLAY_SEGMENT_RECEIVED (R287): A DATA packet for a base or main layer enters the line FIFO or is discarded and
  counted. -/
  | displaySegmentReceived (d : Fin 2) (layer : Fin 2)
  /-- BANNER_PACKET_RECEIVED (R294): A DATA packet on the banner tunnel writes its payload into the bitmap. -/
  | bannerPacketReceived (d : Fin 2)
  /-- DSP_COUNTER_CLEAR (R303): Writing DSPx_CNT_CLEAR clears the underrun, drop and fallback counters. -/
  | dspCounterClear (d : Fin 2)
  /-- ETH_FRAME_RECEIVED (R308): A complete received frame is checked and classified into a set, PTP or discard. -/
  | ethFrameReceived (x : Fin 4) (frame : List Byte) (code : Bool) (ago : Fin 8)
  /-- ETH_SEGMENT_RECEIVED (R312): A segment at an Ethernet output is reassembled per set and source, or the partial
  frame is discarded. -/
  | ethSegmentReceived (x : Fin 4) (set : Fin 8)
  /-- ETH_REASSEMBLY_TIMEOUT (R312): A partial frame that has waited 1 ms is discarded and counted. -/
  | ethReassemblyTimeout (x : Fin 4) (set : Fin 8) (src : Fin 128)
  /-- ETH_FRAME_TRANSMIT (R313): A completed frame is tagged, padded, given an FCS and sent when the wire is free. -/
  | ethFrameTransmit (x : Fin 4)
  /-- ETH_LINK_UP (R306): A synchronised port reaches UP on auto-negotiation completion or after 10 ms, and a notice
  is queued. -/
  | ethLinkUp (x : Fin 4) (page : BitVec 16)
  /-- ETH_LINK_DOWN (R306): Loss of synchronisation or LOS takes the port DOWN, counts it and queues a notice. -/
  | ethLinkDown (x : Fin 4) (los : Bool)
  /-- ETH_MODE_CHANGE (R307): A write changing MODE or AN_EN takes the link DOWN at once, truncating a frame on the
  wire. -/
  | ethModeChange (x : Fin 4) (mode : BitVec 2) (an : Bool)
  /-- ETH_AN_RESTART (R307): Writing AN_RESTART takes the link DOWN and restarts it. -/
  | ethAnRestart (x : Fin 4)
  /-- ETH_COUNTER_CLEAR (R319): Writing ETHx_CNT_CLEAR clears the port's counters. -/
  | ethCounterClear (x : Fin 4)
  /-- PTP_MESSAGE_RECEIVED (R314): A PTP frame is counted as foreign, answered, or discarded by the master-only port.
  -/
  | ptpMessageReceived (x : Fin 4)
  /-- PTP_SYNC_SEND (R317): At each Sync interval a MASTER port sends a Sync, and a Follow_Up when two-step. -/
  | ptpSyncSend (x : Fin 4)
  /-- PTP_ANNOUNCE_SEND (R316): At each Announce interval a MASTER port sends an Announce from the PTP_GM registers.
  -/
  | ptpAnnounceSend (x : Fin 4)
  /-- PTP_PDELAY_REQ_SEND (R317): At each Pdelay interval a port sends its own Pdelay_Req and updates meanLinkDelay.
  -/
  | ptpPdelayReqSend (x : Fin 4)
  /-- PTP_ORIGIN_APPLY (R315): Writing PTP_CTRL.APPLY makes the staged origin active at the next message boundary. -/
  | ptpOriginApply (inMessage : Bool)
  /-- PTP_COUNTER_CLEAR (R320): Writing PTP_CNT_CLEAR clears every port counter. -/
  | ptpCounterClear
  /-- SER_CHARACTER_RECEIVED (R323): A received character is stored, overrun, flagged or treated as a break, closing
  the packet when full. -/
  | serCharacterReceived (c : Fin 8) (levels : Byte) (par : Bool) (stop : Bool)
  /-- SER_GAP_TIMEOUT (R325): GAP bit times after the last stop bit the receive packet closes. -/
  | serGapTimeout (c : Fin 8)
  /-- SER_RX_BANK_SEND (R326): A closed receive bank is handed over and sent to SER_DEST or taken by the context. -/
  | serRxBankSend (c : Fin 8)
  /-- SER_TX_PACKET (R326): A transmit packet enters a free bank of its channel or is discarded as malformed. -/
  | serTxPacket (tunnel : Fin 96)
  /-- SER_CHARACTER_TRANSMIT (R322): The transmitter sends the next character of its bank when the line and CTS
  permit. -/
  | serCharacterTransmit (c : Fin 8)
  /-- SER_DE_FALL (R329): TRAIL bit times after the last stop bit the RS-485 driver enable falls. -/
  | serDeFall (c : Fin 8)
  /-- SER_CTS_CHANGE (R328): A change of the CTS ball stops or permits the start of characters. -/
  | serCtsChange (c : Fin 8) (active : Bool)
  /-- SER_DUMP_RX (R330): Writing SER_FLUSH.DUMP_RX empties both receive banks. -/
  | serDumpRx (c : Fin 8)
  /-- SER_DUMP_TX (R330): Writing SER_FLUSH.DUMP_TX empties both transmit banks and cuts off a character on the line.
  -/
  | serDumpTx (c : Fin 8)
  /-- SER_COUNTER_CLEAR (R333): Writing SER_CNT_CLEAR clears every channel counter. -/
  | serCounterClear
  /-- USB_SSPLIT (R342): A start-split record is accepted onto its handle, answered at once, or halts its tunnel. -/
  | usbSsplit (p : Fin 4) (k : Fin 3)
  /-- USB_CSPLIT (R338): A complete-split record is answered with a RESULT, collecting a final result or NYET or
  NOTFOUND. -/
  | usbCsplit (p : Fin 4) (k : Fin 3)
  /-- USB_ABORT (R342): An ABORT cancels its handle, clears a tunnel halt and is answered ABORTED. -/
  | usbAbort (p : Fin 4) (k : Fin 3)
  /-- USB_TRANSACTION (R340): The port executes the next scheduled split transaction on its bus and records its
  outcome. -/
  | usbTransaction (p : Fin 4) (outcome : UsbOutcome)
  /-- USB_RESULT_EXPIRE (R338): A final result not collected within HOLD_UF microframes is discarded and frees its
  handle. -/
  | usbResultExpire (p : Fin 4) (k : Fin 3) (handle : Fin 16)
  /-- USB_MICROFRAME (R351): Each microframe boundary advances the index and sends SOF or keep-alive to each enabled
  port. -/
  | usbMicroframe
  /-- USB_SOF_ENABLE (R351): Writing SOF_EN from 0 to 1 aligns the microframe count to BASE and BASE_UF. -/
  | usbSofEnable
  /-- USB_HUB_DISABLE (R354): Writing USBH_CTRL.EN to 0 powers off every port and ends occupied splits with RESET. -/
  | usbHubDisable
  /-- USB_PORT_POWER_ON (R343): Setting PORT_POWER raises VBUS_EN and moves the port toward DISCONNECTED. -/
  | usbPortPowerOn (p : Fin 4)
  /-- USB_PORT_POWER_GOOD (R343): 100 ms after power on the port enters DISCONNECTED. -/
  | usbPortPowerGood (p : Fin 4)
  /-- USB_PORT_POWER_OFF (R343): Clearing PORT_POWER drops VBUS_EN and moves the port to POWERED_OFF. -/
  | usbPortPowerOff (p : Fin 4)
  /-- USB_PORT_RESET (R345): Setting PORT_RESET on a DISABLED or ENABLED port drives bus reset. -/
  | usbPortReset (p : Fin 4)
  /-- USB_RESET_COMPLETE (R345): After RESET_MS the port ends reset at its detected speed, enters ENABLED and sets
  C_RESET. -/
  | usbResetComplete (p : Fin 4)
  /-- USB_CHIRP_DETECTED (R345): A device chirp during reset is answered with KJ pairs and selects high speed. -/
  | usbChirpDetected (p : Fin 4)
  /-- USB_PORT_DISABLE (R343): Clearing PORT_ENABLE moves an ENABLED port to DISABLED. -/
  | usbPortDisable (p : Fin 4)
  /-- USB_PORT_SUSPEND (R352): Setting PORT_SUSPEND stops SOFs at the next boundary and enters SUSPENDED. -/
  | usbPortSuspend (p : Fin 4)
  /-- USB_PORT_RESUME (R352): Clearing PORT_SUSPEND starts 20 ms of resume signalling. -/
  | usbPortResume (p : Fin 4)
  /-- USB_RESUME_COMPLETE (R352): Resume signalling ends with an EOP, the port enters ENABLED and C_SUSPEND is set. -/
  | usbResumeComplete (p : Fin 4)
  /-- USB_REMOTE_WAKE (R352): A device K on a suspended port sets WAKE_SEEN and starts a resume. -/
  | usbRemoteWake (p : Fin 4)
  /-- USB_CONNECT (R343): A detected pull-up on a DISCONNECTED port sets CONNECT and C_CONNECT and moves it to
  DISABLED. -/
  | usbConnect (p : Fin 4) (low : Bool)
  /-- USB_DISCONNECT (R343): A disconnect moves the port to DISCONNECTED and ends its occupied splits with RESET. -/
  | usbDisconnect (p : Fin 4)
  /-- USB_OVERCURRENT (R346): An over-current held through the 1 ms filter drops VBUS_EN and powers the port off. -/
  | usbOvercurrent (p : Fin 4)
  /-- USB_HUB_FUNCTION_RESET (R350): A USB reset of the hub function aborts endpoint 0's transfer and ends its
  occupied handles. -/
  | usbHubFunctionReset
  /-- USB_GET_DESCRIPTOR (R347): The hub function returns its device, configuration or hub descriptor. -/
  | usbGetDescriptor
  /-- USB_SET_CONFIGURATION (R347): The hub function accepts configuration value 1. -/
  | usbSetConfiguration
  /-- USB_GET_STATUS (R347): The hub function answers the standard GET_STATUS request. -/
  | usbGetStatus
  /-- USB_GET_HUB_STATUS (R347): GetHubStatus returns the hub's status. -/
  | usbGetHubStatus
  /-- USB_GET_PORT_STATUS (R347): GetPortStatus returns the state of USBH_PORT_STATUS. -/
  | usbGetPortStatus
  /-- USB_SET_PORT_FEATURE (R347): SetPortFeature applies PORT_POWER, PORT_RESET or PORT_SUSPEND. -/
  | usbSetPortFeature
  /-- USB_CLEAR_PORT_FEATURE (R347): ClearPortFeature clears PORT_POWER, PORT_ENABLE, PORT_SUSPEND or a change bit. -/
  | usbClearPortFeature
  /-- USB_CLEAR_TT_BUFFER (R347): ClearTTBuffer ends the port's occupied non-periodic splits with RESET. -/
  | usbClearTtBuffer
  /-- USB_RESET_TT (R347): ResetTT ends the port's occupied non-periodic splits with RESET. -/
  | usbResetTt
  /-- USB_UNSUPPORTED_REQUEST (R348): A request the hub function does not support is answered with a protocol stall.
  -/
  | usbUnsupportedRequest
  /-- USB_COUNTER_CLEAR (R354): Writing USBH_CNT_CLEAR clears every port counter. -/
  | usbCounterClear
  /-- EMMC_COMMAND (R356): Writing EMMC_CMD.GO issues one command, with data by adapter DMA, or sets ERR. -/
  | emmcCommand (index : BitVec 6) (resp : BitVec 2) (data : BitVec 2)
  /-- EMMC_COMMAND_DONE (R356): The command ends by completion or timeout and sets DONE with its ERR code. -/
  | emmcCommandDone (how : EmmcEnd) (resp : List Word) (data : List Byte) (dat0 : Bool)
  /-- EMMC_COUNTER_CLEAR (R371): Writing EMMC_CNT_CLEAR clears the CRC and timeout counters. -/
  | emmcCounterClear
  /-- JOURNAL_COMMIT (R363): At the next commit interval the journal writes a waiting record's tag, line and final tag
  and seals it. -/
  | journalCommit
  /-- WEAR_MOVE (R367): In a commit interval with no JREC waiting, a protected record ahead of the head is copied
  forward. -/
  | wearMove
  /-- JRN_UNPROTECT (R366): Writing JRN_UNPROTECT.GO clears PROTECT on the current copy of the named record. -/
  | jrnUnprotect (slot : BitVec 16)
  /-- JRN_STORE (R369): Writing JRN_STORE_CTRL.GO checks and stores an image into a program entry or panel-image bank.
  -/
  | jrnStore (target : BitVec 5) (tunnel : BitVec 7) (share : Bool)
  /-- JRN_ERASE (R369): Writing GO with ERASE erases the target entry. -/
  | jrnErase (target : BitVec 5)
  /-- JRN_STORE_DONE (R370): A store or erase completes, writing the descriptor or selector line and freeing old
  pages. -/
  | jrnStoreDone
  /-- JRN_COUNTER_CLEAR (R372): Writing JRN_CNT_CLEAR clears the lost, skipped and moves counters. -/
  | jrnCounterClear
  /-- BRIDGE_WRITE (R380): A WRITE from the head is checked per burst and applied with its byte enables, or reported
  as a failed posted write. -/
  | bridgeWrite
  /-- BRIDGE_READ (R381): A READ from the head is checked per burst and answered with completions in address order. -/
  | bridgeRead
  /-- BRIDGE_COMPLETION (R389): A COMPLETION from the head delivers read data to an outbound channel, or reports a
  failed hub write. -/
  | bridgeCompletion
  /-- OUTBOUND_START (R387): Writing BRG_OUT_CTRL.GO starts a copy between local memory and the head, or is refused.
  -/
  | outboundStart (chan : Fin 4) (len : BitVec 21) (dir : Bool)
  /-- OUTBOUND_REQUEST (R387): The outbound engine issues the channel's next READ or WRITE request when a tag is free.
  -/
  | outboundRequest (chan : Fin 4)
  /-- READ_RETRY (R389): RETRY_DELAY after a RETRY completion the hub re-issues the same READ. -/
  | readRetry (tag : Fin 512)
  /-- COMPLETION_TIMEOUT (R389): A tag without its last completion within CPL_TIMEOUT times out and ends its channel
  with ERROR. -/
  | completionTimeout (tag : Fin 512)
  /-- BRG_COUNTER_CLEAR (R398): Writing BRG_CNT_CLEAR clears the bridge counters. -/
  | brgCounterClear
  /-- ACC_DISABLE (R397): Writing ACC_CTRL.EN to 0 holds every checked access from the next check. -/
  | accDisable
  /-- ACC_ENABLE (R396): Writing EN from 0 to 1 releases held accesses and starts the table hash. -/
  | accEnable
  /-- ACC_HASH_READY (R396): The SHA-384 of the table is ready and HASH_VALID is set. -/
  | accHashReady
  /-- ACC_ENTRY_WRITE (R395): A write to a slot or region entry applies while EN is 0 and unlocked, or is ignored with
  BAD_WRITE. -/
  | accEntryWrite (entry : Fin 128) (value : Word)
  /-- ACC_LONG_HOLD (R397): EN held at 0 for 10 µs sets LONG_HOLD and logs an error. -/
  | accLongHold
  /-- ACC_COUNTER_CLEAR (R399): Writing ACC_CNT_CLEAR clears ACC_DENY_CNT. -/
  | accCounterClear
  /-- CC_ATTACH (R401): A debounced CC reading gives an attach outcome, sets the orientation and starts sourcing or
  sinking. -/
  | ccAttach (p : Port) (cc1 : CcSense) (cc2 : CcSense)
  /-- CC_DETACH (R402): A debounced detach removes VCAB and VCONN and reports detach to the link layer. -/
  | ccDetach (p : Port)
  /-- CC_TOGGLE (R403): An unattached dual-role port toggles its termination on the tDRP timer. -/
  | ccToggle (p : Port)
  /-- SOURCE_CAPABILITIES_SEND (R407): A source sends Source_Capabilities every tTypeCSendSourceCap until GoodCRC. -/
  | sourceCapabilitiesSend (p : Port) (goodCrc : Bool)
  /-- SOURCE_CAPABILITIES (R409): A sink receiving Source_Capabilities requests the highest permitted fixed PDO. -/
  | sourceCapabilities (p : Port) (pdos : List Pdo) (epr : Bool)
  /-- REQUEST (R407): A source receiving a Request accepts or rejects it and starts the voltage transition. -/
  | request (p : Port) (pdo : Pdo)
  /-- ACCEPT (R411): A received Accept starts waiting for PS_RDY or the swap sequence. -/
  | accept (p : Port)
  /-- REJECT (R406): A received Reject ends the pending request. -/
  | reject (p : Port)
  /-- WAIT_MESSAGE (R412): A received Wait abandons the pending request. -/
  | waitMessage (p : Port)
  /-- PS_RDY (R411): A received PS_RDY completes a contract or a swap step. -/
  | psRdy (p : Port)
  /-- GET_SOURCE_CAP (R406): A Get_Source_Cap is answered with the source capabilities. -/
  | getSourceCap (p : Port)
  /-- GET_SINK_CAP (R406): A Get_Sink_Cap is answered with Sink_Capabilities. -/
  | getSinkCap (p : Port)
  /-- SINK_CAPABILITIES (R406): A received Sink_Capabilities message is taken in. -/
  | sinkCapabilities (p : Port) (pdos : List Pdo)
  /-- SOFT_RESET (R406): A Soft_Reset restarts the PD message exchange. -/
  | softReset (p : Port)
  /-- HARD_RESET_RECEIVED (R414): A received Hard_Reset ends any swap and runs the hard-reset recovery. -/
  | hardResetReceived (p : Port)
  /-- PR_SWAP_RECEIVED (R412): A partner's PR_Swap is accepted when VCOM stays fed, and the swap sequence runs, or is
  rejected. -/
  | prSwapReceived (p : Port)
  /-- VCONN_SWAP (R406): A VCONN_Swap is accepted while VCONN_EN is 1. -/
  | vconnSwap (p : Port)
  /-- DR_SWAP (R406): A DR_Swap is answered Reject. -/
  | drSwap (p : Port)
  /-- EPR_MODE (R409): An EPR_Mode message enters or exits EPR mode. -/
  | eprMode (p : Port) (action : Byte)
  /-- EPR_SOURCE_CAPABILITIES (R409): A sink in EPR mode requests from received EPR source capabilities. -/
  | eprSourceCapabilities (p : Port) (pdos : List Pdo)
  /-- EPR_REQUEST (R407): A source receiving an EPR_Request accepts it and ramps to the EPR level. -/
  | eprRequest (p : Port) (pdo : Pdo)
  /-- EPR_KEEPALIVE (R417): A received EPR_KeepAlive restarts the source's keep-alive timer. -/
  | eprKeepalive (p : Port)
  /-- EPR_KEEPALIVE_SEND (R417): Every tSinkEPRKeepAlive a sink in EPR sends EPR_KeepAlive. -/
  | eprKeepaliveSend (p : Port)
  /-- EPR_KEEPALIVE_TIMEOUT (R417): A source with no keep-alive for tSourceEPRKeepAlive exits EPR. -/
  | eprKeepaliveTimeout (p : Port)
  /-- PD_UNSUPPORTED_MESSAGE (R406): An unsupported PD message is answered Not_Supported and counted, or an Alert is
  counted only. -/
  | pdUnsupportedMessage (p : Port) (alert : Bool)
  /-- PD_RESPONSE_TIMEOUT (R417): No reply within tSenderResponse ends the waiting message exchange. -/
  | pdResponseTimeout (p : Port)
  /-- VCAB_TRANSITION_DONE (R411): A source whose VCAB reaches the new window sends PS_RDY. -/
  | vcabTransitionDone (p : Port) (cable : CableId)
  /-- VCAB_TRANSITION_TIMEOUT (R411): A source not in window 15 ms after Accept sends Hard_Reset and counts a fault.
  -/
  | vcabTransitionTimeout (p : Port)
  /-- VCOM_WINDOW_LOST (R407): VCOM out of an offered PDO's window for 10 ms sends new capabilities without it. -/
  | vcomWindowLost (p : Port)
  /-- CCE_PR_SWAP (R412): Writing CCE_CTRL.PR_SWAP requests a power role swap. -/
  | ccePrSwap (p : Port)
  /-- CCE_HARD_RESET (R414): Writing CCE_CTRL.HARD_RESET sends Hard_Reset and runs the recovery. -/
  | cceHardReset (p : Port)
  /-- CCE_FAULT_CLEAR (R416): Writing CCE_CTRL.FAULT_CLR clears a latched cable-power fault. -/
  | cceFaultClear (p : Port)
  /-- CCE_CONFIG_WRITE (R418): A write to CCE_SRC_CFG or CCE_SNK_CFG starts a new capabilities exchange within 10 ms.
  -/
  | cceConfigWrite (p : Port) (sink : Bool) (level : BitVec 3) (amps : BitVec 4)
  /-- HARD_RESET_RECOVERY (R413): tSrcRecover after VCAB reached vSafe0V the old source applies vSafe5V and
  negotiation restarts. -/
  | hardResetRecovery (p : Port)
  /-- CABLE_OVER_VOLTAGE (R415): VCAB above its limit turns the FET pair off within 1 µs and sends Hard_Reset. -/
  | cableOverVoltage (p : Port)
  /-- CABLE_OVER_CURRENT (R415): Source current above OCP_PCT for 1 ms turns the FET pair off and sends Hard_Reset. -/
  | cableOverCurrent (p : Port)
  /-- CABLE_SHORT (R415): Source current above twice the contract turns the FET pair off within 1 µs. -/
  | cableShort (p : Port)
  /-- CABLE_REVERSE_CURRENT (R415): Reverse current turns off the sink's ideal diode or the source's FET pair. -/
  | cableReverseCurrent (p : Port)
  /-- VCONN_OVER_CURRENT (R415): VCONN over 0.3 A for 100 µs turns VCONN off. -/
  | vconnOverCurrent (p : Port)
  /-- DEFAULT_POWER_ENTER (R410): VCOM below 9 V enters default-power mode, stopping adapters and removing sourced
  VCAB. -/
  | defaultPowerEnter
  /-- DEFAULT_POWER_EXIT (R410): 10 ms after VCOM holds 9.5 V the hub leaves default-power mode and releases adapters.
  -/
  | defaultPowerExit
  /-- CC_COUNTER_CLEAR (R418): Writing CCE_CNT_CLEAR clears the cable-power counters. -/
  | ccCounterClear (p : Port)
  /-- FEED_GATE_ON (R420): A permitted feed 100 mV above VCOM turns its ideal-diode gate on within 50 µs. -/
  | feedGateOn (feed : Fin 3)
  /-- FEED_REVERSE_OFF (R420): VCOM above a feed or reversed current pulls its gate down within 0.5 µs and counts it.
  -/
  | feedReverseOff (feed : Fin 3)
  /-- LOAD_EN_WRITE (R423): Writing LOAD_CTRL.EN starts the fuse from OFF or takes it to OFF. -/
  | loadEnWrite (en : Bool)
  /-- LOAD_FAULT_CLEAR (R423): Writing LOAD_CTRL.FAULT_CLR takes a latched fuse to OFF. -/
  | loadFaultClear
  /-- LOAD_LOCAL_EN_WRITE (R421): A write of LOCAL_EN permits or forbids the LOCAL feed, ignored when no cable feed
  holds. -/
  | loadLocalEnWrite (en : Bool)
  /-- LOAD_PRESENCE_CHANGE (R423): A debounced change of LOAD_PRES_N moves the fuse between states. -/
  | loadPresenceChange (present : Bool)
  /-- LOAD_WINDOW_CHANGE (R423): VCOM leaving or entering the UV–OV window moves the fuse. -/
  | loadWindowChange (vcom : BitVec 12)
  /-- LOAD_DELAY_EXPIRE (R423): INS_DELAY with presence and window held moves the fuse to RAMP. -/
  | loadDelayExpire
  /-- LOAD_RAMP_DONE (R424): VOUT within 300 mV of VCOM drives the gate to full enhancement. -/
  | loadRampDone
  /-- LOAD_RAMP_TIMEOUT (R424): RAMP not ended within RAMP_TO trips the fuse. -/
  | loadRampTimeout
  /-- LOAD_PG_ASSERT (R425): PG_DELAY after full enhancement the fuse enters ON and asserts power-good. -/
  | loadPgAssert
  /-- LOAD_ILIM_TIMEOUT (R426): Current in limit for ILIM_T trips the fuse. -/
  | loadIlimTimeout
  /-- LOAD_SHORT (R426): Sense above twice ILIM pulls the gate down within 2 µs and trips with SHORT. -/
  | loadShort
  /-- LOAD_RETRY_END (R431): RETRY elapsed with the FET below TJ_RETRY returns the fuse to WAIT. -/
  | loadRetryEnd
  /-- LOAD_RETRY_COUNT_RESET (R430): PG held for 10 s without a break resets the retry count. -/
  | loadRetryCountReset
  /-- FET_TEMP_UPDATE (R428): Every 1 µs the thermal model of each FET set is updated. -/
  | fetTempUpdate (power : List Nat) (diode : Diode)
  /-- FET_OVERTEMP (R429): A FET temperature reaching TJ_MAX trips the fuse, the port pair or holds LOCAL off. -/
  | fetOvertemp (fet : Fin 5)
  /-- LOAD_COUNTER_CLEAR (R432): Writing LOAD_CNT_CLEAR clears the load counters. -/
  | loadCounterClear
  /-- LC_PROVISION (R435): A lifecycle request to PROVISIONED draws a new ORS and KEK, or is refused. -/
  | lcProvision (key : BitVec 16)
  /-- LC_DEPLOY (R435): A lifecycle request to DEPLOYED requires signatures from then on. -/
  | lcDeploy (key : BitVec 16)
  /-- LC_BLANK (R435): A lifecycle request from PROVISIONED to BLANK erases the owner secrets. -/
  | lcBlank (key : BitVec 16)
  /-- LC_RETURN (R435): A lifecycle request to RETURNED stops contexts and erases the owner secrets. -/
  | lcReturn (key : BitVec 16)
  /-- LC_SCRAP (R435): A lifecycle request to SCRAPPED erases secrets and is final. -/
  | lcScrap (key : BitVec 16)
  /-- SEC_TAP (R440): SEC_OP TAP unwraps a keg into any slot for any engine. -/
  | secTap
  /-- SEC_IMPORT (R447): SEC_OP IMPORT turns an import blob into a keg under the KEK. -/
  | secImport
  /-- SEC_ATTEST (R450): SEC_OP ATTEST returns a signed COSE_Sign1 statement. -/
  | secAttest
  /-- SEC_CERT (R445): SEC_OP CERT returns the attestation or import certificate chain. -/
  | secCert
  /-- SEC_PKEY_SET (R449): SEC_OP PKEY_SET installs an owner program key, waiting while a pitch or store is busy. -/
  | secPkeySet
  /-- SEC_PKEY_CLEAR (R449): SEC_OP PKEY_CLEAR clears an owner program key. -/
  | secPkeyClear
  /-- SEC_SLOT_CLEAR (R442): SEC_OP SLOT_CLEAR empties a key slot. -/
  | secSlotClear
  /-- SEC_OP_RESERVED (R445): A reserved SEC_OP code completes at once with OPERAND. -/
  | secOpReserved (op : BitVec 4)
  /-- SEC_OP_COMPLETE (R445): A SEC operation ends and writes its outcome to SEC_OP_STATUS. -/
  | secOpComplete
  /-- SEC_COUNTER_CLEAR (R453): Writing SEC_CNT_CLEAR clears SEC_TAP_REFUSED. -/
  | secCounterClear
  /-- KEY_TURN (R443): Every 7.8125 ms the next key slot is re-masked. -/
  | keyTurn
  /-- TRNG_FAIL (R444): A failed random-source health test sets TRNG_FAIL and switches masks to a deterministic
  generator. -/
  | trngFail
  /-- TRNG_RECOVER (R444): The random source passing its test again clears TRNG_FAIL. -/
  | trngRecover
  /-- SERVICE_OPEN (R451): SERVICE_OPEN or a service accessory erases owner secrets, steps the lifecycle and releases
  debug access. -/
  | serviceOpen (accessory : Option Port) (trst : Bool)
  /-- SERVICE_CLOSE (R451): SERVICE_CLOSE, reset or accessory detach ends the service session. -/
  | serviceClose
  /-- SCAN_TEST (R452): The SCAN_TEST instruction zeroes slots and enables Cooper scan test in BLANK and RETURNED. -/
  | scanTest
  /-- DEBUG_ACCESS (R508): DEBUG_ACCESS performs a class 5 access through its data register while a session is open.
  -/
  | debugAccess (write : Bool) (addr : BitVec 25) (data : Word)
  /-- EXTEST (R508): EXTEST drives and samples the balls through the boundary scan. -/
  | extest (pins : List Bool) (data : List Bool)
  /-- SAMPLE_PRELOAD (R508): SAMPLE/PRELOAD samples the balls into the boundary register. -/
  | samplePreload (pins : List Bool) (data : List Bool)
  /-- IDCODE (R508): IDCODE selects the identification register. -/
  | idcode
  /-- CLAMP (R508): CLAMP holds the balls from the boundary register with bypass selected. -/
  | clamp
  /-- HIGHZ (R508): HIGHZ places the balls in high impedance. -/
  | highz
  /-- BYPASS (R508): BYPASS or an unlisted code selects the bypass register. -/
  | bypass (code : Byte)
  /-- TAP_RESET (R508): TRST_N resets the TAP and selects IDCODE. -/
  | tapReset
  /-- ERR_INJECT (R472): Writing ERR_INJECT.GO from class 0 makes an ERR 0xFFFF entry at the written severity. -/
  | errInject (sev : BitVec 2) (detail : BitVec 16)
  /-- ERR_ACK (R460): Writing ERR_ACK acknowledges entries up to a SEQ and clears ALERT when it reaches the newest. -/
  | errAck (seq : BitVec 16)
  /-- ERR_COUNTER_CLEAR (R472): Writing ERR_CNT_CLEAR clears the error counters. -/
  | errCounterClear
  /-- EVENT_RETRY (R462): The oldest waiting EVENT is offered again when admission or routing may have changed, at
  least every 1 µs. -/
  | eventRetry
  /-- FATAL_RESET (R459): 20 µs after a FATAL entry the hub makes a fatal reset, or is held after a fourth within 10
  minutes. -/
  | fatalReset (ms : BitVec 16)
  /-- COOP_SLICE (R466): Every 1 ms Cooper holds, saves, march-tests, repairs and restores one 1 KiB memory slice. -/
  | coopSlice (fail : Option MemFail)
  /-- COOP_BUFFER_SLICE (R467): Every 1 ms Cooper claims, tests and returns 16 shared-buffer cells. -/
  | coopBufferSlice (fail : Option MemFail)
  /-- COOP_LANE_CHECK (R468): Cooper withdraws a lane, runs a loop and recalibrates it, then returns it. -/
  | coopLaneCheck (p : Port) (lane : Fin 5) (how : LaneCheck)
  /-- COOP_REFERENCE_CHECK (R469): Every 1 s Cooper compares the three telemetry references and drops one that
  disagrees. -/
  | coopReferenceCheck (a : BitVec 16) (b : BitVec 16) (c : BitVec 16)
  /-- TELEMETRY_HOLD_EXPIRE (R469): 1 s after no references agree every FET temperature reads TJ_MAX. -/
  | telemetryHoldExpire
  /-- TELEMETRY_SAMPLE (R470): Every 1 ms temperatures, voltages and currents are sampled. -/
  | telemetrySample (sample : Telemetry)
  /-- SCRUB_STEP (R470): Scrub reads the next word and writes back a corrected single-bit error. -/
  | scrubStep (found : ScrubRead)
  /-- COOP_COUNTER_CLEAR (R473): Writing COOP_CNT_CLEAR clears the missed and not-run counters. -/
  | coopCounterClear
  /-- POWER_UP (R474): VSUP rising through 4.4 V runs rail start, self-test, journal scan, image restore and cold
  pitch, then release. -/
  | powerUp (found : SelfTest) (ms : BitVec 16)
  /-- POWER_LOSS (R475): VSUP falling through 4.1 V stops the hub at once. -/
  | powerLoss (commit : CommitCut)
  /-- ENUM_ASSIGN (R477): A received ASSIGN gives the hub its address, records the arrival port and sends a REPORT. -/
  | enumAssign (p : Port)
  /-- ENUM_RELAY (R476): A received RELAY makes the hub send an ASSIGN out of the named port within 10 µs. -/
  | enumRelay
  /-- DEV_HUB_RESET (R480): Writing DEV_CTRL.HUB_RESET with its key from class 0 requests a hub reset. -/
  | devHubReset (cls : Fin 6) (key : BitVec 16)
  /-- HUB_RESET_TAKES_EFFECT (R479): Once admitted writes are applied, the hub reset empties local state, answers
  reads RESET and reruns restore and cold pitch. -/
  | hubResetTakesEffect (ms : BitVec 16)
  /-- JTAG_HUB_RESET (R479): The JTAG HUB_RESET instruction makes a JTAG reset. -/
  | jtagHubReset (ms : BitVec 16)
  /-- IMAGE_CAPTURE (R484): Writing DEV_IMAGE_CTRL.CAPTURE writes a panel image of the capture set into common memory,
  or is refused. -/
  | imageCapture
  /-- IMAGE_CAPTURE_DONE (R484): The capture finishes and sets RESULT and DEV_IMAGE_LEN. -/
  | imageCaptureDone
  /-- STEEP_REQUEST (R486): Writing PWRS_CTRL.STEEP from class 0 asks every block and refuses on any refusal. -/
  | steepRequest (cls : Fin 6)
  /-- STEEP_ENTRY (R487): With no refusal each UP port ends its packet, sends STP and idles, and the hub enters
  retention. -/
  | steepEntry (port : Option Port)
  /-- WAKE_EVENT (R490): A wake pin, CC attach or wake tone stamps the wake and resumes the hub to forwarding within
  1.5 ms. -/
  | wakeEvent (pins : BitVec 4) (cc : BitVec 3) (tone : BitVec 3) (l0 : BitVec 3)
  /-- WAKE_TONE_SEND (R489): Writing PWRS_WAKE_TX makes a port in PARTNER_STEEP send a wake tone. -/
  | wakeToneSend (mask : BitVec 3)
  /-- PWRS_COUNTER_CLEAR (R492): Writing PWRS_CNT_CLEAR clears the Steep counters. -/
  | pwrsCounterClear
  /-- ETH_SYNC_ACQUIRED (R306): A DOWN Ethernet port gains Clause 36 code-group synchronisation and enters SYNC,
  starting auto-negotiation or the 10 ms timer. -/
  | ethSyncAcquired (x : Fin 4)
  /-- FAR_LOOP_IDLE_EXIT (R59): A partner in LOOP_FAR_REMOTE that sees electrical idle for 2 µs leaves the loopback
  and goes to DETECT_RX. -/
  | farLoopIdleExit (p : Port)
  /-- LINK_ENABLE (R53): Writing LNKE_CTRL.ENABLE to 1 takes a DISABLED port back into training. -/
  | linkEnable (p : Port)
  /-- USB_OVERCURRENT_END (R346): An OC_N ball that returns inactive through the filter clears PORT_STATUS.OC, so that
  PORT_POWER can be set again. -/
  | usbOvercurrentEnd (p : Fin 4)
  /-- RAIL_OUT_OF_TOLERANCE (R474): A generated rail leaving ±3 % makes the high-voltage die hold the core die in
  reset until the rail returns. -/
  | railOutOfTolerance (back : Option (SelfTest × BitVec 16))
  /-- SLEW_COMPLETE (R126): A slew of station time reaches e = 0, normal counting resumes and TIME_STATUS.SLEWING
  clears. -/
  | slewComplete
  /-- PS_TRANSITION_TIMEOUT (R417): A sink whose PS_RDY has not arrived within tPSTransition, or a swap wait past
  tPSSourceOff or tPSSourceOn, ends the wait. -/
  | psTransitionTimeout (p : Port)
deriving DecidableEq, Repr

end Sys2Proof
end

