-- ==== Sys2Proof/Machine/State.lean ====
section
/-! DEFINITION. The machine: the hub and the queue of commands that wait, first in, first out. -/

namespace Sys2Proof.Machine

/-- The state: everything the spec gives the hub, and the commands waiting, the oldest first. -/
structure State where
  hub : Hub
  pending : List Instr
deriving DecidableEq, Repr

/-- Why the machine stops with a fault. No command of the table faults: the spec gives every one an effect
(assumption 105, DEDUCED). -/
inductive Fault where
deriving DecidableEq, Repr

/-- Why a command has no meaning (assumption 105, DEDUCED). -/
inductive Refusal where
  /-- Raised by a row of the table that the model gives no meaning yet: safe, since nothing is claimed of it. No arm raises
  it now. -/
  | notModelled (mnemonic : String)
deriving DecidableEq, Repr

/-- What a step answers. -/
abbrev Result := Host.Outcome State Fault Refusal

/-- The state right after reset: the hub with every register at its reset value and no command waiting
(assumption 2, DESIGN CHOICE). -/
def State.reset : State := { hub := .reset, pending := [] }

end Sys2Proof.Machine
end

