-- ==== Sys2Proof/Machine/Ops.lean ====
section
/-! DEFINITION. The named operations every block shares: register words and fields, memory bytes, time and stamps, the
outgoing record, and making a log entry, a notice and an acknowledgement (R454–R462). -/

namespace Sys2Proof.Machine

/-! ### Registers -/

/-- The register word at an internal address. -/
def Hub.rd (h : Hub) (a : Nat) : Word := SMap.get regReset h.regs a

/-- The hub with the register word at an internal address set. -/
def Hub.wr (h : Hub) (a : Nat) (v : Word) : Hub := { h with regs := SMap.set regReset h.regs a v }

/-- The value of a register field. -/
def Hub.get (h : Hub) (f : RF) : Nat := slice (h.rd f.addr).toNat f.lo f.width

/-- The hub with a register field set, its other bits kept. -/
def Hub.put (h : Hub) (f : RF) (v : Nat) : Hub :=
  h.wr f.addr (W (setSlice (h.rd f.addr).toNat f.lo f.width v))

/-- Whether a one-bit field is 1. -/
def Hub.on (h : Hub) (f : RF) : Bool := h.get f == 1

/-- A saturating counter field advanced by `n`. -/
def Hub.bumpBy (h : Hub) (f : RF) (n : Nat) : Hub := h.put f (satAdd (2 ^ f.width - 1) (h.get f) n)

/-- A saturating counter field advanced by one. -/
def Hub.bump (h : Hub) (f : RF) : Hub := h.bumpBy f 1

/-- The whole word at an address as a field. -/
def word (a : Nat) : RF := ⟨a, 0, 32⟩

/-- Whether a value is a legal encoding of a writable field (R12). -/
def WField.takes (f : WField) (v : Nat) : Bool :=
  f.legal.isEmpty || f.legal.any (fun r => decide (r.1 ≤ slice v f.lo f.width) && decide (slice v f.lo f.width ≤ r.2))

/-- A word with the bytes that `be` enables taken from a written word (R11). -/
def mergeBytes (old v be : Nat) : Nat :=
  [0, 1, 2, 3].foldl (fun w i => if bit be i then setSlice w (8 * i) 8 (slice v (8 * i) 8) else w) old

/-- A written word's effect on one field (R11, R12): a read-write field takes a legal encoding and keeps its value
otherwise, a W1C field clears where an enabled byte writes 1, a locked field is left to its own rule. -/
def writeField (old v be : Nat) (w : Nat) (f : WField) : Nat :=
  match f.kind with
  | .rw =>
    if f.takes (mergeBytes old v be) then setSlice w f.lo f.width (slice (mergeBytes old v be) f.lo f.width) else w
  | .w1c => setSlice w f.lo f.width (Nat.bitwise (fun a b => a && !b) (slice w f.lo f.width) (slice (mergeBytes 0 v be) f.lo f.width))
  | .rwl => w

/-- A plain register write (R11, R12): every writable field of the word at `a` as its access says, the rest kept. -/
def Hub.plain (h : Hub) (a : Nat) (v : Word) (be : Nat) : Hub :=
  match regRow? a with
  | some r => h.wr a (W (r.fields.foldl (writeField (h.rd a).toNat v.toNat be) (h.rd a).toNat))
  | none => h

/-- Every register word from `lo` to `hi` (inclusive) back at its reset value: the registers a counter clear names. -/
def Hub.clearRange (h : Hub) (lo hi : Nat) : Hub :=
  { h with regs := h.regs.filter (fun e => !(decide (lo ≤ e.1) && decide (e.1 ≤ hi))) }

/-! ### Memory -/

/-- What an unlisted byte of memory reads as (assumption 3, DESIGN CHOICE). -/
def memReset (_ : Nat) : Byte := 0#8

/-- The byte of memory at an internal address (assumption 3, DESIGN CHOICE). -/
def Hub.mrd (h : Hub) (a : Nat) : Byte := SMap.get memReset h.mem a

/-- The hub with the byte of memory at an internal address set (assumption 3, DESIGN CHOICE). -/
def Hub.mwr (h : Hub) (a : Nat) (b : Byte) : Hub := { h with mem := SMap.set memReset h.mem a b }

/-- `n` bytes of memory from an address. -/
def Hub.mbytes (h : Hub) (a n : Nat) : List Byte := (List.range n).map (fun i => h.mrd (a + i))

/-- The hub with bytes stored from an address on. -/
def Hub.mstore (h : Hub) (a : Nat) : List Byte → Hub
  | [] => h
  | b :: rest => (h.mwr a b).mstore (a + 1) rest

/-- The little-endian word of memory at an address. -/
def Hub.mword (h : Hub) (a : Nat) : Word := W (leNat (h.mbytes a 4))

/-! ### Time -/

/-- Station time in ticks of 2 ns (R121). -/
def Hub.now (h : Hub) : Nat := h.stime / 8

/-- The short stamp of now (R132). -/
def Hub.stamp (h : Hub) : Nat := h.now % 2 ^ 32

/-- Station time is set to `s` in 0.25 ns units where the root alone would have brought it to `was`, in the tick of root
time `r`; the move is kept for stamps of instants before it (R318) (assumption 59, DEDUCED). -/
def Hub.timeTo (h : Hub) (r was s : Nat) : Hub :=
  { h with stime := s, tm := { h.tm with moves :=
      if s = was then h.tm.moves
      else ((r, (s : Int) - was) :: h.tm.moves).filter (fun m => decide (r < m.1 + 2 ^ 17)) } }

/-- Station time in 0.25 ns units of an instant `d` root periods ago, not more than 2^17: a move in the tick of the instant
applies first (R318) (assumption 59, DEDUCED). -/
def Hub.stimeAgo (h : Hub) (d : Nat) : Nat :=
  let later := h.tm.moves.filter (fun m => decide ((h.root - d) / 8 < m.1 / 8))
  ((h.stime : Int) - d - (later.map Prod.snd).sum).toNat

/-- The quality a stamp carries (R127, R135): 3 while station time is not VALID. -/
def Hub.quality (h : Hub) : Nat := if h.on R.TIME_STATUS_VALID then h.get R.TIME_STATUS_QUALITY else 3

/-- Root periods in a microsecond. -/
abbrev us : Nat := 4000

/-- Root periods in a second. -/
abbrev second : Nat := 4000000000

/-- Age of a short stamp (R133); an age of 2^31 or more counts as 0 (R157). -/
def Hub.age (h : Hub) (s : Nat) : Nat :=
  let a := subMod (2 ^ 32) h.now s
  if a ≥ 2 ^ 31 then 0 else a

/-! ### Identity and the outgoing record -/

/-- The hub's address; 127 while it has none (R20, DEV_STATUS.ADDR). -/
def Hub.addr (h : Hub) : Nat := h.get R.DEV_STATUS_ADDR

/-- Whether the hub has an address (R17). -/
def Hub.hasAddr (h : Hub) : Bool := h.addr != 127

/-- The hub with an item put on its wires (assumption 101, DESIGN CHOICE; 104, DESIGN CHOICE). -/
def Hub.emit (h : Hub) (t : Tx) : Hub := { h with out := t :: h.out }

/-- Whether EXTEST, CLAMP or HIGHZ holds the LVCMOS balls (R508). -/
def Hub.ballsTaken (h : Hub) : Bool := h.jtag.drive.isSome || h.jtag.hiz

/-- The hub with an item put on LVCMOS balls; while EXTEST, CLAMP or HIGHZ holds them nothing of it shows (R508). -/
def Hub.ball (h : Hub) (t : Tx) : Hub := if h.ballsTaken then h else h.emit t

/-- The hub with one link port's state changed. -/
def Hub.onLink (h : Hub) (p : Port) (f : LinkPort → LinkPort) : Hub :=
  { h with links := h.links.set p (f (h.links.at p)) }

/-- The hub with one port's marker and delay state changed. -/
def Hub.onTimePort (h : Hub) (p : Port) (f : TimePort → TimePort) : Hub :=
  { h with tm := { h.tm with ports := h.tm.ports.set p (f (h.tm.ports.at p)) } }

/-- The port to which a count or entry for the hub's own packet belongs (R512) (assumption 119, DESIGN CHOICE). -/
def Hub.ownPort (h : Hub) : Port := (Port.ofCode (h.get R.DEV_STATUS_ENUM_PORT)).getD .E

/-- Whether a link port is UP (R53). -/
def Hub.up (h : Hub) (p : Port) : Bool := h.on (R.LNK_STATUS_UP p.ix)

/-- Whether a link port may carry routed traffic: UP and not an open end (R19, R98). -/
def Hub.usable (h : Hub) (p : Port) : Bool := h.up p && !h.on (R.LNK_STATUS_OPEN_END p.ix)

/-! ### Power -/

/-- Default-power mode (R410). -/
def Hub.defPower (h : Hub) : Bool := h.on R.LOAD_STATUS_DEFAULT

/-- What an adapter does unless default-power mode holds it stopped (R410). -/
def Hub.unlessHeld (h : Hub) (f : Hub → Hub) : Hub := if h.defPower then h else f h

/-- Whether the core die runs: supplied, its rails in tolerance, not in retention (R488) and not held by R459
(assumption 106, DEDUCED). -/
def Hub.awake (h : Hub) : Bool := !(h.pw.dark || h.pw.rail || h.pw.steep || h.err.held)

/-- The next free value (assumption 4, DESIGN CHOICE). -/
def Hub.fresh (h : Hub) : Word × Hub := (Config.freeWord h.free, { h with free := h.free + 1 })

/-! ### The log (R454–R462) -/

/-- Severities (R454). -/
abbrev sevC : Nat := 0
/-- DEGRADED. -/
abbrev sevDG : Nat := 1
/-- CONTAINED. -/
abbrev sevCT : Nat := 2
/-- FATAL. -/
abbrev sevF : Nat := 3

/-- Whether an entry with a SEQ is unacknowledged (R460). -/
def Hub.unacked (h : Hub) (seq : Nat) : Bool :=
  let d := subMod 65536 seq (h.get R.ERR_SEQ_ACKED)
  decide (1 ≤ d) && decide (d ≤ subMod 65536 (h.get R.ERR_SEQ_NEWEST) (h.get R.ERR_SEQ_ACKED))

/-- Whether the entry in a slot is held (R460): unacknowledged, with its severity's bit in HOLD_MASK (FATAL always). -/
def Hub.slotHeld (h : Hub) (i : Nat) : Bool :=
  match KMap.get? h.err.log i with
  | none => false
  | some r => h.unacked r.seq && bit (slice (h.rd A.ERR_CTRL).toNat 8 4) r.sev

/-- The entry to overwrite when every slot is held: lowest severity, oldest by SEQ among equals (R460). -/
def Hub.worstHeld (h : Hub) : Nat :=
  let newest := h.get R.ERR_SEQ_NEWEST
  let key := fun (r : Rec) => r.sev * 65536 + (65535 - subMod 65536 newest r.seq)
  match h.err.log with
  | [] => 0
  | e :: rest => (rest.foldl (fun best x => if key x.2 < key best.2 then x else best) e).1

/-- The slot a new entry takes (R460): the first after the newest that is not held (assumption 85, DEDUCED). -/
def Hub.nextSlot (h : Hub) : Nat :=
  let start := h.get R.ERR_STATUS_NEWEST
  match ((List.range 64).map (fun k => (start + 1 + k) % 64)).find? (fun i => !h.slotHeld i) with
  | some i => i
  | none => h.worstHeld

/-- A waiting EVENT joins the event queue, which holds them in the order they were made, the oldest leaving a full one
(R462) (assumption 86, DEDUCED). -/
def Hub.queueEvent (h : Hub) (e : Ev) : Hub :=
  let (q, h) := if h.err.evtq.length < 64 then (h.err.evtq, h) else (h.err.evtq.drop 1, h.bump R.ERR_EVT_LOST)
  { h with err := { h.err with evtq := q ++ [e] } }

/-- The oldest waiting EVENT of a FATAL entry, which goes before all others (R459) (assumption 86, DEDUCED). -/
def Hub.fatalEvent (h : Hub) : Option Ev := h.err.evtq.find? (fun e => e.rec_.sev == 3 && !e.missed)

/-- The counter register of a recorded severity. -/
def countOf : Nat → RF
  | 0 => R.ERR_COUNT_C
  | 1 => R.ERR_COUNT_DG
  | 2 => R.ERR_COUNT_CT
  | _ => R.ERR_COUNT_F

/-- The ALERT bit follows the acknowledged SEQ (R461) and UNACKED the two SEQs (ERR_STATUS). -/
def Hub.setUnacked (h : Hub) : Hub :=
  h.put R.ERR_STATUS_UNACKED (subMod 65536 (h.get R.ERR_SEQ_NEWEST) (h.get R.ERR_SEQ_ACKED))

/-- HANDLING follows the list of entries being handled (R458). -/
def Hub.setHandling (h : Hub) (l : List Handling) : Hub :=
  { h with err := { h.err with handling := l } }.put R.ERR_STATUS_HANDLING (b2n (!l.isEmpty))

/-- Handling of a link-down entry ends 10 µs after it at the latest, that of a takeover with the first issue on tun 8 (R458)
(assumption 87, DEDUCED). -/
def Hub.expireHandling (h : Hub) : Hub :=
  let isOver := fun (x : Handling) => match x.by_ with
    | .linkDown _ => decide (x.at_ + 10 * us ≤ h.root)
    | .takeover => h.tun.spareRan
    | _ => false
  if h.err.handling.any isOver then h.setHandling (h.err.handling.filter (fun x => !isOver x)) else h

/-- The record of a new entry (R455, R458), its severity raised one step when an entry of the same source is being
handled. -/
def Hub.mkRec (h : Hub) (src code sev d0 d1 d2 : Nat) : Rec :=
  let same := h.err.handling.find? (fun x => x.source == src)
  let esc := same.isSome && decide (sev < 3)
  { sev := if esc then sev + 1 else sev, nested := !h.err.handling.isEmpty, esc := esc, source := src, notice := false,
    code := code, stamp := h.now, quality := h.quality,
    nestOf := match same with
      | some x => x.idx
      | none => match h.err.handling with
        | x :: _ => x.idx
        | [] => 0,
    rep := 0, seq := (h.get R.ERR_SEQ_NEWEST + 1) % 65536, d0 := d0, d1 := d1, d2 := d2, hub := h.addr }

/-- A log entry is made (R455–R461): slot, SEQ, counts, ALERT, EVENT, what it starts handling, and the fatal action's
start (R459). `missed` marks the entry whose EVENT waits as R185 states. -/
def Hub.entryNow (h : Hub) (r : Rec) (by_ : Option Recovery) (missed : Bool) : Hub :=
  let slot := h.nextSlot
  let isOver := match KMap.get? h.err.log slot with
    | some old => h.unacked old.seq
    | none => false
  let h := if isOver then h.bump R.ERR_OVERFLOW else h
  let h := { h with err := { h.err with log := KMap.put h.err.log slot r } }
  let h := (h.put R.ERR_SEQ_NEWEST r.seq).put R.ERR_STATUS_NEWEST slot
  let h := ((h.put R.ERR_STATUS_VALID 1).setUnacked).bump (countOf r.sev)
  let h := if bit (slice (h.rd A.ERR_CTRL).toNat 0 4) r.sev then h.put R.ERR_STATUS_ALERT 1 else h
  let h := if bit (h.get R.ERR_CTRL_EVENT_MASK) r.sev then h.queueEvent ⟨r, 0, missed⟩ else h
  let add := (match by_ with | some b => [Handling.mk slot r.source b h.root] | none => [])
    ++ (if r.sev == 3 then [Handling.mk slot r.source .fatal h.root] else [])
  let h := if add.isEmpty then h else h.setHandling (h.err.handling ++ add)
  if r.sev == 3 then { h with err := { h.err with fatalPending := true } } else h

/-- A log entry: made now, or at the wake where the hub is in Steep (R488). -/
def Hub.entry (h : Hub) (r : Rec) (by_ : Option Recovery) (missed : Bool) : Hub :=
  if h.pw.steep then { h with pw := { h.pw with slept := h.pw.slept ++ [r] } } else h.entryNow r by_ missed

/-- What was logged in Steep is entered at the wake, with the station time at which it occurred (R488). -/
def Hub.wakeLog (h : Hub) : Hub :=
  h.pw.slept.foldl
    (fun h r => h.entryNow { h.mkRec r.source r.code r.sev r.d0 r.d1 r.d2 with stamp := r.stamp, quality := r.quality } none false)
    { h with pw := { h.pw with slept := [] } }

/-- An error logged every time it happens. -/
def Hub.log (h : Hub) (src code sev d0 d1 d2 : Nat) : Hub :=
  let h := h.expireHandling
  h.entry (h.mkRec src code sev d0 d1 d2) none false

/-- An error logged that starts a recovery (R458). -/
def Hub.logBy (h : Hub) (src code sev d0 d1 d2 : Nat) (by_ : Recovery) : Hub :=
  let h := h.expireHandling
  h.entry (h.mkRec src code sev d0 d1 d2) (some by_) false

/-- The key of a source, code and instance (R457). -/
def logKey (src code inst : Nat) : Nat := (src * 65536 + code) * 65536 + inst

/-- A suppressed occurrence (R457): ERR_SUPPRESSED and the newest matching entry's REPEAT. -/
def Hub.suppress (h : Hub) (slot seq : Nat) : Hub :=
  let h := h.bump R.ERR_SUPPRESSED
  match KMap.get? h.err.log slot with
  | some r =>
    if r.seq = seq then
      { h with err := { h.err with log := KMap.put h.err.log slot { r with rep := satAdd 255 r.rep 1 } } }
    else h
  | none => h

/-- An error logged at most once per second per source, code and instance (R457) (assumption 87, DEDUCED). -/
def Hub.logLim (h : Hub) (src code inst sev d0 d1 d2 : Nat) : Hub :=
  match KMap.get? h.err.lastAt (logKey src code inst) with
  | some (t, slot, seq) =>
    if h.root < t + second then h.suppress slot seq
    else
      let h := h.expireHandling
      let r := h.mkRec src code sev d0 d1 d2
      let h' := h.entry r none false
      { h' with err := { h'.err with lastAt := KMap.put h'.err.lastAt (logKey src code inst) (h.root, h.nextSlot, r.seq) } }
  | none =>
    let h := h.expireHandling
    let r := h.mkRec src code sev d0 d1 d2
    let h' := h.entry r none false
    { h' with err := { h'.err with lastAt := KMap.put h'.err.lastAt (logKey src code inst) (h.root, h.nextSlot, r.seq) } }

/-- The recovery of an entry has ended (R458) (assumption 87, DEDUCED). -/
def Hub.recovered (h : Hub) (by_ : Recovery) : Hub :=
  if h.err.handling.any (fun x => x.by_ == by_) then
    h.setHandling (h.err.handling.filter (fun x => x.by_ != by_))
  else h

/-- A notice (R462): never logged or counted, sent while NOTICE_EN is 1. -/
def Hub.notice (h : Hub) (src code d0 d1 : Nat) : Hub :=
  if h.on R.ERR_CTRL_NOTICE_EN then
    h.queueEvent
      ⟨{ sev := 0, nested := false, esc := false, source := src, notice := true, code := code, stamp := h.now,
         quality := h.quality, nestOf := 0, rep := 0, seq := 0, d0 := d0, d1 := d1, d2 := 0, hub := h.addr }, 1, false⟩
  else h

/-- The ALERT_N ball (R461): low while ALERT, CLK_EVENT.HOLDOVER or the hold of R459 stands. -/
def Hub.alertLow (h : Hub) : Bool :=
  h.on R.ERR_STATUS_ALERT || h.on R.CLK_EVENT_HOLDOVER || h.err.held

/-! ### Which commands a hub takes (R459, R474, R488) -/

/-- A command's effect on the hub, the queue kept (assumption 105, DEDUCED; 106, DEDUCED). -/
def State.any (s : State) (f : Hub → Hub) : Result := .next { s with hub := f s.hub }

/-- A command of the core die: nothing happens while it is dark, asleep or held in reset
(assumption 105, DEDUCED; 106, DEDUCED). -/
def State.upd (s : State) (f : Hub → Hub) : Result := s.any (fun h => if h.awake then f h else h)

/-- A command of the high-voltage die: it runs whenever the hub is supplied, in Steep and while the core die is held
(assumption 105, DEDUCED; 106, DEDUCED). -/
def State.hv (s : State) (f : Hub → Hub) : Result := s.any (fun h => if h.pw.dark then h else f h)

/-- A command that runs in retention too (R488): key turning and wake detection (assumption 105, DEDUCED; 106, DEDUCED). -/
def State.retain (s : State) (f : Hub → Hub) : Result :=
  s.any (fun h => if h.pw.dark || h.pw.rail || h.err.held then h else f h)

/-- A command of the test access port: it reaches a hub held after a fourth fatal reset (R459, R479)
(assumption 105, DEDUCED; 106, DEDUCED). -/
def State.jtag (s : State) (f : Hub → Hub) : Result :=
  s.any (fun h => if h.pw.dark || h.pw.rail || h.pw.steep then h else f h)

end Sys2Proof.Machine
end

