-- ==== Sys2Proof/Machine/EthLink.lean ====
section
/-! DEFINITION. The links of the Ethernet ports (R306, R307) and the frames that their fall discards; what the display
links show between lines (R296). -/

namespace Sys2Proof.Machine

/-- An Ethernet port beyond its registers. -/
def Hub.ethPort (h : Hub) (x : Nat) : EthPort := SMap.get (fun _ => EthPort.reset) h.eth.ports x

/-- The hub with an Ethernet port's state set. -/
def Hub.setEthPort (h : Hub) (x : Nat) (v : EthPort) : Hub :=
  { h with eth := { h.eth with ports := SMap.set (fun _ => EthPort.reset) h.eth.ports x v } }

/-- LINK of a port: 0 DOWN, 1 SYNC, 2 UP. -/
def Hub.ethLink (h : Hub) (x : Nat) : Nat := h.get (R.ETH_STATUS_LINK x)

/-- The notice of a change to or from UP (R306, R462). -/
def Hub.ethNotice (h : Hub) (x : Nat) : Hub := h.notice (23 + x) 0x81 (h.ethLink x) (h.rd (A.ETH_STATUS x)).toNat

/-- A port falls to DOWN (R306): counted and reported when it was UP; frames waiting for the wire are discarded and
counted (R312) (assumption 59, DEDUCED). -/
def Hub.ethDown (h : Hub) (x : Nat) : Hub :=
  let was := h.ethLink x
  let h := ((h.put (R.ETH_STATUS_LINK x) 0).put (R.ETH_STATUS_AN_DONE x) 0).put (R.ETH_STATUS_AN_FAIL x) 0
  let h := h.put (R.ETH_STATUS_RF x) 0
  if was = 2 then
    let p := h.ethPort x
    let h := (h.bumpBy (word (A.ETH_TX_DOWN_DROP x)) p.txq.length).setEthPort x { p with txq := [] }
    (h.bump (word (A.ETH_LINK_DOWN_CNT x))).ethNotice x
  else h

/-- When the next frame of a port starts on the wire: now, or behind the frames before it (assumption 59, DEDUCED). -/
def Hub.ethStart (h : Hub) (x : Nat) : Nat := max h.root (h.ethPort x).wireEnd

/-- A restart of a link takes it DOWN at once, cutting off a frame on the wire and those behind it (R307). -/
def Hub.ethRestart (h : Hub) (x : Nat) : Hub :=
  let p := h.ethPort x
  let h :=
    if h.root < p.wireEnd then
      ((h.emit (.ethCut x)).bump (word (A.ETH_TX_TRUNC x))).setEthPort x { p with wireEnd := h.root }
    else h
  h.ethDown x

/-- Every port is held DOWN in clock mode FREE (R115, R307). -/
def Hub.ethAllDown (h : Hub) : Hub := [0, 1, 2, 3].foldl Hub.ethDown h

/-- Whether a display link's clock pair runs between lines, DE inactive: its head is enabled, the clock mode is not FREE
(0), and the link is in use; its pairs are high-impedance otherwise (R296). -/
def Hub.lvdsClock (h : Hub) (i : Nat) (linkB : Bool) : Bool :=
  h.on (R.DSP_CTRL_EN i) && h.get R.CLK_STATUS_MODE != 0 && (!linkB || h.on (R.DSP_CTRL_DUAL i))

/-- The core die's balls as its logic stops: every link and display pair idle, and the reset states of R495
(assumption 92, DEDUCED). -/
def Hub.ballsAtRest (h : Hub) : Hub :=
  let h := Port.all.foldl (fun h p => h.emit (.idle p)) h
  let h := [0, 1].foldl (fun h i => (h.emit (.lvdsRest i false false)).emit (.lvdsRest i true false)) h
  h.emit (.balls resetBalls)

/-- Both links of a head at rest (R296). -/
def Hub.lvdsShow (h : Hub) (i : Nat) : Hub :=
  (h.emit (.lvdsRest i false (h.lvdsClock i false))).emit (.lvdsRest i true (h.lvdsClock i true))

/-- The links of the enabled heads as the clock mode enters or leaves FREE (R296). -/
def Hub.lvdsAll (h : Hub) : Hub := [0, 1].foldl (fun h i => if h.on (R.DSP_CTRL_EN i) then h.lvdsShow i else h) h

end Sys2Proof.Machine
end

