-- ==== Sys2Proof/Machine/Columns.lean ====
section
/-! DEFINITION. Columns of the lane layer (chapter 02): how words, packets and ordered sets lie on lanes, how a receiver
erases, rebuilds and reassembles, and the loopback patterns. -/

namespace Sys2Proof.Machine

/-! ### Lanes -/

/-- The mask of the lanes a test names. -/
def laneMask (f : Nat → Bool) : Nat := ([0, 1, 2, 3, 4].map (fun l => if f l then 2 ^ l else 0)).sum

/-- The lanes of a mask, lowest first. -/
def lanesOf (mask : Nat) : List Nat := [0, 1, 2, 3, 4].filter (fun l => bit mask l)

/-- The mask of a list of lanes. -/
def maskOf (ls : List Nat) : Nat := laneMask (fun l => ls.contains l)

/-- The lane identity sent on a lane (R48). -/
def laneId : Nat → Nat
  | 0 => 0x11
  | 1 => 0x22
  | 2 => 0x44
  | 3 => 0x88
  | _ => 0xFF

/-! ### Layouts (R44, R46, R64, R67) -/

/-- The layout of a width over usable lanes: four data lanes, the two lowest and the highest, or the lowest and the
highest (R44, R64). -/
def layoutOf (usable width : Nat) (parShed : Bool) : Layout :=
  if width = 4 then ⟨if parShed then 15 else 31, 4, parShed⟩
  else
    let ls := lanesOf usable
    let data := ls.take (if width = 2 then 2 else 1)
    ⟨maskOf (data ++ (if parShed then [] else (ls.drop data.length).getLast?.toList)), width, parShed⟩

/-- The data lanes of a layout, lowest first (R36, R44, R64). -/
def Layout.dataLanes (l : Layout) : List Nat := (lanesOf l.mask).take l.width

/-- The parity lane of a layout: the highest of its lanes, unless parity is shed (R36, R44, R64). -/
def Layout.parityLane (l : Layout) : Option Nat := if l.parShed then none else ((lanesOf l.mask).drop l.width).getLast?

/-! ### What a transmitter sends (R36, R37, R44, R48, R64, R70) -/

/-- The XOR of bytes: parity of data bytes (R36), of two in Narrow mode (R44), and the copy of one (R64). -/
def xorAll (bs : List Byte) : Byte := bs.foldl (fun a b => a ^^^ b) 0#8

/-- One data column: the bytes in transmission order on the data lanes, their parity on the parity lane (R36). -/
def Layout.dataColumn (l : Layout) (bs : List Byte) : TxCol :=
  ⟨false, l.dataLanes.zip bs ++ (match l.parityLane with
    | some p => [(p, xorAll bs)]
    | none => [])⟩

/-- One control column: the same K-code on every active lane (R36). -/
def Layout.control (l : Layout) (k : Byte) : TxCol := ⟨true, (lanesOf l.mask).map (fun n => (n, k))⟩

/-- The four bytes of a word in transmission order, as many to a column as the layout has data lanes: one column at full
width, two in Narrow mode and Shed width 2, four at width 1 (R36, R44, R64). -/
def splitWord (width : Nat) (w : Word) : List (List Byte) :=
  let bs := bytesOf [w]
  if width = 4 then [bs]
  else if width = 2 then [bs.take 2, bs.drop 2]
  else bs.map (fun b => [b])

/-- The columns of a word (R36, R44, R64). -/
def Layout.word (l : Layout) (w : Word) : List TxCol := (splitWord l.width w).map l.dataColumn

/-- K-codes (R37). -/
abbrev kCom : Byte := 0xBC#8
/-- Skip. -/
abbrev kSkip : Byte := 0x1C#8
/-- Idle fill. -/
abbrev kIdle : Byte := 0x7C#8
/-- Start of packet. -/
abbrev kStart : Byte := 0xFB#8
/-- End of packet. -/
abbrev kEnd : Byte := 0xFD#8
/-- Poison. -/
abbrev kPoison : Byte := 0xFE#8
/-- Time marker. -/
abbrev kTime : Byte := 0x3C#8
/-- Link control. -/
abbrev kCtl : Byte := 0x9C#8
/-- Second column of an ordered set. -/
abbrev kSet : Byte := 0x5C#8

/-- CHECK of an ordered set: the XOR of columns 3 to 13 (R48). -/
def OSet.xor (o : OSet) : Nat :=
  [o.gear, o.caps, o.port, o.addr, o.a0, o.a1, o.a2, o.a3, o.seq, o.col13].foldl Nat.xor o.typ

/-- Whether CHECK matches (R49). -/
def OSet.ok (o : OSet) : Bool := o.xor == o.check

/-- Columns 3 to 15 of an ordered set, each uniform on every active lane (R48). -/
def OSet.fields (o : OSet) : List Nat :=
  [o.typ, o.gear, o.caps, o.port, o.addr, o.a0, o.a1, o.a2, o.a3, o.seq, o.col13, o.check, 0x4A]

/-- The 16 columns of an ordered set: whether a K-code, and each lane's byte (R48). -/
def OSet.column (o : OSet) (k lane : Nat) : Bool × Byte :=
  if k = 0 then (true, kCom)
  else if k = 1 then (true, kSet)
  else if k = 2 then (false, BitVec.ofNat 8 (laneId lane))
  else (false, BitVec.ofNat 8 (o.fields.getD (k - 3) 0))

/-- The columns of an ordered set on the lanes of a mask (R48). -/
def OSet.columns (o : OSet) (mask : Nat) : List TxCol :=
  (List.range 16).map (fun k => ⟨(o.column k 0).1, (lanesOf mask).map (fun l => (l, (o.column k l).2))⟩)

/-- The columns of a packet: start, header, payload and CRC words, end; a poisoned one ends with K30.7 in place of its
CRC word (R70, R71). -/
def Layout.packet (l : Layout) (p : Packet) (poisoned : Bool) : List TxCol :=
  [l.control kStart] ++ (p.header ++ p.payload).flatMap l.word
    ++ (if poisoned then [l.control kPoison] else l.word p.crc ++ [l.control kEnd])

/-- The columns that an item put on a port takes under the port's layout: packets, link control (R80), time markers
(R122), ordered sets and the alignment marker with its skip (R38); an item of no columns of its own takes none. -/
def Tx.columns (l : Layout) : Tx → List TxCol
  | .packet _ p => l.packet p false
  | .poison _ p => l.packet p true
  | .lc _ w => l.control kCtl :: l.word w
  | .time _ v => l.control kTime :: (l.word (W (v % 2 ^ 32)) ++ l.word (W (v / 2 ^ 32)))
  | .oset _ o => o.columns l.mask
  | .marker _ => [l.control kCom, l.control kSkip]
  | _ => []

/-! ### What a receiver makes of a column (R35, R37, R38, R40, R41) -/

/-- The K-codes of R37. -/
def knownK : List Byte := [kCom, kSkip, kIdle, kStart, kEnd, kPoison, kTime, kCtl, kSet]

/-- A symbol that is erased whatever its column (R40): a violation, an unlisted K-code (R37), or lock lost. -/
def Sym.spoilt (s : Sym) : Bool := s.bad || s.unlocked || (s.k && !knownK.contains s.byte)

/-- Whether a symbol is a sound K28.5, whose comma shows the pair's polarity (R35). -/
def Sym.comma (s : Sym) : Bool := s.k && s.byte == kCom && !s.bad && !s.unlocked

/-- The symbol of a lane. -/
def Column.sym (c : Column) (l : Nat) : Sym := c.syms.getD l ⟨false, 0, true, true, false⟩

/-- A lane's polarity after a column: that of its K28.5, where it holds one (R35) (assumption 110, DESIGN CHOICE). -/
def Column.polarity (c : Column) (l : Nat) (now : Bool) : Bool := if (c.sym l).comma then (c.sym l).inv else now

/-- A column with inverted pairs corrected (R35): `inv` gives each lane's polarity as detected; a symbol that came with the
other polarity is a code violation (assumption 110, DESIGN CHOICE). -/
def Column.corrected (c : Column) (inv : Nat → Bool) : Column :=
  { c with syms := [0, 1, 2, 3, 4].map (fun l =>
      { c.sym l with bad := (c.sym l).bad || (c.sym l).inv != inv l, inv := false }) }

/-- The K-code on which all lanes of a list but at most one agree, if it makes the column a control column (R40): two lanes
at least, or the only lane there is (assumption 9, DEDUCED). -/
def Column.agreed (c : Column) (ls : List Nat) : Option Byte :=
  ((ls.filter (fun l => (c.sym l).k)).map (fun l => (c.sym l).byte)).find?
    (fun b =>
      let n := (ls.filter (fun l => (c.sym l).k && (c.sym l).byte == b)).length
      decide (ls.length ≤ n + 1) && decide (min 2 ls.length ≤ n))

/-- The lanes of the active mask whose symbol is sound: `out` names lanes failed, withdrawn or shed. -/
def Column.soundLanes (c : Column) (mask : Nat) (out : Nat → Bool) : List Nat :=
  (lanesOf mask).filter (fun l => !(c.sym l).spoilt && !out l)

/-- The lanes of the active mask whose symbol is erased (R40): `out` names lanes failed, withdrawn or shed
(assumption 9, DEDUCED). -/
def Column.erasedLanes (c : Column) (mask : Nat) (out : Nat → Bool) : List Nat :=
  let sound := c.soundLanes mask out
  let wrong := match c.agreed sound with
    | some b => sound.filter (fun l => !((c.sym l).k && (c.sym l).byte == b))
    | none => sound.filter (fun l => (c.sym l).k)
  (lanesOf mask).filter (fun l => (c.sym l).spoilt || out l || wrong.contains l)

/-- The lanes on which a K28.5 came outside a COM column, judged where two lanes at least are sound (R38, R42)
(assumption 111, DEDUCED). -/
def Column.strays (c : Column) (mask : Nat) (out : Nat → Bool) : List Nat :=
  let sound := c.soundLanes mask out
  if decide (2 ≤ sound.length) && c.agreed sound != some kCom then
    sound.filter (fun l => (c.sym l).k && (c.sym l).byte == kCom)
  else []

/-- The rebuilt column when at most one active lane is erased (R41): the XOR of the other active lanes, or the agreed
K-code (assumption 10, DEDUCED). -/
def Column.rebuild (c : Column) (mask : Nat) (erased : List Nat) : RxCol :=
  let sound := (lanesOf mask).filter (fun l => !erased.contains l)
  match c.agreed sound with
  | some b => ⟨true, [0, 1, 2, 3, 4].map (fun _ => b)⟩
  | none =>
    let x := xorAll (sound.map (fun l => (c.sym l).byte))
    ⟨false, [0, 1, 2, 3, 4].map (fun l => if erased.contains l then x else (c.sym l).byte)⟩

/-! ### Reassembly (R37, R44, R64, R70) -/

/-- Whether a listed K-code may stand where the stream is (R37): between packets, inside one, or in both
(assumption 120, DESIGN CHOICE). -/
def RxStream.mayStand (s : RxStream) (k : Byte) : Bool :=
  if k = kTime ∨ k = kCtl then true
  else if k = kEnd ∨ k = kPoison then s.inPacket
  else !s.inPacket

/-- A control column in the stream: a start column begins a packet, an end column ends it, and the words of a time marker
or a link-control message are taken out of the packet's stream (R37, R122). -/
def RxStream.control (s : RxStream) (k : Byte) : RxStream :=
  if k = kStart then { s with inPacket := true, words := [], part := [] }
  else if k = kEnd ∨ k = kPoison then { s with inPacket := false, part := [] }
  else if k = kTime then { s with side := 2, sideWords := [], sidePart := [] }
  else if k = kCtl then { s with side := 1, sideWords := [], sidePart := [] }
  else s

/-- A data column's bytes in the stream: four make a word, of the sequence being taken out, or of the packet (R37). -/
def RxStream.data (s : RxStream) (bs : List Byte) : RxStream :=
  if 0 < s.side then
    let part := s.sidePart ++ bs
    if part.length < 4 then { s with sidePart := part }
    else { s with side := s.side - 1, sideWords := s.sideWords ++ [W (leNat part)], sidePart := [] }
  else if s.inPacket then
    let part := s.part ++ bs
    if part.length < 4 then { s with part := part }
    else { s with words := s.words ++ [W (leNat part)], part := [] }
  else s

/-- A rebuilt column joins the stream under a layout (R36, R44, R64). -/
def RxStream.column (s : RxStream) (l : Layout) (c : RxCol) : RxStream :=
  if c.control then s.control (c.bytes.headD 0)
  else s.data (l.dataLanes.map (fun n => c.bytes.getD n 0))

/-- Whether a rebuilt column is a control column that may not stand where the stream is (R37)
(assumption 120, DESIGN CHOICE). -/
def RxStream.misplaced (s : RxStream) (c : RxCol) : Bool := c.control && !s.mayStand (c.bytes.headD 0)

/-! ### Patterns (R58) -/

/-- One step of a pattern's register (LNKE_PATTERN.SEL): the bit it sends, and the register after it
(assumption 112, DESIGN CHOICE). -/
def prbsBit (sel r : Nat) : Bool × Nat :=
  let (n, t) := if sel = 0 then (7, 6) else if sel = 1 then (15, 14) else (31, 28)
  let b := bit r (n - 1) != bit r (t - 1)
  (b, (2 * r + b2n b) % 2 ^ n)

/-- The next byte of a pattern, its first bit lowest, and the register after it (assumption 112, DESIGN CHOICE). -/
def prbsByte (sel r : Nat) : Byte × Nat :=
  (List.range 8).foldl (fun (x : Byte × Nat) i =>
    let y := prbsBit sel x.2
    (if y.1 then x.1 ||| BitVec.ofNat 8 (2 ^ i) else x.1, y.2)) (0#8, r)

/-- A pattern's register at its start: all ones (LNKE_PATTERN.SEL) (assumption 112, DESIGN CHOICE). -/
def prbsSeed (sel : Nat) : Nat := if sel = 0 then 2 ^ 7 - 1 else if sel = 1 then 2 ^ 15 - 1 else 2 ^ 31 - 1

/-- The next `n` bytes of a pattern and the register after them. -/
def prbsBytes (sel : Nat) : Nat → Nat → List Byte × Nat
  | r, 0 => ([], r)
  | r, n + 1 =>
    let (b, r) := prbsByte sel r
    let (bs, r) := prbsBytes sel r n
    (b :: bs, r)

end Sys2Proof.Machine
end

