-- ==== Sys2Proof/Machine/Buffer.lean ====
section
/-! DEFINITION. The shared buffer's operations (chapter 05): cells and descriptors and their accounts, queues and their
tags, the counters by output, class and cause, admission tests 2 to 5, policing, and release. -/

namespace Sys2Proof.Machine

/-- The number of cells (R143). -/
abbrev cellTotal : Nat := 131072
/-- The number of descriptors (R147). -/
abbrev descTotal : Nat := 32768
/-- The top of a 48-bit saturating counter (R165). -/
abbrev top48 : Nat := 2 ^ 48 - 1

/-- The hub with its shared-buffer state changed. -/
def Hub.onFab (h : Hub) (f : FabState → FabState) : Hub := { h with fab := f h.fab }

/-! ### Accounts (R151, R152) -/

/-- Cells reserved by a link input: its allotment in force, 8 cells a unit (R151). -/
def Hub.linkRes (h : Hub) (p : Port) : Nat :=
  let a := (h.links.at p).allot
  8 * (a.p + a.m + a.d + a.b)

/-- Cells and descriptors reserved by the three link inputs together. -/
def Hub.linkResAll (h : Hub) : Nat := h.linkRes .E + h.linkRes .W + h.linkRes .S

/-- The pool's size in cells, FAB_POOL (R151); retired cells shrink it (R463). -/
def Hub.poolCells (h : Hub) : Nat :=
  cellTotal - h.fab.retired.length - h.linkResAll - h.get R.FAB_MRES_CELLS

/-- The descriptor pool's size (R152). -/
def Hub.poolDescs (h : Hub) : Nat := descTotal - h.linkResAll - h.get R.FAB_MRES_CELLS

/-- Cells in use on an account. -/
def Hub.cellsOn (h : Hub) (a : Acct) : Nat :=
  ((h.fab.pkts.vals.filter (fun s => s.acct == a)).map (fun s => s.cells.length)).sum

/-- Every descriptor in a queue. -/
def Hub.queuedDescs (h : Hub) : List Desc := (KMap.vals h.fab.queues).flatMap Queue.items

/-- Every packet held in a descriptor register. -/
def Hub.heldAll (h : Hub) : List Held := (KMap.vals h.tun.ctxs).flatMap Ctx.held

/-- Descriptors in use on an account, those of held packets included (R252). -/
def Hub.descsOn (h : Hub) (a : Acct) : Nat :=
  (h.queuedDescs.filter (fun d => d.acct == a)).length + (h.heldAll.filter (fun d => d.acct == a)).length

/-- Cells in use, FAB_CELLS_FREE's complement. -/
def Hub.cellsUsed (h : Hub) : Nat := (h.fab.pkts.vals.map (fun s => s.cells.length)).sum

/-- Free cells, FAB_CELLS_FREE. -/
def Hub.cellsFree (h : Hub) : Nat := cellTotal - h.fab.retired.length - h.cellsUsed

/-- Free descriptors, FAB_DESC_FREE. -/
def Hub.descsFree (h : Hub) : Nat := descTotal - h.queuedDescs.length - h.heldAll.length

/-- Free cells that stay for link inputs: what each has reserved and does not use (R151). -/
def Hub.cellsKept (h : Hub) : Nat :=
  (h.linkRes .E - h.cellsOn (.link .E)) + (h.linkRes .W - h.cellsOn (.link .W)) + (h.linkRes .S - h.cellsOn (.link .S))

/-- Free descriptors that stay for link inputs (R152). -/
def Hub.descsKept (h : Hub) : Nat :=
  (h.linkRes .E - h.descsOn (.link .E)) + (h.linkRes .W - h.descsOn (.link .W)) + (h.linkRes .S - h.descsOn (.link .S))

/-- Whether `n` cells are free for a local input now: none are allocated during a rebuild (R164), and a reserve raised
over cells in use waits until they are free (R151). -/
def Hub.cellsThere (h : Hub) (n : Nat) : Bool :=
  !h.on R.FAB_STATUS_REBUILD && decide (h.cellsKept + n ≤ h.cellsFree)

/-- Whether a descriptor is free beside those of the link inputs (R152, R164). -/
def Hub.descThere (h : Hub) : Bool := !h.on R.FAB_STATUS_REBUILD && decide (h.descsKept < h.descsFree)

/-- The account a local-input packet's cells come from (R151): the pool; for M the M reserve when the pool cannot hold
the whole packet. -/
def Hub.localCells (h : Hub) (c : Cls) (n : Nat) : Option Acct :=
  if h.cellsThere n = false then none
  else if h.cellsOn .pool + n ≤ h.poolCells then some .pool
  else if c = .M ∧ h.cellsOn .mres + n ≤ h.get R.FAB_MRES_CELLS then some .mres
  else none

/-- The account of one more descriptor for a local-input packet, or for a further copy of a link-input packet when
`reserve` is false (R152). -/
def Hub.localDesc (h : Hub) (reserve : Bool) : Option Acct :=
  if h.descThere = false then none
  else if h.descsOn .pool < h.poolDescs then some .pool
  else if reserve && decide (h.descsOn .mres < h.get R.FAB_MRES_CELLS) then some .mres
  else none

/-! ### Cells (R143, R144) -/

/-- The first cell from `c` up in steps of 8 that is not taken: of a bank's free cells the lowest-numbered goes first
(assumption 137, DESIGN CHOICE). -/
def freeFrom (taken : List Nat) : Nat → Nat → Nat
  | 0, c => c
  | k + 1, c => if taken.contains c then freeFrom taken k (c + 8) else c

/-- The next free cell from bank `b` on, and the bank after it; a full bank is passed over. With no cell free, which a link
allotment raised over a full pool allows, a link packet is given a cell in use
(assumption 137, DESIGN CHOICE; 138, DESIGN CHOICE). -/
def nextCell (taken : List Nat) : Nat → Nat → Nat × Nat
  | 0, b => (b, b)
  | k + 1, b =>
    let c := freeFrom taken (taken.length + 1) b
    if c < cellTotal then (c, (b + 1) % 8) else nextCell taken k ((b + 1) % 8)

/-- `n` cells in rotating bank order (R144), and the bank after the last. -/
def takeCells (taken : List Nat) (bank : Nat) : Nat → List Nat × Nat
  | 0 => ([], bank)
  | n + 1 =>
    let (c, b) := nextCell taken 8 bank
    let (rest, b') := takeCells (c :: taken) b n
    (c :: rest, b')

/-- The shared-buffer window's address of a cell's first byte (R146). -/
def cellAddr (c : Nat) : Nat := 0x800000 + 64 * c

/-- A packet's bytes as its cells hold them (R144): header, then payload. -/
def Packet.bytes (p : Packet) : List Byte := bytesOf (p.header ++ p.payload)

/-- Whether a 64-bit word, by its address / 8, lies in one of some cells. -/
def inCells (cs : List Nat) (w : Nat) : Bool := decide (0x100000 ≤ w) && cs.contains ((w - 0x100000) / 8)

/-- The words of cells are written anew: no error of what they held before is left (R145) (assumption 89, DEDUCED). -/
def Hub.freshCells (h : Hub) (cs : List Nat) : Hub :=
  { h with
    fab := { h.fab with soft := h.fab.soft.filter (fun w => !inCells cs w) }
    tun := { h.tun with bad := h.tun.bad.filter (fun w => !inCells cs w) } }

/-- The 64-bit words that lie wholly in a range are written anew: no error of what they held before is left (R145, R195,
R359). -/
def Hub.freshRange (h : Hub) (a n : Nat) : Hub :=
  let old := fun w => !(decide (a ≤ 8 * w) && decide (8 * w + 8 ≤ a + n))
  { h with
    fab := { h.fab with soft := h.fab.soft.filter old }
    tun := { h.tun with bad := h.tun.bad.filter old } }

/-- A packet takes its cells (R144): `n` cells of account `a`. Answers its place in the buffer. -/
def Hub.store (h : Hub) (p : Packet) (n : Nat) (a : Acct) (arr : Option Port) (orig : Option Nat) : Hub × Nat :=
  let (cs, b) := takeCells ((h.fab.pkts.vals.flatMap Stored.cells) ++ h.fab.retired) h.fab.bank n
  ((h.freshCells cs).onFab (fun f =>
      { f with pkts := KMap.put f.pkts f.nextPid ⟨p, cs, a, 0, arr, orig, [], p.cls⟩, nextPid := f.nextPid + 1, bank := b }),
   h.fab.nextPid)

/-- The bytes of a stored packet's cells: header and payload, with what the test window wrote (R144, R146). -/
def Stored.bytes (s : Stored) : List Byte := s.raw.foldl (fun bs e => bs.set e.1 e.2) s.pkt.bytes

/-! ### Bit errors (R145, R195) -/

/-- The tun whose program or data memory an address lies in; 0 for common memory. -/
def tunOf (a : Nat) : Nat :=
  if a < 0x200000 then (a - 0x100000) / 0x8000 else if a < 0x300000 then (a - 0x200000) / 0x10000 else 0

/-- A single-bit error of a word is corrected and logged: of the buffer at most once per second per bank (R145); for the
non-volatile store R456 assigns no code (R360) (assumption 85, DEDUCED). -/
def Hub.correctWord (h : Hub) (w : Nat) : Hub :=
  let h := h.onFab (fun f => { f with soft := f.soft.filter (· != w) })
  if 0x100000 ≤ w then
    let bank := (w - 0x100000) / 8 % 8
    h.logLim 10 0x01 bank sevC 0 bank 0
  else if 0x80000 ≤ w then h
  else h.log 13 0x06 sevC (tunOf (8 * w)) 0 0

/-- The read of a range corrects the single-bit errors in it (R145, R195) (assumption 55, DEDUCED). -/
def Hub.corrected (h : Hub) (a n : Nat) : Hub :=
  (h.fab.soft.filter (fun w => decide (a < 8 * w + 8) && decide (8 * w < a + n))).foldl Hub.correctWord h

/-- The read of cells corrects the single-bit errors in them (R145). -/
def Hub.readCells (h : Hub) (cs : List Nat) : Hub := (h.fab.soft.filter (inCells cs)).foldl Hub.correctWord h

/-- Whether a stored packet's cells hold an uncorrectable word (R145) (assumption 89, DEDUCED). -/
def Hub.spoilt (h : Hub) (s : Stored) : Bool := h.tun.bad.any (inCells s.cells)

/-- A freed packet's bytes stay in its cells (R146). -/
def Hub.leaveBytes (h : Hub) : List Nat → List Byte → Hub
  | [], _ => h
  | c :: cs, bs => (h.mstore (cellAddr c) (bs.take 64)).leaveBytes cs (bs.drop 64)

/-- A link input's class has released `n` more cells (R89). -/
def Hub.credit (h : Hub) (p : Port) (c : Cls) (n : Nat) : Hub :=
  h.onLink p (fun l => { l with rel := l.rel.set c ((l.rel.at c + n) % 65536) })

/-- A packet's cells return to the free list (R147), credited to the link input they were reserved for (R89). -/
def Hub.freePkt (h : Hub) (pid : Nat) : Hub :=
  match KMap.get? h.fab.pkts pid with
  | none => h
  | some s =>
    let h := h.leaveBytes s.cells s.bytes
    let h := h.onFab (fun f => { f with pkts := KMap.del f.pkts pid })
    match s.acct with
    | .link p => h.credit p s.cls s.cells.length
    | _ => h

/-- One descriptor of a packet is released; the last one frees it (R147). -/
def Hub.release (h : Hub) (pid : Nat) : Hub :=
  match KMap.get? h.fab.pkts pid with
  | none => h
  | some s =>
    if s.refs ≤ 1 then h.freePkt pid
    else h.onFab (fun f => { f with pkts := KMap.put f.pkts pid { s with refs := s.refs - 1 } })

/-- The packet stored at a place, if one is. -/
def Hub.pkt? (h : Hub) (pid : Nat) : Option Packet := (KMap.get? h.fab.pkts pid).map Stored.pkt

/-- Cells of the packet at a place. -/
def Hub.pidCells (h : Hub) (pid : Nat) : Nat :=
  match KMap.get? h.fab.pkts pid with
  | some s => s.cells.length
  | none => 0

/-! ### Queues (R148, R149, R177) -/

/-- A queue. -/
def Hub.queue (h : Hub) (o q : Nat) : Queue := SMap.get (fun _ => Queue.empty) h.fab.queues (qkey o q)

/-- The hub with a queue replaced. -/
def Hub.setQueue (h : Hub) (o q : Nat) (x : Queue) : Hub :=
  h.onFab (fun f => { f with queues := SMap.set (fun _ => Queue.empty) f.queues (qkey o q) x })

/-- The scheduler of an output: 0, 1, 2 for E, W, S; 3 for LOCAL (R170). -/
def schedOf (o : Nat) : Nat := if o < 3 then o else 3

/-- A scheduler's state. -/
def Hub.sched (h : Hub) : Nat → Sched
  | 0 => h.sch.s0
  | 1 => h.sch.s1
  | 2 => h.sch.s2
  | _ => h.sch.s3

/-- The hub with a scheduler's state replaced. -/
def Hub.setSched (h : Hub) (i : Nat) (x : Sched) : Hub :=
  { h with sch := match i with
      | 0 => { h.sch with s0 := x }
      | 1 => { h.sch with s1 := x }
      | 2 => { h.sch with s2 := x }
      | _ => { h.sch with s3 := x } }

/-- Cells queued in a queue. -/
def Hub.queueCells (h : Hub) (o q : Nat) : Nat := ((h.queue o q).items.map (fun d => h.pidCells d.pid)).sum

/-- The keys of an output's queues that hold a packet. -/
def Hub.queueKeys (h : Hub) (o : Nat) : List Nat :=
  (h.fab.queues.filter (fun e => decide (qkey o 0 ≤ e.1) && decide (e.1 < qkey (o + 1) 0) && !e.2.items.isEmpty)).map
    (fun e => e.1 - qkey o 0)

/-- Cells in use of a class at an output, FAB_OUSE (R168). -/
def Hub.outUse (h : Hub) (o : Nat) (c : Cls) : Nat :=
  (((h.queueKeys o).flatMap (fun q => (h.queue o q).items)).map
    (fun d => if d.cls = c then h.pidCells d.pid else 0)).sum

/-- The start tag of a queue that becomes non-empty (R177). -/
def startTag (f v : Nat) : Nat := if subMod (2 ^ 32) f v ≤ 2 ^ 24 then f else v

/-- A descriptor joins the tail of a queue (R149). -/
def Hub.push (h : Hub) (o q : Nat) (d : Desc) : Hub :=
  let x := h.queue o q
  let x' := if x.items.isEmpty then
      { x with items := [d], headAt := h.root, s := startTag x.f ((h.sched (schedOf o)).v.at d.cls), wasP := d.cls == .P }
    else { x with items := x.items ++ [d], wasP := d.cls == .P }
  h.setQueue o q x'

/-- A packet has reached the head of a non-empty queue (R177, R188). -/
def Hub.newHead (h : Hub) (x : Queue) : Queue := { x with headAt := h.root, s := x.f }

/-- The head descriptor leaves a queue. -/
def Hub.dropHead (h : Hub) (o q : Nat) : Hub :=
  let x := h.queue o q
  h.setQueue o q (h.newHead { x with items := x.items.drop 1 })

/-! ### Counters (R165, R166) -/

/-- The key of a counter by output, class and cause. -/
def cntKey (o : Nat) (c : Cls) (cause : Nat) : Nat := (o * 4 + c.ix) * 16 + cause

/-- A counter. -/
def Hub.cnt (h : Hub) (o : Nat) (c : Cls) (cause : Nat) : Nat := SMap.get (fun _ => 0) h.fab.cnt (cntKey o c cause)

/-- A counter advanced by one, saturating at 48 bits. -/
def Hub.bumpCnt (h : Hub) (o : Nat) (c : Cls) (cause : Nat) : Hub :=
  h.onFab (fun f => { f with cnt := SMap.set (fun _ => 0) f.cnt (cntKey o c cause) (satAdd top48 (h.cnt o c cause) 1) })

/-- A packet counted under a cause at an output, the CONTAINED causes 0x0–0x5 and 0xA logged at most once per second
for each output and cause (R166). -/
def Hub.count (h : Hub) (o q : Nat) (c : Cls) (cause : Nat) : Hub :=
  let h := h.bumpCnt o c cause
  if cause ≤ 5 ∨ cause = 10 then
    h.logLim 10 (0x10 + cause) o sevCT (o + q * 16) 0 (h.cnt o c cause % 2 ^ 32)
  else h

/-- The head packet of a queue is discarded under a cause. -/
def Hub.discardHead (h : Hub) (o q cause : Nat) : Hub :=
  match (h.queue o q).items with
  | [] => h
  | d :: _ => ((h.dropHead o q).count o q d.cls cause).release d.pid

/-- Every packet of a list of descriptors counted under a cause and released. -/
def Hub.discardAll (h : Hub) (o q cause : Nat) : List Desc → Hub
  | [] => h
  | d :: ds => ((h.count o q d.cls cause).release d.pid).discardAll o q cause ds

/-- The packets of a queue that `f` names leave it in queue order, counted under a cause. -/
def Hub.purge (h : Hub) (o q cause : Nat) (f : Packet → Option Nat → Bool) : Hub :=
  let x := h.queue o q
  let hit := fun (d : Desc) => match KMap.get? h.fab.pkts d.pid with | some s => f s.pkt s.orig | none => true
  let gone := x.items.filter hit
  let kept := x.items.filter (fun d => !hit d)
  if gone.isEmpty then h
  else
    let x' := { x with items := kept }
    let headGone := match x.items with | d :: _ => hit d | [] => false
    (h.setQueue o q (if headGone then h.newHead x' else x')).discardAll o q cause gone

/-! ### Admission (R150) -/

/-- Where one copy of a packet goes: output, queue, its WEST and WRAP bits, and whether it leaves cut-through and has passed
its expiry test (R158). -/
structure Target where
  out : Nat
  q : Nat
  west : Bool
  wrap : Bool
  tested : Bool
deriving DecidableEq, Repr

/-- The descriptor of one copy of a packet (R147). -/
def Target.desc (t : Target) (pid : Nat) (a : Acct) (p : Packet) : Desc := ⟨pid, a, t.west, t.wrap, p.cls, p.stamp, t.tested⟩

/-- The limit of a queue in cells (R153). -/
def Hub.queueLimit (h : Hub) (o q : Nat) (c : Cls) : Nat :=
  if o < 3 then
    match c with
    | .P => h.get R.FAB_QLIM_P_LIM
    | .M => h.get R.FAB_QLIM_M_LIM
    | .D => h.get R.FAB_QLIM_D_LIM
    | .B => h.get R.FAB_QLIM_B_LIM
  else h.get (R.FAB_TLIM_LIM q)

/-- Admission tests 4 and 5 (R150): the cause of a failure, or none. -/
def Hub.limitFail (h : Hub) (o q : Nat) (c : Cls) (n : Nat) : Option Nat :=
  if h.queueCells o q + n > h.queueLimit o q c then some 2
  else if h.outUse o c + n > h.get (R.FAB_OLIM_LIM o c.ix) then some 3
  else none

/-- Admission tests 2 to 5 for one copy (R150): the account of its descriptor, or the cause of the failure. -/
def Hub.admitTest (h : Hub) (p : Packet) (arr : Option Port) (first : Bool) (t : Target) : Except Nat Acct :=
  match arr with
  | some port =>
    match (if first then some (Acct.link port) else h.localDesc false) with
    | none => .error 5
    | some a =>
      match h.limitFail t.out t.q p.cls p.cells with
      | some c => .error c
      | none => .ok a
  | none =>
    match (if first then h.localCells p.cls p.cells else some .pool) with
    | none => .error 4
    | some _ =>
      match h.localDesc (p.cls == .M) with
      | none => .error 5
      | some a =>
        match h.limitFail t.out t.q p.cls p.cells with
        | some c => .error c
        | none => .ok a

/-- One more descriptor names a stored packet. -/
def Hub.addRef (h : Hub) (pid : Nat) : Hub :=
  match KMap.get? h.fab.pkts pid with
  | none => h
  | some s => h.onFab (fun f => { f with pkts := KMap.put f.pkts pid { s with refs := s.refs + 1 } })

/-- A packet offered to its outputs one after another (R150): each copy that passes is queued, each that fails is
counted. Answers where the packet was stored, if any copy was. A link input's reserved descriptor goes to the first copy
that passes: R152 speaks of 'a second or later copy' and does not say which draws it when the first has failed test 4
or 5 (assumption 109, DESIGN CHOICE). -/
def Hub.enqueue (h : Hub) (p : Packet) (arr : Option Port) (orig : Option Nat) : Option Nat → List Target → Hub × Option Nat
  | pid?, [] => (h, pid?)
  | pid?, t :: ts =>
    match h.admitTest p arr pid?.isNone t with
    | .error cause => (h.count t.out t.q p.cls cause).enqueue p arr orig pid? ts
    | .ok a =>
      match pid? with
      | some pid => ((h.addRef pid).push t.out t.q (t.desc pid a p)).enqueue p arr orig pid? ts
      | none =>
        let acct := match arr with
          | some port => Acct.link port
          | none => (h.localCells p.cls p.cells).getD .pool
        let (h', pid) := h.store p p.cells acct arr orig
        ((h'.addRef pid).push t.out t.q (t.desc pid a p)).enqueue p arr orig (some pid) ts

/-! ### Policing (R154, R155) -/

/-- A policer that has seen nothing (R155). -/
def Pol.reset : Pol := ⟨0, 0, 0, 0⟩

/-- A tunnel's policer. -/
def Hub.pol (h : Hub) (n : Nat) : Pol := SMap.get (fun _ => Pol.reset) h.fab.pol n

/-- The hub with a tunnel's policer replaced. -/
def Hub.setPol (h : Hub) (n : Nat) (x : Pol) : Hub :=
  h.onFab (fun f => { f with pol := SMap.set (fun _ => Pol.reset) f.pol n x })

/-- The bucket's cap in token units (R154). -/
def Hub.polCap (h : Hub) (n : Nat) : Nat := h.get (R.POL_BURST_BURST n) * 4000000

/-- TUNC_BOUND_*n*.BINDING (R203). -/
def Hub.bindingShown (h : Hub) (n : Nat) : Nat := h.get (R.TUNC_BOUND_BINDING n)

/-- The binding that handles a local tunnel's packets: MODE, CLASS, ENDPOINT, ARG. While a change is pending, that is the
new one from the boundary of the old queue's output on (R30). -/
def Hub.binding (h : Hub) (n : Nat) : Nat :=
  match h.fab.sparge.bind Sparge.bind with
  | some c => if c.tunnel = n ∧ c.switched = true then c.binding else h.bindingShown n
  | none => h.bindingShown n

/-- MODE of the binding in force: 0 unbound, 1 DIRECT, 2 PROGRAM. -/
def Hub.bindMode (h : Hub) (n : Nat) : Nat := slice (h.binding n) 0 2

/-- CLASS of the binding in force. -/
def Hub.bindCls (h : Hub) (n : Nat) : Cls := Cls.ofIx (slice (h.binding n) 2 2)

/-- ENDPOINT of the binding in force. -/
def Hub.bindEnd (h : Hub) (n : Nat) : Nat := slice (h.binding n) 4 6

/-- ARG of the binding in force. -/
def Hub.bindArg (h : Hub) (n : Nat) : Nat := slice (h.binding n) 10 8

/-- Whether a tunnel's policer is active (R155): EN, or a binding of class P. -/
def Hub.polActive (h : Hub) (n : Nat) : Bool :=
  h.on (R.POL_CFG_EN n) || (h.bindMode n != 0 && h.bindCls n == .P)

/-- The bucket refilled at the RATE in force up to now (R154). -/
def Hub.polRefill (h : Hub) (n : Nat) : Pol :=
  let x := h.pol n
  { x with tokens := min (h.polCap n) (x.tokens + h.get (R.POL_RATE_RATE n) * (h.now - x.last)), last := h.now }

/-- Whether the policer would let a packet of `b` bytes through now. -/
def Hub.polConforms (h : Hub) (n b : Nat) : Bool :=
  !h.polActive n || decide ((h.polRefill n).tokens ≥ b * 4000000)

/-- A packet of `b` bytes from a local tunnel is policed (R154, R155): charged and passed, or dropped and counted. -/
def Hub.police (h : Hub) (n b : Nat) : Hub × Bool :=
  if h.polActive n then
    let x := h.polRefill n
    if x.tokens ≥ b * 4000000 then
      (h.setPol n { x with tokens := x.tokens - b * 4000000, pass := satAdd top48 x.pass 1 }, true)
    else (h.setPol n { x with drop := satAdd top48 x.drop 1 }, false)
  else
    let x := h.pol n
    (h.setPol n { x with pass := satAdd top48 x.pass 1 }, true)

/-! ### Ageing (R157, R158) -/

/-- The age limit of a class in ticks of 2 ns: units of 1.024 µs (R157, R168). -/
def Hub.ageLimit (h : Hub) : Cls → Nat
  | .P => h.get R.FAB_AGE_P_AGE * 512
  | .M => h.get R.FAB_AGE_M_AGE * 512
  | .D => h.get R.FAB_AGE_D_AGE * 512
  | .B => h.get R.FAB_AGE_B_AGE * 512

/-- A stored packet as its descriptor records it: class and STAMP (R147). -/
def Desc.seen (d : Desc) (p : Packet) : Packet := { p with cls := d.cls, stamp := d.stamp }

/-- Whether a packet has expired (R157). -/
def Hub.expired (h : Hub) (p : Packet) : Bool := decide (h.ageLimit p.cls < h.age p.stamp)

/-- Bytes the policer charges for a packet (R154). -/
def Packet.polBytes (p : Packet) : Nat := 16 + 4 * p.length

end Sys2Proof.Machine
end

