-- ==== Sys2Proof/Machine/Route.lean ====
section
/-! DEFINITION. Where a packet goes (chapter 03): tunnel IDs and header checks, the acceptance window (R94), tunnel
sequences (R92), the routing order (R95–R99), route holds (R102), and sending a packet of the hub's own. -/

namespace Sys2Proof.Machine

/-! ### Names (R20, R23) -/

/-- The hub of a tunnel ID. -/
def hubOf (tid : Nat) : Nat := tid / 128

/-- The index of a tunnel ID. -/
def idxOf (tid : Nat) : Nat := tid % 128

/-- Whether a tunnel ID is valid (R23). -/
def tidValid (tid : Nat) : Bool :=
  let a := hubOf tid
  a == 0 || (decide (a ≤ 64) && decide (idxOf tid ≤ 95)) || (a == 127 && decide (idxOf tid ≤ 95))

/-- The link queue of a tunnel ID (R148). -/
def linkQueue (tid : Nat) : Nat := if hubOf tid = 127 then 8320 + idxOf tid else tid

/-- The output of a local tunnel's queue under a binding (R148): none while it is unbound. -/
def bindOut (b : Nat) : Option Nat :=
  if slice b 0 2 = 0 then none
  else if slice b 0 2 = 2 then some 13
  else
    let e := slice b 4 6
    if e = 1 then some 3
    else if 2 ≤ e ∧ e ≤ 4 then some 4
    else if 5 ≤ e ∧ e ≤ 7 then some 5
    else if 8 ≤ e ∧ e ≤ 11 then some (6 + (e - 8))
    else if e = 16 then some 10
    else if 24 ≤ e ∧ e ≤ 35 then some 11
    else some 12

/-- The output of a local tunnel's queue by the binding in force (R148). -/
def Hub.localOut (h : Hub) (n : Nat) : Option Nat := bindOut (h.binding n)

/-- A context. -/
def Hub.ctx (h : Hub) (n : Nat) : Ctx := SMap.get (fun _ => Ctx.empty) h.tun.ctxs n

/-- The hub with a context replaced. -/
def Hub.setCtx (h : Hub) (n : Nat) (x : Ctx) : Hub :=
  { h with tun := { h.tun with ctxs := SMap.set (fun _ => Ctx.empty) h.tun.ctxs n x } }

/-- STATE of a context: 0 EMPTY, 1 LOADING, 2 RUNNING, 3 WAITING, 4 HALTED, 5 TRAPPED, 6 MOVING (R214). -/
def Hub.ctxState (h : Hub) (n : Nat) : Nat := h.get (R.TUNC_CTX_STATUS_STATE n)

/-- A latched event of a context (R200). -/
def Hub.latchEvent (h : Hub) (b n : Nat) : Hub :=
  let x := h.ctx n
  h.setCtx n { x with events := setSlice x.events b 1 1 }

/-- A latched event of every context (R200: EPOCH, LINK, TIME). -/
def Hub.latchAll (h : Hub) (b : Nat) : Hub := (List.range 96).foldl (fun h n => h.latchEvent b n) h

/-- Event bits (R200). -/
abbrev evPkt : Nat := 0
/-- ADP_IN. -/
abbrev evAdpIn : Nat := 1
/-- ADP_ROOM. -/
abbrev evAdpRoom : Nat := 2
/-- TIMER. -/
abbrev evTimer : Nat := 3
/-- EPOCH. -/
abbrev evEpoch : Nat := 4
/-- MAIL. -/
abbrev evMail : Nat := 5
/-- DONE. -/
abbrev evDone : Nat := 6
/-- LINK. -/
abbrev evLink : Nat := 7
/-- TIME. -/
abbrev evTime : Nat := 8

/-! ### What a link that goes down takes from station time (R113, R125, R130) -/

/-- TIME_DELAY_W, TIME_DELAY_E or TIME_DELAY_S. -/
def aDelay : Port → Nat
  | .E => A.TIME_DELAY_E
  | .W => A.TIME_DELAY_W
  | .S => A.TIME_DELAY_S

/-- The hop delay held for a port. -/
def Hub.delay (h : Hub) (p : Port) : Nat := h.get ⟨aDelay p, 0, 24⟩

/-- Whether a port's hop delay is calibrated (assumption 103, DEDUCED). -/
def Hub.calibrated (h : Hub) (p : Port) : Bool := h.on ⟨aDelay p, 31, 1⟩

/-- A candidate's last window has passed, or has not. -/
def Hub.setFail (h : Hub) (p : Port) (bad : Bool) : Hub :=
  { h with tm := match p with
      | .W => { h.tm with failW := bad }
      | .E => { h.tm with failE := bad }
      | .S => h.tm }

/-- A link went down: markers, delay, window and offset of the port are forgotten. -/
def Hub.portTimeDown (h : Hub) (p : Port) : Hub :=
  let h := ((h.onTimePort p (fun _ => .reset)).setFail p true).wr (aDelay p) 0
  match p with
  | .E => h.wr A.CLK_OFFSET_E 0
  | .W => h.wr A.CLK_OFFSET_W 0
  | .S => h

/-- A packet counted against a local tunnel (R26, R28) (assumption 30, DEDUCED). -/
def Hub.countTunnel (h : Hub) (n : Nat) : Hub :=
  h.onFab (fun f => { f with unbound := SMap.set (fun _ => 0) f.unbound n (SMap.get (fun _ => 0) f.unbound n + 1) })

/-! ### Link log entries (R105, R456) -/

/-- An entry of a link port, DETAIL1 its LNKE_STATUS (R456). -/
def Hub.lnkLog (h : Hub) (p : Port) (code sev d0 d2 : Nat) : Hub :=
  h.log (14 + p.ix) code sev d0 (h.rd (A.LNK_STATUS p.ix)).toNat d2

/-- A CORRECTED entry of a link port, at most once per second per port, kind and instance (R105). -/
def Hub.lnkLogLim (h : Hub) (p : Port) (code inst d0 d2 : Nat) : Hub :=
  h.logLim (14 + p.ix) code inst sevC d0 (h.rd (A.LNK_STATUS p.ix)).toNat d2

/-- A packet with no usable route (R95 order 7) (assumption 99, DEDUCED). -/
def Hub.countNoRoute (h : Hub) (p : Port) (dest : Nat) : Hub :=
  let h := h.bump (R.LNK_NOROUTE p.ix)
  h.lnkLog p 0x0C sevCT dest (h.get (R.LNK_NOROUTE p.ix))

/-- A packet that could not be wrapped or continued (R95 order 3, R99, R105). -/
def Hub.countWrapDrop (h : Hub) (p : Port) (dest : Nat) : Hub :=
  let h := h.bump (R.LNK_WRAP_DROP p.ix)
  h.lnkLog p 0x0D sevCT dest (h.get (R.LNK_WRAP_DROP p.ix))

/-! ### The acceptance window (R94) -/

/-- What the window says of a packet. -/
inductive WinRes where
  | accept
  | outside
  | duplicate
deriving DecidableEq, Repr

/-- The key of a window entry: local tunnel and source address. -/
def winKey (n src : Nat) : Nat := n * 128 + src

/-- The window test (R94). `outside` accepts and counts LNKE_WIN_OUT; a packet that RESYNC accepts is not tested further and
counts LNKE_WIN_RESYNC alone (assumption 131, DESIGN CHOICE). -/
def Hub.winTest (h : Hub) (n : Nat) (p : Packet) : WinRes :=
  match KMap.get? h.rt.win (winKey n p.src) with
  | none => .accept
  | some w =>
    let d := subMod 65536 p.tseq w.last
    if p.resync && !(w.r && d == 0) then .accept
    else if 1 ≤ d ∧ d ≤ 4096 then .accept
    else if 4097 ≤ d ∧ d ≤ 61439 then .outside
    else .duplicate

/-- The window entry after an accepted packet, and its counts (R94). The window counters are hub-wide, held in LNKE
(assumption 131, DESIGN CHOICE). -/
def Hub.winTake (h : Hub) (n : Nat) (p : Packet) (port : Port) : Hub :=
  let out := h.winTest n p == .outside
  let h := { h with rt := { h.rt with win := KMap.put h.rt.win (winKey n p.src) ⟨p.tseq, p.resync⟩ } }
  let h := if p.resync then h.bump (R.LNK_WIN_RESYNC 0) else h
  if out then
    let h := h.bump (R.LNK_WIN_OUT 0)
    h.lnkLog port 0x0F sevCT p.dest (h.get (R.LNK_WIN_OUT 0))
  else h

/-- A duplicate discarded (R94). -/
def Hub.winDup (h : Hub) (p : Packet) : Hub :=
  if p.cls = .P then { h with rt := { h.rt with dupP := satAdd top48 h.rt.dupP 1 } }
  else h.bump (R.LNK_WIN_DUP 0)

/-! ### Tunnel sequences (R92) -/

/-- The counters of a local tunnel, most recently used first. -/
def Hub.tctrs (h : Hub) (n : Nat) : List TCtr := SMap.get (fun _ => []) h.rt.tseq n

/-- The TSEQ and RESYNC the next packet to a destination would take. -/
def Hub.tseqPeek (h : Hub) (n dest : Nat) : Nat × Bool :=
  match (h.tctrs n).find? (fun c => c.dest == dest) with
  | some c => (c.next, c.resync)
  | none => (0, true)

/-- The next TSEQ is taken: the counter moves to the front of the four, its pending RESYNC cleared. -/
def Hub.tseqTake (h : Hub) (n dest : Nat) : Hub :=
  let (k, _) := h.tseqPeek n dest
  let rest := (h.tctrs n).filter (fun c => c.dest != dest)
  { h with rt := { h.rt with tseq := SMap.set (fun _ => []) h.rt.tseq n ((⟨dest, (k + 1) % 65536, false⟩ :: rest).take 4) } }

/-! ### The routing order (R95–R99) -/

/-- A route entry's PORT, if the entry is VALID and names a link port. -/
def Hub.entryPort (h : Hub) (a : Nat) : Option Port :=
  if h.on (R.LNK_ROUTE_VALID 0 a) then Port.ofCode (h.get (R.LNK_ROUTE_PORT 0 a)) else none

/-- Where a packet goes; `entry` is the route entry whose PORT chose the way, if one did (R102). -/
inductive Way where
  /-- to a local tunnel (order 1) -/
  | deliver (n : Nat)
  /-- broadcast (order 2) -/
  | bcast (n : Nat)
  /-- a wrapped packet whose onward port is not up (order 3) -/
  | wrapDead (p : Port)
  /-- P copies, and the ports at which a copy is dropped (order 4) -/
  | copies (ts : List Target) (dropped : List Port) (entry : Option Nat)
  /-- out a port (orders 3, 5, 6) -/
  | out (p : Port) (entry : Option Nat)
  /-- wrapped away from a port that is not up (R99) -/
  | wrapped (p : Port) (entry : Option Nat)
  /-- could not be wrapped (R99) -/
  | wrapDrop (p : Port)
  /-- no usable route (order 7) -/
  | none_
deriving DecidableEq, Repr

/-- Out a port for an M, D or B packet: wrapped, or dropped, if the port is not up (R99). -/
def Hub.outOrWrap (h : Hub) (p : Packet) (port : Port) (entry : Option Nat) : Way :=
  if h.usable port then .out port entry
  else if h.on (R.LNK_PKT_CTRL_WRAP_EN port.ix) && port != .S && !p.wrap && h.usable port.other then .wrapped port entry
  else .wrapDrop port

/-- A target at a link output. -/
def linkTarget (p : Packet) (port : Port) (west wrap : Bool) : Target := ⟨port.ix, linkQueue p.dest, west, wrap, false⟩

/-- P copies onto ports: the targets of those that may carry them and the ports that drop theirs (R96). `launch` sets
WEST in the copy sent on W. -/
def Hub.copiesTo (h : Hub) (p : Packet) (launch : Bool) (ports : List Port) (entry : Option Nat) : Way :=
  .copies
    ((ports.filter h.usable).map (fun q => linkTarget p q (if launch then q == .W else p.west) p.wrap))
    (ports.filter (fun q => !h.usable q)) entry

/-- The way of a copy that continues (R96): out S where the entry says so, else out the other ring port. -/
def Hub.continueP (h : Hub) (p : Packet) (a : Nat) (arr : Port) : Way :=
  if h.entryPort a = some .S then h.copiesTo p false [.S] (some a) else h.copiesTo p false [arr.other] none

/-- The way of a class-P packet (R96): launched by P_E and P_W or by PORT, or continued; an entry whose PORT is 0b00
launches by P_E and P_W like any other and has no way where neither is set (assumption 116, DESIGN CHOICE). -/
def Hub.wayP (h : Hub) (p : Packet) (arr : Option Port) : Way :=
  let a := hubOf p.dest
  match arr with
  | some .E => h.continueP p a .E
  | some .W => h.continueP p a .W
  | _ =>
    let v := h.on (R.LNK_ROUTE_VALID 0 a)
    let e := v && h.on (R.LNK_ROUTE_P_E 0 a)
    let w := v && h.on (R.LNK_ROUTE_P_W 0 a)
    if e || w then h.copiesTo p true ((if e then [Port.E] else []) ++ (if w then [Port.W] else [])) none
    else
      match h.entryPort a with
      | some port => if some port = arr then .none_ else h.copiesTo p true [port] (some a)
      | none => .none_

/-- The way of an accepted packet, or of the hub's own (R95). -/
def Hub.way (h : Hub) (p : Packet) (arr : Option Port) : Way :=
  let a := hubOf p.dest
  if h.hasAddr && a == h.addr then .deliver (idxOf p.dest)
  else if a = 127 then .bcast (idxOf p.dest)
  else if p.wrap && (arr == some .E || arr == some .W) then
    let spur := h.entryPort a == some .S
    let port := if spur then .S else (arr.getD .E).other
    if h.usable port then .out port (if spur then some a else none) else .wrapDead port
  else if p.cls = .P then h.wayP p arr
  else
    match h.entryPort a with
    | some port =>
      if some port = arr then .none_ else h.outOrWrap p port (some a)
    | none =>
      if a = 0 && !h.on (R.LNK_ROUTE_VALID 0 0) then
        match Port.ofCode (h.get R.DEV_STATUS_ENUM_PORT) with
        | some port => h.outOrWrap p port none
        | none => .none_
      else .none_

/-- Counts of P copies dropped at their onward ports (R96). -/
def Hub.countCopyDrops (h : Hub) : List Port → Hub
  | [] => h
  | p :: ps => (h.bump (R.LNK_P_COPY_DROP p.ix)).countCopyDrops ps

/-- The link-output targets of a way and its counts; local delivery and broadcast are handled by the caller
(assumption 133, DESIGN CHOICE). -/
def Hub.takeWay (h : Hub) (p : Packet) (port : Port) : Way → Hub × List Target
  | .copies ts ds _ => (h.countCopyDrops ds, ts)
  | .out q _ => (h, [linkTarget p q p.west p.wrap])
  | .wrapped q _ => (h.bump (R.LNK_WRAPPED q.ix), [linkTarget p q.other p.west true])
  | .wrapDead q => (h.countWrapDrop q p.dest, [])
  | .wrapDrop q => (h.countWrapDrop q p.dest, [])
  | .none_ => (h.countNoRoute port p.dest, [])
  | .deliver _ => (h, [])
  | .bcast _ => (h, [])

/-- The local target of a packet for a local tunnel, or the tunnel's count (R26, R28, R216). -/
def Hub.localTarget (h : Hub) (n : Nat) (c : Cls) : Hub × List Target :=
  match h.localOut n with
  | some o =>
    if (h.ctx n).discard && h.bindMode n == 2 then (h.countTunnel n, [])
    else if h.bindCls n = c then (h, [⟨o, n, false, false, false⟩])
    else (h.countTunnel n, [])
  | none => (h.countTunnel n, [])

/-- Cells of a discarded link-input packet go back to its sender (R87). -/
def Hub.creditBack (h : Hub) (arr : Option Port) (p : Packet) : Hub :=
  match arr with
  | some port => h.credit port p.cls p.cells
  | none => h

/-- A packet accepted into the buffer is offered to its targets; with none admitted its cells go back. -/
def Hub.admitOr (h : Hub) (p : Packet) (arr : Option Port) (orig : Option Nat) (ts : List Target) : Hub × Bool :=
  let (h', r) := h.enqueue p arr orig none ts
  match r with
  | some _ => (h', true)
  | none => (h'.creditBack arr p, false)

/-- Every up port but the arrival port and open ends (R98). -/
def Hub.bcastPorts (h : Hub) (arr : Option Port) : List Port :=
  Port.all.filter (fun q => h.usable q && some q != arr)

/-- A packet joins the packets held for its destination (R102) (assumption 27, DEDUCED). -/
def Hub.hold (h : Hub) (a : Nat) (x : HeldPkt) : Hub :=
  match KMap.get? h.rt.holds a with
  | some y => { h with rt := { h.rt with holds := KMap.put h.rt.holds a { y with pkts := y.pkts ++ [x] } } }
  | none => h

/-- The destination whose hold catches a packet on this way (R102), if one does (assumption 27, DEDUCED). -/
def Hub.holdOf (h : Hub) : Way → Option Nat
  | .out _ (some a) => if (KMap.get? h.rt.holds a).isSome then some a else none
  | .wrapped _ (some a) => if (KMap.get? h.rt.holds a).isSome then some a else none
  | .copies _ _ (some a) => if (KMap.get? h.rt.holds a).isSome then some a else none
  | _ => none

/-- The output at which an arrival for a local tunnel is sparged as it completes: one that began before the boundary of a
sparge that changed the tunnel's binding (R30) (assumption 132, DESIGN CHOICE). -/
def Hub.lateOut (h : Hub) (n : Nat) (early : Bool) : Option Nat := if early then KMap.get? h.fab.late n else none

/-- Credit available to a class (R90): none until a sane CREDIT has come. -/
def LinkPort.avail (l : LinkPort) (c : Cls) : Nat :=
  if l.seen.at c = 0 then 0 else subMod 65536 (l.limit.at c) (l.used.at c)

/-! ### Transmitters in FREE (R111) -/

/-- CLK_STATUS.MODE. -/
def Hub.clkMode (h : Hub) : Nat := h.get R.CLK_STATUS_MODE

/-- Clock modes (CLK_STATUS.MODE). -/
abbrev ckFree : Nat := 0
abbrev ckAcquire : Nat := 1
abbrev ckRing : Nat := 2
abbrev ckStepHold : Nat := 3
abbrev ckHoldover : Nat := 4

/-- Whether every transmit pair is held in electrical idle: mode FREE (R111, R119). -/
def Hub.silent (h : Hub) : Bool := h.clkMode == ckFree

/-- Whether a packet may have begun to leave cut-through on an output (R72); in FREE none does (R111). -/
def Hub.mayCut (h : Hub) (p : Packet) (out : Port) : Bool :=
  !h.silent && h.on (R.LNK_PKT_CTRL_CUT_EN out.ix) && h.usable out && (h.queue out.ix (linkQueue p.dest)).items.isEmpty
    && decide (p.cells ≤ (h.links.at out).avail p.cls)

/-- The copy of a packet that leaves cut-through on an output is tested for expiry as it is admitted, and not again (R158): one
that has expired is discarded under cause 0x0, beside the packet's other copies. -/
def Hub.cutTest (h : Hub) (p : Packet) (cut : Option Port) (ts : List Target) : Hub × List Target :=
  match cut with
  | none => (h, ts)
  | some out =>
    if !h.mayCut p out then (h, ts)
    else if h.expired p then
      ((ts.filter (fun t => t.out == out.ix)).foldl (fun h t => h.count t.out t.q p.cls 0) h,
       ts.filter (fun t => t.out != out.ix))
    else (h, ts.map (fun t => { t with tested := t.out == out.ix }))

/-- A packet that arrived on a link and passed the receive checks is routed (R95–R99) and admitted; `early` marks one
whose arrival had begun before the latest boundary of a binding change (R30), and `cut` the output on which it leaves
cut-through (R72). -/
def Hub.forward (h : Hub) (p : Packet) (port : Port) (early : Bool) (cut : Option Port) : Hub :=
  let arr := some port
  match h.way p arr with
  | .deliver n =>
    match h.lateOut n early with
    | some o => (h.count o n p.cls 7).creditBack arr p
    | none =>
      match h.winTest n p with
      | .duplicate => (h.winDup p).creditBack arr p
      | _ =>
        let (h, ts) := (h.winTake n p port).localTarget n p.cls
        (h.admitOr p arr none ts).1
  | .bcast n =>
    match h.winTest n p with
    | .duplicate => (h.winDup p).creditBack arr p
    | _ =>
      let h := h.winTake n p port
      let (h, ts) := match h.lateOut n early with
        | some o => (h.count o n p.cls 7, [])
        | none => h.localTarget n p.cls
      let (h, ts) := h.cutTest p cut (ts ++ (h.bcastPorts arr).map (fun q => linkTarget p q false false))
      (h.admitOr p arr none ts).1
  | w =>
    match h.holdOf w with
    | some a => h.hold a ⟨p, arr, none⟩
    | none =>
      let (h, ts) := h.takeWay p port w
      let (h, ts) := h.cutTest p cut ts
      (h.admitOr p arr none ts).1

/-! ### Packets of the hub's own (R74, R92, R150) -/

/-- What became of a packet of the hub's own: admitted or held, refused by its policer, admitted nowhere for lack of room,
without a destination or a route, or discarded and counted where it was routed (R26, R94, R96, R99). -/
inductive Sent where
  | ok
  | policed
  | noRoom
  | badDest
  | gone
deriving DecidableEq, Repr

/-- Whether a packet has left its sender: admitted or held, or discarded where it was routed and counted there. -/
def Sent.left : Sent → Bool
  | .ok => true
  | .gone => true
  | _ => false

/-- Whether a packet failed its admission: for its policer or for lack of room (R150, R153, R154). -/
def Sent.refused : Sent → Bool
  | .policed => true
  | .noRoom => true
  | _ => false

/-- The packet of a local tunnel as it would be admitted now: SRC, TSEQ and RESYNC set (R74, R92). -/
def Hub.ownPacket (h : Hub) (n dest : Nat) (c : Cls) (kind aux stamp : Nat) (payload : List Word) : Packet :=
  let (k, r) := h.tseqPeek n dest
  { dest := dest, cls := c, src := h.addr, kind := kind, hops := 0, lseq := 0, wrap := false, west := false,
    resync := r, tseq := k, aux := aux, stamp := stamp, payload := payload }

/-- The targets of a packet that tunnel `m` of the hub sends, window test included when it is for one of the hub's own
tunnels; one that the window discards has been sent and takes its TSEQ (R92, R94). With no target the packet is gone and
counted. -/
def Hub.ownTargets (h : Hub) (m : Nat) (p : Packet) : Hub × List Target :=
  match h.way p none with
  | .deliver n =>
    match h.winTest n p with
    | .duplicate => ((h.winDup p).tseqTake m p.dest, [])
    | _ => h.localTarget n p.cls
  | .bcast _ => (h.countNoRoute h.ownPort p.dest, [])
  | w => h.takeWay p h.ownPort w

/-- After its admission, a packet of the hub's own has taken its TSEQ, and its window entry when it is for the hub. -/
def Hub.ownTaken (h : Hub) (n : Nat) (p : Packet) : Hub :=
  let h := h.tseqTake n p.dest
  match h.way p none with
  | .deliver m => h.winTake m p h.ownPort
  | _ => h

/-- Whether a packet to a destination has no route (R95 order 7) or the hub has no address (R17); a broadcast of the hub's
own has none, since only the head originates one (R98) (assumption 119, DESIGN CHOICE). -/
def Hub.unroutable (h : Hub) (p : Packet) : Bool :=
  !h.hasAddr || (match h.way p none with | .none_ => true | .bcast _ => true | _ => false)

/-- A header error of a packet counted at a port (R79, R105). -/
def Hub.countHdrErr (h : Hub) (p : Port) (dest : Nat) : Hub :=
  let h := h.bump (R.LNK_HDR_ERR p.ix)
  h.lnkLog p 0x0A sevCT dest (h.get (R.LNK_HDR_ERR p.ix))

/-- A packet of the hub's own past its policer goes where the route sends it (R95, R99, R102): held, admitted and
numbered, or gone. -/
def Hub.launch (h : Hub) (n : Nat) (p : Packet) : Hub × Sent :=
  match h.holdOf (h.way p none) with
  | some a => (h.hold a ⟨p, none, some n⟩, .ok)
  | none =>
    match h.ownTargets n p with
    | (h, []) => (h, .gone)
    | (h, ts) =>
      match h.enqueue p none (some n) none ts with
      | (h, some _) => (h.ownTaken n p, .ok)
      | (h, none) => (h, .noRoom)

/-- A local tunnel sends a packet into the fabric: policed (R154), routed (R95), admitted (R150), numbered (R92). A packet
with no address or no route is counted as no route (R17, R95 order 7), one with an invalid destination as a header error
(R23). The policer comes before the route (assumption 119, DESIGN CHOICE). -/
def Hub.send (h : Hub) (n dest : Nat) (c : Cls) (kind aux stamp : Nat) (payload : List Word) : Hub × Sent :=
  let p := h.ownPacket n dest c kind aux stamp payload
  let (h, conforms) := h.police n p.polBytes
  if !conforms then (h, .policed)
  else if !tidValid dest then (h.countHdrErr h.ownPort dest, .badDest)
  else if h.unroutable p then (h.countNoRoute h.ownPort dest, .badDest)
  else h.launch n p

/-- A packet from the management tunnel to the head (tunnel ID 0), such as a COMPLETION or an EVENT. -/
def Hub.sendM (h : Hub) (kind aux : Nat) (payload : List Word) : Hub × Sent :=
  h.send 0 0 .M kind aux h.stamp payload

end Sys2Proof.Machine
end

