-- ==== Sys2Proof/Machine/Buckets.lean ====
section
/-! DEFINITION. Gears, active grants and the schedulers' buckets (R170–R173, R178, R184): what the lane layer and the
schedulers share. -/

namespace Sys2Proof.Machine

/-- The gear in force, Gear 1 while untrained. -/
def Hub.gear (h : Hub) (p : Port) : Nat := max 1 (h.get (R.LNK_STATUS_GEAR p.ix))

/-- The grant entry of a scheduler's bank: (QUEUE, UNITS), when valid. -/
def Hub.grant? (h : Hub) (s b e : Nat) : Option (Nat × Nat) :=
  if h.on (R.SCH_GRANT_VALID s b e) then
    some (if s = 3 then e else h.get (R.SCH_GRANT_QUEUE s b e), h.get (R.SCH_GRANT_UNITS s b e))
  else none

/-- The valid entries of a bank (R178). -/
def Hub.bankEntries (h : Hub) (s b : Nat) : List (Nat × Nat) :=
  (List.range (if s = 3 then 96 else 128)).filterMap (fun e => h.grant? s b e)

/-- The active D grants of a scheduler, the larger of old and new while settling (R184): (queue, units). -/
def Hub.activeGrants (h : Hub) (s : Nat) : List (Nat × Nat) :=
  let now := h.bankEntries s (h.get R.SCH_STATUS_ACTIVE_BANK)
  let old := (h.sch.settle.filter (fun e => decide (qkey s 0 ≤ e.1) && decide (e.1 < qkey (s + 1) 0))).map
    (fun e => (e.1 - qkey s 0, e.2))
  let oldOf := fun q => ((old.find? (fun e => e.1 == q)).map Prod.snd).getD 0
  now.map (fun e => (e.1, max e.2 (oldOf e.1))) ++ old.filter (fun e => !now.any (fun n => n.1 == e.1))

/-! ### Buckets (R170, R172, R173) -/

/-- A word slot in root periods of 0.25 ns (R170). -/
def Hub.slotUnits (h : Hub) (s : Nat) : Nat :=
  if s = 3 then 4 else 16 / 2 ^ (h.gear (Port.ofIx s) - 1)

/-- UNITS × 135 / 128, rounded up (R173). -/
def dresOf (units : Nat) : Nat := ceilDiv (units * 135) 128

/-- DRES of a scheduler (R173). -/
def Hub.dres (h : Hub) (s : Nat) : Nat := ((h.activeGrants s).map (fun e => dresOf e.2)).sum

/-- The granted D queues of a scheduler (R172): (queue, units), units not zero. -/
def Hub.granted (h : Hub) (s : Nat) : List (Nat × Nat) := (h.activeGrants s).filter (fun e => e.2 != 0)

/-- A P or M gain, scaled by width/4 in Narrow mode (R172) (assumption 23, DEDUCED). -/
def Hub.narrowGain (h : Hub) (s g : Nat) : Nat :=
  if s < 3 ∧ h.on (R.LNK_STATUS_TX_NARROW s) = true then g * (h.links.at (Port.ofIx s)).tx.width / 4 else g

/-- A bucket after `n` word slots: credit gained up to its cap (R172); a bucket above a cap lowered by SCH_PBURST keeps its
credit and gains none (assumption 141, DESIGN CHOICE). -/
def gainTo (cap b gain : Int) (n : Nat) : Int := if b ≥ cap then b else min cap (b + gain * n)

/-- Cap of the P bucket (R172). -/
def Hub.pCap (h : Hub) : Int := Int.ofNat (h.get R.SCH_PBURST_DEPTH * 135 * 4096)

/-- Cap of the M bucket (R172). -/
def mCap : Int := 2 * 135 * 4096

/-- Cap of a D bucket (R172). -/
def dCap : Int := 2 * 135 * 524288

/-- A D queue's bucket (R172); a queue whose grant is new starts at zero (R183). -/
def Sched.dBucket (x : Sched) (q : Nat) : Int := (KMap.get? x.dB q).getD 0

/-- A scheduler's buckets brought up to now (R172): one gain per word slot since the last, at the rates in force, so that
a rate that changes is brought up to the change first. -/
def Hub.refill (h : Hub) (s : Nat) : Hub :=
  let x := h.sched s
  let u := h.slotUnits s
  let n := (h.root - x.last) / u
  let pc := h.get R.SCH_PCAP_ACTIVE
  h.setSched s { x with
    last := x.last + n * u
    pB := gainTo h.pCap x.pB (h.narrowGain s pc) n
    mB := gainTo mCap x.mB (h.narrowGain s (4096 - pc - h.dres s)) n
    dB := (h.granted s).foldl (fun m e => KMap.put m e.1 (gainTo dCap (x.dBucket e.1) (135 * e.2) n)) [] }

/-- A function applied to the four schedulers. -/
def Hub.eachSched (h : Hub) (f : Hub → Nat → Hub) : Hub := [0, 1, 2, 3].foldl f h

/-- Buckets full, those of the granted D queues included (R172: as a port enters ACTIVE, and LOCAL on release)
(assumption 141, DESIGN CHOICE). -/
def Hub.fillBuckets (h : Hub) (s : Nat) : Hub :=
  let x := h.sched s
  h.setSched s { x with
    last := h.root, pB := h.pCap, mB := mCap
    dB := (h.granted s).foldl (fun m e => KMap.put m e.1 dCap) [] }

end Sys2Proof.Machine
end

