-- ==== Sys2Proof/Machine/Lanes.lean ====
section
/-! DEFINITION. The lane layer of a link port (chapter 02): columns and rebuild, failed lanes and widths, ordered sets
and training, loopbacks, withdrawal, Lull and Shed. -/

namespace Sys2Proof.Machine

/-! ### States and lanes -/

/-- The training state (LNKE_STATUS.STATE). -/
def Hub.lstate (h : Hub) (p : Port) : Nat := h.get (R.LNK_STATUS_STATE p.ix)

/-- The hub with a port's training state replaced and the run of accepted sets restarted (R50). -/
def Hub.toState (h : Hub) (p : Port) (st : Nat) : Hub :=
  (h.put (R.LNK_STATUS_STATE p.ix) st).onLink p (fun l =>
    { l with run := 0, lastTs2 := none, sets := 0, ready := false })

/-- Training states (LNKE_STATUS.STATE). -/
abbrev stDisabled : Nat := 0x00
abbrev stDetectAttach : Nat := 0x01
abbrev stDetectRx : Nat := 0x02
abbrev stLock : Nat := 0x03
abbrev stDeskew : Nat := 0x04
abbrev stOrient : Nat := 0x05
abbrev stCaps : Nat := 0x06
abbrev stGearStep : Nat := 0x07
abbrev stEqTrain : Nat := 0x08
abbrev stEqCheck : Nat := 0x09
abbrev stActive : Nat := 0x0A
abbrev stMiswired : Nat := 0x0B
abbrev stOpenEnd : Nat := 0x0C
abbrev stBackoff : Nat := 0x0D
abbrev stResume : Nat := 0x0E
abbrev stPartnerSteep : Nat := 0x0F
abbrev stLoopPar : Nat := 0x10
abbrev stLoopSer : Nat := 0x11
abbrev stLoopFar : Nat := 0x12
abbrev stLoopRemote : Nat := 0x13

/-- Whether the packet layer runs: ACTIVE or MISWIRED (R16, R55). -/
def Hub.inService (h : Hub) (p : Port) : Bool := h.lstate p == stActive || h.lstate p == stMiswired

/-- Whether a port's lanes carry columns of service: ACTIVE, MISWIRED, or an open end, whose plug loops them back (R50,
R63) (assumption 21, DEDUCED). -/
def Hub.carries (h : Hub) (p : Port) : Bool := h.inService p || h.lstate p == stOpenEnd

/-- The hub with an item put on a link's lanes; in FREE nothing leaves (R111). -/
def Hub.driveLanes (h : Hub) (t : Tx) : Hub := if h.silent then h else h.emit t

/-- The receive state of a lane (LNKE_LANE_RX). -/
def Hub.laneRx (h : Hub) (p : Port) (l : Nat) : Nat := h.get (R.LNK_LANE_RX_L p.ix l)

/-- The transmit state of a lane (LNKE_LANE_TX). -/
def Hub.laneTx (h : Hub) (p : Port) (l : Nat) : Nat := h.get (R.LNK_LANE_TX_L p.ix l)

/-- The hub with a lane's receive state set. -/
def Hub.setRx (h : Hub) (p : Port) (l v : Nat) : Hub := h.put (R.LNK_LANE_RX_L p.ix l) v

/-- The hub with a lane's transmit state set. -/
def Hub.setTx (h : Hub) (p : Port) (l v : Nat) : Hub := h.put (R.LNK_LANE_TX_L p.ix l) v

/-- A function applied to lanes 0 to 4 one after another. -/
def Hub.eachLane (h : Hub) (f : Hub → Nat → Hub) : Hub := [0, 1, 2, 3, 4].foldl f h

/-- The receive lanes that are neither failed nor, having failed, under probe (R46, R47) (assumption 15, DEDUCED). -/
def Hub.goodRx (h : Hub) (p : Port) : Nat := laneMask (fun l => h.laneRx p l != 1 && h.laneRx p l != 4)

/-- The code of a data width (LNKE_STATUS.RX_WIDTH). -/
def widthCode (w : Nat) : Nat := if w = 4 then 0 else if w = 2 then 1 else 2

/-! ### Ordered sets (R48) -/

/-- Set types (R49). -/
abbrev osTS1 : Nat := 1
abbrev osTS2 : Nat := 2
abbrev osTSG : Nat := 3
abbrev osTSE : Nat := 4
abbrev osNAR : Nat := 5
abbrev osWID : Nat := 6
abbrev osLUL : Nat := 7
abbrev osWDR : Nat := 8
abbrev osLPB : Nat := 9
abbrev osCAL : Nat := 10
abbrev osSTP : Nat := 11

/-- An ordered set of this port (R48): requested gear `req`; CAPS Gears 1–4, Lull, and CLKSRC on E and W
(assumption 8, DEDUCED). -/
def Hub.mkSet (h : Hub) (p : Port) (typ req a0 a1 a2 a3 : Nat) : OSet :=
  let o : OSet :=
    { typ := typ, gear := h.gear p + 16 * req, caps := if p = .S then 0x1F else 0x3F, port := p.code,
      addr := h.addr, a0 := a0, a1 := a1, a2 := a2, a3 := a3, seq := (h.links.at p).oseq, col13 := 0, check := 0 }
  { o with check := o.xor }

/-- An ordered set is sent; in FREE none is (R111). -/
def Hub.sendSetReq (h : Hub) (p : Port) (typ req a0 a1 a2 a3 : Nat) : Hub :=
  if h.silent then h
  else (h.emit (.oset p (h.mkSet p typ req a0 a1 a2 a3))).onLink p (fun l => { l with oseq := (l.oseq + 1) % 256 })

/-- An ordered set that requests no gear but the port's own MAX_GEAR (R51). -/
def Hub.sendSet (h : Hub) (p : Port) (typ a0 a1 a2 a3 : Nat) : Hub :=
  h.sendSetReq p typ (h.get (R.LNK_CTRL_MAX_GEAR p.ix)) a0 a1 a2 a3

/-- `n` sets of one kind. -/
def Hub.sendSets (h : Hub) (p : Port) (typ a0 a1 : Nat) : Nat → Hub
  | 0 => h
  | n + 1 => (h.sendSet p typ a0 a1 0 0).sendSets p typ a0 a1 n

/-- LULL_EXIT (R63): the drivers return, a TS1 burst and a WID set leave (assumption 14, DESIGN CHOICE). -/
def Hub.lullExit (h : Hub) (p : Port) : Hub :=
  if h.on (R.LNK_STATUS_TX_LULL p.ix) then
    let h := (h.put (R.LNK_STATUS_TX_LULL p.ix) 0).eachLane (fun h l => if h.laneTx p l = 5 then h.setTx p l 0 else h)
    let t := (h.links.at p).tx
    (h.sendSets p osTS1 0 0 32).sendSet p osWID t.mask t.width (b2n t.parShed) 0
  else h

/-- A port in service has an ordered set to send: work, which ends Lull first (R62, R63). An open end stays in Lull while
LULL_EN is 1 (R63). -/
def Hub.workSet (h : Hub) (p : Port) (typ a0 a1 a2 a3 : Nat) : Hub :=
  (if h.lstate p = stOpenEnd then h else h.lullExit p).sendSet p typ a0 a1 a2 a3

/-! ### Leaving service (R43, R53, R54) -/

/-- Every lane reads untrained, the layouts and withdrawals are forgotten. -/
def Hub.forgetLanes (h : Hub) (p : Port) : Hub :=
  let h := h.eachLane (fun h l => (h.setRx p l 6).setTx p l 6)
  let h := (((h.put (R.LNK_STATUS_RX_WIDTH p.ix) 0).put (R.LNK_STATUS_TX_WIDTH p.ix) 0).put
    (R.LNK_STATUS_RX_NARROW p.ix) 0).put (R.LNK_STATUS_TX_NARROW p.ix) 0
  let h := (h.put (R.LNK_STATUS_RX_LULL p.ix) 0).put (R.LNK_STATUS_TX_LULL p.ix) 0
  (h.put (R.LNK_STATUS_GEAR p.ix) 0).onLink p (fun l =>
    { l with rx := .full, tx := .full, txNext := none, narMask := 31, narWidth := 4, narSent := none, narAsked := 4,
             erased := [], stray := 0, inverted := 0, bad := 0, pktBad := false, stream := .empty, drift := 0,
             asked := none, withdrawn := none, accepted := false, relock := false, doneHere := 0, doneThere := 0,
             checkHere := none, checkThere := none, eqNow := [], pairs := 0, woken := false, slept := false })

/-- Every lane goes to electrical idle, untrained (R53, R54). -/
def Hub.untrain (h : Hub) (p : Port) : Hub := (h.emit (.idle p)).forgetLanes p

/-- Service ends: UP, MISWIRED and OPEN_END fall, the port's delay and markers are forgotten, and LINK_DOWN is due of a
port that was in service (assumption 29, DESIGN CHOICE). -/
def Hub.endService (h : Hub) (p : Port) (st : Nat) : Hub :=
  let was := h.inService p
  let wasUp := h.up p
  let h := ((h.put (R.LNK_STATUS_UP p.ix) 0).put (R.LNK_STATUS_MISWIRED p.ix) 0).put (R.LNK_STATUS_OPEN_END p.ix) 0
  let h := (h.portTimeDown p).toState p st
  let h := if wasUp then h.latchAll evLink else h
  h.onLink p (fun l => { l with lost := l.lost || was, wire := none })

/-- The port leaves service for a state: service ends and the lanes go to electrical idle, untrained
(assumption 29, DESIGN CHOICE). -/
def Hub.leaveService (h : Hub) (p : Port) (st : Nat) : Hub := (h.endService p st).untrain p

/-- The port goes to DETECT_RX to train from Gear 1 (R54). -/
def Hub.retrain (h : Hub) (p : Port) : Hub := h.leaveService p stDetectRx

/-- The next attempt after a failed bring-up: DETECT_RX, or BACKOFF from the eighth on, logged once (R54). -/
def Hub.failedBringUp (h : Hub) (p : Port) : Hub :=
  let h := (h.bump (R.LNK_TRAIN_FAIL p.ix)).onLink p (fun l => { l with fails := l.fails + 1 })
  if (h.links.at p).fails < 8 then h.retrain p
  else
    let first := (h.links.at p).fails == 8
    let h := (h.leaveService p stBackoff).put (R.LNK_STATUS_FAULT p.ix) 7
    if first then h.lnkLog p 0x08 sevCT 0 (h.get (R.LNK_TRAIN_FAIL p.ix)) else h

/-! ### Columns (R36–R45) -/

/-- The lanes of the receive layout that carry columns: those not idle in Lull (R62) (assumption 10, DEDUCED). -/
def Hub.litLanes (h : Hub) (p : Port) : Nat :=
  laneMask (fun l => bit (h.links.at p).rx.mask l && h.laneRx p l != 5)

/-- The physical pair that carries a lane (R33, LNKE_LANE_MAP). -/
def Hub.pairFor (h : Hub) (p : Port) (l : Nat) : Nat := h.get (R.LNK_LANE_MAP_L p.ix l)

/-- A column's K28.5 symbols show the polarity of their pairs (R35) (assumption 110, DESIGN CHOICE). -/
def Hub.learnPolarity (h : Hub) (p : Port) (c : Column) : Hub :=
  h.onLink p (fun x =>
    let m := [0, 1, 2, 3, 4].foldl (fun m l =>
      setSlice m (h.pairFor p l) 1 (b2n (c.polarity l (bit m (h.pairFor p l))))) x.inverted
    { x with inverted := m })

/-- A column with the pairs found inverted corrected (R35) (assumption 110, DESIGN CHOICE). -/
def Hub.straighten (h : Hub) (p : Port) (c : Column) : Column :=
  c.corrected (fun l => bit (h.links.at p).inverted (h.pairFor p l))

/-- RECEIVE_COLUMN in service (R40, R41): erasures counted and logged, each lane's window kept over the columns in which
it is active (R42), the column rebuilt and joined to the packet's stream (R37), or uncorrectable; where parity is shed or
one lane alone is lit, one erasure is uncorrectable, but in a control
column on whose K-code the other lanes agree (assumption 9, DEDUCED; 10, DEDUCED; 120, DESIGN CHOICE). -/
def Hub.serviceColumn (h : Hub) (p : Port) (c : Column) : Hub :=
  let lp := h.links.at p
  let lit := h.litLanes p
  let out := fun l => h.laneRx p l != 0
  let er := c.erasedLanes lit out
  let own := er.filter (fun l => h.laneRx p l == 0)
  let active := (lanesOf lit).filter (fun l => h.laneRx p l == 0)
  let h := own.foldl (fun h l =>
    let h := h.bump (R.LNK_ERASED p.ix l)
    h.lnkLogLim p 0x01 l l (h.get (R.LNK_ERASED p.ix l))) h
  let cols := [0, 1, 2, 3, 4].map (fun l => lp.cols.getD l 0 + (if active.contains l then 1 else 0))
  let keep := (own.map (fun l => (l, lp.cols.getD l 0)) ++ lp.erased).filter
    (fun e => decide (cols.getD e.1 0 ≤ e.2 + 1024))
  let h := h.onLink p (fun x =>
    { x with cols := cols, erased := keep, stray := Nat.lor x.stray (maskOf (c.strays lit out)) })
  let lost := decide (2 ≤ er.length) || ((lp.rx.parShed || decide ((lanesOf lit).length ≤ 1)) && !er.isEmpty
    && (c.agreed (c.soundLanes lit out)).isNone)
  if lost then
    (h.bump (R.LNK_UNCORR p.ix)).onLink p (fun x =>
      { x with bad := x.bad + 1, pktBad := x.pktBad || x.stream.inPacket, lastCol := none })
  else
    let col := c.rebuild lit er
    h.onLink p (fun x => { x with
      bad := 0, lastCol := some col, pktBad := x.pktBad || x.stream.inPacket && x.stream.misplaced col,
      stream := x.stream.column lp.rx col })

/-- SKIP_SLIP (R39): a skip column is inserted or deleted when the fill has drifted 2 columns or more. -/
def Hub.skipSlip (h : Hub) (p : Port) (c : Column) : Hub :=
  let h := h.onLink p (fun l => { l with drift := l.drift + c.drift })
  let d := (h.links.at p).drift
  let skip := (h.links.at p).lastCol == some ⟨true, [0, 1, 2, 3, 4].map (fun _ => 0x1C#8)⟩
  if skip && decide (2 ≤ d.natAbs) then
    let h := (h.onLink p (fun l => { l with drift := if d > 0 then d - 1 else d + 1 })).bump (R.LNK_SLIPS p.ix)
    h.lnkLog p 0x02 sevC 0 (h.get (R.LNK_SLIPS p.ix))
  else h

/-- Whether a port is in a loopback whose generator and checker its own registers run (R58). -/
def Hub.patternRuns (h : Hub) (p : Port) : Bool :=
  (h.lstate p == stLoopPar || h.lstate p == stLoopSer || h.lstate p == stLoopFar) && h.on (R.LNK_PATTERN_RUN p.ix)

/-- A loopback's generator and checker at their start (R58, LNKE_PATTERN) (assumption 112, DESIGN CHOICE). -/
def Hub.seedPattern (h : Hub) (p : Port) : Hub :=
  let s := prbsSeed (h.get (R.LNK_PATTERN_SEL p.ix))
  h.onLink p (fun l => { l with gen := s, chk := s, chkCols := 0, chkSeq := l.oseq })

/-- What the checker expects on a lane in its next column (R58): the pattern's byte, or the next column of continuous
TS1 (assumption 112, DESIGN CHOICE). -/
def Hub.expected (h : Hub) (p : Port) (lane : Nat) : Bool × Byte :=
  let l := h.links.at p
  let sel := h.get (R.LNK_PATTERN_SEL p.ix)
  if sel = 3 then
    let o := { h.mkSet p osTS1 (h.get (R.LNK_CTRL_MAX_GEAR p.ix)) 0 0 0 0 with
      seq := (l.chkSeq + l.chkCols / 16) % 256 }
    { o with check := o.xor }.column (l.chkCols % 16) lane
  else (false, (prbsByte sel l.chk).1)

/-- A column in a loopback whose checker runs (R58): each lane that does not show the pattern counts an error
(assumption 112, DESIGN CHOICE). -/
def Hub.checkColumn (h : Hub) (p : Port) (c : Column) : Hub :=
  let wrong := fun (l : Nat) =>
    (c.sym l).spoilt || (c.sym l).k != (h.expected p l).1 || (c.sym l).byte != (h.expected p l).2
  let h' := [0, 1, 2, 3, 4].foldl (fun (x : Hub) l => if wrong l then x.bump (R.LNK_ERASED p.ix l) else x) h
  h'.onLink p (fun l => { l with
    chk := (prbsByte (h.get (R.LNK_PATTERN_SEL p.ix)) l.chk).2, chkCols := l.chkCols + 1 })

/-- RECEIVE_COLUMN (R41): the pairs' polarity is corrected (R35); a column of service is checked and rebuilt; the far side
of a loopback sends it back as received (R59); a loopback's checker compares it with the pattern (R58)
(assumption 21, DEDUCED). -/
def Hub.receiveColumn (h : Hub) (p : Port) (c : Column) : Hub :=
  let h := h.learnPolarity p c
  let c := h.straighten p c
  if h.carries p then
    if h.litLanes p = 0 then h else (h.serviceColumn p c).skipSlip p c
  else if h.lstate p = stLoopRemote then h.driveLanes (.loopback p c.syms)
  else if h.patternRuns p then h.checkColumn p c
  else h

/-- Whether some transmit lane of a port is driven: not idle in Lull and trained. -/
def Hub.drives (h : Hub) (p : Port) : Bool := [0, 1, 2, 3, 4].any (fun l => h.laneTx p l == 0 || h.laneTx p l == 2)

/-- SEND_ALIGNMENT_MARKER (R38, R62, R63): an alignment marker and a skip column leave while the port drives a lane. -/
def Hub.sendMarker (h : Hub) (p : Port) : Hub :=
  if h.carries p && h.drives p then h.driveLanes (.marker p) else h

/-! ### Layouts (R44, R46, R64, R67) -/

/-- The transmitter announces a layout by a WID set, in force at the column the set names (R46)
(assumption 14, DESIGN CHOICE). -/
def Hub.announce (h : Hub) (p : Port) (l : Layout) : Hub :=
  (h.workSet p osWID l.mask l.width (b2n l.parShed) 16).onLink p (fun x => { x with txNext := some l })

/-- The widest layout that a NAR of a mask and a width permits (R67): full width, Narrow, or width 1. -/
def narLayout (mask width : Nat) : Layout := if width = 4 then ⟨31, 4, false⟩ else layoutOf mask width false

/-- The widest layout the last NAR permits (R67). -/
def LinkPort.ceiling (l : LinkPort) : Layout := narLayout l.narMask l.narWidth

/-- NAR_RECEIVED (R67): the ceiling is taken and a WID set announces the layout that meets it; a width other than 1, 2
or 4 is ignored (assumption 21, DEDUCED). -/
def Hub.narReceived (h : Hub) (p : Port) (mask width : Nat) : Hub :=
  if h.carries p = true ∧ (width = 1 ∨ width = 2 ∨ width = 4) then
    let h := h.onLink p (fun l => { l with narMask := mask % 32, narWidth := width })
    h.announce p (h.links.at p).ceiling
  else h

/-- WIDTH_SWITCH (R46): the transmitter switches to the layout its WID set announced. -/
def Hub.widthSwitch (h : Hub) (p : Port) : Hub :=
  match (h.links.at p).txNext with
  | none => h
  | some l =>
    let narrow := l.width == 2 && (h.links.at p).narWidth == 2
    let h := (h.refill p.ix).onLink p (fun x => { x with tx := l, txNext := none })
    let h := (h.put (R.LNK_STATUS_TX_WIDTH p.ix) (widthCode l.width)).put (R.LNK_STATUS_TX_NARROW p.ix) (b2n narrow)
    h.eachLane (fun h n =>
      if bit l.mask n then
        if h.laneTx p n = 2 ∧ (h.links.at p).withdrawn = some n then h else h.setTx p n 0
      else if narrow && !bit (h.links.at p).narMask n then h.setTx p n 1
      else h.setTx p n 3)

/-- Whether a WID set answers the NAR sent (R46, R47): it announces the very layout that NAR asks for; another one crossed
it on the way (assumption 15, DEDUCED). -/
def LinkPort.answers (l : LinkPort) (mask width : Nat) : Bool :=
  match l.narSent with
  | some m => width == l.narAsked && mask == (narLayout m l.narAsked).mask
  | none => false

/-- A NAR set of a mask and a width is sent, and its answer awaited (R46, R47). -/
def Hub.sendNar (h : Hub) (p : Port) (mask width : Nat) : Hub :=
  (h.workSet p osNAR mask width 0 0).onLink p (fun x => { x with narSent := some mask, narAsked := width })

/-- WID_RECEIVED (R49): the receiver follows the announced layout; one that answers the NAR of a second failure is the
entry to Narrow mode, and a layout of Shed that crosses it is not (R46). A lane under probe returns only with the answer
to the NAR that names it (R47). With two failed lanes at full width, whose failures fell while lanes were shed, the NAR
of R46 is sent now (R67) (assumption 15, DEDUCED). -/
def Hub.widReceived (h : Hub) (p : Port) (mask width : Nat) (parShed : Bool) : Hub :=
  if h.carries p = true ∧ (width = 1 ∨ width = 2 ∨ width = 4) then
    let lp := h.links.at p
    let answer := lp.answers (mask % 32) width
    let entry := answer && width == 2 && !h.on (R.LNK_STATUS_RX_NARROW p.ix)
    let narrow := (answer || h.on (R.LNK_STATUS_RX_NARROW p.ix)) && width == 2
    let h := h.onLink p (fun x => { x with
      rx := ⟨mask % 32, width, parShed⟩, narSent := if answer then none else lp.narSent })
    let h := ((h.put (R.LNK_STATUS_RX_WIDTH p.ix) (widthCode width)).put (R.LNK_STATUS_RX_NARROW p.ix) (b2n narrow)).put
      (R.LNK_STATUS_RX_LULL p.ix) 0
    let h := h.eachLane (fun h n =>
      let st := h.laneRx p n
      if bit mask n then
        if st = 2 ∧ lp.withdrawn = some n then h
        else if st = 1 then h
        else if st = 4 ∧ (answer && bit (lp.narSent.getD 0) n) = false then h
        else h.setRx p n 0
      else if st = 1 ∨ st = 4 then h
      else h.setRx p n 3)
    let h := if entry then (h.recovered (.narrow p)).bump (R.LNK_NARROW_CNT p.ix) else h
    let h := if entry then h.lnkLog p 0x04 sevDG 0 (h.get (R.LNK_NARROW_CNT p.ix)) else h
    if width = 4 ∧ (h.links.at p).narSent = none ∧ (lanesOf (h.goodRx p)).length ≤ 3 ∧ h.lstate p ≠ stOpenEnd then
      h.sendNar p (h.goodRx p) 2
    else h
  else h

/-! ### Failed lanes (R42–R47) -/

/-- Whether a lane has shown 16 erasures in the last 1,024 columns (R42). -/
def LinkPort.erasedTooOften (l : LinkPort) (lane : Nat) : Bool :=
  decide (16 ≤ (l.erased.filter (fun e => e.1 == lane)).length)

/-- WITHDRAW_GIVE_BACK (R61): the withdrawn lane returns at once with its stored coefficients, RESULT 0b11. -/
def Hub.giveBack (h : Hub) (p : Port) : Hub :=
  match (h.links.at p).withdrawn with
  | none => h
  | some l =>
    let h := ((h.setRx p l 0).setTx p l 0).put (R.LNK_WITHDRAW_RESULT p.ix) 3
    let h := (h.onLink p (fun x => { x with withdrawn := none })).workSet p osWDR l 3 0 0
    (h.announce p (h.links.at p).ceiling).lnkLog p 0x05 sevC l 0

/-- LANE_FAILED (R42): the lane is failed and logged; a withdrawn lane is given back (R61); the second failure at full
width sends the NAR of R46, and a failure while lanes are shed asks for width 4 (R67). 16 erasures in the lane's window
and a K28.5 in another column than the other lanes' are what its columns have shown. `loop` marks a lane that Cooper's
loop failed (R456) (assumption 21, DEDUCED; 111, DEDUCED). -/
def Hub.laneFailed (h : Hub) (p : Port) (l : Nat) (why : LaneFault) (loop : Bool) : Hub :=
  let st := h.laneRx p l
  let due := match why with
    | .erasures => (h.links.at p).erasedTooOften l
    | .misaligned => bit (h.links.at p).stray l
    | _ => true
  if (st == 0 || (st == 2 || st == 5) && loop) && h.carries p && due then
    let h := if (h.links.at p).withdrawn.isSome && (h.links.at p).withdrawn != some l then h.giveBack p else h
    let h := (h.setRx p l 1).onLink p (fun x => { x with
      withdrawn := if x.withdrawn = some l then none else x.withdrawn, stray := setSlice x.stray l 1 0 })
    let d0 := l + (if loop then 2 ^ 31 else 0)
    let lp := h.links.at p
    let good := h.goodRx p
    let shed := lp.rx.parShed || decide (lp.rx.width < 4) && !h.on (R.LNK_STATUS_RX_NARROW p.ix)
    if lp.narSent.isSome then h.lnkLog p 0x03 sevDG d0 0
    else if shed then (h.lnkLog p 0x03 sevDG d0 0).workSet p osNAR good 4 0 0
    else if lp.rx.width = 4 ∧ (lanesOf good).length ≤ 3 then
      (h.logBy (14 + p.ix) 0x03 sevDG d0 (h.rd (A.LNK_STATUS p.ix)).toNat 0 (.narrow p)).sendNar p good 2
    else h.lnkLog p 0x03 sevDG d0 0
  else h

/-- The receive lanes a direction can still run on (R43): in service, withdrawn, shed, or idle in Lull. -/
def Hub.keptRx (h : Hub) (p : Port) : Nat :=
  laneMask (fun l => h.laneRx p l == 0 || h.laneRx p l == 2 || h.laneRx p l == 3 || h.laneRx p l == 5)

/-- Whether every column has been uncorrectable for 1 µs (R43): 250 columns in a row at Gear 1, twice as many at each
gear above. -/
def Hub.badForMicrosecond (h : Hub) (p : Port) : Bool := decide (250 * 2 ^ (h.gear p - 1) ≤ (h.links.at p).bad)

/-- DIRECTION_LOST (R43): the port declares the link down, when it cannot keep three lanes with at most one failed
among them, which is fewer than two sound ones, or when every column has been uncorrectable for 1 µs
(`uncorrectable`). -/
def Hub.directionLost (h : Hub) (p : Port) (uncorrectable : Bool) : Hub :=
  if h.carries p = true
      ∧ (uncorrectable = true ∧ h.badForMicrosecond p = true ∨ (lanesOf (h.keptRx p)).length < 2) then h.retrain p
  else h

/-- The lane of a transmitter at full width that the partner's receiver has failed and probes now, if there is one: no set
tells this end of a single failed lane, so which one it is is a free value (assumption 128, DESIGN CHOICE). -/
def Hub.probedThere (h : Hub) (p : Port) : Option Nat × Hub :=
  if (h.links.at p).narWidth = 4 ∧ (h.links.at p).tx = .full then
    let (v, h) := h.fresh
    (if v.toNat % 6 < 5 then some (v.toNat % 6) else none, h)
  else (none, h)

/-- LANE_PROBE (R47): each failed receive lane goes under probe, and CAL is sent on each transmit lane that the partner has
failed: those its NAR left out, or the one it failed alone (assumption 15, DEDUCED; 128, DESIGN CHOICE). -/
def Hub.laneProbe (h : Hub) (p : Port) : Hub :=
  if h.carries p then
    let (one, h) := h.probedThere p
    h.eachLane (fun h l =>
      let h := if h.laneRx p l = 1 then h.setRx p l 4 else h
      if h.laneTx p l = 1 ∨ one = some l then h.driveLanes (.cal p l) else h)
  else h

/-- LANE_PROBE_PASS (R47): a lane that held its probe is named usable again by a NAR set; one lane at a time
(assumption 15, DEDUCED). -/
def Hub.laneProbePass (h : Hub) (p : Port) (l : Nat) : Hub :=
  if h.carries p && h.laneRx p l == 4 then
    let h := h.eachLane (fun h n => if n ≠ l ∧ h.laneRx p n = 4 then h.setRx p n 1 else h)
    let usable := laneMask (fun n => h.laneRx p n != 1)
    h.sendNar p usable (if 4 ≤ (lanesOf usable).length then 4 else 2)
  else h

/-! ### Equaliser settings (R52) -/

/-- The key of a stored setting: lane, gear, side (LNKE_EQ_INDEX). -/
def eqKey (lane gear side : Nat) : Nat := lane + 8 * gear + 64 * side

/-- A setting, zero where none is stored. -/
def eqGet (m : SMap Word) (k : Nat) : Nat := (SMap.get (fun _ => 0#32) m k).toNat

/-- A setting stored. -/
def eqSet (m : SMap Word) (k v : Nat) : SMap Word := SMap.set (fun _ => 0#32) m k (W v)

/-- The three fields of LNKE_EQ_DATA of a word, the first of `w` bits, reserved bits zero. -/
def eqFields (w v : Nat) : Nat := slice v 0 w + slice v 8 6 * 2 ^ 8 + slice v 16 6 * 2 ^ 16

/-- The commands a receiver may give its partner's transmitter (R49 TSE ARG1): presets and steps. -/
def eqCommands : List Nat :=
  [0x10, 0x11, 0x12, 0x13, 0x14, 0x15, 0x16, 0x17, 0x18, 0x19, 0x20, 0x21, 0x22, 0x23]

/-- The lanes that an equaliser step trains: those not failed (R52). -/
def Hub.eqLanes (h : Hub) (p : Port) : Nat := laneMask (fun l => h.laneRx p l != 1)

/-- The lane this end's receiver steers: the lowest for which it has not sent lane done (R52). -/
def Hub.eqDue (h : Hub) (p : Port) : Option Nat :=
  ((lanesOf (h.eqLanes p)).filter (fun l => !bit (h.links.at p).doneHere l)).head?

/-- This end is done with a lane (R52): it sends lane done, and its receiver's adapted settings are free values. -/
def Hub.eqLaneDone (h : Hub) (p : Port) (l : Nat) : Hub :=
  let (v, h) := h.fresh
  let k := eqKey l (h.gear p) 1
  (h.sendSet p osTSE l 0x30 0 0).onLink p (fun x =>
    { x with eqNow := eqSet x.eqNow k (eqFields 5 v.toNat), doneHere := Nat.lor x.doneHere (2 ^ l) })

/-- EQ_TRAIN ends when both ends have sent lane done for every active lane (R50, R52). -/
def Hub.eqTrained (h : Hub) (p : Port) : Hub :=
  let need := h.eqLanes p
  let l := h.links.at p
  if h.lstate p = stEqTrain ∧ Nat.land l.doneHere need = need ∧ Nat.land l.doneThere need = need then h.toState p stEqCheck
  else h

/-- The receiver steers its partner's transmitter, one lane at a time (R52): which preset or step it asks for next, or that
the lane is done and the next lane's turn comes, is a free value; `n` bounds the lanes still to come (assumption 11,
DESIGN CHOICE) (assumption 11, DESIGN CHOICE). -/
def Hub.eqSteer (h : Hub) (p : Port) : Nat → Hub
  | 0 => h.eqTrained p
  | n + 1 =>
    match h.eqDue p with
    | none => h.eqTrained p
    | some l =>
      let (v, h) := h.fresh
      match eqCommands[v.toNat % 15]? with
      | some c => h.sendSet p osTSE l c 0 0
      | none => (h.eqLaneDone p l).eqSteer p n

/-- The highest value of a transmitter coefficient in 1/48 of swing (R503): pre-cursor 8, post-cursor 16. -/
def eqLimit (cmd : Nat) : Nat := if cmd < 0x22 then 8 else 16

/-- TSE received in EQ_TRAIN (R52): a preset or a step of 1/48 of swing on one lane of this transmitter within its range
(R503), answered by a hold with applied or at limit; such an answer to this receiver's own command, which then gives its
next; or the partner's lane done. Where no preset came first at a gear, a step starts from
coefficients of 0: the spec gives none (assumption 11, DESIGN CHOICE; 129, DESIGN CHOICE). -/
def Hub.eqCommand (h : Hub) (p : Port) (lane cmd : Nat) : Hub :=
  let k := eqKey lane (h.gear p) 0
  let cur := eqGet (h.links.at p).eqNow k
  let set := fun (h : Hub) (v : Nat) => h.onLink p (fun l => { l with eqNow := eqSet l.eqNow k v })
  let answer := fun (h : Hub) (lim : Nat) => h.sendSet p osTSE lane 0 lim 0
  if lane > 4 then h
  else if cmd = 0 then (if h.eqDue p = some lane then h.eqSteer p 5 else h)
  else if cmd = 0x30 then (h.onLink p (fun l => { l with doneThere := Nat.lor l.doneThere (2 ^ lane) })).eqTrained p
  else if 0x10 ≤ cmd ∧ cmd ≤ 0x19 then
    let v := (Config.preset (cmd - 0x10)).toNat
    answer (set h (eqFields 6 v)) 0
  else
    let lo := if cmd < 0x22 then 0 else 16
    let x := slice cur lo 6
    if cmd = 0x20 ∨ cmd = 0x22 then
      if x < eqLimit cmd then answer (set h (setSlice cur lo 6 (x + 1))) 0 else answer h 1
    else if cmd = 0x21 ∨ cmd = 0x23 then
      if 0 < x then answer (set h (setSlice cur lo 6 (x - 1))) 0 else answer h 1
    else h

/-- The passing settings of the gear are stored (R52). -/
def Hub.storeEq (h : Hub) (p : Port) : Hub :=
  h.onLink p (fun l => { l with eq := l.eqNow.foldl (fun m e => eqSet m e.1 e.2.toNat) l.eq, eqNow := [] })

/-- The settings of Gear 1 are stored too (R52): preset P4, and the receiver's adapted settings, which are free
(assumption 11, DESIGN CHOICE). -/
def Hub.storeGear1 (h : Hub) (p : Port) : Hub :=
  (lanesOf (h.goodRx p)).foldl (fun (h : Hub) l =>
    let (v, h) := h.fresh
    let tx := eqFields 6 (Config.preset 4).toNat
    let rx := eqFields 5 v.toNat
    h.onLink p (fun x => { x with eq := eqSet (eqSet x.eq (eqKey l 1 0) tx) (eqKey l 1 1) rx })) h

/-! ### Training (R50–R55) -/

/-- Whether CC reports an attach the link layer sees (R402). -/
def Hub.ccAttached (h : Hub) (p : Port) : Bool :=
  let a := h.get (R.CC_STATUS_ATTACH p.ix)
  a == 1 || a == 2 || a == 4

/-- LINK_ATTACH (R50): the map is preset by the cable's orientation (R34) and the port goes to DETECT_RX. -/
def Hub.linkAttach (h : Hub) (p : Port) : Hub :=
  if h.lstate p = stDetectAttach ∧ h.ccAttached p = true then
    let flipped := h.on (R.CC_STATUS_FLIPPED p.ix) && h.get (R.CC_STATUS_ATTACH p.ix) != 4
    let h := (h.put (R.LNK_STATUS_FLIPPED p.ix) (b2n flipped)).put (R.LNK_STATUS_ORIENT_MISMATCH p.ix) 0
    let h := h.eachLane (fun h l => h.put (R.LNK_LANE_MAP_L p.ix l) (if flipped then 4 - l else l))
    h.toState p stDetectRx
  else h

/-- RECEIVER_DETECTION (R50): with a receiver on at least 3 pairs the port goes to LOCK; a pair whose lane failed its
power-up loop is left out (R465). -/
def Hub.receiverDetection (h : Hub) (p : Port) (found : Nat) : Hub :=
  let pairs := (lanesOf (found % 32)).foldl (fun m i => if bit (h.links.at p).dead i then m else m + 2 ^ i) 0
  if h.lstate p = stDetectRx ∧ 3 ≤ (lanesOf pairs).length then
    (h.toState p stLock).onLink p (fun l => { l with pairs := pairs % 32 })
  else h

/-- The physical pair that carries a lane's identity, when exactly one pair in use does (R34). -/
def pairOf (pairs : Nat) (ids : List Nat) (lane : Nat) : Option Nat :=
  match (lanesOf pairs).filter (fun j => ids.getD j 0 == laneId lane) with
  | [j] => some j
  | _ => none

/-- The pair that the cable's orientation presets for a lane (R34). -/
def Hub.presetPair (h : Hub) (p : Port) (l : Nat) : Nat := if h.on (R.LNK_STATUS_FLIPPED p.ix) then 4 - l else l

/-- The map of training is taken (R34): the identities win over the preset of this bring-up (R33), and a lane without a
pair is failed, its map entry left at the preset pair (assumption 113, DESIGN CHOICE). -/
def Hub.takeMap (h : Hub) (p : Port) (ids : List Nat) : Hub :=
  let pairs := (h.links.at p).pairs
  let differs := [0, 1, 2, 3, 4].any (fun l => match pairOf pairs ids l with
    | some j => j != h.presetPair p l
    | none => false)
  let h := h.eachLane (fun h l => match pairOf pairs ids l with
    | some j => (h.put (R.LNK_LANE_MAP_L p.ix l) j).setRx p l 6
    | none => (h.put (R.LNK_LANE_MAP_L p.ix l) (h.presetPair p l)).setRx p l 1)
  h.put (R.LNK_STATUS_ORIENT_MISMATCH p.ix) (b2n differs)

/-- Whether an accepted set extends the run of a state (R50). -/
def Hub.extends_ (h : Hub) (p : Port) (s : RxSet) : Bool :=
  let lp := h.links.at p
  let st := h.lstate p
  if st = stLock then decide (3 ≤ (lanesOf (Nat.land lp.pairs s.lock)).length)
  else if st = stOrient then lp.run == 0 || lp.ids == s.ids
  else decide (3 ≤ (lanesOf (Nat.land lp.pairs s.align)).length)

/-- Whether two TS2 sets are identical but for SEQ and CHECK (R50). -/
def OSet.sameTs2 (a b : OSet) : Bool := { a with seq := 0, check := 0 } == { b with seq := 0, check := 0 }

/-- The run of a state after an accepted set (assumption 12, DEDUCED). -/
def Hub.runOf (h : Hub) (p : Port) (s : RxSet) : Nat := if h.extends_ p s then (h.links.at p).run + 1 else 0

/-- The run of identical TS2 sets after one more (R50). -/
def Hub.ts2Run (h : Hub) (p : Port) (o : OSet) : Nat :=
  match (h.links.at p).lastTs2 with
  | some x => if x.sameTs2 o then (h.links.at p).run + 1 else 1
  | none => 1

/-- The pairs of port types permitted (R51): this end and the partner's type. -/
def pairAllowed : Port → Nat → Bool
  | .E, t => t == 2 || t == 0
  | .W, t => t == 1 || t == 3 || t == 0
  | .S, t => t == 2

/-- The highest gear that both ends' CAPS support and that is no higher than a limit (R51); Gear 1 where there is none.
This end supports every gear. -/
def targetGear (caps limit : Nat) : Nat :=
  (([4, 3, 2, 1].filter (fun g => bit caps (g - 1) && decide (g ≤ limit))).head?).getD 1

/-- Lull flags and lanes of an open end while LULL_EN is 1 (R63). -/
def Hub.openEndLanes (h : Hub) (p : Port) : Hub :=
  let lull := h.on (R.LNK_LOWPWR_LULL_EN p.ix)
  let h := (h.put (R.LNK_STATUS_RX_LULL p.ix) (b2n lull)).put (R.LNK_STATUS_TX_LULL p.ix) (b2n lull)
  let v := if lull then 5 else 0
  h.eachLane (fun h l => (if h.laneRx p l = 1 then h else h.setRx p l v).setTx p l v)

/-- The lanes that trained are in service, and with only three of them the receive layout is Narrow and a NAR set asks
the partner's transmitter for it (R51) (assumption 16, DEDUCED). -/
def Hub.lanesInService (h : Hub) (p : Port) : Hub :=
  let h := h.eachLane (fun h l => (if h.laneRx p l = 1 then h else h.setRx p l 0).setTx p l 0)
  let good := h.goodRx p
  if (lanesOf good).length ≤ 3 then
    (((h.onLink p (fun l => { l with rx := layoutOf good 2 false })).put (R.LNK_STATUS_RX_WIDTH p.ix) 1).put
      (R.LNK_STATUS_RX_NARROW p.ix) 1).sendNar p good 2
  else h

/-- The packet layer starts afresh (R81, R89, R90): link sequences, replay buffer and credits. -/
def Hub.startSession (h : Hub) (p : Port) : Hub :=
  let h := ((h.put (R.LNK_REPLAY_SEQ_NEXT p.ix) 0).put (R.LNK_REPLAY_SEQ_ACKED p.ix) 0xFFF).put
    (R.LNK_RX_SEQ_EXPECTED p.ix) 0
  let a : PerCls := ⟨h.get (R.LNK_CREDIT_ALLOT_P p.ix), h.get (R.LNK_CREDIT_ALLOT_M p.ix),
    h.get (R.LNK_CREDIT_ALLOT_D p.ix), h.get (R.LNK_CREDIT_ALLOT_B p.ix)⟩
  h.onLink p (fun l => { l with
    replay := [], rq := [], noProg := 0, nakOut := false, good := 0, allot := a,
    rel := ⟨8 * a.p, 8 * a.m, 8 * a.d, 8 * a.b⟩, relSent := .zero, used := .zero, limit := .zero, seen := .zero,
    ctl := [], wire := none, lost := false, orig := [], cols := [0, 0, 0, 0, 0], erased := [], stray := 0, bad := 0,
    pktBad := false, stream := .empty })

/-- The port enters ACTIVE: its trained lanes are in service, sequences and credits start afresh (R81, R89, R90), and its
scheduler's buckets are full (R172). -/
def Hub.enterActive (h : Hub) (p : Port) : Hub :=
  (((h.toState p stActive).lanesInService p).startSession p).fillBuckets p.ix

/-- CAPS_DECISION (R51). A bring-up that ends at an open end or miswired has succeeded and clears the count of failures
(R54). Every one has trained at Gear 1, whose settings are stored (R52). -/
def Hub.capsDecision (h : Hub) (p : Port) (o : OSet) : Hub :=
  let h := ((h.onLink p (fun l => { l with pcaps := o.caps })).put (R.LNK_STATUS_GEAR p.ix) 1).storeGear1 p
  if h.get (R.CC_STATUS_ATTACH p.ix) = 4 then
    let h := h.onLink p (fun l => { l with fails := 0 })
    (((h.toState p stOpenEnd).put (R.LNK_STATUS_OPEN_END p.ix) 1).put (R.LNK_STATUS_PARTNER p.ix) 4).openEndLanes p
  else
    let h := h.put (R.LNK_STATUS_PARTNER p.ix) (if o.port < 4 then o.port else 7)
    if !pairAllowed p o.port then
      let h := (((h.toState p stMiswired).put (R.LNK_STATUS_MISWIRED p.ix) 1).lanesInService p).startSession p
      (h.onLink p (fun l => { l with fails := 0 })).lnkLog p 0x07 sevCT 0 0
    else
      let t := targetGear o.caps (min (h.get (R.LNK_CTRL_MAX_GEAR p.ix)) (slice o.gear 4 3))
      let h := h.onLink p (fun l => { l with target := t })
      if t = 1 then h.enterActive p else h.toState p stGearStep

/-- Whether this port leads the gear steps of its link (R50). -/
def Hub.leads (h : Hub) (p : Port) : Bool := h.get (R.LNK_STATUS_PARTNER p.ix) != 0 && p != .W

/-- A gear step's marks are cleared (R52). -/
def Hub.stepOver (h : Hub) (p : Port) : Hub :=
  h.onLink p (fun l => { l with
    accepted := false, relock := false, eqNow := [], checkHere := none, checkThere := none, doneHere := 0,
    doneThere := 0 })

/-- A gear step has failed (R50): FAULT 6 and ACTIVE, at the old gear where none was accepted; after a rate change at the
previous gear with its stored settings, through electrical idle. -/
def Hub.stepFailed (h : Hub) (p : Port) : Hub :=
  let changed := (h.links.at p).relock
  let g := if changed then (h.links.at p).oldGear else h.get (R.LNK_STATUS_GEAR p.ix)
  let h := if changed then h.emit (.idle p) else h
  (((h.put (R.LNK_STATUS_GEAR p.ix) g).put (R.LNK_STATUS_FAULT p.ix) 6).stepOver p).enterActive p

/-- The check results known so far are judged (R50, R52): either end's fail falls back at once; when both pass, the port
steps on or reaches ACTIVE. -/
def Hub.decideCheck (h : Hub) (p : Port) : Hub :=
  let l := h.links.at p
  if l.checkHere = some false ∨ l.checkThere = some false then h.stepFailed p
  else if l.checkHere = some true ∧ l.checkThere = some true then
    let h := (h.storeEq p).stepOver p
    if l.target ≤ h.gear p then h.enterActive p else h.toState p stGearStep
  else h

/-- TSG received (R52) (assumption 19, DEDUCED). -/
def Hub.tsgReceived (h : Hub) (p : Port) (gear op : Nat) : Hub :=
  if h.lstate p = stGearStep ∧ !(h.links.at p).relock then
    if op = 0 ∧ !h.leads p then
      if gear ≤ h.get (R.LNK_CTRL_MAX_GEAR p.ix) ∧ gear = h.gear p + 1 then
        (h.sendSetReq p osTSG gear gear 1 0 0).onLink p (fun l => { l with accepted := true })
      else (h.sendSetReq p osTSG gear gear 2 0 0).stepFailed p
    else if op = 1 ∧ h.leads p ∧ gear = h.gear p + 1 then h.onLink p (fun l => { l with accepted := true })
    else if op = 2 ∧ h.leads p then h.stepFailed p
    else h
  else if h.lstate p = stEqCheck ∧ (op = 3 ∨ op = 4) then
    (h.onLink p (fun l => { l with checkThere := some (op == 3) })).decideCheck p
  else h

/-- GEAR_STEP_REQUEST (R52): the leader asks for one gear above the current one. -/
def Hub.gearStepRequest (h : Hub) (p : Port) : Hub :=
  if h.lstate p = stGearStep ∧ h.leads p = true ∧ (h.links.at p).accepted = false ∧ (h.links.at p).relock = false then
    h.sendSetReq p osTSG (h.gear p + 1) (h.gear p + 1) 0 0 0
  else h

/-- GEAR_RATE_CHANGE (R52): after an accept both ends send 16 more TSG sets, the leader its request and the follower its
accept, change rate during idle and relock at the new gear. -/
def Hub.gearRateChange (h : Hub) (p : Port) : Hub :=
  if h.lstate p = stGearStep ∧ (h.links.at p).accepted = true then
    let g := h.gear p
    let h := h.sendSets p osTSG (g + 1) (if h.leads p then 0 else 1) 16
    let h := (h.emit (.idle p)).put (R.LNK_STATUS_GEAR p.ix) (g + 1)
    h.onLink p (fun l => { l with
      oldGear := g, accepted := false, relock := true, run := 0, sets := 0, doneHere := 0, doneThere := 0,
      eqNow := [] })
  else h

/-- EQ_TRAIN_DONE (R52): this end's receiver is done with every lane; once both ends are, the port enters EQ_CHECK
(assumption 11, DESIGN CHOICE). -/
def Hub.eqTrainDone (h : Hub) (p : Port) : Hub :=
  if h.lstate p = stEqTrain then
    ((lanesOf (h.eqLanes p)).foldl (fun (h : Hub) l =>
      if bit (h.links.at p).doneHere l then h else h.eqLaneDone p l) h).eqTrained p
  else h

/-- EQ_CHECK_DONE (R52): this end's result is sent by TSG and both are judged once known. -/
def Hub.eqCheckDone (h : Hub) (p : Port) (pass : Bool) : Hub :=
  if h.lstate p = stEqCheck then
    let h := h.sendSetReq p osTSG (h.gear p) (h.gear p) (if pass then 3 else 4) 0 0
    (h.onLink p (fun l => { l with checkHere := some pass })).decideCheck p
  else h

/-- LINK_UP (R53): the port in ACTIVE is UP, its count of failed bring-ups is clear (R54), and a link-up notice is made. -/
def Hub.linkUp (h : Hub) (p : Port) : Hub :=
  if h.lstate p = stActive ∧ h.up p = false then
    let h := ((h.put (R.LNK_STATUS_UP p.ix) 1).onLink p (fun l => { l with fails := 0 })).latchAll evLink
    h.notice (14 + p.ix) 0x81 (h.gear p) (h.rd (A.LNK_STATUS p.ix)).toNat
  else h

/-- TRAINING_TIMEOUT (R50): the state's bound has passed. The exit of PARTNER_STEEP counts as a failed bring-up and leaves
FAULT, for which its row names no code (assumption 130, DESIGN CHOICE). -/
def Hub.trainingTimeout (h : Hub) (p : Port) : Hub :=
  let st := h.lstate p
  let fault := fun (n : Nat) => (h.put (R.LNK_STATUS_FAULT p.ix) n).failedBringUp p
  if st = stDetectRx then fault 1
  else if st = stLock then fault 2
  else if st = stDeskew then fault 3
  else if st = stOrient then fault 4
  else if st = stCaps then fault 5
  else if st = stGearStep ∨ st = stEqTrain then (h.bump (R.LNK_TRAIN_FAIL p.ix)).stepFailed p
  else if st = stResume then fault 8
  else if st = stPartnerSteep then h.failedBringUp p
  else h

/-- BACKOFF_EXPIRE (R54). -/
def Hub.backoffExpire (h : Hub) (p : Port) : Hub := if h.lstate p = stBackoff then h.toState p stDetectRx else h

/-- LINK_DISABLE (R53). -/
def Hub.linkDisable (h : Hub) (p : Port) : Hub := (h.put (R.LNK_CTRL_ENABLE p.ix) 0).leaveService p stDisabled

/-- LINK_ENABLE (R53): a DISABLED port goes back into training. -/
def Hub.linkEnable (h : Hub) (p : Port) : Hub :=
  let h := h.put (R.LNK_CTRL_ENABLE p.ix) 1
  if h.lstate p = stDisabled then
    let h := h.toState p stDetectAttach
    h.linkAttach p
  else h

/-- LINK_RETRAIN (R53): from any state that an attached cable has reached (assumption 17, DESIGN CHOICE). -/
def Hub.linkRetrain (h : Hub) (p : Port) : Hub :=
  if h.lstate p = stDisabled ∨ h.lstate p = stDetectAttach then h else h.retrain p

/-- LINK_DETACH (R53): the port goes to DETECT_ATTACH; a disabled port stays disabled. -/
def Hub.linkDetach (h : Hub) (p : Port) : Hub :=
  let st := if h.lstate p = stDisabled ∧ (h.links.at p).slept = false then stDisabled else stDetectAttach
  let h := (h.leaveService p st).put (R.LNK_STATUS_PARTNER p.ix) 7
  (h.put (R.LNK_STATUS_FLIPPED p.ix) 0).put (R.LNK_STATUS_ORIENT_MISMATCH p.ix) 0

/-! ### Loopbacks (R58, R59) -/

/-- LOOPBACK_NEAR_END (R58): a parallel or serial loop, the transmit pairs idle, its pattern from the start
(assumption 17, DESIGN CHOICE). -/
def Hub.loopNear (h : Hub) (p : Port) (serial : Bool) : Hub :=
  let h := h.put (R.LNK_CTRL_LOOPBACK p.ix) (if serial then 2 else 1)
  if h.lstate p = stDisabled then h else (h.leaveService p (if serial then stLoopSer else stLoopPar)).seedPattern p

/-- LOOPBACK_FAR_END (R59): 16 LPB sets, then LOOP_FAR with the lanes as trained, its pattern from the start
(assumption 17, DESIGN CHOICE). -/
def Hub.loopFar (h : Hub) (p : Port) : Hub :=
  let h := h.put (R.LNK_CTRL_LOOPBACK p.ix) 3
  if h.lstate p = stDisabled then h else ((h.sendSets p osLPB 1 0 16).endService p stLoopFar).seedPattern p

/-- The LOOPBACK value of the loopback a port is in; 0 outside one (R57). -/
def Hub.loopNow (h : Hub) (p : Port) : Nat :=
  if h.lstate p = stLoopPar then 1 else if h.lstate p = stLoopSer then 2 else if h.lstate p = stLoopFar then 3 else 0

/-- LOOPBACK_END (R59): LOOPBACK 0b000 takes a loopback to DETECT_RX, a far one through electrical idle. -/
def Hub.loopEnd (h : Hub) (p : Port) : Hub :=
  let h := h.put (R.LNK_CTRL_LOOPBACK p.ix) 0
  if h.lstate p = stLoopPar ∨ h.lstate p = stLoopSer ∨ h.lstate p = stLoopFar then h.retrain p else h

/-- FAR_LOOP_REFUSED (R59): the request ends with FAULT 9. -/
def Hub.farRefused (h : Hub) (p : Port) : Hub :=
  if h.lstate p = stLoopFar then (h.put (R.LNK_STATUS_FAULT p.ix) 9).loopEnd p else h

/-- LPB_RECEIVED (R59): in ACTIVE, and in the states that are left as ACTIVE is (R50), a request takes the port to the far
side of a loopback with its lanes as trained, or is refused. -/
def Hub.lpbReceived (h : Hub) (p : Port) (a0 : Nat) : Hub :=
  if a0 = 1 ∧ h.carries p = true then
    if h.on (R.LNK_CTRL_FAR_LOOP_ALLOW p.ix) then h.endService p stLoopRemote else h.sendSets p osLPB 2 0 16
  else if a0 = 2 then h.farRefused p
  else h

/-- FAR_LOOP_IDLE_EXIT (R59): the partner's idle ends the far side of a loopback. -/
def Hub.farIdleExit (h : Hub) (p : Port) : Hub := if h.lstate p = stLoopRemote then h.retrain p else h

/-! ### Withdrawal (R60) -/

/-- Whether a withdrawal may be granted (R60): both directions at full width with every lane in service. -/
def Hub.mayWithdraw (h : Hub) (p : Port) : Bool :=
  (h.links.at p).rx == Layout.full && (h.links.at p).tx == Layout.full && (h.links.at p).withdrawn.isNone
    && [0, 1, 2, 3, 4].all (fun l => h.laneRx p l == 0 && h.laneTx p l == 0)

/-- A lane is withdrawn in both directions and CAL is sent on it (R60). -/
def Hub.withdraw (h : Hub) (p : Port) (l : Nat) : Hub :=
  ((((h.setRx p l 2).setTx p l 2).onLink p (fun x => { x with withdrawn := some l, asked := none }))).driveLanes (.cal p l)

/-- WITHDRAW_REQUEST (R60): a WDR request, refused at once outside ACTIVE or while another is in progress. -/
def Hub.withdrawRequest (h : Hub) (p : Port) (l : Nat) : Hub :=
  let h := if l ≤ 4 then h.put (R.LNK_WITHDRAW_LANE p.ix) l else h
  let lane := h.get (R.LNK_WITHDRAW_LANE p.ix)
  if h.inService p && (h.links.at p).asked.isNone && (h.links.at p).withdrawn.isNone then
    (h.workSet p osWDR lane 0 0 0).onLink p (fun x => { x with asked := some lane })
  else h.put (R.LNK_WITHDRAW_RESULT p.ix) 2

/-- WDR_RECEIVED (R60): request, grant, refusal or return; the partner's return leaves RESULT as it is
(assumption 115, DESIGN CHOICE). -/
def Hub.wdrReceived (h : Hub) (p : Port) (l op : Nat) : Hub :=
  if !h.inService p || decide (4 < l) then h
  else if op = 0 then
    if (h.links.at p).asked.isSome && h.leads p then h.workSet p osWDR l 2 0 0
    else
      let h := if (h.links.at p).asked.isSome then
          (h.put (R.LNK_WITHDRAW_RESULT p.ix) 2).onLink p (fun x => { x with asked := none })
        else h
      if h.mayWithdraw p then (h.workSet p osWDR l 1 0 0).withdraw p l else h.workSet p osWDR l 2 0 0
  else if op = 1 then
    if (h.links.at p).asked = some l then (h.withdraw p l).put (R.LNK_WITHDRAW_RESULT p.ix) 1 else h
  else if op = 2 then
    if (h.links.at p).asked.isSome then
      (h.put (R.LNK_WITHDRAW_RESULT p.ix) 2).onLink p (fun x => { x with asked := none })
    else h
  else if op = 3 then
    if (h.links.at p).withdrawn = some l then
      (h.onLink p (fun x => { x with withdrawn := none })).announce p (h.links.at p).ceiling
    else h
  else h

/-- WITHDRAW_RETURN (R60): a WDR return and the WID set at whose column the lane re-enters service, within the ceiling of
R67; RESULT reads none (assumption 115, DESIGN CHOICE). -/
def Hub.withdrawReturn (h : Hub) (p : Port) : Hub :=
  match (h.links.at p).withdrawn with
  | some l =>
    ((((h.workSet p osWDR l 3 0 0).onLink p (fun x => { x with withdrawn := none })).put
      (R.LNK_WITHDRAW_RESULT p.ix) 0).announce p (h.links.at p).ceiling)
  | none => h

/-! ### Lull and Shed (R62–R67) -/

/-- Whether a port has nothing to send (R62): no packet queued, to be replayed or on the wire; no ACK or CREDIT owed
(R82, R89); no announced layout still to come. -/
def Hub.nothingToSend (h : Hub) (p : Port) : Bool :=
  let l := h.links.at p
  (h.queueKeys p.ix).isEmpty && l.rq.isEmpty && l.wire.isNone && l.good == 0 && l.rel == l.relSent && l.txNext.isNone

/-- LULL_ENTRY (R62): a LUL set, then every lane idle but L0 while the partner takes its clock from it. -/
def Hub.lullEntry (h : Hub) (p : Port) : Hub :=
  let ok := h.on (R.LNK_LOWPWR_LULL_EN p.ix) && !h.on (R.LNK_STATUS_TX_LULL p.ix)
    && ((p == .S && h.inService p && h.nothingToSend p) || h.lstate p == stOpenEnd)
  if ok then
    let keep := bit (h.links.at p).pcaps 5 && h.lstate p != stOpenEnd
    let h := (h.sendSet p osLUL (b2n keep) 0 0 0).put (R.LNK_STATUS_TX_LULL p.ix) 1
    if h.lstate p = stOpenEnd then h.openEndLanes p
    else h.eachLane (fun h l => if h.laneTx p l = 0 ∧ !(keep && l == 0) then h.setTx p l 5 else h)
  else h

/-- LULL_EN written (R62, R63): at an open end its lanes rest while the bit is 1, and run while it is 0; elsewhere Lull ends
with the bit. -/
def Hub.lullWritten (h : Hub) (p : Port) : Hub :=
  if h.lstate p = stOpenEnd then h.openEndLanes p
  else if h.on (R.LNK_LOWPWR_LULL_EN p.ix) then h
  else h.lullExit p

/-- Cells queued at a link output. -/
def Hub.outCells (h : Hub) (o : Nat) : Nat := ((h.queueKeys o).map (fun q => h.queueCells o q)).sum

/-- Whether a direction's queued data exceeds SHED_WAKE cells (R65). -/
def Hub.overWake (h : Hub) (p : Port) : Bool := decide (h.outCells p.ix > h.get (R.LNK_LOWPWR_SHED_WAKE p.ix))

/-- The units a direction needs (R64). -/
def Hub.shedUnits (h : Hub) (p : Port) : Nat :=
  ((h.activeGrants p.ix).map Prod.snd).sum
    + (if h.on (R.LNK_LOWPWR_PAR_SHED_EN p.ix) then 0 else h.get R.SCH_PCAP_ACTIVE) + 41

/-- The layout Shed chooses, within the ceiling of R67 (R64). -/
def Hub.shedLayout (h : Hub) (p : Port) : Layout :=
  let u := h.shedUnits p
  let w := if u ≤ 1024 then 1 else if u ≤ 2048 then 2 else 4
  let lp := h.links.at p
  if w < lp.narWidth then layoutOf lp.narMask w (h.on (R.LNK_LOWPWR_PAR_SHED_EN p.ix))
  else if lp.narWidth = 4 then layoutOf 31 4 (h.on (R.LNK_LOWPWR_PAR_SHED_EN p.ix))
  else lp.ceiling

/-- The layout due to a ring port's direction: Shed's while SHED_EN is 1 and no wake holds its lanes (R64, R65), else
the widest that the ceiling permits (R67) (assumption 20, DEDUCED). -/
def Hub.shedTarget (h : Hub) (p : Port) : Layout :=
  if h.on (R.LNK_LOWPWR_SHED_EN p.ix) && !(h.links.at p).woken then h.shedLayout p else (h.links.at p).ceiling

/-- SHED_RECALCULATE (R64): a ring port announces the layout due to it where it differs from the one in force
(assumption 20, DEDUCED). -/
def Hub.shedRecalc (h : Hub) (p : Port) : Hub :=
  if p ≠ .S ∧ h.lstate p = stActive ∧ h.up p = true
      ∧ (h.links.at p).withdrawn = none ∧ h.overWake p = false ∧ h.shedTarget p ≠ (h.links.at p).tx then
    h.announce p (h.shedTarget p)
  else h

/-- SHED_WAKE (R65): queued data above SHED_WAKE returns the shed lanes by a TS1 burst and a WID set, and the
direction does not shed again before SHED_IDLE (assumption 20, DEDUCED). -/
def Hub.shedWake (h : Hub) (p : Port) : Hub :=
  let lp := h.links.at p
  if h.inService p ∧ h.overWake p = true ∧ lp.tx ≠ lp.ceiling then
    ((h.sendSets p osTS1 0 0 2).announce p lp.ceiling).onLink p (fun l => { l with woken := true })
  else h

/-- SHED_IDLE_EXPIRE (R65): a queue quiet for SHED_IDLE lets the direction shed again (assumption 20, DEDUCED). -/
def Hub.shedIdle (h : Hub) (p : Port) : Hub :=
  if h.overWake p then h else (h.onLink p (fun l => { l with woken := false })).shedRecalc p

/-- Whether a P packet waits in one of an output's queues, wherever it stands. -/
def Hub.pWaits (h : Hub) (o : Nat) : Bool :=
  (h.queueKeys o).any (fun q => (h.queue o q).items.any (fun d => d.cls == .P))

/-- PARITY_FORCED_BACK (R66): a P packet at a direction whose parity lane is shed returns the lane. -/
def Hub.parityBack (h : Hub) (p : Port) : Hub :=
  let lp := h.links.at p
  if lp.tx.parShed = true ∧ h.pWaits p.ix = true then
    let h := (h.put (R.LNK_LOWPWR_PAR_SHED_EN p.ix) 0).put (R.LNK_LOWPWR_P_SEEN p.ix) 1
    let l := if lp.tx.width = 4 then Layout.full else layoutOf lp.narMask lp.tx.width false
    ((h.sendSets p osTS1 0 0 2).announce p l).widthSwitch p
  else h

/-- A stored gear as a gear 1 to 4 (assumption 18, DEDUCED). -/
def resumeGear (g : Nat) : Nat := max 1 (min 4 g)

/-- STP_RECEIVED (R53, R57): in ACTIVE, and in the states that are left as ACTIVE is (R50), the partner enters Steep; the
link is reported down, and L0 alone goes on without a break at the stored gear (assumption 18, DEDUCED). -/
def Hub.stpReceived (h : Hub) (p : Port) (gear : Nat) : Hub :=
  if h.carries p then
    let partner := h.get (R.LNK_STATUS_PARTNER p.ix)
    (((((h.endService p stPartnerSteep).forgetLanes p).put (R.LNK_STATUS_PARTNER p.ix) partner).put
      (R.LNK_STATUS_GEAR p.ix)
      (resumeGear (gear % 8))).setTx p 0 0).onLink p (fun l => { l with storedGear := gear % 8 })
  else h

/-! ### ORDERED_SET_RECEIVED (R49, R55) -/


/-- An accepted TS1 or TS2 drives the training states (R50, R55); 8 aligned sets relock a new gear
(assumption 12, DEDUCED; 13, DEDUCED; 114, DESIGN CHOICE). -/
def Hub.trainSet (h : Hub) (p : Port) (s : RxSet) : Hub :=
  let st := h.lstate p
  let lp := h.links.at p
  let ts2 := s.o.typ == osTS2
  let n := h.runOf p s
  let keep := fun (h : Hub) => h.onLink p (fun l => { l with run := n })
  if st = stLock ∧ !ts2 then
    if 20 ≤ n then (h.onLink p (fun l => { l with pairs := Nat.land l.pairs s.lock })).toState p stDeskew else keep h
  else if st = stDeskew ∧ !ts2 then
    if 8 ≤ n then (h.onLink p (fun l => { l with pairs := Nat.land l.pairs s.align })).toState p stOrient else keep h
  else if st = stOrient then
    let n := if h.extends_ p s then n else 1
    if 16 ≤ n ∧ 16 ≤ lp.sets then (h.takeMap p s.ids).toState p stCaps
    else h.onLink p (fun l => { l with run := n, ids := s.ids, sets := if n = 1 then 0 else l.sets })
  else if st = stCaps ∧ ts2 then
    let n := h.ts2Run p s.o
    if 8 ≤ n ∧ 16 ≤ lp.sets then h.capsDecision p s.o
    else h.onLink p (fun l => { l with run := n, lastTs2 := some s.o })
  else if st = stGearStep ∧ !ts2 ∧ lp.relock then
    if 8 ≤ n then (h.toState p stEqTrain).eqSteer p 5 else keep h
  else if st = stResume then
    let h := h.onLink p (fun l => { l with ready := l.ready || decide (3 ≤ (lanesOf (Nat.land s.lock s.align)).length) })
    if ts2 then
      let n := h.ts2Run p s.o
      if 8 ≤ n ∧ 16 ≤ lp.sets then h.enterActive p
      else h.onLink p (fun l => { l with run := n, lastTs2 := some s.o })
    else h
  else if st = stPartnerSteep then
    (h.toState p stResume).put (R.LNK_STATUS_GEAR p.ix) (resumeGear (h.links.at p).storedGear)
  else if st = stActive ∧ !ts2 ∧ slice s.o.gear 0 3 = h.gear p ∧ h.on (R.LNK_STATUS_RX_LULL p.ix) = false then
    h.retrain p
  else h

/-- Whether Lull has effect in a port's receive direction (R62): on a link of an S port, whose far end is the only one that
sends LUL to this one, and at an open end (assumption 122, DEDUCED). -/
def Hub.lullLink (h : Hub) (p : Port) : Bool :=
  p == .S || h.get (R.LNK_STATUS_PARTNER p.ix) == 3 || h.lstate p == stOpenEnd

/-- LUL received (R62): the lanes outside its mask go idle, their state held (assumption 21, DEDUCED; 122, DEDUCED). -/
def Hub.lulReceived (h : Hub) (p : Port) (mask : Nat) : Hub :=
  if h.carries p && h.lullLink p then
    (h.put (R.LNK_STATUS_RX_LULL p.ix) 1).eachLane (fun h l =>
      if h.laneRx p l = 0 ∧ !bit mask l then h.setRx p l 5 else h)
  else h

/-- ORDERED_SET_RECEIVED (R49): a set whose CHECK fails, with a column of two erased lanes, or of an unlisted type is
ignored; an accepted set acts by its type. -/
def Hub.orderedSet (h : Hub) (p : Port) (s : RxSet) : Hub :=
  if s.clean && s.o.ok then
    if s.o.typ = osTS1 ∨ s.o.typ = osTS2 then h.trainSet p s
    else if s.o.typ = osTSG then h.tsgReceived p s.o.a0 s.o.a1
    else if s.o.typ = osTSE then (if h.lstate p = stEqTrain then h.eqCommand p s.o.a0 s.o.a1 else h)
    else if s.o.typ = osNAR then h.narReceived p s.o.a0 s.o.a1
    else if s.o.typ = osWID then h.widReceived p s.o.a0 s.o.a1 (s.o.a2 == 1)
    else if s.o.typ = osLUL then h.lulReceived p s.o.a0
    else if s.o.typ = osWDR then h.wdrReceived p s.o.a0 s.o.a1
    else if s.o.typ = osLPB then h.lpbReceived p s.o.a0
    else if s.o.typ = osSTP then h.stpReceived p s.o.a0
    else h
  else h

/-! ### What leaves as time passes (R50, R58) -/

/-- The set a port sends over and over in its state (R50): TS1, TS2, or the TS1 pattern of a far loopback (R58). -/
def Hub.repeats (h : Hub) (p : Port) : Option Nat :=
  let st := h.lstate p
  if st = stLock ∨ st = stDeskew ∨ st = stOrient ∨ st = stEqCheck then some osTS1
  else if st = stCaps then some osTS2
  else if st = stGearStep ∧ (h.links.at p).relock then some osTS1
  else if st = stResume then some (if (h.links.at p).ready then osTS2 else osTS1)
  else if st = stLoopFar ∧ h.patternRuns p ∧ h.get (R.LNK_PATTERN_SEL p.ix) = 3 then some osTS1
  else none

/-- Columns that begin on a port in a stretch of root time from `r` (R36: 4 ns at Gear 1, half at each gear above). -/
def Hub.columnsIn (h : Hub) (p : Port) (r n : Nat) : Nat :=
  (r + n) / h.slotUnits p.ix - r / h.slotUnits p.ix

/-- The sets of a port's state that begin in a stretch of root time, 16 columns each (R48, R50); those sent after the first
accepted one are counted, in RESUME the TS2 sets (assumption 121, DEDUCED). -/
def Hub.sendTraining (h : Hub) (p : Port) (r n : Nat) : Hub :=
  match h.repeats p with
  | some typ =>
    let k := (r + n) / (16 * h.slotUnits p.ix) - r / (16 * h.slotUnits p.ix)
    if h.silent ∨ k = 0 then h
    else
      let l := h.links.at p
      let counts := if h.lstate p = stResume then typ == osTS2 else decide (0 < l.run)
      (h.sendSets p typ 0 0 k).onLink p (fun l => { l with sets := l.sets + (if counts then k else 0) })
  | none => h

/-- The columns of a far loopback's pattern that begin in a stretch of root time (R58) (assumption 112, DESIGN CHOICE). -/
def Hub.sendPattern (h : Hub) (p : Port) (r n : Nat) : Hub :=
  let sel := h.get (R.LNK_PATTERN_SEL p.ix)
  if h.lstate p = stLoopFar ∧ h.patternRuns p = true ∧ sel < 3 ∧ h.silent = false then
    let (bs, g) := prbsBytes sel (h.links.at p).gen (h.columnsIn p r n)
    if bs.isEmpty then h else (h.emit (.pattern p bs)).onLink p (fun l => { l with gen := g })
  else h

/-- What the three ports send of their own accord in a stretch of root time (R50, R58). -/
def Hub.portsSend (h : Hub) (r n : Nat) : Hub :=
  Port.all.foldl (fun h p => (h.sendTraining p r n).sendPattern p r n) h

/-! ### Counter clears (R69, R104) -/

/-- LNKE_CLEAR_LANE_COUNTERS (R69). -/
def Hub.clearLaneCounters (h : Hub) (p : Port) : Hub := h.clearRange (A.LNK_ERASED p.ix 0) (A.LNK_DISCARD p.ix)

/-- LNKE_CLEAR_PACKET_COUNTERS (R104). -/
def Hub.clearPacketCounters (h : Hub) (p : Port) : Hub := h.clearRange (A.LNK_CRC_ERR p.ix) (A.LNK_CREDIT_ERR p.ix)

/-- LNKE_CLEAR_WINDOW_COUNTERS (R104). -/
def Hub.clearWindowCounters (h : Hub) : Hub :=
  { (h.clearRange (A.LNK_WIN_DUP_P_LO 0) (A.LNK_WIN_RESYNC 0)) with rt := { h.rt with dupP := 0 } }

/-! ### The rows of the table -/

/-- RECEIVE_COLUMN (R41). -/
def execReceiveColumn (p : Port) (c : Column) (s : State) : Result := s.upd (fun h => h.receiveColumn p c)

/-- SEND_ALIGNMENT_MARKER (R38). -/
def execSendAlignmentMarker (p : Port) (s : State) : Result := s.upd (fun h => h.sendMarker p)

/-- LANE_FAILED (R42). -/
def execLaneFailed (p : Port) (lane : Fin 5) (why : LaneFault) (s : State) : Result :=
  s.upd (fun h => h.laneFailed p lane why false)

/-- NAR_RECEIVED (R67). -/
def execNarReceived (p : Port) (mask : BitVec 5) (width : Nat) (s : State) : Result :=
  s.upd (fun h => h.narReceived p mask.toNat width)

/-- WIDTH_SWITCH (R46). -/
def execWidthSwitch (p : Port) (s : State) : Result := s.upd (fun h => h.widthSwitch p)

/-- WID_RECEIVED (R49). -/
def execWidReceived (p : Port) (mask : BitVec 5) (width : Nat) (parShed : Bool) (s : State) : Result :=
  s.upd (fun h => h.widReceived p mask.toNat width parShed)

/-- DIRECTION_LOST (R43). -/
def execDirectionLost (p : Port) (uncorrectable : Bool) (s : State) : Result :=
  s.upd (fun h => h.directionLost p uncorrectable)

/-- LANE_PROBE (R47). -/
def execLaneProbe (p : Port) (s : State) : Result := s.upd (fun h => h.laneProbe p)

/-- LANE_PROBE_PASS (R47). -/
def execLaneProbePass (p : Port) (lane : Fin 5) (s : State) : Result := s.upd (fun h => h.laneProbePass p lane)

/-- ORDERED_SET_RECEIVED (R49). -/
def execOrderedSetReceived (p : Port) (set : RxSet) (s : State) : Result := s.upd (fun h => h.orderedSet p set)

/-- LINK_ATTACH (R50). -/
def execLinkAttach (p : Port) (s : State) : Result := s.upd (fun h => h.linkAttach p)

/-- RECEIVER_DETECTION (R50). -/
def execReceiverDetection (p : Port) (pairs : BitVec 5) (s : State) : Result :=
  s.upd (fun h => h.receiverDetection p pairs.toNat)

/-- TRAINING_TIMEOUT (R50). -/
def execTrainingTimeout (p : Port) (s : State) : Result := s.upd (fun h => h.trainingTimeout p)

/-- GEAR_STEP_REQUEST (R52). -/
def execGearStepRequest (p : Port) (s : State) : Result := s.upd (fun h => h.gearStepRequest p)

/-- GEAR_RATE_CHANGE (R52). -/
def execGearRateChange (p : Port) (s : State) : Result := s.upd (fun h => h.gearRateChange p)

/-- EQ_TRAIN_DONE (R52). -/
def execEqTrainDone (p : Port) (s : State) : Result := s.upd (fun h => h.eqTrainDone p)

/-- EQ_CHECK_DONE (R52). -/
def execEqCheckDone (p : Port) (pass : Bool) (s : State) : Result := s.upd (fun h => h.eqCheckDone p pass)

/-- LINK_UP (R53). -/
def execLinkUp (p : Port) (s : State) : Result := s.upd (fun h => h.linkUp p)

/-- LINK_DISABLE (R53). -/
def execLinkDisable (p : Port) (s : State) : Result := s.upd (fun h => h.linkDisable p)

/-- LINK_RETRAIN (R53). -/
def execLinkRetrain (p : Port) (s : State) : Result := s.upd (fun h => h.linkRetrain p)

/-- LINK_DETACH (R53). -/
def execLinkDetach (p : Port) (s : State) : Result := s.upd (fun h => h.linkDetach p)

/-- BACKOFF_EXPIRE (R54). -/
def execBackoffExpire (p : Port) (s : State) : Result := s.upd (fun h => h.backoffExpire p)

/-- LOOPBACK_NEAR_END (R58). -/
def execLoopbackNearEnd (p : Port) (serial : Bool) (s : State) : Result := s.upd (fun h => h.loopNear p serial)

/-- LOOPBACK_FAR_END (R59). -/
def execLoopbackFarEnd (p : Port) (s : State) : Result := s.upd (fun h => h.loopFar p)

/-- LPB_RECEIVED (R59). -/
def execLpbReceived (p : Port) (arg0 : Byte) (s : State) : Result := s.upd (fun h => h.lpbReceived p arg0.toNat)

/-- FAR_LOOP_REFUSED (R59). -/
def execFarLoopRefused (p : Port) (s : State) : Result := s.upd (fun h => h.farRefused p)

/-- LOOPBACK_END (R59). -/
def execLoopbackEnd (p : Port) (s : State) : Result := s.upd (fun h => h.loopEnd p)

/-- WITHDRAW_REQUEST (R60). -/
def execWithdrawRequest (p : Port) (lane : BitVec 3) (s : State) : Result :=
  s.upd (fun h => h.withdrawRequest p lane.toNat)

/-- WDR_RECEIVED (R60). -/
def execWdrReceived (p : Port) (lane : Byte) (op : Byte) (s : State) : Result :=
  s.upd (fun h => h.wdrReceived p lane.toNat op.toNat)

/-- WITHDRAW_RETURN (R60). -/
def execWithdrawReturn (p : Port) (s : State) : Result := s.upd (fun h => h.withdrawReturn p)

/-- WITHDRAW_GIVE_BACK (R61). -/
def execWithdrawGiveBack (p : Port) (s : State) : Result := s.upd (fun h => h.giveBack p)

/-- LULL_ENTRY (R62). -/
def execLullEntry (p : Port) (s : State) : Result := s.upd (fun h => h.lullEntry p)

/-- LULL_EXIT (R63). -/
def execLullExit (p : Port) (s : State) : Result := s.upd (fun h => h.lullExit p)

/-- SHED_WAKE (R65). -/
def execShedWake (p : Port) (s : State) : Result := s.upd (fun h => h.shedWake p)

/-- SHED_IDLE_EXPIRE (R65). -/
def execShedIdleExpire (p : Port) (s : State) : Result := s.upd (fun h => h.shedIdle p)

/-- PARITY_FORCED_BACK (R66). -/
def execParityForcedBack (p : Port) (s : State) : Result := s.upd (fun h => h.parityBack p)

/-- LNKE_CLEAR_LANE_COUNTERS (R69). -/
def execLnkeClearLaneCounters (p : Port) (s : State) : Result := s.upd (fun h => h.clearLaneCounters p)

/-- LNKE_CLEAR_PACKET_COUNTERS (R104). -/
def execLnkeClearPacketCounters (p : Port) (s : State) : Result := s.upd (fun h => h.clearPacketCounters p)

/-- LNKE_CLEAR_WINDOW_COUNTERS (R104). -/
def execLnkeClearWindowCounters (s : State) : Result := s.upd (fun h => h.clearWindowCounters)

/-- STP_RECEIVED (R53). -/
def execStpReceived (p : Port) (gear : Byte) (s : State) : Result := s.upd (fun h => h.stpReceived p gear.toNat)

/-- FAR_LOOP_IDLE_EXIT (R59). -/
def execFarLoopIdleExit (p : Port) (s : State) : Result := s.upd (fun h => h.farIdleExit p)

/-- LINK_ENABLE (R53). -/
def execLinkEnable (p : Port) (s : State) : Result := s.upd (fun h => h.linkEnable p)

end Sys2Proof.Machine
end

