-- ==== Sys2Proof/Machine/LinkPackets.lean ====
section
/-! DEFINITION. The packet layer of a link port (chapter 03): receive checks, link control, replay, credits, wrap at a
break, and route entries. -/

namespace Sys2Proof.Machine

/-! ### Link control (R80, R82, R84, R89) -/

/-- CHK of a link-control word: the XOR of its other seven nibbles (R80). -/
def lcChk (w : Nat) : Nat :=
  [slice w 8 4, slice w 12 4, slice w 16 4, slice w 20 4, slice w 24 4, slice w 28 4].foldl Nat.xor (slice w 0 4)

/-- A link-control word of a TYPE and ARG (R80). -/
def lcWord (typ arg : Nat) : Word :=
  let w := typ % 16 + arg % 2 ^ 24 * 256
  W (w + 16 * lcChk w)

/-- Whether a link-control word is acted on (R80). -/
def lcGood (w : Word) : Bool :=
  let t := slice w.toNat 0 4
  slice w.toNat 4 4 == lcChk w.toNat && decide (1 ≤ t) && decide (t ≤ 3)

/-- The LSEQ the receiver names: the last received good and in order (R82). -/
def Hub.lastGood (h : Hub) (p : Port) : Nat := subMod 4096 (h.get (R.LNK_RX_SEQ_EXPECTED p.ix)) 1

/-- A link-control word leaves, ending Lull first (R63). -/
def Hub.sendLc (h : Hub) (p : Port) (w : Word) : Hub := (h.lullExit p).emit (.lc p w)

/-- An ACK leaves (R82); in FREE none does, and it stays owed (R111). -/
def Hub.ackNow (h : Hub) (p : Port) : Hub :=
  if h.silent then h else (h.sendLc p (lcWord 1 (h.lastGood p))).onLink p (fun l => { l with good := 0 })

/-- A NAK leaves (R84); in FREE none does (R111). -/
def Hub.nakNow (h : Hub) (p : Port) : Hub :=
  if h.silent then h
  else ((h.sendLc p (lcWord 2 (h.lastGood p))).onLink p (fun l => { l with good := 0, nakOut := true })).bump
    (R.LNK_NAK_TX p.ix)

/-- SEND_NAK (R84): at most one NAK a gap. -/
def Hub.sendNak (h : Hub) (p : Port) : Hub := if (h.links.at p).nakOut then h else h.nakNow p

/-- NAK_REPEAT (R84): another NAK of the same gap. -/
def Hub.nakRepeat (h : Hub) (p : Port) : Hub := if h.inService p && (h.links.at p).nakOut then h.nakNow p else h

/-- SEND_ACK (R82): an ACK for the good packets since the last. -/
def Hub.sendAck (h : Hub) (p : Port) : Hub := if h.inService p && decide (0 < (h.links.at p).good) then h.ackNow p else h

/-- A good in-order packet advances the expected LSEQ (R83), and the sixteenth draws an ACK (R82). -/
def Hub.inOrder (h : Hub) (p : Port) : Hub :=
  let h := h.put (R.LNK_RX_SEQ_EXPECTED p.ix) ((h.get (R.LNK_RX_SEQ_EXPECTED p.ix) + 1) % 4096)
  let h := h.onLink p (fun l => { l with good := l.good + 1, nakOut := false })
  if 16 ≤ (h.links.at p).good then h.ackNow p else h

/-- A link-control column outside service is discarded and counted (R55). -/
def Hub.lcOnly (h : Hub) (p : Port) (f : Hub → Hub) : Hub := if h.inService p then f h else h.bump (R.LNK_DISCARD p.ix)

/-- LINK_CONTROL_ERROR (R80). -/
def Hub.lcError (h : Hub) (p : Port) (w : Word) : Hub :=
  h.lcOnly p (fun h => if lcGood w then h else h.bump (R.LNK_LC_ERR p.ix))

/-! ### Replay (R81–R86) -/

/-- Bytes a held packet takes: header, payload and CRC (R81). -/
def Packet.heldBytes (p : Packet) : Nat := 20 + 4 * p.length

/-- Bytes held for replay, LNKE_REPLAY_FILL.BYTES. -/
def LinkPort.fillBytes (l : LinkPort) : Nat := (l.replay.map Packet.heldBytes).sum

/-- Whether the replay buffer can hold a new packet (R81). -/
def LinkPort.replayRoom (l : LinkPort) (p : Packet) : Bool :=
  decide (l.fillBytes + p.heldBytes ≤ 65536) && decide (l.replay.length < 2047)

/-- Frees held packets up to and including the one named (R82): how many it freed, or none when it names no held
packet. -/
def LinkPort.freeCount (l : LinkPort) (n : Nat) : Option Nat :=
  match l.replay with
  | [] => none
  | o :: _ =>
    let d := subMod 4096 n o.lseq
    if d < l.replay.length then some (d + 1) else none

/-- `k` held packets are freed, the last of LSEQ `n`; freed packets are not replayed any more. -/
def Hub.freeHeld (h : Hub) (p : Port) (k n : Nat) : Hub :=
  (h.onLink p (fun l => { l with
    replay := l.replay.drop k
    rq := l.rq.filter (fun q => !(l.replay.take k).any (fun r => r.lseq == q.lseq))
    orig := (l.replay.take k).foldl (fun m r => KMap.del m r.lseq) l.orig
    noProg := 0 })).put (R.LNK_REPLAY_SEQ_ACKED p.ix) n

/-- ACK_RECEIVED (R82). -/
def Hub.ackReceived (h : Hub) (p : Port) (n : Nat) : Hub :=
  h.lcOnly p (fun h =>
    match (h.links.at p).freeCount n with
    | some k => h.freeHeld p k n
    | none => h)

/-- The link is lost after REPLAY_MAX replays without progress (R86). -/
def Hub.replayLost (h : Hub) (p : Port) : Hub := (h.lnkLog p 0x10 sevDG 0 0).retrain p

/-- Every held packet is replayed (R85, R86), unless REPLAY_MAX replays have freed nothing (assumption 25, DEDUCED). -/
def Hub.replayAll (h : Hub) (p : Port) : Hub :=
  let l := h.links.at p
  if l.replay.isEmpty then h
  else if h.get (R.LNK_PKT_CTRL_REPLAY_MAX p.ix) ≤ l.noProg then h.replayLost p
  else h.onLink p (fun l => { l with rq := l.replay, noProg := l.noProg + 1 })

/-- NAK_RECEIVED (R82, R85): frees, then replays every later packet; one naming the packet freed last only replays. -/
def Hub.nakReceived (h : Hub) (p : Port) (n : Nat) : Hub :=
  h.lcOnly p (fun h =>
    let h := h.bump (R.LNK_NAK_RX p.ix)
    match (h.links.at p).freeCount n with
    | some k => (h.freeHeld p k n).replayAll p
    | none =>
      let last := match (h.links.at p).replay with
        | o :: _ => subMod 4096 o.lseq 1
        | [] => h.get (R.LNK_REPLAY_SEQ_ACKED p.ix)
      if n = last then h.replayAll p else h)

/-- REPLAY_TIMEOUT (R86): held packets with no progress are all replayed, or the link is lost (assumption 25, DEDUCED). -/
def Hub.replayTimeout (h : Hub) (p : Port) : Hub :=
  let l := h.links.at p
  if h.inService p && !l.replay.isEmpty then
    if h.get (R.LNK_PKT_CTRL_REPLAY_MAX p.ix) ≤ l.noProg then h.replayLost p
    else (h.bump (R.LNK_REPLAY_TO p.ix)).replayAll p
  else h

/-! ### Credits (R88–R90) -/


/-- Credit used by a transmission (R87, R90). -/
def Hub.useCredit (h : Hub) (p : Port) (q : Packet) : Hub :=
  h.onLink p (fun l => { l with used := l.used.set q.cls ((l.used.at q.cls + q.cells) % 65536) })

/-- CREDIT_RECEIVED (R90). -/
def Hub.creditReceived (h : Hub) (p : Port) (c : Cls) (v : Nat) : Hub :=
  h.lcOnly p (fun h =>
    let l := h.links.at p
    if subMod 65536 v (l.used.at c) ≤ 2040 then
      h.onLink p (fun l => { l with limit := l.limit.set c (v % 65536), seen := l.seen.set c 1 })
    else
      let h := (h.onLink p (fun l => { l with seen := l.seen.set c 0 })).bump (R.LNK_CREDIT_ERR p.ix)
      h.lnkLog p 0x0E sevCT 0 (h.get (R.LNK_CREDIT_ERR p.ix)))

/-- SEND_CREDIT (R89): the class's cumulative count of cells released. -/
def Hub.sendCredit (h : Hub) (p : Port) (c : Cls) : Hub :=
  if h.inService p && !h.silent then
    let v := (h.links.at p).rel.at c
    (h.sendLc p (lcWord 3 (c.ix * 65536 + v))).onLink p (fun l => { l with relSent := l.relSent.set c v })
  else h

/-! ### PACKET_RECEIVED (R79) -/

/-- Header errors of ENUM packets (R476). -/
def enumBad (p : Packet) : Bool :=
  p.kind == 7 &&
    (let op := p.aux % 16
     if op = 1 then p.length != 1
     else if op = 2 then p.length != 1 || slice ((p.payload.headD 0).toNat) 0 2 == 0
     else if op = 3 then p.length != 4
     else true)

/-- Receive check 4 (R79): KIND, class, DEST, SRC and broadcast rules; class M only on a miswired link (R16). -/
def Hub.headerBad (h : Hub) (p : Packet) (port : Port) : Bool :=
  decide (8 ≤ p.kind) || (p.kind != 0 && p.cls != .M) || !tidValid p.dest || decide (64 < p.src)
    || (hubOf p.dest == 127 && (p.src != 0 || p.cls != .M)) || enumBad p
    || (h.lstate port == stMiswired && p.cls != .M)

/-- Whether a port consumes a packet itself (R87, R128, R476). -/
def Packet.portOwn (p : Packet) : Bool := p.kind == 5 || p.kind == 6 || (p.kind == 7 && p.aux % 16 == 1)

/-- The outputs a packet is routed to, with their queues (R166). -/
def Hub.wayOutputs (h : Hub) (p : Packet) (arr : Option Port) : List (Nat × Nat) :=
  let localQ := fun (n : Nat) => match h.localOut n with | some o => [(o, n)] | none => []
  match h.way p arr with
  | .deliver n => localQ n
  | .bcast n => localQ n ++ (h.bcastPorts arr).map (fun q => (q.ix, linkQueue p.dest))
  | .copies ts _ _ => ts.map (fun t => (t.out, t.q))
  | .out q _ => [(q.ix, linkQueue p.dest)]
  | .wrapped q _ => [(q.other.ix, linkQueue p.dest)]
  | _ => []

/-- A packet counted under a cause at each of a list of outputs. -/
def Hub.countAt (h : Hub) (c : Cls) (cause : Nat) : List (Nat × Nat) → Hub
  | [] => h
  | (o, q) :: rest => (h.count o q c cause).countAt c cause rest


/-- A packet already leaving cut-through is ended with K30.7 (R71): it went out with the output's next link sequence, which
the next packet takes, and is not held for replay (assumption 28, DEDUCED). -/
def Hub.poisonCut (h : Hub) (p : Packet) : Option Port → Hub
  | none => h
  | some out =>
    if h.mayCut p out then
      let k := { p with
        hops := (p.hops + 1) % 256, lseq := if p.cls = .P then 0 else h.get (R.LNK_REPLAY_SEQ_NEXT out.ix) }
      ((h.emit (.poison out k)).useCredit out p).bump (R.LNK_POISON_TX out.ix)
    else h

/-- The packet a damaged arrival seems to be: its header as it stands, and the payload words that arrived. -/
def Wire.seen (w : Wire) : Option Packet := (Packet.parse? w.words).map Prod.fst

/-- The cells of a discarded arrival go back to its class (R87): none where no whole header arrived
(assumption 24, DEDUCED). -/
def Hub.creditSeen (h : Hub) (port : Port) (w : Wire) : Hub :=
  match w.seen with
  | some p => h.credit port p.cls (min 9 p.cells)
  | none => h

/-- The packet spelled by a good arrival (R79 order 2): none when it is bad. -/
def Hub.goodPacket (h : Hub) (port : Port) (w : Wire) : Option Packet :=
  if w.uncorrectable || w.restarted || (h.links.at port).pktBad then none
  else
    match Packet.parse? w.words with
    | some (p, len) => if len = p.length ∧ len ≤ 128 ∧ w.crc = crc32 (bytesOf w.words) then some p else none
    | none => none

/-- A discarded arrival after which nothing but its credit remains: poison goes on cut-through (assumption 24, DEDUCED). -/
def Hub.dropArrival (h : Hub) (port : Port) (w : Wire) (cut : Option Port) : Hub :=
  let h := h.creditSeen port w
  match w.seen with
  | some p => h.poisonCut p cut
  | none => h

/-- Receive checks 4 to 6 (R79) of a packet that is good and in order. What the port itself consumes takes no cells and is
taken before the test of a rebuild (R164) (assumption 139, DESIGN CHOICE). -/
def Hub.acceptPacket (h : Hub) (port : Port) (p : Packet) (early : Bool) (cut : Option Port) : Hub :=
  let adv := fun (h : Hub) => if p.cls = .P then h else h.inOrder port
  let back := fun (h : Hub) => h.credit port p.cls p.cells
  if h.headerBad p port then (back (adv h)).countHdrErr port p.dest
  else if 130 ≤ p.hops ∧ !(h.hasAddr && hubOf p.dest == h.addr) then
    let h := (back (adv h)).bump (R.LNK_HOP_DROP port.ix)
    h.lnkLog port 0x0B sevCT p.dest (h.get (R.LNK_HOP_DROP port.ix))
  else if p.portOwn then
    (back (adv h)).onLink port (fun l => { l with ctl := l.ctl ++ [⟨p, h.root⟩] })
  else if h.on R.FAB_STATUS_REBUILD then
    let h := (back h).countAt p.cls 9 (h.wayOutputs p (some port))
    if p.cls = .P then h else h.sendNak port
  else (adv h).forward p port early cut

/-- A packet at a port that is not in service is discarded and counted: in LNKE_DISCARD, an ASSIGN at an open end in
LNKE_HDR_ERR (R477). -/
def Hub.outOfService (h : Hub) (port : Port) (w : Wire) : Hub :=
  let assign := (h.goodPacket port w).any (fun p => p.kind == 7 && p.aux % 16 == 1)
  if h.lstate port = stOpenEnd ∧ assign = true then h.countHdrErr port 0 else h.bump (R.LNK_DISCARD port.ix)

/-- PACKET_RECEIVED (R79): a packet received whole is classified by the receive checks in order; `cut` names the
output on which the hub had begun to forward it cut-through (R72) (assumption 28, DEDUCED). -/
def Hub.packetReceived (h : Hub) (port : Port) (w : Wire) (cut : Option Port) : Hub :=
  if !h.inService port then h.outOfService port w
  else if w.poisoned then
    (((h.bump (R.LNK_POISON_RX port.ix)).dropArrival port w cut).onLink port (fun l => { l with pktBad := false }))
  else
    match h.goodPacket port w with
    | none =>
      let h := h.bump (R.LNK_CRC_ERR port.ix)
      let h := h.lnkLogLim port 0x09 0 0 (h.get (R.LNK_CRC_ERR port.ix))
      ((h.dropArrival port w cut).sendNak port).onLink port (fun l => { l with pktBad := false })
    | some p =>
      let d := subMod 4096 p.lseq (h.get (R.LNK_RX_SEQ_EXPECTED port.ix))
      if p.cls = .P ∨ d = 0 then h.acceptPacket port p w.early cut
      else
        let h := h.dropArrival port w cut
        if 2048 ≤ d then h.ackNow port else h.sendNak port

/-! ### LINK_DOWN (R99) -/

/-- Whether a port's traffic can be wrapped (R99). -/
def Hub.canWrap (h : Hub) (p : Port) : Bool :=
  h.on (R.LNK_PKT_CTRL_WRAP_EN p.ix) && p != .S && h.usable p.other

/-- Whether a packet may be wrapped: not wrapped before (R99), and no broadcast (R98). -/
def Packet.wrappable (p : Packet) (wrapped : Bool) : Bool := !wrapped && hubOf p.dest != 127

/-- The packets of a down port's replay buffer, in LSEQ order: wrapped by a fresh admission, or dropped (R99 item 1); a
packet of the hub's own keeps the tunnel that sent it (R147), which `orig` gives by LSEQ. A copy's HOPS loses the link it
did not cross. The wrap is counted before the admission tests of the other ring port, here and for
later packets alike (assumption 26, DEDUCED; 133, DESIGN CHOICE). -/
def Hub.wrapReplay (h : Hub) (p : Port) (orig : KMap Nat) : List Packet → Hub
  | [] => h
  | q :: rest =>
    if h.canWrap p && q.wrappable q.wrap then
      let q' := { q with hops := q.hops - 1, wrap := true }
      (((h.bump (R.LNK_WRAPPED p.ix)).enqueue q' none (KMap.get? orig q.lseq) none
        [linkTarget q' p.other q.west true]).1).wrapReplay p orig rest
    else (h.countWrapDrop p q.dest).wrapReplay p orig rest

/-- One queued descriptor of a down port: moved to the other ring port, counted as a dropped P copy, or dropped. -/
def Hub.wrapDesc (h : Hub) (p : Port) (q : Nat) (d : Desc) : Hub :=
  match h.pkt? d.pid with
  | none => h
  | some k =>
    if d.cls = .P then (h.bump (R.LNK_P_COPY_DROP p.ix)).release d.pid
    else if h.canWrap p && k.wrappable d.wrap then
      (h.bump (R.LNK_WRAPPED p.ix)).push p.other.ix q { d with wrap := true }
    else (h.countWrapDrop p k.dest).release d.pid

/-- The queues of a down port, each in queue order (R99 item 2, R96). -/
def Hub.wrapQueues (h : Hub) (p : Port) : List Nat → Hub
  | [] => h
  | q :: rest =>
    let x := h.queue p.ix q
    let h := h.setQueue p.ix q { x with items := [] }
    (x.items.foldl (fun h d => h.wrapDesc p q d) h).wrapQueues p rest

/-- LINK_DOWN (R99): a port that is out of service is counted and logged, its replay buffer goes first, then its
queues. Given for a port still UP, it stops service first (assumption 29, DESIGN CHOICE). -/
def Hub.linkDown (h : Hub) (p : Port) : Hub :=
  let h := if h.up p then h.retrain p else h
  if (h.links.at p).lost then
    let held := (h.links.at p).replay
    let orig := (h.links.at p).orig
    let h := (h.onLink p (fun l => { l with lost := false, replay := [], rq := [], orig := [], noProg := 0 })).bump
      (R.LNK_DOWN_CNT p.ix)
    let h := h.logBy (14 + p.ix) 0x06 sevDG 0 (h.rd (A.LNK_STATUS p.ix)).toNat (h.get (R.LNK_DOWN_CNT p.ix)) (.linkDown p)
    let h := if h.canWrap p then h.latchAll evLink else h
    (h.wrapReplay p orig held).wrapQueues p (h.queueKeys p.ix)
  else h

/-! ### Route entries (R101, R102, R106) -/

/-- A hold begins, or one in progress waits for one more old port (R102). -/
def Hub.startHold (h : Hub) (a : Nat) (port : Port) : Hub :=
  let x := (KMap.get? h.rt.holds a).getD ⟨[], []⟩
  { h with rt := { h.rt with holds := KMap.put h.rt.holds a { x with old := x.old ++ [port] } } }

/-- A route entry is written whole (R101); entries 65 to 127 stay zero (R106). A changed PORT with HOLD
over an entry that named a port holds the packets newly routed by it (R102). -/
def Hub.routeWrite (h : Hub) (a : Nat) (v : Word) : Hub :=
  if a ≤ 64 then
    let old := h.rd (A.LNK_ROUTE 0 a)
    let oldPort := slice old.toNat 0 2
    let h' := h.wr (A.LNK_ROUTE 0 a) (W (v.toNat % 64))
    match Port.ofCode oldPort with
    | some port =>
      if bit old.toNat 2 && bit v.toNat 5 && slice v.toNat 0 2 != oldPort then h'.startHold a port else h'
    | none => h'
  else h

/-- Whether a packet for a destination hub remains queued at an output. -/
def Hub.queuedFor (h : Hub) (o a : Nat) : Bool :=
  (h.queueKeys o).any (fun q => (if q < 8320 then q / 128 else 127) == a)

/-- A held packet is routed and admitted by the entry now in force, as it would have been on its arrival
(assumption 27, DEDUCED). -/
def Hub.releaseHeld (h : Hub) (x : HeldPkt) : Hub :=
  match x.arr, x.orig with
  | some port, _ => h.forward x.pkt port false none
  | none, some n =>
    (h.launch n (h.ownPacket n x.pkt.dest x.pkt.cls x.pkt.kind x.pkt.aux x.pkt.stamp x.pkt.payload)).1
  | none, none => h

/-- ROUTE_HOLD_RELEASE (R102): once the old ports have drained and HOLD_TIME has passed, the held packets go; a rebuild,
which allocates nothing, is waited out (R164). -/
def Hub.holdRelease (h : Hub) (a : Nat) : Hub :=
  match KMap.get? h.rt.holds a with
  | some x =>
    if x.old.any (fun q => h.queuedFor q.ix a) || h.on R.FAB_STATUS_REBUILD then h
    else x.pkts.foldl Hub.releaseHeld { h with rt := { h.rt with holds := KMap.del h.rt.holds a } }
  | none => h

/-! ### The rows of the table -/

/-- LINK_DOWN (R99). -/
def execLinkDown (p : Port) (s : State) : Result := s.upd (fun h => h.linkDown p)

/-- PACKET_RECEIVED (R79). -/
def execPacketReceived (p : Port) (wire : Wire) (cut : Option Port) (s : State) : Result :=
  s.upd (fun h => h.packetReceived p wire cut)

/-- NAK_REPEAT (R84). -/
def execNakRepeat (p : Port) (s : State) : Result := s.upd (fun h => h.nakRepeat p)

/-- SEND_ACK (R82). -/
def execSendAck (p : Port) (s : State) : Result := s.upd (fun h => h.sendAck p)

/-- ACK_RECEIVED (R82). -/
def execAckReceived (p : Port) (lseq : BitVec 12) (s : State) : Result := s.upd (fun h => h.ackReceived p lseq.toNat)

/-- NAK_RECEIVED (R85). -/
def execNakReceived (p : Port) (lseq : BitVec 12) (s : State) : Result := s.upd (fun h => h.nakReceived p lseq.toNat)

/-- LINK_CONTROL_ERROR (R80). -/
def execLinkControlError (p : Port) (word : Word) (s : State) : Result := s.upd (fun h => h.lcError p word)

/-- REPLAY_TIMEOUT (R86). -/
def execReplayTimeout (p : Port) (s : State) : Result := s.upd (fun h => h.replayTimeout p)

/-- CREDIT_RECEIVED (R90). -/
def execCreditReceived (p : Port) (cls : Cls) (cells : BitVec 16) (s : State) : Result :=
  s.upd (fun h => h.creditReceived p cls cells.toNat)

/-- SEND_CREDIT (R89). -/
def execSendCredit (p : Port) (cls : Cls) (s : State) : Result := s.upd (fun h => h.sendCredit p cls)

/-- ROUTE_HOLD_RELEASE (R102). -/
def execRouteHoldRelease (entry : Fin 128) (s : State) : Result := s.upd (fun h => h.holdRelease entry)

end Sys2Proof.Machine
end

