-- ==== Sys2Proof/Machine/Fabric.lean ====
section
/-! DEFINITION. Ageing, dump, sparge, queue reset, rebuild, and the policers' registers (chapter 05). -/

namespace Sys2Proof.Machine

/-! ### The sweep (R159) -/

/-- Expired packets leave the head of a queue under cause 0x1 until one has not expired (R159). -/
def Hub.sweepQueue (h : Hub) (o q : Nat) : Nat → Hub
  | 0 => h
  | n + 1 =>
    match (h.queue o q).items with
    | [] => h
    | d :: _ =>
      match h.pkt? d.pid with
      | some p => if !d.tested && h.expired (d.seen p) then (h.discardHead o q 1).sweepQueue o q n else h
      | none => h

/-- SWEEP_PASS (R159): every queue with packets is visited, output by output (assumption 39, DEDUCED). -/
def Hub.sweepPass (h : Hub) : Hub :=
  if h.on R.FAB_CTRL_SWEEP_EN then
    (List.range 14).foldl (fun h o =>
      (h.queueKeys o).foldl (fun h q => h.sweepQueue o q (h.queue o q).items.length) h) h
  else h

/-! ### Dump and queue reset (R71, R160, R163) -/

/-- Whether a queue of an output exists (R148). -/
def queueValid (o q : Nat) : Bool := decide (o < 3 ∧ q < 8416) || decide (3 ≤ o ∧ o < 14 ∧ q < 96)

/-- POISON_PACKET (R71): the packet on a link's wire is ended with K30.7; its LSEQ goes to the next packet and the
replay buffer forgets it. In FREE its lanes are idle already and no ending leaves (R111). -/
def Hub.poisonWire (h : Hub) (p : Port) (w : OnWire) : Hub :=
  let h := if h.silent then h else (h.emit (.poison p w.pkt)).bump (R.LNK_POISON_TX p.ix)
  let h := h.onLink p (fun l => { l with wire := none })
  if w.pkt.cls = .P then h
  else
    (h.onLink p (fun l => { l with
      replay := l.replay.filter (fun r => r.lseq != w.pkt.lseq)
      rq := l.rq.filter (fun r => r.lseq != w.pkt.lseq)
      orig := KMap.del l.orig w.pkt.lseq })).put
      (R.LNK_REPLAY_SEQ_NEXT p.ix) w.pkt.lseq

/-- A packet of a queue that is being sent or delivered is cut off and counted under a cause (R160, R163). -/
def Hub.cutOff (h : Hub) (o q cause : Nat) : Hub :=
  if o < 3 then
    let p := Port.ofIx o
    match (h.links.at p).wire with
    | some w => if w.queue = q ∧ w.replayed = false then (h.poisonWire p w).count o q w.pkt.cls cause else h
    | none => h
  else
    match h.fab.wire with
    | some w =>
      if w.output = o ∧ w.queue = q then (h.onFab (fun f => { f with wire := none })).count o q w.pkt.cls cause else h
    | none => h

/-- A queue empties at once under a cause, the packet in flight included. -/
def Hub.emptyQueue (h : Hub) (o q cause : Nat) : Hub := (h.cutOff o q cause).purge o q cause (fun _ _ => true)

/-- QUEUE_DUMP (R160): a GO that names no queue dumps nothing (assumption 39, DEDUCED). -/
def Hub.queueDump (h : Hub) (o q : Nat) : Hub :=
  let h := h.put R.FAB_QDUMP_QUEUE q
  let h := if o < 14 then h.put R.FAB_QDUMP_OUTPUT o else h
  if queueValid o q then h.emptyQueue o q 6 else h

/-- Whether a queue carried class P at its reset (FAB_QRESET_LAST.CLASS_P). -/
def Hub.queueWasP (h : Hub) (o q : Nat) : Bool :=
  if o < 3 then (h.queue o q).wasP else h.bindMode q != 0 && h.bindCls q == .P

/-- QUEUE_RESET (R163): the queue's packets are discarded under cause 0x8, and the reset is recorded and logged. -/
def Hub.queueReset (h : Hub) (o q : Nat) : Hub :=
  if queueValid o q then
    let wasP := h.queueWasP o q
    let h := h.emptyQueue o q 8
    let h := ((h.put R.FAB_QRESET_LAST_QUEUE q).put R.FAB_QRESET_LAST_OUTPUT o).put R.FAB_QRESET_LAST_VALID 1
    let h := ((h.put R.FAB_QRESET_LAST_CLASS_P (b2n wasP)).bump R.FAB_QRESET_LAST_COUNT).wr A.FAB_QRESET_STAMP (W h.stamp)
    h.log 10 0x18 sevCT (o + q * 16) 0 (h.get R.FAB_QRESET_LAST_COUNT)
  else h

/-- FREE_LIST_REBUILD (R164). -/
def Hub.rebuildStart (h : Hub) : Hub :=
  if h.on R.FAB_STATUS_REBUILD then h
  else (h.put R.FAB_STATUS_REBUILD 1).logBy 10 0x19 sevCT 0 0 0 .rebuild

/-- FREE_LIST_REBUILD_DONE (R164). -/
def Hub.rebuildDone (h : Hub) : Hub :=
  if h.on R.FAB_STATUS_REBUILD then (h.put R.FAB_STATUS_REBUILD 0).recovered .rebuild else h

/-! ### Sparge (R161, R162) -/

/-- Every output, none of which has passed its boundary. -/
def allOutputs : List Nat := List.range 14

/-- A sparge starts (R161). -/
def Hub.startSparge (h : Hub) (s : Sparge) : Hub :=
  (h.onFab (fun f => { f with sparge := some s })).put R.FAB_SPARGE_BUSY 1

/-- A sparge implied by a binding change starts, or waits for the one in progress (R30, R161). -/
def Hub.impliedSparge (h : Hub) (tid : Nat) (bind : Option BindChange) : Hub :=
  let s : Sparge := ⟨tid, allOutputs, bind⟩
  if h.fab.sparge.isSome then h.onFab (fun f => { f with spargeWait := f.spargeWait ++ [s] }) else h.startSparge s

/-- FAB_SPARGE_GO (R161, R162): refused while BUSY. -/
def Hub.spargeGo (h : Hub) (tid : Nat) : Hub :=
  let h := h.put R.FAB_SPARGE_TID tid
  if h.on R.FAB_SPARGE_BUSY then h.put R.FAB_SPARGE_REFUSED 1
  else h.startSparge ⟨tid % 16384, allOutputs, none⟩

/-- Whether a sparge of `tid` discards a packet (R161): for the tunnel, or sent by it when it is the hub's own. -/
def Hub.spargeHits (h : Hub) (tid : Nat) (p : Packet) (orig : Option Nat) : Bool :=
  p.dest == tid || (h.hasAddr && hubOf tid == h.addr && orig == some (idxOf tid))

/-- Whether the sparge of a binding change discards a packet of queue `q` at output `o`: it is queued in the tunnel's old
queue, broadcasts included (R30), or the tunnel sent it. What a new queue at another output holds came under the new
binding. -/
def BindChange.hits (c : BindChange) (o q : Nat) (orig : Option Nat) : Bool :=
  (c.old == some o && q == c.tunnel) || orig == some c.tunnel

/-- Whether a sparge discards a packet of queue `q` at output `o` (R30, R161). -/
def Hub.spargeTakes (h : Hub) (s : Sparge) (o q : Nat) (p : Packet) (orig : Option Nat) : Bool :=
  match s.bind with
  | some c => c.hits o q orig || (decide (o < 3) && h.spargeHits s.tid p orig)
  | none => h.spargeHits s.tid p orig

/-- A tunnel's window entries and sequence counters are forgotten at a re-binding (R92, R94). -/
def Hub.forgetTunnel (h : Hub) (n : Nat) : Hub :=
  { h with rt := { h.rt with
      win := h.rt.win.filter (fun e => e.1 / 128 != n)
      tseq := SMap.set (fun _ => []) h.rt.tseq n [] } }

/-- A binding begins to handle its tunnel's packets (R30): windows and sequences start anew, and one that gives the
tunnel class P fills its policer (R155). -/
def Hub.bindStart (h : Hub) (n b : Nat) : Hub :=
  let h := h.forgetTunnel n
  if slice b 0 2 ≠ 0 ∧ Cls.ofIx (slice b 2 2) = .P then h.setPol n { h.pol n with tokens := h.polCap n, last := h.now }
  else h

/-- The output at whose boundary a binding change takes effect: that of the old queue, or, from UNBOUND, which has none,
that of the new one (R30) (assumption 132, DESIGN CHOICE). -/
def BindChange.boundary (c : BindChange) : Option Nat := c.old.orElse (fun _ => bindOut c.binding)

/-- The new binding holds from its boundary on; arrivals under way are sparged as they complete (R30)
(assumption 132, DESIGN CHOICE). -/
def Hub.bindSwitch (h : Hub) (s : Sparge) (c : BindChange) (o : Nat) : Hub :=
  (h.onFab (fun f => { f with
    sparge := some { s with bind := some { c with switched := true } }
    late := KMap.put f.late c.tunnel o })).bindStart c.tunnel c.binding

/-- SPARGE_BOUNDARY (R30, R161): the output's queued packets of the tunnel are discarded under cause 0x7
(assumption 44, DESIGN CHOICE; 132, DESIGN CHOICE). -/
def Hub.spargeBoundary (h : Hub) (o : Nat) : Hub :=
  match h.fab.sparge with
  | some s =>
    if s.pending.contains o then
      let h := (h.queueKeys o).foldl (fun h q => h.purge o q 7 (h.spargeTakes s o q)) h
      let s := { s with pending := s.pending.filter (· != o) }
      match s.bind with
      | some c => if c.boundary = some o then h.bindSwitch s c o else h.onFab (fun f => { f with sparge := some s })
      | none => h.onFab (fun f => { f with sparge := some s })
    else h
  | none => h

/-! ### Counters and policers (R154, R155, R165, R169) -/

/-- FAB_COUNTER_CLEAR (R167). -/
def Hub.fabClear (h : Hub) : Hub := h.onFab (fun f => { f with cnt := [] })

/-- POL_COUNTER_CLEAR (R169). -/
def Hub.polClear (h : Hub) : Hub :=
  (List.range 96).foldl (fun h n => h.setPol n { h.pol n with pass := 0, drop := 0 }) h

/-- POLICER_CONFIG_WRITE (R155): register 0 POL_CFG, 1 POL_RATE, 2 POL_BURST of a tunnel. -/
def Hub.polWrite (h : Hub) (n reg v : Nat) : Hub :=
  if reg = 0 then
    let rises := !h.on (R.POL_CFG_EN n) && bit v 0
    let h := h.put (R.POL_CFG_EN n) v
    if rises then h.setPol n { h.pol n with tokens := h.polCap n, last := h.now } else h
  else
    let x := h.polRefill n
    let h := if reg = 1 then h.put (R.POL_RATE_RATE n) v else h.put (R.POL_BURST_BURST n) v
    h.setPol n { x with tokens := min (h.polCap n) x.tokens, last := h.now }

/-! ### The rows of the table -/

/-- SWEEP_PASS (R159). -/
def execSweepPass (s : State) : Result := s.upd (fun h => h.sweepPass)

/-- QUEUE_DUMP (R160). -/
def execQueueDump (output : Fin 16) (queue : BitVec 14) (s : State) : Result :=
  s.upd (fun h => h.queueDump output queue.toNat)

/-- FAB_SPARGE_GO (R161). -/
def execFabSpargeGo (tid : BitVec 14) (s : State) : Result := s.upd (fun h => h.spargeGo tid.toNat)

/-- QUEUE_RESET (R163). -/
def execQueueReset (output : Fin 14) (queue : BitVec 14) (s : State) : Result :=
  s.upd (fun h => h.queueReset output queue.toNat)

/-- FREE_LIST_REBUILD (R164). -/
def execFreeListRebuild (s : State) : Result := s.upd (fun h => h.rebuildStart)

/-- FAB_COUNTER_CLEAR (R167). -/
def execFabCounterClear (s : State) : Result := s.upd (fun h => h.fabClear)

/-- POL_COUNTER_CLEAR (R169). -/
def execPolCounterClear (s : State) : Result := s.upd (fun h => h.polClear)

/-- POLICER_CONFIG_WRITE (R155). -/
def execPolicerConfigWrite (tunnel : Fin 96) (reg : Fin 3) (value : Word) (s : State) : Result :=
  s.upd (fun h => h.polWrite tunnel reg value.toNat)

end Sys2Proof.Machine
end

