-- ==== Sys2Proof/Machine/Scheduling.lean ====
section
/-! DEFINITION. The four schedulers (chapter 06): buckets, class order, fair queuing, grant swap, queue monitors. -/

namespace Sys2Proof.Machine

/-! ### Fair queuing (R177) -/

/-- The entry of the active bank that names a queue, if one does. -/
def Hub.entryOf (h : Hub) (s q : Nat) : Option Nat :=
  let b := h.get R.SCH_STATUS_ACTIVE_BANK
  (List.range (if s = 3 then 96 else 128)).find? (fun e => match h.grant? s b e with
    | some (k, _) => k == q
    | none => false)

/-- The weight of a queue (R177). -/
def Hub.weight (h : Hub) (s q : Nat) (c : Cls) : Nat :=
  match (h.granted s).find? (fun e => e.1 == q) with
  | some (_, u) =>
    if c = .D then u
    else
      match h.entryOf s q with
      | some e => 2 ^ h.get (R.SCH_GRANT_WSHIFT s (h.get R.SCH_STATUS_ACTIVE_BANK) e)
      | none => 1
  | none =>
    match h.entryOf s q with
    | some e => 2 ^ h.get (R.SCH_GRANT_WSHIFT s (h.get R.SCH_STATUS_ACTIVE_BANK) e)
    | none => 1

/-- Whether tag `a` is smaller than `b` (R177). -/
def tagBefore (a b : Nat) : Bool :=
  let d := subMod (2 ^ 32) b a
  decide (1 ≤ d) && decide (d ≤ 2 ^ 31 - 1)

/-- A queue that could be served: output, number, head packet, start tag. -/
structure Cand where
  o : Nat
  q : Nat
  pkt : Packet
  s : Nat
deriving DecidableEq, Repr

/-- The candidate with the smallest start tag, the lower queue number on a tie (R177). -/
def bestCand : List Cand → Option Cand
  | [] => none
  | c :: cs =>
    match bestCand cs with
    | none => some c
    | some b => if tagBefore b.s c.s || (b.s == c.s && decide (b.q < c.q)) then some b else some c

/-! ### Selection (R174, R175) -/

/-- The outputs a scheduler serves: its link, or the local outputs 3 to 13 (R148) (assumption 40, DEDUCED). -/
def schedOutputs (s : Nat) : List Nat := if s < 3 then [s] else [3, 4, 5, 6, 7, 8, 9, 10, 11, 12, 13]

/-- Whether a link output may start a new packet (R81, R85, R90): credit, replay room, no replay waiting; P also needs
its parity lane (R66). -/
def Hub.linkMay (h : Hub) (p : Port) (k : Packet) : Bool :=
  let l := h.links.at p
  h.up p && !h.silent && !h.on (R.LNK_STATUS_TX_LULL p.ix) && decide (k.cells ≤ l.avail k.cls)
    && (if k.cls = .P then !l.tx.parShed else l.rq.isEmpty && l.replayRoom k)

/-- The head of a queue as a candidate, if the queue holds a packet. -/
def Hub.headCand (h : Hub) (o q : Nat) : Option Cand :=
  let x := h.queue o q
  match x.items with
  | [] => none
  | d :: _ => (h.pkt? d.pid).map (fun k => ⟨o, q, d.seen k, x.s⟩)

/-- Whether LOCAL has served the head of a queue at output 13: it stands there for its context to take (R174, R255). -/
def Hub.served (h : Hub) (o q : Nat) : Bool :=
  o == 13 && (match (h.queue o q).items with
    | d :: _ => d.tested
    | [] => false)

/-- The eligible queues of a scheduler (R175): `closed` names the local tunnels whose endpoint cannot accept. -/
def Hub.candidates (h : Hub) (s : Nat) (closed : List Nat) : List Cand :=
  (schedOutputs s).flatMap (fun o =>
    (h.queueKeys o).filterMap (fun q =>
      (h.headCand o q).filter (fun c =>
        if s < 3 then h.linkMay (Port.ofIx s) c.pkt else !closed.contains q && !h.served o q)))

/-- The first row of the selection order that has an eligible queue (R174): the step and the queue. -/
def Hub.choose (h : Hub) (s : Nat) (cs : List Cand) : Option (Nat × Cand) :=
  let x := h.sched s
  let granted := h.granted s
  let of := fun c => cs.filter (fun k => k.pkt.cls == c)
  let step := fun (n : Nat) (l : List Cand) => (bestCand l).map (fun k => (n, k))
  let dOwn := (of .D).filter (fun k => granted.any (fun e => e.1 == k.q) && decide (0 ≤ x.dBucket k.q))
  (if 0 ≤ x.pB then step 1 (of .P) else none).orElse (fun _ =>
    (if 0 ≤ x.mB then step 2 (of .M) else none).orElse (fun _ =>
      (step 3 dOwn).orElse (fun _ =>
        (step 4 (of .M)).orElse (fun _ =>
          (if h.on R.SCH_CTRL_D_EXCESS then step 5 (of .D) else none).orElse (fun _ =>
            step 6 (of .B))))))

/-- The served step's bucket pays the packet's cost (R172). -/
def Hub.charge (h : Hub) (s step q : Nat) (k : Packet) : Hub :=
  let x := h.sched s
  let words := k.length + 7
  if step = 1 then h.setSched s { x with pB := x.pB - words * 4096 }
  else if step = 2 then h.setSched s { x with mB := x.mB - words * 4096 }
  else if step = 3 then h.setSched s { x with dB := KMap.put x.dB q (x.dBucket q - words * 524288) }
  else h

/-- The tags move as a packet is selected (R177). -/
def Hub.moveTags (h : Hub) (s o q : Nat) (k : Packet) : Hub :=
  let x := h.queue o q
  let w := h.weight s q k.cls
  let h := h.setQueue o q { x with f := (x.s + k.cells * (2 ^ 20 / max 1 w)) % 2 ^ 32 }
  let y := h.sched s
  h.setSched s { y with v := y.v.set k.cls x.s }

/-- The packet boundary ends what was being sent or delivered: it is counted under cause 0xB (R165), and a local
packet reaches its endpoint (assumption 38, DESIGN CHOICE). -/
def Hub.endWire (h : Hub) (s : Nat) : Hub :=
  if s < 3 then
    let p := Port.ofIx s
    match (h.links.at p).wire with
    | some w =>
      let h := h.onLink p (fun l => { l with wire := none })
      if w.replayed then h else h.bumpCnt s w.pkt.cls 11
    | none => h
  else
    match h.fab.wire with
    | some w =>
      let h := h.onFab (fun f => { f with
        wire := none
        inbox := KMap.put f.inbox w.output ((KMap.get? f.inbox w.output).getD [] ++ [⟨w.queue, w.pkt⟩]) })
      h.bumpCnt w.output w.pkt.cls 11
    | none => h

/-- The local tunnel that sent the packet stored at a place, if the hub's own did (R147). -/
def Hub.origOf (h : Hub) (pid : Nat) : Option Nat :=
  match KMap.get? h.fab.pkts pid with
  | some s => s.orig
  | none => none

/-- The head packet of a queue leaves on a link (R75, R81): as its cells hold it, with HOPS, LSEQ and WRAP as sent, a copy held
for replay with its sending tunnel (R147); with a double-bit error it is poisoned on the wire (R145) (assumption 38,
DESIGN CHOICE; 41, DEDUCED; 89, DEDUCED) (assumption 38, DESIGN CHOICE; 41, DEDUCED). -/
def Hub.sendLink (h : Hub) (p : Port) (q : Nat) (k : Packet) (d : Desc) (bad : Bool) : Hub :=
  let next := h.get (R.LNK_REPLAY_SEQ_NEXT p.ix)
  let orig := h.origOf d.pid
  let k' := { (h.pkt? d.pid).getD k with
    hops := (k.hops + 1) % 256, lseq := if k.cls = .P then 0 else next, west := d.west, wrap := d.wrap }
  let h := ((h.dropHead p.ix q).release d.pid).useCredit p k
  if bad then (h.emit (.poison p k')).bump (R.LNK_POISON_TX p.ix)
  else
    let h := (h.emit (.packet p k')).onLink p (fun l => { l with wire := some ⟨p.ix, q, k', false⟩ })
    let h := if d.wrap then h.recovered (.linkDown p.other) else h
    if k.cls = .P then h
    else (h.put (R.LNK_REPLAY_SEQ_NEXT p.ix) ((next + 1) % 4096)).onLink p (fun l => { l with
      replay := l.replay ++ [k']
      orig := match orig with
        | some n => KMap.put l.orig next n
        | none => KMap.del l.orig next })

/-- The cells of the packet stored at a place. -/
def Hub.cellsAt (h : Hub) (pid : Nat) : List Nat :=
  match KMap.get? h.fab.pkts pid with
  | some s => s.cells
  | none => []

/-- Whether the packet stored at a place has an uncorrectable word in its cells (R145). -/
def Hub.spoiltAt (h : Hub) (pid : Nat) : Bool :=
  match KMap.get? h.fab.pkts pid with
  | some s => h.spoilt s
  | none => false

/-- The head packet of a queue goes to its endpoint, or is discarded for a double-bit error (R145)
(assumption 38, DESIGN CHOICE; 41, DEDUCED). -/
def Hub.sendLocal (h : Hub) (o q : Nat) (k : Packet) (d : Desc) (bad : Bool) : Hub :=
  if bad then h.discardHead o q 10
  else
    let k := (h.pkt? d.pid).getD k
    ((h.dropHead o q).release d.pid).onFab (fun f => { f with wire := some ⟨o, q, k, false⟩ })

/-- The head packet of a queue at output 13 is served: it stands there for its context's PGET (R255), or is discarded for a
double-bit error (R145). -/
def Hub.serveHead (h : Hub) (q : Nat) (bad : Bool) : Hub :=
  let x := h.queue 13 q
  match x.items with
  | [] => h
  | d :: ds => if bad then h.discardHead 13 q 10 else h.setQueue 13 q { x with items := { d with tested := true } :: ds }

/-- A scheduler selects, testing what it selects for expiry (R158) and selecting again after a discard; a packet that
scrub or an upset has spoilt is discarded at the head (R145), and the read of one sent corrects single-bit errors. The tags
move with every selection (R177) (assumption 41, DEDUCED; 89, DEDUCED). -/
def Hub.selectFrom (h : Hub) (s : Nat) (closed : List Nat) (bad : Bool) : Nat → Hub
  | 0 => h
  | n + 1 =>
    match h.choose s (h.candidates s closed) with
    | none => h
    | some (step, c) =>
      match (h.queue c.o c.q).items with
      | [] => h
      | d :: _ =>
        let h := h.moveTags s c.o c.q c.pkt
        if !d.tested && h.expired c.pkt then (h.discardHead c.o c.q 0).selectFrom s closed bad n
        else if h.spoiltAt d.pid then (h.discardHead c.o c.q 10).selectFrom s closed bad n
        else
          let h := (h.charge s step c.q c.pkt).readCells (h.cellsAt d.pid)
          if s < 3 then h.sendLink (Port.ofIx s) c.q c.pkt d bad
          else if c.o = 13 then h.serveHead c.q bad
          else h.sendLocal c.o c.q c.pkt d bad

/-- A held packet is replayed at the boundary (R85, R87), if its class has credit and the lanes are neither in Lull (R63)
nor held idle (R111). -/
def Hub.replayOne (h : Hub) (p : Port) : Hub :=
  match (h.links.at p).rq with
  | k :: rest =>
    if k.cells ≤ (h.links.at p).avail k.cls ∧ h.on (R.LNK_STATUS_TX_LULL p.ix) = false ∧ h.silent = false then
      let h := ((h.emit (.packet p k)).useCredit p k).bump (R.LNK_REPLAYED p.ix)
      let h := h.onLink p (fun l => { l with rq := rest, wire := some ⟨p.ix, linkQueue k.dest, k, true⟩ })
      if k.kind = 5 then
        h.onTimePort p (fun t => { t with probes := t.probes.map (fun e => if e.1 = k.aux then (e.1, { e.2 with again := true }) else e) })
      else h
    else h
  | [] => h

/-- Whether the next choice of a scheduler is a P packet at step 1. -/
def Hub.pFirst (h : Hub) (s : Nat) (closed : List Nat) : Bool :=
  match h.choose s (h.candidates s closed) with
  | some (step, _) => step == 1
  | none => false

/-- The step of LOCAL's order that would serve a queue at output 13 by itself (R174); none where no step does now. -/
def Hub.ownStep (h : Hub) (q : Nat) : Nat :=
  match h.choose 3 (h.headCand 13 q).toList with
  | some (step, _) => step
  | none => 0

/-- A context takes the head packet of its queue at output 13, whatever LOCAL's order would serve (R255): one that LOCAL has
served is there; of another expired and spoilt heads are discarded (R145, R158), the bucket of the step that would serve it
is charged, if one would, and its tags move (R172, R177). Answers whether a packet stands at the head for the context: none
does where the queue holds nothing (assumption 40, DEDUCED). -/
def Hub.serveContext (h : Hub) (q : Nat) : Nat → Hub × Bool
  | 0 => (h, false)
  | n + 1 =>
    match h.headCand 13 q, (h.queue 13 q).items with
    | some c, d :: _ =>
      if d.tested && !h.spoiltAt d.pid then (h.readCells (h.cellsAt d.pid), true)
      else
        let step := h.ownStep q
        let h := h.moveTags 3 13 q c.pkt
        if !d.tested && h.expired c.pkt then (h.discardHead 13 q 0).serveContext q n
        else if h.spoiltAt d.pid then (h.discardHead 13 q 10).serveContext q n
        else ((h.charge 3 step q c.pkt).readCells (h.cellsAt d.pid), true)
    | _, _ => (h, false)

/-- SCHEDULER_SELECT (R174): a packet boundary of scheduler `s`. `closed` names the local tunnels whose endpoint cannot
accept a packet, `bad` a double-bit error in the packet selected (assumption 38, DESIGN CHOICE). -/
def Hub.schedulerSelect (h : Hub) (s : Nat) (closed : List Nat) (bad : Bool) : Hub :=
  let h := (h.endWire s).refill s
  let fuel := (h.fab.queues.map (fun e => e.2.items.length)).sum
  if s < 3 then
    let p := Port.ofIx s
    if !h.inService p then h
    else if !(h.links.at p).rq.isEmpty && !h.pFirst s closed then h.replayOne p
    else h.selectFrom s closed bad fuel
  else h.selectFrom 3 closed bad fuel

/-! ### Epochs, arming and the swap (R176, R180–R185) -/

/-- The current epoch number (R180). -/
def Hub.epoch (h : Hub) : Nat := h.now / 62500 % 2 ^ 32

/-- EPOCH_START (R176): an epoch in which a Narrow direction is oversubscribed is counted. -/
def Hub.epochStart (h : Hub) : Hub :=
  let isOver := [0, 1, 2].any (fun s => h.on (R.LNK_STATUS_TX_NARROW s)
    && decide (4096 < 2 * h.dres s + h.get R.SCH_PCAP_ACTIVE + 42))
  if isOver then h.bump R.SCH_OVERSUB else h

/-- Two valid staged entries of a bank name one queue (R181 check 5). -/
def hasDup : List (Nat × Nat) → Bool
  | [] => false
  | e :: es => es.any (fun x => x.1 == e.1) || hasDup es

/-- The reservation of a swap (R181 check 6): over all queues of either bank, the larger UNITS. -/
def Hub.swapLoad (h : Hub) (s : Nat) : Nat :=
  let a := h.get R.SCH_STATUS_ACTIVE_BANK
  let act := h.bankEntries s a
  let stg := h.bankEntries s (1 - a)
  let unitsIn := fun (l : List (Nat × Nat)) q => ((l.find? (fun e => e.1 == q)).map Prod.snd).getD 0
  ((act.map (fun e => dresOf (max e.2 (unitsIn stg e.1))))
    ++ ((stg.filter (fun e => !act.any (fun x => x.1 == e.1))).map (fun e => dresOf e.2))).sum

/-- The RESULT an arm would record and the scheduler it names (R181). -/
def Hub.armResult (h : Hub) : Nat × Nat :=
  let d := subMod (2 ^ 32) (h.get R.SCH_ARM_EPOCH) h.epoch
  let stg := 1 - h.get R.SCH_STATUS_ACTIVE_BANK
  if h.on R.SCH_STATUS_ARMED then (6, 0)
  else if !h.on R.TIME_STATUS_VALID || h.get R.TIME_STATUS_QUALITY == 2 then (7, 0)
  else if d = 0 ∨ 2 ^ 31 ≤ d then (2, 0)
  else if d = 1 ∧ 62500 - h.now % 62500 < 1000 then (3, 0)
  else if [0, 1, 2].any (fun s => hasDup (h.bankEntries s stg)) then (5, 0)
  else
    match [0, 1, 2, 3].find? (fun s => decide (4096 < h.swapLoad s + h.get R.SCH_PCAP_STAGED + 41)) with
    | some s => (4, s)
    | none => (1, 0)

/-- SCH_ARM (R181) (assumption 39, DEDUCED). -/
def Hub.schArm (h : Hub) : Hub :=
  let (r, s) := h.armResult
  let h := (h.put R.SCH_STATUS_RESULT r).put R.SCH_STATUS_OVER_SCHED s
  if r = 1 then h.put R.SCH_STATUS_ARMED 1 else h

/-- SCH_DISARM (R182). -/
def Hub.schDisarm (h : Hub) : Hub :=
  if h.on R.SCH_STATUS_ARMED then
    ((h.put R.SCH_STATUS_ARMED 0).put R.SCH_STATUS_RESULT 9).put R.SCH_STATUS_OVER_SCHED 0
  else h

/-- The D buckets of a scheduler follow its granted queues: kept where there were, zero where there were none (R183). -/
def Hub.syncBuckets (h : Hub) (s : Nat) : Hub :=
  let x := h.sched s
  h.setSched s { x with
    dB := (h.granted s).foldl (fun m e => KMap.put m e.1 (min dCap (x.dBucket e.1))) [] }


/-- All schedulers exchange banks and the staged PCAP becomes active (R183, R184). -/
def Hub.swapNow (h : Hub) : Hub :=
  let h := h.eachSched Hub.refill
  let a := h.get R.SCH_STATUS_ACTIVE_BANK
  let old : List (Nat × Nat) := [0, 1, 2, 3].flatMap (fun s =>
    ((h.bankEntries s a).filter (fun e => e.2 != 0)).map (fun e => (qkey s e.1, e.2)))
  let settle := h.get R.SCH_SETTLE_TICKS != 0
  let h := (h.put R.SCH_STATUS_ACTIVE_BANK (1 - a)).put R.SCH_PCAP_ACTIVE (h.get R.SCH_PCAP_STAGED)
  let h := ((h.put R.SCH_STATUS_ARMED 0).put R.SCH_STATUS_RESULT 8).put R.SCH_STATUS_OVER_SCHED 0
  let h := h.latchAll evEpoch
  let h := (h.bump R.SCH_STATUS_SWAP_CNT).put R.SCH_STATUS_SETTLING (b2n settle)
  let h := { h with sch := { h.sch with settle := if settle then old.foldl (fun (m : KMap Nat) (e : Nat × Nat) => KMap.put m e.1 e.2) [] else [] } }
  ((h.eachSched Hub.syncBuckets).shedRecalc .E).shedRecalc .W

/-- A missed swap (R185): both banks and PCAP stay, and its EVENT waits. -/
def Hub.swapMissed (h : Hub) : Hub :=
  let t := h.get R.SCH_ARM_EPOCH
  let h := ((h.put R.SCH_STATUS_ARMED 0).put R.SCH_STATUS_MISSED 1).put R.SCH_STATUS_RESULT 10
  let h := (((h.put R.SCH_STATUS_OVER_SCHED 0).wr A.SCH_MISSED_EPOCH (W t)).latchAll evEpoch).expireHandling
  h.entry (h.mkRec 12 0x01 sevCT t 0 0) none true

/-- GRANT_SWAP (R183, R185): an armed hub at or past its target epoch swaps, or misses the swap. -/
def Hub.grantSwap (h : Hub) : Hub :=
  if h.on R.SCH_STATUS_ARMED && decide (subMod (2 ^ 32) h.epoch (h.get R.SCH_ARM_EPOCH) < 2 ^ 31) then
    if h.on R.TIME_STATUS_VALID && decide (h.get R.TIME_STATUS_QUALITY < 2) then h.swapNow else h.swapMissed
  else h

/-- SETTLE_END (R184). -/
def Hub.settleEnd (h : Hub) : Hub :=
  if h.on R.SCH_STATUS_SETTLING then
    let h := h.eachSched Hub.refill
    let h := { h with sch := { h.sch with settle := [] } }
    (h.put R.SCH_STATUS_SETTLING 0).eachSched Hub.syncBuckets
  else h

/-! ### Monitors (R188, R189) -/

/-- A monitor after a sample. -/
def Mon.sample (m : Mon) (v : Nat) : Mon :=
  { m with last := v, max := if m.again then v else Nat.max m.max v, again := false, sum := m.sum + v }

/-- The head-of-line delay of a queue in 32 ns units (R188). -/
def Hub.holDelay (h : Hub) (o q : Nat) : Nat :=
  let x := h.queue o q
  if x.items.isEmpty then 0 else min (2 ^ 27 - 1) ((h.root - x.headAt) / 128)

/-- QMON_SAMPLE (R188): every queue is sampled; one that is empty and whose monitors hold zeros stays as it is. -/
def Hub.qmonSample (h : Hub) : Hub :=
  let keys := (h.fab.queues.map Prod.fst) ++ (h.sch.depth.map Prod.fst) ++ (h.sch.hol.map Prod.fst)
  let h := { h with sch := { h.sch with samples := h.sch.samples + 1 } }
  keys.eraseDups.foldl (fun h k =>
    let o := k / 16384
    let q := k % 16384
    let d := (SMap.get (fun _ => Mon.zero) h.sch.depth k).sample (h.queueCells o q)
    let l := (SMap.get (fun _ => Mon.zero) h.sch.hol k).sample (h.holDelay o q)
    { h with sch := { h.sch with
        depth := SMap.set (fun _ => Mon.zero) h.sch.depth k d
        hol := SMap.set (fun _ => Mon.zero) h.sch.hol k l } }) h

/-- The key of the queue SCH_QMON_INDEX selects, if it exists. -/
def Hub.qmonKey (h : Hub) : Option Nat :=
  let o := h.get R.SCH_QMON_INDEX_OUTPUT
  let q := h.get R.SCH_QMON_INDEX_QUEUE
  if queueValid o q then some (qkey o q) else none

/-- The selected monitor of depth, or of head-of-line delay. -/
def Hub.qmon (h : Hub) (depth : Bool) : Mon :=
  match h.qmonKey with
  | some k => SMap.get (fun _ => Mon.zero) (if depth then h.sch.depth else h.sch.hol) k
  | none => Mon.zero

/-- MEAN of a monitor (R188): LAST when no sample was taken since the previous read. -/
def Hub.monMean (h : Hub) (m : Mon) : Nat :=
  let n := h.sch.samples - m.base
  if n = 0 then m.last else m.sum / n

/-- QMON_MAX_MEAN_READ (R188): the read monitor restarts from the next sample. -/
def Hub.qmonRead (h : Hub) (depth mean : Bool) : Hub :=
  match h.qmonKey with
  | none => h
  | some k =>
    let m := h.qmon depth
    let m' := if mean then { m with sum := 0, base := h.sch.samples } else { m with again := true }
    if depth then { h with sch := { h.sch with depth := SMap.set (fun _ => Mon.zero) h.sch.depth k m' } }
    else { h with sch := { h.sch with hol := SMap.set (fun _ => Mon.zero) h.sch.hol k m' } }

/-- SCH_COUNTER_CLEAR (R189). -/
def Hub.schClear (h : Hub) : Hub := (h.put R.SCH_OVERSUB 0).put R.SCH_STATUS_SWAP_CNT 0

/-- A grant entry write (R12, R178, R179): the active bank is not written, nor the staged bank while armed. -/
def Hub.grantWrite (h : Hub) (s b e : Nat) (v : Word) : Hub :=
  if b = h.get R.SCH_STATUS_ACTIVE_BANK ∨ h.on R.SCH_STATUS_ARMED then h
  else h.plain (A.SCH_GRANT s b e) v 15

/-! ### The rows of the table -/

/-- EPOCH_START (R180). -/
def execEpochStart (s : State) : Result := s.upd (fun h => h.epochStart)

/-- SCH_ARM (R181). -/
def execSchArm (s : State) : Result := s.upd (fun h => h.schArm)

/-- SCH_DISARM (R182). -/
def execSchDisarm (s : State) : Result := s.upd (fun h => h.schDisarm)

/-- GRANT_SWAP (R183). -/
def execGrantSwap (s : State) : Result := s.upd (fun h => h.grantSwap)

/-- SETTLE_END (R184). -/
def execSettleEnd (s : State) : Result := s.upd (fun h => h.settleEnd)

/-- QMON_SAMPLE (R188). -/
def execQmonSample (s : State) : Result := s.upd (fun h => h.qmonSample)

/-- QMON_MAX_MEAN_READ (R188). -/
def execQmonMaxMeanRead (depth : Bool) (mean : Bool) (s : State) : Result := s.upd (fun h => h.qmonRead depth mean)

/-- SCH_COUNTER_CLEAR (R189). -/
def execSchCounterClear (s : State) : Result := s.upd (fun h => h.schClear)

end Sys2Proof.Machine
end

