-- ==== Sys2Proof/Machine/Clock.lean ====
section
/-! DEFINITION. Clocks and what hangs on station time (chapter 04): the clock modes and the monitor, time quality, hop
delay, event inputs and triggered outputs. Time markers are in Marker.lean. -/

namespace Sys2Proof.Machine

/-! ### Clock modes and candidates (R112–R115, R118) -/


/-- The hub with its clock mode and root reference set: SEL 0 slow clock, 1 W, 2 E. -/
def Hub.setClk (h : Hub) (mode sel : Nat) : Hub := (h.put R.CLK_STATUS_MODE mode).put R.CLK_STATUS_SEL sel

/-- SEL code of a candidate. -/
def selCode : Port → Nat
  | .W => 1
  | .E => 2
  | .S => 0

/-- The port selected as root reference. The candidate followed in ACQUIRE counts as selected, and SEL keeps its code in
STEP_HOLD (assumption 118, DEDUCED). -/
def Hub.selPort (h : Hub) : Option Port :=
  match h.get R.CLK_STATUS_SEL with
  | 1 => some .W
  | 2 => some .E
  | _ => none

/-- Whether the hub counts as a spur hub (R112). -/
def Hub.isSpur (h : Hub) : Bool := h.on R.DEV_STATUS_SPUR || h.get (R.LNK_STATUS_PARTNER 1) == 3

/-- Whether a port is a candidate (R112). -/
def Hub.candidate (h : Hub) : Port → Bool
  | .W => true
  | .E => !h.isSpur
  | .S => false

/-- A candidate's last monitor window did not pass. -/
def Hub.winFailed (h : Hub) : Port → Bool
  | .W => h.tm.failW
  | .E => h.tm.failE
  | .S => true

/-- Whether a candidate is qualified (R113). -/
def Hub.qualified (h : Hub) (p : Port) : Bool :=
  h.candidate p && h.up p && h.calibrated p && !h.winFailed p
    && (match (h.tm.ports.at p).mark with | some m => decide (h.root ≤ m.at_ + 2 * us) | none => false)

/-- The preferred candidate (R118, CLK_CTRL.PREF). -/
def Hub.preferred (h : Hub) : Port :=
  if h.isSpur then .W
  else if h.get R.CLK_CTRL_PREF = 1 then .W
  else if h.get R.CLK_CTRL_PREF = 2 then .E
  else if h.entryPort 0 = some .E then .E
  else .W

/-- What clocks a transmitter (R110): the hub's root, or a port's recovered clock. -/
inductive TxClock where
  | root
  | recovered (p : Port)
deriving DecidableEq, Repr

/-- The clock of a port's transmitter (R110): on a ring member each ring port is passed the other's recovered clock while
that port is qualified; S ports, ports facing an open end and all else run from the root. -/
def Hub.txClock (h : Hub) (p : Port) : TxClock :=
  let chained := fun (q : Port) =>
    if !h.isSpur && h.qualified q && !h.on (R.LNK_STATUS_OPEN_END p.ix) then TxClock.recovered q else .root
  match p with
  | .E => chained .W
  | .W => chained .E
  | .S => .root

/-! ### Triggered outputs' level (R137, R139) -/

/-- A triggered output. -/
def Hub.evo (h : Hub) (n : Nat) : Evo := SMap.get (fun _ => Evo.idle) h.tm.evo n

/-- Whether an output is held inactive by QUAL_GATE (R139). -/
def Hub.gated (h : Hub) (n : Nat) : Bool :=
  h.on (R.TIME_EVO_CTRL_QUAL_GATE n) && h.get R.TIME_STATUS_QUALITY == 2

/-- The level an output drives its ball to while active or not: POLARITY 1 is active low (R141). -/
def Hub.evoLevel (h : Hub) (n : Nat) (act : Bool) : Bool := act ^^ h.on (R.TIME_EVO_CTRL_POLARITY n)

/-- The ball and STATUS of an output follow its drive and its gating. -/
def Hub.evoRefresh (h : Hub) (n : Nat) : Hub :=
  let g := h.gated n
  let act := (h.evo n).on && !g
  let h' := (h.put (R.TIME_EVO_STATUS_GATED n) (b2n g)).put (R.TIME_EVO_STATUS_ACTIVE n) (b2n act)
  if h.on (R.TIME_EVO_STATUS_ACTIVE n) = act then h' else h'.ball (.evo n (h.evoLevel n act))

/-- The balls of the triggered outputs, driven by the hub's logic (R495, R508). -/
def Hub.evoShow (h : Hub) : Hub :=
  (List.range 8).foldl (fun h n => h.ball (.evo n (h.evoLevel n (h.on (R.TIME_EVO_STATUS_ACTIVE n))))) h

/-- A write of POLARITY moves the ball of an output at once (R141). -/
def Hub.evoPolarity (h : Hub) (n : Nat) (low : Bool) : Hub :=
  if h.on (R.TIME_EVO_CTRL_POLARITY n) = low then h
  else
    let h := h.put (R.TIME_EVO_CTRL_POLARITY n) (b2n low)
    h.ball (.evo n (h.evoLevel n (h.on (R.TIME_EVO_STATUS_ACTIVE n))))

/-- The hub with an output's state replaced, STATUS following. -/
def Hub.setEvo (h : Hub) (n : Nat) (x : Evo) : Hub :=
  let h := { h with tm := { h.tm with evo := SMap.set (fun _ => Evo.idle) h.tm.evo n x } }
  (h.put (R.TIME_EVO_STATUS_ARMED n) (b2n x.sched.isSome)).evoRefresh n

/-- Every triggered output. -/
def evoAll : List Nat := [0, 1, 2, 3, 4, 5, 6, 7]

/-! ### Time quality (R127) -/

/-- The quality the clock stands for (R127). -/
def Hub.qualityNow (h : Hub) : Nat :=
  match h.selPort with
  | some p =>
    if h.clkMode = ckRing ∧ (h.tm.ports.at p).mark.isSome = true ∧ (h.tm.ports.at p).gap = false then
      (if h.preferred = p then 0 else 1)
    else 2
  | none => 2

/-- QUALITY follows the clock; a change latches TIME in every context (R200) and moves gated outputs (R139). -/
def Hub.refreshQuality (h : Hub) : Hub :=
  if h.get R.TIME_STATUS_QUALITY = h.qualityNow then h
  else evoAll.foldl Hub.evoRefresh ((h.put R.TIME_STATUS_QUALITY h.qualityNow).latchAll evTime)

/-! ### FREE and ACQUIRE (R111, R115) -/

/-- Duration of HOLDOVER so far in µs, saturating. -/
def Hub.holdTime (h : Hub) : Nat := min (2 ^ 32 - 1) ((h.root - h.tm.holdAt) / us)

/-- HOLDOVER ends: CLK_HOLDOVER_TIME holds its duration from then on (R140). -/
def Hub.holdoverOver (h : Hub) : Hub := if h.clkMode = ckHoldover then h.wr A.CLK_HOLDOVER_TIME (W h.holdTime) else h

/-- The clock falls to FREE: every transmitter goes to electrical idle (R111) and every Ethernet port goes DOWN (R307). -/
def Hub.goFree (h : Hub) : Hub :=
  let h := h.holdoverOver
  let h := (Port.all.foldl (fun h p => h.emit (.idle p)) (h.setClk ckFree 0)).ethAllDown.lvdsAll
  { h with tm := { h.tm with followed := none } }.refreshQuality

/-- CLOCK_ACQUIRE (R115): TS1 on three lanes of a candidate. -/
def Hub.clockAcquire (h : Hub) (p : Port) : Hub :=
  if h.clkMode = ckFree ∧ h.candidate p = true then
    let h := (h.setClk ckAcquire (selCode p)).lvdsAll
    { h with tm := { h.tm with followed := some p } }
  else h

/-- ACQUIRE_TIMEOUT (R115): 100 ms after entry to ACQUIRE, the followed port is not UP. -/
def Hub.acquireTimeout (h : Hub) : Hub :=
  match h.tm.followed with
  | some p => if h.clkMode = ckAcquire ∧ h.up p = false then h.goFree else h
  | none => h

/-- STEP_HOLD_ENTER (R115): the followed port starts a gear step in ACQUIRE; SEL keeps its code, having none for the frozen
PLL (assumption 118, DEDUCED). -/
def Hub.stepHoldEnter (h : Hub) : Hub :=
  match h.tm.followed with
  | some p =>
    if h.clkMode = ckAcquire ∧ h.lstate p = stGearStep then
      { h.put R.CLK_STATUS_MODE ckStepHold with tm := { h.tm with holdFrom := ckAcquire } }
    else h
  | none => h

/-- STEP_HOLD_RELOCK (R115). -/
def Hub.stepHoldRelock (h : Hub) : Hub :=
  if h.clkMode = ckStepHold then h.put R.CLK_STATUS_MODE h.tm.holdFrom else h

/-- CLK_OFFSET of a port: 0 while it is not UP. -/
def Hub.clkOffset (h : Hub) (p : Port) : Nat :=
  if h.up p then
    match p with
    | .E => h.get R.CLK_OFFSET_E_OFFSET
    | .W => h.get R.CLK_OFFSET_W_OFFSET
    | .S => 0
  else 0

/-- STEP_HOLD_OVERRUN (R115): 0.6 ms without relock. -/
def Hub.stepHoldOverrun (h : Hub) : Hub :=
  if h.clkMode = ckStepHold then
    let h := h.put R.CLK_EVENT_STEP_OVERRUN 1
    let off := match h.tm.followed with | some p => h.clkOffset p | none => 0
    (h.log 1 0x04 sevCT (h.get R.CLK_STATUS_SEL) off 0).goFree
  else h

/-! ### The monitor (R114) -/

/-- The windows of a candidate, newest first. -/
def Hub.windows (h : Hub) : Port → List (Option Nat)
  | .W => h.tm.winW
  | .E => h.tm.winE
  | .S => []

/-- The frequency memory is set from one window. -/
def Hub.setMemory (h : Hub) (c : Nat) : Hub := { h with tm := { h.tm with memNum := c, memDen := 1, memAge := 1 } }

/-- In RING the memory is the mean of the selected candidate's passing windows, the last 102 at most and none older
than the one it was set from (R114). -/
def Hub.updateMemory (h : Hub) : Hub :=
  match h.selPort with
  | some p =>
    let ws := ((h.windows p).take (min 102 h.tm.memAge)).filterMap id
    if h.clkMode = ckRing ∧ h.tm.memDen ≠ 0 ∧ ws ≠ [] then
      { h with tm := { h.tm with memNum := ws.sum, memDen := ws.length } }
    else h
  | none => h

/-- Whether two counts differ by more than `ppm` parts in a million of the fraction `num/den`. -/
def apart (c num den ppm : Nat) : Bool :=
  decide (ppm * num < ((Int.ofNat (c * den) - Int.ofNat num).natAbs) * 1000000)

/-- Whether a count is more than 500 ppm from the memory; never before the memory exists (R114 case 2). -/
def Hub.farOff (h : Hub) (c : Nat) : Bool := h.tm.memDen != 0 && apart c h.tm.memNum h.tm.memDen 500

/-- A count's offset from the memory in ppm, to the nearest, saturating at ±32,767. -/
def ppmOff (c num den : Nat) : Int :=
  let d := (2 * (Int.ofNat (c * den) - Int.ofNat num) * 1000000 + Int.ofNat num) / (2 * Int.ofNat num)
  max (-32767) (min 32767 d)

/-- CLK_OFFSET of a candidate after a window; a free value while no memory exists (assumption 31, DEDUCED). -/
def Hub.setOffset (h : Hub) (p : Port) (c : Option Nat) : Hub :=
  let f := match p with | .E => R.CLK_OFFSET_E_OFFSET | _ => R.CLK_OFFSET_W_OFFSET
  match c with
  | none => h
  | some c =>
    if h.tm.memDen = 0 ∨ h.tm.memNum = 0 then
      let (w, h) := h.fresh
      h.put f w.toNat
    else h.put f (unsigned 16 (ppmOff c h.tm.memNum h.tm.memDen))

/-- A window's result joins a candidate's windows. -/
def Hub.pushWindow (h : Hub) (p : Port) (c : Option Nat) : Hub :=
  { h with tm := match p with
      | .W => { h.tm with winW := (c :: h.tm.winW).take 102 }
      | .E => { h.tm with winE := (c :: h.tm.winE).take 102 }
      | .S => h.tm }

/-- The count of a candidate that is UP and clocked. -/
def Hub.liveCount (h : Hub) (p : Port) (c : Option Nat) : Option Nat := if h.candidate p && h.up p then c else none

/-- MONITOR_WINDOW_END (R114): the counts of W and E in the window, in parts per million of the slow clock's nominal
ratio, none for a candidate whose clock showed no edge (assumption 31, DEDUCED). -/
def Hub.monitorWindowEnd (h : Hub) (cw ce : Option Nat) : Hub :=
  let cw := h.liveCount .W cw
  let ce := h.liveCount .E ce
  let agree := match cw, ce with | some a, some b => !apart a b 1 100 | _, _ => false
  let far := fun (c : Option Nat) => match c with | some x => h.farOff x | none => false
  let h := { h with tm := { h.tm with memAge := if h.tm.memDen = 0 then 0 else h.tm.memAge + 1 } }
  let h := match cw, ce with
    | some a, some b =>
      if h.farOff a && h.farOff b && agree then h.setMemory (if h.selPort = some Port.E then b else a) else h
    | _, _ => h
  let badW := h.tm.edgeW || cw.isNone || (far cw && !agree)
  let badE := h.tm.edgeE || ce.isNone || (far ce && !agree)
  let h := (h.setOffset .W cw).setOffset .E ce
  let h := (h.setFail .W badW).setFail .E badE
  let h := (h.pushWindow .W (if badW then none else cw)).pushWindow .E (if badE then none else ce)
  { h with tm := { h.tm with edgeW := false, edgeE := false } }.updateMemory

/-- MISSING_EDGES (R114 case 1): the window in progress has failed, and its end does not mend it. -/
def Hub.missingEdges (h : Hub) (p : Port) : Hub :=
  let h := h.setFail p true
  { h with tm := match p with
      | .W => { h.tm with edgeW := true }
      | .E => { h.tm with edgeE := true }
      | .S => h.tm }

/-! ### RING and HOLDOVER (R113–R118, R513) -/

/-- Root on a candidate in mode RING; the first entry sets the frequency memory, and from then on it is the mean of the
selected candidate's windows, whichever that is (R114). -/
def Hub.enterRing (h : Hub) (p : Port) : Hub :=
  let h := h.setClk ckRing (selCode p)
  let h := if h.tm.memDen = 0 then
      (match (h.windows p).head? with | some (some c) => h.setMemory c | _ => h)
    else h
  let h := h.updateMemory
  { h with tm := { h.tm with followed := none } }.refreshQuality

/-- The candidate chosen among those that meet a condition: the preferred one if it does (R513). -/
def Hub.pickCandidate (h : Hub) (meets : Port → Bool) : Option Port :=
  if meets h.preferred then some h.preferred
  else if meets h.preferred.other then some h.preferred.other
  else none

/-- CLOCK_ENTER_RING (R115, R513): a candidate qualifies in ACQUIRE. -/
def Hub.clockEnterRing (h : Hub) : Hub :=
  if h.clkMode = ckAcquire then
    match h.pickCandidate h.qualified with
    | some p => h.enterRing p
    | none => h
  else h

/-- A switch of the root to the other candidate (R116): logged, counted, its handling over as the root is on its new
reference (R458). -/
def Hub.switchTo (h : Hub) (old new : Port) : Hub :=
  let h := (h.put R.CLK_EVENT_SWITCHED 1).bump R.CLK_SWITCH_CNT
  let h := h.logBy 1 0x01 sevDG (selCode new) (h.clkOffset old) (h.get R.CLK_SWITCH_CNT) .clock
  (h.enterRing new).recovered .clock

/-- CLOCK_SWITCH (R116): the selected candidate is no longer qualified and the other is. -/
def Hub.clockSwitch (h : Hub) : Hub :=
  match h.selPort with
  | some p =>
    if h.clkMode = ckRing ∧ h.qualified p = false ∧ h.qualified p.other = true then h.switchTo p p.other else h
  | none => h

/-- HOLDOVER_ENTER (R117): no candidate is qualified. -/
def Hub.holdoverEnter (h : Hub) : Hub :=
  match h.selPort with
  | some p =>
    if h.clkMode = ckRing ∧ h.qualified .W = false ∧ h.qualified .E = false then
      let h := (h.put R.CLK_EVENT_HOLDOVER 1).bump R.CLK_HOLDOVER_CNT
      let h := h.logBy 1 0x02 sevDG 0 (h.clkOffset p) (h.get R.CLK_HOLDOVER_CNT) .clock
      let h := h.setClk ckHoldover 0
      ({ h with tm := { h.tm with holdAt := h.root } }.refreshQuality).recovered .clock
    else h
  | none => h

/-- HOLDOVER_EXIT (R115, R513): the candidates named have been qualified continuously for 1 ms (assumption 31, DEDUCED). -/
def Hub.holdoverExit (h : Hub) (w e : Bool) : Hub :=
  if h.clkMode = ckHoldover then
    match h.pickCandidate (fun p => h.qualified p && (match p with | .W => w | .E => e | .S => false)) with
    | some p =>
      let t := h.holdTime
      let h := h.holdoverOver.put R.CLK_EVENT_RECOVERED 1
      (h.enterRing p).notice 1 0x82 (selCode p) t
    | none => h
  else h

/-- CLOCK_REVERT (R118): the preferred candidate has been qualified for REVERT_TIME. A selected candidate that failed
meanwhile makes it a switch (R118 race). -/
def Hub.clockRevert (h : Hub) : Hub :=
  match h.selPort with
  | some p =>
    let q := h.preferred
    if h.clkMode = ckRing ∧ p ≠ q ∧ h.qualified q = true ∧ h.on R.CLK_CTRL_REVERT_EN = true then
      if h.qualified p then ((h.put R.CLK_EVENT_REVERTED 1).enterRing q).notice 1 0x81 (selCode q) 0
      else h.switchTo p q
    else h
  | none => h

/-- SLOW_CLOCK_MEASURE (R120): the slow clock's frequency in Hz, measured against the ring (assumption 31, DEDUCED). -/
def Hub.slowClockMeasure (h : Hub) (hz : Nat) : Hub :=
  if h.clkMode = ckRing then
    let bad := decide (hz < 23750000) || decide (26250000 < hz)
    let h' := h.wr A.CLK_SLOW_FREQ (W hz)
    let h' := if bad && !h.tm.slowBad then h'.log 1 0x03 sevDG (h.get R.CLK_STATUS_SEL) 0 0 else h'
    { h' with tm := { h'.tm with slowBad := bad } }
  else h

/-- CLK_COUNTER_CLEAR (R140). -/
def Hub.clkClear (h : Hub) : Hub :=
  let h := h.clearRange A.CLK_SWITCH_CNT A.CLK_HOLDOVER_TIME
  { h with tm := { h.tm with holdAt := h.root } }

/-- MARKER_GAP (R125): 10 µs without an accepted marker. -/
def Hub.markerGap (h : Hub) (p : Port) : Hub :=
  let t := h.tm.ports.at p
  if t.mark.isSome && !t.gap then
    ((h.onTimePort p (fun t => { t with gap := true })).bump R.TIME_MARK_MISS).refreshQuality
  else h

/-! ### Hop delay (R128–R130) -/

/-- Whether a port may send a packet of its own now: UP (R16), out of Lull, no replay waiting, room and credit. -/
def Hub.portMay (h : Hub) (p : Port) (k : Packet) : Bool :=
  let l := h.links.at p
  h.up p && !h.silent && !h.on (R.LNK_STATUS_TX_LULL p.ix) && l.rq.isEmpty && l.replayRoom k
    && decide (k.cells ≤ l.avail k.cls)

/-- A port's own packet leaves at a packet boundary under the replay rules (R81, R87, R128). -/
def Hub.portSend (h : Hub) (p : Port) (k : Packet) : Hub :=
  let h := h.endWire p.ix
  let next := h.get (R.LNK_REPLAY_SEQ_NEXT p.ix)
  let k' := { k with hops := (k.hops + 1) % 256, lseq := next }
  let h := ((h.useCredit p k).emit (.packet p k')).put (R.LNK_REPLAY_SEQ_NEXT p.ix) ((next + 1) % 4096)
  h.onLink p (fun l => { l with
    replay := l.replay ++ [k'], orig := KMap.del l.orig next, wire := some ⟨p.ix, 16383, k', true⟩ })

/-- SRC of a port's own packet: 0 without an address (R128). -/
def Hub.portSrc (h : Hub) : Nat := if h.hasAddr then h.addr else 0

/-- A port's own packet of class M to DEST 0x0000 (R128). -/
def Hub.portPacket (h : Hub) (kind aux : Nat) (payload : List Word) : Packet :=
  { dest := 0, cls := .M, src := h.portSrc, kind := kind, hops := 0, lseq := 0, wrap := false, west := false,
    resync := false, tseq := 0, aux := aux, stamp := h.stamp, payload := payload }

/-- A probe leaves (R129). -/
def Hub.sendProbe (h : Hub) (p : Port) (recheck : Bool) : Hub :=
  let t := h.tm.ports.at p
  let k := h.portPacket 5 t.probeId []
  if h.portMay p k then
    (h.portSend p k).onTimePort p (fun t => { t with
      probes := KMap.put t.probes t.probeId ⟨h.root, false, recheck⟩
      probeId := (t.probeId + 1) % 65536
      sentProbes := if recheck then t.sentProbes else t.sentProbes + 1 })
  else h

/-- A calibration begins (R130): samples and probes of an earlier one are forgotten. -/
def Hub.calStart (h : Hub) (p : Port) : Hub :=
  h.onTimePort p (fun t => { t with
    calibrating := true, sentProbes := 0, samples := [], probes := t.probes.filter (fun e => e.2.recheck) })

/-- An integer in its place in a rising list. -/
def insertInt (x : Int) : List Int → List Int
  | [] => [x]
  | y :: ys => if x ≤ y then x :: y :: ys else y :: insertInt x ys

/-- A list in rising order. -/
def sortInts : List Int → List Int
  | [] => []
  | x :: xs => insertInt x (sortInts xs)

/-- The median of samples in 0.125 ns, rounded to 0.25 ns, an exact half up (R130). -/
def medianDelay (xs : List Int) : Int :=
  let s := sortInts xs
  let k := s.length / 2
  if s.length % 2 = 1 then (s.getD k 0 + 1) / 2 else (s.getD (k - 1) 0 + s.getD k 0 + 2) / 4

/-- A calibration ends when its 64 probes are answered or given up (R130). With fewer than 32 good samples the port is
uncalibrated until a retry succeeds, also where it held a delay before (assumption 135, DESIGN CHOICE). -/
def Hub.calFinish (h : Hub) (p : Port) : Hub :=
  let t := h.tm.ports.at p
  if t.calibrating && decide (64 ≤ t.sentProbes) && !t.probes.any (fun e => !e.2.recheck) then
    let h := h.onTimePort p (fun t => { t with calibrating := false })
    if 32 ≤ t.samples.length then
      let d := unsigned 24 (medianDelay t.samples)
      let h := (h.wr (aDelay p) (W (d + 2 ^ 31))).bump R.TIME_CAL_CNT
      let h := h.onTimePort p (fun t => { t with off := 0, recal := false })
      if t.recal then h.log 2 0x02 sevC p.code d (h.get R.TIME_CAL_CNT) else h
    else h.put ⟨aDelay p, 31, 1⟩ 0
  else h

/-- DELAY_CALIBRATION (R130): each probe of a calibration, the first of which begins it. -/
def Hub.delayCalibration (h : Hub) (p : Port) : Hub :=
  if h.up p then
    let h := if (h.tm.ports.at p).calibrating then h else h.calStart p
    if (h.tm.ports.at p).sentProbes < 64 then h.sendProbe p false else h
  else h

/-- CALIBRATION_RETRY (R130): 1 ms after a calibration with fewer than 32 good samples. -/
def Hub.calibrationRetry (h : Hub) (p : Port) : Hub :=
  if h.up p && !h.calibrated p && !(h.tm.ports.at p).calibrating then (h.calStart p).sendProbe p false else h

/-- CAL_NOW (R141): every UP port recalibrates. -/
def Hub.calNow (h : Hub) : Hub :=
  Port.all.foldl (fun h p => if h.up p then (h.calStart p).sendProbe p false else h) h

/-- DELAY_RECHECK (R130): one probe every second on a calibrated port while RECHECK_EN is 1. -/
def Hub.delayRecheck (h : Hub) (p : Port) : Hub :=
  if h.up p && h.calibrated p && h.on R.TIME_CTRL_RECHECK_EN then h.sendProbe p true else h

/-- A recheck's sample against the held delay (R130): four in a row off by more than 1 ns recalibrate. -/
def Hub.recheckSample (h : Hub) (p : Port) (x : Int) : Hub :=
  let off := decide (8 < (x - 2 * Int.ofNat (h.delay p)).natAbs)
  let n := if off then (h.tm.ports.at p).off + 1 else 0
  let h := h.onTimePort p (fun t => { t with off := n })
  if 4 ≤ n then (h.calStart p).onTimePort p (fun t => { t with off := 0, recal := true }) else h

/-- The first packet a port holds for itself of a KIND. -/
def LinkPort.ownOf (l : LinkPort) (kind : Nat) : Option PortPkt := l.ctl.find? (fun x => x.pkt.kind == kind)

/-- A port's own packet is taken. -/
def Hub.takeOwn (h : Hub) (p : Port) (x : PortPkt) : Hub := h.onLink p (fun l => { l with ctl := l.ctl.erase x })

/-- DELAY_PROBE_RECEIVED (R129): the probe waiting longest is answered once a reply can leave. -/
def Hub.delayProbeReceived (h : Hub) (p : Port) : Hub :=
  match (h.links.at p).ownOf 5 with
  | some x =>
    let k := h.portPacket 6 x.pkt.aux [W (h.root - x.at_)]
    if h.portMay p k then (h.takeOwn p x).portSend p k else h
  | none => h

/-- DELAY_REPLY_RECEIVED (R129): a good sample is (t4 − t1) − TURN in units of 0.125 ns. -/
def Hub.delayReplyReceived (h : Hub) (p : Port) : Hub :=
  match (h.links.at p).ownOf 6 with
  | some x =>
    let h := h.takeOwn p x
    match KMap.get? (h.tm.ports.at p).probes x.pkt.aux with
    | some b =>
      let h := h.onTimePort p (fun t => { t with probes := KMap.del t.probes x.pkt.aux })
      let v := (Int.ofNat x.at_ - Int.ofNat b.t1) - Int.ofNat (x.pkt.payload.headD 0).toNat
      if b.again || decide (b.t1 + 100 * us < x.at_) then h.calFinish p
      else if b.recheck then h.recheckSample p v
      else (h.onTimePort p (fun t => { t with samples := v :: t.samples })).calFinish p
    | none => h
  | none => h

/-- DELAY_PROBE_TIMEOUT (R129): no reply within 100 µs. -/
def Hub.delayProbeTimeout (h : Hub) (p : Port) (id : Nat) : Hub :=
  (h.onTimePort p (fun t => { t with probes := KMap.del t.probes id })).calFinish p

/-- TIME_CLEAR_MARKER_COUNTERS (R141). -/
def Hub.timeClearMarkers (h : Hub) : Hub := h.clearRange A.TIME_MARK_MISS A.TIME_CAL_CNT

/-- TIME_CLEAR_EVENT_COUNTERS (R141). -/
def Hub.timeClearEvents (h : Hub) : Hub :=
  evoAll.foldl (fun h n => h.wr (A.TIME_EVO_SKIP n) 0) (h.clearRange A.TIME_EVI_LOST A.TIME_EVI_GLITCH)

/-! ### Event inputs (R134–R136) -/

/-- An input nothing is pending on. -/
def EviPin.idle : EviPin := ⟨none, 0⟩

/-- A record in its place among the records that entered the FIFO in the same tick with the same stamp, in ascending pin
order; each takes the group sequence of its place (R135). -/
def EviRec.join (r : EviRec) : List EviRec → List EviRec
  | [] => [r]
  | x :: xs =>
    if x.entered = r.entered ∧ x.stamp = r.stamp ∧ r.pin < x.pin then
      { r with seq := x.seq } :: EviRec.join { x with seq := (x.seq + 1) % 65536 } xs
    else x :: EviRec.join r xs

/-- An event input's filter. -/
def Hub.pin (h : Hub) (n : Nat) : EviPin := SMap.get (fun _ => EviPin.idle) h.tm.pins n

/-- The hub with an event input's filter replaced. -/
def Hub.setPin (h : Hub) (n : Nat) (x : EviPin) : Hub :=
  { h with tm := { h.tm with pins := SMap.set (fun _ => EviPin.idle) h.tm.pins n x } }

/-- Edge selection of a pin: bit 0 rising, bit 1 falling (TIME_EVI_EDGE0, TIME_EVI_EDGE1). -/
def Hub.edgeSel (h : Hub) (n : Nat) : Nat :=
  slice (h.rd (if n < 16 then A.TIME_EVI_EDGE0 else A.TIME_EVI_EDGE1)).toNat (2 * (n % 16)) 2

/-- A selected edge makes a record with the quality at its stamp (R127); what a full FIFO has no room for, the last of its
tick, is lost (R135) (assumption 103, DEDUCED). -/
def Hub.eviRecord (h : Hub) (n : Nat) (e : EviPend) : Hub :=
  let seq := h.get R.TIME_EVI_FIFO_STAT_NEXT_SEQ
  let x := h.pin n
  let h := (h.put R.TIME_EVI_FIFO_STAT_NEXT_SEQ ((seq + 1) % 65536)).setPin n { x with glitch := 0 }
  let fifo := EviRec.join ⟨h.root / 8, e.stamp, n, e.level, e.quality, seq, x.glitch⟩ h.tm.fifo
  let h := { h with tm := { h.tm with fifo := fifo.take 256 } }
  match fifo.drop 256 with
  | [] => h
  | r :: _ =>
    let h := h.bump R.TIME_EVI_LOST
    h.logLim 2 0x03 0 sevCT r.pin (h.get R.TIME_EVI_FIFO_STAT_NEXT_SEQ) (h.get R.TIME_EVI_LOST)

/-- A level is accepted with the stamp of its first sample (R134). -/
def Hub.eviAccept (h : Hub) (n : Nat) (e : EviPend) : Hub :=
  let h := (h.put ⟨A.TIME_EVI_LEVEL, n, 1⟩ (b2n e.level)).setPin n { h.pin n with pend := none }
  if bit (h.edgeSel n) (if e.level then 0 else 1) then h.eviRecord n e else h

/-- EVI_LEVEL_CHANGE (R134): a sample at a level other than the pin's. -/
def Hub.eviLevelChange (h : Hub) (n : Nat) (level : Bool) : Hub :=
  let old := bit (h.rd A.TIME_EVI_LEVEL).toNat n
  let x := h.pin n
  match x.pend with
  | some _ =>
    if level = old then (h.setPin n ⟨none, satAdd 255 x.glitch 1⟩).bump R.TIME_EVI_GLITCH else h
  | none =>
    if level = old then h
    else if h.get (R.TIME_EVI_FILT_FILTER n) = 0 then h.eviAccept n ⟨level, h.now, h.quality⟩
    else h.setPin n { x with pend := some ⟨level, h.now, h.quality⟩ }

/-- EVI_FILTER_ACCEPT (R134): the pending level has held for FILTER units. -/
def Hub.eviFilterAccept (h : Hub) (n : Nat) : Hub :=
  match (h.pin n).pend with
  | some e => h.eviAccept n e
  | none => h

/-- The tunnel whose binding in force names an endpoint, in a mode. -/
def Hub.boundTo (h : Hub) (e mode : Nat) : Option Nat :=
  (List.range 96).find? (fun n => h.bindMode n == mode && h.bindEnd n == e)

/-- EVI_PACKET_SEND (R136): a DIRECT event group sends up to 32 records in one DATA packet; in a rebuild they stay in the FIFO
(R164). The spec names no DEST for
it: a free value of the tunnel (assumption 36, DESIGN CHOICE). -/
def Hub.eviPacketSend (h : Hub) : Hub :=
  match h.boundTo 0x2A 1 with
  | some n =>
    if h.tm.fifo.isEmpty || h.on R.FAB_STATUS_REBUILD then h
    else
      let rs := h.tm.fifo.take 32
      let h := { h with tm := { h.tm with fifo := h.tm.fifo.drop 32 } }
      (h.send n (Config.evtDest n).toNat (h.bindCls n) 0 0 h.stamp (rs.flatMap EviRec.words)).1
  | none => h

/-- EVI_POP (R136). -/
def Hub.eviPop (h : Hub) : Hub := { h with tm := { h.tm with fifo := h.tm.fifo.drop 1 } }

/-! ### Triggered outputs (R137–R139, R142) -/

/-- Station time of edge `k` (R137). -/
def EvoSched.edge (s : EvoSched) (k : Nat) : Nat := s.start + k * s.period / s.count

/-- The first edge at or after a time (R138). -/
def EvoSched.firstFrom (s : EvoSched) (t : Nat) : Nat := if t ≤ s.start then 0 else ceilDiv ((t - s.start) * s.count) s.period

/-- Results of an arm (R138, R272): 0 OK, −4 REFUSED, −6 LATE as R249 writes them. -/
inductive ArmRes where
  | ok
  | refused
  | late
deriving DecidableEq, Repr

/-- An output stops: no schedule, no pulse, no transition (R142). -/
def Hub.evoHalt (h : Hub) (n : Nat) : Hub := h.setEvo n .idle

/-- A schedule is latched and started, or refused (R138). A pulse in progress as an output is armed
anew runs on to its end (assumption 37, DEDUCED; 136, DESIGN CHOICE). -/
def Hub.evoStart (h : Hub) (n mode start period count width : Nat) : Hub × ArmRes :=
  if mode = 0 then (h.evoHalt n, .ok)
  else if width = 0 ∨ (mode = 2 ∧ (period < 4 * count ∨ period ≤ width * count)) then
    (h.put (R.TIME_EVO_STATUS_REFUSED n) 1, .refused)
  else
    let h := h.put (R.TIME_EVO_STATUS_REFUSED n) 0
    let x := h.evo n
    let s : EvoSched := ⟨start, period, count, width, mode == 2, 0⟩
    if h.now + 64 ≤ start then (h.setEvo n { x with sched := some s, queue := [] }, .ok)
    else if mode = 1 then
      ((h.setEvo n { x with sched := none, queue := [] }).put (R.TIME_EVO_STATUS_LATE n) 1, .late)
    else
      let k := s.firstFrom (h.now + 64)
      (((h.setEvo n { x with sched := some { s with k := k }, queue := [] }).put (R.TIME_EVO_STATUS_LATE n) 1).bumpBy
        (R.TIME_EVO_SKIP n) k, .late)

/-- START of an output's registers. -/
def Hub.evoStartReg (h : Hub) (n : Nat) : Nat :=
  (h.rd (A.TIME_EVO_START_LO n)).toNat + (h.rd (A.TIME_EVO_START_HI n)).toNat * 2 ^ 32

/-- EVO_ARM (R138): the registers' schedule in the MODE they hold; ignored while TUN_OWN is 1 (R142). -/
def Hub.evoArm (h : Hub) (n : Nat) : Hub :=
  if h.on (R.TIME_EVO_CTRL_TUN_OWN n) then h else
  (h.evoStart n (h.get (R.TIME_EVO_CTRL_MODE n)) (h.evoStartReg n) (h.rd (A.TIME_EVO_PERIOD n)).toNat
    (h.get (R.TIME_EVO_COUNT_COUNT n)) (h.rd (A.TIME_EVO_WIDTH n)).toNat).1

/-- EVO_STOP (R142): a write of MODE 0b00, ignored while TUN_OWN is 1, or a write that clears TUN_OWN. -/
def Hub.evoStop (h : Hub) (n : Nat) (clearOwn : Bool) : Hub :=
  if clearOwn then
    if h.on (R.TIME_EVO_CTRL_TUN_OWN n) then (h.put (R.TIME_EVO_CTRL_TUN_OWN n) 0).evoHalt n else h
  else if h.on (R.TIME_EVO_CTRL_TUN_OWN n) then h
  else (h.put (R.TIME_EVO_CTRL_MODE n) 0).evoHalt n

/-- EVO_EDGE (R137, R139): the next edge of the schedule is due (assumption 37, DEDUCED). -/
def Hub.evoEdge (h : Hub) (n : Nat) : Hub :=
  let x := h.evo n
  match x.sched with
  | some s =>
    let next := if s.periodic then some { s with k := s.k + 1 } else none
    if h.gated n then (h.setEvo n { x with sched := next }).bump (R.TIME_EVO_SKIP n)
    else h.setEvo n { x with sched := next, on := true, pulseEnd := some (s.edge s.k + s.width) }
  | none => h

/-- EVO_PULSE_END (R137). -/
def Hub.evoPulseEnd (h : Hub) (n : Nat) : Hub :=
  let x := h.evo n
  if x.pulseEnd.isSome then h.setEvo n { x with on := false, pulseEnd := none } else h

/-- What a forward step past an output's edges does (R139, R273): `t` is the station time stepped to
(assumption 37, DEDUCED). -/
def Hub.evoStepped (h : Hub) (t n : Nat) : Hub :=
  let x := h.evo n
  let isOver := match x.pulseEnd with | some e => decide (e ≤ t) | none => false
  let x := if isOver then { x with on := false, pulseEnd := none } else x
  let skipped : Nat := match x.sched with
    | some s => if s.periodic then s.firstFrom t - s.k else (if s.start < t then 1 else 0)
    | none => 0
  let sched := match x.sched with
    | some s => if s.periodic then some { s with k := max s.k (s.firstFrom t) } else (if s.start < t then none else some s)
    | none => none
  let gone : Nat := (x.queue.filter (fun q => decide (q.at_ < t))).length
  let h := h.setEvo n { x with sched := sched, queue := x.queue.filter (fun q => decide (t ≤ q.at_)) }
  if skipped + gone = 0 then h
  else (h.bumpBy (R.TIME_EVO_SKIP n) (skipped + gone)).put (R.TIME_EVO_STATUS_LATE n) 1

/-! ### What hangs on the preferred candidate (R118, R127) -/

/-- ROUTE_ENTRY_WRITE (R101): entry 0 also names the preferred candidate, and the time quality follows it (R118, R127). -/
def Hub.routeEntryWrite (h : Hub) (a : Nat) (v : Word) : Hub := (h.routeWrite a v).refreshQuality

/-! ### The rows of the table -/

/-- ROUTE_ENTRY_WRITE (R101). -/
def execRouteEntryWrite (entry : Fin 128) (value : Word) (s : State) : Result :=
  s.upd (fun h => h.routeEntryWrite entry value)

/-- CLOCK_ACQUIRE (R115). -/
def execClockAcquire (p : Port) (s : State) : Result := s.upd (fun h => h.clockAcquire p)

/-- CLOCK_ENTER_RING (R513). -/
def execClockEnterRing (s : State) : Result := s.upd (fun h => h.clockEnterRing)

/-- ACQUIRE_TIMEOUT (R115). -/
def execAcquireTimeout (s : State) : Result := s.upd (fun h => h.acquireTimeout)

/-- STEP_HOLD_ENTER (R115). -/
def execStepHoldEnter (s : State) : Result := s.upd (fun h => h.stepHoldEnter)

/-- STEP_HOLD_RELOCK (R115). -/
def execStepHoldRelock (s : State) : Result := s.upd (fun h => h.stepHoldRelock)

/-- STEP_HOLD_OVERRUN (R115). -/
def execStepHoldOverrun (s : State) : Result := s.upd (fun h => h.stepHoldOverrun)

/-- MONITOR_WINDOW_END (R114). -/
def execMonitorWindowEnd (w : Option Nat) (e : Option Nat) (s : State) : Result :=
  s.upd (fun h => h.monitorWindowEnd w e)

/-- MISSING_EDGES (R114). -/
def execMissingEdges (p : Port) (s : State) : Result := s.upd (fun h => h.missingEdges p)

/-- CLOCK_SWITCH (R116). -/
def execClockSwitch (s : State) : Result := s.upd (fun h => h.clockSwitch)

/-- HOLDOVER_ENTER (R117). -/
def execHoldoverEnter (s : State) : Result := s.upd (fun h => h.holdoverEnter)

/-- HOLDOVER_EXIT (R115). -/
def execHoldoverExit (w : Bool) (e : Bool) (s : State) : Result := s.upd (fun h => h.holdoverExit w e)

/-- CLOCK_REVERT (R118). -/
def execClockRevert (s : State) : Result := s.upd (fun h => h.clockRevert)

/-- SLOW_CLOCK_MEASURE (R120). -/
def execSlowClockMeasure (hz : BitVec 32) (s : State) : Result := s.upd (fun h => h.slowClockMeasure hz.toNat)

/-- MARKER_GAP (R125). -/
def execMarkerGap (p : Port) (s : State) : Result := s.upd (fun h => h.markerGap p)

/-- DELAY_CALIBRATION (R130). -/
def execDelayCalibration (p : Port) (s : State) : Result := s.upd (fun h => h.delayCalibration p)

/-- DELAY_PROBE_RECEIVED (R129). -/
def execDelayProbeReceived (p : Port) (s : State) : Result := s.upd (fun h => h.delayProbeReceived p)

/-- DELAY_REPLY_RECEIVED (R129). -/
def execDelayReplyReceived (p : Port) (s : State) : Result := s.upd (fun h => h.delayReplyReceived p)

/-- DELAY_PROBE_TIMEOUT (R129). -/
def execDelayProbeTimeout (p : Port) (probe : BitVec 16) (s : State) : Result :=
  s.upd (fun h => h.delayProbeTimeout p probe.toNat)

/-- DELAY_RECHECK (R130). -/
def execDelayRecheck (p : Port) (s : State) : Result := s.upd (fun h => h.delayRecheck p)

/-- CALIBRATION_RETRY (R130). -/
def execCalibrationRetry (p : Port) (s : State) : Result := s.upd (fun h => h.calibrationRetry p)

/-- CAL_NOW (R141). -/
def execCalNow (s : State) : Result := s.upd (fun h => h.calNow)

/-- EVI_LEVEL_CHANGE (R134). -/
def execEviLevelChange (pin : Fin 32) (level : Bool) (s : State) : Result :=
  s.upd (fun h => h.eviLevelChange pin level)

/-- EVI_FILTER_ACCEPT (R134). -/
def execEviFilterAccept (pin : Fin 32) (s : State) : Result := s.upd (fun h => h.eviFilterAccept pin)

/-- EVI_PACKET_SEND (R136). -/
def execEviPacketSend (s : State) : Result := s.upd (fun h => h.eviPacketSend)

/-- EVI_POP (R136). -/
def execEviPop (s : State) : Result := s.upd (fun h => h.eviPop)

/-- EVO_ARM (R138). -/
def execEvoArm (n : Fin 8) (s : State) : Result := s.upd (fun h => h.evoArm n)

/-- EVO_STOP (R142). -/
def execEvoStop (n : Fin 8) (clearOwn : Bool) (s : State) : Result := s.upd (fun h => h.evoStop n clearOwn)

/-- EVO_EDGE (R137). -/
def execEvoEdge (n : Fin 8) (s : State) : Result := s.upd (fun h => h.evoEdge n)

/-- EVO_PULSE_END (R137). -/
def execEvoPulseEnd (n : Fin 8) (s : State) : Result := s.upd (fun h => h.evoPulseEnd n)

/-- CLK_COUNTER_CLEAR (R140). -/
def execClkCounterClear (s : State) : Result := s.upd (fun h => h.clkClear)

/-- TIME_CLEAR_MARKER_COUNTERS (R141). -/
def execTimeClearMarkerCounters (s : State) : Result := s.upd (fun h => h.timeClearMarkers)

/-- TIME_CLEAR_EVENT_COUNTERS (R141). -/
def execTimeClearEventCounters (s : State) : Result := s.upd (fun h => h.timeClearEvents)

end Sys2Proof.Machine
end

