-- ==== Sys2Proof/Machine/Crypto.lean ====
section
/-! DEFINITION. The standard functions the spec names and does not define: SHA-384, HMAC-SHA-384 and HKDF, AES-256 with
GCM and XTS, and ECDSA and ECDH over P-384. Each follows its public standard (log entry 5, PRESUMED). -/

namespace Sys2Proof.Machine

/-- Byte strings joined with exclusive or, as long as the shorter. -/
def xorBytes (a b : List Byte) : List Byte := List.zipWith (· ^^^ ·) a b

/-- `n` zero bytes. -/
def zeros (n : Nat) : List Byte := List.replicate n 0#8

/-- The bytes of a numeral list. -/
def toBytes (l : List Nat) : List Byte := l.map (BitVec.ofNat 8)

/-- The ASCII bytes of a name. -/
def asciiBytes (s : String) : List Byte := s.toList.map (fun c => BitVec.ofNat 8 c.toNat)

/-- A list cut in pieces of `n`, at most `k` of them. -/
def chunks {α : Type} (n : Nat) : Nat → List α → List (List α)
  | 0, _ => []
  | k + 1, l => l.take n :: chunks n k (l.drop n)

/-! ### SHA-384 (FIPS 180-4) -/

/-- The primes below `n`, by trial division. -/
def primesBelow (n : Nat) : List Nat :=
  (List.range n).filter (fun p => 2 ≤ p && (List.range p).all (fun d => d < 2 || p % d != 0))

/-- The greatest `r` with `r ^ k ≤ x` that agrees with `r` above its low `bits` bits. -/
def rootFloor (k x : Nat) : Nat → Nat → Nat
  | 0, r => r
  | b + 1, r => rootFloor k x b (if (r + 2 ^ b) ^ k ≤ x then r + 2 ^ b else r)

/-- The first 64 bits of the fractional part of the `k`-th root of `p`: the root of `p` scaled by 2 ^ (64 k). -/
def rootFraction (k p : Nat) : BitVec 64 := BitVec.ofNat 64 (rootFloor k (p * 2 ^ (64 * k)) 70 0)

/-- The round constants: the fractions of the cube roots of the first eighty primes, all below 410. -/
def shaK : List (BitVec 64) := (primesBelow 410).map (rootFraction 3)

/-- The eight working words. -/
structure Sha where
  a : BitVec 64
  b : BitVec 64
  c : BitVec 64
  d : BitVec 64
  e : BitVec 64
  f : BitVec 64
  g : BitVec 64
  h : BitVec 64
deriving DecidableEq, Repr

/-- The initial words of SHA-384: the fractions of the square roots of the ninth to the sixteenth prime. -/
def Sha.init : List (BitVec 64) := ((primesBelow 54).drop 8).map (rootFraction 2)

/-- One round with its constant and schedule word. -/
def Sha.round (s : Sha) (k w : BitVec 64) : Sha :=
  let s1 := s.e.rotateRight 14 ^^^ s.e.rotateRight 18 ^^^ s.e.rotateRight 41
  let ch := (s.e &&& s.f) ^^^ (~~~s.e &&& s.g)
  let t1 := s.h + s1 + ch + k + w
  let s0 := s.a.rotateRight 28 ^^^ s.a.rotateRight 34 ^^^ s.a.rotateRight 39
  let maj := (s.a &&& s.b) ^^^ (s.a &&& s.c) ^^^ (s.b &&& s.c)
  ⟨t1 + (s0 + maj), s.a, s.b, s.c, s.d + t1, s.e, s.f, s.g⟩

/-- The next schedule word from the last sixteen. -/
def shaNext (w : List (BitVec 64)) : BitVec 64 :=
  let x := w.getD 1 0
  let y := w.getD 14 0
  (y.rotateRight 19 ^^^ y.rotateRight 61 ^^^ (y >>> 6)) + w.getD 9 0
    + (x.rotateRight 1 ^^^ x.rotateRight 8 ^^^ (x >>> 7)) + w.getD 0 0

/-- The rounds over the constants left, with a window of sixteen schedule words. -/
def shaRounds : List (BitVec 64) → List (BitVec 64) → Sha → Sha
  | [], _, s => s
  | k :: ks, w, s => shaRounds ks (w.drop 1 ++ [shaNext w]) (s.round k (w.getD 0 0))

/-- The hash words after a 128-byte block. -/
def shaBlock (hs : List (BitVec 64)) (block : List Byte) : List (BitVec 64) :=
  let w := (chunks 8 16 block).map (fun b => BitVec.ofNat 64 (beNat b))
  let g := fun i => hs.getD i 0
  let s := shaRounds shaK w ⟨g 0, g 1, g 2, g 3, g 4, g 5, g 6, g 7⟩
  List.zipWith (· + ·) hs [s.a, s.b, s.c, s.d, s.e, s.f, s.g, s.h]

/-- SHA-384 of a byte string: 48 bytes. -/
def sha384 (m : List Byte) : List Byte :=
  let pad := (128 - (m.length + 17) % 128) % 128
  let full := m ++ [0x80#8] ++ zeros pad ++ beBytes 16 (8 * m.length)
  let hs := (chunks 128 (full.length / 128) full).foldl shaBlock Sha.init
  (hs.take 6).flatMap (fun w => beBytes 8 w.toNat)

/-- HMAC-SHA-384 (RFC 2104). -/
def hmac384 (key m : List Byte) : List Byte :=
  let k := if 128 < key.length then sha384 key else key
  let k := k ++ zeros (128 - k.length)
  let pad := fun (x : Byte) => k.map (· ^^^ x)
  sha384 (pad 0x5C#8 ++ sha384 (pad 0x36#8 ++ m))

/-- The output blocks of HKDF's expand step. -/
def hkdfBlocks (prk info : List Byte) : Nat → Nat → List Byte → List Byte
  | 0, _, _ => []
  | k + 1, i, prev =>
    let t := hmac384 prk (prev ++ info ++ [BitVec.ofNat 8 i])
    t ++ hkdfBlocks prk info k (i + 1) t

/-- HKDF-SHA-384 (RFC 5869): `n` bytes. -/
def hkdf384 (salt input info : List Byte) (n : Nat) : List Byte :=
  (hkdfBlocks (hmac384 salt input) info (ceilDiv n 48) 1 []).take n

/-! ### AES-256 (FIPS 197) -/

/-- The substitution table, byte `i` at bits 8i up. -/
def sboxTable : Nat := 0x16bb54b00f2d99416842e6bf0d89a18cdf2855cee9871e9b948ed9691198f8e19e1dc186b95735610ef6034866b53e708a8bbd4b1f74dde8c6b4a61c2e2578ba08ae7a65eaf4566ca94ed58d6d37c8e779e4959162acd3c25c2406490a3a32e0db0b5ede14b8ee4688902a22dc4f816073195d643d7ea7c41744975fec130ccdd2f3ff1021dab6bcf5389d928f40a351a89f3c507f02f94585334d43fbaaefd0cf584c4a39becb6a5bb1fc20ed00d153842fe329b3d63b52a05a6e1b1a2c830975b227ebe28012079a059618c323c7041531d871f1e5a534ccf73f362693fdb7c072a49cafa2d4adf04759fa7dc982ca76abd7fe2b670130c56f6bf27b777c63

/-- The inverse substitution table. -/
def sboxInvTable : Nat := 0x7d0c2155631469e126d677ba7e042b17619953833cbbebc8b0f52aae4d3be0a0ef9cc9939f7ae52d0d4ab519a97f51605fec8027591012b131c7078833a8dd1ff45acd78fec0db9a2079d2c64b3e56fc1bbe18aa0e62b76f89c5291d711af1476edf751ce837f9e28535ade72274ac9673e6b4f0cecff297eadc674f4111913a6b8a130103bdafc1020f3fca8f1e2cd00645b3b80558e4f70ad3bc8c00abd890849d8da75746155edab9edfd5048706c92b6655dcc5ca4d41698688664f6f87225d18b6d49a25b76b224d92866a12e084ec3fa420b954cee3d23c2a632947b54cbe9dec444438e3487ff2f9b8239e37cfbd7f3819ea340bf38a53630d56a0952

/-- A byte through a substitution table. -/
def subByte (table : Nat) (b : Byte) : Byte := BitVec.ofNat 8 (table >>> (8 * b.toNat))

/-- A byte of GF(2^8) times 2. -/
def xtime (b : Byte) : Byte := if b.toNat < 128 then b <<< 1 else (b <<< 1) ^^^ 0x1B#8

/-- A product in GF(2^8), over the bits of the second factor. -/
def gmul (a b : Byte) : Nat → Byte
  | 0 => 0#8
  | k + 1 => (if b.toNat % 2 = 1 then a else 0#8) ^^^ gmul (xtime a) (b >>> 1) k

/-- The words of the AES-256 key schedule, newest first. -/
def aesWords (ws : List (List Byte)) : Nat → Nat → Byte → List (List Byte)
  | 0, _, _ => ws
  | k + 1, i, rc =>
    let prev := ws.getD 0 []
    let old := ws.getD 7 []
    if i % 8 = 0 then
      let t := ((prev.drop 1) ++ prev.take 1).map (subByte sboxTable)
      aesWords (xorBytes old (xorBytes t [rc, 0, 0, 0]) :: ws) k (i + 1) (xtime rc)
    else if i % 8 = 4 then aesWords (xorBytes old (prev.map (subByte sboxTable)) :: ws) k (i + 1) rc
    else aesWords (xorBytes old prev :: ws) k (i + 1) rc

/-- The fifteen round keys of a 32-byte key. -/
def aesKeys (key : List Byte) : List (List Byte) :=
  let ws := (aesWords (chunks 4 8 key).reverse 52 8 1#8).reverse
  (chunks 4 15 ws).map List.flatten

/-- Column `c` of a state through a circulant matrix with first row `m`. -/
def mixColumn (m : List Byte) (col : List Byte) : List Byte :=
  (List.range 4).map (fun r =>
    ((List.range 4).map (fun i => gmul (col.getD i 0) (m.getD ((i + 4 - r) % 4) 0) 8)).foldl (· ^^^ ·) 0#8)

/-- Every column mixed. -/
def mixColumns (m s : List Byte) : List Byte := (chunks 4 4 s).flatMap (mixColumn m)

/-- Row `r` of the state shifted by `r` places, left when `d` is 1, right when it is 3. -/
def shiftRows (d : Nat) (s : List Byte) : List Byte :=
  (List.range 16).map (fun i => s.getD ((i + 4 * d * (i % 4)) % 16) 0)

/-- The rounds of encryption after the first key addition. -/
def aesEncRounds : List (List Byte) → List Byte → List Byte
  | [], s => s
  | [k], s => xorBytes (shiftRows 1 (s.map (subByte sboxTable))) k
  | k :: ks, s => aesEncRounds ks (xorBytes (mixColumns [2, 3, 1, 1] (shiftRows 1 (s.map (subByte sboxTable)))) k)

/-- AES-256 encryption of a 16-byte block under its round keys. -/
def aesEnc (ks : List (List Byte)) (b : List Byte) : List Byte :=
  match ks with
  | [] => b
  | k :: ks => aesEncRounds ks (xorBytes b k)

/-- The rounds of decryption after the first key addition, round keys newest first. -/
def aesDecRounds : List (List Byte) → List Byte → List Byte
  | [], s => s
  | [k], s => xorBytes ((shiftRows 3 s).map (subByte sboxInvTable)) k
  | k :: ks, s => aesDecRounds ks (mixColumns [14, 11, 13, 9] (xorBytes ((shiftRows 3 s).map (subByte sboxInvTable)) k))

/-- AES-256 decryption of a 16-byte block under its round keys. -/
def aesDec (ks : List (List Byte)) (b : List Byte) : List Byte :=
  match ks.reverse with
  | [] => b
  | k :: ks => aesDecRounds ks (xorBytes b k)

/-! ### GCM (SP 800-38D) with a 96-bit IV and a 128-bit tag -/

/-- A product in GCM's field over the bits of `x`, the most significant first. -/
def ghashMul (x : Nat) : Nat → Nat → Nat → Nat
  | 0, _, z => z
  | k + 1, v, z =>
    ghashMul x k (if v % 2 = 1 then Nat.xor (v / 2) (0xE1 * 2 ^ 120) else v / 2) (if bit x k then Nat.xor z v else z)

/-- GHASH over 16-byte blocks. -/
def ghash (h : Nat) (blocks : List (List Byte)) : Nat :=
  blocks.foldl (fun y b => ghashMul (Nat.xor y (beNat b)) 128 h 0) 0

/-- A byte string padded with zeros to whole 16-byte blocks. -/
def padBlocks (b : List Byte) : List (List Byte) :=
  let n := ceilDiv b.length 16
  chunks 16 n (b ++ zeros (16 * n - b.length))

/-- Counter mode from a counter value on. -/
def ctrMode (ks : List (List Byte)) (iv : List Byte) : Nat → Nat → List Byte → List Byte
  | 0, _, _ => []
  | n + 1, c, m => xorBytes (m.take 16) (aesEnc ks (iv ++ beBytes 4 c)) ++ ctrMode ks iv n (c + 1) (m.drop 16)

/-- The tag over additional data and ciphertext. -/
def gcmTag (ks : List (List Byte)) (iv aad ct : List Byte) : List Byte :=
  let h := beNat (aesEnc ks (zeros 16))
  let s := ghash h (padBlocks aad ++ padBlocks ct ++ [beBytes 8 (8 * aad.length) ++ beBytes 8 (8 * ct.length)])
  xorBytes (beBytes 16 s) (aesEnc ks (iv ++ beBytes 4 1))

/-- AES-256-GCM encryption: the ciphertext and the tag. -/
def gcmSeal (key iv aad pt : List Byte) : List Byte × List Byte :=
  let ks := aesKeys key
  let ct := ctrMode ks iv (ceilDiv pt.length 16) 2 pt
  (ct, gcmTag ks iv aad ct)

/-- AES-256-GCM decryption: none when the tag does not verify. -/
def gcmOpen (key iv aad ct tag : List Byte) : Option (List Byte) :=
  let ks := aesKeys key
  if gcmTag ks iv aad ct = tag then some (ctrMode ks iv (ceilDiv ct.length 16) 2 ct) else none

/-! ### XTS (IEEE 1619) over whole blocks -/

/-- A tweak times the primitive element. -/
def xtsNext (t : List Byte) : List Byte :=
  let n := 2 * leNat t
  leBytes 16 (if n < 2 ^ 128 then n else Nat.xor (n % 2 ^ 128) 0x87)

/-- The blocks of one sector. -/
def xtsBlocks (dec : Bool) (ks : List (List Byte)) : List (List Byte) → List Byte → List Byte
  | [], _ => []
  | b :: bs, t =>
    let x := xorBytes b t
    xorBytes (if dec then aesDec ks x else aesEnc ks x) t ++ xtsBlocks dec ks bs (xtsNext t)

/-- One 512-byte sector under data key and tweak key. -/
def xtsSector (dec : Bool) (key tweakKey : List Byte) (sector : Nat) (m : List Byte) : List Byte :=
  xtsBlocks dec (aesKeys key) (chunks 16 32 m) (aesEnc (aesKeys tweakKey) (leBytes 16 sector))

/-- Sectors numbered upward. -/
def xtsSectors (dec : Bool) (key tweakKey : List Byte) (sector : Nat) : List (List Byte) → List Byte
  | [] => []
  | m :: ms => xtsSector dec key tweakKey sector m ++ xtsSectors dec key tweakKey (sector + 1) ms

/-! ### P-384 (FIPS 186-5, SP 800-186) -/

/-- The field prime. -/
def p384P : Nat := 2 ^ 384 - 2 ^ 128 - 2 ^ 96 + 2 ^ 32 - 1
/-- The curve's constant. -/
def p384B : Nat := 0xb3312fa7e23ee7e4988e056be3f82d19181d9c6efe8141120314088f5013875ac656398d8a2ed19d2a85c8edd3ec2aef
/-- The group order. -/
def p384N : Nat := 0xffffffffffffffffffffffffffffffffffffffffffffffffc7634d81f4372ddf581a0db248b0a77aecec196accc52973
/-- The base point. -/
def p384G : Nat × Nat :=
  (0xaa87ca22be8b05378eb1c71ef320ad746e1d3b628ba79b9859f741e082542a385502f25dbf55296c3a545e3872760ab7,
   0x3617de4a96262c6f5d9e98bf9292dc29f8f41dbd289a147ce9da3113b5f0b8c00a60b1ce1d7e819d7a431d7c90ea0e5f)

/-- `b ^ e` modulo `m` over `k` bits of `e`. -/
def powMod (m : Nat) : Nat → Nat → Nat → Nat
  | 0, _, _ => 1
  | k + 1, b, e => (if e % 2 = 1 then b else 1) * powMod m k (b * b % m) (e / 2) % m

/-- The inverse modulo a prime of 384 bits. -/
def invMod (m a : Nat) : Nat := powMod m 384 (a % m) (m - 2)

/-- A point; none is the point at infinity. -/
abbrev Pt := Option (Nat × Nat)

/-- `a − b` in the field. -/
def fsub (a b : Nat) : Nat := (a + (p384P - b % p384P)) % p384P

/-- The point with the slope `l` through two points. -/
def chord (l : Nat) (x1 y1 x2 : Nat) : Pt :=
  let x := fsub (fsub (l * l % p384P) x1) x2
  some (x, fsub (l * fsub x1 x % p384P) y1)

/-- Sum of two points. -/
def ptAdd : Pt → Pt → Pt
  | none, q => q
  | p, none => p
  | some (x1, y1), some (x2, y2) =>
    if x1 = x2 then
      if (y1 + y2) % p384P = 0 then none
      else chord (fsub (3 * x1 * x1) 3 * invMod p384P (2 * y1) % p384P) x1 y1 x2
    else chord (fsub y2 y1 * invMod p384P (fsub x2 x1) % p384P) x1 y1 x2

/-- A multiple of a point over `k` bits. -/
def ptMul : Nat → Nat → Pt → Pt
  | 0, _, _ => none
  | k + 1, n, p => ptAdd (if n % 2 = 1 then p else none) (ptMul k (n / 2) (ptAdd p p))

/-- Whether coordinates name a point of the curve. -/
def onCurve (x y : Nat) : Bool :=
  decide (x < p384P) && decide (y < p384P) && y * y % p384P == (fsub (x * x * x) (3 * x) + p384B) % p384P

/-- ECDSA verification of a 48-byte hash: key X ‖ Y and signature r ‖ s, each number 48 bytes, most significant first. -/
def ecdsaVerify (key hash sig : List Byte) : Bool :=
  let x := beNat (key.take 48)
  let y := beNat (key.drop 48)
  let r := beNat (sig.take 48)
  let s := beNat ((sig.drop 48).take 48)
  if onCurve x y && decide (0 < r) && decide (r < p384N) && decide (0 < s) && decide (s < p384N) then
    let w := invMod p384N s
    let u1 := beNat hash * w % p384N
    let u2 := r * w % p384N
    match ptAdd (ptMul 384 u1 (some p384G)) (ptMul 384 u2 (some (x, y))) with
    | some (vx, _) => vx % p384N == r
    | none => false
  else false

/-- ECDSA signature of a 48-byte hash with private key `d` and per-signature number `k`: r ‖ s. -/
def ecdsaSign (d k : Nat) (hash : List Byte) : List Byte :=
  let r := match ptMul 384 k (some p384G) with | some (x, _) => x % p384N | none => 0
  let s := invMod p384N k * (beNat hash + r * d) % p384N
  beBytes 48 r ++ beBytes 48 s

/-- The public key X ‖ Y of a private key. -/
def publicKey (d : Nat) : List Byte :=
  match ptMul 384 d (some p384G) with
  | some (x, y) => beBytes 48 x ++ beBytes 48 y
  | none => zeros 96

/-- The X coordinate shared by a private key and a public point, for a point on the curve. -/
def ecdh (d : Nat) (key : List Byte) : Option (List Byte) :=
  let x := beNat (key.take 48)
  let y := beNat (key.drop 48)
  if onCurve x y then (ptMul 384 d (some (x, y))).map (fun q => beBytes 48 q.1) else none

end Sys2Proof.Machine
end

