-- ==== Sys2Proof/Machine/Access.lean ====
section
/-! DEFINITION. The internal address map and the access table (R373–R375, R390–R399): what each access meets, refusals,
entries, the table hash, and the bytes of memories as an initiator sees them (R146, R194, R195, R209, R360). -/

namespace Sys2Proof.Machine

/-! ### The map (R374) -/

/-- The kinds of access (R391). -/
inductive AccKind where
  | read | write | fetch
deriving DecidableEq, Repr

/-- Whether an internal address is reserved (R11, R374). -/
def addrReserved (a : Nat) : Bool :=
  (decide (0x80000 ≤ a) && decide (a < 0x100000)) || (decide (0x148000 ≤ a) && decide (a < 0x200000))
    || (decide (0x290000 ≤ a) && decide (a < 0x300000)) || (decide (0x380000 ≤ a) && decide (a < 0x400000))
    || decide (0x1000000 ≤ a)

/-- LIFECYCLE (R435). -/
def Hub.lifecycle (h : Hub) : Nat := h.get R.SEC_STATUS_LIFECYCLE

/-- Whether lifecycle permits scan test and shared-buffer writes: BLANK or RETURNED (R437). -/
def Hub.lcOpen (h : Hub) : Bool := h.lifecycle == 0 || h.lifecycle == 3

/-- Whether tun 8's windows show a failed tun's memories, read-only (R220). -/
def Hub.spareShown (h : Hub) : Bool := h.get R.TUNC_STATUS_SERVED != 15

/-- Whether a write to an address is barred for an initiator class (R146, R194, R220, R360). -/
def Hub.writeBarred (h : Hub) (cls a : Nat) : Bool :=
  (decide (0x100000 ≤ a) && decide (a < 0x148000))
    || (decide (0x280000 ≤ a) && decide (a < 0x290000) && h.spareShown)
    || (decide (0x400000 ≤ a) && decide (a < 0x800000))
    || (decide (0x800000 ≤ a) && !((cls == 5 || cls == 3) && h.lcOpen))

/-! ### The decision (R392) -/

/-- An entry of the table as a decision sees it: its index (region `r` as 64 + `r`), and its permission word. -/
structure AccEntry where
  idx : Nat
  perm : Nat
deriving DecidableEq, Repr

/-- PRIV_ONLY. -/
def AccEntry.privOnly (e : AccEntry) : Bool := bit e.perm 18
/-- LOCK. -/
def AccEntry.locked (e : AccEntry) : Bool := bit e.perm 31
/-- VALID. -/
def AccEntry.valid (e : AccEntry) : Bool := bit e.perm 30
/-- Whether the class may make the access. -/
def AccEntry.allows (e : AccEntry) (cls : Nat) (k : AccKind) : Bool :=
  bit e.perm (3 * cls + (match k with | .read => 0 | .write => 1 | .fetch => 2))

/-- Whether a region's base and size are legal (R391). -/
def regionLegal (base : Nat) : Bool :=
  let size := base % 32
  let b := base / 4096 * 4096
  decide (12 ≤ size) && decide (size ≤ 25) && b % 2 ^ size == 0 && decide (0x100000 ≤ b) && decide (b + 2 ^ size ≤ 0x2000000)

/-- Whether region `r` contains an address. -/
def Hub.regionHas (h : Hub) (r a : Nat) : Bool :=
  let v := (h.rd (A.ACC_REG_BASE r)).toNat
  let b := v / 4096 * 4096
  regionLegal v && decide (b ≤ a) && decide (a < b + 2 ^ (v % 32))

/-- The valid entries that contain an address (R392 order 3). -/
def Hub.entriesAt (h : Hub) (a : Nat) : List AccEntry :=
  let l := if a < 0x100000 then [AccEntry.mk (a / 0x4000) (h.rd (A.ACC_SLOT (a / 0x4000))).toNat]
    else ((List.range 32).filter (fun r => h.regionHas r a)).map
      (fun r => AccEntry.mk (64 + r) (h.rd (A.ACC_REG_PERM r)).toNat)
  l.filter AccEntry.valid

/-- How an access is decided. -/
inductive Decision where
  /-- allowed, with the CACHE and RELAXED attributes -/
  | ok (cache relaxed : Bool)
  /-- an error response -/
  | error
  /-- held while EN is 0 (R397) -/
  | held
  /-- refused, with ACC_DENY_INFO -/
  | refused (info : Nat)
deriving DecidableEq, Repr

/-- ACC_DENY_INFO of a refusal (R399). -/
def denyInfo (cls : Nat) (k : AccKind) (nomatch_ privonly locked : Bool) (idx : Nat) : Nat :=
  cls + b2n (k == .write) * 8 + b2n (k == .fetch) * 16 + b2n nomatch_ * 32 + b2n privonly * 64 + b2n locked * 128
    + idx * 256

/-- Whether a class is of the user kind (R390). -/
def userClass (cls : Nat) : Bool := cls == 1 || cls == 2 || cls == 4

/-- The decision (R392) (assumption 72, DEDUCED). -/
def Hub.decide_ (h : Hub) (cls : Nat) (k : AccKind) (a : Nat) : Decision :=
  let en := h.on R.ACC_CTRL_EN
  if addrReserved a || (k == .write && h.writeBarred cls a) then .error
  else if !en && !(cls == 5 || (cls == 0 && a / 0x4000 == 4)) then .held
  else
    let es := (h.entriesAt a).filter (fun e => (en && cls != 5) || e.locked)
    match es with
    | [] => if userClass cls then .refused (denyInfo cls k true false false 0) else .ok false false
    | _ =>
      match (if userClass cls then es.find? AccEntry.privOnly else none) with
      | some e => .refused (denyInfo cls k false true e.locked e.idx)
      | none =>
        match es.find? (fun e => !e.allows cls k) with
        | some e => .refused (denyInfo cls k false false e.locked e.idx)
        | none =>
          let region := decide (0x100000 ≤ a)
          .ok (region && es.all (fun e => bit e.perm 19)) (region && es.all (fun e => bit e.perm 20))

/-- A refusal is counted, recorded and logged once per second per class (R394). -/
def Hub.deny (h : Hub) (cls a info : Nat) : Hub :=
  let h := ((h.bump R.ACC_DENY_CNT).wr A.ACC_DENY_ADDR (W a)).wr A.ACC_DENY_INFO (W info)
  let h := if cls = 5 then h.bump R.ACC_DEBUG_DENY else h
  h.logLim 4 0x01 cls sevCT info a (h.get R.ACC_DENY_CNT)

/-- What became of an access: allowed, an error response, refused, or held. -/
inductive AccRes where
  | ok | error | refused | held
deriving DecidableEq, Repr

/-- The hub with access control's own state changed. -/
def Hub.onAcc (h : Hub) (f : AccState → AccState) : Hub := { h with acc := f h.acc }

/-- An access of an initiator other than a context is held (R397, R399). -/
def Hub.holdMark (h : Hub) : Hub := (h.put R.ACC_STATUS_HOLDING 1).onAcc (fun x => { x with other := true })

/-- A context's fetch is held (R397, R399) (assumption 72, DEDUCED). -/
def Hub.ctxHeld (h : Hub) (n : Nat) : Hub :=
  if h.acc.ctxs.contains n then h else h.onAcc (fun x => { x with ctxs := n :: x.ctxs })

/-- A register access is held at its initiator until EN returns to 1 (R397) (assumption 72, DEDUCED). -/
def Hub.holdLate (h : Hub) (x : LateAcc) : Hub := h.onAcc (fun a => { a with late := a.late ++ [x] })

/-- EN returns to 1: nothing is held any longer for it (R397). -/
def Hub.holdEnd (h : Hub) : Hub := (h.put R.ACC_STATUS_HOLDING 0).onAcc (fun x => { x with ctxs := [], other := false })

/-- ACC_STATUS.HOLDING (R399): while EN is 0 some access waits: a register access, one that a context has left, a fetch of a
context that is still RUNNING, or another initiator's (assumption 72, DEDUCED). -/
def Hub.holding (h : Hub) : Bool :=
  !h.on R.ACC_CTRL_EN && (h.acc.other || !h.acc.late.isEmpty || !h.tun.left.isEmpty
    || h.acc.ctxs.any (fun n => h.get (R.TUNC_CTX_STATUS_STATE n) == 2))

/-- An access is decided, a refusal or a hold leaving its marks (assumption 72, DEDUCED). -/
def Hub.access (h : Hub) (cls : Nat) (k : AccKind) (a : Nat) : Hub × AccRes :=
  match h.decide_ cls k a with
  | .ok _ _ => (h, .ok)
  | .error => (h, .error)
  | .held => (if cls = 2 then h.put R.ACC_STATUS_HOLDING 1 else h.holdMark, .held)
  | .refused info => (h.deny cls a info, .refused)

/-- The places of a range at which its decision can change: its start and every 4 KiB boundary in it (R382). -/
def pagesOf (a n : Nat) : List Nat :=
  if n = 0 then [] else (List.range ((a + n - 1) / 4096 - a / 4096 + 1)).map (fun i => max a ((a / 4096 + i) * 4096))

/-- An access to a range: the first of its pages that is not allowed settles it. -/
def Hub.accessAll (h : Hub) (cls : Nat) (k : AccKind) : List Nat → Hub × AccRes
  | [] => (h, .ok)
  | a :: rest =>
    match h.access cls k a with
    | (h, .ok) => h.accessAll cls k rest
    | r => r

/-- An access to `n` bytes; a read corrects the single-bit errors it meets (R145, R195). -/
def Hub.accessRange (h : Hub) (cls : Nat) (k : AccKind) (a n : Nat) : Hub × AccRes :=
  match h.accessAll cls k (pagesOf a n) with
  | (h, .ok) => if k = .write then (h, .ok) else (h.corrected a n, .ok)
  | r => r

/-! ### Bytes of memories -/

/-- The stored packet that owns a cell and the cell's place in it. -/
def Hub.cellOwner (h : Hub) (c : Nat) : Option (Nat × Stored × Nat) :=
  (h.fab.pkts.findSome? (fun e => match e.2.cells.idxOf? c with | some i => some (e.1, e.2, i) | none => none))

/-- A byte as the bus reads it: a cell in use gives its packet's bytes (R146). -/
def Hub.busByte (h : Hub) (a : Nat) : Byte :=
  if 0x800000 ≤ a ∧ a < 0x1000000 then
    match h.cellOwner ((a - 0x800000) / 64) with
    | some (_, s, i) =>
      let o := 64 * i + (a - 0x800000) % 64
      let bs := s.bytes
      if o < bs.length then bs.getD o 0 else h.mrd a
    | none => h.mrd a
  else h.mrd a

/-- A byte written to a cell in use changes its packet (R146); what no field of the packet holds, its LENGTH and reserved
bits, stays in the cell as written, while the descriptor keeps the packet's size (R147). -/
def Stored.patch (s : Stored) (o : Nat) (b : Byte) : Stored :=
  let bs := s.bytes.set o b
  match Packet.parse? (wordsOf bs) with
  | some (p, _) =>
    { s with pkt := p, raw := ((p.bytes.zip bs).zipIdx.filter (fun e => e.1.1 != e.1.2)).map (fun e => (e.2, e.1.2)) }
  | none => s

/-- Whether a 64-bit word is marked uncorrectable (R195) (assumption 55, DEDUCED). -/
def Hub.badWord (h : Hub) (a : Nat) : Bool := h.tun.bad.contains (a / 8)

/-- Whether any byte of a range is uncorrectable. -/
def Hub.badRange (h : Hub) (a n : Nat) : Bool := h.tun.bad.any (fun w => decide (a < 8 * w + 8) && decide (8 * w < a + n))

/-- Bytes of a range as the bus reads them. -/
def Hub.busBytes (h : Hub) (a n : Nat) : List Byte := (List.range n).map (fun i => h.busByte (a + i))

/-- Internal address of a tun's program memory (R193). -/
def progBase (t : Nat) : Nat := 0x100000 + 0x8000 * t
/-- Internal address of a tun's data memory. -/
def dataBase (t : Nat) : Nat := 0x200000 + 0x10000 * t

/-- The image in common memory that a pitch reads: its start and length (R206, R209). -/
def Pitching.range (p : Pitching) : Nat × Nat := (p.src, 160 + p.codeBytes + p.initBytes)

/-- Internal address of a context address in the data window's space or common memory (R196). -/
def ctxMem (t a : Nat) : Nat := if a < 0x10000 then dataBase t + a else a + 0x200000

/-- A number of a parameter block. -/
def AsyncOp.word (o : AsyncOp) (i : Nat) : Nat := (o.block.getD i 0).toNat

/-- Bytes that a SEAL reads at SRC and writes at DST (R281): OP 0 seal, 1 open, 2 HMAC, 3 XTS. -/
def sealSizes (op len : Nat) : Nat × Nat :=
  match op with
  | 0 => (len, len + 16)
  | 1 => (len + 16, len)
  | 2 => (len, 48)
  | _ => (len, len)

/-- A range of `n` bytes at a context address, by internal address, where it lies wholly in a tun's data memory or in common
memory (R196, R281). -/
def ctxRange (t a n : Nat) : Option (Nat × Nat) :=
  if a + n ≤ 0x10000 ∨ (0x100000 ≤ a ∧ a + n ≤ 0x180000) then some (ctxMem t a, n) else none

/-- SRC and DST ranges of a SEAL in flight, while they and its LEN are legal ones (R281). -/
def AsyncOp.ranges (o : AsyncOp) : List (Nat × Nat) :=
  if o.kind = .seal ∧ o.word 4 ≤ 4096 then
    let z := sealSizes (o.word 0 % 4) (o.word 4)
    (ctxRange (o.ctx / 12) (o.word 2) z.1).toList ++ (ctxRange (o.ctx / 12) (o.word 3) z.2).toList
  else []

/-- Whether writes to an address by other initiators are held now (R209, R219, R281). -/
def Hub.writeHeld (h : Hub) (a : Nat) : Bool :=
  (match h.tun.pitch with | some p => decide (p.src ≤ a) && decide (a < p.src + p.range.2) | none => false)
    || (match h.tun.moving with | some t => decide (dataBase t ≤ a) && decide (a < dataBase t + 0x10000) | none => false)
    || h.tun.ops.any (fun o => o.ranges.any (fun r => decide (r.1 ≤ a) && decide (a < r.1 + r.2)))

/-- Whether writes to any byte of a range are held now. -/
def Hub.rangeHeld (h : Hub) (a n : Nat) : Bool := (List.range n).any (fun i => h.writeHeld (a + i))

/-- A byte stored in memory. -/
def Hub.busPoke (h : Hub) (a : Nat) (b : Byte) : Hub :=
  if 0x800000 ≤ a ∧ a < 0x1000000 then
    match h.cellOwner ((a - 0x800000) / 64) with
    | some (pid, s, i) =>
      let o := 64 * i + (a - 0x800000) % 64
      if o < s.bytes.length then h.onFab (fun f => { f with pkts := KMap.put f.pkts pid (s.patch o b) }) else h.mwr a b
    | none => h.mwr a b
  else h.mwr a b

/-- A byte written by an initiator: stored, or held until its range is free. -/
def Hub.busWrite (h : Hub) (a : Nat) (b : Byte) : Hub :=
  if h.writeHeld a then { h with acc := { h.acc with held := h.acc.held ++ [(a, b)] } } else h.busPoke a b

/-- Bytes written by an initiator from an address on. -/
def Hub.busStore (h : Hub) (a : Nat) : List Byte → Hub
  | [] => h
  | b :: rest => (h.busWrite a b).busStore (a + 1) rest

/-- Writes whose range has become free are applied in order (R209, R219, R281). -/
def Hub.releaseWrites (h : Hub) : Hub :=
  let ws := h.acc.held
  ws.foldl (fun h w => h.busWrite w.1 w.2) { h with acc := { h.acc with held := [] } }

/-! ### The table (R395–R397) -/

/-- ACC_DISABLE (R397) (assumption 72, DEDUCED). -/
def Hub.accDisable (h : Hub) : Hub := h.put R.ACC_CTRL_EN 0

/-- ACC_ENABLE (R396, R397): held accesses go on and the table is hashed (assumption 72, DEDUCED). -/
def Hub.accEnable (h : Hub) : Hub :=
  if h.on R.ACC_CTRL_EN then h
  else
    let h := (h.put R.ACC_CTRL_EN 1).holdEnd
    { h with acc := { h.acc with hashDue := true } }

/-- The 128 words of the table in offset order, as bytes (R396). -/
def Hub.tableBytes (h : Hub) : List Byte := (List.range 128).flatMap (fun i => wordBytes (h.rd (A.ACC_SLOT 0 + 4 * i)))

/-- Bytes written to consecutive register words. -/
def Hub.wrBytes (h : Hub) (a : Nat) (bs : List Byte) : Hub :=
  ((wordsOf bs).zipIdx).foldl (fun h e => h.wr (a + 4 * e.2) e.1) h

/-- ACC_HASH_READY (R396). -/
def Hub.accHashReady (h : Hub) : Hub :=
  if h.acc.hashDue then
    let h := (h.wrBytes (A.ACC_HASH 0) (sha384 h.tableBytes)).put R.ACC_STATUS_HASH_VALID 1
    { h with acc := { h.acc with hashDue := false } }
  else h

/-- ACC_STATUS.BAD_WRITE is set (R395). -/
def Hub.accBad (h : Hub) : Hub := h.put R.ACC_STATUS_BAD_WRITE 1

/-- An entry word is applied and HASH_VALID falls (R396). -/
def Hub.accApply (h : Hub) (a v : Nat) : Hub :=
  let h := (h.wr a (W v)).put R.ACC_STATUS_HASH_VALID 0
  { h with acc := { h.acc with hashDue := false } }

/-- The bits of a slot entry, and of a region's permission word, that exist (R399). -/
def slotBits (v : Nat) : Nat := v % 2 ^ 19 + v / 2 ^ 30 % 4 * 2 ^ 30
/-- As `slotBits`, with CACHE and RELAXED. -/
def permBits (v : Nat) : Nat := v % 2 ^ 21 + v / 2 ^ 30 % 4 * 2 ^ 30

/-- ACC_ENTRY_WRITE (R395): word `i` of the table: 0–63 slot entries, then BASE and PERM of each region. -/
def Hub.accEntryWrite (h : Hub) (i v : Nat) : Hub :=
  if i < 64 then
    if 32 ≤ i then h
    else if h.on R.ACC_CTRL_EN || bit (h.rd (A.ACC_SLOT i)).toNat 31 then h.accBad
    else h.accApply (A.ACC_SLOT i) (slotBits v)
  else
    let r := (i - 64) / 2
    if h.on R.ACC_CTRL_EN || bit (h.rd (A.ACC_REG_PERM r)).toNat 31 then h.accBad
    else if (i - 64) % 2 = 0 then
      if regionLegal v then h.accApply (A.ACC_REG_BASE r) (v / 4096 * 4096 + v % 32) else h.accBad
    else if bit v 30 && !regionLegal (h.rd (A.ACC_REG_BASE r)).toNat then h.accBad
    else h.accApply (A.ACC_REG_PERM r) (permBits v)

/-- ACC_LONG_HOLD (R397). -/
def Hub.accLongHold (h : Hub) : Hub :=
  if h.on R.ACC_CTRL_EN then h
  else (h.put R.ACC_STATUS_LONG_HOLD 1).log 4 0x02 sevCT (h.rd A.ACC_DENY_INFO).toNat (h.rd A.ACC_DENY_ADDR).toNat 0

/-- ACC_COUNTER_CLEAR (R399). -/
def Hub.accClear (h : Hub) : Hub := h.wr A.ACC_DENY_CNT 0

/-! ### The rows of the table -/

/-- ACC_DISABLE (R397). -/
def execAccDisable (s : State) : Result := s.upd (fun h => h.accDisable)

/-- ACC_HASH_READY (R396). -/
def execAccHashReady (s : State) : Result := s.upd (fun h => h.accHashReady)

/-- ACC_ENTRY_WRITE (R395). -/
def execAccEntryWrite (entry : Fin 128) (value : Word) (s : State) : Result :=
  s.upd (fun h => h.accEntryWrite entry value.toNat)

/-- ACC_LONG_HOLD (R397). -/
def execAccLongHold (s : State) : Result := s.upd (fun h => h.accLongHold)

/-- ACC_COUNTER_CLEAR (R399). -/
def execAccCounterClear (s : State) : Result := s.upd (fun h => h.accClear)

end Sys2Proof.Machine
end

