-- ==== Sys2Proof/Machine/Tun.lean ====
section
/-! DEFINITION. The tuns around their instructions (chapter 07): bindings, pitching, traps, stops and doorbells, and
takeover by the spare. -/

namespace Sys2Proof.Machine

/-! ### Context states and results -/

abbrev cxEmpty : Nat := 0
abbrev cxLoading : Nat := 1
abbrev cxRunning : Nat := 2
abbrev cxWaiting : Nat := 3
abbrev cxHalted : Nat := 4
abbrev cxTrapped : Nat := 5
abbrev cxMoving : Nat := 6

/-- A context put in a state (R214). -/
def Hub.setCtxState (h : Hub) (n st : Nat) : Hub := h.put (R.TUNC_CTX_STATUS_STATE n) st

/-- The 14-bit ID of a local tunnel; the hub address reads 127 while there is none
(assumption 45, DESIGN CHOICE; 53, DEDUCED). -/
def Hub.ownTid (h : Hub) (n : Nat) : Nat := (h.addr * 128 + n) % 16384

/-- The tunnel ID a sparge of a local tunnel names; none that a packet can carry while the hub has no address
(assumption 45, DESIGN CHOICE; 53, DEDUCED). -/
def Hub.spargeTid (h : Hub) (n : Nat) : Nat := if h.hasAddr then h.ownTid n else 16384

/-- The context indices of a tun (R190). -/
def ctxsOf (t : Nat) : List Nat := (List.range 12).map (fun c => 12 * t + c)

/-- Whether a tun's role is served: it has not failed, or tun 8 holds its role and has not failed. -/
def Hub.tunServed (h : Hub) (t : Nat) : Bool :=
  !bit (h.get R.TUNC_STATUS_FAILED) t
    || (h.get R.TUNC_STATUS_SERVED == t && !bit (h.get R.TUNC_STATUS_FAILED) 8)

/-! ### Bindings (R203–R205) -/

/-- Whether an ENDPOINT code is listed (R204). -/
def endpointListed (e : Nat) : Bool :=
  decide (e ≤ 11) || e == 0x10 || (decide (0x18 ≤ e) && decide (e ≤ 0x23)) || (decide (0x28 ≤ e) && decide (e ≤ 0x2B))

/-- Whether ARG is a reserved encoding for an ENDPOINT (R204). -/
def argReserved (e arg : Nat) : Bool :=
  if 8 ≤ e ∧ e ≤ 11 then decide (7 < arg) else if e = 0x10 then arg == 0 else arg != 0

/-- Whether a request holds a reserved encoding (R203 check 2, R204). -/
def bindReserved (b : Nat) : Bool :=
  let e := slice b 4 6
  let arg := slice b 10 8
  slice b 0 2 == 3 || !endpointListed e
    || argReserved e arg

/-- Whether endpoint, class and mode are permitted for a tunnel other than 0 (R31, R204). Class bits: 1 P, 2 M, 4 D,
8 B. -/
def bindPermitted (b : Nat) : Bool :=
  let mode := slice b 0 2
  let cls := slice b 2 2
  let e := slice b 4 6
  let classes :=
    if e = 0 then 15 else if 2 ≤ e ∧ e ≤ 7 then 4 else if 8 ≤ e ∧ e ≤ 11 then 13 else if e = 0x10 then 10
    else if 0x18 ≤ e ∧ e ≤ 0x23 then (if (e - 0x18) % 3 = 0 then 2 else if (e - 0x18) % 3 = 1 then 4 else 8)
    else if e = 0x28 then 8 else if e = 0x29 then 2 else if e = 0x2A ∨ e = 0x2B then 3 else 0
  let direct := decide (2 ≤ e ∧ e ≤ 11) || e == 0x10 || decide (0x18 ≤ e ∧ e ≤ 0x23) || e == 0x2A || e == 0x2B
  let program := e == 0 || decide (2 ≤ e ∧ e ≤ 11) || e == 0x10 || decide (0x28 ≤ e ∧ e ≤ 0x2B)
  mode == 0 || (bit classes cls && (if mode = 1 then direct else program))

/-- Whether two bindings hold a common endpoint instance (R205). -/
def sameInstance (a b : Nat) : Bool :=
  let e := slice a 4 6
  slice a 0 2 != 0 && slice b 0 2 != 0 && e == slice b 4 6 && e != 0
    && (if 8 ≤ e ∧ e ≤ 11 then slice a 10 8 == slice b 10 8
        else if e = 0x10 then Nat.land (slice a 10 8) (slice b 10 8) != 0 else true)

/-- The requests that are applied and still pending. -/
def Hub.pendingBinds (h : Hub) : List (Nat × Nat) :=
  ((h.fab.sparge.toList ++ h.fab.spargeWait).filterMap Sparge.bind).map (fun c => (c.tunnel, c.binding))

/-- Whether another tunnel holds an instance of a binding (R205). -/
def Hub.instanceTaken (h : Hub) (n b : Nat) : Bool :=
  (List.range 96).any (fun m => m != n && sameInstance (h.bindingShown m) b)
    || h.pendingBinds.any (fun r => r.1 != n && sameInstance r.2 b)

/-- RESULT of a binding request (R203) (assumption 54, DEDUCED). -/
def Hub.bindResult (h : Hub) (n b : Nat) : Nat :=
  if n = 0 then 2
  else if bindReserved b then 7
  else if h.on (R.TUNC_BOUND_PENDING n) then 6
  else if h.ctxState n ≠ cxEmpty then 5
  else if !bindPermitted b then 3
  else if h.instanceTaken n b then 4
  else 1

/-- The fields of TUNC_BIND_REQ as written; reserved encodings do not enter them (R12). ARG is judged by the
ENDPOINT that the register then holds. -/
def Hub.bindFields (h : Hub) (n b : Nat) : Hub :=
  let h := if slice b 0 2 = 3 then h else h.put (R.TUNC_BIND_REQ_MODE n) (slice b 0 2)
  let h := h.put (R.TUNC_BIND_REQ_CLASS n) (slice b 2 2)
  let h := if endpointListed (slice b 4 6) then h.put (R.TUNC_BIND_REQ_ENDPOINT n) (slice b 4 6) else h
  if argReserved (h.get (R.TUNC_BIND_REQ_ENDPOINT n)) (slice b 10 8) then h else h.put (R.TUNC_BIND_REQ_ARG n) (slice b 10 8)

/-- BIND_REQUEST (R203): TUNC_BIND_REQ of tunnel `n` written with GO. -/
def Hub.bindRequest (h : Hub) (n b : Nat) : Hub :=
  let h := h.bindFields n b
  let r := h.bindResult n b
  let h := h.put (R.TUNC_BOUND_RESULT n) r
  if r = 1 then
    (h.put (R.TUNC_BOUND_PENDING n) 1).impliedSparge (h.spargeTid n) (some ⟨n, b, h.localOut n, false⟩)
  else h

/-- TUNC_BOUND_*n* shows a binding, which is no longer pending (R203). -/
def Hub.bindApply (h : Hub) (n b : Nat) : Hub := (h.put (R.TUNC_BOUND_BINDING n) b).put (R.TUNC_BOUND_PENDING n) 0

/-- SPARGE_COMPLETE (R161): every output has passed its boundary; the binding it implied is in force, and the next
sparge starts (assumption 44, DESIGN CHOICE). -/
def Hub.spargeComplete (h : Hub) : Hub :=
  match h.fab.sparge with
  | some s =>
    if s.pending.isEmpty then
      let h := (h.onFab (fun f => { f with sparge := none })).put R.FAB_SPARGE_BUSY 0
      let h := match s.bind with
        | some c => (if c.switched then h else h.bindStart c.tunnel c.binding).bindApply c.tunnel c.binding
        | none => h
      match h.fab.spargeWait with
      | [] => h
      | w :: ws => (h.onFab (fun f => { f with spargeWait := ws })).startSparge w
    else h
  | none => h

/-! ### Packets and operations of a context (R215) -/

/-- A held packet's descriptor is released, counted under cause 0x7 of output 13. -/
def Hub.dropHeld (h : Hub) (n : Nat) (x : Held) : Hub :=
  let c := match h.pkt? x.pid with | some p => p.cls | none => .M
  (h.count 13 n c 7).release x.pid

/-- Every packet a context holds is released (R215). -/
def Hub.dropAllHeld (h : Hub) (n : Nat) : Hub :=
  let xs := (h.ctx n).held
  let h := h.setCtx n { h.ctx n with d0 := none, d1 := none, d2 := none, d3 := none }
  xs.foldl (fun h x => h.dropHeld n x) h

/-- A context leaves the register-window access on which it is stalled: the access still completes (R244)
(assumption 126, DEDUCED). -/
def Hub.leaveWin (h : Hub) (n : Nat) : Hub :=
  match (h.ctx n).win with
  | some w =>
    let h := h.setCtx n { h.ctx n with win := none }
    { h with tun := { h.tun with left := h.tun.left ++ [w] } }
  | none => h

/-- The results of a context's operations in flight will be discarded (R215), and it leaves its window access (R244). -/
def Hub.orphanOps (h : Hub) (n : Nat) : Hub :=
  let ops : List AsyncOp := h.tun.ops.map (fun o => if o.ctx = n then { o with live := false } else o)
  { h with tun := { h.tun with ops := ops } }.leaveWin n

/-! ### Entry, trap, restart, stop (R199, R214–R217) -/

/-- A context's registers at entry (R199). An armed TARM timer and a TNOW sample are cleared too, which the rule's list does not
name (assumption 142, DESIGN CHOICE). -/
def Hub.enterCtx (h : Hub) (n : Nat) : Hub :=
  let g := SMap.set (fun _ => 0#32) [] 1 (W (h.ownTid n))
  let g := SMap.set (fun _ => 0#32) g 2 (W (h.get (R.TUNC_CTX_DATA_BASE n) * 64))
  let g := SMap.set (fun _ => 0#32) g 3 (W (h.get (R.TUNC_CTX_DATA_SIZE n) * 64))
  let x := h.ctx n
  let x := { Ctx.empty with
    g := g, pc := h.get (R.TUNC_CTX_CODE_BASE n) + x.entry, entry := x.entry, shareable := x.shareable,
    wdogAt := h.root, restartCause := x.restartCause }
  (h.setCtx n x).setCtxState n cxRunning

/-- A trap (R215, R216): cause, instruction and address are recorded and logged, packets released, and the tunnel
handled by TRAP_ACTION. -/
def Hub.trap (h : Hub) (n cause pc addr : Nat) : Hub :=
  let h := ((h.put (R.TUNC_CTX_STATUS_CAUSE n) cause).put (R.TUNC_CTX_STATUS_TRAPPED_FLAG n) 1).setCtxState n cxTrapped
  let h := (h.wr (A.TUNC_CTX_PC n) (W (pc % 8192))).wr (A.TUNC_CTX_ADDR n) (W addr)
  let h := ((h.log 13 0x01 sevCT n cause 0).dropAllHeld n).orphanOps n
  let action := h.get (R.TUNC_CTX_CFG_TRAP_ACTION n)
  if action = 0 then h
  else if action = 2 ∧ cause ≠ 0xB ∧ h.get (R.TUNC_CTX_STATUS_RESTARTS n) < h.get (R.TUNC_CTX_CFG_RESTART_MAX n) then
    h.setCtx n { h.ctx n with restart := true, restartCause := cause }
  else (h.impliedSparge (h.spargeTid n) none).setCtx n { h.ctx n with discard := true }

/-- CONTEXT_RESTART (R216). -/
def Hub.contextRestart (h : Hub) (n : Nat) : Hub :=
  if (h.ctx n).restart && h.ctxState n == cxTrapped then
    ((h.impliedSparge (h.spargeTid n) none).bump (R.TUNC_CTX_STATUS_RESTARTS n)).enterCtx n
  else h

/-- WATCHDOG_EXPIRE (R202, R228 order 1). -/
def Hub.watchdogExpire (h : Hub) (n : Nat) : Hub :=
  if h.ctxState n = cxRunning ∧ h.get R.TUNC_WDOG_LIMIT ≠ 0 then h.trap n 0xA (h.ctx n).pc 0 else h

/-- A context's windows and measurement are given up and it is EMPTY (R210, R217). -/
def Hub.emptyCtx (h : Hub) (n : Nat) : Hub :=
  let h := (h.wr (A.TUNC_CTX_CODE n) 0).wr (A.TUNC_CTX_DATA n) 0
  let h := (h.clearRange (A.TUNC_MEAS n 0) (A.TUNC_MEAS n 11)).wr (A.TUNC_MEAS_INFO n) 0
  (h.setCtx n { Ctx.empty with events := (h.ctx n).events }).setCtxState n cxEmpty

/-- A context is stopped (R217). A LOADING context leaves only by its pitch (R214) (assumption 42, DEDUCED). -/
def Hub.stopCtx (h : Hub) (n : Nat) : Hub :=
  let st := h.ctxState n
  if st = cxEmpty ∨ st = cxLoading then h
  else if st = cxMoving then h.setCtx n { h.ctx n with stopLater := true }
  else ((h.dropAllHeld n).orphanOps n).emptyCtx n

/-- CONTEXT_STOP (R217). -/
def Hub.contextStop (h : Hub) (n : Nat) : Hub :=
  let h := h.put R.TUNC_STOP_TUNNEL n
  if n < 96 then h.stopCtx n else h

/-- Every context is stopped (R211). -/
def Hub.stopAll (h : Hub) : Hub := (List.range 96).foldl Hub.stopCtx h

/-- DOORBELL (R200): MAIL, applied after a takeover in progress. -/
def Hub.doorbell (h : Hub) (n : Nat) : Hub :=
  if n < 96 then
    if h.ctxState n = cxMoving then h.setCtx n { h.ctx n with mailLater := true } else h.latchEvent evMail n
  else h

/-! ### Pitching (R206–R213) -/

/-- The header fields of a pitch image (R206). -/
structure ImageHead where
  magic : Nat
  format : Nat
  flags : Nat
  codeBytes : Nat
  initBytes : Nat
  dataBytes : Nat
  entry : Nat
  key : Nat
  endpoint : Nat
  classes : Nat
  behaviour : Nat
  zero : Bool
deriving DecidableEq, Repr

/-- The header read from an image's address (R206). -/
def Hub.imageHead (h : Hub) (src : Nat) : ImageHead :=
  let w := fun o => (h.mword (src + o)).toNat
  let b := fun o => (h.mrd (src + o)).toNat
  { magic := w 0, format := w 4 % 65536, flags := w 4 / 65536, codeBytes := w 8, initBytes := w 0xC, dataBytes := w 0x10,
    entry := w 0x14, key := b 0x18, endpoint := b 0x19, classes := b 0x1A, behaviour := w 0x20,
    zero := (h.mbytes (src + 0x1B) 5).all (· == 0#8) && (h.mbytes (src + 0x24) 28).all (· == 0#8) }

/-- The image's length. -/
def ImageHead.total (x : ImageHead) : Nat := 64 + x.codeBytes + x.initBytes + 96

/-- Whether MAGIC, FORMAT, the zero fields and the size rules hold (R206). -/
def ImageHead.wellFormed (x : ImageHead) : Bool :=
  x.magic == 0x54534C43 && x.format == 1 && decide (x.flags < 4) && x.zero
    && decide (4 ≤ x.codeBytes) && decide (x.codeBytes ≤ 32768) && x.codeBytes % 4 == 0
    && decide (x.initBytes ≤ 65536) && x.initBytes % 4 == 0
    && decide (64 ≤ x.dataBytes) && decide (x.dataBytes ≤ 65536) && x.dataBytes % 64 == 0
    && decide (x.initBytes ≤ x.dataBytes) && decide (x.entry < x.codeBytes / 4) && decide (x.key < 4)
    && decide (0 < x.classes) && decide (x.classes < 16)

/-- The program hash: SHA-384 of every byte up to the signature (R206). -/
def Hub.imageHash (h : Hub) (src : Nat) (x : ImageHead) : List Byte := sha384 (h.mbytes src (x.total - 96))

/-- An owner program key (R433), kept at 96-byte steps of the security store. -/
def Hub.pkey (h : Hub) (k : Nat) : List Byte := h.sec.pkeys.getD k []

/-- Whether the signature of an image verifies under its key (R207 check 13). -/
def Hub.imageSigned (h : Hub) (src : Nat) (x : ImageHead) : Bool :=
  ecdsaVerify (h.pkey x.key) (h.imageHash src x) (h.mbytes (src + x.total - 96) 96)

/-- A recorded program hash. -/
def Hub.measured (h : Hub) (n : Nat) : List Byte := (List.range 12).flatMap (fun k => wordBytes (h.rd (A.TUNC_MEAS n k)))

/-- Whether two ranges overlap. -/
def overlap (a n b m : Nat) : Bool := decide (a < b + m) && decide (b < a + n) && n != 0 && m != 0

/-- A context's code window: base and size in instructions. -/
def Hub.codeWin (h : Hub) (n : Nat) : Nat × Nat := (h.get (R.TUNC_CTX_CODE_BASE n), h.get (R.TUNC_CTX_CODE_SIZE n))

/-- A context's data window: base and size in 64-byte units. -/
def Hub.dataWin (h : Hub) (n : Nat) : Nat × Nat := (h.get (R.TUNC_CTX_DATA_BASE n), h.get (R.TUNC_CTX_DATA_SIZE n))

/-- The other contexts of the tun that are not EMPTY. -/
def Hub.peers (h : Hub) (n : Nat) : List Nat := (ctxsOf (n / 12)).filter (fun m => m != n && h.ctxState m != cxEmpty)

/-- What check 5 finds of the image in common memory (R207): `none` while the access is held. -/
def Hub.sourceOk (h : Hub) (src total : Nat) : Hub × Option Bool :=
  if src % 64 ≠ 0 ∨ src < 0x300000 ∨ 0x380000 < src + total ∨ h.badRange src total = true then (h, some false)
  else
    match h.accessRange 4 .read src total with
    | (h, .ok) => (h, some true)
    | (h, .held) => (h, none)
    | (h, _) => (h, some false)

/-- Checks 6 to 13 of R207 but the signature, which R209 completes later: the RESULT of the first failure. `cold`
adds the COLD_OK rule of R212. -/
def Hub.pitchChecks (h : Hub) (n : Nat) (share : Bool) (src code data : Nat) (cold : Bool) : Option Nat :=
  let x := h.imageHead src
  let bound := h.bindingShown n
  if !x.wellFormed then some 3
  else if h.get (word A.DEV_BEHAVIOUR) < x.behaviour then some 0xD
  else if cold && !bit x.flags 0 then some 0xE
  else if slice bound 0 2 ≠ 2 ∨ (x.endpoint ≠ 0xFF ∧ x.endpoint ≠ slice bound 4 6) ∨ bit x.classes (slice bound 2 2) = false then
    some 7
  else if 8192 < code + x.codeBytes / 4 ∨ 65536 < data * 64 + x.dataBytes then some 0xA
  else if (!share && (h.peers n).any (fun m => overlap code (x.codeBytes / 4) (h.codeWin m).1 (h.codeWin m).2))
      || (h.peers n).any (fun m => overlap data (x.dataBytes / 64) (h.dataWin m).1 (h.dataWin m).2) then some 9
  else if share && !(h.peers n).any (fun m => h.codeWin m == (code, x.codeBytes / 4) && (h.ctx m).shareable
      && h.on (R.TUNC_MEAS_INFO_VALID m) && h.measured m == h.imageHash src x) then some 0xB
  else if h.lifecycle = 2 ∧ bit (h.get R.SEC_STATUS_PKEYS) x.key = false then some 5
  else none

/-- Checks 2 to 4 of R207. -/
def Hub.pitchPre (h : Hub) (n : Nat) : Option Nat :=
  if h.lifecycle = 3 ∨ h.lifecycle = 4 then some 6
  else if 96 ≤ n ∨ h.tunServed (n / 12) = false then some 0xF
  else if [cxLoading, cxRunning, cxWaiting, cxMoving].contains (h.ctxState n) then some 8
  else none

/-- A pitch records its RESULT. -/
def Hub.pitchResult (h : Hub) (n r : Nat) : Hub := (h.put R.TUNC_PITCH_STATUS_RESULT r).put R.TUNC_PITCH_STATUS_TUNNEL n

/-- The context enters LOADING with its new windows (R209). -/
def Hub.pitchStart (h : Hub) (n : Nat) (share : Bool) (src code data : Nat) (cold : Option Nat) : Hub :=
  let x := h.imageHead src
  let h := (h.put R.TUNC_PITCH_STATUS_BUSY 1).setCtxState n cxLoading
  let h := h.wr (A.TUNC_CTX_CODE n) (W (code + x.codeBytes / 4 * 65536))
  let h := h.wr (A.TUNC_CTX_DATA n) (W (data + x.dataBytes / 64 * 65536))
  let p : Pitching :=
    { tunnel := n, share := share, src := src, codeBase := code, dataBase := data, codeBytes := x.codeBytes,
      initBytes := x.initBytes, dataBytes := x.dataBytes, entry := x.entry, key := x.key, signed := h.lifecycle == 2,
      shareable := bit x.flags 1, cold := cold }
  { h with tun := { h.tun with pitch := some p } }

/-- A pitch is decided by checks 2 to 12 (R207); one whose source read is held waits, BUSY (R397). -/
def Hub.pitchDecide (h : Hub) (q : PitchReq) : Hub :=
  match h.pitchPre q.tunnel with
  | some r => h.pitchResult q.tunnel r
  | none =>
    match h.sourceOk q.src (max 160 (h.imageHead q.src).total) with
    | (h, none) => { h with tun := { h.tun with pitchWait := some q } }.put R.TUNC_PITCH_STATUS_BUSY 1
    | (h, some false) => h.pitchResult q.tunnel 0xC
    | (h, some true) =>
      match h.pitchChecks q.tunnel q.share q.src q.codeBase q.dataBase false with
      | some r => h.pitchResult q.tunnel r
      | none => h.pitchStart q.tunnel q.share q.src q.codeBase q.dataBase none

/-- PITCH (R207): TUNC_PITCH_CTRL written with GO (assumption 44, DESIGN CHOICE; 54, DEDUCED). -/
def Hub.pitch (h : Hub) (n : Nat) (share : Bool) : Hub :=
  let h := (h.put R.TUNC_PITCH_CTRL_TUNNEL n).put R.TUNC_PITCH_CTRL_MODE (b2n share)
  if h.on R.TUNC_PITCH_STATUS_BUSY then h.put R.TUNC_PITCH_STATUS_RESULT 2
  else h.pitchDecide ⟨n, share, (h.rd A.TUNC_PITCH_SRC).toNat, h.get R.TUNC_PITCH_BASE_CODE_BASE,
    h.get R.TUNC_PITCH_BASE_DATA_BASE⟩

/-- A pitch that waited for the access table is decided again as EN returns to 1 (R397). -/
def Hub.pitchResume (h : Hub) : Hub :=
  match h.tun.pitchWait with
  | some q => ({ h with tun := { h.tun with pitchWait := none } }.put R.TUNC_PITCH_STATUS_BUSY 0).pitchDecide q
  | none => h

/-- Zeros stored over a range of memory (assumption 55, DEDUCED). -/
def Hub.mzero (h : Hub) (a n : Nat) : Hub :=
  { h with mem := h.mem.filter (fun e => !(decide (a ≤ e.1) && decide (e.1 < a + n))) }.freshRange a n

/-- The pitch chain (R210). -/
def Hub.chain (h : Hub) : List Byte := (List.range 12).flatMap (fun k => wordBytes (h.rd (A.TUNC_MEAS_CHAIN k)))

/-- A DONE pitch is measured (R210). -/
def Hub.measure (h : Hub) (p : Pitching) (hash : List Byte) : Hub :=
  let n := p.tunnel
  let h := (h.bump R.TUNC_PITCH_STATUS_COUNT).wrBytes (A.TUNC_MEAS n 0) hash
  let info := 1 + b2n p.signed * 2 + p.key % 4 * 4 + b2n p.share * 16 + h.get R.TUNC_PITCH_STATUS_COUNT * 65536
  let h := h.wr (A.TUNC_MEAS_INFO n) (W info)
  h.wrBytes (A.TUNC_MEAS_CHAIN 0)
    (sha384 (h.chain ++ hash ++ [BitVec.ofNat 8 n, BitVec.ofNat 8 (b2n p.signed + 2 * b2n p.share)]))

/-- The result of a cold entry (R212), its refusal logged (R213). -/
def Hub.coldResult (h : Hub) (i n r : Nat) : Hub :=
  let a := if i < 8 then A.TUNC_COLD_RESULT0 else A.TUNC_COLD_RESULT1
  let h := h.put ⟨a, 4 * (i % 8), 4⟩ r
  if r = 0 ∨ r = 1 then h else h.log 13 0x05 sevCT n r 0

/-- A pitch ends with a RESULT (assumption 54, DEDUCED). -/
def Hub.pitchEnd (h : Hub) (p : Pitching) (r : Nat) : Hub :=
  let h := { h with tun := { h.tun with pitch := none } }.put R.TUNC_PITCH_STATUS_BUSY 0
  let h := match p.cold with | some i => h.coldResult i p.tunnel r | none => h
  (h.pitchResult p.tunnel r).releaseWrites

/-- PITCH_COMPLETE (R209): the copy is done and the signature checked; waits for a takeover of its tun to end. On a tun that
has failed meanwhile the context traps as it enters RUNNING (R221) (assumption 44, DESIGN CHOICE). -/
def Hub.pitchComplete (h : Hub) : Hub :=
  match h.tun.pitch with
  | none => h
  | some p =>
    let n := p.tunnel
    let t := n / 12
    if h.tun.moving = some t then h
    else
      let x := h.imageHead p.src
      let hash := h.imageHash p.src x
      let code := progBase t + 4 * p.codeBase
      let data := dataBase t + 64 * p.dataBase
      if p.signed && !h.imageSigned p.src x then
        ((((h.mzero code p.codeBytes).mzero data p.dataBytes).emptyCtx n).pitchEnd p 4)
      else
        let codeB := h.mbytes (p.src + 64) p.codeBytes
        let initB := h.mbytes (p.src + 64 + p.codeBytes) p.initBytes
        let h := if p.share then h else (h.mzero code p.codeBytes).mstore code codeB
        let h := ((h.mzero data p.dataBytes).mstore data initB).measure p hash
        let h := (h.put (R.TUNC_CTX_STATUS_CAUSE n) 0).put (R.TUNC_CTX_STATUS_RESTARTS n) 0
        let h := h.setCtx n { Ctx.empty with entry := p.entry, shareable := p.shareable }
        let h := (h.enterCtx n).pitchEnd p 1
        if h.tunServed t then h else h.trap n 0xB (h.ctx n).pc 0

/-! ### Spare-tun takeover (R218–R221) -/

/-- Whether tun 8 may take over now: automatic takeover allowed and tun 8 on standby (assumption 43, DEDUCED). -/
def Hub.canTakeOver (h : Hub) : Bool := h.on R.TUNC_CTRL_SPARE_EN && h.get R.TUNC_STATUS_SPARE == 0

/-- A tun is marked failed. -/
def Hub.markFailed (h : Hub) (t : Nat) : Hub :=
  h.put R.TUNC_STATUS_FAILED (setSlice (h.get R.TUNC_STATUS_FAILED) t 1 1)

/-- Takeover begins (R219 step 1): contexts stop and enter MOVING; a LOADING one waits in LOADING. A window load on which one
is stalled completes without it and is issued again; a store stays with its context (R244) (assumption 126, DEDUCED). -/
def Hub.takeOver (h : Hub) (t : Nat) : Hub :=
  let h := (((h.markFailed t).put R.TUNC_STATUS_SPARE 1).put R.TUNC_STATUS_SERVED t).put R.TUNC_STATUS_MOVING 1
  let h := h.logBy 13 0x02 sevDG t 0 0 .takeover
  let h := { h with tun := { h.tun with moving := some t, spareRan := false } }
  (ctxsOf t).foldl (fun h n =>
    if h.ctxState n = cxLoading then h
    else
      let h := if (h.ctx n).win.any (fun w => w.store.isNone) then h.leaveWin n else h
      (h.setCtx n { h.ctx n with was := h.ctxState n }).setCtxState n cxMoving) h

/-- A moved context resumes (R219 step 3), then what waited for it is applied. -/
def Hub.resumeCtx (h : Hub) (n : Nat) : Hub :=
  if h.ctxState n = cxMoving then
    let x := h.ctx n
    let h := (h.setCtx n { x with stopLater := false, mailLater := false }).setCtxState n x.was
    let h := if x.mailLater then h.latchEvent evMail n else h
    if x.stopLater then h.stopCtx n else h
  else h

/-- A takeover in progress is over: its contexts are in their previous states and held writes go on. -/
def Hub.moveEnd (h : Hub) (t : Nat) : Hub :=
  let h := { h with tun := { h.tun with moving := none } }.put R.TUNC_STATUS_MOVING 0
  ((ctxsOf t).foldl Hub.resumeCtx h).releaseWrites

/-- Whether the failure of its tun traps a context: it executes, or would at a restart (R221) (assumption 43, DEDUCED). -/
def Hub.failTraps (h : Hub) (n : Nat) : Bool :=
  h.ctxState n == cxRunning || h.ctxState n == cxWaiting || (h.ctxState n == cxTrapped && (h.ctx n).restart)

/-- A tun fails with no spare: its contexts trap with TUN_FAIL, one being moved and one about to restart among them; one
in LOADING does as it enters RUNNING (R221) (assumption 43, DEDUCED). -/
def Hub.tunFailed (h : Hub) (t : Nat) : Hub :=
  let h := (h.markFailed t).log 13 0x03 sevCT t 0 0
  let h := if h.tun.moving = some t then h.moveEnd t else h
  (ctxsOf t).foldl (fun h n =>
    if h.failTraps n then (h.setCtx n { h.ctx n with restart := false }).trap n 0xB (h.ctx n).pc 0 else h) h

/-- Tun 8 fails: on standby it becomes unavailable; serving, the tun whose role it holds fails (R221). -/
def Hub.spareFailed (h : Hub) : Hub :=
  let st := h.get R.TUNC_STATUS_SPARE
  let h := (h.markFailed 8).put R.TUNC_STATUS_SPARE 2
  if st = 0 then h.log 13 0x04 sevDG 8 0 0
  else if st = 1 then (h.recovered .takeover).tunFailed (h.get R.TUNC_STATUS_SERVED)
  else h

/-- TUN_CHECKER_MISMATCH (R218): tun `t`'s checker or an unrepairable memory of it (assumption 43, DEDUCED). -/
def Hub.tunMismatch (h : Hub) (t : Nat) : Hub :=
  if t = 8 then h.spareFailed
  else if bit (h.get R.TUNC_STATUS_FAILED) t then h
  else if h.canTakeOver then h.takeOver t
  else h.tunFailed t

/-- TUNC_FORCE (R218): nothing while tun 8 is not on standby, or for an index above 7. -/
def Hub.tuncForce (h : Hub) (t : Nat) : Hub :=
  let h := h.put R.TUNC_FORCE_TUN t
  if h.canTakeOver && decide (t < 8) then h.takeOver t else h

/-- The bytes of a range copied to another place (assumption 55, DEDUCED). -/
def Hub.mcopy (h : Hub) (src dst n : Nat) : Hub :=
  let inR := fun (a : Nat) => decide (src ≤ a) && decide (a < src + n)
  let bytes := h.mem.filter (fun e => inR e.1)
  let bad := (h.tun.bad.filter (fun w => inR (8 * w))).map (fun w => w - src / 8 + dst / 8)
  let h := h.mzero dst n
  let h := bytes.foldl (fun h e => h.mwr (e.1 - src + dst) e.2) h
  { h with tun := { h.tun with bad := h.tun.bad ++ bad } }

/-- TAKEOVER_COMPLETE (R219, R220): the tun's windows keep their contents, now in tun 8's memories, and tun 8's own
windows show the failed tun's. -/
def Hub.takeoverComplete (h : Hub) : Hub :=
  match h.tun.moving with
  | none => h
  | some t => ((h.mcopy (progBase t) (progBase 8) 0x8000).mcopy (dataBase t) (dataBase 8) 0x10000).moveEnd t

/-- TUN_FAILED_NO_SPARE (R221): a tun fails while tun 8 cannot take over. -/
def Hub.tunFailedNoSpare (h : Hub) (t : Nat) : Hub :=
  if h.canTakeOver then h else if bit (h.get R.TUNC_STATUS_FAILED) t then h else h.tunFailed t

/-! ### The rows of the table -/

/-- BIND_REQUEST (R203). -/
def execBindRequest (tunnel : Fin 96) (binding : BitVec 18) (s : State) : Result :=
  s.upd (fun h => h.bindRequest tunnel binding.toNat)

/-- PITCH (R207). -/
def execPitch (tunnel : BitVec 7) (share : Bool) (s : State) : Result := s.upd (fun h => h.pitch tunnel.toNat share)


/-- CONTEXT_RESTART (R216). -/
def execContextRestart (n : Fin 96) (s : State) : Result := s.upd (fun h => h.contextRestart n)

/-- WATCHDOG_EXPIRE (R202). -/
def execWatchdogExpire (n : Fin 96) (s : State) : Result := s.upd (fun h => h.watchdogExpire n)

/-- CONTEXT_STOP (R217). -/
def execContextStop (tunnel : BitVec 7) (s : State) : Result := s.upd (fun h => h.contextStop tunnel.toNat)

/-- DOORBELL (R200). -/
def execDoorbell (tunnel : BitVec 7) (s : State) : Result := s.upd (fun h => h.doorbell tunnel.toNat)

/-- TUN_CHECKER_MISMATCH (R218). -/
def execTunCheckerMismatch (t : Fin 9) (s : State) : Result := s.upd (fun h => h.tunMismatch t)

/-- TUNC_FORCE (R218). -/
def execTuncForce (t : BitVec 4) (s : State) : Result := s.upd (fun h => h.tuncForce t.toNat)

/-- TAKEOVER_COMPLETE (R219). -/
def execTakeoverComplete (s : State) : Result := s.upd (fun h => h.takeoverComplete)

/-- TUN_FAILED_NO_SPARE (R221). -/
def execTunFailedNoSpare (t : Fin 8) (s : State) : Result := s.upd (fun h => h.tunFailedNoSpare t)

end Sys2Proof.Machine
end

