-- ==== Sys2Proof/Machine/Adapters.lean ====
section
/-! DEFINITION. What every adapter shares: the tunnel of an endpoint, the packets on their way to it, the packets it
holds for a context, and its DMA (R197, R204, R253, R394). -/

namespace Sys2Proof.Machine

/-- The tunnel bound to an endpoint, in either mode. -/
def Hub.bound (h : Hub) (e : Nat) : Option Nat :=
  (List.range 96).find? (fun n => h.bindMode n != 0 && h.bindEnd n == e)

/-- The tunnel bound to an endpoint with an argument that satisfies a test. -/
def Hub.boundArg (h : Hub) (e : Nat) (ok : Nat → Bool) : Option Nat :=
  (List.range 96).find? (fun n => h.bindMode n != 0 && h.bindEnd n == e && ok (h.bindArg n))

/-- Packets that a context handed to its endpoint and the endpoint has not taken, oldest first. -/
def Hub.epOutOf (h : Hub) (n : Nat) : List Packet := (KMap.get? h.tun.epOut n).getD []

/-- Packets that an endpoint holds for its context, oldest first. -/
def Hub.epInOf (h : Hub) (n : Nat) : List Packet := (KMap.get? h.tun.epIn n).getD []

/-- A table of packet lists with one list set; an empty list is not listed. -/
def setList (m : KMap (List Packet)) (n : Nat) (l : List Packet) : KMap (List Packet) :=
  if l.isEmpty then KMap.del m n else KMap.put m n l

/-- A packet of a context to its endpoint. -/
def Hub.epGive (h : Hub) (n : Nat) (p : Packet) : Hub :=
  { h with tun := { h.tun with epOut := setList h.tun.epOut n (h.epOutOf n ++ [p]) } }

/-- A packet of an endpoint for its context. -/
def Hub.epHold (h : Hub) (n : Nat) (p : Packet) : Hub :=
  { h with tun := { h.tun with epIn := setList h.tun.epIn n (h.epInOf n ++ [p]) } }

/-- Packets delivered at a local output for a tunnel and not taken. -/
def Hub.inboxOf (h : Hub) (o n : Nat) : List Delivered :=
  ((KMap.get? h.fab.inbox o).getD []).filter (fun d => d.tunnel == n)

/-- The next packet that has reached the endpoint of a tunnel: from the fabric at output `o`, or from its context. -/
def Hub.epNext (h : Hub) (o n : Nat) : Option Packet :=
  match h.inboxOf o n with
  | d :: _ => some d.pkt
  | [] => (h.epOutOf n).head?

/-- That packet is taken. -/
def Hub.epPop (h : Hub) (o n : Nat) : Hub :=
  match h.inboxOf o n with
  | d :: _ =>
    h.onFab (fun f =>
      let l := ((KMap.get? f.inbox o).getD []).erase d
      { f with inbox := if l.isEmpty then KMap.del f.inbox o else KMap.put f.inbox o l })
  | [] => { h with tun := { h.tun with epOut := setList h.tun.epOut n ((h.epOutOf n).drop 1) } }

/-- Whether a packet is on its way from a boundary of LOCAL or a context to the endpoint of a tunnel. -/
def Hub.epBusy (h : Hub) (o n : Nat) : Bool :=
  (h.epNext o n).isSome || (match h.fab.wire with | some w => w.output == o && w.queue == n | none => false)

/-- Adapter DMA (class 4) reads a range: the bytes, or what became of the access; uncorrectable words give an error. -/
def Hub.dmaRead (h : Hub) (a n : Nat) : Hub × Except AccRes (List Byte) :=
  match h.accessRange 4 .read a n with
  | (h, .ok) => if h.badRange a n then (h, .error .error) else (h, .ok (h.busBytes a n))
  | (h, r) => (h, .error r)

/-- Adapter DMA (class 4) writes bytes. -/
def Hub.dmaWrite (h : Hub) (a : Nat) (bs : List Byte) : Hub × AccRes :=
  match h.accessRange 4 .write a bs.length with
  | (h, .ok) => (h.busStore a bs, .ok)
  | r => r

end Sys2Proof.Machine
end

