-- ==== Sys2Proof/Machine/Emmc.lean ====
section
/-! DEFINITION. The eMMC adapter (R355–R357, R371). -/

namespace Sys2Proof.Machine

/-- Whether MODE, WIDTH and DIV go together (R355). -/
def Hub.emmcModeOk (h : Hub) : Bool :=
  let div := h.get R.EMMC_CTRL_DIV
  match h.get R.EMMC_CTRL_MODE with
  | 0 => decide (8 ≤ div)
  | 1 => decide (4 ≤ div)
  | 2 => div == 1
  | _ => div == 1 && h.get R.EMMC_CTRL_WIDTH == 2

/-- The command in EMMC_CMD as a run: RESP, DATA, the DMA address and the bytes of EMMC_BLOCKS (assumption 66, DEDUCED). -/
def Hub.emmcLatch (h : Hub) : EmmcRun :=
  { resp := h.get R.EMMC_CMD_RESP, data := h.get R.EMMC_CMD_DATA, addr := (h.rd A.EMMC_DMA_ADDR).toNat,
    bytes := (h.rd A.EMMC_BLOCKS).toNat % 65536 * 512 }

/-- GO (R356): the command in EMMC_CMD is issued. A refused GO issues nothing and sets ERR (assumption 66, DEDUCED). -/
def Hub.emmcGo (h : Hub) : Hub :=
  if h.on R.EMMC_STATUS_BUSY then h.put R.EMMC_STATUS_ERR 7
  else if !h.emmcModeOk then h.put R.EMMC_STATUS_ERR 6
  else if (h.rd A.EMMC_DMA_ADDR).toNat % 4 ≠ 0 then h.put R.EMMC_STATUS_ERR 5
  else
    let h := (h.put R.EMMC_STATUS_BUSY 1).put R.EMMC_STATUS_ERR 0
    { h with emmc := h.emmcLatch }.ball (.emmc (h.get R.EMMC_CMD_INDEX) (h.rd A.EMMC_ARG))

/-- EMMC_COMMAND (R356): CMD written with GO, which default-power mode holds (R410). The reserved DATA is ignored (R12). -/
def Hub.emmcCommand (h : Hub) (index resp data : Nat) : Hub :=
  let h := (h.put R.EMMC_CMD_INDEX index).put R.EMMC_CMD_RESP resp
  (if data = 3 then h else h.put R.EMMC_CMD_DATA data).unlessHeld Hub.emmcGo

/-- Its ERR code. -/
def EmmcEnd.code : EmmcEnd → Nat
  | .ok => 0
  | .respTimeout => 1
  | .respCrc => 2
  | .dataTimeout => 3
  | .dataCrc => 4
  | .endBit => 8

/-- DONE with an ERR code; CRC errors and timeouts are counted. -/
def Hub.emmcDone (h : Hub) (err : Nat) : Hub :=
  let h := ((h.put R.EMMC_STATUS_BUSY 0).put R.EMMC_STATUS_DONE 1).put R.EMMC_STATUS_ERR err
  if err = 2 ∨ err = 4 then h.bump (word A.EMMC_CRC_ERR)
  else if err = 1 ∨ err = 3 then h.bump (word A.EMMC_TO_CNT)
  else h

/-- The response words a command leaves (EMMC_RESP). -/
def Hub.emmcResp (h : Hub) (r : List Word) : Hub :=
  let n := match h.emmc.resp with
    | 0 => 0
    | 2 => 4
    | _ => 1
  (List.range n).foldl (fun h i => h.wr (A.EMMC_RESP i) (r.getD i 0)) h


/-- EMMC_COUNTER_CLEAR (R371). -/
def Hub.emmcClear (h : Hub) : Hub := h.clearRange A.EMMC_CRC_ERR A.EMMC_TO_CNT

/-! ### The rows of the table -/

/-- EMMC_COMMAND (R356). -/
def execEmmcCommand (index : BitVec 6) (resp : BitVec 2) (data : BitVec 2) (s : State) : Result :=
  s.upd (fun h => h.emmcCommand index.toNat resp.toNat data.toNat)

/-- EMMC_COUNTER_CLEAR (R371). -/
def execEmmcCounterClear (s : State) : Result := s.upd (fun h => h.emmcClear)

end Sys2Proof.Machine
end

