-- ==== Sys2Proof/Machine/Errors.lean ====
section
/-! DEFINITION. The rows of the error chapter that act on the log and the event queue (R459–R462, R472, R185). -/

namespace Sys2Proof.Machine

/-- ERR_INJECT (R472): an entry 0xFFFF at the written severity. -/
def Hub.errInject (h : Hub) (sev d0 : Nat) : Hub := h.log 3 0xFFFF sev d0 0 0

/-- ERR_ACK (R460, R461): every entry up to a SEQ is acknowledged; a SEQ outside those waiting is ignored (R12). -/
def Hub.errAck (h : Hub) (seq : Nat) : Hub :=
  if h.unacked seq = false then h
  else
    let h := ((h.put R.ERR_ACK_SEQ seq).put R.ERR_SEQ_ACKED seq).setUnacked
    if h.get R.ERR_SEQ_NEWEST = seq then h.put R.ERR_STATUS_ALERT 0 else h

/-- ERR_COUNTER_CLEAR (R472). -/
def Hub.errClear (h : Hub) : Hub := (h.clearRange A.ERR_OVERFLOW A.ERR_COUNT_F).wr A.ERR_EVT_LOST 0

/-- Whether the EVENT of a missed swap may go (R185): quality LOCKED or SWITCHED, and an onward port that is UP by order 5
or 6, no wrap. -/
def Hub.missedMayGo (h : Hub) : Bool :=
  decide (h.quality < 2) &&
    (match h.way (h.ownPacket 0 0 .M 4 0 0 []) none with
     | .out _ _ => true
     | _ => false)

/-- A queue with a packet's descriptors at its head. -/
def Queue.front (x : Queue) (pid now : Nat) : Queue :=
  let mine := x.items.filter (fun d => d.pid == pid)
  if mine.isEmpty then x else { x with items := mine ++ x.items.filter (fun d => d.pid != pid), headAt := now }

/-- A stored packet goes to the head of the queues that hold it (R459). -/
def Hub.toFront (h : Hub) (pid : Nat) : Hub :=
  h.onFab (fun f => { f with queues := f.queues.map (fun e => (e.1, e.2.front pid h.root)) })

/-- A waiting EVENT is offered (R462): KIND EVENT, class M, from tunnel 0, its record as payload. That of a FATAL entry goes
ahead of every other packet of tunnel 0 (R459) (assumption 86, DEDUCED). -/
def Hub.offerEvent (h : Hub) (e : Ev) : Hub :=
  if h.unroutable (h.ownPacket 0 0 .M 4 e.aux 0 e.rec_.words) then h
  else
    let (h', r) := h.sendM 4 e.aux e.rec_.words
    if r.left then
      let h' := { h' with err := { h'.err with evtq := h'.err.evtq.erase e } }
      if e.rec_.sev = 3 then h'.toFront h.fab.nextPid else h'
    else h

/-- EVENT_RETRY (R462): the EVENT of a FATAL entry (R459), else the oldest waiting EVENT; that of a missed swap waits as R185
states (assumption 86, DEDUCED). -/
def Hub.eventRetry (h : Hub) : Hub :=
  match h.fatalEvent with
  | some e => h.offerEvent e
  | none =>
    match h.err.evtq.find? (fun e => !e.missed) with
    | some e => h.offerEvent e
    | none => h

/-- MISSED_SWAP_EVENT (R185) (assumption 86, DEDUCED). -/
def Hub.missedSwapEvent (h : Hub) : Hub :=
  match h.err.evtq.find? (fun e => e.missed) with
  | some e => if h.missedMayGo then h.offerEvent e else h
  | none => h

/-! ### The rows of the table -/

/-- MISSED_SWAP_EVENT (R185). -/
def execMissedSwapEvent (s : State) : Result := s.upd (fun h => h.missedSwapEvent)

/-- ERR_INJECT (R472). -/
def execErrInject (sev : BitVec 2) (detail : BitVec 16) (s : State) : Result :=
  s.upd (fun h => h.errInject sev.toNat detail.toNat)

/-- ERR_ACK (R460). -/
def execErrAck (seq : BitVec 16) (s : State) : Result := s.upd (fun h => h.errAck seq.toNat)

/-- ERR_COUNTER_CLEAR (R472). -/
def execErrCounterClear (s : State) : Result := s.upd (fun h => h.errClear)

end Sys2Proof.Machine
end

