-- ==== Sys2Proof/Machine/Display.lean ====
section
/-! DEFINITION. The display heads (chapter 10): enable, segments and line FIFOs, the scan of a frame, blending, LVDS
mapping, flips and the hold store, fallback, the banner. -/

namespace Sys2Proof.Machine

/-! ### Settings -/

/-- A display head beyond its registers. -/
def Hub.dsp (h : Hub) (i : Nat) : DspHead := if i = 0 then h.dsp0 else h.dsp1

/-- The hub with a display head's state set. -/
def Hub.setDsp (h : Hub) (i : Nat) (x : DspHead) : Hub := if i = 0 then { h with dsp0 := x } else { h with dsp1 := x }

/-- HACTIVE, HFP, HSYNC, HBP. -/
def Hub.dspH (h : Hub) (i : Nat) : Nat × Nat × Nat × Nat :=
  let a := (h.rd (A.DSP_HTIME0 i)).toNat
  let b := (h.rd (A.DSP_HTIME1 i)).toNat
  (slice a 0 12, slice a 16 12, slice b 0 12, slice b 16 12)

/-- VACTIVE, VFP, VSYNC, VBP. -/
def Hub.dspV (h : Hub) (i : Nat) : Nat × Nat × Nat × Nat :=
  let a := (h.rd (A.DSP_VTIME0 i)).toNat
  let b := (h.rd (A.DSP_VTIME1 i)).toNat
  (slice a 0 12, slice a 16 12, slice b 0 12, slice b 16 12)

/-- Bytes per pixel of a format (R285). -/
def fmtBytes : Nat → Nat
  | 0 => 2
  | 1 => 3
  | _ => 4

/-- A layer's settings as its registers hold them; the base layer fills the active area (R284). -/
def Hub.dspRegs (h : Hub) (i l : Nat) : DspSet :=
  let c := (h.rd (A.DSP_L_CTRL i l)).toNat
  let pos := (h.rd (A.DSP_L_POS i l)).toNat
  let size := (h.rd (A.DSP_L_SIZE i l)).toNat
  { en := bit c 0, fmt := slice c 1 2, src := bit c 3, galpha := slice c 8 8,
    x := if l = 0 then 0 else slice pos 0 12, y := if l = 0 then 0 else slice pos 16 12,
    w := if l = 0 then (h.dspH i).1 else slice size 0 12, h := if l = 0 then (h.dspV i).1 else slice size 16 12,
    colour := (h.rd (A.DSP_L_COLOUR i l)).toNat, addr := (h.rd (A.DSP_L_ADDR i l)).toNat,
    stride := slice (h.rd (A.DSP_L_STRIDE i l)).toNat 0 16 }

/-- Whether a layer takes a stream: the main layer, and the base layer with SRC 1. -/
def DspSet.streamed (s : DspSet) (l : Nat) : Bool := l == 1 || (l == 0 && s.src)

/-- Bytes of one line. -/
def DspSet.lineBytes (s : DspSet) : Nat := s.w * fmtBytes s.fmt

/-- The layer of a head. -/
def DspHead.layer (x : DspHead) : Nat → DspLayer
  | 0 => x.base
  | 1 => x.main
  | _ => x.banner

/-- A head with a layer set. -/
def DspHead.setLayer (x : DspHead) (l : Nat) (v : DspLayer) : DspHead :=
  match l with
  | 0 => { x with base := v }
  | 1 => { x with main := v }
  | _ => { x with banner := v }

/-- The settings in force for a layer: those latched at the last frame start, or its registers before the first. -/
def Hub.dspSet (h : Hub) (i l : Nat) : DspSet := if (h.dsp i).begun then ((h.dsp i).layer l).set else h.dspRegs i l

/-- The latch check of R293 (assumption 57, DESIGN CHOICE). -/
def Hub.dspGeom (h : Hub) (i l : Nat) (s : DspSet) : Bool :=
  decide (1 ≤ s.w) && decide (1 ≤ s.h) && decide (s.x + s.w ≤ (h.dspH i).1) && decide (s.y + s.h ≤ (h.dspV i).1)
    && (if s.streamed l then s.lineBytes % 4 == 0 && decide (s.lineBytes ≤ 8192) else true)
    && (if l = 2 then
          decide (s.lineBytes ≤ s.stride) && s.stride % 4 == 0 && s.addr % 4 == 0 && decide (0x300000 ≤ s.addr)
            && decide (s.addr + s.h * s.stride ≤ 0x380000)
        else true)

/-- The tunnel of a layer. -/
def Hub.dspTunnel (h : Hub) (i l : Nat) : Option Nat := h.bound (2 + 3 * i + l)

/-- Whether a capture is halved (R299). -/
def Hub.dspHalf (h : Hub) (i : Nat) : Bool := decide (2097152 < (h.dspH i).1 * (h.dspV i).1 * 2)

/-! ### Enable and disable (R291, R292) -/

/-- REASON of an enable; 0 where it is accepted (R291). -/
def Hub.dspReason (h : Hub) (i : Nat) : Nat :=
  let n := h.get (R.DSP_CTRL_N i)
  let dual := h.on (R.DSP_CTRL_DUAL i)
  let (ha, hf, hs, hb) := h.dspH i
  let (va, vf, vs, vb) := h.dspV i
  if n < 20 ∨ 160 < n then 1
  else if !dual && decide (n < 36) then 2
  else if ha < 64 ∨ 2048 < ha ∨ hf < 8 ∨ hs < 8 ∨ hb < 8 ∨ 4096 < ha + hf + hs + hb
      ∨ (dual && (ha % 2 == 1 || hf % 2 == 1 || hs % 2 == 1 || hb % 2 == 1)) = true then 3
  else if va < 32 ∨ 2048 < va ∨ vf < 1 ∨ vs < 1 ∨ vb < 1 ∨ 4096 < va + vf + vs + vb then 4
  else 0

/-- START, 64 bits. -/
def Hub.dspStart (h : Hub) (i : Nat) : Nat := (h.rd (A.DSP_START_LO i)).toNat + (h.rd (A.DSP_START_HI i)).toNat * 2 ^ 32

/-- START set. -/
def Hub.setDspStart (h : Hub) (i t : Nat) : Hub := (h.wr (A.DSP_START_LO i) (W t)).wr (A.DSP_START_HI i) (W (t / 2 ^ 32))

/-- DISPLAY_ENABLE (R291): CTRL.EN written from 0 to 1. -/
def Hub.displayEnable (h : Hub) (i : Nat) : Hub :=
  if h.on (R.DSP_CTRL_EN i) then h
  else
    let r := h.dspReason i
    if r ≠ 0 then (h.put (R.DSP_STATUS_REFUSED i) 1).put (R.DSP_STATUS_REASON i) r
    else
      let h := ((h.put (R.DSP_CTRL_EN i) 1).put (R.DSP_STATUS_REASON i) 0).wr (A.DSP_FRAME_CNT i) 0
      let h := (h.put (R.DSP_STATUS_REFUSED i) 0).lvdsShow i
      let h := ((h.put (R.DSP_STATUS_HOLD_VALID i) 0).put (R.DSP_STATUS_HALF i) (b2n (h.dspHalf i))).put (R.DSP_STATUS_WAITING i) 1
      let x := h.dsp i
      let h := h.setDsp i { DspHead.reset with base := { x.base with off := false }, main := { x.main with off := false },
                                               holdBank := x.holdBank, bank0 := x.bank0, bank1 := x.bank1 }
      if h.now + 64 ≤ h.dspStart i then h else h.setDspStart i (h.now + 2000)

/-! ### Segments and the banner (R287, R288, R294) -/

/-- Segments and banner packets discarded. -/
def Hub.dspDrop (h : Hub) (i n : Nat) : Hub := h.bumpBy (word (A.DSP_DROP i)) n

/-- Bytes in a layer's FIFO. -/
def DspLayer.fill (x : DspLayer) : Nat := (x.fifo.map (fun l => l.bytes.length)).sum

/-- Payload words of segment `s` of a line (R287); none where the line has no such segment. -/
def segWords (lineBytes s : Nat) : Option Nat :=
  if lineBytes = 0 ∨ lineBytes % 4 ≠ 0 ∨ 8192 < lineBytes ∨ lineBytes ≤ 512 * s then none
  else some (min 512 (lineBytes - 512 * s) / 4)

/-- Lines of a FIFO with segment `s` put into the last of number `y`; none where that line's next segment is another, or no
such line is there. Order is kept within each line alone (R287). -/
def joinLine (y s : Nat) (bs : List Byte) (fin : Bool) : List DspLine → Option (List DspLine)
  | [] => none
  | l :: rest =>
    match joinLine y s bs fin rest with
    | some r => some (l :: r)
    | none =>
      if l.y = y ∧ l.segs = s ∧ l.done = false ∧ rest.all (fun k => k.y != y) then some (⟨y, l.bytes ++ bs, s + 1, fin⟩ :: rest)
      else none

/-- Whether segment 0 of line `y` repeats one: the last line of that number still waits for segments, or is complete and is
the line last begun, but for a layer of one line, whose next line has the same number. -/
def DspLayer.repeats (x : DspLayer) (y : Nat) : Bool :=
  (x.fifo.filter (fun l => l.y == y)).getLast?.any (fun l => !l.done)
    || x.fifo.getLast?.any (fun l => l.y == y && x.set.h != 1)

/-- A segment joins its line, or starts a line; none where it is out of order within its line (R287)
(assumption 58, DEDUCED). -/
def DspLayer.take (x : DspLayer) (lineBytes y s : Nat) (bs : List Byte) : Option DspLayer :=
  let fin := decide (lineBytes ≤ 512 * s + bs.length)
  if s = 0 then if x.repeats y then none else some { x with fifo := x.fifo ++ [⟨y, bs, 1, fin⟩] }
  else (joinLine y s bs fin x.fifo).map (fun q => { x with fifo := q })

/-- DISPLAY_SEGMENT_RECEIVED (R287, R292): the next packet at a streamed layer's endpoint (assumption 58, DEDUCED). -/
def Hub.displaySegment (h : Hub) (i l : Nat) : Hub :=
  match h.dspTunnel i l with
  | none => h
  | some n =>
    match h.epNext (4 + i) n with
    | none => h
    | some p =>
      let h := h.epPop (4 + i) n
      if h.on (R.DSP_CTRL_EN i) = false then h.dspDrop i 1
      else
        let s := h.dspSet i l
        let y := slice p.aux 0 12
        let k := slice p.aux 12 4
        let x := h.dsp i
        if s.h ≤ y ∨ segWords s.lineBytes k ≠ some p.length then h.dspDrop i 1
        else
          match (x.layer l).take s.lineBytes y k (bytesOf p.payload) with
          | some v => h.setDsp i (x.setLayer l v)
          | none => h.dspDrop i 1

/-- BANNER_PACKET_RECEIVED (R294): the payload goes into the bitmap at LADDR + 64 × AUX; a refused write is discarded
and counted like one past the bitmap (assumption 58, DEDUCED). -/
def Hub.bannerPacket (h : Hub) (i : Nat) : Hub :=
  match h.dspTunnel i 2 with
  | none => h
  | some n =>
    match h.epNext (4 + i) n with
    | none => h
    | some p =>
      let s := h.dspSet i 2
      let a := s.addr + 64 * p.aux
      if p.kind ≠ 0 ∨ s.addr + s.h * s.stride < a + 4 * p.length then (h.epPop (4 + i) n).dspDrop i 1
      else
        match h.dmaWrite a (bytesOf p.payload) with
        | (h, .ok) => h.epPop (4 + i) n
        | (h, .held) => h
        | (h, _) => (h.epPop (4 + i) n).dspDrop i 1

/-! ### Pixels (R285, R286, R299) -/

/-- A channel of 5 bits widened. -/
def widen5 (c : Nat) : Nat := (c * 8 + c / 4) % 256

/-- A channel of 6 bits widened. -/
def widen6 (c : Nat) : Nat := (c * 4 + c / 16) % 256

/-- An RGB565 value as XRGB8888. -/
def rgb565 (v : Nat) : Nat := widen5 (slice v 11 5) * 65536 + widen6 (slice v 5 6) * 256 + widen5 (slice v 0 5)

/-- XRGB8888 as captured: c5 = c8 >> 3 and c6 = c8 >> 2. -/
def to565 (v : Nat) : Nat := slice v 19 5 * 2048 + slice v 10 6 * 32 + slice v 3 5

/-- The pixel spelled by its bytes: colour, and alpha. -/
def pixelOf (fmt : Nat) (bs : List Byte) : Nat × Nat :=
  let v := leNat bs
  match fmt with
  | 0 => (rgb565 v, 255)
  | 1 => (v % 2 ^ 24, 255)
  | 2 => (v % 2 ^ 24, 255)
  | _ => (v % 2 ^ 24, v / 2 ^ 24 % 256)

/-- The pixels of a line, `n` of them. -/
def pixelsOf (fmt : Nat) : Nat → List Byte → List (Nat × Nat)
  | 0, _ => []
  | n + 1, bs => pixelOf fmt (bs.take (fmtBytes fmt)) :: pixelsOf fmt n (bs.drop (fmtBytes fmt))

/-- One channel blended (R286). -/
def blendCh (a src dst : Nat) : Nat := (src * a + dst * (255 - a) + 127) / 255

/-- A pixel blended over another (R286). -/
def blend (ga : Nat) (p : Nat × Nat) (dst : Nat) : Nat :=
  let a := (p.2 * ga + 127) / 255
  blendCh a (slice p.1 16 8) (slice dst 16 8) * 65536 + blendCh a (slice p.1 8 8) (slice dst 8 8) * 256
    + blendCh a (slice p.1 0 8) (slice dst 0 8)

/-- Pixels blended over a line from place `x` on. -/
def blendAt (ga x : Nat) (ps : List (Nat × Nat)) (line : List Nat) : List Nat :=
  line.take x ++ List.zipWith (blend ga) ps (line.drop x) ++ line.drop (x + ps.length)

/-- A layer's bytes blended over a line where it has a line there. -/
def DspLayer.blended (x : DspLayer) (bs : Option (List Byte)) (line : List Nat) : List Nat :=
  match bs with
  | some b => blendAt x.set.galpha x.set.x (pixelsOf x.set.fmt x.set.w b) line
  | none => line

/-! ### LVDS (R295, R296) -/

/-- One pair's seven slots from a pixel: `c` names by 8 × channel + bit the colour bits (channel 0 blue, 1 green, 2 red),
24 DE, 25 VS, 26 HS, 27 RES; slot 1 at bit 0. -/
def pairBits (v : Nat) (de vs hs : Bool) (c : List Nat) : Nat :=
  let f := fun k => if k < 24 then bit v k else if k = 24 then de else if k = 25 then vs else if k = 26 then hs else false
  c.foldr (fun k acc => b2n (f k) + 2 * acc) 0

/-- The bit names of the four pairs in a mapping (R295). -/
def lvdsMap (b : Bool) : List (List Nat) :=
  let s := if b then 2 else 0
  let t := if b then 0 else 6
  [[8 + s, 21 + s, 20 + s, 19 + s, 18 + s, 17 + s, 16 + s],
   [1 + s, 0 + s, 13 + s, 12 + s, 11 + s, 10 + s, 9 + s],
   [24, 25, 26, 5 + s, 4 + s, 3 + s, 2 + s],
   [27, 1 + t, 0 + t, 9 + t, 8 + t, 17 + t, 16 + t]]

/-- The 35 bits of one pixel period (R295): the four data pairs, and 1100011 on the clock pair; `vs` and `hs` name the sync
intervals. -/
def Hub.lvdsPixel (h : Hub) (i v : Nat) (de vs hs : Bool) : Nat :=
  let pairs := (lvdsMap (h.on (R.DSP_CTRL_MAP i))).map
    (pairBits v de (vs != h.on (R.DSP_CTRL_VS_NEG i)) (hs != h.on (R.DSP_CTRL_HS_NEG i)))
  let p3 := if h.on (R.DSP_CTRL_PAIR3_OFF i) then 0 else pairs.getD 3 0
  pairs.getD 0 0 + pairs.getD 1 0 * 2 ^ 7 + pairs.getD 2 0 * 2 ^ 14 + p3 * 2 ^ 21 + 0x63 * 2 ^ 28

/-- The pixel periods of a line (R290, R295): its active pixels, black with DE low in a vertical blanking line, then HFP,
HSYNC and HBP (assumption 57, DESIGN CHOICE). -/
def Hub.lvdsLine (h : Hub) (i y : Nat) (line : List Nat) : List Nat :=
  let (_, hf, hs, hb) := h.dspH i
  let (va, vf, vs, _) := h.dspV i
  let v := decide (va + vf ≤ y) && decide (y < va + vf + vs)
  line.map (fun p => h.lvdsPixel i p (decide (y < va)) v false) ++ List.replicate hf (h.lvdsPixel i 0 false v false)
    ++ List.replicate hs (h.lvdsPixel i 0 false v true) ++ List.replicate hb (h.lvdsPixel i 0 false v false)

/-- The even or the odd places of a list. -/
def everyOther {α : Type} : Bool → List α → List α
  | _, [] => []
  | true, a :: t => a :: everyOther false t
  | false, _ :: t => everyOther true t

/-- A line on the balls: both links with DUAL, link A alone without. -/
def Hub.dspEmit (h : Hub) (i y : Nat) (line : List Nat) : Hub :=
  let px := h.lvdsLine i y line
  if h.on (R.DSP_CTRL_DUAL i) then (h.emit (.lvds i false y (everyOther true px))).emit (.lvds i true y (everyOther false px))
  else h.emit (.lvds i false y px)

/-- The blanking lines of a frame on the balls: VFP, VSYNC and VBP (R290). -/
def Hub.dspBlank (h : Hub) (i : Nat) : Hub :=
  let (va, vf, vs, vb) := h.dspV i
  (List.range (vf + vs + vb)).foldl (fun h k => h.dspEmit i (va + k) (List.replicate (h.dspH i).1 0)) h

/-! ### The scan (R289, R297–R301) -/

/-- Whether the head scans: enabled, and the clock is not in FREE (R296). -/
def Hub.dspRuns (h : Hub) (i : Nat) : Bool := h.on (R.DSP_CTRL_EN i) && h.clkMode != ckFree && !h.defPower

/-- Whether the hub is cut off (R300): no clock candidate port is UP. -/
def Hub.cutOffHub (h : Hub) : Bool := !(Port.all.any (fun p => h.candidate p && h.up p))

/-- The hold bank's pixel at a place of the active area; none past a parity error at held pixel `bad`. -/
def DspHead.held (x : DspHead) (half : Bool) (y px : Nat) (bad : Option Nat) : Option Nat :=
  let q := if half then px / 2 else px
  let l := (KMap.get? (if x.holdBank = 0 then x.bank0 else x.bank1) (if half then y / 2 else y)).getD []
  match bad with
  | some b => if b ≤ q then none else some (rgb565 (l.getD q 0))
  | none => some (rgb565 (l.getD q 0))

/-- A line captured into the bank that does not hold the last flip (R299). -/
def DspHead.capture (x : DspHead) (half : Bool) (y : Nat) (line : List Nat) : DspHead :=
  if half && y % 2 == 1 then x
  else
    let l := (if half then everyOther true line else line).map to565
    let k := if half then y / 2 else y
    if x.holdBank = 0 then { x with bank1 := KMap.put x.bank1 k l } else { x with bank0 := KMap.put x.bank0 k l }

/-- The line in progress has been scanned: blended, captured and sent (R286, R299, R300). `bad` names the first held pixel
of the line with a parity error. -/
def Hub.dspFinish (h : Hub) (i : Nat) (bad : Option Nat) : Hub :=
  let x := h.dsp i
  if x.inFrame = false ∨ x.line = 0 then h
  else
    let y := x.line - 1
    let w := (h.dspH i).1
    let half := h.on (R.DSP_STATUS_HALF i)
    let black := List.replicate w 0
    let colour := x.base.set.colour % 2 ^ 24
    let base :=
      if x.base.set.en && !x.base.set.src then blendAt x.base.set.galpha 0 (List.replicate w (colour, 255)) black
      else x.base.blended x.baseLine black
    let mix := x.main.blended x.mainLine base
    let under :=
      if h.on (R.DSP_STATUS_FALLBACK i) then
        if h.on (R.DSP_STATUS_HOLD_VALID i) then (List.range w).map (fun px => (x.held half y px bad).getD colour)
        else List.replicate w colour
      else mix
    let out := x.banner.blended x.bannerNow under
    let x := { x.capture half y mix with baseLine := none, mainLine := none }
    (h.setDsp i x).dspEmit i y out

/-- A late line at the FIFO head is discarded, its segments counted; then the head of the FIFO decides (R289): the line
to scan, if it is complete (assumption 57, DESIGN CHOICE). -/
def DspLayer.examine (x : DspLayer) (y : Nat) : Nat → DspLayer × Nat × Option (List Byte)
  | 0 => (x, 0, none)
  | n + 1 =>
    match x.fifo with
    | [] => (x, 0, none)
    | l :: rest =>
      if l.y = y ∧ l.done then ({ x with fifo := rest }, 0, some l.bytes)
      else if x.set.h < 2 * subMod x.set.h l.y y then
        let (x', drops, r) := DspLayer.examine { x with fifo := rest } y n
        (x', drops + l.segs, r)
      else (x, 0, none)

/-- A layer underruns (R289): off for the rest of the frame, counted and logged. -/
def Hub.dspUnder (h : Hub) (i l : Nat) : Hub :=
  let x := h.dsp i
  let h := h.setDsp i (x.setLayer l { x.layer l with off := true })
  let c := if l = 0 then word (A.DSP_UNDER_BASE i) else word (A.DSP_UNDER_MAIN i)
  let h := (h.bump c).put (R.DSP_L_STATUS_UNDERRUN i l) 1
  h.logLim (21 + i) 0x01 l sevCT l (h.rd (A.DSP_FRAME_CNT i)).toNat (h.get c)

/-- A streamed layer at the first pixel of its line `y` (R289) (assumption 57, DESIGN CHOICE). -/
def Hub.dspScan (h : Hub) (i l y : Nat) : Hub :=
  let x := h.dsp i
  let v := x.layer l
  let (v', drops, r) := v.examine y v.fifo.length
  let h := (h.dspDrop i drops).setDsp i (x.setLayer l v')
  let shown := v.set.en && v.bound && v.geom && !v.off
  match r with
  | some bs =>
    if shown then
      let x := (h.dsp i).setLayer l { v' with lines := v'.lines + 1 }
      h.setDsp i (if l = 0 then { x with baseLine := some bs } else { x with mainLine := some bs })
    else h
  | none => if shown && !h.on (R.DSP_STATUS_FALLBACK i) then h.dspUnder i l
            else if shown then h.setDsp i ((h.dsp i).setLayer l { v' with off := true }) else h

/-- A banner fetch takes place by adapter DMA (R294): its bytes are shown in their line, if that line is the next one or
the one in progress; a refused fetch turns the banner off for its frame and sets ACCESS; a held one waits (R397)
(assumption 58, DEDUCED). -/
def Hub.bannerRead (h : Hub) (i : Nat) (q : BannerFetch) : Hub :=
  let r := h.dmaRead q.addr q.bytes
  let x := r.1.dsp i
  let now := x.inFrame && (r.1.rd (A.DSP_FRAME_CNT i)).toNat == q.frame
  match r.2 with
  | .ok bs =>
    if now && x.line == q.line then r.1.setDsp i { x with bannerNext := some bs }
    else if now && x.line == q.line + 1 then r.1.setDsp i { x with bannerNow := some bs }
    else r.1
  | .error .held => r.1.setDsp i { x with bannerHeld := x.bannerHeld ++ [q] }
  | .error _ =>
    let h := r.1.put (R.DSP_L_STATUS_ACCESS i 2) 1
    if now then h.setDsp i { x with bannerNow := none, bannerNext := none, banner := { x.banner with off := true } } else h

/-- The banner's bytes of a line of the active area are fetched, where the banner is shown there (R294)
(assumption 58, DEDUCED). -/
def Hub.bannerFetch (h : Hub) (i y : Nat) : Hub :=
  let x := h.dsp i
  let v := x.banner
  let on := (v.set.en || h.on (R.DSP_STATUS_FALLBACK i)) && v.geom && !v.off
  let h := h.setDsp i { x with bannerNext := none }
  if on && decide (v.set.y ≤ y) && decide (y < v.set.y + v.set.h) then
    h.bannerRead i ⟨(h.rd (A.DSP_FRAME_CNT i)).toNat, y, v.set.addr + (y - v.set.y) * v.set.stride, v.set.lineBytes⟩
  else h

/-- The banner fetches that waited for the access table take place (R397). -/
def Hub.bannerResume (h : Hub) (i : Nat) : Hub :=
  let x := h.dsp i
  x.bannerHeld.foldl (fun h q => h.bannerRead i q) (h.setDsp i { x with bannerHeld := [] })

/-- LINE_SCAN (R289): the first pixel of the head's next line for layer 0, of the main layer's line in it for layer 1.
`bad` names the first held pixel of the line before with a parity error (R299) (assumption 57, DESIGN CHOICE). -/
def Hub.lineScan (h : Hub) (i l : Nat) (bad : Option Nat) : Hub :=
  if !h.dspRuns i || !(h.dsp i).inFrame then h
  else if l = 0 then
    let y := (h.dsp i).line
    if (h.dspV i).1 ≤ y then h
    else
      let h := h.dspFinish i bad
      let x := h.dsp i
      let h := h.setDsp i { x with line := y + 1, bannerNow := x.bannerNext }
      let h := if x.base.set.src then h.dspScan i 0 y else h
      h.bannerFetch i (y + 1)
  else
    let x := h.dsp i
    if x.line = 0 ∨ x.line - 1 < x.main.set.y ∨ x.main.set.y + x.main.set.h ≤ x.line - 1 then h
    else h.dspScan i 1 (x.line - 1 - x.main.set.y)

/-- DISPLAY_DISABLE (R292): the scan stops at the end of the line, both FIFOs are emptied and their segments counted
(assumption 58, DEDUCED). -/
def Hub.displayDisable (h : Hub) (i : Nat) : Hub :=
  if h.on (R.DSP_CTRL_EN i) then
    let h := if h.dspRuns i then h.dspFinish i none else h
    let x := h.dsp i
    let n := ((x.base.fifo ++ x.main.fifo).map DspLine.segs).sum
    let h := ((h.dspDrop i n).put (R.DSP_CTRL_EN i) 0).setDsp i
      { x with base := { x.base with fifo := [] }, main := { x.main with fifo := [] }, begun := false, inFrame := false,
               line := 0, run := 0, bannerHeld := [] }
    (((h.put (R.DSP_STATUS_RUNNING i) 0).put (R.DSP_STATUS_WAITING i) 0).put (R.DSP_STATUS_FALLBACK i) 0).lvdsShow i
  else h

/-- Whether the line 0 of a layer is complete at its FIFO head. -/
def DspLayer.ready (x : DspLayer) : Bool :=
  match x.fifo with
  | l :: _ => l.y == 0 && l.done
  | [] => false

/-- A layer latched at a frame start (R289, R293): checked, and off where its line 0 is not at hand after an underrun. -/
def Hub.dspLatch (h : Hub) (i l : Nat) : Hub :=
  let x := h.dsp i
  let v := x.layer l
  let s := h.dspRegs i l
  let geom := h.dspGeom i l s
  let stream := s.streamed l
  let bound := (h.dspTunnel i l).isSome
  let h := if s.en && !geom then h.put (R.DSP_L_STATUS_GEOM i l) 1 else h
  let h := h.put (R.DSP_L_STATUS_UNBOUND i l) (b2n (s.en && stream && !bound))
  let stay := v.off && stream && !v.ready
  let h := h.setDsp i (x.setLayer l { v with set := s, geom := geom, bound := bound, off := false, lines := 0 })
  if stay && s.en && bound && geom then
    if h.on (R.DSP_STATUS_FALLBACK i) then h.setDsp i ((h.dsp i).setLayer l { (h.dsp i).layer l with off := true })
    else h.dspUnder i l
  else h

/-- Fallback is entered or left at a frame start (R300, R301). -/
def Hub.dspFallback (h : Hub) (i : Nat) : Hub :=
  let x := h.dsp i
  let main := (h.dspRegs i 1).en && (h.dspTunnel i 1).isSome
  let starved := main && decide (h.get (R.DSP_CTRL_FB_FRAMES i) ≤ x.run)
  let trigger := h.cutOffHub || starved || h.on (R.DSP_CTRL_FB_FORCE i)
  let cnt := (h.rd (A.DSP_FRAME_CNT i)).toNat
  if h.on (R.DSP_STATUS_FALLBACK i) then
    if !trigger && (!main || x.main.ready) then (h.put (R.DSP_STATUS_FALLBACK i) 0).notice (21 + i) 0x81 0 cnt else h
  else if trigger then
    let h := (h.put (R.DSP_STATUS_FALLBACK i) 1).bump (word (A.DSP_FB_CNT i))
    h.log (21 + i) 0x02 sevCT 0 cnt (h.rd (A.DSP_FB_CNT i)).toNat
  else h

/-- FRAME_START (R293, R297): the first active pixel of line 0 of the next frame (assumption 57, DESIGN CHOICE). -/
def Hub.frameStart (h : Hub) (i : Nat) : Hub :=
  if h.dspRuns i && !(h.dsp i).inFrame then
    let cnt := (h.rd (A.DSP_FRAME_CNT i)).toNat
    let h := (((h.wr (A.DSP_FRAME_CNT i) (W (cnt + 1))).put (R.DSP_STATUS_RUNNING i) 1).put (R.DSP_STATUS_WAITING i) 0).dspFallback i
    let h := ((h.dspLatch i 0).dspLatch i 1).dspLatch i 2
    let h := h.setDsp i { h.dsp i with begun := true, inFrame := true, line := 0, startAt := h.now, bannerNow := none }
    h.bannerFetch i 0
  else h

/-- Whether a layer was on for the whole frame. -/
def DspLayer.whole (x : DspLayer) (l : Nat) : Bool :=
  x.set.en && x.geom && !x.off && (!x.set.streamed l || (x.bound && x.lines == x.set.h))

/-- FRAME_END (R298–R300): the end of the frame's last active line, and its blanking lines after it. `bad` is as for
LINE_SCAN (assumption 57, DESIGN CHOICE). -/
def Hub.frameEnd (h : Hub) (i : Nat) (bad : Option Nat) : Hub :=
  if h.dspRuns i && (h.dsp i).inFrame && (h.dsp i).line == (h.dspV i).1 then
    let h := (h.dspFinish i bad).dspBlank i
    let x := h.dsp i
    let fb := h.on (R.DSP_STATUS_FALLBACK i)
    let needs := fun (v : DspLayer) (l : Nat) => v.set.en && v.bound && v.set.streamed l
    let flip := (!needs x.base 0 || x.base.whole 0) && (!needs x.main 1 || x.main.whole 1)
    let h := h.put (R.DSP_L_STATUS_SHOWN i 0) (b2n (!fb && x.base.whole 0))
    let h := h.put (R.DSP_L_STATUS_SHOWN i 1) (b2n (!fb && x.main.whole 1))
    let h := h.put (R.DSP_L_STATUS_SHOWN i 2) (b2n ((x.banner.set.en || fb) && x.banner.geom && !x.banner.off))
    let run := if fb = false ∧ needs x.main 1 ∧ x.main.off then x.run + 1 else 0
    let x := { x with inFrame := false, line := 0, run := run }
    if flip then
      let h := h.setDsp i { x with holdBank := 1 - x.holdBank }
      let h := (h.wr (A.DSP_FLIP_LO i) (W x.startAt)).wr (A.DSP_FLIP_HI i) (W (x.startAt / 2 ^ 32))
      (h.wr (A.DSP_FLIP_FRAME i) (h.rd (A.DSP_FRAME_CNT i))).put (R.DSP_STATUS_HOLD_VALID i) 1
    else h.setDsp i x
  else h

/-- DSP_COUNTER_CLEAR (R303). -/
def Hub.dspClear (h : Hub) (i : Nat) : Hub := h.clearRange (A.DSP_UNDER_BASE i) (A.DSP_FB_CNT i)

/-- A head that waits for frame 0 starts 2,000 ticks after a backward set of station time (R514). -/
def Hub.dspTimeSet (h : Hub) (i : Nat) : Hub :=
  if h.on (R.DSP_CTRL_EN i) && !(h.dsp i).begun then h.setDspStart i (h.now + 2000) else h

/-! ### The rows of the table -/

/-- DISPLAY_ENABLE (R291). -/
def execDisplayEnable (d : Fin 2) (s : State) : Result := s.upd (fun h => h.displayEnable d)

/-- DISPLAY_DISABLE (R292). -/
def execDisplayDisable (d : Fin 2) (s : State) : Result := s.upd (fun h => h.displayDisable d)

/-- FRAME_START (R293). -/
def execFrameStart (d : Fin 2) (s : State) : Result := s.upd (fun h => h.frameStart d)

/-- LINE_SCAN (R289). -/
def execLineScan (d : Fin 2) (layer : Fin 2) (bad : Option Nat) (s : State) : Result :=
  s.upd (fun h => h.lineScan d layer bad)

/-- FRAME_END (R298). -/
def execFrameEnd (d : Fin 2) (bad : Option Nat) (s : State) : Result := s.upd (fun h => h.frameEnd d bad)

/-- DISPLAY_SEGMENT_RECEIVED (R287). -/
def execDisplaySegmentReceived (d : Fin 2) (layer : Fin 2) (s : State) : Result :=
  s.upd (fun h => h.displaySegment d layer)

/-- BANNER_PACKET_RECEIVED (R294). -/
def execBannerPacketReceived (d : Fin 2) (s : State) : Result := s.upd (fun h => h.bannerPacket d)

/-- DSP_COUNTER_CLEAR (R303). -/
def execDspCounterClear (d : Fin 2) (s : State) : Result := s.upd (fun h => h.dspClear d)

end Sys2Proof.Machine
end

