-- ==== Sys2Proof/Machine/Journal.lean ====
section
/-! DEFINITION. The event journal and the non-volatile store (R359–R370, R372): slots, tags, the chain and its
checkpoints, commits, wear moves, unprotect, stores and erases, and the recovery scan. -/

namespace Sys2Proof.Machine

/-! ### The array (R359, R361) -/

/-- Slots of the record ring. -/
abbrev ringSlots : Nat := 65536

/-- Address of a slot's record, of its tag, of a checkpoint line, of a program-entry descriptor, of the panel-image
selector, of a program page, and of a panel-image bank. -/
def recAddr (i : Nat) : Nat := 0x400000 + 32 * i
def tagAddr (i : Nat) : Nat := 0x600000 + 16 * i
def ckptAddr (k : Nat) : Nat := 0x700000 + 64 * k
def descAddr (e : Nat) : Nat := 0x704000 + 64 * e
def selAddr : Nat := 0x704400
def pageAddr (p : Nat) : Nat := 0x710000 + 4096 * p
def bankAddr (b : Nat) : Nat := if b = 0 then 0x790000 else 0x7C8000

/-- Word 0 of a slot's tag. -/
def Hub.tag (h : Hub) (i : Nat) : Nat := (h.mword (tagAddr i)).toNat

/-- TID, PROTECT, MOVED, SEALED, VALID and PASS of a tag word (R361). -/
def tagTid (t : Nat) : Nat := slice t 0 14
def tagProtect (t : Nat) : Bool := bit t 14
def tagMoved (t : Nat) : Bool := bit t 15
def tagSealed (t : Nat) : Bool := bit t 16
def tagValid (t : Nat) : Bool := bit t 17
def tagPass (t : Nat) : Nat := slice t 18 14

/-- A tag word. -/
def tagWord (tid : Nat) (protect moved sealed valid : Bool) (pass : Nat) : Nat :=
  tid % 16384 + b2n protect * 2 ^ 14 + b2n moved * 2 ^ 15 + b2n sealed * 2 ^ 16 + b2n valid * 2 ^ 17 + pass % 16384 * 2 ^ 18

/-- The bytes of a slot's record. -/
def Hub.record (h : Hub) (i : Nat) : List Byte := h.mbytes (recAddr i) 32

/-! ### The chain (R362) -/

/-- The key of a slot: unmasked (R442, R443). -/
def KeySlot.key (s : KeySlot) : List Byte := xorBytes s.masked s.mask

/-- The key most recently delivered to the journal sealer. -/
def Hub.sealerKey (h : Hub) : Option (List Byte) :=
  match h.sec.sealer with
  | some s => (KMap.get? h.sec.slots s).map KeySlot.key
  | none => none

/-- The chain value after a record (R362). -/
def chainNext (key prev rec_ : List Byte) (tid : Nat) (moved : Bool) (slot : Nat) : List Byte :=
  hmac384 key (prev ++ rec_ ++ leBytes 2 tid ++ leBytes 1 (b2n moved) ++ leBytes 2 slot)

/-- The chain value before the first sealed record: the spec states none. -/
def chainStart : List Byte := (List.range 48).map Config.chainStart

/-- The journal engine's writes of the array, whose words are then without error (R359, R360). -/
def Hub.nvStore (h : Hub) (a : Nat) (bs : List Byte) : Hub := (h.mstore a bs).freshRange a bs.length

/-- A checkpoint (R362): the chain value, the slot and the record's stamp, on the next of the 256 lines
(assumption 67, DEDUCED). -/
def Hub.checkpoint (h : Hub) (c : List Byte) (slot : Nat) : Hub :=
  let line := c ++ leBytes 2 slot ++ zeros 2 ++ (h.record slot).take 8 ++ zeros 4
  let k := h.jrn.ckpt
  let h := h.nvStore (ckptAddr k) line
  { h with jrn := { h.jrn with chain := some c, sealed := 0, ckpt := (k + 1) % 256 } }

/-! ### Slots (R365) -/

/-- Whether a slot holds a protected record not yet moved. -/
def Hub.guarded (h : Hub) (i : Nat) : Bool :=
  let t := h.tag i
  tagValid t && tagProtect t && !h.jrn.moves.any (fun m => m.1 == i)

/-- The slot and PASS of the next commit from a slot on, and how many slots are skipped. -/
def Hub.slotFrom (h : Hub) : Nat → Nat → Nat → Nat → Nat × Nat × Nat
  | 0, i, pass, k => (i, pass, k)
  | n + 1, i, pass, k =>
    let j := (i + 1) % ringSlots
    let q := if j = 0 then (pass + 1) % 16384 else pass
    if h.guarded j then h.slotFrom n j q (k + 1) else (j, q, k)

/-- A record is committed at the next slot (R363): record and tag as step 3 leaves them, HEAD and PASS, the chain, and a
checkpoint after every 256th sealed record. Answers the slot. -/
def Hub.commit (h : Hub) (rec_ : List Byte) (tid : Nat) (protect moved : Bool) : Hub × Nat :=
  let (i, pass, k) := h.slotFrom 16385 (h.get R.JRN_STATUS_HEAD) (h.get R.JRN_STATUS_PASS) 0
  let h := h.bumpBy R.JRN_SKIPPED k
  let h := { h with jrn := { h.jrn with moves := h.jrn.moves.filter (fun m => m.1 != i) } }
  let h := (h.nvStore (recAddr i) rec_)
  let h := (h.put R.JRN_STATUS_HEAD i).put R.JRN_STATUS_PASS pass
  match h.sealerKey, h.jrn.chain with
  | some key, some prev =>
    let c := chainNext key prev rec_ tid moved i
    let h := h.nvStore (tagAddr i) (leBytes 4 (tagWord tid protect moved true true pass) ++ c.take 8 ++ zeros 4)
    let h := { h with jrn := { h.jrn with chain := some c, sealed := h.jrn.sealed + 1 } }
    (if h.jrn.sealed = 256 then h.checkpoint c i else h, i)
  | _, _ => (h.nvStore (tagAddr i) (leBytes 4 (tagWord tid protect moved false true pass) ++ zeros 12), i)

/-! ### Commits and moves (R363, R366, R367) -/

/-- A result word: CODE and VALUE (R278). -/
def resultWord (code value : Nat) : Nat := code % 128 * 2 ^ 24 + value % 2 ^ 24

/-- The oldest operation of a kind without an outcome. -/
def Hub.opWaiting (h : Hub) (k : AsyncKind) : Option AsyncOp := h.tun.ops.find? (fun o => o.kind == k && o.outcome == none)

/-- An operation given its outcome. -/
def Hub.opOutcome (h : Hub) (o : AsyncOp) (r : Nat) : Hub :=
  { h with tun := { h.tun with ops := h.tun.ops.replace o { o with outcome := some r } } }

/-- JOURNAL_COMMIT (R282, R363, R366): the JREC issued first (assumption 53, DEDUCED). -/
def Hub.journalCommit (h : Hub) : Hub :=
  match h.opWaiting .jrec with
  | none => h
  | some o =>
    let protect := bit (o.block.getD 0 0).toNat 0
    if h.lifecycle = 4 then h.opOutcome o (resultWord 4 0)
    else if protect && decide (h.get R.JRN_PROT_LIMIT_LIMIT ≤ h.get R.JRN_PROT_CNT_COUNT) then h.opOutcome o (resultWord 6 0)
    else
      let body := bytesOf ((o.block.drop 1).take 6)
      let (h, i) := h.commit (leBytes 8 h.now ++ body) (h.ownTid o.ctx) protect false
      let h := if protect then h.put R.JRN_PROT_CNT_COUNT (h.get R.JRN_PROT_CNT_COUNT + 1) else h
      h.opOutcome o (resultWord 0 i)

/-- The protected record to move next: the first within 256 slots ahead of the head (R367). -/
def Hub.moveNext (h : Hub) : Option Nat :=
  let head := h.get R.JRN_STATUS_HEAD
  ((List.range 256).map (fun k => (head + 1 + k) % ringSlots)).find? h.guarded

/-- WEAR_MOVE (R367): while no JREC waits. -/
def Hub.wearMove (h : Hub) : Hub :=
  if !h.on R.JRN_CTRL_WEAR_EN || (h.opWaiting .jrec).isSome then h
  else
    match h.moveNext with
    | none => h
    | some s =>
      let (h', i) := h.commit (h.record s) (tagTid (h.tag s)) true true
      { h' with jrn := { h'.jrn with moves := h'.jrn.moves ++ [(s, i)] } }.bump R.JRN_MOVES

/-- The slot of a record's current copy, from any copy's slot. -/
def Hub.currentCopy (h : Hub) : Nat → Nat → Nat
  | 0, s => s
  | n + 1, s =>
    match h.jrn.moves.find? (fun m => m.1 == s) with
    | some m => h.currentCopy n m.2
    | none => s

/-- JRN_UNPROTECT (R366): PROTECT of the current copy clears with one tag write, or NOTPROT is set. -/
def Hub.jrnUnprotect (h : Hub) (slot : Nat) : Hub :=
  let h := h.put R.JRN_UNPROTECT_SLOT slot
  let s := h.currentCopy 16 slot
  let t := h.tag s
  if tagValid t && tagProtect t then
    (h.nvStore (tagAddr s) (leBytes 4 (t - 2 ^ 14))).put R.JRN_PROT_CNT_COUNT (h.get R.JRN_PROT_CNT_COUNT - 1)
  else h.put R.JRN_UNPROTECT_NOTPROT 1

/-! ### Key delivery (R362, R364) -/

/-- The newest checkpoint: that of the line written last in the rotation, whose place the array keeps through every reset;
none on an array without one (R362, R364) (assumption 67, DEDUCED). -/
def Hub.newestCkpt (h : Hub) : Option (List Byte) :=
  let l := h.mbytes (ckptAddr ((h.jrn.ckpt + 255) % 256)) 64
  if l.all (· == 0#8) then none else some l

/-- The PASS with which a slot was last committed: the head's up to the head, the one before beyond it (R365)
(assumption 67, DEDUCED). -/
def Hub.passOf (h : Hub) (i : Nat) : Nat :=
  let pass := h.get R.JRN_STATUS_PASS
  if i ≤ h.get R.JRN_STATUS_HEAD then pass else (pass + 16383) % 16384

/-- The chain recomputed over the slots after a checkpoint up to the head: the value, how many records were sealed since, and
the first slot whose LINK differs. A protected record that the ring passed over keeps an older PASS and is no link here
(R364, R365) (assumption 67, DEDUCED). -/
def Hub.rechain (h : Hub) (key : List Byte) : Nat → Nat → Nat → List Byte → List Byte × Nat × Option Nat
  | 0, _, k, c => (c, k, none)
  | n + 1, i, k, c =>
    let j := (i + 1) % ringSlots
    let t := h.tag j
    if tagValid t && tagSealed t && tagPass t == h.passOf j then
      let c' := chainNext key c (h.record j) (tagTid t) (tagMoved t) j
      if h.mbytes (tagAddr j + 4) 8 = c'.take 8 then h.rechain key n j (k + 1) c' else (c', k, some j)
    else h.rechain key n j k c

/-- A key reaches the journal sealer by a DONE TAP (R362, R364): the first delivery after power-up recomputes the chain
from the newest checkpoint, a change of the key writes a checkpoint (assumption 67, DEDUCED). -/
def Hub.sealerTapped (h : Hub) (old : Option (List Byte)) : Hub :=
  match h.sealerKey with
  | none => h
  | some key =>
    let head := h.get R.JRN_STATUS_HEAD
    match h.jrn.chain with
    | some c => if old = some key then h else h.checkpoint c head
    | none =>
      match h.newestCkpt with
      | none => h.checkpoint chainStart head
      | some l =>
        let slot := leNat ((l.drop 48).take 2)
        match h.rechain key (subMod ringSlots head slot) slot 0 (l.take 48) with
        | (c, k, none) => { h with jrn := { h.jrn with chain := some c, sealed := k } }
        | (c, _, some j) => ((h.put R.JRN_STATUS_CHAIN_BREAK 1).log 9 0x01 sevCT j 0 0).checkpoint c j

/-! ### The recovery scan (R364, R367) -/

/-- Step 2 of R364 over the slots in ascending index: the PASS of the ordinary slot before, and the first ordinary slot
that differs with the current pass. -/
def scanStep (tag : Nat → Nat) (st : Option Nat × Option (Nat × Nat)) (i : Nat) : Option Nat × Option (Nat × Nat) :=
  let t := tag i
  if st.2.isSome || tagProtect t then st
  else
    match st.1 with
    | some q => if tagPass t = q then st else (some (tagPass t), some (i, q))
    | none => (some (tagPass t), none)

/-- HEAD and PASS of the scan. -/
def Hub.scanHead (h : Hub) : Nat × Nat :=
  let r := (List.range ringSlots).foldl (scanStep h.tag) (none, none)
  let top := match r.2 with | some (i, _) => i | none => ringSlots
  let pass := match r.2 with | some (_, q) => q | none => r.1.getD 0
  (((List.range top).reverse.find? (fun i => tagPass (h.tag i) == pass)).getD 0, pass)

/-- The slots in which a copy's old slot is sought: those ahead of it, then round to those the commit that made it passed over
(R365, R367) (assumption 67, DEDUCED). -/
def otherSlots (i : Nat) : List Nat := (List.range (ringSlots - 1)).map (fun d => (i + 1 + d) % ringSlots)

/-- The old slots of moves rebuilt from the MOVED records among the 256 slots behind the head (R367)
(assumption 67, DEDUCED). -/
def Hub.scanMoves (h : Hub) (head : Nat) : List (Nat × Nat) :=
  (List.range 256).filterMap (fun k =>
    let i := (head + ringSlots - k) % ringSlots
    let t := h.tag i
    if tagValid t && tagMoved t then
      ((otherSlots i).find? (fun j =>
        let u := h.tag j
        tagValid u && tagProtect u && tagTid u == tagTid t && h.record j == h.record i)).map (fun j => (j, i))
    else none)

/-- The journal's scan at power-up (R364): HEAD, PASS, the list of moves, protected records, and a head slot that is a
lost commit (assumption 67, DEDUCED). -/
def Hub.journalScan (h : Hub) : Hub :=
  let (head, pass) := h.scanHead
  let moves := h.scanMoves head
  let h := { h with jrn := { JrnState.reset with moves := moves, ckpt := h.jrn.ckpt } }
  let prot := ((List.range ringSlots).filter (fun i => h.guarded i)).length
  let h := (((h.put R.JRN_STATUS_HEAD head).put R.JRN_STATUS_PASS pass).put R.JRN_PROT_CNT_COUNT prot).put R.JRN_STATUS_READY 1
  if tagValid (h.tag head) then h else h.bump R.JRN_LOST

/-- Whether a commit may be under way: that of the JREC issued first, or a wear move (R363, R367). -/
def Hub.commitDue (h : Hub) : Bool :=
  match h.opWaiting .jrec with
  | some o =>
    h.lifecycle != 4
      && !(bit (o.block.getD 0 0).toNat 0 && decide (h.get R.JRN_PROT_LIMIT_LIMIT ≤ h.get R.JRN_PROT_CNT_COUNT))
  | none => h.on R.JRN_CTRL_WEAR_EN && h.moveNext.isSome

/-- The record line of the commit that may be under way: that of the JREC issued first, or the record a wear move copies. -/
def Hub.commitRecord (h : Hub) : List Byte :=
  match h.opWaiting .jrec with
  | some o => leBytes 8 h.now ++ bytesOf ((o.block.drop 1).take 6)
  | none => match h.moveNext with
    | some s => h.record s
    | none => []

/-- Power lost between steps 1 and 3 of a commit (R363): the next slot's tag holds the new PASS and VALID 0, and after step 2
its record line is the new one (assumption 67, DEDUCED). -/
def Hub.commitLost (h : Hub) (cut : CommitCut) : Hub :=
  let (i, pass, _) := h.slotFrom 16385 (h.get R.JRN_STATUS_HEAD) (h.get R.JRN_STATUS_PASS) 0
  let h' := h.nvStore (tagAddr i) (leBytes 4 (tagWord 0 false false false false pass) ++ zeros 12)
  match cut with
  | .none_ => h
  | .tag => h'
  | .record => h'.nvStore (recAddr i) h.commitRecord

/-! ### Stores and erases (R368–R370) -/

/-- Whether a program entry's descriptor is valid. -/
def Hub.entryValid (h : Hub) (e : Nat) : Bool := h.mrd (descAddr e + 60) == 0xA5#8

/-- The pages of a program entry: the first and how many. -/
def Hub.entryPages (h : Hub) (e : Nat) : Nat × Nat :=
  if h.entryValid e then ((h.mrd (descAddr e + 54)).toNat, (h.mrd (descAddr e + 55)).toNat) else (0, 0)

/-- Whether program pages are free. -/
def Hub.pagesFree (h : Hub) (p n : Nat) : Bool :=
  decide (p + n ≤ 128) && (List.range 16).all (fun e => !overlap p n (h.entryPages e).1 (h.entryPages e).2)

/-- The first run of free pages (R368) (assumption 68, DEDUCED). -/
def Hub.firstFit (h : Hub) (n : Nat) : Option Nat := (List.range 128).find? (fun p => h.pagesFree p n)

/-- A store's result recorded. -/
def Hub.storeResult (h : Hub) (r : Nat) : Hub := h.put R.JRN_STORE_STATUS_RESULT r

/-- The checks of a program entry's store (R369), in their order; none where it goes ahead (assumption 68, DEDUCED). -/
def Hub.storeChecks (h : Hub) (src tunnel : Nat) : Option Nat :=
  let x := h.imageHead src
  if !x.wellFormed then some 3
  else if h.get (word A.DEV_BEHAVIOUR) < x.behaviour then some 10
  else if !bit x.flags 0 then some 8
  else if h.lifecycle = 2 ∧ bit (h.get R.SEC_STATUS_PKEYS) x.key = false then some 5
  else if h.lifecycle = 2 ∧ h.imageSigned src x = false then some 4
  else if tunnel = 0 ∨ 96 ≤ tunnel then some 11
  else if h.firstFit (ceilDiv x.total 4096) = none then some 7
  else none

/-- A store or an erase begins. -/
def Hub.storeStart (h : Hub) (s : JrnStore) : Hub :=
  { h.put R.JRN_STORE_STATUS_BUSY 1 with jrn := { h.jrn with store := some s } }

/-- Whether a cold pitch is reading an entry (R370) (assumption 68, DEDUCED). -/
def Hub.coldReading (h : Hub) (e : Nat) : Bool :=
  match h.tun.pitch with
  | some p => p.cold == some e
  | none => false

/-- The fields of STORE_CTRL; a reserved TARGET is ignored (R12). -/
def Hub.storeFields (h : Hub) (target : Nat) : Hub := if target ≤ 16 then h.put R.JRN_STORE_CTRL_TARGET target else h

/-- A store waits, BUSY, for the access table to let its source be read (R397) (assumption 68, DEDUCED). -/
def Hub.storeHeld (h : Hub) (q : StoreReq) : Hub :=
  { h with jrn := { h.jrn with storeWait := some q } }.put R.JRN_STORE_STATUS_BUSY 1

/-- A store is decided (R369): the panel image by its length and source, a program entry by its checks
(assumption 68, DEDUCED). -/
def Hub.storeDecide (h : Hub) (q : StoreReq) : Hub :=
  if q.target = 16 then
    if q.len = 0 ∨ 229376 < q.len then h.storeResult 11
    else
      match h.sourceOk q.src q.len with
      | (h, none) => h.storeHeld q
      | (h, some false) => h.storeResult 9
      | (h, some true) =>
        h.storeStart ⟨16, false, h.mbytes q.src q.len, sha384 (h.mbytes q.src q.len), 0, false, 0, 0⟩
  else if h.lifecycle = 3 ∨ h.lifecycle = 4 then h.storeResult 6
  else
    match h.sourceOk q.src (max 160 (h.imageHead q.src).total) with
    | (h, none) => h.storeHeld q
    | (h, some false) => h.storeResult 9
    | (h, some true) =>
      match h.storeChecks q.src q.tunnel with
      | some r => h.storeResult r
      | none =>
        let x := h.imageHead q.src
        h.storeStart ⟨q.target, false, h.mbytes q.src x.total, h.imageHash q.src x, q.tunnel, q.share, q.codeBase,
          q.dataBase⟩

/-- JRN_STORE (R369): STORE_CTRL written with GO and ERASE 0 (assumption 68, DEDUCED). -/
def Hub.jrnStore (h : Hub) (target tunnel : Nat) (share : Bool) : Hub :=
  let h := ((h.storeFields target).put R.JRN_STORE_CTRL_ERASE 0).put R.JRN_STORE_CTRL_MODE (b2n share)
  let h := h.put R.JRN_STORE_CTRL_TUNNEL tunnel
  let e := h.get R.JRN_STORE_CTRL_TARGET
  if h.on R.JRN_STORE_STATUS_BUSY || h.coldReading e then h.storeResult 2
  else h.storeDecide ⟨e, tunnel, share, (h.rd A.JRN_STORE_SRC).toNat, h.get R.JRN_STORE_BASE_CODE_BASE,
    h.get R.JRN_STORE_BASE_DATA_BASE, h.get R.JRN_STORE_LEN_LEN⟩

/-- What waited for the access table goes on as EN returns to 1 (R397): banner fetches take place, a pitch and a store are
decided again. -/
def Hub.heldResume (h : Hub) : Hub :=
  let h := ((h.bannerResume 0).bannerResume 1).pitchResume
  match h.jrn.storeWait with
  | some q => ({ h with jrn := { h.jrn with storeWait := none } }.put R.JRN_STORE_STATUS_BUSY 0).storeDecide q
  | none => h

/-- JRN_ERASE (R369). -/
def Hub.jrnErase (h : Hub) (target : Nat) : Hub :=
  let h := (h.storeFields target).put R.JRN_STORE_CTRL_ERASE 1
  let e := h.get R.JRN_STORE_CTRL_TARGET
  if h.on R.JRN_STORE_STATUS_BUSY || h.coldReading e then h.storeResult 2
  else h.storeStart ⟨e, true, [], [], 0, false, 0, 0⟩

/-- The descriptor line of a stored program entry (R368). -/
def JrnStore.desc (s : JrnStore) (page : Nat) : List Byte :=
  s.hash ++ leBytes 1 s.tunnel ++ leBytes 1 (b2n s.mode) ++ leBytes 2 s.codeBase ++ leBytes 2 s.dataBase ++ leBytes 1 page
    ++ leBytes 1 (ceilDiv s.image.length 4096) ++ leBytes 4 s.image.length ++ [0xA5#8, 0#8, 0#8, 0#8]

/-- The selector line of a stored panel image (R370). -/
def JrnStore.selector (s : JrnStore) (bank : Nat) : List Byte :=
  s.hash ++ leBytes 1 bank ++ zeros 3 ++ leBytes 4 s.image.length ++ zeros 8

/-- JRN_STORE_DONE (R368–R370): pages, then the descriptor or the selector line. -/
def Hub.jrnStoreDone (h : Hub) : Hub :=
  match h.jrn.store with
  | none => h
  | some s =>
    let h := ({ h with jrn := { h.jrn with store := none } }.put R.JRN_STORE_STATUS_BUSY 0).storeResult 1
    if s.target = 16 then
      if s.erase then h.nvStore selAddr (zeros 64)
      else
        let bank := if h.mrd (selAddr + 48) = 0#8 then 1 else 0
        (h.nvStore (bankAddr bank) s.image).nvStore selAddr (s.selector bank)
    else if s.erase then h.nvStore (descAddr s.target) (zeros 64)
    else
      let p := (h.firstFit (ceilDiv s.image.length 4096)).getD 0
      (h.nvStore (pageAddr p) s.image).nvStore (descAddr s.target) (s.desc p)

/-- JRN_COUNTER_CLEAR (R372). -/
def Hub.jrnClear (h : Hub) : Hub := h.clearRange A.JRN_LOST A.JRN_MOVES

/-! ### The rows of the table -/

/-- JOURNAL_COMMIT (R363). -/
def execJournalCommit (s : State) : Result := s.upd (fun h => h.journalCommit)

/-- WEAR_MOVE (R367). -/
def execWearMove (s : State) : Result := s.upd (fun h => h.wearMove)

/-- JRN_UNPROTECT (R366). -/
def execJrnUnprotect (slot : BitVec 16) (s : State) : Result := s.upd (fun h => h.jrnUnprotect slot.toNat)

/-- JRN_STORE (R369). -/
def execJrnStore (target : BitVec 5) (tunnel : BitVec 7) (share : Bool) (s : State) : Result :=
  s.upd (fun h => h.jrnStore target.toNat tunnel.toNat share)

/-- JRN_ERASE (R369). -/
def execJrnErase (target : BitVec 5) (s : State) : Result := s.upd (fun h => h.jrnErase target.toNat)


/-- JRN_COUNTER_CLEAR (R372). -/
def execJrnCounterClear (s : State) : Result := s.upd (fun h => h.jrnClear)

/-- ACC_ENABLE (R396). -/
def execAccEnable (s : State) : Result := s.upd (fun h => h.accEnable.heldResume)

end Sys2Proof.Machine
end

