-- ==== Sys2Proof/Machine/Usb.lean ====
section
/-! DEFINITION. The USB hub (chapter 13): split records, handles and results, transactions, microframes and the ports. The
hub function is in UsbFunction.lean. -/

namespace Sys2Proof.Machine

/-! ### Ports, instances, time -/

/-- A USB port beyond its registers. -/
def Hub.usbPort (h : Hub) (p : Nat) : UsbPort := SMap.get (fun _ => UsbPort.reset) h.usb.ports p

/-- The hub with a USB port's state set. -/
def Hub.setUsbPort (h : Hub) (p : Nat) (x : UsbPort) : Hub :=
  { h with usb := { h.usb with ports := SMap.set (fun _ => UsbPort.reset) h.usb.ports p x } }

/-- An instance of a port. -/
def UsbPort.inst (x : UsbPort) : Nat → UsbInst
  | 0 => x.i0
  | 1 => x.i1
  | _ => x.i2

/-- A port with an instance set. -/
def UsbPort.setInst (x : UsbPort) (k : Nat) (i : UsbInst) : UsbPort :=
  match k with
  | 0 => { x with i0 := i }
  | 1 => { x with i1 := i }
  | _ => { x with i2 := i }

/-- Port states (R343). -/
abbrev upOff : Nat := 0
abbrev upDisconnected : Nat := 1
abbrev upDisabled : Nat := 2
abbrev upResetting : Nat := 3
abbrev upEnabled : Nat := 4
abbrev upSuspended : Nat := 5
abbrev upResuming : Nat := 6

/-- STATE of a port. -/
def Hub.usbState (h : Hub) (p : Nat) : Nat := h.get (R.USBH_PORT_STATUS_STATE p)

/-- SPEED of a port: 0 FS, 1 LS, 2 HS, 3 none. -/
def Hub.usbSpeed (h : Hub) (p : Nat) : Nat := h.get (R.USBH_PORT_STATUS_SPEED p)

/-- In clock mode FREE the USB hub is held stopped (R115): it takes no record, runs no transaction and starts no
microframe (assumption 64, DEDUCED). -/
def Hub.usbStopped (h : Hub) : Bool := h.clkMode == ckFree

/-- The current microframe index. -/
def Hub.ufIndex (h : Hub) : Nat := h.get R.USBH_FRAME_INDEX

/-- ADJ in bit times. -/
def Hub.ufAdj (h : Hub) : Int := signed 8 (h.rd A.USBH_FRAME_ADJ).toNat

/-- Time from the start of frame-aligned microframe 0 to that of microframe `m`, in 1/24 tick (R351): a microframe is
62,500 ticks and a frame ADJ bit times of 25/24 tick more. -/
def ufSpan (adj : Int) (m : Nat) : Int := (m / 8 : Nat) * (12000000 + 25 * adj) + (m % 8 : Nat) * 1500000

/-! ### Results (R338, R339) -/

/-- Word 0 of a record's answer: its own fields with KIND RESULT, the STATUS and the PID. -/
def UsbRec.answer0 (r : UsbRec) (status : Nat) (toggle : Bool) : Nat :=
  r.handle + 32 + r.token * 64 + r.dev * 256 + b2n r.hub * 32768 + r.ep * 65536 + r.typ * 2 ^ 20 + b2n toggle * 2 ^ 22
    + status * 2 ^ 24

/-- The segments of a RESULT (R337). -/
def resultSegs (w0 : Nat) (data : List Byte) : List (List Word) :=
  let n := max 1 (ceilDiv data.length 504)
  (List.range n).map (fun s =>
    W w0 :: W (data.length * 65536 + s * 2 ^ 28 + b2n (s + 1 == n) * 2 ^ 30) :: wordsOf ((data.drop (504 * s)).take 504))

/-- The tunnel of an instance (R335). -/
def Hub.usbTunnel (h : Hub) (p k : Nat) : Option Nat := h.boundTo (0x18 + 3 * p + k) 1

/-- A RESULT is sent to the instance's destination, or discarded and counted where that is invalid (R335). -/
def Hub.usbAnswer (h : Hub) (p k : Nat) (r : UsbRec) (v : UsbRes) : Hub :=
  let dest := (h.rd (A.USBH_DEST p k)).toNat % 16384
  match h.usbTunnel p k with
  | none => h
  | some n =>
    if tidValid dest then
      (resultSegs (r.answer0 v.status v.toggle) v.data).foldl (fun h ws => (h.send n dest (h.bindCls n) 0 0 h.stamp ws).1) h
    else h.bump (word (A.USBH_SPLIT_DISCARD p))

/-- A result without data. -/
def bare (status : Nat) : UsbRes := ⟨status, false, []⟩

/-- A split with its final result (R338); ERR and BABBLE are counted. -/
def Hub.usbFinish (h : Hub) (p : Nat) (s : UsbSplit) (v : UsbRes) : Hub :=
  let x := h.usbPort p
  let h := if v.status = 4 ∨ v.status = 10 then h.bump (word (A.USBH_XACT_ERR p)) else h
  let f := fun (t : UsbSplit) =>
    if t.k = s.k ∧ t.rec_.handle = s.rec_.handle ∧ t.res = none then { t with res := some v, doneUf := h.usb.uf } else t
  h.setUsbPort p { x with splits := x.splits.map f }

/-- The unfinished SETUPs of the hub function end with ACK: a SETUP is always accepted, and a later one starts a new
transfer (R350) (assumption 63, DEDUCED). -/
def Hub.usbSetupEnd (h : Hub) (p : Nat) : Hub :=
  let x := h.usbPort p
  let g := fun (t : UsbSplit) =>
    if t.res = none ∧ t.rec_.hub = true ∧ t.rec_.token = 0 then { t with res := some ⟨0, false, []⟩, doneUf := h.usb.uf } else t
  h.setUsbPort p { x with splits := x.splits.map g }

/-- The unfinished splits of a port that satisfy a test end with RESET (R343, R347, R350). -/
def Hub.usbReset (h : Hub) (p : Nat) (f : UsbSplit → Bool) : Hub :=
  let x := h.usbPort p
  let g := fun (t : UsbSplit) => if t.res = none ∧ f t = true then { t with res := some (bare 8), doneUf := h.usb.uf } else t
  h.setUsbPort p { x with splits := x.splits.map g }

/-! ### Records (R336, R337) -/

/-- The fields of two header words. -/
def recOf (w0 w1 : Nat) (data : List Byte) : UsbRec :=
  { handle := slice w0 0 4, kind := slice w0 4 2, token := slice w0 6 2, dev := slice w0 8 7, hub := bit w0 15,
    ep := slice w0 16 4, typ := slice w0 20 2, toggle := bit w0 22, uframe := slice w1 0 14, bytes := slice w1 16 11,
    data := data }

/-- Whether a TYPE belongs to an instance (R335). -/
def typeOf (k typ : Nat) : Bool :=
  match k with
  | 0 => typ == 0 || typ == 3
  | 1 => typ == 1
  | _ => typ == 2

/-- The most data bytes of a TYPE (R334) (assumption 63, DEDUCED). -/
def mostBytes (typ : Nat) : Nat := if typ = 0 then 64 else if typ = 2 then 512 else 1024

/-- Whether header words keep the record layout on an instance (R335, R336) (assumption 63, DEDUCED). -/
def headGood (k w0 w1 : Nat) : Bool :=
  let r := recOf w0 w1 []
  let periodic := r.typ == 1 || r.typ == 3
  !bit w0 23 && slice w0 24 8 == 0 && r.token != 3 && typeOf k r.typ && (!r.hub || k == 0) && r.kind != 2
    && (if r.kind = 0 then
          slice w1 14 2 == 0 && !bit w1 27 && !bit w1 31 && (periodic || r.uframe == 0)
            && (if r.token = 0 then r.typ == 0 && r.bytes == 8 else decide (r.bytes ≤ mostBytes r.typ))
        else w1 == 0)

/-- Data bytes of a record: SETUP and OUT splits carry theirs. -/
def UsbRec.carried (r : UsbRec) : Nat := if r.kind = 0 ∧ r.token ≠ 2 then r.bytes else 0

/-- What a packet makes of the record in arrival: a complete record, more to come, or a malformed record. -/
inductive UsbIn where
  | full (r : UsbRec)
  | more
  | bad
  | pass
deriving DecidableEq, Repr

/-- A packet at an instance (R335, R337). -/
def UsbInst.take (i : UsbInst) (k : Nat) (p : Packet) : UsbInst × UsbIn :=
  let w0 := (p.payload.getD 0 0).toNat
  let w1 := (p.payload.getD 1 0).toNat
  let seg := slice w1 28 2
  let last := bit w1 30 || slice w0 4 2 != 0
  let bare1 := setSlice w1 28 3 0
  let clear : UsbInst := { UsbInst.reset with halted := i.halted }
  let fail : UsbInst := if last then clear else { clear with bad := true }
  if i.bad ∧ seg ≠ 0 then (if last then clear else i, .pass)
  else if p.kind ≠ 0 ∨ p.aux ≠ 0 ∨ p.length < 2 then (clear, .bad)
  else if headGood k w0 (if slice w0 4 2 = 0 then bare1 else w1) = false then (fail, .bad)
  else if seg ≠ 0 ∧ (i.next ≠ seg ∨ i.w0 ≠ w0 ∨ i.w1 ≠ bare1) then (fail, .bad)
  else
    let r := recOf w0 w1 []
    let n := r.carried
    let len := min 504 (n - 504 * seg)
    let fin := decide (n ≤ 504 * (seg + 1))
    if p.length ≠ 2 + ceilDiv len 4 ∨ last ≠ fin then (fail, .bad)
    else
      let data := (if seg = 0 then [] else i.data) ++ (bytesOf (p.payload.drop 2)).take len
      if fin then (clear, .full { r with data := data })
      else ({ i with w0 := w0, w1 := bare1, data := data, next := seg + 1, bad := false }, .more)

/-- The next packet at an instance, when its record has the kind asked for; a malformed one goes with the SSPLITs. None is
taken while a rebuild keeps its RESULT from a cell (R164). -/
def Hub.usbPacket (h : Hub) (p k kind : Nat) : Option Packet :=
  match (if h.usbStopped || h.on R.FAB_STATUS_REBUILD then none else h.usbTunnel p k) with
  | none => none
  | some n =>
    match h.epNext 11 n with
    | none => none
    | some q =>
      let x := slice (q.payload.getD 0 0).toNat 4 2
      let x := if x = 2 ∨ q.payload = [] then 0 else x
      if x = kind then some q else none

/-- The record that the next packet completes, its packet taken. A record cut short by a new one is malformed. -/
def Hub.usbTake (h : Hub) (p k kind : Nat) : Hub × Option UsbRec :=
  match h.usbPacket p k kind, h.usbTunnel p k with
  | some q, some n =>
    let h := h.epPop 11 n
    let x := h.usbPort p
    let cut := (x.inst k).next != 0 && slice (q.payload.getD 1 0).toNat 28 2 == 0
    let h := if cut then h.bump (word (A.USBH_SPLIT_DISCARD p)) else h
    let (i, r) := (x.inst k).take k q
    let h := h.setUsbPort p (x.setInst k i)
    match r with
    | .full r => (h, some r)
    | .bad => (h.bump (word (A.USBH_SPLIT_DISCARD p)), none)
    | _ => (h, none)
  | _, _ => (h, none)

/-! ### SSPLIT (R341, R342, R344) -/

/-- A split that an instance and handle occupy. -/
def UsbPort.split? (x : UsbPort) (k handle : Nat) : Option UsbSplit :=
  x.splits.find? (fun s => s.k == k && s.rec_.handle == handle)

/-- Bus time in picoseconds of a periodic transaction by the formulas of USB 2.0 section 5.11.3 (assumption 65, PRESUMED). -/
def busTime (speed : Nat) (r : UsbRec) : Nat :=
  let b := 11667 * 8 * r.bytes / 10000
  if speed = 2 then (if r.typ = 1 then 38 else 55) * 8 * 2083 + 2083 * (3167 + 1000 * b) / 1000
  else if speed = 1 then (if r.token = 2 then 64060000 else 64107000) + 2 * 333000 + 676670 * (3167 + 1000 * b) / 1000
  else (if r.typ = 3 then 9107000 else if r.token = 2 then 7268000 else 6265000) + 83540 * (3167 + 1000 * b) / 1000

/-- Whether a microframe index names the same microframe, or the same frame for a full-speed or low-speed device. -/
def sameSlot (speed a b : Nat) : Bool := if speed = 2 then a == b else a / 8 == b / 8

/-- Time from the current microframe's start to that of the one `ahead`, in 1/24 tick (R351): the frame in progress keeps
the ADJ with which its microframe 7 has begun. -/
def Hub.ufAway (h : Hub) (ahead : Nat) : Int :=
  let m := h.ufIndex % 8
  let cur := if m = 7 then h.usb.adj7 else h.ufAdj
  if m + ahead < 8 then ufSpan cur ahead else ufSpan cur 8 - ufSpan cur m + ufSpan h.ufAdj (m + ahead - 8)

/-- Whether a periodic split's target lies 20 µs to 64 microframes ahead (R341). -/
def Hub.usbAhead (h : Hub) (r : UsbRec) : Bool :=
  let ahead := subMod 16384 r.uframe h.ufIndex
  h.on R.USBH_FRAME_RUNNING && decide (ahead ≤ 64)
    && decide (h.root + 20 * us ≤ h.usb.ufAt + (h.ufAway ahead / 3).toNat)

/-- Whether a periodic split to a device keeps its target (R341): in time, on a frame boundary for a slow device, within
the share of the microframe or frame. -/
def Hub.usbOnTime (h : Hub) (p : Nat) (r : UsbRec) : Bool :=
  let speed := h.usbSpeed p
  let others := (h.usbPort p).splits.filter (fun s =>
    s.res == none && (s.rec_.typ == 1 || s.rec_.typ == 3) && sameSlot speed s.rec_.uframe r.uframe)
  let load := ((r :: others.map UsbSplit.rec_).map (busTime speed)).sum
  h.usbAhead r && (speed == 2 || r.uframe % 8 == 0) && decide (load ≤ if speed = 2 then 100000000 else 900000000)

/-- An accepted split occupies its handle (R338), with its result where it has one at once. -/
def Hub.usbAccept (h : Hub) (p k : Nat) (r : UsbRec) (v : Option Nat) : Hub :=
  let x := h.usbPort p
  let s : UsbSplit := { k := k, rec_ := r, res := none, doneUf := 0, naks := 0, errs := 0 }
  let h := (h.bump (word (A.USBH_SPLITS p))).setUsbPort p { x with splits := x.splits ++ [s] }
  match v with
  | some st => h.usbFinish p s (bare st)
  | none => h

/-- What a split to a device gets at once (R340, R341, R344); none where it goes to the bus. -/
def Hub.usbAtOnce (h : Hub) (p : Nat) (r : UsbRec) : Option Nat :=
  if h.usbState p ≠ upEnabled then some 8
  else if h.usbSpeed p = 1 ∧ ((r.typ ≠ 0 ∧ r.typ ≠ 3) ∨ 8 < r.bytes) then some 4
  else if (r.typ = 1 ∨ r.typ = 3) ∧ h.usbOnTime p r = false then some 5
  else none

/-- A tunnel that cannot serve an SSPLIT yet is halted, and answers HALTED (R342). -/
def Hub.usbHalts (h : Hub) (p k : Nat) (r : UsbRec) : Bool :=
  let x := h.usbPort p
  (x.inst k).halted || (x.split? k r.handle).isSome || decide (16 ≤ (x.splits.filter (fun s => s.k == k)).length)

/-- HALTED is answered and counted (R342). -/
def Hub.usbHalted (h : Hub) (p k : Nat) (r : UsbRec) : Hub :=
  let x := h.usbPort p
  ((h.setUsbPort p (x.setInst k { x.inst k with halted := true })).bump (word (A.USBH_HALTS p))).usbAnswer p k r (bare 7)

/-! ### CSPLIT and ABORT (R338, R342) -/

/-- The occupied handle that a CSPLIT or an ABORT names: every field it repeats agrees, but for DEVADDR where HUB is 1. -/
def UsbPort.named (x : UsbPort) (k : Nat) (r : UsbRec) : Option UsbSplit :=
  x.splits.find? (fun s =>
    s.k == k && s.rec_.handle == r.handle && s.rec_.token == r.token && (r.hub || s.rec_.dev == r.dev) && s.rec_.hub == r.hub
      && s.rec_.ep == r.ep && s.rec_.typ == r.typ)

/-- A handle is freed. -/
def Hub.usbFree (h : Hub) (p : Nat) (s : UsbSplit) : Hub :=
  let x := h.usbPort p
  h.setUsbPort p { x with splits := x.splits.erase s }

/-- USB_CSPLIT (R338). -/
def Hub.usbCsplit (h : Hub) (p k : Nat) : Hub :=
  match h.usbTake p k 1 with
  | (h, none) => h
  | (h, some r) =>
    match (h.usbPort p).named k r with
    | none => h.usbAnswer p k r (bare 9)
    | some s =>
      match s.res with
      | none => h.usbAnswer p k s.rec_ (bare 3)
      | some v => (h.usbFree p s).usbAnswer p k s.rec_ v

/-- USB_ABORT (R342): cancels its handle and clears the halt. -/
def Hub.usbAbort (h : Hub) (p k : Nat) : Hub :=
  match h.usbTake p k 3 with
  | (h, none) => h
  | (h, some r) =>
    let x := h.usbPort p
    let h := h.setUsbPort p (x.setInst k { x.inst k with halted := false })
    match (h.usbPort p).named k r with
    | none => h.usbAnswer p k r (bare 9)
    | some s => (h.usbFree p s).usbAnswer p k s.rec_ (bare 6)

/-- USB_RESULT_EXPIRE (R338). -/
def Hub.usbExpire (h : Hub) (p k handle : Nat) : Hub :=
  match (h.usbPort p).split? k handle with
  | some s =>
    if s.res.isSome ∧ s.doneUf + h.get R.USBH_CTRL_HOLD_UF ≤ h.usb.uf then
      (h.usbFree p s).bump (word (A.USBH_SPLIT_EXPIRED p))
    else h
  | none => h

/-! ### Transactions (R340) -/

/-- The endpoint that a split names. -/
def UsbRec.endpoint (r : UsbRec) : UsbEnd := (r.dev, r.ep, r.typ != 0 && r.token == 2)

/-- Whether a split may be tried on the bus now: its endpoint has had no transaction in this microframe (R334), and a
periodic one waits for its target. -/
def Hub.usbReady (h : Hub) (p : Nat) (periodic : Bool) (s : UsbSplit) : Bool :=
  let per := s.rec_.typ == 1 || s.rec_.typ == 3
  s.res == none && !s.rec_.hub && per == periodic && !(h.usbPort p).tried.contains (h.usb.uf, s.rec_.endpoint)
    && (!per || s.naks != 0 || s.errs != 0 || sameSlot (h.usbSpeed p) s.rec_.uframe h.ufIndex)

/-- The next scheduled split of a port (R340): periodic ones first, then the others in acceptance order. -/
def Hub.usbNext (h : Hub) (p : Nat) : Option UsbSplit :=
  let xs := (h.usbPort p).splits
  (xs.find? (h.usbReady p true)).orElse (fun _ => xs.find? (h.usbReady p false))

/-- A split changed in place (assumption 63, DEDUCED). -/
def Hub.usbUpdate (h : Hub) (p : Nat) (s t : UsbSplit) : Hub :=
  let x := h.usbPort p
  h.setUsbPort p { x with splits := x.splits.map (fun u => if u = s then t else u) }

/-- The hub with an endpoint's transaction of this microframe recorded (R334), and whether its next OUT starts with PING
where that changes (R340) (assumption 63, DEDUCED). -/
def Hub.usbTried (h : Hub) (p : Nat) (e : UsbEnd) (ping : Option Bool) : Hub :=
  let x := h.usbPort p
  let pings := match ping with
    | some b => (if b then [e] else []) ++ x.pings.filter (fun d => d != e)
    | none => x.pings
  h.setUsbPort p { x with tried := (h.usb.uf, e) :: x.tried.filter (fun t => t.1 == h.usb.uf), pings := pings }

/-- A port leaves service other than by suspend or resume: its device splits end with RESET (R343), and its devices' PING
state with them. -/
def Hub.usbLeave (h : Hub) (p state : Nat) : Hub :=
  let st := h.usbState p
  let h := h.put (R.USBH_PORT_STATUS_STATE p) state
  if st = upEnabled ∨ st = upSuspended ∨ st = upResuming then
    let h := h.usbReset p (fun s => !s.rec_.hub)
    h.setUsbPort p { h.usbPort p with pings := [] }
  else h

/-- Whether a field of some port's PORT_STATUS is set. -/
def Hub.usbAny (h : Hub) (f : Nat → RF) : Bool := (List.range 4).any (fun p => h.on (f p))

/-- The bitmap of changes (R349): bit 0 the hub's, bits 1 to 4 those of ports 0 to 3 (assumption 127, DEDUCED). -/
def Hub.usbChanges (h : Hub) : Nat :=
  b2n (h.usbAny R.USBH_PORT_STATUS_C_OVERCURRENT)
    + ((List.range 4).map (fun p => if slice (h.rd (A.USBH_PORT_STATUS p)).toNat 8 5 = 0 then 0 else 2 ^ (p + 1))).sum

/-- A change is set and latched into endpoint 1's buffers (R349). -/
def Hub.usbChange (h : Hub) (f : RF) : Hub :=
  let h := h.put f 1
  let v := h.usbChanges
  let rs := match h.usb.reports with
    | [a, b] => [a, Nat.lor b v]
    | l => l ++ [v]
  { h with usb := { h.usb with reports := rs } }

/-- Whether a device took the data of an OUT. -/
def UsbOutcome.took : UsbOutcome → Bool
  | .ack _ _ => true
  | .nyet => true
  | _ => false

/-- USB_TRANSACTION (R340): the next scheduled split of a port, with what its device did. A high-speed bulk or control OUT
starts with PING after a NAK, a NYET or an error, and its data follow where the device lets them
(assumption 63, DEDUCED). -/
def Hub.usbTransaction (h : Hub) (p : Nat) (o : UsbOutcome) : Hub :=
  if h.usbState p ≠ upEnabled ∨ h.usbStopped then h
  else
    match h.usbNext p with
    | none => h
    | some s =>
      let r := s.rec_
      let out := r.token == 1 && (r.typ == 0 || r.typ == 2) && h.usbSpeed p == 2
      let ping := out && (h.usbPort p).pings.contains r.endpoint
      let h := if ping then h.emit (.usb p 3 r.dev r.ep false []) else h
      let h := if ping && !o.took then h else h.emit (.usb p r.token r.dev r.ep (r.toggle && r.typ != 1) r.data)
      let again := match o with
        | .ack _ _ => false
        | .stall => false
        | _ => true
      let h := h.usbTried p r.endpoint (if out then some again else none)
      let babbled := fun (h : Hub) =>
        ((h.usbFinish p s (bare 10)).usbLeave p upDisabled).usbChange (R.USBH_PORT_STATUS_C_ENABLE p)
      match o with
      | .ack data d1 =>
        if r.token = 2 then
          if r.bytes < data.length then babbled h else h.usbFinish p s ⟨0, d1, data⟩
        else h.usbFinish p s (bare 0)
      | .nyet => h.usbFinish p s (bare 0)
      | .stall => h.usbFinish p s (bare 2)
      | .babble => babbled h
      | .nak =>
        if h.get R.USBH_CTRL_NAK_LIMIT ≤ s.naks + 1 then h.usbFinish p s (bare 1)
        else h.usbUpdate p s { s with naks := s.naks + 1, errs := 0 }
      | .error =>
        if r.typ = 1 ∨ 2 ≤ s.errs then h.usbFinish p s (bare 4) else h.usbUpdate p s { s with errs := s.errs + 1 }

/-! ### Microframes (R351) -/

/-- BASE, 64 bits. -/
def Hub.usbBase (h : Hub) : Nat := (h.rd A.USBH_BASE_LO).toNat + (h.rd A.USBH_BASE_HI).toNat * 2 ^ 32

/-- The smallest microframe number from `b` up whose start is at least `x` after that of microframe 0, in 1/24 tick. -/
def firstUf (adj x : Int) (b : Nat) : Nat :=
  let frame := 12000000 + 25 * adj
  let q := (x / frame).toNat
  let u := ((x - q * frame + 1499999) / 1500000).toNat
  max b (q * 8 + min u 8)

/-- USB_SOF_ENABLE (R351): SOF_EN written from 0 to 1; the index of the first microframe to start. -/
def Hub.usbSofEnable (h : Hub) : Hub :=
  if h.on R.USBH_CTRL_SOF_EN then h
  else
    let uf := (h.rd A.USBH_BASE_UF).toNat % 16384
    let m :=
      if h.now + 10000 ≤ h.usbBase then uf % 8
      else firstUf h.ufAdj (((h.now + 10000 : Nat) - (h.usbBase : Int)) * 24 + ufSpan h.ufAdj (uf % 8)) (uf % 8)
    let h := h.put R.USBH_CTRL_SOF_EN 1
    { h with usb := { h.usb with nextIdx := (uf + m - uf % 8) % 16384 } }

/-- Periodic splits whose target has passed untried could not be met (R341). -/
def Hub.usbMissed (h : Hub) (p : Nat) : Hub :=
  let x := h.usbPort p
  let f := fun (s : UsbSplit) =>
    if s.res = none ∧ s.rec_.hub = false ∧ (s.rec_.typ = 1 ∨ s.rec_.typ = 3) ∧ s.naks = 0 ∧ s.errs = 0
        ∧ sameSlot (h.usbSpeed p) s.rec_.uframe h.ufIndex = false ∧ 8192 ≤ subMod 16384 s.rec_.uframe h.ufIndex then
      { s with res := some (bare 5), doneUf := h.usb.uf }
    else s
  h.setUsbPort p { x with splits := x.splits.map f }

/-- SOF or keep-alive to an enabled port at a boundary. -/
def Hub.usbSof (h : Hub) (p : Nat) : Hub :=
  let i := h.ufIndex
  if h.usbState p ≠ upEnabled then h
  else if h.usbSpeed p = 2 then h.emit (.usbSof p (i / 8))
  else if i % 8 ≠ 0 then h
  else if h.usbSpeed p = 1 then h.emit (.usbKeepAlive p)
  else h.emit (.usbSof p (i / 8))

/-- USB_MICROFRAME (R351): a microframe starts. -/
def Hub.usbMicroframe (h : Hub) : Hub :=
  if h.on R.USBH_CTRL_SOF_EN && !h.usbStopped then
    let i := h.usb.nextIdx
    let h := (h.put R.USBH_FRAME_INDEX i).put R.USBH_FRAME_RUNNING 1
    let h := { h with usb := { h.usb with uf := h.usb.uf + 1, ufAt := h.root, nextIdx := (i + 1) % 16384 } }
    let h := if i % 8 = 0 then (h.wr A.USBH_SOF_LO (W h.now)).wr A.USBH_SOF_HI (W (h.now / 2 ^ 32)) else h
    let h := if i % 8 = 7 then { h with usb := { h.usb with adj7 := h.ufAdj } } else h
    let h := [0, 1, 2, 3].foldl Hub.usbMissed h
    [0, 1, 2, 3].foldl Hub.usbSof h
  else h

/-- SOF_EN written to 0: the count stops. -/
def Hub.usbSofDisable (h : Hub) : Hub := (h.put R.USBH_CTRL_SOF_EN 0).put R.USBH_FRAME_RUNNING 0

/-! ### Port states (R343, R345, R346, R352) -/

/-- A port without power: VBUS_EN low, nothing attached. -/
def Hub.usbOff (h : Hub) (p : Nat) : Hub :=
  let h := h.usbLeave p upOff
  let h := (h.put (R.USBH_PORT_STATUS_SPEED p) 3).put (R.USBH_PORT_STATUS_CONNECT p) 0
  h.setUsbPort p { h.usbPort p with vbus := false, chirp := false }

/-- USB_PORT_POWER_ON (R343): ignored while OC_N is active or while the hub does not run. -/
def Hub.usbPowerOn (h : Hub) (p : Nat) : Hub :=
  if h.on R.USBH_CTRL_EN ∧ h.usbState p = upOff ∧ h.on (R.USBH_PORT_STATUS_OC p) = false then
    h.setUsbPort p { h.usbPort p with vbus := true }
  else h

/-- USB_PORT_POWER_GOOD (R343): 100 ms with VBUS_EN high. -/
def Hub.usbPowerGood (h : Hub) (p : Nat) : Hub :=
  if h.usbState p = upOff ∧ (h.usbPort p).vbus then h.put (R.USBH_PORT_STATUS_STATE p) upDisconnected else h

/-- USB_PORT_POWER_OFF (R343). -/
def Hub.usbPowerOff (h : Hub) (p : Nat) : Hub := h.usbOff p

/-- USB_PORT_RESET (R345). -/
def Hub.usbPortReset (h : Hub) (p : Nat) : Hub :=
  let st := h.usbState p
  if st = upDisabled ∨ st = upEnabled then
    let h := (h.usbLeave p upResetting).emit (.usbReset p)
    h.setUsbPort p { h.usbPort p with chirp := false }
  else h

/-- USB_CHIRP_DETECTED (R345). -/
def Hub.usbChirp (h : Hub) (p : Nat) : Hub :=
  if h.usbState p = upResetting then (h.setUsbPort p { h.usbPort p with chirp := true }).emit (.usbKj p) else h

/-- SPEED of the pull-up that is seen. -/
def UsbPort.pullUp (x : UsbPort) : Nat := if x.low then 1 else 0

/-- USB_RESET_COMPLETE (R345). -/
def Hub.usbResetDone (h : Hub) (p : Nat) : Hub :=
  if h.usbState p = upResetting then
    let x := h.usbPort p
    let h := (h.put (R.USBH_PORT_STATUS_STATE p) upEnabled).put (R.USBH_PORT_STATUS_SPEED p) (if x.chirp then 2 else x.pullUp)
    h.usbChange (R.USBH_PORT_STATUS_C_RESET p)
  else h

/-- USB_PORT_DISABLE (R343). -/
def Hub.usbDisable (h : Hub) (p : Nat) : Hub := if h.usbState p = upEnabled then h.usbLeave p upDisabled else h

/-- USB_PORT_SUSPEND (R352). -/
def Hub.usbSuspend (h : Hub) (p : Nat) : Hub :=
  if h.usbState p = upEnabled then h.put (R.USBH_PORT_STATUS_STATE p) upSuspended else h

/-- USB_PORT_RESUME (R352). -/
def Hub.usbResume (h : Hub) (p : Nat) : Hub :=
  if h.usbState p = upSuspended then (h.put (R.USBH_PORT_STATUS_STATE p) upResuming).emit (.usbResume p) else h

/-- USB_RESUME_COMPLETE (R352). -/
def Hub.usbResumeDone (h : Hub) (p : Nat) : Hub :=
  if h.usbState p = upResuming then
    (h.put (R.USBH_PORT_STATUS_STATE p) upEnabled).usbChange (R.USBH_PORT_STATUS_C_SUSPEND p)
  else h

/-- USB_REMOTE_WAKE (R352): on a port already resuming only WAKE_SEEN is set. -/
def Hub.usbWake (h : Hub) (p : Nat) : Hub :=
  if h.usbState p = upSuspended then (h.put (R.USBH_PORT_STATUS_WAKE_SEEN p) 1).usbResume p
  else if h.usbState p = upResuming then h.put (R.USBH_PORT_STATUS_WAKE_SEEN p) 1
  else h

/-- USB_CONNECT (R343, R345): a pull-up on D+, or on D− for a low-speed device. -/
def Hub.usbConnect (h : Hub) (p : Nat) (low : Bool) : Hub :=
  if h.usbState p = upDisconnected then
    let h := (h.put (R.USBH_PORT_STATUS_STATE p) upDisabled).put (R.USBH_PORT_STATUS_CONNECT p) 1
    let h := h.setUsbPort p { h.usbPort p with low := low }
    (h.put (R.USBH_PORT_STATUS_SPEED p) (b2n low)).usbChange (R.USBH_PORT_STATUS_C_CONNECT p)
  else h

/-- USB_DISCONNECT (R343): in every powered state. -/
def Hub.usbDisconnect (h : Hub) (p : Nat) : Hub :=
  if h.usbState p = upOff ∨ h.usbState p = upDisconnected then h
  else
    let h := (h.usbLeave p upDisconnected).put (R.USBH_PORT_STATUS_CONNECT p) 0
    (h.put (R.USBH_PORT_STATUS_SPEED p) 3).usbChange (R.USBH_PORT_STATUS_C_CONNECT p)

/-- USB_OVERCURRENT (R346). -/
def Hub.usbOver (h : Hub) (p : Nat) : Hub :=
  ((h.usbOff p).put (R.USBH_PORT_STATUS_OC p) 1).usbChange (R.USBH_PORT_STATUS_C_OVERCURRENT p)

/-- USB_OVERCURRENT_END (R346). -/
def Hub.usbOverEnd (h : Hub) (p : Nat) : Hub := h.put (R.USBH_PORT_STATUS_OC p) 0

/-- USB_HUB_DISABLE (R354): every port loses power, and every unfinished split ends with RESET. -/
def Hub.usbHubDisable (h : Hub) : Hub :=
  [0, 1, 2, 3].foldl (fun h p => (h.usbOff p).usbReset p (fun _ => true)) (h.put R.USBH_CTRL_EN 0)

/-- USB_COUNTER_CLEAR (R354). -/
def Hub.usbClear (h : Hub) : Hub := [0, 1, 2, 3].foldl (fun h p => h.clearRange (A.USBH_SPLITS p) (A.USBH_HALTS p)) h

/-! ### The rows of the table -/

/-- USB_CSPLIT (R338). -/
def execUsbCsplit (p : Fin 4) (k : Fin 3) (s : State) : Result := s.upd (fun h => h.usbCsplit p k)

/-- USB_ABORT (R342). -/
def execUsbAbort (p : Fin 4) (k : Fin 3) (s : State) : Result := s.upd (fun h => h.usbAbort p k)

/-- USB_TRANSACTION (R340). -/
def execUsbTransaction (p : Fin 4) (outcome : UsbOutcome) (s : State) : Result :=
  s.upd (fun h => h.usbTransaction p outcome)

/-- USB_RESULT_EXPIRE (R338). -/
def execUsbResultExpire (p : Fin 4) (k : Fin 3) (handle : Fin 16) (s : State) : Result :=
  s.upd (fun h => h.usbExpire p k handle)

/-- USB_MICROFRAME (R351). -/
def execUsbMicroframe (s : State) : Result := s.upd (fun h => h.usbMicroframe)

/-- USB_SOF_ENABLE (R351). -/
def execUsbSofEnable (s : State) : Result := s.upd (fun h => h.usbSofEnable)

/-- USB_HUB_DISABLE (R354). -/
def execUsbHubDisable (s : State) : Result := s.upd (fun h => h.usbHubDisable)

/-- USB_PORT_POWER_ON (R343). -/
def execUsbPortPowerOn (p : Fin 4) (s : State) : Result := s.upd (fun h => h.unlessHeld (fun h => h.usbPowerOn p))

/-- USB_PORT_POWER_GOOD (R343). -/
def execUsbPortPowerGood (p : Fin 4) (s : State) : Result := s.upd (fun h => h.usbPowerGood p)

/-- USB_PORT_POWER_OFF (R343). -/
def execUsbPortPowerOff (p : Fin 4) (s : State) : Result := s.upd (fun h => h.usbPowerOff p)

/-- USB_PORT_RESET (R345). -/
def execUsbPortReset (p : Fin 4) (s : State) : Result := s.upd (fun h => h.usbPortReset p)

/-- USB_RESET_COMPLETE (R345). -/
def execUsbResetComplete (p : Fin 4) (s : State) : Result := s.upd (fun h => h.usbResetDone p)

/-- USB_CHIRP_DETECTED (R345). -/
def execUsbChirpDetected (p : Fin 4) (s : State) : Result := s.upd (fun h => h.usbChirp p)

/-- USB_PORT_DISABLE (R343). -/
def execUsbPortDisable (p : Fin 4) (s : State) : Result := s.upd (fun h => h.usbDisable p)

/-- USB_PORT_SUSPEND (R352). -/
def execUsbPortSuspend (p : Fin 4) (s : State) : Result := s.upd (fun h => h.usbSuspend p)

/-- USB_PORT_RESUME (R352). -/
def execUsbPortResume (p : Fin 4) (s : State) : Result := s.upd (fun h => h.usbResume p)

/-- USB_RESUME_COMPLETE (R352). -/
def execUsbResumeComplete (p : Fin 4) (s : State) : Result := s.upd (fun h => h.usbResumeDone p)

/-- USB_REMOTE_WAKE (R352). -/
def execUsbRemoteWake (p : Fin 4) (s : State) : Result := s.upd (fun h => h.usbWake p)

/-- USB_CONNECT (R343). -/
def execUsbConnect (p : Fin 4) (low : Bool) (s : State) : Result := s.upd (fun h => h.usbConnect p low)

/-- USB_DISCONNECT (R343). -/
def execUsbDisconnect (p : Fin 4) (s : State) : Result := s.upd (fun h => h.usbDisconnect p)

/-- USB_OVERCURRENT (R346). -/
def execUsbOvercurrent (p : Fin 4) (s : State) : Result := s.upd (fun h => h.usbOver p)

/-- USB_COUNTER_CLEAR (R354). -/
def execUsbCounterClear (s : State) : Result := s.upd (fun h => h.usbClear)

/-- USB_OVERCURRENT_END (R346). -/
def execUsbOvercurrentEnd (p : Fin 4) (s : State) : Result := s.upd (fun h => h.usbOverEnd p)

end Sys2Proof.Machine
end

