-- ==== Sys2Proof/Machine/Marker.lean ====
section
/-! DEFINITION. Time markers (R122–R127, R514): the check, forwarding, and what an accepted marker of the selected
candidate does to station time. -/

namespace Sys2Proof.Machine

/-- ±64 ns in 0.25 ns units (R125, R126). -/
abbrev markTol : Nat := 256

/-- Whether a marker agrees with an earlier one plus the root time between them (R125). -/
def Mark.agrees (a b : Mark) : Bool :=
  decide (((b.value : Int) - a.value - (b.at_ - a.at_ : Int)).natAbs ≤ markTol)

/-- The verdict on a marker (R125): accepted, accepted as a new reference, or discarded with the run of failures. -/
inductive MarkRes where
  | accept
  | rereference
  | bad (run : List Mark)
deriving DecidableEq, Repr

/-- The check against the previous accepted marker of the port (R125). -/
def TimePort.checkMark (t : TimePort) (m : Mark) : MarkRes :=
  match t.mark with
  | none => .accept
  | some last =>
    if last.agrees m then .accept
    else
      match t.badRun with
      | a :: b :: _ => if a.agrees m && b.agrees m && b.agrees a then .rereference else .bad [m, a]
      | l => .bad (m :: l)

/-- The ports a marker received on `p` goes out on (R124): those that are UP, and those whose partner sleeps (R50)
(assumption 32, DEDUCED). -/
def Hub.markerOuts (h : Hub) (p : Port) : List Port :=
  let chosen : Bool := match h.selPort with
    | some s => s == p
    | none => p == .W
  let ring := if h.isSpur then [] else match p with
    | .E => [Port.W]
    | .W => [Port.E]
    | .S => []
  let more := if chosen then (if h.isSpur then [Port.E, Port.S] else [Port.S]) else []
  (ring ++ more).filter (fun q => (h.up q || h.lstate q == stPartnerSteep) && q != p)

/-- An accepted marker goes on (R124): its value plus the port's delay and the residence at each output. -/
def Hub.forwardMarker (h : Hub) (p : Port) (value : Nat) (res : PerPort Nat) : Hub :=
  if h.clkMode = ckFree ∨ h.up p = false ∨ h.calibrated p = false then h
  else (h.markerOuts p).foldl (fun h q => h.emit (.time q ((value + h.delay p + res.at q) % 2 ^ 64))) h

/-! ### Setting and stepping (R126, R514) -/

/-- A context timer whose target a step has passed fires (R271). -/
def Hub.fireTimers (h : Hub) (due : Nat → Bool) : Hub :=
  (List.range 96).foldl (fun h n =>
    match (h.ctx n).timer with
    | some t => if due t then (h.setCtx n { h.ctx n with timer := none }).latchEvent evTimer n else h
    | none => h) h

/-- Station time moves forward to `s` in 0.25 ns units: outputs skip the edges stepped over (R139), timers fire (R271), an
armed swap whose epoch is reached happens (R183). -/
def Hub.stepTo (h : Hub) (s : Nat) : Hub :=
  let h := h.timeTo h.root h.stime s
  let h := evoAll.foldl (fun h n => h.evoStepped (s / 8) n) h
  (h.fireTimers (fun t => decide (t ≤ s / 8))).grantSwap

/-- Every packet held at a route change is discarded under a cause, as one of the queue it was to join (R102, R514). -/
def Hub.dropHolds (h : Hub) (cause : Nat) : Hub :=
  h.rt.holds.foldl (fun h e =>
    let o := ((h.entryPort e.1).orElse (fun _ => e.2.old.head?)).getD .W
    let h := { h with rt := { h.rt with holds := KMap.put h.rt.holds e.1 { e.2 with pkts := [] } } }
    e.2.pkts.foldl (fun h x => (h.count o.ix (linkQueue x.pkt.dest) x.pkt.cls cause).creditBack x.arr x.pkt) h) h

/-- What a backward set settles before the new value takes effect (R514). -/
def Hub.settleTimes (h : Hub) (s : Nat) : Hub :=
  let h := (List.range 96).foldl (fun h n => h.setPol n { h.pol n with tokens := h.polCap n, last := s / 8 }) h
  let h := h.fireTimers (fun _ => true)
  let h := evoAll.foldl (fun h n =>
    let x := h.evo n
    if x.sched.isSome then (h.evoHalt n).put (R.TIME_EVO_STATUS_LATE n) 1
    else if x.pulseEnd.isSome then h.evoHalt n
    else h.setEvo n { x with queue := [] }) h
  let h := h.dropHolds 6
  (h.fab.queues.map Prod.fst).foldl (fun h k => h.emptyQueue (k / 16384) (k % 16384) 6) h

/-- What waits for a start in station time starts a fixed time after a backward set (R514). -/
def Hub.restartWaits (h : Hub) : Hub :=
  let h := [0, 1].foldl Hub.dspTimeSet h
  if h.on R.USBH_CTRL_SOF_EN = true ∧ h.on R.USBH_FRAME_RUNNING = false then
    let b := h.now + 10000
    let h := (h.wr A.USBH_BASE_LO (W b)).wr A.USBH_BASE_HI (W (b / 2 ^ 32))
    { h with usb := { h.usb with nextIdx := (h.rd A.USBH_BASE_UF).toNat % 16384 } }
  else h

/-- The hub with the error still to slew (assumption 35, DEDUCED). -/
def Hub.setErr (h : Hub) (e : Int) : Hub :=
  { h with tm := { h.tm with err := e } }.put R.TIME_STATUS_SLEWING (b2n (decide (e < -(markTol : Int))))

/-- A forward step is recorded in whole ticks, rounded down (R126, R141) (assumption 33, DEDUCED; 117, DESIGN CHOICE). -/
def Hub.recordStep (h : Hub) (e : Nat) : Hub := h.wr A.TIME_STEP_LAST (W (min (2 ^ 32 - 1) (e / 8)))

/-- The first setting of station time (R126, R514); TIME is latched where QUALITY changes, which it does not here (R200)
(assumption 33, DEDUCED). -/
def Hub.setTime (h : Hub) (s : Nat) : Hub :=
  let h := if s < h.stime then ((h.settleTimes s).timeTo h.root h.stime s).restartWaits
    else (h.recordStep (s - h.stime)).stepTo s
  (h.setErr 0).put R.TIME_STATUS_VALID 1

/-- An accepted marker of the selected candidate disciplines station time (R126); TIME_MARK_ERR takes an error beyond 32
bits modulo 2^32 (assumption 117, DESIGN CHOICE; 118, DEDUCED). -/
def Hub.discipline (h : Hub) (p : Port) (value : Nat) : Hub :=
  let s := value + h.delay p
  let e : Int := (s : Int) - h.stime
  let h := h.wr A.TIME_MARK_ERR (W (unsigned 32 e))
  if h.on R.TIME_STATUS_VALID = false then h.setTime s
  else if (markTol : Int) < e then ((h.recordStep (s - h.stime)).stepTo s).setErr 0
  else h.setErr e

/-- TIME_MARKER_RECEIVED (R122–R126): value as carried (station time bits 60 to 0 and the sub-tick), an erased column that
could not be rebuilt, and the residence of the forwarded marker at each output (assumption 34, DEDUCED). -/
def Hub.markerReceived (h : Hub) (p : Port) (value : Nat) (erased : Bool) (res : PerPort Nat) : Hub :=
  let m : Mark := ⟨value, h.root⟩
  if h.up p = false then h
  else if erased then h.bump R.TIME_MARK_BAD
  else
    match (h.tm.ports.at p).checkMark m with
    | .bad run => (h.bump R.TIME_MARK_BAD).onTimePort p (fun t => { t with badRun := run })
    | r =>
      let h := if r = .rereference then h.log 2 0x01 sevC p.code (h.delay p) 0 else h
      let h := (h.onTimePort p (fun t => { t with mark := some m, badRun := [], gap := false })).refreshQuality
      let h := h.forwardMarker p value res
      if h.selPort = some p ∧ h.calibrated p = true then h.discipline p value else h

/-- SLEW_COMPLETE (R126): the error has been slewed away, at 250 ppm, or by counting 15 ticks in every 16
(assumption 35, DEDUCED). -/
def Hub.slewComplete (h : Hub) : Hub :=
  let e := h.tm.err
  if e = 0 then h
  else
    let d := e.natAbs * (if e < -(markTol : Int) then 16 else 4000)
    (Hub.timeTo { h with root := h.root + d } h.root (h.stime + d) (h.stime + d + e : Int).toNat).setErr 0

/-! ### The rows of the table -/

/-- TIME_MARKER_RECEIVED (R125). -/
def execTimeMarkerReceived (p : Port) (value : BitVec 64) (erased : Bool) (res : PerPort Nat) (s : State) : Result :=
  s.upd (fun h => h.markerReceived p value.toNat erased res)

/-- SLEW_COMPLETE (R126). -/
def execSlewComplete (s : State) : Result := s.upd (fun h => h.slewComplete)

end Sys2Proof.Machine
end

