-- ==== Sys2Proof/Machine/Load.lean ====
section
/-! DEFINITION. The power path and the bay-load fuse (R419–R432): feeds and VCOM, the fuse's states, power-good, the
thermal model, trips and retries. The analogue comparisons that a row names are the row's own condition; what they act
on is held here. -/

namespace Sys2Proof.Machine

/-- The hub with the power path's own state changed. -/
def Hub.onLoad (h : Hub) (f : LoadState → LoadState) : Hub := { h with load := f h.load }

/-! ### Feeds (R419–R421) -/

/-- The register of a feed: 0 E, 1 W, 2 LOCAL. -/
def feedReg : Nat → Nat
  | 0 => A.LOAD_FEED_E
  | 1 => A.LOAD_FEED_W
  | _ => A.LOAD_FEED_L

/-- A feed's voltage in 50 mV, as telemetry last read it (assumption 77, DEDUCED). -/
def Hub.feedVolts (h : Hub) (f : Nat) : Nat := h.get ⟨feedReg f, 0, 12⟩

/-- Whether a feed's gate is on. -/
def Hub.feedOn (h : Hub) (f : Nat) : Bool := h.on ⟨feedReg f, 12, 1⟩

/-- The feed of a cable port; S is never an input (R419). -/
def Port.feed : Port → Option Nat
  | .E => some 0
  | .W => some 1
  | .S => none

/-- A feed's gate on or off: its ON bit and its bit of LOAD_STATUS.FEEDS. -/
def Hub.setFeed (h : Hub) (f : Nat) (on : Bool) : Hub :=
  (h.put ⟨feedReg f, 12, 1⟩ (b2n on)).put ⟨A.LOAD_STATUS, 7 + f, 1⟩ (b2n on)

/-- A FET set's temperature in 0.125 °C (R428). -/
def Hub.fetTemp (h : Hub) (f : Nat) : Int := signed 16 (h.get (R.LOAD_TM_TEMP_TEMP f))

/-- Whether a FET set has reached TJ_MAX. -/
def Hub.fetHot (h : Hub) (f : Nat) : Bool := decide (8 * (h.get (R.LOAD_TM_LIM_TJ_MAX f) : Int) ≤ h.fetTemp f)

/-- Whether a feed's input is permitted (R420): its cable path closed, or LOCAL_EN and LOCAL not held off
(assumption 77, DEDUCED). -/
def Hub.feedPermitted (h : Hub) (f : Nat) : Bool :=
  match f with
  | 0 => h.cc.e.path && !h.cc.e.barred
  | 1 => h.cc.w.path && !h.cc.w.barred
  | _ => h.on R.LOAD_CTRL_LOCAL_EN && !h.load.locHot

/-- Whether an input stands above a voltage: a permitted feed, so a cable port only while it is sink (R419, R421, R427)
(assumption 77, DEDUCED). -/
def Hub.feedAbove (h : Hub) (f v : Nat) : Bool := h.feedPermitted f && decide (v < h.feedVolts f)

/-- Whether some feed other than `f` conducts. -/
def Hub.otherFeed (h : Hub) (f : Nat) : Bool := [0, 1, 2].any (fun g => g != f && h.feedOn g)

/-- A conducting feed is lost; with another feed holding VCOM it is an event and an error (R421) (assumption 78, DEDUCED). -/
def Hub.feedLost (h : Hub) (f : Nat) : Hub :=
  if h.feedOn f = false then h
  else
    let h := h.setFeed f false
    if h.otherFeed f then
      let h := h.put R.LOAD_EVENT_FEED_LOST 1
      h.log 20 0x01 sevDG (h.rd A.LOAD_EVENT).toNat (h.rd A.LOAD_VOLTS).toNat 0
    else h

/-- FEED_GATE_ON (R420): a permitted feed 100 mV above VCOM and at least 4.5 V, unless its FET set is over-temperature. -/
def Hub.feedGateOn (h : Hub) (f : Nat) : Hub :=
  if h.feedPermitted f = true ∧ h.feedOn f = false ∧ (f < 2 → h.fetHot f = false) then h.setFeed f true else h

/-- A conducting feed that telemetry finds below 4.5 V is held off (R420). -/
def Hub.feedLow (h : Hub) (f : Nat) : Hub := if h.feedVolts f < 90 then h.feedLost f else h

/-- FEED_REVERSE_OFF (R420, R421). -/
def Hub.feedReverseOff (h : Hub) (f : Nat) : Hub :=
  if h.feedOn f then (h.bump R.LOAD_RCB).feedLost f else h

/-- LOAD_LOCAL_EN_WRITE (R421): a write of 0 while neither cable feed is at least 4.5 V is ignored
(assumption 77, DEDUCED; 78, DEDUCED). -/
def Hub.loadLocalEn (h : Hub) (en : Bool) : Hub :=
  if en then h.put R.LOAD_CTRL_LOCAL_EN 1
  else if h.feedAbove 0 89 = false ∧ h.feedAbove 1 89 = false then h
  else (h.put R.LOAD_CTRL_LOCAL_EN 0).feedLost 2

/-! ### The fuse (R423–R427) -/

/-- Fuse states (R423). -/
abbrev fuOff : Nat := 0
/-- WAIT. -/
abbrev fuWait : Nat := 1
/-- DELAY. -/
abbrev fuDelay : Nat := 2
/-- RAMP. -/
abbrev fuRamp : Nat := 3
/-- ON. -/
abbrev fuOn : Nat := 4
/-- RETRY. -/
abbrev fuRetry : Nat := 5
/-- LATCHED. -/
abbrev fuLatched : Nat := 6

/-- The fuse's state. -/
def Hub.fuse (h : Hub) : Nat := h.get R.LOAD_STATUS_STATE

/-- The fuse in a state; power-good falls and the gate is low in every state but RAMP and ON (R423, R425). -/
def Hub.setFuse (h : Hub) (st : Nat) : Hub :=
  let h := h.put R.LOAD_STATUS_STATE st
  if st = fuOn then h else h.put R.LOAD_STATUS_PG 0

/-- Whether the load counts as present (R423). -/
def Hub.loadPresent (h : Hub) : Bool := h.on R.LOAD_STATUS_PRESENT || h.on R.LOAD_CTRL_PRES_IGNORE

/-- WAIT moves to DELAY while the load is present and VCOM within the window (R423). -/
def Hub.fuseGo (h : Hub) : Hub :=
  if h.fuse = fuWait ∧ h.loadPresent = true ∧ h.on R.LOAD_STATUS_WINDOW_OK = true then h.setFuse fuDelay else h

/-- OFF moves to WAIT while EN is 1 outside default-power mode and the fuse may be switched on (R423, R465). -/
def Hub.fuseStart (h : Hub) : Hub :=
  if h.fuse = fuOff ∧ h.on R.LOAD_CTRL_EN = true ∧ h.defPower = false ∧ h.load.barred = false then (h.setFuse fuWait).fuseGo
  else h

/-- EN = 0 or default-power mode takes the fuse to OFF from every state but LATCHED (R423). -/
def Hub.fuseStop (h : Hub) : Hub := if h.fuse = fuLatched then h else h.setFuse fuOff

/-- Presence or window lost (R423): DELAY and ON go back to WAIT. -/
def Hub.fuseBack (h : Hub) : Hub := if h.fuse = fuDelay ∨ h.fuse = fuOn then h.setFuse fuWait else h

/-- LOAD_EN_WRITE (R423): LATCHED leaves by EN written 0. -/
def Hub.loadEnWrite (h : Hub) (en : Bool) : Hub :=
  let h := h.put R.LOAD_CTRL_EN (b2n en)
  if en then h.fuseStart else h.setFuse fuOff

/-- LOAD_FAULT_CLEAR (R423): nothing while the fuse is not LATCHED (R431). -/
def Hub.loadFaultClear (h : Hub) : Hub := if h.fuse = fuLatched then (h.setFuse fuOff).fuseStart else h

/-- LOAD_PRESENCE_CHANGE (R423, R431): a debounced change of LOAD_PRES_N. -/
def Hub.loadPresence (h : Hub) (present : Bool) : Hub :=
  if h.on R.LOAD_STATUS_PRESENT = present then h
  else
    let h := h.put R.LOAD_STATUS_PRESENT (b2n present)
    if present then
      let h := h.bump R.LOAD_INSERTS
      if h.fuse = fuRetry then h.put R.LOAD_EVENT_REINSERT 1 else h.fuseGo
    else
      let h := if h.fuse = fuOn then h.put R.LOAD_EVENT_PRES_LOST 1 else h
      if h.loadPresent then h else h.fuseBack

/-- The UV of LOAD_WINDOW comes into force (R432): at a write outside RAMP, and at an entry to RAMP
(assumption 81, DESIGN CHOICE). -/
def Hub.takeUv (h : Hub) : Hub := h.onLoad (fun x => { x with uv := h.get R.LOAD_WINDOW_UV })

/-- LOAD_WINDOW_CHANGE (R423): VCOM, in 50 mV, above OV, or filtered by UV_FILT, against the window UV < VCOM < OV
(assumption 81, DESIGN CHOICE). -/
def Hub.loadWindow (h : Hub) (vcom : Nat) : Hub :=
  let isOver := decide (h.get R.LOAD_WINDOW_OV ≤ vcom)
  let under := decide (vcom ≤ h.load.uv)
  if isOver || under then
    ((h.put R.LOAD_STATUS_WINDOW_OK 0).put (if isOver then R.LOAD_EVENT_OV else R.LOAD_EVENT_UV) 1).fuseBack
  else (h.put R.LOAD_STATUS_WINDOW_OK 1).fuseGo

/-- LOAD_DELAY_EXPIRE (R423): INS_DELAY with presence and window held. -/
def Hub.loadDelayExpire (h : Hub) : Hub :=
  if h.fuse = fuDelay then (h.setFuse fuRamp).takeUv else h

/-- LOAD_RAMP_DONE (R423, R424): VOUT within 300 mV of VCOM; the gate is driven to full enhancement and the fuse is ON, which
it leaves at once where presence or window no longer hold (assumption 79, DEDUCED). -/
def Hub.loadRampDone (h : Hub) : Hub :=
  if h.fuse = fuRamp then
    if h.loadPresent && h.on R.LOAD_STATUS_WINDOW_OK then h.setFuse fuOn else h.setFuse fuWait
  else h

/-- LOAD_PG_ASSERT (R425): PG_DELAY after full enhancement, in ON only (assumption 79, DEDUCED). -/
def Hub.loadPgAssert (h : Hub) : Hub := if h.fuse = fuOn then h.put R.LOAD_STATUS_PG 1 else h

/-! ### Trips (R426, R430, R431) -/

/-- Entry to LATCHED (R430). -/
def Hub.fuseLatch (h : Hub) : Hub :=
  let h := (h.setFuse fuLatched).put R.LOAD_EVENT_LATCHED 1
  h.log 20 0x03 sevDG (h.rd A.LOAD_EVENT).toNat (h.rd A.LOAD_VOLTS).toNat 0

/-- Where a trip leaves the fuse (R430): LATCHED with FAULT_MODE 1 or with no retry left, else RETRY with one retry used, from
which EN = 0 and default-power mode take it to OFF (R423) (assumption 80, DEDUCED). -/
def Hub.fuseAfterTrip (h : Hub) : Hub :=
  if h.fuse = fuLatched then h
  else if h.on R.LOAD_CTRL_FAULT_MODE = true ∨ h.get R.LOAD_TIMING_RETRY_MAX ≤ h.get R.LOAD_STATUS_RETRIES then h.fuseLatch
  else
    let h := (h.setFuse fuRetry).bump R.LOAD_STATUS_RETRIES
    if h.on R.LOAD_CTRL_EN = false ∨ h.defPower = true then h.setFuse fuOff else h

/-- A trip (R430): its event bit, LOAD_TRIPS, a CONTAINED error, and the gate off (assumption 80, DEDUCED). -/
def Hub.fuseTrip (h : Hub) (bit_ : RF) : Hub :=
  let h := ((h.put R.LOAD_STATUS_PG 0).put bit_ 1).bump R.LOAD_TRIPS
  let h := h.logBy 20 0x02 sevCT (h.rd A.LOAD_EVENT).toNat (h.rd A.LOAD_VOLTS).toNat (h.get R.LOAD_TRIPS) (.trip 20)
  (h.recovered (.trip 20)).fuseAfterTrip

/-- LOAD_RAMP_TIMEOUT (R424). -/
def Hub.loadRampTimeout (h : Hub) : Hub := if h.fuse = fuRamp then h.fuseTrip R.LOAD_EVENT_RAMP_TIMEOUT else h

/-- LOAD_ILIM_TIMEOUT (R426): in limit for ILIM_T, which only a fuse in RAMP or ON can be (assumption 80, DEDUCED). -/
def Hub.loadIlimTimeout (h : Hub) : Hub :=
  if h.fuse = fuRamp ∨ h.fuse = fuOn then h.fuseTrip R.LOAD_EVENT_ILIM_TIMEOUT else h

/-- LOAD_SHORT (R426): whatever the state. -/
def Hub.loadShort (h : Hub) : Hub := h.fuseTrip R.LOAD_EVENT_SHORT

/-- LOAD_RETRY_END (R431): RETRY has passed; the fuse goes to WAIT once its temperature is below TJ_RETRY. -/
def Hub.loadRetryEnd (h : Hub) : Hub :=
  if h.fuse = fuRetry ∧ h.fetTemp 4 < 8 * h.get (R.LOAD_TM_LIM_TJ_RETRY 4) then (h.setFuse fuWait).fuseGo else h

/-- LOAD_RETRY_COUNT_RESET (R430): PG held for 10 s. -/
def Hub.loadRetryReset (h : Hub) : Hub := if h.on R.LOAD_STATUS_PG then h.put R.LOAD_STATUS_RETRIES 0 else h

/-- The load is removed before a feed falls (R427): the port is the only feed above UV (assumption 77, DEDUCED). -/
def Hub.loadRemove (h : Hub) (p : Port) : Hub :=
  match p.feed with
  | none => h
  | some f =>
    let above := fun g => h.feedAbove g h.load.uv
    if h.fuse = fuOn ∧ above f = true ∧ [0, 1, 2].all (fun g => g == f || !above g) = true then h.setFuse fuWait else h

/-! ### Temperature (R428, R429) -/

/-- One step of a heat term in 10⁻⁹ °C (R428): power in µW, resistance in 0.1 °C/W, time constant in µs
(assumption 82, DESIGN CHOICE). -/
def heatStep (d p rth tau : Nat) : Nat := (d * tau + p * rth * 100 - d) / tau

/-- FET_TEMP_UPDATE (R428): one microsecond of the five models, from the power in µW of each path; LOCAL is retaken once
its temperature is below TJ_RETRY (R429) (assumption 82, DESIGN CHOICE). -/
def Hub.fetUpdate (h : Hub) (power : List Nat) (diode : Diode) : Hub :=
  let step := fun (d : List Nat) (rth tau : Nat → Nat) =>
    (List.range 5).map (fun f => heatStep (d.getD f 0) (power.getD f 0) (rth f) (tau f))
  let d1 := step h.load.d1 (fun f => h.get (R.LOAD_TM_RTH_RTH1 f)) (fun f => 1000 * h.get (R.LOAD_TM_RTH_TAU1 f))
  let d2 := step h.load.d2 (fun f => h.get (R.LOAD_TM_RTH_RTH2 f)) (fun f => 10000 * h.get (R.LOAD_TM_RTH_TAU2 f))
  let h := h.onLoad (fun x => { x with d1 := d1, d2 := d2 })
  if h.coop.held then h
  else
    let temp := fun f => h.load.die + ((d1.getD f 0 + d2.getD f 0) / 125000000 : Nat)
    let set := fun (h : Hub) f (t : Int) => h.put (R.LOAD_TM_TEMP_TEMP f) (unsigned 16 t)
    let h := [0, 1, 2, 3].foldl (fun h f => set h f (temp f)) h
    let h := if temp 3 < 8 * h.get (R.LOAD_TM_LIM_TJ_RETRY 3) then h.onLoad (fun x => { x with locHot := false }) else h
    if h.on R.LOAD_CTRL_TEMP_SEL = false then set h 4 (temp 4)
    else
      match diode with
      | .none_ => h
      | .broken => set h 4 (8 * h.get (R.LOAD_TM_LIM_TJ_MAX 4))
      | .temp t => set h 4 t

/-- LOCAL is held off at TJ_MAX (R429) (assumption 78, DEDUCED). -/
def Hub.localHot (h : Hub) : Hub := (h.onLoad (fun x => { x with locHot := true })).feedLost 2

/-- LOAD_COUNTER_CLEAR (R432). -/
def Hub.loadClear (h : Hub) : Hub := h.clearRange A.LOAD_TRIPS A.LOAD_RCB

/-! ### The rows of the table -/

/-- FEED_GATE_ON (R420). -/
def execFeedGateOn (feed : Fin 3) (s : State) : Result := s.hv (fun h => h.feedGateOn feed)

/-- FEED_REVERSE_OFF (R420). -/
def execFeedReverseOff (feed : Fin 3) (s : State) : Result := s.hv (fun h => h.feedReverseOff feed)

/-- LOAD_EN_WRITE (R423). -/
def execLoadEnWrite (en : Bool) (s : State) : Result := s.upd (fun h => h.loadEnWrite en)

/-- LOAD_FAULT_CLEAR (R423). -/
def execLoadFaultClear (s : State) : Result := s.upd (fun h => h.loadFaultClear)

/-- LOAD_LOCAL_EN_WRITE (R421). -/
def execLoadLocalEnWrite (en : Bool) (s : State) : Result := s.upd (fun h => h.loadLocalEn en)

/-- LOAD_PRESENCE_CHANGE (R423). -/
def execLoadPresenceChange (present : Bool) (s : State) : Result := s.hv (fun h => h.loadPresence present)

/-- LOAD_WINDOW_CHANGE (R423). -/
def execLoadWindowChange (vcom : BitVec 12) (s : State) : Result := s.hv (fun h => h.loadWindow vcom.toNat)

/-- LOAD_DELAY_EXPIRE (R423). -/
def execLoadDelayExpire (s : State) : Result := s.hv (fun h => h.loadDelayExpire)

/-- LOAD_RAMP_DONE (R424). -/
def execLoadRampDone (s : State) : Result := s.hv (fun h => h.loadRampDone)

/-- LOAD_RAMP_TIMEOUT (R424). -/
def execLoadRampTimeout (s : State) : Result := s.hv (fun h => h.loadRampTimeout)

/-- LOAD_PG_ASSERT (R425). -/
def execLoadPgAssert (s : State) : Result := s.hv (fun h => h.loadPgAssert)

/-- LOAD_ILIM_TIMEOUT (R426). -/
def execLoadIlimTimeout (s : State) : Result := s.hv (fun h => h.loadIlimTimeout)

/-- LOAD_SHORT (R426). -/
def execLoadShort (s : State) : Result := s.hv (fun h => h.loadShort)

/-- LOAD_RETRY_END (R431). -/
def execLoadRetryEnd (s : State) : Result := s.hv (fun h => h.loadRetryEnd)

/-- LOAD_RETRY_COUNT_RESET (R430). -/
def execLoadRetryCountReset (s : State) : Result := s.hv (fun h => h.loadRetryReset)

/-- FET_TEMP_UPDATE (R428). -/
def execFetTempUpdate (power : List Nat) (diode : Diode) (s : State) : Result :=
  s.hv (fun h => h.fetUpdate power diode)

/-- LOAD_COUNTER_CLEAR (R432). -/
def execLoadCounterClear (s : State) : Result := s.upd (fun h => h.loadClear)

end Sys2Proof.Machine
end

