-- ==== Sys2Proof/Machine/CablePower.lean ====
section
/-! DEFINITION. Cable power and role negotiation (R400–R418): CC readings, roles, PD messages, contracts, power role
swaps, hard resets, trips and default-power mode's effect on a port. A received message is a row with the message's
content; the messages the hub sends join its outgoing record. -/

namespace Sys2Proof.Machine

/-- The hub with one cable port's own state changed. -/
def Hub.onCc (h : Hub) (p : Port) (f : CcPort → CcPort) : Hub := { h with cc := h.cc.set p (f (h.cc.at p)) }

/-- PD states (R418). -/
abbrev pdNone : Nat := 0
/-- Negotiating. -/
abbrev pdNegotiating : Nat := 1
/-- Swapping. -/
abbrev pdSwapping : Nat := 4
/-- Hard reset. -/
abbrev pdHardReset : Nat := 5
/-- Recovery. -/
abbrev pdRecovery : Nat := 6
/-- Fault latched. -/
abbrev pdLatched : Nat := 7

/-- A port's PD state. -/
def Hub.pdState (h : Hub) (p : Port) : Nat := h.get (R.CC_STATUS_PD_STATE p.ix)

/-- A port's PD state set. -/
def Hub.setPd (h : Hub) (p : Port) (n : Nat) : Hub := h.put (R.CC_STATUS_PD_STATE p.ix) n

/-- A port's ATTACH outcome. -/
def Hub.attach (h : Hub) (p : Port) : Nat := h.get (R.CC_STATUS_ATTACH p.ix)

/-- Whether a port takes part in PD: enabled, attached to a partner that negotiates, and not latched (R402, R416). -/
def Hub.pdLive (h : Hub) (p : Port) : Bool :=
  h.on (R.CC_CTRL_EN p.ix) && (h.attach p == 1 || h.attach p == 2) && h.pdState p != pdLatched

/-- Whether a port's protection acts (R415): enabled, with a partner it may supply or draw from, the service accessory
among them (R402), and not latched (assumption 76, DEDUCED). -/
def Hub.armed (h : Hub) (p : Port) : Bool :=
  h.on (R.CC_CTRL_EN p.ix) && (h.attach p == 1 || h.attach p == 2 || h.attach p == 3) && h.pdState p != pdLatched

/-- A PD message goes out. -/
def Hub.pd (h : Hub) (p : Port) (m : PdMsg) : Hub := h.emit (.pd p m)

/-- VCAB driven by a source port, in 50 mV; 0 turns its FET pair off. No port sources in default-power mode (R410). -/
def Hub.drive (h : Hub) (p : Port) (v : Nat) : Hub :=
  let v := if (h.cc.at p).barred || h.defPower then 0 else v
  (h.onCc p (fun x => { x with vout := v })).emit (.vcab p v)

/-- A sink port's ideal-diode path opened: its feed is lost (R421) (assumption 78, DEDUCED). -/
def Hub.openPath (h : Hub) (p : Port) : Hub :=
  let h := h.onCc p (fun x => { x with path := false, closing := false })
  match p.feed with
  | some f => h.feedLost f
  | none => h

/-- Whether a sink port's path may close: S takes no power (R419), nor does a port that is barred or disabled. -/
def Hub.mayClose (h : Hub) (p : Port) : Bool := p != Port.S && !(h.cc.at p).barred && h.on (R.CC_CTRL_EN p.ix)

/-- A sink port's path that is open waits for vSafe5V. -/
def Hub.awaitPath (h : Hub) (p : Port) : Hub :=
  if h.mayClose p && !(h.cc.at p).path then h.onCc p (fun x => { x with closing := true }) else h

/-- A sink port's path closes as soon as VCAB, as telemetry last read it, lies within the vSafe5V window of 4.75 V to 5.5 V
(R405) (assumption 77, DEDUCED). -/
def Hub.closePath (h : Hub) (p : Port) : Hub :=
  let v := h.get (R.CC_VBUS_VOLT p.ix)
  if h.mayClose p && decide (95 ≤ v) && decide (v ≤ 110) then h.onCc p (fun x => { x with path := true, closing := false })
  else h.awaitPath p

/-- The contract in force ends, and what the port would still have asked for. -/
def Hub.noContract (h : Hub) (p : Port) : Hub :=
  (h.wr (A.CC_CONTRACT p.ix) 0).onCc p (fun x => { x with pend := none, epr := false, due := [] })

/-- A contract comes into force. -/
def Hub.setContract (h : Hub) (p : Port) (c : Pdo) : Hub :=
  let x := h.cc.at p
  let epr := x.epr && decide (400 < c.volts)
  let h := h.wr (A.CC_CONTRACT p.ix) (W (c.volts % 4096 + c.amps % 1024 * 4096 + b2n epr * 2 ^ 22 + b2n x.source * 2 ^ 23))
  let h := (h.put (R.CC_EVENT_CONTRACT_CHG p.ix) 1).setPd p (if epr then 3 else 2)
  h.onCc p (fun x => { x with pend := none, wait := .none })

/-- Whether VCOM is at least 9 V from a feed other than the port (R412). -/
def Hub.fedOtherwise (h : Hub) (p : Port) : Bool :=
  [0, 1, 2].any (fun f => p.feed != some f && h.feedOn f && decide (180 ≤ h.feedVolts f))

/-- Whether some feed other than the port conducts (R414). -/
def Hub.hasOtherFeed (h : Hub) (p : Port) : Bool := [0, 1, 2].any (fun f => p.feed != some f && h.feedOn f)

/-! ### CC readings (R401–R405) -/

/-- Whether a line carries Rp. -/
def CcSense.isRp : CcSense → Bool
  | .rp _ => true
  | _ => false

/-- The Rp level of a line. -/
def CcSense.level : CcSense → Nat
  | .rp n => n.val
  | _ => 0

/-- The outcome of a reading (R401): ATTACH, flipped, and a powered cable. Combinations the table does not list read as
unattached. -/
def ccOutcome (rp : Bool) (a b : CcSense) : Nat × Bool × Bool :=
  if rp then
    match a, b with
    | .rd, .open_ => (1, false, false)
    | .open_, .rd => (1, true, false)
    | .rd, .ra => (1, false, true)
    | .ra, .rd => (1, true, true)
    | .ra, .open_ => (5, false, false)
    | .open_, .ra => (5, false, false)
    | .rd, .rd => (3, false, false)
    | .ra, .ra => (4, false, false)
    | _, _ => (0, false, false)
  else if a.isRp && b.isRp then (6, false, false)
  else if a.isRp && b != .rd then (2, false, b == .ra)
  else if b.isRp && a != .rd then (2, true, a == .ra)
  else (0, false, false)

/-- The termination an unattached port presents by its settings (R403, R418): Rp only as a source-only port. -/
def Hub.ccPresent (h : Hub) (p : Port) : Hub :=
  if h.attach p ≠ 0 then h
  else if h.on (R.CC_CTRL_EN p.ix) = false ∨ h.defPower = true ∨ h.get (R.CC_CTRL_ROLE p.ix) = 1 then
    h.onCc p (fun x => { x with rp := false })
  else if h.get (R.CC_CTRL_ROLE p.ix) = 2 then h.onCc p (fun x => { x with rp := true })
  else h

/-- Back to the unattached state: power off, negotiation forgotten, the termination that of R403 (R403, R414). -/
def Hub.ccIdle (h : Hub) (p : Port) : Hub :=
  let h := if (h.cc.at p).vout = 0 then h else h.drive p 0
  let h := ((h.openPath p).noContract p).setPd p pdNone
  let h := [R.CC_STATUS_FLIPPED p.ix, R.CC_STATUS_VCONN_ON p.ix, R.CC_STATUS_RP_SEEN p.ix, R.CC_STATUS_CABLE_5A p.ix,
            R.CC_STATUS_CABLE_EPR p.ix].foldl (fun h f => h.put f 0) h
  (h.onCc p (fun x => { CcPort.reset with rp := x.rp, trips := x.trips, barred := x.barred })).ccPresent p

/-- Whether an unattached dual-role port tries the other role before it attaches as a reading says (R403): Try.SRC on Rp
where VCOM is at least 9 V from another feed, Try.SNK on Rd where it is not (assumption 74, DESIGN CHOICE). -/
def Hub.ccTries (h : Hub) (p : Port) (out : Nat) : Bool :=
  h.on (R.CC_CTRL_EN p.ix) && h.get (R.CC_CTRL_ROLE p.ix) == 0 && !h.defPower && (h.cc.at p).tried == 0
    && (out == 2 && h.fedOtherwise p || out == 1 && !h.fedOtherwise p)

/-- The port starts to source: vSafe5V, and VCONN on a powered cable (R405). -/
def Hub.startSource (h : Hub) (p : Port) (vconn : Bool) : Hub :=
  let h := h.onCc p (fun x => { x with source := true, good := false, sent := 0, wait := .none })
  let h := (h.drive p 100).setPd p pdNegotiating
  if vconn && h.on (R.CC_CTRL_VCONN_EN p.ix) then h.put (R.CC_STATUS_VCONN_ON p.ix) 1 else h

/-- The port starts to sink (R405). -/
def Hub.startSink (h : Hub) (p : Port) : Hub :=
  (h.closePath p).onCc p (fun x => { x with source := false, wait := .none }) |>.setPd p pdNegotiating

/-- An outcome of R401 comes into force: ATTACH, its event and its count, the cable's orientation, and the role's start; `rp`
is the partner's Rp level. -/
def Hub.ccTake (h : Hub) (p : Port) (out : Nat) (flipped powered : Bool) (rp : Nat) : Hub :=
  let h := h.onCc p (fun x => { x with tried := 0 })
  let h := ((h.put (R.CC_STATUS_ATTACH p.ix) out).put (R.CC_EVENT_ATTACH_CHG p.ix) 1).bump (R.CC_ATTACHES p.ix)
  let h := h.put (R.CC_STATUS_FLIPPED p.ix) (b2n flipped)
  match out with
  | 1 => h.startSource p powered
  | 2 =>
    let h := h.put (R.CC_STATUS_RP_SEEN p.ix) rp
    if h.on (R.CC_CTRL_EN p.ix) then h.startSink p else h
  | 3 => (h.onCc p (fun x => { x with source := true })).drive p 100
  | 6 => h.bump (R.CC_UNSUPPORTED p.ix)
  | _ => h

/-- A port whose VCAB is present as its state machine takes over enters Attached.SNK directly (R404)
(assumption 92, DEDUCED). -/
def Hub.ccStart (h : Hub) (p : Port) (cable : Option (CcSense × CcSense)) : Hub :=
  match cable with
  | none => h
  | some (cc1, cc2) =>
    let (out, flipped, powered) := ccOutcome false cc1 cc2
    if out = 2 then h.ccTake p out flipped powered (max cc1.level cc2.level) else h

/-- CC_DETACH (R402, R414): power and VCONN go off and the latch clears; detach wins over everything in progress, and a
service accessory's detach ends its session (R451). -/
def Hub.ccDetach (h : Hub) (p : Port) : Hub :=
  if h.attach p = 0 then h
  else
    let h := (h.put (R.CC_STATUS_ATTACH p.ix) 0).put (R.CC_EVENT_ATTACH_CHG p.ix) 1
    let h := if h.jtag.by_ = some p then { h with jtag := { h.jtag with by_ := none } }.put R.SEC_STATUS_SERVICE 0 else h
    h.ccIdle p

/-- CC_TOGGLE (R403): an unattached, enabled dual-role port outside default-power mode; a try that has met no partner goes
back to the role before it, which then attaches (assumption 74, DESIGN CHOICE). -/
def Hub.ccToggle (h : Hub) (p : Port) : Hub :=
  if h.attach p = 0 ∧ h.on (R.CC_CTRL_EN p.ix) = true ∧ h.get (R.CC_CTRL_ROLE p.ix) = 0 ∧ h.defPower = false
      ∧ h.pdState p ≠ pdLatched then
    h.onCc p (fun x => { x with rp := !x.rp, tried := if x.tried = 1 then 2 else 0 })
  else h

/-- CCE_CTRL.EN written 0 (R418): Rd only, nothing negotiated, FET pair off. -/
def Hub.ccDisable (h : Hub) (p : Port) : Hub :=
  let h := if (h.cc.at p).vout = 0 then h else h.drive p 0
  let h := ((h.openPath p).noContract p).put (R.CC_STATUS_VCONN_ON p.ix) 0
  (h.setPd p (if h.pdState p = pdLatched then pdLatched else pdNone)).onCc p (fun x => { x with rp := false, wait := .none })

/-! ### Capabilities and contracts (R407–R411) -/

/-- The voltage of a level code in 50 mV (R418). -/
def levelVolts : Nat → Nat
  | 1 => 400
  | 2 => 560
  | 3 => 720
  | 4 => 960
  | _ => 100

/-- VCOM as the feeds other than the port hold it (R407). -/
def Hub.vcomFor (h : Hub) (p : Port) : Nat :=
  [0, 1, 2].foldl (fun m f => if p.feed != some f && h.feedOn f then max m (h.feedVolts f) else m) 0

/-- Whether VCOM lies within ±5 % of a voltage. -/
def inWindow (vcom v : Nat) : Bool := decide (95 * v ≤ 100 * vcom) && decide (100 * vcom ≤ 105 * v)

/-- The current of the high-voltage PDO in 10 mA: I_HV, limited by the cable (R407). -/
def Hub.hvAmps (h : Hub) (p : Port) : Nat :=
  min (50 * h.get (R.CC_SRC_CFG_I_HV p.ix)) (if h.on (R.CC_STATUS_CABLE_5A p.ix) then 500 else 300)

/-- The SPR PDOs offered (R407). -/
def Hub.sprPdos (h : Hub) (p : Port) : List Pdo :=
  (if h.defPower then [] else [⟨100, 150⟩])
    ++ (if h.get (R.CC_SRC_CFG_HV_LEVEL p.ix) == 1 && inWindow (h.vcomFor p) 400 then [⟨400, min 300 (h.hvAmps p)⟩] else [])

/-- The EPR PDOs offered (R407): 5 V and the level of 28 V and above. -/
def Hub.eprPdos (h : Hub) (p : Port) : List Pdo :=
  let v := levelVolts (h.get (R.CC_SRC_CFG_HV_LEVEL p.ix))
  (if h.defPower then [] else [⟨100, 150⟩])
    ++ (if decide (400 < v) && h.on (R.CC_STATUS_CABLE_EPR p.ix) && inWindow (h.vcomFor p) v then [⟨v, h.hvAmps p⟩] else [])

/-- Whether the port may enter EPR mode as a source (R407, R408). -/
def Hub.eprSource (h : Hub) (p : Port) : Bool :=
  h.on (R.CC_CTRL_EPR_EN p.ix) && decide (2 ≤ h.get (R.CC_SRC_CFG_HV_LEVEL p.ix)) && h.on (R.CC_STATUS_CABLE_EPR p.ix)

/-- The source's capabilities go out: EPR ones in EPR mode. -/
def Hub.sendCaps (h : Hub) (p : Port) : Hub :=
  if (h.cc.at p).epr then h.pd p (.eprSourceCaps (h.eprPdos p))
  else h.pd p (.sourceCaps (h.sprPdos p) (h.on (R.CC_CTRL_EPR_EN p.ix) && decide (2 ≤ h.get (R.CC_SRC_CFG_HV_LEVEL p.ix))))

/-- A source is about to start a message sequence: it sets SinkTxNG (R406) (assumption 75, PRESUMED). -/
def Hub.startAms (h : Hub) (p : Port) : Hub := if (h.cc.at p).source then h.emit (.sinkTxNg p) else h

/-- The source offers its capabilities of its own accord. -/
def Hub.offerCaps (h : Hub) (p : Port) : Hub := (h.startAms p).sendCaps p

/-- SOURCE_CAPABILITIES_SEND (R407, R417): repeated until GoodCRC, at most nCapsCount times; not while a change of VCAB is
in progress. -/
def Hub.capsSend (h : Hub) (p : Port) (goodCrc : Bool) : Hub :=
  let x := h.cc.at p
  if h.pdLive p = true ∧ x.source = true ∧ x.good = false ∧ x.sent < 50 ∧ 0 < x.vout ∧ x.pend = none then
    (h.offerCaps p).onCc p (fun x => { x with good := goodCrc, sent := x.sent + 1 })
  else h

/-- What a sink requests of an offer (R409). -/
def Hub.pickPdo (h : Hub) (p : Port) (pdos : List Pdo) : Option Pdo :=
  let top := levelVolts (h.get (R.CC_SNK_CFG_MAX_LEVEL p.ix))
  let hv := pdos.filter (fun d => decide (400 ≤ d.volts) && decide (d.volts ≤ top))
  match hv with
  | d :: rest =>
    let best := rest.foldl (fun (b : Pdo) (d : Pdo) => if b.volts < d.volts then d else b) d
    some ⟨best.volts, min (50 * h.get (R.CC_SNK_CFG_I_MAX p.ix)) best.amps⟩
  | [] => pdos.find? (fun d => d.volts == 100)

/-- A sequence that a port starts of its own accord: a sink's runs under SinkTxOK, its partner's Rp at 3.0 A, and otherwise
waits for it (R406) (assumption 75, PRESUMED). -/
def Hub.underTxOk (h : Hub) (p : Port) (k : SinkSeq) (f : Hub → Hub) : Hub :=
  if (h.cc.at p).source || h.get (R.CC_STATUS_RP_SEEN p.ix) == 3 then f h
  else h.onCc p (fun x => if x.due.contains k then x else { x with due := x.due ++ [k] })

/-- A sink requests from the capabilities it holds. -/
def Hub.requestNow (h : Hub) (p : Port) : Hub :=
  match h.pickPdo p (h.cc.at p).caps with
  | none => h
  | some d =>
    let h := h.pd p (if (h.cc.at p).epr then .eprRequest d else .request d)
    h.onCc p (fun x => { x with wait := .answer, pend := some d })

/-- SOURCE_CAPABILITIES (R409): after a hard reset the negotiation has restarted (R413) (assumption 75, PRESUMED). -/
def Hub.sourceCaps (h : Hub) (p : Port) (pdos : List Pdo) (epr : Bool) : Hub :=
  if h.pdLive p = true ∧ (h.cc.at p).source = false then
    let h := if h.pdState p = pdHardReset then h.setPd p pdNegotiating else h
    (h.onCc p (fun x => { x with caps := pdos, capsEpr := epr, epr := false })).requestNow p
  else h

/-- EPR_SOURCE_CAPABILITIES (R409): taken in EPR mode. -/
def Hub.eprSourceCaps (h : Hub) (p : Port) (pdos : List Pdo) : Hub :=
  if h.pdLive p = true ∧ (h.cc.at p).source = false ∧ (h.cc.at p).epr = true then
    (h.onCc p (fun x => { x with caps := pdos })).requestNow p
  else h

/-- A source answers a request: Accept and the transition, or Reject where it asks what is not offered (R407, R411). -/
def Hub.answerRequest (h : Hub) (p : Port) (pdos : List Pdo) (d : Pdo) : Hub :=
  if pdos.any (fun o => o.volts == d.volts && decide (d.amps ≤ o.amps)) then
    (h.pd p .accept).onCc p (fun x => { x with pend := some d, good := true })
  else h.pd p .reject

/-- REQUEST (R407): of the SPR offer; in EPR mode requests are EPR_Requests. -/
def Hub.request (h : Hub) (p : Port) (d : Pdo) : Hub :=
  let x := h.cc.at p
  if h.pdLive p = true ∧ x.source = true ∧ x.before = none ∧ x.epr = false then h.answerRequest p (h.sprPdos p) d else h

/-- EPR_REQUEST (R407). -/
def Hub.eprRequest (h : Hub) (p : Port) (d : Pdo) : Hub :=
  let x := h.cc.at p
  if h.pdLive p = true ∧ x.source = true ∧ x.before = none ∧ x.epr = true then h.answerRequest p (h.eprPdos p) d else h

/-- A VCONN source's SOP′ Discover Identity (R406, R407). -/
def Hub.discoverCable (h : Hub) (p : Port) (id : CableId) : Hub :=
  if h.on (R.CC_STATUS_VCONN_ON p.ix) = false then h
  else
    let h := (h.startAms p).pd p .discoverIdentity
    match id with
    | none => h
    | some (amps5, epr) => (h.put (R.CC_STATUS_CABLE_5A p.ix) (b2n amps5)).put (R.CC_STATUS_CABLE_EPR p.ix) (b2n epr)

/-- VCAB_TRANSITION_DONE (R411): a source within the new window sends PS_RDY; the contract is in force
(assumption 75, PRESUMED). -/
def Hub.vcabDone (h : Hub) (p : Port) (id : CableId) : Hub :=
  match (h.cc.at p).pend with
  | some d =>
    if h.pdLive p = true ∧ (h.cc.at p).source = true then (((h.drive p d.volts).pd p .psRdy).setContract p d).discoverCable p id
    else h
  | none => h

/-! ### Hard resets (R413, R414) -/

/-- Both roles after a hard reset: any swap ends with the termination and role before it; the source of before the swap
drives VCAB to vSafe0V and waits for its recovery; a sink waits for its source. -/
def Hub.hardReset (h : Hub) (p : Port) : Hub :=
  let h := (h.bump (R.CC_HARD_RESETS p.ix)).put (R.CC_EVENT_HARD_RESET p.ix) 1
  let h := h.loadRemove p
  let src := ((h.cc.at p).before).getD (h.cc.at p).source
  let h := (h.noContract p).onCc p (fun x => { x with before := none, source := src, rp := src, wait := .none, good := false, sent := 0 })
  if src then (h.drive p 0).setPd p pdRecovery
  else
    let h := if (h.cc.at p).vout = 0 then h else h.drive p 0
    (h.awaitPath p).setPd p pdHardReset

/-- A Hard_Reset goes out (R414: a sink with no other feed sends none but on over-voltage). -/
def Hub.sendHardReset (h : Hub) (p : Port) (always : Bool) : Hub :=
  if always || (h.cc.at p).source || h.hasOtherFeed p then (h.pd p .hardReset).hardReset p else h

/-- HARD_RESET_RECEIVED (R414). -/
def Hub.hardResetReceived (h : Hub) (p : Port) : Hub := if h.pdLive p then h.hardReset p else h

/-- CCE_HARD_RESET (R414). -/
def Hub.cceHardReset (h : Hub) (p : Port) : Hub := if h.pdLive p then h.sendHardReset p false else h

/-- HARD_RESET_RECOVERY (R413): tSrcRecover after vSafe0V the old source applies vSafe5V and negotiation restarts; a port
with a service accessory negotiates nothing (R402) (assumption 76, DEDUCED). -/
def Hub.hardResetRecovery (h : Hub) (p : Port) : Hub :=
  if h.armed p = true ∧ h.pdState p = pdRecovery then
    if h.attach p = 3 then (h.drive p 100).setPd p pdNone else h.startSource p (h.on (R.CC_STATUS_VCONN_ON p.ix))
  else h

/-! ### Protection (R415, R416) -/

/-- The port latches (R416). -/
def Hub.ccLatch (h : Hub) (p : Port) : Hub :=
  let h := (h.drive p 0).openPath p
  let h := (h.noContract p).onCc p (fun x => { x with rp := false, wait := .none, before := none })
  let h := (h.setPd p pdLatched).put (R.CC_EVENT_LATCHED p.ix) 1
  h.log (17 + p.ix) 0x02 sevDG (h.rd (A.CC_EVENT p.ix)).toNat (h.rd (A.CC_VBUS p.ix)).toNat 0

/-- The trips of the fault window with one more (R416): the window runs 60 s from its first trip, and no later one starts it
again (assumption 74, DESIGN CHOICE). -/
def windowTrips (now : Nat) (trips : List Nat) : List Nat :=
  if trips.getLast?.any (fun t => decide (now < t + 60 * second)) then now :: trips else [now]

/-- A trip is recorded (R416): event bit, CCE_FAULTS, a CONTAINED error, and the fault window of 60 s. -/
def Hub.tripRecord (h : Hub) (p : Port) (ev : Option RF) : Hub :=
  let h := match ev with
    | some f => h.put f 1
    | none => h
  let h := h.bump (R.CC_FAULTS p.ix)
  let h := h.logBy (17 + p.ix) 0x01 sevCT (h.rd (A.CC_EVENT p.ix)).toNat (h.rd (A.CC_VBUS p.ix)).toNat
    (h.get (R.CC_FAULTS p.ix)) (.trip (17 + p.ix))
  (h.recovered (.trip (17 + p.ix))).onCc p (fun x => { x with trips := windowTrips h.root x.trips })

/-- Whether RETRY_MAX trips lie within the fault window. -/
def Hub.tripsOut (h : Hub) (p : Port) : Bool := decide (h.get (R.CC_PROT_RETRY_MAX p.ix) ≤ (h.cc.at p).trips.length)

/-- A negotiation, transition or swap in progress ends, without a message: a swap's port has its role and termination of
before it again. -/
def Hub.endExchange (h : Hub) (p : Port) : Hub :=
  h.onCc p (fun x =>
    let src := x.before.getD x.source
    { x with before := none, source := src, rp := src, wait := .none, pend := none, due := [] })

/-- A trip of the VCAB path (R415, R416): FET pair off, Hard_Reset, and recovery or latch. A sink's path stays open until VCAB
lies in the vSafe5V window again. A sink with no other feed sends Hard_Reset on over-voltage only (R414): otherwise what is in
progress ends without it. With a service accessory no PD message goes out (R402)
(assumption 74, DESIGN CHOICE; 76, DEDUCED). -/
def Hub.ccTrip (h : Hub) (p : Port) (ev : Option RF) (ovp : Bool) : Hub :=
  let h := (h.tripRecord p ev).openPath p
  if h.attach p = 3 then (if h.tripsOut p then h.ccLatch p else (h.drive p 0).setPd p pdRecovery)
  else
    let h := if ovp || (h.cc.at p).source || h.hasOtherFeed p then (h.pd p .hardReset).hardReset p
      else (h.endExchange p).awaitPath p
    if h.tripsOut p then h.ccLatch p else h

/-- CABLE_OVER_VOLTAGE (R415): either role. -/
def Hub.cableOver (h : Hub) (p : Port) : Hub := if h.armed p then h.ccTrip p (some (R.CC_EVENT_OVP p.ix)) true else h

/-- CABLE_OVER_CURRENT (R415): a source. -/
def Hub.cableCurrent (h : Hub) (p : Port) : Hub :=
  if h.armed p = true ∧ (h.cc.at p).source = true then h.ccTrip p (some (R.CC_EVENT_OCP p.ix)) false else h

/-- CABLE_SHORT (R415): a source. -/
def Hub.cableShort (h : Hub) (p : Port) : Hub :=
  if h.armed p = true ∧ (h.cc.at p).source = true then h.ccTrip p (some (R.CC_EVENT_OCP p.ix)) false else h

/-- CABLE_REVERSE_CURRENT (R415): a sink's ideal diode goes off; a source trips. -/
def Hub.cableReverse (h : Hub) (p : Port) : Hub :=
  if (h.cc.at p).source = false then
    match p.feed with
    | some f => h.feedReverseOff f
    | none => h
  else if h.armed p then h.ccTrip p (some (R.CC_EVENT_RCP p.ix)) false
  else h

/-- VCONN_OVER_CURRENT (R415): VCONN off. A transition or swap in progress ends by the hard-reset recovery of R413, as R416
has the first trips retried (assumption 76, DEDUCED). -/
def Hub.vconnOver (h : Hub) (p : Port) : Hub :=
  if h.on (R.CC_STATUS_VCONN_ON p.ix) = false then h
  else
    let busy := (h.cc.at p).pend.isSome || (h.cc.at p).before.isSome || (h.cc.at p).wait != .none
    let h := (h.put (R.CC_STATUS_VCONN_ON p.ix) 0).tripRecord p (some (R.CC_EVENT_OCP p.ix))
    let h := if busy then
        (if (h.cc.at p).source || h.hasOtherFeed p then (h.pd p .hardReset).hardReset p else h.endExchange p)
      else h
    if h.tripsOut p then h.ccLatch p else h

/-- VCAB_TRANSITION_TIMEOUT (R411): not in the window 15 ms after Accept. -/
def Hub.vcabTimeout (h : Hub) (p : Port) : Hub :=
  if h.pdLive p = true ∧ (h.cc.at p).source = true ∧ (h.cc.at p).pend ≠ none then
    (h.bump (R.CC_FAULTS p.ix)).sendHardReset p true
  else h

/-- CCE_FAULT_CLEAR (R416): a latched port starts again as its attach reads, unless EN is 0 (R418)
(assumption 74, DESIGN CHOICE). -/
def Hub.faultClear (h : Hub) (p : Port) : Hub :=
  if h.pdState p ≠ pdLatched then h
  else if h.on (R.CC_CTRL_EN p.ix) = false then h.setPd p pdNone
  else
    let h := h.setPd p pdNone
    match h.attach p with
    | 1 => if h.defPower then h else (h.onCc p (fun x => { x with rp := true })).startSource p (h.on (R.CC_STATUS_VCONN_ON p.ix))
    | 2 => h.startSink p
    | 3 => (h.onCc p (fun x => { x with rp := !h.defPower })).drive p 100
    | _ => h

/-! ### Messages (R406, R409, R412, R417) -/

/-- CCE_PR_SWAP (R412): not again until the swap completes or 100 ms have passed (assumption 75, PRESUMED). -/
def Hub.prSwap (h : Hub) (p : Port) : Hub :=
  let x := h.cc.at p
  if h.pdLive p = true ∧ x.wait = PdWait.none ∧ x.before = none ∧ (h.rd (A.CC_CONTRACT p.ix) ≠ 0) ∧ x.retryAt ≤ h.root then
    h.underTxOk p .swap (fun h => ((h.startAms p).pd p .prSwap).onCc p (fun x => { x with wait := .swapAnswer }))
  else h

/-- An accepted swap starts (R412 steps 1 and 2): the old source turns VCAB off, swaps Rp for Rd and sends PS_RDY; the old
sink waits for it. The bay load leaves first where the port is its only feed (R427). -/
def Hub.swapStart (h : Hub) (p : Port) : Hub :=
  let src := (h.cc.at p).source
  let h := (h.setPd p pdSwapping).onCc p (fun x => { x with before := some src, retryAt := 0 })
  let h := h.noContract p
  if src then
    let h := (h.drive p 0).onCc p (fun x => { x with rp := false, wait := .sourceOn })
    h.pd p .psRdy
  else h.onCc p (fun x => { x with wait := .sourceOff })

/-- The swap is complete. -/
def Hub.swapDone (h : Hub) (p : Port) : Hub :=
  ((h.put (R.CC_EVENT_SWAP_DONE p.ix) 1).setPd p pdNegotiating).onCc p (fun x => { x with before := none, wait := .none })

/-- Whether the port accepts its partner's PR_Swap (R412). -/
def Hub.swapOk (h : Hub) (p : Port) : Bool := h.fedOtherwise p

/-- PR_SWAP_RECEIVED (R412): with both ends' requests collided, the source's stands and it answers Wait, and the sink
abandons its own for 100 ms. A hard reset wins over it (R414). -/
def Hub.prSwapReceived (h : Hub) (p : Port) : Hub :=
  let x := h.cc.at p
  if h.pdLive p = false ∨ x.before ≠ none ∨ h.pdState p = pdHardReset ∨ h.pdState p = pdRecovery then h
  else
    let hit := x.wait == .swapAnswer
    let h := if hit then (h.bump (R.CC_COLLISIONS p.ix)).put (R.CC_EVENT_COLLISION p.ix) 1 else h
    if hit && x.source then h.pd p .wait
    else
      let h := if hit then h.onCc p (fun x => { x with wait := .none, retryAt := h.root + 100 * 1000 * us }) else h
      if h.swapOk p then ((h.loadRemove p).pd p .accept).swapStart p else h.pd p .reject

/-- ACCEPT (R411, R412): of a request or of a PR_Swap. -/
def Hub.accept (h : Hub) (p : Port) : Hub :=
  if h.pdLive p = false then h
  else
    match (h.cc.at p).wait with
    | .answer => h.onCc p (fun x => { x with wait := .psRdy })
    | .swapAnswer => (h.loadRemove p).swapStart p
    | _ => h

/-- REJECT (R406): the pending request ends; the contract in force stands. -/
def Hub.reject (h : Hub) (p : Port) : Hub :=
  if h.pdLive p = false then h
  else
    match (h.cc.at p).wait with
    | .answer => h.onCc p (fun x => { x with wait := .none, pend := none })
    | .swapAnswer => h.onCc p (fun x => { x with wait := .none })
    | _ => h

/-- WAIT_MESSAGE (R412): the pending request is abandoned; a swap may be asked again after 100 ms. -/
def Hub.waitMessage (h : Hub) (p : Port) : Hub :=
  if h.pdLive p = false then h
  else
    match (h.cc.at p).wait with
    | .answer => h.onCc p (fun x => { x with wait := .none, pend := none })
    | .swapAnswer => h.onCc p (fun x => { x with wait := .none, retryAt := h.root + 100 * 1000 * us })
    | _ => h

/-- After an SPR contract a sink whose source shows EPR capability enters EPR mode (R409). -/
def Hub.tryEpr (h : Hub) (p : Port) : Hub :=
  let x := h.cc.at p
  if x.capsEpr = true ∧ x.epr = false ∧ h.on (R.CC_CTRL_EPR_EN p.ix) = true ∧ 2 ≤ h.get (R.CC_SNK_CFG_MAX_LEVEL p.ix) then
    h.underTxOk p .epr (fun h => (h.pd p (.eprMode 1)).onCc p (fun x => { x with wait := .epr }))
  else h

/-- A swap changes the port's ATTACH (R401, R418), the partner's Rp reading as given (assumption 146, DESIGN CHOICE). -/
def Hub.swapAttach (h : Hub) (p : Port) (out rp : Nat) : Hub :=
  ((h.put (R.CC_STATUS_ATTACH p.ix) out).put (R.CC_EVENT_ATTACH_CHG p.ix) 1).put (R.CC_STATUS_RP_SEEN p.ix) rp

/-- PS_RDY (R411–R413): a sink's contract, a step of a swap, or the new VCONN source. The level of the new source's Rp is a
free value, 1 to 3, until the next reading (assumption 75, PRESUMED; 146, DESIGN CHOICE). -/
def Hub.psRdy (h : Hub) (p : Port) : Hub :=
  if h.pdLive p = false then h
  else
    match (h.cc.at p).wait with
    | .psRdy =>
      match (h.cc.at p).pend with
      | some d => (h.setContract p d).tryEpr p
      | none => h.onCc p (fun x => { x with wait := .none })
    | .sourceOff =>
      let h := (h.openPath p).onCc p (fun x => { x with rp := true })
      let h := (((h.swapAttach p 1 0).startSource p false).pd p .psRdy).swapDone p
      h.offerCaps p
    | .sourceOn =>
      let (w, h) := h.fresh
      ((h.swapAttach p 2 (w.toNat % 3 + 1)).startSink p).swapDone p
    | .vconn => (h.put (R.CC_STATUS_VCONN_ON p.ix) 0).onCc p (fun x => { x with wait := .none })
    | _ => h

/-- GET_SOURCE_CAP (R406). -/
def Hub.getSourceCap (h : Hub) (p : Port) : Hub := if h.pdLive p then h.sendCaps p else h

/-- The fixed PDOs a sink can take (R409). -/
def Hub.sinkPdos (h : Hub) (p : Port) : List Pdo :=
  let i := 50 * h.get (R.CC_SNK_CFG_I_MAX p.ix)
  let top := levelVolts (h.get (R.CC_SNK_CFG_MAX_LEVEL p.ix))
  ⟨100, i⟩ :: ([400, 560, 720, 960].filter (fun v => decide (v ≤ top))).map (fun v => ⟨v, i⟩)

/-- GET_SINK_CAP (R406). -/
def Hub.getSinkCap (h : Hub) (p : Port) : Hub := if h.pdLive p then h.pd p (.sinkCaps (h.sinkPdos p)) else h

/-- SINK_CAPABILITIES (R406): taken in. -/
def Hub.sinkCaps (h : Hub) (p : Port) (pdos : List Pdo) : Hub :=
  if h.pdLive p then h.onCc p (fun x => { x with snkCaps := pdos }) else h

/-- SOFT_RESET (R406): Accept, and the exchange restarts. -/
def Hub.softReset (h : Hub) (p : Port) : Hub :=
  if h.pdLive p then
    ((h.pd p .accept).setPd p pdNegotiating).onCc p
      (fun x => { x with wait := .none, pend := none, good := false, sent := 0, before := none, due := [] })
  else h

/-- VCONN_SWAP (R406): accepted while VCONN_EN is 1; the new VCONN source sends PS_RDY, the old one waits for it. -/
def Hub.vconnSwap (h : Hub) (p : Port) : Hub :=
  if h.pdLive p = false then h
  else if h.on (R.CC_CTRL_VCONN_EN p.ix) = false then h.pd p .reject
  else
    let h := h.pd p .accept
    if h.on (R.CC_STATUS_VCONN_ON p.ix) then h.onCc p (fun x => { x with wait := .vconn })
    else (h.put (R.CC_STATUS_VCONN_ON p.ix) 1).pd p .psRdy

/-- DR_SWAP (R406). -/
def Hub.drSwap (h : Hub) (p : Port) : Hub := if h.pdLive p then h.pd p .reject else h

/-- The source drives the contract down to 5 V first (R407, R411); its new capabilities follow. -/
def Hub.driveDown (h : Hub) (p : Port) : Hub :=
  h.onCc p (fun x => { x with pend := some ⟨100, 150⟩, good := false, sent := 0 })

/-- A source leaves EPR mode (R417). -/
def Hub.exitEpr (h : Hub) (p : Port) : Hub :=
  (h.onCc p (fun x => { x with epr := false })).driveDown p

/-- EPR_MODE (R406, R409): actions 1 Enter, 2 acknowledged, 3 succeeded, 4 failed, 5 Exit (assumption 75, PRESUMED). -/
def Hub.eprMode (h : Hub) (p : Port) (action : Nat) : Hub :=
  let x := h.cc.at p
  if h.pdLive p = false then h
  else if x.source then
    match action with
    | 1 =>
      if h.eprSource p = true ∧ h.pdState p = 2 then
        let h := ((h.pd p (.eprMode 2)).pd p (.eprMode 3)).onCc p (fun x => { x with epr := true })
        h.sendCaps p
      else h.pd p (.eprMode 4)
    | 5 => if x.epr then h.exitEpr p else h
    | _ => h
  else
    match action with
    | 3 => if x.wait = PdWait.epr then h.onCc p (fun x => { x with epr := true, wait := .none }) else h
    | 4 => if x.wait = PdWait.epr then h.onCc p (fun x => { x with wait := .none }) else h
    | 5 => h.onCc p (fun x => { x with epr := false, wait := .none })
    | _ => h

/-- EPR_KEEPALIVE (R417): answered; the source's timer restarts. -/
def Hub.keepAlive (h : Hub) (p : Port) : Hub :=
  if h.pdLive p = true ∧ (h.cc.at p).source = true ∧ (h.cc.at p).epr = true then h.pd p .eprKeepAliveAck else h

/-- EPR_KEEPALIVE_SEND (R417). -/
def Hub.keepAliveSend (h : Hub) (p : Port) : Hub :=
  if h.pdLive p = true ∧ (h.cc.at p).source = false ∧ (h.cc.at p).epr = true then
    h.underTxOk p .keepAlive (fun h => h.pd p .eprKeepAlive)
  else h

/-- EPR_KEEPALIVE_TIMEOUT (R417). -/
def Hub.keepAliveTimeout (h : Hub) (p : Port) : Hub :=
  if h.pdLive p = true ∧ (h.cc.at p).source = true ∧ (h.cc.at p).epr = true then ((h.startAms p).pd p (.eprMode 5)).exitEpr p else h

/-- PD_UNSUPPORTED_MESSAGE (R406): an Alert is counted only (assumption 75, PRESUMED). -/
def Hub.pdUnsupported (h : Hub) (p : Port) (alert : Bool) : Hub :=
  if h.pdLive p = false then h
  else
    let h := h.bump (R.CC_UNSUPPORTED p.ix)
    if alert then h else h.pd p .notSupported

/-- PD_RESPONSE_TIMEOUT (R417): no reply within tSenderResponse. A request without a reply ends in a hard reset (R414)
(assumption 75, PRESUMED). -/
def Hub.pdTimeout (h : Hub) (p : Port) : Hub :=
  if h.pdLive p = false then h
  else
    match (h.cc.at p).wait with
    | .answer => (h.onCc p (fun x => { x with wait := .none, pend := none })).sendHardReset p false
    | .swapAnswer => h.onCc p (fun x => { x with wait := .none })
    | .epr => h.onCc p (fun x => { x with wait := .none })
    | .vconn => h.onCc p (fun x => { x with wait := .none })
    | _ => h

/-- PS_TRANSITION_TIMEOUT (R413, R417): PS_RDY or a swap step has not come; the wait ends by a hard reset
(assumption 75, PRESUMED). -/
def Hub.psTimeout (h : Hub) (p : Port) : Hub :=
  if h.pdLive p = false then h
  else
    match (h.cc.at p).wait with
    | .psRdy => (h.onCc p (fun x => { x with wait := .none, pend := none })).sendHardReset p false
    | .sourceOff => h.sendHardReset p false
    | .sourceOn => h.sendHardReset p false
    | _ => h

/-- VCOM_WINDOW_LOST (R407): VCOM out of the window of the high-voltage PDO for 10 ms. -/
def Hub.vcomLost (h : Hub) (p : Port) : Hub :=
  let v := levelVolts (h.get (R.CC_SRC_CFG_HV_LEVEL p.ix))
  if h.pdLive p = true ∧ (h.cc.at p).source = true ∧ 400 ≤ v ∧ inWindow (h.vcomFor p) v = false then
    if h.get (R.CC_CONTRACT_VOLTAGE p.ix) = v then h.driveDown p
    else (h.onCc p (fun x => { x with good := false, sent := 0 })).offerCaps p
  else h

/-- A new capabilities exchange (R418): a source sends its capabilities, a sink requests again. -/
def Hub.newExchange (h : Hub) (p : Port) : Hub :=
  if h.pdLive p = false ∨ (h.cc.at p).before ≠ none then h
  else if (h.cc.at p).source then
    if 0 < (h.cc.at p).vout then (h.onCc p (fun x => { x with good := false, sent := 0 })).offerCaps p else h
  else h.underTxOk p .request (fun h => h.requestNow p)

/-- One of the sequences that waited for SinkTxOK starts, unless the port waits for an answer by now. -/
def Hub.sinkGo (h : Hub) (p : Port) (k : SinkSeq) : Hub :=
  if (h.cc.at p).wait != .none then h.onCc p (fun x => { x with due := x.due ++ [k] })
  else
    match k with
    | .swap => h.prSwap p
    | .request => h.newExchange p
    | .epr => if h.pdLive p then h.tryEpr p else h
    | .keepAlive => h.keepAliveSend p

/-- The partner's Rp as a sink reads it anew (R406, R418): at SinkTxOK what waited starts, in order
(assumption 75, PRESUMED; 146, DESIGN CHOICE). -/
def Hub.rpRead (h : Hub) (p : Port) (rp : Nat) : Hub :=
  let h := h.put (R.CC_STATUS_RP_SEEN p.ix) rp
  if rp = 3 then (h.cc.at p).due.foldl (fun h k => h.sinkGo p k) (h.onCc p (fun x => { x with due := [] })) else h

/-- CC_ATTACH (R401, R402, R405): a debounced reading. An unattached port, or one that has read a powered cable alone, attaches
as the table says; a sink reads its partner's Rp again (assumption 74, DESIGN CHOICE). -/
def Hub.ccAttach (h : Hub) (p : Port) (cc1 cc2 : CcSense) : Hub :=
  let (out, flipped, powered) := ccOutcome (h.cc.at p).rp cc1 cc2
  let rp := max cc1.level cc2.level
  if h.pdState p = pdLatched ∨ out = 0 then h
  else if h.attach p = 2 ∧ out = 2 then h.rpRead p rp
  else if h.attach p ≠ 0 ∧ (h.attach p ≠ 5 ∨ out = 5) then h
  else if h.ccTries p out then h.onCc p (fun x => { x with rp := !x.rp, tried := 1 })
  else h.ccTake p out flipped powered rp

/-- CCE_CONFIG_WRITE (R418): HV_LEVEL and I_HV of CCE_SRC_CFG, or MAX_LEVEL and I_MAX of CCE_SNK_CFG; reserved encodings
leave their field (R12). -/
def Hub.ccConfig (h : Hub) (p : Port) (sink : Bool) (level amps : Nat) : Hub :=
  let l := if sink then R.CC_SNK_CFG_MAX_LEVEL p.ix else R.CC_SRC_CFG_HV_LEVEL p.ix
  let i := if sink then R.CC_SNK_CFG_I_MAX p.ix else R.CC_SRC_CFG_I_HV p.ix
  let h := if level ≤ 4 then h.put l level else h
  let h := if 1 ≤ amps ∧ amps ≤ 10 then h.put i amps else h
  h.newExchange p

/-- CC_COUNTER_CLEAR (R418). -/
def Hub.ccClear (h : Hub) (p : Port) : Hub := h.clearRange (A.CC_ATTACHES p.ix) (A.CC_UNSUPPORTED p.ix)

/-- A port at the entry to default-power mode (R410): a source removes VCAB and presents Rd. -/
def Hub.ccDefaultPower (h : Hub) (p : Port) : Hub :=
  let h := h.put (R.CC_STATUS_HUB_DEFAULT p.ix) 1
  if (h.cc.at p).vout = 0 then h.ccPresent p
  else
    let h := ((h.drive p 0).bump (R.CC_FAULTS p.ix)).noContract p
    let h := h.onCc p (fun x => { x with rp := false, wait := .none, before := none })
    h.setPd p pdNone

/-! ### The rows of the table -/


/-- CC_DETACH (R402). -/
def execCcDetach (p : Port) (s : State) : Result := s.hv (fun h => h.ccDetach p)

/-- CC_TOGGLE (R403). -/
def execCcToggle (p : Port) (s : State) : Result := s.hv (fun h => h.ccToggle p)

/-- SOURCE_CAPABILITIES_SEND (R407). -/
def execSourceCapabilitiesSend (p : Port) (goodCrc : Bool) (s : State) : Result :=
  s.hv (fun h => h.capsSend p goodCrc)

/-- SOURCE_CAPABILITIES (R409). -/
def execSourceCapabilities (p : Port) (pdos : List Pdo) (epr : Bool) (s : State) : Result :=
  s.hv (fun h => h.sourceCaps p pdos epr)

/-- REQUEST (R407). -/
def execRequest (p : Port) (pdo : Pdo) (s : State) : Result := s.hv (fun h => h.request p pdo)

/-- ACCEPT (R411). -/
def execAccept (p : Port) (s : State) : Result := s.hv (fun h => h.accept p)

/-- REJECT (R406). -/
def execReject (p : Port) (s : State) : Result := s.hv (fun h => h.reject p)

/-- WAIT_MESSAGE (R412). -/
def execWaitMessage (p : Port) (s : State) : Result := s.hv (fun h => h.waitMessage p)

/-- PS_RDY (R411). -/
def execPsRdy (p : Port) (s : State) : Result := s.hv (fun h => h.psRdy p)

/-- GET_SOURCE_CAP (R406). -/
def execGetSourceCap (p : Port) (s : State) : Result := s.hv (fun h => h.getSourceCap p)

/-- GET_SINK_CAP (R406). -/
def execGetSinkCap (p : Port) (s : State) : Result := s.hv (fun h => h.getSinkCap p)

/-- SINK_CAPABILITIES (R406). -/
def execSinkCapabilities (p : Port) (pdos : List Pdo) (s : State) : Result := s.hv (fun h => h.sinkCaps p pdos)

/-- SOFT_RESET (R406). -/
def execSoftReset (p : Port) (s : State) : Result := s.hv (fun h => h.softReset p)

/-- HARD_RESET_RECEIVED (R414). -/
def execHardResetReceived (p : Port) (s : State) : Result := s.hv (fun h => h.hardResetReceived p)

/-- PR_SWAP_RECEIVED (R412). -/
def execPrSwapReceived (p : Port) (s : State) : Result := s.hv (fun h => h.prSwapReceived p)

/-- VCONN_SWAP (R406). -/
def execVconnSwap (p : Port) (s : State) : Result := s.hv (fun h => h.vconnSwap p)

/-- DR_SWAP (R406). -/
def execDrSwap (p : Port) (s : State) : Result := s.hv (fun h => h.drSwap p)

/-- EPR_MODE (R409). -/
def execEprMode (p : Port) (action : Byte) (s : State) : Result := s.hv (fun h => h.eprMode p action.toNat)

/-- EPR_SOURCE_CAPABILITIES (R409). -/
def execEprSourceCapabilities (p : Port) (pdos : List Pdo) (s : State) : Result :=
  s.hv (fun h => h.eprSourceCaps p pdos)

/-- EPR_REQUEST (R407). -/
def execEprRequest (p : Port) (pdo : Pdo) (s : State) : Result := s.hv (fun h => h.eprRequest p pdo)

/-- EPR_KEEPALIVE (R417). -/
def execEprKeepalive (p : Port) (s : State) : Result := s.hv (fun h => h.keepAlive p)

/-- EPR_KEEPALIVE_SEND (R417). -/
def execEprKeepaliveSend (p : Port) (s : State) : Result := s.hv (fun h => h.keepAliveSend p)

/-- EPR_KEEPALIVE_TIMEOUT (R417). -/
def execEprKeepaliveTimeout (p : Port) (s : State) : Result := s.hv (fun h => h.keepAliveTimeout p)

/-- PD_UNSUPPORTED_MESSAGE (R406). -/
def execPdUnsupportedMessage (p : Port) (alert : Bool) (s : State) : Result := s.hv (fun h => h.pdUnsupported p alert)

/-- PD_RESPONSE_TIMEOUT (R417). -/
def execPdResponseTimeout (p : Port) (s : State) : Result := s.hv (fun h => h.pdTimeout p)

/-- VCAB_TRANSITION_DONE (R411). -/
def execVcabTransitionDone (p : Port) (cable : CableId) (s : State) : Result := s.hv (fun h => h.vcabDone p cable)

/-- VCAB_TRANSITION_TIMEOUT (R411). -/
def execVcabTransitionTimeout (p : Port) (s : State) : Result := s.hv (fun h => h.vcabTimeout p)

/-- VCOM_WINDOW_LOST (R407). -/
def execVcomWindowLost (p : Port) (s : State) : Result := s.hv (fun h => h.vcomLost p)

/-- CCE_PR_SWAP (R412). -/
def execCcePrSwap (p : Port) (s : State) : Result := s.upd (fun h => h.prSwap p)

/-- CCE_HARD_RESET (R414). -/
def execCceHardReset (p : Port) (s : State) : Result := s.upd (fun h => h.cceHardReset p)

/-- CCE_FAULT_CLEAR (R416). -/
def execCceFaultClear (p : Port) (s : State) : Result := s.upd (fun h => h.faultClear p)

/-- CCE_CONFIG_WRITE (R418). -/
def execCceConfigWrite (p : Port) (sink : Bool) (level : BitVec 3) (amps : BitVec 4) (s : State) : Result :=
  s.upd (fun h => h.ccConfig p sink level.toNat amps.toNat)

/-- HARD_RESET_RECOVERY (R413). -/
def execHardResetRecovery (p : Port) (s : State) : Result := s.hv (fun h => h.hardResetRecovery p)

/-- CABLE_OVER_VOLTAGE (R415). -/
def execCableOverVoltage (p : Port) (s : State) : Result := s.hv (fun h => h.cableOver p)

/-- CABLE_OVER_CURRENT (R415). -/
def execCableOverCurrent (p : Port) (s : State) : Result := s.hv (fun h => h.cableCurrent p)

/-- CABLE_SHORT (R415). -/
def execCableShort (p : Port) (s : State) : Result := s.hv (fun h => h.cableShort p)

/-- CABLE_REVERSE_CURRENT (R415). -/
def execCableReverseCurrent (p : Port) (s : State) : Result := s.hv (fun h => h.cableReverse p)

/-- VCONN_OVER_CURRENT (R415). -/
def execVconnOverCurrent (p : Port) (s : State) : Result := s.hv (fun h => h.vconnOver p)

/-- CC_COUNTER_CLEAR (R418). -/
def execCcCounterClear (p : Port) (s : State) : Result := s.upd (fun h => h.ccClear p)

/-- PS_TRANSITION_TIMEOUT (R417). -/
def execPsTransitionTimeout (p : Port) (s : State) : Result := s.hv (fun h => h.psTimeout p)

end Sys2Proof.Machine
end

