-- ==== Sys2Proof/Machine/Power.lean ====
section
/-! DEFINITION. What joins the power chapters to the rest of the hub: default-power mode (R410), FET over-temperature
(R429) and telemetry (R418, R432, R470). -/

namespace Sys2Proof.Machine

/-- DEFAULT_POWER_ENTER (R410): VCOM below 9 V. Sources remove VCAB, unattached ports present Rd, the adapters stop and
the fuse goes to OFF. -/
def Hub.defaultEnter (h : Hub) : Hub :=
  if h.defPower then h
  else
    let h := Port.all.foldl Hub.ccDefaultPower ((h.put R.LOAD_STATUS_DEFAULT 1).fuseStop)
    let h := (List.range 4).foldl Hub.usbPowerOff h
    h.ethAllDown

/-- DEFAULT_POWER_EXIT (R410): VCOM has held 9.5 V for 10 ms; the adapters are released. -/
def Hub.defaultExit (h : Hub) : Hub :=
  if h.defPower = false then h
  else
    let h := Port.all.foldl (fun h p => h.put (R.CC_STATUS_HUB_DEFAULT p.ix) 0) (h.put R.LOAD_STATUS_DEFAULT 0)
    (Port.all.foldl Hub.ccPresent h).fuseStart

/-- FET_OVERTEMP (R429): a set whose temperature has reached TJ_MAX (assumption 76, DEDUCED; 80, DEDUCED). -/
def Hub.fetOvertemp (h : Hub) (f : Nat) : Hub :=
  if h.fetHot f = false then h
  else
    match f with
    | 0 => if h.armed .E then h.ccTrip .E none false else h
    | 1 => if h.armed .W then h.ccTrip .W none false else h
    | 2 => if h.armed .S then h.ccTrip .S none false else h
    | 3 => h.localHot
    | _ => h.fuseTrip R.LOAD_EVENT_OVERTEMP

/-- TELEMETRY_SAMPLE (R470): while no two references agree telemetry holds its last values (R469). A sink's path closes once
VCAB lies in the vSafe5V window (R405), and a feed below 4.5 V is held off (R420) (assumption 77, DEDUCED). -/
def Hub.telemetry (h : Hub) (t : Telemetry) : Hub :=
  if h.coop.noRefs then h
  else
    let h := h.onLoad (fun x => { x with die := t.die, core := t.core })
    let h := (h.put R.LOAD_VOLTS_VCOM t.vcom.toNat).put R.LOAD_VOLTS_VOUT t.vout.toNat
    let h := ((h.put R.LOAD_FEED_E_VOLT t.feedE.toNat).put R.LOAD_FEED_W_VOLT t.feedW.toNat).put R.LOAD_FEED_L_VOLT t.feedL.toNat
    let h := h.put R.LOAD_IOUT_SENSE (min 65535 t.sense)
    let h := Port.all.foldl (fun h p =>
      let v := t.cable.at p
      let h := ((h.put (R.CC_VBUS_VOLT p.ix) v.volts.toNat).put (R.CC_VBUS_AMPS p.ix) (min 1023 v.amps)).put
        (R.CC_VBUS_INTO_HUB p.ix) (b2n v.into)
      if (h.cc.at p).closing then h.closePath p else h) h
    [0, 1, 2].foldl Hub.feedLow h

/-! ### The rows of the table -/

/-- DEFAULT_POWER_ENTER (R410). -/
def execDefaultPowerEnter (s : State) : Result := s.hv (fun h => h.defaultEnter)

/-- DEFAULT_POWER_EXIT (R410). -/
def execDefaultPowerExit (s : State) : Result := s.hv (fun h => h.defaultExit)

/-- FET_OVERTEMP (R429). -/
def execFetOvertemp (fet : Fin 5) (s : State) : Result := s.hv (fun h => h.fetOvertemp fet)

/-- TELEMETRY_SAMPLE (R470). -/
def execTelemetrySample (sample : Telemetry) (s : State) : Result := s.hv (fun h => h.telemetry sample)

end Sys2Proof.Machine
end

