-- ==== Sys2Proof/Machine/Ethernet.lean ====
section
/-! DEFINITION. The Ethernet ports (R304–R313): link, received frames and their classification into VLAN sets, segments,
reassembly, tags and transmission. -/

namespace Sys2Proof.Machine

/-! ### Frames -/

/-- The bits of the Clause 37 base page the hub acts on: FD, HD, and remote fault (R305) (assumption 60, PRESUMED). -/
def pageFd (p : Nat) : Bool := bit p 5

/-- The base page a port advertises (R305): FD 1, HD 0, PAUSE 0b00, no next page (assumption 60, PRESUMED). -/
def basePage : Nat := 0x20

/-- Remote fault in a base page (assumption 60, PRESUMED). -/
def pageRf (p : Nat) : Bool := slice p 12 2 != 0

/-- A big-endian half-word of a frame. -/
def half (f : List Byte) (i : Nat) : Nat := beNat ((f.drop i).take 2)

/-- Whether a frame is tagged (R309): EtherType 0x8100 after the source address. -/
def hasTag (f : List Byte) : Bool := half f 12 == 0x8100

/-- VID of a tagged frame. -/
def tagVid (f : List Byte) : Nat := if hasTag f then half f 14 % 4096 else 0

/-- PCP of a tagged frame; 0 for any other. -/
def tagPcp (f : List Byte) : Nat := if hasTag f then half f 14 / 8192 else 0

/-- The EtherType tested (R309) (assumption 59, DEDUCED). -/
def etherType (f : List Byte) : Nat := if hasTag f then half f 16 else half f 12

/-- A frame padded with zeros to 60 bytes. -/
def pad60 (f : List Byte) : List Byte := f ++ List.replicate (60 - f.length) 0#8

/-- A frame with its FCS. -/
def withFcs (f : List Byte) : List Byte := f ++ wordBytes (crc32 f)

/-- Whether a rule matches a frame (R309). A tagged frame with VID 0 counts as untagged, with PCP 0. -/
def Hub.ruleMatches (h : Hub) (x k : Nat) (f : List Byte) : Bool :=
  let tagged := hasTag f && tagVid f != 0
  let pcp := if tagged then tagPcp f else 0
  h.on (R.ETH_RULE_A_EN x k)
    && (if h.on (R.ETH_RULE_A_UNTAG x k) then !tagged
        else tagged && decide (h.get (R.ETH_RULE_A_VID_LO x k) ≤ tagVid f) && decide (tagVid f ≤ h.get (R.ETH_RULE_A_VID_HI x k)))
    && (!h.on (R.ETH_RULE_B_ETYPE_EN x k) || etherType f == h.get (R.ETH_RULE_B_ETYPE x k))
    && bit (h.get (R.ETH_RULE_B_PCP_MASK x k)) pcp

/-- The set a frame goes into: the first rule that matches (R308 order 5). -/
def Hub.ruleSet (h : Hub) (x : Nat) (f : List Byte) : Option Nat :=
  ((List.range 16).find? (fun k => h.ruleMatches x k f)).map (fun k => h.get (R.ETH_RULE_A_SET x k))

/-! ### Ingress (R308–R311) -/

/-- The payload of segment `s` of `t` bytes of data (R311). -/
def segment (f : Nat) (trailer : Bool) (data : List Byte) (s : Nat) : List Word :=
  let bs := (data.drop (508 * s)).take 508
  let last := decide (data.length ≤ 508 * (s + 1))
  let pad := (4 - bs.length % 4) % 4
  W (s + b2n last * 8 + (if last then pad else 0) * 16 + b2n trailer * 64 + f * 65536) :: wordsOf bs

/-- A frame's segments (R311). -/
def segments (f : List Byte) (trailer : Option Nat) : List (List Word) :=
  let data := f ++ (match trailer with | some t => leBytes 8 t | none => [])
  (List.range (ceilDiv data.length 508)).map (segment f.length trailer.isSome data)

/-- The segments of a frame sent in order until one fails admission (R310); one with no route is counted as such and the
next goes on (R17, R95). -/
def Hub.sendSegments (h : Hub) (n dest : Nat) : List (List Word) → Hub × Bool
  | [] => (h, true)
  | ws :: rest =>
    let (h, r) := h.send n dest (h.bindCls n) 0 0 h.stamp ws
    if r.refused then (h, false) else h.sendSegments n dest rest

/-- The tunnel of a set of a port (R204). -/
def Hub.setTunnel (h : Hub) (x s : Nat) : Option Nat := h.boundArg (8 + x) (fun a => a == s)

/-- Bytes of frames in a port's receive FIFO: those that contexts have not taken, and those that wait out a rebuild (R164,
R308). -/
def Hub.ethRxFill (h : Hub) (x : Nat) : Nat :=
  ((h.ethPort x).rxWait.map (fun e => e.2.1.length)).sum + (((List.range 8).filterMap (fun s => h.setTunnel x s)).map (fun n => ((h.epInOf n).map (fun p => 4 * p.length)).sum)).sum

/-- A frame sent into a set (R310): `sfd` is the station time of its SFD in 0.25 ns (assumption 59, DEDUCED). -/
def Hub.intoSet (h : Hub) (x s : Nat) (f : List Byte) (sfd : Nat) : Hub :=
  let noset := h.bump (word (A.ETH_RX_NOSET x))
  match h.setTunnel x s with
  | none => noset
  | some n =>
    let segs := segments f (if h.on (R.ETH_SET_EGRESS_TRAILER x s) then some (sfd / 8) else none)
    if h.bindMode n = 1 then
      let dest := (h.rd (A.ETH_SET_DEST x s)).toNat % 16384
      if !tidValid dest || hubOf dest == 127 || (h.hasAddr && hubOf dest == h.addr) then noset
      else
        let h := h.bump (word (A.ETH_RX_FRAMES x))
        match h.sendSegments n dest segs with
        | (h, true) => h
        | (h, false) => h.bump (word (A.ETH_RX_ADMIT x))
    else
      let h := h.bump (word (A.ETH_RX_FRAMES x))
      segs.foldl (fun h ws => h.epHold n (h.ownPacket n 0 (h.bindCls n) 0 0 h.stamp ws)) h

/-- Whether a frame is for PTP (R308 order 4). -/
def Hub.isPtp (h : Hub) (x : Nat) (f : List Byte) : Bool :=
  let dst := beNat (f.take 6)
  etherType f == 0x88F7 && (dst == 0x011B19000000 || dst == 0x0180C200000E) && h.on (R.PTP_PORT_CTRL_EN x)

/-- A PTP port beyond its registers. -/
def Hub.ptp (h : Hub) (x : Nat) : PtpPort := SMap.get (fun _ => PtpPort.reset) h.eth.ptp x

/-- The hub with a PTP port's state set. -/
def Hub.setPtp (h : Hub) (x : Nat) (v : PtpPort) : Hub :=
  { h with eth := { h.eth with ptp := SMap.set (fun _ => PtpPort.reset) h.eth.ptp x v } }

/-- Root periods a byte takes on a port's line, times 5 (R304). -/
def Hub.ethByte5 (h : Hub) (x : Nat) : Nat := if h.get (R.ETH_CTRL_MODE x) = 2 then 64 else 160

/-- Stamp in 0.25 ns of a frame whose last FCS bit arrived `ago` root periods before now: station time of the first bit
after its SFD (R318) (assumption 59, DEDUCED). -/
def Hub.ethStamp (h : Hub) (x len ago : Nat) : Nat := h.stimeAgo (len * h.ethByte5 x / 5 + ago)

/-- The packets of a frame for which the receive FIFO has no room in a rebuild are counted under cause 0x4 of the outputs they
would have taken, beside the frame's own count (R164) (assumption 144, DESIGN CHOICE). -/
def Hub.ethSpilt (h : Hub) (x s : Nat) (f : List Byte) : Hub :=
  match h.setTunnel x s with
  | none => h
  | some n =>
    if h.bindMode n = 1 then
      let dest := (h.rd (A.ETH_SET_DEST x s)).toNat % 16384
      (segments f none).foldl (fun h ws =>
        let p := h.ownPacket n dest (h.bindCls n) 0 0 h.stamp ws
        h.countAt p.cls 4 (h.wayOutputs p none)) h
    else h

/-- ETH_FRAME_RECEIVED (R308): a frame with its FCS, whose last bit arrived `ago` root periods before now; `code` says that
a code error came with it (assumption 59, DEDUCED; 144, DESIGN CHOICE). -/
def Hub.ethFrame (h : Hub) (x : Nat) (frame : List Byte) (code : Bool) (ago : Nat) : Hub :=
  let f := frame.take (frame.length - 4)
  let sfd := h.ethStamp x frame.length ago
  if h.ethLink x ≠ 2 then h
  else if 16384 < h.ethRxFill x + frame.length then
    let h := h.bump (word (A.ETH_RX_OVERFLOW x))
    match (if h.on R.FAB_STATUS_REBUILD then h.ruleSet x f else none) with
    | some s => h.ethSpilt x s f
    | none => h
  else if code || frame.drop (frame.length - 4) != wordBytes (crc32 f) then h.bump (word (A.ETH_RX_FCS_ERR x))
  else if frame.length < 64 ∨ h.get (R.ETH_CTRL_MAX_FRAME x) < frame.length then h.bump (word (A.ETH_RX_LEN_ERR x))
  else if half f 12 = 0x8808 ∧ half f 14 = 1 then h.bump (word (A.ETH_RX_PAUSE x))
  else if h.isPtp x f then
    let p := h.ptp x
    let msg := f.drop (if hasTag f then 18 else 14)
    (h.bump (word (A.ETH_RX_FRAMES x))).setPtp x { p with inq := p.inq ++ [(msg, sfd)] }
  else
    match h.ruleSet x f with
    | some s =>
      if h.on R.FAB_STATUS_REBUILD then
        let p := h.ethPort x
        h.setEthPort x { p with rxWait := p.rxWait ++ [(s, f, sfd)] }
      else h.intoSet x s f sfd
    | none => h.bump (word (A.ETH_RX_NOMATCH x))

/-- Frames that waited out a rebuild go on, oldest first. -/
def Hub.ethGo (h : Hub) (x : Nat) : Hub :=
  let p := h.ethPort x
  p.rxWait.foldl (fun h e => h.intoSet x e.1 e.2.1 e.2.2) (h.setEthPort x { p with rxWait := [] })

/-- FREE_LIST_REBUILD_DONE (R164): allocation goes on, and what waited in the adapters with it. -/
def Hub.rebuildEnd (h : Hub) : Hub :=
  if h.on R.FAB_STATUS_REBUILD then [0, 1, 2, 3].foldl Hub.ethGo h.rebuildDone else h

/-! ### Egress (R312, R313) -/

/-- Bytes in a port's transmit store. -/
def EthPort.stored (p : EthPort) : Nat := (p.parts.map (fun q => q.bytes.length)).sum + (p.txq.map (fun q => q.2.length)).sum

/-- A partial frame is discarded and counted. -/
def Hub.dropPart (h : Hub) (x : Nat) (q : EthPart) : Hub :=
  let p := h.ethPort x
  (h.bump (word (A.ETH_TX_REASM_ERR x))).setEthPort x { p with parts := p.parts.erase q }

/-- The data bytes of a segment whose word and LENGTH fit together (R311, R312); none otherwise. -/
def segData (p : Packet) : Option (List Byte) :=
  match p.payload with
  | [] => none
  | w :: ws =>
    let v := w.toNat
    let t := slice v 16 16 + b2n (bit v 6) * 8
    let s := slice v 0 3
    let n := ceilDiv t 508
    let len := min 508 (t - 508 * s)
    let last := decide (s + 1 = n)
    if s < n ∧ n ≤ 5 ∧ bit v 3 = last ∧ slice v 4 2 = (if last then (4 - len % 4) % 4 else 0) ∧ ws.length = ceilDiv len 4 then
      some ((bytesOf ws).take len)
    else none

/-- A segment joins its frame (R312). -/
def Hub.ethJoin (h : Hub) (x s : Nat) (p : Packet) : Hub :=
  let old := (h.ethPort x).parts.find? (fun q => q.set == s && q.src == p.src)
  let v := ((p.payload.getD 0 0)).toNat
  let k := slice v 0 3
  let drop := fun (h : Hub) => match old with | some q => h.dropPart x q | none => h
  match segData p with
  | none => if k = 0 ∧ old = none then h.bump (word (A.ETH_TX_REASM_ERR x)) else drop h
  | some bs =>
    let add := fun (h : Hub) (q : EthPart) =>
      let e := h.ethPort x
      if bit v 3 then h.setEthPort x { e with txq := e.txq ++ [(s, q.bytes.take q.len)] }
      else h.setEthPort x { e with parts := e.parts ++ [q] }
    if k = 0 then add (drop h) ⟨s, p.src, slice v 16 16, bit v 6, 1, bs, h.root⟩
    else
      match old with
      | none => h
      | some q =>
        if q.next = k ∧ q.len = slice v 16 16 ∧ q.trailer = bit v 6 then
          let e := h.ethPort x
          add (h.setEthPort x { e with parts := e.parts.erase q }) { q with next := k + 1, bytes := q.bytes ++ bs }
        else h.dropPart x q

/-- ETH_SEGMENT_RECEIVED (R312): the next packet at a set's endpoint. While the link is not UP it is discarded, each
frame counted once (assumption 59, DEDUCED). -/
def Hub.ethSegment (h : Hub) (x s : Nat) : Hub :=
  match h.setTunnel x s with
  | none => h
  | some n =>
    match h.epNext (6 + x) n with
    | none => h
    | some p =>
      let h := h.epPop (6 + x) n
      if h.ethLink x = 2 then h.ethJoin x s p
      else
        let e := h.ethPort x
        let old := e.parts.find? (fun q => q.set == s && q.src == p.src)
        let first := slice (p.payload.getD 0 0).toNat 0 3 == 0
        let h := match old with | some q => h.setEthPort x { e with parts := e.parts.erase q } | none => h
        if first || old.isSome then h.bump (word (A.ETH_TX_DOWN_DROP x)) else h

/-- ETH_REASSEMBLY_TIMEOUT (R312). -/
def Hub.ethTimeout (h : Hub) (x s src : Nat) : Hub :=
  match (h.ethPort x).parts.find? (fun q => q.set == s && q.src == src) with
  | some q => h.dropPart x q
  | none => h

/-- A frame with its set's TAGMODE applied (R312). -/
def Hub.tagged (h : Hub) (x s : Nat) (f : List Byte) : List Byte :=
  let mode := h.get (R.ETH_SET_EGRESS_TAGMODE x s)
  let tci := fun (dei : Nat) =>
    beBytes 2 (h.get (R.ETH_SET_EGRESS_PCP x s) * 8192 + dei * 4096 + h.get (R.ETH_SET_EGRESS_VID x s))
  if mode = 1 then if hasTag f then f.take 12 ++ f.drop 16 else f
  else if mode = 2 then
    if hasTag f then f.take 14 ++ tci (half f 14 / 4096 % 2) ++ f.drop 16
    else f.take 12 ++ beBytes 2 0x8100 ++ tci 0 ++ f.drop 12
  else f

/-- Station time, in 0.25 ns, of the first bit after the SFD of the next frame sent on a port: preamble and SFD are eight
bytes (R318). -/
def Hub.ethSentStamp (h : Hub) (x : Nat) : Nat := h.stime + (h.ethStart x - h.root) + 8 * h.ethByte5 x / 5

/-- A frame is put on the wire behind what is on it: padded, given its FCS, counted (assumption 59, DEDUCED). -/
def Hub.ethSend (h : Hub) (x : Nat) (f : List Byte) : Hub :=
  let w := withFcs (pad60 f)
  let p := h.ethPort x
  ((h.emit (.eth x w)).bump (word (A.ETH_TX_FRAMES x))).setEthPort x
    { p with wireEnd := h.ethStart x + (w.length + 8) * h.ethByte5 x / 5 }

/-- ETH_FRAME_TRANSMIT (R312, R313): the oldest completed frame as the wire is free. -/
def Hub.ethTransmit (h : Hub) (x : Nat) : Hub :=
  let p := h.ethPort x
  match p.txq with
  | (s, f) :: rest => if h.ethLink x = 2 then (h.setEthPort x { p with txq := rest }).ethSend x (h.tagged x s f) else h
  | [] => h

/-! ### Link (R306, R307) -/

/-- Whether a port runs auto-negotiation (assumption 60, PRESUMED). -/
def Hub.ethAn (h : Hub) (x : Nat) : Bool := h.get (R.ETH_CTRL_MODE x) == 1 && h.on (R.ETH_CTRL_AN_EN x)

/-- A port's TX_DISABLE ball, and whether its transmitter is at electrical idle (R304, R319). -/
def Hub.ethOut (h : Hub) (x : Nat) : Bool × Bool :=
  let off := h.get (R.ETH_CTRL_MODE x) == 0
  (off || h.on (R.ETH_CTRL_TXDIS_FORCE x), off)

/-- They show on the balls where a write has changed them from `was`. -/
def Hub.ethShow (h : Hub) (x : Nat) (was : Bool × Bool) : Hub :=
  if h.ethOut x = was then h else (h.emit (.ethIdle x (h.ethOut x).2)).ball (.ethTxdis x (h.ethOut x).1)

/-- ETH_SYNC_ACQUIRED (R306): a signal is there, so the LOS ball is not asserted; with auto-negotiation the port advertises
its base page (R305) (assumption 60, PRESUMED). -/
def Hub.ethSync (h : Hub) (x : Nat) : Hub :=
  let mode := h.get (R.ETH_CTRL_MODE x)
  let h := h.put (R.ETH_STATUS_LOS x) 0
  if h.ethLink x = 0 ∧ mode ≠ 0 ∧ h.clkMode ≠ ckFree then
    let h := h.put (R.ETH_STATUS_LINK x) 1
    if h.ethAn x then h.emit (.ethPage x basePage) else h
  else h

/-- ETH_LINK_UP (R306): Clause 37 completes with the partner's base page, or synchronisation has held for 10 ms. -/
def Hub.ethLinkUp (h : Hub) (x : Nat) (page : Nat) : Hub :=
  if h.ethLink x ≠ 1 then h
  else
    let up := fun (h : Hub) => (h.put (R.ETH_STATUS_LINK x) 2).ethNotice x
    if h.ethAn x then
      let h := ((h.wr (A.ETH_AN_LP x) (W (page % 65536))).put (R.ETH_STATUS_AN_DONE x) 1).put (R.ETH_STATUS_RF x) (b2n (pageRf page))
      if pageFd page then up (h.put (R.ETH_STATUS_AN_FAIL x) 0) else h.put (R.ETH_STATUS_AN_FAIL x) 1
    else up h

/-- ETH_LINK_DOWN (R306): synchronisation is lost, with the level of the LOS ball, which STATUS.LOS follows (R319). -/
def Hub.ethLinkDown (h : Hub) (x : Nat) (los : Bool) : Hub :=
  let h := h.put (R.ETH_STATUS_LOS x) (b2n los)
  if h.ethLink x = 0 then h else h.ethDown x

/-- ETH_MODE_CHANGE (R307): MODE and AN_EN written; the reserved MODE is ignored (R12). -/
def Hub.ethModeChange (h : Hub) (x mode : Nat) (an : Bool) : Hub :=
  let m := if mode = 3 then h.get (R.ETH_CTRL_MODE x) else mode
  if m = h.get (R.ETH_CTRL_MODE x) ∧ an = h.on (R.ETH_CTRL_AN_EN x) then h
  else (((h.ethRestart x).put (R.ETH_CTRL_MODE x) m).put (R.ETH_CTRL_AN_EN x) (b2n an)).ethShow x (h.ethOut x)

/-- ETH_COUNTER_CLEAR (R319). -/
def Hub.ethClear (h : Hub) (x : Nat) : Hub := h.clearRange (A.ETH_RX_FRAMES x) (A.ETH_LINK_DOWN_CNT x)

/-! ### The rows of the table -/

/-- FREE_LIST_REBUILD_DONE (R164). -/
def execFreeListRebuildDone (s : State) : Result := s.upd (fun h => h.rebuildEnd)

/-- ETH_FRAME_RECEIVED (R308). -/
def execEthFrameReceived (x : Fin 4) (frame : List Byte) (code : Bool) (ago : Fin 8) (s : State) : Result :=
  s.upd (fun h => h.unlessHeld (fun h => h.ethFrame x frame code ago))

/-- ETH_SEGMENT_RECEIVED (R312). -/
def execEthSegmentReceived (x : Fin 4) (set : Fin 8) (s : State) : Result := s.upd (fun h => h.ethSegment x set)

/-- ETH_REASSEMBLY_TIMEOUT (R312). -/
def execEthReassemblyTimeout (x : Fin 4) (set : Fin 8) (src : Fin 128) (s : State) : Result :=
  s.upd (fun h => h.ethTimeout x set src)

/-- ETH_FRAME_TRANSMIT (R313). -/
def execEthFrameTransmit (x : Fin 4) (s : State) : Result := s.upd (fun h => h.unlessHeld (fun h => h.ethTransmit x))

/-- ETH_LINK_UP (R306). -/
def execEthLinkUp (x : Fin 4) (page : BitVec 16) (s : State) : Result :=
  s.upd (fun h => h.unlessHeld (fun h => h.ethLinkUp x page.toNat))

/-- ETH_LINK_DOWN (R306). -/
def execEthLinkDown (x : Fin 4) (los : Bool) (s : State) : Result := s.upd (fun h => h.ethLinkDown x los)

/-- ETH_MODE_CHANGE (R307). -/
def execEthModeChange (x : Fin 4) (mode : BitVec 2) (an : Bool) (s : State) : Result :=
  s.upd (fun h => h.ethModeChange x mode.toNat an)

/-- ETH_AN_RESTART (R307). -/
def execEthAnRestart (x : Fin 4) (s : State) : Result := s.upd (fun h => h.ethRestart x)

/-- ETH_COUNTER_CLEAR (R319). -/
def execEthCounterClear (x : Fin 4) (s : State) : Result := s.upd (fun h => h.ethClear x)

/-- ETH_SYNC_ACQUIRED (R306). -/
def execEthSyncAcquired (x : Fin 4) (s : State) : Result := s.upd (fun h => h.unlessHeld (fun h => h.ethSync x))

end Sys2Proof.Machine
end

