-- ==== Sys2Proof/Machine/Ptp.lean ====
section
/-! DEFINITION. The PTP boundary clock (R314–R318, R320). The message layouts are those of IEEE 1588-2019, which the
spec names and does not print (log entry 61, PRESUMED). -/

namespace Sys2Proof.Machine

/-! ### Time and origin (R315) -/

/-- PTP time of a station time in 0.25 ns: seconds, nanoseconds, and quarters of a nanosecond. -/
def Hub.ptpTime (h : Hub) (t : Nat) : Nat × Nat × Nat :=
  let ns := h.eth.originNs + t / 4
  (h.eth.originS + ns / 1000000000, ns % 1000000000, t % 4)

/-- The staged origin becomes active. -/
def Hub.ptpAdopt (h : Hub) : Hub :=
  let s := (h.rd A.PTP_ORIGIN_S_LO).toNat + (h.rd A.PTP_ORIGIN_S_HI).toNat % 65536 * 2 ^ 32
  let h := { h with eth := { h.eth with originS := s, originNs := (h.rd A.PTP_ORIGIN_NS).toNat % 2 ^ 30 } }
  (h.put R.PTP_STATUS_ORIGIN_SET 1).put R.PTP_STATUS_APPLY_PENDING 0

/-- A message boundary: an APPLY that waits takes effect. -/
def Hub.ptpBoundary (h : Hub) : Hub := if h.on R.PTP_STATUS_APPLY_PENDING then h.ptpAdopt else h

/-- PTP_ORIGIN_APPLY (R315): at once, or at the next message of any port when a message is between its stamp and its
timestamp field. -/
def Hub.ptpApply (h : Hub) (inMessage : Bool) : Hub := if inMessage then h.put R.PTP_STATUS_APPLY_PENDING 1 else h.ptpAdopt

/-! ### Port state (R316) -/

/-- STATE of a port: 0 DISABLED, 1 MASTER, 2 QUIET. -/
def Hub.ptpState (h : Hub) (x : Nat) : Nat :=
  if !h.on R.PTP_CTRL_EN || !h.on (R.PTP_PORT_CTRL_EN x) || h.ethLink x != 2 then 0
  else if !h.on R.TIME_STATUS_VALID || !h.on R.PTP_STATUS_ORIGIN_SET then 2
  else 1

/-! ### Messages -/

/-- Eight bytes of an identity held in two registers, byte 0 in [7:0]. -/
def Hub.ptpId (h : Hub) (a : Nat) : List Byte := wordBytes (h.rd a) ++ wordBytes (h.rd (a + 4))

/-- sourcePortIdentity: clockIdentity and portNumber. -/
def Hub.ptpPortId (h : Hub) (x : Nat) : List Byte := h.ptpId A.PTP_CLOCK_ID_LO ++ beBytes 2 (x + 1)

/-- A message: its header of 34 bytes and its body. The correction is in units of 2⁻¹⁶ ns. -/
def Hub.ptpMsg (h : Hub) (x typ flags0 flags1 : Nat) (corr : Int) (seq control interval : Nat) (body : List Byte) : List Byte :=
  [BitVec.ofNat 8 typ, 0x12#8] ++ beBytes 2 (34 + body.length) ++ [BitVec.ofNat 8 ((h.rd A.PTP_DS).toNat), 0#8]
    ++ [BitVec.ofNat 8 flags0, BitVec.ofNat 8 flags1] ++ beBytes 8 (unsigned 64 corr) ++ [0#8, 0#8, 0#8, 0#8]
    ++ h.ptpPortId x ++ beBytes 2 seq ++ [BitVec.ofNat 8 control, BitVec.ofNat 8 interval] ++ body

/-- A timestamp: 48 bits of seconds and 32 of nanoseconds. -/
def tsBytes (s ns : Nat) : List Byte := beBytes 6 s ++ beBytes 4 ns

/-- A PTP frame: to the peer-delay address or the other one, from the port's MAC, tagged when TAG is 1. -/
def Hub.ptpFrame (h : Hub) (x : Nat) (peer : Bool) (msg : List Byte) : List Byte :=
  beBytes 6 (if peer then 0x0180C200000E else 0x011B19000000)
    ++ wordBytes (h.rd (A.ETH_MAC_LO x)) ++ (wordBytes (h.rd (A.ETH_MAC_HI x))).take 2
    ++ (if h.on (R.PTP_PORT_CTRL_TAG x) then
          beBytes 2 0x8100 ++ beBytes 2 (h.get (R.PTP_PORT_CTRL_PCP x) * 8192 + h.get (R.PTP_PORT_CTRL_VID x))
        else [])
    ++ beBytes 2 0x88F7 ++ msg

/-- A message sent on a port. -/
def Hub.ptpSend (h : Hub) (x : Nat) (peer : Bool) (msg : List Byte) : Hub := h.ethSend x (h.ptpFrame x peer msg)

/-- Quarters of a nanosecond as a correction. -/
def quarter (q : Int) : Int := q * 16384

/-! ### Sending (R316, R317) -/

/-- PTP_SYNC_SEND (R317): one-step, or a Sync followed by its Follow_Up. -/
def Hub.ptpSync (h : Hub) (x : Nat) : Hub :=
  let h := h.ptpBoundary
  if h.ptpState x ≠ 1 then h
  else
    let p := h.ptp x
    let (s, ns, q) := h.ptpTime (h.ethSentStamp x)
    let iv := h.get R.PTP_INTERVALS_LOG_SYNC
    let corr := quarter q
    let h :=
      if h.on R.PTP_CTRL_TWO_STEP then
        let h := h.ptpSend x false (h.ptpMsg x 0 2 0 0 p.syncSeq 0 iv (tsBytes 0 0))
        h.ptpSend x false (h.ptpMsg x 8 0 0 corr p.syncSeq 2 iv (tsBytes s ns))
      else h.ptpSend x false (h.ptpMsg x 0 0 0 corr p.syncSeq 0 iv (tsBytes s ns))
    (h.setPtp x { p with syncSeq := (p.syncSeq + 1) % 65536 }).bump (word (A.PTP_SYNC_TX x))

/-- The second flag octet: leap61, leap59, currentUtcOffsetValid, ptpTimescale, timeTraceable, frequencyTraceable. -/
def Hub.ptpFlags (h : Hub) : Nat :=
  h.get R.PTP_UTC_LEAP61 + h.get R.PTP_UTC_LEAP59 * 2 + h.get R.PTP_UTC_UTC_VALID * 4 + h.get R.PTP_UTC_PTP_TIMESCALE * 8
    + h.get R.PTP_UTC_TIME_TRACEABLE * 16 + h.get R.PTP_UTC_FREQ_TRACEABLE * 32

/-- PTP_ANNOUNCE_SEND (R316): in HOLDOVER with CLASS_HOLD and ACCURACY_HOLD. -/
def Hub.ptpAnnounce (h : Hub) (x : Nat) : Hub :=
  let h := h.ptpBoundary
  if h.ptpState x ≠ 1 then h
  else
    let p := h.ptp x
    let (s, ns, _) := h.ptpTime h.stime
    let q := (h.rd A.PTP_GM_QUAL).toNat
    let prio := (h.rd A.PTP_GM_PRIO).toNat
    let hold := if h.get R.TIME_STATUS_QUALITY = 2 then (h.rd A.PTP_HOLD).toNat else q
    let body := tsBytes s ns ++ beBytes 2 (h.get R.PTP_UTC_UTC_OFFSET) ++ [0#8, BitVec.ofNat 8 prio]
      ++ [BitVec.ofNat 8 hold, BitVec.ofNat 8 (hold / 256)] ++ beBytes 2 (q / 65536)
      ++ [BitVec.ofNat 8 (prio / 256)] ++ h.ptpId A.PTP_GM_ID_LO ++ beBytes 2 ((h.rd A.PTP_GM_PATH).toNat)
      ++ [BitVec.ofNat 8 (prio / 65536)]
    let h := h.ptpSend x false (h.ptpMsg x 11 0 h.ptpFlags 0 p.annSeq 5 (h.get R.PTP_INTERVALS_LOG_ANNOUNCE) body)
    h.setPtp x { p with annSeq := (p.annSeq + 1) % 65536 }

/-- PTP_PDELAY_REQ_SEND (R317): the port's own Pdelay_Req; its answer updates meanLinkDelay. -/
def Hub.ptpPdelayReq (h : Hub) (x : Nat) : Hub :=
  let h := h.ptpBoundary
  if h.ptpState x ≠ 1 then h
  else
    let p := h.ptp x
    let t1 := h.ethSentStamp x
    let h := h.ptpSend x true (h.ptpMsg x 2 0 0 0 p.reqSeq 5 0x7F (tsBytes 0 0 ++ tsBytes 0 0))
    h.setPtp x { p with reqSeq := (p.reqSeq + 1) % 65536, req := some ⟨p.reqSeq, t1, none⟩ }

/-! ### Receiving (R314, R317) -/

/-- Announce or Sync of another master: counted, and the first since FOREIGN was clear reported. -/
def Hub.ptpForeign (h : Hub) (x : Nat) : Hub :=
  let h := h.bump (word (A.PTP_FOREIGN x))
  if h.on (R.PTP_PORT_STATUS_FOREIGN x) then h
  else (h.put (R.PTP_PORT_STATUS_FOREIGN x) 1).notice 27 0x81 x (h.rd (A.PTP_FOREIGN x)).toNat

/-- A message's correctionField. -/
def msgCorr (m : List Byte) : Int := signed 64 (beNat ((m.drop 8).take 8))

/-- A message's sequenceId. -/
def msgSeq (m : List Byte) : Nat := beNat ((m.drop 30).take 2)

/-- The timestamp of a message's body in 0.25 ns. -/
def msgTime (m : List Byte) : Nat := (beNat ((m.drop 34).take 6) * 1000000000 + beNat ((m.drop 40).take 4)) * 4

/-- A Pdelay_Req is answered (R317): `t2` is the stamp of its timestamp point, t3 the time of the answer. -/
def Hub.ptpAnswer (h : Hub) (x : Nat) (m : List Byte) (t2 : Nat) : Hub :=
  let h := h.ptpBoundary
  let who := (m.drop 20).take 10
  let t3 := h.ethSentStamp x
  let h := h.bump (word (A.PTP_PDELAY_RX x))
  if h.on R.PTP_CTRL_TWO_STEP then
    let (s, ns, q) := h.ptpTime t2
    let h := h.ptpSend x true (h.ptpMsg x 3 2 0 (-quarter q) (msgSeq m) 5 0x7F (tsBytes s ns ++ who))
    let (s, ns, q) := h.ptpTime t3
    h.ptpSend x true (h.ptpMsg x 10 0 0 (msgCorr m + quarter q) (msgSeq m) 5 0x7F (tsBytes s ns ++ who))
  else
    h.ptpSend x true (h.ptpMsg x 3 0 0 (msgCorr m + quarter ((t3 : Int) - t2)) (msgSeq m) 5 0x7F (tsBytes 0 0 ++ who))

/-- meanLinkDelay from a completed exchange, in quarters of a nanosecond: half the round trip less the turnaround. -/
def Hub.ptpDelay (h : Hub) (x : Nat) (round turn : Int) : Hub :=
  let d := ((round - turn) / 2).toNat
  let p := h.ptp x
  (h.wr (A.PTP_PDELAY x) (W (min (2 ^ 24 - 1) d + 2 ^ 31))).setPtp x { p with req := none }

/-- A Pdelay_Resp or Pdelay_Resp_Follow_Up (R317) received with stamp `t4`. -/
def Hub.ptpResp (h : Hub) (x : Nat) (m : List Byte) (t4 : Nat) (follow : Bool) : Hub :=
  let p := h.ptp x
  match p.req with
  | none => h
  | some r =>
    if msgSeq m ≠ r.seq ∨ (m.drop 44).take 10 ≠ h.ptpPortId x then h
    else if follow then
      match r.t2 with
      | some (t2, c, t4) => h.ptpDelay x ((t4 : Int) - r.t1) ((msgTime m : Int) - t2 + (c + msgCorr m) / 16384)
      | none => h
    else if bit (m.getD 6 0).toNat 1 then
      h.setPtp x { p with req := some { r with t2 := some (msgTime m, msgCorr m, t4) } }
    else h.ptpDelay x ((t4 : Int) - r.t1) (msgCorr m / 16384)

/-- PTP_MESSAGE_RECEIVED (R314): the oldest message taken by PTP on a port. -/
def Hub.ptpMessage (h : Hub) (x : Nat) : Hub :=
  let p := h.ptp x
  match p.inq with
  | [] => h
  | (m, t) :: rest =>
    let h := h.setPtp x { p with inq := rest }
    let typ := (m.getD 0 0).toNat % 16
    if h.on R.PTP_CTRL_EN = false ∨ m.length < 44 then h
    else if m.getD 4 0 ≠ BitVec.ofNat 8 (h.rd A.PTP_DS).toNat then h.bump (word (A.PTP_DISCARD x))
    else if typ = 0 ∨ typ = 11 then h.ptpForeign x
    else if typ = 1 ∨ typ = 12 ∨ typ = 13 then h.bump (word (A.PTP_DISCARD x))
    else if typ = 2 then if h.ptpState x = 0 then h else h.ptpAnswer x m t
    else if typ = 3 then h.ptpResp x m t false
    else if typ = 10 then h.ptpResp x m t true
    else h

/-- PTP_COUNTER_CLEAR (R320). -/
def Hub.ptpClear (h : Hub) : Hub := [0, 1, 2, 3].foldl (fun h x => h.clearRange (A.PTP_SYNC_TX x) (A.PTP_FOREIGN x)) h

/-! ### The rows of the table -/

/-- PTP_MESSAGE_RECEIVED (R314). -/
def execPtpMessageReceived (x : Fin 4) (s : State) : Result := s.upd (fun h => h.ptpMessage x)

/-- PTP_SYNC_SEND (R317). -/
def execPtpSyncSend (x : Fin 4) (s : State) : Result := s.upd (fun h => h.ptpSync x)

/-- PTP_ANNOUNCE_SEND (R316). -/
def execPtpAnnounceSend (x : Fin 4) (s : State) : Result := s.upd (fun h => h.ptpAnnounce x)

/-- PTP_PDELAY_REQ_SEND (R317). -/
def execPtpPdelayReqSend (x : Fin 4) (s : State) : Result := s.upd (fun h => h.ptpPdelayReq x)

/-- PTP_ORIGIN_APPLY (R315). -/
def execPtpOriginApply (inMessage : Bool) (s : State) : Result := s.upd (fun h => h.ptpApply inMessage)

/-- PTP_COUNTER_CLEAR (R320). -/
def execPtpCounterClear (s : State) : Result := s.upd (fun h => h.ptpClear)

end Sys2Proof.Machine
end

