-- ==== Sys2Proof/Machine/Cooper.lean ====
section
/-! DEFINITION. Cooper and the background activities (R463–R470, R473): memory slices, shared-buffer slices, lane checks,
reference checks and scrub. What a test finds is an operand of its row. -/

namespace Sys2Proof.Machine

/-- The hub with Cooper's own state changed. -/
def Hub.onCoop (h : Hub) (f : CoopState → CoopState) : Hub := { h with coop := f h.coop }

/-- The tun whose memories a window's number reaches (R220): after a takeover tun 8's own window reaches the failed tun's, and
that one's window tun 8's. -/
def Hub.tunBehind (h : Hub) (w : Nat) : Nat :=
  let t := h.get R.TUNC_STATUS_SERVED
  if h.get R.TUNC_STATUS_SPARE = 1 ∧ h.tun.moving = none then (if w = 8 then t else if w = t then 8 else w) else w

/-- The memory with spares of its own in which a failing word lies (R463): 0–7 a bank of the shared buffer, 8–16 a tun's
program memory, 17–25 its data memory, 26 common memory, 27 and up a macro of structure memory (`at_` in its slice)
(assumption 73, DEDUCED). -/
def Hub.spareKey (h : Hub) (mem addr at_ : Nat) : Nat :=
  match mem with
  | 0 => (addr - 0x800000) / 64 % 8
  | 1 => 8 + h.tunBehind (tunOf addr)
  | 2 => 17 + h.tunBehind (tunOf addr)
  | 3 => 26
  | _ => 27 + Config.structMacro at_

/-- Spare rows and columns that a memory has (R463). -/
def spareLimit (mem : Nat) : Nat × Nat := if mem = 0 ∨ mem = 3 then (8, 4) else (2, 1)

/-- What replaces a failing word (R463): the spare that the repair takes, while one of its kind remains, else one of the
other kind; nothing where neither remains or the retest fails whatever is taken (assumption 88, DESIGN CHOICE). -/
def Hub.spareFor (h : Hub) (mem key : Nat) (want : Spare) : Spare :=
  let u := (KMap.get? h.coop.used key).getD (0, 0)
  let row := decide (u.1 < (spareLimit mem).1)
  let col := decide (u.2 < (spareLimit mem).2)
  match want with
  | .none_ => .none_
  | .row => if row then .row else if col then .column else .none_
  | .column => if col then .column else if row then .row else .none_

/-- A spare of a memory is used. -/
def Hub.useSpare (h : Hub) (key : Nat) (s : Spare) : Hub :=
  let u := (KMap.get? h.coop.used key).getD (0, 0)
  match s with
  | .row => h.onCoop (fun c => { c with used := KMap.put c.used key (u.1 + 1, u.2) })
  | .column => h.onCoop (fun c => { c with used := KMap.put c.used key (u.1, u.2 + 1) })
  | .none_ => h

/-- A failure is recorded (R463, R473) and repaired while a spare remains, the repair logged (R464); answers whether it is
(`at_`: a structure slice) (assumption 88, DESIGN CHOICE). -/
def Hub.coopFail (h : Hub) (mem addr at_ : Nat) (f : MemFail) (powerup : Bool) : Hub × Bool :=
  let key := h.spareKey mem addr at_
  let spare := h.spareFor mem key f.spare
  let fixed := spare != .none_
  let h := (h.useSpare key spare).wr A.COOP_FAIL_ADDR (W addr)
  let h := (h.put R.COOP_FAIL_INFO_BIT f.bit).put R.COOP_FAIL_INFO_REPAIRED (b2n fixed)
  let h := h.put R.COOP_FAIL_INFO_UNREPAIRABLE (b2n (!fixed))
  let h := ((h.put R.COOP_FAIL_INFO_POWERUP_FOUND (b2n powerup)).put R.COOP_FAIL_INFO_MEMORY mem).bump R.COOP_FAIL_INFO_COUNT
  let log := fun (h : Hub) => h.log 8 0x01 sevDG (h.rd A.COOP_FAIL_INFO).toNat addr 0
  match spare with
  | .row => (log (h.bump R.COOP_SPARES_ROWS), true)
  | .column => (log (h.bump R.COOP_SPARES_COLUMNS), true)
  | .none_ => (h, false)

/-- A COOP entry about the failure recorded last. -/
def Hub.coopLog (h : Hub) (code sev : Nat) : Hub := h.log 8 code sev (h.rd A.COOP_FAIL_INFO).toNat (h.rd A.COOP_FAIL_ADDR).toNat 0

/-- A COOP entry about a reference, a comparator or a monitor, which has no failing word (R456). -/
def Hub.coopCheck (h : Hub) (code sev : Nat) : Hub := h.log 8 code sev 0 0 0

/-- What an unrepairable word of a memory does (R463): 1 and 2 memories of tun `t`, 3 common memory, 4 structure memory. -/
def Hub.unrepairable (h : Hub) (mem addr t : Nat) : Hub :=
  match mem with
  | 1 => (h.coopLog 0x03 sevDG).tunMismatch t
  | 2 => (h.coopLog 0x03 sevDG).tunMismatch t
  | 3 => (h.coopLog 0x04 sevCT) |> fun h => { h with tun := { h.tun with bad := (addr / 8) :: h.tun.bad } }
  | _ => h.coopLog 0x05 sevF

/-- Slices of program, data and common memory (R466); those of structure memory follow. -/
abbrev sliceTotal : Nat := 288 + 576 + 512

/-- The memory and address of a slice; structure memory has no internal address (assumption 73, DEDUCED). -/
def sliceAddr (k : Nat) : Nat × Nat :=
  if k < 288 then (1, 0x100000 + 1024 * k)
  else if k < 864 then (2, 0x200000 + 1024 * (k - 288))
  else if k < 1376 then (3, 0x300000 + 1024 * (k - 864))
  else (4, 0)

/-- The next slice; a full pass leaves its duration in COOP_PASS_TIME. -/
def Hub.nextSlice (h : Hub) : Hub :=
  if h.coop.slice + 1 < sliceTotal ∨ h.coop.slice + 1 < sliceTotal + Config.structSlices then h.onCoop (fun c => { c with slice := c.slice + 1 })
  else
    (h.put R.COOP_PASS_TIME_MS (min 65535 ((h.root - h.coop.sliceAt) / (1000 * us)))).onCoop
      (fun c => { c with slice := 0, sliceAt := h.root })

/-- COOP_SLICE (R466): a slice is held, saved, tested, repaired, restored and released; one the access table refuses is
counted and one it holds waits. Cooper's writes of program memory restore what it read (R194)
(assumption 73, DEDUCED; 88, DESIGN CHOICE). -/
def Hub.coopSlice (h : Hub) (fail : Option MemFail) : Hub :=
  if h.on R.COOP_CTRL_SLICE_EN = false then h
  else
    let (mem, a) := sliceAddr h.coop.slice
    let access := if mem = 4 then (h, AccRes.ok) else match h.access 3 .read a with
      | (h, .ok) => if mem = 1 then (h, .ok) else h.access 3 .write a
      | r => r
    match access with
    | (h, .held) => h
    | (h, .ok) =>
      let h := match fail with
        | some f =>
          let addr := if mem = 4 then 0 else a + 8 * (f.word % 128)
          (match h.coopFail mem addr (h.coop.slice - sliceTotal) f false with
          | (h, true) => h
          | (h, false) => h.unrepairable mem addr (h.tunBehind (tunOf a)))
        | none => h
      h.nextSlice
    | (h, _) => (h.bump R.COOP_NOT_RUN).nextSlice

/-- Cells whose words failed without a spare leave the free list until power-up (R463); more than 4,096 is fatal. -/
def Hub.retireCell (h : Hub) (c : Nat) : Hub :=
  let h := h.onFab (fun f => { f with retired := c :: f.retired })
  let n := h.fab.retired.length
  let h := h.put R.COOP_SPARES_RETIRED (min 4096 n)
  if 4096 < n then h.coopLog 0x05 sevF else h.coopLog 0x02 sevDG

/-- The next 16 cells. -/
def Hub.nextCells (h : Hub) : Hub :=
  if h.coop.cells + 16 < cellTotal then h.onCoop (fun c => { c with cells := c.cells + 16, cellsDone := [] })
  else h.onCoop (fun c => { c with cells := 0, cellsAt := h.root, cellsDone := [] })

/-- COOP_BUFFER_SLICE (R467): while the pool holds at least 1,024 free cells each cell of the slice that is free is claimed,
tested and returned; one in use is claimed once it is free. A slice not completed within 10 s of its pass is counted
(assumption 88, DESIGN CHOICE). -/
def Hub.coopBufferSlice (h : Hub) (fail : Option MemFail) : Hub :=
  if h.on R.COOP_CTRL_SLICE_EN = false then h
  else
    let due := ((List.range 16).map (fun i => h.coop.cells + i)).filter (fun c =>
      !h.coop.cellsDone.contains c && !h.fab.retired.contains c)
    let cs := if 1024 ≤ h.cellsFree then due.filter (fun c => (h.cellOwner c).isNone) else []
    let h := match fail with
      | some f =>
        let c := h.coop.cells + f.word / 8 % 16
        if cs.contains c then
          match h.coopFail 0 (cellAddr c + 8 * (f.word % 8)) 0 f false with
          | (h, true) => h
          | (h, false) => h.retireCell c
        else h
      | none => h
    let h := (h.freshCells cs).onCoop (fun x => { x with cellsDone := x.cellsDone ++ cs })
    if due.all cs.contains then h.nextCells
    else if h.coop.cellsAt + 10 * second ≤ h.root then (h.bump R.COOP_MISSED).nextCells
    else h

/-- What Cooper does with a lane that its partner has granted (R60, R468): the loop and the recalibration, the result in
COOP_LANE, and the return, early where another lane fails (R61). A lane whose loop fails is failed as it returns (R42). -/
def Hub.coopCheckLane (h : Hub) (p : Port) (lane : Nat) (how : LaneCheck) : Hub :=
  let h := (h.withdraw p lane).wr A.COOP_LANE
    (W (p.ix + lane * 4 + b2n (how == .passed) * 32 + b2n (how == .givenBack) * 64))
  match how with
  | .givenBack => h.giveBack p
  | .failed => (h.withdrawReturn p).laneFailed p lane .lostLock true
  | _ => h.withdrawReturn p

/-- COOP_LANE_CHECK (R468): a lane of an UP port is withdrawn by R60 and checked. Lanes of a direction in Narrow mode or at a
Shed width are not withdrawn; a shed lane is recalibrated in place (R65). A request that is refused, as at a direction with a
failed lane, until the lane's 10 s are up is counted (assumption 88, DESIGN CHOICE). -/
def Hub.coopLane (h : Hub) (p : Port) (lane : Nat) (how : LaneCheck) : Hub :=
  let lp := h.links.at p
  if h.on R.COOP_CTRL_LANE_EN = false ∨ h.up p = false ∨ h.on (R.LNK_CTRL_CAL_EN p.ix) = false then h
  else if h.laneRx p lane = 3 ∨ h.laneTx p lane = 3 then
    let h := h.emit (.cal p lane)
    if how = .failed ∧ h.laneRx p lane = 3 then h.laneFailed p lane .lostLock true else h
  else if lp.rx != .full || lp.tx != .full then h
  else
    let h := h.workSet p osWDR lane 0 0 0
    if h.mayWithdraw p = false ∨ how = .refused then h.bump R.COOP_MISSED else h.coopCheckLane p lane how

/-- Whether two references agree within 1 %. -/
def refsAgree (a b : Nat) : Bool := decide (100 * (max a b - min a b) ≤ max a b)

/-- COOP_REFERENCE_CHECK (R469): the three references' readings, compared each time; the one that differs from two that agree
is dropped, and logged as it is (assumption 88, DESIGN CHOICE). -/
def Hub.coopReference (h : Hub) (a b c : Nat) : Hub :=
  if h.on R.COOP_CTRL_ADC_EN = false then h
  else
    let v := fun (i : Nat) => [a, b, c].getD i 0
    let ok := fun (i j : Nat) => refsAgree (v i) (v j)
    if ok 0 1 || ok 0 2 || ok 1 2 then
      let h := h.onCoop (fun c => { c with noRefs := false, held := false })
      match [0, 1, 2].find? (fun i => [0, 1, 2].all (fun j => j == i || !ok i j)) with
      | some i =>
        if h.coop.dropped.contains i then h else (h.onCoop (fun c => { c with dropped := [i] })).coopCheck 0x06 sevDG
      | none => h
    else (h.onCoop (fun c => { c with noRefs := true })).coopCheck 0x07 sevCT

/-- TELEMETRY_HOLD_EXPIRE (R469): every FET temperature reads TJ_MAX. -/
def Hub.telemetryExpire (h : Hub) : Hub :=
  if h.coop.noRefs = false then h
  else
    let h := h.onCoop (fun c => { c with held := true })
    (List.range 5).foldl (fun h f => h.put (R.LOAD_TM_TEMP_TEMP f) (8 * h.get (R.LOAD_TM_LIM_TJ_MAX f))) h

/-! ### Scrub (R145, R195, R470) -/

/-- Words of 64 bits that scrub visits: program, data and common memory, then the shared buffer. -/
abbrev scrubTotal : Nat := 36864 + 73728 + 65536 + 1048576

/-- The address of a word scrub visits. -/
def scrubAddr (k : Nat) : Nat :=
  if k < 36864 then 0x100000 + 8 * k
  else if k < 110592 then 0x200000 + 8 * (k - 36864)
  else if k < 176128 then 0x300000 + 8 * (k - 110592)
  else 0x800000 + 8 * (k - 176128)

/-- A word becomes uncorrectable (R145, R195) (assumption 89, DEDUCED). -/
def Hub.spoil (h : Hub) (w : Nat) : Hub :=
  let h := h.onFab (fun f => { f with soft := f.soft.filter (· != w) })
  if h.tun.bad.contains w then h else { h with tun := { h.tun with bad := w :: h.tun.bad } }

/-- The address of a word that an upset may strike: those scrub visits, then the non-volatile store's (R359, R360)
(assumption 123, DESIGN CHOICE). -/
def strikeAddr (k : Nat) : Nat := if k < scrubTotal then scrubAddr k else 0x400000 + 8 * (k - scrubTotal)

/-- An upset strikes a word of memory (R145, R195, R360), counted in scrub's order and then through the non-volatile store:
two bits of it, or one; a second bit in a word not read since the first makes two (assumption 123, DESIGN CHOICE). -/
def Hub.upset (h : Hub) (k : Nat) (two : Bool) : Hub :=
  let w := strikeAddr (k % (scrubTotal + 524288)) / 8
  if two || h.fab.soft.contains w then h.spoil w
  else if h.tun.bad.contains w then h
  else h.onFab (fun f => { f with soft := w :: f.soft })

/-- SCRUB_STEP (R470): the next word is read; a single-bit error is written back and logged, one that the word held before
included, and a double-bit error marks the word. A packet whose cell holds such a word is discarded under cause 0xA as it
reaches the head of its queue, the one place from which it may leave (R145, R149)
(assumption 85, DEDUCED; 89, DEDUCED). -/
def Hub.scrubStep (h : Hub) (found : ScrubRead) : Hub :=
  let a := scrubAddr h.coop.scrub
  let h := h.onCoop (fun c => { c with scrub := (c.scrub + 1) % scrubTotal })
  match found with
  | .clean => h.corrected a 8
  | .single => h.correctWord (a / 8)
  | .double => h.spoil (a / 8)

/-- COOP_COUNTER_CLEAR (R473). -/
def Hub.coopClear (h : Hub) : Hub := h.clearRange A.COOP_MISSED A.COOP_NOT_RUN

/-! ### The rows of the table -/

/-- COOP_SLICE (R466). -/
def execCoopSlice (fail : Option MemFail) (s : State) : Result := s.upd (fun h => h.coopSlice fail)

/-- COOP_BUFFER_SLICE (R467). -/
def execCoopBufferSlice (fail : Option MemFail) (s : State) : Result := s.upd (fun h => h.coopBufferSlice fail)

/-- COOP_LANE_CHECK (R468). -/
def execCoopLaneCheck (p : Port) (lane : Fin 5) (how : LaneCheck) (s : State) : Result :=
  s.upd (fun h => h.coopLane p lane how)

/-- COOP_REFERENCE_CHECK (R469). -/
def execCoopReferenceCheck (a : BitVec 16) (b : BitVec 16) (c : BitVec 16) (s : State) : Result :=
  s.upd (fun h => h.coopReference a.toNat b.toNat c.toNat)

/-- TELEMETRY_HOLD_EXPIRE (R469). -/
def execTelemetryHoldExpire (s : State) : Result := s.upd (fun h => h.telemetryExpire)

/-- SCRUB_STEP (R470). -/
def execScrubStep (found : ScrubRead) (s : State) : Result := s.upd (fun h => h.scrubStep found)

/-- COOP_COUNTER_CLEAR (R473). -/
def execCoopCounterClear (s : State) : Result := s.upd (fun h => h.coopClear)

end Sys2Proof.Machine
end

