-- ==== Sys2Proof/Machine/Flags.lean ====
section
/-! DEFINITION. The flags of a context (R223, R227, R235, R236): conditions, additive carry and overflow, and the carry of
shifts and rotates. -/

namespace Sys2Proof.Machine

/-- The four flags (R223). -/
structure Flags where
  z : Bool
  n : Bool
  c : Bool
  v : Bool
deriving DecidableEq, Repr

/-- A context's flags. -/
def Ctx.flags (x : Ctx) : Flags := ⟨x.z, x.n, x.c, x.v⟩

/-- The context with its flags set. -/
def Ctx.setFlags (x : Ctx) (f : Flags) : Ctx := { x with z := f.z, n := f.n, c := f.c, v := f.v }

/-- The FLAGS CSR (R248): Z, N, C, V from bit 0 up. -/
def Flags.word (f : Flags) : Nat := b2n f.z + b2n f.n * 2 + b2n f.c * 4 + b2n f.v * 8

/-- Flags written through the FLAGS CSR; bits above 3 are ignored. -/
def Flags.ofWord (w : Nat) : Flags := ⟨bit w 0, bit w 1, bit w 2, bit w 3⟩

/-- Whether a condition holds (R227); 0xF is illegal and holds never. -/
def Flags.cond (f : Flags) (cc : Nat) : Bool :=
  match cc with
  | 0 => true
  | 1 => f.z
  | 2 => !f.z
  | 3 => f.c
  | 4 => !f.c
  | 5 => f.n
  | 6 => !f.n
  | 7 => f.v
  | 8 => !f.v
  | 9 => f.c && !f.z
  | 10 => !f.c || f.z
  | 11 => f.n == f.v
  | 12 => f.n != f.v
  | 13 => !f.z && f.n == f.v
  | 14 => f.z || f.n != f.v
  | _ => false

/-- Z and N of a result, C and V kept (R235). -/
def Flags.logic (f : Flags) (r : Word) : Flags := { f with z := r == 0#32, n := r.msb }

/-- Z, N and the carry of a shift (R236): none with amount 0. -/
def Flags.shift (f : Flags) (r : Word) (carry : Option Bool) : Flags := { f.logic r with c := carry.getD f.c }

/-- The 33-bit sum of the additive operations (R235). -/
def addSum (a op2 : Word) (cin : Bool) : Nat := a.toNat + op2.toNat + b2n cin

/-- The flags of an additive operation (R235). -/
def addFlags (a op2 : Word) (cin : Bool) : Flags :=
  let res := W (addSum a op2 cin)
  { z := res == 0#32, n := res.msb, c := decide (2 ^ 32 ≤ addSum a op2 cin),
    v := a.msb == op2.msb && res.msb != a.msb }

/-- The last bit shifted out of SHL (R236). -/
def shlCarry (a : Word) (k : Nat) : Option Bool := if k = 0 then none else some (bit a.toNat (32 - k))

/-- The last bit shifted out of SHR and SAR (R236). -/
def shrCarry (a : Word) (k : Nat) : Option Bool := if k = 0 then none else some (bit a.toNat (k - 1))

/-- The carry of ROR: the result's top bit (R236). -/
def rorCarry (r : Word) (k : Nat) : Option Bool := if k = 0 then none else some r.msb

end Sys2Proof.Machine
end

