-- ==== Sys2Proof/Machine/Operands.lean ====
section
/-! DEFINITION. The operands of Decmond instructions (R223, R224, R241): general registers, immediates, and how an
instruction leaves its context (R228, R245–R247). -/

namespace Sys2Proof.Machine

/-- A general register; g0 reads zero (R223). -/
def Ctx.gpr (x : Ctx) (r : Nat) : Word := if r = 0 then 0#32 else SMap.get (fun _ => 0#32) x.g r

/-- The context with a general register written; a write to g0 is discarded (R223). -/
def Ctx.setGpr (x : Ctx) (r : Nat) (v : Word) : Ctx :=
  if r = 0 then x else { x with g := SMap.set (fun _ => 0#32) x.g r v }

/-- A general register of context `n`. -/
def Hub.gpr (h : Hub) (n r : Nat) : Word := (h.ctx n).gpr r

/-- The hub with a general register of context `n` written. -/
def Hub.setGpr (h : Hub) (n r : Nat) (v : Word) : Hub := h.setCtx n ((h.ctx n).setGpr r v)

/-- An 18-bit immediate sign-extended (R224). -/
def sext18 (x : BitVec 18) : Word := x.signExtend 32

/-- An 18-bit immediate zero-extended (R237). -/
def zext18 (x : BitVec 18) : Word := x.zeroExtend 32

/-- How an instruction leaves its context. -/
inductive Exit where
  /-- on to PC + 1 -/
  | next
  /-- to a target, writing PC + 1 into g15 when `link` -/
  | jump (target : Nat) (link : Bool)
  /-- a trap with cause and address -/
  | trap (cause addr : Nat)
  /-- stalled: nothing has happened and it issues again -/
  | stall
  /-- HALT -/
  | halt
  /-- into WAITING -/
  | wait
deriving DecidableEq, Repr

/-- Trap causes (R215). -/
abbrev trIllegal : Nat := 1
/-- TRAP. -/
abbrev trTrap : Nat := 2
/-- FETCH_BOUND. -/
abbrev trFetchBound : Nat := 3
/-- DATA_BOUND. -/
abbrev trDataBound : Nat := 4
/-- ADDR. -/
abbrev trAddr : Nat := 5
/-- ALIGN. -/
abbrev trAlign : Nat := 6
/-- ACCESS. -/
abbrev trAccess : Nat := 7
/-- ECC. -/
abbrev trEcc : Nat := 8
/-- PACKET. -/
abbrev trPacket : Nat := 9

/-- An illegal encoding (R226, R228 order 4). -/
def Exit.illegal : Exit := .trap trIllegal 0

/-- Whether an instruction index lies in a context's code window (R197). -/
def Hub.inCode (h : Hub) (n i : Nat) : Bool :=
  let (b, s) := h.codeWin n
  decide (b ≤ i) && decide (i < b + s)

/-- A context goes on to an instruction index, or traps with FETCH_BOUND (R228, R247): a trapping transfer writes no
link. -/
def Hub.goTo (h : Hub) (n target : Nat) (link : Bool) : Hub :=
  let x := h.ctx n
  if h.inCode n target then
    let x' := if link then x.setGpr 15 (W (x.pc + 1)) else x
    h.setCtx n { x' with pc := target }
  else h.trap n trFetchBound x.pc target

/-- How an instruction retires, traps or stalls. -/
def Hub.leave (h : Hub) (n : Nat) : Exit → Hub
  | .next => if h.ctxState n = cxRunning then h.goTo n ((h.ctx n).pc + 1) false else h
  | .jump t l => if h.ctxState n = cxRunning then h.goTo n t l else h
  | .trap cause addr => h.trap n cause (h.ctx n).pc addr
  | .stall => h
  | .halt =>
    if h.ctxState n = cxRunning then
      (h.setCtx n { h.ctx n with pc := (h.ctx n).pc + 1 }).setCtxState n cxHalted
    else h
  | .wait => h.setCtxState n cxWaiting

/-- An instruction of a context issues: on tun 8 the first since it took over ends the handling of the takeover (R219,
R458) (assumption 87, DEDUCED). -/
def Hub.onSpare (h : Hub) (n : Nat) : Hub :=
  { h with tun := { h.tun with
      spareRan := h.tun.spareRan || h.get R.TUNC_STATUS_SPARE == 1 && h.get R.TUNC_STATUS_SERVED == n / 12 } }

/-- A context issues an instruction (R191, R228): one that is not RUNNING issues nothing; the fetch is checked (R393) and its
word corrected (R195); `f` says what the instruction does. A stalled one has not issued (assumption 72, DEDUCED). -/
def Hub.issue (h : Hub) (n : Nat) (f : Hub → Hub × Exit) : Hub :=
  if h.ctxState n ≠ cxRunning then h
  else
    let pc := (h.ctx n).pc
    let a := progBase (n / 12) + 4 * pc
    match h.access 2 .fetch a with
    | (h, .held) => h.ctxHeld n
    | (h, .refused) => h.trap n trAccess pc a
    | (h, .error) => h.trap n trAccess pc a
    | (h, .ok) =>
      if h.badWord a then h.trap n trEcc pc pc
      else
        match f (h.corrected a 4) with
        | (h, .stall) => h
        | (h, e) =>
          let h := h.wr (A.TUNC_CTX_ISSUED n) (W ((h.rd (A.TUNC_CTX_ISSUED n)).toNat + 1))
          ((h.wr (A.TUNC_CTX_PC n) (W pc)).onSpare n).leave n e

/-- An instruction that writes one general register and touches nothing else of the machine. -/
def Hub.issueReg (h : Hub) (n gd : Nat) (f : Ctx → Word) : Hub :=
  h.issue n (fun h => (h.setGpr n gd (f (h.ctx n)), .next))

/-- An instruction that writes only flags. -/
def Hub.issueFlags (h : Hub) (n : Nat) (f : Ctx → Flags) : Hub :=
  h.issue n (fun h => (h.setCtx n ((h.ctx n).setFlags (f (h.ctx n))), .next))

/-- An ALU register operation (R234): its result, and its flags when F is 1. -/
def Hub.issueAlu (h : Hub) (n gd : Nat) (f : Bool) (res : Ctx → Word) (fl : Ctx → Flags) : Hub :=
  h.issue n (fun h =>
    let x := h.ctx n
    let x' := x.setGpr gd (res x)
    (h.setCtx n (if f then x'.setFlags (fl x) else x'), .next))

end Sys2Proof.Machine
end

