-- ==== Sys2Proof/Machine/Serial.lean ====
section
/-! DEFINITION. The serial channels (chapter 12): characters, packets, ping-pong banks, flow control, RS-485 direction,
dumps and the sparge. -/

namespace Sys2Proof.Machine

/-- A serial channel beyond its registers. -/
def Hub.chan (h : Hub) (c : Nat) : SerChan := SMap.get (fun _ => SerChan.reset) h.ser c

/-- The tunnel whose mask names a channel (R204). -/
def Hub.serTunnel (h : Hub) (c : Nat) : Option Nat := h.boundArg 0x10 (fun a => bit a c)

/-- Receive fill (R327). -/
def SerChan.rxFill (x : SerChan) : Nat := x.fill.length + (x.closed.map (fun p => p.bytes.length)).sum

/-- Transmit bytes held. -/
def SerChan.txFill (x : SerChan) : Nat := (x.tx.map (fun t => t.bytes.length)).sum

/-- Whether a channel runs RS-485. -/
def Hub.rs485 (h : Hub) (c : Nat) : Bool := h.on (R.SER_CFG_RS485 c)

/-- Whether RTS and CTS flow control is in force (R327–R329). -/
def Hub.serFlow (h : Hub) (c : Nat) : Bool := h.on (R.SER_CFG_FLOW_EN c) && !h.rs485 c

/-- The level of RTS for a channel's fill (R327); in RS-485 mode DE keeps its level. -/
def Hub.rtsLevel (h : Hub) (c : Nat) (x : SerChan) : Bool :=
  if !h.on (R.SER_CFG_EN c) then false
  else if h.rs485 c then x.rts
  else if h.serFlow c then
    if h.get (R.SER_WMARK_HIGH c) ≤ x.rxFill then false
    else if x.rxFill ≤ h.get (R.SER_WMARK_LOW c) then true
    else x.rts
  else false

/-- The hub with a channel's state set and RTS following its fill. -/
def Hub.setChan (h : Hub) (c : Nat) (x : SerChan) : Hub :=
  { h with ser := SMap.set (fun _ => SerChan.reset) h.ser c { x with rts := h.rtsLevel c x } }

/-- The packet being filled closes (R325). -/
def SerChan.close (x : SerChan) (fin : Bool) (now : Nat) : SerChan :=
  if x.fill.isEmpty then x else { x with fill := [], fillErr := false, closed := x.closed ++ [⟨x.fill, fin, x.fillErr, now⟩] }

/-- Root periods of a bit: 8 × DIV / 16 core clock periods of 2 ns (R321). -/
def Hub.bitTime (h : Hub) (c : Nat) : Nat := h.get ⟨A.SER_BAUD c, 0, 24⟩ * 4

/-- Data bits of a character (R322). -/
def Hub.dataBits (h : Hub) (c : Nat) : Nat := if h.on (R.SER_CFG_DATA7 c) then 7 else 8

/-- Bits of a character (R322). -/
def Hub.charBits (h : Hub) (c : Nat) : Nat :=
  1 + h.dataBits c + b2n (h.get (R.SER_CFG_PARITY c) != 0) + 1 + h.get (R.SER_CFG_STOP2 c)

/-- Root periods of a character (R321, R322). -/
def Hub.charTime (h : Hub) (c : Nat) : Nat := h.charBits c * h.bitTime c

/-- Data bits of a byte in a channel's format (R322). -/
def Hub.charOf (h : Hub) (c : Nat) (b : Byte) : Byte := if h.on (R.SER_CFG_DATA7 c) then b &&& 0x7F#8 else b

/-- The parity bit of data bits, where the format has one (R322): PARITY 0b01 even, 0b10 odd. -/
def Hub.parityOf (h : Hub) (c : Nat) (bits : List Bool) : List Bool :=
  let odd := (bits.filter id).length % 2 == 1
  match h.get (R.SER_CFG_PARITY c) with
  | 0 => []
  | 1 => [odd]
  | _ => [!odd]

/-- The bits of a character in line order (R322): start, data LSB first, parity, stop. -/
def Hub.serBits (h : Hub) (c : Nat) (b : Byte) : List Bool :=
  let data := (List.range (h.dataBits c)).map (fun i => bit b.toNat i)
  false :: data ++ h.parityOf c data ++ List.replicate (1 + h.get (R.SER_CFG_STOP2 c)) true

/-- A received character from the levels at the centres of its bits after the start bit (R321–R323): the data bits, the
first in bit 0, the parity bit's, unread where the format has none, and the first stop bit's. The character, whether its
parity or its stop bit is wrong, and whether it is a break. -/
def Hub.serRead (h : Hub) (c : Nat) (levels : Byte) (par stop : Bool) : Byte × Bool × Bool :=
  let b := h.charOf c levels
  let want := h.parityOf c ((List.range (h.dataBits c)).map (fun i => bit b.toNat i))
  (b, want.any (fun p => p != par) || !stop, b == 0#8 && (want.isEmpty || !par) && !stop)

/-! ### Receive (R323, R325, R326) -/

/-- Whether RXD is ignored (R329): DE is high. -/
def Hub.serDeaf (h : Hub) (c : Nat) : Bool := h.rs485 c && (h.chan c).rts

/-- A character ends on RXD (assumption 62, DEDUCED). -/
def Hub.serHeard (h : Hub) (c : Nat) : Hub := h.setChan c { h.chan c with rxEnd := some h.root }

/-- A received character is stored or counted, or closes the packet as a break (R323). -/
def Hub.serChar (h : Hub) (c : Nat) (b : Byte) (err brk : Bool) : Hub :=
  let x := h.chan c
  if brk then (h.bump (word (A.SER_RX_BREAK c))).setChan c (x.close false h.root)
  else if h.serTunnel c = none then h.bump (word (A.SER_RX_DISCARD c))
  else if 2 ≤ x.closed.length then h.bump (word (A.SER_RX_OVERRUN c))
  else
    let x := { x with fill := x.fill ++ [b], fillErr := x.fillErr || err }
    let h := if err then h.bump (word (A.SER_RX_ERR c)) else h
    let top := if h.on (R.SER_CFG_FRAME_MODE c) then 512 else h.get (R.SER_FRAME_CHARS c)
    h.setChan c (if top ≤ x.fill.length then x.close false h.root else x)

/-- SER_CHARACTER_RECEIVED (R321–R323, R329): a character ends on RXD, with the levels at the centres of its bits. -/
def Hub.serReceive (h : Hub) (c : Nat) (levels : Byte) (par stop : Bool) : Hub :=
  if h.on (R.SER_CFG_EN c) = false ∨ h.serDeaf c = true then h
  else
    let r := h.serRead c levels par stop
    (h.serHeard c).serChar c r.1 r.2.1 r.2.2

/-- SER_GAP_TIMEOUT (R325). -/
def Hub.serGap (h : Hub) (c : Nat) : Hub := h.setChan c ((h.chan c).close (h.on (R.SER_CFG_FRAME_MODE c)) h.root)

/-- AUX of a receive packet (R324). -/
def SerRx.aux (p : SerRx) (c : Nat) : Nat := c + b2n p.fin * 8 + b2n p.err * 16 + p.bytes.length * 64

/-- The lowest channel of a mask. -/
def lowest (mask : Nat) : Nat := ((List.range 8).find? (fun c => bit mask c)).getD 0

/-- SER_RX_BANK_SEND (R326): the draining bank of a DIRECT channel goes into the fabric, waiting out a rebuild (R164); in
PROGRAM mode its context takes it (assumption 62, DEDUCED). -/
def Hub.serRxSend (h : Hub) (c : Nat) : Hub :=
  let x := h.chan c
  match h.serTunnel c, x.closed with
  | some n, p :: rest =>
    if h.bindMode n = 1 ∧ h.on R.FAB_STATUS_REBUILD = false then
      let h := h.setChan c { x with closed := rest }
      let dest := (h.rd (A.SER_DEST (lowest (h.bindArg n)))).toNat % 16384
      let (h, r) := h.send n dest (h.bindCls n) 0 (p.aux c) h.stamp (wordsOf p.bytes)
      if r.left then h else h.bump (word (A.SER_RX_DISCARD c))
    else h
  | _, _ => h

/-- The channel of a mask whose closed packet is oldest. -/
def Hub.serOldest (h : Hub) (mask : Nat) : Option (Nat × SerRx) :=
  (List.range 8).foldl (fun best c =>
    if bit mask c then
      match (h.chan c).closed, best with
      | p :: _, some (b, q) => if p.at_ < q.at_ then some (c, p) else some (b, q)
      | p :: _, none => some (c, p)
      | [], b => b
    else best) none

/-- The context of a serial tunnel takes the oldest closed packet (R253, R326). -/
def Hub.serTake (h : Hub) (n : Nat) : Hub × Option Packet :=
  match h.serOldest (h.bindArg n) with
  | some (c, p) =>
    let x := h.chan c
    (h.setChan c { x with closed := x.closed.drop 1 },
     some (h.ownPacket n 0 (h.bindCls n) 0 (p.aux c) h.stamp (wordsOf p.bytes)))
  | none => (h, none)

/-! ### Transmit (R322, R326, R328, R329) -/

/-- DE rises for a channel with something to send once RXD has been idle for one character time. A character in progress on
RXD then wins, and DE waits until RXD has been idle for one character time after it (R329): the rest of that character, which
no command shows before its end, is a free value of at most a character time (assumption 62, DEDUCED). -/
def Hub.serRaise (h : Hub) (c : Nat) (x : SerChan) : SerChan :=
  if h.on (R.SER_CFG_EN c) && h.rs485 c && !x.rts && !x.tx.isEmpty && x.rxEnd.all (fun r => decide (r + h.charTime c ≤ h.root))
  then
    let left := Config.rxLeft c h.root % (h.charTime c + 1)
    if left = 0 then { x with rts := true, deAt := h.root } else { x with rxEnd := some (h.root + left) }
  else x

/-- DE of a channel as time passes. -/
def Hub.serEnable (h : Hub) (c : Nat) : Hub :=
  let x := h.serRaise c (h.chan c)
  if x = h.chan c then h else h.setChan c x

/-- DE of every channel. -/
def Hub.serTick (h : Hub) : Hub := (List.range 8).foldl Hub.serEnable h

/-- The level of the CTS ball: high by its pull-up while nothing drives it (R495, R502) (assumption 145, DEDUCED). -/
def SerChan.ctsHigh (x : SerChan) : Bool := x.cts.getD true

/-- Whether the line may start a character (R322, R328, R329): none is on it, CTS is active under flow control, and in
RS-485 mode DE has been high for LEAD bit times (assumption 145, DEDUCED). -/
def Hub.serMay (h : Hub) (c : Nat) (x : SerChan) : Bool :=
  decide (x.charEnd ≤ h.root) && (!h.serFlow c || x.ctsHigh)
    && (!h.rs485 c || x.rts && decide (x.deAt + h.get (R.SER_DE_LEAD c) * h.bitTime c ≤ h.root))

/-- Whether a channel has a free transmit bank. -/
def Hub.serRoom (h : Hub) (c : Nat) : Bool := decide ((h.chan c).tx.length < 2)

/-- SER_TX_PACKET (R326): the next packet at a serial tunnel's endpoint; one that waits for a bank stays. A channel that
does not run has no bank to hold it (assumption 62, DEDUCED). -/
def Hub.serTxPacket (h : Hub) (n : Nat) : Hub :=
  if h.bindMode n = 0 ∨ h.bindEnd n ≠ 0x10 then h
  else
    match h.epNext 10 n with
    | none => h
    | some p =>
      let c := p.aux % 8
      let bytes := p.aux / 64
      if bit (h.bindArg n) c = false ∨ 512 < bytes ∨ p.length ≠ ceilDiv bytes 4 ∨ p.kind ≠ 0 ∨ h.on (R.SER_CFG_EN c) = false then
        (h.epPop 10 n).bump (word (A.SER_TX_DISCARD c))
      else if h.serRoom c then
        let brk := bit p.aux 4
        let h := h.epPop 10 n
        if bytes = 0 ∧ brk = false then h
        else
          let x := h.chan c
          h.setChan c (h.serRaise c { x with tx := x.tx ++ [⟨(bytesOf p.payload).take bytes, brk, false, n⟩] })
      else h

/-- SER_CHARACTER_TRANSMIT (R322, R324, R328, R329): the next character of the bank in turn, or the break before it, where
the line may start one; DE rises first. A bank whose last character has started is free (assumption 62, DEDUCED). -/
def Hub.serTransmit (h : Hub) (c : Nat) : Hub :=
  let x := h.serRaise c (h.chan c)
  if h.on (R.SER_CFG_EN c) = false then h
  else if h.serMay c x = false then h.serEnable c
  else
    match x.tx with
    | [] => h
    | t :: rest =>
      let one := h.charTime c
      if t.brk then
        let tx := if t.bytes.isEmpty then rest else { t with brk := false, started := true } :: rest
        (h.ball (.serBreak c)).setChan c { x with tx := tx, charEnd := h.root + 2 * one }
      else
        match t.bytes with
        | [] => h.setChan c { x with tx := rest }
        | b :: bs =>
          let tx := if bs.isEmpty then rest else { t with bytes := bs, started := true } :: rest
          (h.ball (.ser c (h.serBits c b))).setChan c { x with tx := tx, charEnd := h.root + one }

/-- SER_DE_FALL (R329): TRAIL bit times after the last stop bit. -/
def Hub.serDeFall (h : Hub) (c : Nat) : Hub :=
  let x := h.chan c
  if h.rs485 c && x.tx.isEmpty && decide (x.charEnd + h.get (R.SER_DE_TRAIL c) * h.bitTime c ≤ h.root) then
    h.setChan c { x with rts := false }
  else h

/-- SER_CTS_CHANGE (R328). -/
def Hub.serCts (h : Hub) (c : Nat) (active : Bool) : Hub := h.setChan c { h.chan c with cts := some active }

/-! ### Dumps, disable, sparge (R330, R331) -/

/-- SER_DUMP_RX (R330): each packet discarded is counted, the partial one too. -/
def Hub.serDumpRx (h : Hub) (c : Nat) : Hub :=
  let x := h.chan c
  let n := x.closed.length + b2n (!x.fill.isEmpty)
  (h.bumpBy (word (A.SER_RX_DISCARD c)) n).setChan c { x with fill := [], fillErr := false, closed := [] }

/-- A character on the line is cut off, and TXD returns to the idle level (R330). -/
def Hub.serCut (h : Hub) (c : Nat) : Hub := if h.root < (h.chan c).charEnd then h.ball (.serCut c) else h

/-- Packets of a channel that a dump of the transmit banks discards (R330): those in the banks, and one whose last
character, on the line, has left its bank. -/
def SerChan.txPackets (x : SerChan) (now : Nat) : Nat :=
  x.tx.length + b2n (decide (now < x.charEnd) && !x.tx.head?.any SerTx.started)

/-- SER_DUMP_TX (R330). -/
def Hub.serDumpTx (h : Hub) (c : Nat) : Hub :=
  let x := h.chan c
  ((h.serCut c).bumpBy (word (A.SER_TX_DISCARD c)) (x.txPackets h.root)).setChan c
    { x with tx := [], charEnd := min x.charEnd h.root }

/-- A channel that does not run: banks empty, line idle (SER_CFG.EN). -/
def Hub.serStop (h : Hub) (c : Nat) : Hub := (h.serCut c).setChan c { SerChan.reset with cts := (h.chan c).cts }

/-- The sparge of a serial tunnel discards transmit banks not started on the line (R331). -/
def Hub.serSparge (h : Hub) (n : Nat) : Hub :=
  (List.range 8).foldl (fun h c =>
    let x := h.chan c
    let keep := x.tx.filter (fun t => t.started || t.tunnel != n)
    (h.bumpBy (word (A.SER_TX_DISCARD c)) (x.tx.length - keep.length)).setChan c { x with tx := keep }) h

/-- A binding change that leaves a channel out of the mask empties its receive banks (R331). -/
def Hub.serRebind (h : Hub) (was now : Nat) : Hub :=
  (List.range 8).foldl (fun h c =>
    if bit was c && !bit now c then h.setChan c { h.chan c with fill := [], fillErr := false, closed := [] } else h) h

/-- The mask of a binding; 0 where it is not serial. -/
def serMask (b : Nat) : Nat := if slice b 0 2 != 0 && slice b 4 6 == 0x10 then slice b 10 8 else 0

/-- The local tunnel that a sparge flushes, if it is one of the hub's own (R161). -/
def Hub.spargeOwn (h : Hub) (s : Sparge) : Option Nat :=
  match s.bind with
  | some c => some c.tunnel
  | none => if h.hasAddr ∧ hubOf s.tid = h.addr then some (idxOf s.tid) else none

/-- SPARGE_BOUNDARY with what R331 adds: at output 10 the tunnel's transmit banks that have not started, and with a change
of the mask in force the receive banks of the channels left out. -/
def Hub.serBoundary (h : Hub) (o : Nat) : Hub :=
  match h.fab.sparge with
  | some s =>
    match h.spargeOwn s with
    | some n =>
      let h := if o = 10 ∧ s.pending.contains o then h.serSparge n else h
      let h' := h.spargeBoundary o
      h'.serRebind (serMask (h.binding n)) (serMask (h'.binding n))
    | none => h.spargeBoundary o
  | none => h

/-- SER_COUNTER_CLEAR (R333). -/
def Hub.serClear (h : Hub) : Hub :=
  (List.range 8).foldl (fun h c => h.clearRange (A.SER_RX_ERR c) (A.SER_TX_DISCARD c)) h

/-! ### The rows of the table -/

/-- SPARGE_BOUNDARY (R161). -/
def execSpargeBoundary (output : Fin 14) (s : State) : Result := s.upd (fun h => h.serBoundary output)

/-- SPARGE_COMPLETE (R161). -/
def execSpargeComplete (s : State) : Result := s.upd (fun h => h.spargeComplete)

/-- SER_CHARACTER_RECEIVED (R323). -/
def execSerCharacterReceived (c : Fin 8) (levels : Byte) (par stop : Bool) (s : State) : Result :=
  s.upd (fun h => h.unlessHeld (fun h => h.serReceive c levels par stop))

/-- SER_GAP_TIMEOUT (R325). -/
def execSerGapTimeout (c : Fin 8) (s : State) : Result := s.upd (fun h => h.serGap c)

/-- SER_RX_BANK_SEND (R326). -/
def execSerRxBankSend (c : Fin 8) (s : State) : Result := s.upd (fun h => h.serRxSend c)

/-- SER_TX_PACKET (R326). -/
def execSerTxPacket (tunnel : Fin 96) (s : State) : Result := s.upd (fun h => h.serTxPacket tunnel)

/-- SER_CHARACTER_TRANSMIT (R322). -/
def execSerCharacterTransmit (c : Fin 8) (s : State) : Result :=
  s.upd (fun h => h.unlessHeld (fun h => h.serTransmit c))

/-- SER_DE_FALL (R329). -/
def execSerDeFall (c : Fin 8) (s : State) : Result := s.upd (fun h => h.serDeFall c)

/-- SER_CTS_CHANGE (R328). -/
def execSerCtsChange (c : Fin 8) (active : Bool) (s : State) : Result := s.upd (fun h => h.serCts c active)

/-- SER_DUMP_RX (R330). -/
def execSerDumpRx (c : Fin 8) (s : State) : Result := s.upd (fun h => h.serDumpRx c)

/-- SER_DUMP_TX (R330). -/
def execSerDumpTx (c : Fin 8) (s : State) : Result := s.upd (fun h => h.serDumpTx c)

/-- SER_COUNTER_CLEAR (R333). -/
def execSerCounterClear (s : State) : Result := s.upd (fun h => h.serClear)

end Sys2Proof.Machine
end

