-- ==== Sys2Proof/Machine/Endpoints.lean ====
section
/-! DEFINITION. Endpoints as their contexts and the LOCAL scheduler see them (R175, R200, R253): what an endpoint holds
for a context, whether it can accept a packet, and the event bits. -/

namespace Sys2Proof.Machine

/-- Whether a streamed layer's line FIFO has 512 bytes free (R288); the banner has none to fill. -/
def Hub.layerRoom (h : Hub) (i l : Nat) : Bool := l == 2 || decide (((h.dsp i).layer l).fill + 512 ≤ 65536)

/-- Whether an Ethernet transmit store has 512 bytes free, or its link is not UP and everything is discarded (R312). -/
def Hub.ethRoom (h : Hub) (x : Nat) : Bool := h.ethLink x != 2 || decide ((h.ethPort x).stored + 512 ≤ 32768)

/-- ADP_ROOM (R200): whether the endpoint of a tunnel can accept a packet. The event, output, journal and eMMC endpoints
accept none (assumption 56, DEDUCED). -/
def Hub.adpRoom (h : Hub) (n : Nat) : Bool :=
  let e := h.bindEnd n
  if h.bindMode n = 0 then false
  else if 2 ≤ e ∧ e ≤ 7 then !h.epBusy (4 + (e - 2) / 3) n && h.layerRoom ((e - 2) / 3) ((e - 2) % 3)
  else if 8 ≤ e ∧ e ≤ 0xB then !h.epBusy (6 + (e - 8)) n && h.ethRoom (e - 8)
  else if e = 0x10 then
    !h.epBusy 10 n && (List.range 8).all (fun c => !bit (h.bindArg n) c || h.serRoom c)
  else if 0x18 ≤ e ∧ e < 0x24 then !h.epBusy 11 n
  else false

/-- Reads of the head that the bridge holds, and bytes of its posted writes (R385). -/
def Hub.bridgeReads (h : Hub) : Nat := (((KMap.get? h.fab.inbox 3).getD []).filter (fun d => d.pkt.kind == 2)).length

/-- Bytes in the posted-write buffer (R385). -/
def Hub.bridgeWrites (h : Hub) : Nat :=
  ((((KMap.get? h.fab.inbox 3).getD []).filter (fun d => d.pkt.kind == 1)).map (fun d => 4 * d.pkt.length)).sum

/-- Whether a tunnel's local queue is eligible at LOCAL (R175): its adapter can accept its head packet. The bridge takes
up to 256 reads and 2 KiB of writes (R385); a serial packet needs a free bank of its own channel (R326)
(assumption 70, DEDUCED). -/
def Hub.epOpen (h : Hub) (n : Nat) : Bool :=
  if n = 0 then
    match (h.queue 3 0).items.head?.bind (fun d => h.pkt? d.pid) with
    | some p =>
      if p.kind = 2 then decide (h.bridgeReads < 256)
      else if p.kind = 1 then decide (h.bridgeWrites + 4 * p.length ≤ 2048)
      else true
    | none => true
  else if h.bindEnd n = 0x10 then
    !h.epBusy 10 n &&
      (match (h.queue 10 n).items.head?.bind (fun d => h.pkt? d.pid) with
        | some p => !bit (h.bindArg n) (p.aux % 8) || h.serRoom (p.aux % 8)
        | none => true)
  else h.adpRoom n

/-- Tunnels whose adapter cannot accept a packet now. -/
def Hub.closedTunnels (h : Hub) : List Nat := (List.range 96).filter (fun n => !h.epOpen n)

/-- ADP_IN (R200): whether the endpoint of a tunnel holds a packet or record for its context. -/
def Hub.adpIn (h : Hub) (n : Nat) : Bool :=
  if h.bindMode n ≠ 2 then false
  else if h.bindEnd n = 0x2A then !h.tm.fifo.isEmpty
  else if h.bindEnd n = 0x10 then (h.serOldest (h.bindArg n)).isSome
  else if h.bindEnd n = 0x28 then h.on R.EMMC_STATUS_DONE
  else !(h.epInOf n).isEmpty

/-- The header of a packet from an endpoint (R253). -/
def Hub.fromEndpoint (h : Hub) (n : Nat) (p : Packet) : Packet :=
  { p with dest := (h.addr * 128 + n) % 16384, cls := h.bindCls n, src := h.addr, kind := 0, hops := 0, lseq := 0,
           wrap := false, west := false, resync := false, tseq := 0 }

/-- The oldest packet or record that the endpoint of a tunnel holds is taken (R253, R255); the eMMC gives none (R357). -/
def Hub.adpTake (h : Hub) (n : Nat) : Hub × Option Packet :=
  if h.bindEnd n = 0x2A then
    match h.tm.fifo with
    | [] => (h, none)
    | r :: rest =>
      ({ h with tm := { h.tm with fifo := rest } },
       some (h.fromEndpoint n (h.ownPacket n 0 .M 0 0 (r.stamp % 2 ^ 32) r.words)))
  else if h.bindEnd n = 0x10 then
    match h.serTake n with
    | (h, some p) => (h, some (h.fromEndpoint n p))
    | (h, none) => (h, none)
  else if h.bindEnd n = 0x28 then (h, none)
  else
    match h.epInOf n with
    | [] => (h, none)
    | p :: rest => ({ h with tun := { h.tun with epIn := setList h.tun.epIn n rest } }, some (h.fromEndpoint n p))

/-- The event bits of a context: latched bits, and level bits as their conditions stand (R200). -/
def Hub.eventBits (h : Hub) (n : Nat) : Nat :=
  (h.ctx n).events / 8 * 8 + b2n (!(h.queue 13 n).items.isEmpty) + b2n (h.adpIn n) * 2 + b2n (h.adpRoom n) * 4

/-! ### The rows of the table -/

/-- SCHEDULER_SELECT (R174). -/
def execSchedulerSelect (sched : Fin 4) (bad : Bool) (s : State) : Result :=
  s.upd (fun h => h.schedulerSelect sched h.closedTunnels bad)

end Sys2Proof.Machine
end

