-- ==== Sys2Proof/Machine/Outbound.lean ====
section
/-! DEFINITION. The bridge's requests of its own (R387–R389): four outbound channels, their READ and WRITE requests, the
head's completions, retries and timeouts. -/

namespace Sys2Proof.Machine

/-- The hub with the bridge's own state changed. -/
def Hub.onBrg (h : Hub) (f : BrgState → BrgState) : Hub := { h with brg := f h.brg }

/-- An outbound channel. -/
def Hub.outChan (h : Hub) (k : Nat) : OutChan := SMap.get (fun _ => OutChan.idle) h.brg.chans k

/-- An outbound channel replaced. -/
def Hub.setOutChan (h : Hub) (k : Nat) (c : OutChan) : Hub :=
  h.onBrg (fun b => { b with chans := SMap.set (fun _ => OutChan.idle) b.chans k c })

/-- A channel ends (R387): RESULT 1 OK, 2 ERROR; its outstanding reads deliver no more. -/
def Hub.chanEnd (h : Hub) (k result : Nat) : Hub :=
  let h := h.setOutChan k { h.outChan k with live := false }
  let h := h.onBrg (fun b => { b with tags := b.tags.map (fun e => (e.1, if e.2.chan == k then { e.2 with live := false } else e.2)) })
  ((h.put (R.BRG_OUT_STATUS_BUSY k) 0).put (R.BRG_OUT_STATUS_DONE k) 1).put (R.BRG_OUT_STATUS_RESULT k) result

/-- A running channel ends with ERROR. -/
def Hub.chanError (h : Hub) (k : Nat) : Hub := if (h.outChan k).live then h.chanEnd k 2 else h

/-- A channel whose bytes have all moved ends with OK (assumption 70, DEDUCED). -/
def Hub.chanMoved (h : Hub) (k n : Nat) : Hub :=
  let c := { h.outChan k with moved := (h.outChan k).moved + n }
  let h := h.setOutChan k c
  if c.moved = c.len then h.chanEnd k 1 else h

/-- OUTBOUND_START (R387): a write of BRG_OUT_CTRL with GO. -/
def Hub.outboundStart (h : Hub) (k len : Nat) (dir : Bool) : Hub :=
  let h := (h.put (R.BRG_OUT_CTRL_LEN k) len).put (R.BRG_OUT_CTRL_DIR k) (b2n dir)
  let loc := (h.rd (A.BRG_OUT_LOCAL k)).toNat
  let host := (h.rd (A.BRG_OUT_HOST k)).toNat
  if h.on (R.BRG_OUT_STATUS_BUSY k) = true ∨ len < 4 ∨ 1048576 < len ∨ len % 4 ≠ 0 ∨ loc % 4 ≠ 0 ∨ host % 4 ≠ 0 then
    h.put (R.BRG_OUT_STATUS_RESULT k) 3
  else
    ((h.setOutChan k ⟨true, dir, loc, host, len, 0, 0⟩).put (R.BRG_OUT_STATUS_BUSY k) 1).put (R.BRG_OUT_STATUS_RESULT k) 0

/-- The length of a channel's next request: within its limit, and within a 4 KiB page on either side (R387). -/
def OutChan.size (c : OutChan) : Nat :=
  min (min (c.len - c.next) (if c.write then 508 else 512))
    (min (4096 - (c.loc + c.next) % 4096) (4096 - (c.host + c.next) % 4096))

/-- Whether a tag of the hub may be used: not outstanding, and no timeout within 1 s (R387). -/
def Hub.tagFree (h : Hub) (t : Nat) : Bool :=
  (KMap.get? h.brg.tags t).isNone && (match KMap.get? h.brg.late t with
    | some at_ => decide (at_ + second ≤ h.root)
    | none => true)

/-- The next free tag in rotation. -/
def Hub.nextTag (h : Hub) : Option Nat :=
  ((List.range 256).map (fun i => 256 + (h.brg.rotor - 256 + i) % 256)).find? h.tagFree

/-- A READ to the head (R376): ADDR, and DWORDS with whole-word byte enables. -/
def Hub.sendRead (h : Hub) (tag host bytes : Nat) : Hub × Sent :=
  let d := bytes / 4
  h.sendM 2 tag [W host, W (d + 0xF00 + (if 1 < d then 0xF000 else 0))]

/-- The next READ of a channel. -/
def Hub.outRead (h : Hub) (k : Nat) : Hub :=
  let c := h.outChan k
  match h.nextTag with
  | none => h
  | some t =>
    match h.sendRead t (c.host + c.next) c.size with
    | (h', .badDest) => h'.chanError k
    | (h', r) =>
      if r.left then
        (h'.setOutChan k { c with next := c.next + c.size }).onBrg (fun b =>
          { b with tags := KMap.put b.tags t ⟨k, true, c.loc + c.next, c.host + c.next, c.size, 0, false⟩,
                   rotor := 256 + (t - 256 + 1) % 256, late := KMap.del b.late t })
      else h

/-! ### Completions (R376, R378, R389) -/

/-- A request or completion is discarded (R376). -/
def Hub.brgBad (h : Hub) : Hub := (h.bump R.BRG_BAD_REQ).put R.BRG_STATUS_BAD_REQ 1

/-- The head reports that it could not apply a WRITE (R389) (assumption 70, DEDUCED). -/
def Hub.hubWriteFailed (h : Hub) (addr : Nat) : Hub :=
  let h := (h.put R.BRG_STATUS_OUT_PW_ERR 1).wr A.BRG_PW_ERR_ADDR (W addr)
  let h := ((h.put R.BRG_PW_ERR_INFO_CAUSE 4).put R.BRG_PW_ERR_INFO_OUTBOUND 1).put R.BRG_PW_ERR_INFO_PRIV 0
  let h := h.bump R.BRG_PW_ERR_INFO_COUNT
  let hit := [0, 1, 2, 3].find? (fun k =>
    let c := h.outChan k
    c.live && c.write && decide (c.host ≤ addr) && decide (addr < c.host + c.len))
  let h := match hit with
    | some k => h.chanError k
    | none => h
  h.log 5 0x04 sevCT 0 addr (h.get R.BRG_PW_ERR_INFO_COUNT)

/-- A tag is no longer outstanding. -/
def Hub.dropTag (h : Hub) (t : Nat) : Hub := h.onBrg (fun b => { b with tags := KMap.del b.tags t })


/-- The first packet at output 3 that a test picks. -/
def Hub.inbox3 (h : Hub) (f : Packet → Bool) : Option Delivered := ((KMap.get? h.fab.inbox 3).getD []).find? (fun d => f d.pkt)

/-- A packet at output 3 is taken. -/
def Hub.take3 (h : Hub) (d : Delivered) : Hub :=
  h.onFab (fun f =>
    let l := ((KMap.get? f.inbox 3).getD []).erase d
    { f with inbox := if l.isEmpty then KMap.del f.inbox 3 else KMap.put f.inbox 3 l })


/-- READ_RETRY (R389): the same READ again, RETRY_DELAY after its RETRY. -/
def Hub.readRetry (h : Hub) (t : Nat) : Hub :=
  match KMap.get? h.brg.tags t with
  | none => h
  | some r =>
    if r.retry = false then h
    else if r.live = false then h.dropTag t
    else
      match h.sendRead t r.host r.bytes with
      | (h', .badDest) => (h'.dropTag t).chanError r.chan
      | (h', s) =>
        if s.left then
          (h'.bump R.BRG_RETRIES).onBrg (fun b => { b with tags := KMap.put b.tags t { r with retry := false } })
        else h

/-- COMPLETION_TIMEOUT (R389): CPL_TIMEOUT after the first issue of an outstanding read. -/
def Hub.completionTimeout (h : Hub) (t : Nat) : Hub :=
  match KMap.get? h.brg.tags t with
  | none => h
  | some r =>
    let h := (h.dropTag t).onBrg (fun b => { b with late := KMap.put b.late t h.root })
    let h := ((h.chanError r.chan).put R.BRG_STATUS_CPL_TO 1).bump R.BRG_CPL_TIMEOUTS
    h.log 5 0x03 sevCT t r.host (h.get R.BRG_CPL_TIMEOUTS)

/-- BRG_COUNTER_CLEAR (R398). -/
def Hub.brgClear (h : Hub) : Hub := h.clearRange A.BRG_BAD_REQ A.BRG_LATE_CPL

/-! ### The rows of the table -/

/-- OUTBOUND_START (R387). -/
def execOutboundStart (chan : Fin 4) (len : BitVec 21) (dir : Bool) (s : State) : Result :=
  s.upd (fun h => h.outboundStart chan len.toNat dir)

/-- READ_RETRY (R389). -/
def execReadRetry (tag : Fin 512) (s : State) : Result := s.upd (fun h => h.readRetry tag)

/-- COMPLETION_TIMEOUT (R389). -/
def execCompletionTimeout (tag : Fin 512) (s : State) : Result := s.upd (fun h => h.completionTimeout tag)

/-- BRG_COUNTER_CLEAR (R398). -/
def execBrgCounterClear (s : State) : Result := s.upd (fun h => h.brgClear)

end Sys2Proof.Machine
end

