-- ==== Sys2Proof/Machine/Security.lean ====
section
/-! DEFINITION. Keys, lifecycle and attestation (R433–R453): the security store, lifecycle requests, kegs, taps, slots and
engines, the SEC operations, program keys, the attestation statement, turning, and service access. -/

namespace Sys2Proof.Machine

/-- The hub with the security state changed. -/
def Hub.onSec (h : Hub) (f : SecState → SecState) : Hub := { h with sec := f h.sec }

/-- Random bytes, four to each free word. -/
def Hub.random : Hub → Nat → Hub × List Byte
  | h, 0 => (h, [])
  | h, k + 1 =>
    let (w, h) := h.fresh
    let (h, rest) := h.random k
    (h, wordBytes w ++ rest)

/-- The device ID (R433): SHA-384 of the attestation public key as an uncompressed point. -/
def deviceId : List Byte := sha384 (0x04#8 :: publicKey Config.attestKey)

/-- The owner root secret; empty while none is held. -/
def Hub.ors (h : Hub) : List Byte := xorBytes h.sec.ors h.sec.orsMask

/-- The key-encryption key of an owner root secret (R434). -/
def kekOf (ors : List Byte) : List Byte := (hmac384 ors (asciiBytes "ILT-KEK" ++ deviceId)).take 32

/-- The key-encryption key held (R434, R443); empty while none is. -/
def Hub.kek (h : Hub) : List Byte := xorBytes h.sec.kek h.sec.kekMask

/-! ### Erasure and lifecycle (R435, R436) -/

/-- A slot is emptied (R442): its key, what SEC_SLOT shows of it, and the engine that used it. -/
def Hub.emptySlot (h : Hub) (s : Nat) : Hub :=
  let h := ((h.put (R.SEC_SLOT_LOADED s) 0).put (R.SEC_SLOT_ENGINE s) 0).put (R.SEC_SLOT_KEG_ID s) 0
  h.onSec (fun x =>
    let out := fun (e : Option Nat) => if e = some s then none else e
    { x with slots := KMap.del x.slots s, sealer := out x.sealer, signer := out x.signer, verifier := out x.verifier })

/-- Every slot and mask is emptied. -/
def Hub.emptySlots (h : Hub) : Hub := (List.range 32).foldl Hub.emptySlot h

/-- The owner root secret, the program keys and every slot are erased (R435). -/
def Hub.eraseOwner (h : Hub) : Hub :=
  let h := h.emptySlots.onSec (fun x => { x with
    ors := [], orsMask := [], kek := [], kekMask := [], pkeys := [[], [], [], []] })
  (h.put R.SEC_STATUS_ORS_VALID 0).put R.SEC_STATUS_PKEYS 0

/-- A new owner root secret and its key-encryption key (R434), both held masked (R443). -/
def Hub.drawOrs (h : Hub) : Hub :=
  let (h, key) := h.random 8
  let (h, mask) := h.random 8
  let (h, mask') := h.random 8
  (h.onSec (fun x => { x with
    ors := xorBytes key mask, orsMask := mask, kek := xorBytes (kekOf key) mask', kekMask := mask' })).put
    R.SEC_STATUS_ORS_VALID 1

/-- The lifecycle state changes (R436), counted. -/
def Hub.setLifecycle (h : Hub) (st : Nat) : Hub := (h.put R.SEC_STATUS_LIFECYCLE st).bump R.SEC_LC_CNT

/-- Whether the table of R435 has a transition. -/
def lcAllowed (src dst : Nat) : Bool :=
  match src, dst with
  | 0, 1 => true
  | 1, 2 => true
  | 1, 0 => true
  | 2, 3 => true
  | 3, 1 => true
  | 4, _ => false
  | _, 4 => true
  | _, _ => false

/-- The effect of a transition (R435). -/
def Hub.lcEffect (h : Hub) (dst : Nat) : Hub :=
  let src := h.lifecycle
  let h := h.setLifecycle dst
  match dst with
  | 1 => h.drawOrs
  | 2 => h
  | 0 => h.eraseOwner
  | _ => (if src = 2 ∨ dst = 4 then h.stopAll else h).eraseOwner

/-- A lifecycle request (R435, R453): RESULT 1 DONE, 2 REFUSED, 3 KEY, 4 CONDITION, and 5 BUSY in the cycle in which service
access opens, which wins (R452) (assumption 83, DEDUCED). -/
def Hub.lcRequest (h : Hub) (target key : Nat) : Hub :=
  let h := h.put R.SEC_LC_REQ_TARGET target
  let result := fun (h : Hub) n => h.put R.SEC_LC_REQ_RESULT n
  if h.sec.openedAt = some h.root then result h 5
  else if key ≠ 0x4C43 then result h 3
  else if lcAllowed h.lifecycle target = false then result h 2
  else if target = 1 ∧ h.on R.SEC_STATUS_TRNG_FAIL = true then result h 4
  else if target = 2 ∧ h.get R.SEC_STATUS_PKEYS = 0 then result h 4
  else result (h.lcEffect target) 1

/-! ### Kegs and taps (R438–R442) -/

/-- Fields of a keg (R438). -/
def kegWord (k : List Byte) (o : Nat) : Nat := leNat ((k.drop o).take 4)

/-- A keg unwrapped (R439); none gives AUTH. -/
def Hub.unwrap (h : Hub) (k : List Byte) : Option (List Byte) :=
  let attr := kegWord k 4
  if kegWord k 0 = 0x3147454B ∧ kegWord k 12 = 0 ∧ kegWord k 0x2C = 0 ∧ slice attr 5 3 = 0 ∧ slice attr 9 23 = 0
      ∧ attr % 32 ≠ 0 ∧ (k.drop 16).take 16 = deviceId.take 16 then
    gcmOpen h.kek ((k.drop 0x20).take 12) (k.take 0x30) ((k.drop 0x30).take 32) ((k.drop 0x50).take 16)
  else none

/-- A keg for a key (R438, R447). -/
def Hub.wrap (h : Hub) (attr id : Nat) (key : List Byte) : Hub × List Byte :=
  let (h, iv) := h.random 3
  let head := leBytes 4 0x3147454B ++ leBytes 4 attr ++ leBytes 4 id ++ zeros 4 ++ deviceId.take 16 ++ iv ++ zeros 4
  let (ct, tag) := gcmSeal h.kek iv head key
  (h, head ++ ct ++ tag)

/-- A tap's outcome (R278, R280, R440): the head taps with `ctx` none. -/
def Hub.tapCode (h : Hub) (ctx : Option Nat) (keg : List Byte) (slot engine tid : Nat) : Except Nat (List Byte) :=
  let lc := h.lifecycle
  if lc ≠ 1 ∧ lc ≠ 2 then .error 4
  else
    let slotOk := match ctx with
      | some n => h.on (R.SEC_SLOT_ASSIGNED slot) && h.get (R.SEC_SLOT_TUNNEL slot) == n
      | none => true
    let tidOk := if engine = 0 then (match ctx with | some n => tid == h.ownTid n | none => true) else tid == 0
    let open_ := match ctx with
      | some _ => decide (engine ≤ 2) && !bit (kegWord keg 4) 8
      | none => true
    if !slotOk then .error 2
    else if 5 ≤ engine ∨ tidOk = false then .error 8
    else if open_ = false ∨ bit (kegWord keg 4) engine = false then .error 1
    else
      match h.unwrap keg with
      | some key => .ok key
      | none => .error 3

/-- A key fills a slot and is delivered to an engine (R440, R442); a delivery to the journal sealer is seen by the
journal (assumption 83, DEDUCED). -/
def Hub.fillSlot (h : Hub) (slot engine tid id : Nat) (key : List Byte) : Hub :=
  let old := h.sealerKey
  let h := h.emptySlot slot
  let (h, mask) := h.random 8
  let h := h.onSec (fun x => { x with
    slots := KMap.put x.slots slot ⟨xorBytes key mask, mask, engine, tid⟩
    sealer := if engine = 2 then some slot else x.sealer
    signer := if engine = 3 then some slot else x.signer
    verifier := if engine = 4 then some slot else x.verifier })
  let h := ((h.put (R.SEC_SLOT_LOADED slot) 1).put (R.SEC_SLOT_ENGINE slot) engine).put (R.SEC_SLOT_KEG_ID slot) id
  if engine = 2 then h.sealerTapped old else h

/-- A refused tap is counted and logged once per second per tunnel (R441). -/
def Hub.tapRefused (h : Hub) (ctx : Option Nat) (code : Nat) : Hub :=
  let h := h.bump R.SEC_TAP_REFUSED
  h.logLim 7 0x01 (match ctx with | some n => n | none => 128) sevCT
    (match ctx with | some n => h.spargeTid n % 16384 | none => 0x3FFF) code (h.get R.SEC_TAP_REFUSED)

/-- A tap runs (R440): a keg and the slot, engine and TID words after it. -/
def Hub.tapRun (h : Hub) (ctx : Option Nat) (block : List Byte) : Hub × Nat :=
  let keg := block.take 96
  let slot := kegWord block 0x60 % 32
  let engine := kegWord block 0x64 % 8
  let tid := kegWord block 0x68 % 16384
  match h.tapCode ctx keg slot engine tid with
  | .ok key => (h.fillSlot slot engine tid (kegWord keg 8 % 65536) key, 0)
  | .error code => (h.tapRefused ctx code, code)

/-! ### Attestation (R450) -/

/-- A CBOR head: major type and argument, in its shortest form. -/
def cborHead (major n : Nat) : List Byte :=
  if n < 24 then [BitVec.ofNat 8 (major * 32 + n)]
  else if n < 256 then BitVec.ofNat 8 (major * 32 + 24) :: beBytes 1 n
  else if n < 65536 then BitVec.ofNat 8 (major * 32 + 25) :: beBytes 2 n
  else if n < 2 ^ 32 then BitVec.ofNat 8 (major * 32 + 26) :: beBytes 4 n
  else BitVec.ofNat 8 (major * 32 + 27) :: beBytes 8 n

/-- An unsigned integer. -/
def cborUint (n : Nat) : List Byte := cborHead 0 n

/-- A byte string. -/
def cborBytes (b : List Byte) : List Byte := cborHead 2 b.length ++ b

/-- An array of encoded items. -/
def cborArray (items : List (List Byte)) : List Byte := cborHead 4 items.length ++ items.flatten

/-- Null, and the booleans. -/
def cborNull : List Byte := [0xF6#8]

/-- A boolean. -/
def cborBool (b : Bool) : List Byte := [if b then 0xF5#8 else 0xF4#8]

/-- Words of registers as bytes. -/
def Hub.regBytes (h : Hub) (a n : Nat) : List Byte := (List.range n).flatMap (fun k => wordBytes (h.rd (a + 4 * k)))

/-- The measurement of a context (R210, R450 key 11). -/
def Hub.attestCtx (h : Hub) (n : Nat) : Option (List Byte) :=
  if h.on (R.TUNC_MEAS_INFO_VALID n) then
    some (cborArray [cborUint n, cborBytes (h.measured n), cborUint (h.get (R.TUNC_MEAS_INFO_KEY_INDEX n)),
      cborBool (h.on (R.TUNC_MEAS_INFO_SIGNED n)), cborBool (h.on (R.TUNC_MEAS_INFO_SHARED n))])
  else none

/-- The attestation map (R450). -/
def Hub.attestMap (h : Hub) (nonce : List Byte) (signer : Nat) : List Byte :=
  let repair := cborArray [cborUint (h.get R.COOP_SPARES_ROWS + h.get R.COOP_SPARES_COLUMNS), cborUint (h.get R.TUNC_STATUS_SPARE),
    cborUint (h.get R.TUNC_STATUS_FAILED)]
  let hash := if h.on R.ACC_STATUS_HASH_VALID then cborBytes (h.regBytes (A.ACC_HASH 0) 12) else cborNull
  let keys := (List.range 4).map (fun k => if (h.pkey k).isEmpty then cborNull else cborBytes (sha384 (h.pkey k)))
  let items : List (List Byte) :=
    [cborBytes nonce, cborBytes deviceId, cborUint (h.rd A.DEV_ID).toNat, cborUint (h.rd A.DEV_BEHAVIOUR).toNat,
     cborUint (h.rd A.DEV_STEPPING).toNat, cborUint h.lifecycle, cborBytes ((List.range 48).map Config.bootHash), repair,
     hash, cborBytes h.chain, cborArray ((List.range 96).filterMap h.attestCtx), cborArray keys,
     cborArray [cborUint h.now, cborUint (h.get R.TIME_STATUS_QUALITY)], cborUint signer, cborUint (h.get R.SEC_SVC_CNT)]
  cborHead 5 15 ++ ((items.zipIdx 1).map (fun e => cborUint e.2 ++ e.1)).flatten

/-- The P-384 key derived from the attestation signer's slot (R450). -/
def derivedKey (seed : List Byte) : Nat := beNat (hkdf384 deviceId seed (asciiBytes "ILT-ATT") 48) % (p384N - 1) + 1

/-- The key an engine holds. -/
def Hub.engineKey (h : Hub) (slot : Option Nat) : Option (List Byte) :=
  match slot with
  | some s => (KMap.get? h.sec.slots s).map KeySlot.key
  | none => none

/-- The COSE_Sign1 statement (R450): protected header, payload, and the ES384 signature with a random number `k`. -/
def coseSign1 (d k : Nat) (payload : List Byte) : List Byte :=
  let prot := cborHead 5 1 ++ cborUint 1 ++ cborHead 1 34
  let tbs := cborArray [cborHead 3 10 ++ asciiBytes "Signature1", cborBytes prot, cborBytes [], cborBytes payload]
  cborArray [cborBytes prot, cborHead 5 0, cborBytes payload, cborBytes (ecdsaSign d (k % (p384N - 1) + 1) (sha384 tbs))]

/-- ATTEST's statement, or its refusal (R450). -/
def Hub.attest (h : Hub) (block : List Byte) : Hub × Except Nat (List Byte) :=
  let len := kegWord block 0
  let signer := kegWord block 4
  if len < 8 ∨ 64 < len ∨ 1 < signer then (h, .error 8)
  else
    let key := if signer = 0 then some Config.attestKey else (h.engineKey h.sec.signer).map derivedKey
    match key with
    | none => (h, .error 1)
    | some d =>
      let (h, k) := h.random 12
      (h, .ok (coseSign1 d (leNat k) (h.attestMap ((block.drop 8).take len) signer)))

/-! ### The SEC operations (R445–R449) -/

/-- IMPORT (R447): the keg for an import blob, or its refusal (assumption 83, DEDUCED). -/
def Hub.importBlob (h : Hub) (b : List Byte) : Hub × Except Nat (List Byte) :=
  if (h.lifecycle ≠ 1 ∧ h.lifecycle ≠ 2) ∨ h.on R.SEC_STATUS_TRNG_FAIL = true then (h, .error 4)
  else
    let attr := kegWord b 0x60
    if leNat ((b.drop 0x68).take 8) ≠ 0 ∨ slice attr 5 3 ≠ 0 ∨ slice attr 9 23 ≠ 0 then (h, .error 3)
    else
      match ecdh Config.importKey (b.take 96) with
      | none => (h, .error 3)
      | some z =>
        let k := hkdf384 deviceId z (asciiBytes "ILT-IMPORT") 44
        match gcmOpen (k.take 32) (k.drop 32) (b.take 0x70) ((b.drop 0x70).take 32) ((b.drop 0x90).take 16) with
        | none => (h, .error 3)
        | some key =>
          let (h, keg) := h.wrap attr (kegWord b 0x64) key
          (h, .ok keg)

/-- PKEY_SET and PKEY_CLEAR (R437, R449). -/
def Hub.pkeyOp (h : Hub) (clear : Bool) (b : List Byte) : Hub × Nat :=
  let i := kegWord b 0
  let key := (b.drop 8).take 96
  let lc := h.lifecycle
  if lc ≠ 1 ∧ lc ≠ 2 then (h, 4)
  else if 3 < i ∨ kegWord b 4 ≠ 0 then (h, 8)
  else if (if clear then key != zeros 96 else !onCurve (beNat (key.take 48)) (beNat (key.drop 48))) then (h, 8)
  else
    let tag : Option Bool := if lc = 1 then some true else
      (h.engineKey h.sec.verifier).map (fun k => hmac384 k (b.take 0x68) == (b.drop 0x68).take 48)
    match tag with
    | none => (h, 1)
    | some false => (h, 3)
    | some true =>
      let h := h.onSec (fun x => { x with pkeys := x.pkeys.set i (if clear then [] else key) })
      (h.put ⟨A.SEC_STATUS, 6 + i, 1⟩ (b2n (!clear)), 0)

/-- Bytes an operation's block holds. -/
def secBlockLen : Nat → Nat
  | 1 => 0x6C
  | 2 => 160
  | 3 => 0x48
  | 5 => 0x98
  | 6 => 0x98
  | _ => 4

/-- An operation ends (R445): CODE, VALUE and DONE_FLAG. -/
def Hub.secEnd (h : Hub) (code value : Nat) : Hub :=
  let h := ((h.onSec (fun x => { x with op := none })).put R.SEC_OP_STATUS_BUSY 0).put R.SEC_OP_STATUS_DONE_FLAG 1
  (h.put R.SEC_OP_STATUS_CODE code).put R.SEC_OP_STATUS_VALUE value

/-- Whether an operation on program keys must wait: a pitch or a journal store is BUSY (R446) (assumption 84, DEDUCED). -/
def Hub.keyWaits (h : Hub) (op : Nat) : Bool :=
  (op == 5 || op == 6) && (h.on R.TUNC_PITCH_STATUS_BUSY || h.on R.JRN_STORE_STATUS_BUSY)

/-- The block is read, and ATTEST makes its statement (R445, R450); an operation that must wait, or whose read is held,
has read nothing yet (R446) (assumption 83, DEDUCED; 84, DEDUCED). -/
def Hub.secRead (h : Hub) (op a : Nat) : Hub :=
  if h.keyWaits op then h.onSec (fun x => { x with op := some ⟨op, a, none, []⟩ })
  else match h.dmaRead a (secBlockLen op) with
  | (h, .error .held) => h.onSec (fun x => { x with op := some ⟨op, a, none, []⟩ })
  | (h, .error _) => h.secEnd 5 0
  | (h, .ok b) =>
    if op = 3 then
      match h.attest b with
      | (h, .ok m) => h.onSec (fun x => { x with op := some ⟨op, a, some b, m⟩ })
      | (h, .error c) => h.secEnd c 0
    else h.onSec (fun x => { x with op := some ⟨op, a, some b, []⟩ })

/-- A GO of an operation (R445): refused while BUSY; a misplaced block gives RANGE and a reserved OP OPERAND at once
(assumption 84, DEDUCED). -/
def Hub.secStart (h : Hub) (op : Nat) : Hub :=
  let h := h.put R.SEC_OP_CTRL_OP op
  let a := (h.rd A.SEC_OP_ADDR).toNat
  if h.on R.SEC_OP_STATUS_BUSY then h.put R.SEC_OP_STATUS_BUSY_REFUSED 1
  else if op = 0 ∨ 8 ≤ op then h.secEnd 8 0
  else if a % 64 ≠ 0 ∨ a < 0x300000 ∨ 0x380000 ≤ a then h.secEnd 5 0
  else (h.put R.SEC_OP_STATUS_BUSY 1).secRead op a

/-- Bytes written to the block; the operation ends with DONE, or RANGE where the table refuses them
(assumption 83, DEDUCED). -/
def Hub.secWrite (h : Hub) (a : Nat) (bs : List Byte) (value : Nat) : Hub :=
  match h.dmaWrite a bs with
  | (h, .held) => h
  | (h, .ok) => h.secEnd 0 value
  | (h, _) => h.secEnd 5 0

/-- Whether a SEAL in flight uses a slot (R283) (assumption 52, DESIGN CHOICE). -/
def Hub.sealUses (h : Hub) (slot : Nat) : Bool :=
  h.tun.ops.any (fun o => o.kind == .seal && (o.block.getD 1 0).toNat % 32 == slot)

/-- What a running operation does when it ends; an operation that must wait is unchanged (R283, R446)
(assumption 83, DEDUCED; 84, DEDUCED). -/
def Hub.secFinish (h : Hub) (o : SecOp) (b : List Byte) : Hub :=
  match o.op with
  | 1 =>
    if h.sealUses (kegWord b 0x60 % 32) then h
    else
      let (h, code) := h.tapRun none b
      h.secEnd code 0
  | 2 =>
    match h.importBlob b with
    | (h', .ok keg) =>
      match h'.dmaWrite (o.addr + 0xA0) keg with
      | (_, .held) => h.holdMark
      | (h, .ok) => h.secEnd 0 0
      | (h, _) => h.secEnd 5 0
    | (h, .error c) => h.secEnd c 0
  | 3 => if o.made.length ≤ 3968 then h.secWrite (o.addr + 0x80) o.made o.made.length else h.secEnd 5 0
  | 4 =>
    let which := kegWord b 0
    if 1 < which then h.secEnd 8 0
    else
      let n := Config.certLength which
      h.secWrite (o.addr + 0x40) ((List.range n).map (Config.certByte which)) n
  | 5 =>
    if h.keyWaits 5 then h
    else
      let (h, code) := h.pkeyOp false b
      h.secEnd code 0
  | 6 =>
    if h.keyWaits 6 then h
    else
      let (h, code) := h.pkeyOp true b
      h.secEnd code 0
  | _ => if h.sealUses (kegWord b 0 % 32) then h else (h.emptySlot (kegWord b 0 % 32)).secEnd 0 0

/-- SEC_OP_COMPLETE (R445): the operation running ends. -/
def Hub.secComplete (h : Hub) : Hub :=
  match h.sec.op with
  | none => h
  | some o =>
    match o.block with
    | some b => h.secFinish o b
    | none => h.secRead o.op o.addr

/-- PKEY_SET or PKEY_CLEAR that waited starts as the pitch or the journal store is no longer BUSY (R446)
(assumption 84, DEDUCED). -/
def Hub.keysGo (h : Hub) : Hub :=
  match h.sec.op with
  | some ⟨op, a, none, _⟩ => if (op = 5 ∨ op = 6) ∧ h.keyWaits op = false then h.secRead op a else h
  | _ => h

/-- SEC_COUNTER_CLEAR (R453). -/
def Hub.secClear (h : Hub) : Hub := h.wr A.SEC_TAP_REFUSED 0

/-! ### Turning and the random source (R443, R444) -/

/-- A mask for turning: drawn from the random source, or made by the deterministic generator while the source fails (R444)
(assumption 148, DESIGN CHOICE). -/
def Hub.turnMask (h : Hub) : Hub × List Byte :=
  if h.on R.SEC_STATUS_TRNG_FAIL then
    let made := fun (o n : Nat) => (List.range n).map (fun i => Config.drbgByte h.sec.seed (o + i))
    (h.onSec (fun x => { x with seed := made 32 48 }), made 0 32)
  else h.random 8

/-- What is held masked, under a new mask and without forming it (R443). -/
def remask (held mask new : List Byte) : List Byte := xorBytes (xorBytes held new) mask

/-- KEY_TURN (R443): the next slot's new mask; the owner root secret and the key-encryption key are turned once in every
round. -/
def Hub.keyTurn (h : Hub) : Hub :=
  let s := h.sec.turn
  let h := h.onSec (fun x => { x with turn := (s + 1) % 32 })
  let h : Hub := match KMap.get? h.sec.slots s with
    | some k =>
      let (h, m) := h.turnMask
      h.onSec (fun x => { x with slots := KMap.put x.slots s { k with masked := remask k.masked k.mask m, mask := m } })
    | none => h
  if s = 0 ∧ h.sec.ors ≠ [] then
    let (h, m) := h.turnMask
    let h := h.onSec (fun x => { x with ors := remask x.ors x.orsMask m, orsMask := m })
    let (h, m) := h.turnMask
    h.onSec (fun x => { x with kek := remask x.kek x.kekMask m, kekMask := m })
  else h

/-- TRNG_FAIL (R444): the seed is what the last healthy reseed left, a free value (assumption 148, DESIGN CHOICE). -/
def Hub.trngFail (h : Hub) : Hub :=
  if h.on R.SEC_STATUS_TRNG_FAIL then h
  else
    let (h, seed) := h.random 12
    ((h.onSec (fun x => { x with seed := seed })).put R.SEC_STATUS_TRNG_FAIL 1).log 7 0x02 sevDG 0 0 0

/-- TRNG_RECOVER (R444). -/
def Hub.trngRecover (h : Hub) : Hub := h.put R.SEC_STATUS_TRNG_FAIL 0

/-! ### Service access (R451, R508) -/

/-- SERVICE_OPEN (R451): by JTAG, or by a service accessory at a port. The erasure and the transition take place and the
session is counted; `trst` is a TAP reset during the erasure, after which no access is released (R508)
(assumption 83, DEDUCED). -/
def Hub.serviceOpen (h : Hub) (by_ : Option Port) (trst : Bool) : Hub :=
  let ok := match by_ with
    | none => true
    | some p => h.attach p == 3
  if ok = false ∨ h.on R.SEC_STATUS_SERVICE = true then h
  else
    let lc := h.lifecycle
    let h := if lc = 1 then h.setLifecycle 0 else if lc = 2 then (h.setLifecycle 3).stopAll else h
    let h := (h.eraseOwner.bump R.SEC_SVC_CNT).onSec (fun x => { x with openedAt := some h.root })
    if trst then { h with jtag := .reset } else { h with jtag := { h.jtag with by_ := by_ } }.put R.SEC_STATUS_SERVICE 1

/-- SERVICE_CLOSE (R451). -/
def Hub.serviceClose (h : Hub) : Hub := { h with jtag := { h.jtag with by_ := none } }.put R.SEC_STATUS_SERVICE 0

/-! ### The rows of the table -/

/-- LC_PROVISION (R435). -/
def execLcProvision (key : BitVec 16) (s : State) : Result := s.upd (fun h => h.lcRequest 1 key.toNat)

/-- LC_DEPLOY (R435). -/
def execLcDeploy (key : BitVec 16) (s : State) : Result := s.upd (fun h => h.lcRequest 2 key.toNat)

/-- LC_BLANK (R435). -/
def execLcBlank (key : BitVec 16) (s : State) : Result := s.upd (fun h => h.lcRequest 0 key.toNat)

/-- LC_RETURN (R435). -/
def execLcReturn (key : BitVec 16) (s : State) : Result := s.upd (fun h => h.lcRequest 3 key.toNat)

/-- LC_SCRAP (R435). -/
def execLcScrap (key : BitVec 16) (s : State) : Result := s.upd (fun h => h.lcRequest 4 key.toNat)

/-- SEC_TAP (R440). -/
def execSecTap (s : State) : Result := s.upd (fun h => h.secStart 1)

/-- SEC_IMPORT (R447). -/
def execSecImport (s : State) : Result := s.upd (fun h => h.secStart 2)

/-- SEC_ATTEST (R450). -/
def execSecAttest (s : State) : Result := s.upd (fun h => h.secStart 3)

/-- SEC_CERT (R445). -/
def execSecCert (s : State) : Result := s.upd (fun h => h.secStart 4)

/-- SEC_PKEY_SET (R449). -/
def execSecPkeySet (s : State) : Result := s.upd (fun h => h.secStart 5)

/-- SEC_PKEY_CLEAR (R449). -/
def execSecPkeyClear (s : State) : Result := s.upd (fun h => h.secStart 6)

/-- SEC_SLOT_CLEAR (R442). -/
def execSecSlotClear (s : State) : Result := s.upd (fun h => h.secStart 7)

/-- SEC_OP_RESERVED (R445). -/
def execSecOpReserved (op : BitVec 4) (s : State) : Result := s.upd (fun h => h.secStart op.toNat)

/-- SEC_OP_COMPLETE (R445). -/
def execSecOpComplete (s : State) : Result := s.upd (fun h => h.secComplete)

/-- PITCH_COMPLETE (R209): an operation on program keys that waited for the pitch starts (R446). -/
def execPitchComplete (s : State) : Result := s.upd (fun h => h.pitchComplete.keysGo)

/-- JRN_STORE_DONE (R370): an operation on program keys that waited for the store starts (R446). -/
def execJrnStoreDone (s : State) : Result := s.upd (fun h => h.jrnStoreDone.keysGo)

/-- SEC_COUNTER_CLEAR (R453). -/
def execSecCounterClear (s : State) : Result := s.upd (fun h => h.secClear)

/-- KEY_TURN (R443). -/
def execKeyTurn (s : State) : Result := s.retain (fun h => h.keyTurn)

/-- TRNG_FAIL (R444). -/
def execTrngFail (s : State) : Result := s.upd (fun h => h.trngFail)

/-- TRNG_RECOVER (R444). -/
def execTrngRecover (s : State) : Result := s.upd (fun h => h.trngRecover)

end Sys2Proof.Machine
end

