-- ==== Sys2Proof/Machine/Sleep.lean ====
section
/-! DEFINITION. Steep and the requests of DEV and PWRS (R480–R490): the hub reset's request, a panel image's capture
request, the blocks that refuse Steep, entry, wake events and wake tones. -/

namespace Sys2Proof.Machine

/-- The hub with its power state changed. -/
def Hub.onPw (h : Hub) (f : PowerState → PowerState) : Hub := { h with pw := f h.pw }

/-- DEV_HUB_RESET (R480): a write of DEV_CTRL.HUB_RESET; it counts with the key, from class 0. -/
def Hub.devHubReset (h : Hub) (cls key : Nat) : Hub :=
  if cls = 0 ∧ key = 0x5253 then h.onPw (fun p => { p with reset := true }) else h

/-- The bytes that a capture may need in common memory (R484). -/
abbrev captureRoom : Nat := 229376

/-- IMAGE_CAPTURE (R484): a write of DEV_IMAGE_CTRL.CAPTURE (assumption 95, DESIGN CHOICE). -/
def Hub.imageCapture (h : Hub) : Hub :=
  let a := (h.rd A.DEV_IMAGE_ADDR).toNat
  if h.on R.DEV_IMAGE_CTRL_BUSY = true ∨ a % 64 ≠ 0 ∨ a < 0x300000 ∨ 0x380000 < a + captureRoom then
    h.put R.DEV_IMAGE_CTRL_RESULT 2
  else ((h.put R.DEV_IMAGE_CTRL_BUSY 1).put R.DEV_IMAGE_CTRL_RESULT 0).onPw (fun p => { p with capture := some a })

/-! ### Refusers (R486) -/

/-- A link port is training or in loopback, or its replay buffer holds packets (assumption 96, DEDUCED). -/
def Hub.linkRefuses (h : Hub) (p : Port) : Bool :=
  let st := h.lstate p
  decide (2 ≤ st ∧ st ≤ 9) || st == stResume || decide (stLoopPar ≤ st) || (st == stActive && !h.up p)
    || !(h.links.at p).replay.isEmpty

/-- A PD negotiation, transition or swap is in progress on a cable port. -/
def Hub.cableRefuses (h : Hub) (p : Port) : Bool :=
  let st := h.get (R.CC_STATUS_PD_STATE p.ix)
  st == pdNegotiating || st == pdSwapping || st == pdHardReset || st == pdRecovery
    || (h.cc.at p).wait != .none || (h.cc.at p).pend.isSome

/-- A tun context is LOADING, RUNNING or MOVING, or a pitch is BUSY. -/
def Hub.tunRefuses (h : Hub) : Bool :=
  h.on R.TUNC_PITCH_STATUS_BUSY || (List.range 96).any (fun n =>
    let st := h.get (R.TUNC_CTX_STATUS_STATE n)
    st == cxLoading || st == cxRunning || st == cxMoving)

/-- A packet is queued at a local output (assumption 96, DEDUCED). -/
def Hub.fabRefuses (h : Hub) : Bool :=
  ((List.range 11).any (fun i => !(h.queueKeys (3 + i)).isEmpty)) || h.fab.inbox.any (fun e => !e.2.isEmpty)

/-- The USB hub refuses (R353). -/
def Hub.usbRefuses (h : Hub) : Bool :=
  [0, 1, 2, 3].any (fun p =>
    let st := h.usbState p
    st == upResetting || st == upEnabled || st == upResuming || !(h.usbPort p).splits.isEmpty)

/-- The serial block refuses (R332). -/
def Hub.serRefuses (h : Hub) : Bool :=
  (List.range 8).any (fun c =>
    let x := h.chan c
    !x.fill.isEmpty || !x.closed.isEmpty || !x.tx.isEmpty || decide (h.root < x.charEnd))

/-- Whether a packet is a READ of the head. -/
def Packet.headRead (p : Packet) : Bool := p.kind == 2 && p.src == 0

/-- Reads of the head outstanding here (R379, R398): those at the bridge, those on their way to it, and those whose RESET
completion waits. -/
def Hub.headReads (h : Hub) : Nat :=
  (((KMap.get? h.fab.inbox 3).getD []).filter (fun d => d.pkt.headRead)).length
    + ((h.queue 3 0).items.filter (fun d => (h.pkt? d.pid).any Packet.headRead)).length
    + (match h.fab.wire with | some w => b2n (w.output == 3 && w.pkt.headRead) | none => 0)
    + h.brg.cplq.length

/-- Whether the block of a slot refuses Steep (R486) (assumption 96, DEDUCED). -/
def Hub.refuses (h : Hub) (slot : Nat) : Bool :=
  match slot with
  | 2 => (List.range 8).any (fun n => h.on (R.TIME_EVO_STATUS_ARMED n)) || !h.tm.fifo.isEmpty
  | 5 => !h.brg.tags.isEmpty || decide (0 < h.headReads) || [0, 1, 2, 3].any (fun k => h.on (R.BRG_OUT_STATUS_BUSY k))
  | 7 => h.on R.SEC_OP_STATUS_BUSY
  | 8 => h.on R.COOP_STATUS_SLICE_HELD || Port.all.any (fun p => (h.links.at p).withdrawn.isSome)
  | 9 => h.on R.JRN_STORE_STATUS_BUSY || h.tun.ops.any (fun o => o.kind == .jrec)
  | 10 => h.fabRefuses
  | 12 => h.on R.SCH_STATUS_ARMED
  | 13 => h.tunRefuses
  | 14 => h.linkRefuses .E
  | 15 => h.linkRefuses .W
  | 16 => h.linkRefuses .S
  | 17 => h.cableRefuses .E
  | 18 => h.cableRefuses .W
  | 19 => h.cableRefuses .S
  | 20 => h.get R.LOAD_STATUS_STATE == fuRamp
  | 21 => h.on (R.DSP_CTRL_EN 0)
  | 22 => h.on (R.DSP_CTRL_EN 1)
  | 23 => h.get (R.ETH_CTRL_MODE 0) != 0
  | 24 => h.get (R.ETH_CTRL_MODE 1) != 0
  | 25 => h.get (R.ETH_CTRL_MODE 2) != 0
  | 26 => h.get (R.ETH_CTRL_MODE 3) != 0
  | 28 => h.serRefuses
  | 29 => h.usbRefuses
  | 30 => h.on R.EMMC_STATUS_BUSY
  | _ => false

/-- The lowest slot that refuses. -/
def Hub.refuser (h : Hub) : Option Nat := (List.range 32).find? h.refuses

/-- STEEP_REQUEST (R486, R480 race): a write of PWRS_CTRL.STEEP from class 0 (assumption 96, DEDUCED). -/
def Hub.steepRequest (h : Hub) (cls : Nat) : Hub :=
  if cls ≠ 0 ∨ h.pw.reset = true ∨ h.get R.PWRS_STATUS_STATE = 1 then h
  else match h.refuser with
    | some n => (h.bump R.PWRS_REFUSED).put R.PWRS_STATUS_LAST_REFUSER n
    | none => (h.put R.PWRS_STATUS_STATE 1).onPw (fun p => { p with stp := false, wake := none })

/-! ### Wake (R489, R490) -/

/-- The enabled wake sources as codes less 1: WAKE0–3, CC on E, W, S, tone on E, W, S. -/
def Hub.wakeEnabled (h : Hub) : Nat :=
  h.get R.PINS_WAKE_CTRL_PIN_EN + h.get R.PINS_WAKE_CTRL_CC_EN * 2 ^ 4 + h.get R.PINS_WAKE_CTRL_TONE_EN * 2 ^ 7

/-- The lowest code among the sources of `src` that are enabled. -/
def Hub.wakeCode (h : Hub) (src : Nat) : Option Nat :=
  ((List.range 10).find? (fun i => bit src i && bit h.wakeEnabled i)).map (· + 1)

/-- A port that has sent STP enters RESUME at its stored gear (R53, R490). -/
def Hub.resume (h : Hub) (p : Port) : Hub :=
  ((h.toState p stResume).put (R.LNK_STATUS_GEAR p.ix) (max 1 (h.links.at p).storedGear)).onLink p (fun l =>
    { l with slept := false })

/-- Background periods begin anew (R488). -/
def Hub.periodsAnew (h : Hub) : Hub := h.onCoop (fun c => { c with sliceAt := h.root, cellsAt := h.root })

/-- Clocks and ports after a wake (R490): background periods begin anew (R488), ACQUIRE on a candidate whose L0 runs, the preferred one first, and RESUME at
the stored gear; without one every port of RESUME trains from DETECT_RX (assumption 97, DEDUCED; 134, DESIGN CHOICE). -/
def Hub.wakeUp (h : Hub) (l0 : Nat) : Hub :=
  let h := (h.onPw (fun p => { p with steep := false, stp := false, wake := none })).periodsAnew.wakeLog.goFree
  match h.pickCandidate (fun p => h.candidate p && bit l0 p.ix) with
  | some c =>
    let h := h.clockAcquire c
    Port.all.foldl (fun h p => if (h.links.at p).slept then h.resume p else h) h
  | none => Port.all.foldl (fun h p => if (h.links.at p).slept then h.retrain p else h) h

/-- What wake sources do (R489, R490): the lowest that is enabled wakes a hub in Steep, or aborts its entry; `l0` are the ports
whose partner keeps L0 running (assumption 149, DESIGN CHOICE). -/
def Hub.wakeBy (h : Hub) (src l0 : Nat) : Hub :=
  match h.wakeCode src with
  | none => h
  | some code =>
    let seen := fun (h : Hub) =>
      ((h.put R.PWRS_STATUS_LAST_WAKE code).wr A.PWRS_WAKE_LO (W h.now)).wr A.PWRS_WAKE_HI (W (h.now / 2 ^ 32))
    if h.pw.steep then (seen h).wakeUp l0
    else if h.get R.PWRS_STATUS_STATE = 1 ∧ h.pw.wake = none then
      let h := ((seen h).bump R.PWRS_ABORTED).put R.PWRS_STATUS_ABORTED_LAST 1
      if h.pw.stp then h.onPw (fun p => { p with wake := some l0 }) else h.put R.PWRS_STATUS_STATE 0
    else h

/-- Which WAKE pins are active at their programmed polarity (R489, R493): PIN_POL 0 active low, 1 active high. -/
def Hub.activePins (h : Hub) (levels : Nat) : Nat :=
  ((List.range 4).map (fun k => if bit levels k == bit (h.get R.PINS_WAKE_CTRL_PIN_POL) k then 2 ^ k else 0)).sum

/-- WAKE_EVENT (R489, R490): the filtered levels of the WAKE balls, debounced CC attaches and wake tones on E, W, S, and the
ports whose partner keeps L0 running (assumption 96, DEDUCED; 97, DEDUCED). -/
def Hub.wakeEvent (h : Hub) (levels cc tone l0 : Nat) : Hub :=
  let pins := h.activePins levels
  (h.put R.PINS_WAKE_LEVEL_LEVEL pins).wakeBy (pins + cc % 8 * 2 ^ 4 + tone % 8 * 2 ^ 7) l0

/-- CC_ATTACH and what follows in the core die: in Steep, or entering it, an attach wakes the hub (R489), the ports whose
partner keeps L0 running being a free value; an accessory that reaches ATTACH 3 opens service access (R451)
(assumption 83, DEDUCED; 149, DESIGN CHOICE). -/
def Hub.ccSeen (h : Hub) (p : Port) (cc1 cc2 : CcSense) : Hub :=
  let h' := h.ccAttach p cc1 cc2
  if h'.attach p = h.attach p ∨ h'.pw.rail = true ∨ h'.err.held = true then h'
  else
    let src := 2 ^ (4 + p.ix)
    let h' := if (h'.wakeCode src).isSome && (h'.pw.steep || h'.get R.PWRS_STATUS_STATE == 1) then
        let (w, h') := h'.fresh
        h'.wakeBy src (w.toNat % 8)
      else h'
    if h'.attach p = 3 then h'.serviceOpen (some p) false else h'

/-- STEEP_ENTRY (R487, R488): a port that is UP ends its packet, sends STP and idles, its RESUME due at the wake; without one
left the hub enters retention, and a wake event of the entry wakes it at once (R490 race) (assumption 96, DEDUCED;
134, DESIGN CHOICE) (assumption 96, DEDUCED; 134, DESIGN CHOICE). -/
def Hub.steepEntry (h : Hub) (port : Option Port) : Hub :=
  if h.get R.PWRS_STATUS_STATE ≠ 1 then h
  else match port with
    | some p =>
      if h.up p then
        let lp := h.links.at p
        let g := h.gear p
        let h := (h.workSet p osSTP g 0 0 0).leaveService p stDisabled
        (h.onLink p (fun l => { l with storedGear := g, slept := true, lost := lp.lost || !lp.replay.isEmpty })).onPw
          (fun x => { x with stp := true })
      else h
    | none =>
      if Port.all.any h.up then h
      else
        let h := (h.put R.PWRS_STATUS_STATE 0).bump R.PWRS_STEEP_CNT
        match h.pw.wake with
        | some l0 => h.wakeUp l0
        | none => (h.put R.PWRS_STATUS_ABORTED_LAST 0).onPw (fun x => { x with steep := true, stp := false })

/-- WAKE_TONE_SEND (R489): a write of PWRS_WAKE_TX; each named port in PARTNER_STEEP sends its tone, in FREE none (R111). -/
def Hub.wakeTone (h : Hub) (mask : Nat) : Hub :=
  Port.all.foldl (fun h p => if bit mask p.ix && h.lstate p == stPartnerSteep then h.driveLanes (.tone p) else h) h

/-- PWRS_COUNTER_CLEAR (R492). -/
def Hub.pwrsClear (h : Hub) : Hub := h.clearRange A.PWRS_REFUSED A.PWRS_STEEP_CNT

/-! ### Clock gating (R481) -/

/-- Whether a slot's clocks run for certain at a read of PWRS_GATE (R481): those never gated, PWRS, which is being read, and
those of a block that has work, as its part in R486 shows (assumption 98, DESIGN CHOICE). -/
def Hub.clockRuns (h : Hub) (slot : Nat) : Bool :=
  slot == 2 || slot == 6 || slot == 14 && h.inService .E || slot == 15 && h.inService .W || slot == 16 && h.inService .S
    || h.refuses slot

/-- The slots whose work the state shows whole, so that their clocks stand still where there is none (R481): the display
heads, the Ethernet ports and eMMC (assumption 98, DESIGN CHOICE). -/
def gatedSlots : List Nat := [21, 22, 23, 24, 25, 26, 30]

/-- PWRS_GATE at a read (R481): the clocks that run for certain; those of a block whose state shows that it has no work stand
still, and whether another block has work at that moment is a free value (assumption 98, DESIGN CHOICE). -/
def Hub.gateWord (h : Hub) : Hub × Word :=
  let (w, h) := h.fresh
  let runs := fun (s : Nat) => h.clockRuns s || !gatedSlots.contains s && bit w.toNat s
  (h, W (((List.range 32).map (fun s => b2n (runs s) * 2 ^ s)).sum))

/-! ### The rows of the table -/

/-- DEV_HUB_RESET (R480). -/
def execDevHubReset (cls : Fin 6) (key : BitVec 16) (s : State) : Result :=
  s.upd (fun h => h.devHubReset cls key.toNat)

/-- IMAGE_CAPTURE (R484). -/
def execImageCapture (s : State) : Result := s.upd (fun h => h.imageCapture)

/-- STEEP_REQUEST (R486). -/
def execSteepRequest (cls : Fin 6) (s : State) : Result := s.upd (fun h => h.steepRequest cls)

/-- CC_ATTACH (R401). -/
def execCcAttach (p : Port) (cc1 : CcSense) (cc2 : CcSense) (s : State) : Result := s.hv (fun h => h.ccSeen p cc1 cc2)

/-- STEEP_ENTRY (R487). -/
def execSteepEntry (port : Option Port) (s : State) : Result := s.upd (fun h => h.steepEntry port)

/-- WAKE_EVENT (R490). -/
def execWakeEvent (pins : BitVec 4) (cc : BitVec 3) (tone : BitVec 3) (l0 : BitVec 3) (s : State) : Result :=
  s.retain (fun h => h.wakeEvent pins.toNat cc.toNat tone.toNat l0.toNat)

/-- WAKE_TONE_SEND (R489). -/
def execWakeToneSend (mask : BitVec 3) (s : State) : Result := s.upd (fun h => h.wakeTone mask.toNat)

/-- PWRS_COUNTER_CLEAR (R492). -/
def execPwrsCounterClear (s : State) : Result := s.upd (fun h => h.pwrsClear)

end Sys2Proof.Machine
end

