-- ==== Sys2Proof/Machine/UsbFunction.lean ====
section
/-! DEFINITION. The hub function of the USB hub (R347–R350): its endpoints 0 and 1 and its requests. -/

namespace Sys2Proof.Machine

/-! ### Descriptors (R347, USB 2.0 chapters 9 and 11) -/

/-- The hub function's descriptor of a type; none for a type it has not. Bytes no rule gives are free
(assumption 65, PRESUMED). -/
def usbDescriptor : Nat → Option (List Byte)
  | 1 => some ([18#8, 1#8, 0x00#8, 0x02#8, 9#8, 0#8, 2#8, 64#8] ++ (List.range 9).map (fun i => Config.usbByte 1 (8 + i)) ++ [1#8])
  | 2 => some ([9#8, 2#8, 25#8, 0#8, 1#8, 1#8, 0#8, Config.usbByte 2 7, Config.usbByte 2 8]
      ++ [9#8, 4#8, 0#8, 0#8, 1#8, 9#8, 0#8, 2#8, 0#8] ++ [7#8, 5#8, 0x81#8, 3#8, 1#8, 0#8, Config.usbByte 2 24])
  | 0x29 => some [9#8, 0x29#8, 4#8, 0x09#8, 0#8, 50#8, Config.usbByte 0x29 6, 0#8, 0xFF#8]
  | _ => none

/-! ### SETUP packets -/

/-- The fields of a SETUP: bmRequestType, bRequest, wValue, wIndex, wLength. -/
structure UsbReq where
  typ : Nat
  req : Nat
  value : Nat
  index : Nat
  len : Nat
deriving DecidableEq, Repr

/-- The request spelled by eight bytes. -/
def reqOf (bs : List Byte) : UsbReq :=
  ⟨leNat (bs.take 1), leNat ((bs.drop 1).take 1), leNat ((bs.drop 2).take 2), leNat ((bs.drop 4).take 2),
    leNat ((bs.drop 6).take 2)⟩

/-- The requests that R347 lists, and none of them. -/
inductive UsbKind where
  | getDescriptor | setConfiguration | getStatus | getHubStatus | getPortStatus | setPortFeature | clearPortFeature
  | clearTtBuffer | resetTt | unsupported
deriving DecidableEq, Repr

/-- The port a hub-class request names in wIndex (1 to 4); none otherwise. -/
def UsbReq.port (r : UsbReq) : Option Nat := if 1 ≤ r.index % 256 ∧ r.index % 256 ≤ 4 then some (r.index % 256 - 1) else none

/-- Whether a request is a port reset that names the hub function, port 0 (R350) (assumption 127, DEDUCED). -/
def UsbReq.resetsHub (r : UsbReq) : Bool := r.typ == 0x23 && r.req == 3 && r.value == 4 && r.index % 256 == 0

/-- The request's kind (R347, R348). Port features: 1 ENABLE, 2 SUSPEND, 4 RESET, 8 POWER, 16 to 20 the C_ bits. -/
def UsbReq.kind (r : UsbReq) : UsbKind :=
  if (r.typ = 0x80 ∨ r.typ = 0xA0) ∧ r.req = 6 ∧ (usbDescriptor (r.value / 256)).isSome then .getDescriptor
  else if r.typ = 0 ∧ r.req = 9 ∧ r.value = 1 then .setConfiguration
  else if (r.typ = 0x80 ∨ r.typ = 0x81 ∨ r.typ = 0x82) ∧ r.req = 0 then .getStatus
  else if r.typ = 0xA0 ∧ r.req = 0 then .getHubStatus
  else if r.typ = 0xA3 ∧ r.req = 0 ∧ r.port.isSome then .getPortStatus
  else if r.resetsHub = true ∨ (r.typ = 0x23 ∧ r.req = 3 ∧ r.port.isSome ∧ (r.value = 2 ∨ r.value = 4 ∨ r.value = 8)) then
    .setPortFeature
  else if r.typ = 0x23 ∧ r.req = 1 ∧ r.port.isSome ∧ (r.value = 1 ∨ r.value = 2 ∨ r.value = 8 ∨ (16 ≤ r.value ∧ r.value ≤ 20)) then
    .clearPortFeature
  else if r.typ = 0x23 ∧ r.req = 8 ∧ r.port.isSome then .clearTtBuffer
  else if r.typ = 0x23 ∧ r.req = 9 ∧ r.port.isSome then .resetTt
  else .unsupported

/-! ### Endpoints (R348–R350) -/

/-- A split to the hub function, accepted and finished at once. -/
def Hub.usbOwn (h : Hub) (p : Nat) (r : UsbRec) (v : UsbRes) : Hub :=
  let h := h.usbAccept p 0 r none
  match (h.usbPort p).split? 0 r.handle with
  | some s => h.usbFinish p s v
  | none => h

/-- A SETUP waits for its request to be served (R350): it starts a new transfer whatever the state of endpoint 0. -/
def Hub.usbSetup (h : Hub) (p : Nat) (r : UsbRec) : Hub :=
  let h := ([0, 1, 2, 3].foldl Hub.usbSetupEnd h).usbAccept p 0 r none
  { h with usb := { h.usb with setup := some (p, r.data), data0 := [], pid0 := true, stall := false } }

/-- IN and OUT at endpoint 0: NAK while a SETUP waits, STALL after a protocol stall, up to 64 bytes of the data stage. -/
def Hub.usbEp0 (h : Hub) (p : Nat) (r : UsbRec) : Hub :=
  if h.usb.setup.isSome then h.usbOwn p r (bare 1)
  else if h.usb.stall then h.usbOwn p r (bare 2)
  else if r.token = 2 then
    let n := min 64 r.bytes
    let h' := h.usbOwn p r ⟨0, h.usb.pid0, h.usb.data0.take n⟩
    { h' with usb := { h'.usb with data0 := h.usb.data0.drop n, pid0 := !h.usb.pid0 } }
  else h.usbOwn p r (bare 0)

/-- IN at endpoint 1 (R349): the oldest report, or NAK at once. -/
def Hub.usbEp1 (h : Hub) (p : Nat) (r : UsbRec) : Hub :=
  match h.usb.reports with
  | v :: rest =>
    let h' := h.usbOwn p r ⟨0, h.usb.pid1, [BitVec.ofNat 8 v].take r.bytes⟩
    { h' with usb := { h'.usb with reports := rest, pid1 := !h.usb.pid1 } }
  | [] => h.usbOwn p r (bare 1)

/-- A split to the hub function: endpoint 0 and the status-change endpoint; it has no other. A periodic one keeps the
limits of R341 too (assumption 127, DEDUCED). -/
def Hub.usbFunction (h : Hub) (p : Nat) (r : UsbRec) : Hub :=
  if r.typ = 3 ∧ h.usbAhead r = false then h.usbOwn p r (bare 5)
  else if r.ep = 0 ∧ r.typ = 0 then if r.token = 0 then h.usbSetup p r else h.usbEp0 p r
  else if r.ep = 1 ∧ r.typ = 3 ∧ r.token = 2 then h.usbEp1 p r
  else h.usbOwn p r (bare 2)

/-- USB_SSPLIT (R341, R342, R344): the next record at an instance, when it is a start-split or malformed. -/
def Hub.usbSsplit (h : Hub) (p k : Nat) : Hub :=
  match h.usbTake p k 0 with
  | (h, none) => h
  | (h, some r) =>
    if h.usbHalts p k r then h.usbHalted p k r
    else if r.hub then h.usbFunction p r
    else h.usbAccept p k r (h.usbAtOnce p r)

/-! ### Requests (R347, R348) -/

/-- A SETUP that waits is served: the effect, and the data stage it leaves (assumption 64, DEDUCED). -/
def Hub.usbServe (h : Hub) (kind : UsbKind) (f : Hub → UsbReq → Hub × List Byte) : Hub :=
  match (if h.usbStopped then none else h.usb.setup) with
  | none => h
  | some (p, bs) =>
    let r := reqOf bs
    if r.kind = kind then
      let (h, data) := f { h with usb := { h.usb with setup := none } } r
      let h := { h with usb := { h.usb with data0 := data.take r.len } }
      match (h.usbPort p).splits.find? (fun s => s.k == 0 && s.rec_.hub && s.rec_.token == 0 && s.res == none) with
      | some s => h.usbFinish p s (bare 0)
      | none => h
    else h

/-- USB_GET_DESCRIPTOR. -/
def Hub.usbGetDescriptor (h : Hub) : Hub :=
  h.usbServe .getDescriptor (fun h r => (h, (usbDescriptor (r.value / 256)).getD []))

/-- USB_SET_CONFIGURATION. -/
def Hub.usbSetConfiguration (h : Hub) : Hub :=
  h.usbServe .setConfiguration (fun h r => ({ h with usb := { h.usb with config := r.value } }, []))

/-- USB_GET_STATUS: self-powered device, no halted endpoint (assumption 65, PRESUMED). -/
def Hub.usbGetStatus (h : Hub) : Hub :=
  h.usbServe .getStatus (fun h r => (h, if r.typ = 0x80 then [1#8, 0#8] else [0#8, 0#8]))

/-- wHubStatus and wHubChange (R347): local power good; the over-current of any port's USBH_PORT_STATUS, and its change
(assumption 127, DEDUCED). -/
def Hub.hubStatusBytes (h : Hub) : List Byte :=
  leBytes 2 (b2n (h.usbAny R.USBH_PORT_STATUS_OC) * 2) ++ leBytes 2 (b2n (h.usbAny R.USBH_PORT_STATUS_C_OVERCURRENT) * 2)

/-- USB_GET_HUB_STATUS. -/
def Hub.usbGetHubStatus (h : Hub) : Hub := h.usbServe .getHubStatus (fun h _ => (h, h.hubStatusBytes))

/-- wPortStatus and wPortChange of a port. -/
def Hub.portStatusBytes (h : Hub) (p : Nat) : List Byte :=
  let st := h.usbState p
  let sp := h.usbSpeed p
  let s := h.get (R.USBH_PORT_STATUS_CONNECT p) + b2n (st == upEnabled || st == upSuspended || st == upResuming) * 2
    + b2n (st == upSuspended || st == upResuming) * 4 + h.get (R.USBH_PORT_STATUS_OC p) * 8 + b2n (st == upResetting) * 16
    + b2n (h.usbPort p).vbus * 256 + b2n (sp == 1) * 512 + b2n (sp == 2) * 1024
  leBytes 2 s ++ leBytes 2 (slice (h.rd (A.USBH_PORT_STATUS p)).toNat 8 5)

/-- USB_GET_PORT_STATUS. -/
def Hub.usbGetPortStatus (h : Hub) : Hub :=
  h.usbServe .getPortStatus (fun h r => (h, h.portStatusBytes (r.port.getD 0)))

/-- USB_HUB_FUNCTION_RESET (R350). -/
def Hub.usbFunctionReset (h : Hub) : Hub :=
  let h := [0, 1, 2, 3].foldl (fun h p => h.usbReset p (fun s => s.rec_.hub)) h
  { h with usb := { h.usb with setup := none, data0 := [], pid0 := true, stall := false } }

/-- USB_SET_PORT_FEATURE: the effect of USBH_PORT_CTRL (R343), or a reset of the hub function (R350). -/
def Hub.usbSetPortFeature (h : Hub) : Hub :=
  h.usbServe .setPortFeature (fun h r =>
    let p := r.port.getD 0
    (if r.resetsHub then h.usbFunctionReset
     else if r.value = 8 then h.unlessHeld (fun h => h.usbPowerOn p)
     else if r.value = 4 then h.usbPortReset p else h.usbSuspend p, []))

/-- USB_CLEAR_PORT_FEATURE. -/
def Hub.usbClearPortFeature (h : Hub) : Hub :=
  h.usbServe .clearPortFeature (fun h r =>
    let p := r.port.getD 0
    (if r.value = 8 then h.usbPowerOff p else if r.value = 1 then h.usbDisable p else if r.value = 2 then h.usbResume p
     else h.put ⟨A.USBH_PORT_STATUS p, 8 + (r.value - 16), 1⟩ 0, []))

/-- The named port's unfinished non-periodic splits end with RESET. -/
def Hub.usbEndTt (h : Hub) (r : UsbReq) : Hub × List Byte :=
  (h.usbReset (r.port.getD 0) (fun s => !s.rec_.hub && (s.rec_.typ == 0 || s.rec_.typ == 2)), [])

/-- USB_CLEAR_TT_BUFFER. -/
def Hub.usbClearTt (h : Hub) : Hub := h.usbServe .clearTtBuffer (fun h r => h.usbEndTt r)

/-- USB_RESET_TT. -/
def Hub.usbResetTt (h : Hub) : Hub := h.usbServe .resetTt (fun h r => h.usbEndTt r)

/-- USB_UNSUPPORTED_REQUEST (R348): a protocol stall until the next SETUP. -/
def Hub.usbUnsupported (h : Hub) : Hub :=
  h.usbServe .unsupported (fun h _ => ({ h with usb := { h.usb with stall := true } }, []))

/-! ### The rows of the table -/

/-- USB_SSPLIT (R342). -/
def execUsbSsplit (p : Fin 4) (k : Fin 3) (s : State) : Result := s.upd (fun h => h.usbSsplit p k)

/-- USB_HUB_FUNCTION_RESET (R350). -/
def execUsbHubFunctionReset (s : State) : Result := s.upd (fun h => h.usbFunctionReset)

/-- USB_GET_DESCRIPTOR (R347). -/
def execUsbGetDescriptor (s : State) : Result := s.upd (fun h => h.usbGetDescriptor)

/-- USB_SET_CONFIGURATION (R347). -/
def execUsbSetConfiguration (s : State) : Result := s.upd (fun h => h.usbSetConfiguration)

/-- USB_GET_STATUS (R347). -/
def execUsbGetStatus (s : State) : Result := s.upd (fun h => h.usbGetStatus)

/-- USB_GET_HUB_STATUS (R347). -/
def execUsbGetHubStatus (s : State) : Result := s.upd (fun h => h.usbGetHubStatus)

/-- USB_GET_PORT_STATUS (R347). -/
def execUsbGetPortStatus (s : State) : Result := s.upd (fun h => h.usbGetPortStatus)

/-- USB_SET_PORT_FEATURE (R347). -/
def execUsbSetPortFeature (s : State) : Result := s.upd (fun h => h.usbSetPortFeature)

/-- USB_CLEAR_PORT_FEATURE (R347). -/
def execUsbClearPortFeature (s : State) : Result := s.upd (fun h => h.usbClearPortFeature)

/-- USB_CLEAR_TT_BUFFER (R347). -/
def execUsbClearTtBuffer (s : State) : Result := s.upd (fun h => h.usbClearTt)

/-- USB_RESET_TT (R347). -/
def execUsbResetTt (s : State) : Result := s.upd (fun h => h.usbResetTt)

/-- USB_UNSUPPORTED_REQUEST (R348). -/
def execUsbUnsupportedRequest (s : State) : Result := s.upd (fun h => h.usbUnsupported)

end Sys2Proof.Machine
end

