-- ==== Sys2Proof/Machine/RegAccess.lean ====
section
/-! DEFINITION. Register reads and writes (R10–R13, R511): a write applies the bytes its byte enables select, field by
field, and acts where a field's rule says so; a read returns the live value, and a *_LO read latches its partners. -/

namespace Sys2Proof.Machine

/-- A write that has reached a register: its offset in the slot, the word, the byte enables, the bits written in enabled
bytes (`on`: what W1P and WO fields see), and the register's word with the enabled bytes replaced (`new`). -/
structure RegWrite where
  a : Nat
  off : Nat
  v : Word
  be : Nat
  on : Nat
  new : Nat

/-- The write of a word at an internal address. -/
def Hub.regWrite (h : Hub) (a : Nat) (v : Word) (be : Nat) : RegWrite :=
  { a := a, off := a % 0x4000, v := v, be := be, on := mergeBytes 0 v.toNat be,
    new := mergeBytes (h.rd a).toNat v.toNat be }

/-- The write as a plain register write. -/
def Hub.plainW (h : Hub) (w : RegWrite) : Hub := h.plain w.a w.v w.be

/-- A plain write that leaves the listed fields to their own rules. -/
def Hub.plainBut (h : Hub) (w : RegWrite) (fs : List RF) : Hub :=
  fs.foldl (fun h' f => h'.put f (h.get f)) (h.plainW w)

/-- What follows when a condition holds. -/
def Hub.when (h : Hub) (c : Bool) (f : Hub → Hub) : Hub := if c then f h else h

/-! ### Writes, slot by slot -/

/-- DEV (R491). -/
def Hub.writeDev (h : Hub) (cls : Nat) (w : RegWrite) : Hub :=
  if w.off = 0x10 then h.when (bit w.on 0) (fun h => h.devHubReset cls (slice w.on 16 16))
  else if w.off = 0x20 then h.when (bit w.on 0) Hub.imageCapture
  else h.plainW w

/-- CLK (R140). -/
def Hub.writeClk (h : Hub) (w : RegWrite) : Hub :=
  if w.off = 0 then (h.plainW w).refreshQuality
  else if w.off = 0x24 then h.when (bit w.on 0) Hub.clkClear
  else h.plainW w

/-- A write of TIME_EVO_CTRL (R137, R138, R142): nothing but TUN_OWN while TUN_OWN is 1; a write that clears it stops the
output and goes on with the other fields; a write that sets it changes nothing else. -/
def Hub.evoCtrl (h : Hub) (n : Nat) (w : RegWrite) : Hub :=
  let own := h.on (R.TIME_EVO_CTRL_TUN_OWN n)
  if bit w.new 5 then (if own then h else h.put (R.TIME_EVO_CTRL_TUN_OWN n) 1)
  else
    let h := h.when own (fun h => h.evoStop n true)
    let h := (h.plainBut w [R.TIME_EVO_CTRL_POLARITY n]).evoPolarity n (bit w.new 2)
    let h := h.when (bit w.be 0 && slice w.new 0 2 == 0) (fun h => h.evoHalt n)
    (h.when (bit w.on 3) (fun h => h.evoArm n)).evoRefresh n

/-- TIME (R141). -/
def Hub.writeTime (h : Hub) (w : RegWrite) : Hub :=
  if w.off = 0 then (h.plainW w).when (bit w.on 1) Hub.calNow
  else if w.off = 0x30 then (h.when (bit w.on 0) Hub.timeClearMarkers).when (bit w.on 1) Hub.timeClearEvents
  else if w.off = 0x50 then h.when (bit w.on 0) Hub.eviPop
  else if 0x100 ≤ w.off ∧ w.off < 0x200 then
    let n := (w.off - 0x100) / 32
    if w.off % 32 = 0 then h.evoCtrl n w
    else if w.off % 32 < 0x18 ∧ h.on (R.TIME_EVO_CTRL_TUN_OWN n) = true then h
    else h.plainW w
  else h.plainW w

/-- ERR (R460–R462). -/
def Hub.writeErr (h : Hub) (cls : Nat) (w : RegWrite) : Hub :=
  if w.off = 0xC then h.errAck (w.new % 65536)
  else if w.off = 0x30 then h.when (bit w.on 0 && cls == 0) (fun h => h.errInject (slice w.on 1 2) (slice w.on 16 16))
  else if w.off = 0x34 then h.when (bit w.on 0) Hub.errClear
  else h.plainW w

/-- ACC (R395–R397). -/
def Hub.writeAcc (h : Hub) (w : RegWrite) : Hub :=
  if w.off = 0 then (if bit w.new 0 then h.accEnable.heldResume else h.accDisable)
  else if w.off = 0x18 then h.when (bit w.on 0) Hub.accClear
  else if 0x100 ≤ w.off ∧ w.off < 0x300 then h.accEntryWrite ((w.off - 0x100) / 4) w.new
  else h.plainW w

/-- BRG (R387). -/
def Hub.writeBrg (h : Hub) (w : RegWrite) : Hub :=
  if w.off = 0x24 then h.when (bit w.on 0) Hub.brgClear
  else if 0x100 ≤ w.off ∧ w.off < 0x140 ∧ w.off % 16 = 8 ∧ bit w.on 31 = true then
    h.outboundStart ((w.off - 0x100) / 16) (slice w.new 0 21) (bit w.new 24)
  else h.plainW w

/-- PWRS (R492). -/
def Hub.writePwrs (h : Hub) (cls : Nat) (w : RegWrite) : Hub :=
  if w.off = 0 then h.when (bit w.on 0) (fun h => h.steepRequest cls)
  else if w.off = 0x1C then h.wakeTone (w.on % 8)
  else if w.off = 0x24 then h.when (bit w.on 0) Hub.pwrsClear
  else h.plainW w

/-- SEC (R445): SEC_LC_REQ and SEC_OP_CTRL take writes from class 0 only. -/
def Hub.writeSec (h : Hub) (cls : Nat) (w : RegWrite) : Hub :=
  if w.off = 4 ∧ cls = 0 then
    if bit w.on 3 then h.lcRequest (slice w.new 0 3) (slice w.on 16 16) else h.plainW w
  else if w.off = 0xC ∧ cls = 0 then
    if bit w.on 31 then h.secStart (slice w.new 0 4) else h.plainW w
  else if w.off = 4 ∨ w.off = 0xC then h
  else if w.off = 0x20 then h.when (bit w.on 0) Hub.secClear
  else h.plainW w

/-- COOP (R471). -/
def Hub.writeCoop (h : Hub) (w : RegWrite) : Hub :=
  if w.off = 0x24 then h.when (bit w.on 0) Hub.coopClear else h.plainW w

/-- JRN_PROT_LIMIT: LIMIT and LOCK are fixed once LOCK is 1; LIMIT takes up to 16,384. -/
def Hub.protLimit (h : Hub) (v : Nat) : Hub :=
  if h.on R.JRN_PROT_LIMIT_LOCK then h
  else
    let h := if slice v 0 15 ≤ 16384 then h.put R.JRN_PROT_LIMIT_LIMIT (slice v 0 15) else h
    h.put R.JRN_PROT_LIMIT_LOCK (slice v 15 1)

/-- JRN (R371). -/
def Hub.writeJrn (h : Hub) (w : RegWrite) : Hub :=
  if w.off = 0xC then h.protLimit w.new
  else if w.off = 0x10 then (h.plainW w).when (bit w.on 16) (fun h => h.jrnUnprotect (slice w.new 0 16))
  else if w.off = 0x18 ∧ bit w.on 31 = true then
    let h := h.plainW w
    if bit w.new 5 then h.jrnErase (slice w.new 0 5) else h.jrnStore (slice w.new 0 5) (slice w.new 8 7) (bit w.new 6)
  else if w.off = 0x34 then h.when (bit w.on 0) Hub.jrnClear
  else h.plainW w

/-- FAB (R166). -/
def Hub.writeFab (h : Hub) (w : RegWrite) : Hub :=
  if w.off = 0x1C ∧ bit w.on 18 = true then h.queueDump (slice w.new 14 4) (slice w.new 0 14)
  else if w.off = 0x20 then (h.plainW w).when (bit w.on 14) (fun h => h.spargeGo (slice w.new 0 14))
  else if w.off = 0x38 then h.when (bit w.on 0) Hub.fabClear
  else h.plainW w

/-- POL (R167). -/
def Hub.writePol (h : Hub) (w : RegWrite) : Hub :=
  if w.off = 0 then h.when (bit w.on 0) Hub.polClear
  else if 0x100 ≤ w.off ∧ w.off < 0xD00 ∧ w.off % 32 ≤ 8 then h.polWrite ((w.off - 0x100) / 32) (w.off % 32 / 4) w.new
  else h.plainW w

/-- SCH (R189) (assumption 140, DESIGN CHOICE). -/
def Hub.writeSch (h : Hub) (w : RegWrite) : Hub :=
  -- ARM acts before DISARM where one write holds both
  if w.off = 0 then ((h.plainW w).when (bit w.on 1) Hub.schArm).when (bit w.on 2) Hub.schDisarm
  else if w.off = 0x14 then (if h.on R.SCH_STATUS_ARMED then h else h.plainW w)
  else if w.off = 0x18 then (h.eachSched Hub.refill).plainW w
  else if w.off = 0x34 then h.when (bit w.on 0) Hub.schClear
  else if 0x1000 ≤ w.off ∧ w.off < 0x2000 then
    h.grantWrite ((w.off - 0x1000) / 1024) (w.off / 512 % 2) (w.off / 4 % 128) (W w.new)
  else h.plainW w

/-- TUNC (R222). -/
def Hub.writeTunc (h : Hub) (w : RegWrite) : Hub :=
  if w.off = 8 ∧ bit w.on 4 = true then h.tuncForce (slice w.new 0 4)
  else if w.off = 0x14 ∧ bit w.on 31 = true then h.pitch (slice w.new 0 7) (bit w.new 7)
  else if w.off = 0x20 ∧ bit w.on 7 = true then h.contextStop (slice w.new 0 7)
  else if w.off = 0x24 then h.when (bit w.on 7) (fun h => h.doorbell (slice w.on 0 7))
  else if 0x100 ≤ w.off ∧ w.off < 0x1900 ∧ w.off % 64 = 0 then
    let n := (w.off - 0x100) / 64
    if bit w.on 31 then h.bindRequest n (slice w.new 0 18) else h.bindFields n (slice w.new 0 18)
  else h.plainW w

/-- LNK_CTRL (R53, R58, R59): a non-zero LOOPBACK takes the port to that loopback unless it is in it. -/
def Hub.lnkCtrl (h : Hub) (p : Port) (w : RegWrite) : Hub :=
  let was := h.on (R.LNK_CTRL_ENABLE p.ix)
  let h := h.plainBut w [R.LNK_CTRL_ENABLE p.ix, R.LNK_CTRL_LOOPBACK p.ix]
  let h := if bit w.new 0 == was then h else if was then h.linkDisable p else h.linkEnable p
  let h := if bit w.be 1 then match slice w.new 12 3 with
    | 0 => h.when (h.get (R.LNK_CTRL_LOOPBACK p.ix) != 0) (fun h => h.loopEnd p)
    | 1 => h.when (h.loopNow p != 1) (fun h => h.loopNear p false)
    | 2 => h.when (h.loopNow p != 2) (fun h => h.loopNear p true)
    | 3 => h.when (h.loopNow p != 3) (fun h => h.loopFar p)
    | _ => h
    else h
  h.when (bit w.on 8) (fun h => h.linkRetrain p)

/-- LNKE_PATTERN (R58, R68): a new selection or start begins the pattern anew. -/
def Hub.lnkPattern (h : Hub) (p : Port) (w : RegWrite) : Hub :=
  let was := h.rd w.a
  let h := h.plainW w
  h.when (h.rd w.a != was) (fun h => h.seedPattern p)

/-- LNK_LOWPWR (R63, R68): at an open end LULL_EN acts at once. -/
def Hub.lnkLowPower (h : Hub) (p : Port) (w : RegWrite) : Hub :=
  let was := h.on (R.LNK_LOWPWR_LULL_EN p.ix)
  let h := h.plainW w
  h.when (h.on (R.LNK_LOWPWR_LULL_EN p.ix) != was) (fun h => h.lullWritten p)

/-- LNK (R68, R103). -/
def Hub.writeLnk (h : Hub) (p : Port) (w : RegWrite) : Hub :=
  if w.off = 0 then h.lnkCtrl p w
  else if w.off = 0x18 then
    ((h.plainW w).when (bit w.on 3) (fun h => h.withdrawRequest p (slice w.new 0 3))).when (bit w.on 4)
      (fun h => h.withdrawReturn p)
  else if w.off = 0x1C then h.lnkPattern p w
  else if w.a = A.LNK_LOWPWR p.ix then h.lnkLowPower p w
  else if w.off = 0x58 then
    ((h.when (bit w.on 0) (fun h => h.clearLaneCounters p)).when (bit w.on 1) (fun h => h.clearPacketCounters p)).when
      (bit w.on 2) Hub.clearWindowCounters
  else if 0x400 ≤ w.off ∧ w.off < 0x600 then h.routeEntryWrite ((w.off - 0x400) / 4) (W w.new)
  else h.plainW w

/-- CC (R418): HARD_RESET wins over PR_SWAP (R412) (assumption 74, DESIGN CHOICE). -/
def Hub.writeCc (h : Hub) (p : Port) (w : RegWrite) : Hub :=
  if w.off = 0 then
    let en := h.on (R.CC_CTRL_EN p.ix)
    let role := h.get (R.CC_CTRL_ROLE p.ix)
    let h := h.plainW w
    let en' := h.on (R.CC_CTRL_EN p.ix)
    let h := h.when (en && !en') (fun h => h.ccDisable p)
    let h := h.when (!en && en' && h.attach p == 2 && h.pdState p != pdLatched) (fun h => h.startSink p)
    let h := h.when (en != en' || role != h.get (R.CC_CTRL_ROLE p.ix)) (fun h => h.ccPresent p)
    let h := h.when (!h.on (R.CC_CTRL_VCONN_EN p.ix)) (fun h => h.put (R.CC_STATUS_VCONN_ON p.ix) 0)
    let h := if bit w.on 5 then h.cceHardReset p else h.when (bit w.on 4) (fun h => h.prSwap p)
    h.when (bit w.on 6) (fun h => h.faultClear p)
  else if w.off = 0xC then h.ccConfig p false (slice w.new 0 3) (slice w.new 8 4)
  else if w.off = 0x10 then h.ccConfig p true (slice w.new 0 3) (slice w.new 8 4)
  else if w.off = 0x44 then h.when (bit w.on 0) (fun h => h.ccClear p)
  else h.plainW w

/-- LOAD_CTRL (R421, R423, R430). -/
def Hub.loadCtrl (h : Hub) (w : RegWrite) : Hub :=
  let en := h.on R.LOAD_CTRL_EN
  let loc := h.on R.LOAD_CTRL_LOCAL_EN
  let ign := h.on R.LOAD_CTRL_PRES_IGNORE
  let h := h.plainBut w [R.LOAD_CTRL_EN, R.LOAD_CTRL_LOCAL_EN]
  let h := h.when (bit w.new 0 != en) (fun h => h.loadEnWrite (bit w.new 0))
  let h := h.when (bit w.new 4 != loc) (fun h => h.loadLocalEn (bit w.new 4))
  let h := h.when (bit w.new 3 && !ign) Hub.fuseGo
  let h := h.when (!bit w.new 3 && ign && !h.on R.LOAD_STATUS_PRESENT) Hub.fuseBack
  h.when (bit w.on 5) Hub.loadFaultClear

/-- LOAD (R432): a write that breaks a pairing rule is ignored, and UV waits for the next RAMP while in RAMP
(assumption 81, DESIGN CHOICE). -/
def Hub.writeLoad (h : Hub) (w : RegWrite) : Hub :=
  if w.off = 0 then h.loadCtrl w
  else if w.off = 0xC then
    let h' := h.plainW w
    if h'.get R.LOAD_WINDOW_OV < h'.get R.LOAD_WINDOW_UV + 20 then h else h'.when (h'.fuse != fuRamp) Hub.takeUv
  else if w.off = 0x3C then h.when (bit w.on 0) Hub.loadClear
  else if 0x100 ≤ w.off ∧ w.off < 0x150 ∧ w.off % 16 = 4 then
    let h' := h.plainW w
    if slice (h'.rd w.a).toNat 0 8 < slice (h'.rd w.a).toNat 8 8 + 10 then h else h'
  else h.plainW w

/-- DSP_CTRL (R291, R292, R300): while EN is 1 a write takes EN and FB_FORCE only (assumption 58, DEDUCED). -/
def Hub.dspCtrl (h : Hub) (d : Nat) (w : RegWrite) : Hub :=
  if h.on (R.DSP_CTRL_EN d) then
    (h.put (R.DSP_CTRL_FB_FORCE d) (slice w.new 20 1)).when (!bit w.new 0) (fun h => h.displayDisable d)
  else (h.plainBut w [R.DSP_CTRL_EN d]).when (bit w.new 0) (fun h => h.displayEnable d)

/-- DSP (R303): the timing registers are fixed while EN is 1 (R291). -/
def Hub.writeDsp (h : Hub) (d : Nat) (w : RegWrite) : Hub :=
  if w.off = 0 then h.dspCtrl d w
  else if 0x10 ≤ w.off ∧ w.off < 0x20 ∧ h.on (R.DSP_CTRL_EN d) = true then h
  else if w.off = 0x40 then h.when (bit w.on 0) (fun h => h.dspClear d)
  else h.plainW w

/-- ETH (R313). -/
def Hub.writeEth (h : Hub) (x : Nat) (w : RegWrite) : Hub :=
  if w.off = 0 then
    let h := (h.plainBut w [R.ETH_CTRL_MODE x, R.ETH_CTRL_AN_EN x]).ethShow x (h.ethOut x)
    (h.ethModeChange x (slice w.new 0 2) (bit w.new 4)).when (bit w.on 5) (fun h => h.ethRestart x)
  else if w.off = 0x74 then h.when (bit w.on 0) (fun h => h.ethClear x)
  else h.plainW w

/-- PTP (R320). -/
def Hub.writePtp (h : Hub) (w : RegWrite) : Hub :=
  if w.off = 0 then (h.plainW w).when (bit w.on 2) (fun h => h.ptpApply false)
  else if w.off = 0x80 then h.when (bit w.on 0) Hub.ptpClear
  else h.plainW w

/-- SER (R333): EN 0 empties a channel's banks; LOW stays below HIGH (R327) (assumption 62, DEDUCED). -/
def Hub.writeSer (h : Hub) (w : RegWrite) : Hub :=
  let c := (w.off - 0x100) / 64
  if w.off = 0 then h.when (bit w.on 0) Hub.serClear
  else if 0x100 ≤ w.off ∧ w.off < 0x300 then
    if w.off % 64 = 0 then
      let was := h.rs485 c
      let h := h.plainW w
      let x := h.chan c
      if !h.on (R.SER_CFG_EN c) then h.serStop c
      else if h.rs485 c = was then h.setChan c x
      else h.setChan c { x with rts := false }
    else if w.off % 64 = 0xC then
      let h' := h.plainW w
      if h'.get (R.SER_WMARK_HIGH c) ≤ h'.get (R.SER_WMARK_LOW c) then h else h'.setChan c (h'.chan c)
    else if w.off % 64 = 0x1C then
      (h.when (bit w.on 0) (fun h => h.serDumpRx c)).when (bit w.on 1) (fun h => h.serDumpTx c)
    else h.plainW w
  else h.plainW w

/-- USBH_CTRL (R350–R352). -/
def Hub.usbCtrl (h : Hub) (w : RegWrite) : Hub :=
  let h := h.plainBut w [R.USBH_CTRL_EN, R.USBH_CTRL_SOF_EN]
  let h := if bit w.new 0 then h.put R.USBH_CTRL_EN 1 else h.when (h.on R.USBH_CTRL_EN) Hub.usbHubDisable
  let h := if bit w.new 1 then h.usbSofEnable else h.when (h.on R.USBH_CTRL_SOF_EN) Hub.usbSofDisable
  h.when (bit w.on 2) Hub.usbFunctionReset

/-- USBH_PORT_CTRL (R343): one action a write (assumption 64, DEDUCED). -/
def Hub.usbPortCtrl (h : Hub) (p on : Nat) : Hub :=
  match on % 64 with
  | 1 => h.unlessHeld (fun h => h.usbPowerOn p)
  | 2 => h.usbPowerOff p
  | 4 => h.usbPortReset p
  | 8 => h.usbDisable p
  | 16 => h.usbSuspend p
  | 32 => h.usbResume p
  | _ => h

/-- USBH (R354): BASE is fixed while SOF_EN is 1 (assumption 64, DEDUCED). -/
def Hub.writeUsb (h : Hub) (w : RegWrite) : Hub :=
  if w.off = 0 then h.usbCtrl w
  else if 0xC ≤ w.off ∧ w.off < 0x18 ∧ h.on R.USBH_CTRL_SOF_EN = true then h
  else if w.off = 0x20 then h.when (bit w.on 0) Hub.usbClear
  else if 0x100 ≤ w.off ∧ w.off < 0x200 ∧ w.off % 64 = 0 then h.usbPortCtrl ((w.off - 0x100) / 64) w.on
  else h.plainW w

/-- EMMC (R371). -/
def Hub.writeEmmc (h : Hub) (w : RegWrite) : Hub :=
  if w.off = 8 then (h.plainW w).when (bit w.on 31) (fun h => h.unlessHeld Hub.emmcGo)
  else if w.off = 0x38 then h.when (bit w.on 0) Hub.emmcClear
  else h.plainW w

/-- The address a link slot's offset reaches: the shared registers of 0x200–0x5FF stand in slot 14 (R103). -/
def linkAlias (a : Nat) : Nat :=
  if 0x3C000 ≤ a ∧ a < 0x44000 ∧ 0x200 ≤ a % 0x4000 ∧ a % 0x4000 < 0x600 then 0x38000 + a % 0x4000 else a

/-- A register write by an initiator of class `cls` (R10–R13). -/
def Hub.writeReg (h : Hub) (cls a : Nat) (v : Word) (be : Nat) : Hub :=
  let w := h.regWrite (linkAlias a) v be
  match w.a / 0x4000 with
  | 0 => h.writeDev cls w
  | 1 => h.writeClk w
  | 2 => h.writeTime w
  | 3 => h.writeErr cls w
  | 4 => h.writeAcc w
  | 5 => h.writeBrg w
  | 6 => h.writePwrs cls w
  | 7 => h.writeSec cls w
  | 8 => h.writeCoop w
  | 9 => h.writeJrn w
  | 10 => h.writeFab w
  | 11 => h.writePol w
  | 12 => h.writeSch w
  | 13 => h.writeTunc w
  | 14 => h.writeLnk .E w
  | 15 => h.writeLnk .W w
  | 16 => h.writeLnk .S w
  | 17 => h.writeCc .E w
  | 18 => h.writeCc .W w
  | 19 => h.writeCc .S w
  | 20 => h.writeLoad w
  | 21 => h.writeDsp 0 w
  | 22 => h.writeDsp 1 w
  | 23 => h.writeEth 0 w
  | 24 => h.writeEth 1 w
  | 25 => h.writeEth 2 w
  | 26 => h.writeEth 3 w
  | 27 => h.writePtp w
  | 28 => h.writeSer w
  | 29 => h.writeUsb w
  | 30 => h.writeEmmc w
  | _ => h.plainW w

/-! ### Reads -/

/-- A partner register latched (R511) (assumption 102, DEDUCED). -/
def Hub.latchAt (h : Hub) (a v : Nat) : Hub := { h with latch := SMap.set (fun _ => 0#32) h.latch a (W v) }

/-- A partner register read: the value latched last, zero before any (R511) (assumption 102, DEDUCED). -/
def Hub.latched (h : Hub) (a : Nat) : Word := SMap.get (fun _ => 0#32) h.latch a

/-- A *_LO read: the low word, its partner latched from the high bits (assumption 102, DEDUCED). -/
def Hub.readLo (h : Hub) (hi v : Nat) : Hub × Word := (h.latchAt hi (v / 2 ^ 32), W v)

/-- The FAB counter FAB_CNT_INDEX selects (R165). -/
def Hub.cntSelected (h : Hub) : Nat :=
  h.cnt (h.get R.FAB_CNT_INDEX_OUTPUT) (Cls.ofIx (h.get R.FAB_CNT_INDEX_CLASS)) (h.get R.FAB_CNT_INDEX_CAUSE)

/-- SER_STATUS of a channel; CTS shows the ball of a channel that is enabled (assumption 145, DEDUCED). -/
def Hub.serStatus (h : Hub) (c : Nat) : Word :=
  let x := h.chan c
  W (x.rxFill + x.txFill * 2 ^ 16 + b2n x.rts * 2 ^ 27 + b2n (h.on (R.SER_CFG_EN c) && x.ctsHigh) * 2 ^ 28
    + b2n (decide (h.root < x.charEnd)) * 2 ^ 29)

/-- LNKE_EQ_DATA of a port: the stored setting LNKE_EQ_INDEX selects. -/
def Hub.eqData (h : Hub) (p : Port) : Word :=
  W (eqGet (h.links.at p).eq
    (eqKey (h.get (R.LNK_EQ_INDEX_LANE p.ix)) (h.get (R.LNK_EQ_INDEX_GEAR p.ix)) (h.get (R.LNK_EQ_INDEX_SIDE p.ix))))

/-- CLK registers that follow the machine. -/
def Hub.readClk (h : Hub) (off a : Nat) : Word :=
  if off = 4 then
    W (h.clkMode + h.get R.CLK_STATUS_SEL * 8 + b2n (h.qualified .W) * 32 + b2n (h.qualified .E) * 64
      + b2n (h.selPort == some h.preferred) * 128)
  else if off = 0xC then W (h.clkOffset .W)
  else if off = 0x10 then W (h.clkOffset .E)
  else if off = 0x20 ∧ h.clkMode = ckHoldover then W h.holdTime
  else h.rd a

/-- TIME registers that follow the machine. -/
def Hub.readTime (h : Hub) (off a : Nat) : Hub × Word :=
  if off = 8 then h.readLo A.TIME_NOW_HI h.now
  else if off = 0xC then (h, h.latched a)
  else if off = 0x4C then (h, W (setSlice (h.rd a).toNat 0 9 h.tm.fifo.length))
  else if 0x54 ≤ off ∧ off < 0x64 then
    (h, match h.tm.fifo with
      | r :: _ => r.words.getD ((off - 0x54) / 4) 0#32
      | [] => 0#32)
  else (h, h.rd a)

/-- FAB registers that follow the machine. -/
def Hub.readFab (h : Hub) (off a : Nat) : Hub × Word :=
  if off = 8 then (h, W h.cellsFree)
  else if off = 0xC then (h, W h.descsFree)
  else if off = 0x10 then (h, W h.poolCells)
  else if off = 0x30 then h.readLo A.FAB_CNT_HI h.cntSelected
  else if off = 0x34 then (h, h.latched a)
  else if 0x400 ≤ off ∧ off < 0x4E0 then (h, W (h.outUse ((off - 0x400) / 16) (Cls.ofIx (off / 4 % 4))))
  else (h, h.rd a)

/-- POL registers that follow the machine. -/
def Hub.readPol (h : Hub) (off a : Nat) : Hub × Word :=
  let x := h.pol ((off - 0x100) / 32)
  if off < 0x100 ∨ 0xD00 ≤ off then (h, h.rd a)
  else match off % 32 with
    | 0xC => (h, W (x.tokens / 4000000))
    | 0x10 => h.readLo (a + 4) x.drop
    | 0x14 => (h, h.latched a)
    | 0x18 => h.readLo (a + 4) x.pass
    | 0x1C => (h, h.latched a)
    | _ => (h, h.rd a)

/-- SCH registers that follow the machine; a read of MAX or MEAN restarts it (R188). -/
def Hub.readSch (h : Hub) (off a : Nat) : Hub × Word :=
  match off with
  | 0x8 => (h, W h.epoch)
  | 0x20 => (h, W (h.dres 0))
  | 0x24 => (h, W (h.dres 1))
  | 0x28 => (h, W (h.dres 2))
  | 0x2C => (h, W (h.dres 3))
  | 0x44 => (h, W (h.qmon true).last)
  | 0x48 => (h.qmonRead true false, W (h.qmon true).max)
  | 0x4C => (h.qmonRead true true, W (h.monMean (h.qmon true)))
  | 0x50 => (h, W (h.qmon false).last)
  | 0x54 => (h.qmonRead false false, W (h.qmon false).max)
  | 0x58 => (h.qmonRead false true, W (h.monMean (h.qmon false)))
  | _ => (h, h.rd a)

/-- LNK registers that follow the machine. -/
def Hub.readLnk (h : Hub) (p : Port) (off a : Nat) : Hub × Word :=
  let l := h.links.at p
  match off with
  | 0x24 => (h, h.eqData p)
  | 0x108 => (h, W (l.avail .P + l.avail .M * 65536))
  | 0x10C => (h, W (l.avail .D + l.avail .B * 65536))
  | 0x114 => (h, W (l.fillBytes + l.replay.length * 2 ^ 17))
  | 0x204 => h.readLo (a + 4) h.rt.dupP
  | 0x208 => (h, h.latched a)
  | _ => (h, h.rd a)

/-- DSP registers that follow the machine (R297, R300). -/
def Hub.readDsp (h : Hub) (d off a : Nat) : Hub × Word :=
  match off with
  | 0x4 =>
    let free := h.on (R.DSP_CTRL_EN d) && h.clkMode == ckFree
    let w := (h.rd a).toNat
    let w := if free then setSlice w 0 2 2 else w
    (h, W (setSlice w 6 1 (b2n h.cutOffHub)))
  | 0x24 => ((h.latchAt (A.DSP_FLIP_HI d) (h.rd (A.DSP_FLIP_HI d)).toNat).latchAt (A.DSP_FLIP_FRAME d)
      (h.rd (A.DSP_FLIP_FRAME d)).toNat, h.rd a)
  | 0x28 => (h, h.latched a)
  | 0x2C => (h, h.latched a)
  | _ => (h, h.rd a)

/-- ERR registers that follow the machine: the records, and HANDLING (R458). -/
def Hub.readErr (h : Hub) (off a : Nat) : Hub × Word :=
  if 0x400 ≤ off ∧ off < 0xC00 then
    (h, match KMap.get? h.err.log ((off - 0x400) / 32) with
      | some r => r.words.getD (off / 4 % 8) 0#32
      | none => 0#32)
  else
    let h := h.expireHandling
    (h, h.rd a)


/-- BRG_OUTSTANDING: the head's reads and the hub's own. -/
def Hub.outstanding (h : Hub) : Word := W (min 256 h.headReads + h.brg.tags.length * 65536)

/-- A pair kept in two stored registers: a read of the first latches the second. -/
def Hub.readPair (h : Hub) (a : Nat) : Hub × Word := (h.latchAt (a + 4) (h.rd (a + 4)).toNat, h.rd a)

/-- A register read (R10–R13, R511): the live value; W1P and WO fields read zero. -/
def Hub.readReg (h : Hub) (a : Nat) : Hub × Word :=
  let a := linkAlias a
  let off := a % 0x4000
  match a / 0x4000 with
  | 0 => (h, if off = 0x14 then W (setSlice (h.rd a).toNat 11 1 (b2n h.isSpur)) else h.rd a)
  | 1 => (h, h.readClk off a)
  | 2 => h.readTime off a
  | 3 => h.readErr off a
  | 4 => (h, if a = A.ACC_STATUS then W (setSlice (h.rd a).toNat 0 1 (b2n h.holding)) else h.rd a)
  | 5 => if off = 0x10 then (h, h.outstanding) else (h, h.rd a)
  | 6 =>
    if off = 0x14 then h.readPair a
    else if off = 0x18 then (h, h.latched a)
    else if off = 0x20 then h.gateWord
    else (h, h.rd a)
  | 10 => h.readFab off a
  | 11 => h.readPol off a
  | 12 => h.readSch off a
  | 13 =>
    if 0x100 ≤ off ∧ off < 0x1900 ∧ off % 64 = 0x20 then (h, W (h.eventBits ((off - 0x100) / 64))) else (h, h.rd a)
  | 14 => h.readLnk .E off a
  | 15 => h.readLnk .W off a
  | 16 => h.readLnk .S off a
  | 21 => h.readDsp 0 off a
  | 22 => h.readDsp 1 off a
  | 27 =>
    if 0x100 ≤ off ∧ off < 0x180 ∧ off % 32 = 4 then
      (h, W (setSlice (h.rd a).toNat 0 2 (h.ptpState ((off - 0x100) / 32))))
    else (h, h.rd a)
  | 28 => if 0x100 ≤ off ∧ off < 0x300 ∧ off % 64 = 0x18 then (h, h.serStatus ((off - 0x100) / 64)) else (h, h.rd a)
  | 29 =>
    if off = 0x18 then h.readPair a
    else if off = 0x1C then (h, h.latched a)
    else (h, h.rd a)
  | _ => (h, h.rd a)

/-! ### The commands -/


/-- Whether a register's read latches a partner (R511) (assumption 102, DEDUCED). -/
def latching (a : Nat) : Bool :=
  let a := linkAlias a
  a == A.TIME_NOW_LO || a == A.FAB_CNT_LO || a == A.LNK_WIN_DUP_P_LO 0 || a == A.DSP_FLIP_LO 0 || a == A.DSP_FLIP_LO 1
    || a == A.USBH_SOF_LO || a == A.PWRS_WAKE_LO
    || (List.range 96).any (fun n => a == A.POL_DROP_LO n || a == A.POL_PASS_LO n)

/-- LATCHED_PAIR_READ (R511): a read of a *_LO register by an initiator, checked by the access table; one that is held waits
for EN (R397). -/
def Hub.latchedPairRead (h : Hub) (cls a : Nat) : Hub :=
  if latching a then
    match h.access cls .read a with
    | (h, .ok) => (h.readReg a).1
    | (h, .held) => h.holdLate ⟨cls, a, none⟩
    | (h, _) => h
  else h

/-! ### The rows of the table -/

/-- LATCHED_PAIR_READ (R511). -/
def execLatchedPairRead (cls : Fin 6) (addr : BitVec 25) (s : State) : Result :=
  s.upd (fun h => h.latchedPairRead cls addr.toNat)

end Sys2Proof.Machine
end

