-- ==== Sys2Proof/Machine/Transfers.lean ====
section
/-! DEFINITION. Transfers that reach registers as well as memory: single accesses on the internal bus (R195, R242), the
local side of adapter DMA and of the outbound engine (R387, R389), and the end of an eMMC command (R356). -/

namespace Sys2Proof.Machine

/-! ### Accesses on the internal bus -/

/-- A read on the internal bus of `m` bytes that lie in one word: a register is read whole, with every effect of a
read; a single-bit error is corrected, uncorrectable data give an error response (none). -/
def Hub.busRead (h : Hub) (a m : Nat) : Hub × Option Nat :=
  if a < 0x100000 then
    let (h, w) := h.readReg (a / 4 * 4)
    (h, some (slice w.toNat (8 * (a % 4)) (8 * m)))
  else if h.badRange a m then (h, none)
  else (h.corrected a m, some (leNat (h.busBytes a m)))

/-- A write on the internal bus of `m` bytes that lie in one word, by an initiator class. -/
def Hub.busWriteWord (h : Hub) (cls a m v : Nat) : Hub :=
  if a < 0x100000 then
    h.writeReg cls (a / 4 * 4) (W (v * 2 ^ (8 * (a % 4)))) ((2 ^ m - 1) * 2 ^ (a % 4))
  else h.busStore a (leBytes m v)

/-! ### Adapter DMA (R394) -/

/-- `n` register words read from an address on. -/
def Hub.regLoad (h : Hub) (a : Nat) : Nat → Hub × List Byte
  | 0 => (h, [])
  | n + 1 =>
    let (h, v) := h.readReg a
    let (h, l) := h.regLoad (a + 4) n
    (h, wordBytes v ++ l)

/-- Words written to registers from an address on, as adapter DMA. -/
def Hub.regStore (h : Hub) (a : Nat) : List Word → Hub
  | [] => h
  | v :: rest => (h.writeReg 4 a v 15).regStore (a + 4) rest

/-- Adapter DMA reads `n` bytes of memory or, below 0x0010_0000, of registers. -/
def Hub.dmaLoad (h : Hub) (a n : Nat) : Hub × Except AccRes (List Byte) :=
  if a < 0x100000 then
    match h.accessRange 4 .read a n with
    | (h, .ok) =>
      let (h, bs) := h.regLoad a (ceilDiv n 4)
      (h, .ok bs)
    | (h, r) => (h, .error r)
  else h.dmaRead a n

/-- Adapter DMA writes bytes to memory or, below 0x0010_0000, to registers. -/
def Hub.dmaStore (h : Hub) (a : Nat) (bs : List Byte) : Hub × AccRes :=
  if a < 0x100000 then
    match h.accessRange 4 .write a bs.length with
    | (h, .ok) => (h.regStore a (wordsOf bs), .ok)
    | r => r
  else h.dmaWrite a bs

/-! ### The outbound engine (R387, R389) -/

/-- The next WRITE of a channel: its bytes read from the local side, and a packet of ADDR and data words. -/
def Hub.outWrite (h : Hub) (k : Nat) : Hub :=
  let c := h.outChan k
  match h.dmaLoad (c.loc + c.next) c.size with
  | (h', .error .held) => h'
  | (h', .error _) => h'.chanError k
  | (h', .ok bs) =>
    match h'.sendM 1 (0xF + (if 4 < c.size then 0xF0 else 0)) (W (c.host + c.next) :: wordsOf bs) with
    | (h', .badDest) => h'.chanError k
    | (h', r) => if r.left then (h'.setOutChan k { c with next := c.next + c.size }).chanMoved k c.size else h

/-- OUTBOUND_REQUEST (R387): the channel's next request, once it can be admitted and a tag is free. -/
def Hub.outboundRequest (h : Hub) (k : Nat) : Hub :=
  let c := h.outChan k
  if c.live = false ∨ c.len ≤ c.next then h else if c.write then h.outWrite k else h.outRead k

/-- Data for an outstanding read: written to the local side, checked there as adapter DMA; none where it is held. -/
def Hub.outData (h : Hub) (t : Nat) (r : OutReq) (data : List Word) (last : Bool) : Option Hub :=
  let n := 4 * data.length
  let fin := fun (h : Hub) =>
    if last then h.dropTag t else h.onBrg (fun b => { b with tags := KMap.put b.tags t { r with got := r.got + n } })
  if r.live = false then some (fin h)
  else if r.bytes < r.got + n ∨ (last = true ∧ r.got + n ≠ r.bytes) then some ((fin h).chanError r.chan)
  else
    match h.dmaStore (r.loc + r.got) (bytesOf data) with
    | (_, .held) => none
    | (h, .ok) => some ((fin h).chanMoved r.chan n)
    | (h, _) => some ((fin h).chanError r.chan)

/-- A completion is taken (R389): data, RETRY, or an error; none while its local side is held. -/
def Hub.completion (h : Hub) (p : Packet) : Option Hub :=
  let t := slice p.aux 0 9
  let status := slice p.aux 9 3
  let last := bit p.aux 14
  if bit p.aux 15 then
    match p.payload with
    | [a] => some (if t = 0 ∧ last = true then h.hubWriteFailed a.toNat else h.brgBad)
    | _ => some h.brgBad
  else
    match KMap.get? h.brg.tags t with
    | none => some (if (KMap.get? h.brg.late t).isSome then h.bump R.BRG_LATE_CPL else h.brgBad)
    | some r =>
      if status = 0 then h.outData t r p.payload last
      else if status = 5 then
        some (if r.live then
            (h.setOutChan r.chan { h.outChan r.chan with moved := (h.outChan r.chan).moved - r.got }).onBrg
              (fun b => { b with tags := KMap.put b.tags t { r with retry := true, got := 0 } })
          else h.dropTag t)
      else some ((h.dropTag t).chanError r.chan)

/-- BRIDGE_COMPLETION (R376, R389): the next COMPLETION at output 3. -/
def Hub.bridgeCompletion (h : Hub) : Hub :=
  match h.inbox3 (fun p => p.kind == 3) with
  | none => h
  | some d =>
    match (h.take3 d).completion d.pkt with
    | some h => h
    | none => h.holdMark

/-! ### The eMMC adapter (R356) -/

/-- EMMC_COMMAND_DONE (R356): how the command ended, its response, the data read, and the level of DAT0. A transfer the
access table refuses ends with ERR 5; one it holds waits, and default-power mode holds the adapter stopped (R410)
(assumption 66, DEDUCED). -/
def Hub.emmcCommandDone (h : Hub) (e : EmmcEnd) (resp : List Word) (data : List Byte) (dat0 : Bool) : Hub :=
  if !h.on R.EMMC_STATUS_BUSY || h.defPower then h
  else
    let c := h.emmc
    let fin := fun (h : Hub) (err : Nat) =>
      ((if e = .respTimeout ∨ e = .respCrc then h else h.emmcResp resp).put R.EMMC_STATUS_DAT0 (b2n dat0)).emmcDone err
    let move := !(e == .respTimeout || e == .respCrc)
    if move && c.data == 1 then
      match h.dmaStore c.addr (data.take c.bytes) with
      | (h, .ok) => fin h e.code
      | (h, .held) => h
      | (h, _) => fin h 5
    else if move && c.data == 2 then
      match h.dmaLoad c.addr c.bytes with
      | (h, .ok bs) => fin (h.ball (.emmcData bs)) e.code
      | (h, .error .held) => h
      | (h, .error _) => fin h 5
    else fin h e.code

/-! ### The rows of the table -/

/-- EMMC_COMMAND_DONE (R356). -/
def execEmmcCommandDone (how : EmmcEnd) (resp : List Word) (data : List Byte) (dat0 : Bool) (s : State) : Result :=
  s.upd (fun h => h.emmcCommandDone how resp data dat0)

/-- BRIDGE_COMPLETION (R389). -/
def execBridgeCompletion (s : State) : Result := s.upd (fun h => h.bridgeCompletion)

/-- OUTBOUND_REQUEST (R387). -/
def execOutboundRequest (chan : Fin 4) (s : State) : Result := s.upd (fun h => h.outboundRequest chan)

end Sys2Proof.Machine
end

