-- ==== Sys2Proof/Machine/Bridge.lean ====
section
/-! DEFINITION. The bridge's execution of the head's requests (R376–R386): tests of form, bursts, the access table,
register and memory accesses with byte enables, completions and failed posted writes. -/

namespace Sys2Proof.Machine

/-! ### Requests (R376, R377) -/

/-- A request of the head as the bridge executes it: its class, address, whole words, byte enables of the first and the
last word, and the data of a WRITE. -/
structure BrgReq where
  cls : Nat
  addr : Nat
  words : Nat
  first : Nat
  last : Nat
  data : List Word
deriving DecidableEq, Repr

/-- Byte enables of word `i` (R376, R380). -/
def BrgReq.be (r : BrgReq) (i : Nat) : Nat := if i = 0 then r.first else if i + 1 = r.words then r.last else 15

/-- Whether the enables are well formed (R377). -/
def BrgReq.enablesOk (r : BrgReq) : Bool := r.first != 0 && (if r.words = 1 then r.last == 0 else r.last != 0)

/-- Class of a request by PRIV (R390). -/
def privClass (priv : Bool) : Nat := if priv then 0 else 1

/-- The request a WRITE spells; none when it is malformed (R377). -/
def brgWrite? (p : Packet) : Option BrgReq :=
  match p.payload with
  | a :: d :: rest =>
    let r : BrgReq := ⟨privClass (bit p.aux 8), a.toNat, rest.length + 1, slice p.aux 0 4, slice p.aux 4 4, d :: rest⟩
    if p.aux < 512 && a.toNat % 4 == 0 && r.enablesOk && decide (r.words ≤ 127) then some r else none
  | _ => none

/-- The request a READ spells; none when it is malformed (R377). -/
def brgRead? (p : Packet) : Option BrgReq :=
  match p.payload with
  | [a, c] =>
    let n := slice c.toNat 0 8
    let r : BrgReq := ⟨privClass (bit p.aux 9), a.toNat, n, slice c.toNat 8 4, slice c.toNat 12 4, []⟩
    if p.aux < 1024 && bit p.aux 8 == false && a.toNat % 4 == 0 && decide (1 ≤ n) && decide (n ≤ 128)
        && decide (c.toNat < 65536) && r.enablesOk then some r
    else none
  | _ => none

/-! ### Bursts (R381, R382) -/

/-- A burst: its address, the index of its first word and its words. -/
structure Burst where
  addr : Nat
  at_ : Nat
  words : Nat
deriving DecidableEq, Repr

/-- The bursts of `n` words at an address: each ends 256 bytes from its start or at a 4 KiB boundary (R381). -/
def burstsFrom : Nat → Nat → Nat → Nat → List Burst
  | 0, _, _, _ => []
  | k + 1, a, i, n =>
    let m := min n (min 64 ((4096 - a % 4096) / 4))
    if n = 0 then [] else ⟨a, i, m⟩ :: burstsFrom k (a + 4 * m) (i + m) (n - m)

/-- The bursts of a request. -/
def BrgReq.bursts (r : BrgReq) : List Burst := burstsFrom 8 r.addr 0 r.words

/-- Whether a decision holds the access. -/
def Decision.isHeld : Decision → Bool
  | .held => true
  | _ => false

/-- Whether a decision refuses the access. -/
def Decision.isRefused : Decision → Bool
  | .refused _ => true
  | _ => false

/-- Whether any burst of a request is held (R397). -/
def Hub.brgHeld (h : Hub) (k : AccKind) (r : BrgReq) : Bool := r.bursts.any (fun b => (h.decide_ r.cls k b.addr).isHeld)

/-- The first burst that the access table refuses (R382). -/
def Hub.brgRefused (h : Hub) (k : AccKind) (r : BrgReq) : Option Burst :=
  r.bursts.find? (fun b => (h.decide_ r.cls k b.addr).isRefused)

/-! ### Accesses (R380, R383) -/

/-- The enabled bytes of a word written to memory (R380). -/
def Hub.brgPoke (h : Hub) (a : Nat) (v : Word) (be : Nat) : Hub :=
  [0, 1, 2, 3].foldl (fun h i => if bit be i then h.busWrite (a + i) ((wordBytes v).getD i 0) else h) h

/-- Words written from an address on: `i` is the index of the first in its request. -/
def Hub.brgStore (h : Hub) (r : BrgReq) (a i : Nat) : List Word → Hub
  | [] => h
  | v :: rest =>
    let h := if a < 0x100000 then (if r.be i = 0 then h else h.writeReg r.cls a v (r.be i)) else h.brgPoke a v (r.be i)
    h.brgStore r (a + 4) (i + 1) rest

/-- Whether a burst meets an error: a reserved or barred address, or uncorrectable data of a read (R378). -/
def Hub.brgError (h : Hub) (k : AccKind) (r : BrgReq) (b : Burst) : Bool :=
  (h.decide_ r.cls k b.addr == .error) || (k == .read && h.badRange b.addr (4 * b.words))

/-- The bursts of a WRITE applied in order until one errs, and the address of that one (R382). -/
def Hub.brgApply (h : Hub) (r : BrgReq) : List Burst → Hub × Option Nat
  | [] => (h, none)
  | b :: rest =>
    if h.brgError .write r b then (h, some b.addr)
    else (h.brgStore r b.addr b.at_ ((r.data.drop b.at_).take b.words)).brgApply r rest

/-- One word read: a register with no enabled byte is not accessed, and its disabled bytes read zero (R383). -/
def Hub.brgLoad1 (h : Hub) (r : BrgReq) (a i : Nat) : Hub × Word :=
  if a < 0x100000 then
    if r.be i = 0 then (h, 0#32)
    else
      let (h, v) := h.readReg a
      (h, W (mergeBytes 0 v.toNat (r.be i)))
  else (h.corrected a 4, W (leNat (h.busBytes a 4)))

/-- `n` words read from an address on. -/
def Hub.brgLoad (h : Hub) (r : BrgReq) (a i : Nat) : Nat → Hub × List Word
  | 0 => (h, [])
  | n + 1 =>
    let (h, v) := h.brgLoad1 r a i
    let (h, l) := h.brgLoad r (a + 4) (i + 1) n
    (h, v :: l)

/-! ### Completions and failures (R378, R384) -/

/-- AUX of a completion (R376). -/
def cplAux (tag status : Nat) (cache relaxed last : Bool) : Nat :=
  tag % 512 + status * 2 ^ 9 + b2n cache * 2 ^ 12 + b2n relaxed * 2 ^ 13 + b2n last * 2 ^ 14

/-- A completion is sent; none while it cannot be admitted. One with no route is counted there and gone. -/
def Hub.cpl (h : Hub) (aux : Nat) (data : List Word) : Option Hub :=
  match h.sendM 3 aux data with
  | (h, .ok) => some h
  | (h, .badDest) => some h
  | (h, .gone) => some h
  | _ => none

/-- A completion that carries no data and ends its tag (R378). -/
def Hub.cplEnd (h : Hub) (tag status : Nat) : Option Hub := h.cpl (cplAux tag status false false true) []

/-- The bursts of a READ answered in order; the one that errs ends the read (R382). -/
def Hub.brgAnswer (h : Hub) (r : BrgReq) (tag : Nat) : List Burst → Option Hub
  | [] => some h
  | b :: rest =>
    if h.brgError .read r b then h.cplEnd tag 2
    else
      let (cache, relaxed) := match h.decide_ r.cls .read b.addr with
        | .ok c x => (c, x)
        | _ => (false, false)
      let (h, data) := h.brgLoad r b.addr b.at_ b.words
      match h.cpl (cplAux tag 0 cache relaxed rest.isEmpty) data with
      | some h => h.brgAnswer r tag rest
      | none => none

/-- A failed posted write (R384): causes 1 ACCESS, 2 ERROR, 3 BADREQ (assumption 70, DEDUCED). -/
def Hub.pwFail (h : Hub) (addr cause : Nat) (priv : Bool) : Hub :=
  let h := (h.put R.BRG_STATUS_PW_ERR 1).wr A.BRG_PW_ERR_ADDR (W addr)
  let h := ((h.put R.BRG_PW_ERR_INFO_CAUSE cause).put R.BRG_PW_ERR_INFO_OUTBOUND 0).put R.BRG_PW_ERR_INFO_PRIV (b2n priv)
  let h := h.bump R.BRG_PW_ERR_INFO_COUNT
  h.logLim 5 0x02 0 sevCT 0 addr (h.get R.BRG_PW_ERR_INFO_COUNT)

/-! ### The commands -/

/-- Whether a packet at output 3 waits because the access table holds it (R385, R397) (assumption 69, DEDUCED). -/
def Hub.brgWaits (h : Hub) (p : Packet) : Bool :=
  if p.src ≠ 0 then false
  else if p.kind = 1 then (match brgWrite? p with | some r => h.brgHeld .write r | none => false)
  else (match brgRead? p with | some r => h.brgHeld .read r | none => false)

/-- A request held at output 3 shows in ACC_STATUS.HOLDING (R399). -/
def Hub.markHeld (h : Hub) : Hub :=
  if (h.inbox3 (fun p => (p.kind == 1 || p.kind == 2) && h.brgWaits p)).isSome then h.holdMark else h

/-- Whether a well-formed WRITE reaches bytes that a request asks for. -/
def BrgReq.behind (r : BrgReq) (p : Packet) : Bool :=
  p.kind == 1 && (match brgWrite? p with
    | some w => decide (r.addr < w.addr + 4 * w.words) && decide (w.addr < r.addr + 4 * r.words)
    | none => false)

/-- Whether a READ asks for bytes that an earlier write of the head has still to reach: one applied whose range is held, or
one that waits ahead of it at output 3 (R381, R209, R219, R281, R397) (assumption 69, DEDUCED). -/
def Hub.readBehind (h : Hub) (p : Packet) : Bool :=
  p.kind == 2 && (match brgRead? p with
    | some r =>
      h.acc.held.any (fun w => decide (r.addr ≤ w.1) && decide (w.1 < r.addr + 4 * r.words))
        || (((KMap.get? h.fab.inbox 3).getD []).takeWhile (fun d => d.pkt != p)).any (fun d => r.behind d.pkt)
    | none => false)

/-- The request the bridge starts next (R381): the first at output 3 that is not held; a READ of bytes that a held write
has still to reach waits, and those behind it (assumption 69, DEDUCED). -/
def Hub.brgNext (h : Hub) : Option Delivered :=
  match h.inbox3 (fun p => (p.kind == 1 || p.kind == 2) && !h.brgWaits p) with
  | some d => if h.readBehind d.pkt then none else some d
  | none => none

/-- A WRITE is executed (R380, R382, R384). -/
def Hub.brgDoWrite (h : Hub) (p : Packet) : Hub :=
  if p.src ≠ 0 then h.brgBad
  else match brgWrite? p with
    | none => h.pwFail ((p.payload.head?.map BitVec.toNat).getD 0) 3 (bit p.aux 8)
    | some r =>
      match h.brgRefused .write r with
      | some b => (h.access r.cls .write b.addr).1.pwFail b.addr 1 (r.cls == 0)
      | none =>
        match h.brgApply r r.bursts with
        | (h, none) => h
        | (h, some a) => h.pwFail a 2 (r.cls == 0)

/-- BRIDGE_WRITE (R380): the next request of the head, when it is a WRITE (assumption 69, DEDUCED). -/
def Hub.bridgeWrite (h : Hub) : Hub :=
  let h := h.markHeld
  match h.brgNext with
  | some d => if d.pkt.kind = 1 then (h.take3 d).brgDoWrite d.pkt else h
  | none => h

/-- The packets admitted to output 3 and not yet executed, oldest first: delivered, on the wire, queued
(assumption 69, DEDUCED). -/
def Hub.bridgeWaiting (h : Hub) : List Packet :=
  (((KMap.get? h.fab.inbox 3).getD []).map Delivered.pkt)
    ++ (match h.fab.wire with | some w => if w.output = 3 then [w.pkt] else [] | none => [])
    ++ (h.queue 3 0).items.filterMap (fun d => h.pkt? d.pid)

/-- A list without the members at flagged places. -/
def unflagged {α : Type} : List Bool → List α → List α
  | _, [] => []
  | fl, x :: xs => if fl.headD false then unflagged (fl.drop 1) xs else x :: unflagged (fl.drop 1) xs

/-- The packets of output 3 at flagged places of `bridgeWaiting` leave it. -/
def Hub.drop3 (h : Hub) (fl : List Bool) : Hub :=
  let l := (KMap.get? h.fab.inbox 3).getD []
  let keep := unflagged fl l
  let h := h.onFab (fun f => { f with inbox := if keep.isEmpty then KMap.del f.inbox 3 else KMap.put f.inbox 3 keep })
  let fl := fl.drop l.length
  let mine := h.fab.wire.any (fun w => w.output == 3)
  let h := if mine && fl.headD false then h.onFab (fun f => { f with wire := none }) else h
  let fl := if mine then fl.drop 1 else fl
  let x := h.queue 3 0
  let gone := unflagged (fl.map not ++ List.replicate (x.items.length - fl.length) true) x.items
  if gone.isEmpty then h
  else
    let y := { x with items := unflagged fl x.items }
    gone.foldl (fun h d => h.release d.pid) (h.setQueue 3 0 (if fl.headD false then h.newHead y else y))

/-- Which of the packets at output 3 are READs that carry a tag outstanding on their arrival: a tag is outstanding from its
READ's arrival, or while its RESET completion waits (R379, R386). -/
def reusedReads : List Nat → List Packet → List Bool
  | _, [] => []
  | seen, p :: rest =>
    let t := slice p.aux 0 9
    if p.kind = 2 ∧ p.src = 0 then
      if seen.contains t then true :: reusedReads seen rest else false :: reusedReads (t :: seen) rest
    else false :: reusedReads seen rest

/-- READs at output 3 that carry an outstanding tag are discarded, counted and logged (R379) (assumption 69, DEDUCED). -/
def Hub.dropReused (h : Hub) : Hub :=
  let ps := h.bridgeWaiting
  let fl := reusedReads h.brg.cplq ps
  (unflagged (fl.map not) ps).foldl (fun h p =>
    let h := h.brgBad
    h.logLim 5 0x01 0 sevCT (slice p.aux 0 9) ((p.payload.head?.map BitVec.toNat).getD 0) (h.get R.BRG_BAD_REQ)) (h.drop3 fl)

/-- A READ is executed and answered (R377, R381–R383); none while a completion cannot be admitted. -/
def Hub.brgDoRead (h : Hub) (p : Packet) : Option Hub :=
  let tag := slice p.aux 0 9
  match brgRead? p with
  | none => h.cplEnd tag 3
  | some r =>
    match h.brgRefused .read r with
    | some b => (h.access r.cls .read b.addr).1.cplEnd tag 1
    | none => h.brgAnswer r tag r.bursts

/-- RESET completions not yet admitted are offered again, oldest first (R386), behind the EVENT of a FATAL entry (R459)
(assumption 71, DESIGN CHOICE). -/
def Hub.offerCpls (h : Hub) : List Nat → Hub
  | [] => h
  | tag :: rest =>
    if h.fatalEvent.isSome then h
    else
      match h.cplEnd tag 4 with
      | some h => (h.onBrg (fun b => { b with cplq := rest })).offerCpls rest
      | none => h

/-- BRIDGE_READ (R381): the next request of the head, when it is a READ, which stands at output 3 until its last completion
is sent (R379). A READ whose completions cannot all be admitted waits (assumption 69, DEDUCED). -/
def Hub.bridgeRead (h : Hub) : Hub :=
  let h := (h.offerCpls h.brg.cplq).dropReused.markHeld
  match h.brgNext with
  | some d =>
    if d.pkt.kind = 2 then
      if d.pkt.src ≠ 0 then (h.take3 d).brgBad
      else if !h.brg.cplq.isEmpty then h
      else
        match h.brgDoRead d.pkt with
        | some h => h.take3 d
        | none => h
    else h
  | none => h

/-- REGISTER_WRITE (R10–R13): a write by an initiator, checked by the access table, of a register word. One of the head's
that is refused or errs is a failed posted write (R384, R394); one that is held waits for EN (R397)
(assumption 70, DEDUCED). -/
def Hub.registerWrite (h : Hub) (cls a : Nat) (v : Word) (be : Nat) : Hub :=
  if 0x100000 ≤ a ∨ a % 4 ≠ 0 then h
  else match h.access cls .write a with
    | (h, .ok) => h.writeReg cls a v be
    | (h, .held) => h.holdLate ⟨cls, a, some (v, be)⟩
    | (h, r) => if cls ≤ 1 then h.pwFail a (if r = .refused then 1 else 2) (cls == 0) else h

/-- What a hub reset does to the bridge before it empties output 3 (R386): the WRITEs there are applied whole, each in its turn
the first that the access table does not hold, until none is left or EN 0 holds those that are (R397)
(assumption 93, DEDUCED). -/
def Hub.brgDrainWrites : Nat → Hub → Hub
  | 0, h => h
  | n + 1, h =>
    match h.bridgeWaiting.zipIdx.find? (fun e => e.1.kind == 1 && !h.brgWaits e.1) with
    | some (p, i) => brgDrainWrites n ((h.drop3 (List.replicate i false ++ [true])).brgDoWrite p)
    | none => h

/-- RESET completions for the tags of reads not completed; every read of the hub's own ends, and the channels that had one
outstanding end with ERROR (R386) (assumption 93, DEDUCED). -/
def Hub.brgReset (h : Hub) (tags : List Nat) : Hub :=
  let h := h.onBrg (fun b => { b with cplq := b.cplq ++ tags })
  let h := h.offerCpls h.brg.cplq
  let h := [0, 1, 2, 3].foldl (fun h k => if h.brg.tags.any (fun e => e.2.chan == k && e.2.live) then h.chanError k else h) h
  h.onBrg (fun b => { b with tags := [] })

/-! ### The rows of the table -/

/-- REGISTER_WRITE (R10). -/
def execRegisterWrite (cls : Fin 6) (addr : BitVec 25) (be : BitVec 4) (value : Word) (s : State) : Result :=
  s.upd (fun h => h.registerWrite cls addr.toNat value be.toNat)

/-- BRIDGE_WRITE (R380). -/
def execBridgeWrite (s : State) : Result := s.upd (fun h => h.bridgeWrite)

/-- BRIDGE_READ (R381). -/
def execBridgeRead (s : State) : Result := s.upd (fun h => h.bridgeRead)

/-- EVENT_RETRY (R462): the RESET completions that wait go before every EVENT but that of a FATAL entry (R386, R459). -/
def execEventRetry (s : State) : Result := s.upd (fun h =>
  if h.fatalEvent.isSome then
    let h := h.eventRetry
    h.offerCpls h.brg.cplq
  else (h.offerCpls h.brg.cplq).eventRetry)

end Sys2Proof.Machine
end

