-- ==== Sys2Proof/Machine/Encoding.lean ====
section
/-! DEFINITION. The instruction words of Decmond (R224–R226, R229, R234, R237–R241, R245, R246, R254, R256, R265–R282): the
instruction that a word spells, the word of an instruction, and the fetch that holds a command to the word at its
context's PC. -/

namespace Sys2Proof.Machine

/-! ### Fields (R224) -/

/-- A register field of a word. -/
def regAt (w lo : Nat) : Fin 16 := Fin.ofNat 16 (slice w lo 4)

/-- imm18. -/
def imm18 (w : Nat) : BitVec 18 := BitVec.ofNat 18 w

/-- An instruction whose word is legal only under a condition. -/
def legalIf (c : Bool) (i : Instr) : Option Instr := if c then some i else none

/-! ### The instruction a word spells -/

/-- Opcode 0x00 (R229, R233). -/
def spellSys (n : Fin 96) (w : Nat) : Option Instr :=
  let gd := regAt w 22
  let ga := regAt w 18
  let arg := slice w 0 12
  let bare := gd == 0 && ga == 0 && arg == 0
  match slice w 12 6 with
  | 0x00 => legalIf bare (.nop n)
  | 0x01 => legalIf bare (.yield n)
  | 0x02 => legalIf bare (.halt n)
  | 0x03 => legalIf (gd == 0 && ga == 0) (.trap n (BitVec.ofNat 12 arg))
  | 0x04 => legalIf bare (.fence n)
  | 0x05 => legalIf (ga == 0 && decide (arg ≤ 9)) (.csrr n gd (BitVec.ofNat 12 arg))
  | 0x06 => legalIf (gd == 0 && arg == 0) (.csrw n (BitVec.ofNat 12 arg) ga)
  | _ => none

/-- Opcode 0x01 (R234). -/
def spellAlu (n : Fin 96) (w : Nat) : Option Instr :=
  let gd := regAt w 22
  let ga := regAt w 18
  let gb := regAt w 14
  let f := bit w 13
  if slice w 0 8 ≠ 0 then none
  else
    match slice w 8 5 with
    | 0x00 => some (.add n gd ga gb f)
    | 0x01 => some (.sub n gd ga gb f)
    | 0x02 => some (.adc n gd ga gb f)
    | 0x03 => some (.sbc n gd ga gb f)
    | 0x04 => some (.and n gd ga gb f)
    | 0x05 => some (.or n gd ga gb f)
    | 0x06 => some (.xor n gd ga gb f)
    | 0x07 => some (.andn n gd ga gb f)
    | 0x08 => some (.shl n gd ga gb f)
    | 0x09 => some (.shr n gd ga gb f)
    | 0x0A => some (.sar n gd ga gb f)
    | 0x0B => some (.ror n gd ga gb f)
    | 0x0C => some (.mul n gd ga gb f)
    | 0x0D => some (.mulhu n gd ga gb f)
    | 0x0E => some (.mulhs n gd ga gb f)
    | 0x0F => some (.minu n gd ga gb f)
    | 0x10 => some (.maxu n gd ga gb f)
    | 0x11 => some (.mins n gd ga gb f)
    | 0x12 => some (.maxs n gd ga gb f)
    | 0x13 => legalIf (gb == 0) (.clz n gd ga f)
    | 0x14 => legalIf (gb == 0) (.popc n gd ga f)
    | 0x15 => legalIf (gb == 0) (.bswap n gd ga f)
    | _ => none

/-- Opcode 0x06 (R239). -/
def spellShift (n : Fin 96) (w : Nat) : Option Instr :=
  let gd := regAt w 22
  let ga := regAt w 18
  let k := Fin.ofNat 32 (slice w 0 5)
  if slice w 5 11 ≠ 0 then none
  else
    match slice w 16 2 with
    | 0 => some (.shli n gd ga k)
    | 1 => some (.shri n gd ga k)
    | 2 => some (.sari n gd ga k)
    | _ => some (.rori n gd ga k)

/-- Opcode 0x08 (R240): the gd field is VAR. -/
def spellCompare (n : Fin 96) (w : Nat) : Option Instr :=
  let ga := regAt w 18
  let gb := regAt w 14
  match slice w 22 4 with
  | 0x0 => legalIf (slice w 0 14 == 0) (.cmp n ga gb)
  | 0x1 => some (.cmpi n ga (imm18 w))
  | 0x2 => legalIf (slice w 0 14 == 0) (.tst n ga gb)
  | 0x3 => some (.tsti n ga (imm18 w))
  | _ => none

/-- Opcodes 0x02–0x05, 0x07 and 0x09–0x12 (R237, R238, R241, R245, R246). -/
def spellPlain (n : Fin 96) (op w : Nat) : Option Instr :=
  let gd := regAt w 22
  let ga := regAt w 18
  let imm := imm18 w
  let cc := BitVec.ofNat 4 (slice w 22 4)
  let off := BitVec.ofNat 22 w
  let listed := slice w 22 4 != 15
  match op with
  | 0x02 => some (.addi n gd ga imm)
  | 0x03 => some (.andi n gd ga imm)
  | 0x04 => some (.ori n gd ga imm)
  | 0x05 => some (.xori n gd ga imm)
  | 0x07 => legalIf (ga == 0) (.movhi n gd imm)
  | 0x09 => some (.ldw n gd ga imm)
  | 0x0A => some (.ldh n gd ga imm)
  | 0x0B => some (.ldb n gd ga imm)
  | 0x0C => some (.stw n gd ga imm)
  | 0x0D => some (.sth n gd ga imm)
  | 0x0E => some (.stb n gd ga imm)
  | 0x10 => legalIf listed (.b n cc off)
  | 0x11 => legalIf listed (.call n cc off)
  | 0x12 => legalIf (listed && slice w 0 17 == 0) (.jr n cc ga (bit w 17))
  | _ => none

/-- Whether PSETH may write a FIELD (R256). -/
def fieldWritable (f : Nat) : Bool := f == 0 || f == 4 || f == 7 || f == 8

/-- Opcodes 0x18–0x22 (R254): format P. -/
def spellPacket (n : Fin 96) (op w : Nat) : Option Instr :=
  let dd := Fin.ofNat 4 (slice w 24 2)
  let gd := regAt w 20
  let ga := regAt w 16
  let sub := slice w 12 4
  let imm := BitVec.ofNat 12 w
  let none_ := slice w 0 12 == 0
  let other := Fin.ofNat 4 sub
  match op with
  | 0x18 => legalIf (ga == 0 && decide (sub < 2) && none_) (.pget n dd gd (sub == 1))
  | 0x19 => legalIf (ga == 0 && sub == 0 && decide (slice w 0 12 ≤ 12)) (.phdr n gd dd imm)
  | 0x1A => legalIf (gd == 0 && sub == 0 && fieldWritable (slice w 0 12)) (.pseth n dd imm ga)
  | 0x1B => legalIf (decide (sub < 3)) (.pld n gd dd ga imm (BitVec.ofNat 4 sub))
  | 0x1C => legalIf (decide (sub < 3)) (.pst n gd dd ga imm (BitVec.ofNat 4 sub))
  | 0x1D =>
    legalIf (ga == 0 && decide (sub < 4) && none_)
      (if bit sub 0 then .pemitEndpoint n dd gd (bit sub 1) else .pemitFabric n dd gd (bit sub 1))
  | 0x1E => legalIf (gd == 0 && ga == 0 && sub == 0 && none_) (.pdrop n dd)
  | 0x1F =>
    let m := slice w 0 12
    legalIf (decide (sub < 2) && decide (4 ≤ m) && decide (m ≤ 512) && m % 4 == 0)
      (if sub = 0 then .pcopyToMemory n dd gd ga imm else .pcopyFromMemory n dd gd ga imm)
  | 0x20 => legalIf (decide (sub < 4) && none_) (.psplit n dd gd ga other)
  | 0x21 => legalIf (ga == 0 && decide (sub < 4) && none_) (.pjoin n dd gd other)
  | 0x22 => legalIf (ga == 0 && sub == 0 && decide (slice w 0 12 ≤ 128)) (.pnew n dd gd imm)
  | _ => none

/-- Opcode 0x32 (R271, R272). -/
def spellTarm (n : Fin 96) (w : Nat) : Option Instr :=
  let gd := regAt w 22
  let ga := regAt w 18
  match slice w 16 2 with
  | 0 => legalIf (slice w 0 16 == 0) (.tarmAt n gd ga)
  | 1 => legalIf (slice w 0 16 == 0) (.tarmAfter n gd ga)
  | 2 => legalIf (ga == 0 && slice w 0 16 == 0) (.tarmCancel n gd)
  | _ => legalIf (slice w 3 13 == 0) (.tarmOutput n gd ga (Fin.ofNat 8 (slice w 0 3)))

/-- Opcode 0x34 (R273). -/
def spellOutat (n : Fin 96) (w : Nat) : Option Instr :=
  let gd := regAt w 22
  let ga := regAt w 18
  let o := Fin.ofNat 8 (slice w 0 3)
  if slice w 6 12 ≠ 0 ∨ bit w 3 = true then none
  else
    match slice w 4 2 with
    | 0 => some (.outat n gd ga o true)
    | 1 => some (.outat n gd ga o false)
    | 2 => legalIf (ga == 0) (.outatCancel n gd o)
    | _ => none

/-- Opcodes 0x28–0x3E (R265–R282): format S. The four SEAL rows share one word, which names no operation (R281); it is
spelled here as the first. -/
def spellEvent (n : Fin 96) (op w : Nat) : Option Instr :=
  let gd := regAt w 22
  let ga := regAt w 18
  let imm := slice w 0 18
  match op with
  | 0x28 =>
    let sel := slice w 16 2
    let out := slice w 0 2
    legalIf (slice w 2 14 == 0 && out != 3 && (sel == 1 || (out == 0 && ga == 0)))
      (.qdepth n gd ga (Fin.ofNat 4 sel) (Fin.ofNat 4 out))
  | 0x29 => legalIf (imm == 0) (.sparge n gd ga)
  | 0x30 => legalIf (ga == 0 && decide (1 ≤ imm) && decide (imm < 512)) (.wait n gd (BitVec.ofNat 9 imm))
  | 0x31 =>
    legalIf (ga == 0 && decide (imm ≤ 2)) (if imm = 0 then .tnowSample n gd else .tnowPart n gd (imm18 w))
  | 0x32 => spellTarm n w
  | 0x33 => legalIf (decide (imm ≤ 1)) (.tstamp n gd ga (imm18 w))
  | 0x34 => spellOutat n w
  | 0x38 => legalIf (slice w 9 9 == 0) (.gstage n gd ga (Fin.ofNat 4 (slice w 0 2)) (Fin.ofNat 128 (slice w 2 7)))
  | 0x39 => if imm = 0 then some (.garm n gd ga) else legalIf (imm == 1 && ga == 0) (.garmDisarm n gd)
  | 0x3A => legalIf (imm == 0) (.polset n gd ga)
  | 0x3C => legalIf (imm == 0) (.tap n gd ga)
  | 0x3D => legalIf (imm == 0) (.sealGcmSeal n gd ga)
  | 0x3E => legalIf (imm == 0) (.jrec n gd ga)
  | _ => none

/-- The instruction of context `n` that a word spells; none for an illegal word (R225, R226)
(assumption 7, DESIGN CHOICE; 125, DESIGN CHOICE). -/
def spelled (n : Fin 96) (w : Word) : Option Instr :=
  let w := w.toNat
  let op := slice w 26 6
  if op = 0 then spellSys n w
  else if op = 1 then spellAlu n w
  else if op = 6 then spellShift n w
  else if op = 8 then spellCompare n w
  else if op < 0x18 then spellPlain n op w
  else if op < 0x28 then spellPacket n op w
  else spellEvent n op w

/-! ### The word of an instruction -/

/-- A word of formats I, M and S (R224): opcode, gd, ga, imm18. -/
def wordI (op : Nat) (gd ga : Fin 16) (imm : Nat) : Word := W (op * 2 ^ 26 + gd * 2 ^ 22 + ga * 2 ^ 18 + imm)

/-- A word of format A. -/
def wordA (fn : Nat) (gd ga gb : Fin 16) (f : Bool) : Word :=
  wordI 1 gd ga (gb * 2 ^ 14 + b2n f * 2 ^ 13 + fn * 2 ^ 8)

/-- A word of format B. -/
def wordB (op : Nat) (cc : BitVec 4) (off : BitVec 22) : Word := W (op * 2 ^ 26 + cc.toNat * 2 ^ 22 + off.toNat)

/-- A word of format P. -/
def wordP (op : Nat) (dd : Fin 4) (gd ga : Fin 16) (sub imm : Nat) : Word :=
  W (op * 2 ^ 26 + dd * 2 ^ 24 + gd * 2 ^ 20 + ga * 2 ^ 16 + sub * 2 ^ 12 + imm)

/-- The context of an instruction and its word; none for a command that is no instruction of Decmond. -/
def Instr.word? : Instr → Option (Fin 96 × Word)
  | .nop n => some (n, 0#32)
  | .yield n => some (n, wordI 0 0 0 0x1000)
  | .halt n => some (n, wordI 0 0 0 0x2000)
  | .trap n code => some (n, wordI 0 0 0 (0x3000 + code.toNat))
  | .fence n => some (n, wordI 0 0 0 0x4000)
  | .csrr n gd csr => some (n, wordI 0 gd 0 (0x5000 + csr.toNat))
  | .csrw n csr ga => some (n, wordI 0 0 ga (0x6000 + csr.toNat))
  | .add n gd ga gb f => some (n, wordA 0x00 gd ga gb f)
  | .sub n gd ga gb f => some (n, wordA 0x01 gd ga gb f)
  | .adc n gd ga gb f => some (n, wordA 0x02 gd ga gb f)
  | .sbc n gd ga gb f => some (n, wordA 0x03 gd ga gb f)
  | .and n gd ga gb f => some (n, wordA 0x04 gd ga gb f)
  | .or n gd ga gb f => some (n, wordA 0x05 gd ga gb f)
  | .xor n gd ga gb f => some (n, wordA 0x06 gd ga gb f)
  | .andn n gd ga gb f => some (n, wordA 0x07 gd ga gb f)
  | .shl n gd ga gb f => some (n, wordA 0x08 gd ga gb f)
  | .shr n gd ga gb f => some (n, wordA 0x09 gd ga gb f)
  | .sar n gd ga gb f => some (n, wordA 0x0A gd ga gb f)
  | .ror n gd ga gb f => some (n, wordA 0x0B gd ga gb f)
  | .mul n gd ga gb f => some (n, wordA 0x0C gd ga gb f)
  | .mulhu n gd ga gb f => some (n, wordA 0x0D gd ga gb f)
  | .mulhs n gd ga gb f => some (n, wordA 0x0E gd ga gb f)
  | .minu n gd ga gb f => some (n, wordA 0x0F gd ga gb f)
  | .maxu n gd ga gb f => some (n, wordA 0x10 gd ga gb f)
  | .mins n gd ga gb f => some (n, wordA 0x11 gd ga gb f)
  | .maxs n gd ga gb f => some (n, wordA 0x12 gd ga gb f)
  | .clz n gd ga f => some (n, wordA 0x13 gd ga 0 f)
  | .popc n gd ga f => some (n, wordA 0x14 gd ga 0 f)
  | .bswap n gd ga f => some (n, wordA 0x15 gd ga 0 f)
  | .addi n gd ga imm => some (n, wordI 0x02 gd ga imm.toNat)
  | .andi n gd ga imm => some (n, wordI 0x03 gd ga imm.toNat)
  | .ori n gd ga imm => some (n, wordI 0x04 gd ga imm.toNat)
  | .xori n gd ga imm => some (n, wordI 0x05 gd ga imm.toNat)
  | .shli n gd ga k => some (n, wordI 0x06 gd ga k)
  | .shri n gd ga k => some (n, wordI 0x06 gd ga (0x10000 + k))
  | .sari n gd ga k => some (n, wordI 0x06 gd ga (0x20000 + k))
  | .rori n gd ga k => some (n, wordI 0x06 gd ga (0x30000 + k))
  | .movhi n gd imm => some (n, wordI 0x07 gd 0 imm.toNat)
  | .cmp n ga gb => some (n, wordI 0x08 0 ga (gb * 2 ^ 14))
  | .cmpi n ga imm => some (n, wordI 0x08 1 ga imm.toNat)
  | .tst n ga gb => some (n, wordI 0x08 2 ga (gb * 2 ^ 14))
  | .tsti n ga imm => some (n, wordI 0x08 3 ga imm.toNat)
  | .ldw n gd ga imm => some (n, wordI 0x09 gd ga imm.toNat)
  | .ldh n gd ga imm => some (n, wordI 0x0A gd ga imm.toNat)
  | .ldb n gd ga imm => some (n, wordI 0x0B gd ga imm.toNat)
  | .stw n gd ga imm => some (n, wordI 0x0C gd ga imm.toNat)
  | .sth n gd ga imm => some (n, wordI 0x0D gd ga imm.toNat)
  | .stb n gd ga imm => some (n, wordI 0x0E gd ga imm.toNat)
  | .b n cc off => some (n, wordB 0x10 cc off)
  | .call n cc off => some (n, wordB 0x11 cc off)
  | .jr n cc ga link => some (n, wordB 0x12 cc (BitVec.ofNat 22 (ga * 2 ^ 18 + b2n link * 2 ^ 17)))
  | .pget n dd gd endpoint => some (n, wordP 0x18 dd gd 0 (b2n endpoint) 0)
  | .phdr n gd dd field => some (n, wordP 0x19 dd gd 0 0 field.toNat)
  | .pseth n dd field ga => some (n, wordP 0x1A dd 0 ga 0 field.toNat)
  | .pld n gd dd ga imm width => some (n, wordP 0x1B dd gd ga width.toNat imm.toNat)
  | .pst n gd dd ga imm width => some (n, wordP 0x1C dd gd ga width.toNat imm.toNat)
  | .pemitFabric n dd gd keep => some (n, wordP 0x1D dd gd 0 (b2n keep * 2) 0)
  | .pemitEndpoint n dd gd keep => some (n, wordP 0x1D dd gd 0 (1 + b2n keep * 2) 0)
  | .pdrop n dd => some (n, wordP 0x1E dd 0 0 0 0)
  | .pcopyToMemory n dd gd ga bytes => some (n, wordP 0x1F dd gd ga 0 bytes.toNat)
  | .pcopyFromMemory n dd gd ga bytes => some (n, wordP 0x1F dd gd ga 1 bytes.toNat)
  | .psplit n dd gd ga dt => some (n, wordP 0x20 dd gd ga dt 0)
  | .pjoin n dd gd ds => some (n, wordP 0x21 dd gd 0 ds 0)
  | .pnew n dd gd words => some (n, wordP 0x22 dd gd 0 0 words.toNat)
  | .qdepth n gd ga sel out => some (n, wordI 0x28 gd ga (sel * 2 ^ 16 + out))
  | .sparge n gd ga => some (n, wordI 0x29 gd ga 0)
  | .wait n gd mask => some (n, wordI 0x30 gd 0 mask.toNat)
  | .tnowSample n gd => some (n, wordI 0x31 gd 0 0)
  | .tnowPart n gd part => some (n, wordI 0x31 gd 0 part.toNat)
  | .tarmAt n gd ga => some (n, wordI 0x32 gd ga 0)
  | .tarmAfter n gd ga => some (n, wordI 0x32 gd ga 0x10000)
  | .tarmCancel n gd => some (n, wordI 0x32 gd 0 0x20000)
  | .tarmOutput n gd ga output => some (n, wordI 0x32 gd ga (0x30000 + output))
  | .tstamp n gd ga part => some (n, wordI 0x33 gd ga part.toNat)
  | .outat n gd ga output active => some (n, wordI 0x34 gd ga (b2n (!active) * 0x10 + output))
  | .outatCancel n gd output => some (n, wordI 0x34 gd 0 (0x20 + output))
  | .gstage n gd ga sched entry => some (n, wordI 0x38 gd ga (entry * 4 + sched))
  | .garm n gd ga => some (n, wordI 0x39 gd ga 0)
  | .garmDisarm n gd => some (n, wordI 0x39 gd 0 1)
  | .polset n gd ga => some (n, wordI 0x3A gd ga 0)
  | .tap n gd ga => some (n, wordI 0x3C gd ga 0)
  | .sealGcmSeal n gd ga => some (n, wordI 0x3D gd ga 0)
  | .sealGcmOpen n gd ga => some (n, wordI 0x3D gd ga 0)
  | .sealHmac n gd ga => some (n, wordI 0x3D gd ga 0)
  | .sealXts n gd ga => some (n, wordI 0x3D gd ga 0)
  | .jrec n gd ga => some (n, wordI 0x3E gd ga 0)
  | _ => none

/-- An instruction as its word spells it: the rows of SEAL share a word (assumption 125, DESIGN CHOICE). -/
def Instr.spelling : Instr → Instr
  | .sealGcmOpen n gd ga => .sealGcmSeal n gd ga
  | .sealHmac n gd ga => .sealGcmSeal n gd ga
  | .sealXts n gd ga => .sealGcmSeal n gd ga
  | i => i

/-- Whether an instruction's operands are ones that the rules let its word carry: a listed CSR, and only FLAGS to be
written (R233); a listed cond (R227); a PHDR field, a field that PSETH writes (R256), a width (R257); the lengths of PCOPY and
PNEW (R258, R259); the OUT and ga of QDEPTH (R265); a WAIT mask (R268); and the parts of TNOW and TSTAMP (R269, R271). -/
def Instr.legal : Instr → Bool
  | .csrr _ _ csr => decide (csr.toNat ≤ 9)
  | .csrw _ csr _ => csr == 0
  | .b _ cc _ => cc != 15
  | .call _ cc _ => cc != 15
  | .jr _ cc _ _ => cc != 15
  | .phdr _ _ _ field => decide (field.toNat ≤ 12)
  | .pseth _ _ field _ => fieldWritable field.toNat
  | .pld _ _ _ _ _ width => decide (width.toNat < 3)
  | .pst _ _ _ _ _ width => decide (width.toNat < 3)
  | .pcopyToMemory _ _ _ _ m => decide (4 ≤ m.toNat) && decide (m.toNat ≤ 512) && m.toNat % 4 == 0
  | .pcopyFromMemory _ _ _ _ m => decide (4 ≤ m.toNat) && decide (m.toNat ≤ 512) && m.toNat % 4 == 0
  | .pnew _ _ _ words => decide (words.toNat ≤ 128)
  | .qdepth _ _ ga sel out => out != 3 && (sel == 1 || (out == 0 && ga == 0))
  | .wait _ _ mask => mask != 0
  | .tnowPart _ _ part => part == 1 || part == 2
  | .tstamp _ _ _ part => decide (part.toNat ≤ 1)
  | _ => true

/-! ### The fetch (R226, R228, R393) -/

/-- Internal address of a context's next instruction. -/
def Hub.fetchAddr (h : Hub) (n : Nat) : Nat := progBase (n / 12) + 4 * (h.ctx n).pc

/-- The word that a running context's fetch returns; none where the fetch itself is refused, held or in error. -/
def Hub.fetched (h : Hub) (n : Nat) : Option Word :=
  if h.ctxState n = cxRunning then
    match h.decide_ 2 .fetch (h.fetchAddr n) with
    | .ok _ _ => if h.badWord (h.fetchAddr n) then none else some (h.mword (h.fetchAddr n))
    | _ => none
  else none

/-- A command that issues an instruction acts where the word at the PC spells it, and an illegal word traps whatever command
issues it (R226); `i` is none for ILLEGAL_INSTRUCTION. A command that names another instruction than the word's does nothing
(assumption 7, DESIGN CHOICE; 125, DESIGN CHOICE). -/
def Hub.fetching (h : Hub) (n : Fin 96) (i : Option Instr) (f : Hub → Hub) : Hub :=
  match h.fetched n with
  | none => f h
  | some w =>
    match spelled n w with
    | none => h.issue n (fun h => (h, .illegal))
    | some j => if i = some j then f h else h

/-- An instruction of a context issued by a command. -/
def State.fetching (s : State) (n : Fin 96) (i : Option Instr) (f : Hub → Hub) : Result := s.upd (fun h => h.fetching n i f)

end Sys2Proof.Machine
end

