-- ==== Sys2Proof/Machine/Decmond.lean ====
section
/-! DEFINITION. The core instructions of Decmond (chapter 08): system, ALU, immediate, compare, branches, loads and
stores, and the context status registers. -/

namespace Sys2Proof.Machine

/-! ### System instructions (R229–R233, R248) -/

/-- ILLEGAL_INSTRUCTION (R226). -/
def Hub.iIllegal (h : Hub) (n : Nat) : Hub := h.issue n (fun h => (h, .illegal))

/-- NOP (R229). -/
def Hub.iNop (h : Hub) (n : Nat) : Hub := h.issue n (fun h => (h, .next))

/-- YIELD (R230). -/
def Hub.iYield (h : Hub) (n : Nat) : Hub :=
  h.issue n (fun h => (h.setCtx n { h.ctx n with wdogAt := h.root }, .next))

/-- HALT (R231). -/
def Hub.iHalt (h : Hub) (n : Nat) : Hub := h.issue n (fun h => (h, .halt))

/-- TRAP (R231). -/
def Hub.iTrap (h : Hub) (n code : Nat) : Hub := h.issue n (fun h => (h, .trap trTrap code))

/-- FENCE (R232): every access of the model is complete and visible when it retires, but one that the context has left
unfinished in the register window (R244), for which FENCE waits. -/
def Hub.iFence (h : Hub) (n : Nat) : Hub :=
  h.issue n (fun h => if h.tun.left.any (fun w => w.ctx == n) then (h, .stall) else (h, .next))

/-- The tun that executes a context now (R219, PLACE). -/
def Hub.tunOf (h : Hub) (n : Nat) : Nat := if h.get R.TUNC_STATUS_SERVED = n / 12 then 8 else n / 12

/-- µs left before the watchdog trap (WDOG CSR, R202). -/
def Hub.wdogLeft (h : Hub) (n : Nat) : Nat :=
  let l := h.get R.TUNC_WDOG_LIMIT
  if l = 0 then 0xFFFF else l - (h.root - (h.ctx n).wdogAt) / us

/-- The value of a context status register (R248); none for a number not listed. -/
def Hub.csr (h : Hub) (n csr : Nat) : Option Word :=
  match csr with
  | 0 => some (W (h.ctx n).flags.word)
  | 1 => some (W (h.ownTid n))
  | 2 => some (W (h.tunOf n + n % 12 * 16 + h.addr * 256))
  | 3 => some (h.rd (A.TUNC_CTX_CODE n))
  | 4 => some (h.rd (A.TUNC_CTX_DATA n))
  | 5 => some (h.rd (A.TUNC_CTX_ISSUED n))
  | 6 => some (W (h.eventBits n))
  | 7 => some (W (h.get (R.TUNC_CTX_STATUS_RESTARTS n) + (h.ctx n).restartCause * 256))
  | 8 => some (W (h.wdogLeft n))
  | 9 => some (h.rd A.DEV_BEHAVIOUR)
  | _ => none

/-- CSRR (R233). -/
def Hub.iCsrr (h : Hub) (n gd csr : Nat) : Hub :=
  h.issue n (fun h => match h.csr n csr with
    | some v => (h.setGpr n gd v, .next)
    | none => (h, .illegal))

/-- CSRW (R233): FLAGS is the one CSR that may be written. -/
def Hub.iCsrw (h : Hub) (n csr ga : Nat) : Hub :=
  h.issue n (fun h =>
    if csr = 0 then (h.setCtx n ((h.ctx n).setFlags (Flags.ofWord (h.gpr n ga).toNat)), .next) else (h, .illegal))

/-! ### ALU register operations (R234–R236) -/

/-- ADD. -/
def Hub.iAdd (h : Hub) (n gd ga gb : Nat) (f : Bool) : Hub :=
  h.issueAlu n gd f (fun x => x.gpr ga + x.gpr gb) (fun x => addFlags (x.gpr ga) (x.gpr gb) false)

/-- SUB. -/
def Hub.iSub (h : Hub) (n gd ga gb : Nat) (f : Bool) : Hub :=
  h.issueAlu n gd f (fun x => x.gpr ga - x.gpr gb) (fun x => addFlags (x.gpr ga) (~~~x.gpr gb) true)

/-- ADC. -/
def Hub.iAdc (h : Hub) (n gd ga gb : Nat) (f : Bool) : Hub :=
  h.issueAlu n gd f (fun x => W (addSum (x.gpr ga) (x.gpr gb) x.c)) (fun x => addFlags (x.gpr ga) (x.gpr gb) x.c)

/-- SBC. -/
def Hub.iSbc (h : Hub) (n gd ga gb : Nat) (f : Bool) : Hub :=
  h.issueAlu n gd f (fun x => W (addSum (x.gpr ga) (~~~x.gpr gb) x.c)) (fun x => addFlags (x.gpr ga) (~~~x.gpr gb) x.c)

/-- A register operation whose flags are Z and N (R234). -/
def Hub.issueLogic (h : Hub) (n gd : Nat) (f : Bool) (res : Ctx → Word) : Hub :=
  h.issueAlu n gd f res (fun x => x.flags.logic (res x))

/-- AND. -/
def Hub.iAnd (h : Hub) (n gd ga gb : Nat) (f : Bool) : Hub := h.issueLogic n gd f (fun x => x.gpr ga &&& x.gpr gb)

/-- OR. -/
def Hub.iOr (h : Hub) (n gd ga gb : Nat) (f : Bool) : Hub := h.issueLogic n gd f (fun x => x.gpr ga ||| x.gpr gb)

/-- XOR. -/
def Hub.iXor (h : Hub) (n gd ga gb : Nat) (f : Bool) : Hub := h.issueLogic n gd f (fun x => x.gpr ga ^^^ x.gpr gb)

/-- ANDN. -/
def Hub.iAndn (h : Hub) (n gd ga gb : Nat) (f : Bool) : Hub := h.issueLogic n gd f (fun x => x.gpr ga &&& ~~~x.gpr gb)

/-- The shift amount in a register (R236). -/
def amount (w : Word) : Nat := w.toNat % 32

/-- SHL. -/
def Hub.iShl (h : Hub) (n gd ga gb : Nat) (f : Bool) : Hub :=
  h.issueAlu n gd f (fun x => x.gpr ga <<< amount (x.gpr gb))
    (fun x => x.flags.shift (x.gpr ga <<< amount (x.gpr gb)) (shlCarry (x.gpr ga) (amount (x.gpr gb))))

/-- SHR. -/
def Hub.iShr (h : Hub) (n gd ga gb : Nat) (f : Bool) : Hub :=
  h.issueAlu n gd f (fun x => x.gpr ga >>> amount (x.gpr gb))
    (fun x => x.flags.shift (x.gpr ga >>> amount (x.gpr gb)) (shrCarry (x.gpr ga) (amount (x.gpr gb))))

/-- SAR. -/
def Hub.iSar (h : Hub) (n gd ga gb : Nat) (f : Bool) : Hub :=
  h.issueAlu n gd f (fun x => (x.gpr ga).sshiftRight (amount (x.gpr gb)))
    (fun x => x.flags.shift ((x.gpr ga).sshiftRight (amount (x.gpr gb))) (shrCarry (x.gpr ga) (amount (x.gpr gb))))

/-- ROR. -/
def Hub.iRor (h : Hub) (n gd ga gb : Nat) (f : Bool) : Hub :=
  h.issueAlu n gd f (fun x => (x.gpr ga).rotateRight (amount (x.gpr gb)))
    (fun x => x.flags.shift ((x.gpr ga).rotateRight (amount (x.gpr gb)))
      (rorCarry ((x.gpr ga).rotateRight (amount (x.gpr gb))) (amount (x.gpr gb))))

/-- MUL. -/
def Hub.iMul (h : Hub) (n gd ga gb : Nat) (f : Bool) : Hub := h.issueLogic n gd f (fun x => x.gpr ga * x.gpr gb)

/-- MULHU. -/
def Hub.iMulhu (h : Hub) (n gd ga gb : Nat) (f : Bool) : Hub :=
  h.issueLogic n gd f (fun x => W ((x.gpr ga).toNat * (x.gpr gb).toNat / 2 ^ 32))

/-- MULHS. -/
def Hub.iMulhs (h : Hub) (n gd ga gb : Nat) (f : Bool) : Hub :=
  h.issueLogic n gd f (fun x => BitVec.ofInt 32 ((x.gpr ga).toInt * (x.gpr gb).toInt / 2 ^ 32))

/-- MINU. -/
def Hub.iMinu (h : Hub) (n gd ga gb : Nat) (f : Bool) : Hub :=
  h.issueLogic n gd f (fun x => if (x.gpr ga).toNat ≤ (x.gpr gb).toNat then x.gpr ga else x.gpr gb)

/-- MAXU. -/
def Hub.iMaxu (h : Hub) (n gd ga gb : Nat) (f : Bool) : Hub :=
  h.issueLogic n gd f (fun x => if (x.gpr ga).toNat ≤ (x.gpr gb).toNat then x.gpr gb else x.gpr ga)

/-- MINS. -/
def Hub.iMins (h : Hub) (n gd ga gb : Nat) (f : Bool) : Hub :=
  h.issueLogic n gd f (fun x => if (x.gpr ga).toInt ≤ (x.gpr gb).toInt then x.gpr ga else x.gpr gb)

/-- MAXS. -/
def Hub.iMaxs (h : Hub) (n gd ga gb : Nat) (f : Bool) : Hub :=
  h.issueLogic n gd f (fun x => if (x.gpr ga).toInt ≤ (x.gpr gb).toInt then x.gpr gb else x.gpr ga)

/-- Leading zeros of a number below 2^k. -/
def leadingZeros : Nat → Nat → Nat
  | 0, _ => 0
  | k + 1, v => if bit v k then 0 else leadingZeros k v + 1

/-- One bits of a number below 2^k. -/
def ones : Nat → Nat → Nat
  | 0, _ => 0
  | k + 1, v => b2n (bit v k) + ones k v

/-- CLZ. -/
def Hub.iClz (h : Hub) (n gd ga : Nat) (f : Bool) : Hub := h.issueLogic n gd f (fun x => W (leadingZeros 32 (x.gpr ga).toNat))

/-- POPC. -/
def Hub.iPopc (h : Hub) (n gd ga : Nat) (f : Bool) : Hub := h.issueLogic n gd f (fun x => W (ones 32 (x.gpr ga).toNat))

/-- BSWAP. -/
def Hub.iBswap (h : Hub) (n gd ga : Nat) (f : Bool) : Hub :=
  h.issueLogic n gd f (fun x => W (beNat (wordBytes (x.gpr ga))))

/-! ### Immediate operations, compare and test (R237–R240) -/

/-- ADDI. -/
def Hub.iAddi (h : Hub) (n gd ga : Nat) (imm : BitVec 18) : Hub := h.issueReg n gd (fun x => x.gpr ga + sext18 imm)

/-- ANDI. -/
def Hub.iAndi (h : Hub) (n gd ga : Nat) (imm : BitVec 18) : Hub := h.issueReg n gd (fun x => x.gpr ga &&& sext18 imm)

/-- ORI. -/
def Hub.iOri (h : Hub) (n gd ga : Nat) (imm : BitVec 18) : Hub := h.issueReg n gd (fun x => x.gpr ga ||| zext18 imm)

/-- XORI. -/
def Hub.iXori (h : Hub) (n gd ga : Nat) (imm : BitVec 18) : Hub := h.issueReg n gd (fun x => x.gpr ga ^^^ zext18 imm)

/-- MOVHI. -/
def Hub.iMovhi (h : Hub) (n gd : Nat) (imm : BitVec 18) : Hub := h.issueReg n gd (fun _ => zext18 imm <<< 14)

/-- SHLI. -/
def Hub.iShli (h : Hub) (n gd ga k : Nat) : Hub := h.issueReg n gd (fun x => x.gpr ga <<< k)

/-- SHRI. -/
def Hub.iShri (h : Hub) (n gd ga k : Nat) : Hub := h.issueReg n gd (fun x => x.gpr ga >>> k)

/-- SARI. -/
def Hub.iSari (h : Hub) (n gd ga k : Nat) : Hub := h.issueReg n gd (fun x => (x.gpr ga).sshiftRight k)

/-- RORI. -/
def Hub.iRori (h : Hub) (n gd ga k : Nat) : Hub := h.issueReg n gd (fun x => (x.gpr ga).rotateRight k)

/-- CMP. -/
def Hub.iCmp (h : Hub) (n ga gb : Nat) : Hub := h.issueFlags n (fun x => addFlags (x.gpr ga) (~~~x.gpr gb) true)

/-- CMPI. -/
def Hub.iCmpi (h : Hub) (n ga : Nat) (imm : BitVec 18) : Hub :=
  h.issueFlags n (fun x => addFlags (x.gpr ga) (~~~sext18 imm) true)

/-- TST. -/
def Hub.iTst (h : Hub) (n ga gb : Nat) : Hub := h.issueFlags n (fun x => x.flags.logic (x.gpr ga &&& x.gpr gb))

/-- TSTI. -/
def Hub.iTsti (h : Hub) (n ga : Nat) (imm : BitVec 18) : Hub :=
  h.issueFlags n (fun x => x.flags.logic (x.gpr ga &&& sext18 imm))

/-! ### Branches, calls and jumps (R245–R247) -/

/-- The target of a branch: PC + sext22(off22) as a 32-bit index (R224, R245). -/
def branchTarget (pc : Nat) (off : BitVec 22) : Nat := (W pc + off.signExtend 32).toNat

/-- A conditional transfer; a cond of 0xF is illegal (R227). -/
def Hub.issueJump (h : Hub) (n cc : Nat) (link : Bool) (target : Ctx → Nat) : Hub :=
  h.issue n (fun h =>
    let x := h.ctx n
    if cc = 15 then (h, .illegal)
    else if x.flags.cond cc then (h, .jump (target x) link)
    else (h, .next))

/-- B. -/
def Hub.iB (h : Hub) (n cc : Nat) (off : BitVec 22) : Hub := h.issueJump n cc false (fun x => branchTarget x.pc off)

/-- CALL. -/
def Hub.iCall (h : Hub) (n cc : Nat) (off : BitVec 22) : Hub := h.issueJump n cc true (fun x => branchTarget x.pc off)

/-- JR. -/
def Hub.iJr (h : Hub) (n cc ga : Nat) (link : Bool) : Hub := h.issueJump n cc link (fun x => (x.gpr ga).toNat)

/-! ### Loads and stores (R196–R198, R241–R244) -/

/-- Whether `m` bytes at a context address lie wholly in the data window (R197). -/
def Hub.inData (h : Hub) (n a m : Nat) : Bool :=
  let (b, s) := h.dataWin n
  decide (64 * b ≤ a) && decide (a + m ≤ 64 * (b + s))

/-- Where a context address reaches (R196). -/
inductive Space where
  | data
  | common
  | window
  | outside
deriving DecidableEq, Repr

/-- The space of a context address. -/
def spaceOf (a : Nat) : Space :=
  if a < 0x10000 then .data
  else if 0x100000 ≤ a ∧ a < 0x180000 then .common
  else if 0x1000000 ≤ a ∧ a < 0x2000000 then .window
  else .outside

/-- The exit for an access that the table did not allow. -/
def AccRes.exit (r : AccRes) (ea : Nat) : Exit := if r = .held then .stall else .trap trAccess ea

/-- A window access that stalls is pending: it completes even if its context stops, traps or moves meanwhile (R244). -/
def Hub.winPend (h : Hub) (n : Nat) (w : WinAcc) : Hub := h.setCtx n { h.ctx n with win := some w }

/-- A window access has ended. -/
def Hub.winDone (h : Hub) (n : Nat) : Hub := h.setCtx n { h.ctx n with win := none }

/-- A load through the register window (R196, R228 orders 6 to 9). -/
def Hub.winLoad (h : Hub) (n ea m : Nat) : Hub × Except Exit Nat :=
  let a := ea - 0x1000000
  match h.access 2 .read a with
  | (h, .ok) =>
    match h.busRead a m with
    | (h, some v) => (h.winDone n, .ok v)
    | (h, none) => (h.winDone n, .error (.trap trEcc ea))
  | (h, .held) => (h.winPend n ⟨n, a, m, none⟩, .error .stall)
  | (h, r) => (h.winDone n, .error (r.exit ea))

/-- A store through the register window; one into a range whose writes are held stalls (R243). -/
def Hub.winStore (h : Hub) (n ea m v : Nat) : Hub × Exit :=
  let a := ea - 0x1000000
  match h.access 2 .write a with
  | (h, .ok) =>
    if h.rangeHeld a m then (h.winPend n ⟨n, a, m, some v⟩, .stall) else ((h.winDone n).busWriteWord 2 a m v, .next)
  | (h, .held) => (h.winPend n ⟨n, a, m, some v⟩, .stall)
  | (h, r) => (h.winDone n, r.exit ea)

/-- A load from memory: a single-bit error is corrected, a double-bit error traps (R195, R228 order 9). -/
def Hub.dataLoad (h : Hub) (ea a m : Nat) : Hub × Except Exit Nat :=
  if h.badRange a m then (h, .error (.trap trEcc ea)) else (h.corrected a m, .ok (leNat (h.mbytes a m)))

/-- A load's value, or how it ends (R228 orders 5 to 9). -/
def Hub.memLoad (h : Hub) (n ea m : Nat) : Hub × Except Exit Nat :=
  match spaceOf ea with
  | .outside => (h, .error (.trap trAddr ea))
  | .data =>
    if ea % m ≠ 0 then (h, .error (.trap trAlign ea))
    else if !h.inData n ea m then (h, .error (.trap trDataBound ea))
    else
      h.dataLoad ea (dataBase (n / 12) + ea) m
  | .common =>
    if ea % m ≠ 0 then (h, .error (.trap trAlign ea))
    else
      match h.access 2 .read (ea + 0x200000) with
      | (h, .ok) => h.dataLoad ea (ea + 0x200000) m
      | (h, r) => (h, .error (r.exit ea))
  | .window => if ea % m ≠ 0 then (h, .error (.trap trAlign ea)) else h.winLoad n ea m

/-- A store, or how it ends (R228 orders 5 to 8); one into a range whose writes are held stalls (R243, R281). -/
def Hub.storeTo (h : Hub) (n ea m v : Nat) : Hub × Exit :=
  match spaceOf ea with
  | .outside => (h, .trap trAddr ea)
  | .data =>
    if ea % m ≠ 0 then (h, .trap trAlign ea)
    else if !h.inData n ea m then (h, .trap trDataBound ea)
    else
      let a := dataBase (n / 12) + ea
      if h.rangeHeld a m then (h, .stall) else (h.mstore a (leBytes m v), .next)
  | .common =>
    if ea % m ≠ 0 then (h, .trap trAlign ea)
    else
      let a := ea + 0x200000
      match h.access 2 .write a with
      | (h, .ok) => if h.rangeHeld a m then (h, .stall) else (h.mstore a (leBytes m v), .next)
      | (h, r) => (h, r.exit ea)
  | .window => if ea % m ≠ 0 then (h, .trap trAlign ea) else h.winStore n ea m v

/-- The effective address (R241). -/
def Hub.effAddr (h : Hub) (n ga : Nat) (imm : BitVec 18) : Nat := (h.gpr n ga + sext18 imm).toNat

/-- A load of `m` bytes, zero-extended (R241). -/
def Hub.iLoad (h : Hub) (n gd ga : Nat) (imm : BitVec 18) (m : Nat) : Hub :=
  h.issue n (fun h => match h.memLoad n (h.effAddr n ga imm) m with
    | (h, .ok v) => (h.setGpr n gd (W v), .next)
    | (h, .error e) => (h, e))

/-- A store of the low `m` bytes of gd (R241). -/
def Hub.iStore (h : Hub) (n gd ga : Nat) (imm : BitVec 18) (m : Nat) : Hub :=
  h.issue n (fun h => h.storeTo n (h.effAddr n ga imm) m ((h.gpr n gd).toNat % 2 ^ (8 * m)))

/-! ### The rows of the table -/

/-- ILLEGAL_INSTRUCTION (R226). -/
def execIllegalInstruction (n : Fin 96) (s : State) : Result := s.fetching n none (fun h => h.iIllegal n)

/-- NOP (R229). -/
def execNop (n : Fin 96) (s : State) : Result := s.fetching n (some (.nop n)) (fun h => h.iNop n)

/-- YIELD (R230). -/
def execYield (n : Fin 96) (s : State) : Result := s.fetching n (some (.yield n)) (fun h => h.iYield n)

/-- HALT (R231). -/
def execHalt (n : Fin 96) (s : State) : Result := s.fetching n (some (.halt n)) (fun h => h.iHalt n)

/-- TRAP (R231). -/
def execTrap (n : Fin 96) (code : BitVec 12) (s : State) : Result :=
  s.fetching n (some (.trap n code)) (fun h => h.iTrap n code.toNat)

/-- FENCE (R232). -/
def execFence (n : Fin 96) (s : State) : Result := s.fetching n (some (.fence n)) (fun h => h.iFence n)

/-- CSRR (R233). -/
def execCsrr (n : Fin 96) (gd : Fin 16) (csr : BitVec 12) (s : State) : Result :=
  s.fetching n (some (.csrr n gd csr)) (fun h => h.iCsrr n gd csr.toNat)

/-- CSRW (R233). -/
def execCsrw (n : Fin 96) (csr : BitVec 12) (ga : Fin 16) (s : State) : Result :=
  s.fetching n (some (.csrw n csr ga)) (fun h => h.iCsrw n csr.toNat ga)

/-- ADD (R234). -/
def execAdd (n : Fin 96) (gd : Fin 16) (ga : Fin 16) (gb : Fin 16) (f : Bool) (s : State) : Result :=
  s.fetching n (some (.add n gd ga gb f)) (fun h => h.iAdd n gd ga gb f)

/-- SUB (R234). -/
def execSub (n : Fin 96) (gd : Fin 16) (ga : Fin 16) (gb : Fin 16) (f : Bool) (s : State) : Result :=
  s.fetching n (some (.sub n gd ga gb f)) (fun h => h.iSub n gd ga gb f)

/-- ADC (R234). -/
def execAdc (n : Fin 96) (gd : Fin 16) (ga : Fin 16) (gb : Fin 16) (f : Bool) (s : State) : Result :=
  s.fetching n (some (.adc n gd ga gb f)) (fun h => h.iAdc n gd ga gb f)

/-- SBC (R234). -/
def execSbc (n : Fin 96) (gd : Fin 16) (ga : Fin 16) (gb : Fin 16) (f : Bool) (s : State) : Result :=
  s.fetching n (some (.sbc n gd ga gb f)) (fun h => h.iSbc n gd ga gb f)

/-- AND (R234). -/
def execAnd (n : Fin 96) (gd : Fin 16) (ga : Fin 16) (gb : Fin 16) (f : Bool) (s : State) : Result :=
  s.fetching n (some (.and n gd ga gb f)) (fun h => h.iAnd n gd ga gb f)

/-- OR (R234). -/
def execOr (n : Fin 96) (gd : Fin 16) (ga : Fin 16) (gb : Fin 16) (f : Bool) (s : State) : Result :=
  s.fetching n (some (.or n gd ga gb f)) (fun h => h.iOr n gd ga gb f)

/-- XOR (R234). -/
def execXor (n : Fin 96) (gd : Fin 16) (ga : Fin 16) (gb : Fin 16) (f : Bool) (s : State) : Result :=
  s.fetching n (some (.xor n gd ga gb f)) (fun h => h.iXor n gd ga gb f)

/-- ANDN (R234). -/
def execAndn (n : Fin 96) (gd : Fin 16) (ga : Fin 16) (gb : Fin 16) (f : Bool) (s : State) : Result :=
  s.fetching n (some (.andn n gd ga gb f)) (fun h => h.iAndn n gd ga gb f)

/-- SHL (R236). -/
def execShl (n : Fin 96) (gd : Fin 16) (ga : Fin 16) (gb : Fin 16) (f : Bool) (s : State) : Result :=
  s.fetching n (some (.shl n gd ga gb f)) (fun h => h.iShl n gd ga gb f)

/-- SHR (R236). -/
def execShr (n : Fin 96) (gd : Fin 16) (ga : Fin 16) (gb : Fin 16) (f : Bool) (s : State) : Result :=
  s.fetching n (some (.shr n gd ga gb f)) (fun h => h.iShr n gd ga gb f)

/-- SAR (R236). -/
def execSar (n : Fin 96) (gd : Fin 16) (ga : Fin 16) (gb : Fin 16) (f : Bool) (s : State) : Result :=
  s.fetching n (some (.sar n gd ga gb f)) (fun h => h.iSar n gd ga gb f)

/-- ROR (R236). -/
def execRor (n : Fin 96) (gd : Fin 16) (ga : Fin 16) (gb : Fin 16) (f : Bool) (s : State) : Result :=
  s.fetching n (some (.ror n gd ga gb f)) (fun h => h.iRor n gd ga gb f)

/-- MUL (R234). -/
def execMul (n : Fin 96) (gd : Fin 16) (ga : Fin 16) (gb : Fin 16) (f : Bool) (s : State) : Result :=
  s.fetching n (some (.mul n gd ga gb f)) (fun h => h.iMul n gd ga gb f)

/-- MULHU (R234). -/
def execMulhu (n : Fin 96) (gd : Fin 16) (ga : Fin 16) (gb : Fin 16) (f : Bool) (s : State) : Result :=
  s.fetching n (some (.mulhu n gd ga gb f)) (fun h => h.iMulhu n gd ga gb f)

/-- MULHS (R234). -/
def execMulhs (n : Fin 96) (gd : Fin 16) (ga : Fin 16) (gb : Fin 16) (f : Bool) (s : State) : Result :=
  s.fetching n (some (.mulhs n gd ga gb f)) (fun h => h.iMulhs n gd ga gb f)

/-- MINU (R234). -/
def execMinu (n : Fin 96) (gd : Fin 16) (ga : Fin 16) (gb : Fin 16) (f : Bool) (s : State) : Result :=
  s.fetching n (some (.minu n gd ga gb f)) (fun h => h.iMinu n gd ga gb f)

/-- MAXU (R234). -/
def execMaxu (n : Fin 96) (gd : Fin 16) (ga : Fin 16) (gb : Fin 16) (f : Bool) (s : State) : Result :=
  s.fetching n (some (.maxu n gd ga gb f)) (fun h => h.iMaxu n gd ga gb f)

/-- MINS (R234). -/
def execMins (n : Fin 96) (gd : Fin 16) (ga : Fin 16) (gb : Fin 16) (f : Bool) (s : State) : Result :=
  s.fetching n (some (.mins n gd ga gb f)) (fun h => h.iMins n gd ga gb f)

/-- MAXS (R234). -/
def execMaxs (n : Fin 96) (gd : Fin 16) (ga : Fin 16) (gb : Fin 16) (f : Bool) (s : State) : Result :=
  s.fetching n (some (.maxs n gd ga gb f)) (fun h => h.iMaxs n gd ga gb f)

/-- CLZ (R234). -/
def execClz (n : Fin 96) (gd : Fin 16) (ga : Fin 16) (f : Bool) (s : State) : Result :=
  s.fetching n (some (.clz n gd ga f)) (fun h => h.iClz n gd ga f)

/-- POPC (R234). -/
def execPopc (n : Fin 96) (gd : Fin 16) (ga : Fin 16) (f : Bool) (s : State) : Result :=
  s.fetching n (some (.popc n gd ga f)) (fun h => h.iPopc n gd ga f)

/-- BSWAP (R234). -/
def execBswap (n : Fin 96) (gd : Fin 16) (ga : Fin 16) (f : Bool) (s : State) : Result :=
  s.fetching n (some (.bswap n gd ga f)) (fun h => h.iBswap n gd ga f)

/-- ADDI (R237). -/
def execAddi (n : Fin 96) (gd : Fin 16) (ga : Fin 16) (imm : BitVec 18) (s : State) : Result :=
  s.fetching n (some (.addi n gd ga imm)) (fun h => h.iAddi n gd ga imm)

/-- ANDI (R237). -/
def execAndi (n : Fin 96) (gd : Fin 16) (ga : Fin 16) (imm : BitVec 18) (s : State) : Result :=
  s.fetching n (some (.andi n gd ga imm)) (fun h => h.iAndi n gd ga imm)

/-- ORI (R237). -/
def execOri (n : Fin 96) (gd : Fin 16) (ga : Fin 16) (imm : BitVec 18) (s : State) : Result :=
  s.fetching n (some (.ori n gd ga imm)) (fun h => h.iOri n gd ga imm)

/-- XORI (R237). -/
def execXori (n : Fin 96) (gd : Fin 16) (ga : Fin 16) (imm : BitVec 18) (s : State) : Result :=
  s.fetching n (some (.xori n gd ga imm)) (fun h => h.iXori n gd ga imm)

/-- MOVHI (R238). -/
def execMovhi (n : Fin 96) (gd : Fin 16) (imm : BitVec 18) (s : State) : Result :=
  s.fetching n (some (.movhi n gd imm)) (fun h => h.iMovhi n gd imm)

/-- SHLI (R239). -/
def execShli (n : Fin 96) (gd : Fin 16) (ga : Fin 16) (k : Fin 32) (s : State) : Result :=
  s.fetching n (some (.shli n gd ga k)) (fun h => h.iShli n gd ga k)

/-- SHRI (R239). -/
def execShri (n : Fin 96) (gd : Fin 16) (ga : Fin 16) (k : Fin 32) (s : State) : Result :=
  s.fetching n (some (.shri n gd ga k)) (fun h => h.iShri n gd ga k)

/-- SARI (R239). -/
def execSari (n : Fin 96) (gd : Fin 16) (ga : Fin 16) (k : Fin 32) (s : State) : Result :=
  s.fetching n (some (.sari n gd ga k)) (fun h => h.iSari n gd ga k)

/-- RORI (R239). -/
def execRori (n : Fin 96) (gd : Fin 16) (ga : Fin 16) (k : Fin 32) (s : State) : Result :=
  s.fetching n (some (.rori n gd ga k)) (fun h => h.iRori n gd ga k)

/-- CMP (R240). -/
def execCmp (n : Fin 96) (ga : Fin 16) (gb : Fin 16) (s : State) : Result :=
  s.fetching n (some (.cmp n ga gb)) (fun h => h.iCmp n ga gb)

/-- CMPI (R240). -/
def execCmpi (n : Fin 96) (ga : Fin 16) (imm : BitVec 18) (s : State) : Result :=
  s.fetching n (some (.cmpi n ga imm)) (fun h => h.iCmpi n ga imm)

/-- TST (R240). -/
def execTst (n : Fin 96) (ga : Fin 16) (gb : Fin 16) (s : State) : Result :=
  s.fetching n (some (.tst n ga gb)) (fun h => h.iTst n ga gb)

/-- TSTI (R240). -/
def execTsti (n : Fin 96) (ga : Fin 16) (imm : BitVec 18) (s : State) : Result :=
  s.fetching n (some (.tsti n ga imm)) (fun h => h.iTsti n ga imm)

/-- LDW (R241). -/
def execLdw (n : Fin 96) (gd : Fin 16) (ga : Fin 16) (imm : BitVec 18) (s : State) : Result :=
  s.fetching n (some (.ldw n gd ga imm)) (fun h => h.iLoad n gd ga imm 4)

/-- LDH (R241). -/
def execLdh (n : Fin 96) (gd : Fin 16) (ga : Fin 16) (imm : BitVec 18) (s : State) : Result :=
  s.fetching n (some (.ldh n gd ga imm)) (fun h => h.iLoad n gd ga imm 2)

/-- LDB (R241). -/
def execLdb (n : Fin 96) (gd : Fin 16) (ga : Fin 16) (imm : BitVec 18) (s : State) : Result :=
  s.fetching n (some (.ldb n gd ga imm)) (fun h => h.iLoad n gd ga imm 1)

/-- STW (R241). -/
def execStw (n : Fin 96) (gd : Fin 16) (ga : Fin 16) (imm : BitVec 18) (s : State) : Result :=
  s.fetching n (some (.stw n gd ga imm)) (fun h => h.iStore n gd ga imm 4)

/-- STH (R241). -/
def execSth (n : Fin 96) (gd : Fin 16) (ga : Fin 16) (imm : BitVec 18) (s : State) : Result :=
  s.fetching n (some (.sth n gd ga imm)) (fun h => h.iStore n gd ga imm 2)

/-- STB (R241). -/
def execStb (n : Fin 96) (gd : Fin 16) (ga : Fin 16) (imm : BitVec 18) (s : State) : Result :=
  s.fetching n (some (.stb n gd ga imm)) (fun h => h.iStore n gd ga imm 1)

/-- B (R245). -/
def execB (n : Fin 96) (cond : BitVec 4) (off : BitVec 22) (s : State) : Result :=
  s.fetching n (some (.b n cond off)) (fun h => h.iB n cond.toNat off)

/-- CALL (R245). -/
def execCall (n : Fin 96) (cond : BitVec 4) (off : BitVec 22) (s : State) : Result :=
  s.fetching n (some (.call n cond off)) (fun h => h.iCall n cond.toNat off)

/-- JR (R246). -/
def execJr (n : Fin 96) (cond : BitVec 4) (ga : Fin 16) (link : Bool) (s : State) : Result :=
  s.fetching n (some (.jr n cond ga link)) (fun h => h.iJr n cond.toNat ga link)

end Sys2Proof.Machine
end

