-- ==== Sys2Proof/Machine/DecmondPacket.lean ====
section
/-! DEFINITION. The packet and queue instructions of Decmond (R249, R250, R252–R266): descriptor registers, their
headers and payloads, emission, copies, splits and joins, queue depths and sparges. -/

namespace Sys2Proof.Machine

/-! ### Results and packet traps (R249, R250) -/

/-- OK. -/
abbrev resOk : Word := 0#32
/-- EMPTY. -/
abbrev resEmpty : Word := 0xFFFFFFFF#32
/-- NO_ROOM. -/
abbrev resNoRoom : Word := 0xFFFFFFFE#32
/-- POLICED. -/
abbrev resPoliced : Word := 0xFFFFFFFD#32
/-- REFUSED. -/
abbrev resRefused : Word := 0xFFFFFFFC#32
/-- BUSY. -/
abbrev resBusy : Word := 0xFFFFFFFB#32
/-- LATE. -/
abbrev resLate : Word := 0xFFFFFFFA#32
/-- BADDEST. -/
abbrev resBadDest : Word := 0xFFFFFFF9#32
/-- TOO_LONG. -/
abbrev resTooLong : Word := 0xFFFFFFF8#32

/-- A PACKET trap (R250). -/
def Exit.packet (code : Nat) : Exit := .trap trPacket code

/-- DD_FULL. -/
abbrev pkFull : Nat := 1
/-- DD_EMPTY. -/
abbrev pkEmpty : Nat := 2
/-- RANGE. -/
abbrev pkRange : Nat := 3
/-- PALIGN. -/
abbrev pkAlign : Nat := 4
/-- NO_ENDPOINT. -/
abbrev pkNoEndpoint : Nat := 5
/-- SAME_DD. -/
abbrev pkSame : Nat := 6
/-- NOT_OWNER. -/
abbrev pkNotOwner : Nat := 7

/-! ### Descriptor registers (R252) -/

/-- A descriptor register. -/
def Ctx.dd (x : Ctx) : Nat → Option Held
  | 0 => x.d0
  | 1 => x.d1
  | 2 => x.d2
  | _ => x.d3

/-- The context with a descriptor register replaced. -/
def Ctx.setDd (x : Ctx) (d : Nat) (v : Option Held) : Ctx :=
  match d with
  | 0 => { x with d0 := v }
  | 1 => { x with d1 := v }
  | 2 => { x with d2 := v }
  | _ => { x with d3 := v }

/-- The hub with a descriptor register of context `n` replaced. -/
def Hub.setDd (h : Hub) (n d : Nat) (v : Option Held) : Hub := h.setCtx n ((h.ctx n).setDd d v)

/-- A held packet: its register's content and its place in the buffer. -/
def Hub.held (h : Hub) (n d : Nat) : Option (Held × Stored) :=
  match (h.ctx n).dd d with
  | some x => (KMap.get? h.fab.pkts x.pid).map (fun s => (x, s))
  | none => none

/-- CAPACITY of `cells` cells (R252). -/
def capacityOf (cells : Nat) : Nat := min 128 (16 * cells - 4)

/-- The hub with a stored packet replaced. -/
def Hub.setStored (h : Hub) (pid : Nat) (s : Stored) : Hub :=
  h.onFab (fun f => { f with pkts := KMap.put f.pkts pid s })

/-- A stored packet with its header or payload replaced; a byte that changes no longer holds what the test window wrote
(R146). -/
def Stored.withPkt (s : Stored) (p : Packet) : Stored :=
  { s with pkt := p, raw := s.raw.filter (fun e => p.bytes[e.1]? == s.pkt.bytes[e.1]?) }

/-- The hub with a held packet's header or payload replaced, its cells kept. -/
def Hub.setPkt (h : Hub) (x : Held) (s : Stored) (p : Packet) : Hub := h.setStored x.pid (s.withPkt p)

/-- The account of new cells of a context: local input, M class (R151, R252) (assumption 46, DEDUCED). -/
def Hub.heldCells (h : Hub) (n : Nat) : Acct := (h.localCells .M n).getD .pool

/-- The account that a packet's own `n` cells go over to as a context takes it: the pool, or the M reserve; where neither has
room they stay on theirs (R151, R252) (assumption 46, DEDUCED). -/
def Hub.movedCells (h : Hub) (old : Acct) (n : Nat) : Acct :=
  if old = .pool ∨ h.cellsOn .pool + n ≤ h.poolCells then .pool
  else if old = .mres ∨ h.cellsOn .mres + n ≤ h.get R.FAB_MRES_CELLS then .mres
  else old

/-- As `movedCells`, for its descriptor (R152, R252) (assumption 46, DEDUCED). -/
def Hub.movedDesc (h : Hub) (old : Acct) : Acct :=
  if old = .pool ∨ h.descsOn .pool < h.poolDescs then .pool
  else if old = .mres ∨ h.descsOn .mres < h.get R.FAB_MRES_CELLS then .mres
  else old

/-- The account of a held packet's descriptor (R152, R252) (assumption 46, DEDUCED). -/
def Hub.heldDesc (h : Hub) : Acct := (h.localDesc true).getD .pool

/-- A byte of a packet's cells. -/
def Hub.cellByte (h : Hub) (cells : List Nat) (o : Nat) : Byte := h.mrd (cellAddr (cells.getD (o / 64) 0) + o % 64)

/-- A held packet's LENGTH changed within its cells, which keep their bytes (R256, R260) (assumption 47, DEDUCED). -/
def Hub.setLength (h : Hub) (x : Held) (s : Stored) (len : Nat) : Hub :=
  let h := h.leaveBytes s.cells s.bytes
  let payload := wordsOf ((List.range (4 * len)).map (fun i => h.cellByte s.cells (16 + i)))
  h.setPkt x s { s.pkt with payload := payload }

/-- A packet placed in new cells for register `d` of context `n`. -/
def Hub.newHeld (h : Hub) (n d : Nat) (p : Packet) (cells : Nat) (origin : Nat) (stamped : Bool) : Hub :=
  let desc := h.heldDesc
  let (h, pid) := h.store p cells (h.heldCells cells) none (some n)
  let h := h.addRef pid
  h.setDd n d (some ⟨pid, capacityOf cells, origin, stamped, desc⟩)

/-- Whether a context can take `cells` cells and a descriptor (R259, R260). -/
def Hub.roomFor (h : Hub) (cells : Nat) : Bool := (h.localCells .M cells).isSome && (h.localDesc true).isSome

/-- An instruction that writes a result into gd. -/
def Hub.done (h : Hub) (n gd : Nat) (v : Word) : Hub × Exit := (h.setGpr n gd v, .next)

/-- The 64-bit words of a packet's cells that hold `m` of its bytes from `o` on, header first, by internal address / 8. -/
def Stored.wordsAt (s : Stored) (o m : Nat) : List Nat :=
  ((List.range m).map (fun i => (cellAddr (s.cells.getD ((o + i) / 64) 0) + (o + i) % 64) / 8)).eraseDups

/-- A held packet whose bytes `o` to `o + m` an instruction reads or changes: single-bit errors in their words are corrected, and
with a double-bit error among them the packet is discarded, counted under cause 0xA of output 13, and its register is empty
(R145) (assumption 143, DEDUCED). -/
def Hub.readHeld (h : Hub) (n d : Nat) (span : Stored → Nat × Nat) : Hub × Option (Held × Stored) :=
  match h.held n d with
  | none => (h, none)
  | some (x, s) =>
    let ws := s.wordsAt (span s).1 (span s).2
    let h := (h.fab.soft.filter ws.contains).foldl Hub.correctWord h
    if h.tun.bad.any ws.contains then (((h.count 13 n s.pkt.cls 10).setDd n d none).release x.pid, none)
    else (h, some (x, s))

/-- The header of a held packet. -/
def headSpan (_ : Stored) : Nat × Nat := (0, 16)

/-- All of a held packet. -/
def wholeSpan (s : Stored) : Nat × Nat := (0, 16 + 4 * s.pkt.length)

/-- Payload bytes of a held packet, those that lie in it. -/
def bodySpan (o m : Nat) (s : Stored) : Nat × Nat := (16 + o, min m (4 * s.pkt.length - o))

/-- An instruction on a held packet, of which it reads or changes a span: DD_EMPTY where the register is empty
(assumption 143, DEDUCED). -/
def Hub.issueHeld (h : Hub) (n d : Nat) (span : Hub → Stored → Nat × Nat) (f : Hub → Held → Stored → Hub × Exit) : Hub :=
  h.issue n (fun h => match h.readHeld n d (span h) with
    | (h, some (x, s)) => f h x s
    | (h, none) => (h, .packet pkEmpty))

/-! ### PGET (R255) -/

/-- What PGET finds: nothing, no room for a copy of the packet, which stays, or a packet of `len` words. -/
inductive Taken where
  | nothing
  | noRoom
  | packet (len : Nat)
deriving DecidableEq, Repr

/-- Its result (R249). -/
def Taken.result : Taken → Word
  | .nothing => resEmpty
  | .noRoom => resNoRoom
  | .packet len => W (4 * len)

/-- The packet at the head of a context's own queue moves into a descriptor register: its cells go over to the local-input
account, or are copied while another output still holds it (assumption 46, DEDUCED). -/
def Hub.takeQueued (h : Hub) (n d : Nat) (x : Desc) (s : Stored) : Hub × Taken :=
  let cells := s.cells.length
  if s.refs ≤ 1 then
    let acct := h.movedCells s.acct cells
    let desc := h.movedDesc x.acct
    let h := (h.dropHead 13 n).count 13 n x.cls 0xB
    let h := match s.acct, acct with
      | .link _, .link _ => h
      | .link p, _ => h.credit p s.cls cells
      | _, _ => h
    let h := h.setStored x.pid { s with acct := acct }
    (h.setDd n d (some ⟨x.pid, capacityOf cells, 0, false, desc⟩), .packet s.pkt.length)
  else if h.roomFor cells then
    ((((h.dropHead 13 n).count 13 n x.cls 0xB).newHeld n d s.pkt cells 0 false).release x.pid, .packet s.pkt.length)
  else (h, .noRoom)

/-- PGET from the context's own queue: its head packet, tested for expiry and errors on the way (R145, R158)
(assumption 40, DEDUCED). -/
def Hub.pgetQueue (h : Hub) (n d : Nat) : Hub × Taken :=
  match (h.refill 3).serveContext n (h.queue 13 n).items.length with
  | (h, false) => (h, .nothing)
  | (h', true) =>
    match (h'.queue 13 n).items with
    | [] => (h', .nothing)
    | x :: _ =>
      match KMap.get? h'.fab.pkts x.pid with
      | none => (h', .nothing)
      | some s =>
        match h'.takeQueued n d x s with
        | (_, .noRoom) => (h, .noRoom)
        | r => r

/-- The oldest packet of the context's endpoint moves into a descriptor register (R253); one for which no cells are free
stays there (assumption 40, DEDUCED). -/
def Hub.pgetEndpoint (h : Hub) (n d : Nat) : Hub × Taken :=
  match h.adpTake n with
  | (h', some p) =>
    if h.roomFor p.cells then (h'.newHeld n d p p.cells 1 false, .packet p.length) else (h, .noRoom)
  | (_, none) => (h, .nothing)

/-- PGET (assumption 40, DEDUCED). -/
def Hub.iPget (h : Hub) (n d gd : Nat) (endpoint : Bool) : Hub :=
  h.issue n (fun h =>
    if ((h.ctx n).dd d).isSome then (h, .packet pkFull)
    else if endpoint && h.bindEnd n == 0 then (h, .packet pkNoEndpoint)
    else
      let (h, r) := if endpoint then h.pgetEndpoint n d else h.pgetQueue n d
      h.done n gd r.result)

/-! ### Header fields (R256) -/

/-- The value of a header field; none for a FIELD not listed. -/
def Hub.headerField (h : Hub) (x : Held) (p : Packet) (field : Nat) : Option Nat :=
  match field with
  | 0 => some p.dest
  | 1 => some p.cls.ix
  | 2 => some p.src
  | 3 => some p.kind
  | 4 => some p.length
  | 5 => some p.hops
  | 6 => some p.tseq
  | 7 => some p.aux
  | 8 => some p.stamp
  | 9 => some (b2n p.wrap + b2n p.west * 2 + b2n p.resync * 4)
  | 10 => some x.origin
  | 11 => some x.cap
  | 12 => some (subMod (2 ^ 32) h.now p.stamp)
  | _ => none

/-- PHDR. -/
def Hub.iPhdr (h : Hub) (n gd d field : Nat) : Hub :=
  if 12 < field then h.iIllegal n
  else h.issueHeld n d (fun _ => headSpan) (fun h x s => h.done n gd (W ((h.headerField x s.pkt field).getD 0)))

/-- PSETH: a FIELD that is not writable is illegal (assumption 47, DEDUCED). -/
def Hub.iPseth (h : Hub) (n d field ga : Nat) : Hub :=
  if field ≠ 0 ∧ field ≠ 4 ∧ field ≠ 7 ∧ field ≠ 8 then h.iIllegal n
  else
    h.issueHeld n d (fun _ => headSpan) (fun h x s =>
      let v := (h.gpr n ga).toNat
      match field with
      | 0 => (h.setPkt x s { s.pkt with dest := v % 2 ^ 14 }, .next)
      | 4 => if x.cap < v % 256 then (h, .packet pkRange) else (h.setLength x s (v % 256), .next)
      | 7 => (h.setPkt x s { s.pkt with aux := v % 65536 }, .next)
      | _ => ((h.setPkt x s { s.pkt with stamp := v }).setDd n d (some { x with stamped := true }), .next))

/-! ### Payload (R257, R258) -/

/-- Bytes of a width code; none for a code not listed (R254). -/
def widthBytes : Nat → Option Nat
  | 0 => some 4
  | 1 => some 2
  | 2 => some 1
  | _ => none

/-- A packet's payload as bytes. -/
def Packet.body (p : Packet) : List Byte := bytesOf p.payload

/-- A packet with payload bytes replaced from an offset on, LENGTH kept. -/
def Packet.patchBody (p : Packet) (o : Nat) (bs : List Byte) : Packet :=
  { p with payload := wordsOf (p.body.take o ++ bs ++ p.body.drop (o + bs.length)) }

/-- What bars `m` bytes at a payload offset (R257): PALIGN, then RANGE. -/
def bodyBar (p : Packet) (o m align : Nat) : Option Nat :=
  if o % align ≠ 0 then some pkAlign else if 4 * p.length < o + m then some pkRange else none

/-- The payload offset of PLD and PST (R257). -/
def Hub.bodyOffset (h : Hub) (n ga imm : Nat) : Nat := (h.gpr n ga + W imm).toNat

/-- PLD. -/
def Hub.iPld (h : Hub) (n gd d ga imm width : Nat) : Hub :=
  match widthBytes width with
  | none => h.iIllegal n
  | some m =>
    h.issueHeld n d (fun h => bodySpan (h.bodyOffset n ga imm) m) (fun h _ s =>
      let o := h.bodyOffset n ga imm
      match bodyBar s.pkt o m m with
      | some c => (h, .packet c)
      | none => h.done n gd (W (leNat ((s.pkt.body.drop o).take m))))

/-- PST. -/
def Hub.iPst (h : Hub) (n gd d ga imm width : Nat) : Hub :=
  match widthBytes width with
  | none => h.iIllegal n
  | some m =>
    h.issueHeld n d (fun h => bodySpan (h.bodyOffset n ga imm) m) (fun h x s =>
      let o := h.bodyOffset n ga imm
      match bodyBar s.pkt o m m with
      | some c => (h, .packet c)
      | none => (h.setPkt x s (s.pkt.patchBody o (leBytes m (h.gpr n gd).toNat)), .next))

/-- The memory side of PCOPY (R228 orders 5 to 9, R258): the internal address of a range, or how the copy ends
(assumption 49, DEDUCED). -/
def Hub.copyRange (h : Hub) (n ea m : Nat) (write : Bool) : Hub × Except Exit Nat :=
  let place (h : Hub) (a : Nat) : Hub × Except Exit Nat :=
    if write then (if h.rangeHeld a m then (h, .error .stall) else (h, .ok a))
    else if h.badRange a m then (h, .error (.trap trEcc ea)) else (h.corrected a m, .ok a)
  match spaceOf ea with
  | .data =>
    if ea % 4 ≠ 0 then (h, .error (.trap trAlign ea))
    else if !h.inData n ea m then (h, .error (.trap trDataBound ea))
    else place h (dataBase (n / 12) + ea)
  | .common =>
    if ea % 4 ≠ 0 then (h, .error (.trap trAlign ea))
    else if 0x180000 < ea + m then (h, .error (.trap trAddr ea))
    else
      match h.accessRange 2 (if write then .write else .read) (ea + 0x200000) m with
      | (h, .ok) => place h (ea + 0x200000)
      | (h, r) => (h, .error (r.exit ea))
  | _ => (h, .error (.trap trAddr ea))

/-- Whether PCOPY's byte count is listed (R254). -/
def copyBytesOk (m : Nat) : Bool := decide (4 ≤ m) && decide (m ≤ 512) && m % 4 == 0

/-- PCOPY from the payload to memory (assumption 49, DEDUCED). -/
def Hub.iPcopyOut (h : Hub) (n d gd ga m : Nat) : Hub :=
  if !copyBytesOk m then h.iIllegal n
  else
    h.issue n (fun h =>
      match h.copyRange n (h.gpr n ga).toNat m true with
      | (h, .error e) => (h, e)
      | (h, .ok a) =>
        match h.readHeld n d (bodySpan (h.gpr n gd).toNat m) with
        | (h, none) => (h, .packet pkEmpty)
        | (h, some (_, s)) =>
          let o := (h.gpr n gd).toNat
          match bodyBar s.pkt o m 4 with
          | some c => (h, .packet c)
          | none => (h.mstore a ((s.pkt.body.drop o).take m), .next))

/-- PCOPY from memory to the payload (assumption 49, DEDUCED). -/
def Hub.iPcopyIn (h : Hub) (n d gd ga m : Nat) : Hub :=
  if !copyBytesOk m then h.iIllegal n
  else
    h.issue n (fun h =>
      match h.copyRange n (h.gpr n ga).toNat m false with
      | (h, .error e) => (h, e)
      | (h, .ok a) =>
        match h.readHeld n d (bodySpan (h.gpr n gd).toNat m) with
        | (h, none) => (h, .packet pkEmpty)
        | (h, some (x, s)) =>
          let o := (h.gpr n gd).toNat
          match bodyBar s.pkt o m 4 with
          | some c => (h, .packet c)
          | none => (h.setPkt x s (s.pkt.patchBody o (h.mbytes a m)), .next))

/-! ### PNEW, PSPLIT, PJOIN, PDROP (R259, R260, R263) -/

/-- A packet whose header is zero (R259). -/
def Packet.blank (len : Nat) : Packet :=
  { dest := 0, cls := .P, src := 0, kind := 0, hops := 0, lseq := 0, wrap := false, west := false, resync := false,
    tseq := 0, aux := 0, stamp := 0, payload := List.replicate len 0#32 }

/-- The cells of a held packet zeroed. -/
def Hub.zeroCells (h : Hub) (n d : Nat) : Hub :=
  match h.held n d with
  | some (_, s) => h.leaveBytes s.cells (zeros (64 * s.cells.length))
  | none => h

/-- PNEW (assumption 47, DEDUCED). -/
def Hub.iPnew (h : Hub) (n d gd words : Nat) : Hub :=
  if 128 < words then h.iIllegal n
  else
    h.issue n (fun h =>
      if ((h.ctx n).dd d).isSome then (h, .packet pkFull)
      else if !h.roomFor (cellsOf words) then h.done n gd resNoRoom
      else ((h.newHeld n d (Packet.blank words) (cellsOf words) 2 false).zeroCells n d).done n gd resOk)

/-- PDROP. -/
def Hub.iPdrop (h : Hub) (n d : Nat) : Hub :=
  h.issue n (fun h => match (h.ctx n).dd d with
    | some x => ((h.setDd n d none).release x.pid, .next)
    | none => (h, .next))

/-- PSPLIT. -/
def Hub.iPsplit (h : Hub) (n d gd ga dt : Nat) : Hub :=
  h.issue n (fun h =>
    let o := (h.gpr n ga).toNat
    if d = dt then (h, .packet pkSame)
    else match h.readHeld n d wholeSpan with
      | (h, none) => (h, .packet pkEmpty)
      | (h, some (x, s)) =>
        if ((h.ctx n).dd dt).isSome then (h, .packet pkFull)
        else if o % 4 ≠ 0 then (h, .packet pkAlign)
        else if o < 4 ∨ 4 * s.pkt.length < o + 4 then (h, .packet pkRange)
        else
          let rest := { s.pkt with payload := s.pkt.payload.drop (o / 4) }
          if !h.roomFor rest.cells then h.done n gd resNoRoom
          else ((h.setLength x s (o / 4)).newHeld n dt rest rest.cells x.origin x.stamped).done n gd resOk)

/-- Whether an account holds `k` more cells for a packet already charged to it; none are allocated in a rebuild (R164)
(assumption 49, DEDUCED). -/
def Hub.acctRoom (h : Hub) (a : Acct) (k : Nat) : Bool :=
  h.cellsThere k && (match a with
    | .pool => decide (h.cellsOn .pool + k ≤ h.poolCells)
    | .mres => decide (h.cellsOn .mres + k ≤ h.get R.FAB_MRES_CELLS)
    | .link _ => false)

/-- A stored packet with more cells (assumption 49, DEDUCED). -/
def Hub.growCells (h : Hub) (s : Stored) (k : Nat) : Hub × Stored :=
  let (cs, b) := takeCells ((h.fab.pkts.vals.flatMap Stored.cells) ++ h.fab.retired) h.fab.bank k
  ((h.freshCells cs).onFab (fun f => { f with bank := b }), { s with cells := s.cells ++ cs })

/-- PJOIN (assumption 49, DEDUCED). -/
def Hub.iPjoin (h : Hub) (n d gd ds : Nat) : Hub :=
  h.issue n (fun h =>
    if d = ds then (h, .packet pkSame)
    else
      let (h, xs) := h.readHeld n d wholeSpan
      let (h, yt) := h.readHeld n ds wholeSpan
      match xs, yt with
      | some (x, s), some (y, t) =>
        let p := { s.pkt with payload := s.pkt.payload ++ t.pkt.payload }
        let k := p.cells - s.cells.length
        if 128 < p.length then h.done n gd resTooLong
        else if 0 < k && !h.acctRoom s.acct k then h.done n gd resNoRoom
        else
          let (h, s) := h.growCells s k
          let h := (h.setPkt x s p).setDd n d (some { x with cap := capacityOf s.cells.length })
          ((h.setDd n ds none).release y.pid).done n gd resOk
      | _, _ => (h, .packet pkEmpty))

/-! ### PEMIT (R261, R262) -/

/-- The packet that PEMIT sends into the fabric. -/
def Hub.emitPacket (h : Hub) (n : Nat) (x : Held) (p : Packet) : Packet :=
  h.ownPacket n p.dest (h.bindCls n) 0 p.aux (if x.stamped then p.stamp else h.stamp) p.payload

/-- Copies of a held packet queued where tests 4 and 5 of R150 pass, each other one counted: the first takes the held
packet's descriptor, a second one of its own (R152). Answers whether any was queued (assumption 48, DEDUCED). -/
def Hub.emitCopies (h : Hub) (pid cells : Nat) (p : Packet) : Option Acct → Bool → List Target → Hub × Bool
  | _, some_, [] => (h, some_)
  | first, some_, t :: ts =>
    match h.limitFail t.out t.q p.cls cells with
    | some cause => (h.count t.out t.q p.cls cause).emitCopies pid cells p first some_ ts
    | none =>
      match first with
      | some a => (h.push t.out t.q (t.desc pid a p)).emitCopies pid cells p none true ts
      | none =>
        match h.localDesc (p.cls == .M) with
        | some a => ((h.addRef pid).push t.out t.q (t.desc pid a p)).emitCopies pid cells p none true ts
        | none => (h.count t.out t.q p.cls 5).emitCopies pid cells p none some_ ts

/-- A PEMIT into the fabric past its destination and policer: OK, or NO_ROOM where no output takes it. A packet that the
route discards is gone, and a held route (R102) takes it (assumption 48, DEDUCED). -/
def Hub.emitRouted (h : Hub) (n d : Nat) (x : Held) (s : Stored) (p : Packet) : Hub × Bool :=
  match h.holdOf (h.way p none) with
  | some a => (((h.setDd n d none).release x.pid).hold a ⟨p, none, some n⟩, true)
  | none =>
    match h.ownTargets n p with
    | (h, []) => ((h.setDd n d none).release x.pid, true)
    | (h, ts) =>
      let h := (h.setStored x.pid { s with pkt := p, arr := none, orig := some n }).setDd n d none
      match h.emitCopies x.pid s.cells.length p (some x.acct) false ts with
      | (h, true) => (h.ownTaken n p, true)
      | (h, false) => (h.release x.pid, false)

/-- PEMIT into the fabric (assumption 48, DEDUCED). -/
def Hub.iPemitFabric (h : Hub) (n d gd : Nat) (keep : Bool) : Hub :=
  h.issueHeld n d (fun _ => headSpan) (fun h x s =>
    let p := h.emitPacket n x s.pkt
    if !tidValid p.dest || h.unroutable p then h.done n gd resBadDest
    else
      match h.police n p.polBytes with
      | (h', false) => if keep then h.done n gd resPoliced else ((h'.setDd n d none).release x.pid).done n gd resPoliced
      | (h', true) =>
        match h'.emitRouted n d x s p with
        | (h', true) => h'.done n gd resOk
        | (h', false) => if keep then h.done n gd resNoRoom else h'.done n gd resNoRoom)

/-- PEMIT to the endpoint (assumption 48, DEDUCED). -/
def Hub.iPemitEndpoint (h : Hub) (n d gd : Nat) (keep : Bool) : Hub :=
  h.issueHeld n d (fun _ => wholeSpan) (fun h x s =>
    if h.bindEnd n = 0 then (h, .packet pkNoEndpoint)
    else if h.adpRoom n then (((h.setDd n d none).release x.pid).epGive n s.pkt).done n gd resOk
    else if keep then h.done n gd resNoRoom
    else ((h.setDd n d none).release x.pid).done n gd resNoRoom)

/-! ### Queue instructions (R265, R266) -/

/-- QDEPTH. -/
def Hub.iQdepth (h : Hub) (n gd ga sel out : Nat) : Hub :=
  if out = 3 ∨ (sel ≠ 1 ∧ (out ≠ 0 ∨ ga ≠ 0)) then h.iIllegal n
  else
    h.issue n (fun h =>
      let q := (h.gpr n ga).toNat % 2 ^ 14
      let x := h.queue 13 n
      h.done n gd (W (match sel with
        | 0 => h.queueCells 13 n
        | 1 => if queueValid out q then h.queueCells out q else 0
        | 2 => if x.items.isEmpty then 0 else (h.root - x.headAt) / 8
        | _ => h.cellsFree)))

/-- The context address of a register (R196). -/
def ctxReg (a : Nat) : Nat := 0x1000000 + a

/-- An instruction that writes registers, checked by the access table as a tun-context write (R266, R275–R277, R282). -/
def Hub.ctxWrite (h : Hub) (a : Nat) (f : Hub → Hub × Exit) : Hub × Exit :=
  match h.access 2 .write a with
  | (h, .ok) => f h
  | (h, r) => (h, r.exit (ctxReg a))

/-- SPARGE. -/
def Hub.iSparge (h : Hub) (n gd ga : Nat) : Hub :=
  h.issue n (fun h =>
    let tid := (h.gpr n ga).toNat % 2 ^ 14
    let go := fun (h : Hub) =>
      if h.on R.FAB_SPARGE_BUSY then (h.spargeGo tid).done n gd resBusy else (h.spargeGo tid).done n gd resOk
    if tid = h.spargeTid n then go h else h.ctxWrite A.FAB_SPARGE go)

/-! ### The rows of the table -/

/-- PGET (R255). -/
def execPget (n : Fin 96) (dd : Fin 4) (gd : Fin 16) (endpoint : Bool) (s : State) : Result :=
  s.fetching n (some (.pget n dd gd endpoint)) (fun h => h.iPget n dd gd endpoint)

/-- PHDR (R256). -/
def execPhdr (n : Fin 96) (gd : Fin 16) (dd : Fin 4) (field : BitVec 12) (s : State) : Result :=
  s.fetching n (some (.phdr n gd dd field)) (fun h => h.iPhdr n gd dd field.toNat)

/-- PSETH (R256). -/
def execPseth (n : Fin 96) (dd : Fin 4) (field : BitVec 12) (ga : Fin 16) (s : State) : Result :=
  s.fetching n (some (.pseth n dd field ga)) (fun h => h.iPseth n dd field.toNat ga)

/-- PLD (R257). -/
def execPld (n : Fin 96) (gd : Fin 16) (dd : Fin 4) (ga : Fin 16) (imm : BitVec 12) (width : BitVec 4) (s : State)
    : Result :=
  s.fetching n (some (.pld n gd dd ga imm width)) (fun h => h.iPld n gd dd ga imm.toNat width.toNat)

/-- PST (R257). -/
def execPst (n : Fin 96) (gd : Fin 16) (dd : Fin 4) (ga : Fin 16) (imm : BitVec 12) (width : BitVec 4) (s : State)
    : Result :=
  s.fetching n (some (.pst n gd dd ga imm width)) (fun h => h.iPst n gd dd ga imm.toNat width.toNat)

/-- PEMIT_FABRIC (R261). -/
def execPemitFabric (n : Fin 96) (dd : Fin 4) (gd : Fin 16) (keep : Bool) (s : State) : Result :=
  s.fetching n (some (.pemitFabric n dd gd keep)) (fun h => h.iPemitFabric n dd gd keep)

/-- PEMIT_ENDPOINT (R261). -/
def execPemitEndpoint (n : Fin 96) (dd : Fin 4) (gd : Fin 16) (keep : Bool) (s : State) : Result :=
  s.fetching n (some (.pemitEndpoint n dd gd keep)) (fun h => h.iPemitEndpoint n dd gd keep)

/-- PDROP (R263). -/
def execPdrop (n : Fin 96) (dd : Fin 4) (s : State) : Result :=
  s.fetching n (some (.pdrop n dd)) (fun h => h.iPdrop n dd)

/-- PCOPY_TO_MEMORY (R258). -/
def execPcopyToMemory (n : Fin 96) (dd : Fin 4) (gd : Fin 16) (ga : Fin 16) (bytes : BitVec 12) (s : State) :
    Result :=
  s.fetching n (some (.pcopyToMemory n dd gd ga bytes)) (fun h => h.iPcopyOut n dd gd ga bytes.toNat)

/-- PCOPY_FROM_MEMORY (R258). -/
def execPcopyFromMemory (n : Fin 96) (dd : Fin 4) (gd : Fin 16) (ga : Fin 16) (bytes : BitVec 12) (s : State) :
    Result :=
  s.fetching n (some (.pcopyFromMemory n dd gd ga bytes)) (fun h => h.iPcopyIn n dd gd ga bytes.toNat)

/-- PSPLIT (R260). -/
def execPsplit (n : Fin 96) (dd : Fin 4) (gd : Fin 16) (ga : Fin 16) (dt : Fin 4) (s : State) : Result :=
  s.fetching n (some (.psplit n dd gd ga dt)) (fun h => h.iPsplit n dd gd ga dt)

/-- PJOIN (R260). -/
def execPjoin (n : Fin 96) (dd : Fin 4) (gd : Fin 16) (ds : Fin 4) (s : State) : Result :=
  s.fetching n (some (.pjoin n dd gd ds)) (fun h => h.iPjoin n dd gd ds)

/-- PNEW (R259). -/
def execPnew (n : Fin 96) (dd : Fin 4) (gd : Fin 16) (words : BitVec 12) (s : State) : Result :=
  s.fetching n (some (.pnew n dd gd words)) (fun h => h.iPnew n dd gd words.toNat)

/-- QDEPTH (R265). -/
def execQdepth (n : Fin 96) (gd : Fin 16) (ga : Fin 16) (sel : Fin 4) (out : Fin 4) (s : State) : Result :=
  s.fetching n (some (.qdepth n gd ga sel out)) (fun h => h.iQdepth n gd ga sel out)

/-- SPARGE (R266). -/
def execSparge (n : Fin 96) (gd : Fin 16) (ga : Fin 16) (s : State) : Result :=
  s.fetching n (some (.sparge n gd ga)) (fun h => h.iSparge n gd ga)

end Sys2Proof.Machine
end

