-- ==== Sys2Proof/Machine/DecmondEvent.lean ====
section
/-! DEFINITION. The event, time, grant and policer instructions of Decmond (R251, R267–R277): WAIT, station time, the
context timer, triggered outputs, staged grants and the context's own policer. -/

namespace Sys2Proof.Machine

/-! ### WAIT (R200, R201, R267, R268) -/

/-- WAIT completes with the masked events: the latched ones it returns are cleared and the watchdog count restarts. -/
def Hub.waitDone (h : Hub) (n gd ev : Nat) : Hub :=
  let x := h.ctx n
  let keep := Nat.bitwise (fun a b => a && !b) x.events (ev / 8 * 8)
  h.setCtx n ({ x with events := keep, wdogAt := h.root }.setGpr gd (W ev))

/-- WAIT. -/
def Hub.iWait (h : Hub) (n gd mask : Nat) : Hub :=
  if mask = 0 then h.iIllegal n
  else
    h.issue n (fun h =>
      let ev := Nat.land (h.eventBits n) mask
      if ev = 0 then (h.setCtx n { h.ctx n with mask := mask, waitGd := gd }, .wait)
      else (h.waitDone n gd ev, .next))

/-- CONTEXT_WAKE (R201): an event in the mask of a waiting context completes its WAIT. -/
def Hub.contextWake (h : Hub) (n : Nat) : Hub :=
  let x := h.ctx n
  let ev := Nat.land (h.eventBits n) x.mask
  if h.ctxState n ≠ cxWaiting ∨ ev = 0 then h
  else
    let h := (h.waitDone n x.waitGd ev).setCtxState n cxRunning
    h.goTo n (x.pc + 1) false

/-! ### Station time (R269, R270) -/

/-- The status word of a sample (R269). -/
def Sample.status (s : Sample) : Nat := s.sub % 8 + s.quality % 4 * 16 + b2n s.valid * 64

/-- TNOW part 0. -/
def Hub.iTnowSample (h : Hub) (n gd : Nat) : Hub :=
  h.issue n (fun h =>
    let s : Sample := ⟨h.now, h.stime % 8, h.get R.TIME_STATUS_QUALITY, h.on R.TIME_STATUS_VALID⟩
    (h.setCtx n { h.ctx n with sample := some s }).done n gd (W h.now))

/-- TNOW parts 1 and 2, of the last sample. -/
def Hub.iTnowPart (h : Hub) (n gd part : Nat) : Hub :=
  if part ≠ 1 ∧ part ≠ 2 then h.iIllegal n
  else
    h.issue n (fun h => h.done n gd (match (h.ctx n).sample with
      | some s => W (if part = 1 then s.ticks / 2 ^ 32 else s.status)
      | none => 0#32))

/-- TSTAMP (R133, R270). -/
def Hub.iTstamp (h : Hub) (n gd ga part : Nat) : Hub :=
  if 1 < part then h.iIllegal n
  else
    h.issue n (fun h =>
      let age := subMod (2 ^ 32) h.now (h.gpr n ga).toNat
      h.done n gd (W (if part = 0 then age else subMod (2 ^ 64) h.now age / 2 ^ 32)))

/-! ### The context timer (R271) -/

/-- Ticks from now to a short stamp. -/
def Hub.ahead (h : Hub) (s : Nat) : Nat := subMod (2 ^ 32) s h.now

/-- The context's timer set or cleared. -/
def Hub.setTimer (h : Hub) (n : Nat) (t : Option Nat) : Hub := h.setCtx n { h.ctx n with timer := t }

/-- TARM mode 0. -/
def Hub.iTarmAt (h : Hub) (n gd ga : Nat) : Hub :=
  h.issue n (fun h =>
    let d := h.ahead (h.gpr n ga).toNat
    if 1 ≤ d ∧ d < 2 ^ 31 then (h.setTimer n (some (h.now + d))).done n gd resOk
    else ((h.setTimer n none).latchEvent evTimer n).done n gd resLate)

/-- TARM mode 1. -/
def Hub.iTarmAfter (h : Hub) (n gd ga : Nat) : Hub :=
  h.issue n (fun h =>
    let d := (h.gpr n ga).toNat
    if 1 ≤ d ∧ d < 2 ^ 31 then (h.setTimer n (some (h.now + d))).done n gd resOk else h.done n gd resRefused)

/-- TARM mode 2. -/
def Hub.iTarmCancel (h : Hub) (n gd : Nat) : Hub := h.issue n (fun h => (h.setTimer n none).done n gd resOk)

/-- CONTEXT_TIMER_FIRE. -/
def Hub.timerFire (h : Hub) (n : Nat) : Hub :=
  match (h.ctx n).timer with
  | some _ => (h.setTimer n none).latchEvent evTimer n
  | none => h

/-! ### Parameter blocks (R251) -/

/-- The block of `m` bytes at a context address as its words, or the trap of R228 orders 5 to 7; `a` names the register
whose write the access table checks (order 8); a double-bit error is order 9 (assumption 49, DEDUCED). -/
def Hub.readBlock (h : Hub) (n ea m : Nat) (a : Option Nat) (f : Hub → List Word → Hub × Exit) : Hub × Exit :=
  if spaceOf ea = .outside then (h, .trap trAddr ea)
  else if ea % 8 ≠ 0 then (h, .trap trAlign ea)
  else if !h.inData n ea m then (h, .trap trDataBound ea)
  else
    let go := fun (h : Hub) =>
      let b := dataBase (n / 12) + ea
      if h.badRange b m then (h, .trap trEcc ea) else f (h.corrected b m) (wordsOf (h.mbytes b m))
    match a with
    | some r => h.ctxWrite r go
    | none => go h

/-! ### Triggered outputs (R272–R274) -/

/-- Whether a context owns a triggered output (R250 NOT_OWNER). -/
def Hub.ownsOutput (h : Hub) (n o : Nat) : Bool := h.bindEnd n == 0x2B && h.on (R.TIME_EVO_CTRL_TUN_OWN o)

/-- The registers of R141 written from an output schedule block, and the arm (R138, R272); every outcome leaves the
output with no OUTAT transition queued (assumption 50, DEDUCED). -/
def Hub.armOutput (h : Hub) (o : Nat) (b : List Word) : Hub × Word :=
  let w := fun i => b.getD i 0#32
  let mode := (w 5).toNat % 4
  let count := (w 3).toNat
  let h := h.setEvo o { h.evo o with queue := [] }
  if mode = 3 ∨ count = 0 ∨ 65535 < count then (h, resRefused)
  else
    let h := (h.wr (A.TIME_EVO_START_LO o) (w 0)).wr (A.TIME_EVO_START_HI o) (w 1)
    let h := (h.wr (A.TIME_EVO_PERIOD o) (w 2)).put (R.TIME_EVO_COUNT_COUNT o) count
    let h := (h.wr (A.TIME_EVO_WIDTH o) (w 4)).put (R.TIME_EVO_CTRL_MODE o) mode
    match h.evoStart o mode (h.evoStartReg o) (w 2).toNat count (w 4).toNat with
    | (h, .ok) => (h, resOk)
    | (h, .refused) => (h, resRefused)
    | (h, .late) => (h, resLate)

/-- TARM mode 3 (assumption 50, DEDUCED). -/
def Hub.iTarmOutput (h : Hub) (n gd ga o : Nat) : Hub :=
  h.issue n (fun h =>
    h.readBlock n (h.gpr n ga).toNat 24 none (fun h b =>
      if !h.ownsOutput n o then (h, .packet pkNotOwner)
      else
        let (h, r) := h.armOutput o b
        h.done n gd r))

/-- A transition placed in time order (R273, R274): the later of two in one tick replaces the earlier. -/
def queueTrans (q : List Trans) (t : Trans) : List Trans :=
  (q.filter (fun x => decide (x.at_ < t.at_))) ++ [t] ++ q.filter (fun x => decide (t.at_ < x.at_))

/-- OUTAT to active or inactive (assumption 50, DEDUCED). -/
def Hub.iOutat (h : Hub) (n gd ga o : Nat) (active : Bool) : Hub :=
  h.issue n (fun h =>
    if !h.ownsOutput n o then (h, .packet pkNotOwner)
    else
      let d := h.ahead (h.gpr n ga).toNat
      let x := h.evo o
      let q := queueTrans x.queue ⟨h.now + d, active⟩
      if d < 64 ∨ 2 ^ 31 ≤ d then h.done n gd resLate
      else if x.sched.isSome then h.done n gd resRefused
      else if 2 < q.length then h.done n gd resBusy
      else (h.setEvo o { x with queue := q }).done n gd resOk)

/-- OUTAT cancelling the queued transitions. -/
def Hub.iOutatCancel (h : Hub) (n gd o : Nat) : Hub :=
  h.issue n (fun h =>
    if !h.ownsOutput n o then (h, .packet pkNotOwner)
    else (h.setEvo o { h.evo o with queue := [] }).done n gd resOk)

/-- OUTAT_TRANSITION (R139, R273): the first queued transition takes effect; a gated output skips it. -/
def Hub.outatTransition (h : Hub) (o : Nat) : Hub :=
  let x := h.evo o
  match x.queue with
  | [] => h
  | t :: rest =>
    if h.gated o then (h.setEvo o { x with queue := rest }).bump (R.TIME_EVO_SKIP o)
    else h.setEvo o { x with queue := rest, on := t.active, pulseEnd := none }

/-! ### Grants and policers (R275–R277) -/

/-- GSTAGE. -/
def Hub.iGstage (h : Hub) (n gd ga s e : Nat) : Hub :=
  h.issue n (fun h =>
    let b := 1 - h.get R.SCH_STATUS_ACTIVE_BANK
    h.ctxWrite (A.SCH_GRANT s b e) (fun h =>
      if h.on R.SCH_STATUS_ARMED then h.done n gd resRefused
      else (h.grantWrite s b e (h.gpr n ga)).done n gd resOk))

/-- GARM that disarms. -/
def Hub.iGarmDisarm (h : Hub) (n gd : Nat) : Hub :=
  h.issue n (fun h => h.ctxWrite A.SCH_CTRL (fun h => h.schDisarm.done n gd resOk))

/-- POLSET. -/
def Hub.iPolset (h : Hub) (n gd ga : Nat) : Hub :=
  h.issue n (fun h =>
    h.readBlock n (h.gpr n ga).toNat 12 (some (A.POL_CFG n)) (fun h b =>
      let w := fun i => (b.getD i 0#32).toNat
      (((h.polWrite n 1 (w 0)).polWrite n 2 (w 1)).polWrite n 0 (w 2)).done n gd resOk))

/-! ### Issuing an asynchronous operation (R278, R279) -/

/-- Operations of a kind in flight, of one context or of the hub. -/
def Hub.inFlight (h : Hub) (k : AsyncKind) (ctx : Option Nat) : Nat :=
  (h.tun.ops.filter (fun o => o.kind == k && (match ctx with | some n => o.ctx == n | none => true))).length

/-- Limits of R279: per context, and per hub (GARM has none). -/
def asyncLimits : AsyncKind → Nat × Nat
  | .garm => (1, 96)
  | .tap => (1, 16)
  | .seal => (2, 32)
  | .jrec => (4, 64)

/-- The operation is issued, its result word pending; or BUSY. -/
def Hub.asyncIssue (h : Hub) (n gd : Nat) (k : AsyncKind) (result : Nat) (b : List Word) : Hub × Exit :=
  if (asyncLimits k).1 ≤ h.inFlight k (some n) ∨ (asyncLimits k).2 ≤ h.inFlight k none then h.done n gd resBusy
  else
    let h := h.mstore (dataBase (n / 12) + result) (leBytes 4 0x80000000)
    let o : AsyncOp := { kind := k, ctx := n, live := true, result := result, block := b, outcome := none }
    Hub.done { h with tun := { h.tun with ops := h.tun.ops ++ [o] } } n gd resOk

/-- GARM that arms. -/
def Hub.iGarm (h : Hub) (n gd ga : Nat) : Hub :=
  h.issue n (fun h =>
    let ea := (h.gpr n ga).toNat
    h.readBlock n ea 8 (some A.SCH_CTRL) (fun h b => h.asyncIssue n gd .garm (ea + 4) b))

/-- TAP. -/
def Hub.iTap (h : Hub) (n gd ga : Nat) : Hub :=
  h.issue n (fun h =>
    let ea := (h.gpr n ga).toNat
    h.readBlock n ea 0x70 none (fun h b => h.asyncIssue n gd .tap (ea + 0x6C) b))

/-- SEAL: the row of operation `op` acts where the block's OP names it (assumption 51, DEDUCED). -/
def Hub.iSeal (h : Hub) (n gd ga op : Nat) : Hub :=
  h.issue n (fun h =>
    let ea := (h.gpr n ga).toNat
    h.readBlock n ea 0x28 none (fun h b =>
      if (b.getD 0 0#32).toNat % 4 = op then h.asyncIssue n gd .seal (ea + 0x24) b else (h, .stall)))

/-- JREC. -/
def Hub.iJrec (h : Hub) (n gd ga : Nat) : Hub :=
  h.issue n (fun h =>
    let ea := (h.gpr n ga).toNat
    h.readBlock n ea 0x20 (some A.JRN_CTRL) (fun h b => h.asyncIssue n gd .jrec (ea + 0x1C) b))

/-! ### The rows of the table -/

/-- CONTEXT_WAKE (R201). -/
def execContextWake (n : Fin 96) (s : State) : Result := s.upd (fun h => h.contextWake n)

/-- WAIT (R267). -/
def execWait (n : Fin 96) (gd : Fin 16) (mask : BitVec 9) (s : State) : Result :=
  s.fetching n (some (.wait n gd mask)) (fun h => h.iWait n gd mask.toNat)

/-- TNOW_SAMPLE (R269). -/
def execTnowSample (n : Fin 96) (gd : Fin 16) (s : State) : Result :=
  s.fetching n (some (.tnowSample n gd)) (fun h => h.iTnowSample n gd)

/-- TNOW_PART (R269). -/
def execTnowPart (n : Fin 96) (gd : Fin 16) (part : BitVec 18) (s : State) : Result :=
  s.fetching n (some (.tnowPart n gd part)) (fun h => h.iTnowPart n gd part.toNat)

/-- TSTAMP (R270). -/
def execTstamp (n : Fin 96) (gd : Fin 16) (ga : Fin 16) (part : BitVec 18) (s : State) : Result :=
  s.fetching n (some (.tstamp n gd ga part)) (fun h => h.iTstamp n gd ga part.toNat)

/-- TARM_AT (R271). -/
def execTarmAt (n : Fin 96) (gd : Fin 16) (ga : Fin 16) (s : State) : Result :=
  s.fetching n (some (.tarmAt n gd ga)) (fun h => h.iTarmAt n gd ga)

/-- TARM_AFTER (R271). -/
def execTarmAfter (n : Fin 96) (gd : Fin 16) (ga : Fin 16) (s : State) : Result :=
  s.fetching n (some (.tarmAfter n gd ga)) (fun h => h.iTarmAfter n gd ga)

/-- TARM_CANCEL (R271). -/
def execTarmCancel (n : Fin 96) (gd : Fin 16) (s : State) : Result :=
  s.fetching n (some (.tarmCancel n gd)) (fun h => h.iTarmCancel n gd)

/-- TARM_OUTPUT (R272). -/
def execTarmOutput (n : Fin 96) (gd : Fin 16) (ga : Fin 16) (output : Fin 8) (s : State) : Result :=
  s.fetching n (some (.tarmOutput n gd ga output)) (fun h => h.iTarmOutput n gd ga output)

/-- CONTEXT_TIMER_FIRE (R271). -/
def execContextTimerFire (n : Fin 96) (s : State) : Result := s.upd (fun h => h.timerFire n)

/-- OUTAT (R273). -/
def execOutat (n : Fin 96) (gd : Fin 16) (ga : Fin 16) (output : Fin 8) (active : Bool) (s : State) : Result :=
  s.fetching n (some (.outat n gd ga output active)) (fun h => h.iOutat n gd ga output active)

/-- OUTAT_CANCEL (R273). -/
def execOutatCancel (n : Fin 96) (gd : Fin 16) (output : Fin 8) (s : State) : Result :=
  s.fetching n (some (.outatCancel n gd output)) (fun h => h.iOutatCancel n gd output)

/-- OUTAT_TRANSITION (R273). -/
def execOutatTransition (output : Fin 8) (s : State) : Result := s.upd (fun h => h.outatTransition output)

/-- GSTAGE (R275). -/
def execGstage (n : Fin 96) (gd : Fin 16) (ga : Fin 16) (sched : Fin 4) (entry : Fin 128) (s : State) : Result :=
  s.fetching n (some (.gstage n gd ga sched entry)) (fun h => h.iGstage n gd ga sched entry)

/-- GARM (R276). -/
def execGarm (n : Fin 96) (gd : Fin 16) (ga : Fin 16) (s : State) : Result :=
  s.fetching n (some (.garm n gd ga)) (fun h => h.iGarm n gd ga)

/-- GARM_DISARM (R276). -/
def execGarmDisarm (n : Fin 96) (gd : Fin 16) (s : State) : Result :=
  s.fetching n (some (.garmDisarm n gd)) (fun h => h.iGarmDisarm n gd)

/-- POLSET (R277). -/
def execPolset (n : Fin 96) (gd : Fin 16) (ga : Fin 16) (s : State) : Result :=
  s.fetching n (some (.polset n gd ga)) (fun h => h.iPolset n gd ga)

/-- TAP (R280). -/
def execTap (n : Fin 96) (gd : Fin 16) (ga : Fin 16) (s : State) : Result :=
  s.fetching n (some (.tap n gd ga)) (fun h => h.iTap n gd ga)

/-- SEAL_GCM_SEAL (R281). -/
def execSealGcmSeal (n : Fin 96) (gd : Fin 16) (ga : Fin 16) (s : State) : Result :=
  s.fetching n (some (.sealGcmSeal n gd ga)) (fun h => h.iSeal n gd ga 0)

/-- SEAL_GCM_OPEN (R281). -/
def execSealGcmOpen (n : Fin 96) (gd : Fin 16) (ga : Fin 16) (s : State) : Result :=
  s.fetching n (some (.sealGcmSeal n gd ga)) (fun h => h.iSeal n gd ga 1)

/-- SEAL_HMAC (R281). -/
def execSealHmac (n : Fin 96) (gd : Fin 16) (ga : Fin 16) (s : State) : Result :=
  s.fetching n (some (.sealGcmSeal n gd ga)) (fun h => h.iSeal n gd ga 2)

/-- SEAL_XTS (R281). -/
def execSealXts (n : Fin 96) (gd : Fin 16) (ga : Fin 16) (s : State) : Result :=
  s.fetching n (some (.sealGcmSeal n gd ga)) (fun h => h.iSeal n gd ga 3)

/-- JREC (R282). -/
def execJrec (n : Fin 96) (gd : Fin 16) (ga : Fin 16) (s : State) : Result :=
  s.fetching n (some (.jrec n gd ga)) (fun h => h.iJrec n gd ga)

end Sys2Proof.Machine
end

