-- ==== Sys2Proof/Machine/Engines.lean ====
section
/-! DEFINITION. The engines behind GARM, TAP, SEAL and JREC (R276, R278–R283): what each operation does when it ends, and
its result word. -/

namespace Sys2Proof.Machine

/-! ### SEAL (R281) -/

/-- A SEAL block's fields: OP, DECRYPT, SLOT, SRC, DST, LEN, AADLEN, the 12 bytes of IV or sector number. -/
structure SealBlock where
  op : Nat
  decrypt : Bool
  slot : Nat
  src : Nat
  dst : Nat
  len : Nat
  aad : Nat
  iv : List Byte
deriving DecidableEq, Repr

/-- The block of an operation. -/
def AsyncOp.sealBlock (o : AsyncOp) : SealBlock :=
  { op := o.word 0 % 4, decrypt := bit (o.word 0) 8, slot := o.word 1 % 32, src := o.word 2, dst := o.word 3,
    len := o.word 4, aad := o.word 5, iv := bytesOf ((o.block.drop 6).take 3) }

/-- Whether a field of the block holds a reserved value (assumption 51, DEDUCED). -/
def AsyncOp.sealReserved (o : AsyncOp) : Bool :=
  let b := o.sealBlock
  o.word 0 != b.op + b2n b.decrypt * 256 || (b.decrypt && b.op != 3) || o.word 1 != b.slot

/-- The engine an operation needs: 0 link cipher, 2 journal sealer, 1 storage cipher. -/
def sealEngine : Nat → Nat
  | 0 => 0
  | 1 => 0
  | 2 => 2
  | _ => 1

/-- Whether LEN and AADLEN follow their rules. -/
def SealBlock.lenOk (b : SealBlock) : Bool :=
  match b.op with
  | 0 => decide (b.len ≤ 4096) && decide (b.aad ≤ b.len)
  | 1 => decide (b.len ≤ 4096) && decide (b.aad ≤ b.len)
  | 2 => decide (1 ≤ b.len) && decide (b.len ≤ 4096)
  | _ => decide (512 ≤ b.len) && decide (b.len ≤ 4096) && b.len % 512 == 0

/-- Whether a range of context addresses lies wholly in the data window or in common memory. -/
def Hub.sealRange (h : Hub) (n a m : Nat) : Bool :=
  h.inData n a m || (decide (0x100000 ≤ a) && decide (a + m ≤ 0x180000))

/-- Whether SRC and DST are placed by the rules: in range, equal or not overlapping. -/
def Hub.sealPlaced (h : Hub) (n : Nat) (b : SealBlock) : Bool :=
  let z := sealSizes b.op b.len
  h.sealRange n b.src z.1 && h.sealRange n b.dst z.2 && (b.src == b.dst || !overlap b.src z.1 b.dst z.2)

/-- The engine's access to a buffer: common memory is checked by the access table as the context's (R390)
(assumption 51, DEDUCED). -/
def Hub.sealAccess (h : Hub) (k : AccKind) (a m : Nat) : Hub × AccRes :=
  if a < 0x10000 then (h, .ok) else h.accessRange 2 k (a + 0x200000) m

/-- What an operation puts at DST from the bytes at SRC, and its CODE (R281, R442). -/
def SealBlock.run (b : SealBlock) (key src : List Byte) : List Byte × Nat :=
  match b.op with
  | 0 =>
    let (ct, tag) := gcmSeal key b.iv (src.take b.aad) (src.drop b.aad)
    (src.take b.aad ++ ct ++ tag, 0)
  | 1 =>
    match gcmOpen key b.iv (src.take b.aad) ((src.take b.len).drop b.aad) (src.drop b.len) with
    | some pt => (src.take b.aad ++ pt, 0)
    | none => (zeros b.len, 3)
  | 2 => (hmac384 key src, 0)
  | _ =>
    let tweak := (hmac384 key (asciiBytes "ILT-XTS-T")).take 32
    (xtsSectors b.decrypt key tweak (leNat (b.iv.take 8)) (chunks 512 (b.len / 512) src), 0)

/-- A SEAL at its end: its CODE, or none while the access table holds its buffers (assumption 51, DEDUCED). -/
def Hub.sealRun (h : Hub) (o : AsyncOp) : Hub × Option Nat :=
  let b := o.sealBlock
  let n := o.ctx
  let z := sealSizes b.op b.len
  let mine := h.on (R.SEC_SLOT_ASSIGNED b.slot) && h.get (R.SEC_SLOT_TUNNEL b.slot) == n
  let key := match KMap.get? h.sec.slots b.slot with
    | some s => if s.engine = sealEngine b.op then some s.key else none
    | none => none
  if !mine then (h, some 2)
  else if o.sealReserved then (h, some 8)
  else
    match key with
    | none => (h, some 1)
    | some k =>
      if !b.lenOk || !h.sealPlaced n b then (h, some 5)
      else
        match h.sealAccess .read b.src z.1 with
        | (h, .held) => (h, none)
        | (h, .ok) =>
          match h.sealAccess .write b.dst z.2 with
          | (h, .held) => (h, none)
          | (h, .ok) =>
            let s := ctxMem (n / 12) b.src
            if h.badRange s z.1 then (h, some 5)
            else
              let h := h.corrected s z.1
              let (out, code) := b.run k (h.mbytes s z.1)
              (h.mstore (ctxMem (n / 12) b.dst) out, some code)
          | (h, _) => (h, some 5)
        | (h, _) => (h, some 5)

/-! ### The end of an operation (R278, R283) -/

/-- The key slot an operation uses, of a TAP or a SEAL. -/
def AsyncOp.slot? (o : AsyncOp) : Option Nat :=
  match o.kind with
  | .tap => some (o.word 24 % 32)
  | .seal => some o.sealBlock.slot
  | _ => none

/-- Whether an operation issued earlier uses the same slot (R283) (assumption 52, DESIGN CHOICE). -/
def Hub.slotAhead (h : Hub) (o : AsyncOp) : Bool :=
  (h.tun.ops.takeWhile (fun x => x != o)).any (fun x => x.slot?.isSome && x.slot? == o.slot?)

/-- What an operation does when it ends, and its result word; none while it must wait (assumption 52, DESIGN CHOICE). -/
def Hub.asyncRun (h : Hub) (o : AsyncOp) : Hub × Option Nat :=
  match o.kind with
  | .garm =>
    let h := (h.wr A.SCH_ARM_EPOCH (W (o.word 0))).schArm
    let r := h.get R.SCH_STATUS_RESULT
    (h, some (resultWord (if r = 1 then 0 else 7) r))
  | .tap =>
    if h.slotAhead o then (h, none)
    else
      let (h, code) := h.tapRun (some o.ctx) (bytesOf o.block)
      (h, some (resultWord code 0))
  | .seal =>
    if h.slotAhead o then (h, none)
    else
      let (h, r) := h.sealRun o
      (h, r.map (fun c => resultWord c 0))
  | .jrec => (h, o.outcome)

/-- ASYNC_OPERATION_DONE (R278): the oldest operation of a kind ends; its result word is written and DONE set unless its
context has trapped or stopped since (R215). One of a tun being moved waits for the takeover (R219, R220)
(assumption 52, DESIGN CHOICE). -/
def Hub.asyncDone (h : Hub) (k : AsyncKind) : Hub :=
  match h.tun.ops.find? (fun o => o.kind == k) with
  | none => h
  | some o =>
    if h.tun.moving = some (o.ctx / 12) then h
    else
      match h.asyncRun o with
      | (h, none) => h
      | (h, some r) =>
        let h : Hub := { h with tun := { h.tun with ops := h.tun.ops.erase o } }
        let h : Hub := if o.live then
            (h.mstore (dataBase (o.ctx / 12) + o.result) (leBytes 4 r)).latchEvent evDone o.ctx
          else h
        h.releaseWrites

/-! ### The rows of the table -/

/-- ASYNC_OPERATION_DONE (R278). -/
def execAsyncOperationDone (kind : AsyncKind) (s : State) : Result := s.upd (fun h => h.asyncDone kind)

end Sys2Proof.Machine
end

