-- ==== Sys2Proof/Machine/Enumeration.lean ====
section
/-! DEFINITION. Enumeration (R476–R478): ASSIGN taken by a port, RELAY taken at output 3, and the REPORT. -/

namespace Sys2Proof.Machine

/-- The REPORT of an ASSIGN (R476, R477): STATUS 0 TAKEN, 1 ALREADY, 2 CONFLICT. -/
def Hub.enumReport (h : Hub) (p : Port) (addr status : Nat) : Hub :=
  (h.sendM 7 3 [W (addr % 128 + p.code * 2 ^ 8 + status * 2 ^ 12), h.rd A.DEV_ID, h.rd A.DEV_BEHAVIOUR, W h.lifecycle]).1

/-- An ASSIGN that is no good is counted as a header error of its port (R477). -/
def Hub.enumHdrErr (h : Hub) (p : Port) : Hub :=
  let h := h.bump (R.LNK_HDR_ERR p.ix)
  h.lnkLog p 0x0A sevCT 0 (h.get (R.LNK_HDR_ERR p.ix))

/-- ENUM_ASSIGN (R477): the ASSIGN that a port has received. -/
def Hub.enumAssign (h : Hub) (p : Port) : Hub :=
  match (h.links.at p).ownOf 7 with
  | none => h
  | some x =>
    let h := h.takeOwn p x
    let w := (x.pkt.payload.headD 0#32).toNat
    let addr := w % 128
    let st := h.lstate p
    if addr = 0 ∨ 64 < addr ∨ st = stMiswired ∨ h.on (R.LNK_STATUS_OPEN_END p.ix) = true then h.enumHdrErr p
    else if h.hasAddr && h.addr != addr then h.enumReport p addr 2
    else
      let status := if h.hasAddr then 1 else 0
      let h := h.put R.DEV_STATUS_ADDR addr
      let h := (h.put R.DEV_STATUS_ENUM_PORT p.code).put R.DEV_STATUS_SPUR (b2n (bit w 7))
      h.refreshQuality.enumReport p addr status

/-- ENUM_RELAY (R476, R477): the RELAY at output 3 makes the hub send an ASSIGN out of the port it names; a hub without an
address originates none, and it is counted as no route (R17) (assumption 99, DEDUCED). -/
def Hub.enumRelay (h : Hub) : Hub :=
  match h.inbox3 (fun p => p.kind == 7 && p.aux % 16 == 2) with
  | none => h
  | some d =>
    let w := (d.pkt.payload.headD 0#32).toNat
    match Port.ofCode (w % 4) with
    | none => h.take3 d
    | some p =>
      if !h.up p ∨ !h.hasAddr then (h.take3 d).countNoRoute p d.pkt.dest
      else
        let k := h.portPacket 7 1 [W (slice w 8 7 + slice w 15 1 * 2 ^ 7)]
        if h.portMay p k then (h.take3 d).portSend p k else h

/-! ### The rows of the table -/

/-- ENUM_ASSIGN (R477). -/
def execEnumAssign (p : Port) (s : State) : Result := s.upd (fun h => h.enumAssign p)

/-- ENUM_RELAY (R476). -/
def execEnumRelay (s : State) : Result := s.upd (fun h => h.enumRelay)

end Sys2Proof.Machine
end

