-- ==== Sys2Proof/Machine/Jtag.lean ====
section
/-! DEFINITION. The test access port (R451, R452, R508): the public boundary-scan instructions, scan test and class 5
accesses. -/

namespace Sys2Proof.Machine

/-- An instruction is selected: the balls return to the hub's logic, and scan test ends (assumption 100, DESIGN CHOICE). -/
def Hub.irSelect (h : Hub) (code : Nat) : Hub :=
  let h' : Hub :=
    { h with jtag := { h.jtag with ir := code, drive := none, hiz := false }, sec := { h.sec with scan := false } }
  if h.ballsTaken then h'.evoShow else h'

/-- The bypass register is selected: one bit that captures 0, the first bit then shifted out. -/
def Hub.bypassReg (h : Hub) : Hub := ({ h with jtag := { h.jtag with bypass := false } }).emit (.tdo 0)

/-- The levels captured in the boundary register, of the LVCMOS balls and of the CML and LVDS pairs, which are observe-only,
and shifted out, the new data shifted in (assumption 101, DESIGN CHOICE). -/
def Hub.boundaryScan (h : Hub) (pins data : List Bool) : Hub :=
  let h := h.emit (.tdo (pins.foldr (fun b n => b2n b + 2 * n) 0))
  { h with jtag := { h.jtag with boundary := data } }

/-- EXTEST (R508): the balls are sampled and driven from the boundary register (assumption 101, DESIGN CHOICE). -/
def Hub.extest (h : Hub) (pins data : List Bool) : Hub :=
  let h := (h.irSelect 0x00).boundaryScan pins data
  { h with jtag := { h.jtag with drive := some data } }

/-- SAMPLE/PRELOAD (R508): the balls stay with the hub's logic (assumption 101, DESIGN CHOICE). -/
def Hub.samplePreload (h : Hub) (pins data : List Bool) : Hub := (h.irSelect 0x01).boundaryScan pins data

/-- IDCODE (R508). -/
def Hub.idcode (h : Hub) : Hub := (h.irSelect 0x02).emit (.tdo 0x003C4491)

/-- CLAMP (R508): the boundary register drives the balls and the bypass register is selected
(assumption 101, DESIGN CHOICE). -/
def Hub.clamp (h : Hub) : Hub :=
  let h := (h.irSelect 0x03).bypassReg
  { h with jtag := { h.jtag with drive := some h.jtag.boundary } }

/-- HIGHZ (R508): the balls are high-impedance and the bypass register is selected (assumption 101, DESIGN CHOICE). -/
def Hub.highz (h : Hub) : Hub :=
  let h := (h.irSelect 0x04).bypassReg
  { h with jtag := { h.jtag with hiz := true } }

/-- The codes of instructions that are not BYPASS (R508). -/
def irListed : List Nat := [0x00, 0x01, 0x02, 0x03, 0x04, 0x80, 0x81, 0x82, 0x83, 0x84]

/-- The bypass register is selected (assumption 101, DESIGN CHOICE). -/
def Hub.irBypass (h : Hub) : Hub := (h.irSelect 0xFF).bypassReg

/-- BYPASS (R508): code 0xFF or any unlisted one. -/
def Hub.bypass (h : Hub) (code : Nat) : Hub := if irListed.contains code then h else h.irBypass

/-- TAP_RESET (R508): TRST_N selects IDCODE. -/
def Hub.tapReset (h : Hub) : Hub := h.irSelect 0x02

/-- SCAN_TEST (R452): BYPASS outside BLANK and RETURNED; before any chain shifts every slot and mask is zeroed. -/
def Hub.scanTest (h : Hub) : Hub :=
  if h.lcOpen then
    let h := (h.irSelect 0x83).emptySlots
    { h with sec := { h.sec with scan := true } }
  else h.irBypass

/-- The data register of DEBUG_ACCESS: data in [31:0], address in [56:32], write in 57, error in 58
(assumption 100, DESIGN CHOICE). -/
def debugWord (write : Bool) (addr : Nat) (data : Nat) (error : Bool) : Nat :=
  data % 2 ^ 32 + addr % 2 ^ 25 * 2 ^ 32 + b2n write * 2 ^ 57 + b2n error * 2 ^ 58

/-- One class 5 access of a word: what it read, or none for an error or a refusal. -/
def Hub.debugDo (h : Hub) (write : Bool) (addr : Nat) (data : Word) : Hub × Option Nat :=
  if addr % 4 ≠ 0 then (h, none)
  else
    match h.access 5 (if write then .write else .read) addr with
    | (h, .ok) => if write then (h.busWriteWord 5 addr 4 data.toNat, some data.toNat) else h.busRead addr 4
    | (h, _) => (h, none)

/-- DEBUG_ACCESS (R451, R508): BYPASS unless a service session is open (assumption 100, DESIGN CHOICE). -/
def Hub.debugAccess (h : Hub) (write : Bool) (addr : Nat) (data : Word) : Hub :=
  if h.on R.SEC_STATUS_SERVICE then
    let (h, r) := (h.irSelect 0x84).debugDo write addr data
    let dr := debugWord write addr (r.getD 0) r.isNone
    { h with jtag := { h.jtag with dr := dr } }.emit (.tdo dr)
  else h.irBypass

/-! ### The rows of the table -/

/-- SERVICE_OPEN (R451). -/
def execServiceOpen (accessory : Option Port) (trst : Bool) (s : State) : Result :=
  s.upd (fun h => (if accessory.isNone then h.irSelect 0x80 else h).serviceOpen accessory trst)

/-- SERVICE_CLOSE (R451). -/
def execServiceClose (s : State) : Result := s.upd (fun h => (h.irSelect 0x81).serviceClose)

/-- SCAN_TEST (R452). -/
def execScanTest (s : State) : Result := s.jtag (fun h => h.scanTest)

/-- DEBUG_ACCESS (R508). -/
def execDebugAccess (write : Bool) (addr : BitVec 25) (data : Word) (s : State) : Result :=
  s.jtag (fun h => h.debugAccess write addr.toNat data)

/-- EXTEST (R508). -/
def execExtest (pins : List Bool) (data : List Bool) (s : State) : Result := s.jtag (fun h => h.extest pins data)

/-- SAMPLE_PRELOAD (R508). -/
def execSamplePreload (pins : List Bool) (data : List Bool) (s : State) : Result :=
  s.jtag (fun h => h.samplePreload pins data)

/-- IDCODE (R508). -/
def execIdcode (s : State) : Result := s.jtag (fun h => h.idcode)

/-- CLAMP (R508). -/
def execClamp (s : State) : Result := s.jtag (fun h => h.clamp)

/-- HIGHZ (R508). -/
def execHighz (s : State) : Result := s.jtag (fun h => h.highz)

/-- BYPASS (R508). -/
def execBypass (code : Byte) (s : State) : Result := s.jtag (fun h => h.bypass code.toNat)

/-- TAP_RESET (R508). -/
def execTapReset (s : State) : Result := s.jtag (fun h => h.tapReset)

end Sys2Proof.Machine
end

