-- ==== Sys2Proof/Machine/Startup.lean ====
section
/-! DEFINITION. Start-up and the resets (R436, R463–R465, R474–R485, R459): the power-up test, the journal scan, the
panel image's capture and restore, cold pitch, release, and what each kind of reset clears. -/

namespace Sys2Proof.Machine

/-! ### The power-up test (R463, R465) -/

/-- A failing word is repaired while a spare remains, or has the outcome of its memory; a tun's spare is mapped before the
first pitch. Answers with the memories that hold an unrepairable word. -/
def Hub.testMem (x : Hub × List Nat) (m : MemFinding) : Hub × List Nat :=
  let a := m.addr.toNat
  match x.1.coopFail m.mem a (a / 1024) m.fail true with
  | (h, true) => (h, x.2)
  | (h, false) =>
    (if m.mem = 0 then
      let c := (a - 0x800000) / 64
      if h.fab.retired.contains c then h else h.retireCell c
    else (h.unrepairable m.mem a (Sys2Proof.Machine.tunOf a)).takeoverComplete, m.mem.val :: x.2)

/-- A lane whose power-up loop failed is not used in bring-up (R42, R465). -/
def Hub.testLanes (h : Hub) (p : Port) (failed : BitVec 5) : Hub :=
  let h := h.onLink p (fun l => { l with dead := failed.toNat })
  (List.range 5).foldl (fun h l => if bit failed.toNat l then h.lnkLog p 0x03 sevDG (l + 2 ^ 31) 0 else h) h

/-- One COOP entry for each check of `n` that failed (R465). -/
def Hub.checksFailed (h : Hub) (n : Nat) : Hub := (List.range n).foldl (fun h _ => h.coopCheck 0x08 sevDG) h

/-- A failed protection comparator bars a cable port's path; each is logged (R465). -/
def Hub.testComp (h : Hub) (p : Port) (bad : BitVec 4) : Hub :=
  let n := ((List.range 4).filter (fun i => bit bad.toNat i)).length
  if n = 0 then h else (h.onCc p (fun c => { c with barred := true })).checksFailed n

/-- The fuse's failed comparators keep it off; each is logged (R465). -/
def Hub.testFuse (h : Hub) (bad : BitVec 2) : Hub :=
  let n := ((List.range 2).filter (fun i => bit bad.toNat i)).length
  if n = 0 then h else (h.onLoad (fun l => { l with barred := true })).checksFailed n

/-- COOP_STATUS.POWERUP: 0 passed, 1 with repair, 2 with something lost. -/
def SelfTest.outcome (t : SelfTest) (lost : Bool) : Nat :=
  if lost || t.lanes != ⟨0, 0, 0⟩ || t.comps != ⟨0, 0, 0⟩ || t.fuseComp != 0 || t.monitors != 0 then 2
  else if t.mems.isEmpty then 0 else 1

/-- Step 5 of R474, and whether a structure memory has an unrepairable word: then the hub is not released (R463)
(assumption 88, DESIGN CHOICE). -/
def Hub.selfTest (h : Hub) (t : SelfTest) : Hub × Bool :=
  let (h, lost) := t.mems.foldl Hub.testMem (h, [])
  let h := ((h.testLanes .E t.lanes.e).testLanes .W t.lanes.w).testLanes .S t.lanes.s
  let h := h.coopReference t.refA.toNat t.refB.toNat t.refC.toNat
  let h := ((h.testComp .E t.comps.e).testComp .W t.comps.w).testComp .S t.comps.s
  let h := (h.testFuse t.fuseComp).checksFailed t.monitors
  (h.put R.COOP_STATUS_POWERUP (t.outcome (!lost.isEmpty || h.coop.noRefs || !h.coop.dropped.isEmpty)), lost.contains 4)

/-! ### The capture set (R483) -/

/-- Whether a register row has a read-write field. -/
def rwReg (a : Nat) : Bool :=
  match regRow? a with
  | some r => r.fields.any (fun f => f.kind != .w1c)
  | none => false

/-- Whether an address is one of `n` words from `base` on, `stride` apart. -/
def inRow (a base stride n : Nat) : Bool :=
  decide (base ≤ a) && (a - base) % stride == 0 && decide ((a - base) / stride < n)

/-- The captured registers named singly (R483). -/
def capturedNames : List Nat :=
  [A.CLK_CTRL, A.ERR_CTRL, A.COOP_CTRL, A.TIME_CTRL, A.TIME_EVI_EDGE0, A.TIME_EVI_EDGE1, A.ACC_CTRL, A.JRN_CTRL,
   A.JRN_PROT_LIMIT, A.FAB_CTRL, A.FAB_MRES, A.FAB_SWEEP, A.FAB_AGE_P, A.FAB_AGE_M, A.FAB_AGE_D, A.FAB_AGE_B,
   A.FAB_QLIM_P, A.FAB_QLIM_M, A.FAB_QLIM_D, A.FAB_QLIM_B, A.SCH_CTRL, A.SCH_PCAP, A.SCH_PBURST, A.SCH_SETTLE,
   A.TUNC_CTRL, A.TUNC_WDOG, A.USBH_CTRL, A.USBH_FRAME_ADJ, A.EMMC_CTRL, A.EMMC_TIMEOUT, A.EMMC_TUNE,
   A.PINS_WAKE_CTRL, A.PINS_WAKE_FILT]

/-- The captured rows of like registers (R483). -/
def capturedRows (a : Nat) : Bool :=
  inRow a (A.TIME_EVI_FILT 0) 4 32 || inRow a (A.TIME_EVO_CTRL 0) 32 8 || inRow a (A.ACC_SLOT 0) 4 64
    || inRow a (A.ACC_REG_BASE 0) 4 64 || inRow a (A.FAB_OLIM 0 0) 4 56 || inRow a (A.FAB_TLIM 0) 4 96
    || inRow a (A.POL_CFG 0) 32 96 || inRow a (A.POL_RATE 0) 32 96 || inRow a (A.POL_BURST 0) 32 96
    || inRow a (A.SCH_GRANT 0 0 0) 4 1024 || inRow a (A.TUNC_CTX_CFG 0) 64 96 || inRow a (A.TUNC_BIND_REQ 0) 64 96
    || inRow a (A.LNK_CTRL 0) 0x4000 3 || inRow a (A.LNK_LOWPWR 0) 0x4000 3 || inRow a (A.LNK_PKT_CTRL 0) 0x4000 3
    || inRow a (A.LNK_CREDIT_ALLOT 0) 0x4000 3 || inRow a (A.CC_CTRL 0) 0x4000 3 || inRow a (A.CC_SRC_CFG 0) 0x4000 3
    || inRow a (A.CC_SNK_CFG 0) 0x4000 3 || inRow a (A.CC_PROT 0) 0x4000 3
    || (List.range 4).any (fun p => inRow a (A.USBH_DEST p 0) 4 3)

/-- LOAD, DSP0, DSP1, ETH0–ETH3, PTP and SER: every register with a read-write field but PTP_ORIGIN (R483). -/
def capturedBlocks (a : Nat) : Bool :=
  decide (20 ≤ a / 0x4000) && decide (a / 0x4000 ≤ 28) && rwReg a
    && ! [A.PTP_ORIGIN_NS, A.PTP_ORIGIN_S_LO, A.PTP_ORIGIN_S_HI].contains a

/-- Whether a register is in the capture set. -/
def captured (a : Nat) : Bool := capturedNames.contains a || capturedRows a || capturedBlocks a

/-! ### Capture (R482–R484) -/

/-- A captured register's word: the binding in force with GO, the active grant bank as bank 0, D_EXCESS alone of SCH_CTRL,
USBH_CTRL without SOF_EN; otherwise the register as it stands. -/
def Hub.captureWord (h : Hub) (a : Nat) : Word :=
  if inRow a (A.TUNC_BIND_REQ 0) 64 96 then W (h.binding ((a - A.TUNC_BIND_REQ 0) / 64) + 2 ^ 31)
  else if inRow a (A.SCH_GRANT 0 0 0) 4 1024 then
    let k := (a - A.SCH_GRANT 0 0 0) / 4
    let act := h.get R.SCH_STATUS_ACTIVE_BANK
    h.rd (A.SCH_GRANT (k / 256) (if k / 128 % 2 = 0 then act else 1 - act) (k % 128))
  else if a = A.SCH_CTRL then W (h.get R.SCH_CTRL_D_EXCESS * 2 ^ R.SCH_CTRL_D_EXCESS.lo)
  else if a = A.USBH_CTRL then W (setSlice (h.rd a).toNat R.USBH_CTRL_SOF_EN.lo 1 0)
  else h.rd a

/-- The captured addresses in the order of their records: ascending, a display head's DSP_CTRL after its other registers,
so that a restore sets EN last (R291) (assumption 95, DESIGN CHOICE). -/
def captureOrder : List Nat :=
  (List.range 32).flatMap (fun s =>
    let l := ((List.range 4096).map (fun i => 0x4000 * s + 4 * i)).filter captured
    if s = 21 ∨ s = 22 then l.filter (fun a => a % 0x4000 != 0) ++ [0x4000 * s] else l)

/-- Addresses cut into contiguous runs of at most 4,096 words: start and length (assumption 95, DESIGN CHOICE). -/
def runsOf : List Nat → List (Nat × Nat)
  | [] => []
  | a :: rest =>
    match runsOf rest with
    | (b, n) :: more => if b = a + 4 ∧ n < 4096 then (a, n + 1) :: more else (a, 1) :: (b, n) :: more
    | [] => [(a, 1)]

/-- The records of an image (assumption 95, DESIGN CHOICE). -/
def Hub.captureRecords (h : Hub) : List (List Word) :=
  (runsOf captureOrder).map (fun r =>
    W r.1 :: W r.2 :: (List.range r.2).map (fun i => h.captureWord (r.1 + 4 * i)))

/-- The image captured now (R482). -/
def Hub.captureImage (h : Hub) : List Byte :=
  let rs := h.captureRecords
  let body := bytesOf rs.flatten
  leBytes 4 0x4D494C50 ++ leBytes 4 1 ++ wordBytes (h.rd A.DEV_BEHAVIOUR) ++ leBytes 4 (64 + body.length)
    ++ leBytes 4 rs.length ++ zeros 4 ++ leBytes 8 h.now ++ deviceId.take 16 ++ zeros 16 ++ body

/-- IMAGE_CAPTURE_DONE (R484). -/
def Hub.captureDone (h : Hub) : Hub :=
  match h.pw.capture with
  | some a =>
    let img := h.captureImage
    let h := (h.onPw (fun p => { p with capture := none })).busStore a img
    ((h.put R.DEV_IMAGE_CTRL_BUSY 0).put R.DEV_IMAGE_CTRL_RESULT 1).wr A.DEV_IMAGE_LEN (W img.length)
  | none => h

/-! ### Restore (R485) -/

/-- The records of an image body as addresses with words; none where a record is malformed or runs past the end. -/
def parseRecords : Nat → List Word → Option (List (Nat × Word))
  | _, [] => some []
  | 0, _ => none
  | k + 1, a :: c :: rest =>
    let n := c.toNat
    if a.toNat % 4 = 0 ∧ 1 ≤ n ∧ n ≤ 4096 ∧ n ≤ rest.length then
      (parseRecords k (rest.drop n)).map (fun l => ((rest.take n).zipIdx.map (fun e => (a.toNat + 4 * e.2, e.1))) ++ l)
    else none
  | _, _ => none

/-- The words of a stored image whose checks all pass; none where it is refused (assumption 94, DEDUCED). -/
def Hub.imageWords (h : Hub) : Option (List (Nat × Word)) :=
  let len := (h.mword (selAddr + 52)).toNat
  let img := h.mbytes (bankAddr (h.mrd (selAddr + 48)).toNat) len
  let w := fun o => leNat ((img.drop o).take 4)
  if 64 ≤ len ∧ len ≤ captureRoom ∧ len % 4 = 0 ∧ sha384 img = h.mbytes selAddr 48 ∧ w 0 = 0x4D494C50 ∧ w 4 = 1
      ∧ w 8 ≤ (h.rd A.DEV_BEHAVIOUR).toNat ∧ w 12 = len then
    parseRecords len (wordsOf (img.drop 64))
  else none

/-- A word skipped at the restore. -/
def Hub.skipWord (h : Hub) : Hub := h.bump (word A.DEV_IMAGE_SKIPPED)

/-- A captured binding restored: in force at once, nothing being in flight (assumption 94, DEDUCED). -/
def Hub.restoreBinding (h : Hub) (n b : Nat) : Hub :=
  let h := h.bindFields n b
  if bit b 31 then
    let r := h.bindResult n b
    let h := h.put (R.TUNC_BOUND_RESULT n) r
    if r = 1 then (h.bindStart n (b % 2 ^ 18)).bindApply n (b % 2 ^ 18) else h
  else h

/-- One word of an image: skipped outside the capture set and for a locked register; R179 does not bind it
(assumption 94, DEDUCED). -/
def Hub.restoreWord (h : Hub) (a : Nat) (v : Word) : Hub :=
  if !captured a then h.skipWord
  else if a = A.ACC_CTRL then h
  else if inRow a (A.ACC_SLOT 0) 4 64 then
    let i := (a - A.ACC_SLOT 0) / 4
    if bit (h.rd a).toNat 31 then h.skipWord else h.accEntryWrite i v.toNat
  else if inRow a (A.ACC_REG_BASE 0) 4 64 then
    let i := (a - A.ACC_REG_BASE 0) / 4
    if bit (h.rd (A.ACC_REG_PERM (i / 2))).toNat 31 then h.skipWord else h.accEntryWrite (64 + i) v.toNat
  else if a = A.JRN_PROT_LIMIT ∧ h.on R.JRN_PROT_LIMIT_LOCK = true then h.skipWord
  else if inRow a (A.SCH_GRANT 0 0 0) 4 1024 then h.plain a v 15
  else if inRow a (A.TUNC_BIND_REQ 0) 64 96 then h.restoreBinding ((a - A.TUNC_BIND_REQ 0) / 64) v.toNat
  else h.writeReg 0 a v 15

/-- An image's words in record order, ACC_CTRL.EN held at 0 until the last and then as captured (assumption 94, DEDUCED). -/
def Hub.restoreWords (h : Hub) (ws : List (Nat × Word)) : Hub :=
  let en := match ws.reverse.find? (fun e => e.1 == A.ACC_CTRL) with
    | some e => b2n (bit e.2.toNat 0)
    | none => h.get R.ACC_CTRL_EN
  let h := ws.foldl (fun h e => h.restoreWord e.1 e.2) (h.put R.ACC_CTRL_EN 0)
  let h := h.put R.ACC_CTRL_EN en
  if en = 1 then h.holdEnd.heldResume else h

/-- Step 7 of R474: DEV_STATUS.IMAGE 0 none stored, 1 restored, 2 refused. -/
def Hub.imageRestore (h : Hub) : Hub :=
  let h := h.wr A.DEV_IMAGE_SKIPPED 0#32
  if (h.mbytes selAddr 64).all (· == 0#8) then h.put R.DEV_STATUS_IMAGE 0
  else
    match h.imageWords with
    | some ws => (h.restoreWords ws).put R.DEV_STATUS_IMAGE 1
    | none => h.put R.DEV_STATUS_IMAGE 2

/-! ### Cold pitch (R212, R213) -/

/-- What check 5 finds of a stored image (R207, R212): its words are sound and the access table lets the pitch engine, class
4, read it; `none` while the access is held (R397) (assumption 124, DEDUCED). -/
def Hub.coldSource (h : Hub) (src n : Nat) : Hub × Option Bool :=
  if h.badRange src n then (h, some false)
  else
    match h.accessRange 4 .read src n with
    | (h, .ok) => (h, some true)
    | (h, .held) => (h, none)
    | (h, _) => (h, some false)

/-- One cold-pitch entry: checks 2 to 13, then the pitch. One whose image the access table holds waits until EN returns to 1,
and start-up goes on (R397, R474) (assumption 124, DEDUCED). -/
def Hub.coldEntry (h : Hub) (e : Nat) : Hub :=
  if !h.entryValid e then h.coldResult e 0 0
  else
    let b := fun o => (h.mrd (descAddr e + o)).toNat
    let n := b 48
    let share := b 49 % 2 == 1
    let code := b 50 + 256 * b 51
    let data := b 52 + 256 * b 53
    let src := pageAddr (b 54)
    match h.pitchPre n with
    | some r => h.coldResult e n r
    | none =>
      match h.coldSource src (max 160 (h.imageHead src).total) with
      | (h, none) => { h with tun := { h.tun with coldWait := h.tun.coldWait ++ [e] } }
      | (h, some false) => h.coldResult e n 0xC
      | (h, some true) =>
        match h.pitchChecks n share src code data true with
        | some r => h.coldResult e n r
        | none => (h.pitchStart n share src code data (some e)).pitchComplete

/-- Step 8 of R474. -/
def Hub.coldPitch (h : Hub) : Hub :=
  (List.range 16).foldl Hub.coldEntry { h with tun := { h.tun with coldWait := [] } }

/-- The cold-pitch entries that waited for the access table are decided as EN returns to 1 (R397)
(assumption 72, DEDUCED; 124, DEDUCED). -/
def Hub.coldResume (h : Hub) : Hub :=
  if h.tun.coldWait.isEmpty || !h.on R.ACC_CTRL_EN then h
  else h.tun.coldWait.foldl Hub.coldEntry { h with tun := { h.tun with coldWait := [] } }

/-! ### Release -/

/-- Root time goes on, and station time with it (assumption 90, DESIGN CHOICE). -/
def Hub.passMs (h : Hub) (ms : Nat) : Hub := { h with root := h.root + ms * 1000 * us, stime := h.stime + ms * 1000 * us }

/-- Step 9 of R474: the release, `ms` after the reset's start, and the table's hash (R396) (assumption 90, DESIGN CHOICE). -/
def Hub.releaseHub (h : Hub) (cause ms : Nat) : Hub :=
  let h := (h.passMs ms).put R.DEV_STATUS_RELEASED 1
  let h := (h.put R.DEV_STATUS_RESET_CAUSE cause).put ⟨A.DEV_RELEASE_TIME, 0, 16⟩ (min 65535 ms)
  { h with acc := { h.acc with hashDue := true } }.fillBuckets 3

/-- Step 4 of R474 (R436): a hub in BLANK, RETURNED or SCRAPPED erases what its owner left. -/
def Hub.eraseAtStart (h : Hub) : Hub :=
  if h.lifecycle = 0 ∨ h.lifecycle = 3 ∨ h.lifecycle = 4 then h.eraseOwner else h

/-- Steps 6 to 9 of R474 (assumption 90, DESIGN CHOICE). -/
def Hub.finishStart (h : Hub) (cause ms : Nat) : Hub := (h.journalScan.imageRestore.coldPitch).releaseHub cause ms

/-- A hub held in reset (R459): its link transmitters idle. -/
def Hub.holdReset (h : Hub) : Hub :=
  Port.all.foldl (fun h p => h.emit (.idle p)) { h with err := { h.err with held := true, fatalPending := false } }

/-! ### What a reset keeps (R479) -/

/-- Registers of the security store that every reset keeps: those of the lifecycle, and its counters. -/
def secureReg (a : Nat) : Bool := a == A.SEC_STATUS || a == A.SEC_SVC_CNT || a == A.SEC_LC_CNT

/-- Registers of the high-voltage die: CC and LOAD. -/
def powerReg (a : Nat) : Bool := decide (17 ≤ a / 0x4000) && decide (a / 0x4000 ≤ 20)

/-- Registers that a fatal and a JTAG reset keep besides: ERR, and Cooper's repair map with the tuns it failed
(assumption 91, DEDUCED). -/
def repairReg (a : Nat) : Bool :=
  a / 0x4000 == 3 || [A.COOP_STATUS, A.COOP_FAIL_ADDR, A.COOP_FAIL_INFO, A.COOP_SPARES, A.TUNC_STATUS].contains a

/-- The serial channels as a reset leaves them: empty, what drives their CTS balls going on. -/
def Hub.ctsKept (h : Hub) : SMap SerChan :=
  (List.range 8).foldl (fun m c => SMap.set (fun _ => SerChan.reset) m c { SerChan.reset with cts := (h.chan c).cts }) []

/-- The hub as a reset leaves it before its steps: the registers that `keep` names, the security store and the journal's
array with the program area; root time, the free values taken and what has left the hub go on
(assumption 91, DEDUCED). -/
def Hub.cleared (h : Hub) (keep : Nat → Bool) : Hub :=
  let z : Hub := Hub.reset
  let h' : Hub :=
    { z with
      root := h.root, free := h.free, out := h.out, regs := h.regs.filter (fun e => keep e.1),
      mem := h.mem.filter (fun e => decide (0x400000 ≤ e.1) && decide (e.1 < 0x800000)),
      sec := { z.sec with
        ors := h.sec.ors, orsMask := h.sec.orsMask, kek := h.sec.kek, kekMask := h.sec.kekMask, pkeys := h.sec.pkeys },
      jrn := { z.jrn with ckpt := h.jrn.ckpt },
      ser := h.ctsKept,
      pw := { PowerState.running with since := h.root } }
  (h'.put R.SEC_STATUS_SERVICE 0).put R.SEC_STATUS_TRNG_FAIL 0

/-! ### Power-up and power loss (R474, R475) -/

/-- Steps 4 to 9 of R474 after power on, from a hub cleared. -/
def Hub.startCore (h : Hub) (t : SelfTest) (ms : Nat) : Hub :=
  match h.eraseAtStart.evoShow.selfTest t with
  | (h, true) => h.holdReset
  | (h, false) => h.finishStart 0 ms

/-- POWER_UP (R474): VSUP has risen through 4.4 V (assumption 92, DEDUCED). -/
def Hub.powerUp (h : Hub) (t : SelfTest) (ms : Nat) : Hub :=
  if h.pw.dark = false ∧ (h.on R.DEV_STATUS_RELEASED = true ∨ h.err.held = true) then h
  else
    let h := (h.cleared secureReg).ballsAtRest
    let h := Port.all.foldl (fun h p => (h.ccPresent p).ccStart p (t.cables.at p)) h
    let h := if t.low then h.defaultEnter else h.fuseStart
    h.startCore t ms

/-- A cable port of an unpowered hub (R404): Rd, its path open and its FET pair off (assumption 92, DEDUCED). -/
def Hub.ccUnpowered (h : Hub) (p : Port) : Hub :=
  let h := if (h.cc.at p).vout = 0 then h else h.drive p 0
  h.onCc p (fun x => { x with rp := false, path := false, closing := false })

/-- POWER_LOSS (R475): everything stops, the cable ports present Rd (R404), and a commit between its steps is the lost commit
of R363 (assumption 92, DEDUCED). -/
def Hub.powerLoss (h : Hub) (commit : CommitCut) : Hub :=
  if h.pw.dark then h
  else
    let h := if h.commitDue then h.commitLost commit else h
    (Port.all.foldl Hub.ccUnpowered h).ballsAtRest.onPw (fun p => { p with dark := true, rail := false, steep := false })

/-- RAIL_OUT_OF_TOLERANCE (R474): the core die is held in reset; when the rails are back (`back`) it starts as after power
on, the high-voltage die having gone on (assumption 92, DEDUCED). -/
def Hub.railOut (h : Hub) (back : Option (SelfTest × Nat)) : Hub :=
  if h.pw.dark then h
  else
    match back with
    | none => h.ballsAtRest.onPw (fun p => { p with rail := true, steep := false })
    | some (t, ms) =>
      if h.pw.rail then
        let h := { h.cleared (fun a => secureReg a || powerReg a) with cc := h.cc, load := h.load }
        h.startCore t ms
      else h

/-! ### Fatal and JTAG resets (R459, R478, R479) -/

/-- The hub as a fatal or JTAG reset leaves it before its steps: the log, the repair map and the high-voltage die stay
(assumption 91, DEDUCED). -/
def Hub.coreCleared (h : Hub) : Hub :=
  let h' := h.cleared (fun a => secureReg a || powerReg a || repairReg a)
  let dead := fun (p : Port) => { LinkPort.reset with dead := (h.links.at p).dead }
  let h' : Hub :=
    { h' with
      mem := h.mem, err := { h.err with handling := [], fatalPending := false }, cc := h.cc, load := h.load,
      coop := h.coop, links := ⟨dead .E, dead .W, dead .S⟩, fab := { h'.fab with retired := h.fab.retired },
      tun := { h'.tun with bad := h.tun.bad }, jtag := { h.jtag with by_ := none } }
  ((h'.setHandling []).put R.TUNC_STATUS_MOVING 0).ballsAtRest

/-- FATAL_RESET (R459): 20 µs after a FATAL entry; a fourth within 10 minutes of the first of three holds the hub. -/
def Hub.fatalReset (h : Hub) (ms : Nat) : Hub :=
  if h.err.fatalPending = false then h
  else
    let recent := h.err.fatalAt.filter (fun t => decide (h.root < t + 600 * second))
    let h := (h.takeoverComplete.coreCleared).bump (word A.ERR_FATAL_RESETS)
    let h : Hub := { h with err := { h.err with fatalAt := recent ++ [h.root] } }
    if 3 ≤ recent.length then h.holdReset else h.eraseAtStart.evoShow.finishStart 1 ms

/-- JTAG_HUB_RESET (R479): ERR_FATAL_RESETS and the hold of R459 are cleared. -/
def Hub.jtagReset (h : Hub) (ms : Nat) : Hub :=
  let h := (h.irSelect 0x82).takeoverComplete.coreCleared
  let h := ({ h with err := { h.err with held := false, fatalAt := [] } }).wr A.ERR_FATAL_RESETS 0#32
  h.eraseAtStart.evoShow.finishStart 2 ms

/-! ### The hub reset (R386, R479, R480) -/

/-- Output 3 emptied without a count: its writes are applied and its reads answered (R386) (assumption 93, DEDUCED). -/
def Hub.bridgeEmptied (h : Hub) : Hub :=
  let drop := fun (h : Hub) q =>
    let x := h.queue 3 q
    x.items.foldl (fun h d => h.release d.pid) (h.setQueue 3 q (h.newHead { x with items := [] }))
  let h := (h.queueKeys 3).foldl drop h
  h.onFab (fun f => { f with
    inbox := KMap.del f.inbox 3
    wire := match f.wire with | some w => if w.output = 3 then none else some w | none => none })

/-- A context's held packets released under cause 0x6 and the context emptied (assumption 93, DEDUCED). -/
def Hub.resetCtx (h : Hub) (n : Nat) : Hub :=
  let h := (h.ctx n).held.foldl (fun h x =>
    let c := match h.pkt? x.pid with | some p => p.cls | none => .M
    (h.count 13 n c 6).release x.pid) h
  let h := h.setCtx n Ctx.empty
  ((h.orphanOps n).emptyCtx n).setCtx n Ctx.empty

/-- Packets past an output's queues that a hub reset empties, each counted under cause 0x6 of the local output it is at: those
delivered and not yet taken, one on the wire, and those between an endpoint and its context (R479)
(assumption 93, DEDUCED). -/
def Hub.localEmptied (h : Hub) : Hub :=
  let h := h.fab.inbox.foldl (fun h e => e.2.foldl (fun h d => h.count e.1 d.tunnel d.pkt.cls 6) h) h
  let h := match h.fab.wire with | some w => h.count w.output w.queue w.pkt.cls 6 | none => h
  let h := h.tun.epIn.foldl (fun h e => e.2.foldl (fun h p => h.count 13 e.1 p.cls 6) h) h
  let h := h.tun.epOut.foldl (fun h e => e.2.foldl (fun h p => h.count ((bindOut (setSlice (h.binding e.1) 0 2 1)).getD 13) e.1 p.cls 6) h) h
  { h with
    tun := { h.tun with epIn := [], epOut := [] }
    fab := { h.fab with inbox := [], wire := none } }

/-- What a hub reset clears before its steps, with output 3's WRITEs applied (assumption 93, DEDUCED). -/
def Hub.hubCleared (h : Hub) : Hub :=
  let h := h.takeoverComplete.dropReused
  let tags := (h.bridgeWaiting.filter (fun p => p.kind == 2 && p.src == 0)).map (fun p => slice p.aux 0 9)
  let h := h.bridgeEmptied.brgReset tags
  let h := (List.range 10).foldl (fun h i => (h.queueKeys (4 + i)).foldl (fun h q => h.emptyQueue (4 + i) q 6) h) h
  let h := ((List.range 96).foldl Hub.resetCtx h).localEmptied
  let h : Hub := { h with
    tun := { h.tun with pitch := none, pitchWait := none }
    rt := { h.rt with tseq := [], win := [] } }
  let h := (h.put R.TUNC_PITCH_STATUS_BUSY 0).releaseWrites.emptySlots.serviceClose
  let h := (List.range 4).foldl Hub.usbPowerOff h
  h.put R.ACC_STATUS_HASH_VALID 0

/-- HUB_RESET_TAKES_EFFECT (R479, R480): the WRITEs admitted to output 3 are applied; once none is left there that the access
table holds (R397), steps 7 and 8, then release. -/
def Hub.hubResetRun (h : Hub) (ms : Nat) : Hub :=
  if h.pw.reset then
    let h := h.brgDrainWrites h.bridgeWaiting.length
    if h.bridgeWaiting.any (fun p => p.kind == 1) then h.holdMark
    else
    let h := (h.onPw (fun p => { p with reset := false, since := h.root })).put R.DEV_STATUS_RELEASED 0
    ((h.hubCleared.imageRestore.coldPitch).releaseHub 3 ms).keysGo
  else h

/-! ### The rows of the table -/

/-- FATAL_RESET (R459). -/
def execFatalReset (ms : BitVec 16) (s : State) : Result := s.upd (fun h => h.fatalReset ms.toNat)

/-- POWER_UP (R474). -/
def execPowerUp (found : SelfTest) (ms : BitVec 16) (s : State) : Result := s.any (fun h => h.powerUp found ms.toNat)

/-- POWER_LOSS (R475). -/
def execPowerLoss (commit : CommitCut) (s : State) : Result := s.any (fun h => h.powerLoss commit)

/-- HUB_RESET_TAKES_EFFECT (R479). -/
def execHubResetTakesEffect (ms : BitVec 16) (s : State) : Result := s.upd (fun h => h.hubResetRun ms.toNat)

/-- JTAG_HUB_RESET (R479). -/
def execJtagHubReset (ms : BitVec 16) (s : State) : Result := s.jtag (fun h => h.jtagReset ms.toNat)

/-- IMAGE_CAPTURE_DONE (R484). -/
def execImageCaptureDone (s : State) : Result := s.upd (fun h => h.captureDone)

/-- RAIL_OUT_OF_TOLERANCE (R474). -/
def execRailOutOfTolerance (back : Option (SelfTest × BitVec 16)) (s : State) : Result :=
  s.any (fun h => h.railOut (back.map (fun x => (x.1, x.2.toNat))))

end Sys2Proof.Machine
end

