-- ==== Sys2Proof/Machine/Dispatch.lean ====
section
/-! DEFINITION. One arm for each command: the direct call of its meaning. -/

namespace Sys2Proof.Machine

/-- The effect of a command on everything but the queue. -/
def exec (i : Instr) (s : State) : Host.Outcome State Fault Refusal :=
  match i with
  | .registerWrite cls addr be value => Sys2Proof.Machine.execRegisterWrite cls addr be value s
  | .latchedPairRead cls addr => Sys2Proof.Machine.execLatchedPairRead cls addr s
  | .receiveColumn p c => Sys2Proof.Machine.execReceiveColumn p c s
  | .sendAlignmentMarker p => Sys2Proof.Machine.execSendAlignmentMarker p s
  | .laneFailed p lane why => Sys2Proof.Machine.execLaneFailed p lane why s
  | .narReceived p mask width => Sys2Proof.Machine.execNarReceived p mask width s
  | .widthSwitch p => Sys2Proof.Machine.execWidthSwitch p s
  | .widReceived p mask width parShed => Sys2Proof.Machine.execWidReceived p mask width parShed s
  | .directionLost p uncorrectable => Sys2Proof.Machine.execDirectionLost p uncorrectable s
  | .linkDown p => Sys2Proof.Machine.execLinkDown p s
  | .laneProbe p => Sys2Proof.Machine.execLaneProbe p s
  | .laneProbePass p lane => Sys2Proof.Machine.execLaneProbePass p lane s
  | .orderedSetReceived p set => Sys2Proof.Machine.execOrderedSetReceived p set s
  | .linkAttach p => Sys2Proof.Machine.execLinkAttach p s
  | .receiverDetection p pairs => Sys2Proof.Machine.execReceiverDetection p pairs s
  | .trainingTimeout p => Sys2Proof.Machine.execTrainingTimeout p s
  | .gearStepRequest p => Sys2Proof.Machine.execGearStepRequest p s
  | .gearRateChange p => Sys2Proof.Machine.execGearRateChange p s
  | .eqTrainDone p => Sys2Proof.Machine.execEqTrainDone p s
  | .eqCheckDone p pass => Sys2Proof.Machine.execEqCheckDone p pass s
  | .linkUp p => Sys2Proof.Machine.execLinkUp p s
  | .linkDisable p => Sys2Proof.Machine.execLinkDisable p s
  | .linkRetrain p => Sys2Proof.Machine.execLinkRetrain p s
  | .linkDetach p => Sys2Proof.Machine.execLinkDetach p s
  | .backoffExpire p => Sys2Proof.Machine.execBackoffExpire p s
  | .loopbackNearEnd p serial => Sys2Proof.Machine.execLoopbackNearEnd p serial s
  | .loopbackFarEnd p => Sys2Proof.Machine.execLoopbackFarEnd p s
  | .lpbReceived p arg0 => Sys2Proof.Machine.execLpbReceived p arg0 s
  | .farLoopRefused p => Sys2Proof.Machine.execFarLoopRefused p s
  | .loopbackEnd p => Sys2Proof.Machine.execLoopbackEnd p s
  | .withdrawRequest p lane => Sys2Proof.Machine.execWithdrawRequest p lane s
  | .wdrReceived p lane op => Sys2Proof.Machine.execWdrReceived p lane op s
  | .withdrawReturn p => Sys2Proof.Machine.execWithdrawReturn p s
  | .withdrawGiveBack p => Sys2Proof.Machine.execWithdrawGiveBack p s
  | .lullEntry p => Sys2Proof.Machine.execLullEntry p s
  | .lullExit p => Sys2Proof.Machine.execLullExit p s
  | .shedWake p => Sys2Proof.Machine.execShedWake p s
  | .shedIdleExpire p => Sys2Proof.Machine.execShedIdleExpire p s
  | .parityForcedBack p => Sys2Proof.Machine.execParityForcedBack p s
  | .lnkeClearLaneCounters p => Sys2Proof.Machine.execLnkeClearLaneCounters p s
  | .lnkeClearPacketCounters p => Sys2Proof.Machine.execLnkeClearPacketCounters p s
  | .lnkeClearWindowCounters => Sys2Proof.Machine.execLnkeClearWindowCounters s
  | .stpReceived p gear => Sys2Proof.Machine.execStpReceived p gear s
  | .packetReceived p wire cut => Sys2Proof.Machine.execPacketReceived p wire cut s
  | .nakRepeat p => Sys2Proof.Machine.execNakRepeat p s
  | .sendAck p => Sys2Proof.Machine.execSendAck p s
  | .ackReceived p lseq => Sys2Proof.Machine.execAckReceived p lseq s
  | .nakReceived p lseq => Sys2Proof.Machine.execNakReceived p lseq s
  | .linkControlError p word => Sys2Proof.Machine.execLinkControlError p word s
  | .replayTimeout p => Sys2Proof.Machine.execReplayTimeout p s
  | .creditReceived p cls cells => Sys2Proof.Machine.execCreditReceived p cls cells s
  | .sendCredit p cls => Sys2Proof.Machine.execSendCredit p cls s
  | .routeEntryWrite entry value => Sys2Proof.Machine.execRouteEntryWrite entry value s
  | .routeHoldRelease entry => Sys2Proof.Machine.execRouteHoldRelease entry s
  | .clockAcquire p => Sys2Proof.Machine.execClockAcquire p s
  | .clockEnterRing => Sys2Proof.Machine.execClockEnterRing s
  | .acquireTimeout => Sys2Proof.Machine.execAcquireTimeout s
  | .stepHoldEnter => Sys2Proof.Machine.execStepHoldEnter s
  | .stepHoldRelock => Sys2Proof.Machine.execStepHoldRelock s
  | .stepHoldOverrun => Sys2Proof.Machine.execStepHoldOverrun s
  | .monitorWindowEnd w e => Sys2Proof.Machine.execMonitorWindowEnd w e s
  | .missingEdges p => Sys2Proof.Machine.execMissingEdges p s
  | .clockSwitch => Sys2Proof.Machine.execClockSwitch s
  | .holdoverEnter => Sys2Proof.Machine.execHoldoverEnter s
  | .holdoverExit w e => Sys2Proof.Machine.execHoldoverExit w e s
  | .clockRevert => Sys2Proof.Machine.execClockRevert s
  | .slowClockMeasure hz => Sys2Proof.Machine.execSlowClockMeasure hz s
  | .timeMarkerReceived p value erased res => Sys2Proof.Machine.execTimeMarkerReceived p value erased res s
  | .markerGap p => Sys2Proof.Machine.execMarkerGap p s
  | .delayCalibration p => Sys2Proof.Machine.execDelayCalibration p s
  | .delayProbeReceived p => Sys2Proof.Machine.execDelayProbeReceived p s
  | .delayReplyReceived p => Sys2Proof.Machine.execDelayReplyReceived p s
  | .delayProbeTimeout p probe => Sys2Proof.Machine.execDelayProbeTimeout p probe s
  | .delayRecheck p => Sys2Proof.Machine.execDelayRecheck p s
  | .calibrationRetry p => Sys2Proof.Machine.execCalibrationRetry p s
  | .calNow => Sys2Proof.Machine.execCalNow s
  | .eviLevelChange pin level => Sys2Proof.Machine.execEviLevelChange pin level s
  | .eviFilterAccept pin => Sys2Proof.Machine.execEviFilterAccept pin s
  | .eviPacketSend => Sys2Proof.Machine.execEviPacketSend s
  | .eviPop => Sys2Proof.Machine.execEviPop s
  | .evoArm n => Sys2Proof.Machine.execEvoArm n s
  | .evoStop n clearOwn => Sys2Proof.Machine.execEvoStop n clearOwn s
  | .evoEdge n => Sys2Proof.Machine.execEvoEdge n s
  | .evoPulseEnd n => Sys2Proof.Machine.execEvoPulseEnd n s
  | .clkCounterClear => Sys2Proof.Machine.execClkCounterClear s
  | .timeClearMarkerCounters => Sys2Proof.Machine.execTimeClearMarkerCounters s
  | .timeClearEventCounters => Sys2Proof.Machine.execTimeClearEventCounters s
  | .sweepPass => Sys2Proof.Machine.execSweepPass s
  | .queueDump output queue => Sys2Proof.Machine.execQueueDump output queue s
  | .fabSpargeGo tid => Sys2Proof.Machine.execFabSpargeGo tid s
  | .spargeBoundary output => Sys2Proof.Machine.execSpargeBoundary output s
  | .spargeComplete => Sys2Proof.Machine.execSpargeComplete s
  | .queueReset output queue => Sys2Proof.Machine.execQueueReset output queue s
  | .freeListRebuild => Sys2Proof.Machine.execFreeListRebuild s
  | .freeListRebuildDone => Sys2Proof.Machine.execFreeListRebuildDone s
  | .fabCounterClear => Sys2Proof.Machine.execFabCounterClear s
  | .polCounterClear => Sys2Proof.Machine.execPolCounterClear s
  | .policerConfigWrite tunnel reg value => Sys2Proof.Machine.execPolicerConfigWrite tunnel reg value s
  | .schedulerSelect sched bad => Sys2Proof.Machine.execSchedulerSelect sched bad s
  | .epochStart => Sys2Proof.Machine.execEpochStart s
  | .schArm => Sys2Proof.Machine.execSchArm s
  | .schDisarm => Sys2Proof.Machine.execSchDisarm s
  | .grantSwap => Sys2Proof.Machine.execGrantSwap s
  | .missedSwapEvent => Sys2Proof.Machine.execMissedSwapEvent s
  | .settleEnd => Sys2Proof.Machine.execSettleEnd s
  | .qmonSample => Sys2Proof.Machine.execQmonSample s
  | .qmonMaxMeanRead depth mean => Sys2Proof.Machine.execQmonMaxMeanRead depth mean s
  | .schCounterClear => Sys2Proof.Machine.execSchCounterClear s
  | .bindRequest tunnel binding => Sys2Proof.Machine.execBindRequest tunnel binding s
  | .pitch tunnel share => Sys2Proof.Machine.execPitch tunnel share s
  | .pitchComplete => Sys2Proof.Machine.execPitchComplete s
  | .contextRestart n => Sys2Proof.Machine.execContextRestart n s
  | .watchdogExpire n => Sys2Proof.Machine.execWatchdogExpire n s
  | .contextStop tunnel => Sys2Proof.Machine.execContextStop tunnel s
  | .doorbell tunnel => Sys2Proof.Machine.execDoorbell tunnel s
  | .contextWake n => Sys2Proof.Machine.execContextWake n s
  | .tunCheckerMismatch t => Sys2Proof.Machine.execTunCheckerMismatch t s
  | .tuncForce t => Sys2Proof.Machine.execTuncForce t s
  | .takeoverComplete => Sys2Proof.Machine.execTakeoverComplete s
  | .tunFailedNoSpare t => Sys2Proof.Machine.execTunFailedNoSpare t s
  | .illegalInstruction n => Sys2Proof.Machine.execIllegalInstruction n s
  | .nop n => Sys2Proof.Machine.execNop n s
  | .yield n => Sys2Proof.Machine.execYield n s
  | .halt n => Sys2Proof.Machine.execHalt n s
  | .trap n code => Sys2Proof.Machine.execTrap n code s
  | .fence n => Sys2Proof.Machine.execFence n s
  | .csrr n gd csr => Sys2Proof.Machine.execCsrr n gd csr s
  | .csrw n csr ga => Sys2Proof.Machine.execCsrw n csr ga s
  | .add n gd ga gb f => Sys2Proof.Machine.execAdd n gd ga gb f s
  | .sub n gd ga gb f => Sys2Proof.Machine.execSub n gd ga gb f s
  | .adc n gd ga gb f => Sys2Proof.Machine.execAdc n gd ga gb f s
  | .sbc n gd ga gb f => Sys2Proof.Machine.execSbc n gd ga gb f s
  | .and n gd ga gb f => Sys2Proof.Machine.execAnd n gd ga gb f s
  | .or n gd ga gb f => Sys2Proof.Machine.execOr n gd ga gb f s
  | .xor n gd ga gb f => Sys2Proof.Machine.execXor n gd ga gb f s
  | .andn n gd ga gb f => Sys2Proof.Machine.execAndn n gd ga gb f s
  | .shl n gd ga gb f => Sys2Proof.Machine.execShl n gd ga gb f s
  | .shr n gd ga gb f => Sys2Proof.Machine.execShr n gd ga gb f s
  | .sar n gd ga gb f => Sys2Proof.Machine.execSar n gd ga gb f s
  | .ror n gd ga gb f => Sys2Proof.Machine.execRor n gd ga gb f s
  | .mul n gd ga gb f => Sys2Proof.Machine.execMul n gd ga gb f s
  | .mulhu n gd ga gb f => Sys2Proof.Machine.execMulhu n gd ga gb f s
  | .mulhs n gd ga gb f => Sys2Proof.Machine.execMulhs n gd ga gb f s
  | .minu n gd ga gb f => Sys2Proof.Machine.execMinu n gd ga gb f s
  | .maxu n gd ga gb f => Sys2Proof.Machine.execMaxu n gd ga gb f s
  | .mins n gd ga gb f => Sys2Proof.Machine.execMins n gd ga gb f s
  | .maxs n gd ga gb f => Sys2Proof.Machine.execMaxs n gd ga gb f s
  | .clz n gd ga f => Sys2Proof.Machine.execClz n gd ga f s
  | .popc n gd ga f => Sys2Proof.Machine.execPopc n gd ga f s
  | .bswap n gd ga f => Sys2Proof.Machine.execBswap n gd ga f s
  | .addi n gd ga imm => Sys2Proof.Machine.execAddi n gd ga imm s
  | .andi n gd ga imm => Sys2Proof.Machine.execAndi n gd ga imm s
  | .ori n gd ga imm => Sys2Proof.Machine.execOri n gd ga imm s
  | .xori n gd ga imm => Sys2Proof.Machine.execXori n gd ga imm s
  | .movhi n gd imm => Sys2Proof.Machine.execMovhi n gd imm s
  | .shli n gd ga k => Sys2Proof.Machine.execShli n gd ga k s
  | .shri n gd ga k => Sys2Proof.Machine.execShri n gd ga k s
  | .sari n gd ga k => Sys2Proof.Machine.execSari n gd ga k s
  | .rori n gd ga k => Sys2Proof.Machine.execRori n gd ga k s
  | .cmp n ga gb => Sys2Proof.Machine.execCmp n ga gb s
  | .cmpi n ga imm => Sys2Proof.Machine.execCmpi n ga imm s
  | .tst n ga gb => Sys2Proof.Machine.execTst n ga gb s
  | .tsti n ga imm => Sys2Proof.Machine.execTsti n ga imm s
  | .ldw n gd ga imm => Sys2Proof.Machine.execLdw n gd ga imm s
  | .ldh n gd ga imm => Sys2Proof.Machine.execLdh n gd ga imm s
  | .ldb n gd ga imm => Sys2Proof.Machine.execLdb n gd ga imm s
  | .stw n gd ga imm => Sys2Proof.Machine.execStw n gd ga imm s
  | .sth n gd ga imm => Sys2Proof.Machine.execSth n gd ga imm s
  | .stb n gd ga imm => Sys2Proof.Machine.execStb n gd ga imm s
  | .b n cond off => Sys2Proof.Machine.execB n cond off s
  | .call n cond off => Sys2Proof.Machine.execCall n cond off s
  | .jr n cond ga link => Sys2Proof.Machine.execJr n cond ga link s
  | .pget n dd gd endpoint => Sys2Proof.Machine.execPget n dd gd endpoint s
  | .phdr n gd dd field => Sys2Proof.Machine.execPhdr n gd dd field s
  | .pseth n dd field ga => Sys2Proof.Machine.execPseth n dd field ga s
  | .pld n gd dd ga imm width => Sys2Proof.Machine.execPld n gd dd ga imm width s
  | .pst n gd dd ga imm width => Sys2Proof.Machine.execPst n gd dd ga imm width s
  | .pemitFabric n dd gd keep => Sys2Proof.Machine.execPemitFabric n dd gd keep s
  | .pemitEndpoint n dd gd keep => Sys2Proof.Machine.execPemitEndpoint n dd gd keep s
  | .pdrop n dd => Sys2Proof.Machine.execPdrop n dd s
  | .pcopyToMemory n dd gd ga bytes => Sys2Proof.Machine.execPcopyToMemory n dd gd ga bytes s
  | .pcopyFromMemory n dd gd ga bytes => Sys2Proof.Machine.execPcopyFromMemory n dd gd ga bytes s
  | .psplit n dd gd ga dt => Sys2Proof.Machine.execPsplit n dd gd ga dt s
  | .pjoin n dd gd ds => Sys2Proof.Machine.execPjoin n dd gd ds s
  | .pnew n dd gd words => Sys2Proof.Machine.execPnew n dd gd words s
  | .qdepth n gd ga sel out => Sys2Proof.Machine.execQdepth n gd ga sel out s
  | .sparge n gd ga => Sys2Proof.Machine.execSparge n gd ga s
  | .wait n gd mask => Sys2Proof.Machine.execWait n gd mask s
  | .tnowSample n gd => Sys2Proof.Machine.execTnowSample n gd s
  | .tnowPart n gd part => Sys2Proof.Machine.execTnowPart n gd part s
  | .tstamp n gd ga part => Sys2Proof.Machine.execTstamp n gd ga part s
  | .tarmAt n gd ga => Sys2Proof.Machine.execTarmAt n gd ga s
  | .tarmAfter n gd ga => Sys2Proof.Machine.execTarmAfter n gd ga s
  | .tarmCancel n gd => Sys2Proof.Machine.execTarmCancel n gd s
  | .tarmOutput n gd ga output => Sys2Proof.Machine.execTarmOutput n gd ga output s
  | .contextTimerFire n => Sys2Proof.Machine.execContextTimerFire n s
  | .outat n gd ga output active => Sys2Proof.Machine.execOutat n gd ga output active s
  | .outatCancel n gd output => Sys2Proof.Machine.execOutatCancel n gd output s
  | .outatTransition output => Sys2Proof.Machine.execOutatTransition output s
  | .gstage n gd ga sched entry => Sys2Proof.Machine.execGstage n gd ga sched entry s
  | .garm n gd ga => Sys2Proof.Machine.execGarm n gd ga s
  | .garmDisarm n gd => Sys2Proof.Machine.execGarmDisarm n gd s
  | .polset n gd ga => Sys2Proof.Machine.execPolset n gd ga s
  | .tap n gd ga => Sys2Proof.Machine.execTap n gd ga s
  | .sealGcmSeal n gd ga => Sys2Proof.Machine.execSealGcmSeal n gd ga s
  | .sealGcmOpen n gd ga => Sys2Proof.Machine.execSealGcmOpen n gd ga s
  | .sealHmac n gd ga => Sys2Proof.Machine.execSealHmac n gd ga s
  | .sealXts n gd ga => Sys2Proof.Machine.execSealXts n gd ga s
  | .jrec n gd ga => Sys2Proof.Machine.execJrec n gd ga s
  | .asyncOperationDone kind => Sys2Proof.Machine.execAsyncOperationDone kind s
  | .displayEnable d => Sys2Proof.Machine.execDisplayEnable d s
  | .displayDisable d => Sys2Proof.Machine.execDisplayDisable d s
  | .frameStart d => Sys2Proof.Machine.execFrameStart d s
  | .lineScan d layer bad => Sys2Proof.Machine.execLineScan d layer bad s
  | .frameEnd d bad => Sys2Proof.Machine.execFrameEnd d bad s
  | .displaySegmentReceived d layer => Sys2Proof.Machine.execDisplaySegmentReceived d layer s
  | .bannerPacketReceived d => Sys2Proof.Machine.execBannerPacketReceived d s
  | .dspCounterClear d => Sys2Proof.Machine.execDspCounterClear d s
  | .ethFrameReceived x frame code ago => Sys2Proof.Machine.execEthFrameReceived x frame code ago s
  | .ethSegmentReceived x set => Sys2Proof.Machine.execEthSegmentReceived x set s
  | .ethReassemblyTimeout x set src => Sys2Proof.Machine.execEthReassemblyTimeout x set src s
  | .ethFrameTransmit x => Sys2Proof.Machine.execEthFrameTransmit x s
  | .ethLinkUp x page => Sys2Proof.Machine.execEthLinkUp x page s
  | .ethLinkDown x los => Sys2Proof.Machine.execEthLinkDown x los s
  | .ethModeChange x mode an => Sys2Proof.Machine.execEthModeChange x mode an s
  | .ethAnRestart x => Sys2Proof.Machine.execEthAnRestart x s
  | .ethCounterClear x => Sys2Proof.Machine.execEthCounterClear x s
  | .ptpMessageReceived x => Sys2Proof.Machine.execPtpMessageReceived x s
  | .ptpSyncSend x => Sys2Proof.Machine.execPtpSyncSend x s
  | .ptpAnnounceSend x => Sys2Proof.Machine.execPtpAnnounceSend x s
  | .ptpPdelayReqSend x => Sys2Proof.Machine.execPtpPdelayReqSend x s
  | .ptpOriginApply inMessage => Sys2Proof.Machine.execPtpOriginApply inMessage s
  | .ptpCounterClear => Sys2Proof.Machine.execPtpCounterClear s
  | .serCharacterReceived c levels par stop => Sys2Proof.Machine.execSerCharacterReceived c levels par stop s
  | .serGapTimeout c => Sys2Proof.Machine.execSerGapTimeout c s
  | .serRxBankSend c => Sys2Proof.Machine.execSerRxBankSend c s
  | .serTxPacket tunnel => Sys2Proof.Machine.execSerTxPacket tunnel s
  | .serCharacterTransmit c => Sys2Proof.Machine.execSerCharacterTransmit c s
  | .serDeFall c => Sys2Proof.Machine.execSerDeFall c s
  | .serCtsChange c active => Sys2Proof.Machine.execSerCtsChange c active s
  | .serDumpRx c => Sys2Proof.Machine.execSerDumpRx c s
  | .serDumpTx c => Sys2Proof.Machine.execSerDumpTx c s
  | .serCounterClear => Sys2Proof.Machine.execSerCounterClear s
  | .usbSsplit p k => Sys2Proof.Machine.execUsbSsplit p k s
  | .usbCsplit p k => Sys2Proof.Machine.execUsbCsplit p k s
  | .usbAbort p k => Sys2Proof.Machine.execUsbAbort p k s
  | .usbTransaction p outcome => Sys2Proof.Machine.execUsbTransaction p outcome s
  | .usbResultExpire p k handle => Sys2Proof.Machine.execUsbResultExpire p k handle s
  | .usbMicroframe => Sys2Proof.Machine.execUsbMicroframe s
  | .usbSofEnable => Sys2Proof.Machine.execUsbSofEnable s
  | .usbHubDisable => Sys2Proof.Machine.execUsbHubDisable s
  | .usbPortPowerOn p => Sys2Proof.Machine.execUsbPortPowerOn p s
  | .usbPortPowerGood p => Sys2Proof.Machine.execUsbPortPowerGood p s
  | .usbPortPowerOff p => Sys2Proof.Machine.execUsbPortPowerOff p s
  | .usbPortReset p => Sys2Proof.Machine.execUsbPortReset p s
  | .usbResetComplete p => Sys2Proof.Machine.execUsbResetComplete p s
  | .usbChirpDetected p => Sys2Proof.Machine.execUsbChirpDetected p s
  | .usbPortDisable p => Sys2Proof.Machine.execUsbPortDisable p s
  | .usbPortSuspend p => Sys2Proof.Machine.execUsbPortSuspend p s
  | .usbPortResume p => Sys2Proof.Machine.execUsbPortResume p s
  | .usbResumeComplete p => Sys2Proof.Machine.execUsbResumeComplete p s
  | .usbRemoteWake p => Sys2Proof.Machine.execUsbRemoteWake p s
  | .usbConnect p low => Sys2Proof.Machine.execUsbConnect p low s
  | .usbDisconnect p => Sys2Proof.Machine.execUsbDisconnect p s
  | .usbOvercurrent p => Sys2Proof.Machine.execUsbOvercurrent p s
  | .usbHubFunctionReset => Sys2Proof.Machine.execUsbHubFunctionReset s
  | .usbGetDescriptor => Sys2Proof.Machine.execUsbGetDescriptor s
  | .usbSetConfiguration => Sys2Proof.Machine.execUsbSetConfiguration s
  | .usbGetStatus => Sys2Proof.Machine.execUsbGetStatus s
  | .usbGetHubStatus => Sys2Proof.Machine.execUsbGetHubStatus s
  | .usbGetPortStatus => Sys2Proof.Machine.execUsbGetPortStatus s
  | .usbSetPortFeature => Sys2Proof.Machine.execUsbSetPortFeature s
  | .usbClearPortFeature => Sys2Proof.Machine.execUsbClearPortFeature s
  | .usbClearTtBuffer => Sys2Proof.Machine.execUsbClearTtBuffer s
  | .usbResetTt => Sys2Proof.Machine.execUsbResetTt s
  | .usbUnsupportedRequest => Sys2Proof.Machine.execUsbUnsupportedRequest s
  | .usbCounterClear => Sys2Proof.Machine.execUsbCounterClear s
  | .emmcCommand index resp data => Sys2Proof.Machine.execEmmcCommand index resp data s
  | .emmcCommandDone how resp data dat0 => Sys2Proof.Machine.execEmmcCommandDone how resp data dat0 s
  | .emmcCounterClear => Sys2Proof.Machine.execEmmcCounterClear s
  | .journalCommit => Sys2Proof.Machine.execJournalCommit s
  | .wearMove => Sys2Proof.Machine.execWearMove s
  | .jrnUnprotect slot => Sys2Proof.Machine.execJrnUnprotect slot s
  | .jrnStore target tunnel share => Sys2Proof.Machine.execJrnStore target tunnel share s
  | .jrnErase target => Sys2Proof.Machine.execJrnErase target s
  | .jrnStoreDone => Sys2Proof.Machine.execJrnStoreDone s
  | .jrnCounterClear => Sys2Proof.Machine.execJrnCounterClear s
  | .bridgeWrite => Sys2Proof.Machine.execBridgeWrite s
  | .bridgeRead => Sys2Proof.Machine.execBridgeRead s
  | .bridgeCompletion => Sys2Proof.Machine.execBridgeCompletion s
  | .outboundStart chan len dir => Sys2Proof.Machine.execOutboundStart chan len dir s
  | .outboundRequest chan => Sys2Proof.Machine.execOutboundRequest chan s
  | .readRetry tag => Sys2Proof.Machine.execReadRetry tag s
  | .completionTimeout tag => Sys2Proof.Machine.execCompletionTimeout tag s
  | .brgCounterClear => Sys2Proof.Machine.execBrgCounterClear s
  | .accDisable => Sys2Proof.Machine.execAccDisable s
  | .accEnable => Sys2Proof.Machine.execAccEnable s
  | .accHashReady => Sys2Proof.Machine.execAccHashReady s
  | .accEntryWrite entry value => Sys2Proof.Machine.execAccEntryWrite entry value s
  | .accLongHold => Sys2Proof.Machine.execAccLongHold s
  | .accCounterClear => Sys2Proof.Machine.execAccCounterClear s
  | .ccAttach p cc1 cc2 => Sys2Proof.Machine.execCcAttach p cc1 cc2 s
  | .ccDetach p => Sys2Proof.Machine.execCcDetach p s
  | .ccToggle p => Sys2Proof.Machine.execCcToggle p s
  | .sourceCapabilitiesSend p goodCrc => Sys2Proof.Machine.execSourceCapabilitiesSend p goodCrc s
  | .sourceCapabilities p pdos epr => Sys2Proof.Machine.execSourceCapabilities p pdos epr s
  | .request p pdo => Sys2Proof.Machine.execRequest p pdo s
  | .accept p => Sys2Proof.Machine.execAccept p s
  | .reject p => Sys2Proof.Machine.execReject p s
  | .waitMessage p => Sys2Proof.Machine.execWaitMessage p s
  | .psRdy p => Sys2Proof.Machine.execPsRdy p s
  | .getSourceCap p => Sys2Proof.Machine.execGetSourceCap p s
  | .getSinkCap p => Sys2Proof.Machine.execGetSinkCap p s
  | .sinkCapabilities p pdos => Sys2Proof.Machine.execSinkCapabilities p pdos s
  | .softReset p => Sys2Proof.Machine.execSoftReset p s
  | .hardResetReceived p => Sys2Proof.Machine.execHardResetReceived p s
  | .prSwapReceived p => Sys2Proof.Machine.execPrSwapReceived p s
  | .vconnSwap p => Sys2Proof.Machine.execVconnSwap p s
  | .drSwap p => Sys2Proof.Machine.execDrSwap p s
  | .eprMode p action => Sys2Proof.Machine.execEprMode p action s
  | .eprSourceCapabilities p pdos => Sys2Proof.Machine.execEprSourceCapabilities p pdos s
  | .eprRequest p pdo => Sys2Proof.Machine.execEprRequest p pdo s
  | .eprKeepalive p => Sys2Proof.Machine.execEprKeepalive p s
  | .eprKeepaliveSend p => Sys2Proof.Machine.execEprKeepaliveSend p s
  | .eprKeepaliveTimeout p => Sys2Proof.Machine.execEprKeepaliveTimeout p s
  | .pdUnsupportedMessage p alert => Sys2Proof.Machine.execPdUnsupportedMessage p alert s
  | .pdResponseTimeout p => Sys2Proof.Machine.execPdResponseTimeout p s
  | .vcabTransitionDone p cable => Sys2Proof.Machine.execVcabTransitionDone p cable s
  | .vcabTransitionTimeout p => Sys2Proof.Machine.execVcabTransitionTimeout p s
  | .vcomWindowLost p => Sys2Proof.Machine.execVcomWindowLost p s
  | .ccePrSwap p => Sys2Proof.Machine.execCcePrSwap p s
  | .cceHardReset p => Sys2Proof.Machine.execCceHardReset p s
  | .cceFaultClear p => Sys2Proof.Machine.execCceFaultClear p s
  | .cceConfigWrite p sink level amps => Sys2Proof.Machine.execCceConfigWrite p sink level amps s
  | .hardResetRecovery p => Sys2Proof.Machine.execHardResetRecovery p s
  | .cableOverVoltage p => Sys2Proof.Machine.execCableOverVoltage p s
  | .cableOverCurrent p => Sys2Proof.Machine.execCableOverCurrent p s
  | .cableShort p => Sys2Proof.Machine.execCableShort p s
  | .cableReverseCurrent p => Sys2Proof.Machine.execCableReverseCurrent p s
  | .vconnOverCurrent p => Sys2Proof.Machine.execVconnOverCurrent p s
  | .defaultPowerEnter => Sys2Proof.Machine.execDefaultPowerEnter s
  | .defaultPowerExit => Sys2Proof.Machine.execDefaultPowerExit s
  | .ccCounterClear p => Sys2Proof.Machine.execCcCounterClear p s
  | .feedGateOn feed => Sys2Proof.Machine.execFeedGateOn feed s
  | .feedReverseOff feed => Sys2Proof.Machine.execFeedReverseOff feed s
  | .loadEnWrite en => Sys2Proof.Machine.execLoadEnWrite en s
  | .loadFaultClear => Sys2Proof.Machine.execLoadFaultClear s
  | .loadLocalEnWrite en => Sys2Proof.Machine.execLoadLocalEnWrite en s
  | .loadPresenceChange present => Sys2Proof.Machine.execLoadPresenceChange present s
  | .loadWindowChange vcom => Sys2Proof.Machine.execLoadWindowChange vcom s
  | .loadDelayExpire => Sys2Proof.Machine.execLoadDelayExpire s
  | .loadRampDone => Sys2Proof.Machine.execLoadRampDone s
  | .loadRampTimeout => Sys2Proof.Machine.execLoadRampTimeout s
  | .loadPgAssert => Sys2Proof.Machine.execLoadPgAssert s
  | .loadIlimTimeout => Sys2Proof.Machine.execLoadIlimTimeout s
  | .loadShort => Sys2Proof.Machine.execLoadShort s
  | .loadRetryEnd => Sys2Proof.Machine.execLoadRetryEnd s
  | .loadRetryCountReset => Sys2Proof.Machine.execLoadRetryCountReset s
  | .fetTempUpdate power diode => Sys2Proof.Machine.execFetTempUpdate power diode s
  | .fetOvertemp fet => Sys2Proof.Machine.execFetOvertemp fet s
  | .loadCounterClear => Sys2Proof.Machine.execLoadCounterClear s
  | .lcProvision key => Sys2Proof.Machine.execLcProvision key s
  | .lcDeploy key => Sys2Proof.Machine.execLcDeploy key s
  | .lcBlank key => Sys2Proof.Machine.execLcBlank key s
  | .lcReturn key => Sys2Proof.Machine.execLcReturn key s
  | .lcScrap key => Sys2Proof.Machine.execLcScrap key s
  | .secTap => Sys2Proof.Machine.execSecTap s
  | .secImport => Sys2Proof.Machine.execSecImport s
  | .secAttest => Sys2Proof.Machine.execSecAttest s
  | .secCert => Sys2Proof.Machine.execSecCert s
  | .secPkeySet => Sys2Proof.Machine.execSecPkeySet s
  | .secPkeyClear => Sys2Proof.Machine.execSecPkeyClear s
  | .secSlotClear => Sys2Proof.Machine.execSecSlotClear s
  | .secOpReserved op => Sys2Proof.Machine.execSecOpReserved op s
  | .secOpComplete => Sys2Proof.Machine.execSecOpComplete s
  | .secCounterClear => Sys2Proof.Machine.execSecCounterClear s
  | .keyTurn => Sys2Proof.Machine.execKeyTurn s
  | .trngFail => Sys2Proof.Machine.execTrngFail s
  | .trngRecover => Sys2Proof.Machine.execTrngRecover s
  | .serviceOpen accessory trst => Sys2Proof.Machine.execServiceOpen accessory trst s
  | .serviceClose => Sys2Proof.Machine.execServiceClose s
  | .scanTest => Sys2Proof.Machine.execScanTest s
  | .debugAccess write addr data => Sys2Proof.Machine.execDebugAccess write addr data s
  | .extest pins data => Sys2Proof.Machine.execExtest pins data s
  | .samplePreload pins data => Sys2Proof.Machine.execSamplePreload pins data s
  | .idcode => Sys2Proof.Machine.execIdcode s
  | .clamp => Sys2Proof.Machine.execClamp s
  | .highz => Sys2Proof.Machine.execHighz s
  | .bypass code => Sys2Proof.Machine.execBypass code s
  | .tapReset => Sys2Proof.Machine.execTapReset s
  | .errInject sev detail => Sys2Proof.Machine.execErrInject sev detail s
  | .errAck seq => Sys2Proof.Machine.execErrAck seq s
  | .errCounterClear => Sys2Proof.Machine.execErrCounterClear s
  | .eventRetry => Sys2Proof.Machine.execEventRetry s
  | .fatalReset ms => Sys2Proof.Machine.execFatalReset ms s
  | .coopSlice fail => Sys2Proof.Machine.execCoopSlice fail s
  | .coopBufferSlice fail => Sys2Proof.Machine.execCoopBufferSlice fail s
  | .coopLaneCheck p lane how => Sys2Proof.Machine.execCoopLaneCheck p lane how s
  | .coopReferenceCheck a b c => Sys2Proof.Machine.execCoopReferenceCheck a b c s
  | .telemetryHoldExpire => Sys2Proof.Machine.execTelemetryHoldExpire s
  | .telemetrySample sample => Sys2Proof.Machine.execTelemetrySample sample s
  | .scrubStep found => Sys2Proof.Machine.execScrubStep found s
  | .coopCounterClear => Sys2Proof.Machine.execCoopCounterClear s
  | .powerUp found ms => Sys2Proof.Machine.execPowerUp found ms s
  | .powerLoss commit => Sys2Proof.Machine.execPowerLoss commit s
  | .enumAssign p => Sys2Proof.Machine.execEnumAssign p s
  | .enumRelay => Sys2Proof.Machine.execEnumRelay s
  | .devHubReset cls key => Sys2Proof.Machine.execDevHubReset cls key s
  | .hubResetTakesEffect ms => Sys2Proof.Machine.execHubResetTakesEffect ms s
  | .jtagHubReset ms => Sys2Proof.Machine.execJtagHubReset ms s
  | .imageCapture => Sys2Proof.Machine.execImageCapture s
  | .imageCaptureDone => Sys2Proof.Machine.execImageCaptureDone s
  | .steepRequest cls => Sys2Proof.Machine.execSteepRequest cls s
  | .steepEntry port => Sys2Proof.Machine.execSteepEntry port s
  | .wakeEvent pins cc tone l0 => Sys2Proof.Machine.execWakeEvent pins cc tone l0 s
  | .wakeToneSend mask => Sys2Proof.Machine.execWakeToneSend mask s
  | .pwrsCounterClear => Sys2Proof.Machine.execPwrsCounterClear s
  | .ethSyncAcquired x => Sys2Proof.Machine.execEthSyncAcquired x s
  | .farLoopIdleExit p => Sys2Proof.Machine.execFarLoopIdleExit p s
  | .linkEnable p => Sys2Proof.Machine.execLinkEnable p s
  | .usbOvercurrentEnd p => Sys2Proof.Machine.execUsbOvercurrentEnd p s
  | .railOutOfTolerance back => Sys2Proof.Machine.execRailOutOfTolerance back s
  | .slewComplete => Sys2Proof.Machine.execSlewComplete s
  | .psTransitionTimeout p => Sys2Proof.Machine.execPsTransitionTimeout p s

end Sys2Proof.Machine
end

