-- ==== Sys2Proof/Machine/Tick.lean ====
section
/-! DEFINITION. One tick of 2 ns of the hub's own clock: what the block does when no command waits (log entry 6, DESIGN CHOICE). -/

namespace Sys2Proof.Machine

/-- Station time over eight root periods, with the correction in progress (R126): a backward slew leaves out one tick in
every 16; an error within the tolerance is slewed at 250 ppm, one unit in 4,000 root periods. `r` is the root time at
the tick's start. -/
def Hub.slewTick (h : Hub) (r : Nat) : Hub :=
  let e := h.tm.err
  let t := h.stime + 8
  if e = 0 then h.timeTo r t t
  else if h.on R.TIME_STATUS_SLEWING then
    if r / 8 % 16 = 15 then
      let e' := min 0 (e + 8)
      let h := { h with tm := { h.tm with err := e' } }.timeTo r t (t - (e' - e) : Int).toNat
      if e' = 0 then h.put R.TIME_STATUS_SLEWING 0 else h
    else h.timeTo r t t
  else if (r + 8) / 4000 ≠ r / 4000 then
    if 0 < e then { h with tm := { h.tm with err := e - 1 } }.timeTo r t (t + 1)
    else { h with tm := { h.tm with err := e + 1 } }.timeTo r t (t - 1)
  else h.timeTo r t t

/-- A register-window access that its context has left goes on (R244): a load's value is discarded, a store takes effect;
one that is held waits (assumption 126, DEDUCED). -/
def Hub.leftAccess (h : Hub) (w : WinAcc) : Hub :=
  let wait := fun (h : Hub) => { h with tun := { h.tun with left := h.tun.left ++ [w] } }
  match h.access 2 (if w.store.isSome then .write else .read) w.addr with
  | (h, .ok) =>
    (match w.store with
    | none => (h.busRead w.addr w.bytes).1
    | some v => if h.rangeHeld w.addr w.bytes then wait h else h.busWriteWord 2 w.addr w.bytes v)
  | (h, .held) => wait h
  | (h, _) => h

/-- Every access left behind goes on. -/
def Hub.leftAccesses (h : Hub) : Hub :=
  h.tun.left.foldl Hub.leftAccess { h with tun := { h.tun with left := [] } }

/-- A register access that waited for EN is decided (R397). -/
def Hub.lateAccess (h : Hub) (x : LateAcc) : Hub :=
  match x.store with
  | some (v, be) => h.registerWrite x.cls x.addr v be
  | none => h.latchedPairRead x.cls x.addr

/-- Accesses held while EN was 0 are decided once it is 1: register accesses in order, then cold-pitch entries (R397)
(assumption 72, DEDUCED). -/
def Hub.lateAccesses (h : Hub) : Hub :=
  let h := if h.on R.ACC_CTRL_EN then h.acc.late.foldl Hub.lateAccess (h.onAcc (fun a => { a with late := [] })) else h
  h.coldResume

/-- What strikes memory in the tick that starts at root time `r`, and what the hub's own checks find in it: a control checker
mismatch and a security store without integrity are FATAL (R456) (assumption 123, DESIGN CHOICE; 147, DESIGN CHOICE). -/
def Hub.struck (h : Hub) (r : Nat) : Hub :=
  let h := match Config.upset (r / 8) with
    | some (k, two) => h.upset k two
    | none => h
  let h := if Config.storeFault (r / 8) then h.log 7 0x03 sevF 0 0 0 else h
  match Config.controlFault (r / 8) with
  | some (o, q, b) => h.log 10 0x30 sevF (o % 14 + q % 16384 * 16) (b % 8) 0
  | none => h

/-- One tick: root time passes always; station time counts unless the hub is without supply or held in reset (R459,
R488). While the core die runs, upsets strike its memories, ports send the sets and patterns of their states (R50, R58),
the time quality follows the clock (R127), serial drivers are enabled as their lines fall idle (R329), accesses that
contexts have left, and those held while EN was 0, go on (R244, R397), and completions that wait for the bridge are offered (R386)
(assumption 6, DESIGN CHOICE; 22, DESIGN CHOICE; 71, DESIGN CHOICE). -/
def Hub.tick (h : Hub) : Hub :=
  let r := h.root
  let h := { h with root := r + 8 }
  if h.pw.dark || h.pw.rail || h.err.held then h
  else
    let h := h.slewTick r
    if h.awake then
      let h := ((h.struck r).portsSend r 8).refreshQuality
      let h := (if h.defPower then h else h.serTick).leftAccesses.lateAccesses
      h.offerCpls h.brg.cplq
    else h

end Sys2Proof.Machine
end

