-- ==== Sys2Proof/WellFormed.lean ====
section
/-! DEFINITION. Which commands are well formed: the bounds that an operand's type leaves open. Every other operand holds
each value its field has. -/

namespace Sys2Proof

open Machine

/-- A data width of the lane layer (R44): 4, 2 or 1 lanes. -/
def widthOk (w : Nat) : Bool := w == 4 || w == 2 || w == 1

/-- An ordered set's columns hold bytes (R48). -/
def OSet.wf (o : OSet) : Bool :=
  [o.typ, o.gear, o.caps, o.port, o.addr, o.a0, o.a1, o.a2, o.a3, o.seq, o.col13, o.check].all (fun b => decide (b < 256))

/-- A received ordered set names five pairs (R49). -/
def RxSet.wf (x : RxSet) : Bool :=
  OSet.wf x.o && decide (x.lock < 32) && decide (x.align < 32) && x.ids.length == 5

/-- A power data object: 50 mV steps up to 48 V and 10 mA steps up to 5 A (R407, R418). -/
def Pdo.wf (d : Pdo) : Bool := decide (d.volts < 1024) && decide (d.amps < 1024)

/-- What a test found lies in a word of 72 bits, at an address of the memory map. -/
def MemFail.wf (m : MemFail) : Bool := decide (m.word < 0x200000)

/-- Whether a command is well formed. -/
def Instr.wf : Instr → Bool
  | .receiveColumn _ c => c.syms.length == 5
  | .narReceived _ _ w => widthOk w
  | .widReceived _ _ w _ => widthOk w
  | .orderedSetReceived _ x => RxSet.wf x
  | .packetReceived _ w _ => decide (w.words.length ≤ 4 + 255)
  | .ethFrameReceived _ f _ _ => decide (f.length < 0x10000)
  | .emmcCommandDone _ r _ _ => decide (r.length ≤ 4)
  | .sourceCapabilities _ pdos _ => decide (pdos.length ≤ 7) && pdos.all Pdo.wf
  | .eprSourceCapabilities _ pdos => decide (pdos.length ≤ 11) && pdos.all Pdo.wf
  | .sinkCapabilities _ pdos => decide (pdos.length ≤ 11) && pdos.all Pdo.wf
  | .request _ d => Pdo.wf d
  | .eprRequest _ d => Pdo.wf d
  | .fetTempUpdate power _ => power.length == 5
  | .secOpReserved op => op == 0 || decide (8 ≤ op.toNat)
  | .extest pins data => pins.length == data.length
  | .samplePreload pins data => pins.length == data.length
  | .coopSlice (some m) => MemFail.wf m
  | .coopBufferSlice (some m) => MemFail.wf m
  | _ => true

end Sys2Proof
end

