-- ==== Sys2Proof/Safety.lean ====
section
/-! DEFINITION. What claims call safe: a step that answers a next state, tables in their canonical form, and the
conditions under which parts of the hub take commands at all (R459, R474, R488). -/

namespace Sys2Proof.Machine

/-- Whether memory is in its canonical form: addresses strictly rising, and no byte listed that reads so unlisted. -/
def Hub.memWf (h : Hub) : Bool := SMap.wf memReset h.mem

/-- Whether the register words are in their canonical form. -/
def Hub.regsWf (h : Hub) : Bool := SMap.wf regReset h.regs

/-- Whether the log lists each slot once, in order. -/
def Hub.logWf (h : Hub) : Bool := KMap.sorted h.err.log

/-- Commands of the supply itself (R474, R475): they reach the hub in every state. -/
def ofSupply : Instr → Bool
  | .powerUp .. | .powerLoss .. | .railOutOfTolerance .. => true
  | _ => false

/-- Commands of the high-voltage die (R400–R432, R470), which goes on while the core die is held or asleep (R488). -/
def ofPower : Instr → Bool
  | .ccAttach .. | .ccDetach .. | .ccToggle .. | .sourceCapabilitiesSend .. | .sourceCapabilities ..
  | .request .. | .accept .. | .reject .. | .waitMessage .. | .psRdy .. | .getSourceCap .. | .getSinkCap ..
  | .sinkCapabilities .. | .softReset .. | .hardResetReceived .. | .prSwapReceived .. | .vconnSwap ..
  | .drSwap .. | .eprMode .. | .eprSourceCapabilities .. | .eprRequest .. | .eprKeepalive ..
  | .eprKeepaliveSend .. | .eprKeepaliveTimeout .. | .pdUnsupportedMessage .. | .pdResponseTimeout ..
  | .vcabTransitionDone .. | .vcabTransitionTimeout .. | .vcomWindowLost .. | .hardResetRecovery ..
  | .cableOverVoltage .. | .cableOverCurrent .. | .cableShort .. | .cableReverseCurrent .. | .vconnOverCurrent ..
  | .defaultPowerEnter | .defaultPowerExit | .feedGateOn .. | .feedReverseOff .. | .loadPresenceChange ..
  | .loadWindowChange .. | .loadDelayExpire | .loadRampDone | .loadRampTimeout | .loadPgAssert | .loadIlimTimeout
  | .loadShort | .loadRetryEnd | .loadRetryCountReset | .fetTempUpdate .. | .fetOvertemp .. | .telemetrySample ..
  | .psTransitionTimeout .. => true
  | _ => false

/-- Commands of what goes on in retention (R488): key turning and wake detection. -/
def ofRetention : Instr → Bool
  | .keyTurn | .wakeEvent .. => true
  | _ => false

/-- Commands of the test access port, which reaches a hub held by R459 (R479). -/
def ofTap : Instr → Bool
  | .scanTest | .debugAccess .. | .extest .. | .samplePreload .. | .idcode | .clamp | .highz | .bypass ..
  | .tapReset | .jtagHubReset .. => true
  | _ => false

/-- The hub with its root time replaced: what passes with time alone. -/
def Hub.atRoot (h : Hub) (r : Nat) : Hub := { h with root := r }

/-- A state whose hub has no supply and for which no POWER_UP waits (R474). -/
def State.unpowered (s : State) : Prop := s.hub.pw.dark = true ∧ ∀ found ms, Instr.powerUp found ms ∉ s.pending

/-- The state with its hub replaced. -/
def State.withHub (s : State) (h : Hub) : State := { s with hub := h }

/-- A command completes: it answers a next state whatever else waits, what waits kept, its hub as `P` says. -/
def does (c : Instr) (h : Hub) (P : Hub → Prop) : Prop := ∃ h', P h' ∧ ∀ q : List Instr, exec c ⟨h, q⟩ = .next ⟨h', q⟩

/-- A command completes and takes a hub to another: it answers a next state whatever else waits, what waits kept. -/
def becomes (c : Instr) (h h' : Hub) : Prop := ∀ q : List Instr, exec c ⟨h, q⟩ = .next ⟨h', q⟩

/-- A column that a transmitter sent as it arrives on the lanes, the symbol of one lane lost (R40); 5 loses none. -/
def TxCol.arrives (c : TxCol) (lost : Nat) : Column :=
  ⟨[0, 1, 2, 3, 4].map (fun n =>
    match c.lanes.find? (fun x => x.1 == n) with
    | some x => ⟨c.control, x.2, n == lost, false, false⟩
    | none => ⟨false, 0, true, true, false⟩), 0⟩

/-- The stream of a receiver after the columns that a transmitter of the same layout sent, one lane lost. -/
def RxStream.hears (s : RxStream) (l : Layout) (lost : Nat) (cs : List TxCol) : RxStream :=
  cs.foldl (fun s c =>
    let x := c.arrives lost
    s.column l (x.rebuild l.mask (x.erasedLanes l.mask (fun _ => false)))) s

/-- Whether every field of a packet's header holds a value of its width (R73). -/
def Packet.inRange (p : Packet) : Bool :=
  decide (p.dest < 2 ^ 14) && decide (p.src < 128) && decide (p.kind < 16) && decide (p.hops < 256) && decide (p.lseq < 4096)
    && decide (p.tseq < 65536) && decide (p.aux < 65536) && decide (p.stamp < 2 ^ 32) && decide (p.length < 256)

/-- Of the registers only the words listed may differ, and nothing of the hub beside its registers. -/
def onlyRegs (h t : Hub) (words : List Nat) : Prop :=
  (∀ a, a ∉ words → t.rd a = h.rd a) ∧ t = { h with regs := t.regs }

/-- Every register word in one of the ranges of addresses reads 0, and nothing else of the hub changes. -/
def zeroed (h t : Hub) (ranges : List (Nat × Nat)) : Prop :=
  (∀ a, t.rd a = if ranges.any (fun r => decide (r.1 ≤ a) && decide (a ≤ r.2)) then 0#32 else h.rd a)
    ∧ t = { h with regs := t.regs }

/-- Whether every command that waits is well formed. -/
def State.queueWf (s : State) : Bool := s.pending.all Instr.wf

/-- Whether no byte of a range lies in a word that holds a single-bit error, so that its read corrects nothing (R145,
R195). -/
def Hub.clean (h : Hub) (a n : Nat) : Bool := h.fab.soft.all (fun w => !(decide (a < 8 * w + 8) && decide (8 * w < a + n)))

/-- Whether the fetch of a context's next instruction is allowed and its word readable (R195, R228, R393). -/
def Hub.fetchOk (h : Hub) (n : Nat) : Bool :=
  (match h.decide_ 2 .fetch (h.fetchAddr n) with | .ok _ _ => true | _ => false) && !h.badWord (h.fetchAddr n)

/-- Whether no word of a stored packet holds an error, so that reading or changing it corrects and discards nothing (R145). -/
def Hub.sound (h : Hub) (s : Stored) : Bool :=
  (h.fab.soft ++ h.tun.bad).all (fun w => !(s.wordsAt 0 (16 + 4 * s.pkt.length)).contains w)

/-- The packet that a descriptor register holds, where none of its words holds an error. -/
def Hub.heldSound (h : Hub) (n d : Nat) : Option (Held × Stored) := (h.held n d).filter (fun x => h.sound x.2)

/-- What a hub has driven once an LVCMOS ball is given a level by its own logic: nothing more while the test access port
holds the balls (R508). -/
def Hub.outBall (h : Hub) (x : Tx) : List Tx := if h.ballsTaken then h.out else x :: h.out

/-- What a hub has driven once the test access port lets go of the balls, if it held them: the event outputs drive their
levels again (R508). -/
def Hub.outFreed (h : Hub) : List Tx :=
  (if h.ballsTaken then ((List.range 8).map (fun n => Tx.evo n (h.evoLevel n (h.on (R.TIME_EVO_STATUS_ACTIVE n))))).reverse
    else []) ++ h.out

/-- What the failure of tun `t`, with no spare to take its role, takes a hub to (R221): the tun is marked failed; each of its
contexts that executes, or would at a restart, is TRAPPED with cause TUN_FAIL and no packet held, RESTART handled as DISCARD;
every other context is as it was. -/
abbrev Hub.failedTo (h : Hub) (t : Nat) (u : Hub) : Prop :=
  bit (u.get R.TUNC_STATUS_FAILED) t = true
    ∧ (∀ k : Fin 96, if k.val / 12 = t ∧ h.failTraps k = true then
        u.ctxState k = cxTrapped ∧ u.get (R.TUNC_CTX_STATUS_CAUSE k) = 0xB ∧ u.on (R.TUNC_CTX_STATUS_TRAPPED_FLAG k) = true
          ∧ u.rd (A.TUNC_CTX_PC k) = W ((h.ctx k).pc % 8192) ∧ (u.ctx k).held = [] ∧ (u.ctx k).restart = false
          ∧ (u.ctx k).discard = ((h.ctx k).discard || decide (h.get (R.TUNC_CTX_CFG_TRAP_ACTION k) ≠ 0))
      else u.ctxState k = h.ctxState k ∧ u.ctx k = h.ctx k)
    ∧ u = { h with regs := u.regs, mem := u.mem, links := u.links, err := u.err, fab := u.fab, tun := u.tun }

/-- Whether a packet received whole at a port passes every receive check up to routing (R79): it is good, of class P or the one
expected, its header is good, it is no packet of the port's own, and no rebuild is in progress. -/
abbrev Hub.routes (h : Hub) (p : Port) (w : Wire) (q : Packet) : Prop :=
  h.inService p = true ∧ w.poisoned = false ∧ h.goodPacket p w = some q
    ∧ (q.cls = .P ∨ q.lseq = h.get (R.LNK_RX_SEQ_EXPECTED p.ix)) ∧ h.headerBad q p = false ∧ q.hops < 130 ∧ q.portOwn = false
    ∧ h.on R.FAB_STATUS_REBUILD = false

/-- The hub once such a packet is taken: one of class M, D or B advances the expected LSEQ (R79). -/
def Hub.taken (h : Hub) (p : Port) (q : Packet) : Hub := if q.cls = .P then h else h.inOrder p

/-- Whether a packet is for a tunnel of another hub and no broadcast (R95). -/
abbrev Hub.foreign (h : Hub) (q : Packet) : Prop := (h.hasAddr = false ∨ hubOf q.dest ≠ h.addr) ∧ hubOf q.dest ≠ 127

/-- Whether a context issues an instruction now, and nothing but that instruction changes the hub: the core runs, the
context is RUNNING, its fetch succeeds and its word holds no error. -/
def Hub.canIssue (h : Hub) (n : Nat) : Bool :=
  h.awake && h.ctxState n == cxRunning && h.fetchOk n && h.clean (h.fetchAddr n) 4

/-- Whether the word at a context's PC spells an instruction (R224–R226). -/
def Hub.spells (h : Hub) (n : Fin 96) (c : Instr) : Bool := spelled n (h.mword (h.fetchAddr n)) == some (Instr.spelling c)

/-- Where the word at a context's PC spells an instruction, its command takes the hub to another. -/
def runs (n : Fin 96) (c : Instr) (h h' : Hub) : Prop := h.spells n c = true → becomes c h h'

/-- Where the word at a context's PC spells an instruction, its command completes with the hub as `P` says. -/
def runsTo (n : Fin 96) (c : Instr) (h : Hub) (P : Hub → Prop) : Prop := h.spells n c = true → does c h P

/-- The hub once an instruction of a context has been counted as issued, its place recorded and, on tun 8, the takeover's
handling ended (R191, R216, R458). -/
def Hub.issued (h : Hub) (n : Nat) : Hub :=
  ((h.wr (A.TUNC_CTX_ISSUED n) (h.rd (A.TUNC_CTX_ISSUED n) + 1)).wr (A.TUNC_CTX_PC n) (W (h.ctx n).pc)).onSpare n

/-- The hub after an instruction of a context retires and does nothing but leave the context as `x`: its PC advances. -/
def Hub.retired (h : Hub) (n : Nat) (x : Ctx) : Hub := (h.issued n).setCtx n { x with pc := (h.ctx n).pc + 1 }

/-- The hub after an instruction of a context whose effect is `h` has retired. -/
def Hub.finish (h : Hub) (n : Nat) : Hub := h.retired n (h.ctx n)

/-- Whether a parameter block of `m` bytes at a context address can be read (R251). -/
def Hub.blockReadable (h : Hub) (n ea m : Nat) : Bool :=
  decide (ea < 0x10000) && ea % 8 == 0 && h.inData n ea m && !h.badRange (dataBase (n / 12) + ea) m

/-- Whether it can be read and holds no bit error. -/
def Hub.blockOk (h : Hub) (n ea m : Nat) : Bool := h.blockReadable n ea m && h.clean (dataBase (n / 12) + ea) m

/-- The words of a parameter block. -/
def Hub.blockAt (h : Hub) (n ea m : Nat) : List Word := wordsOf (h.mbytes (dataBase (n / 12) + ea) m)

/-- Whether one more asynchronous operation of a kind may be in flight (R279). -/
def Hub.asyncRoom (h : Hub) (n : Nat) (k : AsyncKind) : Bool :=
  decide (h.inFlight k (some n) < (asyncLimits k).1) && decide (h.inFlight k none < (asyncLimits k).2)

/-- The hub with an asynchronous operation issued: its result word, at `result` of the data window's space, pending
(R278). -/
def Hub.asyncStart (h : Hub) (n : Nat) (k : AsyncKind) (result : Nat) (b : List Word) : Hub :=
  let o : AsyncOp := { kind := k, ctx := n, live := true, result := result, block := b, outcome := none }
  { h.mstore (dataBase (n / 12) + result) [0#8, 0#8, 0#8, 0x80#8] with tun := { h.tun with ops := h.tun.ops ++ [o] } }

/-- A context with flags written when F is 1 (R234). -/
def Ctx.flagged (x : Ctx) (f : Bool) (fl : Flags) : Ctx := if f then x.setFlags fl else x

/-- The result of a logical operation written to a register, with Z and N when F is 1 (R234, R235). -/
def Ctx.logical (x : Ctx) (gd : Nat) (r : Word) (f : Bool) : Ctx :=
  (x.setGpr gd r).flagged f ⟨r == 0#32, r.msb, x.c, x.v⟩

/-- The result of a shift by `k` written to a register, with Z, N and, for a shift of one or more, C when F is 1
(R236). -/
def Ctx.shifted (x : Ctx) (gd : Nat) (r : Word) (f : Bool) (k : Nat) (carry : Bool) : Ctx :=
  (x.setGpr gd r).flagged f ⟨r == 0#32, r.msb, if k = 0 then x.c else carry, x.v⟩

end Sys2Proof.Machine
end

