-- ==== Sys2Proof/Certificates/Slice0/Obligations.lean ====
section
/-! DEFINITION. The statements for the provers: what each command does, taken family by family from the numbered rules. -/

open Sys2Proof Sys2Proof.Machine

/-- A step is `exec` of the front command; the idle tick is the model's own choice (assumption 6, DESIGN CHOICE). -/
def Obligations.StepTakesFrontCommand : Prop :=
  (∀ (c : Instr) (h : Hub) (q : List Instr), step ⟨h, c :: q⟩ = exec c ⟨h, q⟩)
    ∧ (∀ h : Hub, step ⟨h, []⟩ = .next ⟨h.tick, []⟩)
    ∧ (∀ h : Hub, h.awake = true → h.tm.err = 0 → h.get R.TIME_STATUS_QUALITY = h.qualityNow →
        (∀ p : Port, h.repeats p = none ∧ h.lstate p ≠ stLoopFar) → (∀ c < 8, (h.chan c).tx = []) → h.tun.left = [] →
        h.brg.cplq = [] → h.tick = { h with root := h.root + 8, stime := h.stime + 8 }.struck h.root)

/-- Every command answers a next state on every hub and leaves what waits alone. -/
def Obligations.EveryCommandCompletes : Prop :=
  ∀ (c : Instr) (h : Hub), ∃ h', becomes c h h'

/-- What reset leaves (R6, R9, R435, R474); that the hub runs, is BLANK and that memory reads 0 are the model's choices (assumptions 1, 2 and 3). -/
def Obligations.ResetState : Prop :=
  State.reset.pending = [] ∧ (∀ a, State.reset.hub.rd a = regReset a) ∧ (∀ a, State.reset.hub.mrd a = 0#8)
    ∧ State.reset.hub.memWf = true ∧ State.reset.hub.regsWf = true ∧ State.reset.hub.logWf = true
    ∧ State.reset.hub.awake = true ∧ State.reset.queueWf = true
    ∧ State.reset.hub.rd A.DEV_ID = 0x4A4803C4#32 ∧ State.reset.hub.rd A.DEV_BEHAVIOUR = 1#32
    ∧ State.reset.hub.hasAddr = false ∧ State.reset.hub.lifecycle = 0 ∧ State.reset.hub.ors = []
    ∧ (∀ p ∈ Port.all, State.reset.hub.attach p = 0 ∧ State.reset.hub.up p = false) ∧ State.reset.hub.fuse = 0
    ∧ State.reset.hub.out = [.balls resetBalls]
    ∧ (∀ i < 64, KMap.get? State.reset.hub.err.log i = none) ∧ (∀ i < 32, KMap.get? State.reset.hub.sec.slots i = none)

/-- R182, whole: SCH_CTRL.DISARM. -/
def Obligations.DisarmEndsArming : Prop :=
  ∀ (h : Hub), h.awake = true → 
    (h.on R.SCH_STATUS_ARMED = true → does .schDisarm h (fun t => t.on R.SCH_STATUS_ARMED = false ∧ t.get R.SCH_STATUS_RESULT = 9 ∧ t.get R.SCH_STATUS_ACTIVE_BANK = h.get R.SCH_STATUS_ACTIVE_BANK ∧ onlyRegs h t [A.SCH_STATUS]))
    ∧ (h.on R.SCH_STATUS_ARMED = false → becomes .schDisarm h h)

/-- What a core die that does not run ignores (R459, R474, R479, R488): every command but those of the parts that go on. -/
def Obligations.StoppedCoreTakesNothing : Prop :=
  ∀ (c : Instr) (h : Hub), ofSupply c = false → ofPower c = false →
    ((h.pw.rail = true → becomes c h h)
    ∧ (h.pw.steep = true → ofRetention c = false → becomes c h h)
    ∧ (h.err.held = true → ofTap c = false → becomes c h h))

/-- A dark hub over any number of steps (R474, R475): commands pass it by and only root time goes on. The tick on an empty queue is the model's choice (assumption 6). -/
def Obligations.UnpoweredHubOnlyAges : Prop :=
  ∀ (n : Nat) (s : State), s.unpowered →
    Host.Core.run core n s = .next ⟨s.hub.atRoot (s.hub.root + 8 * (n - s.pending.length)), s.pending.drop n⟩
    ∧ State.unpowered ⟨s.hub.atRoot (s.hub.root + 8 * (n - s.pending.length)), s.pending.drop n⟩

/-- The lane layer of a port in service (R38–R49, R67) and its loopbacks (R58, R59): what each command does where its conditions hold. -/
def Obligations.LaneServiceCommands : Prop :=
  ∀ (h : Hub) (p : Port), h.awake = true → 
    (∀ (c : Column), h.carries p = true → h.litLanes p ≠ 0 → becomes (.receiveColumn p c) h (((h.learnPolarity p c).serviceColumn p ((h.learnPolarity p c).straighten p c)).skipSlip p ((h.learnPolarity p c).straighten p c)))
    ∧ (∀ (c : Column), h.lstate p = stLoopRemote → becomes (.receiveColumn p c) h ((h.learnPolarity p c).driveLanes (.loopback p ((h.learnPolarity p c).straighten p c).syms)))
    ∧ (∀ (c : Column), h.patternRuns p = true → becomes (.receiveColumn p c) h ((h.learnPolarity p c).checkColumn p ((h.learnPolarity p c).straighten p c)))
    ∧ (h.carries p = true → h.drives p = true → h.silent = false → becomes (.sendAlignmentMarker p) h (h.emit (.marker p)))
    ∧ (∀ (l : Fin 5), h.carries p = true → h.laneRx p l = 0 → does (.laneFailed p l .lostLock) h (fun t => t.laneRx p l = 1 ∧ t.laneTx p l = h.laneTx p l ∧ t = { h with regs := t.regs, out := t.out, links := t.links, err := t.err }))
    ∧ (∀ (l : Fin 5), h.carries p = true → h.laneRx p l = 0 → (h.links.at p).withdrawn = none → (h.links.at p).narSent.isSome = true → becomes (.laneFailed p l .lostLock) h (((h.setRx p l 1).onLink p (fun x => { x with stray := setSlice x.stray l 1 0 })).lnkLog p 0x03 sevDG l 0))
    ∧ (∀ (mask : BitVec 5) (w : Nat), h.carries p = true → (w = 1 ∨ w = 2 ∨ w = 4) → does (.narReceived p mask w) h (fun t => (t.links.at p).narMask = mask.toNat ∧ (t.links.at p).narWidth = w ∧ (t.links.at p).txNext = some (t.links.at p).ceiling ∧ t = { h with out := t.out, links := t.links }))
    ∧ (∀ (l : Layout), (h.links.at p).txNext = some l → does (.widthSwitch p) h (fun t => (t.links.at p).tx = l ∧ (t.links.at p).txNext = none ∧ (t.links.at p).rx = (h.links.at p).rx ∧ t = { h with regs := t.regs, links := t.links, sch := t.sch }))
    ∧ (∀ (mask : BitVec 5) (w : Nat) (s : Bool), h.carries p = true → (w = 1 ∨ w = 2 ∨ w = 4) → does (.widReceived p mask w s) h (fun t => (t.links.at p).rx = ⟨mask.toNat, w, s⟩ ∧ (t.links.at p).tx = (h.links.at p).tx ∧ t = { h with regs := t.regs, out := t.out, links := t.links, err := t.err }))
    ∧ (h.carries p = true → h.badForMicrosecond p = true → becomes (.directionLost p true) h (h.leaveService p stDetectRx))
    ∧ (∀ (l : Fin 5), h.carries p = true → h.laneRx p l = 1 → does (.laneProbe p) h (fun t => t.laneRx p l = 4 ∧ (h.silent = false → ∀ n : Fin 5, h.laneTx p n = 1 → .cal p n ∈ t.out) ∧ t = { h with regs := t.regs, free := t.free, out := t.out }))
    ∧ (∀ (l : Fin 5), h.carries p = true → h.laneRx p l = 4 → does (.laneProbePass p l) h (fun t => (t.laneRx p l = 4 ∧ ∀ n : Fin 5, n ≠ l → t.laneRx p n ≠ 4) ∧ bit ((t.links.at p).narSent.getD 0) l = true ∧ t = { h with regs := t.regs, out := t.out, links := t.links }))
    ∧ (∀ (serial : Bool), h.lstate p ≠ stDisabled → becomes (.loopbackNearEnd p serial) h (((h.put (R.LNK_CTRL_LOOPBACK p.ix) (if serial then 2 else 1)).leaveService p (if serial then stLoopSer else stLoopPar)).seedPattern p))
    ∧ (h.lstate p ≠ stDisabled → becomes (.loopbackFarEnd p) h ((((h.put (R.LNK_CTRL_LOOPBACK p.ix) 3).sendSets p osLPB 1 0 16).endService p stLoopFar).seedPattern p))
    ∧ (h.lstate p = stActive → h.on (R.LNK_CTRL_FAR_LOOP_ALLOW p.ix) = true → becomes (.lpbReceived p 1) h (h.endService p stLoopRemote))
    ∧ (h.lstate p = stActive → h.on (R.LNK_CTRL_FAR_LOOP_ALLOW p.ix) = false → becomes (.lpbReceived p 1) h (h.sendSets p osLPB 2 0 16))
    ∧ (h.lstate p = stLoopFar → does (.farLoopRefused p) h (fun t => t.get (R.LNK_STATUS_FAULT p.ix) = 9 ∧ t.get (R.LNK_CTRL_LOOPBACK p.ix) = 0 ∧ t.lstate p = stDetectRx ∧ t = { h with regs := t.regs, out := t.out, links := t.links, tm := t.tm, tun := t.tun }))
    ∧ ((h.lstate p = stLoopPar ∨ h.lstate p = stLoopSer ∨ h.lstate p = stLoopFar) → does (.loopbackEnd p) h (fun t => t.get (R.LNK_CTRL_LOOPBACK p.ix) = 0 ∧ t.lstate p = stDetectRx ∧ t = { h with regs := t.regs, out := t.out, links := t.links, tm := t.tm, tun := t.tun }))
    ∧ (h.lstate p = stLoopRemote → becomes (.farLoopIdleExit p) h (h.leaveService p stDetectRx))

/-- Withdrawal (R60, R61), Lull (R62, R63) and Shed (R64–R66): what each command does where its conditions hold. -/
def Obligations.LaneWithdrawAndPower : Prop :=
  ∀ (h : Hub) (p : Port), h.awake = true → 
    (∀ (l : BitVec 3), h.inService p = true → l.toNat ≤ 4 → (h.links.at p).asked = none → (h.links.at p).withdrawn = none → does (.withdrawRequest p l) h (fun t => t.get (R.LNK_WITHDRAW_LANE p.ix) = l.toNat ∧ (t.links.at p).asked = some l.toNat ∧ t = { h with regs := t.regs, out := t.out, links := t.links }))
    ∧ (∀ (l : BitVec 3), (h.links.at p).withdrawn.isSome = true → does (.withdrawRequest p l) h (fun t => t.get (R.LNK_WITHDRAW_RESULT p.ix) = 2 ∧ t = { h with regs := t.regs, out := t.out, links := t.links }))
    ∧ (∀ (l : Fin 5), h.inService p = true → (h.links.at p).asked = none → h.mayWithdraw p = true → does (.wdrReceived p (BitVec.ofNat 8 l) 0) h (fun t => t.laneRx p l = 2 ∧ t.laneTx p l = 2 ∧ (t.links.at p).withdrawn = some l.val ∧ t = { h with regs := t.regs, out := t.out, links := t.links }))
    ∧ (∀ (l : Fin 5), h.inService p = true → (h.links.at p).asked = none → h.mayWithdraw p = false → becomes (.wdrReceived p (BitVec.ofNat 8 l) 0) h (h.sendSet p osWDR l 2 0 0))
    ∧ (∀ (l : Nat), (h.links.at p).withdrawn = some l → does (.withdrawReturn p) h (fun t => t.get (R.LNK_WITHDRAW_RESULT p.ix) = 0 ∧ (t.links.at p).withdrawn = none ∧ (t.links.at p).txNext = some (h.links.at p).ceiling ∧ t = { h with regs := t.regs, out := t.out, links := t.links }))
    ∧ (∀ (l : Fin 5), (h.links.at p).withdrawn = some l.val → does (.withdrawGiveBack p) h (fun t => t.get (R.LNK_WITHDRAW_RESULT p.ix) = 3 ∧ t.laneRx p l = 0 ∧ t.laneTx p l = 0 ∧ (t.links.at p).withdrawn = none ∧ (t.links.at p).txNext = some (h.links.at p).ceiling ∧ t = { h with regs := t.regs, out := t.out, links := t.links, err := t.err }))
    ∧ (h.on (R.LNK_LOWPWR_LULL_EN 2) = true → h.on (R.LNK_STATUS_TX_LULL 2) = false → h.inService .S = true → h.nothingToSend .S = true → does (.lullEntry .S) h (fun t => t.on (R.LNK_STATUS_TX_LULL 2) = true ∧ t = { h with regs := t.regs, out := t.out, links := t.links }))
    ∧ (h.on (R.LNK_STATUS_TX_LULL p.ix) = true → does (.lullExit p) h (fun t => t.on (R.LNK_STATUS_TX_LULL p.ix) = false ∧ t = { h with regs := t.regs, out := t.out, links := t.links }))
    ∧ (h.inService p = true → h.overWake p = true → (h.links.at p).tx ≠ (h.links.at p).ceiling → becomes (.shedWake p) h (((h.sendSets p osTS1 0 0 2).announce p (h.links.at p).ceiling).onLink p (fun x => { x with woken := true })))
    ∧ (p ≠ .S → h.lstate p = stActive → h.up p = true → h.on (R.LNK_LOWPWR_SHED_EN p.ix) = true → (h.links.at p).withdrawn = none → h.overWake p = false → h.shedLayout p ≠ (h.links.at p).tx → becomes (.shedIdleExpire p) h ((h.onLink p (fun x => { x with woken := false })).announce p (h.shedLayout p)))
    ∧ ((h.links.at p).tx.parShed = true → h.pWaits p.ix = true → does (.parityForcedBack p) h (fun t => t.get (R.LNK_LOWPWR_PAR_SHED_EN p.ix) = 0 ∧ t.get (R.LNK_LOWPWR_P_SEEN p.ix) = 1 ∧ (t.links.at p).tx.parShed = false ∧ t = { h with regs := t.regs, out := t.out, links := t.links, sch := t.sch }))

/-- Training and gear stepping (R49–R54): what each command does where its conditions hold. -/
def Obligations.LaneTrainingCommands : Prop :=
  ∀ (h : Hub) (p : Port), h.awake = true → 
    (∀ (x : RxSet), (x.clean = false ∨ x.o.ok = false) → becomes (.orderedSetReceived p x) h h)
    ∧ (∀ (x : RxSet), x.clean = true → x.o.ok = true → x.o.typ = osTS1 → h.lstate p = stLock → (h.links.at p).run < 19 → 3 ≤ (lanesOf (Nat.land (h.links.at p).pairs x.lock)).length → becomes (.orderedSetReceived p x) h (h.onLink p (fun l => { l with run := (h.links.at p).run + 1 })))
    ∧ (h.lstate p = stDetectAttach → h.ccAttached p = true → does (.linkAttach p) h (fun t => t.lstate p = stDetectRx ∧ (∀ l : Fin 5, t.get (R.LNK_LANE_MAP_L p.ix l) = if h.on (R.CC_STATUS_FLIPPED p.ix) && h.get (R.CC_STATUS_ATTACH p.ix) != 4 then 4 - l.val else l.val) ∧ t = { h with regs := t.regs, links := t.links }))
    ∧ (∀ (m : BitVec 5), h.lstate p = stDetectRx → (h.links.at p).dead = 0 → 3 ≤ (lanesOf m.toNat).length → does (.receiverDetection p m) h (fun t => t.lstate p = stLock ∧ (t.links.at p).pairs = m.toNat ∧ t = { h with regs := t.regs, links := t.links }))
    ∧ (h.lstate p = stDetectRx → becomes (.trainingTimeout p) h ((h.put (R.LNK_STATUS_FAULT p.ix) 1).failedBringUp p))
    ∧ (h.lstate p = stGearStep → h.leads p = true → (h.links.at p).accepted = false → (h.links.at p).relock = false → becomes (.gearStepRequest p) h (h.sendSetReq p osTSG (h.gear p + 1) (h.gear p + 1) 0 0 0))
    ∧ (h.lstate p = stGearStep → (h.links.at p).accepted = true → h.gear p < 4 → does (.gearRateChange p) h (fun t => t.get (R.LNK_STATUS_GEAR p.ix) = h.gear p + 1 ∧ (t.links.at p).oldGear = h.gear p ∧ (t.links.at p).relock = true ∧ t.out = .idle p :: (h.sendSets p osTSG (h.gear p + 1) (if h.leads p then 0 else 1) 16).out ∧ t = { h with regs := t.regs, out := t.out, links := t.links }))
    ∧ (h.lstate p = stEqTrain → (h.links.at p).doneThere = 31 → does (.eqTrainDone p) h (fun t => t.lstate p = stEqCheck ∧ t = { h with regs := t.regs, free := t.free, out := t.out, links := t.links }))
    ∧ (h.lstate p = stEqCheck → (h.links.at p).checkThere = some true → (h.links.at p).target ≤ h.gear p → does (.eqCheckDone p true) h (fun t => t.lstate p = stActive ∧ t.get (R.LNK_STATUS_FAULT p.ix) = h.get (R.LNK_STATUS_FAULT p.ix) ∧ t.get (R.LNK_STATUS_GEAR p.ix) = h.gear p ∧ (t.links.at p).replay = [] ∧ t.get (R.LNK_RX_SEQ_EXPECTED p.ix) = 0 ∧ t = { h with regs := t.regs, out := t.out, links := t.links, sch := t.sch }))
    ∧ (h.lstate p = stEqCheck → does (.eqCheckDone p false) h (fun t => t.lstate p = stActive ∧ t.get (R.LNK_STATUS_FAULT p.ix) = 6 ∧ t = { h with regs := t.regs, out := t.out, links := t.links, sch := t.sch }))
    ∧ (h.lstate p = stActive → h.up p = false → does (.linkUp p) h (fun t => t.up p = true ∧ (t.links.at p).fails = 0 ∧ t.lstate p = stActive ∧ t = { h with regs := t.regs, links := t.links, err := t.err, tun := t.tun }))
    ∧ (becomes (.linkDisable p) h ((h.put (R.LNK_CTRL_ENABLE p.ix) 0).leaveService p stDisabled))
    ∧ (h.lstate p = stDisabled → h.get (R.CC_STATUS_ATTACH p.ix) = 0 → does (.linkEnable p) h (fun t => t.get (R.LNK_CTRL_ENABLE p.ix) = 1 ∧ t.lstate p = stDetectAttach ∧ t = { h with regs := t.regs, links := t.links }))
    ∧ (h.lstate p ≠ stDisabled → h.lstate p ≠ stDetectAttach → becomes (.linkRetrain p) h (h.leaveService p stDetectRx))
    ∧ (h.lstate p ≠ stDisabled → does (.linkDetach p) h (fun t => t.lstate p = stDetectAttach ∧ t.up p = false ∧ t.get (R.LNK_STATUS_PARTNER p.ix) = 7 ∧ (t.links.at p).fails = (h.links.at p).fails ∧ t = { h with regs := t.regs, out := t.out, links := t.links, tm := t.tm, tun := t.tun }))
    ∧ (h.lstate p = stBackoff → becomes (.backoffExpire p) h (h.toState p stDetectRx))
    ∧ (∀ (g : Byte), h.lstate p = stActive → does (.stpReceived p g) h (fun t => t.lstate p = stPartnerSteep ∧ t.up p = false ∧ (t.links.at p).storedGear = g.toNat % 8 ∧ t.get (R.LNK_STATUS_GEAR p.ix) = max 1 (min 4 (g.toNat % 8)) ∧ t.laneTx p 0 = 0 ∧ t.get (R.LNK_STATUS_PARTNER p.ix) = h.get (R.LNK_STATUS_PARTNER p.ix) ∧ t = { h with regs := t.regs, out := t.out, links := t.links, tm := t.tm, tun := t.tun }))

/-- What leaving service does to the hub (R43, R53): the port's own registers, and its frame. -/
def Obligations.LeavingService : Prop :=
  ∀ (h : Hub) (p : Port) (st : Nat), st < 32 → 
    ((h.leaveService p st).lstate p = st ∧ (h.leaveService p st).up p = false ∧ (h.leaveService p st).get (R.LNK_STATUS_GEAR p.ix) = 0 ∧ (h.leaveService p st).on (R.LNK_STATUS_MISWIRED p.ix) = false ∧ (h.leaveService p st).on (R.LNK_STATUS_OPEN_END p.ix) = false ∧ (h.leaveService p st).out = .idle p :: h.out)
    ∧ ((∀ l : Fin 5, (h.leaveService p st).laneRx p l = 6 ∧ (h.leaveService p st).laneTx p l = 6))
    ∧ (((h.leaveService p st).links.at p).lost = ((h.links.at p).lost || h.inService p) ∧ ((h.leaveService p st).links.at p).rx = Layout.full ∧ ((h.leaveService p st).links.at p).tx = Layout.full ∧ ((h.leaveService p st).links.at p).withdrawn = none ∧ (h.leaveService p st).tm.ports.at p = TimePort.reset)
    ∧ (onlyRegs { h with out := .idle p :: h.out, links := (h.leaveService p st).links, tm := (h.leaveService p st).tm, tun := (h.leaveService p st).tun } (h.leaveService p st) ([A.LNK_STATUS p.ix, A.LNK_LANE_RX p.ix, A.LNK_LANE_TX p.ix, aDelay p] ++ (match p with | .E => [A.CLK_OFFSET_E] | .W => [A.CLK_OFFSET_W] | .S => [])))
    ∧ ((∀ n : Fin 96, (h.leaveService p st).ctx n = (if h.up p then { h.ctx n with events := setSlice (h.ctx n).events evLink 1 1 } else h.ctx n)) ∧ (h.leaveService p st).tun = { h.tun with ctxs := (h.leaveService p st).tun.ctxs })
    ∧ (∀ (q : Port), q ≠ p → (h.leaveService p st).links.at q = h.links.at q ∧ (h.leaveService p st).rd (A.LNK_STATUS q.ix) = h.rd (A.LNK_STATUS q.ix) ∧ (h.leaveService p st).tm.ports.at q = h.tm.ports.at q)

/-- Columns and reassembly (R36, R37, R40, R41, R44, R64) of packets (R70, R71, R73), link control (R80) and markers (R122). -/
def Obligations.PacketsOverTheLanes : Prop :=
  ∀ (l : Layout) (u w lost : Nat) (s : Bool) (p : Packet), l = layoutOf u w s → (w = 4 ∨ w = 2 ∨ w = 1) → l.dataLanes.length = w → (l.parityLane = none → lost ∉ lanesOf l.mask) → 
    (RxStream.empty.hears l lost (l.packet p false) = { RxStream.empty with words := p.header ++ p.payload ++ [p.crc] })
    ∧ (RxStream.empty.hears l lost (l.packet p true) = { RxStream.empty with words := p.header ++ p.payload })
    ∧ (∀ (a b : List Word) (v : Word), (RxStream.empty.hears l lost ([l.control kStart] ++ a.flatMap l.word ++ Tx.columns l (.lc .E v) ++ b.flatMap l.word ++ [l.control kEnd])) = { RxStream.empty with words := a ++ b, sideWords := [v] })
    ∧ (∀ (a b : List Word) (v : Nat), v < 2 ^ 64 → (RxStream.empty.hears l lost ([l.control kStart] ++ a.flatMap l.word ++ Tx.columns l (.time .E v) ++ b.flatMap l.word ++ [l.control kEnd])) = { RxStream.empty with words := a ++ b, sideWords := [W (v % 2 ^ 32), W (v / 2 ^ 32)] })
    ∧ (p.inRange = true → Packet.parse? (p.header ++ p.payload) = some (p, p.length))

/-- Link control (R80–R90): what each command does where its conditions hold. -/
def Obligations.LinkControlCommands : Prop :=
  ∀ (h : Hub) (p : Port), h.awake = true → 
    (h.inService p = true → h.silent = false → (h.links.at p).nakOut = true → does (.nakRepeat p) h (fun t => t.out = .lc p (lcWord 2 (h.lastGood p)) :: (h.lullExit p).out ∧ t.get (R.LNK_NAK_TX p.ix) = min (2 ^ 32 - 1) (h.get (R.LNK_NAK_TX p.ix) + 1) ∧ (t.links.at p).good = 0 ∧ t = { h with regs := t.regs, out := t.out, links := t.links }))
    ∧ (h.inService p = true → h.silent = false → 0 < (h.links.at p).good → becomes (.sendAck p) h (((h.lullExit p).emit (.lc p (lcWord 1 (h.lastGood p)))).onLink p (fun l => { l with good := 0 })))
    ∧ (∀ (n : BitVec 12) (k : Nat), h.inService p = true → (h.links.at p).freeCount n.toNat = some k → does (.ackReceived p n) h (fun t => (t.links.at p).replay = (h.links.at p).replay.drop k ∧ (t.links.at p).noProg = 0 ∧ t.get (R.LNK_REPLAY_SEQ_ACKED p.ix) = n.toNat ∧ t = { h with regs := t.regs, links := t.links }))
    ∧ (∀ (n : BitVec 12), h.inService p = true → (h.links.at p).freeCount n.toNat = none → becomes (.ackReceived p n) h h)
    ∧ (∀ (n : BitVec 12), h.inService p = true → (h.links.at p).replay = [] → becomes (.nakReceived p n) h (h.bump (R.LNK_NAK_RX p.ix)))
    ∧ (∀ (n : BitVec 12) (k : Nat), h.inService p = true → (h.links.at p).freeCount n.toNat = some k → (h.links.at p).replay.drop k ≠ [] → 0 < h.get (R.LNK_PKT_CTRL_REPLAY_MAX p.ix) → does (.nakReceived p n) h (fun t => (t.links.at p).replay = (h.links.at p).replay.drop k ∧ (t.links.at p).rq = (h.links.at p).replay.drop k ∧ (t.links.at p).noProg = 1 ∧ t.get (R.LNK_REPLAY_SEQ_ACKED p.ix) = n.toNat ∧ t = { h with regs := t.regs, links := t.links }))
    ∧ (∀ (n : BitVec 12) (o : Packet) (xs : List Packet), h.inService p = true → (h.links.at p).replay = o :: xs → n.toNat = subMod 4096 o.lseq 1 → (h.links.at p).replay.length < 2048 → (h.links.at p).noProg < h.get (R.LNK_PKT_CTRL_REPLAY_MAX p.ix) → does (.nakReceived p n) h (fun t => (t.links.at p).rq = o :: xs ∧ (t.links.at p).noProg = (h.links.at p).noProg + 1 ∧ t = { h with regs := t.regs, out := t.out, links := t.links, err := t.err, tm := t.tm, tun := t.tun }))
    ∧ (h.inService p = true → (h.links.at p).replay ≠ [] → (h.links.at p).noProg < h.get (R.LNK_PKT_CTRL_REPLAY_MAX p.ix) → does (.replayTimeout p) h (fun t => (t.links.at p).rq = (h.links.at p).replay ∧ t.get (R.LNK_REPLAY_TO p.ix) = min (2 ^ 32 - 1) (h.get (R.LNK_REPLAY_TO p.ix) + 1) ∧ t = { h with regs := t.regs, out := t.out, links := t.links, err := t.err, tm := t.tm, tun := t.tun }))
    ∧ (h.inService p = true → (h.links.at p).replay ≠ [] → h.get (R.LNK_PKT_CTRL_REPLAY_MAX p.ix) ≤ (h.links.at p).noProg → becomes (.replayTimeout p) h ((h.lnkLog p 0x10 sevDG 0 0).leaveService p stDetectRx))
    ∧ (∀ (c : Cls) (v : BitVec 16), h.inService p = true → subMod 65536 v.toNat ((h.links.at p).used.at c) ≤ 2040 → does (.creditReceived p c v) h (fun t => (t.links.at p).limit.at c = v.toNat ∧ (t.links.at p).seen.at c = 1 ∧ t = { h with links := t.links, err := t.err }))
    ∧ (∀ (c : Cls) (v : BitVec 16), h.inService p = true → 2040 < subMod 65536 v.toNat ((h.links.at p).used.at c) → does (.creditReceived p c v) h (fun t => (t.links.at p).seen.at c = 0 ∧ (t.links.at p).avail c = 0 ∧ t.get (R.LNK_CREDIT_ERR p.ix) = min (2 ^ 32 - 1) (h.get (R.LNK_CREDIT_ERR p.ix) + 1) ∧ t = { h with regs := t.regs, links := t.links, err := t.err }))
    ∧ (∀ (c : Cls), h.inService p = true → h.silent = false → does (.sendCredit p c) h (fun t => t.out = .lc p (lcWord 3 (c.ix * 65536 + (h.links.at p).rel.at c)) :: (h.lullExit p).out ∧ (t.links.at p).relSent.at c = (h.links.at p).rel.at c ∧ t = { h with regs := t.regs, out := t.out, links := t.links }))
    ∧ (∀ (w : Word), h.inService p = true → lcGood w = false → becomes (.linkControlError p w) h (h.bump (R.LNK_LC_ERR p.ix)))
    ∧ (∀ (w : Word), h.inService p = false → becomes (.linkControlError p w) h (h.bump (R.LNK_DISCARD p.ix)))

/-- PACKET_RECEIVED (R79), LINK_DOWN (R99) and route entries (R101, R102, R106): what each does where its conditions hold. -/
def Obligations.PacketAndRouteCommands : Prop :=
  ∀ (h : Hub) (p : Port), h.awake = true → 
    (∀ (w : Wire) (cut : Option Port) (q : Packet), h.inService p = true → w.poisoned = false → h.goodPacket p w = some q → (q.cls = .P ∨ q.lseq = h.get (R.LNK_RX_SEQ_EXPECTED p.ix)) → becomes (.packetReceived p w cut) h (h.acceptPacket p q w.early cut))
    ∧ (∀ (w : Wire) (q : Packet), h.inService p = true → w.poisoned = false → h.goodPacket p w = some q → q.cls ≠ .P → q.lseq = h.get (R.LNK_RX_SEQ_EXPECTED p.ix) → h.headerBad q p = false → q.hops < 130 → q.portOwn = false → h.on R.FAB_STATUS_REBUILD = false → becomes (.packetReceived p w none) h ((h.inOrder p).forward q p w.early none) ∧ (h.inOrder p).get (R.LNK_RX_SEQ_EXPECTED p.ix) = (q.lseq + 1) % 4096)
    ∧ (∀ (w : Wire) (q : Packet) (n o pid : Nat), h.inService p = true → w.poisoned = false → h.goodPacket p w = some q → q.cls = .P → h.headerBad q p = false → q.portOwn = false → h.on R.FAB_STATUS_REBUILD = false → w.early = false → h.way q (some p) = .deliver n → h.winTest n q ≠ .duplicate → h.localOut n = some o → (h.ctx n).discard = false → h.bindCls n = .P → ((h.winTake n q p).enqueue q (some p) none none [⟨o, n, false, false, false⟩]).2 = some pid → becomes (.packetReceived p w none) h ((h.winTake n q p).enqueue q (some p) none none [⟨o, n, false, false, false⟩]).1)
    ∧ (∀ (q : Packet), h.hasAddr = true → hubOf q.dest = h.addr → h.way q (some p) = .deliver (idxOf q.dest))
    ∧ (∀ (q : Packet), (h.hasAddr = false ∨ hubOf q.dest ≠ h.addr) → hubOf q.dest = 127 → h.way q (some p) = .bcast (idxOf q.dest))
    ∧ (∀ (o : Port), h.usable o = (h.up o && !h.on (R.LNK_STATUS_OPEN_END o.ix)))
    ∧ (∀ (q : Packet) (o : Port), h.foreign q → q.wrap = true → p ≠ .S → o = (if h.entryPort (hubOf q.dest) = some .S then .S else p.other) → h.way q (some p) = (if h.usable o then .out o (if o = .S then some (hubOf q.dest) else none) else .wrapDead o))
    ∧ (∀ (q : Packet) (o : Port), h.foreign q → q.cls = .P → q.wrap = false → p ≠ .S → o = (if h.entryPort (hubOf q.dest) = some .S then .S else p.other) → h.way q (some p) = .copies (if h.usable o then [⟨o.ix, linkQueue q.dest, q.west, false, false⟩] else []) (if h.usable o then [] else [o]) (if o = .S then some (hubOf q.dest) else none))
    ∧ (∀ (q : Packet) (e w : Bool), h.foreign q → q.cls = .P → e = (h.on (R.LNK_ROUTE_VALID 0 (hubOf q.dest)) && h.on (R.LNK_ROUTE_P_E 0 (hubOf q.dest))) → w = (h.on (R.LNK_ROUTE_VALID 0 (hubOf q.dest)) && h.on (R.LNK_ROUTE_P_W 0 (hubOf q.dest))) → (e = true ∨ w = true) → h.way q (some .S) = .copies ((if e && h.usable .E then [⟨0, linkQueue q.dest, false, q.wrap, false⟩] else []) ++ (if w && h.usable .W then [⟨1, linkQueue q.dest, true, q.wrap, false⟩] else [])) ((if e && !h.usable .E then [.E] else []) ++ (if w && !h.usable .W then [.W] else [])) none)
    ∧ (∀ (q : Packet) (o : Port), h.foreign q → q.cls = .P → h.entryPort (hubOf q.dest) = some o → o ≠ .S → h.on (R.LNK_ROUTE_P_E 0 (hubOf q.dest)) = false → h.on (R.LNK_ROUTE_P_W 0 (hubOf q.dest)) = false → h.way q (some .S) = .copies (if h.usable o then [⟨o.ix, linkQueue q.dest, o == .W, q.wrap, false⟩] else []) (if h.usable o then [] else [o]) (some (hubOf q.dest)))
    ∧ (∀ (q : Packet) (o : Port), h.foreign q → q.cls ≠ .P → (q.wrap = false ∨ p = .S) → h.entryPort (hubOf q.dest) = some o → o ≠ p → h.way q (some p) = (if h.usable o then .out o (some (hubOf q.dest)) else if h.on (R.LNK_PKT_CTRL_WRAP_EN o.ix) && o != .S && !q.wrap && h.usable o.other then .wrapped o (some (hubOf q.dest)) else .wrapDrop o))
    ∧ (∀ (q : Packet) (o : Port), h.foreign q → q.cls ≠ .P → (q.wrap = false ∨ p = .S) → hubOf q.dest = 0 → h.on (R.LNK_ROUTE_VALID 0 0) = false → Port.ofCode (h.get R.DEV_STATUS_ENUM_PORT) = some o → h.way q (some p) = (if h.usable o then .out o none else if h.on (R.LNK_PKT_CTRL_WRAP_EN o.ix) && o != .S && !q.wrap && h.usable o.other then .wrapped o none else .wrapDrop o))
    ∧ (∀ (q : Packet), h.foreign q → q.cls ≠ .P → (q.wrap = false ∨ p = .S) → (h.entryPort (hubOf q.dest) = some p ∨ (h.entryPort (hubOf q.dest) = none ∧ (hubOf q.dest ≠ 0 ∨ h.on (R.LNK_ROUTE_VALID 0 0) = true ∨ Port.ofCode (h.get R.DEV_STATUS_ENUM_PORT) = none))) → h.way q (some p) = .none_)
    ∧ (∀ (q : Packet) (t : Target), h.admitTest q (some p) true t = (if h.queueLimit t.out t.q q.cls < h.queueCells t.out t.q + q.cells then .error 2 else if h.get (R.FAB_OLIM_LIM t.out q.cls.ix) < h.outUse t.out q.cls + q.cells then .error 3 else .ok (.link p)))
    ∧ (∀ (q : Packet) (t : Target), h.admitTest q (some p) false t = (if h.descThere = false ∨ h.poolDescs ≤ h.descsOn .pool then .error 5 else if h.queueLimit t.out t.q q.cls < h.queueCells t.out t.q + q.cells then .error 2 else if h.get (R.FAB_OLIM_LIM t.out q.cls.ix) < h.outUse t.out q.cls + q.cells then .error 3 else .ok .pool))
    ∧ (∀ (q : Packet) (t : Target) (a : Acct), h.localCells q.cls q.cells = some .pool → h.localDesc (q.cls == .M) = some a → h.admitTest q none true t = (if h.queueLimit t.out t.q q.cls < h.queueCells t.out t.q + q.cells then .error 2 else if h.get (R.FAB_OLIM_LIM t.out q.cls.ix) < h.outUse t.out q.cls + q.cells then .error 3 else .ok a))
    ∧ (∀ (q : Packet) (t : Target), h.localCells q.cls q.cells = none → h.admitTest q none true t = .error 4)
    ∧ (∀ (w : Wire) (q : Packet) (a : Nat) (y : Hold), h.routes p w q → h.foreign q → h.holdOf (h.way q (some p)) = some a → KMap.get? h.rt.holds a = some y → does (.packetReceived p w none) h (fun t => KMap.get? t.rt.holds a = some { y with pkts := y.pkts ++ [⟨q, some p, none⟩] } ∧ t.fab = h.fab ∧ t = { h with regs := t.regs, out := t.out, links := t.links, rt := t.rt }))
    ∧ (∀ (w : Wire) (q : Packet) (o : Port) (e : Option Nat), h.routes p w q → h.foreign q → h.way q (some p) = .out o e → h.holdOf (.out o e) = none → h.limitFail o.ix (linkQueue q.dest) q.cls q.cells = none → does (.packetReceived p w none) h (fun t => t = ((h.taken p q).enqueue q (some p) none none [⟨o.ix, linkQueue q.dest, q.west, q.wrap, false⟩]).1 ∧ (t.queue o.ix (linkQueue q.dest)).items = (h.queue o.ix (linkQueue q.dest)).items ++ [⟨h.fab.nextPid, .link p, q.west, q.wrap, q.cls, q.stamp, false⟩] ∧ (KMap.get? t.fab.pkts h.fab.nextPid).map (fun s => (s.pkt, s.refs)) = some (q, 1) ∧ t = { h with regs := t.regs, mem := t.mem, out := t.out, links := t.links, err := t.err, fab := t.fab, tun := t.tun }))
    ∧ (∀ (w : Wire) (q : Packet) (o : Port) (e : Option Nat), h.routes p w q → h.foreign q → h.way q (some p) = .wrapped o e → h.holdOf (.wrapped o e) = none → h.limitFail o.other.ix (linkQueue q.dest) q.cls q.cells = none → does (.packetReceived p w none) h (fun t => (t.queue o.other.ix (linkQueue q.dest)).items = (h.queue o.other.ix (linkQueue q.dest)).items ++ [⟨h.fab.nextPid, .link p, q.west, true, q.cls, q.stamp, false⟩] ∧ (KMap.get? t.fab.pkts h.fab.nextPid).map (fun s => (s.pkt, s.refs)) = some (q, 1) ∧ t.get (R.LNK_WRAPPED o.ix) = min (2 ^ (R.LNK_WRAPPED o.ix).width - 1) (h.get (R.LNK_WRAPPED o.ix) + 1) ∧ t.get (R.LNK_WRAP_DROP o.ix) = h.get (R.LNK_WRAP_DROP o.ix) ∧ t = { h with regs := t.regs, mem := t.mem, out := t.out, links := t.links, err := t.err, fab := t.fab, tun := t.tun }))
    ∧ (∀ (w : Wire) (q : Packet) (o : Port), h.routes p w q → h.foreign q → (h.way q (some p) = .wrapDrop o ∨ h.way q (some p) = .wrapDead o) → does (.packetReceived p w none) h (fun t => t.get (R.LNK_WRAP_DROP o.ix) = min (2 ^ (R.LNK_WRAP_DROP o.ix).width - 1) (h.get (R.LNK_WRAP_DROP o.ix) + 1) ∧ t.fab.pkts = h.fab.pkts ∧ t.fab.queues = h.fab.queues ∧ t = { h with regs := t.regs, out := t.out, links := t.links, err := t.err, fab := t.fab }))
    ∧ (∀ (w : Wire) (q : Packet), h.routes p w q → h.foreign q → h.way q (some p) = .none_ → does (.packetReceived p w none) h (fun t => t.get (R.LNK_NOROUTE p.ix) = min (2 ^ (R.LNK_NOROUTE p.ix).width - 1) (h.get (R.LNK_NOROUTE p.ix) + 1) ∧ t.fab.pkts = h.fab.pkts ∧ t.fab.queues = h.fab.queues ∧ t = { h with regs := t.regs, out := t.out, links := t.links, err := t.err, fab := t.fab }))
    ∧ (∀ (w : Wire) (q : Packet) (o : Port) (e : Option Nat), h.routes p w q → h.foreign q → h.way q (some p) = .copies [] [o] e → h.holdOf (.copies [] [o] e) = none → does (.packetReceived p w none) h (fun t => t.get (R.LNK_P_COPY_DROP o.ix) = min (2 ^ (R.LNK_P_COPY_DROP o.ix).width - 1) (h.get (R.LNK_P_COPY_DROP o.ix) + 1) ∧ t.fab.pkts = h.fab.pkts ∧ t.fab.queues = h.fab.queues ∧ t = { h with regs := t.regs, out := t.out, links := t.links, err := t.err, fab := t.fab }))
    ∧ (∀ (w : Wire) (q : Packet) (o : Port) (e : Option Nat) (c : Nat), h.routes p w q → h.foreign q → h.way q (some p) = .out o e → h.holdOf (.out o e) = none → h.limitFail o.ix (linkQueue q.dest) q.cls q.cells = some c → does (.packetReceived p w none) h (fun t => t.cnt o.ix q.cls c = min top48 (h.cnt o.ix q.cls c + 1) ∧ t.fab.pkts = h.fab.pkts ∧ t.fab.queues = h.fab.queues ∧ t = { h with regs := t.regs, out := t.out, links := t.links, err := t.err, fab := t.fab }))
    ∧ (∀ (w : Wire) (q : Packet) (n : Nat), h.routes p w q → h.way q (some p) = .bcast n → w.early = false → h.winTest n q ≠ .duplicate → h.localOut n = none → does (.packetReceived p w none) h (fun t => ((((h.taken p q).winTake n q p).countTunnel n).enqueue q (some p) none none ((h.bcastPorts (some p)).map (fun o => ⟨o.ix, linkQueue q.dest, false, false, false⟩))).2 ≠ none → t = ((((h.taken p q).winTake n q p).countTunnel n).enqueue q (some p) none none ((h.bcastPorts (some p)).map (fun o => ⟨o.ix, linkQueue q.dest, false, false, false⟩))).1))
    ∧ (∀ (o : Port), (h.bcastPorts (some p)).contains o = (h.usable o && o != p))
    ∧ (∀ (w : Wire) (q : Packet) (n : Nat), h.routes p w q → h.way q (some p) = .bcast n → h.winTest n q = .duplicate → does (.packetReceived p w none) h (fun t => t.get (R.LNK_WIN_DUP 0) = min (2 ^ (R.LNK_WIN_DUP 0).width - 1) (h.get (R.LNK_WIN_DUP 0) + 1) ∧ t.fab = h.fab ∧ t = { h with regs := t.regs, out := t.out, links := t.links }))
    ∧ (∀ (w : Wire), h.inService p = false → (h.lstate p ≠ stOpenEnd ∨ h.goodPacket p w = none) → becomes (.packetReceived p w none) h (h.bump (R.LNK_DISCARD p.ix)))
    ∧ (∀ (w : Wire) (q : Packet), h.lstate p = stOpenEnd → h.goodPacket p w = some q → q.kind = 7 → q.aux % 16 = 1 → becomes (.packetReceived p w none) h (h.countHdrErr p 0))
    ∧ (∀ (w : Wire), h.inService p = true → w.poisoned = true → does (.packetReceived p w none) h (fun t => t.get (R.LNK_POISON_RX p.ix) = min (2 ^ 32 - 1) (h.get (R.LNK_POISON_RX p.ix) + 1) ∧ (t.links.at p).pktBad = false ∧ t.fab.pkts = h.fab.pkts ∧ t = { h with regs := t.regs, free := t.free, out := t.out, links := t.links, rt := t.rt, err := t.err, fab := t.fab }))
    ∧ (∀ (w : Wire), h.inService p = true → h.silent = false → w.poisoned = false → h.goodPacket p w = none → (h.links.at p).nakOut = false → does (.packetReceived p w none) h (fun t => t.get (R.LNK_CRC_ERR p.ix) = min (2 ^ 32 - 1) (h.get (R.LNK_CRC_ERR p.ix) + 1) ∧ (t.links.at p).nakOut = true ∧ t.get (R.LNK_RX_SEQ_EXPECTED p.ix) = h.get (R.LNK_RX_SEQ_EXPECTED p.ix) ∧ t = { h with regs := t.regs, free := t.free, out := t.out, links := t.links, rt := t.rt, err := t.err, fab := t.fab }))
    ∧ (∀ (w : Wire) (q : Packet), h.inService p = true → h.silent = false → w.poisoned = false → h.goodPacket p w = some q → q.cls ≠ .P → subMod 4096 q.lseq (h.get (R.LNK_RX_SEQ_EXPECTED p.ix)) = 4095 → does (.packetReceived p w none) h (fun t => t.out.head? = some (.lc p (lcWord 1 (h.lastGood p))) ∧ t.fab.pkts = h.fab.pkts ∧ t = { h with regs := t.regs, free := t.free, out := t.out, links := t.links, rt := t.rt, err := t.err, fab := t.fab }))
    ∧ (∀ (w : Wire) (q : Packet), h.inService p = true → h.silent = false → w.poisoned = false → h.goodPacket p w = some q → q.cls ≠ .P → subMod 4096 q.lseq (h.get (R.LNK_RX_SEQ_EXPECTED p.ix)) = 1 → (h.links.at p).nakOut = false → does (.packetReceived p w none) h (fun t => t.out.head? = some (.lc p (lcWord 2 (h.lastGood p))) ∧ (t.links.at p).nakOut = true ∧ t.fab.pkts = h.fab.pkts ∧ t = { h with regs := t.regs, free := t.free, out := t.out, links := t.links, rt := t.rt, err := t.err, fab := t.fab }))
    ∧ (∀ (w : Wire) (q : Packet), h.inService p = true → w.poisoned = false → h.goodPacket p w = some q → q.cls ≠ .P → q.lseq = h.get (R.LNK_RX_SEQ_EXPECTED p.ix) → h.headerBad q p = true → does (.packetReceived p w none) h (fun t => t.get (R.LNK_RX_SEQ_EXPECTED p.ix) = (q.lseq + 1) % 4096 ∧ t.get (R.LNK_HDR_ERR p.ix) = min (2 ^ 32 - 1) (h.get (R.LNK_HDR_ERR p.ix) + 1) ∧ t.fab.pkts = h.fab.pkts ∧ t = { h with regs := t.regs, free := t.free, out := t.out, links := t.links, rt := t.rt, err := t.err, fab := t.fab }))
    ∧ (h.up p = false → (h.links.at p).lost = true → does (.linkDown p) h (fun t => (t.links.at p).lost = false ∧ (t.links.at p).replay = [] ∧ (t.links.at p).rq = [] ∧ t.get (R.LNK_DOWN_CNT p.ix) = min (2 ^ 32 - 1) (h.get (R.LNK_DOWN_CNT p.ix) + 1) ∧ t = { h with regs := t.regs, mem := t.mem, free := t.free, out := t.out, links := t.links, rt := t.rt, err := t.err, fab := t.fab, sch := t.sch, tm := t.tm, tun := t.tun }))
    ∧ (h.up p = false → (h.links.at p).lost = true → (h.links.at p).replay = [] → h.queueKeys p.ix = [] → h.canWrap p = false → does (.linkDown p) h (fun t => (t.links.at p).lost = false ∧ t.get (R.LNK_DOWN_CNT p.ix) = min (2 ^ 32 - 1) (h.get (R.LNK_DOWN_CNT p.ix) + 1) ∧ t = { h with regs := t.regs, mem := t.mem, free := t.free, out := t.out, links := t.links, err := t.err, tm := t.tm, tun := t.tun }))
    ∧ (h.up p = true → h.inService p = true → does (.linkDown p) h (fun t => t.lstate p = stDetectRx ∧ t.up p = false ∧ (t.links.at p).lost = false ∧ (t.links.at p).replay = [] ∧ t.get (R.LNK_DOWN_CNT p.ix) = min (2 ^ 32 - 1) (h.get (R.LNK_DOWN_CNT p.ix) + 1)))
    ∧ (h.up p = false → (h.links.at p).lost = false → becomes (.linkDown p) h h)
    ∧ (∀ (a : Fin 128) (v : Word), a.val ≤ 64 → does (.routeEntryWrite a v) h (fun t => t.rd (A.LNK_ROUTE 0 a) = v &&& 0x3F#32 ∧ t = { h with regs := t.regs, out := t.out, rt := t.rt, tm := t.tm, tun := t.tun }))
    ∧ (∀ (a : Fin 128) (v : Word), 0 < a.val → a.val ≤ 64 → v.getLsbD 5 = false → h.get R.TIME_STATUS_QUALITY = h.qualityNow → becomes (.routeEntryWrite a v) h (h.wr (A.LNK_ROUTE 0 a) (v &&& 0x3F#32)))
    ∧ (∀ (a : Fin 128) (v : Word) (q : Port), a.val ≤ 64 → v.getLsbD 5 = true → h.entryPort a = some q → slice v.toNat 0 2 ≠ q.code → does (.routeEntryWrite a v) h (fun t => ∃ x, KMap.get? t.rt.holds a = some x ∧ x.old.getLast? = some q))
    ∧ (∀ (a : Fin 128) (v : Word), 64 < a.val → h.get R.TIME_STATUS_QUALITY = h.qualityNow → becomes (.routeEntryWrite a v) h h)
    ∧ (∀ (a : Fin 128) (x : Hold), h.on R.FAB_STATUS_REBUILD = false → KMap.get? h.rt.holds a = some x → x.old.any (fun q => h.queuedFor q.ix a) = false → becomes (.routeHoldRelease a) h (x.pkts.foldl Hub.releaseHeld { h with rt := { h.rt with holds := KMap.del h.rt.holds a } }))
    ∧ (∀ (a : Fin 128), h.on R.FAB_STATUS_REBUILD = true → becomes (.routeHoldRelease a) h h)
    ∧ (∀ (a : Fin 128), KMap.get? h.rt.holds a = none → becomes (.routeHoldRelease a) h h)

/-- Clock modes (R111–R120, R513): what each command does where its conditions hold. -/
def Obligations.ClockModeCommands : Prop :=
  ∀ (h : Hub), h.awake = true → 
    (∀ (p : Port), h.clkMode = ckFree → h.candidate p = true → does (.clockAcquire p) h (fun t => t.clkMode = ckAcquire ∧ t.get R.CLK_STATUS_SEL = selCode p ∧ t.tm.followed = some p ∧ t = { h with regs := t.regs, out := t.out, tm := t.tm }))
    ∧ (∀ (p : Port), h.clkMode = ckAcquire → h.tm.followed = some p → h.up p = false → does .acquireTimeout h (fun t => t = h.goFree ∧ t.clkMode = ckFree ∧ t.get R.CLK_STATUS_SEL = 0 ∧ t.tm.followed = none ∧ t.get R.CLK_SWITCH_CNT = h.get R.CLK_SWITCH_CNT ∧ t.rd A.CLK_EVENT = h.rd A.CLK_EVENT ∧ (∀ q ∈ Port.all, .idle q ∈ t.out) ∧ (∀ x : Fin 4, t.ethLink x = 0) ∧ ((∀ x : Fin 4, h.ethLink x ≠ 2) → t.err = h.err) ∧ t.err = { h.err with evtq := t.err.evtq } ∧ t = { h with regs := t.regs, err := t.err, out := t.out, tm := t.tm, tun := t.tun, eth := t.eth }))
    ∧ (∀ (p : Port), (h.clkMode ≠ ckAcquire ∨ h.tm.followed = none ∨ h.up .E = true ∧ h.up .W = true ∧ h.up .S = true) → becomes .acquireTimeout h h)
    ∧ (∀ (p : Port), h.clkMode = ckAcquire → h.pickCandidate h.qualified = some p → becomes .clockEnterRing h (h.enterRing p))
    ∧ (∀ (p : Port), (h.enterRing p).clkMode = ckRing ∧ (h.enterRing p).get R.CLK_STATUS_SEL = selCode p ∧ (h.enterRing p).tm.followed = none)
    ∧ (∀ (p : Port), h.clkMode = ckAcquire → h.tm.followed = some p → h.lstate p = stGearStep → does .stepHoldEnter h (fun t => t.clkMode = ckStepHold ∧ t.tm.holdFrom = ckAcquire ∧ t = { h with regs := t.regs, tm := t.tm }))
    ∧ (h.clkMode = ckStepHold → becomes .stepHoldRelock h (h.put R.CLK_STATUS_MODE h.tm.holdFrom))
    ∧ (h.clkMode = ckStepHold → does .stepHoldOverrun h (fun t => t.clkMode = ckFree ∧ t.get R.CLK_EVENT_STEP_OVERRUN = 1 ∧ t.get R.CLK_STATUS_SEL = 0 ∧ t = { h with regs := t.regs, out := t.out, err := t.err, tm := t.tm, tun := t.tun, eth := t.eth }))
    ∧ (does (.monitorWindowEnd none none) h (fun t => t.tm.failW = true ∧ t.tm.failE = true ∧ t.clkMode = h.clkMode ∧ t = { h with regs := t.regs, free := t.free, tm := t.tm }))
    ∧ (∀ (a b : Nat), h.up .W = true → h.up .E = true → h.isSpur = false → h.farOff a = false → h.farOff b = false → h.tm.edgeW = false → h.tm.edgeE = false → does (.monitorWindowEnd (some a) (some b)) h (fun t => t.tm.failW = false ∧ t.tm.failE = false ∧ t.tm.winW = (some a :: h.tm.winW).take 102 ∧ t.tm.winE = (some b :: h.tm.winE).take 102 ∧ t.clkMode = h.clkMode ∧ t = { h with regs := t.regs, free := t.free, tm := t.tm }))
    ∧ (∀ (p : Port), p ≠ .S → does (.missingEdges p) h (fun t => t.winFailed p = true ∧ (if p = .W then t.tm.edgeW else t.tm.edgeE) = true ∧ t.winFailed p.other = h.winFailed p.other ∧ t = { h with tm := t.tm }))
    ∧ (∀ (p : Port), h.selPort = some p → h.clkMode = ckRing → h.qualified p = false → h.qualified p.other = true → h.err.handling = [] → does .clockSwitch h (fun t => t = h.switchTo p p.other ∧ t.clkMode = ckRing ∧ t.get R.CLK_STATUS_SEL = selCode p.other ∧ t.on R.CLK_EVENT_SWITCHED = true ∧ t.get R.CLK_SWITCH_CNT = min (2 ^ R.CLK_SWITCH_CNT.width - 1) (h.get R.CLK_SWITCH_CNT + 1) ∧ t.tm.followed = none ∧ KMap.get? t.err.log h.nextSlot = some (h.mkRec 1 1 sevDG (selCode p.other) (h.clkOffset p) (min (2 ^ R.CLK_SWITCH_CNT.width - 1) (h.get R.CLK_SWITCH_CNT + 1))) ∧ t.err.handling = [] ∧ t = { h with regs := t.regs, out := t.out, err := t.err, tm := t.tm, tun := t.tun }))
    ∧ ((h.clkMode ≠ ckRing ∨ h.selPort = none ∨ (h.qualified .W = true ∧ h.qualified .E = true) ∨ (h.qualified .W = false ∧ h.qualified .E = false)) → becomes .clockSwitch h h)
    ∧ (∀ (p : Port), h.selPort = some p → h.clkMode = ckRing → h.qualified .W = false → h.qualified .E = false → does .holdoverEnter h (fun t => t.clkMode = ckHoldover ∧ t.get R.CLK_STATUS_SEL = 0 ∧ t.get R.CLK_EVENT_HOLDOVER = 1 ∧ t.tm.holdAt = h.root ∧ t = { h with regs := t.regs, out := t.out, err := t.err, tm := t.tm, tun := t.tun }))
    ∧ (∀ (w e : Bool) (p : Port), h.clkMode = ckHoldover → h.pickCandidate (fun p => h.qualified p && (match p with | .W => w | .E => e | .S => false)) = some p → does (.holdoverExit w e) h (fun t => t.clkMode = ckRing ∧ t.get R.CLK_STATUS_SEL = selCode p ∧ t.get R.CLK_EVENT_RECOVERED = 1 ∧ t.rd A.CLK_HOLDOVER_TIME = W h.holdTime ∧ t = { h with regs := t.regs, out := t.out, err := t.err, tm := t.tm, tun := t.tun }))
    ∧ (∀ (p : Port), h.selPort = some p → h.clkMode = ckRing → p ≠ h.preferred → h.qualified h.preferred = true → h.on R.CLK_CTRL_REVERT_EN = true → h.qualified p = true → becomes .clockRevert h (((h.put R.CLK_EVENT_REVERTED 1).enterRing h.preferred).notice 1 0x81 (selCode h.preferred) 0))
    ∧ (∀ (hz : BitVec 32), h.clkMode = ckRing → 23750000 ≤ hz.toNat → hz.toNat ≤ 26250000 → does (.slowClockMeasure hz) h (fun t => t.rd A.CLK_SLOW_FREQ = hz ∧ t.tm.slowBad = false ∧ t = { h with regs := t.regs, tm := t.tm }))
    ∧ ((if h.isSpur = false ∧ h.qualified .W = true ∧ h.on (R.LNK_STATUS_OPEN_END 0) = false then h.txClock .E = .recovered .W else h.txClock .E = .root))
    ∧ ((if h.isSpur = false ∧ h.qualified .E = true ∧ h.on (R.LNK_STATUS_OPEN_END 1) = false then h.txClock .W = .recovered .E else h.txClock .W = .root))
    ∧ (h.txClock .S = .root)

/-- Time markers (R122–R126) and hop delay (R128–R130): what each command does where its conditions hold. -/
def Obligations.MarkerAndDelayCommands : Prop :=
  ∀ (h : Hub) (p : Port), h.awake = true → 
    (∀ (v : BitVec 64) (e : Bool) (res : PerPort Nat), h.up p = false → becomes (.timeMarkerReceived p v e res) h h)
    ∧ (∀ (v : BitVec 64) (res : PerPort Nat), h.up p = true → becomes (.timeMarkerReceived p v true res) h (h.bump R.TIME_MARK_BAD))
    ∧ (∀ (v : BitVec 64) (res : PerPort Nat), h.up p = true → (h.tm.ports.at p).mark = none → h.selPort ≠ some p → does (.timeMarkerReceived p v false res) h (fun t => (t.tm.ports.at p).mark = some ⟨v.toNat, h.root⟩ ∧ (t.tm.ports.at p).badRun = [] ∧ t = { h with regs := t.regs, mem := t.mem, out := t.out, links := t.links, err := t.err, fab := t.fab, sch := t.sch, tm := t.tm, tun := t.tun, usb := t.usb }))
    ∧ (∀ (v : BitVec 64) (res : PerPort Nat), h.up p = true → (h.tm.ports.at p).checkMark ⟨v.toNat, h.root⟩ = .accept → h.selPort = some p → h.calibrated p = true → h.on R.TIME_STATUS_VALID = true → ((v.toNat : Int) + h.delay p - h.stime).natAbs ≤ 256 → does (.timeMarkerReceived p v false res) h (fun t => t.stime = h.stime ∧ t.tm.err = (v.toNat : Int) + h.delay p - h.stime ∧ (t.tm.ports.at p).mark = some ⟨v.toNat, h.root⟩ ∧ t.rd A.TIME_MARK_ERR = W (unsigned 32 ((v.toNat : Int) + h.delay p - h.stime))))
    ∧ (∀ (v : BitVec 64) (res : PerPort Nat), h.up p = true → (h.tm.ports.at p).checkMark ⟨v.toNat, h.root⟩ = .accept → h.selPort = some p → h.calibrated p = true → h.on R.TIME_STATUS_VALID = true → h.stime + 256 < v.toNat + h.delay p → does (.timeMarkerReceived p v false res) h (fun t => t.stime = v.toNat + h.delay p ∧ t.tm.err = 0 ∧ t.rd A.TIME_STEP_LAST = W (min (2 ^ 32 - 1) ((v.toNat + h.delay p - h.stime) / 8)) ∧ (t.tm.ports.at p).mark = some ⟨v.toNat, h.root⟩))
    ∧ (∀ (v : BitVec 64) (res : PerPort Nat), h.up p = true → (h.tm.ports.at p).checkMark ⟨v.toNat, h.root⟩ = .accept → h.selPort = some p → h.calibrated p = true → h.on R.TIME_STATUS_VALID = false → does (.timeMarkerReceived p v false res) h (fun t => t.stime = v.toNat + h.delay p ∧ t.on R.TIME_STATUS_VALID = true ∧ t.tm.err = 0 ∧ (t.tm.ports.at p).mark = some ⟨v.toNat, h.root⟩))
    ∧ ((h.tm.ports.at p).mark.isSome = true → (h.tm.ports.at p).gap = false → does (.markerGap p) h (fun t => (t.tm.ports.at p).gap = true ∧ t.get R.TIME_MARK_MISS = min (2 ^ R.TIME_MARK_MISS.width - 1) (h.get R.TIME_MARK_MISS + 1) ∧ t = { h with regs := t.regs, out := t.out, tm := t.tm, tun := t.tun }))
    ∧ (h.tm.err ≠ 0 → -256 ≤ h.tm.err → does .slewComplete h (fun t => t.tm.err = 0 ∧ t.root = h.root + 4000 * h.tm.err.natAbs ∧ (t.stime : Int) = h.stime + 4000 * h.tm.err.natAbs + h.tm.err ∧ t.get R.TIME_STATUS_SLEWING = 0 ∧ t = { h with root := t.root, stime := t.stime, regs := t.regs, err := t.err, tm := t.tm }))
    ∧ (h.up p = false → becomes (.delayCalibration p) h h)
    ∧ (h.up p = true → (h.tm.ports.at p).calibrating = false → becomes (.delayCalibration p) h ((h.calStart p).sendProbe p false))
    ∧ (h.up p = true → h.calibrated p = false → (h.tm.ports.at p).calibrating = false → becomes (.calibrationRetry p) h ((h.calStart p).sendProbe p false))
    ∧ (h.up p = true → h.calibrated p = true → h.on R.TIME_CTRL_RECHECK_EN = true → becomes (.delayRecheck p) h (h.sendProbe p true))
    ∧ (h.up .E = false → h.up .W = true → h.up .S = false → becomes .calNow h ((h.calStart .W).sendProbe .W false))
    ∧ (h.up .E = true → h.up .W = true → h.up .S = false → becomes .calNow h ((((h.calStart .E).sendProbe .E false).calStart .W).sendProbe .W false))
    ∧ (∀ (x : PortPkt), (h.links.at p).ownOf 5 = some x → h.portMay p (h.portPacket 6 x.pkt.aux [W (h.root - x.at_)]) = true → becomes (.delayProbeReceived p) h ((h.takeOwn p x).portSend p (h.portPacket 6 x.pkt.aux [W (h.root - x.at_)])))
    ∧ (∀ (x : PortPkt), (h.links.at p).ownOf 6 = some x → KMap.get? (h.tm.ports.at p).probes x.pkt.aux = none → becomes (.delayReplyReceived p) h (h.takeOwn p x))
    ∧ (∀ (x : PortPkt) (b : Probe) (v : Int), (h.links.at p).ownOf 6 = some x → KMap.get? (h.tm.ports.at p).probes x.pkt.aux = some b → b.again = false → b.recheck = false → x.at_ ≤ b.t1 + 100 * us → v = (x.at_ : Int) - b.t1 - (x.pkt.payload.headD 0#32).toNat → becomes (.delayReplyReceived p) h (((h.takeOwn p x).onTimePort p (fun t => { t with probes := KMap.del t.probes x.pkt.aux, samples := v :: t.samples })).calFinish p))
    ∧ (∀ (k : BitVec 16), (h.tm.ports.at p).calibrating = false → does (.delayProbeTimeout p k) h (fun t => KMap.get? (t.tm.ports.at p).probes k.toNat = none ∧ t = { h with err := t.err, tm := t.tm }))
    ∧ (∀ (k : BitVec 16), becomes (.delayProbeTimeout p k) h ((h.onTimePort p (fun t => { t with probes := KMap.del t.probes k.toNat })).calFinish p))

/-- Event inputs (R134–R136) and triggered outputs (R137–R142): what each command does where its conditions hold. -/
def Obligations.EventPinCommands : Prop :=
  ∀ (h : Hub), h.awake = true → 
    (∀ (n : Fin 32) (l : Bool), (h.pin n).pend = none → l ≠ bit (h.rd A.TIME_EVI_LEVEL).toNat n → h.get (R.TIME_EVI_FILT_FILTER n) ≠ 0 → does (.eviLevelChange n l) h (fun t => (t.pin n).pend = some ⟨l, h.now, h.quality⟩ ∧ t.tm.fifo = h.tm.fifo ∧ t = { h with err := t.err, tm := t.tm }))
    ∧ (∀ (n : Fin 32) (l : Bool), (h.pin n).pend.isSome = true → l = bit (h.rd A.TIME_EVI_LEVEL).toNat n → does (.eviLevelChange n l) h (fun t => (t.pin n).pend = none ∧ (t.pin n).glitch = min 255 ((h.pin n).glitch + 1) ∧ t.get R.TIME_EVI_GLITCH = min (2 ^ R.TIME_EVI_GLITCH.width - 1) (h.get R.TIME_EVI_GLITCH + 1) ∧ t.tm.fifo = h.tm.fifo ∧ t = { h with regs := t.regs, err := t.err, tm := t.tm }))
    ∧ (∀ (n : Fin 32) (e : EviPend), (h.pin n).pend = some e → bit (h.edgeSel n) (if e.level then 0 else 1) = true → h.tm.fifo.length < 256 → h.tm.fifo.all (fun x => x.entered != h.root / 8) = true → does (.eviFilterAccept n) h (fun t => bit (t.rd A.TIME_EVI_LEVEL).toNat n = e.level ∧ (t.pin n).pend = none ∧ t.tm.fifo = h.tm.fifo ++ [⟨h.root / 8, e.stamp, n, e.level, e.quality, h.get R.TIME_EVI_FIFO_STAT_NEXT_SEQ, (h.pin n).glitch⟩] ∧ t.get R.TIME_EVI_FIFO_STAT_NEXT_SEQ = (h.get R.TIME_EVI_FIFO_STAT_NEXT_SEQ + 1) % 65536 ∧ t = { h with regs := t.regs, err := t.err, tm := t.tm }))
    ∧ (∀ (n : Fin 32) (e : EviPend), (h.pin n).pend = some e → bit (h.edgeSel n) (if e.level then 0 else 1) = true → h.tm.fifo.length < 256 → does (.eviFilterAccept n) h (fun t => t.tm.fifo = EviRec.join ⟨h.root / 8, e.stamp, n, e.level, e.quality, h.get R.TIME_EVI_FIFO_STAT_NEXT_SEQ, (h.pin n).glitch⟩ h.tm.fifo))
    ∧ (∀ (n : Fin 32) (e : EviPend), (h.pin n).pend = some e → bit (h.edgeSel n) (if e.level then 0 else 1) = false → does (.eviFilterAccept n) h (fun t => bit (t.rd A.TIME_EVI_LEVEL).toNat n = e.level ∧ (t.pin n).pend = none ∧ t.tm.fifo = h.tm.fifo ∧ t = { h with regs := t.regs, tm := t.tm }))
    ∧ (∀ (n : Nat), h.boundTo 0x2A 1 = some n → h.tm.fifo ≠ [] → h.on R.FAB_STATUS_REBUILD = false → does .eviPacketSend h (fun t => t.tm.fifo = h.tm.fifo.drop 32 ∧ t = { h with regs := t.regs, free := t.free, rt := t.rt, err := t.err, fab := t.fab, tun := t.tun, tm := t.tm }))
    ∧ (h.boundTo 0x2A 1 = none → becomes .eviPacketSend h h)
    ∧ (does .eviPop h (fun t => t.tm.fifo = h.tm.fifo.drop 1 ∧ t = { h with tm := t.tm }))
    ∧ (∀ (n : Fin 8), h.on (R.TIME_EVO_CTRL_TUN_OWN n) = true → becomes (.evoArm n) h h)
    ∧ (∀ (n : Fin 8), h.on (R.TIME_EVO_CTRL_TUN_OWN n) = false → h.get (R.TIME_EVO_CTRL_MODE n) = 0 → becomes (.evoArm n) h (h.evoHalt n))
    ∧ (∀ (n : Fin 8), h.on (R.TIME_EVO_CTRL_TUN_OWN n) = false → h.get (R.TIME_EVO_CTRL_MODE n) = 1 → (h.rd (A.TIME_EVO_WIDTH n)).toNat ≠ 0 → h.now + 64 ≤ h.evoStartReg n → does (.evoArm n) h (fun t => (t.evo n).sched = some ⟨h.evoStartReg n, (h.rd (A.TIME_EVO_PERIOD n)).toNat, h.get (R.TIME_EVO_COUNT_COUNT n), (h.rd (A.TIME_EVO_WIDTH n)).toNat, false, 0⟩ ∧ (t.evo n).queue = [] ∧ t.get (R.TIME_EVO_STATUS_REFUSED n) = 0 ∧ t = { h with regs := t.regs, out := t.out, tm := t.tm }))
    ∧ (∀ (n : Fin 8), h.on (R.TIME_EVO_CTRL_TUN_OWN n) = false → does (.evoStop n false) h (fun t => t.get (R.TIME_EVO_CTRL_MODE n) = 0 ∧ t.evo n = Evo.idle ∧ t.get (R.TIME_EVO_STATUS_ARMED n) = 0 ∧ t = { h with regs := t.regs, out := t.out, tm := t.tm }))
    ∧ (∀ (n : Fin 8) (x : EvoSched), (h.evo n).sched = some x → x.periodic = true → h.gated n = false → does (.evoEdge n) h (fun t => (t.evo n).on = true ∧ (t.evo n).pulseEnd = some (x.edge x.k + x.width) ∧ (t.evo n).sched = some { x with k := x.k + 1 } ∧ t = { h with regs := t.regs, out := t.out, tm := t.tm }))
    ∧ (∀ (n : Fin 8) (x : EvoSched), (h.evo n).sched = some x → h.gated n = true → does (.evoEdge n) h (fun t => (t.evo n).on = (h.evo n).on ∧ t.get (R.TIME_EVO_SKIP n) = min (2 ^ (R.TIME_EVO_SKIP n).width - 1) (h.get (R.TIME_EVO_SKIP n) + 1) ∧ t = { h with regs := t.regs, out := t.out, tm := t.tm }))
    ∧ (∀ (n : Fin 8) (e : Nat), (h.evo n).pulseEnd = some e → does (.evoPulseEnd n) h (fun t => (t.evo n).on = false ∧ (t.evo n).pulseEnd = none ∧ (t.evo n).sched = (h.evo n).sched ∧ t.get (R.TIME_EVO_STATUS_ACTIVE n) = 0 ∧ t = { h with regs := t.regs, out := t.out, tm := t.tm }))

/-- The shared buffer (R155–R169): what each command does where its conditions hold. -/
def Obligations.FabricCommands : Prop :=
  ∀ (h : Hub), h.awake = true → 
    (h.on R.FAB_CTRL_SWEEP_EN = false → becomes .sweepPass h h)
    ∧ (h.on R.FAB_CTRL_SWEEP_EN = true → becomes .sweepPass h ((List.range 14).foldl (fun g o => (g.queueKeys o).foldl (fun k q => k.sweepQueue o q (k.queue o q).items.length) g) h))
    ∧ (∀ (o q k : Nat) (x : Desc) (xs : List Desc) (p : Packet), (h.queue o q).items = x :: xs → h.pkt? x.pid = some p → h.sweepQueue o q (k + 1) = (if !x.tested && h.expired (x.seen p) then (h.discardHead o q 1).sweepQueue o q k else h))
    ∧ (∀ (o : Fin 16) (q : BitVec 14), queueValid o q.toNat = true → becomes (.queueDump o q) h (((h.put R.FAB_QDUMP_QUEUE q.toNat).put R.FAB_QDUMP_OUTPUT o).emptyQueue o q.toNat 6))
    ∧ (∀ (o : Fin 16) (q : BitVec 14), queueValid o q.toNat = false → o.val < 14 → becomes (.queueDump o q) h ((h.put R.FAB_QDUMP_QUEUE q.toNat).put R.FAB_QDUMP_OUTPUT o))
    ∧ (∀ (tid : BitVec 14), h.on R.FAB_SPARGE_BUSY = false → does (.fabSpargeGo tid) h (fun t => t.fab.sparge = some ⟨tid.toNat, List.range 14, none⟩ ∧ t.on R.FAB_SPARGE_BUSY = true ∧ t.get R.FAB_SPARGE_TID = tid.toNat ∧ t = { h with regs := t.regs, fab := t.fab }))
    ∧ (∀ (tid : BitVec 14), h.on R.FAB_SPARGE_BUSY = true → does (.fabSpargeGo tid) h (fun t => t.on R.FAB_SPARGE_REFUSED = true ∧ t = { h with regs := t.regs }))
    ∧ (∀ (o : Fin 14), h.fab.sparge = none → h.ser = [] → becomes (.spargeBoundary o) h h)
    ∧ (∀ (o : Fin 14) (tid : Nat) (l : List Nat), h.fab.sparge = some ⟨tid, l, none⟩ → l.contains o.val = true → o.val ≠ 10 → becomes (.spargeBoundary o) h (((h.queueKeys o).foldl (fun g q => g.purge o q 7 (g.spargeHits tid)) h).onFab (fun f => { f with sparge := some ⟨tid, l.filter (· != o.val), none⟩ })))
    ∧ (∀ (o : Fin 14) (q : BitVec 14), queueValid o q.toNat = true → does (.queueReset o q) h (fun t => t.get R.FAB_QRESET_LAST_QUEUE = q.toNat ∧ t.get R.FAB_QRESET_LAST_OUTPUT = o.val ∧ t.get R.FAB_QRESET_LAST_VALID = 1 ∧ t = { h with regs := t.regs, mem := t.mem, out := t.out, links := t.links, err := t.err, fab := t.fab }))
    ∧ (h.on R.FAB_STATUS_REBUILD = false → becomes .freeListRebuild h ((h.put R.FAB_STATUS_REBUILD 1).logBy 10 0x19 sevCT 0 0 0 .rebuild))
    ∧ (h.on R.FAB_STATUS_REBUILD = true → does .freeListRebuildDone h (fun t => t.on R.FAB_STATUS_REBUILD = false ∧ t = { h with regs := t.regs, err := t.err }))
    ∧ (∀ (n : Fin 96) (v : Word), h.on (R.POL_CFG_EN n) = false → bit v.toNat 0 = true → does (.policerConfigWrite n 0 v) h (fun t => t.on (R.POL_CFG_EN n) = true ∧ (t.pol n).tokens = h.get (R.POL_BURST_BURST n) * 4000000 ∧ (t.pol n).last = h.now ∧ t = { h with regs := t.regs, fab := t.fab }))
    ∧ (∀ (n : Fin 96) (v : Word), does (.policerConfigWrite n 1 v) h (fun t => t.get (R.POL_RATE_RATE n) = v.toNat % 2 ^ (R.POL_RATE_RATE n).width ∧ (t.pol n).tokens = min (h.polCap n) (h.pol n |>.tokens |> (· + h.get (R.POL_RATE_RATE n) * (h.now - (h.pol n).last))) ∧ t = { h with regs := t.regs, fab := t.fab }))
    ∧ (∀ (n m : Fin 96) (reg : Fin 3) (v : Word), reg.val ≠ 0 → does (.policerConfigWrite n reg v) h (fun t => (t.pol n).tokens ≤ t.polCap n ∧ (t.pol n).pass = (h.pol n).pass ∧ (m ≠ n → t.pol m = h.pol m) ∧ t = { h with regs := t.regs, fab := t.fab }))

/-- The schedulers (R174–R189): what each command does where its conditions hold. -/
def Obligations.SchedulerCommands : Prop :=
  ∀ (h : Hub), h.awake = true → 
    (∀ (p : Port) (bad : Bool), h.inService p = false → (h.links.at p).wire = none → becomes (.schedulerSelect (Fin.ofNat 4 p.ix) bad) h (h.refill p.ix))
    ∧ (∀ (p : Port) (bad : Bool) (k : Hub) (step : Nat) (c : Cand) (d : Desc) (ds : List Desc), h.inService p = true → (h.links.at p).wire = none → (h.links.at p).rq = [] → k = h.refill p.ix → k.choose p.ix (k.candidates p.ix h.closedTunnels) = some (step, c) → (d.tested = true ∨ k.expired c.pkt = false) → (k.queue c.o c.q).items = d :: ds → k.spoiltAt d.pid = false → 0 < (h.fab.queues.map (fun e => e.2.items.length)).sum → becomes (.schedulerSelect (Fin.ofNat 4 p.ix) bad) h ((((k.moveTags p.ix c.o c.q c.pkt).charge p.ix step c.q c.pkt).readCells (k.cellsAt d.pid)).sendLink p c.q c.pkt d bad))
    ∧ (∀ (bad : Bool) (k : Hub) (step : Nat) (c : Cand) (d : Desc) (ds : List Desc), h.fab.wire = none → c.o ≠ 13 → k = h.refill 3 → k.choose 3 (k.candidates 3 h.closedTunnels) = some (step, c) → (d.tested = true ∨ k.expired c.pkt = false) → (k.queue c.o c.q).items = d :: ds → k.spoiltAt d.pid = false → 0 < (h.fab.queues.map (fun e => e.2.items.length)).sum → becomes (.schedulerSelect 3 bad) h ((((k.moveTags 3 c.o c.q c.pkt).charge 3 step c.q c.pkt).readCells (k.cellsAt d.pid)).sendLocal c.o c.q c.pkt d bad))
    ∧ (∀ (s : Fin 3), h.on (R.LNK_STATUS_TX_NARROW s) = true → 4096 < 2 * h.dres s + h.get R.SCH_PCAP_ACTIVE + 42 → becomes .epochStart h (h.bump R.SCH_OVERSUB))
    ∧ (((∀ s : Fin 3, h.on (R.LNK_STATUS_TX_NARROW s) = false)) → becomes .epochStart h h)
    ∧ (h.on R.SCH_STATUS_ARMED = true → becomes .schArm h ((h.put R.SCH_STATUS_RESULT 6).put R.SCH_STATUS_OVER_SCHED 0))
    ∧ (h.on R.SCH_STATUS_ARMED = false → (h.on R.TIME_STATUS_VALID = false ∨ h.get R.TIME_STATUS_QUALITY = 2) → becomes .schArm h ((h.put R.SCH_STATUS_RESULT 7).put R.SCH_STATUS_OVER_SCHED 0))
    ∧ (h.on R.SCH_STATUS_ARMED = false → h.on R.TIME_STATUS_VALID = true → h.get R.TIME_STATUS_QUALITY ≠ 2 → (h.get R.SCH_ARM_EPOCH = h.epoch ∨ 2 ^ 31 ≤ subMod (2 ^ 32) (h.get R.SCH_ARM_EPOCH) h.epoch) → becomes .schArm h ((h.put R.SCH_STATUS_RESULT 2).put R.SCH_STATUS_OVER_SCHED 0))
    ∧ (h.on R.SCH_STATUS_ARMED = false → h.on R.TIME_STATUS_VALID = true → h.get R.TIME_STATUS_QUALITY ≠ 2 → subMod (2 ^ 32) (h.get R.SCH_ARM_EPOCH) h.epoch = 1 → 62500 - h.now % 62500 < 1000 → becomes .schArm h ((h.put R.SCH_STATUS_RESULT 3).put R.SCH_STATUS_OVER_SCHED 0))
    ∧ (∀ (d : Nat) (s : Fin 3), d = subMod (2 ^ 32) (h.get R.SCH_ARM_EPOCH) h.epoch → h.on R.SCH_STATUS_ARMED = false → h.on R.TIME_STATUS_VALID = true → h.get R.TIME_STATUS_QUALITY ≠ 2 → 1 ≤ d → d < 2 ^ 31 → (d ≠ 1 ∨ 1000 ≤ 62500 - h.now % 62500) → hasDup (h.bankEntries s (1 - h.get R.SCH_STATUS_ACTIVE_BANK)) = true → becomes .schArm h ((h.put R.SCH_STATUS_RESULT 5).put R.SCH_STATUS_OVER_SCHED 0))
    ∧ (∀ (d : Nat) (s : Fin 4), d = subMod (2 ^ 32) (h.get R.SCH_ARM_EPOCH) h.epoch → h.on R.SCH_STATUS_ARMED = false → h.on R.TIME_STATUS_VALID = true → h.get R.TIME_STATUS_QUALITY ≠ 2 → 1 ≤ d → d < 2 ^ 31 → (d ≠ 1 ∨ 1000 ≤ 62500 - h.now % 62500) → ((∀ k : Fin 3, hasDup (h.bankEntries k (1 - h.get R.SCH_STATUS_ACTIVE_BANK)) = false)) → 4096 < h.swapLoad s + h.get R.SCH_PCAP_STAGED + 41 → ((∀ k : Fin 4, k < s → h.swapLoad k + h.get R.SCH_PCAP_STAGED + 41 ≤ 4096)) → becomes .schArm h ((h.put R.SCH_STATUS_RESULT 4).put R.SCH_STATUS_OVER_SCHED s))
    ∧ (∀ (s : Nat), h.armResult = (1, s) → does .schArm h (fun t => t.on R.SCH_STATUS_ARMED = true ∧ t.get R.SCH_STATUS_RESULT = 1 ∧ t.get R.SCH_STATUS_ACTIVE_BANK = h.get R.SCH_STATUS_ACTIVE_BANK ∧ t = { h with regs := t.regs }))
    ∧ (h.on R.SCH_STATUS_ARMED = true → does .schDisarm h (fun t => t.on R.SCH_STATUS_ARMED = false ∧ t.get R.SCH_STATUS_RESULT = 9 ∧ t = { h with regs := t.regs }))
    ∧ (h.on R.SCH_STATUS_ARMED = true → h.get R.SCH_ARM_EPOCH = h.epoch → h.on R.TIME_STATUS_VALID = true → h.get R.TIME_STATUS_QUALITY < 2 → does .grantSwap h (fun t => t.get R.SCH_STATUS_ACTIVE_BANK = 1 - h.get R.SCH_STATUS_ACTIVE_BANK ∧ t.get R.SCH_PCAP_ACTIVE = h.get R.SCH_PCAP_STAGED ∧ t.on R.SCH_STATUS_ARMED = false ∧ t.get R.SCH_STATUS_RESULT = 8 ∧ t = { h with regs := t.regs, out := t.out, links := t.links, err := t.err, sch := t.sch, tun := t.tun }))
    ∧ (h.on R.SCH_STATUS_ARMED = true → h.get R.SCH_ARM_EPOCH = h.epoch → (h.on R.TIME_STATUS_VALID = false ∨ h.get R.TIME_STATUS_QUALITY = 2) → h.err.handling = [] → h.pw.steep = false → does .grantSwap h (fun t => t.get R.SCH_STATUS_ACTIVE_BANK = h.get R.SCH_STATUS_ACTIVE_BANK ∧ t.get R.SCH_PCAP_ACTIVE = h.get R.SCH_PCAP_ACTIVE ∧ t.on R.SCH_STATUS_MISSED = true ∧ t.get R.SCH_STATUS_RESULT = 10 ∧ t.get R.SCH_MISSED_EPOCH = h.get R.SCH_ARM_EPOCH ∧ t.on R.SCH_STATUS_ARMED = false ∧ KMap.get? t.err.log h.nextSlot = some (h.mkRec 12 1 sevCT (h.get R.SCH_ARM_EPOCH) 0 0) ∧ t = { h with regs := t.regs, out := t.out, links := t.links, err := t.err, sch := t.sch, tun := t.tun }))
    ∧ ((h.on R.SCH_STATUS_ARMED = false ∨ 2 ^ 31 ≤ subMod (2 ^ 32) h.epoch (h.get R.SCH_ARM_EPOCH)) → becomes .grantSwap h h)
    ∧ (h.on R.SCH_STATUS_SETTLING = true → does .settleEnd h (fun t => t.on R.SCH_STATUS_SETTLING = false ∧ t.sch.settle = [] ∧ t = { h with regs := t.regs, sch := t.sch }))
    ∧ (does .qmonSample h (fun t => t.sch.samples = h.sch.samples + 1 ∧ t = { h with sch := t.sch }))
    ∧ (∀ (depth : Bool) (k : Nat), h.qmonKey = some k → does (.qmonMaxMeanRead depth false) h (fun t => (t.qmon depth).again = true ∧ t = { h with sch := t.sch }))
    ∧ (∀ (depth : Bool) (k : Nat), h.qmonKey = some k → does (.qmonMaxMeanRead depth true) h (fun t => (t.qmon depth).sum = 0 ∧ (t.qmon depth).base = h.sch.samples ∧ t = { h with sch := t.sch }))

/-- The access table (R395–R397) and bindings (R161, R203): what each command does where its conditions hold. -/
def Obligations.AccessAndBindingCommands : Prop :=
  ∀ (h : Hub), h.awake = true → 
    (does .accDisable h (fun t => t.on R.ACC_CTRL_EN = false ∧ t = { h with regs := t.regs } ∧ t.get R.ACC_CTRL_EN = 0))
    ∧ (h.on R.ACC_CTRL_EN = false → does .accEnable h (fun t => t.on R.ACC_CTRL_EN = true ∧ t.on R.ACC_STATUS_HOLDING = false ∧ t.acc.hashDue = true ∧ t.acc.held = h.acc.held ∧ t = { h with regs := t.regs, acc := t.acc }))
    ∧ (h.acc.hashDue = true → becomes .accHashReady h ({ (h.wrBytes (A.ACC_HASH 0) (sha384 h.tableBytes)).put R.ACC_STATUS_HASH_VALID 1 with acc := { h.acc with hashDue := false } }))
    ∧ (h.acc.hashDue = false → becomes .accHashReady h h)
    ∧ (∀ (i : Fin 128) (v : Word), i.val < 32 → h.on R.ACC_CTRL_EN = false → bit (h.rd (A.ACC_SLOT i)).toNat 31 = false → does (.accEntryWrite i v) h (fun t => t.rd (A.ACC_SLOT i) = v &&& 0xC007FFFF#32 ∧ t.on R.ACC_STATUS_HASH_VALID = false ∧ t.acc.hashDue = false ∧ t = { h with regs := t.regs, acc := t.acc }))
    ∧ (∀ (i : Fin 128) (v : Word), 32 ≤ i.val → i.val < 64 → becomes (.accEntryWrite i v) h h)
    ∧ (∀ (i : Fin 128) (v : Word), i.val < 32 → (h.on R.ACC_CTRL_EN = true ∨ bit (h.rd (A.ACC_SLOT i)).toNat 31 = true) → becomes (.accEntryWrite i v) h (h.put R.ACC_STATUS_BAD_WRITE 1))
    ∧ (∀ (i : Fin 128) (v : Word), 64 ≤ i.val → i.val % 2 = 0 → h.on R.ACC_CTRL_EN = false → bit (h.rd (A.ACC_REG_PERM ((i.val - 64) / 2))).toNat 31 = false → regionLegal v.toNat = false → becomes (.accEntryWrite i v) h (h.put R.ACC_STATUS_BAD_WRITE 1))
    ∧ (∀ (i : Fin 128) (v : Word), 64 ≤ i.val → i.val % 2 = 0 → h.on R.ACC_CTRL_EN = false → bit (h.rd (A.ACC_REG_PERM ((i.val - 64) / 2))).toNat 31 = false → regionLegal v.toNat = true → does (.accEntryWrite i v) h (fun t => t.rd (A.ACC_REG_BASE ((i.val - 64) / 2)) = v &&& 0xFFFFF01F#32 ∧ t.on R.ACC_STATUS_HASH_VALID = false ∧ t = { h with regs := t.regs, acc := t.acc }))
    ∧ (h.on R.ACC_CTRL_EN = false → becomes .accLongHold h ((h.put R.ACC_STATUS_LONG_HOLD 1).log 4 2 sevCT (h.rd A.ACC_DENY_INFO).toNat (h.rd A.ACC_DENY_ADDR).toNat 0))
    ∧ (∀ (n : Fin 96) (b : BitVec 18), n.val ≠ 0 → bindReserved b.toNat = false → h.on (R.TUNC_BOUND_PENDING n) = false → h.ctxState n = cxEmpty → bindPermitted b.toNat = true → h.instanceTaken n b.toNat = false → h.fab.sparge = none → does (.bindRequest n b) h (fun t => t.get (R.TUNC_BOUND_RESULT n) = 1 ∧ t.on (R.TUNC_BOUND_PENDING n) = true ∧ t.binding n = h.binding n ∧ t.fab.sparge = some ⟨h.spargeTid n, List.range 14, some ⟨n, b.toNat, h.localOut n, false⟩⟩ ∧ t = { h with regs := t.regs, fab := t.fab }))
    ∧ (∀ (n : Fin 96) (b : BitVec 18), (n.val = 0 ∨ bindReserved b.toNat = true ∨ h.on (R.TUNC_BOUND_PENDING n) = true ∨ h.ctxState n ≠ cxEmpty ∨ bindPermitted b.toNat = false ∨ h.instanceTaken n b.toNat = true) → does (.bindRequest n b) h (fun t => t.get (R.TUNC_BOUND_RESULT n) = (h.bindFields n b.toNat).bindResult n b.toNat ∧ 2 ≤ t.get (R.TUNC_BOUND_RESULT n) ∧ t.binding n = h.binding n ∧ t = { h with regs := t.regs }))
    ∧ (∀ (n : Fin 96) (b : Nat) (i : Nat) (old : Option Nat) (sw : Bool), h.fab.sparge = some ⟨i, [], some ⟨n, b, old, sw⟩⟩ → h.fab.spargeWait = [] → b < 2 ^ 18 → does .spargeComplete h (fun t => t.fab.sparge = none ∧ t.on R.FAB_SPARGE_BUSY = false ∧ t.bindingShown n = b ∧ t.binding n = b ∧ t.on (R.TUNC_BOUND_PENDING n) = false ∧ t.fab.pkts = h.fab.pkts ∧ t = { h with regs := t.regs, rt := t.rt, fab := t.fab }))
    ∧ (∀ (n : Fin 96) (b i o : Nat) (l : List Nat), h.fab.sparge = some ⟨i, l, some ⟨n, b, some o, false⟩⟩ → o < 14 → o ≠ 10 → l.contains o = true → does (.spargeBoundary (Fin.ofNat 14 o)) h (fun t => t.fab.sparge = some ⟨i, l.filter (· != o), some ⟨n, b, some o, true⟩⟩ ∧ t.binding n = b ∧ t.bindingShown n = h.bindingShown n ∧ KMap.get? t.fab.late n = some o))
    ∧ (h.fab.sparge = none → becomes .spargeComplete h h)

/-- Contexts and takeover (R199–R202, R215–R221): what each command does where its conditions hold. -/
def Obligations.ContextCommands : Prop :=
  ∀ (h : Hub), h.awake = true → 
    (∀ (n : Fin 96), h.ctxState n = cxRunning → h.get R.TUNC_WDOG_LIMIT ≠ 0 → does (.watchdogExpire n) h (fun t => t.ctxState n = cxTrapped ∧ t.get (R.TUNC_CTX_STATUS_CAUSE n) = 0xA ∧ t.on (R.TUNC_CTX_STATUS_TRAPPED_FLAG n) = true ∧ t.rd (A.TUNC_CTX_PC n) = W ((h.ctx n).pc % 8192) ∧ t.rd (A.TUNC_CTX_ADDR n) = 0 ∧ (t.ctx n).held = [] ∧ (t.ctx n).pc = (h.ctx n).pc ∧ ((t.ctx n).restart = true ↔ (h.ctx n).restart = true ∨ (h.get (R.TUNC_CTX_CFG_TRAP_ACTION n) = 2 ∧ h.get (R.TUNC_CTX_STATUS_RESTARTS n) < h.get (R.TUNC_CTX_CFG_RESTART_MAX n))) ∧ ((t.ctx n).discard = true ↔ (h.ctx n).discard = true ∨ (h.get (R.TUNC_CTX_CFG_TRAP_ACTION n) ≠ 0 ∧ ¬ (h.get (R.TUNC_CTX_CFG_TRAP_ACTION n) = 2 ∧ h.get (R.TUNC_CTX_STATUS_RESTARTS n) < h.get (R.TUNC_CTX_CFG_RESTART_MAX n)))) ∧ (∀ m : Fin 96, m ≠ n → t.ctxState m = h.ctxState m ∧ t.ctx m = h.ctx m) ∧ t.get R.ERR_SEQ_NEWEST = (h.get R.ERR_SEQ_NEWEST + 1) % 65536 ∧ t = { h with regs := t.regs, mem := t.mem, links := t.links, err := t.err, fab := t.fab, tun := t.tun }))
    ∧ (∀ (n : Fin 96), (h.get R.TUNC_WDOG_LIMIT = 0 ∨ h.ctxState n ≠ cxRunning) → becomes (.watchdogExpire n) h h)
    ∧ (∀ (n : Fin 96), h.ctxState n = cxTrapped → (h.ctx n).restart = true → does (.contextRestart n) h (fun t => t.ctxState n = cxRunning ∧ t.get (R.TUNC_CTX_STATUS_RESTARTS n) = min (2 ^ (R.TUNC_CTX_STATUS_RESTARTS n).width - 1) (h.get (R.TUNC_CTX_STATUS_RESTARTS n) + 1) ∧ (t.ctx n).pc = h.get (R.TUNC_CTX_CODE_BASE n) + (h.ctx n).entry ∧ (t.ctx n).restartCause = (h.ctx n).restartCause ∧ t.gpr n 1 = W (h.ownTid n) ∧ t.gpr n 2 = W (h.get (R.TUNC_CTX_DATA_BASE n) * 64) ∧ t.gpr n 3 = W (h.get (R.TUNC_CTX_DATA_SIZE n) * 64) ∧ (∀ r : Fin 32, r.val = 0 ∨ 3 < r.val → t.gpr n r = 0) ∧  (t.ctx n).restart = false ∧ (t.ctx n).events = 0 ∧ (t.ctx n).held = [] ∧  (h.fab.sparge = none → t.fab.sparge = some ⟨h.spargeTid n, List.range 14, none⟩) ∧ t = { h with regs := t.regs, err := t.err, fab := t.fab, tun := t.tun }))
    ∧ (∀ (n : Fin 96), ((h.ctx n).restart = false ∨ h.ctxState n ≠ cxTrapped) → becomes (.contextRestart n) h h)
    ∧ (∀ (n : Fin 96), h.ctxState n = cxHalted → (h.ctx n).held = [] → does (.contextStop (BitVec.ofNat 7 n)) h (fun t => t.ctxState n = cxEmpty ∧ t.get R.TUNC_STOP_TUNNEL = n.val ∧ t.codeWin n = (0, 0) ∧ t.dataWin n = (0, 0) ∧ t.on (R.TUNC_MEAS_INFO_VALID n) = false ∧ t = { h with regs := t.regs, links := t.links, err := t.err, tun := t.tun }))
    ∧ (∀ (n : Fin 96), (h.ctxState n = cxRunning ∨ h.ctxState n = cxWaiting ∨ h.ctxState n = cxTrapped) → does (.contextStop (BitVec.ofNat 7 n)) h (fun t => t.ctxState n = cxEmpty ∧ (t.ctx n).held = [] ∧ t.codeWin n = (0, 0) ∧ t.dataWin n = (0, 0) ∧ t.on (R.TUNC_MEAS_INFO_VALID n) = false ∧ t = { h with regs := t.regs, mem := t.mem, links := t.links, err := t.err, fab := t.fab, tun := t.tun }))
    ∧ (∀ (n : BitVec 7), n.toNat < 96 → (h.ctxState n.toNat = cxEmpty ∨ h.ctxState n.toNat = cxLoading) → becomes (.contextStop n) h (h.put R.TUNC_STOP_TUNNEL n.toNat))
    ∧ (∀ (n : BitVec 7), 96 ≤ n.toNat → becomes (.contextStop n) h (h.put R.TUNC_STOP_TUNNEL n.toNat))
    ∧ (∀ (n : Fin 96), h.ctxState n = cxMoving → does (.contextStop (BitVec.ofNat 7 n)) h (fun t => t.ctx n = { h.ctx n with stopLater := true } ∧ t.ctxState n = cxMoving ∧ t.get R.TUNC_STOP_TUNNEL = n.val ∧ onlyRegs { h with tun := t.tun } t [A.TUNC_STOP]))
    ∧ (∀ (n : BitVec 7), n.toNat < 96 → h.ctxState n.toNat ≠ cxMoving → does (.doorbell n) h (fun t => bit (t.ctx n.toNat).events evMail = true ∧ (∀ e : Fin 32, e.val ≠ evMail → bit (t.ctx n.toNat).events e = bit (h.ctx n.toNat).events e) ∧ t.ctxState n.toNat = h.ctxState n.toNat ∧ t = { h with tun := t.tun }))
    ∧ (∀ (n : BitVec 7), n.toNat < 96 → h.ctxState n.toNat = cxMoving → does (.doorbell n) h (fun t => (t.ctx n.toNat).mailLater = true ∧ (t.ctx n.toNat).events = (h.ctx n.toNat).events ∧ t = { h with tun := t.tun }))
    ∧ (∀ (n : BitVec 7), 96 ≤ n.toNat → becomes (.doorbell n) h h)
    ∧ (∀ (t : Fin 9), t.val < 8 → bit (h.get R.TUNC_STATUS_FAILED) t = false → h.canTakeOver = true → does (.tunCheckerMismatch t) h (fun u => u.get R.TUNC_STATUS_SPARE = 1 ∧ u.get R.TUNC_STATUS_SERVED = t.val ∧ u.get R.TUNC_STATUS_MOVING = 1 ∧ bit (u.get R.TUNC_STATUS_FAILED) t = true ∧ u.tun.moving = some t.val ∧ (∀ k : Fin 96, if k.val / 12 ≠ t.val then u.ctxState k = h.ctxState k ∧ u.ctx k = h.ctx k else if h.ctxState k = cxLoading then u.ctxState k = cxLoading else u.ctxState k = cxMoving ∧ (u.ctx k).was = h.ctxState k ∧ (u.ctx k).pc = (h.ctx k).pc ∧ (u.ctx k).g = (h.ctx k).g ∧ (u.ctx k).events = (h.ctx k).events ∧ (u.ctx k).held = (h.ctx k).held) ∧ u.get R.ERR_SEQ_NEWEST = (h.get R.ERR_SEQ_NEWEST + 1) % 65536 ∧ u = { h with regs := u.regs, err := u.err, tun := u.tun }))
    ∧ (∀ (t : Fin 9), t.val < 8 → bit (h.get R.TUNC_STATUS_FAILED) t = false → h.canTakeOver = false → h.tun.moving ≠ some t.val → does (.tunCheckerMismatch t) h (fun u => h.failedTo t u))
    ∧ (∀ (t : Fin 9), t.val < 8 → bit (h.get R.TUNC_STATUS_FAILED) t = true → becomes (.tunCheckerMismatch t) h h)
    ∧ (h.get R.TUNC_STATUS_SPARE = 0 → does (.tunCheckerMismatch 8) h (fun u => u.get R.TUNC_STATUS_SPARE = 2 ∧ bit (u.get R.TUNC_STATUS_FAILED) 8 = true ∧ u.get R.ERR_SEQ_NEWEST = (h.get R.ERR_SEQ_NEWEST + 1) % 65536 ∧ u = { h with regs := u.regs, err := u.err }))
    ∧ (∀ (t : Fin 8) (n : Fin 96), h.get R.TUNC_STATUS_SPARE = 1 → h.get R.TUNC_STATUS_SERVED = t.val → h.tun.moving ≠ some t.val → n.val / 12 = t.val → h.ctxState n = cxRunning → does (.tunCheckerMismatch 8) h (fun u => u.get R.TUNC_STATUS_SPARE = 2 ∧ bit (u.get R.TUNC_STATUS_FAILED) 8 = true ∧ u.ctxState n = cxTrapped ∧ u.get (R.TUNC_CTX_STATUS_CAUSE n) = 0xB ∧ (u.ctx n).restart = false ∧ u = { h with regs := u.regs, mem := u.mem, links := u.links, err := u.err, fab := u.fab, tun := u.tun }))
    ∧ (∀ (t : Fin 8) (n : Fin 96), h.get R.TUNC_STATUS_SPARE = 1 → h.get R.TUNC_STATUS_SERVED = t.val → h.tun.moving = some t.val → n.val / 12 = t.val → h.ctxState n = cxMoving → ((h.ctx n).was = cxRunning ∨ (h.ctx n).was = cxWaiting) → (h.ctx n).stopLater = false → h.acc.held = [] → does (.tunCheckerMismatch 8) h (fun u => u.get R.TUNC_STATUS_SPARE = 2 ∧ u.get R.TUNC_STATUS_MOVING = 0 ∧ u.tun.moving = none ∧ u.ctxState n = cxTrapped ∧ u.get (R.TUNC_CTX_STATUS_CAUSE n) = 0xB))
    ∧ (∀ (t : BitVec 4), t.toNat < 8 → h.canTakeOver = true → does (.tuncForce t) h (fun u => u.get R.TUNC_FORCE_TUN = t.toNat ∧ u.get R.TUNC_STATUS_SPARE = 1 ∧ u.get R.TUNC_STATUS_SERVED = t.toNat ∧ u.get R.TUNC_STATUS_MOVING = 1 ∧ bit (u.get R.TUNC_STATUS_FAILED) t.toNat = true ∧ u.tun.moving = some t.toNat ∧ (∀ k : Fin 96, if k.val / 12 ≠ t.toNat then u.ctxState k = h.ctxState k ∧ u.ctx k = h.ctx k else if h.ctxState k = cxLoading then u.ctxState k = cxLoading else u.ctxState k = cxMoving ∧ (u.ctx k).was = h.ctxState k) ∧ u.get R.ERR_SEQ_NEWEST = (h.get R.ERR_SEQ_NEWEST + 1) % 65536 ∧ u = { h with regs := u.regs, err := u.err, tun := u.tun }))
    ∧ (∀ (t : BitVec 4), (8 ≤ t.toNat ∨ h.canTakeOver = false) → becomes (.tuncForce t) h (h.put R.TUNC_FORCE_TUN t.toNat))
    ∧ (∀ (t : Fin 8), h.canTakeOver = false → bit (h.get R.TUNC_STATUS_FAILED) t = false → h.tun.moving ≠ some t.val → does (.tunFailedNoSpare t) h (fun u => h.failedTo t u))
    ∧ (∀ (t : Fin 8), (h.canTakeOver = true ∨ bit (h.get R.TUNC_STATUS_FAILED) t = true) → becomes (.tunFailedNoSpare t) h h)
    ∧ (∀ (t : Fin 8) (n : Fin 96), h.tun.moving = some t.val → n.val / 12 = t.val → h.ctxState n = cxMoving → (h.ctx n).stopLater = false → (h.ctx n).mailLater = false → (h.ctx n).was ≠ cxMoving → (h.ctx n).was < 8 → does .takeoverComplete h (fun u => u.tun.moving = none ∧ u.get R.TUNC_STATUS_MOVING = 0 ∧ u.ctxState n = (h.ctx n).was ∧ (u.ctx n).pc = (h.ctx n).pc ∧ (u.ctx n).g = (h.ctx n).g ∧ (u.ctx n).events = (h.ctx n).events ∧ u = { h with regs := u.regs, mem := u.mem, links := u.links, err := u.err, fab := u.fab, tun := u.tun, acc := u.acc }))
    ∧ (∀ (t : Fin 8) (n : Fin 96), h.tun.moving = some t.val → n.val / 12 = t.val → h.ctxState n = cxMoving → (h.ctx n).stopLater = true → (h.ctx n).was ≠ cxMoving → (h.ctx n).was ≠ cxLoading → (h.ctx n).was < 8 → does .takeoverComplete h (fun u => u.tun.moving = none ∧ u.ctxState n = cxEmpty))
    ∧ (∀ (t : Fin 8) (n : Fin 96), h.tun.moving = some t.val → n.val / 12 = t.val → h.ctxState n = cxMoving → (h.ctx n).stopLater = false → (h.ctx n).mailLater = true → (h.ctx n).was = cxRunning → does .takeoverComplete h (fun u => u.tun.moving = none ∧ u.ctxState n = cxRunning ∧ bit (u.ctx n).events evMail = true))
    ∧ (∀ (t : Fin 8) (k : Fin 0x10000), h.tun.moving = some t.val → h.acc.held = [] → h.tun.left = [] → does .takeoverComplete h (fun u => u.mrd (dataBase 8 + k) = h.mrd (dataBase t + k) ∧ u.mrd (dataBase t + k) = h.mrd (dataBase t + k) ∧ (k.val < 0x8000 → u.mrd (progBase 8 + k) = h.mrd (progBase t + k) ∧ u.mrd (progBase t + k) = h.mrd (progBase t + k))))
    ∧ (h.tun.moving = none → becomes .takeoverComplete h h)
    ∧ (∀ (n : Fin 96), (h.trap n 0xA 5 0).ctxState n = cxTrapped ∧ (h.trap n 0xA 5 0).get (R.TUNC_CTX_STATUS_CAUSE n) = 0xA ∧ (h.trap n 0xA 5 0).on (R.TUNC_CTX_STATUS_TRAPPED_FLAG n) = true ∧ (h.trap n 0xA 5 0).rd (A.TUNC_CTX_PC n) = 5 ∧ ((h.trap n 0xA 5 0).ctx n).held = [] ∧ (h.trap n 0xA 5 0).mem = h.mem)

/-- Pitching (R207, R209, R210): what PITCH and PITCH_COMPLETE do where their conditions hold. -/
def Obligations.PitchCommands : Prop :=
  ∀ (h : Hub) (n : BitVec 7) (share : Bool), h.awake = true → 
    (h.on R.TUNC_PITCH_STATUS_BUSY = true → does (.pitch n share) h (fun t => t.get R.TUNC_PITCH_STATUS_RESULT = 2 ∧ onlyRegs h t [A.TUNC_PITCH_CTRL, A.TUNC_PITCH_STATUS]))
    ∧ (h.on R.TUNC_PITCH_STATUS_BUSY = false → (h.lifecycle = 3 ∨ h.lifecycle = 4) → does (.pitch n share) h (fun t => t.get R.TUNC_PITCH_STATUS_RESULT = 6 ∧ t.get R.TUNC_PITCH_STATUS_TUNNEL = n.toNat ∧ onlyRegs h t [A.TUNC_PITCH_CTRL, A.TUNC_PITCH_STATUS]))
    ∧ (h.on R.TUNC_PITCH_STATUS_BUSY = false → h.lifecycle ≠ 3 → h.lifecycle ≠ 4 → (96 ≤ n.toNat ∨ (bit (h.get R.TUNC_STATUS_FAILED) (n.toNat / 12) = true ∧ (h.get R.TUNC_STATUS_SERVED ≠ n.toNat / 12 ∨ bit (h.get R.TUNC_STATUS_FAILED) 8 = true))) → does (.pitch n share) h (fun t => t.get R.TUNC_PITCH_STATUS_RESULT = 0xF ∧ t.get R.TUNC_PITCH_STATUS_TUNNEL = n.toNat ∧ onlyRegs h t [A.TUNC_PITCH_CTRL, A.TUNC_PITCH_STATUS]))
    ∧ (h.on R.TUNC_PITCH_STATUS_BUSY = false → h.lifecycle ≠ 3 → h.lifecycle ≠ 4 → n.toNat < 96 → h.tunServed (n.toNat / 12) = true → (h.ctxState n.toNat = cxLoading ∨ h.ctxState n.toNat = cxRunning ∨ h.ctxState n.toNat = cxWaiting ∨ h.ctxState n.toNat = cxMoving) → does (.pitch n share) h (fun t => t.get R.TUNC_PITCH_STATUS_RESULT = 8 ∧ t.get R.TUNC_PITCH_STATUS_TUNNEL = n.toNat ∧ onlyRegs h t [A.TUNC_PITCH_CTRL, A.TUNC_PITCH_STATUS]))
    ∧ (h.on R.TUNC_PITCH_STATUS_BUSY = false → h.lifecycle ≠ 3 → h.lifecycle ≠ 4 → n.toNat < 96 → h.tunServed (n.toNat / 12) = true → (h.ctxState n.toNat = cxEmpty ∨ h.ctxState n.toNat = cxHalted ∨ h.ctxState n.toNat = cxTrapped) → (h.rd A.TUNC_PITCH_SRC).toNat % 64 ≠ 0 → does (.pitch n share) h (fun t => t.get R.TUNC_PITCH_STATUS_RESULT = 0xC ∧ onlyRegs h t [A.TUNC_PITCH_CTRL, A.TUNC_PITCH_STATUS]))
    ∧ (∀ (src code data r : Nat), h.on R.TUNC_PITCH_STATUS_BUSY = false → h.pitchPre n.toNat = none → src = (h.rd A.TUNC_PITCH_SRC).toNat → code = h.get R.TUNC_PITCH_BASE_CODE_BASE → data = h.get R.TUNC_PITCH_BASE_DATA_BASE → h.sourceOk src (max 160 (h.imageHead src).total) = (h, some true) → h.pitchChecks n.toNat share src code data false = some r → r < 16 → does (.pitch n share) h (fun t => t.get R.TUNC_PITCH_STATUS_RESULT = r ∧ t.get R.TUNC_PITCH_STATUS_TUNNEL = n.toNat ∧ onlyRegs h t [A.TUNC_PITCH_CTRL, A.TUNC_PITCH_STATUS]))
    ∧ (∀ (src code data : Nat) (cold : Bool), (h.imageHead src).wellFormed = false → h.pitchChecks n.toNat share src code data cold = some 3)
    ∧ (∀ (src code data : Nat) (cold : Bool) (x : ImageHead), x = h.imageHead src → x.wellFormed = true → (h.rd A.DEV_BEHAVIOUR).toNat < x.behaviour → h.pitchChecks n.toNat share src code data cold = some 0xD)
    ∧ (∀ (src code data : Nat) (cold : Bool) (x : ImageHead) (b : Nat), x = h.imageHead src → b = h.bindingShown n.toNat → x.wellFormed = true → x.behaviour ≤ (h.rd A.DEV_BEHAVIOUR).toNat → (cold = false ∨ bit x.flags 0 = true) → (slice b 0 2 ≠ 2 ∨ (x.endpoint ≠ 0xFF ∧ x.endpoint ≠ slice b 4 6) ∨ bit x.classes (slice b 2 2) = false) → h.pitchChecks n.toNat share src code data cold = some 7)
    ∧ (∀ (src code data : Nat) (x : ImageHead) (b : Nat), x = h.imageHead src → b = h.bindingShown n.toNat → x.wellFormed = true → x.behaviour ≤ (h.rd A.DEV_BEHAVIOUR).toNat → slice b 0 2 = 2 → (x.endpoint = 0xFF ∨ x.endpoint = slice b 4 6) → bit x.classes (slice b 2 2) = true → (8192 < code + x.codeBytes / 4 ∨ 65536 < data * 64 + x.dataBytes) → h.pitchChecks n.toNat share src code data false = some 0xA)
    ∧ (∀ (src code data : Nat) (x : ImageHead) (b : Nat), x = h.imageHead src → b = h.bindingShown n.toNat → x.wellFormed = true → x.behaviour ≤ (h.rd A.DEV_BEHAVIOUR).toNat → slice b 0 2 = 2 → (x.endpoint = 0xFF ∨ x.endpoint = slice b 4 6) → bit x.classes (slice b 2 2) = true → code + x.codeBytes / 4 ≤ 8192 → data * 64 + x.dataBytes ≤ 65536 → ((share = false ∧ (h.peers n.toNat).any (fun m => overlap code (x.codeBytes / 4) (h.codeWin m).1 (h.codeWin m).2) = true) ∨ (h.peers n.toNat).any (fun m => overlap data (x.dataBytes / 64) (h.dataWin m).1 (h.dataWin m).2) = true) → h.pitchChecks n.toNat share src code data false = some 9)
    ∧ (∀ (src code data : Nat) (x : ImageHead) (b : Nat), x = h.imageHead src → b = h.bindingShown n.toNat → share = true → x.wellFormed = true → x.behaviour ≤ (h.rd A.DEV_BEHAVIOUR).toNat → slice b 0 2 = 2 → (x.endpoint = 0xFF ∨ x.endpoint = slice b 4 6) → bit x.classes (slice b 2 2) = true → code + x.codeBytes / 4 ≤ 8192 → data * 64 + x.dataBytes ≤ 65536 → (h.peers n.toNat).any (fun m => overlap data (x.dataBytes / 64) (h.dataWin m).1 (h.dataWin m).2) = false → (h.peers n.toNat).any (fun m => h.codeWin m == (code, x.codeBytes / 4) && (h.ctx m).shareable && h.on (R.TUNC_MEAS_INFO_VALID m)) = false → h.pitchChecks n.toNat share src code data false = some 0xB)
    ∧ (∀ (src code data : Nat) (x : ImageHead) (b : Nat), x = h.imageHead src → b = h.bindingShown n.toNat → share = false → h.lifecycle = 2 → bit (h.get R.SEC_STATUS_PKEYS) x.key = false → x.wellFormed = true → x.behaviour ≤ (h.rd A.DEV_BEHAVIOUR).toNat → slice b 0 2 = 2 → (x.endpoint = 0xFF ∨ x.endpoint = slice b 4 6) → bit x.classes (slice b 2 2) = true → code + x.codeBytes / 4 ≤ 8192 → data * 64 + x.dataBytes ≤ 65536 → (h.peers n.toNat).any (fun m => overlap data (x.dataBytes / 64) (h.dataWin m).1 (h.dataWin m).2) = false → (h.peers n.toNat).any (fun m => overlap code (x.codeBytes / 4) (h.codeWin m).1 (h.codeWin m).2) = false → h.pitchChecks n.toNat share src code data false = some 5)
    ∧ (∀ (src code data : Nat), h.on R.TUNC_PITCH_STATUS_BUSY = false → h.pitchPre n.toNat = none → src = (h.rd A.TUNC_PITCH_SRC).toNat → code = h.get R.TUNC_PITCH_BASE_CODE_BASE → data = h.get R.TUNC_PITCH_BASE_DATA_BASE → h.sourceOk src (max 160 (h.imageHead src).total) = (h, some true) → h.pitchChecks n.toNat share src code data false = none → becomes (.pitch n share) h (((h.put R.TUNC_PITCH_CTRL_TUNNEL n.toNat).put R.TUNC_PITCH_CTRL_MODE (b2n share)).pitchStart n.toNat share src code data none))
    ∧ (∀ (x : Pitching), h.tun.pitch = some x → x.signed = false → h.tun.moving ≠ some (x.tunnel / 12) → x.tunnel < 96 → h.tunServed (x.tunnel / 12) = true → x.cold = none → does .pitchComplete h (fun t => t.ctxState x.tunnel = cxRunning ∧ t.get R.TUNC_PITCH_STATUS_RESULT = 1 ∧ t.on R.TUNC_PITCH_STATUS_BUSY = false ∧ t.tun.pitch = none ∧ (t.ctx x.tunnel).pc = h.get (R.TUNC_CTX_CODE_BASE x.tunnel) + x.entry ∧ t.on (R.TUNC_MEAS_INFO_VALID x.tunnel) = true ∧ t = { h with regs := t.regs, mem := t.mem, err := t.err, fab := t.fab, tun := t.tun, acc := t.acc }))
    ∧ (∀ (x : Pitching), h.tun.pitch = some x → x.signed = true → h.imageSigned x.src (h.imageHead x.src) = false → h.acc.held = [] → h.tun.moving ≠ some (x.tunnel / 12) → x.tunnel < 96 → x.cold = none → does .pitchComplete h (fun t => t.ctxState x.tunnel = cxEmpty ∧ t.get R.TUNC_PITCH_STATUS_RESULT = 4 ∧ t.on R.TUNC_PITCH_STATUS_BUSY = false ∧ t.tun.pitch = none ∧ (∀ k < x.codeBytes, t.mrd (progBase (x.tunnel / 12) + 4 * x.codeBase + k) = 0#8) ∧ (∀ k < x.dataBytes, t.mrd (dataBase (x.tunnel / 12) + 64 * x.dataBase + k) = 0#8)))
    ∧ (h.tun.pitch = none → becomes .pitchComplete h h)

/-- The ALU register operations (R234–R236), each with its whole effect. -/
def Obligations.AluInstructions : Prop :=
  ∀ (h : Hub) (n : Fin 96) (gd ga gb : Fin 16) (f : Bool) (a b : Word), h.canIssue n = true → h.inCode n ((h.ctx n).pc + 1) = true → a = h.gpr n ga → b = h.gpr n gb → 
    (runs n (.add n gd ga gb f) h (h.retired n (((h.ctx n).setGpr gd (a + b)).flagged f (addFlags a b false))))
    ∧ (runs n (.sub n gd ga gb f) h (h.retired n (((h.ctx n).setGpr gd (a - b)).flagged f (addFlags a (~~~b) true))))
    ∧ (runs n (.adc n gd ga gb f) h (h.retired n (((h.ctx n).setGpr gd (a + b + (if (h.ctx n).c then 1#32 else 0#32))).flagged f (addFlags a b (h.ctx n).c))))
    ∧ (runs n (.sbc n gd ga gb f) h (h.retired n (((h.ctx n).setGpr gd (a - b - 1#32 + (if (h.ctx n).c then 1#32 else 0#32))).flagged f (addFlags a (~~~b) (h.ctx n).c))))
    ∧ (runs n (.and n gd ga gb f) h (h.retired n ((h.ctx n).logical gd (a &&& b) f)))
    ∧ (runs n (.or n gd ga gb f) h (h.retired n ((h.ctx n).logical gd (a ||| b) f)))
    ∧ (runs n (.xor n gd ga gb f) h (h.retired n ((h.ctx n).logical gd (a ^^^ b) f)))
    ∧ (runs n (.andn n gd ga gb f) h (h.retired n ((h.ctx n).logical gd (a &&& ~~~b) f)))
    ∧ (runs n (.shl n gd ga gb f) h (h.retired n ((h.ctx n).shifted gd (a <<< (b.toNat % 32)) f (b.toNat % 32) (a.getLsbD (32 - b.toNat % 32)))))
    ∧ (runs n (.shr n gd ga gb f) h (h.retired n ((h.ctx n).shifted gd (a >>> (b.toNat % 32)) f (b.toNat % 32) (a.getLsbD (b.toNat % 32 - 1)))))
    ∧ (runs n (.sar n gd ga gb f) h (h.retired n ((h.ctx n).shifted gd (a.sshiftRight (b.toNat % 32)) f (b.toNat % 32) (a.getLsbD (b.toNat % 32 - 1)))))
    ∧ (runs n (.ror n gd ga gb f) h (h.retired n ((h.ctx n).shifted gd (a.rotateRight (b.toNat % 32)) f (b.toNat % 32) (a.rotateRight (b.toNat % 32)).msb)))
    ∧ (runs n (.mul n gd ga gb f) h (h.retired n ((h.ctx n).logical gd (a * b) f)))
    ∧ (runs n (.mulhu n gd ga gb f) h (h.retired n ((h.ctx n).logical gd ((a.zeroExtend 64 * b.zeroExtend 64).extractLsb' 32 32) f)))
    ∧ (runs n (.mulhs n gd ga gb f) h (h.retired n ((h.ctx n).logical gd ((a.signExtend 64 * b.signExtend 64).extractLsb' 32 32) f)))
    ∧ (runs n (.minu n gd ga gb f) h (h.retired n ((h.ctx n).logical gd (if a.ule b then a else b) f)))
    ∧ (runs n (.maxu n gd ga gb f) h (h.retired n ((h.ctx n).logical gd (if a.ule b then b else a) f)))
    ∧ (runs n (.mins n gd ga gb f) h (h.retired n ((h.ctx n).logical gd (if a.sle b then a else b) f)))
    ∧ (runs n (.maxs n gd ga gb f) h (h.retired n ((h.ctx n).logical gd (if a.sle b then b else a) f)))
    ∧ (runs n (.clz n gd ga f) h (h.retired n ((h.ctx n).logical gd (BitVec.ofNat 32 (leadingZeros 32 a.toNat)) f)))
    ∧ (runs n (.popc n gd ga f) h (h.retired n ((h.ctx n).logical gd (BitVec.ofNat 32 (ones 32 a.toNat)) f)))
    ∧ (runs n (.bswap n gd ga f) h (h.retired n ((h.ctx n).logical gd (a.extractLsb' 0 8 ++ a.extractLsb' 8 8 ++ a.extractLsb' 16 8 ++ a.extractLsb' 24 8) f)))

/-- Immediate operations, compare and test (R237–R240), each with its whole effect, and the comparisons of R227 after CMP. -/
def Obligations.ImmediateAndCompareInstructions : Prop :=
  ∀ (h : Hub) (n : Fin 96) (gd ga gb : Fin 16) (imm : BitVec 18) (k : Fin 32) (a b : Word), h.canIssue n = true → h.inCode n ((h.ctx n).pc + 1) = true → a = h.gpr n ga → b = h.gpr n gb → 
    (runs n (.addi n gd ga imm) h (h.retired n ((h.ctx n).setGpr gd (a + imm.signExtend 32))))
    ∧ (runs n (.andi n gd ga imm) h (h.retired n ((h.ctx n).setGpr gd (a &&& imm.signExtend 32))))
    ∧ (runs n (.ori n gd ga imm) h (h.retired n ((h.ctx n).setGpr gd (a ||| imm.zeroExtend 32))))
    ∧ (runs n (.xori n gd ga imm) h (h.retired n ((h.ctx n).setGpr gd (a ^^^ imm.zeroExtend 32))))
    ∧ (runs n (.movhi n gd imm) h (h.retired n ((h.ctx n).setGpr gd (imm ++ 0#14))))
    ∧ (runs n (.shli n gd ga k) h (h.retired n ((h.ctx n).setGpr gd (a <<< k.val))))
    ∧ (runs n (.shri n gd ga k) h (h.retired n ((h.ctx n).setGpr gd (a >>> k.val))))
    ∧ (runs n (.sari n gd ga k) h (h.retired n ((h.ctx n).setGpr gd (a.sshiftRight k.val))))
    ∧ (runs n (.rori n gd ga k) h (h.retired n ((h.ctx n).setGpr gd (a.rotateRight k.val))))
    ∧ (runs n (.cmp n ga gb) h (h.retired n ((h.ctx n).setFlags (addFlags a (~~~b) true))))
    ∧ (runs n (.cmpi n ga imm) h (h.retired n ((h.ctx n).setFlags (addFlags a (~~~(imm.signExtend 32)) true))))
    ∧ (runs n (.tst n ga gb) h (h.retired n ((h.ctx n).setFlags ⟨(a &&& b) == 0#32, (a &&& b).msb, (h.ctx n).c, (h.ctx n).v⟩)))
    ∧ (runs n (.tsti n ga imm) h (h.retired n ((h.ctx n).setFlags ⟨(a &&& imm.signExtend 32) == 0#32, (a &&& imm.signExtend 32).msb, (h.ctx n).c, (h.ctx n).v⟩)))
    ∧ (∀ (x y : Word), (addFlags x (~~~y) true).cond 1 = decide (x = y) ∧ (addFlags x (~~~y) true).cond 2 = decide (x ≠ y))
    ∧ (∀ (x y : Word), (addFlags x (~~~y) true).cond 3 = decide (y.toNat ≤ x.toNat) ∧ (addFlags x (~~~y) true).cond 4 = decide (x.toNat < y.toNat))
    ∧ (∀ (x y : Word), (addFlags x (~~~y) true).cond 9 = decide (y.toNat < x.toNat) ∧ (addFlags x (~~~y) true).cond 10 = decide (x.toNat ≤ y.toNat))
    ∧ (∀ (x y : Word), (addFlags x (~~~y) true).cond 11 = decide (y.toInt ≤ x.toInt) ∧ (addFlags x (~~~y) true).cond 12 = decide (x.toInt < y.toInt))
    ∧ (∀ (x y : Word), (addFlags x (~~~y) true).cond 13 = decide (y.toInt < x.toInt) ∧ (addFlags x (~~~y) true).cond 14 = decide (x.toInt ≤ y.toInt))
    ∧ (∀ (x y : Word), (addFlags x (~~~y) true).cond 7 = decide (x.toInt - y.toInt < -2147483648 ∨ 2147483647 < x.toInt - y.toInt) ∧ (addFlags x (~~~y) true).cond 5 = (x - y).msb)
    ∧ (∀ (x y : Word), (addFlags x y false).c = decide (4294967296 ≤ x.toNat + y.toNat) ∧ (addFlags x y false).v = decide (x.toInt + y.toInt < -2147483648 ∨ 2147483647 < x.toInt + y.toInt))

/-- System instructions (R229–R233): what each does. -/
def Obligations.SystemInstructions : Prop :=
  ∀ (h : Hub) (n : Fin 96) (gd ga : Fin 16) (a : Word), h.canIssue n = true → h.inCode n ((h.ctx n).pc + 1) = true → a = h.gpr n ga → 
    (runs n (.nop n) h (h.retired n (h.ctx n)))
    ∧ (runs n (.fence n) h (h.retired n (h.ctx n)))
    ∧ (runs n (.yield n) h (h.retired n { h.ctx n with wdogAt := h.root }))
    ∧ (runs n (.halt n) h ((h.retired n (h.ctx n)).setCtxState n cxHalted))
    ∧ (∀ (code : BitVec 12), runs n (.trap n code) h ((h.issued n).trap n 2 (h.ctx n).pc code.toNat))
    ∧ (∀ (w : Word), h.fetched n = some w → spelled n w = none → becomes (.illegalInstruction n) h ((h.issued n).trap n 1 (h.ctx n).pc 0))
    ∧ (∀ (csr : BitVec 12) (v : Word), h.csr n csr.toNat = some v → runs n (.csrr n gd csr) h (h.retired n ((h.ctx n).setGpr gd v)))
    ∧ (runs n (.csrw n 0 ga) h (h.retired n ((h.ctx n).setFlags ⟨a.getLsbD 0, a.getLsbD 1, a.getLsbD 2, a.getLsbD 3⟩)))
    ∧ (h.csr n 0 = some (W (b2n (h.ctx n).z + 2 * b2n (h.ctx n).n + 4 * b2n (h.ctx n).c + 8 * b2n (h.ctx n).v)) ∧ h.csr n 1 = some (W (h.ownTid n)) ∧ h.csr n 3 = some (h.rd (A.TUNC_CTX_CODE n)) ∧ h.csr n 4 = some (h.rd (A.TUNC_CTX_DATA n)) ∧ h.csr n 5 = some (h.rd (A.TUNC_CTX_ISSUED n)) ∧ h.csr n 9 = some (h.rd A.DEV_BEHAVIOUR))

/-- CSRR and CSRW of a number that is not listed, and CSRW to a read-only CSR, are illegal (R233). -/
def Obligations.UnlistedCsrIsIllegal : Prop :=
  ∀ (h : Hub) (n : Fin 96) (g : Fin 16) (csr : BitVec 12), h.canIssue n = true → 
    (9 < csr.toNat → h.fetched n = some (wordI 0 g 0 (0x5000 + csr.toNat)) → becomes (.csrr n g csr) h ((h.issued n).trap n 1 (h.ctx n).pc 0) ∧ becomes (.illegalInstruction n) h ((h.issued n).trap n 1 (h.ctx n).pc 0))
    ∧ (csr.toNat ≤ 9 → (h.csr n csr.toNat).isSome = true)
    ∧ (csr.toNat ≠ 0 → h.fetched n = some (wordI 0 0 g (0x6000 + csr.toNat)) → becomes (.csrw n csr g) h ((h.issued n).trap n 1 (h.ctx n).pc 0) ∧ becomes (.illegalInstruction n) h ((h.issued n).trap n 1 (h.ctx n).pc 0))

/-- Branches, calls and jumps (R245, R246) inside the code window, and FETCH_BOUND (R228, R247) outside it. -/
def Obligations.BranchInstructions : Prop :=
  ∀ (h : Hub) (n : Fin 96) (cc : BitVec 4) (off : BitVec 22) (ga : Fin 16) (link : Bool) (t : Nat), h.canIssue n = true → 
    ((h.ctx n).flags.cond cc.toNat = true → t = (BitVec.ofNat 32 (h.ctx n).pc + off.signExtend 32).toNat → h.inCode n t = true → runs n (.b n cc off) h ((h.issued n).setCtx n { h.ctx n with pc := t }))
    ∧ ((h.ctx n).flags.cond cc.toNat = true → t = (BitVec.ofNat 32 (h.ctx n).pc + off.signExtend 32).toNat → h.inCode n t = true → runs n (.call n cc off) h ((h.issued n).setCtx n { (h.ctx n).setGpr 15 (W ((h.ctx n).pc + 1)) with pc := t }))
    ∧ ((h.ctx n).flags.cond cc.toNat = true → t = (h.gpr n ga).toNat → h.inCode n t = true → runs n (.jr n cc ga true) h ((h.issued n).setCtx n { (h.ctx n).setGpr 15 (W ((h.ctx n).pc + 1)) with pc := t }))
    ∧ ((h.ctx n).flags.cond cc.toNat = true → t = (h.gpr n ga).toNat → h.inCode n t = true → runs n (.jr n cc ga false) h ((h.issued n).setCtx n { h.ctx n with pc := t }))
    ∧ (cc ≠ 15 → (h.ctx n).flags.cond cc.toNat = false → h.inCode n ((h.ctx n).pc + 1) = true → runs n (.b n cc off) h (h.retired n (h.ctx n)))
    ∧ (cc ≠ 15 → (h.ctx n).flags.cond cc.toNat = false → h.inCode n ((h.ctx n).pc + 1) = true → runs n (.call n cc off) h (h.retired n (h.ctx n)))
    ∧ (cc ≠ 15 → (h.ctx n).flags.cond cc.toNat = false → h.inCode n ((h.ctx n).pc + 1) = true → runs n (.jr n cc ga link) h (h.retired n (h.ctx n)))
    ∧ (h.fetched n = some (wordB 0x10 15 off) → becomes (.b n 15 off) h ((h.issued n).trap n 1 (h.ctx n).pc 0) ∧ becomes (.illegalInstruction n) h ((h.issued n).trap n 1 (h.ctx n).pc 0))
    ∧ (h.fetched n = some (wordB 0x11 15 off) → becomes (.call n 15 off) h ((h.issued n).trap n 1 (h.ctx n).pc 0) ∧ becomes (.illegalInstruction n) h ((h.issued n).trap n 1 (h.ctx n).pc 0))
    ∧ (∀ (v : Word), Instr.word? (.jr n 15 ga link) = some (n, v) → h.fetched n = some v → becomes (.jr n 15 ga link) h ((h.issued n).trap n 1 (h.ctx n).pc 0) ∧ becomes (.illegalInstruction n) h ((h.issued n).trap n 1 (h.ctx n).pc 0))
    ∧ ((h.ctx n).flags.cond cc.toNat = true → t = (BitVec.ofNat 32 (h.ctx n).pc + off.signExtend 32).toNat → h.inCode n t = false → runsTo n (.call n cc off) h (fun u => u.ctxState n = cxTrapped ∧ u.get (R.TUNC_CTX_STATUS_CAUSE n) = 3 ∧ u.rd (A.TUNC_CTX_PC n) = W ((h.ctx n).pc % 8192) ∧ u.rd (A.TUNC_CTX_ADDR n) = W t ∧ u.gpr n 15 = h.gpr n 15 ∧ u = { h with regs := u.regs, links := u.links, err := u.err, fab := u.fab, tun := u.tun }))
    ∧ ((h.ctx n).flags.cond cc.toNat = true → t = (h.gpr n ga).toNat → h.inCode n t = false → runsTo n (.jr n cc ga link) h (fun u => u.ctxState n = cxTrapped ∧ u.get (R.TUNC_CTX_STATUS_CAUSE n) = 3 ∧ u.rd (A.TUNC_CTX_ADDR n) = h.gpr n ga ∧ u.gpr n 15 = h.gpr n 15 ∧ u = { h with regs := u.regs, links := u.links, err := u.err, fab := u.fab, tun := u.tun }))
    ∧ ((h.ctx n).flags.cond cc.toNat = true → h.inCode n ((h.ctx n).pc + 1) = false → runs n (.nop n) h ((h.issued n).trap n 3 (h.ctx n).pc ((h.ctx n).pc + 1)))

/-- Loads and stores (R241–R244) with the address and the bytes each one touches. -/
def Obligations.LoadAndStoreInstructions : Prop :=
  ∀ (h : Hub) (n : Fin 96) (gd ga : Fin 16) (imm : BitVec 18) (ea a : Nat), h.canIssue n = true → h.inCode n ((h.ctx n).pc + 1) = true → ea = (h.gpr n ga + imm.signExtend 32).toNat → 
    (a = dataBase (n / 12) + ea → ea < 0x10000 → ea % 4 = 0 → h.inData n ea 4 = true → h.badRange a 4 = false → runs n (.ldw n gd ga imm) h ((h.corrected a 4).retired n ((h.ctx n).setGpr gd (h.mrd (a + 3) ++ h.mrd (a + 2) ++ h.mrd (a + 1) ++ h.mrd a))))
    ∧ (a = dataBase (n / 12) + ea → ea < 0x10000 → ea % 2 = 0 → h.inData n ea 2 = true → h.badRange a 2 = false → runs n (.ldh n gd ga imm) h ((h.corrected a 2).retired n ((h.ctx n).setGpr gd ((h.mrd (a + 1) ++ h.mrd a).zeroExtend 32))))
    ∧ (a = dataBase (n / 12) + ea → ea < 0x10000 → h.inData n ea 1 = true → h.badRange a 1 = false → runs n (.ldb n gd ga imm) h ((h.corrected a 1).retired n ((h.ctx n).setGpr gd ((h.mrd a).zeroExtend 32))))
    ∧ (ea < 0x10000 → ea % 4 = 0 → h.inData n ea 4 = true → h.badRange (dataBase (n / 12) + ea) 4 = true → runs n (.ldw n gd ga imm) h ((h.issued n).trap n 8 (h.ctx n).pc ea))
    ∧ (a = dataBase (n / 12) + ea → ea < 0x10000 → ea % 4 = 0 → h.inData n ea 4 = true → h.rangeHeld a 4 = false → runs n (.stw n gd ga imm) h ((h.mstore a (wordBytes (h.gpr n gd))).retired n (h.ctx n)))
    ∧ (a = dataBase (n / 12) + ea → ea < 0x10000 → ea % 2 = 0 → h.inData n ea 2 = true → h.rangeHeld a 2 = false → runs n (.sth n gd ga imm) h ((h.mstore a [(h.gpr n gd).extractLsb' 0 8, (h.gpr n gd).extractLsb' 8 8]).retired n (h.ctx n)))
    ∧ (a = dataBase (n / 12) + ea → ea < 0x10000 → h.inData n ea 1 = true → h.rangeHeld a 1 = false → runs n (.stb n gd ga imm) h ((h.mwr a ((h.gpr n gd).extractLsb' 0 8)).retired n (h.ctx n)))
    ∧ (∀ (v : Nat), a = dataBase (n / 12) + ea → ea < 0x10000 → ea % 4 = 0 → h.inData n ea 4 = true → h.rangeHeld a 4 = true → runs n (.stw n gd ga imm) h h)
    ∧ (∀ (c r : Bool), 0x100000 ≤ ea → ea < 0x180000 → ea % 4 = 0 → a = ea + 0x200000 → h.decide_ 2 .read a = .ok c r → h.badRange a 4 = false → runs n (.ldw n gd ga imm) h ((h.corrected a 4).retired n ((h.ctx n).setGpr gd (h.mrd (a + 3) ++ h.mrd (a + 2) ++ h.mrd (a + 1) ++ h.mrd a))))
    ∧ (∀ (c r : Bool), 0x100000 ≤ ea → ea < 0x180000 → ea % 2 = 0 → a = ea + 0x200000 → h.decide_ 2 .read a = .ok c r → h.badRange a 2 = false → runs n (.ldh n gd ga imm) h ((h.corrected a 2).retired n ((h.ctx n).setGpr gd ((h.mrd (a + 1) ++ h.mrd a).zeroExtend 32))))
    ∧ (∀ (c r : Bool), 0x100000 ≤ ea → ea < 0x180000 → a = ea + 0x200000 → h.decide_ 2 .read a = .ok c r → h.badRange a 1 = false → runs n (.ldb n gd ga imm) h ((h.corrected a 1).retired n ((h.ctx n).setGpr gd ((h.mrd a).zeroExtend 32))))
    ∧ (∀ (c r : Bool), 0x100000 ≤ ea → ea < 0x180000 → ea % 4 = 0 → a = ea + 0x200000 → h.decide_ 2 .read a = .ok c r → h.badRange a 4 = true → runs n (.ldw n gd ga imm) h ((h.issued n).trap n 8 (h.ctx n).pc ea))
    ∧ (∀ (c r : Bool), 0x100000 ≤ ea → ea < 0x180000 → ea % 4 = 0 → a = ea + 0x200000 → h.decide_ 2 .write a = .ok c r → h.rangeHeld a 4 = false → runs n (.stw n gd ga imm) h ((h.mstore a (wordBytes (h.gpr n gd))).retired n (h.ctx n)))
    ∧ (∀ (c r : Bool), 0x100000 ≤ ea → ea < 0x180000 → ea % 2 = 0 → a = ea + 0x200000 → h.decide_ 2 .write a = .ok c r → h.rangeHeld a 2 = false → runs n (.sth n gd ga imm) h ((h.mstore a [(h.gpr n gd).extractLsb' 0 8, (h.gpr n gd).extractLsb' 8 8]).retired n (h.ctx n)))
    ∧ (∀ (c r : Bool), 0x100000 ≤ ea → ea < 0x180000 → a = ea + 0x200000 → h.decide_ 2 .write a = .ok c r → h.rangeHeld a 1 = false → runs n (.stb n gd ga imm) h ((h.mwr a ((h.gpr n gd).extractLsb' 0 8)).retired n (h.ctx n)))
    ∧ (∀ (c r : Bool), 0x100000 ≤ ea → ea < 0x180000 → ea % 4 = 0 → a = ea + 0x200000 → h.decide_ 2 .write a = .ok c r → h.rangeHeld a 4 = true → runs n (.stw n gd ga imm) h h)
    ∧ (∀ (info : Nat), 0x100000 ≤ ea → ea < 0x180000 → ea % 4 = 0 → a = ea + 0x200000 → h.decide_ 2 .read a = .refused info → runs n (.ldw n gd ga imm) h (((h.deny 2 a info).issued n).trap n 7 (h.ctx n).pc ea))
    ∧ (∀ (info : Nat), 0x100000 ≤ ea → ea < 0x180000 → ea % 4 = 0 → a = ea + 0x200000 → h.decide_ 2 .read a = .refused info → runs n (.ldh n gd ga imm) h (((h.deny 2 a info).issued n).trap n 7 (h.ctx n).pc ea))
    ∧ (∀ (info : Nat), 0x100000 ≤ ea → ea < 0x180000 → ea % 4 = 0 → a = ea + 0x200000 → h.decide_ 2 .read a = .refused info → runs n (.ldb n gd ga imm) h (((h.deny 2 a info).issued n).trap n 7 (h.ctx n).pc ea))
    ∧ (∀ (info : Nat), 0x100000 ≤ ea → ea < 0x180000 → ea % 4 = 0 → a = ea + 0x200000 → h.decide_ 2 .write a = .refused info → runs n (.stw n gd ga imm) h (((h.deny 2 a info).issued n).trap n 7 (h.ctx n).pc ea))
    ∧ (∀ (info : Nat), 0x100000 ≤ ea → ea < 0x180000 → ea % 4 = 0 → a = ea + 0x200000 → h.decide_ 2 .write a = .refused info → runs n (.sth n gd ga imm) h (((h.deny 2 a info).issued n).trap n 7 (h.ctx n).pc ea))
    ∧ (∀ (info : Nat), 0x100000 ≤ ea → ea < 0x180000 → ea % 4 = 0 → a = ea + 0x200000 → h.decide_ 2 .write a = .refused info → runs n (.stb n gd ga imm) h (((h.deny 2 a info).issued n).trap n 7 (h.ctx n).pc ea))
    ∧ (∀ (c r : Bool) (t : Hub) (v : Nat), 0x1000000 ≤ ea → ea < 0x2000000 → ea % 4 = 0 → a = ea - 0x1000000 → h.decide_ 2 .read a = .ok c r → h.busRead a 4 = (t, some v) → runs n (.ldw n gd ga imm) h (((t.winDone n).setGpr n gd (W v)).finish n))
    ∧ (∀ (c r : Bool) (t : Hub) (v : Nat), 0x1000000 ≤ ea → ea < 0x2000000 → ea % 2 = 0 → a = ea - 0x1000000 → h.decide_ 2 .read a = .ok c r → h.busRead a 2 = (t, some v) → runs n (.ldh n gd ga imm) h (((t.winDone n).setGpr n gd (W v)).finish n))
    ∧ (∀ (c r : Bool) (t : Hub) (v : Nat), 0x1000000 ≤ ea → ea < 0x2000000 → a = ea - 0x1000000 → h.decide_ 2 .read a = .ok c r → h.busRead a 1 = (t, some v) → runs n (.ldb n gd ga imm) h (((t.winDone n).setGpr n gd (W v)).finish n))
    ∧ (∀ (m : Nat), a < 0x100000 → a % 4 + m ≤ 4 → h.busRead a m = ((h.readReg (a / 4 * 4)).1, some ((h.readReg (a / 4 * 4)).2.toNat / 2 ^ (8 * (a % 4)) % 2 ^ (8 * m))))
    ∧ (∀ (c r : Bool), 0x1000000 ≤ ea → ea < 0x2000000 → ea % 4 = 0 → a = ea - 0x1000000 → h.decide_ 2 .read a = .ok c r → h.busRead a 4 = (h, none) → runs n (.ldw n gd ga imm) h (((h.winDone n).issued n).trap n 8 (h.ctx n).pc ea))
    ∧ (∀ (c r : Bool) (t : Hub), 0x1000000 ≤ ea → ea < 0x2000000 → ea % 4 = 0 → a = ea - 0x1000000 → h.decide_ 2 .write a = .ok c r → h.rangeHeld a 4 = false → t = (h.winDone n).busWriteWord 2 a 4 (h.gpr n gd).toNat → t.ctxState n = cxRunning → t.inCode n ((t.ctx n).pc + 1) = true → runs n (.stw n gd ga imm) h (t.finish n))
    ∧ (∀ (c r : Bool) (t : Hub), 0x1000000 ≤ ea → ea < 0x2000000 → ea % 4 = 0 → a = ea - 0x1000000 → h.decide_ 2 .write a = .ok c r → h.rangeHeld a 4 = false → t = (h.winDone n).busWriteWord 2 a 4 (h.gpr n gd).toNat → t.ctxState n ≠ cxRunning → runs n (.stw n gd ga imm) h (((t.wr (A.TUNC_CTX_ISSUED n) (t.rd (A.TUNC_CTX_ISSUED n) + 1)).wr (A.TUNC_CTX_PC n) (W (h.ctx n).pc)).onSpare n))
    ∧ (∀ (c r : Bool) (t : Hub), 0x1000000 ≤ ea → ea < 0x2000000 → ea % 2 = 0 → a = ea - 0x1000000 → h.decide_ 2 .write a = .ok c r → h.rangeHeld a 2 = false → t = (h.winDone n).busWriteWord 2 a 2 (h.gpr n gd).toNat → t.ctxState n = cxRunning → t.inCode n ((t.ctx n).pc + 1) = true → runs n (.sth n gd ga imm) h (t.finish n))
    ∧ (∀ (c r : Bool) (t : Hub), 0x1000000 ≤ ea → ea < 0x2000000 → a = ea - 0x1000000 → h.decide_ 2 .write a = .ok c r → h.rangeHeld a 1 = false → t = (h.winDone n).busWriteWord 2 a 1 (h.gpr n gd).toNat → t.ctxState n = cxRunning → t.inCode n ((t.ctx n).pc + 1) = true → runs n (.stb n gd ga imm) h (t.finish n))
    ∧ (∀ (m v : Nat), a < 0x100000 → a % 4 + m ≤ 4 → h.busWriteWord 2 a m v = h.writeReg 2 (a / 4 * 4) (W (v * 2 ^ (8 * (a % 4)))) ((2 ^ m - 1) * 2 ^ (a % 4)))
    ∧ (∀ (c r : Bool), 0x1000000 ≤ ea → ea < 0x2000000 → ea % 4 = 0 → a = ea - 0x1000000 → h.decide_ 2 .write a = .ok c r → h.rangeHeld a 4 = true → runs n (.stw n gd ga imm) h (h.winPend n ⟨n, a, 4, some (h.gpr n gd).toNat⟩))
    ∧ (∀ (info : Nat), 0x1000000 ≤ ea → ea < 0x2000000 → ea % 4 = 0 → a = ea - 0x1000000 → h.decide_ 2 .read a = .refused info → runs n (.ldw n gd ga imm) h ((((h.deny 2 a info).winDone n).issued n).trap n 7 (h.ctx n).pc ea))
    ∧ (0x1000000 ≤ ea → ea < 0x2000000 → ea % 4 = 0 → a = ea - 0x1000000 → h.decide_ 2 .write a = .error → runs n (.stw n gd ga imm) h (((h.winDone n).issued n).trap n 7 (h.ctx n).pc ea))
    ∧ (spaceOf ea = .outside → runs n (.ldw n gd ga imm) h ((h.issued n).trap n 5 (h.ctx n).pc ea))
    ∧ (spaceOf ea = .outside → runs n (.stb n gd ga imm) h ((h.issued n).trap n 5 (h.ctx n).pc ea))
    ∧ (spaceOf ea ≠ .outside → ea % 2 = 1 → runs n (.ldh n gd ga imm) h ((h.issued n).trap n 6 (h.ctx n).pc ea))
    ∧ (spaceOf ea ≠ .outside → ea % 2 = 1 → runs n (.stw n gd ga imm) h ((h.issued n).trap n 6 (h.ctx n).pc ea))
    ∧ (ea < 0x10000 → h.inData n ea 1 = false → runs n (.ldb n gd ga imm) h ((h.issued n).trap n 4 (h.ctx n).pc ea))
    ∧ (ea < 0x10000 → h.inData n ea 1 = false → runs n (.stb n gd ga imm) h ((h.issued n).trap n 4 (h.ctx n).pc ea))

/-- The fetch (R226, R228, R393): which word runs, and what an illegal, wrong or refused one does. Its last clause but one is the model's choice (log entry 125, DESIGN CHOICE). -/
def Obligations.WordsAtThePc : Prop :=
  ∀ (h : Hub) (n : Fin 96) (c : Instr) (v w : Word) (a : Nat), (Instr.word? c = some (n, v) ∨ c = .illegalInstruction n) → h.awake = true → a = h.fetchAddr n → 
    (h.canIssue n = true → w = h.mword a → spelled n w = none → becomes c h ((h.issued n).trap n 1 (h.ctx n).pc 0))
    ∧ (∀ (q : List Instr), h.ctxState n = cxRunning → h.fetchOk n = true → exec c ⟨h, q⟩ = exec c ⟨h.corrected a 4, q⟩)
    ∧ (∀ (x y : Bool), h.ctxState n = cxRunning → h.decide_ 2 .fetch a = .ok x y → h.badWord a = true → becomes c h (h.trap n 8 (h.ctx n).pc (h.ctx n).pc))
    ∧ (∀ (info : Nat), h.ctxState n = cxRunning → h.decide_ 2 .fetch a = .refused info → becomes c h ((h.deny 2 a info).trap n 7 (h.ctx n).pc a))
    ∧ (h.ctxState n = cxRunning → h.decide_ 2 .fetch a = .held → becomes c h ((h.put R.ACC_STATUS_HOLDING 1).ctxHeld n))
    ∧ (∀ (i : Instr), h.canIssue n = true → spelled n (h.mword a) = some i → i ≠ Instr.spelling c → becomes c h h)
    ∧ (h.ctxState n ≠ cxRunning → becomes c h h)

/-- Decoding and encoding the words of Decmond agree (R224–R226): every legal instruction, every word. -/
def Obligations.WordsOfInstructions : Prop :=
  ∀ (n : Fin 96) (w : Word) (i : Instr),
    (Instr.word? i = some (n, w) → (Instr.legal i) = true → spelled n w = some (Instr.spelling i))
    ∧ (spelled n w = some i → Instr.word? i = some (n, w) ∧ (Instr.legal i) = true ∧ (Instr.spelling i) = i)

/-- Words written out in chapters 08 and 09 and what each stands for. -/
def Obligations.WorkedExampleWords : Prop :=
  ∀ n : Fin 96,
    spelled n 0x00000000#32 = some (.nop n) ∧ spelled n 0x00001000#32 = some (.yield n) ∧ spelled n 0x00002000#32 = some (.halt n)
    ∧ spelled n 0x00003005#32 = some (.trap n 5) ∧ spelled n 0x00004000#32 = some (.fence n)
    ∧ spelled n 0xFFFFFFFF#32 = none ∧ spelled n 0x483C0000#32 = some (.jr n 0 15 false)
    ∧ spelled n 0x1D400040#32 = some (.movhi n 5 0x40) ∧ spelled n 0x11540400#32 = some (.ori n 5 5 0x400)
    ∧ spelled n 0x09800010#32 = some (.addi n 6 0 16) ∧ spelled n 0x25D40000#32 = some (.ldw n 7 5 0)
    ∧ spelled n 0x0511C000#32 = some (.add n 4 4 7 false) ∧ spelled n 0x099BFFFF#32 = some (.addi n 6 6 0x3FFFF)
    ∧ spelled n 0x20580000#32 = some (.cmpi n 6 0) ∧ spelled n 0x40BFFFFB#32 = some (.b n 2 0x3FFFFB)
    ∧ spelled n 0x30D40000#32 = some (.stw n 3 5 0) ∧ spelled n 0xC2000002#32 = some (.wait n 8 2)
    ∧ spelled n 0x60901000#32 = some (.pget n 0 9 true) ∧ spelled n 0x433FFFFD#32 = some (.b n 12 0x3FFFFD)
    ∧ spelled n 0x6CA00008#32 = some (.pld n 10 0 0 8 0) ∧ spelled n 0x0EE8003F#32 = some (.andi n 11 10 0x3F)
    ∧ spelled n 0x33540008#32 = some (.stw n 13 5 8) ∧ spelled n 0xFB940000#32 = some (.jrec n 14 5)
    ∧ spelled n 0x68040000#32 = some (.pseth n 0 0 4) ∧ spelled n 0x74B00000#32 = some (.pemitFabric n 0 11 false)
    ∧ spelled n 0x403FFFEF#32 = some (.b n 0 0x3FFFEF) ∧ spelled n 0x78000000#32 = some (.pdrop n 0)

/-- Packet instructions (R255–R260, R263): what each does where its conditions hold. -/
def Obligations.PacketInstructions : Prop :=
  ∀ (h : Hub) (n : Fin 96) (d : Fin 4) (gd ga : Fin 16) (x : Held) (s : Stored), h.canIssue n = true → h.inCode n ((h.ctx n).pc + 1) = true → 
    (∀ (k : Hub) (y : Desc) (ys : List Desc), (h.ctx n).dd d = none → (h.refill 3).serveContext n (h.queue 13 n).items.length = (k, true) → (k.queue 13 n).items = y :: ys → KMap.get? k.fab.pkts y.pid = some s → s.refs ≤ 1 → runsTo n (.pget n d gd false) h (fun t => t.gpr n gd = (if gd.val = 0 then 0#32 else W (4 * s.pkt.length)) ∧ ((t.ctx n).dd d).map Held.pid = some y.pid ∧ (t.queue 13 n).items = ys ∧ (t.ctx n).pc = (h.ctx n).pc + 1 ∧ t = { h with regs := t.regs, links := t.links, err := t.err, fab := t.fab, sch := t.sch, tm := t.tm, tun := t.tun, ser := t.ser }))
    ∧ (∀ (k : Hub) (y : Desc) (ys : List Desc), (h.ctx n).dd d = none → (h.refill 3).serveContext n (h.queue 13 n).items.length = (k, true) → (k.queue 13 n).items = y :: ys → KMap.get? k.fab.pkts y.pid = some s → 1 < s.refs → k.roomFor s.cells.length = false → runs n (.pget n d gd false) h ((h.setGpr n gd 0xFFFFFFFE#32).finish n))
    ∧ (∀ (k : Hub) (y : Desc) (ys : List Desc), (h.ctx n).dd d = none → (h.refill 3).serveContext n (h.queue 13 n).items.length = (k, true) → (k.queue 13 n).items = y :: ys → KMap.get? k.fab.pkts y.pid = some s → 1 < s.refs → k.roomFor s.cells.length = true → runsTo n (.pget n d gd false) h (fun t => t.gpr n gd = (if gd.val = 0 then 0#32 else W (4 * s.pkt.length)) ∧ ((t.ctx n).dd d).isSome = true ∧ (t.queue 13 n).items = ys ∧ (t.ctx n).pc = (h.ctx n).pc + 1 ∧ t = { h with regs := t.regs, mem := t.mem, links := t.links, err := t.err, fab := t.fab, sch := t.sch, tm := t.tm, tun := t.tun, ser := t.ser }))
    ∧ (∀ (k : Hub), (h.ctx n).dd d = none → (h.refill 3).serveContext n (h.queue 13 n).items.length = (k, false) → k.ctxState n = cxRunning → k.inCode n ((k.ctx n).pc + 1) = true → runs n (.pget n d gd false) h ((k.setGpr n gd 0xFFFFFFFF#32).finish n))
    ∧ ((h.ctx n).dd d = none → (h.queue 13 n).items = [] → runs n (.pget n d gd false) h (((h.refill 3).setGpr n gd 0xFFFFFFFF#32).finish n))
    ∧ (∀ (e : Bool), ((h.ctx n).dd d).isSome = true → runs n (.pget n d gd e) h ((h.issued n).trap n 9 (h.ctx n).pc 1))
    ∧ ((h.ctx n).dd d = none → h.bindEnd n = 0 → runs n (.pget n d gd true) h ((h.issued n).trap n 9 (h.ctx n).pc 5))
    ∧ (∀ (k : Hub) (p : Packet), (h.ctx n).dd d = none → h.bindEnd n ≠ 0 → h.adpTake n = (k, some p) → h.roomFor p.cells = true → runs n (.pget n d gd true) h (((k.newHeld n d p p.cells 1 false).setGpr n gd (W (4 * p.length))).finish n))
    ∧ (∀ (k : Hub) (p : Packet), (h.ctx n).dd d = none → h.bindEnd n ≠ 0 → h.adpTake n = (k, some p) → h.roomFor p.cells = false → runs n (.pget n d gd true) h ((h.setGpr n gd 0xFFFFFFFE#32).finish n))
    ∧ (∀ (k : Hub), (h.ctx n).dd d = none → h.bindEnd n ≠ 0 → h.adpTake n = (k, none) → runs n (.pget n d gd true) h ((h.setGpr n gd 0xFFFFFFFF#32).finish n))
    ∧ (∀ (f : BitVec 12) (v : Nat), h.heldSound n d = some (x, s) → h.headerField x s.pkt f.toNat = some v → runs n (.phdr n gd d f) h ((h.setGpr n gd (W v)).finish n))
    ∧ (∀ (p : Packet), [0, 1, 2, 3, 4, 5, 6, 7, 8, 9, 10, 11, 12, 13].map (h.headerField x p) = [some p.dest, some p.cls.ix, some p.src, some p.kind, some p.payload.length, some p.hops, some p.tseq, some p.aux, some p.stamp, some (b2n p.wrap + 2 * b2n p.west + 4 * b2n p.resync), some x.origin, some x.cap, some ((h.now + (2 ^ 32 - p.stamp % 2 ^ 32)) % 2 ^ 32), none])
    ∧ (h.heldSound n d = some (x, s) → runs n (.pseth n d 0 ga) h ((h.setPkt x s { s.pkt with dest := (h.gpr n ga).toNat % 2 ^ 14 }).finish n))
    ∧ (h.heldSound n d = some (x, s) → runs n (.pseth n d 7 ga) h ((h.setPkt x s { s.pkt with aux := (h.gpr n ga).toNat % 65536 }).finish n))
    ∧ (h.heldSound n d = some (x, s) → (h.gpr n ga).toNat % 256 ≤ x.cap → runs n (.pseth n d 4 ga) h ((h.setLength x s ((h.gpr n ga).toNat % 256)).finish n))
    ∧ (h.heldSound n d = some (x, s) → x.cap < (h.gpr n ga).toNat % 256 → runs n (.pseth n d 4 ga) h ((h.issued n).trap n 9 (h.ctx n).pc 3))
    ∧ (h.heldSound n d = some (x, s) → runs n (.pseth n d 8 ga) h (((h.setPkt x s { s.pkt with stamp := (h.gpr n ga).toNat }).setDd n d (some { x with stamped := true })).finish n))
    ∧ (∀ (f : BitVec 12), f.toNat ≠ 0 → f.toNat ≠ 4 → f.toNat ≠ 7 → f.toNat ≠ 8 → h.fetched n = some (wordP 0x1A d 0 ga 0 f.toNat) → becomes (.pseth n d f ga) h ((h.issued n).trap n 1 (h.ctx n).pc 0) ∧ becomes (.illegalInstruction n) h ((h.issued n).trap n 1 (h.ctx n).pc 0))
    ∧ (∀ (f imm : BitVec 12) (m : BitVec 4), h.held n d = none → runs n (.phdr n gd d f) h ((h.issued n).trap n 9 (h.ctx n).pc 2))
    ∧ (∀ (f imm : BitVec 12) (m : BitVec 4), h.held n d = none → runs n (.pseth n d f ga) h ((h.issued n).trap n 9 (h.ctx n).pc 2))
    ∧ (∀ (f imm : BitVec 12) (m : BitVec 4), h.held n d = none → runs n (.pld n gd d ga imm m) h ((h.issued n).trap n 9 (h.ctx n).pc 2))
    ∧ (∀ (f imm : BitVec 12) (m : BitVec 4), h.held n d = none → runs n (.pst n gd d ga imm m) h ((h.issued n).trap n 9 (h.ctx n).pc 2))
    ∧ (∀ (imm : BitVec 12) (o : Nat), h.heldSound n d = some (x, s) → o = (h.gpr n ga + imm.zeroExtend 32).toNat → o % 4 = 0 → o + 4 ≤ 4 * s.pkt.length → runs n (.pst n gd d ga imm 0) h ((h.setPkt x s { s.pkt with payload := s.pkt.payload.set (o / 4) (h.gpr n gd) }).finish n))
    ∧ (∀ (imm : BitVec 12) (o : Nat), h.heldSound n d = some (x, s) → o = (h.gpr n ga + imm.zeroExtend 32).toNat → o % 2 = 0 → o + 2 ≤ 4 * s.pkt.length → runs n (.pld n gd d ga imm 1) h ((h.setGpr n gd (((bytesOf s.pkt.payload).getD (o + 1) 0#8 ++ (bytesOf s.pkt.payload).getD o 0#8).zeroExtend 32)).finish n))
    ∧ (∀ (imm : BitVec 12) (o : Nat), h.heldSound n d = some (x, s) → o = (h.gpr n ga + imm.zeroExtend 32).toNat → o % 2 = 0 → o + 2 ≤ 4 * s.pkt.length → runs n (.pst n gd d ga imm 1) h ((h.setPkt x s (s.pkt.patchBody o [(h.gpr n gd).extractLsb' 0 8, (h.gpr n gd).extractLsb' 8 8])).finish n))
    ∧ (∀ (imm : BitVec 12) (o : Nat), h.heldSound n d = some (x, s) → o = (h.gpr n ga + imm.zeroExtend 32).toNat → o % 4 = 0 → o + 4 ≤ 4 * s.pkt.length → runs n (.pld n gd d ga imm 0) h ((h.setGpr n gd (s.pkt.payload.getD (o / 4) 0#32)).finish n))
    ∧ (∀ (imm : BitVec 12) (o : Nat), h.heldSound n d = some (x, s) → o = (h.gpr n ga + imm.zeroExtend 32).toNat → o + 1 ≤ 4 * s.pkt.length → runs n (.pld n gd d ga imm 2) h ((h.setGpr n gd (W ((bytesOf s.pkt.payload).getD o 0#8).toNat)).finish n))
    ∧ (∀ (imm : BitVec 12) (o : Nat), h.heldSound n d = some (x, s) → o = (h.gpr n ga + imm.zeroExtend 32).toNat → o + 1 ≤ 4 * s.pkt.length → runs n (.pst n gd d ga imm 2) h ((h.setPkt x s (s.pkt.patchBody o [(h.gpr n gd).extractLsb' 0 8])).finish n))
    ∧ (∀ (imm : BitVec 12) (o : Nat), h.heldSound n d = some (x, s) → o = (h.gpr n ga + imm.zeroExtend 32).toNat → o % 4 = 0 → 4 * s.pkt.length < o + 4 → runs n (.pld n gd d ga imm 0) h ((h.issued n).trap n 9 (h.ctx n).pc 3))
    ∧ (∀ (imm : BitVec 12) (o : Nat), h.heldSound n d = some (x, s) → o = (h.gpr n ga + imm.zeroExtend 32).toNat → o % 4 = 0 → 4 * s.pkt.length < o + 4 → runs n (.pst n gd d ga imm 0) h ((h.issued n).trap n 9 (h.ctx n).pc 3))
    ∧ (∀ (m : BitVec 12) (o ea a : Nat), copyBytesOk m.toNat = true → ea = (h.gpr n ga).toNat → o = (h.gpr n gd).toNat → ea % 4 = 0 → ea < 0x10000 → h.inData n ea m.toNat = true → a = dataBase (n / 12) + ea → h.heldSound n d = some (x, s) → o % 4 = 0 → o + m.toNat ≤ 4 * s.pkt.length → h.badRange a m.toNat = false → runs n (.pcopyFromMemory n d gd ga m) h (((h.corrected a m.toNat).setPkt x s (s.pkt.patchBody o (h.mbytes a m.toNat))).finish n))
    ∧ (∀ (m : BitVec 12) (o ea a : Nat), copyBytesOk m.toNat = true → ea = (h.gpr n ga).toNat → o = (h.gpr n gd).toNat → ea % 4 = 0 → ea < 0x10000 → h.inData n ea m.toNat = true → a = dataBase (n / 12) + ea → h.heldSound n d = some (x, s) → o % 4 = 0 → o + m.toNat ≤ 4 * s.pkt.length → ((∀ i ∈ List.range m.toNat, h.writeHeld (a + i) = false)) → runs n (.pcopyToMemory n d gd ga m) h ((h.mstore a (((bytesOf s.pkt.payload).drop o).take m.toNat)).finish n))
    ∧ (∀ (w : BitVec 12), w.toNat ≤ 128 → (h.ctx n).dd d = none → h.roomFor (cellsOf w.toNat) = true → runs n (.pnew n d gd w) h ((((h.newHeld n d (Packet.blank w.toNat) (cellsOf w.toNat) 2 false).zeroCells n d).setGpr n gd 0#32).finish n))
    ∧ (∀ (w : BitVec 12), w.toNat ≤ 128 → (h.ctx n).dd d = none → h.roomFor (cellsOf w.toNat) = false → runs n (.pnew n d gd w) h ((h.setGpr n gd 0xFFFFFFFE#32).finish n))
    ∧ (∀ (e : Fin 4) (o : Nat), d ≠ e → h.heldSound n d = some (x, s) → (h.ctx n).dd e = none → o = (h.gpr n ga).toNat → o % 4 = 0 → 4 ≤ o → o + 4 ≤ 4 * s.pkt.length → h.roomFor (cellsOf (s.pkt.length - o / 4)) = true → runs n (.psplit n d gd ga e) h ((((h.setLength x s (o / 4)).newHeld n e { s.pkt with payload := s.pkt.payload.drop (o / 4) } (cellsOf (s.pkt.length - o / 4)) x.origin x.stamped).setGpr n gd 0#32).finish n))
    ∧ (∀ (e : Fin 4) (y : Held) (t : Stored), d ≠ e → h.heldSound n d = some (x, s) → h.heldSound n e = some (y, t) → cellsOf (s.pkt.length + t.pkt.length) ≤ s.cells.length → s.pkt.length + t.pkt.length ≤ 128 → runsTo n (.pjoin n d gd e) h (fun u => u.gpr n gd = 0#32 ∧ (u.ctx n).dd e = none ∧ ((u.ctx n).dd d).map Held.pid = some x.pid ∧ (u.ctx n).pc = (h.ctx n).pc + 1 ∧ u = { h with regs := u.regs, mem := u.mem, links := u.links, err := u.err, fab := u.fab, tun := u.tun }))
    ∧ (∀ (e : Fin 4) (y : Held) (t : Stored), d ≠ e → h.heldSound n d = some (x, s) → h.heldSound n e = some (y, t) → 128 < s.pkt.length + t.pkt.length → runs n (.pjoin n d gd e) h ((h.setGpr n gd 0xFFFFFFF8#32).finish n))
    ∧ (runs n (.psplit n d gd ga d) h ((h.issued n).trap n 9 (h.ctx n).pc 6))
    ∧ (runs n (.pjoin n d gd d) h ((h.issued n).trap n 9 (h.ctx n).pc 6))
    ∧ ((h.ctx n).dd d = some x → runs n (.pdrop n d) h (((h.setDd n d none).release x.pid).finish n))
    ∧ ((h.ctx n).dd d = none → runs n (.pdrop n d) h (h.finish n))

/-- PEMIT (R261, R262), QDEPTH (R265) and SPARGE (R266): what each does where its conditions hold. -/
def Obligations.EmitAndQueueInstructions : Prop :=
  ∀ (h : Hub) (n : Fin 96) (d : Fin 4) (gd ga : Fin 16) (x : Held) (s : Stored) (keep : Bool), h.canIssue n = true → h.inCode n ((h.ctx n).pc + 1) = true → 
    (h.heldSound n d = some (x, s) → (tidValid s.pkt.dest = false ∨ h.unroutable (h.emitPacket n x s.pkt) = true) → runs n (.pemitFabric n d gd keep) h ((h.setGpr n gd 0xFFFFFFF9#32).finish n))
    ∧ (h.heldSound n d = some (x, s) → tidValid s.pkt.dest = true → h.unroutable (h.emitPacket n x s.pkt) = false → h.polConforms n (16 + 4 * s.pkt.length) = false → runs n (.pemitFabric n d gd true) h ((h.setGpr n gd 0xFFFFFFFD#32).finish n))
    ∧ (h.heldSound n d = some (x, s) → tidValid s.pkt.dest = true → h.unroutable (h.emitPacket n x s.pkt) = false → h.polConforms n (16 + 4 * s.pkt.length) = false → runs n (.pemitFabric n d gd false) h (((((h.setPol n { h.polRefill n with drop := satAdd top48 (h.polRefill n).drop 1 }).setDd n d none).release x.pid).setGpr n gd 0xFFFFFFFD#32).finish n))
    ∧ (∀ (k : Hub), h.heldSound n d = some (x, s) → tidValid s.pkt.dest = true → h.unroutable (h.emitPacket n x s.pkt) = false → h.polConforms n (16 + 4 * s.pkt.length) = true → k.ctxState n = cxRunning → k.inCode n ((k.ctx n).pc + 1) = true → ((h.police n (16 + 4 * s.pkt.length)).1.emitRouted n d x s (h.emitPacket n x s.pkt)) = (k, true) → runs n (.pemitFabric n d gd keep) h ((k.setGpr n gd 0#32).finish n))
    ∧ (∀ (b k g : Hub) (p : Packet) (u : Target), h.heldSound n d = some (x, s) → p = h.emitPacket n x s.pkt → tidValid p.dest = true → h.unroutable p = false → h.police n p.polBytes = (b, true) → b.holdOf (b.way p none) = none → b.ownTargets n p = (k, [u]) → g = (k.setStored x.pid { s with pkt := p, arr := none, orig := some n.val }).setDd n d none → g.queueLimit u.out u.q p.cls < g.queueCells u.out u.q + s.cells.length → runs n (.pemitFabric n d gd true) h ((h.setGpr n gd 0xFFFFFFFE#32).finish n))
    ∧ (∀ (b k g : Hub) (p : Packet) (u : Target), h.heldSound n d = some (x, s) → p = h.emitPacket n x s.pkt → tidValid p.dest = true → h.unroutable p = false → h.police n p.polBytes = (b, true) → b.holdOf (b.way p none) = none → b.ownTargets n p = (k, [u]) → g = (k.setStored x.pid { s with pkt := p, arr := none, orig := some n.val }).setDd n d none → g.queueLimit u.out u.q p.cls < g.queueCells u.out u.q + s.cells.length → runs n (.pemitFabric n d gd false) h ((((g.count u.out u.q p.cls 2).release x.pid).setGpr n gd 0xFFFFFFFE#32).finish n))
    ∧ (∀ (b k g : Hub) (p : Packet) (u : Target), h.heldSound n d = some (x, s) → p = h.emitPacket n x s.pkt → tidValid p.dest = true → h.unroutable p = false → h.police n p.polBytes = (b, true) → b.holdOf (b.way p none) = none → b.ownTargets n p = (k, [u]) → g = (k.setStored x.pid { s with pkt := p, arr := none, orig := some n.val }).setDd n d none → g.queueCells u.out u.q + s.cells.length ≤ g.queueLimit u.out u.q p.cls → g.get (R.FAB_OLIM_LIM u.out p.cls.ix) < g.outUse u.out p.cls + s.cells.length → runs n (.pemitFabric n d gd true) h ((h.setGpr n gd 0xFFFFFFFE#32).finish n))
    ∧ (∀ (b k g : Hub) (p : Packet) (u : Target), h.heldSound n d = some (x, s) → p = h.emitPacket n x s.pkt → tidValid p.dest = true → h.unroutable p = false → h.police n p.polBytes = (b, true) → b.holdOf (b.way p none) = none → b.ownTargets n p = (k, [u]) → g = (k.setStored x.pid { s with pkt := p, arr := none, orig := some n.val }).setDd n d none → g.queueCells u.out u.q + s.cells.length ≤ g.queueLimit u.out u.q p.cls → g.get (R.FAB_OLIM_LIM u.out p.cls.ix) < g.outUse u.out p.cls + s.cells.length → runs n (.pemitFabric n d gd false) h ((((g.count u.out u.q p.cls 3).release x.pid).setGpr n gd 0xFFFFFFFE#32).finish n))
    ∧ (h.heldSound n d = some (x, s) → h.bindEnd n ≠ 0 → h.adpRoom n = false → runs n (.pemitEndpoint n d gd true) h ((h.setGpr n gd 0xFFFFFFFE#32).finish n))
    ∧ (h.heldSound n d = some (x, s) → h.bindEnd n ≠ 0 → h.adpRoom n = false → runs n (.pemitEndpoint n d gd false) h ((((h.setDd n d none).release x.pid).setGpr n gd 0xFFFFFFFE#32).finish n))
    ∧ (h.heldSound n d = some (x, s) → h.bindEnd n ≠ 0 → h.adpRoom n = true → runs n (.pemitEndpoint n d gd keep) h (((((h.setDd n d none).release x.pid).epGive n s.pkt).setGpr n gd 0#32).finish n))
    ∧ (h.heldSound n d = some (x, s) → h.bindEnd n = 0 → runs n (.pemitEndpoint n d gd keep) h ((h.issued n).trap n 9 (h.ctx n).pc 5))
    ∧ (runs n (.qdepth n gd 0 0 0) h ((h.setGpr n gd (W (h.queueCells 13 n))).finish n))
    ∧ (runs n (.qdepth n gd 0 3 0) h ((h.setGpr n gd (W h.cellsFree)).finish n))
    ∧ (∀ (o : Fin 4) (q : Nat), o.val ≠ 3 → q = (h.gpr n ga).toNat % 2 ^ 14 → queueValid o q = true → runs n (.qdepth n gd ga 1 o) h ((h.setGpr n gd (W (h.queueCells o q))).finish n))
    ∧ (h.fetched n = some (wordI 0x28 gd ga (1 * 2 ^ 16 + 3)) → becomes (.qdepth n gd ga 1 3) h ((h.issued n).trap n 1 (h.ctx n).pc 0) ∧ becomes (.illegalInstruction n) h ((h.issued n).trap n 1 (h.ctx n).pc 0))
    ∧ (∀ (o : Fin 4) (q : Nat), q = (h.gpr n ga).toNat % 2 ^ 14 → queueValid o q = false → runs n (.qdepth n gd ga 1 o) h ((h.setGpr n gd 0#32).finish n))
    ∧ ((h.queue 13 n).items = [] → runs n (.qdepth n gd 0 2 0) h ((h.setGpr n gd 0#32).finish n))
    ∧ ((h.queue 13 n).items ≠ [] → runs n (.qdepth n gd 0 2 0) h ((h.setGpr n gd (W ((h.root - (h.queue 13 n).headAt) / 8))).finish n))
    ∧ ((h.gpr n ga).toNat % 2 ^ 14 = h.spargeTid n → h.on R.FAB_SPARGE_BUSY = false → runs n (.sparge n gd ga) h (((h.spargeGo (h.spargeTid n)).setGpr n gd 0#32).finish n))
    ∧ ((h.gpr n ga).toNat % 2 ^ 14 = h.spargeTid n → h.on R.FAB_SPARGE_BUSY = true → runs n (.sparge n gd ga) h (((h.spargeGo (h.spargeTid n)).setGpr n gd 0xFFFFFFFB#32).finish n))
    ∧ (∀ (u v : Bool) (tid : Nat), tid = (h.gpr n ga).toNat % 2 ^ 14 → tid ≠ h.spargeTid n → h.decide_ 2 .write A.FAB_SPARGE = .ok u v → h.on R.FAB_SPARGE_BUSY = false → runs n (.sparge n gd ga) h (((h.spargeGo tid).setGpr n gd 0#32).finish n))
    ∧ (∀ (info tid : Nat), tid = (h.gpr n ga).toNat % 2 ^ 14 → tid ≠ h.spargeTid n → h.decide_ 2 .write A.FAB_SPARGE = .refused info → runs n (.sparge n gd ga) h (((h.deny 2 A.FAB_SPARGE info).issued n).trap n 7 (h.ctx n).pc (0x1000000 + A.FAB_SPARGE)))

/-- WAIT, TNOW, TSTAMP and TARM (R267–R271): what each does. -/
def Obligations.EventAndTimeInstructions : Prop :=
  ∀ (h : Hub) (n : Fin 96) (gd ga : Fin 16), h.awake = true → h.inCode n ((h.ctx n).pc + 1) = true → 
    (∀ (m : BitVec 9) (ev : Nat), h.canIssue n = true → ev = Nat.land (h.eventBits n) m.toNat → ev ≠ 0 → runsTo n (.wait n gd m) h (fun t => t.gpr n gd = (if gd.val = 0 then 0#32 else W ev) ∧ (t.ctx n).wdogAt = h.root ∧ (∀ k : Fin 18, 3 ≤ k.val → bit (t.ctx n).events k = (bit (h.ctx n).events k && !bit ev k)) ∧ (t.ctx n).pc = (h.ctx n).pc + 1 ∧ t = { h with regs := t.regs, links := t.links, err := t.err, tun := t.tun }))
    ∧ (∀ (m : BitVec 9), h.canIssue n = true → m ≠ 0 → Nat.land (h.eventBits n) m.toNat = 0 → runsTo n (.wait n gd m) h (fun t => t.ctxState n = cxWaiting ∧ (t.ctx n).mask = m.toNat ∧ (t.ctx n).pc = (h.ctx n).pc ∧ t = { h with regs := t.regs, links := t.links, err := t.err, tun := t.tun }))
    ∧ (h.canIssue n = true → h.fetched n = some (wordI 0x30 gd 0 0) → becomes (.wait n gd 0) h ((h.issued n).trap n 1 (h.ctx n).pc 0) ∧ becomes (.illegalInstruction n) h ((h.issued n).trap n 1 (h.ctx n).pc 0))
    ∧ (∀ (ev : Nat), h.ctxState n = cxWaiting → ev = Nat.land (h.eventBits n) (h.ctx n).mask → ev ≠ 0 → does (.contextWake n) h (fun t => t.ctxState n = cxRunning ∧ t.gpr n (h.ctx n).waitGd = (if (h.ctx n).waitGd = 0 then 0#32 else W ev) ∧ (t.ctx n).pc = (h.ctx n).pc + 1 ∧ t = { h with regs := t.regs, links := t.links, err := t.err, tun := t.tun }))
    ∧ (h.ctxState n = cxWaiting → Nat.land (h.eventBits n) (h.ctx n).mask = 0 → becomes (.contextWake n) h h)
    ∧ (h.canIssue n = true → runsTo n (.tnowSample n gd) h (fun t => t.gpr n gd = (if gd.val = 0 then 0#32 else W h.now) ∧ (t.ctx n).sample = some ⟨h.now, h.stime % 8, h.get R.TIME_STATUS_QUALITY, h.on R.TIME_STATUS_VALID⟩ ∧ (t.ctx n).pc = (h.ctx n).pc + 1 ∧ t = { h with regs := t.regs, links := t.links, err := t.err, fab := t.fab, tun := t.tun }))
    ∧ (∀ (x : Sample), h.canIssue n = true → (h.ctx n).sample = some x → runs n (.tnowPart n gd 1) h ((h.setGpr n gd (W (x.ticks / 2 ^ 32))).finish n))
    ∧ (∀ (x : Sample), h.canIssue n = true → (h.ctx n).sample = some x → runs n (.tnowPart n gd 2) h ((h.setGpr n gd (W (x.sub % 8 + 16 * (x.quality % 4) + 64 * b2n x.valid))).finish n))
    ∧ (∀ (part : BitVec 18), h.canIssue n = true → 2 < part.toNat → h.fetched n = some (wordI 0x31 gd 0 part.toNat) → becomes (.tnowPart n gd part) h ((h.issued n).trap n 1 (h.ctx n).pc 0) ∧ becomes (.illegalInstruction n) h ((h.issued n).trap n 1 (h.ctx n).pc 0))
    ∧ (∀ (age : Nat), h.canIssue n = true → age = (h.now + 2 ^ 32 - (h.gpr n ga).toNat) % 2 ^ 32 → runs n (.tstamp n gd ga 0) h ((h.setGpr n gd (W age)).finish n))
    ∧ (∀ (age : Nat), h.canIssue n = true → age = (h.now + 2 ^ 32 - (h.gpr n ga).toNat) % 2 ^ 32 → age ≤ h.now → h.now < 2 ^ 64 → runs n (.tstamp n gd ga 1) h ((h.setGpr n gd (W ((h.now - age) / 2 ^ 32))).finish n))
    ∧ (∀ (k : Nat), h.canIssue n = true → 1 ≤ k → k < 2 ^ 31 → (h.gpr n ga).toNat = (h.now + k) % 2 ^ 32 → runs n (.tarmAt n gd ga) h (((h.setTimer n (some (h.now + k))).setGpr n gd 0#32).finish n))
    ∧ (∀ (k : Nat), h.canIssue n = true → k < 2 ^ 32 → (k = 0 ∨ 2 ^ 31 ≤ k) → (h.gpr n ga).toNat = (h.now + k) % 2 ^ 32 → runs n (.tarmAt n gd ga) h ((((h.setTimer n none).latchEvent evTimer n).setGpr n gd 0xFFFFFFFA#32).finish n))
    ∧ (∀ (k : Nat), h.canIssue n = true → k = (h.gpr n ga).toNat → 1 ≤ k → k < 2 ^ 31 → runs n (.tarmAfter n gd ga) h (((h.setTimer n (some (h.now + k))).setGpr n gd 0#32).finish n))
    ∧ (∀ (k : Nat), h.canIssue n = true → k = (h.gpr n ga).toNat → (k = 0 ∨ 2 ^ 31 ≤ k) → runs n (.tarmAfter n gd ga) h ((h.setGpr n gd 0xFFFFFFFC#32).finish n))
    ∧ (h.canIssue n = true → runs n (.tarmCancel n gd) h (((h.setTimer n none).setGpr n gd 0#32).finish n))
    ∧ (∀ (k : Nat), (h.ctx n).timer = some k → becomes (.contextTimerFire n) h ((h.setTimer n none).latchEvent evTimer n))

/-- TARM of an output, OUTAT, GSTAGE, GARM and POLSET (R272–R277): what each does. -/
def Obligations.OutputAndGrantInstructions : Prop :=
  ∀ (h : Hub) (n : Fin 96) (gd ga : Fin 16) (o : Fin 8) (ea : Nat), h.awake = true → h.inCode n ((h.ctx n).pc + 1) = true → ea = (h.gpr n ga).toNat → 
    (h.canIssue n = true → h.blockOk n ea 24 = true → h.ownsOutput n o = false → runs n (.tarmOutput n gd ga o) h ((h.issued n).trap n 9 (h.ctx n).pc 7))
    ∧ (∀ (k : Hub) (r : Word), h.canIssue n = true → h.blockOk n ea 24 = true → h.ownsOutput n o = true → h.armOutput o (h.blockAt n ea 24) = (k, r) → runs n (.tarmOutput n gd ga o) h ((k.setGpr n gd r).finish n))
    ∧ (∀ (k : Hub) (b : List Word), h.armOutput o b = (k, 0#32) → b.length = 6 → k.rd (A.TIME_EVO_WIDTH o) = b.getD 4 0#32 ∧ k.rd (A.TIME_EVO_PERIOD o) = b.getD 2 0#32 ∧ k.get (R.TIME_EVO_CTRL_MODE o) = (b.getD 5 0#32).toNat % 4 ∧ (k.evo o).sched.isSome = true ∧ k.mem = h.mem)
    ∧ (∀ (k : Hub) (r : Word) (b : List Word), h.armOutput o b = (k, r) → (k.evo o).queue = [])
    ∧ (∀ (act : Bool), h.canIssue n = true → h.ownsOutput n o = false → runs n (.outat n gd ga o act) h ((h.issued n).trap n 9 (h.ctx n).pc 7))
    ∧ (∀ (act : Bool), h.canIssue n = true → h.ownsOutput n o = false → runs n (.outatCancel n gd o) h ((h.issued n).trap n 9 (h.ctx n).pc 7))
    ∧ (∀ (act : Bool) (k : Nat), h.canIssue n = true → h.ownsOutput n o = true → 64 ≤ k → k < 2 ^ 31 → ea = (h.now + k) % 2 ^ 32 → (h.evo o).sched = none → (h.evo o).queue = [] → runs n (.outat n gd ga o act) h (((h.setEvo o { h.evo o with queue := [⟨h.now + k, act⟩] }).setGpr n gd 0#32).finish n))
    ∧ (∀ (act : Bool) (k : Nat), h.canIssue n = true → h.ownsOutput n o = true → 64 ≤ k → k < 2 ^ 31 → ea = (h.now + k) % 2 ^ 32 → (h.evo o).sched = none → (queueTrans (h.evo o).queue ⟨h.now + k, act⟩).length ≤ 2 → runs n (.outat n gd ga o act) h (((h.setEvo o { h.evo o with queue := queueTrans (h.evo o).queue ⟨h.now + k, act⟩ }).setGpr n gd 0#32).finish n))
    ∧ (∀ (act : Bool) (k : Nat) (sc : EvoSched), h.canIssue n = true → h.ownsOutput n o = true → 64 ≤ k → k < 2 ^ 31 → ea = (h.now + k) % 2 ^ 32 → (h.evo o).sched = some sc → runs n (.outat n gd ga o act) h ((h.setGpr n gd 0xFFFFFFFC#32).finish n))
    ∧ (∀ (act : Bool) (k : Nat) (t u : Trans), h.canIssue n = true → h.ownsOutput n o = true → 64 ≤ k → k < 2 ^ 31 → ea = (h.now + k) % 2 ^ 32 → (h.evo o).sched = none → (h.evo o).queue = [t, u] → t.at_ ≠ h.now + k → u.at_ ≠ h.now + k → runs n (.outat n gd ga o act) h ((h.setGpr n gd 0xFFFFFFFB#32).finish n))
    ∧ (∀ (act : Bool) (k : Nat), h.canIssue n = true → h.ownsOutput n o = true → k < 2 ^ 32 → (k < 64 ∨ 2 ^ 31 ≤ k) → ea = (h.now + k) % 2 ^ 32 → runs n (.outat n gd ga o act) h ((h.setGpr n gd 0xFFFFFFFA#32).finish n))
    ∧ (h.canIssue n = true → h.ownsOutput n o = true → runs n (.outatCancel n gd o) h (((h.setEvo o { h.evo o with queue := [] }).setGpr n gd 0#32).finish n))
    ∧ (∀ (t : Trans) (ts : List Trans), (h.evo o).queue = t :: ts → h.gated o = false → becomes (.outatTransition o) h (h.setEvo o { h.evo o with queue := ts, on := t.active, pulseEnd := none }))
    ∧ (∀ (t : Trans) (ts : List Trans), (h.evo o).queue = t :: ts → h.gated o = true → becomes (.outatTransition o) h ((h.setEvo o { h.evo o with queue := ts }).bump (R.TIME_EVO_SKIP o)))
    ∧ (∀ (s : Fin 4) (e : Fin 128) (c r : Bool) (b : Nat), h.canIssue n = true → b = 1 - h.get R.SCH_STATUS_ACTIVE_BANK → h.decide_ 2 .write (A.SCH_GRANT s b e) = .ok c r → h.on R.SCH_STATUS_ARMED = false → runs n (.gstage n gd ga s e) h (((h.grantWrite s b e (h.gpr n ga)).setGpr n gd 0#32).finish n))
    ∧ (∀ (s : Fin 4) (e : Fin 128) (c r : Bool) (b : Nat), h.canIssue n = true → b = 1 - h.get R.SCH_STATUS_ACTIVE_BANK → h.decide_ 2 .write (A.SCH_GRANT s b e) = .ok c r → h.on R.SCH_STATUS_ARMED = true → runs n (.gstage n gd ga s e) h ((h.setGpr n gd 0xFFFFFFFC#32).finish n))
    ∧ (∀ (c r : Bool), h.canIssue n = true → h.decide_ 2 .write A.SCH_CTRL = .ok c r → runs n (.garmDisarm n gd) h ((h.schDisarm.setGpr n gd 0#32).finish n))
    ∧ (∀ (c r : Bool) (b : List Word), h.canIssue n = true → h.blockOk n ea 12 = true → b = h.blockAt n ea 12 → h.decide_ 2 .write (A.POL_CFG n) = .ok c r → runs n (.polset n gd ga) h (((((h.polWrite n 1 (b.getD 0 0#32).toNat).polWrite n 2 (b.getD 1 0#32).toNat).polWrite n 0 (b.getD 2 0#32).toNat).setGpr n gd 0#32).finish n))
    ∧ (∀ (info : Nat), h.canIssue n = true → h.decide_ 2 .write A.SCH_CTRL = .refused info → runsTo n (.garmDisarm n gd) h (fun t => t.ctxState n = cxTrapped ∧ t.get (R.TUNC_CTX_STATUS_CAUSE n) = 7 ∧ t.rd (A.TUNC_CTX_ADDR n) = W (0x1000000 + A.SCH_CTRL) ∧ t = { h with regs := t.regs, links := t.links, err := t.err, fab := t.fab, tun := t.tun }))

/-- The asynchronous instructions (R251, R278–R283): issue and completion. -/
def Obligations.AsyncInstructions : Prop :=
  ∀ (h : Hub) (n : Fin 96) (gd ga : Fin 16) (ea : Nat), h.canIssue n = true → h.inCode n ((h.ctx n).pc + 1) = true → ea = (h.gpr n ga).toNat → 
    (∀ (c r : Bool), h.blockOk n ea 8 = true → h.decide_ 2 .write A.SCH_CTRL = .ok c r → h.asyncRoom n .garm = true → runs n (.garm n gd ga) h (((h.asyncStart n .garm (ea + 4) (h.blockAt n ea 8)).setGpr n gd 0#32).finish n))
    ∧ (h.blockOk n ea 0x70 = true → h.asyncRoom n .tap = true → runs n (.tap n gd ga) h (((h.asyncStart n .tap (ea + 0x6C) (h.blockAt n ea 0x70)).setGpr n gd 0#32).finish n))
    ∧ (h.blockOk n ea 0x70 = true → h.asyncRoom n .tap = false → runs n (.tap n gd ga) h ((h.setGpr n gd 0xFFFFFFFB#32).finish n))
    ∧ (h.blockOk n ea 0x28 = true → ((h.blockAt n ea 0x28).getD 0 0#32).toNat % 4 = 0 → h.asyncRoom n .seal = true → runs n (.sealGcmSeal n gd ga) h (((h.asyncStart n .seal (ea + 0x24) (h.blockAt n ea 0x28)).setGpr n gd 0#32).finish n))
    ∧ (h.blockOk n ea 0x28 = true → ((h.blockAt n ea 0x28).getD 0 0#32).toNat % 4 = 1 → h.asyncRoom n .seal = true → runs n (.sealGcmOpen n gd ga) h (((h.asyncStart n .seal (ea + 0x24) (h.blockAt n ea 0x28)).setGpr n gd 0#32).finish n))
    ∧ (h.blockOk n ea 0x28 = true → ((h.blockAt n ea 0x28).getD 0 0#32).toNat % 4 = 2 → h.asyncRoom n .seal = true → runs n (.sealHmac n gd ga) h (((h.asyncStart n .seal (ea + 0x24) (h.blockAt n ea 0x28)).setGpr n gd 0#32).finish n))
    ∧ (h.blockOk n ea 0x28 = true → ((h.blockAt n ea 0x28).getD 0 0#32).toNat % 4 = 3 → h.asyncRoom n .seal = true → runs n (.sealXts n gd ga) h (((h.asyncStart n .seal (ea + 0x24) (h.blockAt n ea 0x28)).setGpr n gd 0#32).finish n))
    ∧ (∀ (i : Instr) (m : Nat) (q : List Instr), (i, m) ∈ [(Instr.tap n gd ga, 0x70), (Instr.sealGcmSeal n gd ga, 0x28), (Instr.sealGcmOpen n gd ga, 0x28), (Instr.sealHmac n gd ga, 0x28), (Instr.sealXts n gd ga, 0x28)] → h.blockReadable n ea m = true → h.spells n i = true → exec i ⟨h, q⟩ = exec i ⟨h.corrected (dataBase (n / 12) + ea) m, q⟩)
    ∧ (h.blockOk n ea 0x28 = true → ((h.blockAt n ea 0x28).getD 0 0#32).toNat % 4 = 2 → h.asyncRoom n .seal = false → runs n (.sealHmac n gd ga) h ((h.setGpr n gd 0xFFFFFFFB#32).finish n))
    ∧ (∀ (c r : Bool), h.blockOk n ea 8 = true → h.decide_ 2 .write A.SCH_CTRL = .ok c r → h.asyncRoom n .garm = false → runs n (.garm n gd ga) h ((h.setGpr n gd 0xFFFFFFFB#32).finish n))
    ∧ (∀ (c r : Bool), h.blockOk n ea 0x20 = true → h.decide_ 2 .write A.JRN_CTRL = .ok c r → h.asyncRoom n .jrec = true → runs n (.jrec n gd ga) h (((h.asyncStart n .jrec (ea + 0x1C) (h.blockAt n ea 0x20)).setGpr n gd 0#32).finish n))
    ∧ (spaceOf ea ≠ .outside → ea % 8 ≠ 0 → runs n (.tap n gd ga) h ((h.issued n).trap n 6 (h.ctx n).pc ea))
    ∧ (spaceOf ea ≠ .outside → ea % 8 ≠ 0 → runs n (.jrec n gd ga) h ((h.issued n).trap n 6 (h.ctx n).pc ea))

/-- ASYNC_OPERATION_DONE (R278): the oldest operation of a kind ends. -/
def Obligations.AsyncCompletion : Prop :=
  ∀ (h : Hub) (k : AsyncKind) (o : AsyncOp), h.awake = true → 
    (h.tun.ops.find? (fun x => x.kind == k) = none → becomes (.asyncOperationDone k) h h)
    ∧ (∀ (g : Hub) (r : Nat), h.tun.ops.find? (fun x => x.kind == k) = some o → h.tun.moving = none → h.asyncRun o = (g, some r) → o.live = true → becomes (.asyncOperationDone k) h (((({ g with tun := { g.tun with ops := g.tun.ops.erase o } } : Hub).mstore (dataBase (o.ctx / 12) + o.result) (leBytes 4 r)).latchEvent evDone o.ctx).releaseWrites))
    ∧ (∀ (g : Hub) (r : Nat), h.tun.ops.find? (fun x => x.kind == k) = some o → h.tun.moving = none → h.asyncRun o = (g, some r) → o.live = false → becomes (.asyncOperationDone k) h ({ g with tun := { g.tun with ops := g.tun.ops.erase o } } : Hub).releaseWrites)
    ∧ (∀ (g : Hub), h.tun.ops.find? (fun x => x.kind == k) = some o → h.tun.moving = none → h.asyncRun o = (g, none) → becomes (.asyncOperationDone k) h h)
    ∧ (h.tun.ops.find? (fun x => x.kind == k) = some o → h.tun.moving = some (o.ctx / 12) → becomes (.asyncOperationDone k) h h)
    ∧ (h.tun.ops.find? (fun x => x.kind == .jrec) = some o → o.kind = .jrec → o.outcome = none → becomes (.asyncOperationDone .jrec) h h)

/-- The display heads (R287–R300): what each command does where its conditions hold. -/
def Obligations.DisplayCommands : Prop :=
  ∀ (h : Hub) (d : Fin 2), h.awake = true → 
    (h.on (R.DSP_CTRL_EN d) = false → h.dspReason d = 0 → h.now + 2000 < 2 ^ 64 → does (.displayEnable d) h (fun t => t.on (R.DSP_CTRL_EN d) = true ∧ t.on (R.DSP_STATUS_WAITING d) = true ∧ t.rd (A.DSP_FRAME_CNT d) = 0#32 ∧ t.on (R.DSP_STATUS_HOLD_VALID d) = false ∧ t.get (R.DSP_STATUS_REASON d) = 0 ∧ (t.dsp d).inFrame = false ∧ t.now + 64 ≤ t.dspStart d ∧ t = { h with regs := t.regs, out := t.out, dsp0 := t.dsp0, dsp1 := t.dsp1 }))
    ∧ (h.on (R.DSP_CTRL_EN d) = false → h.dspReason d ≠ 0 → becomes (.displayEnable d) h ((h.put (R.DSP_STATUS_REFUSED d) 1).put (R.DSP_STATUS_REASON d) (h.dspReason d)))
    ∧ (h.on (R.DSP_CTRL_EN d) = true → becomes (.displayEnable d) h h)
    ∧ (h.on (R.DSP_CTRL_EN d) = true → does (.displayDisable d) h (fun t => t.on (R.DSP_CTRL_EN d) = false ∧ t.on (R.DSP_STATUS_RUNNING d) = false ∧ t.on (R.DSP_STATUS_WAITING d) = false ∧ t.on (R.DSP_STATUS_FALLBACK d) = false ∧ (t.dsp d).base.fifo = [] ∧ (t.dsp d).main.fifo = [] ∧ t = { h with regs := t.regs, out := t.out, dsp0 := t.dsp0, dsp1 := t.dsp1 }))
    ∧ (h.on (R.DSP_CTRL_EN d) = false → becomes (.displayDisable d) h h)
    ∧ (h.dspRuns d = true → (h.dsp d).inFrame = false → does (.frameStart d) h (fun t => t.rd (A.DSP_FRAME_CNT d) = h.rd (A.DSP_FRAME_CNT d) + 1#32 ∧ (t.dsp d).inFrame = true ∧ (t.dsp d).line = 0 ∧ (t.dsp d).startAt = h.now ∧ t.on (R.DSP_STATUS_RUNNING d) = true ∧ t.on (R.DSP_STATUS_WAITING d) = false ∧ t = { h with regs := t.regs, err := t.err, dsp0 := t.dsp0, dsp1 := t.dsp1 }))
    ∧ (∀ (bad : Option Nat), h.dspRuns d = true → (h.dsp d).inFrame = true → (h.dsp d).line < (h.dspV d).1 → does (.lineScan d 0 bad) h (fun t => (t.dsp d).line = (h.dsp d).line + 1 ∧ (t.dsp d).inFrame = true ∧ t = { h with regs := t.regs, out := t.out, err := t.err, dsp0 := t.dsp0, dsp1 := t.dsp1 }))
    ∧ (∀ (bad : Option Nat), h.dspRuns d = true → (h.dsp d).inFrame = true → ((h.dsp d).line = 0 ∨ (h.dsp d).line - 1 < (h.dsp d).main.set.y ∨ (h.dsp d).main.set.y + (h.dsp d).main.set.h ≤ (h.dsp d).line - 1) → becomes (.lineScan d 1 bad) h h)
    ∧ (∀ (bad : Option Nat) (q : DspLine) (qs : List DspLine), h.dspRuns d = true → (h.dsp d).inFrame = true → (h.dsp d).main.set.y < (h.dsp d).line → (h.dsp d).line - 1 < (h.dsp d).main.set.y + (h.dsp d).main.set.h → (h.dsp d).main.fifo = q :: qs → q.y = (h.dsp d).line - 1 - (h.dsp d).main.set.y → q.done = true → (h.dsp d).main.set.en = true → (h.dsp d).main.bound = true → (h.dsp d).main.geom = true → (h.dsp d).main.off = false → does (.lineScan d 1 bad) h (fun t => (t.dsp d).mainLine = some q.bytes ∧ (t.dsp d).main.fifo = qs ∧ (t.dsp d).main.lines = (h.dsp d).main.lines + 1 ∧ (t.dsp d).main.off = false ∧ (t.dsp d).line = (h.dsp d).line ∧ t = { h with regs := t.regs, dsp0 := t.dsp0, dsp1 := t.dsp1 }))
    ∧ (∀ (bad : Option Nat), h.dspRuns d = true → (h.dsp d).inFrame = true → (h.dsp d).main.set.y < (h.dsp d).line → (h.dsp d).line - 1 < (h.dsp d).main.set.y + (h.dsp d).main.set.h → (h.dsp d).main.fifo = [] → (h.dsp d).main.set.en = true → (h.dsp d).main.bound = true → (h.dsp d).main.geom = true → (h.dsp d).main.off = false → h.on (R.DSP_STATUS_FALLBACK d) = false → does (.lineScan d 1 bad) h (fun t => (t.dsp d).main.off = true ∧ t.on (R.DSP_L_STATUS_UNDERRUN d 1) = true ∧ t.get (word (A.DSP_UNDER_MAIN d)) = min (2 ^ 32 - 1) (h.get (word (A.DSP_UNDER_MAIN d)) + 1) ∧ t = { h with regs := t.regs, err := t.err, dsp0 := t.dsp0, dsp1 := t.dsp1 }))
    ∧ (∀ (bad : Option Nat), h.dspRuns d = true → (h.dsp d).inFrame = true → (h.dsp d).line = (h.dspV d).1 → (h.dsp d).base.set.en = false → (h.dsp d).main.set.en = false → does (.frameEnd d bad) h (fun t => (t.dsp d).inFrame = false ∧ (t.dsp d).line = 0 ∧ (t.dsp d).holdBank = 1 - (h.dsp d).holdBank ∧ t.rd (A.DSP_FLIP_LO d) = W (h.dsp d).startAt ∧ t.rd (A.DSP_FLIP_FRAME d) = h.rd (A.DSP_FRAME_CNT d) ∧ t.on (R.DSP_STATUS_HOLD_VALID d) = true ∧ t = { h with regs := t.regs, out := t.out, dsp0 := t.dsp0, dsp1 := t.dsp1 }))
    ∧ (∀ (l : Fin 2) (n : Nat) (p : Packet), h.dspTunnel d l = some n → h.epNext (4 + d) n = some p → h.on (R.DSP_CTRL_EN d) = false → becomes (.displaySegmentReceived d l) h ((h.epPop (4 + d) n).bumpBy (word (A.DSP_DROP d)) 1))
    ∧ (∀ (l : Fin 2) (n : Nat) (p : Packet) (v : DspLayer), h.dspTunnel d l = some n → h.epNext (4 + d) n = some p → h.on (R.DSP_CTRL_EN d) = true → p.aux % 4096 < (h.dspSet d l).h → segWords (h.dspSet d l).lineBytes (p.aux / 4096 % 16) = some p.length → ((h.dsp d).layer l).take (h.dspSet d l).lineBytes (p.aux % 4096) (p.aux / 4096 % 16) (bytesOf p.payload) = some v → becomes (.displaySegmentReceived d l) h ((h.epPop (4 + d) n).setDsp d ((h.dsp d).setLayer l v)))
    ∧ (∀ (n : Nat) (p : Packet), h.dspTunnel d 2 = some n → h.epNext (4 + d) n = some p → p.kind ≠ 0 → becomes (.bannerPacketReceived d) h ((h.epPop (4 + d) n).bumpBy (word (A.DSP_DROP d)) 1))
    ∧ (∀ (n : Nat) (p : Packet) (a : Nat) (k : Hub), h.dspTunnel d 2 = some n → h.epNext (4 + d) n = some p → p.kind = 0 → a = (h.dspSet d 2).addr + 64 * p.aux → a + 4 * p.length ≤ (h.dspSet d 2).addr + (h.dspSet d 2).h * (h.dspSet d 2).stride → h.dmaWrite a (bytesOf p.payload) = (k, .ok) → becomes (.bannerPacketReceived d) h (k.epPop (4 + d) n))

/-- The Ethernet ports (R306–R313): what each command does where its conditions hold. -/
def Obligations.EthernetCommands : Prop :=
  ∀ (h : Hub) (x : Fin 4), h.awake = true → 
    (∀ (f : List Byte) (c : Bool) (d : Fin 8), h.ethLink x ≠ 2 → becomes (.ethFrameReceived x f c d) h h)
    ∧ (∀ (f : List Byte) (d : Fin 8), h.defPower = false → h.ethLink x = 2 → h.ethRxFill x + f.length ≤ 16384 → becomes (.ethFrameReceived x f true d) h (h.bump (word (A.ETH_RX_FCS_ERR x))))
    ∧ (∀ (f : List Byte) (c : Bool) (g : BitVec 16) (d : Fin 8), h.defPower = true → becomes (.ethFrameReceived x f c d) h h ∧ becomes (.ethFrameTransmit x) h h ∧ becomes (.ethLinkUp x g) h h ∧ becomes (.ethSyncAcquired x) h h)
    ∧ (∀ (g : List Byte) (d : Fin 8), h.defPower = false → h.ethLink x = 2 → h.ethRxFill x + g.length + 4 ≤ 16384 → (g.length < 60 ∨ h.get (R.ETH_CTRL_MAX_FRAME x) < g.length + 4) → becomes (.ethFrameReceived x (g ++ wordBytes (crc32 g)) false d) h (h.bump (word (A.ETH_RX_LEN_ERR x))))
    ∧ (∀ (g : List Byte) (d : Fin 8), h.defPower = false → h.ethLink x = 2 → h.ethRxFill x + g.length + 4 ≤ 16384 → 60 ≤ g.length → g.length + 4 ≤ h.get (R.ETH_CTRL_MAX_FRAME x) → half g 12 ≠ 0x8808 → h.isPtp x g = false → h.ruleSet x g = none → becomes (.ethFrameReceived x (g ++ wordBytes (crc32 g)) false d) h (h.bump (word (A.ETH_RX_NOMATCH x))))
    ∧ (∀ (g : List Byte) (d : Fin 8), h.defPower = false → h.ethLink x = 2 → h.ethRxFill x + g.length + 4 ≤ 16384 → 60 ≤ g.length → g.length + 4 ≤ h.get (R.ETH_CTRL_MAX_FRAME x) → half g 12 ≠ 0x8808 → h.isPtp x g = true → becomes (.ethFrameReceived x (g ++ wordBytes (crc32 g)) false d) h ((h.bump (word (A.ETH_RX_FRAMES x))).setPtp x { h.ptp x with inq := (h.ptp x).inq ++ [(g.drop (if hasTag g then 18 else 14), h.ethStamp x (g.length + 4) d)] }))
    ∧ (∀ (g : List Byte) (s : Nat) (d : Fin 8), h.defPower = false → h.ethLink x = 2 → h.ethRxFill x + g.length + 4 ≤ 16384 → 60 ≤ g.length → g.length + 4 ≤ h.get (R.ETH_CTRL_MAX_FRAME x) → half g 12 ≠ 0x8808 → h.isPtp x g = false → h.ruleSet x g = some s → h.on R.FAB_STATUS_REBUILD = true → becomes (.ethFrameReceived x (g ++ wordBytes (crc32 g)) false d) h (h.setEthPort x { h.ethPort x with rxWait := (h.ethPort x).rxWait ++ [(s, g, h.ethStamp x (g.length + 4) d)] }))
    ∧ (∀ (g : List Byte) (s n dest : Nat) (k : Hub) (d : Fin 8), h.defPower = false → h.ethLink x = 2 → h.ethRxFill x + g.length + 4 ≤ 16384 → 60 ≤ g.length → g.length + 4 ≤ h.get (R.ETH_CTRL_MAX_FRAME x) → half g 12 ≠ 0x8808 → h.isPtp x g = false → h.ruleSet x g = some s → h.on R.FAB_STATUS_REBUILD = false → h.setTunnel x s = some n → h.bindMode n = 1 → h.on (R.ETH_SET_EGRESS_TRAILER x s) = false → dest = (h.rd (A.ETH_SET_DEST x s)).toNat % 16384 → tidValid dest = true → hubOf dest ≠ 127 → (h.hasAddr && hubOf dest == h.addr) = false → (h.bump (word (A.ETH_RX_FRAMES x))).sendSegments n dest (segments g none) = (k, true) → becomes (.ethFrameReceived x (g ++ wordBytes (crc32 g)) false d) h k)
    ∧ (∀ (g : List Byte) (s n : Nat) (d : Fin 8), h.ethLink x = 2 → h.ethRxFill x + g.length + 4 ≤ 16384 → 60 ≤ g.length → g.length ≤ 500 → g.length + 4 ≤ h.get (R.ETH_CTRL_MAX_FRAME x) → half g 12 ≠ 0x8808 → h.isPtp x g = false → h.ruleSet x g = some s → h.setTunnel x s = some n → h.bindMode n = 2 → h.on (R.ETH_SET_EGRESS_TRAILER x s) = false → h.on R.FAB_STATUS_REBUILD = false → h.defPower = false → does (.ethFrameReceived x (g ++ wordBytes (crc32 g)) false d) h (fun u => u.regs = (h.bump (word (A.ETH_RX_FRAMES x))).regs ∧ (u.epInOf n).length = (h.epInOf n).length + 1 ∧ (u.epInOf n).getLast?.map Packet.payload = some (segment g.length false g 0) ∧ u = { h with regs := u.regs, free := u.free, rt := u.rt, err := u.err, fab := u.fab, tun := u.tun, eth := u.eth }))
    ∧ (∀ (s : Fin 8) (n : Nat) (p : Packet), h.setTunnel x s = some n → h.epNext (6 + x) n = some p → h.ethLink x ≠ 2 → (h.ethPort x).parts = [] → (p.payload.getD 0 0#32).toNat % 8 = 0 → becomes (.ethSegmentReceived x s) h ((h.epPop (6 + x) n).bump (word (A.ETH_TX_DOWN_DROP x))))
    ∧ (∀ (s : Fin 8) (n : Nat) (p : Packet) (bs : List Byte), h.setTunnel x s = some n → h.epNext (6 + x) n = some p → h.ethLink x = 2 → (h.ethPort x).parts = [] → (p.payload.getD 0 0#32).toNat % 16 = 8 → segData p = some bs → does (.ethSegmentReceived x s) h (fun t => (t.ethPort x).txq = (h.ethPort x).txq ++ [(s.val, bs.take ((p.payload.getD 0 0#32).toNat / 65536))] ∧ (t.ethPort x).parts = [] ∧ t = { h with fab := t.fab, tun := t.tun, eth := t.eth }))
    ∧ (∀ (s : Fin 8) (src : Fin 128) (q : EthPart), (h.ethPort x).parts.find? (fun e => e.set == s.val && e.src == src.val) = some q → does (.ethReassemblyTimeout x s src) h (fun t => (t.ethPort x).parts = (h.ethPort x).parts.erase q ∧ t.regs = (h.bump (word (A.ETH_TX_REASM_ERR x))).regs ∧ (t.ethPort x).txq = (h.ethPort x).txq ∧ t = { h with regs := t.regs, eth := t.eth }))
    ∧ (∀ (s : Fin 8) (src : Fin 128), (h.ethPort x).parts.find? (fun e => e.set == s.val && e.src == src.val) = none → becomes (.ethReassemblyTimeout x s src) h h)
    ∧ (∀ (s : Nat) (f : List Byte) (rest : List (Nat × List Byte)), (h.ethPort x).txq = (s, f) :: rest → h.ethLink x = 2 → h.defPower = false → does (.ethFrameTransmit x) h (fun t => t.out = .eth x (withFcs (pad60 (h.tagged x s f))) :: h.out ∧ t.regs = (h.bump (word (A.ETH_TX_FRAMES x))).regs ∧ (t.ethPort x).txq = rest ∧ t = { h with regs := t.regs, out := t.out, eth := t.eth }))
    ∧ (h.defPower = false → h.ethLink x = 0 → h.get (R.ETH_CTRL_MODE x) ≠ 0 → h.clkMode ≠ ckFree → h.ethAn x = false → becomes (.ethSyncAcquired x) h ((h.put (R.ETH_STATUS_LOS x) 0).put (R.ETH_STATUS_LINK x) 1))
    ∧ (h.defPower = false → h.ethLink x = 0 → h.clkMode ≠ ckFree → h.ethAn x = true → becomes (.ethSyncAcquired x) h (((h.put (R.ETH_STATUS_LOS x) 0).put (R.ETH_STATUS_LINK x) 1).emit (.ethPage x 0x20)))
    ∧ (∀ (page : BitVec 16), h.defPower = false → h.ethLink x = 1 → h.ethAn x = false → becomes (.ethLinkUp x page) h ((h.put (R.ETH_STATUS_LINK x) 2).ethNotice x))
    ∧ (∀ (page : BitVec 16), h.defPower = false → h.ethLink x = 1 → h.ethAn x = true → page.getLsbD 5 = true → does (.ethLinkUp x page) h (fun t => t.ethLink x = 2 ∧ t.rd (A.ETH_AN_LP x) = page.zeroExtend 32 ∧ t.on (R.ETH_STATUS_AN_DONE x) = true ∧ t.on (R.ETH_STATUS_AN_FAIL x) = false ∧ t = { h with regs := t.regs, err := t.err }))
    ∧ (∀ (page : BitVec 16), h.defPower = false → h.ethLink x = 1 → h.ethAn x = true → page.getLsbD 5 = false → does (.ethLinkUp x page) h (fun t => t.ethLink x = 1 ∧ t.rd (A.ETH_AN_LP x) = page.zeroExtend 32 ∧ t.on (R.ETH_STATUS_AN_DONE x) = true ∧ t.on (R.ETH_STATUS_AN_FAIL x) = true ∧ t = { h with regs := t.regs }))
    ∧ (∀ (los : Bool), h.ethLink x = 2 → does (.ethLinkDown x los) h (fun t => t.ethLink x = 0 ∧ t.on (R.ETH_STATUS_LOS x) = los ∧ (t.ethPort x).txq = [] ∧ t.get (word (A.ETH_LINK_DOWN_CNT x)) = min (2 ^ 32 - 1) (h.get (word (A.ETH_LINK_DOWN_CNT x)) + 1) ∧ t = { h with regs := t.regs, err := t.err, eth := t.eth }))
    ∧ (∀ (los : Bool), h.ethLink x ≠ 2 → does (.ethLinkDown x los) h (fun t => t.ethLink x = 0 ∧ t.on (R.ETH_STATUS_LOS x) = los ∧ t = { h with regs := t.regs }))
    ∧ (∀ (m : BitVec 2) (an : Bool), m ≠ 3 → m.toNat ≠ h.get (R.ETH_CTRL_MODE x) → does (.ethModeChange x m an) h (fun t => t.get (R.ETH_CTRL_MODE x) = m.toNat ∧ t.on (R.ETH_CTRL_AN_EN x) = an ∧ t.ethLink x = 0 ∧ t = { h with regs := t.regs, out := t.out, err := t.err, eth := t.eth }))
    ∧ (∀ (m : BitVec 2) (an : Bool), (m = 3 ∨ m.toNat = h.get (R.ETH_CTRL_MODE x)) → an = h.on (R.ETH_CTRL_AN_EN x) → becomes (.ethModeChange x m an) h h)
    ∧ (does (.ethAnRestart x) h (fun t => t.ethLink x = 0 ∧ t.get (R.ETH_CTRL_MODE x) = h.get (R.ETH_CTRL_MODE x) ∧ t = { h with regs := t.regs, out := t.out, err := t.err, eth := t.eth }))

/-- The PTP boundary clock (R314–R317): what each command does where its conditions hold. -/
def Obligations.PtpCommands : Prop :=
  ∀ (h : Hub) (x : Fin 4), h.awake = true → 
    (∀ (m : List Byte) (t : Nat) (rest : List (List Byte × Nat)), (h.ptp x).inq = (m, t) :: rest → h.on R.PTP_CTRL_EN = true → 44 ≤ m.length → m.getD 4 0#8 ≠ BitVec.ofNat 8 (h.rd A.PTP_DS).toNat → becomes (.ptpMessageReceived x) h ((h.setPtp x { h.ptp x with inq := rest }).bump (word (A.PTP_DISCARD x))))
    ∧ (∀ (m : List Byte) (t : Nat) (rest : List (List Byte × Nat)), (h.ptp x).inq = (m, t) :: rest → h.on R.PTP_CTRL_EN = true → 44 ≤ m.length → m.getD 4 0#8 = BitVec.ofNat 8 (h.rd A.PTP_DS).toNat → ((m.getD 0 0#8).toNat % 16 = 0 ∨ (m.getD 0 0#8).toNat % 16 = 11) → does (.ptpMessageReceived x) h (fun u => (u.ptp x).inq = rest ∧ u.on (R.PTP_PORT_STATUS_FOREIGN x) = true ∧ u.get (word (A.PTP_FOREIGN x)) = min (2 ^ 32 - 1) (h.get (word (A.PTP_FOREIGN x)) + 1) ∧ u = { h with regs := u.regs, out := u.out, err := u.err, eth := u.eth }))
    ∧ (∀ (m : List Byte) (t : Nat) (rest : List (List Byte × Nat)), h.on R.PTP_STATUS_APPLY_PENDING = false → (h.ptp x).inq = (m, t) :: rest → 44 ≤ m.length → m.getD 4 0#8 = BitVec.ofNat 8 (h.rd A.PTP_DS).toNat → (m.getD 0 0#8).toNat % 16 = 2 → h.ptpState x ≠ 0 → h.on R.PTP_CTRL_TWO_STEP = false → does (.ptpMessageReceived x) h (fun u => (u.ptp x).inq = rest ∧ u.get (word (A.PTP_PDELAY_RX x)) = min (2 ^ 32 - 1) (h.get (word (A.PTP_PDELAY_RX x)) + 1) ∧ u.out = .eth x (withFcs (pad60 (h.ptpFrame x true (h.ptpMsg x 3 0 0 (msgCorr m + ((h.ethSentStamp x : Int) - t) * 16384) (msgSeq m) 5 0x7F (tsBytes 0 0 ++ (m.drop 20).take 10))))) :: h.out ∧ u = { h with regs := u.regs, out := u.out, eth := u.eth }))
    ∧ (∀ (m : List Byte) (t : Nat) (rest : List (List Byte × Nat)) (r : PtpReq), (h.ptp x).inq = (m, t) :: rest → h.on R.PTP_CTRL_EN = true → 44 ≤ m.length → m.getD 4 0#8 = BitVec.ofNat 8 (h.rd A.PTP_DS).toNat → (m.getD 0 0#8).toNat % 16 = 3 → (h.ptp x).req = some r → msgSeq m = r.seq → (m.drop 44).take 10 = h.ptpPortId x → (m.getD 6 0#8).getLsbD 1 = false → does (.ptpMessageReceived x) h (fun u => (u.ptp x).inq = rest ∧ (u.ptp x).req = none ∧ u.rd (A.PTP_PDELAY x) = W (min (2 ^ 24 - 1) (((t : Int) - r.t1 - msgCorr m / 16384) / 2).toNat + 2 ^ 31) ∧ u = { h with regs := u.regs, eth := u.eth }))
    ∧ (h.on R.PTP_STATUS_APPLY_PENDING = false → h.ptpState x ≠ 1 → becomes (.ptpSyncSend x) h h ∧ becomes (.ptpAnnounceSend x) h h ∧ becomes (.ptpPdelayReqSend x) h h)
    ∧ (h.on R.PTP_STATUS_APPLY_PENDING = true → h.ptpAdopt.ptpState x ≠ 1 → becomes (.ptpSyncSend x) h h.ptpAdopt ∧ becomes (.ptpAnnounceSend x) h h.ptpAdopt ∧ becomes (.ptpPdelayReqSend x) h h.ptpAdopt)
    ∧ (∀ (t : Hub), h.on R.PTP_STATUS_APPLY_PENDING = true → h.ptpAdopt.ptpState x = 1 → (becomes (.ptpSyncSend x) h.ptpAdopt t → becomes (.ptpSyncSend x) h t) ∧ (becomes (.ptpAnnounceSend x) h.ptpAdopt t → becomes (.ptpAnnounceSend x) h t) ∧ (becomes (.ptpPdelayReqSend x) h.ptpAdopt t → becomes (.ptpPdelayReqSend x) h t))
    ∧ (h.ptpState x = 1 → h.on R.PTP_STATUS_APPLY_PENDING = false → h.on R.PTP_CTRL_TWO_STEP = false → does (.ptpSyncSend x) h (fun t => (t.ptp x).syncSeq = ((h.ptp x).syncSeq + 1) % 65536 ∧ t.get (word (A.PTP_SYNC_TX x)) = min (2 ^ 32 - 1) (h.get (word (A.PTP_SYNC_TX x)) + 1) ∧ t.out = .eth x (withFcs (pad60 (h.ptpFrame x false (h.ptpMsg x 0 0 0 (((h.ethSentStamp x % 4 : Nat) : Int) * 16384) (h.ptp x).syncSeq 0 (h.get R.PTP_INTERVALS_LOG_SYNC) (tsBytes (h.ptpTime (h.ethSentStamp x)).1 (h.ptpTime (h.ethSentStamp x)).2.1))))) :: h.out ∧ t = { h with regs := t.regs, out := t.out, eth := t.eth }))
    ∧ (h.ptpState x = 1 → h.on R.PTP_STATUS_APPLY_PENDING = false → does (.ptpAnnounceSend x) h (fun t => (t.ptp x).annSeq = ((h.ptp x).annSeq + 1) % 65536 ∧ t.out.length = h.out.length + 1 ∧ t.regs = (h.bump (word (A.ETH_TX_FRAMES x))).regs ∧ t = { h with regs := t.regs, out := t.out, eth := t.eth }))
    ∧ (h.ptpState x = 1 → h.on R.PTP_STATUS_APPLY_PENDING = false → does (.ptpPdelayReqSend x) h (fun t => (t.ptp x).reqSeq = ((h.ptp x).reqSeq + 1) % 65536 ∧ (t.ptp x).req = some ⟨(h.ptp x).reqSeq, h.ethSentStamp x, none⟩ ∧ t.out.length = h.out.length + 1 ∧ t = { h with regs := t.regs, out := t.out, eth := t.eth }))
    ∧ (does (.ptpOriginApply false) h (fun t => t.eth.originS = (h.rd A.PTP_ORIGIN_S_LO).toNat + (h.rd A.PTP_ORIGIN_S_HI).toNat % 65536 * 2 ^ 32 ∧ t.eth.originNs = (h.rd A.PTP_ORIGIN_NS).toNat % 2 ^ 30 ∧ t.on R.PTP_STATUS_ORIGIN_SET = true ∧ t.on R.PTP_STATUS_APPLY_PENDING = false ∧ t = { h with regs := t.regs, eth := t.eth }))
    ∧ (becomes (.ptpOriginApply true) h (h.put R.PTP_STATUS_APPLY_PENDING 1))

/-- The serial channels (R322–R330): what each command does where its conditions hold. -/
def Obligations.SerialCommands : Prop :=
  ∀ (h : Hub) (c : Fin 8), h.awake = true → h.defPower = false → 
    (∀ (b : Byte) (par : Bool) (n : Nat), h.on (R.SER_CFG_EN c) = true → h.serDeaf c = false → (h.parityOf c ((List.range (h.dataBits c)).map (fun i => bit b.toNat i))).all (fun q => q == par) = true → h.serTunnel c = some n → (h.chan c).closed = [] → h.on (R.SER_CFG_FRAME_MODE c) = true → (h.chan c).fill.length < 511 → does (.serCharacterReceived c b par true) h (fun t => (t.chan c).fill = (h.chan c).fill ++ [if h.on (R.SER_CFG_DATA7 c) = true then b &&& 0x7F#8 else b] ∧ (t.chan c).fillErr = (h.chan c).fillErr ∧ (t.chan c).tx = (h.chan c).tx ∧ t = { h with ser := t.ser }))
    ∧ (∀ (b : Byte) (err : Bool) (v : Byte) (par stop : Bool) (n : Nat), h.on (R.SER_CFG_EN c) = true → h.serDeaf c = false → h.serRead c v par stop = (b, err, false) → h.serTunnel c = some n → (h.chan c).closed.length < 2 → h.on (R.SER_CFG_FRAME_MODE c) = true → (h.chan c).fill.length < 511 → does (.serCharacterReceived c v par stop) h (fun t => (t.chan c).fill = (h.chan c).fill ++ [b] ∧ (t.chan c).fillErr = ((h.chan c).fillErr || err) ∧ t.regs = (if err then (h.bump (word (A.SER_RX_ERR c))).regs else h.regs) ∧ t = { h with regs := t.regs, ser := t.ser }))
    ∧ (∀ (b : Byte) (err : Bool) (v : Byte) (par stop : Bool), h.on (R.SER_CFG_EN c) = true → h.serDeaf c = false → h.serRead c v par stop = (b, err, true) → does (.serCharacterReceived c v par stop) h (fun t => (t.chan c).fill = [] ∧ (t.chan c).closed = (h.chan c).closed ++ (if (h.chan c).fill = [] then [] else [⟨(h.chan c).fill, false, (h.chan c).fillErr, h.root⟩]) ∧ t.regs = (h.bump (word (A.SER_RX_BREAK c))).regs ∧ t = { h with regs := t.regs, ser := t.ser }))
    ∧ (∀ (b : Byte) (err : Bool) (v : Byte) (par stop : Bool) (n : Nat), h.on (R.SER_CFG_EN c) = true → h.serDeaf c = false → h.serRead c v par stop = (b, err, false) → h.serTunnel c = some n → 2 ≤ (h.chan c).closed.length → does (.serCharacterReceived c v par stop) h (fun t => (t.chan c).fill = (h.chan c).fill ∧ (t.chan c).closed = (h.chan c).closed ∧ t.regs = (h.bump (word (A.SER_RX_OVERRUN c))).regs ∧ t = { h with regs := t.regs, ser := t.ser }))
    ∧ (∀ (b : Byte) (err : Bool) (v : Byte) (par stop : Bool) (n : Nat), h.on (R.SER_CFG_EN c) = true → h.serDeaf c = false → h.serRead c v par stop = (b, err, false) → h.serTunnel c = some n → (h.chan c).closed = [] → h.on (R.SER_CFG_FRAME_MODE c) = true → (h.chan c).fill.length = 511 → does (.serCharacterReceived c v par stop) h (fun t => (t.chan c).fill = [] ∧ (t.chan c).closed = [⟨(h.chan c).fill ++ [b], false, (h.chan c).fillErr || err, h.root⟩] ∧ t.regs = (if err then (h.bump (word (A.SER_RX_ERR c))).regs else h.regs) ∧ t = { h with regs := t.regs, ser := t.ser }))
    ∧ (∀ (b : Byte) (err : Bool) (v : Byte) (par stop : Bool), h.on (R.SER_CFG_EN c) = true → h.serDeaf c = false → h.serRead c v par stop = (b, err, false) → h.serTunnel c = none → does (.serCharacterReceived c v par stop) h (fun t => (t.chan c).fill = (h.chan c).fill ∧ t.regs = (h.bump (word (A.SER_RX_DISCARD c))).regs ∧ t = { h with regs := t.regs, ser := t.ser }))
    ∧ (∀ (v : Byte) (par stop : Bool), (h.on (R.SER_CFG_EN c) = false ∨ h.serDeaf c = true) → becomes (.serCharacterReceived c v par stop) h h)
    ∧ ((h.chan c).fill ≠ [] → does (.serGapTimeout c) h (fun t => (t.chan c).fill = [] ∧ (t.chan c).closed = (h.chan c).closed ++ [⟨(h.chan c).fill, h.on (R.SER_CFG_FRAME_MODE c), (h.chan c).fillErr, h.root⟩] ∧ t = { h with ser := t.ser }))
    ∧ (∀ (n : Nat) (p : SerRx) (ps : List SerRx), h.serTunnel c = some n → h.bindMode n = 1 → h.on R.FAB_STATUS_REBUILD = false → (h.chan c).closed = p :: ps → does (.serRxBankSend c) h (fun t => (t.chan c).closed = ps ∧ (t.chan c).fill = (h.chan c).fill ∧ t = { h with regs := t.regs, free := t.free, rt := t.rt, err := t.err, fab := t.fab, tun := t.tun, ser := t.ser }))
    ∧ (h.on R.FAB_STATUS_REBUILD = true → becomes (.serRxBankSend c) h h)
    ∧ (∀ (n : Fin 96) (p : Packet), h.bindMode n ≠ 0 → h.bindEnd n = 0x10 → h.epNext 10 n = some p → p.aux % 8 = c.val → bit (h.bindArg n) c = true → p.kind = 0 → 0 < p.aux / 64 → p.aux / 64 ≤ 512 → p.length = (p.aux / 64 + 3) / 4 → h.on (R.SER_CFG_EN c) = true → (h.chan c).tx = [] → does (.serTxPacket n) h (fun t => (t.chan c).tx = [⟨(bytesOf p.payload).take (p.aux / 64), bit p.aux 4, false, n⟩] ∧ t = { h with fab := t.fab, tun := t.tun, ser := t.ser }))
    ∧ (∀ (n : Fin 96) (p : Packet), h.bindMode n ≠ 0 → h.bindEnd n = 0x10 → h.epNext 10 n = some p → p.aux % 8 = c.val → bit (h.bindArg n) c = false → becomes (.serTxPacket n) h ((h.epPop 10 n).bump (word (A.SER_TX_DISCARD c))))
    ∧ (∀ (x : SerChan) (b : Byte) (bs : List Byte) (s : Bool) (n : Nat) (ts : List SerTx), h.on (R.SER_CFG_EN c) = true → x = h.serRaise c (h.chan c) → h.serMay c x = true → x.tx = ⟨b :: bs, false, s, n⟩ :: ts → does (.serCharacterTransmit c) h (fun t => t.out = h.outBall (.ser c (h.serBits c b)) ∧ (t.chan c).tx = (if bs = [] then ts else ⟨bs, false, true, n⟩ :: ts) ∧ (t.chan c).charEnd = h.root + h.charTime c ∧ (t.chan c).fill = (h.chan c).fill ∧ t = { h with out := t.out, ser := t.ser }))
    ∧ (∀ (x : SerChan) (bs : List Byte) (s : Bool) (n : Nat) (ts : List SerTx), h.on (R.SER_CFG_EN c) = true → x = h.serRaise c (h.chan c) → h.serMay c x = true → x.tx = ⟨bs, true, s, n⟩ :: ts → does (.serCharacterTransmit c) h (fun t => t.out = h.outBall (.serBreak c) ∧ (t.chan c).tx = (if bs = [] then ts else ⟨bs, false, true, n⟩ :: ts) ∧ (t.chan c).charEnd = h.root + 2 * h.charTime c ∧ t = { h with out := t.out, ser := t.ser }))
    ∧ (h.on (R.SER_CFG_EN c) = true → h.serMay c (h.serRaise c (h.chan c)) = false → does (.serCharacterTransmit c) h (fun t => t.out = h.out ∧ (t.chan c).tx = (h.chan c).tx ∧ t = { h with ser := t.ser }))
    ∧ (h.on (R.SER_CFG_EN c) = false → becomes (.serCharacterTransmit c) h h)
    ∧ (h.rs485 c = true → h.on (R.SER_CFG_EN c) = true → (h.chan c).tx = [] → (h.chan c).charEnd + h.get (R.SER_DE_TRAIL c) * h.bitTime c ≤ h.root → does (.serDeFall c) h (fun t => (t.chan c).rts = false ∧ (t.chan c).fill = (h.chan c).fill ∧ t = { h with ser := t.ser }))
    ∧ (∀ (a : Bool), becomes (.serCtsChange c a) h (h.setChan c { h.chan c with cts := some a }))
    ∧ (does (.serDumpRx c) h (fun t => (t.chan c).fill = [] ∧ (t.chan c).closed = [] ∧ (t.chan c).tx = (h.chan c).tx ∧ t.regs = (h.bumpBy (word (A.SER_RX_DISCARD c)) ((h.chan c).closed.length + (if (h.chan c).fill = [] then 0 else 1))).regs ∧ t = { h with regs := t.regs, ser := t.ser }))
    ∧ (does (.serDumpTx c) h (fun t => (t.chan c).tx = [] ∧ (t.chan c).fill = (h.chan c).fill ∧ (t.chan c).charEnd ≤ h.root ∧ t.out = (if h.root < (h.chan c).charEnd then h.outBall (.serCut c) else h.out) ∧ t.regs = (h.bumpBy (word (A.SER_TX_DISCARD c)) ((h.chan c).txPackets h.root)).regs ∧ t = { h with regs := t.regs, out := t.out, ser := t.ser }))

/-- The USB port states (R343–R346, R352, R354): what each command does where its conditions hold. -/
def Obligations.UsbPortCommands : Prop :=
  ∀ (h : Hub) (p : Fin 4), h.awake = true → h.defPower = false → 
    (h.on R.USBH_CTRL_EN = true → h.usbState p = upOff → h.on (R.USBH_PORT_STATUS_OC p) = false → does (.usbPortPowerOn p) h (fun t => (t.usbPort p).vbus = true ∧ t.usbState p = upOff ∧ t = { h with usb := t.usb }))
    ∧ (h.on (R.USBH_PORT_STATUS_OC p) = true → becomes (.usbPortPowerOn p) h h)
    ∧ (h.usbState p = upOff → (h.usbPort p).vbus = true → becomes (.usbPortPowerGood p) h (h.put (R.USBH_PORT_STATUS_STATE p) upDisconnected))
    ∧ (does (.usbPortPowerOff p) h (fun t => t.usbState p = upOff ∧ t.usbSpeed p = 3 ∧ t.on (R.USBH_PORT_STATUS_CONNECT p) = false ∧ (t.usbPort p).vbus = false ∧ t = { h with regs := t.regs, usb := t.usb }))
    ∧ ((h.usbState p = upDisabled ∨ h.usbState p = upEnabled) → does (.usbPortReset p) h (fun t => t.usbState p = upResetting ∧ (t.usbPort p).chirp = false ∧ t.out = .usbReset p :: h.out ∧ (∀ s ∈ (t.usbPort p).splits, h.usbState p = upEnabled → s.rec_.hub = false → s.res.isSome = true) ∧ t = { h with regs := t.regs, out := t.out, usb := t.usb }))
    ∧ (h.usbState p = upResetting → does (.usbChirpDetected p) h (fun t => (t.usbPort p).chirp = true ∧ t.out = .usbKj p :: h.out ∧ t = { h with out := t.out, usb := t.usb }))
    ∧ (h.usbState p = upResetting → does (.usbResetComplete p) h (fun t => t.usbState p = upEnabled ∧ t.usbSpeed p = (if (h.usbPort p).chirp then 2 else if (h.usbPort p).low then 1 else 0) ∧ t.on (R.USBH_PORT_STATUS_C_RESET p) = true ∧ t = { h with regs := t.regs, usb := t.usb }))
    ∧ (h.usbState p = upEnabled → does (.usbPortDisable p) h (fun t => t.usbState p = upDisabled ∧ (∀ s ∈ (t.usbPort p).splits, s.rec_.hub = false → s.res.isSome = true) ∧ t = { h with regs := t.regs, usb := t.usb }))
    ∧ (h.usbState p = upEnabled → becomes (.usbPortSuspend p) h (h.put (R.USBH_PORT_STATUS_STATE p) upSuspended))
    ∧ (h.usbState p = upSuspended → becomes (.usbPortResume p) h ((h.put (R.USBH_PORT_STATUS_STATE p) upResuming).emit (.usbResume p)))
    ∧ (h.usbState p ≠ upSuspended → becomes (.usbPortResume p) h h)
    ∧ (h.usbState p = upResuming → does (.usbResumeComplete p) h (fun t => t.usbState p = upEnabled ∧ t.on (R.USBH_PORT_STATUS_C_SUSPEND p) = true ∧ t.usb.reports ≠ [] ∧ t = { h with regs := t.regs, usb := t.usb }))
    ∧ (h.usbState p = upSuspended → does (.usbRemoteWake p) h (fun t => t.usbState p = upResuming ∧ t.on (R.USBH_PORT_STATUS_WAKE_SEEN p) = true ∧ t.out = .usbResume p :: h.out ∧ t = { h with regs := t.regs, out := t.out }))
    ∧ (∀ (low : Bool), h.usbState p = upDisconnected → does (.usbConnect p low) h (fun t => t.usbState p = upDisabled ∧ t.on (R.USBH_PORT_STATUS_CONNECT p) = true ∧ t.usbSpeed p = (if low then 1 else 0) ∧ (t.usbPort p).low = low ∧ t.on (R.USBH_PORT_STATUS_C_CONNECT p) = true ∧ t = { h with regs := t.regs, usb := t.usb }))
    ∧ (∀ (low : Bool), h.usbState p ≠ upDisconnected → becomes (.usbConnect p low) h h)
    ∧ (h.usbState p ≠ upOff → h.usbState p ≠ upDisconnected → does (.usbDisconnect p) h (fun t => t.usbState p = upDisconnected ∧ t.usbSpeed p = 3 ∧ t.on (R.USBH_PORT_STATUS_CONNECT p) = false ∧ t.on (R.USBH_PORT_STATUS_C_CONNECT p) = true ∧ t = { h with regs := t.regs, usb := t.usb }))
    ∧ (does (.usbOvercurrent p) h (fun t => t.usbState p = upOff ∧ (t.usbPort p).vbus = false ∧ t.on (R.USBH_PORT_STATUS_OC p) = true ∧ t.on (R.USBH_PORT_STATUS_C_OVERCURRENT p) = true ∧ t = { h with regs := t.regs, usb := t.usb }))
    ∧ (becomes (.usbOvercurrentEnd p) h (h.put (R.USBH_PORT_STATUS_OC p) 0))
    ∧ (does .usbHubDisable h (fun t => t.on R.USBH_CTRL_EN = false ∧ t.usbState p = upOff ∧ (t.usbPort p).vbus = false ∧ (∀ s ∈ (t.usbPort p).splits, s.res.isSome = true) ∧ t = { h with regs := t.regs, usb := t.usb }))

/-- Splits (R338–R344) and microframes (R351): what each command does where its conditions hold. -/
def Obligations.UsbSplitCommands : Prop :=
  ∀ (h : Hub) (p : Fin 4) (k : Fin 3), h.awake = true → h.usbStopped = false → 
    (∀ (g : Hub) (r : UsbRec), h.usbTake p k 0 = (g, some r) → g.usbHalts p k r = false → r.hub = false → g.usbState p ≠ upEnabled → becomes (.usbSsplit p k) h (g.usbAccept p k r (some 8)))
    ∧ (∀ (g : Hub) (r : UsbRec), h.usbTake p k 0 = (g, some r) → g.usbHalts p k r = false → r.hub = false → becomes (.usbSsplit p k) h (g.usbAccept p k r (g.usbAtOnce p r)))
    ∧ (∀ (g : Hub) (r : UsbRec), h.usbTake p k 0 = (g, some r) → g.usbHalts p k r = false → r.hub = true → becomes (.usbSsplit p k) h (g.usbFunction p r))
    ∧ (∀ (g : Hub), h.usbTake p k 0 = (g, none) → becomes (.usbSsplit p k) h g)
    ∧ (∀ (g : Hub) (r : UsbRec), h.usbTake p k 0 = (g, some r) → g.usbHalts p k r = true → becomes (.usbSsplit p k) h (g.usbHalted p k r))
    ∧ (∀ (r : UsbRec), (h.usbPort p).splits = [] → ((h.usbAccept p k r (some 8)).usbPort p).splits.map (fun s => (s.k, s.rec_, s.res)) = [(k.val, r, some (bare 8))] ∧ (h.usbAccept p k r (some 8)).get (word (A.USBH_SPLITS p)) = min (2 ^ 32 - 1) (h.get (word (A.USBH_SPLITS p)) + 1))
    ∧ (∀ (g : Hub) (r : UsbRec), h.usbTake p k 1 = (g, some r) → (g.usbPort p).named k r = none → becomes (.usbCsplit p k) h (g.usbAnswer p k r (bare 9)))
    ∧ (∀ (g : Hub) (r : UsbRec) (s : UsbSplit) (v : UsbRes), h.usbTake p k 1 = (g, some r) → (g.usbPort p).named k r = some s → s.res = some v → becomes (.usbCsplit p k) h ((g.usbFree p s).usbAnswer p k s.rec_ v))
    ∧ (∀ (g : Hub) (r : UsbRec) (s : UsbSplit), h.usbTake p k 1 = (g, some r) → (g.usbPort p).named k r = some s → s.res = none → becomes (.usbCsplit p k) h (g.usbAnswer p k s.rec_ (bare 3)))
    ∧ (∀ (g : Hub) (r : UsbRec), h.usbTake p k 3 = (g, some r) → (g.usbPort p).named k r = none → does (.usbAbort p k) h (fun t => ((t.usbPort p).inst k).halted = false ∧ t = { h with regs := t.regs, free := t.free, rt := t.rt, err := t.err, fab := t.fab, tun := t.tun, usb := t.usb }))
    ∧ (∀ (g : Hub) (r : UsbRec) (s : UsbSplit), h.usbTake p k 3 = (g, some r) → (g.usbPort p).named k r = some s → does (.usbAbort p k) h (fun t => ((t.usbPort p).inst k).halted = false ∧ (t.usbPort p).splits = (g.usbPort p).splits.erase s ∧ t = { h with regs := t.regs, free := t.free, rt := t.rt, err := t.err, fab := t.fab, tun := t.tun, usb := t.usb }))
    ∧ (∀ (s : UsbSplit) (out : Bool), h.usbState p = upEnabled → h.usbNext p = some s → s.rec_.token ≠ 2 → (h.usbPort p).pings.contains s.rec_.endpoint = false → out = (s.rec_.token == 1 && (s.rec_.typ == 0 || s.rec_.typ == 2) && h.usbSpeed p == 2) → becomes (.usbTransaction p (.ack [] false)) h (((h.emit (.usb p s.rec_.token s.rec_.dev s.rec_.ep (s.rec_.toggle && s.rec_.typ != 1) s.rec_.data)).usbTried p s.rec_.endpoint (if out then some false else none)).usbFinish p s (bare 0)))
    ∧ (∀ (s : UsbSplit) (out : Bool), h.usbState p = upEnabled → h.usbNext p = some s → s.rec_.token = 1 → (s.rec_.typ = 0 ∨ s.rec_.typ = 2) → h.usbSpeed p = 2 → (h.usbPort p).pings.contains s.rec_.endpoint = true → becomes (.usbTransaction p (.ack [] false)) h ((((h.emit (.usb p 3 s.rec_.dev s.rec_.ep false [])).emit (.usb p 1 s.rec_.dev s.rec_.ep s.rec_.toggle s.rec_.data)).usbTried p s.rec_.endpoint (some false)).usbFinish p s (bare 0)))
    ∧ (∀ (s : UsbSplit) (d1 : Bool) (bs : List Byte), h.usbState p = upEnabled → h.usbNext p = some s → s.rec_.token = 2 → bs.length ≤ s.rec_.bytes → becomes (.usbTransaction p (.ack bs d1)) h (((h.emit (.usb p 2 s.rec_.dev s.rec_.ep (s.rec_.toggle && s.rec_.typ != 1) s.rec_.data)).usbTried p s.rec_.endpoint none).usbFinish p s ⟨0, d1, bs⟩))
    ∧ (∀ (s : UsbSplit), h.usbState p = upEnabled → h.usbNext p = some s → s.naks + 1 < h.get R.USBH_CTRL_NAK_LIMIT → does (.usbTransaction p .nak) h (fun t => (t.usbPort p).splits = (h.usbPort p).splits.map (fun u => if u = s then { s with naks := s.naks + 1, errs := 0 } else u) ∧ (t.usbPort p).tried.contains (h.usb.uf, s.rec_.endpoint) = true ∧ t = { h with out := t.out, usb := t.usb }))
    ∧ (∀ (o : UsbOutcome), h.usbState p ≠ upEnabled → becomes (.usbTransaction p o) h h)
    ∧ (∀ (a : Fin 16) (s : UsbSplit), (h.usbPort p).split? k a = some s → s.res.isSome = true → s.doneUf + h.get R.USBH_CTRL_HOLD_UF ≤ h.usb.uf → becomes (.usbResultExpire p k a) h ((h.usbFree p s).bump (word (A.USBH_SPLIT_EXPIRED p))))
    ∧ (h.on R.USBH_CTRL_SOF_EN = true → does .usbMicroframe h (fun t => t.get R.USBH_FRAME_INDEX = h.usb.nextIdx % 2 ^ R.USBH_FRAME_INDEX.width ∧ t.on R.USBH_FRAME_RUNNING = true ∧ t.usb.uf = h.usb.uf + 1 ∧ t.usb.nextIdx = (h.usb.nextIdx + 1) % 16384 ∧ t.usb.ufAt = h.root ∧ t = { h with regs := t.regs, out := t.out, usb := t.usb }))
    ∧ (h.on R.USBH_CTRL_SOF_EN = false → does .usbSofEnable h (fun t => t.on R.USBH_CTRL_SOF_EN = true ∧ t.usb.nextIdx < 16384 ∧ (h.now + 10000 ≤ h.usbBase → t.usb.nextIdx = (h.rd A.USBH_BASE_UF).toNat % 16384) ∧ t = { h with regs := t.regs, usb := t.usb }))

/-- The hub function (R347–R350): what each command does where its conditions hold. -/
def Obligations.UsbFunctionCommands : Prop :=
  ∀ (h : Hub) (q : Nat) (bs : List Byte) (r : UsbReq), h.awake = true → h.usbStopped = false → h.usb.setup = some (q, bs) → r = reqOf bs → 
    (r.kind = .getDescriptor → does .usbGetDescriptor h (fun t => t.usb.setup = none ∧ t.usb.data0 = ((usbDescriptor (r.value / 256)).getD []).take r.len ∧ t = { h with usb := t.usb }))
    ∧ (r.kind = .setConfiguration → does .usbSetConfiguration h (fun t => t.usb.setup = none ∧ t.usb.config = r.value ∧ t.usb.data0 = [] ∧ t = { h with usb := t.usb }))
    ∧ (r.kind = .getStatus → does .usbGetStatus h (fun t => t.usb.setup = none ∧ t.usb.data0 = (if r.typ = 0x80 then [1#8, 0#8] else [0#8, 0#8]).take r.len ∧ t = { h with usb := t.usb }))
    ∧ (r.kind = .getHubStatus → does .usbGetHubStatus h (fun t => t.usb.setup = none ∧ t.usb.data0 = [if h.usbAny R.USBH_PORT_STATUS_OC = true then 2#8 else 0#8, 0#8, if h.usbAny R.USBH_PORT_STATUS_C_OVERCURRENT = true then 2#8 else 0#8, 0#8].take r.len ∧ t = { h with usb := t.usb }))
    ∧ (∀ (p : Nat), r.kind = .getPortStatus → r.port = some p → does .usbGetPortStatus h (fun t => t.usb.setup = none ∧ t.usb.data0 = (h.portStatusBytes p).take r.len ∧ t = { h with usb := t.usb }))
    ∧ (∀ (p : Nat), r.kind = .setPortFeature → r.port = some p → r.value = 4 → h.usbState p = upEnabled → does .usbSetPortFeature h (fun t => t.usb.setup = none ∧ t.usbState p = upResetting ∧ t = { h with regs := t.regs, out := t.out, usb := t.usb }))
    ∧ (∀ (p : Nat), r.kind = .setPortFeature → r.port = some p → r.value = 2 → h.usbState p = upEnabled → does .usbSetPortFeature h (fun t => t.usb.setup = none ∧ t.usbState p = upSuspended ∧ t = { h with regs := t.regs, out := t.out, usb := t.usb }))
    ∧ (∀ (p : Nat), r.kind = .setPortFeature → r.port = some p → r.value = 8 → h.on R.USBH_CTRL_EN = true → h.usbState p = upOff → h.on (R.USBH_PORT_STATUS_OC p) = false → h.defPower = false → does .usbSetPortFeature h (fun t => t.usb.setup = none ∧ (t.usbPort p).vbus = true ∧ t = { h with regs := t.regs, usb := t.usb }))
    ∧ (r.resetsHub = true → does .usbSetPortFeature h (fun t => t.usb.setup = none ∧ t.usb.data0 = [] ∧ t.usb.pid0 = true ∧ t.usb.stall = false ∧ t = { h with usb := t.usb }))
    ∧ (∀ (p : Nat), r.kind = .clearPortFeature → r.port = some p → r.value = 1 → h.usbState p = upEnabled → does .usbClearPortFeature h (fun t => t.usb.setup = none ∧ t.usbState p = upDisabled ∧ t = { h with regs := t.regs, out := t.out, usb := t.usb }))
    ∧ (∀ (p : Nat), r.kind = .clearPortFeature → r.port = some p → r.value = 16 → does .usbClearPortFeature h (fun t => t.usb.setup = none ∧ t.on (R.USBH_PORT_STATUS_C_CONNECT p) = false ∧ t.usbState p = h.usbState p ∧ t = { h with regs := t.regs, out := t.out, usb := t.usb }))
    ∧ (∀ (p : Nat), r.kind = .clearTtBuffer → r.port = some p → does .usbClearTtBuffer h (fun t => t.usb.setup = none ∧ (∀ s ∈ (t.usbPort p).splits, s.rec_.hub = false → s.rec_.typ = 0 ∨ s.rec_.typ = 2 → s.res.isSome = true) ∧ t = { h with usb := t.usb }))
    ∧ (∀ (p : Nat), r.kind = .resetTt → r.port = some p → does .usbResetTt h (fun t => t.usb.setup = none ∧ (∀ s ∈ (t.usbPort p).splits, s.rec_.hub = false → s.rec_.typ = 0 ∨ s.rec_.typ = 2 → s.res.isSome = true) ∧ t = { h with usb := t.usb }))
    ∧ (r.kind = .unsupported → does .usbUnsupportedRequest h (fun t => t.usb.setup = none ∧ t.usb.stall = true ∧ t.usb.data0 = [] ∧ t = { h with usb := t.usb }))
    ∧ (r.kind ≠ .getDescriptor → becomes .usbGetDescriptor h h)
    ∧ (does .usbHubFunctionReset h (fun t => t.usb.setup = none ∧ t.usb.data0 = [] ∧ t.usb.pid0 = true ∧ t.usb.stall = false ∧ (∀ p : Fin 4, ∀ s ∈ (t.usbPort p).splits, s.rec_.hub = true → s.res.isSome = true) ∧ t = { h with usb := t.usb }))

/-- The eMMC adapter (R355, R356): what each command does where its conditions hold. -/
def Obligations.EmmcCommands : Prop :=
  ∀ (h : Hub) (i : BitVec 6) (r d : BitVec 2), h.awake = true → 
    (h.defPower = false → h.on R.EMMC_STATUS_BUSY = true → d ≠ 3 → does (.emmcCommand i r d) h (fun t => t.get R.EMMC_STATUS_ERR = 7 ∧ t.get R.EMMC_CMD_INDEX = i.toNat ∧ t.get R.EMMC_CMD_RESP = r.toNat ∧ t.get R.EMMC_CMD_DATA = d.toNat ∧ t.on R.EMMC_STATUS_BUSY = true ∧ t = { h with regs := t.regs }))
    ∧ (h.defPower = true → d ≠ 3 → does (.emmcCommand i r d) h (fun t => t.get R.EMMC_CMD_INDEX = i.toNat ∧ t.get R.EMMC_CMD_RESP = r.toNat ∧ t.get R.EMMC_CMD_DATA = d.toNat ∧ t.rd A.EMMC_STATUS = h.rd A.EMMC_STATUS ∧ t = { h with regs := t.regs }))
    ∧ (h.defPower = false → h.on R.EMMC_STATUS_BUSY = false → d ≠ 3 → h.emmcModeOk = true → (h.rd A.EMMC_DMA_ADDR).toNat % 4 = 0 → does (.emmcCommand i r d) h (fun t => t.get R.EMMC_CMD_INDEX = i.toNat ∧ t.get R.EMMC_CMD_RESP = r.toNat ∧ t.get R.EMMC_CMD_DATA = d.toNat ∧ t.on R.EMMC_STATUS_BUSY = true ∧ t.get R.EMMC_STATUS_ERR = 0 ∧ t.out = h.outBall (.emmc i.toNat (h.rd A.EMMC_ARG)) ∧ t.emmc = ⟨r.toNat, d.toNat, (h.rd A.EMMC_DMA_ADDR).toNat, (h.rd A.EMMC_BLOCKS).toNat % 65536 * 512⟩ ∧ t = { h with regs := t.regs, out := t.out, emmc := t.emmc }))
    ∧ (h.defPower = false → h.on R.EMMC_STATUS_BUSY = false → h.emmcModeOk = false → does (.emmcCommand i r d) h (fun t => t.get R.EMMC_STATUS_ERR = 6 ∧ t.on R.EMMC_STATUS_BUSY = false ∧ t = { h with regs := t.regs }))
    ∧ (h.defPower = false → h.on R.EMMC_STATUS_BUSY = false → h.emmcModeOk = true → (h.rd A.EMMC_DMA_ADDR).toNat % 4 ≠ 0 → does (.emmcCommand i r d) h (fun t => t.get R.EMMC_STATUS_ERR = 5 ∧ t.on R.EMMC_STATUS_BUSY = false ∧ t = { h with regs := t.regs }))
    ∧ (∀ (w : Word) (dat0 : Bool), h.defPower = false → h.on R.EMMC_STATUS_BUSY = true → h.emmc.data = 0 → h.emmc.resp = 1 → does (.emmcCommandDone .ok [w] [] dat0) h (fun t => t.on R.EMMC_STATUS_BUSY = false ∧ t.on R.EMMC_STATUS_DONE = true ∧ t.get R.EMMC_STATUS_ERR = 0 ∧ t.get R.EMMC_STATUS_DAT0 = b2n dat0 ∧ t.rd (A.EMMC_RESP 0) = w ∧ t = { h with regs := t.regs }))
    ∧ (∀ (k : Hub) (resp : List Word) (bs : List Byte) (dat0 : Bool), h.defPower = false → h.on R.EMMC_STATUS_BUSY = true → h.emmc.data = 1 → h.dmaStore h.emmc.addr (bs.take h.emmc.bytes) = (k, .ok) → becomes (.emmcCommandDone .ok resp bs dat0) h (((k.emmcResp resp).put R.EMMC_STATUS_DAT0 (b2n dat0)).emmcDone 0))
    ∧ (∀ (resp : List Word) (bs : List Byte) (dat0 : Bool), h.defPower = false → h.on R.EMMC_STATUS_BUSY = true → does (.emmcCommandDone .respTimeout resp bs dat0) h (fun t => t.on R.EMMC_STATUS_BUSY = false ∧ t.on R.EMMC_STATUS_DONE = true ∧ t.get R.EMMC_STATUS_ERR = 1 ∧ t.get (word A.EMMC_TO_CNT) = min (2 ^ 32 - 1) (h.get (word A.EMMC_TO_CNT) + 1) ∧ t.rd (A.EMMC_RESP 0) = h.rd (A.EMMC_RESP 0) ∧ t = { h with regs := t.regs }))
    ∧ (∀ (e : EmmcEnd) (resp : List Word) (bs : List Byte) (dat0 : Bool), h.on R.EMMC_STATUS_BUSY = false → becomes (.emmcCommandDone e resp bs dat0) h h)
    ∧ (∀ (e : EmmcEnd) (resp : List Word) (bs : List Byte) (dat0 : Bool), h.defPower = true → becomes (.emmcCommandDone e resp bs dat0) h h)

/-- The journal (R363–R367) and stores (R368–R370): what each command does where its conditions hold. -/
def Obligations.JournalCommands : Prop :=
  ∀ (h : Hub), h.awake = true → 
    (h.opWaiting .jrec = none → becomes .journalCommit h h)
    ∧ (∀ (o : AsyncOp), h.opWaiting .jrec = some o → h.lifecycle = 4 → becomes .journalCommit h (h.opOutcome o 0x04000000))
    ∧ (∀ (o : AsyncOp), h.opWaiting .jrec = some o → h.lifecycle ≠ 4 → (o.block.getD 0 0#32).getLsbD 0 = true → h.get R.JRN_PROT_LIMIT_LIMIT ≤ h.get R.JRN_PROT_CNT_COUNT → becomes .journalCommit h (h.opOutcome o 0x06000000))
    ∧ (∀ (o : AsyncOp) (i pass k : Nat), h.opWaiting .jrec = some o → h.lifecycle ≠ 4 → (o.block.getD 0 0#32).getLsbD 0 = false → o.block.length = 8 → h.sealerKey = none → h.slotFrom 16385 (h.get R.JRN_STATUS_HEAD) (h.get R.JRN_STATUS_PASS) 0 = (i, pass, k) → does .journalCommit h (fun t => t.get R.JRN_STATUS_HEAD = i ∧ t.get R.JRN_STATUS_PASS = pass ∧ t.record i = leBytes 8 h.now ++ bytesOf ((o.block.drop 1).take 6) ∧ t.tag i = tagWord (h.ownTid o.ctx) false false false true pass ∧ t = { h with regs := t.regs, mem := t.mem, fab := t.fab, tun := t.tun, jrn := t.jrn }))
    ∧ (∀ (s i : Nat) (g : Hub), h.on R.JRN_CTRL_WEAR_EN = true → h.opWaiting .jrec = none → h.moveNext = some s → h.commit (h.record s) (tagTid (h.tag s)) true true = (g, i) → becomes .wearMove h (({ g with jrn := { g.jrn with moves := g.jrn.moves ++ [(s, i)] } } : Hub).bump R.JRN_MOVES))
    ∧ (h.on R.JRN_CTRL_WEAR_EN = false → becomes .wearMove h h)
    ∧ (∀ (s : BitVec 16) (k : Nat), k = h.currentCopy 16 s.toNat → tagValid (h.tag k) = true → tagProtect (h.tag k) = true → does (.jrnUnprotect s) h (fun t => t.tag k = h.tag k - 2 ^ 14 ∧ t.get R.JRN_PROT_CNT_COUNT = h.get R.JRN_PROT_CNT_COUNT - 1 ∧ t.record k = h.record k ∧ t.get R.JRN_UNPROTECT_NOTPROT = h.get R.JRN_UNPROTECT_NOTPROT ∧ t = { h with regs := t.regs, mem := t.mem }))
    ∧ (∀ (s : BitVec 16) (k : Nat), k = h.currentCopy 16 s.toNat → (tagValid (h.tag k) && tagProtect (h.tag k)) = false → becomes (.jrnUnprotect s) h ((h.put R.JRN_UNPROTECT_SLOT s.toNat).put R.JRN_UNPROTECT_NOTPROT 1))
    ∧ (∀ (e : BitVec 5) (n : BitVec 7) (share : Bool), h.on R.JRN_STORE_STATUS_BUSY = true → does (.jrnStore e n share) h (fun t => t.get R.JRN_STORE_STATUS_RESULT = 2 ∧ t = { h with regs := t.regs }) ∧ does (.jrnErase e) h (fun t => t.get R.JRN_STORE_STATUS_RESULT = 2 ∧ t = { h with regs := t.regs }))
    ∧ (∀ (n : BitVec 7) (share : Bool) (src k : Nat), h.on R.JRN_STORE_STATUS_BUSY = false → h.tun.pitch = none → src = (h.rd A.JRN_STORE_SRC).toNat → k = h.get R.JRN_STORE_LEN_LEN → 0 < k → k ≤ 229376 → h.sourceOk src k = (h, some true) → does (.jrnStore 16 n share) h (fun t => t.on R.JRN_STORE_STATUS_BUSY = true ∧ (t.jrn.store.map (fun x => (x.target, x.erase, x.image))) = some (16, false, h.mbytes src k) ∧ t = { h with regs := t.regs, err := t.err, jrn := t.jrn }))
    ∧ (∀ (e : BitVec 5) (n : BitVec 7) (share : Bool) (src : Nat) (x : ImageHead), e.toNat < 16 → h.on R.JRN_STORE_STATUS_BUSY = false → h.coldReading e.toNat = false → h.lifecycle ≠ 3 → h.lifecycle ≠ 4 → src = (h.rd A.JRN_STORE_SRC).toNat → x = h.imageHead src → h.sourceOk src (max 160 x.total) = (h, some true) → h.storeChecks src n.toNat = none → does (.jrnStore e n share) h (fun t => t.on R.JRN_STORE_STATUS_BUSY = true ∧ t.jrn.store = some ⟨e.toNat, false, h.mbytes src x.total, h.imageHash src x, n.toNat, share, h.get R.JRN_STORE_BASE_CODE_BASE, h.get R.JRN_STORE_BASE_DATA_BASE⟩ ∧ t = { h with regs := t.regs, jrn := t.jrn }))
    ∧ (∀ (e : BitVec 5), h.on R.JRN_STORE_STATUS_BUSY = false → h.tun.pitch = none → e.toNat ≤ 16 → does (.jrnErase e) h (fun t => t.on R.JRN_STORE_STATUS_BUSY = true ∧ t.jrn.store = some ⟨e.toNat, true, [], [], 0, false, 0, 0⟩ ∧ t = { h with regs := t.regs, jrn := t.jrn }))
    ∧ (∀ (x : JrnStore), h.jrn.store = some x → x.target < 16 → x.erase = true → does .jrnStoreDone h (fun t => t.jrn.store = none ∧ t.on R.JRN_STORE_STATUS_BUSY = false ∧ t.get R.JRN_STORE_STATUS_RESULT = 1 ∧ t.entryValid x.target = false ∧ t.mbytes (descAddr x.target) 64 = List.replicate 64 0#8 ∧ t = { h with regs := t.regs, mem := t.mem, fab := t.fab, tun := t.tun, jrn := t.jrn }))
    ∧ (h.jrn.store = none → becomes .jrnStoreDone h h)

/-- The host bridge (R376–R389): what each command does where its conditions hold. -/
def Obligations.BridgeCommands : Prop :=
  ∀ (h : Hub), h.awake = true → 
    (∀ (k : Hub) (d : Delivered) (r : BrgReq) (g : Hub), k = h.markHeld → k.brgNext = some d → d.pkt.kind = 1 → d.pkt.src = 0 → brgWrite? d.pkt = some r → (k.take3 d).brgRefused .write r = none → (k.take3 d).brgApply r r.bursts = (g, none) → becomes .bridgeWrite h g)
    ∧ (∀ (a : Nat) (v : Word), 0x100000 ≤ a → a < 0x800000 → a % 4 = 0 → h.decide_ 1 .write a ≠ .error → ((∀ i : Fin 4, h.writeHeld (a + i) = false)) → h.brgApply ⟨1, a, 1, 15, 0, [v]⟩ (BrgReq.bursts ⟨1, a, 1, 15, 0, [v]⟩) = (h.mstore a (wordBytes v), none))
    ∧ (∀ (k : Hub) (d : Delivered), k = h.markHeld → k.brgNext = some d → d.pkt.kind = 1 → d.pkt.src = 0 → brgWrite? d.pkt = none → becomes .bridgeWrite h ((k.take3 d).pwFail ((d.pkt.payload.head?.map BitVec.toNat).getD 0) 3 (bit d.pkt.aux 8)))
    ∧ (∀ (k : Hub) (d : Delivered), k = h.markHeld → k.brgNext = some d → d.pkt.kind = 1 → d.pkt.src ≠ 0 → becomes .bridgeWrite h (k.take3 d).brgBad)
    ∧ (∀ (k : Hub), k = h.markHeld → k.brgNext = none → becomes .bridgeWrite h k)
    ∧ (∀ (d : Delivered) (k g : Hub), h.brg.cplq = [] → k = h.dropReused.markHeld → k.brgNext = some d → d.pkt.kind = 2 → d.pkt.src = 0 → k.brgDoRead d.pkt = some g → becomes .bridgeRead h (g.take3 d))
    ∧ (∀ (a b : Delivered), h.fab.inbox = [(3, [a, b])] → a.pkt.kind = 2 → a.pkt.src = 0 → b.pkt.kind = 2 → b.pkt.src = 0 → a.pkt.aux % 512 = b.pkt.aux % 512 → h.brg.cplq = [] → h.dropReused.fab.inbox = [(3, [a])] ∧ h.dropReused.get R.BRG_BAD_REQ = min (2 ^ R.BRG_BAD_REQ.width - 1) (h.get R.BRG_BAD_REQ + 1) ∧ h.dropReused.on R.BRG_STATUS_BAD_REQ = true)
    ∧ (∀ (k : Hub), h.brg.cplq = [] → k = h.dropReused.markHeld → k.brgNext = none → becomes .bridgeRead h k)
    ∧ (∀ (d : Delivered), h.inbox3 (fun p => p.kind == 3) = some d → d.pkt.aux / 2 ^ 15 % 2 = 0 → KMap.get? h.brg.tags (d.pkt.aux % 512) = none → KMap.get? h.brg.late (d.pkt.aux % 512) = none → becomes .bridgeCompletion h (h.take3 d).brgBad)
    ∧ (∀ (d : Delivered) (r : OutReq) (g : Hub), h.inbox3 (fun p => p.kind == 3) = some d → d.pkt.aux / 2 ^ 15 % 2 = 0 → d.pkt.aux / 2 ^ 9 % 8 = 0 → KMap.get? h.brg.tags (d.pkt.aux % 512) = some r → (h.take3 d).outData (d.pkt.aux % 512) r d.pkt.payload (bit d.pkt.aux 14) = some g → becomes .bridgeCompletion h g)
    ∧ (∀ (k : Fin 4) (n : BitVec 21) (dir : Bool), h.on (R.BRG_OUT_STATUS_BUSY k) = false → 4 ≤ n.toNat → n.toNat ≤ 1048576 → n.toNat % 4 = 0 → (h.rd (A.BRG_OUT_LOCAL k)).toNat % 4 = 0 → (h.rd (A.BRG_OUT_HOST k)).toNat % 4 = 0 → does (.outboundStart k n dir) h (fun t => t.outChan k = ⟨true, dir, (h.rd (A.BRG_OUT_LOCAL k)).toNat, (h.rd (A.BRG_OUT_HOST k)).toNat, n.toNat, 0, 0⟩ ∧ t.on (R.BRG_OUT_STATUS_BUSY k) = true ∧ t.get (R.BRG_OUT_STATUS_RESULT k) = 0 ∧ t = { h with regs := t.regs, brg := t.brg }))
    ∧ (∀ (k : Fin 4) (n : BitVec 21) (dir : Bool), (h.on (R.BRG_OUT_STATUS_BUSY k) = true ∨ n.toNat < 4 ∨ 1048576 < n.toNat ∨ n.toNat % 4 ≠ 0) → does (.outboundStart k n dir) h (fun t => t.get (R.BRG_OUT_STATUS_RESULT k) = 3 ∧ t = { h with regs := t.regs }))
    ∧ (∀ (k : Fin 4) (t : Nat) (c : OutChan) (g : Hub), c = h.outChan k → c.live = true → c.write = false → c.next < c.len → h.nextTag = some t → h.sendRead t (c.host + c.next) c.size = (g, .ok) → becomes (.outboundRequest k) h ((g.setOutChan k { c with next := c.next + c.size }).onBrg (fun b => { b with tags := KMap.put b.tags t ⟨k, true, c.loc + c.next, c.host + c.next, c.size, 0, false⟩, rotor := 256 + (t - 256 + 1) % 256, late := KMap.del b.late t })))
    ∧ (∀ (k : Fin 4), (h.outChan k).live = false → becomes (.outboundRequest k) h h)
    ∧ (∀ (a : Fin 512) (r : OutReq) (g : Hub), KMap.get? h.brg.tags a = some r → r.retry = true → r.live = true → h.sendRead a r.host r.bytes = (g, .ok) → becomes (.readRetry a) h ((g.bump R.BRG_RETRIES).onBrg (fun b => { b with tags := KMap.put b.tags a { r with retry := false } })))
    ∧ (∀ (a : Fin 512), KMap.get? h.brg.tags a = none → becomes (.readRetry a) h h ∧ becomes (.completionTimeout a) h h)
    ∧ (∀ (a : Fin 512) (r : OutReq), KMap.get? h.brg.tags a = some r → r.chan < 4 → (h.outChan r.chan).live = true → does (.completionTimeout a) h (fun t => KMap.get? t.brg.tags a = none ∧ (t.outChan r.chan).live = false ∧ t.get (R.BRG_OUT_STATUS_RESULT r.chan) = 2 ∧ t.on (R.BRG_OUT_STATUS_DONE r.chan) = true ∧ t.on R.BRG_STATUS_CPL_TO = true ∧ t.get R.BRG_CPL_TIMEOUTS = min (2 ^ R.BRG_CPL_TIMEOUTS.width - 1) (h.get R.BRG_CPL_TIMEOUTS + 1) ∧ t = { h with regs := t.regs, err := t.err, brg := t.brg }))

/-- The log (R455–R461), EVENTs (R462, R185) and injection (R472). -/
def Obligations.ErrorCommands : Prop :=
  ∀ (h : Hub), h.awake = true → 
    (∀ (s : BitVec 2) (d : BitVec 16) (r : Rec), h.err.handling = [] → r = h.mkRec 3 0xFFFF s.toNat d.toNat 0 0 → does (.errInject s d) h (fun t => KMap.get? t.err.log h.nextSlot = some r ∧ r.sev = s.toNat ∧ r.source = 3 ∧ r.code = 0xFFFF ∧ r.d0 = d.toNat ∧ r.seq = (h.get R.ERR_SEQ_NEWEST + 1) % 65536 ∧ r.nested = false ∧ t.get R.ERR_SEQ_NEWEST = r.seq ∧ t.get R.ERR_STATUS_NEWEST = h.nextSlot ∧ t.on R.ERR_STATUS_VALID = true ∧ t.err.fatalPending = (h.err.fatalPending || s == 3) ∧ t = { h with regs := t.regs, err := t.err }))
    ∧ (∀ (s : BitVec 2) (d : BitVec 16), h.err.handling = [] → does (.errInject s d) h (fun t => t.get (countOf s.toNat) = min (2 ^ (countOf s.toNat).width - 1) (h.get (countOf s.toNat) + 1) ∧ t = { h with regs := t.regs, err := t.err }))
    ∧ (∀ (q : BitVec 16), h.unacked q.toNat = true → does (.errAck q) h (fun t => t.get R.ERR_SEQ_ACKED = q.toNat ∧ t.get R.ERR_STATUS_UNACKED = (h.get R.ERR_SEQ_NEWEST + 65536 - q.toNat) % 65536 % 2 ^ R.ERR_STATUS_UNACKED.width ∧ (h.get R.ERR_SEQ_NEWEST = q.toNat → t.on R.ERR_STATUS_ALERT = false) ∧ (h.get R.ERR_SEQ_NEWEST ≠ q.toNat → t.on R.ERR_STATUS_ALERT = h.on R.ERR_STATUS_ALERT) ∧ t = { h with regs := t.regs }))
    ∧ (∀ (q : BitVec 16), h.unacked q.toNat = false → becomes (.errAck q) h h)
    ∧ (∀ (e : Ev), h.brg.cplq = [] → h.err.evtq.find? (fun x => !x.missed) = some e → becomes .eventRetry h (h.offerEvent e))
    ∧ (∀ (e : Ev) (g : Hub), h.unroutable (h.ownPacket 0 0 .M 4 e.aux 0 e.rec_.words) = false → h.sendM 4 e.aux e.rec_.words = (g, .ok) → (h.offerEvent e).err = { g.err with evtq := g.err.evtq.erase e } ∧ (h.offerEvent e).fab = g.fab)
    ∧ (h.brg.cplq = [] → h.err.evtq = [] → becomes .eventRetry h h ∧ becomes .missedSwapEvent h h)
    ∧ (∀ (e : Ev), h.err.evtq.find? (fun x => x.missed) = some e → h.missedMayGo = true → becomes .missedSwapEvent h (h.offerEvent e))
    ∧ (∀ (e : Ev), h.err.evtq.find? (fun x => x.missed) = some e → h.missedMayGo = false → becomes .missedSwapEvent h h)

/-- Attach and detach (R401–R405, R414), settings (R418). -/
def Obligations.CableAttach : Prop :=
  ∀ (h : Hub) (p : Port), h.pw.dark = false → 
    (ccOutcome true .rd .open_ = (1, false, false) ∧ ccOutcome true .open_ .rd = (1, true, false) ∧ ccOutcome true .rd .ra = (1, false, true) ∧ ccOutcome true .ra .rd = (1, true, true) ∧ ccOutcome true .ra .open_ = (5, false, false) ∧ ccOutcome true .open_ .ra = (5, false, false) ∧ ccOutcome true .rd .rd = (3, false, false) ∧ ccOutcome true .ra .ra = (4, false, false) ∧ ccOutcome true .open_ .open_ = (0, false, false))
    ∧ (∀ (l m : Fin 4), ccOutcome false (.rp l) .open_ = (2, false, false) ∧ ccOutcome false (.rp l) .ra = (2, false, true) ∧ ccOutcome false .open_ (.rp l) = (2, true, false) ∧ ccOutcome false .ra (.rp l) = (2, true, true) ∧ ccOutcome false (.rp l) (.rp m) = (6, false, false) ∧ ccOutcome false .open_ .open_ = (0, false, false) ∧ ccOutcome false (.rp l) .rd = (0, false, false) ∧ ccOutcome false .rd (.rp l) = (0, false, false))
    ∧ (∀ (a b : CcSense) (f v : Bool), ccOutcome (h.cc.at p).rp a b = (1, f, v) → (h.attach p = 0 ∨ h.attach p = 5) → h.pdState p ≠ 7 → (h.cc.at p).barred = false → h.defPower = false → h.ccTries p 1 = false → h.pw.steep = false → h.get R.PWRS_STATUS_STATE ≠ 1 → does (.ccAttach p a b) h (fun t => t.attach p = 1 ∧ t.get (R.CC_STATUS_FLIPPED p.ix) = b2n f ∧ t.on (R.CC_EVENT_ATTACH_CHG p.ix) = true ∧ t.get (R.CC_ATTACHES p.ix) = min (2 ^ (R.CC_ATTACHES p.ix).width - 1) (h.get (R.CC_ATTACHES p.ix) + 1) ∧ t.pdState p = 1 ∧ (t.cc.at p).source = true ∧ (t.cc.at p).vout = 100 ∧ (t.cc.at p).tried = 0 ∧ t.on (R.CC_STATUS_VCONN_ON p.ix) = ((v && h.on (R.CC_CTRL_VCONN_EN p.ix)) || h.on (R.CC_STATUS_VCONN_ON p.ix)) ∧ t.out = .vcab p 100 :: h.out ∧ t = { h with regs := t.regs, cc := t.cc, out := t.out }))
    ∧ (∀ (a b : CcSense) (f v : Bool), ccOutcome (h.cc.at p).rp a b = (2, f, v) → (h.attach p = 0 ∨ h.attach p = 5) → h.pdState p ≠ 7 → h.on (R.CC_CTRL_EN p.ix) = true → h.ccTries p 2 = false → h.pw.steep = false → h.get R.PWRS_STATUS_STATE ≠ 1 → does (.ccAttach p a b) h (fun t => t.attach p = 2 ∧ t.pdState p = 1 ∧ (t.cc.at p).source = false ∧ t.get (R.CC_STATUS_RP_SEEN p.ix) = max a.level b.level ∧ ((t.cc.at p).path = true ↔ (h.cc.at p).path = true ∨ (h.mayClose p = true ∧ 95 ≤ h.get (R.CC_VBUS_VOLT p.ix) ∧ h.get (R.CC_VBUS_VOLT p.ix) ≤ 110)) ∧ (h.mayClose p = true → (h.cc.at p).path = false → (t.cc.at p).path = false → (t.cc.at p).closing = true) ∧ t.out = h.out ∧ t = { h with regs := t.regs, cc := t.cc }))
    ∧ (∀ (a b : CcSense) (f v : Bool), ccOutcome (h.cc.at p).rp a b = (6, f, v) → (h.attach p = 0 ∨ h.attach p = 5) → h.pdState p ≠ 7 → h.pw.steep = false → h.get R.PWRS_STATUS_STATE ≠ 1 → does (.ccAttach p a b) h (fun t => t.attach p = 6 ∧ t.get (R.CC_UNSUPPORTED p.ix) = min (2 ^ (R.CC_UNSUPPORTED p.ix).width - 1) (h.get (R.CC_UNSUPPORTED p.ix) + 1) ∧ t = { h with regs := t.regs, cc := t.cc }))
    ∧ (∀ (a b : CcSense) (o : Nat) (f v : Bool), ccOutcome (h.cc.at p).rp a b = (o, f, v) → o ≠ 0 → (h.attach p = 0 ∨ h.attach p = 5) → h.pdState p ≠ 7 → h.ccTries p o = true → becomes (.ccAttach p a b) h (h.onCc p (fun x => { x with rp := !x.rp, tried := 1 })))
    ∧ (∀ (o : Nat), h.ccTries p o = true ↔ h.on (R.CC_CTRL_EN p.ix) = true ∧ h.get (R.CC_CTRL_ROLE p.ix) = 0 ∧ h.defPower = false ∧ (h.cc.at p).tried = 0 ∧ ((o = 2 ∧ h.fedOtherwise p = true) ∨ (o = 1 ∧ h.fedOtherwise p = false)))
    ∧ (∀ (a b : CcSense) (f v : Bool), ccOutcome (h.cc.at p).rp a b = (3, f, v) → (h.attach p = 0 ∨ h.attach p = 5) → h.pdState p ≠ 7 → (h.cc.at p).barred = false → h.defPower = false → h.pw.steep = false → h.get R.PWRS_STATUS_STATE ≠ 1 → (h.pw.rail = true ∨ h.err.held = true ∨ h.on R.SEC_STATUS_SERVICE = true) → does (.ccAttach p a b) h (fun t => t.attach p = 3 ∧ t.pdState p = h.pdState p ∧ (t.cc.at p).source = true ∧ (t.cc.at p).vout = 100 ∧ t.out = .vcab p 100 :: h.out ∧ t = { h with regs := t.regs, cc := t.cc, out := t.out }))
    ∧ (∀ (a b : CcSense) (f v : Bool), ccOutcome (h.cc.at p).rp a b = (3, f, v) → (h.attach p = 0 ∨ h.attach p = 5) → h.pdState p ≠ 7 → (h.cc.at p).barred = false → h.defPower = false → h.pw.steep = false → h.get R.PWRS_STATUS_STATE ≠ 1 → h.pw.rail = false → h.err.held = false → h.on R.SEC_STATUS_SERVICE = false → does (.ccAttach p a b) h (fun t => t.attach p = 3 ∧ t.pdState p = h.pdState p ∧ (t.cc.at p).source = true ∧ (t.cc.at p).vout = 100 ∧ t.on R.SEC_STATUS_SERVICE = true ∧ t.jtag.by_ = some p ∧ t.sec.openedAt = some h.root ∧ t.get R.SEC_SVC_CNT = min (2 ^ R.SEC_SVC_CNT.width - 1) (h.get R.SEC_SVC_CNT + 1) ∧ t = (h.ccTake p 3 f v 0).serviceOpen (some p) false))
    ∧ (∀ (a b : CcSense) (o : Nat) (f v : Bool), ccOutcome (h.cc.at p).rp a b = (o, f, v) → (h.pdState p = 7 ∨ o = 0 ∨ (h.attach p ≠ 0 ∧ h.attach p ≠ 2 ∧ h.attach p ≠ 5) ∨ (h.attach p = 2 ∧ o ≠ 2) ∨ (h.attach p = 5 ∧ o = 5)) → becomes (.ccAttach p a b) h h)
    ∧ (∀ (a b : CcSense) (f v : Bool), ccOutcome (h.cc.at p).rp a b = (2, f, v) → h.attach p = 2 → h.pdState p ≠ 7 → (max a.level b.level ≠ 3 ∨ (h.cc.at p).due = []) → does (.ccAttach p a b) h (fun t => t.get (R.CC_STATUS_RP_SEEN p.ix) = max a.level b.level ∧ t.cc = h.cc ∧ onlyRegs h t [A.CC_STATUS p.ix]))
    ∧ (∀ (a b : CcSense) (f v : Bool), ccOutcome (h.cc.at p).rp a b = (2, f, v) → h.attach p = 2 → h.pdState p ≠ 7 → max a.level b.level = 3 → h.pdLive p = true → (h.cc.at p).source = false → (h.cc.at p).wait = .none → (h.cc.at p).epr = true → (h.cc.at p).due = [.keepAlive] → becomes (.ccAttach p a b) h (((h.put (R.CC_STATUS_RP_SEEN p.ix) 3).onCc p (fun x => { x with due := [] })).pd p .eprKeepAlive))
    ∧ (∀ (a b : CcSense) (o : Nat) (f v : Bool), ccOutcome (h.cc.at p).rp a b = (o, f, v) → o ≠ 0 → h.attach p = 0 → h.pdState p ≠ 7 → h.ccTries p o = false → o ≠ 3 → h.pw.steep = true → h.pw.rail = false → h.err.held = false → bit (h.get R.PINS_WAKE_CTRL_CC_EN) p.ix = true → does (.ccAttach p a b) h (fun t => t.attach p = o ∧ t.pw.steep = false ∧ t.get R.PWRS_STATUS_LAST_WAKE = 5 + p.ix))
    ∧ (h.attach p ≠ 0 → does (.ccDetach p) h (fun t => t.attach p = 0 ∧ t.on (R.CC_EVENT_ATTACH_CHG p.ix) = true ∧ t.pdState p = 0 ∧ t.rd (A.CC_CONTRACT p.ix) = 0#32 ∧ t.on (R.CC_STATUS_VCONN_ON p.ix) = false ∧ (t.cc.at p).vout = 0 ∧ (t.cc.at p).path = false ∧ t.get (R.CC_ATTACHES p.ix) = h.get (R.CC_ATTACHES p.ix) ∧ ((h.cc.at p).vout ≠ 0 → t.out = .vcab p 0 :: h.out) ∧ t = { h with regs := t.regs, out := t.out, err := t.err, cc := t.cc, jtag := t.jtag }))
    ∧ (h.attach p = 0 → becomes (.ccDetach p) h h)
    ∧ (h.attach p = 0 → h.on (R.CC_CTRL_EN p.ix) = true → h.get (R.CC_CTRL_ROLE p.ix) = 0 → h.defPower = false → h.pdState p ≠ 7 → becomes (.ccToggle p) h (h.onCc p (fun x => { x with rp := !x.rp, tried := if x.tried = 1 then 2 else 0 })))
    ∧ ((h.attach p ≠ 0 ∨ h.on (R.CC_CTRL_EN p.ix) = false ∨ h.get (R.CC_CTRL_ROLE p.ix) ≠ 0 ∨ h.defPower = true ∨ h.pdState p = 7) → becomes (.ccToggle p) h h)
    ∧ (∀ (l : BitVec 3) (i : BitVec 4), h.awake = true → h.pdLive p = false → does (.cceConfigWrite p false l i) h (fun t => t.get (R.CC_SRC_CFG_HV_LEVEL p.ix) = (if l.toNat ≤ 4 then l.toNat else h.get (R.CC_SRC_CFG_HV_LEVEL p.ix)) ∧ t.get (R.CC_SRC_CFG_I_HV p.ix) = (if 1 ≤ i.toNat ∧ i.toNat ≤ 10 then i.toNat else h.get (R.CC_SRC_CFG_I_HV p.ix)) ∧ onlyRegs h t [A.CC_SRC_CFG p.ix]) ∧ does (.cceConfigWrite p true l i) h (fun t => t.get (R.CC_SNK_CFG_MAX_LEVEL p.ix) = (if l.toNat ≤ 4 then l.toNat else h.get (R.CC_SNK_CFG_MAX_LEVEL p.ix)) ∧ t.get (R.CC_SNK_CFG_I_MAX p.ix) = (if 1 ≤ i.toNat ∧ i.toNat ≤ 10 then i.toNat else h.get (R.CC_SNK_CFG_I_MAX p.ix)) ∧ onlyRegs h t [A.CC_SNK_CFG p.ix]))
    ∧ (∀ (l : BitVec 3) (i : BitVec 4), h.awake = true → h.pdLive p = true → (h.cc.at p).before = none → (h.cc.at p).source = true → 0 < (h.cc.at p).vout → (h.cc.at p).epr = false → does (.cceConfigWrite p false l i) h (fun t => t.out = .pd p (.sourceCaps (t.sprPdos p) (t.on (R.CC_CTRL_EPR_EN p.ix) && decide (2 ≤ t.get (R.CC_SRC_CFG_HV_LEVEL p.ix)))) :: .sinkTxNg p :: h.out ∧ (t.cc.at p).good = false ∧ t = { h with regs := t.regs, out := t.out, cc := t.cc }))
    ∧ (∀ (l : BitVec 3) (i : BitVec 4) (g : Hub), h.awake = true → h.pdLive p = true → (h.cc.at p).before = none → (h.cc.at p).source = false → h.get (R.CC_STATUS_RP_SEEN p.ix) = 3 → (g = (if 1 ≤ i.toNat ∧ i.toNat ≤ 10 then (if l.toNat ≤ 4 then h.put (R.CC_SNK_CFG_MAX_LEVEL p.ix) l.toNat else h).put (R.CC_SNK_CFG_I_MAX p.ix) i.toNat else if l.toNat ≤ 4 then h.put (R.CC_SNK_CFG_MAX_LEVEL p.ix) l.toNat else h)) → becomes (.cceConfigWrite p true l i) h (match g.pickPdo p (g.cc.at p).caps with | none => g | some d => (g.pd p (if (g.cc.at p).epr then .eprRequest d else .request d)).onCc p (fun x => { x with wait := .answer, pend := some d })))
    ∧ (∀ (l : BitVec 3) (i : BitVec 4), h.awake = true → h.pdLive p = true → (h.cc.at p).before = none → (h.cc.at p).source = false → h.get (R.CC_STATUS_RP_SEEN p.ix) ≠ 3 → does (.cceConfigWrite p true l i) h (fun t => (t.cc.at p).due.contains .request = true ∧ t.out = h.out ∧ t = { h with regs := t.regs, cc := t.cc }))

/-- PD messages (R406–R411, R417). -/
def Obligations.CableMessages : Prop :=
  ∀ (h : Hub) (p : Port), h.pw.dark = false → h.pdLive p = true → 
    (∀ (g : Bool), (h.cc.at p).source = true → (h.cc.at p).good = false → (h.cc.at p).sent < 50 → 0 < (h.cc.at p).vout → (h.cc.at p).pend = none → becomes (.sourceCapabilitiesSend p g) h (((h.emit (.sinkTxNg p)).sendCaps p).onCc p (fun x => { x with good := g, sent := (h.cc.at p).sent + 1 })))
    ∧ (∀ (g : Bool), ((h.cc.at p).source = false ∨ (h.cc.at p).good = true ∨ 50 ≤ (h.cc.at p).sent ∨ (h.cc.at p).pend ≠ none) → becomes (.sourceCapabilitiesSend p g) h h)
    ∧ (∀ (ps : List Pdo) (e : Bool) (d : Pdo), (h.cc.at p).source = false → h.pickPdo p ps = some d → does (.sourceCapabilities p ps e) h (fun t => (t.cc.at p).caps = ps ∧ (t.cc.at p).capsEpr = e ∧ (t.cc.at p).epr = false ∧ (t.cc.at p).wait = .answer ∧ (t.cc.at p).pend = some d ∧ t.out = .pd p (.request d) :: h.out ∧ t.pdState p = (if h.pdState p = 5 then 1 else h.pdState p) ∧ t = { h with regs := t.regs, cc := t.cc, out := t.out }))
    ∧ (∀ (ps : List Pdo) (d : Pdo), (h.cc.at p).source = false → (h.cc.at p).epr = true → h.pickPdo p ps = some d → does (.eprSourceCapabilities p ps) h (fun t => (t.cc.at p).caps = ps ∧ (t.cc.at p).wait = .answer ∧ (t.cc.at p).pend = some d ∧ t.out = .pd p (.eprRequest d) :: h.out ∧ t = { h with cc := t.cc, out := t.out }))
    ∧ (∀ (ps : List Pdo) (d o : Pdo), h.pickPdo p ps = some d → o ∈ ps → 400 ≤ o.volts → o.volts ≤ levelVolts (h.get (R.CC_SNK_CFG_MAX_LEVEL p.ix)) → o.volts ≤ d.volts ∧ d.volts ≤ levelVolts (h.get (R.CC_SNK_CFG_MAX_LEVEL p.ix)) ∧ d.amps ≤ 50 * h.get (R.CC_SNK_CFG_I_MAX p.ix))
    ∧ (∀ (ps : List Pdo) (v : Pdo), h.pickPdo p (v :: ps) = none → ∀ d ∈ v :: ps, d.volts ≠ 100)
    ∧ (∀ (d : Pdo), (h.cc.at p).source = true → (h.cc.at p).before = none → (h.cc.at p).epr = false → (h.sprPdos p).any (fun o => o.volts == d.volts && decide (d.amps ≤ o.amps)) = true → does (.request p d) h (fun t => t.out = .pd p .accept :: h.out ∧ (t.cc.at p).pend = some d ∧ t = { h with cc := t.cc, out := t.out }))
    ∧ (∀ (d : Pdo), (h.cc.at p).source = true → (h.cc.at p).before = none → (h.cc.at p).epr = false → (h.sprPdos p).any (fun o => o.volts == d.volts && decide (d.amps ≤ o.amps)) = false → becomes (.request p d) h (h.pd p .reject))
    ∧ (∀ (d : Pdo), (h.cc.at p).source = true → (h.cc.at p).before = none → (h.cc.at p).epr = true → (h.eprPdos p).any (fun o => o.volts == d.volts && decide (d.amps ≤ o.amps)) = true → does (.eprRequest p d) h (fun t => t.out = .pd p .accept :: h.out ∧ (t.cc.at p).pend = some d ∧ t = { h with cc := t.cc, out := t.out }))
    ∧ ((h.cc.at p).wait = .answer → becomes (.accept p) h (h.onCc p (fun x => { x with wait := .psRdy })) ∧ becomes (.reject p) h (h.onCc p (fun x => { x with wait := .none, pend := none })) ∧ becomes (.waitMessage p) h (h.onCc p (fun x => { x with wait := .none, pend := none })))
    ∧ ((h.cc.at p).wait = .answer → (h.cc.at p).source = false → h.hasOtherFeed p = false → becomes (.pdResponseTimeout p) h (h.onCc p (fun x => { x with wait := .none, pend := none })))
    ∧ (∀ (d : Pdo), (h.cc.at p).wait = .psRdy → (h.cc.at p).pend = some d → (h.cc.at p).capsEpr = false → (h.cc.at p).epr = false → does (.psRdy p) h (fun t => t.get (R.CC_CONTRACT_VOLTAGE p.ix) = d.volts % 4096 ∧ t.get (R.CC_CONTRACT_CURRENT p.ix) = d.amps % 1024 ∧ t.on (R.CC_CONTRACT_EPR p.ix) = false ∧ t.on (R.CC_CONTRACT_SOURCE p.ix) = (h.cc.at p).source ∧ t.pdState p = 2 ∧ t.on (R.CC_EVENT_CONTRACT_CHG p.ix) = true ∧ (t.cc.at p).wait = .none ∧ (t.cc.at p).pend = none ∧ t = { h with regs := t.regs, cc := t.cc }))
    ∧ (∀ (d : Pdo), (h.cc.at p).wait = .psRdy → (h.cc.at p).pend = some d → (h.cc.at p).capsEpr = true → (h.cc.at p).epr = false → h.on (R.CC_CTRL_EPR_EN p.ix) = true → 2 ≤ h.get (R.CC_SNK_CFG_MAX_LEVEL p.ix) → (h.get (R.CC_STATUS_RP_SEEN p.ix) = 3 ∨ (h.cc.at p).source = true) → does (.psRdy p) h (fun t => t.pdState p = 2 ∧ (t.cc.at p).wait = .epr ∧ t.out = .pd p (.eprMode 1) :: h.out ∧ t = { h with regs := t.regs, out := t.out, cc := t.cc }))
    ∧ (∀ (d : Pdo), (h.cc.at p).wait = .psRdy → (h.cc.at p).pend = some d → (h.cc.at p).capsEpr = true → (h.cc.at p).epr = false → h.on (R.CC_CTRL_EPR_EN p.ix) = true → 2 ≤ h.get (R.CC_SNK_CFG_MAX_LEVEL p.ix) → (h.cc.at p).source = false → h.get (R.CC_STATUS_RP_SEEN p.ix) ≠ 3 → does (.psRdy p) h (fun t => t.pdState p = 2 ∧ (t.cc.at p).wait = .none ∧ (t.cc.at p).due.contains .epr = true ∧ t.out = h.out ∧ t = { h with regs := t.regs, out := t.out, cc := t.cc }))
    ∧ (∀ (d : Pdo) (i : CableId), (h.cc.at p).pend = some d → (h.cc.at p).source = true → (h.cc.at p).barred = false → h.defPower = false → h.on (R.CC_STATUS_VCONN_ON p.ix) = false → does (.vcabTransitionDone p i) h (fun t => t.get (R.CC_CONTRACT_VOLTAGE p.ix) = d.volts % 4096 ∧ t.get (R.CC_CONTRACT_CURRENT p.ix) = d.amps % 1024 ∧ t.on (R.CC_CONTRACT_SOURCE p.ix) = true ∧ t.on (R.CC_EVENT_CONTRACT_CHG p.ix) = true ∧ (t.cc.at p).vout = d.volts ∧ (t.cc.at p).pend = none ∧ t.out = .pd p .psRdy :: .vcab p d.volts :: h.out ∧ t = { h with regs := t.regs, out := t.out, cc := t.cc }))
    ∧ (∀ (d : Pdo) (a e : Bool), (h.cc.at p).pend = some d → (h.cc.at p).source = true → h.on (R.CC_STATUS_VCONN_ON p.ix) = true → does (.vcabTransitionDone p (some (a, e))) h (fun t => t.on (R.CC_STATUS_CABLE_5A p.ix) = a ∧ t.on (R.CC_STATUS_CABLE_EPR p.ix) = e ∧ t.out.head? = some (.pd p .discoverIdentity) ∧ t = { h with regs := t.regs, out := t.out, cc := t.cc }))
    ∧ (becomes (.getSourceCap p) h (h.sendCaps p) ∧ becomes (.getSinkCap p) h (h.pd p (.sinkCaps (h.sinkPdos p))) ∧ becomes (.drSwap p) h (h.pd p .reject))
    ∧ ((h.cc.at p).epr = false → h.sendCaps p = h.pd p (.sourceCaps (h.sprPdos p) (h.on (R.CC_CTRL_EPR_EN p.ix) && decide (2 ≤ h.get (R.CC_SRC_CFG_HV_LEVEL p.ix)))))
    ∧ (h.defPower = false → h.get (R.CC_SRC_CFG_HV_LEVEL p.ix) ≠ 1 → h.sprPdos p = [⟨100, 150⟩])
    ∧ (∀ (ps : List Pdo), becomes (.sinkCapabilities p ps) h (h.onCc p (fun x => { x with snkCaps := ps })))
    ∧ (does (.softReset p) h (fun t => t.out = .pd p .accept :: h.out ∧ t.pdState p = 1 ∧ (t.cc.at p).wait = .none ∧ (t.cc.at p).pend = none ∧ (t.cc.at p).before = none ∧ (t.cc.at p).source = (h.cc.at p).source ∧ t.rd (A.CC_CONTRACT p.ix) = h.rd (A.CC_CONTRACT p.ix) ∧ t = { h with regs := t.regs, out := t.out, cc := t.cc }))
    ∧ (∀ (a : Bool), does (.pdUnsupportedMessage p a) h (fun t => t.get (R.CC_UNSUPPORTED p.ix) = min (2 ^ (R.CC_UNSUPPORTED p.ix).width - 1) (h.get (R.CC_UNSUPPORTED p.ix) + 1) ∧ t.out = (if a then h.out else .pd p .notSupported :: h.out) ∧ t = { h with regs := t.regs, out := t.out }))
    ∧ ((h.cc.at p).source = true → h.eprSource p = true → h.pdState p = 2 → does (.eprMode p 1) h (fun t => (t.cc.at p).epr = true ∧ t.out = .pd p (.eprSourceCaps (h.eprPdos p)) :: .pd p (.eprMode 3) :: .pd p (.eprMode 2) :: h.out ∧ t = { h with out := t.out, cc := t.cc }))
    ∧ ((h.cc.at p).source = true → h.eprSource p = false → becomes (.eprMode p 1) h (h.pd p (.eprMode 4)))
    ∧ ((h.cc.at p).source = false → (h.cc.at p).wait = .epr → becomes (.eprMode p 3) h (h.onCc p (fun x => { x with epr := true, wait := .none })) ∧ becomes (.eprMode p 4) h (h.onCc p (fun x => { x with wait := .none })))
    ∧ ((h.cc.at p).epr = true → (h.cc.at p).source = true → becomes (.eprKeepalive p) h (h.pd p .eprKeepAliveAck) ∧ does (.eprKeepaliveTimeout p) h (fun t => (t.cc.at p).epr = false ∧ (t.cc.at p).pend = some ⟨100, 150⟩ ∧ (t.cc.at p).good = false ∧ t.out = .pd p (.eprMode 5) :: .sinkTxNg p :: h.out ∧ t = { h with out := t.out, cc := t.cc }))
    ∧ ((h.cc.at p).epr = true → (h.cc.at p).source = false → h.get (R.CC_STATUS_RP_SEEN p.ix) = 3 → becomes (.eprKeepaliveSend p) h (h.pd p .eprKeepAlive))
    ∧ ((h.cc.at p).epr = true → (h.cc.at p).source = false → h.get (R.CC_STATUS_RP_SEEN p.ix) ≠ 3 → (h.cc.at p).due = [] → becomes (.eprKeepaliveSend p) h (h.onCc p (fun x => { x with due := [.keepAlive] })))
    ∧ ((h.cc.at p).epr = false → becomes (.eprKeepaliveSend p) h h ∧ becomes (.eprKeepalive p) h h ∧ becomes (.eprKeepaliveTimeout p) h h)
    ∧ (∀ (v : Nat), (h.cc.at p).source = true → v = levelVolts (h.get (R.CC_SRC_CFG_HV_LEVEL p.ix)) → 400 ≤ v → inWindow (h.vcomFor p) v = false → h.get (R.CC_CONTRACT_VOLTAGE p.ix) = v → becomes (.vcomWindowLost p) h (h.onCc p (fun x => { x with pend := some ⟨100, 150⟩, good := false, sent := 0 })))
    ∧ ((h.cc.at p).source = false → becomes (.vcomWindowLost p) h h)

/-- Swaps (R412), hard resets (R413, R414), protection (R415, R416). -/
def Obligations.CableSwapsAndTrips : Prop :=
  ∀ (h : Hub) (p : Port), h.pw.dark = false → h.pdLive p = true → 
    (h.awake = true → (h.cc.at p).wait = .none → (h.cc.at p).before = none → h.rd (A.CC_CONTRACT p.ix) ≠ 0 → (h.cc.at p).retryAt ≤ h.root → ((h.cc.at p).source = true ∨ h.get (R.CC_STATUS_RP_SEEN p.ix) = 3) → becomes (.ccePrSwap p) h (((if (h.cc.at p).source then h.emit (.sinkTxNg p) else h).pd p .prSwap).onCc p (fun x => { x with wait := .swapAnswer })))
    ∧ (h.awake = true → (h.cc.at p).wait = .none → (h.cc.at p).before = none → h.rd (A.CC_CONTRACT p.ix) ≠ 0 → (h.cc.at p).retryAt ≤ h.root → (h.cc.at p).source = false → h.get (R.CC_STATUS_RP_SEEN p.ix) ≠ 3 → (h.cc.at p).due = [] → becomes (.ccePrSwap p) h (h.onCc p (fun x => { x with due := [.swap] })))
    ∧ (h.awake = true → (h.rd (A.CC_CONTRACT p.ix) = 0 ∨ h.root < (h.cc.at p).retryAt ∨ (h.cc.at p).wait ≠ .none) → becomes (.ccePrSwap p) h h)
    ∧ ((h.cc.at p).before = none → h.pdState p ≠ 5 → h.pdState p ≠ 6 → (h.cc.at p).wait ≠ .swapAnswer → h.fedOtherwise p = false → becomes (.prSwapReceived p) h (h.pd p .reject))
    ∧ ((h.cc.at p).before = none → h.pdState p ≠ 5 → h.pdState p ≠ 6 → (h.cc.at p).wait ≠ .swapAnswer → h.fedOtherwise p = true → h.fuse ≠ 4 → (h.cc.at p).source = true → does (.prSwapReceived p) h (fun t => t.out = .pd p .psRdy :: .vcab p 0 :: .pd p .accept :: h.out ∧ (t.cc.at p).vout = 0 ∧ (t.cc.at p).rp = false ∧ (t.cc.at p).wait = .sourceOn ∧ (t.cc.at p).before = some true ∧ t.pdState p = 4 ∧ t.rd (A.CC_CONTRACT p.ix) = 0#32 ∧ t = { h with regs := t.regs, out := t.out, cc := t.cc, load := t.load }))
    ∧ ((h.cc.at p).before = none → h.pdState p ≠ 5 → h.pdState p ≠ 6 → (h.cc.at p).wait ≠ .swapAnswer → h.fedOtherwise p = true → h.fuse ≠ 4 → (h.cc.at p).source = false → does (.prSwapReceived p) h (fun t => t.out = .pd p .accept :: h.out ∧ (t.cc.at p).wait = .sourceOff ∧ (t.cc.at p).before = some false ∧ t.pdState p = 4 ∧ t = { h with regs := t.regs, out := t.out, cc := t.cc, load := t.load }))
    ∧ ((h.cc.at p).before = none → h.pdState p ≠ 5 → h.pdState p ≠ 6 → (h.cc.at p).wait = .swapAnswer → (h.cc.at p).source = true → does (.prSwapReceived p) h (fun t => t.get (R.CC_COLLISIONS p.ix) = min (2 ^ (R.CC_COLLISIONS p.ix).width - 1) (h.get (R.CC_COLLISIONS p.ix) + 1) ∧ t.on (R.CC_EVENT_COLLISION p.ix) = true ∧ t.out = .pd p .wait :: h.out ∧ t = { h with regs := t.regs, out := t.out }))
    ∧ (((h.cc.at p).before ≠ none ∨ h.pdState p = 5 ∨ h.pdState p = 6) → becomes (.prSwapReceived p) h h)
    ∧ ((h.cc.at p).wait = .swapAnswer → becomes (.waitMessage p) h (h.onCc p (fun x => { x with wait := .none, retryAt := h.root + 100000 * us })) ∧ becomes (.reject p) h (h.onCc p (fun x => { x with wait := .none })))
    ∧ ((h.cc.at p).wait = .sourceOff → (h.cc.at p).epr = false → (h.cc.at p).barred = false → h.defPower = false → does (.psRdy p) h (fun t => t.attach p = 1 ∧ t.on (R.CC_EVENT_ATTACH_CHG p.ix) = true ∧ (t.cc.at p).rp = true ∧ (t.cc.at p).source = true ∧ (t.cc.at p).vout = 100 ∧ (t.cc.at p).path = false ∧ (t.cc.at p).before = none ∧ t.on (R.CC_EVENT_SWAP_DONE p.ix) = true ∧ t.get (R.CC_STATUS_RP_SEEN p.ix) = 0 ∧ t.pdState p = 1 ∧ t.out = .pd p (.sourceCaps (t.sprPdos p) (h.on (R.CC_CTRL_EPR_EN p.ix) && decide (2 ≤ h.get (R.CC_SRC_CFG_HV_LEVEL p.ix)))) :: .sinkTxNg p :: .pd p .psRdy :: .vcab p 100 :: h.out ∧ t = { h with regs := t.regs, out := t.out, err := t.err, cc := t.cc }))
    ∧ ((h.cc.at p).wait = .sourceOn → does (.psRdy p) h (fun t => t.attach p = 2 ∧ t.on (R.CC_EVENT_ATTACH_CHG p.ix) = true ∧ 1 ≤ t.get (R.CC_STATUS_RP_SEEN p.ix) ∧ t.get (R.CC_STATUS_RP_SEEN p.ix) ≤ 3 ∧ (t.cc.at p).source = false ∧ (t.cc.at p).before = none ∧ t.on (R.CC_EVENT_SWAP_DONE p.ix) = true ∧ t.pdState p = 1 ∧ t = { h with regs := t.regs, free := t.free, cc := t.cc }))
    ∧ (h.on (R.CC_CTRL_VCONN_EN p.ix) = false → becomes (.vconnSwap p) h (h.pd p .reject))
    ∧ (h.on (R.CC_CTRL_VCONN_EN p.ix) = true → h.on (R.CC_STATUS_VCONN_ON p.ix) = false → becomes (.vconnSwap p) h (((h.pd p .accept).put (R.CC_STATUS_VCONN_ON p.ix) 1).pd p .psRdy))
    ∧ (h.on (R.CC_CTRL_VCONN_EN p.ix) = true → h.on (R.CC_STATUS_VCONN_ON p.ix) = true → becomes (.vconnSwap p) h ((h.pd p .accept).onCc p (fun x => { x with wait := .vconn })))
    ∧ (∀ (src : Bool), h.fuse ≠ 4 → src = ((h.cc.at p).before).getD (h.cc.at p).source → does (.hardResetReceived p) h (fun t => t.get (R.CC_HARD_RESETS p.ix) = min (2 ^ (R.CC_HARD_RESETS p.ix).width - 1) (h.get (R.CC_HARD_RESETS p.ix) + 1) ∧ t.on (R.CC_EVENT_HARD_RESET p.ix) = true ∧ t.rd (A.CC_CONTRACT p.ix) = 0#32 ∧ (t.cc.at p).before = none ∧ (t.cc.at p).source = src ∧ (t.cc.at p).rp = src ∧ (t.cc.at p).vout = 0 ∧ t.pdState p = (if src then 6 else 5) ∧ t.attach p = h.attach p ∧ t = { h with regs := t.regs, out := t.out, cc := t.cc, load := t.load }))
    ∧ (h.awake = true → h.fuse ≠ 4 → ((h.cc.at p).source = true ∨ h.hasOtherFeed p = true) → does (.cceHardReset p) h (fun t => t.on (R.CC_EVENT_HARD_RESET p.ix) = true ∧ t.rd (A.CC_CONTRACT p.ix) = 0#32 ∧ .pd p .hardReset ∈ t.out ∧ (t.cc.at p).vout = 0 ∧ t = { h with regs := t.regs, out := t.out, cc := t.cc, load := t.load }))
    ∧ (h.awake = true → (h.cc.at p).source = false → h.hasOtherFeed p = false → becomes (.cceHardReset p) h h)
    ∧ (h.pdState p = 6 → (h.cc.at p).barred = false → h.defPower = false → does (.hardResetRecovery p) h (fun t => (t.cc.at p).vout = 100 ∧ (t.cc.at p).source = true ∧ t.pdState p = 1 ∧ t.out = .vcab p 100 :: h.out ∧ t = { h with regs := t.regs, out := t.out, cc := t.cc }))
    ∧ (h.pdState p ≠ 6 → becomes (.hardResetRecovery p) h h)
    ∧ (∀ (d : Pdo), (h.cc.at p).source = true → (h.cc.at p).pend = some d → (h.cc.at p).before = none → h.fuse ≠ 4 → does (.vcabTransitionTimeout p) h (fun t => t.get (R.CC_FAULTS p.ix) = min (2 ^ (R.CC_FAULTS p.ix).width - 1) (h.get (R.CC_FAULTS p.ix) + 1) ∧ t.out = .vcab p 0 :: .pd p .hardReset :: h.out ∧ (t.cc.at p).pend = none ∧ t.pdState p = 6 ∧ t = { h with regs := t.regs, out := t.out, cc := t.cc, load := t.load }))
    ∧ (h.fuse ≠ 4 → (h.cc.at p).wait = .sourceOn → (h.cc.at p).before = some true → h.hasOtherFeed p = true → does (.psTransitionTimeout p) h (fun t => t.pdState p = 6 ∧ (t.cc.at p).source = true ∧ (t.cc.at p).rp = true ∧ (t.cc.at p).before = none ∧ t = { h with regs := t.regs, out := t.out, cc := t.cc, load := t.load }))
    ∧ (h.fuse ≠ 4 → (h.cc.at p).trips.length + 1 < h.get (R.CC_PROT_RETRY_MAX p.ix) → (h.cc.at p).before = none → (h.cc.at p).source = true → does (.cableOverVoltage p) h (fun t => t.on (R.CC_EVENT_OVP p.ix) = true ∧ t.get (R.CC_FAULTS p.ix) = min (2 ^ (R.CC_FAULTS p.ix).width - 1) (h.get (R.CC_FAULTS p.ix) + 1) ∧ (t.cc.at p).vout = 0 ∧ t.pdState p = 6 ∧ t.out = .vcab p 0 :: .pd p .hardReset :: h.out ∧ t = { h with regs := t.regs, out := t.out, err := t.err, cc := t.cc, load := t.load }) ∧ does (.cableOverCurrent p) h (fun t => t.on (R.CC_EVENT_OCP p.ix) = true ∧ (t.cc.at p).vout = 0 ∧ t.pdState p = 6 ∧ t.out = .vcab p 0 :: .pd p .hardReset :: h.out ∧ t = { h with regs := t.regs, out := t.out, err := t.err, cc := t.cc, load := t.load }) ∧ does (.cableShort p) h (fun t => t.on (R.CC_EVENT_OCP p.ix) = true ∧ (t.cc.at p).vout = 0 ∧ t.pdState p = 6 ∧ t.out = .vcab p 0 :: .pd p .hardReset :: h.out ∧ t = { h with regs := t.regs, out := t.out, err := t.err, cc := t.cc, load := t.load }) ∧ does (.cableReverseCurrent p) h (fun t => t.on (R.CC_EVENT_RCP p.ix) = true ∧ (t.cc.at p).vout = 0 ∧ t.pdState p = 6 ∧ t.out = .vcab p 0 :: .pd p .hardReset :: h.out ∧ t = { h with regs := t.regs, out := t.out, err := t.err, cc := t.cc, load := t.load }))
    ∧ (h.get (R.CC_PROT_RETRY_MAX p.ix) ≤ 1 → does (.cableOverVoltage p) h (fun t => t.pdState p = 7 ∧ t.on (R.CC_EVENT_OVP p.ix) = true ∧ (t.cc.at p).vout = 0 ∧ t = { h with regs := t.regs, out := t.out, err := t.err, cc := t.cc, load := t.load }))
    ∧ ((h.cc.at p).vout = 0 → (h.cc.at p).source = false → h.hasOtherFeed p = false → (h.cc.at p).before = none → (h.cc.at p).trips.length + 1 < h.get (R.CC_PROT_RETRY_MAX p.ix) → h.fuse ≠ 4 → does (.cableOverVoltage p) h (fun t => t.on (R.CC_EVENT_OVP p.ix) = true ∧ (t.cc.at p).path = false ∧ t.pdState p = 5 ∧ t.out = .pd p .hardReset :: h.out ∧ t = { h with regs := t.regs, out := t.out, err := t.err, cc := t.cc, load := t.load }))
    ∧ ((h.cc.at p).source = false → becomes (.cableOverCurrent p) h h ∧ becomes (.cableShort p) h h)
    ∧ (h.on (R.CC_STATUS_VCONN_ON p.ix) = true → (h.cc.at p).trips.length + 1 < h.get (R.CC_PROT_RETRY_MAX p.ix) → (h.cc.at p).pend = none → (h.cc.at p).before = none → (h.cc.at p).wait = .none → does (.vconnOverCurrent p) h (fun t => t.on (R.CC_STATUS_VCONN_ON p.ix) = false ∧ t.on (R.CC_EVENT_OCP p.ix) = true ∧ t.get (R.CC_FAULTS p.ix) = min (2 ^ (R.CC_FAULTS p.ix).width - 1) (h.get (R.CC_FAULTS p.ix) + 1) ∧ (t.cc.at p).vout = (h.cc.at p).vout ∧ t = { h with regs := t.regs, err := t.err, cc := t.cc }))
    ∧ (∀ (d : Pdo), h.on (R.CC_STATUS_VCONN_ON p.ix) = true → (h.cc.at p).trips.length + 1 < h.get (R.CC_PROT_RETRY_MAX p.ix) → (h.cc.at p).source = true → (h.cc.at p).pend = some d → (h.cc.at p).before = none → h.fuse ≠ 4 → does (.vconnOverCurrent p) h (fun t => t.on (R.CC_STATUS_VCONN_ON p.ix) = false ∧ t.on (R.CC_EVENT_OCP p.ix) = true ∧ (t.cc.at p).pend = none ∧ t.pdState p = 6 ∧ t.out = .vcab p 0 :: .pd p .hardReset :: h.out ∧ t = { h with regs := t.regs, out := t.out, err := t.err, cc := t.cc, load := t.load }))
    ∧ (∀ (g : Hub), g.awake = true → g.pdState p = 7 → g.attach p = 2 → g.on (R.CC_CTRL_EN p.ix) = true → does (.cceFaultClear p) g (fun t => t.pdState p = 1 ∧ (t.cc.at p).source = false ∧ (t.cc.at p).trips = [] ∧ t = { g with regs := t.regs, cc := t.cc }))
    ∧ (∀ (g : Hub), g.awake = true → g.pdState p = 7 → g.on (R.CC_CTRL_EN p.ix) = false → does (.cceFaultClear p) g (fun t => t.pdState p = 0 ∧ onlyRegs g t [A.CC_STATUS p.ix]))
    ∧ (∀ (g : Hub), g.awake = true → g.pdState p ≠ 7 → becomes (.cceFaultClear p) g g)

/-- Feeds (R420, R421) and the fuse (R423–R431): where each command leads. -/
def Obligations.FeedsAndFuse : Prop :=
  ∀ (h : Hub), h.pw.dark = false → 
    (∀ (f : Fin 3), h.feedPermitted f = true → h.feedOn f = false → (f = 2 ∨ h.fetHot f = false) → does (.feedGateOn f) h (fun t => t.feedOn f = true ∧ t.get R.LOAD_STATUS_FEEDS = h.get R.LOAD_STATUS_FEEDS ||| 2 ^ f.val ∧ t.feedVolts f = h.feedVolts f ∧ t = { h with regs := t.regs }))
    ∧ (∀ (f : Fin 3), (h.feedPermitted f = false ∨ (f ≠ 2 ∧ h.fetHot f = true)) → becomes (.feedGateOn f) h h)
    ∧ (h.feedPermitted 0 = (h.cc.e.path && !h.cc.e.barred) ∧ h.feedPermitted 1 = (h.cc.w.path && !h.cc.w.barred) ∧ h.feedPermitted 2 = (h.on R.LOAD_CTRL_LOCAL_EN && !h.load.locHot))
    ∧ (∀ (f : Fin 3), h.feedOn f = true → h.otherFeed f = false → does (.feedReverseOff f) h (fun t => t.feedOn f = false ∧ t.get R.LOAD_RCB = min (2 ^ R.LOAD_RCB.width - 1) (h.get R.LOAD_RCB + 1) ∧ t = { h with regs := t.regs }))
    ∧ (∀ (f : Fin 3), h.feedOn f = true → h.otherFeed f = true → does (.feedReverseOff f) h (fun t => t.feedOn f = false ∧ t.on R.LOAD_EVENT_FEED_LOST = true ∧ t.get R.LOAD_RCB = min (2 ^ R.LOAD_RCB.width - 1) (h.get R.LOAD_RCB + 1) ∧ t.get R.ERR_SEQ_NEWEST = (h.get R.ERR_SEQ_NEWEST + 1) % 65536 ∧ t = { h with regs := t.regs, err := t.err }))
    ∧ (∀ (f : Fin 3), h.feedOn f = false → becomes (.feedReverseOff f) h h)
    ∧ (h.awake = true → becomes (.loadLocalEnWrite true) h (h.put R.LOAD_CTRL_LOCAL_EN 1))
    ∧ (h.awake = true → (h.feedPermitted 0 = false ∨ h.feedVolts 0 < 90) → (h.feedPermitted 1 = false ∨ h.feedVolts 1 < 90) → becomes (.loadLocalEnWrite false) h h)
    ∧ (h.awake = true → h.feedPermitted 0 = true → 90 ≤ h.feedVolts 0 → h.feedOn 2 = false → becomes (.loadLocalEnWrite false) h (h.put R.LOAD_CTRL_LOCAL_EN 0))
    ∧ (h.awake = true → h.fuse = 0 → h.defPower = false → h.load.barred = false → does (.loadEnWrite true) h (fun t => t.on R.LOAD_CTRL_EN = true ∧ t.fuse = (if h.loadPresent && h.on R.LOAD_STATUS_WINDOW_OK then 2 else 1) ∧ t.on R.LOAD_STATUS_PG = false ∧ t = { h with regs := t.regs, load := t.load }))
    ∧ (h.awake = true → does (.loadEnWrite false) h (fun t => t.on R.LOAD_CTRL_EN = false ∧ t.fuse = 0 ∧ t.on R.LOAD_STATUS_PG = false ∧ t = { h with regs := t.regs, load := t.load }))
    ∧ (h.awake = true → h.fuse = 6 → h.on R.LOAD_CTRL_EN = true → h.defPower = false → h.load.barred = false → does .loadFaultClear h (fun t => t.fuse = (if h.loadPresent && h.on R.LOAD_STATUS_WINDOW_OK then 2 else 1) ∧ t = { h with regs := t.regs, load := t.load }))
    ∧ (h.awake = true → h.fuse ≠ 6 → becomes .loadFaultClear h h)
    ∧ (h.on R.LOAD_STATUS_PRESENT = false → h.fuse = 1 → does (.loadPresenceChange true) h (fun t => t.on R.LOAD_STATUS_PRESENT = true ∧ t.get R.LOAD_INSERTS = min (2 ^ R.LOAD_INSERTS.width - 1) (h.get R.LOAD_INSERTS + 1) ∧ t.fuse = (if h.on R.LOAD_STATUS_WINDOW_OK then 2 else 1) ∧ t = { h with regs := t.regs, load := t.load }))
    ∧ (h.on R.LOAD_STATUS_PRESENT = false → h.fuse = 5 → does (.loadPresenceChange true) h (fun t => t.on R.LOAD_STATUS_PRESENT = true ∧ t.on R.LOAD_EVENT_REINSERT = true ∧ t.fuse = 5 ∧ t = { h with regs := t.regs, load := t.load }))
    ∧ (h.on R.LOAD_STATUS_PRESENT = true → h.fuse = 4 → h.on R.LOAD_CTRL_PRES_IGNORE = false → does (.loadPresenceChange false) h (fun t => t.on R.LOAD_STATUS_PRESENT = false ∧ t.on R.LOAD_EVENT_PRES_LOST = true ∧ t.fuse = 1 ∧ t.on R.LOAD_STATUS_PG = false ∧ t = { h with regs := t.regs, load := t.load }))
    ∧ (∀ (v : BitVec 12), h.get R.LOAD_WINDOW_OV ≤ v.toNat → h.fuse = 4 → does (.loadWindowChange v) h (fun t => t.on R.LOAD_STATUS_WINDOW_OK = false ∧ t.on R.LOAD_EVENT_OV = true ∧ t.fuse = 1 ∧ t.on R.LOAD_STATUS_PG = false ∧ t = { h with regs := t.regs, load := t.load }))
    ∧ (∀ (v : BitVec 12), v.toNat < h.get R.LOAD_WINDOW_OV → h.load.uv < v.toNat → h.fuse = 1 → h.loadPresent = true → does (.loadWindowChange v) h (fun t => t.on R.LOAD_STATUS_WINDOW_OK = true ∧ t.fuse = 2 ∧ t = { h with regs := t.regs, load := t.load }))
    ∧ (h.fuse = 2 → does .loadDelayExpire h (fun t => t.fuse = 3 ∧ t.load.uv = h.get R.LOAD_WINDOW_UV ∧ t = { h with regs := t.regs, load := t.load }))
    ∧ (h.fuse = 3 → h.loadPresent = true → h.on R.LOAD_STATUS_WINDOW_OK = true → does .loadRampDone h (fun t => t.fuse = 4 ∧ t.on R.LOAD_STATUS_PG = h.on R.LOAD_STATUS_PG ∧ onlyRegs h t [A.LOAD_STATUS]))
    ∧ (h.fuse = 3 → (h.loadPresent = false ∨ h.on R.LOAD_STATUS_WINDOW_OK = false) → does .loadRampDone h (fun t => t.fuse = 1 ∧ t.on R.LOAD_STATUS_PG = false ∧ onlyRegs h t [A.LOAD_STATUS]))
    ∧ (h.fuse = 4 → becomes .loadPgAssert h (h.put R.LOAD_STATUS_PG 1))
    ∧ (h.fuse ≠ 4 → becomes .loadPgAssert h h)
    ∧ ((h.fuse = 3 ∨ h.fuse = 4) → h.on R.LOAD_CTRL_EN = true → h.defPower = false → h.on R.LOAD_CTRL_FAULT_MODE = false → h.get R.LOAD_STATUS_RETRIES < h.get R.LOAD_TIMING_RETRY_MAX → does .loadIlimTimeout h (fun t => t.fuse = 5 ∧ t.on R.LOAD_STATUS_PG = false ∧ t.on R.LOAD_EVENT_ILIM_TIMEOUT = true ∧ t.get R.LOAD_STATUS_RETRIES = min (2 ^ R.LOAD_STATUS_RETRIES.width - 1) (h.get R.LOAD_STATUS_RETRIES + 1) ∧ t.get R.LOAD_TRIPS = min (2 ^ R.LOAD_TRIPS.width - 1) (h.get R.LOAD_TRIPS + 1) ∧ t = { h with regs := t.regs, err := t.err, load := t.load }) ∧ does .loadShort h (fun t => t.fuse = 5 ∧ t.on R.LOAD_STATUS_PG = false ∧ t.on R.LOAD_EVENT_SHORT = true ∧ t = { h with regs := t.regs, err := t.err, load := t.load }))
    ∧ (h.fuse = 3 → h.on R.LOAD_CTRL_EN = true → h.defPower = false → (h.on R.LOAD_CTRL_FAULT_MODE = true ∨ h.get R.LOAD_TIMING_RETRY_MAX ≤ h.get R.LOAD_STATUS_RETRIES) → does .loadRampTimeout h (fun t => t.fuse = 6 ∧ t.on R.LOAD_STATUS_PG = false ∧ t.on R.LOAD_EVENT_RAMP_TIMEOUT = true ∧ t.on R.LOAD_EVENT_LATCHED = true ∧ t.get R.LOAD_STATUS_RETRIES = h.get R.LOAD_STATUS_RETRIES ∧ t = { h with regs := t.regs, err := t.err, load := t.load }))
    ∧ (h.fuse ≠ 3 → becomes .loadRampTimeout h h ∧ becomes .loadRampDone h h)
    ∧ (h.fuse = 5 → h.fetTemp 4 < 8 * h.get (R.LOAD_TM_LIM_TJ_RETRY 4) → does .loadRetryEnd h (fun t => t.fuse = (if h.loadPresent && h.on R.LOAD_STATUS_WINDOW_OK then 2 else 1) ∧ t = { h with regs := t.regs, load := t.load }))
    ∧ (h.fuse = 5 → 8 * (h.get (R.LOAD_TM_LIM_TJ_RETRY 4) : Int) ≤ h.fetTemp 4 → becomes .loadRetryEnd h h)
    ∧ (h.on R.LOAD_STATUS_PG = true → becomes .loadRetryCountReset h (h.put R.LOAD_STATUS_RETRIES 0))
    ∧ (h.on R.LOAD_STATUS_PG = false → becomes .loadRetryCountReset h h)

/-- Default-power mode (R410), the thermal model (R428, R429) and telemetry (R469, R470). -/
def Obligations.PowerModes : Prop :=
  ∀ (h : Hub), h.pw.dark = false → 
    (h.defPower = false → h.fuse ≠ 6 → does .defaultPowerEnter h (fun t => t.defPower = true ∧ t.fuse = 0 ∧ t.on R.LOAD_STATUS_PG = false ∧ (∀ p ∈ Port.all, t.on (R.CC_STATUS_HUB_DEFAULT p.ix) = true) ∧ (∀ p ∈ Port.all, (h.cc.at p).vout ≠ 0 → (t.cc.at p).vout = 0 ∧ t.get (R.CC_FAULTS p.ix) = min (2 ^ (R.CC_FAULTS p.ix).width - 1) (h.get (R.CC_FAULTS p.ix) + 1)) ∧ t = { h with regs := t.regs, out := t.out, err := t.err, eth := t.eth, usb := t.usb, cc := t.cc, load := t.load }))
    ∧ (h.defPower = true → becomes .defaultPowerEnter h h ∧ does .defaultPowerExit h (fun t => t.defPower = false ∧ (∀ p ∈ Port.all, t.on (R.CC_STATUS_HUB_DEFAULT p.ix) = false) ∧ (h.fuse = 0 → h.on R.LOAD_CTRL_EN = true → h.load.barred = false → t.fuse = 1 ∨ t.fuse = 2) ∧ t = { h with regs := t.regs, cc := t.cc, load := t.load }))
    ∧ (h.defPower = false → becomes .defaultPowerExit h h)
    ∧ (∀ (w : List Nat) (d : Diode), h.coop.held = false → does (.fetTempUpdate w d) h (fun t => (∀ f : Fin 5, t.load.d1.getD f 0 = heatStep (h.load.d1.getD f 0) (w.getD f 0) (h.get (R.LOAD_TM_RTH_RTH1 f)) (1000 * h.get (R.LOAD_TM_RTH_TAU1 f)) ∧ t.load.d2.getD f 0 = heatStep (h.load.d2.getD f 0) (w.getD f 0) (h.get (R.LOAD_TM_RTH_RTH2 f)) (10000 * h.get (R.LOAD_TM_RTH_TAU2 f))) ∧ t.get (R.LOAD_TM_TEMP_TEMP 0) = unsigned 16 (h.load.die + ((t.load.d1.getD 0 0 + t.load.d2.getD 0 0) / 125000000 : Nat)) % 65536 ∧ t = { h with regs := t.regs, load := t.load }))
    ∧ (∀ (p : Port), h.fetHot p.ix = true → h.armed p = true → (h.cc.at p).source = true → (h.cc.at p).before = none → h.attach p ≠ 3 → h.fuse ≠ 4 → (h.cc.at p).trips.length + 1 < h.get (R.CC_PROT_RETRY_MAX p.ix) → does (.fetOvertemp (Fin.ofNat 5 p.ix)) h (fun t => (t.cc.at p).vout = 0 ∧ t.pdState p = 6 ∧ t.get (R.CC_FAULTS p.ix) = min (2 ^ (R.CC_FAULTS p.ix).width - 1) (h.get (R.CC_FAULTS p.ix) + 1) ∧ t.out = .vcab p 0 :: .pd p .hardReset :: h.out ∧ t = { h with regs := t.regs, out := t.out, err := t.err, cc := t.cc, load := t.load }))
    ∧ (∀ (p : Port), h.fetHot p.ix = true → h.armed p = false → becomes (.fetOvertemp (Fin.ofNat 5 p.ix)) h h)
    ∧ (h.fetHot 3 = true → h.feedOn 2 = false → becomes (.fetOvertemp 3) h (h.onLoad (fun x => { x with locHot := true })))
    ∧ (h.fetHot 4 = true → h.fuse ≠ 5 → h.fuse ≠ 6 → h.on R.LOAD_CTRL_EN = true → h.defPower = false → h.on R.LOAD_CTRL_FAULT_MODE = true → does (.fetOvertemp 4) h (fun t => t.fuse = 6 ∧ t.on R.LOAD_EVENT_OVERTEMP = true ∧ t.on R.LOAD_STATUS_PG = false ∧ t = { h with regs := t.regs, out := t.out, err := t.err, cc := t.cc, load := t.load }))
    ∧ (∀ (f : Fin 5), h.fetHot f = false → becomes (.fetOvertemp f) h h)
    ∧ (∀ (x : Telemetry), h.coop.noRefs = false → does (.telemetrySample x) h (fun t => t.load.die = x.die ∧ t.load.core = x.core ∧ t.get R.LOAD_VOLTS_VCOM = x.vcom.toNat ∧ t.get R.LOAD_VOLTS_VOUT = x.vout.toNat ∧ t.feedVolts 0 = x.feedE.toNat ∧ t.feedVolts 2 = x.feedL.toNat ∧ t.get R.LOAD_IOUT_SENSE = min 65535 x.sense ∧ (∀ p ∈ Port.all, t.get (R.CC_VBUS_VOLT p.ix) = (x.cable.at p).volts.toNat) ∧ (∀ f ∈ List.range 3, t.feedOn f = (h.feedOn f && decide (90 ≤ t.feedVolts f))) ∧ (∀ p ∈ Port.all, (t.cc.at p).path = ((h.cc.at p).path || (h.cc.at p).closing && h.mayClose p && decide (95 ≤ (x.cable.at p).volts.toNat) && decide ((x.cable.at p).volts.toNat ≤ 110))) ∧ t = { h with regs := t.regs, err := t.err, cc := t.cc, load := t.load }))
    ∧ (∀ (x : Telemetry), h.coop.noRefs = true → becomes (.telemetrySample x) h h)

/-- Lifecycle requests (R435–R437, R453) and the random source (R444). -/
def Obligations.LifecycleRequests : Prop :=
  ∀ (h : Hub), h.awake = true → 
    (∀ (k : BitVec 16), h.sec.openedAt ≠ some h.root → k ≠ 0x4C43 → does (.lcProvision k) h (fun t => t.get R.SEC_LC_REQ_RESULT = 3 ∧ t.get R.SEC_LC_REQ_TARGET = 1 ∧ onlyRegs h t [R.SEC_LC_REQ_RESULT.addr]) ∧ does (.lcScrap k) h (fun t => t.get R.SEC_LC_REQ_RESULT = 3 ∧ t.get R.SEC_LC_REQ_TARGET = 4 ∧ onlyRegs h t [R.SEC_LC_REQ_RESULT.addr]))
    ∧ (h.sec.openedAt ≠ some h.root → h.lifecycle ≠ 0 → h.lifecycle ≠ 3 → does (.lcProvision 0x4C43) h (fun t => t.get R.SEC_LC_REQ_RESULT = 2 ∧ t.get R.SEC_LC_REQ_TARGET = 1 ∧ onlyRegs h t [R.SEC_LC_REQ_RESULT.addr]))
    ∧ (h.sec.openedAt ≠ some h.root → (h.lifecycle = 0 ∨ h.lifecycle = 3) → h.on R.SEC_STATUS_TRNG_FAIL = true → does (.lcProvision 0x4C43) h (fun t => t.get R.SEC_LC_REQ_RESULT = 4 ∧ onlyRegs h t [R.SEC_LC_REQ_RESULT.addr]))
    ∧ (h.sec.openedAt ≠ some h.root → (h.lifecycle = 0 ∨ h.lifecycle = 3) → h.on R.SEC_STATUS_TRNG_FAIL = false → does (.lcProvision 0x4C43) h (fun t => t.get R.SEC_LC_REQ_RESULT = 1 ∧ t.lifecycle = 1 ∧ t.get R.SEC_LC_CNT = min (2 ^ R.SEC_LC_CNT.width - 1) (h.get R.SEC_LC_CNT + 1) ∧ t.on R.SEC_STATUS_ORS_VALID = true ∧ t.ors.length = 32 ∧ t.sec.slots = h.sec.slots ∧ t = { h with regs := t.regs, free := t.free, links := t.links, err := t.err, fab := t.fab, tun := t.tun, sec := t.sec }))
    ∧ (h.sec.openedAt ≠ some h.root → h.lifecycle = 1 → h.get R.SEC_STATUS_PKEYS = 0 → does (.lcDeploy 0x4C43) h (fun t => t.get R.SEC_LC_REQ_RESULT = 4 ∧ t.lifecycle = 1 ∧ onlyRegs h t [R.SEC_LC_REQ_RESULT.addr]))
    ∧ (h.sec.openedAt ≠ some h.root → h.lifecycle = 1 → h.get R.SEC_STATUS_PKEYS ≠ 0 → does (.lcDeploy 0x4C43) h (fun t => t.get R.SEC_LC_REQ_RESULT = 1 ∧ t.lifecycle = 2 ∧ t.get R.SEC_LC_CNT = min (2 ^ R.SEC_LC_CNT.width - 1) (h.get R.SEC_LC_CNT + 1) ∧ t = { h with regs := t.regs, free := t.free, links := t.links, err := t.err, fab := t.fab, tun := t.tun }))
    ∧ (h.sec.openedAt ≠ some h.root → h.lifecycle = 1 → does (.lcBlank 0x4C43) h (fun t => t.get R.SEC_LC_REQ_RESULT = 1 ∧ t.lifecycle = 0 ∧ t.ors = [] ∧ t.sec.pkeys = [[], [], [], []] ∧ t.on R.SEC_STATUS_ORS_VALID = false ∧ t.get R.SEC_STATUS_PKEYS = 0 ∧ (∀ s ∈ List.range 32, KMap.get? t.sec.slots s = none ∧ t.on (R.SEC_SLOT_LOADED s) = false) ∧ t = { h with regs := t.regs, mem := t.mem, free := t.free, links := t.links, err := t.err, fab := t.fab, tun := t.tun, sec := t.sec }))
    ∧ (h.sec.openedAt ≠ some h.root → h.lifecycle = 2 → does (.lcReturn 0x4C43) h (fun t => t.get R.SEC_LC_REQ_RESULT = 1 ∧ t.lifecycle = 3 ∧ t.ors = [] ∧ t.sec.pkeys = [[], [], [], []] ∧ t.on R.SEC_STATUS_ORS_VALID = false ∧ t = { h with regs := t.regs, mem := t.mem, free := t.free, links := t.links, err := t.err, fab := t.fab, tun := t.tun, sec := t.sec }))
    ∧ (h.sec.openedAt ≠ some h.root → h.lifecycle < 4 → does (.lcScrap 0x4C43) h (fun t => t.get R.SEC_LC_REQ_RESULT = 1 ∧ t.lifecycle = 4 ∧ t.ors = [] ∧ t.sec.pkeys = [[], [], [], []] ∧ t.on R.SEC_STATUS_ORS_VALID = false ∧ t = { h with regs := t.regs, mem := t.mem, free := t.free, links := t.links, err := t.err, fab := t.fab, tun := t.tun, sec := t.sec }))
    ∧ (h.sec.openedAt ≠ some h.root → h.lifecycle = 4 → does (.lcBlank 0x4C43) h (fun t => t.get R.SEC_LC_REQ_RESULT = 2 ∧ onlyRegs h t [R.SEC_LC_REQ_RESULT.addr]) ∧ does (.lcReturn 0x4C43) h (fun t => t.get R.SEC_LC_REQ_RESULT = 2 ∧ onlyRegs h t [R.SEC_LC_REQ_RESULT.addr]))
    ∧ (∀ (k : BitVec 16), h.sec.openedAt = some h.root → does (.lcProvision k) h (fun t => t.get R.SEC_LC_REQ_RESULT = 5 ∧ t.get R.SEC_LC_REQ_TARGET = 1 ∧ onlyRegs h t [R.SEC_LC_REQ_RESULT.addr]) ∧ does (.lcDeploy k) h (fun t => t.get R.SEC_LC_REQ_RESULT = 5 ∧ t.get R.SEC_LC_REQ_TARGET = 2 ∧ onlyRegs h t [R.SEC_LC_REQ_RESULT.addr]) ∧ does (.lcBlank k) h (fun t => t.get R.SEC_LC_REQ_RESULT = 5 ∧ t.get R.SEC_LC_REQ_TARGET = 0 ∧ onlyRegs h t [R.SEC_LC_REQ_RESULT.addr]) ∧ does (.lcReturn k) h (fun t => t.get R.SEC_LC_REQ_RESULT = 5 ∧ t.get R.SEC_LC_REQ_TARGET = 3 ∧ onlyRegs h t [R.SEC_LC_REQ_RESULT.addr]) ∧ does (.lcScrap k) h (fun t => t.get R.SEC_LC_REQ_RESULT = 5 ∧ t.get R.SEC_LC_REQ_TARGET = 4 ∧ onlyRegs h t [R.SEC_LC_REQ_RESULT.addr]))
    ∧ (h.on R.SEC_STATUS_TRNG_FAIL = false → does .trngFail h (fun t => t.on R.SEC_STATUS_TRNG_FAIL = true ∧ t.get R.ERR_SEQ_NEWEST = (h.get R.ERR_SEQ_NEWEST + 1) % 65536 ∧ t.sec = { h.sec with seed := t.sec.seed } ∧ t = { h with regs := t.regs, free := t.free, err := t.err, sec := t.sec }))
    ∧ (h.on R.SEC_STATUS_TRNG_FAIL = true → becomes .trngFail h h)
    ∧ (becomes .trngRecover h (h.put R.SEC_STATUS_TRNG_FAIL 0))

/-- SEC operations (R445–R450) and slots (R440–R443). -/
def Obligations.SecOperations : Prop :=
  ∀ (h : Hub) (o : BitVec 4), h.awake = true → 
    (h.on R.SEC_OP_STATUS_BUSY = true → does .secTap h (fun t => t.on R.SEC_OP_STATUS_BUSY_REFUSED = true ∧ t.on R.SEC_OP_STATUS_BUSY = true ∧ t.sec = h.sec ∧ onlyRegs h t [R.SEC_OP_CTRL_OP.addr, R.SEC_OP_STATUS_BUSY.addr]))
    ∧ (h.on R.SEC_OP_STATUS_BUSY = false → (o = 0 ∨ 8 ≤ o.toNat) → does (.secOpReserved o) h (fun t => t.get R.SEC_OP_STATUS_CODE = 8 ∧ t.on R.SEC_OP_STATUS_DONE_FLAG = true ∧ t.on R.SEC_OP_STATUS_BUSY = false ∧ t.get R.SEC_OP_CTRL_OP = o.toNat ∧ t = { h with regs := t.regs, free := t.free, err := t.err, sec := t.sec }))
    ∧ (∀ (a : Nat), h.on R.SEC_OP_STATUS_BUSY = false → a = (h.rd A.SEC_OP_ADDR).toNat → (a % 64 ≠ 0 ∨ a < 0x300000 ∨ 0x380000 ≤ a) → does .secImport h (fun t => t.get R.SEC_OP_STATUS_CODE = 5 ∧ t.on R.SEC_OP_STATUS_DONE_FLAG = true ∧ t.on R.SEC_OP_STATUS_BUSY = false ∧ t = { h with regs := t.regs, free := t.free, err := t.err, sec := t.sec }))
    ∧ (∀ (n a : Nat) (g : Hub) (b : List Byte), h.on R.SEC_OP_STATUS_BUSY = false → a = (h.rd A.SEC_OP_ADDR).toNat → a % 64 = 0 → 0x300000 ≤ a → a < 0x380000 → h.keyWaits n = false → ((h.put R.SEC_OP_CTRL_OP n).put R.SEC_OP_STATUS_BUSY 1).dmaRead a (secBlockLen n) = (g, .ok b) → (n = 1 → becomes .secTap h (g.onSec (fun x => { x with op := some ⟨1, a, some b, []⟩ }))) ∧ (n = 2 → becomes .secImport h (g.onSec (fun x => { x with op := some ⟨2, a, some b, []⟩ }))) ∧ (n = 4 → becomes .secCert h (g.onSec (fun x => { x with op := some ⟨4, a, some b, []⟩ }))) ∧ (n = 5 → becomes .secPkeySet h (g.onSec (fun x => { x with op := some ⟨5, a, some b, []⟩ }))) ∧ (n = 6 → becomes .secPkeyClear h (g.onSec (fun x => { x with op := some ⟨6, a, some b, []⟩ }))) ∧ (n = 7 → becomes .secSlotClear h (g.onSec (fun x => { x with op := some ⟨7, a, some b, []⟩ }))))
    ∧ (∀ (a : Nat), h.on R.SEC_OP_STATUS_BUSY = false → a = (h.rd A.SEC_OP_ADDR).toNat → a % 64 = 0 → 0x300000 ≤ a → a < 0x380000 → (h.on R.TUNC_PITCH_STATUS_BUSY = true ∨ h.on R.JRN_STORE_STATUS_BUSY = true) → becomes .secPkeySet h (((h.put R.SEC_OP_CTRL_OP 5).put R.SEC_OP_STATUS_BUSY 1).onSec (fun x => { x with op := some ⟨5, a, none, []⟩ })) ∧ becomes .secPkeyClear h (((h.put R.SEC_OP_CTRL_OP 6).put R.SEC_OP_STATUS_BUSY 1).onSec (fun x => { x with op := some ⟨6, a, none, []⟩ })))
    ∧ (∀ (a : Nat) (g : Hub) (b : List Byte), h.on R.SEC_OP_STATUS_BUSY = false → a = (h.rd A.SEC_OP_ADDR).toNat → a % 64 = 0 → 0x300000 ≤ a → a < 0x380000 → ((h.put R.SEC_OP_CTRL_OP 3).put R.SEC_OP_STATUS_BUSY 1).dmaRead a 0x48 = (g, .ok b) → 8 ≤ kegWord b 0 → kegWord b 0 ≤ 64 → kegWord b 4 = 0 → becomes .secAttest h ((g.random 12).1.onSec (fun x => { x with op := some ⟨3, a, some b, coseSign1 Config.attestKey (leNat (g.random 12).2) ((g.random 12).1.attestMap ((b.drop 8).take (kegWord b 0)) 0)⟩ })))
    ∧ (∀ (a : Nat) (g : Hub) (b : List Byte), h.on R.SEC_OP_STATUS_BUSY = false → a = (h.rd A.SEC_OP_ADDR).toNat → a % 64 = 0 → 0x300000 ≤ a → a < 0x380000 → ((h.put R.SEC_OP_CTRL_OP 3).put R.SEC_OP_STATUS_BUSY 1).dmaRead a 0x48 = (g, .ok b) → (kegWord b 0 < 8 ∨ 64 < kegWord b 0) → becomes .secAttest h (g.secEnd 8 0))
    ∧ (h.sec.op = none → becomes .secOpComplete h h)
    ∧ (∀ (s : SecOp) (b : List Byte), h.sec.op = some s → s.op = 7 → s.block = some b → h.sealUses (kegWord b 0 % 32) = false → does .secOpComplete h (fun t => KMap.get? t.sec.slots (kegWord b 0 % 32) = none ∧ t.on (R.SEC_SLOT_LOADED (kegWord b 0 % 32)) = false ∧ t.sec.op = none ∧ t.get R.SEC_OP_STATUS_CODE = 0 ∧ t.on R.SEC_OP_STATUS_DONE_FLAG = true ∧ t.on R.SEC_OP_STATUS_BUSY = false ∧ t = { h with regs := t.regs, free := t.free, err := t.err, fab := t.fab, tun := t.tun, acc := t.acc, sec := t.sec, jrn := t.jrn }))
    ∧ (∀ (s : SecOp) (b : List Byte) (c : Nat), h.sec.op = some s → s.op = 1 → s.block = some b → h.sealUses (kegWord b 0x60 % 32) = false → h.tapCode none (b.take 96) (kegWord b 0x60 % 32) (kegWord b 0x64 % 8) (kegWord b 0x68 % 16384) = .error c → does .secOpComplete h (fun t => t.get R.SEC_TAP_REFUSED = min (2 ^ R.SEC_TAP_REFUSED.width - 1) (h.get R.SEC_TAP_REFUSED + 1) ∧ t.get R.SEC_OP_STATUS_CODE = c % 2 ^ R.SEC_OP_STATUS_CODE.width ∧ t.sec = { h.sec with op := none } ∧ t = { h with regs := t.regs, free := t.free, err := t.err, fab := t.fab, tun := t.tun, acc := t.acc, sec := t.sec, jrn := t.jrn }))
    ∧ (∀ (s : SecOp) (b : List Byte), h.sec.op = some s → s.op = 4 → s.block = some b → 1 < kegWord b 0 → becomes .secOpComplete h (h.secEnd 8 0))
    ∧ (∀ (s : Fin 32) (e tid id : Nat) (key : List Byte), key.length = 32 → e ≠ 2 → (KMap.get? (h.fillSlot s e tid id key).sec.slots s).map KeySlot.key = some key ∧ (h.fillSlot s e tid id key).on (R.SEC_SLOT_LOADED s) = true)
    ∧ (∀ (g : Hub), g.pw.dark = false → g.pw.rail = false → g.err.held = false → (∀ e ∈ g.sec.slots, e.2.masked.length = e.2.mask.length ∧ e.2.mask.length ≤ 32) → g.sec.ors.length = g.sec.orsMask.length → g.sec.ors.length ≤ 32 → does .keyTurn g (fun t => (∀ s ∈ List.range 32, (KMap.get? t.sec.slots s).map KeySlot.key = (KMap.get? g.sec.slots s).map KeySlot.key) ∧ t.ors = g.ors ∧ t.sec.turn = (g.sec.turn + 1) % 32 ∧ t = { g with free := t.free, sec := t.sec }))

/-- Service access (R451, R452) and JTAG (R508). -/
def Obligations.TestAccessPort : Prop :=
  ∀ (h : Hub), h.pw.dark = false → h.pw.rail = false → h.pw.steep = false → 
    (does .idcode h (fun t => t.jtag.ir = 2 ∧ t.jtag.drive = none ∧ t.jtag.hiz = false ∧ t.out = .tdo 0x003C4491 :: h.outFreed ∧ t = { h with out := t.out, sec := t.sec, jtag := t.jtag }) ∧ does .tapReset h (fun t => t.jtag.ir = 2 ∧ t.jtag.drive = none ∧ t.jtag.hiz = false ∧ t.sec.scan = false ∧ t.out = h.outFreed ∧ t = { h with out := t.out, sec := t.sec, jtag := t.jtag }))
    ∧ (does .clamp h (fun t => t.jtag.ir = 3 ∧ t.jtag.drive = some h.jtag.boundary ∧ t.jtag.boundary = h.jtag.boundary ∧ t.jtag.bypass = false ∧ t.out = .tdo 0 :: h.outFreed ∧ t = { h with out := t.out, sec := t.sec, jtag := t.jtag }) ∧ does .highz h (fun t => t.jtag.ir = 4 ∧ t.jtag.hiz = true ∧ t.jtag.drive = none ∧ t.jtag.bypass = false ∧ t.out = .tdo 0 :: h.outFreed ∧ t = { h with out := t.out, sec := t.sec, jtag := t.jtag }))
    ∧ (∀ (p d : List Bool), does (.extest p d) h (fun t => t.jtag.ir = 0 ∧ t.jtag.boundary = d ∧ t.jtag.drive = some d ∧ t.out = .tdo (p.foldr (fun b n => b2n b + 2 * n) 0) :: h.outFreed ∧ t = { h with out := t.out, sec := t.sec, jtag := t.jtag }) ∧ does (.samplePreload p d) h (fun t => t.jtag.ir = 1 ∧ t.jtag.boundary = d ∧ t.jtag.drive = none ∧ t.out = .tdo (p.foldr (fun b n => b2n b + 2 * n) 0) :: h.outFreed ∧ t = { h with out := t.out, sec := t.sec, jtag := t.jtag }))
    ∧ (∀ (c : Byte), irListed.contains c.toNat = false → does (.bypass c) h (fun t => t.jtag.ir = 0xFF ∧ t.jtag.drive = none ∧ t.jtag.hiz = false ∧ t.jtag.bypass = false ∧ t.out = .tdo 0 :: h.outFreed ∧ t = { h with out := t.out, sec := t.sec, jtag := t.jtag }))
    ∧ (h.lcOpen = true → does .scanTest h (fun t => t.jtag.ir = 0x83 ∧ t.sec.scan = true ∧ (∀ s ∈ List.range 32, KMap.get? t.sec.slots s = none) ∧ t.out = h.outFreed ∧ t = { h with regs := t.regs, out := t.out, sec := t.sec, jtag := t.jtag }))
    ∧ (h.lcOpen = false → does .scanTest h (fun t => t.jtag.ir = 0xFF ∧ t.sec = { h.sec with scan := false } ∧ t.out = .tdo 0 :: h.outFreed ∧ t = { h with out := t.out, sec := t.sec, jtag := t.jtag }))
    ∧ (∀ (w : Bool) (a : BitVec 25) (d : Word), h.on R.SEC_STATUS_SERVICE = false → does (.debugAccess w a d) h (fun t => t.jtag.ir = 0xFF ∧ t.regs = h.regs ∧ t.mem = h.mem ∧ t.out = .tdo 0 :: h.outFreed))
    ∧ (∀ (w : Bool) (a : BitVec 25) (d : Word) (g : Hub) (r : Nat), h.on R.SEC_STATUS_SERVICE = true → (h.irSelect 0x84).debugDo w a.toNat d = (g, some r) → does (.debugAccess w a d) h (fun t => t.jtag = { g.jtag with dr := debugWord w a.toNat r false } ∧ t.out = .tdo (debugWord w a.toNat r false) :: g.out ∧ t.mem = g.mem ∧ t.regs = g.regs))
    ∧ (∀ (a : Nat) (d : Word), 0x300000 ≤ a → a + 4 ≤ 0x380000 → a % 4 = 0 → h.access 5 .write a = (h, .ok) → ((∀ i : Fin 4, h.writeHeld (a + i) = false)) → h.debugDo true a d = (h.mstore a (wordBytes d), some d.toNat))
    ∧ (h.awake = true → h.on R.SEC_STATUS_SERVICE = false → does (.serviceOpen none false) h (fun t => t.on R.SEC_STATUS_SERVICE = true ∧ t.jtag.ir = 0x80 ∧ t.jtag.by_ = none ∧ t.ors = [] ∧ t.sec.pkeys = [[], [], [], []] ∧ t.on R.SEC_STATUS_ORS_VALID = false ∧ t.lifecycle = (if h.lifecycle = 1 then 0 else if h.lifecycle = 2 then 3 else h.lifecycle) ∧ t.get R.SEC_SVC_CNT = min (2 ^ R.SEC_SVC_CNT.width - 1) (h.get R.SEC_SVC_CNT + 1) ∧ t.out = h.outFreed ∧ t = { h with regs := t.regs, out := t.out, mem := t.mem, links := t.links, err := t.err, fab := t.fab, tun := t.tun, sec := t.sec, jtag := t.jtag }))
    ∧ (∀ (p : Port), h.awake = true → h.on R.SEC_STATUS_SERVICE = false → h.attach p = 3 → does (.serviceOpen (some p) false) h (fun t => t.on R.SEC_STATUS_SERVICE = true ∧ t.jtag.by_ = some p ∧ t.ors = [] ∧ t = { h with regs := t.regs, mem := t.mem, links := t.links, err := t.err, fab := t.fab, tun := t.tun, sec := t.sec, jtag := t.jtag }) ∧ does (.serviceOpen (some p) true) h (fun t => t.on R.SEC_STATUS_SERVICE = false ∧ t.jtag = JtagState.reset ∧ t.ors = [] ∧ t = { h with regs := t.regs, mem := t.mem, links := t.links, err := t.err, fab := t.fab, tun := t.tun, sec := t.sec, jtag := t.jtag }))
    ∧ (∀ (p : Port) (r : Bool), h.awake = true → h.attach p ≠ 3 → becomes (.serviceOpen (some p) r) h h)
    ∧ (h.awake = true → does .serviceClose h (fun t => t.on R.SEC_STATUS_SERVICE = false ∧ t.jtag.ir = 0x81 ∧ t.jtag.by_ = none ∧ t.mem = h.mem ∧ t.out = h.outFreed ∧ onlyRegs { h with out := t.out, jtag := t.jtag, sec := t.sec } t [R.SEC_STATUS_SERVICE.addr]))

/-- Cooper (R463–R470, R473). -/
def Obligations.CooperTests : Prop :=
  ∀ (h : Hub), h.awake = true → 
    (∀ (f : Option MemFail), h.on R.COOP_CTRL_SLICE_EN = false → becomes (.coopSlice f) h h ∧ becomes (.coopBufferSlice f) h h)
    ∧ (∀ (a : Nat), h.on R.COOP_CTRL_SLICE_EN = true → h.coop.slice < 288 → a = 0x100000 + 1024 * h.coop.slice → h.access 3 .read a = (h, .ok) → becomes (.coopSlice none) h (h.onCoop (fun c => { c with slice := h.coop.slice + 1 })))
    ∧ (∀ (a : Nat) (g : Hub), h.on R.COOP_CTRL_SLICE_EN = true → h.coop.slice < 288 → a = 0x100000 + 1024 * h.coop.slice → h.access 3 .read a = (g, .refused) → becomes (.coopSlice none) h ((g.bump R.COOP_NOT_RUN).onCoop (fun c => { c with slice := c.slice + 1 })))
    ∧ (∀ (a w k : Nat) (b : Fin 72), h.on R.COOP_CTRL_SLICE_EN = true → h.coop.slice < 288 → a = 0x100000 + 1024 * h.coop.slice → h.access 3 .read a = (h, .ok) → w < 128 → k = h.spareKey 1 (a + 8 * w) 0 → h.spareFor 1 k .row = .row → does (.coopSlice (some ⟨b, w, .row⟩)) h (fun t => t.coop = { h.coop with slice := h.coop.slice + 1, used := KMap.put h.coop.used k (((KMap.get? h.coop.used k).getD (0, 0)).1 + 1, ((KMap.get? h.coop.used k).getD (0, 0)).2) } ∧ t.get R.COOP_SPARES_ROWS = min (2 ^ R.COOP_SPARES_ROWS.width - 1) (h.get R.COOP_SPARES_ROWS + 1) ∧ t.rd A.COOP_FAIL_ADDR = W (a + 8 * w) ∧ t.get R.COOP_FAIL_INFO_BIT = b ∧ t.on R.COOP_FAIL_INFO_REPAIRED = true ∧ t.on R.COOP_FAIL_INFO_UNREPAIRABLE = false ∧ t.get R.COOP_FAIL_INFO_MEMORY = 1 ∧ t.get R.ERR_SEQ_NEWEST = (h.get R.ERR_SEQ_NEWEST + 1) % 65536 ∧ t = { h with regs := t.regs, links := t.links, err := t.err, fab := t.fab, tun := t.tun, coop := t.coop }))
    ∧ (∀ (a w : Nat) (b : Fin 72) (s : Spare), h.on R.COOP_CTRL_SLICE_EN = true → 864 ≤ h.coop.slice → h.coop.slice < 1376 → a = 0x300000 + 1024 * (h.coop.slice - 864) → h.access 3 .read a = (h, .ok) → h.access 3 .write a = (h, .ok) → w < 128 → h.spareFor 3 26 s = .none_ → does (.coopSlice (some ⟨b, w, s⟩)) h (fun t => t.coop.used = h.coop.used ∧ t.get R.COOP_SPARES_ROWS = h.get R.COOP_SPARES_ROWS ∧ t.get R.COOP_SPARES_COLUMNS = h.get R.COOP_SPARES_COLUMNS ∧ t.rd A.COOP_FAIL_ADDR = W (a + 8 * w) ∧ t.on R.COOP_FAIL_INFO_REPAIRED = false ∧ t.on R.COOP_FAIL_INFO_UNREPAIRABLE = true ∧ t.get R.COOP_FAIL_INFO_MEMORY = 3 ∧ t.tun.bad = (a + 8 * w) / 8 :: h.tun.bad ∧ t.get R.ERR_SEQ_NEWEST = (h.get R.ERR_SEQ_NEWEST + 1) % 65536 ∧ t = { h with regs := t.regs, links := t.links, err := t.err, fab := t.fab, tun := t.tun, coop := t.coop }))
    ∧ (∀ (m k : Nat) (s : Spare), m ≤ 4 → h.spareFor m k s = (if s = .none_ then .none_ else if ((KMap.get? h.coop.used k).getD (0, 0)).1 < (if m = 0 ∨ m = 3 then 8 else 2) ∧ (s = .row ∨ (if m = 0 ∨ m = 3 then 4 else 1) ≤ ((KMap.get? h.coop.used k).getD (0, 0)).2) then .row else if ((KMap.get? h.coop.used k).getD (0, 0)).2 < (if m = 0 ∨ m = 3 then 4 else 1) then .column else .none_))
    ∧ (∀ (cs : List Nat), h.on R.COOP_CTRL_SLICE_EN = true → 1024 ≤ h.cellsFree → cs = (List.range 16).map (fun i => h.coop.cells + i) → cs.all (fun c => (h.cellOwner c).isNone) = true → h.coop.cells + 16 < cellTotal → h.coop.cellsDone = [] → h.fab.retired = [] → becomes (.coopBufferSlice none) h { h.onCoop (fun c => { c with cells := h.coop.cells + 16, cellsDone := [] }) with fab := { h.fab with soft := h.fab.soft.filter (fun w => !inCells cs w) }, tun := { h.tun with bad := h.tun.bad.filter (fun w => !inCells cs w) } })
    ∧ (∀ (cs : List Nat), h.on R.COOP_CTRL_SLICE_EN = true → 1024 ≤ h.cellsFree → h.fab.retired = [] → h.coop.cellsDone = [] → cs = ((List.range 16).map (fun i => h.coop.cells + i)).filter (fun c => (h.cellOwner c).isNone) → cs.length < 16 → h.root < h.coop.cellsAt + 10 * second → becomes (.coopBufferSlice none) h { h.onCoop (fun c => { c with cellsDone := cs }) with fab := { h.fab with soft := h.fab.soft.filter (fun w => !inCells cs w) }, tun := { h.tun with bad := h.tun.bad.filter (fun w => !inCells cs w) } })
    ∧ (h.on R.COOP_CTRL_SLICE_EN = true → h.cellsFree < 1024 → h.fab.retired = [] → h.coop.cellsDone.length < 16 → h.root < h.coop.cellsAt + 10 * second → becomes (.coopBufferSlice none) h h)
    ∧ (∀ (cs : List Nat), h.on R.COOP_CTRL_SLICE_EN = true → 1024 ≤ h.cellsFree → h.fab.retired = [] → h.coop.cellsDone = [] → cs = ((List.range 16).map (fun i => h.coop.cells + i)).filter (fun c => (h.cellOwner c).isNone) → cs.length < 16 → h.coop.cellsAt + 10 * second ≤ h.root → h.coop.cells + 16 < cellTotal → becomes (.coopBufferSlice none) h { (h.bump R.COOP_MISSED).onCoop (fun c => { c with cells := h.coop.cells + 16, cellsDone := [] }) with fab := { h.fab with soft := h.fab.soft.filter (fun w => !inCells cs w) }, tun := { h.tun with bad := h.tun.bad.filter (fun w => !inCells cs w) } })
    ∧ (∀ (p : Port) (l : Fin 5) (k : LaneCheck), (h.on R.COOP_CTRL_LANE_EN = false ∨ h.up p = false ∨ h.on (R.LNK_CTRL_CAL_EN p.ix) = false) → becomes (.coopLaneCheck p l k) h h)
    ∧ (∀ (p : Port) (l : Fin 5) (k : LaneCheck), h.on R.COOP_CTRL_LANE_EN = true → h.up p = true → h.on (R.LNK_CTRL_CAL_EN p.ix) = true → h.laneRx p l ≠ 3 → h.laneTx p l ≠ 3 → ((h.links.at p).rx ≠ .full ∨ (h.links.at p).tx ≠ .full) → becomes (.coopLaneCheck p l k) h h)
    ∧ (∀ (p : Port) (l : Fin 5) (k : LaneCheck), h.on R.COOP_CTRL_LANE_EN = true → h.up p = true → h.on (R.LNK_CTRL_CAL_EN p.ix) = true → h.laneRx p l = 3 → k ≠ .failed → becomes (.coopLaneCheck p l k) h (h.emit (.cal p l)))
    ∧ (∀ (p : Port) (l : Fin 5) (k : LaneCheck), h.on R.COOP_CTRL_LANE_EN = true → h.up p = true → h.on (R.LNK_CTRL_CAL_EN p.ix) = true → h.laneRx p l ≠ 3 → h.laneTx p l ≠ 3 → (h.links.at p).rx = .full → (h.links.at p).tx = .full → (k = .refused ∨ h.mayWithdraw p = false) → does (.coopLaneCheck p l k) h (fun t => t.get R.COOP_MISSED = min (2 ^ R.COOP_MISSED.width - 1) (h.get R.COOP_MISSED + 1) ∧ t.rd A.COOP_LANE = h.rd A.COOP_LANE ∧ (t.links.at p).withdrawn = (h.links.at p).withdrawn ∧ t.out = (h.workSet p osWDR l 0 0 0).out ∧ t = { h with regs := t.regs, out := t.out, links := t.links }))
    ∧ (∀ (p : Port) (l : Fin 5), h.carries p = true → h.on R.COOP_CTRL_LANE_EN = true → h.up p = true → h.on (R.LNK_CTRL_CAL_EN p.ix) = true → h.laneRx p l ≠ 3 → h.laneTx p l ≠ 3 → h.mayWithdraw p = true → does (.coopLaneCheck p l .passed) h (fun t => t.rd A.COOP_LANE = W (p.ix + 4 * l + 32) ∧ t.laneRx p l = 2 ∧ t.laneTx p l = 2 ∧ (t.links.at p).withdrawn = none ∧ (t.links.at p).txNext = some (h.links.at p).ceiling ∧ t.get (R.LNK_WITHDRAW_RESULT p.ix) = 0 ∧ t.get R.COOP_MISSED = h.get R.COOP_MISSED ∧ t = { h with regs := t.regs, out := t.out, links := t.links }) ∧ does (.coopLaneCheck p l .givenBack) h (fun t => t.rd A.COOP_LANE = W (p.ix + 4 * l + 64) ∧ t.laneRx p l = 0 ∧ t.laneTx p l = 0 ∧ (t.links.at p).withdrawn = none ∧ t.get (R.LNK_WITHDRAW_RESULT p.ix) = 3 ∧ t.get R.ERR_SEQ_NEWEST = (h.get R.ERR_SEQ_NEWEST + 1) % 65536 ∧ t = { h with regs := t.regs, out := t.out, links := t.links, err := t.err }) ∧ does (.coopLaneCheck p l .failed) h (fun t => t.rd A.COOP_LANE = W (p.ix + 4 * l) ∧ t.laneRx p l = 1 ∧ (t.links.at p).withdrawn = none ∧ t.get R.ERR_SEQ_NEWEST = (h.get R.ERR_SEQ_NEWEST + 1) % 65536 ∧ t = { h with regs := t.regs, out := t.out, links := t.links, err := t.err }))
    ∧ (∀ (a b c : BitVec 16), h.on R.COOP_CTRL_ADC_EN = true → refsAgree a.toNat b.toNat = true → refsAgree a.toNat c.toNat = true → becomes (.coopReferenceCheck a b c) h (h.onCoop (fun x => { x with noRefs := false, held := false })))
    ∧ (∀ (a b c : BitVec 16), h.on R.COOP_CTRL_ADC_EN = true → h.coop.dropped = [] → refsAgree a.toNat b.toNat = true → refsAgree a.toNat c.toNat = false → refsAgree b.toNat c.toNat = false → does (.coopReferenceCheck a b c) h (fun t => t.coop = { h.coop with noRefs := false, held := false, dropped := [2] } ∧ t.get R.ERR_SEQ_NEWEST = (h.get R.ERR_SEQ_NEWEST + 1) % 65536 ∧ t = { h with regs := t.regs, err := t.err, coop := t.coop }))
    ∧ (∀ (a b c : BitVec 16), h.on R.COOP_CTRL_ADC_EN = true → h.coop.dropped = [2] → refsAgree a.toNat b.toNat = true → refsAgree a.toNat c.toNat = false → refsAgree b.toNat c.toNat = false → becomes (.coopReferenceCheck a b c) h (h.onCoop (fun x => { x with noRefs := false, held := false })))
    ∧ (∀ (a b c : BitVec 16), h.on R.COOP_CTRL_ADC_EN = true → refsAgree a.toNat b.toNat = false → refsAgree a.toNat c.toNat = false → refsAgree b.toNat c.toNat = false → does (.coopReferenceCheck a b c) h (fun t => t.coop = { h.coop with noRefs := true } ∧ t.get R.ERR_SEQ_NEWEST = (h.get R.ERR_SEQ_NEWEST + 1) % 65536 ∧ t = { h with regs := t.regs, err := t.err, coop := t.coop }))
    ∧ (h.coop.noRefs = true → does .telemetryHoldExpire h (fun t => t.coop = { h.coop with held := true } ∧ (∀ f ∈ List.range 5, t.get (R.LOAD_TM_TEMP_TEMP f) = 8 * h.get (R.LOAD_TM_LIM_TJ_MAX f)) ∧ t = { h with regs := t.regs, coop := t.coop }))
    ∧ (h.coop.noRefs = false → becomes .telemetryHoldExpire h h)
    ∧ (∀ (w : Nat), w = scrubAddr h.coop.scrub / 8 → h.fab.soft.contains w = false → becomes (.scrubStep .clean) h (h.onCoop (fun c => { c with scrub := (h.coop.scrub + 1) % scrubTotal })))
    ∧ (∀ (w : Nat), w = scrubAddr h.coop.scrub / 8 → h.fab.soft = [w] → does (.scrubStep .clean) h (fun t => t.coop.scrub = (h.coop.scrub + 1) % scrubTotal ∧ t.fab.soft = [] ∧ t.get R.ERR_SEQ_NEWEST = (h.get R.ERR_SEQ_NEWEST + 1) % 65536 ∧ t = { h with regs := t.regs, links := t.links, err := t.err, fab := t.fab, coop := t.coop }))
    ∧ (h.coop.scrub < 36864 → (h.tun.bad.contains ((0x100000 + 8 * h.coop.scrub) / 8)) = false → becomes (.scrubStep .double) h { h.onCoop (fun c => { c with scrub := h.coop.scrub + 1 }) with tun := { h.tun with bad := (0x100000 + 8 * h.coop.scrub) / 8 :: h.tun.bad }, fab := { h.fab with soft := h.fab.soft.filter (· != (0x100000 + 8 * h.coop.scrub) / 8) } } ∧ does (.scrubStep .single) h (fun t => t.coop.scrub = h.coop.scrub + 1 ∧ t.get R.ERR_SEQ_NEWEST = (h.get R.ERR_SEQ_NEWEST + 1) % 65536 ∧ t = { h with regs := t.regs, links := t.links, err := t.err, fab := t.fab, coop := t.coop }))

/-- The counter clears of every block: the counters named read 0, the rest is unchanged. -/
def Obligations.CountersCleared : Prop :=
  ∀ (h : Hub), h.awake = true → 
    (∀ (p : Port), does (.ccCounterClear p) h (fun t => zeroed h t [(A.CC_ATTACHES p.ix, A.CC_UNSUPPORTED p.ix)]) ∧ does (.lnkeClearLaneCounters p) h (fun t => zeroed h t [(A.LNK_ERASED p.ix 0, A.LNK_DISCARD p.ix)]) ∧ does (.lnkeClearPacketCounters p) h (fun t => zeroed h t [(A.LNK_CRC_ERR p.ix, A.LNK_CREDIT_ERR p.ix)]))
    ∧ (does .lnkeClearWindowCounters h (fun t => zeroed { h with rt := t.rt } t [(A.LNK_WIN_DUP_P_LO 0, A.LNK_WIN_RESYNC 0)] ∧ t.rt = { h.rt with dupP := 0 }))
    ∧ (does .clkCounterClear h (fun t => zeroed { h with tm := t.tm } t [(A.CLK_SWITCH_CNT, A.CLK_HOLDOVER_TIME)] ∧ t.tm = { h.tm with holdAt := h.root }))
    ∧ (does .timeClearMarkerCounters h (fun t => zeroed h t [(A.TIME_MARK_MISS, A.TIME_CAL_CNT)]))
    ∧ (does .timeClearEventCounters h (fun t => zeroed h t ((A.TIME_EVI_LOST, A.TIME_EVI_GLITCH) :: (List.range 8).map (fun n => (A.TIME_EVO_SKIP n, A.TIME_EVO_SKIP n)))))
    ∧ (becomes .fabCounterClear h (h.onFab (fun f => { f with cnt := [] })))
    ∧ (does .polCounterClear h (fun t => (∀ n : Fin 96, t.pol n = { h.pol n with pass := 0, drop := 0 }) ∧ t = { h with fab := t.fab }))
    ∧ (∀ (d : Fin 2), does (.dspCounterClear d) h (fun t => zeroed h t [(A.DSP_UNDER_BASE d, A.DSP_FB_CNT d)]))
    ∧ (∀ (x : Fin 4), does (.ethCounterClear x) h (fun t => zeroed h t [(A.ETH_RX_FRAMES x, A.ETH_LINK_DOWN_CNT x)]))
    ∧ (does .ptpCounterClear h (fun t => zeroed h t ((List.range 4).map (fun x => (A.PTP_SYNC_TX x, A.PTP_FOREIGN x)))) ∧ does .serCounterClear h (fun t => zeroed h t ((List.range 8).map (fun c => (A.SER_RX_ERR c, A.SER_TX_DISCARD c)))) ∧ does .usbCounterClear h (fun t => zeroed h t ((List.range 4).map (fun p => (A.USBH_SPLITS p, A.USBH_HALTS p)))))
    ∧ (does .emmcCounterClear h (fun t => zeroed h t [(A.EMMC_CRC_ERR, A.EMMC_TO_CNT)]) ∧ does .jrnCounterClear h (fun t => zeroed h t [(A.JRN_LOST, A.JRN_MOVES)]) ∧ does .brgCounterClear h (fun t => zeroed h t [(A.BRG_BAD_REQ, A.BRG_LATE_CPL)]) ∧ does .accCounterClear h (fun t => zeroed h t [(A.ACC_DENY_CNT, A.ACC_DENY_CNT)]))
    ∧ (does .loadCounterClear h (fun t => zeroed h t [(A.LOAD_TRIPS, A.LOAD_RCB)]) ∧ does .errCounterClear h (fun t => zeroed h t [(A.ERR_OVERFLOW, A.ERR_COUNT_F), (A.ERR_EVT_LOST, A.ERR_EVT_LOST)]) ∧ does .coopCounterClear h (fun t => zeroed h t [(A.COOP_MISSED, A.COOP_NOT_RUN)]) ∧ does .pwrsCounterClear h (fun t => zeroed h t [(A.PWRS_REFUSED, A.PWRS_STEEP_CNT)]))
    ∧ (does .schCounterClear h (fun t => t.get R.SCH_OVERSUB = 0 ∧ t.get R.SCH_STATUS_SWAP_CNT = 0 ∧ t.get R.SCH_STATUS_ACTIVE_BANK = h.get R.SCH_STATUS_ACTIVE_BANK ∧ onlyRegs h t [R.SCH_OVERSUB.addr, R.SCH_STATUS_SWAP_CNT.addr]) ∧ does .secCounterClear h (fun t => zeroed h t [(A.SEC_TAP_REFUSED, A.SEC_TAP_REFUSED)]))

/-- Steep and wake (R480, R486–R490) and the capture request (R484). -/
def Obligations.SleepAndWake : Prop :=
  ∀ (h : Hub), h.pw.dark = false → h.pw.rail = false → h.err.held = false → 
    (∀ (c : Fin 6) (k : BitVec 16), h.pw.steep = false → does (.devHubReset c k) h (fun t => t.pw.reset = (h.pw.reset || (c == 0 && k == 0x5253)) ∧ t = { h with pw := t.pw }))
    ∧ (h.pw.steep = false → (h.on R.DEV_IMAGE_CTRL_BUSY = true ∨ (h.rd A.DEV_IMAGE_ADDR).toNat % 64 ≠ 0 ∨ (h.rd A.DEV_IMAGE_ADDR).toNat < 0x300000 ∨ 0x380000 < (h.rd A.DEV_IMAGE_ADDR).toNat + 229376) → becomes .imageCapture h (h.put R.DEV_IMAGE_CTRL_RESULT 2))
    ∧ (∀ (a : Nat), h.pw.steep = false → a = (h.rd A.DEV_IMAGE_ADDR).toNat → h.on R.DEV_IMAGE_CTRL_BUSY = false → a % 64 = 0 → 0x300000 ≤ a → a + 229376 ≤ 0x380000 → does .imageCapture h (fun t => t.on R.DEV_IMAGE_CTRL_BUSY = true ∧ t.get R.DEV_IMAGE_CTRL_RESULT = 0 ∧ t.pw = { h.pw with capture := some a } ∧ onlyRegs { h with pw := t.pw } t [A.DEV_IMAGE_CTRL]))
    ∧ (∀ (c : Fin 6), h.pw.steep = false → (c ≠ 0 ∨ h.pw.reset = true ∨ h.get R.PWRS_STATUS_STATE = 1) → becomes (.steepRequest c) h h)
    ∧ (∀ (n : Nat), h.pw.steep = false → h.pw.reset = false → h.get R.PWRS_STATUS_STATE ≠ 1 → h.refuser = some n → does (.steepRequest 0) h (fun t => t.get R.PWRS_REFUSED = min (2 ^ R.PWRS_REFUSED.width - 1) (h.get R.PWRS_REFUSED + 1) ∧ t.get R.PWRS_STATUS_LAST_REFUSER = n ∧ t.get R.PWRS_STATUS_STATE = h.get R.PWRS_STATUS_STATE ∧ (∀ k ∈ List.range n, h.refuses k = false) ∧ t = { h with regs := t.regs }))
    ∧ (h.pw.steep = false → h.pw.reset = false → h.get R.PWRS_STATUS_STATE ≠ 1 → h.refuser = none → does (.steepRequest 0) h (fun t => t.get R.PWRS_STATUS_STATE = 1 ∧ t.pw = { h.pw with stp := false, wake := none } ∧ t.get R.PWRS_REFUSED = h.get R.PWRS_REFUSED ∧ t = { h with regs := t.regs, pw := t.pw }))
    ∧ (∀ (p : Option Port), h.pw.steep = false → h.get R.PWRS_STATUS_STATE ≠ 1 → becomes (.steepEntry p) h h)
    ∧ (∀ (p : Port), h.pw.steep = false → h.get R.PWRS_STATUS_STATE = 1 → h.up p = true → h.silent = false → does (.steepEntry (some p)) h (fun t => t.up p = false ∧ t.lstate p = stDisabled ∧ (t.links.at p).slept = true ∧ (t.links.at p).storedGear = h.gear p ∧ t.pw = { h.pw with stp := true } ∧ .oset p (h.mkSet p osSTP (h.get (R.LNK_CTRL_MAX_GEAR p.ix)) (h.gear p) 0 0 0) ∈ t.out ∧ t = { h with regs := t.regs, out := t.out, links := t.links, err := t.err, tm := t.tm, tun := t.tun, eth := t.eth, pw := t.pw }))
    ∧ (h.pw.steep = false → h.get R.PWRS_STATUS_STATE = 1 → Port.all.any h.up = false → h.pw.wake = none → does (.steepEntry none) h (fun t => t.pw = { h.pw with steep := true, stp := false } ∧ t.get R.PWRS_STATUS_STATE = 0 ∧ t.get R.PWRS_STEEP_CNT = min (2 ^ R.PWRS_STEEP_CNT.width - 1) (h.get R.PWRS_STEEP_CNT + 1) ∧ t.on R.PWRS_STATUS_ABORTED_LAST = false ∧ t = { h with regs := t.regs, out := t.out, links := t.links, err := t.err, tm := t.tm, tun := t.tun, eth := t.eth, pw := t.pw }))
    ∧ (∀ (n : Nat), h.pw.steep = false → h.get R.PWRS_STATUS_STATE = 1 → Port.all.any h.up = false → h.pw.wake = some n → does (.steepEntry none) h (fun t => t.pw = { h.pw with steep := false, stp := false, wake := none, slept := [] } ∧ t.get R.PWRS_STATUS_STATE = 0 ∧ t.get R.PWRS_STEEP_CNT = min (2 ^ R.PWRS_STEEP_CNT.width - 1) (h.get R.PWRS_STEEP_CNT + 1) ∧ t = { h with regs := t.regs, out := t.out, links := t.links, err := t.err, tm := t.tm, tun := t.tun, eth := t.eth, coop := t.coop, pw := t.pw }))
    ∧ (∀ (a : BitVec 4) (c t l : BitVec 3), (h.put R.PINS_WAKE_LEVEL_LEVEL (h.activePins a.toNat)).wakeCode (h.activePins a.toNat + c.toNat * 16 + t.toNat * 128) = none → becomes (.wakeEvent a c t l) h (h.put R.PINS_WAKE_LEVEL_LEVEL (h.activePins a.toNat)))
    ∧ (∀ (a : BitVec 4) (i : Fin 4), (h.activePins a.toNat).testBit i = (a.getLsbD i == (h.get R.PINS_WAKE_CTRL_PIN_POL).testBit i))
    ∧ (∀ (a : BitVec 4) (c t l : BitVec 3) (n : Nat), (h.put R.PINS_WAKE_LEVEL_LEVEL (h.activePins a.toNat)).wakeCode (h.activePins a.toNat + c.toNat * 16 + t.toNat * 128) = some n → h.pw.steep = true → does (.wakeEvent a c t l) h (fun g => g.pw = { h.pw with steep := false, stp := false, wake := none, slept := [] } ∧ g.get R.PWRS_STATUS_LAST_WAKE = n ∧ g.rd A.PWRS_WAKE_LO = W h.now ∧ g.rd A.PWRS_WAKE_HI = W (h.now / 2 ^ 32) ∧ g = { h with regs := g.regs, out := g.out, links := g.links, err := g.err, tm := g.tm, tun := g.tun, eth := g.eth, coop := g.coop, pw := g.pw }))
    ∧ (∀ (a : BitVec 4) (c t l : BitVec 3) (n : Nat), (h.put R.PINS_WAKE_LEVEL_LEVEL (h.activePins a.toNat)).wakeCode (h.activePins a.toNat + c.toNat * 16 + t.toNat * 128) = some n → h.pw.steep = false → h.get R.PWRS_STATUS_STATE = 1 → h.pw.wake = none → h.pw.stp = false → does (.wakeEvent a c t l) h (fun g => g.get R.PWRS_STATUS_STATE = 0 ∧ g.get R.PWRS_ABORTED = min (2 ^ R.PWRS_ABORTED.width - 1) (h.get R.PWRS_ABORTED + 1) ∧ g.on R.PWRS_STATUS_ABORTED_LAST = true ∧ g.get R.PWRS_STATUS_LAST_WAKE = n ∧ g = { h with regs := g.regs, out := g.out, links := g.links, err := g.err, tm := g.tm, tun := g.tun, eth := g.eth, coop := g.coop }))
    ∧ (∀ (m : BitVec 3), h.silent = false → h.pw.steep = false → does (.wakeToneSend m) h (fun t => t.out = ((Port.all.filter (fun p => m.toNat.testBit p.ix && h.lstate p == stPartnerSteep)).map Tx.tone).reverse ++ h.out ∧ t = { h with out := t.out }))
    ∧ (∀ (m : BitVec 3), h.silent = true → becomes (.wakeToneSend m) h h)

/-- Start-up and resets (R459, R474–R480) and the end of a capture (R484). -/
def Obligations.PowerAndResets : Prop :=
  ∀ (h : Hub), 
    (∀ (f : SelfTest) (ms : BitVec 16), h.pw.dark = true → f.mems.all (fun m => m.mem != 4) = true → does (.powerUp f ms) h (fun t => t.on R.DEV_STATUS_RELEASED = true ∧ t.get R.DEV_STATUS_RESET_CAUSE = 0 ∧ (t.rd A.DEV_RELEASE_TIME).toNat % 65536 = ms.toNat ∧ t.acc.hashDue = true))
    ∧ (∀ (f : SelfTest) (m : MemFinding) (ms : BitVec 16), h.pw.dark = true → m ∈ f.mems → m.mem = 4 → m.fail.spare = .none_ → does (.powerUp f ms) h (fun t => t.err.held = true ∧ t.err.fatalPending = false))
    ∧ (∀ (f : SelfTest) (ms : BitVec 16), h.pw.dark = false → (h.on R.DEV_STATUS_RELEASED = true ∨ h.err.held = true) → becomes (.powerUp f ms) h h)
    ∧ (h.pw.dark = false → h.commitDue = false → does (.powerLoss .none_) h (fun t => t.pw = { h.pw with dark := true, rail := false, steep := false } ∧ (∀ p ∈ Port.all, (t.cc.at p).rp = false ∧ (t.cc.at p).path = false ∧ (t.cc.at p).vout = 0) ∧ t.out.take 8 = [.balls resetBalls, .lvdsRest 1 true false, .lvdsRest 1 false false, .lvdsRest 0 true false, .lvdsRest 0 false false, .idle .S, .idle .W, .idle .E] ∧ t = { h with pw := t.pw, out := t.out, cc := t.cc }))
    ∧ (∀ (cut : CommitCut), h.pw.dark = false → h.commitDue = true → becomes (.powerLoss cut) h ((Port.all.foldl Hub.ccUnpowered (h.commitLost cut)).ballsAtRest.onPw (fun p => { p with dark := true, rail := false, steep := false })))
    ∧ (h.pw.dark = false → becomes (.railOutOfTolerance none) h { h with pw := { h.pw with rail := true, steep := false }, out := [.balls resetBalls, .lvdsRest 1 true false, .lvdsRest 1 false false, .lvdsRest 0 true false, .lvdsRest 0 false false, .idle .S, .idle .W, .idle .E] ++ h.out })
    ∧ (∀ (c : CommitCut) (r : Option (SelfTest × BitVec 16)), h.pw.dark = true → becomes (.powerLoss c) h h ∧ becomes (.railOutOfTolerance r) h h)
    ∧ (∀ (f : SelfTest) (ms : BitVec 16), h.pw.dark = false → h.pw.rail = true → f.mems.all (fun m => m.mem != 4) = true → does (.railOutOfTolerance (some (f, ms))) h (fun t => t.on R.DEV_STATUS_RELEASED = true ∧ t.get R.DEV_STATUS_RESET_CAUSE = 0 ∧ (t.rd A.DEV_RELEASE_TIME).toNat % 65536 = ms.toNat))
    ∧ (∀ (ms : BitVec 16), h.awake = true → h.err.fatalPending = false → becomes (.fatalReset ms) h h)
    ∧ (∀ (ms : BitVec 16), h.awake = true → h.err.fatalPending = true → (h.err.fatalAt.filter (fun t => decide (h.root < t + 600 * second))).length < 3 → does (.fatalReset ms) h (fun t => t.on R.DEV_STATUS_RELEASED = true ∧ t.get R.DEV_STATUS_RESET_CAUSE = 1 ∧ (t.rd A.DEV_RELEASE_TIME).toNat % 65536 = ms.toNat))
    ∧ (∀ (ms : BitVec 16), h.awake = true → h.err.fatalPending = true → 3 ≤ (h.err.fatalAt.filter (fun t => decide (h.root < t + 600 * second))).length → does (.fatalReset ms) h (fun t => t.err.held = true ∧ t.err.fatalPending = false ∧ t.awake = false ∧ t.get (word A.ERR_FATAL_RESETS) = min (2 ^ 32 - 1) (h.takeoverComplete.get (word A.ERR_FATAL_RESETS) + 1)))
    ∧ (∀ (ms : BitVec 16), h.pw.dark = false → h.pw.rail = false → h.pw.steep = false → does (.jtagHubReset ms) h (fun t => t.on R.DEV_STATUS_RELEASED = true ∧ t.get R.DEV_STATUS_RESET_CAUSE = 2 ∧ (t.rd A.DEV_RELEASE_TIME).toNat % 65536 = ms.toNat))
    ∧ (∀ (ms : BitVec 16), h.awake = true → h.pw.reset = true → does (.hubResetTakesEffect ms) h (fun t => t.on R.DEV_STATUS_RELEASED = true ∧ t.get R.DEV_STATUS_RESET_CAUSE = 3 ∧ (t.rd A.DEV_RELEASE_TIME).toNat % 65536 = ms.toNat ∧ t.acc.hashDue = true))
    ∧ (∀ (ms : BitVec 16), h.awake = true → h.pw.reset = false → becomes (.hubResetTakesEffect ms) h h)
    ∧ (∀ (a : Nat), h.awake = true → h.pw.capture = some a → does .imageCaptureDone h (fun t => t.on R.DEV_IMAGE_CTRL_BUSY = false ∧ t.get R.DEV_IMAGE_CTRL_RESULT = 1 ∧ t.rd A.DEV_IMAGE_LEN = W ((h.onPw (fun p => { p with capture := none })).captureImage).length ∧ t.pw = { h.pw with capture := none } ∧ t = { h with regs := t.regs, mem := t.mem, fab := t.fab, acc := t.acc, pw := t.pw }))
    ∧ (h.awake = true → h.pw.capture = none → becomes .imageCaptureDone h h)

/-- Enumeration (R476, R477), register writes (R10, R12) and latched pairs (R511). -/
def Obligations.EnumerationAndRegisters : Prop :=
  ∀ (h : Hub), h.awake = true → 
    (∀ (p : Port), (h.links.at p).ownOf 7 = none → becomes (.enumAssign p) h h)
    ∧ (∀ (p : Port) (x : PortPkt) (w : Nat), (h.links.at p).ownOf 7 = some x → w = (x.pkt.payload.headD 0#32).toNat → h.addr = 127 → 1 ≤ w % 128 → w % 128 ≤ 64 → h.lstate p ≠ stMiswired → h.on (R.LNK_STATUS_OPEN_END p.ix) = false → becomes (.enumAssign p) h (((((h.takeOwn p x).put R.DEV_STATUS_ADDR (w % 128)).put R.DEV_STATUS_ENUM_PORT p.code).put R.DEV_STATUS_SPUR (b2n (bit w 7))).refreshQuality.enumReport p (w % 128) 0))
    ∧ (∀ (p : Port) (x : PortPkt) (w : Nat), (h.links.at p).ownOf 7 = some x → w = (x.pkt.payload.headD 0#32).toNat → h.hasAddr = true → 1 ≤ w % 128 → w % 128 ≤ 64 → h.addr ≠ w % 128 → h.lstate p ≠ stMiswired → h.on (R.LNK_STATUS_OPEN_END p.ix) = false → becomes (.enumAssign p) h ((h.takeOwn p x).enumReport p (w % 128) 2))
    ∧ (∀ (p : Port) (x : PortPkt) (w : Nat), (h.links.at p).ownOf 7 = some x → w = (x.pkt.payload.headD 0#32).toNat → h.hasAddr = true → 1 ≤ w % 128 → w % 128 ≤ 64 → h.addr = w % 128 → h.lstate p ≠ stMiswired → h.on (R.LNK_STATUS_OPEN_END p.ix) = false → becomes (.enumAssign p) h (((((h.takeOwn p x).put R.DEV_STATUS_ADDR (w % 128)).put R.DEV_STATUS_ENUM_PORT p.code).put R.DEV_STATUS_SPUR (b2n (bit w 7))).refreshQuality.enumReport p (w % 128) 1))
    ∧ (∀ (p : Port) (x : PortPkt) (w : Nat), (h.links.at p).ownOf 7 = some x → w = (x.pkt.payload.headD 0#32).toNat → (w % 128 = 0 ∨ 64 < w % 128) → does (.enumAssign p) h (fun t => t.get (R.LNK_HDR_ERR p.ix) = min (2 ^ (R.LNK_HDR_ERR p.ix).width - 1) (h.get (R.LNK_HDR_ERR p.ix) + 1) ∧ t.addr = h.addr ∧ (t.links.at p).ctl = (h.links.at p).ctl.erase x ∧ t = { h with regs := t.regs, free := t.free, links := t.links, rt := t.rt, err := t.err, fab := t.fab }))
    ∧ (∀ (d : Delivered) (p : Port) (w : Nat) (k : Packet), h.hasAddr = true → h.inbox3 (fun p => p.kind == 7 && p.aux % 16 == 2) = some d → w = (d.pkt.payload.headD 0#32).toNat → Port.ofCode (w % 4) = some p → h.up p = true → k = h.portPacket 7 1 [W (slice w 8 7 + slice w 15 1 * 2 ^ 7)] → h.portMay p k = true → becomes .enumRelay h ((h.take3 d).portSend p k))
    ∧ (∀ (d : Delivered) (p : Port) (w : Nat) (k : Packet), h.inbox3 (fun p => p.kind == 7 && p.aux % 16 == 2) = some d → w = (d.pkt.payload.headD 0#32).toNat → Port.ofCode (w % 4) = some p → h.up p = true → h.hasAddr = true → k = h.portPacket 7 1 [W (slice w 8 7 + slice w 15 1 * 2 ^ 7)] → h.portMay p k = false → becomes .enumRelay h h)
    ∧ (∀ (d : Delivered) (p : Port) (w : Nat), h.inbox3 (fun p => p.kind == 7 && p.aux % 16 == 2) = some d → w = (d.pkt.payload.headD 0#32).toNat → Port.ofCode (w % 4) = some p → (h.up p = false ∨ h.hasAddr = false) → becomes .enumRelay h ((h.take3 d).countNoRoute p d.pkt.dest))
    ∧ (∀ (d : Delivered) (w : Nat), h.inbox3 (fun p => p.kind == 7 && p.aux % 16 == 2) = some d → w = (d.pkt.payload.headD 0#32).toNat → Port.ofCode (w % 4) = none → becomes .enumRelay h (h.take3 d))
    ∧ (h.inbox3 (fun p => p.kind == 7 && p.aux % 16 == 2) = none → becomes .enumRelay h h)
    ∧ (∀ (c : Fin 6) (k : AccKind) (a : Nat), a < 0x80000 → h.on R.ACC_CTRL_EN = true → h.entriesAt a = [] → h.decide_ c k a = (if userClass c then .refused (denyInfo c k true false false 0) else .ok false false))
    ∧ (∀ (c : Fin 6) (k : AccKind) (a : Nat) (e : AccEntry), a < 0x80000 → h.on R.ACC_CTRL_EN = true → h.entriesAt a = [e] → e.privOnly = false → e.allows c k = true → h.decide_ c k a = .ok false false)
    ∧ (∀ (c : Fin 6) (k : AccKind) (a : Nat) (e : AccEntry), a < 0x80000 → h.on R.ACC_CTRL_EN = true → h.entriesAt a = [e] → c.val ≠ 5 → (e.privOnly = true ∧ userClass c = true ∨ e.allows c k = false) → h.decide_ c k a = .refused (denyInfo c k false (userClass c && e.privOnly) e.locked e.idx))
    ∧ (∀ (c : Fin 6) (k : AccKind) (a : Nat), a < 0x80000 → h.on R.ACC_CTRL_EN = false → c.val ≠ 5 → (¬ (c.val = 0 ∧ a / 0x4000 = 4)) → h.decide_ c k a = .held)
    ∧ (∀ (c : Fin 6) (k : AccKind) (a : Nat), 0x80000 ≤ a → a < 0x100000 → h.decide_ c k a = .error)
    ∧ (∀ (c : Fin 6) (a : BitVec 25) (be : BitVec 4) (v : Word) (x y : Bool), a.toNat < 0x100000 → a.toNat % 4 = 0 → h.decide_ c .write a.toNat = .ok x y → becomes (.registerWrite c a be v) h (h.writeReg c a.toNat v be.toNat))
    ∧ (∀ (c : Fin 6) (a : BitVec 25) (be : BitVec 4) (v : Word) (info : Nat), a.toNat < 0x100000 → a.toNat % 4 = 0 → h.decide_ c .write a.toNat = .refused info → does (.registerWrite c a be v) h (fun t => t = (if c.val ≤ 1 then (h.deny c a.toNat info).pwFail a.toNat 1 (c == 0) else h.deny c a.toNat info) ∧ t.get R.ACC_DENY_CNT = min (2 ^ R.ACC_DENY_CNT.width - 1) (h.get R.ACC_DENY_CNT + 1) ∧ t.rd A.ACC_DENY_ADDR = W a.toNat ∧ t.rd A.ACC_DENY_INFO = W info ∧ (c.val ≤ 1 → t.on R.BRG_STATUS_PW_ERR = true ∧ t.rd A.BRG_PW_ERR_ADDR = W a.toNat ∧ t.get R.BRG_PW_ERR_INFO_CAUSE = 1) ∧ t = { h with regs := t.regs, err := t.err }))
    ∧ (∀ (c : Fin 6) (a : BitVec 25) (be : BitVec 4) (v : Word), a.toNat < 0x100000 → a.toNat % 4 = 0 → h.decide_ c .write a.toNat = .error → becomes (.registerWrite c a be v) h (if c.val ≤ 1 then h.pwFail a.toNat 2 (c == 0) else h))
    ∧ (∀ (c : Fin 6) (a : BitVec 25) (be : BitVec 4) (v : Word), a.toNat < 0x100000 → a.toNat % 4 = 0 → h.decide_ c .write a.toNat = .held → does (.registerWrite c a be v) h (fun t => t.acc.late = h.acc.late ++ [⟨c, a.toNat, some (v, be.toNat)⟩] ∧ t.on R.ACC_STATUS_HOLDING = true ∧ onlyRegs { h with acc := t.acc } t [A.ACC_STATUS]))
    ∧ (∀ (c : Fin 6) (a : BitVec 25) (be : BitVec 4) (v : Word), (0x100000 ≤ a.toNat ∨ a.toNat % 4 ≠ 0) → becomes (.registerWrite c a be v) h h)
    ∧ (∀ (c : Fin 6) (a : BitVec 25) (be : BitVec 4) (v : Word) (x y : Bool), a.toNat = A.EMMC_ARG → h.decide_ c .write A.EMMC_ARG = .ok x y → does (.registerWrite c a be v) h (fun t => (∀ i : Fin 4, slice (t.rd A.EMMC_ARG).toNat (8 * i) 8 = if be.getLsbD i then slice v.toNat (8 * i) 8 else slice (h.rd A.EMMC_ARG).toNat (8 * i) 8) ∧ onlyRegs h t [A.EMMC_ARG]))
    ∧ (∀ (c : Fin 6) (v : Word) (x y : Bool), h.decide_ c .write A.PINS_WAKE_CTRL = .ok x y → does (.registerWrite c (BitVec.ofNat 25 A.PINS_WAKE_CTRL) 15 v) h (fun t => t.rd A.PINS_WAKE_CTRL = v &&& 0x3FFF#32 ∧ onlyRegs h t [A.PINS_WAKE_CTRL]))
    ∧ (∀ (c : Fin 6) (v : Word) (x y : Bool), h.decide_ c .write A.PINS_WAKE_FILT = .ok x y → does (.registerWrite c (BitVec.ofNat 25 A.PINS_WAKE_FILT) 15 v) h (fun t => t.get R.PINS_WAKE_FILT_FILTER = (if v.toNat % 256 = 0 then h.get R.PINS_WAKE_FILT_FILTER else v.toNat % 256) ∧ onlyRegs h t [A.PINS_WAKE_FILT]))
    ∧ (∀ (c : Fin 6) (be : BitVec 4) (v : Word) (i : Fin 8) (x y : Bool), h.decide_ c .write A.LOAD_EVENT = .ok x y → does (.registerWrite c (BitVec.ofNat 25 A.LOAD_EVENT) be v) h (fun t => bit (t.rd A.LOAD_EVENT).toNat i = (bit (h.rd A.LOAD_EVENT).toNat i && !(be.getLsbD 0 && v.getLsbD i)) ∧ onlyRegs h t [A.LOAD_EVENT]))
    ∧ (∀ (c : Fin 6) (be : BitVec 4) (v : Word) (x y : Bool), h.decide_ c .write A.DEV_ID = .ok x y → does (.registerWrite c (BitVec.ofNat 25 A.DEV_ID) be v) h (fun t => t.rd A.DEV_ID = h.rd A.DEV_ID ∧ onlyRegs h t [A.DEV_ID]))
    ∧ (∀ (c : Fin 6) (be : BitVec 4) (v : Word) (x y : Bool), h.decide_ c .write 0x3FFC = .ok x y → becomes (.registerWrite c 0x3FFC be v) h h)
    ∧ (∀ (c : Fin 6) (be : BitVec 4) (v : Word) (x y : Bool), h.decide_ c .write 0x18024 = .ok x y → does (.registerWrite c 0x18024 be v) h (fun t => t = (if be.getLsbD 0 && v.getLsbD 0 then h.clearRange A.PWRS_REFUSED A.PWRS_STEEP_CNT else h) ∧ t.rd 0x18024 = h.rd 0x18024))
    ∧ (∀ (c : Fin 6) (x y : Bool), h.decide_ c .read A.TIME_NOW_LO = .ok x y → does (.latchedPairRead c (BitVec.ofNat 25 A.TIME_NOW_LO)) h (fun t => t.latched A.TIME_NOW_HI = W (h.now / 2 ^ 32) ∧ t = { h with latch := t.latch }))
    ∧ (∀ (c : Fin 6) (x y : Bool), h.decide_ c .read A.FAB_CNT_LO = .ok x y → does (.latchedPairRead c (BitVec.ofNat 25 A.FAB_CNT_LO)) h (fun t => t.latched A.FAB_CNT_HI = W (h.cntSelected / 2 ^ 32) ∧ t = { h with latch := t.latch }))
    ∧ (∀ (c : Fin 6) (n : Fin 96) (x y : Bool), h.decide_ c .read (A.POL_DROP_LO n) = .ok x y → does (.latchedPairRead c (BitVec.ofNat 25 (A.POL_DROP_LO n))) h (fun t => t.latched (A.POL_DROP_LO n + 4) = W ((h.pol n).drop / 2 ^ 32) ∧ t = { h with latch := t.latch }) ∧ does (.latchedPairRead c (BitVec.ofNat 25 (A.POL_PASS_LO n))) h (fun t => t.latched (A.POL_PASS_LO n + 4) = W ((h.pol n).pass / 2 ^ 32) ∧ t = { h with latch := t.latch }))
    ∧ (∀ (c : Fin 6) (x y : Bool), h.decide_ c .read A.USBH_SOF_LO = .ok x y → does (.latchedPairRead c (BitVec.ofNat 25 A.USBH_SOF_LO)) h (fun t => t.latched (A.USBH_SOF_LO + 4) = h.rd (A.USBH_SOF_LO + 4) ∧ t = { h with latch := t.latch }))
    ∧ (∀ (c : Fin 6) (x y : Bool), h.decide_ c .read A.PWRS_WAKE_LO = .ok x y → does (.latchedPairRead c (BitVec.ofNat 25 A.PWRS_WAKE_LO)) h (fun t => t.latched A.PWRS_WAKE_HI = h.rd A.PWRS_WAKE_HI ∧ t = { h with latch := t.latch }))
    ∧ (∀ (c : Fin 6) (p : Port) (x y : Bool), h.decide_ c .read (A.LNK_WIN_DUP_P_LO p.ix) = .ok x y → does (.latchedPairRead c (BitVec.ofNat 25 (A.LNK_WIN_DUP_P_LO p.ix))) h (fun t => t.latched (A.LNK_WIN_DUP_P_LO 0 + 4) = W (h.rt.dupP / 2 ^ 32) ∧ t = { h with latch := t.latch }))
    ∧ (∀ (c : Fin 6) (d : Fin 2) (x y : Bool), h.decide_ c .read (A.DSP_FLIP_LO d) = .ok x y → does (.latchedPairRead c (BitVec.ofNat 25 (A.DSP_FLIP_LO d))) h (fun t => t.latched (A.DSP_FLIP_HI d) = h.rd (A.DSP_FLIP_HI d) ∧ t.latched (A.DSP_FLIP_FRAME d) = h.rd (A.DSP_FLIP_FRAME d) ∧ t = { h with latch := t.latch }))
    ∧ (∀ (c : Fin 6) (a : BitVec 25) (info : Nat), latching a.toNat = true → h.decide_ c .read a.toNat = .refused info → becomes (.latchedPairRead c a) h (h.deny c a.toNat info))
    ∧ (∀ (c : Fin 6) (a : BitVec 25), latching a.toNat = true → h.decide_ c .read a.toNat = .held → does (.latchedPairRead c a) h (fun t => t.acc.late = h.acc.late ++ [⟨c, a.toNat, none⟩] ∧ t.on R.ACC_STATUS_HOLDING = true ∧ onlyRegs { h with acc := t.acc } t [A.ACC_STATUS]))
    ∧ (∀ (c : Fin 6) (a : BitVec 25), latching a.toNat = false → becomes (.latchedPairRead c a) h h)
end

