-- ==== Sys2Proof/Laws/Tables.lean ====
section
/-! SUPPORT. Laws of the sparse tables: what a read gives after a write, and that writing keeps the canonical form. -/

namespace Sys2Proof.Machine

/-! ### Listed tables -/

@[simp] theorem KMap.get?_nil {α : Type} (k : Nat) : KMap.get? ([] : KMap α) k = none := rfl

theorem KMap.get?_cons {α : Type} (a : Nat) (v : α) (t : KMap α) (k : Nat) :
    KMap.get? ((a, v) :: t) k = if a = k then some v else KMap.get? t k := rfl

@[simp] theorem KMap.get?_del_self {α : Type} (m : KMap α) (k : Nat) : KMap.get? (KMap.del m k) k = none := by
  induction m with
  | nil => rfl
  | cons e t ih =>
    obtain ⟨a, v⟩ := e
    by_cases h : a = k
    · simpa [KMap.del, h] using ih
    · simpa [KMap.del, h, KMap.get?_cons] using ih

theorem KMap.get?_del_of_ne {α : Type} (m : KMap α) {k j : Nat} (hj : j ≠ k) :
    KMap.get? (KMap.del m k) j = KMap.get? m j := by
  induction m with
  | nil => rfl
  | cons e t ih =>
    obtain ⟨a, v⟩ := e
    by_cases h : a = k
    · subst h
      have : a ≠ j := fun e => hj e.symm
      simpa [KMap.del, KMap.get?_cons, this] using ih
    · have hd : KMap.del ((a, v) :: t) k = (a, v) :: KMap.del t k := by simp [KMap.del, h]
      rw [hd, KMap.get?_cons, KMap.get?_cons, ih]

theorem KMap.get?_ins_self {α : Type} (m : KMap α) (k : Nat) (v : α) (h : KMap.get? m k = none) :
    KMap.get? (KMap.ins m k v) k = some v := by
  induction m with
  | nil => simp [KMap.ins, KMap.get?_cons]
  | cons e t ih =>
    obtain ⟨a, w⟩ := e
    rw [KMap.get?_cons] at h
    split at h
    · cases h
    · rename_i hak
      by_cases hlt : k < a
      · simp [KMap.ins, hlt, KMap.get?_cons]
      · simp [KMap.ins, hlt, KMap.get?_cons, hak, ih h]

theorem KMap.get?_ins_of_ne {α : Type} (m : KMap α) {k j : Nat} (v : α) (hj : j ≠ k) :
    KMap.get? (KMap.ins m k v) j = KMap.get? m j := by
  have hk : k ≠ j := fun e => hj e.symm
  induction m with
  | nil => simp [KMap.ins, KMap.get?_cons, hk]
  | cons e t ih =>
    obtain ⟨a, w⟩ := e
    by_cases hlt : k < a
    · simp [KMap.ins, hlt, KMap.get?_cons, hk]
    · simp [KMap.ins, hlt, KMap.get?_cons, ih]

@[simp] theorem KMap.get?_put_self {α : Type} (m : KMap α) (k : Nat) (v : α) :
    KMap.get? (KMap.put m k v) k = some v :=
  KMap.get?_ins_self _ _ _ (KMap.get?_del_self m k)

theorem KMap.get?_put_of_ne {α : Type} (m : KMap α) {k j : Nat} (v : α) (hj : j ≠ k) :
    KMap.get? (KMap.put m k v) j = KMap.get? m j := by
  rw [KMap.put, KMap.get?_ins_of_ne _ _ hj, KMap.get?_del_of_ne _ hj]

/-- A read after a write of a listed table. -/
theorem KMap.get?_put {α : Type} (m : KMap α) (k j : Nat) (v : α) :
    KMap.get? (KMap.put m k v) j = if j = k then some v else KMap.get? m j := by
  by_cases h : j = k
  · subst h; simp
  · simp [h, KMap.get?_put_of_ne]

/-! ### Tables with a default -/

@[simp] theorem SMap.get_nil {α : Type} (d : Nat → α) (k : Nat) : SMap.get d [] k = d k := rfl

/-- A read after a write of a table with a default. -/
theorem SMap.get_set {α : Type} [DecidableEq α] (d : Nat → α) (m : SMap α) (k j : Nat) (v : α) :
    SMap.get d (SMap.set d m k v) j = if j = k then v else SMap.get d m j := by
  unfold SMap.get SMap.set
  by_cases hv : v = d k
  · by_cases hj : j = k
    · subst hj; simp [hv]
    · simp [hv, hj, KMap.get?_del_of_ne]
  · by_cases hj : j = k
    · subst hj; simp [hv]
    · simp [hv, hj, KMap.get?_put_of_ne]

@[simp] theorem SMap.get_set_self {α : Type} [DecidableEq α] (d : Nat → α) (m : SMap α) (k : Nat) (v : α) :
    SMap.get d (SMap.set d m k v) k = v := by simp [SMap.get_set]

theorem SMap.get_set_of_ne {α : Type} [DecidableEq α] (d : Nat → α) (m : SMap α) {k j : Nat} (v : α) (h : j ≠ k) :
    SMap.get d (SMap.set d m k v) j = SMap.get d m j := by simp [SMap.get_set, h]

/-! ### The canonical form -/

/-- Keys of a sorted table rise from its first. -/
theorem KMap.sorted_cons {α : Type} (a : Nat) (v : α) (t : KMap α) :
    KMap.sorted ((a, v) :: t) = true ↔ (∀ e ∈ t, a < e.1) ∧ KMap.sorted t = true := by
  induction t generalizing a v with
  | nil => simp [KMap.sorted]
  | cons e u ih =>
    obtain ⟨b, w⟩ := e
    simp only [KMap.sorted, Bool.and_eq_true, decide_eq_true_eq]
    constructor
    · rintro ⟨hab, hs⟩
      refine ⟨?_, hs⟩
      intro e he
      rcases List.mem_cons.mp he with rfl | he
      · exact hab
      · exact Nat.lt_trans hab ((ih b w).mp hs |>.1 e he)
    · rintro ⟨hall, hs⟩
      exact ⟨hall (b, w) (by simp), hs⟩

theorem KMap.sorted_filter {α : Type} (m : KMap α) (p : Nat × α → Bool) (h : KMap.sorted m = true) :
    KMap.sorted (m.filter p) = true := by
  induction m with
  | nil => rfl
  | cons e t ih =>
    obtain ⟨a, v⟩ := e
    rw [KMap.sorted_cons] at h
    have ih := ih h.2
    by_cases hp : p (a, v) = true
    · rw [List.filter_cons_of_pos hp, KMap.sorted_cons]
      exact ⟨fun e he => h.1 e (List.mem_filter.mp he).1, ih⟩
    · rw [List.filter_cons_of_neg hp]
      exact ih

theorem KMap.mem_ins {α : Type} (m : KMap α) (k : Nat) (v : α) (e : Nat × α) :
    e ∈ KMap.ins m k v ↔ e = (k, v) ∨ e ∈ m := by
  induction m with
  | nil => simp [KMap.ins]
  | cons x t ih =>
    obtain ⟨a, w⟩ := x
    by_cases hlt : k < a
    · simp [KMap.ins, hlt]
    · simp only [KMap.ins, hlt, if_false, List.mem_cons, ih]
      tauto

theorem KMap.sorted_ins {α : Type} (m : KMap α) (k : Nat) (v : α) (h : KMap.sorted m = true)
    (hk : ∀ e ∈ m, e.1 ≠ k) : KMap.sorted (KMap.ins m k v) = true := by
  induction m with
  | nil => rfl
  | cons x t ih =>
    obtain ⟨a, w⟩ := x
    have hs := (KMap.sorted_cons a w t).mp h
    by_cases hlt : k < a
    · rw [KMap.ins, if_pos hlt, KMap.sorted_cons]
      refine ⟨fun e he => ?_, h⟩
      rcases List.mem_cons.mp he with rfl | he
      · exact hlt
      · exact Nat.lt_trans hlt (hs.1 e he)
    · rw [KMap.ins, if_neg hlt, KMap.sorted_cons]
      refine ⟨fun e he => ?_, ih hs.2 (fun e he => hk e (List.mem_cons_of_mem _ he))⟩
      rcases (KMap.mem_ins t k v e).mp he with rfl | he
      · have := hk (a, w) (by simp)
        simp only at this ⊢
        omega
      · exact hs.1 e he

/-- Deleting a key keeps a table sorted and free of default entries. -/
theorem SMap.wf_filter {α : Type} [DecidableEq α] (d : Nat → α) (m : SMap α) (p : Nat × α → Bool)
    (h : SMap.wf d m = true) : SMap.wf d (m.filter p) = true := by
  simp only [SMap.wf, Bool.and_eq_true, List.all_eq_true] at h ⊢
  exact ⟨KMap.sorted_filter m p h.1, fun e he => h.2 e (List.mem_filter.mp he).1⟩

/-- A write keeps the canonical form. -/
theorem SMap.wf_set {α : Type} [DecidableEq α] (d : Nat → α) (m : SMap α) (k : Nat) (v : α)
    (h : SMap.wf d m = true) : SMap.wf d (SMap.set d m k v) = true := by
  unfold SMap.set
  have hd : SMap.wf d (KMap.del m k) = true := SMap.wf_filter d m _ h
  by_cases hv : v = d k
  · simpa [hv] using hd
  · simp only [hv, if_false, KMap.put]
    simp only [SMap.wf, Bool.and_eq_true, List.all_eq_true] at hd ⊢
    refine ⟨KMap.sorted_ins _ _ _ hd.1 ?_, ?_⟩
    · intro e he
      simpa [KMap.del] using (List.mem_filter.mp he).2
    · intro e he
      rcases (KMap.mem_ins _ _ _ _).mp he with rfl | he
      · simpa using hv
      · exact hd.2 e he

@[simp] theorem SMap.wf_nil {α : Type} [DecidableEq α] (d : Nat → α) : SMap.wf d [] = true := rfl

/-- Leaving entries out makes their keys read as the default. -/
theorem SMap.get_filter {α : Type} (d : Nat → α) (m : SMap α) (p : Nat → Bool) (k : Nat) :
    SMap.get d (m.filter (fun e => p e.1)) k = if p k then SMap.get d m k else d k := by
  unfold SMap.get
  induction m with
  | nil => simp
  | cons e t ih =>
    obtain ⟨a, v⟩ := e
    by_cases ha : a = k
    · subst ha
      by_cases hp : p a = true
      · simp [hp, KMap.get?_cons]
      · simpa [hp] using ih
    · by_cases hp : p a = true
      · simpa [hp, KMap.get?_cons, ha] using ih
      · simpa [hp, KMap.get?_cons, ha] using ih

end Sys2Proof.Machine
end

