-- ==== Sys2Proof/Laws/Words.lean ====
section
/-! SUPPORT. Laws of fields in numbers: what a slice reads after a slice is set. -/

namespace Sys2Proof

theorem testBit_slice (n lo w i : Nat) : (slice n lo w).testBit i = (decide (i < w) && n.testBit (lo + i)) := by
  rw [slice, Nat.testBit_mod_two_pow, Nat.testBit_div_two_pow, Nat.add_comm]

/-- The bits of a number with a slice set: those of the new value inside the slice, its own outside. -/
theorem testBit_setSlice (n lo w v i : Nat) :
    (setSlice n lo w v).testBit i =
      if i < lo then n.testBit i else if i < lo + w then v.testBit (i - lo) else n.testBit i := by
  have hlow : n % 2 ^ lo < 2 ^ lo := Nat.mod_lt _ (Nat.two_pow_pos lo)
  have hmid : v % 2 ^ w < 2 ^ w := Nat.mod_lt _ (Nat.two_pow_pos w)
  have e : setSlice n lo w v = 2 ^ lo * (2 ^ w * (n / 2 ^ (lo + w)) + v % 2 ^ w) + n % 2 ^ lo := by
    rw [setSlice, pow_add]; ring
  rw [e, Nat.testBit_two_pow_mul_add _ hlow]
  by_cases h1 : i < lo
  · simp [h1]
  · simp only [h1, if_false, Nat.testBit_two_pow_mul_add _ hmid]
    by_cases h2 : i < lo + w
    · have h3 : i - lo < w := by omega
      simp [h2, h3]
    · have h3 : ¬ i - lo < w := by omega
      have h4 : i - lo - w + (lo + w) = i := by omega
      simp [h2, h3, Nat.testBit_div_two_pow, h4]

/-- A slice reads what was set in it. -/
theorem slice_setSlice_self (n lo w v : Nat) : slice (setSlice n lo w v) lo w = v % 2 ^ w := by
  apply Nat.eq_of_testBit_eq
  intro i
  rw [testBit_slice, testBit_setSlice, Nat.testBit_mod_two_pow]
  by_cases h : i < w
  · have h1 : ¬ lo + i < lo := by omega
    have h2 : lo + i - lo = i := by omega
    simp [h, h1, h2]
  · simp [h]

/-- A slice beside the one set reads as before. -/
theorem slice_setSlice_of_disjoint (n lo w v lo' w' : Nat) (h : lo' + w' ≤ lo ∨ lo + w ≤ lo') :
    slice (setSlice n lo w v) lo' w' = slice n lo' w' := by
  apply Nat.eq_of_testBit_eq
  intro i
  rw [testBit_slice, testBit_slice, testBit_setSlice]
  by_cases hi : i < w'
  · rcases h with h | h
    · have h1 : lo' + i < lo := by omega
      simp [h1]
    · have h1 : ¬ lo' + i < lo := by omega
      have h2 : ¬ lo' + i < lo + w := by omega
      simp [h1, h2]
  · simp [hi]

theorem setSlice_lt {n lo w v k : Nat} (hn : n < 2 ^ k) (hk : lo + w ≤ k) : setSlice n lo w v < 2 ^ k := by
  apply Nat.lt_pow_two_of_testBit
  intro i hi
  rw [testBit_setSlice]
  have h1 : ¬ i < lo := by omega
  have h2 : ¬ i < lo + w := by omega
  simp only [h1, h2, if_false]
  exact Nat.testBit_lt_two_pow (Nat.lt_of_lt_of_le hn (Nat.pow_le_pow_right (by decide) hi))

theorem slice_lt (n lo w : Nat) : slice n lo w < 2 ^ w := Nat.mod_lt _ (Nat.two_pow_pos w)

@[simp] theorem b2n_true : b2n true = 1 := rfl

@[simp] theorem b2n_false : b2n false = 0 := rfl

theorem b2n_lt_two (b : Bool) : b2n b < 2 := by cases b <;> decide

/-- A word of a number below 2^32 is that number. -/
theorem toNat_W {n : Nat} (h : n < 2 ^ 32) : (W n).toNat = n := by
  rw [W, BitVec.toNat_ofNat, Nat.mod_eq_of_lt h]

end Sys2Proof
end

