-- ==== Sys2Proof/Laws/State.lean ====
section
/-! SUPPORT. One lemma for each field of the hub and each named update of it: what an update leaves alone is read through
it, and no later proof unfolds a record update. -/

namespace Sys2Proof.Machine

/-! ### Fields an update does not touch -/

@[simp] theorem Hub.wr_root (h : Hub) (a : Nat) (v : Word) : (h.wr a v).root = h.root := rfl

@[simp] theorem Hub.wr_stime (h : Hub) (a : Nat) (v : Word) : (h.wr a v).stime = h.stime := rfl

@[simp] theorem Hub.wr_mem (h : Hub) (a : Nat) (v : Word) : (h.wr a v).mem = h.mem := rfl

@[simp] theorem Hub.wr_latch (h : Hub) (a : Nat) (v : Word) : (h.wr a v).latch = h.latch := rfl

@[simp] theorem Hub.wr_free (h : Hub) (a : Nat) (v : Word) : (h.wr a v).free = h.free := rfl

@[simp] theorem Hub.wr_out (h : Hub) (a : Nat) (v : Word) : (h.wr a v).out = h.out := rfl

@[simp] theorem Hub.wr_links (h : Hub) (a : Nat) (v : Word) : (h.wr a v).links = h.links := rfl

@[simp] theorem Hub.wr_rt (h : Hub) (a : Nat) (v : Word) : (h.wr a v).rt = h.rt := rfl

@[simp] theorem Hub.wr_err (h : Hub) (a : Nat) (v : Word) : (h.wr a v).err = h.err := rfl

@[simp] theorem Hub.wr_fab (h : Hub) (a : Nat) (v : Word) : (h.wr a v).fab = h.fab := rfl

@[simp] theorem Hub.wr_sch (h : Hub) (a : Nat) (v : Word) : (h.wr a v).sch = h.sch := rfl

@[simp] theorem Hub.wr_tm (h : Hub) (a : Nat) (v : Word) : (h.wr a v).tm = h.tm := rfl

@[simp] theorem Hub.wr_tun (h : Hub) (a : Nat) (v : Word) : (h.wr a v).tun = h.tun := rfl

@[simp] theorem Hub.wr_acc (h : Hub) (a : Nat) (v : Word) : (h.wr a v).acc = h.acc := rfl

@[simp] theorem Hub.wr_sec (h : Hub) (a : Nat) (v : Word) : (h.wr a v).sec = h.sec := rfl

@[simp] theorem Hub.wr_dsp0 (h : Hub) (a : Nat) (v : Word) : (h.wr a v).dsp0 = h.dsp0 := rfl

@[simp] theorem Hub.wr_dsp1 (h : Hub) (a : Nat) (v : Word) : (h.wr a v).dsp1 = h.dsp1 := rfl

@[simp] theorem Hub.wr_eth (h : Hub) (a : Nat) (v : Word) : (h.wr a v).eth = h.eth := rfl

@[simp] theorem Hub.wr_ser (h : Hub) (a : Nat) (v : Word) : (h.wr a v).ser = h.ser := rfl

@[simp] theorem Hub.wr_usb (h : Hub) (a : Nat) (v : Word) : (h.wr a v).usb = h.usb := rfl

@[simp] theorem Hub.wr_emmc (h : Hub) (a : Nat) (v : Word) : (h.wr a v).emmc = h.emmc := rfl

@[simp] theorem Hub.wr_jrn (h : Hub) (a : Nat) (v : Word) : (h.wr a v).jrn = h.jrn := rfl

@[simp] theorem Hub.wr_brg (h : Hub) (a : Nat) (v : Word) : (h.wr a v).brg = h.brg := rfl

@[simp] theorem Hub.wr_cc (h : Hub) (a : Nat) (v : Word) : (h.wr a v).cc = h.cc := rfl

@[simp] theorem Hub.wr_load (h : Hub) (a : Nat) (v : Word) : (h.wr a v).load = h.load := rfl

@[simp] theorem Hub.wr_coop (h : Hub) (a : Nat) (v : Word) : (h.wr a v).coop = h.coop := rfl

@[simp] theorem Hub.wr_pw (h : Hub) (a : Nat) (v : Word) : (h.wr a v).pw = h.pw := rfl

@[simp] theorem Hub.wr_jtag (h : Hub) (a : Nat) (v : Word) : (h.wr a v).jtag = h.jtag := rfl

@[simp] theorem Hub.put_root (h : Hub) (f : RF) (v : Nat) : (h.put f v).root = h.root := rfl

@[simp] theorem Hub.put_stime (h : Hub) (f : RF) (v : Nat) : (h.put f v).stime = h.stime := rfl

@[simp] theorem Hub.put_mem (h : Hub) (f : RF) (v : Nat) : (h.put f v).mem = h.mem := rfl

@[simp] theorem Hub.put_latch (h : Hub) (f : RF) (v : Nat) : (h.put f v).latch = h.latch := rfl

@[simp] theorem Hub.put_free (h : Hub) (f : RF) (v : Nat) : (h.put f v).free = h.free := rfl

@[simp] theorem Hub.put_out (h : Hub) (f : RF) (v : Nat) : (h.put f v).out = h.out := rfl

@[simp] theorem Hub.put_links (h : Hub) (f : RF) (v : Nat) : (h.put f v).links = h.links := rfl

@[simp] theorem Hub.put_rt (h : Hub) (f : RF) (v : Nat) : (h.put f v).rt = h.rt := rfl

@[simp] theorem Hub.put_err (h : Hub) (f : RF) (v : Nat) : (h.put f v).err = h.err := rfl

@[simp] theorem Hub.put_fab (h : Hub) (f : RF) (v : Nat) : (h.put f v).fab = h.fab := rfl

@[simp] theorem Hub.put_sch (h : Hub) (f : RF) (v : Nat) : (h.put f v).sch = h.sch := rfl

@[simp] theorem Hub.put_tm (h : Hub) (f : RF) (v : Nat) : (h.put f v).tm = h.tm := rfl

@[simp] theorem Hub.put_tun (h : Hub) (f : RF) (v : Nat) : (h.put f v).tun = h.tun := rfl

@[simp] theorem Hub.put_acc (h : Hub) (f : RF) (v : Nat) : (h.put f v).acc = h.acc := rfl

@[simp] theorem Hub.put_sec (h : Hub) (f : RF) (v : Nat) : (h.put f v).sec = h.sec := rfl

@[simp] theorem Hub.put_dsp0 (h : Hub) (f : RF) (v : Nat) : (h.put f v).dsp0 = h.dsp0 := rfl

@[simp] theorem Hub.put_dsp1 (h : Hub) (f : RF) (v : Nat) : (h.put f v).dsp1 = h.dsp1 := rfl

@[simp] theorem Hub.put_eth (h : Hub) (f : RF) (v : Nat) : (h.put f v).eth = h.eth := rfl

@[simp] theorem Hub.put_ser (h : Hub) (f : RF) (v : Nat) : (h.put f v).ser = h.ser := rfl

@[simp] theorem Hub.put_usb (h : Hub) (f : RF) (v : Nat) : (h.put f v).usb = h.usb := rfl

@[simp] theorem Hub.put_emmc (h : Hub) (f : RF) (v : Nat) : (h.put f v).emmc = h.emmc := rfl

@[simp] theorem Hub.put_jrn (h : Hub) (f : RF) (v : Nat) : (h.put f v).jrn = h.jrn := rfl

@[simp] theorem Hub.put_brg (h : Hub) (f : RF) (v : Nat) : (h.put f v).brg = h.brg := rfl

@[simp] theorem Hub.put_cc (h : Hub) (f : RF) (v : Nat) : (h.put f v).cc = h.cc := rfl

@[simp] theorem Hub.put_load (h : Hub) (f : RF) (v : Nat) : (h.put f v).load = h.load := rfl

@[simp] theorem Hub.put_coop (h : Hub) (f : RF) (v : Nat) : (h.put f v).coop = h.coop := rfl

@[simp] theorem Hub.put_pw (h : Hub) (f : RF) (v : Nat) : (h.put f v).pw = h.pw := rfl

@[simp] theorem Hub.put_jtag (h : Hub) (f : RF) (v : Nat) : (h.put f v).jtag = h.jtag := rfl

@[simp] theorem Hub.bumpBy_root (h : Hub) (f : RF) (n : Nat) : (h.bumpBy f n).root = h.root := rfl

@[simp] theorem Hub.bumpBy_stime (h : Hub) (f : RF) (n : Nat) : (h.bumpBy f n).stime = h.stime := rfl

@[simp] theorem Hub.bumpBy_mem (h : Hub) (f : RF) (n : Nat) : (h.bumpBy f n).mem = h.mem := rfl

@[simp] theorem Hub.bumpBy_latch (h : Hub) (f : RF) (n : Nat) : (h.bumpBy f n).latch = h.latch := rfl

@[simp] theorem Hub.bumpBy_free (h : Hub) (f : RF) (n : Nat) : (h.bumpBy f n).free = h.free := rfl

@[simp] theorem Hub.bumpBy_out (h : Hub) (f : RF) (n : Nat) : (h.bumpBy f n).out = h.out := rfl

@[simp] theorem Hub.bumpBy_links (h : Hub) (f : RF) (n : Nat) : (h.bumpBy f n).links = h.links := rfl

@[simp] theorem Hub.bumpBy_rt (h : Hub) (f : RF) (n : Nat) : (h.bumpBy f n).rt = h.rt := rfl

@[simp] theorem Hub.bumpBy_err (h : Hub) (f : RF) (n : Nat) : (h.bumpBy f n).err = h.err := rfl

@[simp] theorem Hub.bumpBy_fab (h : Hub) (f : RF) (n : Nat) : (h.bumpBy f n).fab = h.fab := rfl

@[simp] theorem Hub.bumpBy_sch (h : Hub) (f : RF) (n : Nat) : (h.bumpBy f n).sch = h.sch := rfl

@[simp] theorem Hub.bumpBy_tm (h : Hub) (f : RF) (n : Nat) : (h.bumpBy f n).tm = h.tm := rfl

@[simp] theorem Hub.bumpBy_tun (h : Hub) (f : RF) (n : Nat) : (h.bumpBy f n).tun = h.tun := rfl

@[simp] theorem Hub.bumpBy_acc (h : Hub) (f : RF) (n : Nat) : (h.bumpBy f n).acc = h.acc := rfl

@[simp] theorem Hub.bumpBy_sec (h : Hub) (f : RF) (n : Nat) : (h.bumpBy f n).sec = h.sec := rfl

@[simp] theorem Hub.bumpBy_dsp0 (h : Hub) (f : RF) (n : Nat) : (h.bumpBy f n).dsp0 = h.dsp0 := rfl

@[simp] theorem Hub.bumpBy_dsp1 (h : Hub) (f : RF) (n : Nat) : (h.bumpBy f n).dsp1 = h.dsp1 := rfl

@[simp] theorem Hub.bumpBy_eth (h : Hub) (f : RF) (n : Nat) : (h.bumpBy f n).eth = h.eth := rfl

@[simp] theorem Hub.bumpBy_ser (h : Hub) (f : RF) (n : Nat) : (h.bumpBy f n).ser = h.ser := rfl

@[simp] theorem Hub.bumpBy_usb (h : Hub) (f : RF) (n : Nat) : (h.bumpBy f n).usb = h.usb := rfl

@[simp] theorem Hub.bumpBy_emmc (h : Hub) (f : RF) (n : Nat) : (h.bumpBy f n).emmc = h.emmc := rfl

@[simp] theorem Hub.bumpBy_jrn (h : Hub) (f : RF) (n : Nat) : (h.bumpBy f n).jrn = h.jrn := rfl

@[simp] theorem Hub.bumpBy_brg (h : Hub) (f : RF) (n : Nat) : (h.bumpBy f n).brg = h.brg := rfl

@[simp] theorem Hub.bumpBy_cc (h : Hub) (f : RF) (n : Nat) : (h.bumpBy f n).cc = h.cc := rfl

@[simp] theorem Hub.bumpBy_load (h : Hub) (f : RF) (n : Nat) : (h.bumpBy f n).load = h.load := rfl

@[simp] theorem Hub.bumpBy_coop (h : Hub) (f : RF) (n : Nat) : (h.bumpBy f n).coop = h.coop := rfl

@[simp] theorem Hub.bumpBy_pw (h : Hub) (f : RF) (n : Nat) : (h.bumpBy f n).pw = h.pw := rfl

@[simp] theorem Hub.bumpBy_jtag (h : Hub) (f : RF) (n : Nat) : (h.bumpBy f n).jtag = h.jtag := rfl

@[simp] theorem Hub.bump_root (h : Hub) (f : RF) : (h.bump f).root = h.root := rfl

@[simp] theorem Hub.bump_stime (h : Hub) (f : RF) : (h.bump f).stime = h.stime := rfl

@[simp] theorem Hub.bump_mem (h : Hub) (f : RF) : (h.bump f).mem = h.mem := rfl

@[simp] theorem Hub.bump_latch (h : Hub) (f : RF) : (h.bump f).latch = h.latch := rfl

@[simp] theorem Hub.bump_free (h : Hub) (f : RF) : (h.bump f).free = h.free := rfl

@[simp] theorem Hub.bump_out (h : Hub) (f : RF) : (h.bump f).out = h.out := rfl

@[simp] theorem Hub.bump_links (h : Hub) (f : RF) : (h.bump f).links = h.links := rfl

@[simp] theorem Hub.bump_rt (h : Hub) (f : RF) : (h.bump f).rt = h.rt := rfl

@[simp] theorem Hub.bump_err (h : Hub) (f : RF) : (h.bump f).err = h.err := rfl

@[simp] theorem Hub.bump_fab (h : Hub) (f : RF) : (h.bump f).fab = h.fab := rfl

@[simp] theorem Hub.bump_sch (h : Hub) (f : RF) : (h.bump f).sch = h.sch := rfl

@[simp] theorem Hub.bump_tm (h : Hub) (f : RF) : (h.bump f).tm = h.tm := rfl

@[simp] theorem Hub.bump_tun (h : Hub) (f : RF) : (h.bump f).tun = h.tun := rfl

@[simp] theorem Hub.bump_acc (h : Hub) (f : RF) : (h.bump f).acc = h.acc := rfl

@[simp] theorem Hub.bump_sec (h : Hub) (f : RF) : (h.bump f).sec = h.sec := rfl

@[simp] theorem Hub.bump_dsp0 (h : Hub) (f : RF) : (h.bump f).dsp0 = h.dsp0 := rfl

@[simp] theorem Hub.bump_dsp1 (h : Hub) (f : RF) : (h.bump f).dsp1 = h.dsp1 := rfl

@[simp] theorem Hub.bump_eth (h : Hub) (f : RF) : (h.bump f).eth = h.eth := rfl

@[simp] theorem Hub.bump_ser (h : Hub) (f : RF) : (h.bump f).ser = h.ser := rfl

@[simp] theorem Hub.bump_usb (h : Hub) (f : RF) : (h.bump f).usb = h.usb := rfl

@[simp] theorem Hub.bump_emmc (h : Hub) (f : RF) : (h.bump f).emmc = h.emmc := rfl

@[simp] theorem Hub.bump_jrn (h : Hub) (f : RF) : (h.bump f).jrn = h.jrn := rfl

@[simp] theorem Hub.bump_brg (h : Hub) (f : RF) : (h.bump f).brg = h.brg := rfl

@[simp] theorem Hub.bump_cc (h : Hub) (f : RF) : (h.bump f).cc = h.cc := rfl

@[simp] theorem Hub.bump_load (h : Hub) (f : RF) : (h.bump f).load = h.load := rfl

@[simp] theorem Hub.bump_coop (h : Hub) (f : RF) : (h.bump f).coop = h.coop := rfl

@[simp] theorem Hub.bump_pw (h : Hub) (f : RF) : (h.bump f).pw = h.pw := rfl

@[simp] theorem Hub.bump_jtag (h : Hub) (f : RF) : (h.bump f).jtag = h.jtag := rfl

@[simp] theorem Hub.clearRange_root (h : Hub) (lo hi : Nat) : (h.clearRange lo hi).root = h.root := rfl

@[simp] theorem Hub.clearRange_stime (h : Hub) (lo hi : Nat) : (h.clearRange lo hi).stime = h.stime := rfl

@[simp] theorem Hub.clearRange_mem (h : Hub) (lo hi : Nat) : (h.clearRange lo hi).mem = h.mem := rfl

@[simp] theorem Hub.clearRange_latch (h : Hub) (lo hi : Nat) : (h.clearRange lo hi).latch = h.latch := rfl

@[simp] theorem Hub.clearRange_free (h : Hub) (lo hi : Nat) : (h.clearRange lo hi).free = h.free := rfl

@[simp] theorem Hub.clearRange_out (h : Hub) (lo hi : Nat) : (h.clearRange lo hi).out = h.out := rfl

@[simp] theorem Hub.clearRange_links (h : Hub) (lo hi : Nat) : (h.clearRange lo hi).links = h.links := rfl

@[simp] theorem Hub.clearRange_rt (h : Hub) (lo hi : Nat) : (h.clearRange lo hi).rt = h.rt := rfl

@[simp] theorem Hub.clearRange_err (h : Hub) (lo hi : Nat) : (h.clearRange lo hi).err = h.err := rfl

@[simp] theorem Hub.clearRange_fab (h : Hub) (lo hi : Nat) : (h.clearRange lo hi).fab = h.fab := rfl

@[simp] theorem Hub.clearRange_sch (h : Hub) (lo hi : Nat) : (h.clearRange lo hi).sch = h.sch := rfl

@[simp] theorem Hub.clearRange_tm (h : Hub) (lo hi : Nat) : (h.clearRange lo hi).tm = h.tm := rfl

@[simp] theorem Hub.clearRange_tun (h : Hub) (lo hi : Nat) : (h.clearRange lo hi).tun = h.tun := rfl

@[simp] theorem Hub.clearRange_acc (h : Hub) (lo hi : Nat) : (h.clearRange lo hi).acc = h.acc := rfl

@[simp] theorem Hub.clearRange_sec (h : Hub) (lo hi : Nat) : (h.clearRange lo hi).sec = h.sec := rfl

@[simp] theorem Hub.clearRange_dsp0 (h : Hub) (lo hi : Nat) : (h.clearRange lo hi).dsp0 = h.dsp0 := rfl

@[simp] theorem Hub.clearRange_dsp1 (h : Hub) (lo hi : Nat) : (h.clearRange lo hi).dsp1 = h.dsp1 := rfl

@[simp] theorem Hub.clearRange_eth (h : Hub) (lo hi : Nat) : (h.clearRange lo hi).eth = h.eth := rfl

@[simp] theorem Hub.clearRange_ser (h : Hub) (lo hi : Nat) : (h.clearRange lo hi).ser = h.ser := rfl

@[simp] theorem Hub.clearRange_usb (h : Hub) (lo hi : Nat) : (h.clearRange lo hi).usb = h.usb := rfl

@[simp] theorem Hub.clearRange_emmc (h : Hub) (lo hi : Nat) : (h.clearRange lo hi).emmc = h.emmc := rfl

@[simp] theorem Hub.clearRange_jrn (h : Hub) (lo hi : Nat) : (h.clearRange lo hi).jrn = h.jrn := rfl

@[simp] theorem Hub.clearRange_brg (h : Hub) (lo hi : Nat) : (h.clearRange lo hi).brg = h.brg := rfl

@[simp] theorem Hub.clearRange_cc (h : Hub) (lo hi : Nat) : (h.clearRange lo hi).cc = h.cc := rfl

@[simp] theorem Hub.clearRange_load (h : Hub) (lo hi : Nat) : (h.clearRange lo hi).load = h.load := rfl

@[simp] theorem Hub.clearRange_coop (h : Hub) (lo hi : Nat) : (h.clearRange lo hi).coop = h.coop := rfl

@[simp] theorem Hub.clearRange_pw (h : Hub) (lo hi : Nat) : (h.clearRange lo hi).pw = h.pw := rfl

@[simp] theorem Hub.clearRange_jtag (h : Hub) (lo hi : Nat) : (h.clearRange lo hi).jtag = h.jtag := rfl

@[simp] theorem Hub.mwr_root (h : Hub) (a : Nat) (b : Byte) : (h.mwr a b).root = h.root := rfl

@[simp] theorem Hub.mwr_stime (h : Hub) (a : Nat) (b : Byte) : (h.mwr a b).stime = h.stime := rfl

@[simp] theorem Hub.mwr_regs (h : Hub) (a : Nat) (b : Byte) : (h.mwr a b).regs = h.regs := rfl

@[simp] theorem Hub.mwr_latch (h : Hub) (a : Nat) (b : Byte) : (h.mwr a b).latch = h.latch := rfl

@[simp] theorem Hub.mwr_free (h : Hub) (a : Nat) (b : Byte) : (h.mwr a b).free = h.free := rfl

@[simp] theorem Hub.mwr_out (h : Hub) (a : Nat) (b : Byte) : (h.mwr a b).out = h.out := rfl

@[simp] theorem Hub.mwr_links (h : Hub) (a : Nat) (b : Byte) : (h.mwr a b).links = h.links := rfl

@[simp] theorem Hub.mwr_rt (h : Hub) (a : Nat) (b : Byte) : (h.mwr a b).rt = h.rt := rfl

@[simp] theorem Hub.mwr_err (h : Hub) (a : Nat) (b : Byte) : (h.mwr a b).err = h.err := rfl

@[simp] theorem Hub.mwr_fab (h : Hub) (a : Nat) (b : Byte) : (h.mwr a b).fab = h.fab := rfl

@[simp] theorem Hub.mwr_sch (h : Hub) (a : Nat) (b : Byte) : (h.mwr a b).sch = h.sch := rfl

@[simp] theorem Hub.mwr_tm (h : Hub) (a : Nat) (b : Byte) : (h.mwr a b).tm = h.tm := rfl

@[simp] theorem Hub.mwr_tun (h : Hub) (a : Nat) (b : Byte) : (h.mwr a b).tun = h.tun := rfl

@[simp] theorem Hub.mwr_acc (h : Hub) (a : Nat) (b : Byte) : (h.mwr a b).acc = h.acc := rfl

@[simp] theorem Hub.mwr_sec (h : Hub) (a : Nat) (b : Byte) : (h.mwr a b).sec = h.sec := rfl

@[simp] theorem Hub.mwr_dsp0 (h : Hub) (a : Nat) (b : Byte) : (h.mwr a b).dsp0 = h.dsp0 := rfl

@[simp] theorem Hub.mwr_dsp1 (h : Hub) (a : Nat) (b : Byte) : (h.mwr a b).dsp1 = h.dsp1 := rfl

@[simp] theorem Hub.mwr_eth (h : Hub) (a : Nat) (b : Byte) : (h.mwr a b).eth = h.eth := rfl

@[simp] theorem Hub.mwr_ser (h : Hub) (a : Nat) (b : Byte) : (h.mwr a b).ser = h.ser := rfl

@[simp] theorem Hub.mwr_usb (h : Hub) (a : Nat) (b : Byte) : (h.mwr a b).usb = h.usb := rfl

@[simp] theorem Hub.mwr_emmc (h : Hub) (a : Nat) (b : Byte) : (h.mwr a b).emmc = h.emmc := rfl

@[simp] theorem Hub.mwr_jrn (h : Hub) (a : Nat) (b : Byte) : (h.mwr a b).jrn = h.jrn := rfl

@[simp] theorem Hub.mwr_brg (h : Hub) (a : Nat) (b : Byte) : (h.mwr a b).brg = h.brg := rfl

@[simp] theorem Hub.mwr_cc (h : Hub) (a : Nat) (b : Byte) : (h.mwr a b).cc = h.cc := rfl

@[simp] theorem Hub.mwr_load (h : Hub) (a : Nat) (b : Byte) : (h.mwr a b).load = h.load := rfl

@[simp] theorem Hub.mwr_coop (h : Hub) (a : Nat) (b : Byte) : (h.mwr a b).coop = h.coop := rfl

@[simp] theorem Hub.mwr_pw (h : Hub) (a : Nat) (b : Byte) : (h.mwr a b).pw = h.pw := rfl

@[simp] theorem Hub.mwr_jtag (h : Hub) (a : Nat) (b : Byte) : (h.mwr a b).jtag = h.jtag := rfl

@[simp] theorem Hub.emit_root (h : Hub) (t : Tx) : (h.emit t).root = h.root := rfl

@[simp] theorem Hub.emit_stime (h : Hub) (t : Tx) : (h.emit t).stime = h.stime := rfl

@[simp] theorem Hub.emit_regs (h : Hub) (t : Tx) : (h.emit t).regs = h.regs := rfl

@[simp] theorem Hub.emit_mem (h : Hub) (t : Tx) : (h.emit t).mem = h.mem := rfl

@[simp] theorem Hub.emit_latch (h : Hub) (t : Tx) : (h.emit t).latch = h.latch := rfl

@[simp] theorem Hub.emit_free (h : Hub) (t : Tx) : (h.emit t).free = h.free := rfl

@[simp] theorem Hub.emit_links (h : Hub) (t : Tx) : (h.emit t).links = h.links := rfl

@[simp] theorem Hub.emit_rt (h : Hub) (t : Tx) : (h.emit t).rt = h.rt := rfl

@[simp] theorem Hub.emit_err (h : Hub) (t : Tx) : (h.emit t).err = h.err := rfl

@[simp] theorem Hub.emit_fab (h : Hub) (t : Tx) : (h.emit t).fab = h.fab := rfl

@[simp] theorem Hub.emit_sch (h : Hub) (t : Tx) : (h.emit t).sch = h.sch := rfl

@[simp] theorem Hub.emit_tm (h : Hub) (t : Tx) : (h.emit t).tm = h.tm := rfl

@[simp] theorem Hub.emit_tun (h : Hub) (t : Tx) : (h.emit t).tun = h.tun := rfl

@[simp] theorem Hub.emit_acc (h : Hub) (t : Tx) : (h.emit t).acc = h.acc := rfl

@[simp] theorem Hub.emit_sec (h : Hub) (t : Tx) : (h.emit t).sec = h.sec := rfl

@[simp] theorem Hub.emit_dsp0 (h : Hub) (t : Tx) : (h.emit t).dsp0 = h.dsp0 := rfl

@[simp] theorem Hub.emit_dsp1 (h : Hub) (t : Tx) : (h.emit t).dsp1 = h.dsp1 := rfl

@[simp] theorem Hub.emit_eth (h : Hub) (t : Tx) : (h.emit t).eth = h.eth := rfl

@[simp] theorem Hub.emit_ser (h : Hub) (t : Tx) : (h.emit t).ser = h.ser := rfl

@[simp] theorem Hub.emit_usb (h : Hub) (t : Tx) : (h.emit t).usb = h.usb := rfl

@[simp] theorem Hub.emit_emmc (h : Hub) (t : Tx) : (h.emit t).emmc = h.emmc := rfl

@[simp] theorem Hub.emit_jrn (h : Hub) (t : Tx) : (h.emit t).jrn = h.jrn := rfl

@[simp] theorem Hub.emit_brg (h : Hub) (t : Tx) : (h.emit t).brg = h.brg := rfl

@[simp] theorem Hub.emit_cc (h : Hub) (t : Tx) : (h.emit t).cc = h.cc := rfl

@[simp] theorem Hub.emit_load (h : Hub) (t : Tx) : (h.emit t).load = h.load := rfl

@[simp] theorem Hub.emit_coop (h : Hub) (t : Tx) : (h.emit t).coop = h.coop := rfl

@[simp] theorem Hub.emit_pw (h : Hub) (t : Tx) : (h.emit t).pw = h.pw := rfl

@[simp] theorem Hub.emit_jtag (h : Hub) (t : Tx) : (h.emit t).jtag = h.jtag := rfl

@[simp] theorem Hub.onLink_root (h : Hub) (p : Port) (f : LinkPort → LinkPort) : (h.onLink p f).root = h.root := rfl

@[simp] theorem Hub.onLink_stime (h : Hub) (p : Port) (f : LinkPort → LinkPort) : (h.onLink p f).stime = h.stime := rfl

@[simp] theorem Hub.onLink_regs (h : Hub) (p : Port) (f : LinkPort → LinkPort) : (h.onLink p f).regs = h.regs := rfl

@[simp] theorem Hub.onLink_mem (h : Hub) (p : Port) (f : LinkPort → LinkPort) : (h.onLink p f).mem = h.mem := rfl

@[simp] theorem Hub.onLink_latch (h : Hub) (p : Port) (f : LinkPort → LinkPort) : (h.onLink p f).latch = h.latch := rfl

@[simp] theorem Hub.onLink_free (h : Hub) (p : Port) (f : LinkPort → LinkPort) : (h.onLink p f).free = h.free := rfl

@[simp] theorem Hub.onLink_out (h : Hub) (p : Port) (f : LinkPort → LinkPort) : (h.onLink p f).out = h.out := rfl

@[simp] theorem Hub.onLink_rt (h : Hub) (p : Port) (f : LinkPort → LinkPort) : (h.onLink p f).rt = h.rt := rfl

@[simp] theorem Hub.onLink_err (h : Hub) (p : Port) (f : LinkPort → LinkPort) : (h.onLink p f).err = h.err := rfl

@[simp] theorem Hub.onLink_fab (h : Hub) (p : Port) (f : LinkPort → LinkPort) : (h.onLink p f).fab = h.fab := rfl

@[simp] theorem Hub.onLink_sch (h : Hub) (p : Port) (f : LinkPort → LinkPort) : (h.onLink p f).sch = h.sch := rfl

@[simp] theorem Hub.onLink_tm (h : Hub) (p : Port) (f : LinkPort → LinkPort) : (h.onLink p f).tm = h.tm := rfl

@[simp] theorem Hub.onLink_tun (h : Hub) (p : Port) (f : LinkPort → LinkPort) : (h.onLink p f).tun = h.tun := rfl

@[simp] theorem Hub.onLink_acc (h : Hub) (p : Port) (f : LinkPort → LinkPort) : (h.onLink p f).acc = h.acc := rfl

@[simp] theorem Hub.onLink_sec (h : Hub) (p : Port) (f : LinkPort → LinkPort) : (h.onLink p f).sec = h.sec := rfl

@[simp] theorem Hub.onLink_dsp0 (h : Hub) (p : Port) (f : LinkPort → LinkPort) : (h.onLink p f).dsp0 = h.dsp0 := rfl

@[simp] theorem Hub.onLink_dsp1 (h : Hub) (p : Port) (f : LinkPort → LinkPort) : (h.onLink p f).dsp1 = h.dsp1 := rfl

@[simp] theorem Hub.onLink_eth (h : Hub) (p : Port) (f : LinkPort → LinkPort) : (h.onLink p f).eth = h.eth := rfl

@[simp] theorem Hub.onLink_ser (h : Hub) (p : Port) (f : LinkPort → LinkPort) : (h.onLink p f).ser = h.ser := rfl

@[simp] theorem Hub.onLink_usb (h : Hub) (p : Port) (f : LinkPort → LinkPort) : (h.onLink p f).usb = h.usb := rfl

@[simp] theorem Hub.onLink_emmc (h : Hub) (p : Port) (f : LinkPort → LinkPort) : (h.onLink p f).emmc = h.emmc := rfl

@[simp] theorem Hub.onLink_jrn (h : Hub) (p : Port) (f : LinkPort → LinkPort) : (h.onLink p f).jrn = h.jrn := rfl

@[simp] theorem Hub.onLink_brg (h : Hub) (p : Port) (f : LinkPort → LinkPort) : (h.onLink p f).brg = h.brg := rfl

@[simp] theorem Hub.onLink_cc (h : Hub) (p : Port) (f : LinkPort → LinkPort) : (h.onLink p f).cc = h.cc := rfl

@[simp] theorem Hub.onLink_load (h : Hub) (p : Port) (f : LinkPort → LinkPort) : (h.onLink p f).load = h.load := rfl

@[simp] theorem Hub.onLink_coop (h : Hub) (p : Port) (f : LinkPort → LinkPort) : (h.onLink p f).coop = h.coop := rfl

@[simp] theorem Hub.onLink_pw (h : Hub) (p : Port) (f : LinkPort → LinkPort) : (h.onLink p f).pw = h.pw := rfl

@[simp] theorem Hub.onLink_jtag (h : Hub) (p : Port) (f : LinkPort → LinkPort) : (h.onLink p f).jtag = h.jtag := rfl

@[simp] theorem Hub.onTimePort_root (h : Hub) (p : Port) (f : TimePort → TimePort) :
    (h.onTimePort p f).root = h.root := rfl

@[simp] theorem Hub.onTimePort_stime (h : Hub) (p : Port) (f : TimePort → TimePort) :
    (h.onTimePort p f).stime = h.stime := rfl

@[simp] theorem Hub.onTimePort_regs (h : Hub) (p : Port) (f : TimePort → TimePort) :
    (h.onTimePort p f).regs = h.regs := rfl

@[simp] theorem Hub.onTimePort_mem (h : Hub) (p : Port) (f : TimePort → TimePort) :
    (h.onTimePort p f).mem = h.mem := rfl

@[simp] theorem Hub.onTimePort_latch (h : Hub) (p : Port) (f : TimePort → TimePort) :
    (h.onTimePort p f).latch = h.latch := rfl

@[simp] theorem Hub.onTimePort_free (h : Hub) (p : Port) (f : TimePort → TimePort) :
    (h.onTimePort p f).free = h.free := rfl

@[simp] theorem Hub.onTimePort_out (h : Hub) (p : Port) (f : TimePort → TimePort) :
    (h.onTimePort p f).out = h.out := rfl

@[simp] theorem Hub.onTimePort_links (h : Hub) (p : Port) (f : TimePort → TimePort) :
    (h.onTimePort p f).links = h.links := rfl

@[simp] theorem Hub.onTimePort_rt (h : Hub) (p : Port) (f : TimePort → TimePort) : (h.onTimePort p f).rt = h.rt := rfl

@[simp] theorem Hub.onTimePort_err (h : Hub) (p : Port) (f : TimePort → TimePort) :
    (h.onTimePort p f).err = h.err := rfl

@[simp] theorem Hub.onTimePort_fab (h : Hub) (p : Port) (f : TimePort → TimePort) :
    (h.onTimePort p f).fab = h.fab := rfl

@[simp] theorem Hub.onTimePort_sch (h : Hub) (p : Port) (f : TimePort → TimePort) :
    (h.onTimePort p f).sch = h.sch := rfl

@[simp] theorem Hub.onTimePort_tun (h : Hub) (p : Port) (f : TimePort → TimePort) :
    (h.onTimePort p f).tun = h.tun := rfl

@[simp] theorem Hub.onTimePort_acc (h : Hub) (p : Port) (f : TimePort → TimePort) :
    (h.onTimePort p f).acc = h.acc := rfl

@[simp] theorem Hub.onTimePort_sec (h : Hub) (p : Port) (f : TimePort → TimePort) :
    (h.onTimePort p f).sec = h.sec := rfl

@[simp] theorem Hub.onTimePort_dsp0 (h : Hub) (p : Port) (f : TimePort → TimePort) :
    (h.onTimePort p f).dsp0 = h.dsp0 := rfl

@[simp] theorem Hub.onTimePort_dsp1 (h : Hub) (p : Port) (f : TimePort → TimePort) :
    (h.onTimePort p f).dsp1 = h.dsp1 := rfl

@[simp] theorem Hub.onTimePort_eth (h : Hub) (p : Port) (f : TimePort → TimePort) :
    (h.onTimePort p f).eth = h.eth := rfl

@[simp] theorem Hub.onTimePort_ser (h : Hub) (p : Port) (f : TimePort → TimePort) :
    (h.onTimePort p f).ser = h.ser := rfl

@[simp] theorem Hub.onTimePort_usb (h : Hub) (p : Port) (f : TimePort → TimePort) :
    (h.onTimePort p f).usb = h.usb := rfl

@[simp] theorem Hub.onTimePort_emmc (h : Hub) (p : Port) (f : TimePort → TimePort) :
    (h.onTimePort p f).emmc = h.emmc := rfl

@[simp] theorem Hub.onTimePort_jrn (h : Hub) (p : Port) (f : TimePort → TimePort) :
    (h.onTimePort p f).jrn = h.jrn := rfl

@[simp] theorem Hub.onTimePort_brg (h : Hub) (p : Port) (f : TimePort → TimePort) :
    (h.onTimePort p f).brg = h.brg := rfl

@[simp] theorem Hub.onTimePort_cc (h : Hub) (p : Port) (f : TimePort → TimePort) : (h.onTimePort p f).cc = h.cc := rfl

@[simp] theorem Hub.onTimePort_load (h : Hub) (p : Port) (f : TimePort → TimePort) :
    (h.onTimePort p f).load = h.load := rfl

@[simp] theorem Hub.onTimePort_coop (h : Hub) (p : Port) (f : TimePort → TimePort) :
    (h.onTimePort p f).coop = h.coop := rfl

@[simp] theorem Hub.onTimePort_pw (h : Hub) (p : Port) (f : TimePort → TimePort) : (h.onTimePort p f).pw = h.pw := rfl

@[simp] theorem Hub.onTimePort_jtag (h : Hub) (p : Port) (f : TimePort → TimePort) :
    (h.onTimePort p f).jtag = h.jtag := rfl

@[simp] theorem Hub.atRoot_stime (h : Hub) (r : Nat) : (h.atRoot r).stime = h.stime := rfl

@[simp] theorem Hub.atRoot_regs (h : Hub) (r : Nat) : (h.atRoot r).regs = h.regs := rfl

@[simp] theorem Hub.atRoot_mem (h : Hub) (r : Nat) : (h.atRoot r).mem = h.mem := rfl

@[simp] theorem Hub.atRoot_latch (h : Hub) (r : Nat) : (h.atRoot r).latch = h.latch := rfl

@[simp] theorem Hub.atRoot_free (h : Hub) (r : Nat) : (h.atRoot r).free = h.free := rfl

@[simp] theorem Hub.atRoot_out (h : Hub) (r : Nat) : (h.atRoot r).out = h.out := rfl

@[simp] theorem Hub.atRoot_links (h : Hub) (r : Nat) : (h.atRoot r).links = h.links := rfl

@[simp] theorem Hub.atRoot_rt (h : Hub) (r : Nat) : (h.atRoot r).rt = h.rt := rfl

@[simp] theorem Hub.atRoot_err (h : Hub) (r : Nat) : (h.atRoot r).err = h.err := rfl

@[simp] theorem Hub.atRoot_fab (h : Hub) (r : Nat) : (h.atRoot r).fab = h.fab := rfl

@[simp] theorem Hub.atRoot_sch (h : Hub) (r : Nat) : (h.atRoot r).sch = h.sch := rfl

@[simp] theorem Hub.atRoot_tm (h : Hub) (r : Nat) : (h.atRoot r).tm = h.tm := rfl

@[simp] theorem Hub.atRoot_tun (h : Hub) (r : Nat) : (h.atRoot r).tun = h.tun := rfl

@[simp] theorem Hub.atRoot_acc (h : Hub) (r : Nat) : (h.atRoot r).acc = h.acc := rfl

@[simp] theorem Hub.atRoot_sec (h : Hub) (r : Nat) : (h.atRoot r).sec = h.sec := rfl

@[simp] theorem Hub.atRoot_dsp0 (h : Hub) (r : Nat) : (h.atRoot r).dsp0 = h.dsp0 := rfl

@[simp] theorem Hub.atRoot_dsp1 (h : Hub) (r : Nat) : (h.atRoot r).dsp1 = h.dsp1 := rfl

@[simp] theorem Hub.atRoot_eth (h : Hub) (r : Nat) : (h.atRoot r).eth = h.eth := rfl

@[simp] theorem Hub.atRoot_ser (h : Hub) (r : Nat) : (h.atRoot r).ser = h.ser := rfl

@[simp] theorem Hub.atRoot_usb (h : Hub) (r : Nat) : (h.atRoot r).usb = h.usb := rfl

@[simp] theorem Hub.atRoot_emmc (h : Hub) (r : Nat) : (h.atRoot r).emmc = h.emmc := rfl

@[simp] theorem Hub.atRoot_jrn (h : Hub) (r : Nat) : (h.atRoot r).jrn = h.jrn := rfl

@[simp] theorem Hub.atRoot_brg (h : Hub) (r : Nat) : (h.atRoot r).brg = h.brg := rfl

@[simp] theorem Hub.atRoot_cc (h : Hub) (r : Nat) : (h.atRoot r).cc = h.cc := rfl

@[simp] theorem Hub.atRoot_load (h : Hub) (r : Nat) : (h.atRoot r).load = h.load := rfl

@[simp] theorem Hub.atRoot_coop (h : Hub) (r : Nat) : (h.atRoot r).coop = h.coop := rfl

@[simp] theorem Hub.atRoot_pw (h : Hub) (r : Nat) : (h.atRoot r).pw = h.pw := rfl

@[simp] theorem Hub.atRoot_jtag (h : Hub) (r : Nat) : (h.atRoot r).jtag = h.jtag := rfl

@[simp] theorem Hub.timeTo_root (h : Hub) (r was s : Nat) : (h.timeTo r was s).root = h.root := rfl

@[simp] theorem Hub.timeTo_regs (h : Hub) (r was s : Nat) : (h.timeTo r was s).regs = h.regs := rfl

@[simp] theorem Hub.timeTo_mem (h : Hub) (r was s : Nat) : (h.timeTo r was s).mem = h.mem := rfl

@[simp] theorem Hub.timeTo_latch (h : Hub) (r was s : Nat) : (h.timeTo r was s).latch = h.latch := rfl

@[simp] theorem Hub.timeTo_free (h : Hub) (r was s : Nat) : (h.timeTo r was s).free = h.free := rfl

@[simp] theorem Hub.timeTo_out (h : Hub) (r was s : Nat) : (h.timeTo r was s).out = h.out := rfl

@[simp] theorem Hub.timeTo_links (h : Hub) (r was s : Nat) : (h.timeTo r was s).links = h.links := rfl

@[simp] theorem Hub.timeTo_rt (h : Hub) (r was s : Nat) : (h.timeTo r was s).rt = h.rt := rfl

@[simp] theorem Hub.timeTo_err (h : Hub) (r was s : Nat) : (h.timeTo r was s).err = h.err := rfl

@[simp] theorem Hub.timeTo_fab (h : Hub) (r was s : Nat) : (h.timeTo r was s).fab = h.fab := rfl

@[simp] theorem Hub.timeTo_sch (h : Hub) (r was s : Nat) : (h.timeTo r was s).sch = h.sch := rfl

@[simp] theorem Hub.timeTo_tun (h : Hub) (r was s : Nat) : (h.timeTo r was s).tun = h.tun := rfl

@[simp] theorem Hub.timeTo_acc (h : Hub) (r was s : Nat) : (h.timeTo r was s).acc = h.acc := rfl

@[simp] theorem Hub.timeTo_sec (h : Hub) (r was s : Nat) : (h.timeTo r was s).sec = h.sec := rfl

@[simp] theorem Hub.timeTo_dsp0 (h : Hub) (r was s : Nat) : (h.timeTo r was s).dsp0 = h.dsp0 := rfl

@[simp] theorem Hub.timeTo_dsp1 (h : Hub) (r was s : Nat) : (h.timeTo r was s).dsp1 = h.dsp1 := rfl

@[simp] theorem Hub.timeTo_eth (h : Hub) (r was s : Nat) : (h.timeTo r was s).eth = h.eth := rfl

@[simp] theorem Hub.timeTo_ser (h : Hub) (r was s : Nat) : (h.timeTo r was s).ser = h.ser := rfl

@[simp] theorem Hub.timeTo_usb (h : Hub) (r was s : Nat) : (h.timeTo r was s).usb = h.usb := rfl

@[simp] theorem Hub.timeTo_emmc (h : Hub) (r was s : Nat) : (h.timeTo r was s).emmc = h.emmc := rfl

@[simp] theorem Hub.timeTo_jrn (h : Hub) (r was s : Nat) : (h.timeTo r was s).jrn = h.jrn := rfl

@[simp] theorem Hub.timeTo_brg (h : Hub) (r was s : Nat) : (h.timeTo r was s).brg = h.brg := rfl

@[simp] theorem Hub.timeTo_cc (h : Hub) (r was s : Nat) : (h.timeTo r was s).cc = h.cc := rfl

@[simp] theorem Hub.timeTo_load (h : Hub) (r was s : Nat) : (h.timeTo r was s).load = h.load := rfl

@[simp] theorem Hub.timeTo_coop (h : Hub) (r was s : Nat) : (h.timeTo r was s).coop = h.coop := rfl

@[simp] theorem Hub.timeTo_pw (h : Hub) (r was s : Nat) : (h.timeTo r was s).pw = h.pw := rfl

@[simp] theorem Hub.timeTo_jtag (h : Hub) (r was s : Nat) : (h.timeTo r was s).jtag = h.jtag := rfl

@[simp] theorem Hub.setHandling_root (h : Hub) (l : List Handling) : (h.setHandling l).root = h.root := rfl

@[simp] theorem Hub.setHandling_stime (h : Hub) (l : List Handling) : (h.setHandling l).stime = h.stime := rfl

@[simp] theorem Hub.setHandling_mem (h : Hub) (l : List Handling) : (h.setHandling l).mem = h.mem := rfl

@[simp] theorem Hub.setHandling_latch (h : Hub) (l : List Handling) : (h.setHandling l).latch = h.latch := rfl

@[simp] theorem Hub.setHandling_free (h : Hub) (l : List Handling) : (h.setHandling l).free = h.free := rfl

@[simp] theorem Hub.setHandling_out (h : Hub) (l : List Handling) : (h.setHandling l).out = h.out := rfl

@[simp] theorem Hub.setHandling_links (h : Hub) (l : List Handling) : (h.setHandling l).links = h.links := rfl

@[simp] theorem Hub.setHandling_rt (h : Hub) (l : List Handling) : (h.setHandling l).rt = h.rt := rfl

@[simp] theorem Hub.setHandling_fab (h : Hub) (l : List Handling) : (h.setHandling l).fab = h.fab := rfl

@[simp] theorem Hub.setHandling_sch (h : Hub) (l : List Handling) : (h.setHandling l).sch = h.sch := rfl

@[simp] theorem Hub.setHandling_tm (h : Hub) (l : List Handling) : (h.setHandling l).tm = h.tm := rfl

@[simp] theorem Hub.setHandling_tun (h : Hub) (l : List Handling) : (h.setHandling l).tun = h.tun := rfl

@[simp] theorem Hub.setHandling_acc (h : Hub) (l : List Handling) : (h.setHandling l).acc = h.acc := rfl

@[simp] theorem Hub.setHandling_sec (h : Hub) (l : List Handling) : (h.setHandling l).sec = h.sec := rfl

@[simp] theorem Hub.setHandling_dsp0 (h : Hub) (l : List Handling) : (h.setHandling l).dsp0 = h.dsp0 := rfl

@[simp] theorem Hub.setHandling_dsp1 (h : Hub) (l : List Handling) : (h.setHandling l).dsp1 = h.dsp1 := rfl

@[simp] theorem Hub.setHandling_eth (h : Hub) (l : List Handling) : (h.setHandling l).eth = h.eth := rfl

@[simp] theorem Hub.setHandling_ser (h : Hub) (l : List Handling) : (h.setHandling l).ser = h.ser := rfl

@[simp] theorem Hub.setHandling_usb (h : Hub) (l : List Handling) : (h.setHandling l).usb = h.usb := rfl

@[simp] theorem Hub.setHandling_emmc (h : Hub) (l : List Handling) : (h.setHandling l).emmc = h.emmc := rfl

@[simp] theorem Hub.setHandling_jrn (h : Hub) (l : List Handling) : (h.setHandling l).jrn = h.jrn := rfl

@[simp] theorem Hub.setHandling_brg (h : Hub) (l : List Handling) : (h.setHandling l).brg = h.brg := rfl

@[simp] theorem Hub.setHandling_cc (h : Hub) (l : List Handling) : (h.setHandling l).cc = h.cc := rfl

@[simp] theorem Hub.setHandling_load (h : Hub) (l : List Handling) : (h.setHandling l).load = h.load := rfl

@[simp] theorem Hub.setHandling_coop (h : Hub) (l : List Handling) : (h.setHandling l).coop = h.coop := rfl

@[simp] theorem Hub.setHandling_pw (h : Hub) (l : List Handling) : (h.setHandling l).pw = h.pw := rfl

@[simp] theorem Hub.setHandling_jtag (h : Hub) (l : List Handling) : (h.setHandling l).jtag = h.jtag := rfl

/-! ### Fields an update sets -/

@[simp] theorem Hub.emit_out (h : Hub) (t : Tx) : (h.emit t).out = t :: h.out := rfl

@[simp] theorem Hub.atRoot_root (h : Hub) (r : Nat) : (h.atRoot r).root = r := rfl

@[simp] theorem PerPort.at_set_self {α : Type} (x : PerPort α) (p : Port) (v : α) : (x.set p v).at p = v := by
  cases p <;> rfl

theorem PerPort.at_set {α : Type} (x : PerPort α) (p q : Port) (v : α) :
    (x.set p v).at q = if q = p then v else x.at q := by cases p <;> cases q <;> rfl

@[simp] theorem Hub.onLink_links_at (h : Hub) (p : Port) (f : LinkPort → LinkPort) :
    (h.onLink p f).links.at p = f (h.links.at p) := by simp [Hub.onLink]

/-! ### Registers and fields -/

/-- A register word reads what was written to it, and every other as before. -/
theorem Hub.rd_wr (h : Hub) (a b : Nat) (v : Word) : (h.wr a v).rd b = if b = a then v else h.rd b :=
  SMap.get_set _ _ _ _ _

@[simp] theorem Hub.rd_wr_self (h : Hub) (a : Nat) (v : Word) : (h.wr a v).rd a = v := by simp [Hub.rd_wr]

theorem Hub.rd_wr_of_ne (h : Hub) {a b : Nat} (v : Word) (e : b ≠ a) : (h.wr a v).rd b = h.rd b := by
  simp [Hub.rd_wr, e]

theorem Hub.rd_put_of_ne (h : Hub) (f : RF) (v : Nat) {b : Nat} (e : b ≠ f.addr) : (h.put f v).rd b = h.rd b :=
  Hub.rd_wr_of_ne _ _ e

/-- A field lies in its word. -/
def RF.ok (f : RF) : Bool := decide (f.lo + f.width ≤ 32)

/-- Two fields share no bit. -/
def RF.apart (f g : RF) : Bool := f.addr != g.addr || decide (f.lo + f.width ≤ g.lo) || decide (g.lo + g.width ≤ f.lo)

/-- A field reads what was put into it. -/
theorem Hub.get_put_self (h : Hub) (f : RF) (v : Nat) (ok : f.ok = true) : (h.put f v).get f = v % 2 ^ f.width := by
  have hw : f.lo + f.width ≤ 32 := by simpa [RF.ok] using ok
  rw [Hub.get, Hub.put, Hub.rd_wr_self, toNat_W (setSlice_lt (BitVec.isLt _) hw), slice_setSlice_self]

/-- A field reads as before when one apart from it is put. -/
theorem Hub.get_put_of_apart (h : Hub) (f g : RF) (v : Nat) (ok : f.ok = true) (e : f.apart g = true) :
    (h.put f v).get g = h.get g := by
  have hw : f.lo + f.width ≤ 32 := by simpa [RF.ok] using ok
  by_cases ha : g.addr = f.addr
  · rw [Hub.get, Hub.put, ha, Hub.rd_wr_self, toNat_W (setSlice_lt (BitVec.isLt _) hw), Hub.get, ha]
    refine slice_setSlice_of_disjoint _ _ _ _ _ _ ?_
    simp [RF.apart, ha] at e
    omega
  · rw [Hub.get, Hub.put, Hub.rd_wr_of_ne _ _ ha, Hub.get]

/-- A field reads as before when another word is written. -/
theorem Hub.get_wr_of_ne (h : Hub) (a : Nat) (v : Word) (g : RF) (e : g.addr ≠ a) : (h.wr a v).get g = h.get g := by
  rw [Hub.get, Hub.rd_wr_of_ne _ _ e, Hub.get]

/-- A word put under its own field. -/
theorem Hub.rd_put_self (h : Hub) (f : RF) (v : Nat) :
    (h.put f v).rd f.addr = W (setSlice (h.rd f.addr).toNat f.lo f.width v) := by simp [Hub.put]

theorem Hub.get_lt (h : Hub) (f : RF) : h.get f < 2 ^ f.width := slice_lt _ _ _

/-- A counter stands at the sum, or at its top. -/
theorem Hub.get_bumpBy_self (h : Hub) (f : RF) (n : Nat) (ok : f.ok = true) :
    (h.bumpBy f n).get f = min (2 ^ f.width - 1) (h.get f + n) := by
  rw [Hub.bumpBy, Hub.get_put_self _ _ _ ok, satAdd, Nat.mod_eq_of_lt]
  have := Nat.two_pow_pos f.width
  omega

theorem Hub.get_bumpBy_of_apart (h : Hub) (f g : RF) (n : Nat) (ok : f.ok = true) (e : f.apart g = true) :
    (h.bumpBy f n).get g = h.get g := Hub.get_put_of_apart _ _ _ _ ok e

theorem Hub.get_bump_self (h : Hub) (f : RF) (ok : f.ok = true) :
    (h.bump f).get f = min (2 ^ f.width - 1) (h.get f + 1) := Hub.get_bumpBy_self _ _ _ ok

theorem Hub.get_bump_of_apart (h : Hub) (f g : RF) (ok : f.ok = true) (e : f.apart g = true) :
    (h.bump f).get g = h.get g := Hub.get_put_of_apart _ _ _ _ ok e

/-- What a counter clear does to a word: inside its range it stands at its reset value. -/
theorem Hub.rd_clearRange (h : Hub) (lo hi a : Nat) :
    (h.clearRange lo hi).rd a = if lo ≤ a ∧ a ≤ hi then regReset a else h.rd a := by
  have := SMap.get_filter regReset h.regs (fun k => !(decide (lo ≤ k) && decide (k ≤ hi))) a
  rw [Hub.rd, Hub.clearRange, this, Hub.rd]
  by_cases h1 : lo ≤ a ∧ a ≤ hi
  · simp [h1]
  · rw [if_neg h1, if_pos (by
      rcases Nat.lt_or_ge a lo with h2 | h2
      · simp [Nat.not_le.mpr h2]
      · simp [show ¬ a ≤ hi from fun h3 => h1 ⟨h2, h3⟩])]

/-- A word as a field is the word. -/
theorem Hub.get_word (h : Hub) (a : Nat) : h.get (word a) = (h.rd a).toNat := by
  simp [Hub.get, word, slice, Nat.mod_eq_of_lt (BitVec.isLt _)]

/-! ### Memory -/

/-- A byte of memory reads what was stored to it, and every other as before. -/
theorem Hub.mrd_mwr (h : Hub) (a x : Nat) (b : Byte) : (h.mwr a b).mrd x = if x = a then b else h.mrd x :=
  SMap.get_set _ _ _ _ _

/-- A store keeps memory canonical. -/
theorem Hub.memWf_mwr (h : Hub) (a : Nat) (b : Byte) (w : h.memWf = true) : (h.mwr a b).memWf = true :=
  SMap.wf_set _ _ _ _ w

/-- A byte string read back. -/
theorem Hub.mrd_mstore (h : Hub) (a x : Nat) (bs : List Byte) :
    (h.mstore a bs).mrd x = if a ≤ x ∧ x < a + bs.length then bs.getD (x - a) 0 else h.mrd x := by
  induction bs generalizing h a with
  | nil => simp [Hub.mstore]
  | cons b t ih =>
    rw [Hub.mstore, ih, Hub.mrd_mwr]
    by_cases h1 : x = a
    · subst h1
      have : ¬ (x + 1 ≤ x ∧ x < x + 1 + t.length) := by omega
      simp
    · by_cases h2 : a + 1 ≤ x ∧ x < a + 1 + t.length
      · have h3 : a ≤ x ∧ x < a + (b :: t).length := by simp; omega
        rw [if_pos h2, if_pos h3]
        have : x - a = (x - (a + 1)) + 1 := by omega
        rw [this, List.getD_cons_succ]
      · have h3 : ¬ (a ≤ x ∧ x < a + (b :: t).length) := by simp; omega
        rw [if_neg h2, if_neg h3, if_neg h1]

theorem Hub.memWf_mstore (h : Hub) (a : Nat) (bs : List Byte) (w : h.memWf = true) : (h.mstore a bs).memWf = true := by
  induction bs generalizing h a with
  | nil => exact w
  | cons b t ih => exact ih _ _ (Hub.memWf_mwr _ _ _ w)

/-- Writing a register word keeps the registers canonical. -/
theorem Hub.regsWf_wr (h : Hub) (a : Nat) (v : Word) (w : h.regsWf = true) : (h.wr a v).regsWf = true :=
  SMap.wf_set _ _ _ _ w

theorem Hub.regsWf_put (h : Hub) (f : RF) (v : Nat) (w : h.regsWf = true) : (h.put f v).regsWf = true :=
  Hub.regsWf_wr _ _ _ w

theorem Hub.regsWf_clearRange (h : Hub) (lo hi : Nat) (w : h.regsWf = true) : (h.clearRange lo hi).regsWf = true :=
  SMap.wf_filter _ _ _ w

/-! ### Which commands a hub takes -/

@[simp] theorem State.withHub_hub (s : State) (h : Hub) : (s.withHub h).hub = h := rfl

@[simp] theorem State.withHub_pending (s : State) (h : Hub) : (s.withHub h).pending = s.pending := rfl

/-- A running core die takes a command. -/
theorem State.upd_of_awake {s : State} (a : s.hub.awake = true) (f : Hub → Hub) : s.upd f = .next (s.withHub (f s.hub)) := by
  simp [State.upd, State.any, a, State.withHub]

/-- A core die that does not run takes none. -/
theorem State.upd_of_not_awake {s : State} (a : s.hub.awake = false) (f : Hub → Hub) : s.upd f = .next s := by
  simp [State.upd, State.any, a]

theorem State.hv_of_supplied {s : State} (a : s.hub.pw.dark = false) (f : Hub → Hub) :
    s.hv f = .next (s.withHub (f s.hub)) := by simp [State.hv, State.any, a, State.withHub]

theorem State.hv_of_dark {s : State} (a : s.hub.pw.dark = true) (f : Hub → Hub) : s.hv f = .next s := by
  simp [State.hv, State.any, a]

theorem Hub.awake_parts {h : Hub} (a : h.awake = true) :
    h.pw.dark = false ∧ h.pw.rail = false ∧ h.pw.steep = false ∧ h.err.held = false := by
  simpa [Hub.awake, and_assoc] using a

theorem State.retain_of_awake {s : State} (a : s.hub.awake = true) (f : Hub → Hub) :
    s.retain f = .next (s.withHub (f s.hub)) := by
  obtain ⟨h1, h2, _, h4⟩ := Hub.awake_parts a
  simp [State.retain, State.any, h1, h2, h4, State.withHub]

theorem State.jtag_of_awake {s : State} (a : s.hub.awake = true) (f : Hub → Hub) :
    s.jtag f = .next (s.withHub (f s.hub)) := by
  obtain ⟨h1, h2, h3, _⟩ := Hub.awake_parts a
  simp [State.jtag, State.any, h1, h2, h3, State.withHub]

end Sys2Proof.Machine
end

