-- ==== Sys2Proof/Laws/Frames.lean ====
section
/-! SUPPORT. Frames of the shared operations. `h.blot S` is the hub with the parts in `S` blotted out; an operation that
changes parts of `S` only leaves it alone. These facts are for `simp`, which composes them through any chain of
operations; `Hub.of_blot` turns the result into an equation of hubs. -/

namespace Sys2Proof.Machine

set_option linter.unusedSimpArgs false
set_option linter.unusedVariables false
set_option linter.unusedTactic false
set_option linter.unnecessarySeqFocus false
set_option linter.unreachableTactic false

/-- The parts of the hub. -/
inductive Part where
  | root | stime | regs | mem | latch | free | out | links | rt | err | fab | sch | tm | tun | acc | sec | dsp0
    | dsp1 | eth | ser | usb | emmc | jrn | brg | cc | load | coop | pw | jtag
deriving DecidableEq, Repr

/-- The hub with some of its parts blotted out. -/
def Hub.blot (S : List Part) (h : Hub) : Hub where
  root := if Part.root ∈ S then Hub.reset.root else h.root
  stime := if Part.stime ∈ S then Hub.reset.stime else h.stime
  regs := if Part.regs ∈ S then Hub.reset.regs else h.regs
  mem := if Part.mem ∈ S then Hub.reset.mem else h.mem
  latch := if Part.latch ∈ S then Hub.reset.latch else h.latch
  free := if Part.free ∈ S then Hub.reset.free else h.free
  out := if Part.out ∈ S then Hub.reset.out else h.out
  links := if Part.links ∈ S then Hub.reset.links else h.links
  rt := if Part.rt ∈ S then Hub.reset.rt else h.rt
  err := if Part.err ∈ S then Hub.reset.err else h.err
  fab := if Part.fab ∈ S then Hub.reset.fab else h.fab
  sch := if Part.sch ∈ S then Hub.reset.sch else h.sch
  tm := if Part.tm ∈ S then Hub.reset.tm else h.tm
  tun := if Part.tun ∈ S then Hub.reset.tun else h.tun
  acc := if Part.acc ∈ S then Hub.reset.acc else h.acc
  sec := if Part.sec ∈ S then Hub.reset.sec else h.sec
  dsp0 := if Part.dsp0 ∈ S then Hub.reset.dsp0 else h.dsp0
  dsp1 := if Part.dsp1 ∈ S then Hub.reset.dsp1 else h.dsp1
  eth := if Part.eth ∈ S then Hub.reset.eth else h.eth
  ser := if Part.ser ∈ S then Hub.reset.ser else h.ser
  usb := if Part.usb ∈ S then Hub.reset.usb else h.usb
  emmc := if Part.emmc ∈ S then Hub.reset.emmc else h.emmc
  jrn := if Part.jrn ∈ S then Hub.reset.jrn else h.jrn
  brg := if Part.brg ∈ S then Hub.reset.brg else h.brg
  cc := if Part.cc ∈ S then Hub.reset.cc else h.cc
  load := if Part.load ∈ S then Hub.reset.load else h.load
  coop := if Part.coop ∈ S then Hub.reset.coop else h.coop
  pw := if Part.pw ∈ S then Hub.reset.pw else h.pw
  jtag := if Part.jtag ∈ S then Hub.reset.jtag else h.jtag

/-- One part of a blotted hub. -/
theorem blot_part {α : Type} {c : Prop} [Decidable c] {z a b : α} (e : (if c then z else a) = if c then z else b) :
    a = if c then a else b := by split <;> simp_all

/-- A hub that agrees with another outside some parts is that hub with these parts replaced. -/
theorem Hub.of_blot {S : List Part} {h t : Hub} (e : t.blot S = h.blot S) :
    t = {
      root := if Part.root ∈ S then t.root else h.root
      stime := if Part.stime ∈ S then t.stime else h.stime
      regs := if Part.regs ∈ S then t.regs else h.regs
      mem := if Part.mem ∈ S then t.mem else h.mem
      latch := if Part.latch ∈ S then t.latch else h.latch
      free := if Part.free ∈ S then t.free else h.free
      out := if Part.out ∈ S then t.out else h.out
      links := if Part.links ∈ S then t.links else h.links
      rt := if Part.rt ∈ S then t.rt else h.rt
      err := if Part.err ∈ S then t.err else h.err
      fab := if Part.fab ∈ S then t.fab else h.fab
      sch := if Part.sch ∈ S then t.sch else h.sch
      tm := if Part.tm ∈ S then t.tm else h.tm
      tun := if Part.tun ∈ S then t.tun else h.tun
      acc := if Part.acc ∈ S then t.acc else h.acc
      sec := if Part.sec ∈ S then t.sec else h.sec
      dsp0 := if Part.dsp0 ∈ S then t.dsp0 else h.dsp0
      dsp1 := if Part.dsp1 ∈ S then t.dsp1 else h.dsp1
      eth := if Part.eth ∈ S then t.eth else h.eth
      ser := if Part.ser ∈ S then t.ser else h.ser
      usb := if Part.usb ∈ S then t.usb else h.usb
      emmc := if Part.emmc ∈ S then t.emmc else h.emmc
      jrn := if Part.jrn ∈ S then t.jrn else h.jrn
      brg := if Part.brg ∈ S then t.brg else h.brg
      cc := if Part.cc ∈ S then t.cc else h.cc
      load := if Part.load ∈ S then t.load else h.load
      coop := if Part.coop ∈ S then t.coop else h.coop
      pw := if Part.pw ∈ S then t.pw else h.pw
      jtag := if Part.jtag ∈ S then t.jtag else h.jtag } := by
  cases t
  exact (Hub.mk.injEq ..).mpr
    ⟨blot_part (congrArg Hub.root e),
      blot_part (congrArg Hub.stime e),
      blot_part (congrArg Hub.regs e),
      blot_part (congrArg Hub.mem e),
      blot_part (congrArg Hub.latch e),
      blot_part (congrArg Hub.free e),
      blot_part (congrArg Hub.out e),
      blot_part (congrArg Hub.links e),
      blot_part (congrArg Hub.rt e),
      blot_part (congrArg Hub.err e),
      blot_part (congrArg Hub.fab e),
      blot_part (congrArg Hub.sch e),
      blot_part (congrArg Hub.tm e),
      blot_part (congrArg Hub.tun e),
      blot_part (congrArg Hub.acc e),
      blot_part (congrArg Hub.sec e),
      blot_part (congrArg Hub.dsp0 e),
      blot_part (congrArg Hub.dsp1 e),
      blot_part (congrArg Hub.eth e),
      blot_part (congrArg Hub.ser e),
      blot_part (congrArg Hub.usb e),
      blot_part (congrArg Hub.emmc e),
      blot_part (congrArg Hub.jrn e),
      blot_part (congrArg Hub.brg e),
      blot_part (congrArg Hub.cc e),
      blot_part (congrArg Hub.load e),
      blot_part (congrArg Hub.coop e),
      blot_part (congrArg Hub.pw e),
      blot_part (congrArg Hub.jtag e)⟩

/-- What each step of a fold leaves alone, the fold leaves alone. -/
theorem foldl_keeps {α β γ : Type} (P : β → γ) (f : β → α → β) (l : List α) (b : β) (step : ∀ b a, P (f b a) = P b) :
    P (l.foldl f b) = P b := by
  induction l generalizing b with
  | nil => rfl
  | cons a t ih => rw [List.foldl_cons, ih, step]

/-! ### Parts replaced -/

@[simp] theorem Hub.root_replaced {S : List Part} (h : Hub) (x) (hroot : Part.root ∈ S) :
    Hub.blot S { h with root := x } = h.blot S := by simp [Hub.blot, hroot]

@[simp] theorem Hub.stime_replaced {S : List Part} (h : Hub) (x) (hstime : Part.stime ∈ S) :
    Hub.blot S { h with stime := x } = h.blot S := by simp [Hub.blot, hstime]

@[simp] theorem Hub.regs_replaced {S : List Part} (h : Hub) (x) (hregs : Part.regs ∈ S) :
    Hub.blot S { h with regs := x } = h.blot S := by simp [Hub.blot, hregs]

@[simp] theorem Hub.mem_replaced {S : List Part} (h : Hub) (x) (hmem : Part.mem ∈ S) :
    Hub.blot S { h with mem := x } = h.blot S := by simp [Hub.blot, hmem]

@[simp] theorem Hub.latch_replaced {S : List Part} (h : Hub) (x) (hlatch : Part.latch ∈ S) :
    Hub.blot S { h with latch := x } = h.blot S := by simp [Hub.blot, hlatch]

@[simp] theorem Hub.free_replaced {S : List Part} (h : Hub) (x) (hfree : Part.free ∈ S) :
    Hub.blot S { h with free := x } = h.blot S := by simp [Hub.blot, hfree]

@[simp] theorem Hub.out_replaced {S : List Part} (h : Hub) (x) (hout : Part.out ∈ S) :
    Hub.blot S { h with out := x } = h.blot S := by simp [Hub.blot, hout]

@[simp] theorem Hub.links_replaced {S : List Part} (h : Hub) (x) (hlinks : Part.links ∈ S) :
    Hub.blot S { h with links := x } = h.blot S := by simp [Hub.blot, hlinks]

@[simp] theorem Hub.rt_replaced {S : List Part} (h : Hub) (x) (hrt : Part.rt ∈ S) :
    Hub.blot S { h with rt := x } = h.blot S := by simp [Hub.blot, hrt]

@[simp] theorem Hub.err_replaced {S : List Part} (h : Hub) (x) (herr : Part.err ∈ S) :
    Hub.blot S { h with err := x } = h.blot S := by simp [Hub.blot, herr]

@[simp] theorem Hub.fab_replaced {S : List Part} (h : Hub) (x) (hfab : Part.fab ∈ S) :
    Hub.blot S { h with fab := x } = h.blot S := by simp [Hub.blot, hfab]

@[simp] theorem Hub.sch_replaced {S : List Part} (h : Hub) (x) (hsch : Part.sch ∈ S) :
    Hub.blot S { h with sch := x } = h.blot S := by simp [Hub.blot, hsch]

@[simp] theorem Hub.tm_replaced {S : List Part} (h : Hub) (x) (htm : Part.tm ∈ S) :
    Hub.blot S { h with tm := x } = h.blot S := by simp [Hub.blot, htm]

@[simp] theorem Hub.tun_replaced {S : List Part} (h : Hub) (x) (htun : Part.tun ∈ S) :
    Hub.blot S { h with tun := x } = h.blot S := by simp [Hub.blot, htun]

@[simp] theorem Hub.acc_replaced {S : List Part} (h : Hub) (x) (hacc : Part.acc ∈ S) :
    Hub.blot S { h with acc := x } = h.blot S := by simp [Hub.blot, hacc]

@[simp] theorem Hub.sec_replaced {S : List Part} (h : Hub) (x) (hsec : Part.sec ∈ S) :
    Hub.blot S { h with sec := x } = h.blot S := by simp [Hub.blot, hsec]

@[simp] theorem Hub.dsp0_replaced {S : List Part} (h : Hub) (x) (hdsp0 : Part.dsp0 ∈ S) :
    Hub.blot S { h with dsp0 := x } = h.blot S := by simp [Hub.blot, hdsp0]

@[simp] theorem Hub.dsp1_replaced {S : List Part} (h : Hub) (x) (hdsp1 : Part.dsp1 ∈ S) :
    Hub.blot S { h with dsp1 := x } = h.blot S := by simp [Hub.blot, hdsp1]

@[simp] theorem Hub.eth_replaced {S : List Part} (h : Hub) (x) (heth : Part.eth ∈ S) :
    Hub.blot S { h with eth := x } = h.blot S := by simp [Hub.blot, heth]

@[simp] theorem Hub.ser_replaced {S : List Part} (h : Hub) (x) (hser : Part.ser ∈ S) :
    Hub.blot S { h with ser := x } = h.blot S := by simp [Hub.blot, hser]

@[simp] theorem Hub.usb_replaced {S : List Part} (h : Hub) (x) (husb : Part.usb ∈ S) :
    Hub.blot S { h with usb := x } = h.blot S := by simp [Hub.blot, husb]

@[simp] theorem Hub.emmc_replaced {S : List Part} (h : Hub) (x) (hemmc : Part.emmc ∈ S) :
    Hub.blot S { h with emmc := x } = h.blot S := by simp [Hub.blot, hemmc]

@[simp] theorem Hub.jrn_replaced {S : List Part} (h : Hub) (x) (hjrn : Part.jrn ∈ S) :
    Hub.blot S { h with jrn := x } = h.blot S := by simp [Hub.blot, hjrn]

@[simp] theorem Hub.brg_replaced {S : List Part} (h : Hub) (x) (hbrg : Part.brg ∈ S) :
    Hub.blot S { h with brg := x } = h.blot S := by simp [Hub.blot, hbrg]

@[simp] theorem Hub.cc_replaced {S : List Part} (h : Hub) (x) (hcc : Part.cc ∈ S) :
    Hub.blot S { h with cc := x } = h.blot S := by simp [Hub.blot, hcc]

@[simp] theorem Hub.load_replaced {S : List Part} (h : Hub) (x) (hload : Part.load ∈ S) :
    Hub.blot S { h with load := x } = h.blot S := by simp [Hub.blot, hload]

@[simp] theorem Hub.coop_replaced {S : List Part} (h : Hub) (x) (hcoop : Part.coop ∈ S) :
    Hub.blot S { h with coop := x } = h.blot S := by simp [Hub.blot, hcoop]

@[simp] theorem Hub.pw_replaced {S : List Part} (h : Hub) (x) (hpw : Part.pw ∈ S) :
    Hub.blot S { h with pw := x } = h.blot S := by simp [Hub.blot, hpw]

@[simp] theorem Hub.jtag_replaced {S : List Part} (h : Hub) (x) (hjtag : Part.jtag ∈ S) :
    Hub.blot S { h with jtag := x } = h.blot S := by simp [Hub.blot, hjtag]

/-! ### The plainest operations -/

@[simp] theorem Hub.timeTo_blot {S : List Part} (h : Hub) (r was s : Nat) (hstime : Part.stime ∈ S) (htm : Part.tm ∈
    S) :
    (h.timeTo r was s).blot S = h.blot S := by
  simp [Hub.blot, hstime, htm]

@[simp] theorem Hub.wr_blot {S : List Part} (h : Hub) (a : Nat) (v : Word) (hregs : Part.regs ∈ S) :
    (h.wr a v).blot S = h.blot S := by
  simp [Hub.blot, hregs]

@[simp] theorem Hub.put_blot {S : List Part} (h : Hub) (f : RF) (v : Nat) (hregs : Part.regs ∈ S) :
    (h.put f v).blot S = h.blot S := by
  simp [Hub.blot, hregs]

@[simp] theorem Hub.bumpBy_blot {S : List Part} (h : Hub) (f : RF) (n : Nat) (hregs : Part.regs ∈ S) :
    (h.bumpBy f n).blot S = h.blot S := by
  simp [Hub.blot, hregs]

@[simp] theorem Hub.bump_blot {S : List Part} (h : Hub) (f : RF) (hregs : Part.regs ∈ S) :
    (h.bump f).blot S = h.blot S := by
  simp [Hub.blot, hregs]

@[simp] theorem Hub.mwr_blot {S : List Part} (h : Hub) (a : Nat) (b : Byte) (hmem : Part.mem ∈ S) :
    (h.mwr a b).blot S = h.blot S := by
  simp [Hub.blot, hmem]

@[simp] theorem Hub.emit_blot {S : List Part} (h : Hub) (t : Tx) (hout : Part.out ∈ S) :
    (h.emit t).blot S = h.blot S := by
  simp [Hub.blot, hout]

@[simp] theorem Hub.onLink_blot {S : List Part} (h : Hub) (p : Port) (f : LinkPort → LinkPort) (hlinks : Part.links
    ∈ S) :
    (h.onLink p f).blot S = h.blot S := by
  simp [Hub.blot, hlinks]

@[simp] theorem Hub.onTimePort_blot {S : List Part} (h : Hub) (p : Port) (f : TimePort → TimePort) (htm : Part.tm ∈ S) :
    (h.onTimePort p f).blot S = h.blot S := by
  simp [Hub.blot, htm]

@[simp] theorem Hub.clearRange_blot {S : List Part} (h : Hub) (lo hi : Nat) (hregs : Part.regs ∈ S) :
    (h.clearRange lo hi).blot S = h.blot S := by
  simp [Hub.blot, hregs]

/-- What is done to each lane in turn leaves alone what it leaves alone of one. -/
@[simp] theorem Hub.eachLane_blot {S : List Part} (h : Hub) (f : Hub → Nat → Hub) (hf : ∀ g l, (f g l).blot S = g.blot S) :
    (h.eachLane f).blot S = h.blot S := foldl_keeps (Hub.blot S) _ _ _ hf

@[simp] theorem Hub.mstore_blot {S : List Part} (h : Hub) (a : Nat) (bs : List Byte) (hmem : Part.mem ∈ S) :
    (h.mstore a bs).blot S = h.blot S := by
  induction bs generalizing h a with
  | nil => rfl
  | cons b t ih => rw [Hub.mstore, ih, Hub.mwr_blot _ _ _ hmem]

@[simp] theorem Hub.leaveBytes_blot {S : List Part} (h : Hub) (cs : List Nat) (bs : List Byte) (hmem : Part.mem ∈ S) :
    (h.leaveBytes cs bs).blot S = h.blot S := by
  induction cs generalizing h bs with
  | nil => rfl
  | cons c t ih => rw [Hub.leaveBytes, ih, Hub.mstore_blot _ _ _ hmem]

/-! ### Ops -/

@[simp] theorem Hub.plain_blot {S : List Part} (h : Hub) (a : Nat) (v : Word) (be : Nat) (hregs : Part.regs ∈ S) :
    (h.plain a v be).blot S = h.blot S := by
  unfold Hub.plain
  (repeat' split) <;> simp [hregs]

@[simp] theorem Hub.ball_blot {S : List Part} (h : Hub) (t : Tx) (hout : Part.out ∈ S) :
    (h.ball t).blot S = h.blot S := by
  unfold Hub.ball
  try simp only []
  (repeat' split) <;> first
    | rfl
    | simp [hout]
    | simp [↓Hub.out_replaced, hout]
    | (rw [foldl_keeps (Hub.blot S) _ _ _ (fun b a => by simp [↓Hub.out_replaced, hout])]; simp
        [↓Hub.out_replaced, hout])
    | (rename_i e; have e' := congrArg (fun x => Hub.blot S x.1) e; simp [↓Hub.out_replaced, hout] at e'; simp [←
        e', hout])

@[simp] theorem Hub.queueEvent_blot {S : List Part} (h : Hub) (e : Ev) (hregs : Part.regs ∈ S) (herr : Part.err ∈ S) :
    (h.queueEvent e).blot S = h.blot S := by
  unfold Hub.queueEvent
  simp [apply_ite (Hub.blot S), hregs, herr]
  (repeat' split) <;> simp [hregs, herr]

@[simp] theorem Hub.setUnacked_blot {S : List Part} (h : Hub) (hregs : Part.regs ∈ S) :
    h.setUnacked.blot S = h.blot S := by
  unfold Hub.setUnacked
  simp [hregs]

@[simp] theorem Hub.setHandling_blot {S : List Part} (h : Hub) (l : List Handling) (hregs : Part.regs ∈ S) (herr :
    Part.err ∈ S) :
    (h.setHandling l).blot S = h.blot S := by
  unfold Hub.setHandling
  simp [hregs, herr]

@[simp] theorem Hub.expireHandling_blot {S : List Part} (h : Hub) (hregs : Part.regs ∈ S) (herr : Part.err ∈ S) :
    h.expireHandling.blot S = h.blot S := by
  unfold Hub.expireHandling
  simp only []
  (repeat' split) <;> simp [hregs, herr]

@[simp] theorem Hub.entryNow_blot {S : List Part} (h : Hub) (r : Rec) (by_ : Option Recovery) (missed : Bool) (hregs
    : Part.regs ∈ S) (herr : Part.err ∈ S) (hpw : Part.pw ∈ S) :
    (h.entryNow r by_ missed).blot S = h.blot S := by
  unfold Hub.entryNow
  lift_lets
  intro slot isOver h1 _ h2 h3 h4 h5 h6 add h7
  have e1 : h1.blot S = h.blot S := by simp only [h1]; split <;> simp [hregs]
  have e2 : h2.blot S = h.blot S := by rw [← e1]; simp [h2, herr]
  have e4 : h4.blot S = h.blot S := by rw [← e2]; simp [h4, h3, hregs]
  have e5 : h5.blot S = h.blot S := by rw [← e4]; simp only [h5]; split <;> simp [hregs]
  have e6 : h6.blot S = h.blot S := by rw [← e5]; simp only [h6]; split <;> simp [hregs, herr]
  have e7 : h7.blot S = h.blot S := by rw [← e6]; simp only [h7]; split <;> simp [hregs, herr]
  split
  · exact (Hub.err_replaced _ _ herr).trans e7
  · exact e7

@[simp] theorem Hub.entry_blot {S : List Part} (h : Hub) (r : Rec) (by_ : Option Recovery) (missed : Bool) (hregs :
    Part.regs ∈ S) (herr : Part.err ∈ S) (hpw : Part.pw ∈ S) :
    (h.entry r by_ missed).blot S = h.blot S := by
  unfold Hub.entry
  split
  · exact Hub.pw_replaced _ _ hpw
  · exact Hub.entryNow_blot _ _ _ _ hregs herr hpw

@[simp] theorem Hub.log_blot {S : List Part} (h : Hub) (src code sev d0 d1 d2 : Nat) (hregs : Part.regs ∈ S) (herr :
    Part.err ∈ S) (hpw : Part.pw ∈ S) :
    (h.log src code sev d0 d1 d2).blot S = h.blot S := by simp [Hub.log, apply_ite (Hub.blot S), hregs, herr, hpw]

@[simp] theorem Hub.logBy_blot {S : List Part} (h : Hub) (src code sev d0 d1 d2 : Nat) (by_ : Recovery) (hregs :
    Part.regs ∈ S) (herr : Part.err ∈ S) (hpw : Part.pw ∈ S) :
    (h.logBy src code sev d0 d1 d2 by_).blot S = h.blot S := by
  simp [Hub.logBy, apply_ite (Hub.blot S), hregs, herr, hpw]

@[simp] theorem Hub.suppress_blot {S : List Part} (h : Hub) (slot seq : Nat) (hregs : Part.regs ∈ S) (herr :
    Part.err ∈ S) (hpw : Part.pw ∈ S) :
    (h.suppress slot seq).blot S = h.blot S := by
  unfold Hub.suppress
  simp only []
  split
  · split
    · rw [Hub.err_replaced _ _ herr, Hub.bump_blot _ _ hregs]
    · rw [Hub.bump_blot _ _ hregs]
  · rw [Hub.bump_blot _ _ hregs]

@[simp] theorem Hub.logLim_blot {S : List Part} (h : Hub) (src code inst sev d0 d1 d2 : Nat) (hregs : Part.regs ∈ S)
    (herr : Part.err ∈ S) (hpw : Part.pw ∈ S) :
    (h.logLim src code inst sev d0 d1 d2).blot S = h.blot S := by
  unfold Hub.logLim
  simp only []
  (repeat' split) <;> simp [hregs, herr, hpw]

@[simp] theorem Hub.recovered_blot {S : List Part} (h : Hub) (by_ : Recovery) (hregs : Part.regs ∈ S) (herr :
    Part.err ∈ S) :
    (h.recovered by_).blot S = h.blot S := by
  unfold Hub.recovered
  (repeat' split) <;> simp [hregs, herr]

@[simp] theorem Hub.notice_blot {S : List Part} (h : Hub) (src code d0 d1 : Nat) (hregs : Part.regs ∈ S) (herr :
    Part.err ∈ S) :
    (h.notice src code d0 d1).blot S = h.blot S := by
  unfold Hub.notice
  (repeat' split) <;> simp [hregs, herr]


/-! ### Buffer -/

@[simp] theorem Hub.onFab_blot {S : List Part} (h : Hub) (f : FabState → FabState) (hfab : Part.fab ∈ S) :
    (h.onFab f).blot S = h.blot S := by
  unfold Hub.onFab
  try simp only []
  (repeat' split) <;> first
    | rfl
    | simp [hfab]
    | simp [↓Hub.fab_replaced, hfab]
    | (rw [foldl_keeps (Hub.blot S) _ _ _ (fun b a => by simp [↓Hub.fab_replaced, hfab])]; simp
        [↓Hub.fab_replaced, hfab])
    | (rename_i e; have e' := congrArg (fun x => Hub.blot S x.1) e; simp [↓Hub.fab_replaced, hfab] at e'; simp [←
        e', hfab])

@[simp] theorem Hub.freshCells_blot {S : List Part} (h : Hub) (cs : List Nat) (hfab : Part.fab ∈ S) (htun : Part.tun
    ∈ S) :
    (h.freshCells cs).blot S = h.blot S := by
  unfold Hub.freshCells
  simp [Hub.blot, hfab, htun]

@[simp] theorem Hub.freshRange_blot {S : List Part} (h : Hub) (a n : Nat) (hfab : Part.fab ∈ S) (htun : Part.tun ∈ S) :
    (h.freshRange a n).blot S = h.blot S := by
  unfold Hub.freshRange
  simp [Hub.blot, hfab, htun]

@[simp] theorem Hub.store_blot {S : List Part} (h : Hub) (p : Packet) (n : Nat) (a : Acct) (arr : Option Port) (orig
    : Option Nat) (hregs : Part.regs ∈ S) (hfab : Part.fab ∈ S) (htun : Part.tun ∈ S) :
    (h.store p n a arr orig).1.blot S = h.blot S := by
  unfold Hub.store
  simp [hregs, hfab, htun]

@[simp] theorem Hub.correctWord_blot {S : List Part} (h : Hub) (w : Nat) (hregs : Part.regs ∈ S) (herr : Part.err ∈
    S) (hfab : Part.fab ∈ S) (hpw : Part.pw ∈ S) :
    (h.correctWord w).blot S = h.blot S := by
  unfold Hub.correctWord
  simp only []
  (repeat' split) <;> simp [hregs, herr, hfab, hpw]

@[simp] theorem Hub.corrected_blot {S : List Part} (h : Hub) (a n : Nat) (hregs : Part.regs ∈ S) (herr : Part.err ∈
    S) (hfab : Part.fab ∈ S) (hpw : Part.pw ∈ S) :
    (h.corrected a n).blot S = h.blot S := by
  unfold Hub.corrected
  exact foldl_keeps (Hub.blot S) _ _ _ (fun _ _ => by simp [hregs, herr, hfab, hpw])

@[simp] theorem Hub.credit_blot {S : List Part} (h : Hub) (p : Port) (c : Cls) (n : Nat) (hlinks : Part.links ∈ S) :
    (h.credit p c n).blot S = h.blot S := by
  unfold Hub.credit
  simp [hlinks]

@[simp] theorem Hub.freePkt_blot {S : List Part} (h : Hub) (pid : Nat) (hmem : Part.mem ∈ S) (hlinks : Part.links ∈
    S) (hfab : Part.fab ∈ S) :
    (h.freePkt pid).blot S = h.blot S := by
  unfold Hub.freePkt
  simp only []
  split
  · rfl
  · split <;> simp [hmem, hlinks, hfab]

@[simp] theorem Hub.release_blot {S : List Part} (h : Hub) (pid : Nat) (hregs : Part.regs ∈ S) (hmem : Part.mem ∈ S)
    (hlinks : Part.links ∈ S) (hfab : Part.fab ∈ S) :
    (h.release pid).blot S = h.blot S := by
  unfold Hub.release
  (repeat' split) <;> simp [hregs, hmem, hlinks, hfab]

@[simp] theorem Hub.setQueue_blot {S : List Part} (h : Hub) (o q : Nat) (x : Queue) (hfab : Part.fab ∈ S) :
    (h.setQueue o q x).blot S = h.blot S := by
  unfold Hub.setQueue
  simp [hfab]

@[simp] theorem Hub.setSched_blot {S : List Part} (h : Hub) (i : Nat) (x : Sched) (hsch : Part.sch ∈ S) :
    (h.setSched i x).blot S = h.blot S := by
  unfold Hub.setSched
  simp [hsch]

@[simp] theorem Hub.push_blot {S : List Part} (h : Hub) (o q : Nat) (d : Desc) (hfab : Part.fab ∈ S) :
    (h.push o q d).blot S = h.blot S := by
  unfold Hub.push
  simp [hfab]

@[simp] theorem Hub.dropHead_blot {S : List Part} (h : Hub) (o q : Nat) (hfab : Part.fab ∈ S) :
    (h.dropHead o q).blot S = h.blot S := by
  unfold Hub.dropHead
  simp [hfab]

@[simp] theorem Hub.bumpCnt_blot {S : List Part} (h : Hub) (o : Nat) (c : Cls) (cause : Nat) (hfab : Part.fab ∈ S) :
    (h.bumpCnt o c cause).blot S = h.blot S := by
  unfold Hub.bumpCnt
  simp [hfab]

@[simp] theorem Hub.count_blot {S : List Part} (h : Hub) (o q : Nat) (c : Cls) (cause : Nat) (hregs : Part.regs ∈ S)
    (herr : Part.err ∈ S) (hfab : Part.fab ∈ S) (hpw : Part.pw ∈ S) :
    (h.count o q c cause).blot S = h.blot S := by
  unfold Hub.count
  simp only []
  (repeat' split) <;> simp [hregs, herr, hfab, hpw]

@[simp] theorem Hub.discardHead_blot {S : List Part} (h : Hub) (o q cause : Nat) (hregs : Part.regs ∈ S) (hmem :
    Part.mem ∈ S) (hlinks : Part.links ∈ S) (herr : Part.err ∈ S) (hfab : Part.fab ∈ S) (hpw : Part.pw ∈ S) :
    (h.discardHead o q cause).blot S = h.blot S := by
  unfold Hub.discardHead
  try simp only []
  (repeat' split) <;> first
    | rfl
    | simp [hregs, hmem, hlinks, herr, hfab, hpw]
    | simp [↓Hub.regs_replaced, ↓Hub.mem_replaced, ↓Hub.links_replaced, ↓Hub.err_replaced, ↓Hub.fab_replaced,
        ↓Hub.pw_replaced, hregs, hmem, hlinks, herr, hfab, hpw]
    | (rw [foldl_keeps (Hub.blot S) _ _ _ (fun b a => by simp [↓Hub.regs_replaced, ↓Hub.mem_replaced,
        ↓Hub.links_replaced, ↓Hub.err_replaced, ↓Hub.fab_replaced, ↓Hub.pw_replaced, hregs, hmem, hlinks, herr, hfab,
        hpw])]; simp [↓Hub.regs_replaced, ↓Hub.mem_replaced, ↓Hub.links_replaced, ↓Hub.err_replaced,
        ↓Hub.fab_replaced, ↓Hub.pw_replaced, hregs, hmem, hlinks, herr, hfab, hpw])
    | (rename_i e; have e' := congrArg (fun x => Hub.blot S x.1) e; simp [↓Hub.regs_replaced, ↓Hub.mem_replaced,
        ↓Hub.links_replaced, ↓Hub.err_replaced, ↓Hub.fab_replaced, ↓Hub.pw_replaced, hregs, hmem, hlinks, herr, hfab,
        hpw] at e'; simp [← e', hregs, hmem, hlinks, herr, hfab, hpw])

@[simp] theorem Hub.addRef_blot {S : List Part} (h : Hub) (pid : Nat) (hregs : Part.regs ∈ S) (hfab : Part.fab ∈ S) :
    (h.addRef pid).blot S = h.blot S := by
  unfold Hub.addRef
  (repeat' split) <;> simp [hregs, hfab]

@[simp] theorem Hub.setPol_blot {S : List Part} (h : Hub) (n : Nat) (x : Pol) (hfab : Part.fab ∈ S) :
    (h.setPol n x).blot S = h.blot S := by
  unfold Hub.setPol
  simp [hfab]

@[simp] theorem Hub.police_blot {S : List Part} (h : Hub) (n b : Nat) (hfab : Part.fab ∈ S) :
    (h.police n b).1.blot S = h.blot S := by
  unfold Hub.police
  simp only []
  (repeat' split) <;> simp [hfab]

/-- A discard reaches the buffer, the cells' bytes, the credit of the link input, the registers and the log. -/
@[simp] theorem Hub.discardAll_blot {S : List Part} (h : Hub) (o q cause : Nat) (l : List Desc) (hregs : Part.regs ∈ S)
    (hmem : Part.mem ∈ S) (hlinks : Part.links ∈ S) (herr : Part.err ∈ S) (hfab : Part.fab ∈ S) (hpw : Part.pw ∈ S) :
    (h.discardAll o q cause l).blot S = h.blot S := by
  induction l generalizing h with
  | nil => rfl
  | cons d t ih => simp [Hub.discardAll, ih, hregs, hmem, hlinks, herr, hfab, hpw]

@[simp] theorem Hub.purge_blot {S : List Part} (h : Hub) (o q cause : Nat) (f : Packet → Option Nat → Bool)
    (hregs : Part.regs ∈ S) (hmem : Part.mem ∈ S) (hlinks : Part.links ∈ S) (herr : Part.err ∈ S) (hfab : Part.fab ∈ S)
    (hpw : Part.pw ∈ S) : (h.purge o q cause f).blot S = h.blot S := by
  unfold Hub.purge
  simp only []
  split
  · rfl
  · rw [Hub.discardAll_blot _ _ _ _ _ hregs hmem hlinks herr hfab hpw, Hub.setQueue_blot _ _ _ _ hfab]


/-! ### Route -/

@[simp] theorem Hub.setCtx_blot {S : List Part} (h : Hub) (n : Nat) (x : Ctx) (htun : Part.tun ∈ S) :
    (h.setCtx n x).blot S = h.blot S := by
  unfold Hub.setCtx
  simp [htun]

@[simp] theorem Hub.latchEvent_blot {S : List Part} (h : Hub) (b n : Nat) (htun : Part.tun ∈ S) :
    (h.latchEvent b n).blot S = h.blot S := by
  unfold Hub.latchEvent
  simp [htun]

@[simp] theorem Hub.latchAll_blot {S : List Part} (h : Hub) (b : Nat) (htun : Part.tun ∈ S) :
    (h.latchAll b).blot S = h.blot S := by
  unfold Hub.latchAll
  exact foldl_keeps (Hub.blot S) _ _ _ (fun _ _ => by simp [htun])

@[simp] theorem Hub.setFail_blot {S : List Part} (h : Hub) (p : Port) (bad : Bool) (htm : Part.tm ∈ S) :
    (h.setFail p bad).blot S = h.blot S := by
  unfold Hub.setFail
  simp [htm]

@[simp] theorem Hub.portTimeDown_blot {S : List Part} (h : Hub) (p : Port) (hregs : Part.regs ∈ S) (htm : Part.tm ∈ S) :
    (h.portTimeDown p).blot S = h.blot S := by
  unfold Hub.portTimeDown
  (repeat' split) <;> simp [hregs, htm]

@[simp] theorem Hub.lnkLog_blot {S : List Part} (h : Hub) (p : Port) (code sev d0 d2 : Nat) (hregs : Part.regs ∈ S)
    (herr : Part.err ∈ S) (hpw : Part.pw ∈ S) :
    (h.lnkLog p code sev d0 d2).blot S = h.blot S := by simp [Hub.lnkLog, apply_ite (Hub.blot S), hregs, herr, hpw]

@[simp] theorem Hub.countNoRoute_blot {S : List Part} (h : Hub) (p : Port) (dest : Nat) (hregs : Part.regs ∈ S)
    (herr : Part.err ∈ S) (hpw : Part.pw ∈ S) :
    (h.countNoRoute p dest).blot S = h.blot S := by simp [Hub.countNoRoute, apply_ite (Hub.blot S), hregs, herr, hpw]

@[simp] theorem Hub.countWrapDrop_blot {S : List Part} (h : Hub) (p : Port) (dest : Nat) (hregs : Part.regs ∈ S)
    (herr : Part.err ∈ S) (hpw : Part.pw ∈ S) :
    (h.countWrapDrop p dest).blot S = h.blot S := by
  simp [Hub.countWrapDrop, apply_ite (Hub.blot S), hregs, herr, hpw]

@[simp] theorem Hub.winTake_blot {S : List Part} (h : Hub) (n : Nat) (p : Packet) (port : Port) (hregs : Part.regs ∈
    S) (hrt : Part.rt ∈ S) (herr : Part.err ∈ S) (hpw : Part.pw ∈ S) :
    (h.winTake n p port).blot S = h.blot S := by simp [Hub.winTake, apply_ite (Hub.blot S), hregs, hrt, herr, hpw]

@[simp] theorem Hub.tseqTake_blot {S : List Part} (h : Hub) (n dest : Nat) (hrt : Part.rt ∈ S) :
    (h.tseqTake n dest).blot S = h.blot S := by
  unfold Hub.tseqTake
  simp [hrt]

@[simp] theorem Hub.creditBack_blot {S : List Part} (h : Hub) (arr : Option Port) (p : Packet) (hlinks : Part.links
    ∈ S) :
    (h.creditBack arr p).blot S = h.blot S := by
  unfold Hub.creditBack
  (repeat' split) <;> simp [hlinks]

@[simp] theorem Hub.hold_blot {S : List Part} (h : Hub) (a : Nat) (x : HeldPkt) (hregs : Part.regs ∈ S) (hrt :
    Part.rt ∈ S) :
    (h.hold a x).blot S = h.blot S := by
  unfold Hub.hold
  (repeat' split) <;> simp [hregs, hrt]

@[simp] theorem Hub.ownTaken_blot {S : List Part} (h : Hub) (n : Nat) (p : Packet) (hregs : Part.regs ∈ S) (hrt :
    Part.rt ∈ S) (herr : Part.err ∈ S) (hpw : Part.pw ∈ S) :
    (h.ownTaken n p).blot S = h.blot S := by
  unfold Hub.ownTaken
  simp only []
  (repeat' split) <;> first
    | simp [hregs, hrt, herr, hpw]
    | (rw [foldl_keeps (Hub.blot S) _ _ _ (fun b a => by simp [hregs, hrt, herr, hpw])]
       simp [hregs, hrt, herr, hpw])

@[simp] theorem Hub.countHdrErr_blot {S : List Part} (h : Hub) (p : Port) (dest : Nat) (hregs : Part.regs ∈ S) (herr
    : Part.err ∈ S) (hpw : Part.pw ∈ S) :
    (h.countHdrErr p dest).blot S = h.blot S := by
  unfold Hub.countHdrErr
  simp only []
  (repeat' split) <;> simp [hregs, herr, hpw]


/-! ### Buckets -/

@[simp] theorem Hub.refill_blot {S : List Part} (h : Hub) (s : Nat) (hregs : Part.regs ∈ S) (hsch : Part.sch ∈ S) :
    (h.refill s).blot S = h.blot S := by
  unfold Hub.refill
  simp [hregs, hsch]

@[simp] theorem Hub.fillBuckets_blot {S : List Part} (h : Hub) (s : Nat) (hregs : Part.regs ∈ S) (hsch : Part.sch ∈ S) :
    (h.fillBuckets s).blot S = h.blot S := by
  unfold Hub.fillBuckets
  simp [hregs, hsch]


/-! ### Lanes -/

@[simp] theorem Hub.toState_blot {S : List Part} (h : Hub) (p : Port) (st : Nat) (hregs : Part.regs ∈ S) (hlinks :
    Part.links ∈ S) :
    (h.toState p st).blot S = h.blot S := by
  unfold Hub.toState
  simp [hregs, hlinks]

@[simp] theorem Hub.driveLanes_blot {S : List Part} (h : Hub) (t : Tx) (hout : Part.out ∈ S) :
    (h.driveLanes t).blot S = h.blot S := by
  unfold Hub.driveLanes
  (repeat' split) <;> simp [hout]

@[simp] theorem Hub.setRx_blot {S : List Part} (h : Hub) (p : Port) (l v : Nat) (hregs : Part.regs ∈ S) :
    (h.setRx p l v).blot S = h.blot S := by
  unfold Hub.setRx
  simp [hregs]

@[simp] theorem Hub.setTx_blot {S : List Part} (h : Hub) (p : Port) (l v : Nat) (hregs : Part.regs ∈ S) :
    (h.setTx p l v).blot S = h.blot S := by
  unfold Hub.setTx
  simp [hregs]

@[simp] theorem Hub.sendSetReq_blot {S : List Part} (h : Hub) (p : Port) (typ req a0 a1 a2 a3 : Nat) (hout :
    Part.out ∈ S) (hlinks : Part.links ∈ S) :
    (h.sendSetReq p typ req a0 a1 a2 a3).blot S = h.blot S := by
  unfold Hub.sendSetReq
  (repeat' split) <;> simp [hout, hlinks]

@[simp] theorem Hub.sendSet_blot {S : List Part} (h : Hub) (p : Port) (typ a0 a1 a2 a3 : Nat) (hout : Part.out ∈ S)
    (hlinks : Part.links ∈ S) :
    (h.sendSet p typ a0 a1 a2 a3).blot S = h.blot S := by
  unfold Hub.sendSet
  simp [hout, hlinks]

@[simp] theorem Hub.lullExit_blot {S : List Part} (h : Hub) (p : Port) (hregs : Part.regs ∈ S) (hout : Part.out ∈ S)
    (hlinks : Part.links ∈ S) :
    (h.lullExit p).blot S = h.blot S := by
  have sets : ∀ (n : Nat) (g : Hub), (g.sendSets p osTS1 0 0 n).blot S = g.blot S := by
    intro n
    induction n with
    | zero => intro g; rfl
    | succ n ih => intro g; simp [Hub.sendSets, ih, hregs, hout, hlinks]
  unfold Hub.lullExit
  simp only []
  split <;> simp [sets, apply_ite (Hub.blot S), hregs, hout, hlinks]

@[simp] theorem Hub.workSet_blot {S : List Part} (h : Hub) (p : Port) (typ a0 a1 a2 a3 : Nat) (hregs : Part.regs ∈
    S) (hout : Part.out ∈ S) (hlinks : Part.links ∈ S) :
    (h.workSet p typ a0 a1 a2 a3).blot S = h.blot S := by
  unfold Hub.workSet
  try simp only []
  (repeat' split) <;> first
    | rfl
    | simp [hregs, hout, hlinks]
    | simp [↓Hub.regs_replaced, ↓Hub.out_replaced, ↓Hub.links_replaced, hregs, hout, hlinks]
    | (rw [foldl_keeps (Hub.blot S) _ _ _ (fun b a => by simp [↓Hub.regs_replaced, ↓Hub.out_replaced,
        ↓Hub.links_replaced, hregs, hout, hlinks])]; simp [↓Hub.regs_replaced, ↓Hub.out_replaced, ↓Hub.links_replaced,
        hregs, hout, hlinks])
    | (rename_i e; have e' := congrArg (fun x => Hub.blot S x.1) e; simp [↓Hub.regs_replaced, ↓Hub.out_replaced,
        ↓Hub.links_replaced, hregs, hout, hlinks] at e'; simp [← e', hregs, hout, hlinks])

@[simp] theorem Hub.forgetLanes_blot {S : List Part} (h : Hub) (p : Port) (hregs : Part.regs ∈ S) (hlinks :
    Part.links ∈ S) :
    (h.forgetLanes p).blot S = h.blot S := by
  unfold Hub.forgetLanes
  simp only []
  (repeat' split) <;> simp [hregs, hlinks]

@[simp] theorem Hub.untrain_blot {S : List Part} (h : Hub) (p : Port) (hregs : Part.regs ∈ S) (hout : Part.out ∈ S)
    (hlinks : Part.links ∈ S) :
    (h.untrain p).blot S = h.blot S := by
  unfold Hub.untrain
  simp [hregs, hout, hlinks]

@[simp] theorem Hub.endService_blot {S : List Part} (h : Hub) (p : Port) (st : Nat) (hregs : Part.regs ∈ S) (hlinks
    : Part.links ∈ S) (htm : Part.tm ∈ S) (htun : Part.tun ∈ S) :
    (h.endService p st).blot S = h.blot S := by
  unfold Hub.endService
  simp only []
  (repeat' split) <;> simp [hregs, hlinks, htm, htun]

@[simp] theorem Hub.leaveService_blot {S : List Part} (h : Hub) (p : Port) (st : Nat) (hregs : Part.regs ∈ S) (hout
    : Part.out ∈ S) (hlinks : Part.links ∈ S) (htm : Part.tm ∈ S) (htun : Part.tun ∈ S) :
    (h.leaveService p st).blot S = h.blot S := by
  unfold Hub.leaveService
  simp [hregs, hout, hlinks, htm, htun]

@[simp] theorem Hub.retrain_blot {S : List Part} (h : Hub) (p : Port) (hregs : Part.regs ∈ S) (hout : Part.out ∈ S)
    (hlinks : Part.links ∈ S) (htm : Part.tm ∈ S) (htun : Part.tun ∈ S) :
    (h.retrain p).blot S = h.blot S := by
  unfold Hub.retrain
  simp [hregs, hout, hlinks, htm, htun]

@[simp] theorem Hub.seedPattern_blot {S : List Part} (h : Hub) (p : Port) (hlinks : Part.links ∈ S) :
    (h.seedPattern p).blot S = h.blot S := by
  unfold Hub.seedPattern
  simp only []
  (repeat' split) <;> simp [hlinks]

@[simp] theorem Hub.announce_blot {S : List Part} (h : Hub) (p : Port) (l : Layout) (hregs : Part.regs ∈ S) (hout :
    Part.out ∈ S) (hlinks : Part.links ∈ S) :
    (h.announce p l).blot S = h.blot S := by
  unfold Hub.announce
  try simp only []
  (repeat' split) <;> first
    | rfl
    | simp [hregs, hout, hlinks]
    | simp [↓Hub.regs_replaced, ↓Hub.out_replaced, ↓Hub.links_replaced, hregs, hout, hlinks]
    | (rw [foldl_keeps (Hub.blot S) _ _ _ (fun b a => by simp [↓Hub.regs_replaced, ↓Hub.out_replaced,
        ↓Hub.links_replaced, hregs, hout, hlinks])]; simp [↓Hub.regs_replaced, ↓Hub.out_replaced, ↓Hub.links_replaced,
        hregs, hout, hlinks])
    | (rename_i e; have e' := congrArg (fun x => Hub.blot S x.1) e; simp [↓Hub.regs_replaced, ↓Hub.out_replaced,
        ↓Hub.links_replaced, hregs, hout, hlinks] at e'; simp [← e', hregs, hout, hlinks])

@[simp] theorem Hub.sendNar_blot {S : List Part} (h : Hub) (p : Port) (mask width : Nat) (hregs : Part.regs ∈ S)
    (hout : Part.out ∈ S) (hlinks : Part.links ∈ S) :
    (h.sendNar p mask width).blot S = h.blot S := by
  unfold Hub.sendNar
  try simp only []
  (repeat' split) <;> first
    | rfl
    | simp [hregs, hout, hlinks]
    | simp [↓Hub.regs_replaced, ↓Hub.out_replaced, ↓Hub.links_replaced, hregs, hout, hlinks]
    | (rw [foldl_keeps (Hub.blot S) _ _ _ (fun b a => by simp [↓Hub.regs_replaced, ↓Hub.out_replaced,
        ↓Hub.links_replaced, hregs, hout, hlinks])]; simp [↓Hub.regs_replaced, ↓Hub.out_replaced, ↓Hub.links_replaced,
        hregs, hout, hlinks])
    | (rename_i e; have e' := congrArg (fun x => Hub.blot S x.1) e; simp [↓Hub.regs_replaced, ↓Hub.out_replaced,
        ↓Hub.links_replaced, hregs, hout, hlinks] at e'; simp [← e', hregs, hout, hlinks])

@[simp] theorem Hub.giveBack_blot {S : List Part} (h : Hub) (p : Port) (hregs : Part.regs ∈ S) (hout : Part.out ∈ S)
    (hlinks : Part.links ∈ S) (herr : Part.err ∈ S) (hpw : Part.pw ∈ S) :
    (h.giveBack p).blot S = h.blot S := by
  unfold Hub.giveBack
  try simp only []
  (repeat' split) <;> first
    | rfl
    | simp [hregs, hout, hlinks, herr, hpw]
    | simp [↓Hub.regs_replaced, ↓Hub.out_replaced, ↓Hub.links_replaced, ↓Hub.err_replaced, ↓Hub.pw_replaced,
        hregs, hout, hlinks, herr, hpw]
    | (rw [foldl_keeps (Hub.blot S) _ _ _ (fun b a => by simp [↓Hub.regs_replaced, ↓Hub.out_replaced,
        ↓Hub.links_replaced, ↓Hub.err_replaced, ↓Hub.pw_replaced, hregs, hout, hlinks, herr, hpw])]; simp
        [↓Hub.regs_replaced, ↓Hub.out_replaced, ↓Hub.links_replaced, ↓Hub.err_replaced, ↓Hub.pw_replaced, hregs, hout,
        hlinks, herr, hpw])
    | (rename_i e; have e' := congrArg (fun x => Hub.blot S x.1) e; simp [↓Hub.regs_replaced, ↓Hub.out_replaced,
        ↓Hub.links_replaced, ↓Hub.err_replaced, ↓Hub.pw_replaced, hregs, hout, hlinks, herr, hpw] at e'; simp [← e',
        hregs, hout, hlinks, herr, hpw])

@[simp] theorem Hub.laneFailed_blot {S : List Part} (h : Hub) (p : Port) (l : Nat) (why : LaneFault) (loop : Bool)
    (hregs : Part.regs ∈ S) (hout : Part.out ∈ S) (hlinks : Part.links ∈ S) (herr : Part.err ∈ S) (hpw : Part.pw ∈ S) :
    (h.laneFailed p l why loop).blot S = h.blot S := by
  unfold Hub.laneFailed
  try simp only []
  (repeat' split) <;> first
    | rfl
    | simp [hregs, hout, hlinks, herr, hpw]
    | simp [↓Hub.regs_replaced, ↓Hub.out_replaced, ↓Hub.links_replaced, ↓Hub.err_replaced, ↓Hub.pw_replaced,
        hregs, hout, hlinks, herr, hpw]
    | (rw [foldl_keeps (Hub.blot S) _ _ _ (fun b a => by simp [↓Hub.regs_replaced, ↓Hub.out_replaced,
        ↓Hub.links_replaced, ↓Hub.err_replaced, ↓Hub.pw_replaced, hregs, hout, hlinks, herr, hpw])]; simp
        [↓Hub.regs_replaced, ↓Hub.out_replaced, ↓Hub.links_replaced, ↓Hub.err_replaced, ↓Hub.pw_replaced, hregs, hout,
        hlinks, herr, hpw])
    | (rename_i e; have e' := congrArg (fun x => Hub.blot S x.1) e; simp [↓Hub.regs_replaced, ↓Hub.out_replaced,
        ↓Hub.links_replaced, ↓Hub.err_replaced, ↓Hub.pw_replaced, hregs, hout, hlinks, herr, hpw] at e'; simp [← e',
        hregs, hout, hlinks, herr, hpw])

@[simp] theorem Hub.eqTrained_blot {S : List Part} (h : Hub) (p : Port) (hregs : Part.regs ∈ S) (hlinks : Part.links
    ∈ S) :
    (h.eqTrained p).blot S = h.blot S := by
  unfold Hub.eqTrained
  try simp only []
  (repeat' split) <;> first
    | rfl
    | simp [hregs, hlinks]
    | simp [↓Hub.regs_replaced, ↓Hub.links_replaced, hregs, hlinks]
    | (rw [foldl_keeps (Hub.blot S) _ _ _ (fun b a => by simp [↓Hub.regs_replaced, ↓Hub.links_replaced, hregs,
        hlinks])]; simp [↓Hub.regs_replaced, ↓Hub.links_replaced, hregs, hlinks])
    | (rename_i e; have e' := congrArg (fun x => Hub.blot S x.1) e; simp [↓Hub.regs_replaced, ↓Hub.links_replaced,
        hregs, hlinks] at e'; simp [← e', hregs, hlinks])

@[simp] theorem Hub.lanesInService_blot {S : List Part} (h : Hub) (p : Port) (hregs : Part.regs ∈ S) (hout :
    Part.out ∈ S) (hlinks : Part.links ∈ S) :
    (h.lanesInService p).blot S = h.blot S := by
  unfold Hub.lanesInService
  simp only []
  split <;> simp [hregs, hout, hlinks, apply_ite (Hub.blot S)]

@[simp] theorem Hub.startSession_blot {S : List Part} (h : Hub) (p : Port) (hregs : Part.regs ∈ S) (hlinks :
    Part.links ∈ S) :
    (h.startSession p).blot S = h.blot S := by
  unfold Hub.startSession
  simp [hregs, hlinks]

@[simp] theorem Hub.enterActive_blot {S : List Part} (h : Hub) (p : Port) (hregs : Part.regs ∈ S) (hout : Part.out ∈
    S) (hlinks : Part.links ∈ S) (hsch : Part.sch ∈ S) :
    (h.enterActive p).blot S = h.blot S := by
  unfold Hub.enterActive
  try simp only []
  (repeat' split) <;> first
    | rfl
    | simp [hregs, hout, hlinks, hsch]
    | simp [↓Hub.regs_replaced, ↓Hub.out_replaced, ↓Hub.links_replaced, ↓Hub.sch_replaced, hregs, hout, hlinks, hsch]
    | (rw [foldl_keeps (Hub.blot S) _ _ _ (fun b a => by simp [↓Hub.regs_replaced, ↓Hub.out_replaced,
        ↓Hub.links_replaced, ↓Hub.sch_replaced, hregs, hout, hlinks, hsch])]; simp [↓Hub.regs_replaced,
        ↓Hub.out_replaced, ↓Hub.links_replaced, ↓Hub.sch_replaced, hregs, hout, hlinks, hsch])
    | (rename_i e; have e' := congrArg (fun x => Hub.blot S x.1) e; simp [↓Hub.regs_replaced, ↓Hub.out_replaced,
        ↓Hub.links_replaced, ↓Hub.sch_replaced, hregs, hout, hlinks, hsch] at e'; simp [← e', hregs, hout, hlinks,
        hsch])

@[simp] theorem Hub.stepOver_blot {S : List Part} (h : Hub) (p : Port) (hlinks : Part.links ∈ S) :
    (h.stepOver p).blot S = h.blot S := by
  unfold Hub.stepOver
  simp [hlinks]

@[simp] theorem Hub.stepFailed_blot {S : List Part} (h : Hub) (p : Port) (hregs : Part.regs ∈ S) (hout : Part.out ∈
    S) (hlinks : Part.links ∈ S) (hsch : Part.sch ∈ S) :
    (h.stepFailed p).blot S = h.blot S := by
  unfold Hub.stepFailed
  simp only []
  (repeat' split) <;> simp [hregs, hout, hlinks, hsch, apply_ite (Hub.blot S)]

@[simp] theorem Hub.loopEnd_blot {S : List Part} (h : Hub) (p : Port) (hregs : Part.regs ∈ S) (hout : Part.out ∈ S)
    (hlinks : Part.links ∈ S) (htm : Part.tm ∈ S) (htun : Part.tun ∈ S) :
    (h.loopEnd p).blot S = h.blot S := by
  unfold Hub.loopEnd
  simp only []
  (repeat' split) <;> simp [hregs, hout, hlinks, htm, htun]

@[simp] theorem Hub.withdrawReturn_blot {S : List Part} (h : Hub) (p : Port) (hregs : Part.regs ∈ S) (hout :
    Part.out ∈ S) (hlinks : Part.links ∈ S) :
    (h.withdrawReturn p).blot S = h.blot S := by
  unfold Hub.withdrawReturn
  try simp only []
  (repeat' split) <;> first
    | rfl
    | simp [hregs, hout, hlinks]
    | simp [↓Hub.regs_replaced, ↓Hub.out_replaced, ↓Hub.links_replaced, hregs, hout, hlinks]
    | (rw [foldl_keeps (Hub.blot S) _ _ _ (fun b a => by simp [↓Hub.regs_replaced, ↓Hub.out_replaced,
        ↓Hub.links_replaced, hregs, hout, hlinks])]; simp [↓Hub.regs_replaced, ↓Hub.out_replaced, ↓Hub.links_replaced,
        hregs, hout, hlinks])
    | (rename_i e; have e' := congrArg (fun x => Hub.blot S x.1) e; simp [↓Hub.regs_replaced, ↓Hub.out_replaced,
        ↓Hub.links_replaced, hregs, hout, hlinks] at e'; simp [← e', hregs, hout, hlinks])


/-! ### LinkPackets -/

@[simp] theorem Hub.sendLc_blot {S : List Part} (h : Hub) (p : Port) (w : Word) (hregs : Part.regs ∈ S) (hout :
    Part.out ∈ S) (hlinks : Part.links ∈ S) :
    (h.sendLc p w).blot S = h.blot S := by
  unfold Hub.sendLc
  try simp only []
  (repeat' split) <;> first
    | rfl
    | simp [hregs, hout, hlinks]
    | simp [↓Hub.regs_replaced, ↓Hub.out_replaced, ↓Hub.links_replaced, hregs, hout, hlinks]
    | (rw [foldl_keeps (Hub.blot S) _ _ _ (fun b a => by simp [↓Hub.regs_replaced, ↓Hub.out_replaced,
        ↓Hub.links_replaced, hregs, hout, hlinks])]; simp [↓Hub.regs_replaced, ↓Hub.out_replaced, ↓Hub.links_replaced,
        hregs, hout, hlinks])
    | (rename_i e; have e' := congrArg (fun x => Hub.blot S x.1) e; simp [↓Hub.regs_replaced, ↓Hub.out_replaced,
        ↓Hub.links_replaced, hregs, hout, hlinks] at e'; simp [← e', hregs, hout, hlinks])

@[simp] theorem Hub.ackNow_blot {S : List Part} (h : Hub) (p : Port) (hregs : Part.regs ∈ S) (hout : Part.out ∈ S)
    (hlinks : Part.links ∈ S) :
    (h.ackNow p).blot S = h.blot S := by
  unfold Hub.ackNow
  try simp only []
  (repeat' split) <;> first
    | rfl
    | simp [hregs, hout, hlinks]
    | simp [↓Hub.regs_replaced, ↓Hub.out_replaced, ↓Hub.links_replaced, hregs, hout, hlinks]
    | (rw [foldl_keeps (Hub.blot S) _ _ _ (fun b a => by simp [↓Hub.regs_replaced, ↓Hub.out_replaced,
        ↓Hub.links_replaced, hregs, hout, hlinks])]; simp [↓Hub.regs_replaced, ↓Hub.out_replaced, ↓Hub.links_replaced,
        hregs, hout, hlinks])
    | (rename_i e; have e' := congrArg (fun x => Hub.blot S x.1) e; simp [↓Hub.regs_replaced, ↓Hub.out_replaced,
        ↓Hub.links_replaced, hregs, hout, hlinks] at e'; simp [← e', hregs, hout, hlinks])

@[simp] theorem Hub.useCredit_blot {S : List Part} (h : Hub) (p : Port) (q : Packet) (hlinks : Part.links ∈ S) :
    (h.useCredit p q).blot S = h.blot S := by
  unfold Hub.useCredit
  simp [hlinks]


/-! ### Fabric -/

@[simp] theorem Hub.poisonWire_blot {S : List Part} (h : Hub) (p : Port) (w : OnWire) (hregs : Part.regs ∈ S) (hout
    : Part.out ∈ S) (hlinks : Part.links ∈ S) :
    (h.poisonWire p w).blot S = h.blot S := by
  unfold Hub.poisonWire
  (repeat' split) <;> simp [hregs, hout, hlinks]

@[simp] theorem Hub.cutOff_blot {S : List Part} (h : Hub) (o q cause : Nat) (hregs : Part.regs ∈ S) (hout : Part.out
    ∈ S) (hlinks : Part.links ∈ S) (herr : Part.err ∈ S) (hfab : Part.fab ∈ S) (hpw : Part.pw ∈ S) :
    (h.cutOff o q cause).blot S = h.blot S := by
  unfold Hub.cutOff
  simp only []
  (repeat' split) <;> simp [hregs, hout, hlinks, herr, hfab, hpw]

@[simp] theorem Hub.startSparge_blot {S : List Part} (h : Hub) (s : Sparge) (hregs : Part.regs ∈ S) (hfab : Part.fab
    ∈ S) :
    (h.startSparge s).blot S = h.blot S := by
  unfold Hub.startSparge
  simp [hregs, hfab]

@[simp] theorem Hub.impliedSparge_blot {S : List Part} (h : Hub) (tid : Nat) (bind : Option BindChange) (hregs :
    Part.regs ∈ S) (hfab : Part.fab ∈ S) :
    (h.impliedSparge tid bind).blot S = h.blot S := by
  unfold Hub.impliedSparge
  (repeat' split) <;> simp [hregs, hfab]

@[simp] theorem Hub.spargeGo_blot {S : List Part} (h : Hub) (tid : Nat) (hregs : Part.regs ∈ S) (hfab : Part.fab ∈ S) :
    (h.spargeGo tid).blot S = h.blot S := by
  unfold Hub.spargeGo
  simp only []
  (repeat' split) <;> simp [hregs, hfab]

@[simp] theorem Hub.forgetTunnel_blot {S : List Part} (h : Hub) (n : Nat) (hrt : Part.rt ∈ S) :
    (h.forgetTunnel n).blot S = h.blot S := by
  unfold Hub.forgetTunnel
  simp [hrt]

@[simp] theorem Hub.bindStart_blot {S : List Part} (h : Hub) (n b : Nat) (hrt : Part.rt ∈ S) (hfab : Part.fab ∈ S) :
    (h.bindStart n b).blot S = h.blot S := by
  unfold Hub.bindStart
  simp only []
  (repeat' split) <;> simp [hrt, hfab]

@[simp] theorem Hub.polWrite_blot {S : List Part} (h : Hub) (n reg v : Nat) (hregs : Part.regs ∈ S) (hfab : Part.fab
    ∈ S) :
    (h.polWrite n reg v).blot S = h.blot S := by
  unfold Hub.polWrite
  simp only []
  (repeat' split) <;> simp [hregs, hfab]


/-! ### Scheduling -/

@[simp] theorem Hub.endWire_blot {S : List Part} (h : Hub) (s : Nat) (hregs : Part.regs ∈ S) (hlinks : Part.links ∈
    S) (hfab : Part.fab ∈ S) :
    (h.endWire s).blot S = h.blot S := by
  unfold Hub.endWire
  simp only []
  (repeat' split) <;> simp [hregs, hlinks, hfab]

@[simp] theorem Hub.schArm_blot {S : List Part} (h : Hub) (hregs : Part.regs ∈ S) :
    h.schArm.blot S = h.blot S := by
  unfold Hub.schArm
  (repeat' split) <;> simp [hregs]

@[simp] theorem Hub.schDisarm_blot {S : List Part} (h : Hub) (hregs : Part.regs ∈ S) :
    h.schDisarm.blot S = h.blot S := by
  unfold Hub.schDisarm
  (repeat' split) <;> simp [hregs]

@[simp] theorem Hub.qmonRead_blot {S : List Part} (h : Hub) (depth mean : Bool) (hsch : Part.sch ∈ S) :
    (h.qmonRead depth mean).blot S = h.blot S := by
  unfold Hub.qmonRead
  (repeat' split) <;> simp [hsch]


/-! ### EthLink -/

@[simp] theorem Hub.setEthPort_blot {S : List Part} (h : Hub) (x : Nat) (v : EthPort) (heth : Part.eth ∈ S) :
    (h.setEthPort x v).blot S = h.blot S := by
  unfold Hub.setEthPort
  simp [heth]

@[simp] theorem Hub.ethNotice_blot {S : List Part} (h : Hub) (x : Nat) (hregs : Part.regs ∈ S) (herr : Part.err ∈ S) :
    (h.ethNotice x).blot S = h.blot S := by
  unfold Hub.ethNotice
  (repeat' split) <;> simp [hregs, herr]

@[simp] theorem Hub.ethDown_blot {S : List Part} (h : Hub) (x : Nat) (hregs : Part.regs ∈ S) (herr : Part.err ∈ S)
    (heth : Part.eth ∈ S) :
    (h.ethDown x).blot S = h.blot S := by
  unfold Hub.ethDown
  simp only []
  (repeat' split) <;> simp [hregs, herr, heth]

@[simp] theorem Hub.ethRestart_blot {S : List Part} (h : Hub) (x : Nat) (hregs : Part.regs ∈ S) (hout : Part.out ∈
    S) (herr : Part.err ∈ S) (heth : Part.eth ∈ S) :
    (h.ethRestart x).blot S = h.blot S := by
  unfold Hub.ethRestart
  simp only []
  (repeat' split) <;> simp [hregs, hout, herr, heth]

@[simp] theorem Hub.ethAllDown_blot {S : List Part} (h : Hub) (hregs : Part.regs ∈ S) (herr : Part.err ∈ S) (heth :
    Part.eth ∈ S) :
    h.ethAllDown.blot S = h.blot S := by simp [Hub.ethAllDown, apply_ite (Hub.blot S), hregs, herr, heth]

@[simp] theorem Hub.ballsAtRest_blot {S : List Part} (h : Hub) (hout : Part.out ∈ S) :
    h.ballsAtRest.blot S = h.blot S := by simp [Hub.ballsAtRest, Port.all, hout]

@[simp] theorem Hub.lvdsShow_blot {S : List Part} (h : Hub) (i : Nat) (hout : Part.out ∈ S) :
    (h.lvdsShow i).blot S = h.blot S := by
  unfold Hub.lvdsShow
  simp [hout]


/-! ### Clock -/

@[simp] theorem Hub.setClk_blot {S : List Part} (h : Hub) (mode sel : Nat) (hregs : Part.regs ∈ S) :
    (h.setClk mode sel).blot S = h.blot S := by
  unfold Hub.setClk
  simp [hregs]

@[simp] theorem Hub.evoRefresh_blot {S : List Part} (h : Hub) (n : Nat) (hregs : Part.regs ∈ S) (hout : Part.out ∈ S) :
    (h.evoRefresh n).blot S = h.blot S := by
  unfold Hub.evoRefresh
  simp only []
  (repeat' split) <;> simp [hregs, hout]

@[simp] theorem Hub.evoShow_blot {S : List Part} (h : Hub) (hout : Part.out ∈ S) :
    h.evoShow.blot S = h.blot S := by
  unfold Hub.evoShow
  exact foldl_keeps (Hub.blot S) _ _ _ (fun _ _ => by simp [hout])

@[simp] theorem Hub.setEvo_blot {S : List Part} (h : Hub) (n : Nat) (x : Evo) (hregs : Part.regs ∈ S) (hout :
    Part.out ∈ S) (htm : Part.tm ∈ S) :
    (h.setEvo n x).blot S = h.blot S := by
  unfold Hub.setEvo
  simp only []
  (repeat' split) <;> simp [hregs, hout, htm]

@[simp] theorem Hub.refreshQuality_blot {S : List Part} (h : Hub) (hregs : Part.regs ∈ S) (hout : Part.out ∈ S)
    (htun : Part.tun ∈ S) :
    h.refreshQuality.blot S = h.blot S := by
  unfold Hub.refreshQuality
  try simp only []
  (repeat' split) <;> first
    | rfl
    | simp [hregs, hout, htun]
    | simp [↓Hub.regs_replaced, ↓Hub.out_replaced, ↓Hub.tun_replaced, hregs, hout, htun]
    | (rw [foldl_keeps (Hub.blot S) _ _ _ (fun b a => by simp [↓Hub.regs_replaced, ↓Hub.out_replaced,
        ↓Hub.tun_replaced, hregs, hout, htun])]; simp [↓Hub.regs_replaced, ↓Hub.out_replaced, ↓Hub.tun_replaced,
        hregs, hout, htun])
    | (rename_i e; have e' := congrArg (fun x => Hub.blot S x.1) e; simp [↓Hub.regs_replaced, ↓Hub.out_replaced,
        ↓Hub.tun_replaced, hregs, hout, htun] at e'; simp [← e', hregs, hout, htun])

@[simp] theorem Hub.setMemory_blot {S : List Part} (h : Hub) (c : Nat) (htm : Part.tm ∈ S) :
    (h.setMemory c).blot S = h.blot S := by
  unfold Hub.setMemory
  simp [htm]

@[simp] theorem Hub.updateMemory_blot {S : List Part} (h : Hub) (htm : Part.tm ∈ S) :
    h.updateMemory.blot S = h.blot S := by
  unfold Hub.updateMemory
  simp only []
  (repeat' split) <;> simp [htm]

@[simp] theorem Hub.enterRing_blot {S : List Part} (h : Hub) (p : Port) (hregs : Part.regs ∈ S) (hout : Part.out ∈
    S) (htm : Part.tm ∈ S) (htun : Part.tun ∈ S) :
    (h.enterRing p).blot S = h.blot S := by
  unfold Hub.enterRing
  simp only []
  (repeat' split) <;> simp [hregs, hout, htm, htun]

@[simp] theorem Hub.portSend_blot {S : List Part} (h : Hub) (p : Port) (k : Packet) (hregs : Part.regs ∈ S) (hout :
    Part.out ∈ S) (hlinks : Part.links ∈ S) (hfab : Part.fab ∈ S) :
    (h.portSend p k).blot S = h.blot S := by
  unfold Hub.portSend
  simp [hregs, hout, hlinks, hfab]

@[simp] theorem Hub.sendProbe_blot {S : List Part} (h : Hub) (p : Port) (recheck : Bool) (hregs : Part.regs ∈ S)
    (hout : Part.out ∈ S) (hlinks : Part.links ∈ S) (hfab : Part.fab ∈ S) (htm : Part.tm ∈ S) :
    (h.sendProbe p recheck).blot S = h.blot S := by
  unfold Hub.sendProbe
  simp only []
  (repeat' split) <;> simp [hregs, hout, hlinks, hfab, htm]

@[simp] theorem Hub.calStart_blot {S : List Part} (h : Hub) (p : Port) (htm : Part.tm ∈ S) :
    (h.calStart p).blot S = h.blot S := by
  unfold Hub.calStart
  simp [htm]

@[simp] theorem Hub.takeOwn_blot {S : List Part} (h : Hub) (p : Port) (x : PortPkt) (hlinks : Part.links ∈ S) :
    (h.takeOwn p x).blot S = h.blot S := by
  unfold Hub.takeOwn
  simp [hlinks]

@[simp] theorem Hub.setPin_blot {S : List Part} (h : Hub) (n : Nat) (x : EviPin) (htm : Part.tm ∈ S) :
    (h.setPin n x).blot S = h.blot S := by
  unfold Hub.setPin
  simp [htm]

@[simp] theorem Hub.evoHalt_blot {S : List Part} (h : Hub) (n : Nat) (hregs : Part.regs ∈ S) (hout : Part.out ∈ S)
    (htm : Part.tm ∈ S) :
    (h.evoHalt n).blot S = h.blot S := by simp [Hub.evoHalt, apply_ite (Hub.blot S), hregs, hout, htm]


/-! ### Access -/

@[simp] theorem Hub.deny_blot {S : List Part} (h : Hub) (cls a info : Nat) (hregs : Part.regs ∈ S) (herr : Part.err
    ∈ S) (hpw : Part.pw ∈ S) :
    (h.deny cls a info).blot S = h.blot S := by
  unfold Hub.deny
  simp only []
  (repeat' split) <;> simp [hregs, herr, hpw]

@[simp] theorem Hub.onAcc_blot {S : List Part} (h : Hub) (f : AccState → AccState) (hacc : Part.acc ∈ S) :
    (h.onAcc f).blot S = h.blot S := by
  unfold Hub.onAcc
  try simp only []
  (repeat' split) <;> first
    | rfl
    | simp [hacc]
    | simp [↓Hub.acc_replaced, hacc]
    | (rw [foldl_keeps (Hub.blot S) _ _ _ (fun b a => by simp [↓Hub.acc_replaced, hacc])]; simp
        [↓Hub.acc_replaced, hacc])
    | (rename_i e; have e' := congrArg (fun x => Hub.blot S x.1) e; simp [↓Hub.acc_replaced, hacc] at e'; simp [←
        e', hacc])

@[simp] theorem Hub.holdMark_blot {S : List Part} (h : Hub) (hregs : Part.regs ∈ S) (hacc : Part.acc ∈ S) :
    h.holdMark.blot S = h.blot S := by
  unfold Hub.holdMark
  try simp only []
  (repeat' split) <;> first
    | rfl
    | simp [hregs, hacc]
    | simp [↓Hub.regs_replaced, ↓Hub.acc_replaced, hregs, hacc]
    | (rw [foldl_keeps (Hub.blot S) _ _ _ (fun b a => by simp [↓Hub.regs_replaced, ↓Hub.acc_replaced, hregs,
        hacc])]; simp [↓Hub.regs_replaced, ↓Hub.acc_replaced, hregs, hacc])
    | (rename_i e; have e' := congrArg (fun x => Hub.blot S x.1) e; simp [↓Hub.regs_replaced, ↓Hub.acc_replaced,
        hregs, hacc] at e'; simp [← e', hregs, hacc])

@[simp] theorem Hub.access_blot {S : List Part} (h : Hub) (cls : Nat) (k : AccKind) (a : Nat) (hregs : Part.regs ∈
    S) (herr : Part.err ∈ S) (hacc : Part.acc ∈ S) (hpw : Part.pw ∈ S) :
    (h.access cls k a).1.blot S = h.blot S := by
  unfold Hub.access
  try simp only []
  (repeat' split) <;> first
    | rfl
    | simp [hregs, herr, hacc, hpw]
    | simp [↓Hub.regs_replaced, ↓Hub.err_replaced, ↓Hub.acc_replaced, ↓Hub.pw_replaced, hregs, herr, hacc, hpw]
    | (rw [foldl_keeps (Hub.blot S) _ _ _ (fun b a => by simp [↓Hub.regs_replaced, ↓Hub.err_replaced,
        ↓Hub.acc_replaced, ↓Hub.pw_replaced, hregs, herr, hacc, hpw])]; simp [↓Hub.regs_replaced, ↓Hub.err_replaced,
        ↓Hub.acc_replaced, ↓Hub.pw_replaced, hregs, herr, hacc, hpw])
    | (rename_i e; have e' := congrArg (fun x => Hub.blot S x.1) e; simp [↓Hub.regs_replaced, ↓Hub.err_replaced,
        ↓Hub.acc_replaced, ↓Hub.pw_replaced, hregs, herr, hacc, hpw] at e'; simp [← e', hregs, herr, hacc, hpw])

@[simp] theorem Hub.busPoke_blot {S : List Part} (h : Hub) (a : Nat) (b : Byte) (hregs : Part.regs ∈ S) (hmem :
    Part.mem ∈ S) (hfab : Part.fab ∈ S) :
    (h.busPoke a b).blot S = h.blot S := by
  unfold Hub.busPoke
  simp only []
  (repeat' split) <;> simp [hregs, hmem, hfab]

@[simp] theorem Hub.busWrite_blot {S : List Part} (h : Hub) (a : Nat) (b : Byte) (hregs : Part.regs ∈ S) (hmem :
    Part.mem ∈ S) (hfab : Part.fab ∈ S) (hacc : Part.acc ∈ S) :
    (h.busWrite a b).blot S = h.blot S := by
  unfold Hub.busWrite
  simp only []
  (repeat' split) <;> simp [hregs, hmem, hfab, hacc]

@[simp] theorem Hub.releaseWrites_blot {S : List Part} (h : Hub) (hregs : Part.regs ∈ S) (hmem : Part.mem ∈ S) (hfab
    : Part.fab ∈ S) (hacc : Part.acc ∈ S) :
    h.releaseWrites.blot S = h.blot S := by
  unfold Hub.releaseWrites
  simp only []
  (repeat' split) <;> first
    | simp [hregs, hmem, hfab, hacc]
    | (rw [foldl_keeps (Hub.blot S) _ _ _ (fun b a => by simp [hregs, hmem, hfab, hacc])]
       simp [hregs, hmem, hfab, hacc])

@[simp] theorem Hub.accBad_blot {S : List Part} (h : Hub) (hregs : Part.regs ∈ S) :
    h.accBad.blot S = h.blot S := by
  unfold Hub.accBad
  simp [hregs]

@[simp] theorem Hub.accApply_blot {S : List Part} (h : Hub) (a v : Nat) (hregs : Part.regs ∈ S) (hacc : Part.acc ∈ S) :
    (h.accApply a v).blot S = h.blot S := by
  unfold Hub.accApply
  simp [↓Hub.regs_replaced, ↓Hub.acc_replaced, hregs, hacc]
  try ((repeat' split) <;> simp [↓Hub.regs_replaced, ↓Hub.acc_replaced, hregs, hacc])

@[simp] theorem Hub.accEntryWrite_blot {S : List Part} (h : Hub) (i v : Nat) (hregs : Part.regs ∈ S) (hacc :
    Part.acc ∈ S) :
    (h.accEntryWrite i v).blot S = h.blot S := by
  unfold Hub.accEntryWrite
  simp only []
  (repeat' split) <;> simp [hregs, hacc]


/-! ### Tun -/

@[simp] theorem Hub.setCtxState_blot {S : List Part} (h : Hub) (n st : Nat) (hregs : Part.regs ∈ S) :
    (h.setCtxState n st).blot S = h.blot S := by
  unfold Hub.setCtxState
  simp [hregs]

@[simp] theorem Hub.bindFields_blot {S : List Part} (h : Hub) (n b : Nat) (hregs : Part.regs ∈ S) :
    (h.bindFields n b).blot S = h.blot S := by
  unfold Hub.bindFields
  simp only []
  (repeat' split) <;> simp [hregs]

@[simp] theorem Hub.dropHeld_blot {S : List Part} (h : Hub) (n : Nat) (x : Held) (hregs : Part.regs ∈ S) (hmem :
    Part.mem ∈ S) (hlinks : Part.links ∈ S) (herr : Part.err ∈ S) (hfab : Part.fab ∈ S) (hpw : Part.pw ∈ S) :
    (h.dropHeld n x).blot S = h.blot S := by
  unfold Hub.dropHeld
  simp only []
  (repeat' split) <;> simp [hregs, hmem, hlinks, herr, hfab, hpw]

@[simp] theorem Hub.dropAllHeld_blot {S : List Part} (h : Hub) (n : Nat) (hregs : Part.regs ∈ S) (hmem : Part.mem ∈
    S) (hlinks : Part.links ∈ S) (herr : Part.err ∈ S) (hfab : Part.fab ∈ S) (htun : Part.tun ∈ S) (hpw : Part.pw ∈ S) :
    (h.dropAllHeld n).blot S = h.blot S := by
  unfold Hub.dropAllHeld
  simp only []
  rw [foldl_keeps (Hub.blot S) _ _ _ (fun _ _ => by simp [hregs, hmem, hlinks, herr, hfab, htun, hpw]),
      Hub.setCtx_blot _ _ _ htun]

@[simp] theorem Hub.leaveWin_blot {S : List Part} (h : Hub) (n : Nat) (htun : Part.tun ∈ S) :
    (h.leaveWin n).blot S = h.blot S := by
  unfold Hub.leaveWin
  simp only []
  (repeat' split) <;> simp [htun]

@[simp] theorem Hub.orphanOps_blot {S : List Part} (h : Hub) (n : Nat) (htun : Part.tun ∈ S) :
    (h.orphanOps n).blot S = h.blot S := by
  unfold Hub.orphanOps
  simp [htun]

@[simp] theorem Hub.trap_blot {S : List Part} (h : Hub) (n cause pc addr : Nat) (hregs : Part.regs ∈ S) (hmem :
    Part.mem ∈ S) (hlinks : Part.links ∈ S) (herr : Part.err ∈ S) (hfab : Part.fab ∈ S) (htun : Part.tun ∈ S) (hpw :
    Part.pw ∈ S) :
    (h.trap n cause pc addr).blot S = h.blot S := by
  unfold Hub.trap
  simp only []
  (repeat' split) <;> simp [hregs, hmem, hlinks, herr, hfab, htun, hpw]

@[simp] theorem Hub.emptyCtx_blot {S : List Part} (h : Hub) (n : Nat) (hregs : Part.regs ∈ S) (htun : Part.tun ∈ S) :
    (h.emptyCtx n).blot S = h.blot S := by
  unfold Hub.emptyCtx
  simp [hregs, htun]

@[simp] theorem Hub.stopCtx_blot {S : List Part} (h : Hub) (n : Nat) (hregs : Part.regs ∈ S) (hmem : Part.mem ∈ S)
    (hlinks : Part.links ∈ S) (herr : Part.err ∈ S) (hfab : Part.fab ∈ S) (htun : Part.tun ∈ S) (hpw : Part.pw ∈ S) :
    (h.stopCtx n).blot S = h.blot S := by
  unfold Hub.stopCtx
  simp only []
  (repeat' split) <;> simp [hregs, hmem, hlinks, herr, hfab, htun, hpw]

@[simp] theorem Hub.pitchResult_blot {S : List Part} (h : Hub) (n r : Nat) (hregs : Part.regs ∈ S) :
    (h.pitchResult n r).blot S = h.blot S := by
  unfold Hub.pitchResult
  simp [hregs]

@[simp] theorem Hub.markFailed_blot {S : List Part} (h : Hub) (t : Nat) (hregs : Part.regs ∈ S) :
    (h.markFailed t).blot S = h.blot S := by
  unfold Hub.markFailed
  simp [hregs]


/-! ### Operands -/

@[simp] theorem Hub.setGpr_blot {S : List Part} (h : Hub) (n r : Nat) (v : Word) (htun : Part.tun ∈ S) :
    (h.setGpr n r v).blot S = h.blot S := by
  unfold Hub.setGpr
  simp [htun]

@[simp] theorem Hub.goTo_blot {S : List Part} (h : Hub) (n target : Nat) (link : Bool) (hregs : Part.regs ∈ S) (hmem
    : Part.mem ∈ S) (hlinks : Part.links ∈ S) (herr : Part.err ∈ S) (hfab : Part.fab ∈ S) (htun : Part.tun ∈ S) (hpw :
    Part.pw ∈ S) :
    (h.goTo n target link).blot S = h.blot S := by
  unfold Hub.goTo
  simp only []
  (repeat' split) <;> simp [hregs, hmem, hlinks, herr, hfab, htun, hpw]


/-! ### Adapters -/

@[simp] theorem Hub.epPop_blot {S : List Part} (h : Hub) (o n : Nat) (hregs : Part.regs ∈ S) (hfab : Part.fab ∈ S)
    (htun : Part.tun ∈ S) :
    (h.epPop o n).blot S = h.blot S := by
  unfold Hub.epPop
  (repeat' split) <;> simp [hregs, hfab, htun]


/-! ### Display -/

@[simp] theorem Hub.setDsp_blot {S : List Part} (h : Hub) (i : Nat) (x : DspHead) (hdsp0 : Part.dsp0 ∈ S) (hdsp1 :
    Part.dsp1 ∈ S) :
    (h.setDsp i x).blot S = h.blot S := by
  unfold Hub.setDsp
  (repeat' split) <;> simp [hdsp0, hdsp1]

@[simp] theorem Hub.dspDrop_blot {S : List Part} (h : Hub) (i n : Nat) (hregs : Part.regs ∈ S) :
    (h.dspDrop i n).blot S = h.blot S := by
  unfold Hub.dspDrop
  simp [hregs]

@[simp] theorem Hub.dspEmit_blot {S : List Part} (h : Hub) (i y : Nat) (line : List Nat) (hout : Part.out ∈ S) :
    (h.dspEmit i y line).blot S = h.blot S := by
  unfold Hub.dspEmit
  (repeat' split) <;> simp [hout]

@[simp] theorem Hub.dspFinish_blot {S : List Part} (h : Hub) (i : Nat) (bad : Option Nat) (hout : Part.out ∈ S)
    (hdsp0 : Part.dsp0 ∈ S) (hdsp1 : Part.dsp1 ∈ S) :
    (h.dspFinish i bad).blot S = h.blot S := by
  unfold Hub.dspFinish
  simp only []
  (repeat' split) <;> simp [hout, hdsp0, hdsp1]


/-! ### Ethernet -/

@[simp] theorem Hub.setPtp_blot {S : List Part} (h : Hub) (x : Nat) (v : PtpPort) (heth : Part.eth ∈ S) :
    (h.setPtp x v).blot S = h.blot S := by
  unfold Hub.setPtp
  simp [heth]

@[simp] theorem Hub.ethSend_blot {S : List Part} (h : Hub) (x : Nat) (f : List Byte) (hregs : Part.regs ∈ S) (hout :
    Part.out ∈ S) (heth : Part.eth ∈ S) :
    (h.ethSend x f).blot S = h.blot S := by
  unfold Hub.ethSend
  simp [hregs, hout, heth]


/-! ### Serial -/

@[simp] theorem Hub.setChan_blot {S : List Part} (h : Hub) (c : Nat) (x : SerChan) (hser : Part.ser ∈ S) :
    (h.setChan c x).blot S = h.blot S := by
  unfold Hub.setChan
  simp [hser]


/-! ### Outbound -/

@[simp] theorem Hub.onBrg_blot {S : List Part} (h : Hub) (f : BrgState → BrgState) (hbrg : Part.brg ∈ S) :
    (h.onBrg f).blot S = h.blot S := by
  unfold Hub.onBrg
  simp [hbrg]

@[simp] theorem Hub.setOutChan_blot {S : List Part} (h : Hub) (k : Nat) (c : OutChan) (hbrg : Part.brg ∈ S) :
    (h.setOutChan k c).blot S = h.blot S := by
  unfold Hub.setOutChan
  simp [hbrg]

@[simp] theorem Hub.chanEnd_blot {S : List Part} (h : Hub) (k result : Nat) (hregs : Part.regs ∈ S) (hbrg : Part.brg
    ∈ S) :
    (h.chanEnd k result).blot S = h.blot S := by
  unfold Hub.chanEnd
  simp [hregs, hbrg]

@[simp] theorem Hub.chanError_blot {S : List Part} (h : Hub) (k : Nat) (hregs : Part.regs ∈ S) (hbrg : Part.brg ∈ S) :
    (h.chanError k).blot S = h.blot S := by
  unfold Hub.chanError
  (repeat' split) <;> simp [hregs, hbrg]

@[simp] theorem Hub.brgBad_blot {S : List Part} (h : Hub) (hregs : Part.regs ∈ S) :
    h.brgBad.blot S = h.blot S := by
  unfold Hub.brgBad
  simp [hregs]

@[simp] theorem Hub.dropTag_blot {S : List Part} (h : Hub) (t : Nat) (hbrg : Part.brg ∈ S) :
    (h.dropTag t).blot S = h.blot S := by
  unfold Hub.dropTag
  simp [hbrg]

@[simp] theorem Hub.take3_blot {S : List Part} (h : Hub) (d : Delivered) (hregs : Part.regs ∈ S) (hfab : Part.fab ∈ S) :
    (h.take3 d).blot S = h.blot S := by
  unfold Hub.take3
  simp [hregs, hfab]


/-! ### Load -/

@[simp] theorem Hub.onLoad_blot {S : List Part} (h : Hub) (f : LoadState → LoadState) (hload : Part.load ∈ S) :
    (h.onLoad f).blot S = h.blot S := by
  unfold Hub.onLoad
  simp [hload]

@[simp] theorem Hub.setFeed_blot {S : List Part} (h : Hub) (f : Nat) (on : Bool) (hregs : Part.regs ∈ S) :
    (h.setFeed f on).blot S = h.blot S := by
  unfold Hub.setFeed
  simp [hregs]

@[simp] theorem Hub.feedLost_blot {S : List Part} (h : Hub) (f : Nat) (hregs : Part.regs ∈ S) (herr : Part.err ∈ S)
    (hpw : Part.pw ∈ S) :
    (h.feedLost f).blot S = h.blot S := by simp [Hub.feedLost, apply_ite (Hub.blot S), hregs, herr, hpw]

@[simp] theorem Hub.setFuse_blot {S : List Part} (h : Hub) (st : Nat) (hregs : Part.regs ∈ S) :
    (h.setFuse st).blot S = h.blot S := by
  unfold Hub.setFuse
  (repeat' split) <;> simp [hregs]

@[simp] theorem Hub.fuseGo_blot {S : List Part} (h : Hub) (hregs : Part.regs ∈ S) :
    h.fuseGo.blot S = h.blot S := by
  unfold Hub.fuseGo
  (repeat' split) <;> simp [hregs]

@[simp] theorem Hub.fuseStart_blot {S : List Part} (h : Hub) (hregs : Part.regs ∈ S) :
    h.fuseStart.blot S = h.blot S := by
  unfold Hub.fuseStart
  (repeat' split) <;> simp [hregs]

@[simp] theorem Hub.fuseBack_blot {S : List Part} (h : Hub) (hregs : Part.regs ∈ S) :
    h.fuseBack.blot S = h.blot S := by
  unfold Hub.fuseBack
  (repeat' split) <;> simp [hregs]

@[simp] theorem Hub.fuseLatch_blot {S : List Part} (h : Hub) (hregs : Part.regs ∈ S) (herr : Part.err ∈ S) (hpw :
    Part.pw ∈ S) :
    h.fuseLatch.blot S = h.blot S := by simp [Hub.fuseLatch, apply_ite (Hub.blot S), hregs, herr, hpw]

@[simp] theorem Hub.fuseAfterTrip_blot {S : List Part} (h : Hub) (hregs : Part.regs ∈ S) (herr : Part.err ∈ S) (hpw
    : Part.pw ∈ S) :
    h.fuseAfterTrip.blot S = h.blot S := by simp [Hub.fuseAfterTrip, apply_ite (Hub.blot S), hregs, herr, hpw]

@[simp] theorem Hub.fuseTrip_blot {S : List Part} (h : Hub) (bit_ : RF) (hregs : Part.regs ∈ S) (herr : Part.err ∈
    S) (hpw : Part.pw ∈ S) :
    (h.fuseTrip bit_).blot S = h.blot S := by simp [Hub.fuseTrip, apply_ite (Hub.blot S), hregs, herr, hpw]

@[simp] theorem Hub.loadRemove_blot {S : List Part} (h : Hub) (p : Port) (hregs : Part.regs ∈ S) :
    (h.loadRemove p).blot S = h.blot S := by
  unfold Hub.loadRemove
  simp only []
  (repeat' split) <;> simp [hregs]


/-! ### CablePower -/

@[simp] theorem Hub.onCc_blot {S : List Part} (h : Hub) (p : Port) (f : CcPort → CcPort) (hcc : Part.cc ∈ S) :
    (h.onCc p f).blot S = h.blot S := by
  unfold Hub.onCc
  simp [hcc]

@[simp] theorem Hub.setPd_blot {S : List Part} (h : Hub) (p : Port) (n : Nat) (hregs : Part.regs ∈ S) :
    (h.setPd p n).blot S = h.blot S := by
  unfold Hub.setPd
  simp [hregs]

@[simp] theorem Hub.pd_blot {S : List Part} (h : Hub) (p : Port) (m : PdMsg) (hout : Part.out ∈ S) :
    (h.pd p m).blot S = h.blot S := by
  unfold Hub.pd
  simp [hout]

@[simp] theorem Hub.drive_blot {S : List Part} (h : Hub) (p : Port) (v : Nat) (hout : Part.out ∈ S) (hcc : Part.cc ∈
    S) :
    (h.drive p v).blot S = h.blot S := by
  unfold Hub.drive
  simp [hout, hcc]

@[simp] theorem Hub.openPath_blot {S : List Part} (h : Hub) (p : Port) (hregs : Part.regs ∈ S) (herr : Part.err ∈ S)
    (hcc : Part.cc ∈ S) (hpw : Part.pw ∈ S) :
    (h.openPath p).blot S = h.blot S := by
  unfold Hub.openPath
  (repeat' split) <;> simp [hregs, herr, hcc, hpw]

@[simp] theorem Hub.awaitPath_blot {S : List Part} (h : Hub) (p : Port) (hcc : Part.cc ∈ S) :
    (h.awaitPath p).blot S = h.blot S := by
  unfold Hub.awaitPath
  try simp only []
  (repeat' split) <;> first
    | rfl
    | simp [hcc]
    | simp [↓Hub.cc_replaced, hcc]
    | (rw [foldl_keeps (Hub.blot S) _ _ _ (fun b a => by simp [↓Hub.cc_replaced, hcc])]; simp [↓Hub.cc_replaced, hcc])
    | (rename_i e; have e' := congrArg (fun x => Hub.blot S x.1) e; simp [↓Hub.cc_replaced, hcc] at e'; simp [←
        e', hcc])

@[simp] theorem Hub.closePath_blot {S : List Part} (h : Hub) (p : Port) (hcc : Part.cc ∈ S) :
    (h.closePath p).blot S = h.blot S := by
  unfold Hub.closePath
  try simp only []
  (repeat' split) <;> first
    | rfl
    | simp [hcc]
    | simp [↓Hub.cc_replaced, hcc]
    | (rw [foldl_keeps (Hub.blot S) _ _ _ (fun b a => by simp [↓Hub.cc_replaced, hcc])]; simp [↓Hub.cc_replaced, hcc])
    | (rename_i e; have e' := congrArg (fun x => Hub.blot S x.1) e; simp [↓Hub.cc_replaced, hcc] at e'; simp [←
        e', hcc])

@[simp] theorem Hub.noContract_blot {S : List Part} (h : Hub) (p : Port) (hregs : Part.regs ∈ S) (hcc : Part.cc ∈ S) :
    (h.noContract p).blot S = h.blot S := by
  unfold Hub.noContract
  simp [hregs, hcc]

@[simp] theorem Hub.ccPresent_blot {S : List Part} (h : Hub) (p : Port) (hcc : Part.cc ∈ S) :
    (h.ccPresent p).blot S = h.blot S := by
  unfold Hub.ccPresent
  (repeat' split) <;> simp [hcc]

@[simp] theorem Hub.startSource_blot {S : List Part} (h : Hub) (p : Port) (vconn : Bool) (hregs : Part.regs ∈ S)
    (hout : Part.out ∈ S) (hcc : Part.cc ∈ S) :
    (h.startSource p vconn).blot S = h.blot S := by
  unfold Hub.startSource
  simp only []
  (repeat' split) <;> simp [hregs, hout, hcc]

@[simp] theorem Hub.startSink_blot {S : List Part} (h : Hub) (p : Port) (hregs : Part.regs ∈ S) (hcc : Part.cc ∈ S) :
    (h.startSink p).blot S = h.blot S := by
  unfold Hub.startSink
  (repeat' split) <;> simp [hregs, hcc]

@[simp] theorem Hub.sendCaps_blot {S : List Part} (h : Hub) (p : Port) (hout : Part.out ∈ S) :
    (h.sendCaps p).blot S = h.blot S := by
  unfold Hub.sendCaps
  (repeat' split) <;> simp [hout]

@[simp] theorem Hub.requestNow_blot {S : List Part} (h : Hub) (p : Port) (hout : Part.out ∈ S) (hcc : Part.cc ∈ S) :
    (h.requestNow p).blot S = h.blot S := by
  unfold Hub.requestNow
  (repeat' split) <;> simp [hout, hcc]

@[simp] theorem Hub.hardReset_blot {S : List Part} (h : Hub) (p : Port) (hregs : Part.regs ∈ S) (hout : Part.out ∈
    S) (hcc : Part.cc ∈ S) :
    (h.hardReset p).blot S = h.blot S := by
  unfold Hub.hardReset
  simp only []
  (repeat' split) <;> simp [hregs, hout, hcc]

@[simp] theorem Hub.sendHardReset_blot {S : List Part} (h : Hub) (p : Port) (always : Bool) (hregs : Part.regs ∈ S)
    (hout : Part.out ∈ S) (hcc : Part.cc ∈ S) :
    (h.sendHardReset p always).blot S = h.blot S := by
  simp [Hub.sendHardReset, apply_ite (Hub.blot S), hregs, hout, hcc]

@[simp] theorem Hub.ccLatch_blot {S : List Part} (h : Hub) (p : Port) (hregs : Part.regs ∈ S) (hout : Part.out ∈ S)
    (herr : Part.err ∈ S) (hcc : Part.cc ∈ S) (hpw : Part.pw ∈ S) :
    (h.ccLatch p).blot S = h.blot S := by simp [Hub.ccLatch, apply_ite (Hub.blot S), hregs, hout, herr, hcc, hpw]

@[simp] theorem Hub.tripRecord_blot {S : List Part} (h : Hub) (p : Port) (ev : Option RF) (hregs : Part.regs ∈ S)
    (herr : Part.err ∈ S) (hcc : Part.cc ∈ S) (hpw : Part.pw ∈ S) :
    (h.tripRecord p ev).blot S = h.blot S := by
  unfold Hub.tripRecord
  simp only []
  (repeat' split) <;> first
    | simp [hregs, herr, hcc, hpw]
    | (rw [foldl_keeps (Hub.blot S) _ _ _ (fun b a => by simp [hregs, herr, hcc, hpw])]
       simp [hregs, herr, hcc, hpw])

@[simp] theorem Hub.endExchange_blot {S : List Part} (h : Hub) (p : Port) (hcc : Part.cc ∈ S) :
    (h.endExchange p).blot S = h.blot S := by
  unfold Hub.endExchange
  try simp only []
  (repeat' split) <;> first
    | rfl
    | simp [hcc]
    | simp [↓Hub.cc_replaced, hcc]
    | (rw [foldl_keeps (Hub.blot S) _ _ _ (fun b a => by simp [↓Hub.cc_replaced, hcc])]; simp [↓Hub.cc_replaced, hcc])
    | (rename_i e; have e' := congrArg (fun x => Hub.blot S x.1) e; simp [↓Hub.cc_replaced, hcc] at e'; simp [←
        e', hcc])

@[simp] theorem Hub.ccTrip_blot {S : List Part} (h : Hub) (p : Port) (ev : Option RF) (ovp : Bool) (hregs :
    Part.regs ∈ S) (hout : Part.out ∈ S) (herr : Part.err ∈ S) (hcc : Part.cc ∈ S) (hpw : Part.pw ∈ S) :
    (h.ccTrip p ev ovp).blot S = h.blot S := by
  unfold Hub.ccTrip
  simp only []
  (repeat' split) <;> first
    | simp [hregs, hout, herr, hcc, hpw]
    | (rw [foldl_keeps (Hub.blot S) _ _ _ (fun b a => by simp [hregs, hout, herr, hcc, hpw])]
       simp [hregs, hout, herr, hcc, hpw])


/-! ### Usb -/

@[simp] theorem Hub.setUsbPort_blot {S : List Part} (h : Hub) (p : Nat) (x : UsbPort) (husb : Part.usb ∈ S) :
    (h.setUsbPort p x).blot S = h.blot S := by
  unfold Hub.setUsbPort
  simp [husb]

@[simp] theorem Hub.usbFinish_blot {S : List Part} (h : Hub) (p : Nat) (s : UsbSplit) (v : UsbRes) (hregs :
    Part.regs ∈ S) (husb : Part.usb ∈ S) :
    (h.usbFinish p s v).blot S = h.blot S := by simp [Hub.usbFinish, apply_ite (Hub.blot S), hregs, husb]

@[simp] theorem Hub.usbReset_blot {S : List Part} (h : Hub) (p : Nat) (f : UsbSplit → Bool) (husb : Part.usb ∈ S) :
    (h.usbReset p f).blot S = h.blot S := by
  unfold Hub.usbReset
  simp [husb]

@[simp] theorem Hub.usbTake_blot {S : List Part} (h : Hub) (p k kind : Nat) (hregs : Part.regs ∈ S) (hfab : Part.fab
    ∈ S) (htun : Part.tun ∈ S) (husb : Part.usb ∈ S) :
    (h.usbTake p k kind).1.blot S = h.blot S := by
  unfold Hub.usbTake
  simp only []
  (repeat' split) <;> simp [hregs, hfab, htun, husb]

@[simp] theorem Hub.usbAccept_blot {S : List Part} (h : Hub) (p k : Nat) (r : UsbRec) (v : Option Nat) (hregs :
    Part.regs ∈ S) (husb : Part.usb ∈ S) :
    (h.usbAccept p k r v).blot S = h.blot S := by
  unfold Hub.usbAccept
  (repeat' split) <;> simp [hregs, husb]

@[simp] theorem Hub.usbFree_blot {S : List Part} (h : Hub) (p : Nat) (s : UsbSplit) (husb : Part.usb ∈ S) :
    (h.usbFree p s).blot S = h.blot S := by
  unfold Hub.usbFree
  simp [husb]

@[simp] theorem Hub.usbLeave_blot {S : List Part} (h : Hub) (p state : Nat) (hregs : Part.regs ∈ S) (husb : Part.usb
    ∈ S) :
    (h.usbLeave p state).blot S = h.blot S := by
  unfold Hub.usbLeave
  simp only []
  (repeat' split) <;> simp [hregs, husb]

@[simp] theorem Hub.usbOff_blot {S : List Part} (h : Hub) (p : Nat) (hregs : Part.regs ∈ S) (husb : Part.usb ∈ S) :
    (h.usbOff p).blot S = h.blot S := by
  unfold Hub.usbOff
  simp only []
  (repeat' split) <;> simp [hregs, husb]

@[simp] theorem Hub.usbPowerOn_blot {S : List Part} (h : Hub) (p : Nat) (husb : Part.usb ∈ S) :
    (h.usbPowerOn p).blot S = h.blot S := by
  unfold Hub.usbPowerOn
  (repeat' split) <;> simp [husb]

@[simp] theorem Hub.usbPowerOff_blot {S : List Part} (h : Hub) (p : Nat) (hregs : Part.regs ∈ S) (husb : Part.usb ∈ S) :
    (h.usbPowerOff p).blot S = h.blot S := by simp [Hub.usbPowerOff, apply_ite (Hub.blot S), hregs, husb]

@[simp] theorem Hub.usbPortReset_blot {S : List Part} (h : Hub) (p : Nat) (hregs : Part.regs ∈ S) (hout : Part.out ∈
    S) (husb : Part.usb ∈ S) :
    (h.usbPortReset p).blot S = h.blot S := by
  unfold Hub.usbPortReset
  simp only []
  (repeat' split) <;> simp [hregs, hout, husb]

@[simp] theorem Hub.usbDisable_blot {S : List Part} (h : Hub) (p : Nat) (hregs : Part.regs ∈ S) (husb : Part.usb ∈ S) :
    (h.usbDisable p).blot S = h.blot S := by simp [Hub.usbDisable, apply_ite (Hub.blot S), hregs, husb]

@[simp] theorem Hub.usbSuspend_blot {S : List Part} (h : Hub) (p : Nat) (hregs : Part.regs ∈ S) :
    (h.usbSuspend p).blot S = h.blot S := by
  unfold Hub.usbSuspend
  (repeat' split) <;> simp [hregs]

@[simp] theorem Hub.usbResume_blot {S : List Part} (h : Hub) (p : Nat) (hregs : Part.regs ∈ S) (hout : Part.out ∈ S) :
    (h.usbResume p).blot S = h.blot S := by
  unfold Hub.usbResume
  (repeat' split) <;> simp [hregs, hout]


/-! ### Cooper -/

@[simp] theorem Hub.onCoop_blot {S : List Part} (h : Hub) (f : CoopState → CoopState) (hcoop : Part.coop ∈ S) :
    (h.onCoop f).blot S = h.blot S := by
  unfold Hub.onCoop
  simp [hcoop]

@[simp] theorem Hub.useSpare_blot {S : List Part} (h : Hub) (key : Nat) (s : Spare) (hregs : Part.regs ∈ S) (hcoop :
    Part.coop ∈ S) :
    (h.useSpare key s).blot S = h.blot S := by
  unfold Hub.useSpare
  try simp only []
  (repeat' split) <;> first
    | rfl
    | simp [hregs, hcoop]
    | simp [↓Hub.regs_replaced, ↓Hub.coop_replaced, hregs, hcoop]
    | (rw [foldl_keeps (Hub.blot S) _ _ _ (fun b a => by simp [↓Hub.regs_replaced, ↓Hub.coop_replaced, hregs,
        hcoop])]; simp [↓Hub.regs_replaced, ↓Hub.coop_replaced, hregs, hcoop])
    | (rename_i e; have e' := congrArg (fun x => Hub.blot S x.1) e; simp [↓Hub.regs_replaced, ↓Hub.coop_replaced,
        hregs, hcoop] at e'; simp [← e', hregs, hcoop])

@[simp] theorem Hub.coopFail_blot {S : List Part} (h : Hub) (mem addr at_ : Nat) (f : MemFail) (powerup : Bool)
    (hregs : Part.regs ∈ S) (herr : Part.err ∈ S) (hcoop : Part.coop ∈ S) (hpw : Part.pw ∈ S) :
    (h.coopFail mem addr at_ f powerup).1.blot S = h.blot S := by
  unfold Hub.coopFail
  simp only []
  (repeat' split) <;> first
    | simp [hregs, herr, hcoop, hpw]
    | (rw [foldl_keeps (Hub.blot S) _ _ _ (fun b a => by simp [hregs, herr, hcoop, hpw])]
       simp [hregs, herr, hcoop, hpw])

@[simp] theorem Hub.coopLog_blot {S : List Part} (h : Hub) (code sev : Nat) (hregs : Part.regs ∈ S) (herr : Part.err
    ∈ S) (hpw : Part.pw ∈ S) :
    (h.coopLog code sev).blot S = h.blot S := by simp [Hub.coopLog, apply_ite (Hub.blot S), hregs, herr, hpw]

@[simp] theorem Hub.coopCheck_blot {S : List Part} (h : Hub) (code sev : Nat) (hregs : Part.regs ∈ S) (herr :
    Part.err ∈ S) (hpw : Part.pw ∈ S) :
    (h.coopCheck code sev).blot S = h.blot S := by
  unfold Hub.coopCheck
  try simp only []
  (repeat' split) <;> first
    | rfl
    | simp [hregs, herr, hpw]
    | simp [↓Hub.regs_replaced, ↓Hub.err_replaced, ↓Hub.pw_replaced, hregs, herr, hpw]
    | (rw [foldl_keeps (Hub.blot S) _ _ _ (fun b a => by simp [↓Hub.regs_replaced, ↓Hub.err_replaced,
        ↓Hub.pw_replaced, hregs, herr, hpw])]; simp [↓Hub.regs_replaced, ↓Hub.err_replaced, ↓Hub.pw_replaced, hregs,
        herr, hpw])
    | (rename_i e; have e' := congrArg (fun x => Hub.blot S x.1) e; simp [↓Hub.regs_replaced, ↓Hub.err_replaced,
        ↓Hub.pw_replaced, hregs, herr, hpw] at e'; simp [← e', hregs, herr, hpw])


/-! ### Journal -/

@[simp] theorem Hub.nvStore_blot {S : List Part} (h : Hub) (a : Nat) (bs : List Byte) (hmem : Part.mem ∈ S) (hfab :
    Part.fab ∈ S) (htun : Part.tun ∈ S) :
    (h.nvStore a bs).blot S = h.blot S := by
  unfold Hub.nvStore
  try simp only []
  (repeat' split) <;> first
    | rfl
    | simp [hmem, hfab, htun]
    | simp [↓Hub.mem_replaced, ↓Hub.fab_replaced, ↓Hub.tun_replaced, hmem, hfab, htun]
    | (rw [foldl_keeps (Hub.blot S) _ _ _ (fun b a => by simp [↓Hub.mem_replaced, ↓Hub.fab_replaced,
        ↓Hub.tun_replaced, hmem, hfab, htun])]; simp [↓Hub.mem_replaced, ↓Hub.fab_replaced, ↓Hub.tun_replaced, hmem,
        hfab, htun])
    | (rename_i e; have e' := congrArg (fun x => Hub.blot S x.1) e; simp [↓Hub.mem_replaced, ↓Hub.fab_replaced,
        ↓Hub.tun_replaced, hmem, hfab, htun] at e'; simp [← e', hmem, hfab, htun])

@[simp] theorem Hub.storeResult_blot {S : List Part} (h : Hub) (r : Nat) (hregs : Part.regs ∈ S) :
    (h.storeResult r).blot S = h.blot S := by
  unfold Hub.storeResult
  simp [hregs]


/-! ### Security -/

@[simp] theorem Hub.onSec_blot {S : List Part} (h : Hub) (f : SecState → SecState) (hsec : Part.sec ∈ S) :
    (h.onSec f).blot S = h.blot S := by
  unfold Hub.onSec
  simp [hsec]

@[simp] theorem Hub.emptySlot_blot {S : List Part} (h : Hub) (s : Nat) (hregs : Part.regs ∈ S) (hsec : Part.sec ∈ S) :
    (h.emptySlot s).blot S = h.blot S := by
  unfold Hub.emptySlot
  simp [hregs, hsec]

@[simp] theorem Hub.setLifecycle_blot {S : List Part} (h : Hub) (st : Nat) (hregs : Part.regs ∈ S) :
    (h.setLifecycle st).blot S = h.blot S := by
  unfold Hub.setLifecycle
  simp [hregs]

@[simp] theorem Hub.secEnd_blot {S : List Part} (h : Hub) (code value : Nat) (hregs : Part.regs ∈ S) (hsec :
    Part.sec ∈ S) :
    (h.secEnd code value).blot S = h.blot S := by
  unfold Hub.secEnd
  simp [hregs, hsec]


/-! ### Sleep -/

@[simp] theorem Hub.onPw_blot {S : List Part} (h : Hub) (f : PowerState → PowerState) (hpw : Part.pw ∈ S) :
    (h.onPw f).blot S = h.blot S := by
  unfold Hub.onPw
  simp [hpw]


/-! ### Marker -/

@[simp] theorem Hub.setErr_blot {S : List Part} (h : Hub) (e : Int) (hregs : Part.regs ∈ S) (herr : Part.err ∈ S)
    (htm : Part.tm ∈ S) :
    (h.setErr e).blot S = h.blot S := by
  unfold Hub.setErr
  simp [hregs, herr, htm]


/-! ### Ptp -/

@[simp] theorem Hub.ptpAdopt_blot {S : List Part} (h : Hub) (hregs : Part.regs ∈ S) (heth : Part.eth ∈ S) :
    h.ptpAdopt.blot S = h.blot S := by
  unfold Hub.ptpAdopt
  simp [hregs, heth]

@[simp] theorem Hub.ptpBoundary_blot {S : List Part} (h : Hub) (hregs : Part.regs ∈ S) (heth : Part.eth ∈ S) :
    h.ptpBoundary.blot S = h.blot S := by
  unfold Hub.ptpBoundary
  (repeat' split) <;> simp [hregs, heth]

@[simp] theorem Hub.ptpSend_blot {S : List Part} (h : Hub) (x : Nat) (peer : Bool) (msg : List Byte) (hregs :
    Part.regs ∈ S) (hout : Part.out ∈ S) (heth : Part.eth ∈ S) :
    (h.ptpSend x peer msg).blot S = h.blot S := by
  unfold Hub.ptpSend
  simp [hregs, hout, heth]


/-! ### UsbFunction -/

@[simp] theorem Hub.usbOwn_blot {S : List Part} (h : Hub) (p : Nat) (r : UsbRec) (v : UsbRes) (hregs : Part.regs ∈
    S) (husb : Part.usb ∈ S) :
    (h.usbOwn p r v).blot S = h.blot S := by
  unfold Hub.usbOwn
  simp only []
  (repeat' split) <;> simp [hregs, husb]

@[simp] theorem Hub.usbFunctionReset_blot {S : List Part} (h : Hub) (husb : Part.usb ∈ S) :
    h.usbFunctionReset.blot S = h.blot S := by
  unfold Hub.usbFunctionReset
  simp [husb]


/-! ### RegAccess -/

@[simp] theorem Hub.plainW_blot {S : List Part} (h : Hub) (w : RegWrite) (hregs : Part.regs ∈ S) :
    (h.plainW w).blot S = h.blot S := by
  unfold Hub.plainW
  (repeat' split) <;> simp [hregs]

@[simp] theorem Hub.latchAt_blot {S : List Part} (h : Hub) (a v : Nat) (hlatch : Part.latch ∈ S) :
    (h.latchAt a v).blot S = h.blot S := by
  unfold Hub.latchAt
  simp [hlatch]

@[simp] theorem Hub.readLo_blot {S : List Part} (h : Hub) (hi v : Nat) (hlatch : Part.latch ∈ S) :
    (h.readLo hi v).1.blot S = h.blot S := by
  unfold Hub.readLo
  simp [hlatch]

@[simp] theorem Hub.readTime_blot {S : List Part} (h : Hub) (off a : Nat) (hlatch : Part.latch ∈ S) :
    (h.readTime off a).1.blot S = h.blot S := by
  unfold Hub.readTime
  (repeat' split) <;> simp [hlatch]

@[simp] theorem Hub.readFab_blot {S : List Part} (h : Hub) (off a : Nat) (hlatch : Part.latch ∈ S) :
    (h.readFab off a).1.blot S = h.blot S := by
  unfold Hub.readFab
  (repeat' split) <;> simp [hlatch]

@[simp] theorem Hub.readPol_blot {S : List Part} (h : Hub) (off a : Nat) (hlatch : Part.latch ∈ S) :
    (h.readPol off a).1.blot S = h.blot S := by
  unfold Hub.readPol
  (repeat' split) <;> simp [hlatch]

@[simp] theorem Hub.readSch_blot {S : List Part} (h : Hub) (off a : Nat) (hsch : Part.sch ∈ S) :
    (h.readSch off a).1.blot S = h.blot S := by
  unfold Hub.readSch
  (repeat' split) <;> simp [hsch]

@[simp] theorem Hub.readLnk_blot {S : List Part} (h : Hub) (p : Port) (off a : Nat) (hlatch : Part.latch ∈ S) :
    (h.readLnk p off a).1.blot S = h.blot S := by
  unfold Hub.readLnk
  (repeat' split) <;> simp [hlatch]

@[simp] theorem Hub.readDsp_blot {S : List Part} (h : Hub) (d off a : Nat) (hlatch : Part.latch ∈ S) :
    (h.readDsp d off a).1.blot S = h.blot S := by
  unfold Hub.readDsp
  (repeat' split) <;> simp [hlatch]

@[simp] theorem Hub.readErr_blot {S : List Part} (h : Hub) (off a : Nat) (hregs : Part.regs ∈ S) (herr : Part.err ∈
    S) (hpw : Part.pw ∈ S) :
    (h.readErr off a).1.blot S = h.blot S := by
  unfold Hub.readErr
  simp only []
  (repeat' split) <;> simp [hregs, herr, hpw]

@[simp] theorem Hub.readPair_blot {S : List Part} (h : Hub) (a : Nat) (hlatch : Part.latch ∈ S) :
    (h.readPair a).1.blot S = h.blot S := by
  unfold Hub.readPair
  simp [hlatch]


/-! ### DecmondPacket -/

@[simp] theorem Hub.setDd_blot {S : List Part} (h : Hub) (n d : Nat) (v : Option Held) (htun : Part.tun ∈ S) :
    (h.setDd n d v).blot S = h.blot S := by
  unfold Hub.setDd
  simp [htun]

@[simp] theorem Hub.setStored_blot {S : List Part} (h : Hub) (pid : Nat) (s : Stored) (hregs : Part.regs ∈ S) (hfab
    : Part.fab ∈ S) :
    (h.setStored pid s).blot S = h.blot S := by
  unfold Hub.setStored
  simp [hregs, hfab]

@[simp] theorem Hub.setPkt_blot {S : List Part} (h : Hub) (x : Held) (s : Stored) (p : Packet) (hregs : Part.regs ∈
    S) (hfab : Part.fab ∈ S) :
    (h.setPkt x s p).blot S = h.blot S := by
  unfold Hub.setPkt
  simp [hregs, hfab]

@[simp] theorem Hub.newHeld_blot {S : List Part} (h : Hub) (n d : Nat) (p : Packet) (cells : Nat) (origin : Nat)
    (stamped : Bool) (hregs : Part.regs ∈ S) (hfab : Part.fab ∈ S) (htun : Part.tun ∈ S) :
    (h.newHeld n d p cells origin stamped).blot S = h.blot S := by
  unfold Hub.newHeld
  simp only []
  (repeat' split) <;> simp [hregs, hfab, htun]

@[simp] theorem Hub.done_blot {S : List Part} (h : Hub) (n gd : Nat) (v : Word) (htun : Part.tun ∈ S) :
    (h.done n gd v).1.blot S = h.blot S := by
  unfold Hub.done
  simp [htun]


/-! ### DecmondEvent -/

@[simp] theorem Hub.setTimer_blot {S : List Part} (h : Hub) (n : Nat) (t : Option Nat) (htun : Part.tun ∈ S) :
    (h.setTimer n t).blot S = h.blot S := by
  unfold Hub.setTimer
  simp [htun]

@[simp] theorem Hub.asyncIssue_blot {S : List Part} (h : Hub) (n gd : Nat) (k : AsyncKind) (result : Nat) (b : List
    Word) (hmem : Part.mem ∈ S) (htun : Part.tun ∈ S) :
    (h.asyncIssue n gd k result b).1.blot S = h.blot S := by
  unfold Hub.asyncIssue
  simp only []
  (repeat' split) <;> simp [hmem, htun]


/-! ### Jtag -/

@[simp] theorem Hub.bypassReg_blot {S : List Part} (h : Hub) (hout : Part.out ∈ S) (hjtag : Part.jtag ∈ S) :
    h.bypassReg.blot S = h.blot S := by
  unfold Hub.bypassReg
  try simp only []
  (repeat' split) <;> first
    | rfl
    | simp [hout, hjtag]
    | simp [↓Hub.out_replaced, ↓Hub.jtag_replaced, hout, hjtag]
    | (rw [foldl_keeps (Hub.blot S) _ _ _ (fun b a => by simp [↓Hub.out_replaced, ↓Hub.jtag_replaced, hout,
        hjtag])]; simp [↓Hub.out_replaced, ↓Hub.jtag_replaced, hout, hjtag])
    | (rename_i e; have e' := congrArg (fun x => Hub.blot S x.1) e; simp [↓Hub.out_replaced, ↓Hub.jtag_replaced,
        hout, hjtag] at e'; simp [← e', hout, hjtag])

/-! ### Ranges and instructions -/

@[simp] theorem Hub.accessAll_blot {S : List Part} (h : Hub) (cls : Nat) (k : AccKind) (l : List Nat)
    (hregs : Part.regs ∈ S) (herr : Part.err ∈ S) (hacc : Part.acc ∈ S) (hpw : Part.pw ∈ S) :
    (h.accessAll cls k l).1.blot S = h.blot S := by
  induction l generalizing h with
  | nil => rfl
  | cons a t ih =>
    unfold Hub.accessAll
    split
    · rename_i g he
      rw [ih, ← Hub.access_blot h cls k a hregs herr hacc hpw, he]
    · exact Hub.access_blot _ _ _ _ hregs herr hacc hpw

@[simp] theorem Hub.accessRange_blot {S : List Part} (h : Hub) (cls : Nat) (k : AccKind) (a n : Nat)
    (hregs : Part.regs ∈ S) (herr : Part.err ∈ S) (hfab : Part.fab ∈ S) (hacc : Part.acc ∈ S) (hpw : Part.pw ∈ S) :
    (h.accessRange cls k a n).1.blot S = h.blot S := by
  have all := Hub.accessAll_blot h cls k (pagesOf a n) hregs herr hacc hpw
  unfold Hub.accessRange
  split
  · rename_i g e
    rw [e] at all
    split
    · exact all
    · exact (Hub.corrected_blot _ _ _ hregs herr hfab hpw).trans all
  · exact all

@[simp] theorem Hub.leave_blot {S : List Part} (h : Hub) (n : Nat) (e : Exit) (hregs : Part.regs ∈ S) (hmem :
    Part.mem ∈ S) (hlinks : Part.links ∈ S) (herr : Part.err ∈ S) (hfab : Part.fab ∈ S) (htun : Part.tun ∈ S) (hpw :
    Part.pw ∈ S) : (h.leave n e).blot S = h.blot S := by
  cases e <;> simp only [Hub.leave] <;> (try split) <;> simp [hregs, hmem, hlinks, herr, hfab, htun, hpw]

/-- The issue of an instruction reaches, beside what the instruction does, what a trap and the count of issues reach. -/
theorem Hub.issue_blot {S : List Part} (h : Hub) (n : Nat) (f : Hub → Hub × Exit) (hregs : Part.regs ∈ S) (hmem :
    Part.mem ∈ S) (hlinks : Part.links ∈ S) (herr : Part.err ∈ S) (hfab : Part.fab ∈ S) (htun : Part.tun ∈ S) (hacc :
    Part.acc ∈ S) (hpw : Part.pw ∈ S) (hf : ∀ g, (f g).1.blot S = g.blot S) : (h.issue n f).blot S = h.blot S := by
  have acc := fun a => Hub.access_blot h 2 .fetch a hregs herr hacc hpw
  unfold Hub.issue
  split
  · rfl
  · simp only []
    split
    · rename_i g e
      have eg : g.blot S = h.blot S := by rw [← acc, e]
      rw [← eg]; unfold Hub.ctxHeld; split
      · rfl
      · exact Hub.acc_replaced _ _ hacc
    · rename_i e; rw [Hub.trap_blot _ _ _ _ _ hregs hmem hlinks herr hfab htun hpw, ← acc, e]
    · rename_i e; rw [Hub.trap_blot _ _ _ _ _ hregs hmem hlinks herr hfab htun hpw, ← acc, e]
    · rename_i g e
      have eg : g.blot S = h.blot S := by rw [← acc, e]
      split
      · rw [Hub.trap_blot _ _ _ _ _ hregs hmem hlinks herr hfab htun hpw, eg]
      · rename_i c
        have fg := (hf (g.corrected (progBase (n / 12) + 4 * (h.ctx n).pc) 4)).trans
          (Hub.corrected_blot _ _ _ hregs herr hfab hpw)
        split
        · rename_i e'; rw [← eg, ← fg, e']
        · rename_i e'
          rw [Hub.leave_blot _ _ _ hregs hmem hlinks herr hfab htun hpw, Hub.onSpare, Hub.tun_replaced _ _ htun, Hub.wr_blot _ _ _ hregs,
            Hub.wr_blot _ _ _ hregs, ← eg, ← fg, e']

end Sys2Proof.Machine
end

