-- ==== Sys2Proof/Laws/Shared.lean ====
section
/-! SUPPORT. What the shared operations can do, said once each: the log, the access check, contexts and the issue of an
instruction, and erased memory. (What each leaves alone is in the frames.) -/

namespace Sys2Proof.Machine

/-! ### The log -/

/-- Everything the making of a log entry can do lies in the registers, the log, and the entries that wait for the wake. -/
theorem Hub.log_frame (h : Hub) (src code sev d0 d1 d2 : Nat) :
    h.log src code sev d0 d1 d2
      = { h with
            regs := (h.log src code sev d0 d1 d2).regs, err := (h.log src code sev d0 d1 d2).err,
            pw := (h.log src code sev d0 d1 d2).pw } := by
  simpa using
    Hub.of_blot (S := [.regs, .err, .pw]) (Hub.log_blot h src code sev d0 d1 d2 (by simp) (by simp) (by simp))

theorem Hub.logBy_frame (h : Hub) (src code sev d0 d1 d2 : Nat) (b : Recovery) :
    h.logBy src code sev d0 d1 d2 b
      = { h with
            regs := (h.logBy src code sev d0 d1 d2 b).regs, err := (h.logBy src code sev d0 d1 d2 b).err,
            pw := (h.logBy src code sev d0 d1 d2 b).pw } := by
  simpa using
    Hub.of_blot (S := [.regs, .err, .pw]) (Hub.logBy_blot h src code sev d0 d1 d2 b (by simp) (by simp) (by simp))

theorem Hub.notice_frame (h : Hub) (src code d0 d1 : Nat) :
    h.notice src code d0 d1
      = { h with regs := (h.notice src code d0 d1).regs, err := (h.notice src code d0 d1).err } := by
  simpa using Hub.of_blot (S := [.regs, .err]) (Hub.notice_blot h src code d0 d1 (by simp) (by simp))

@[simp] theorem Hub.queueEvent_log (h : Hub) (e : Ev) : (h.queueEvent e).err.log = h.err.log := by
  unfold Hub.queueEvent
  by_cases c : h.err.evtq.length < 64
  · simp only [c, if_true]
  · simp only [c, if_false]
    exact congrArg ErrState.log (Hub.bump_err h _)

@[simp] theorem Hub.setUnacked_err (h : Hub) : h.setUnacked.err = h.err := by
  unfold Hub.setUnacked
  exact Hub.put_err _ _ _

@[simp] theorem Hub.setHandling_log (h : Hub) (l : List Handling) : (h.setHandling l).err.log = h.err.log := by
  simp [Hub.setHandling]

/-- The slot the log chooses holds the entry just made. -/
theorem Hub.entryNow_log (h : Hub) (r : Rec) (b : Option Recovery) (m : Bool) :
    KMap.get? (h.entryNow r b m).err.log h.nextSlot = some r := by
  obtain ⟨x, e⟩ : ∃ x, x = h.entryNow r b m := ⟨_, rfl⟩
  rw [← e]
  unfold Hub.entryNow at e
  extract_lets slot isOver h1 y h2 h3 h4 h5 h6 add h7 at e
  have e1 : h1.err = h.err := by
    simp only [h1]
    split
    · exact Hub.bump_err _ _
    · rfl
  have e2 : h2.err.log = KMap.put h.err.log h.nextSlot r := by rw [← e1]
  have e4 : h4.err = h2.err := (Hub.bump_err _ _).trans <| (Hub.setUnacked_err _).trans <| (Hub.put_err _ _ _).trans <|
    (Hub.put_err _ _ _).trans (Hub.put_err _ _ _)
  have e5 : h5.err = h2.err := by
    simp only [h5]
    split
    · exact (Hub.put_err _ _ _).trans e4
    · exact e4
  have e6 : h6.err.log = h2.err.log := by
    simp only [h6]
    split
    · rw [Hub.queueEvent_log, e5]
    · rw [e5]
  have e7 : h7.err.log = h2.err.log := by
    simp only [h7]
    split
    · exact e6
    · rw [Hub.setHandling_log, e6]
  have ex : x.err.log = h7.err.log := by
    rw [e]
    split <;> rfl
  rw [ex, e7, e2, KMap.get?_put, if_pos rfl]

/-- Out of Steep an entry is made at once (R488). -/
theorem Hub.entry_log {h : Hub} (up : h.pw.steep = false) (r : Rec) (b : Option Recovery) (m : Bool) :
    KMap.get? (h.entry r b m).err.log h.nextSlot = some r := by
  simpa [Hub.entry, up] using h.entryNow_log r b m

/-! ### Access -/

/-- What an access check can do: nothing where the access is allowed or answered with an error; HOLDING where it is
held; where it is refused, the marks of the refusal. -/
theorem Hub.access_cases (h : Hub) (cls : Nat) (k : AccKind) (a : Nat) :
    (∃ c r, h.decide_ cls k a = .ok c r ∧ h.access cls k a = (h, .ok))
    ∨ (h.decide_ cls k a = .error ∧ h.access cls k a = (h, .error))
    ∨ (h.decide_ cls k a = .held ∧ h.access cls k a = (if cls = 2 then h.put R.ACC_STATUS_HOLDING 1 else h.holdMark, .held))
    ∨ (∃ i, h.decide_ cls k a = .refused i ∧ h.access cls k a = (h.deny cls a i, .refused)) := by
  unfold Hub.access
  cases e : h.decide_ cls k a with
  | ok c r => exact .inl ⟨c, r, rfl, rfl⟩
  | error => exact .inr (.inl ⟨rfl, rfl⟩)
  | held => exact .inr (.inr (.inl ⟨rfl, rfl⟩))
  | refused i => exact .inr (.inr (.inr ⟨i, rfl, rfl⟩))

/-- An access that is allowed leaves the hub alone. -/
theorem Hub.access_ok {h g : Hub} {cls : Nat} {k : AccKind} {a : Nat} (e : h.access cls k a = (g, .ok)) : g = h := by
  obtain ⟨_, _, _, e'⟩ | ⟨_, e'⟩ | ⟨_, e'⟩ | ⟨_, _, e'⟩ := h.access_cases cls k a <;> simp_all

/-- A range that is allowed leaves the hub alone. -/
theorem Hub.accessAll_ok {h g : Hub} {cls : Nat} {k : AccKind} {l : List Nat} (e : h.accessAll cls k l = (g, .ok)) :
    g = h := by
  induction l generalizing h with
  | nil => simpa [Hub.accessAll, eq_comm] using e
  | cons a t ih =>
    unfold Hub.accessAll at e
    split at e
    · rename_i g' he
      rw [ih e, Hub.access_ok he]
    · rename_i r hr
      exact absurd (e ▸ rfl : (h.access cls k a) = (g, .ok)) (hr g)

/-! ### Contexts -/

/-- The context just set, and every other as before. -/
theorem Hub.ctx_setCtx (h : Hub) (n m : Nat) (x : Ctx) : (h.setCtx n x).ctx m = if m = n then x else h.ctx m :=
  SMap.get_set _ _ _ _ _

@[simp] theorem Hub.ctx_setCtx_self (h : Hub) (n : Nat) (x : Ctx) : (h.setCtx n x).ctx n = x := by simp [Hub.ctx_setCtx]

theorem Hub.ctx_setCtx_of_ne (h : Hub) {n m : Nat} (x : Ctx) (e : m ≠ n) : (h.setCtx n x).ctx m = h.ctx m := by
  simp [Hub.ctx_setCtx, e]

@[simp] theorem Hub.setCtx_rd (h : Hub) (n : Nat) (x : Ctx) (a : Nat) : (h.setCtx n x).rd a = h.rd a := rfl

@[simp] theorem Hub.setCtx_get (h : Hub) (n : Nat) (x : Ctx) (f : RF) : (h.setCtx n x).get f = h.get f := rfl

@[simp] theorem Hub.setCtx_regs (h : Hub) (n : Nat) (x : Ctx) : (h.setCtx n x).regs = h.regs := rfl

@[simp] theorem Hub.setCtx_mem (h : Hub) (n : Nat) (x : Ctx) : (h.setCtx n x).mem = h.mem := rfl

@[simp] theorem Hub.wr_ctx (h : Hub) (a : Nat) (v : Word) (n : Nat) : (h.wr a v).ctx n = h.ctx n := rfl

@[simp] theorem Hub.put_ctx (h : Hub) (f : RF) (v n : Nat) : (h.put f v).ctx n = h.ctx n := rfl

/-- g0 reads as zero and discards writes; every other register reads what was written to it (R190). -/
theorem Ctx.gpr_setGpr (x : Ctx) (r q : Nat) (v : Word) : (x.setGpr r v).gpr q = if q = r ∧ r ≠ 0 then v else x.gpr q := by
  unfold Ctx.setGpr Ctx.gpr
  by_cases hr : r = 0
  · simp [hr]
  · by_cases hq : q = 0
    · simp [hr, hq, Ne.symm hr]
    · by_cases e : q = r
      · simp [hr, e]
      · simp [hr, hq, e, SMap.get_set]

@[simp] theorem Ctx.setGpr_pc (x : Ctx) (r : Nat) (v : Word) : (x.setGpr r v).pc = x.pc := by
  unfold Ctx.setGpr; split <;> rfl

@[simp] theorem Ctx.setGpr_flags (x : Ctx) (r : Nat) (v : Word) : (x.setGpr r v).flags = x.flags := by
  unfold Ctx.setGpr; split <;> rfl

@[simp] theorem Ctx.setFlags_flags (x : Ctx) (f : Flags) : (x.setFlags f).flags = f := rfl

@[simp] theorem Ctx.setFlags_gpr (x : Ctx) (f : Flags) (r : Nat) : (x.setFlags f).gpr r = x.gpr r := rfl

/-- Every register as before, but the one written. -/
theorem Hub.gpr_setGpr (h : Hub) (n r q : Nat) (v : Word) :
    (h.setGpr n r v).gpr n q = if q = r ∧ r ≠ 0 then v else h.gpr n q := by
  simp [Hub.gpr, Hub.setGpr, Ctx.gpr_setGpr]

/-- A context that is not RUNNING issues nothing. -/
theorem Hub.issue_of_not_running (h : Hub) {n : Nat} (f : Hub → Hub × Exit) (e : h.ctxState n ≠ cxRunning) :
    h.issue n f = h := by simp [Hub.issue, e]

/-- A range whose words hold no single-bit error is read as it is. -/
theorem Hub.corrected_of_clean {h : Hub} {a n : Nat} (c : h.clean a n = true) : h.corrected a n = h := by
  have none : h.fab.soft.filter (fun w => decide (a < 8 * w + 8) && decide (8 * w < a + n)) = [] := by
    rw [List.filter_eq_nil_iff]
    intro w m
    have := List.all_eq_true.mp c w m
    simp at this ⊢
    omega
  simp [Hub.corrected, none]

/-- What the issue of an instruction does where its fetch succeeds: the instruction's effect on the hub whose fetched word
is corrected, counted, its place recorded, a takeover's handling ended, and then its exit; a stalled one has only the effect
it gives itself. -/
theorem Hub.issue_of_fetch {h : Hub} {n : Nat} (run : h.ctxState n = cxRunning) (ok : h.fetchOk n = true)
    (f : Hub → Hub × Exit) :
    h.issue n f = (match f (h.corrected (h.fetchAddr n) 4) with
      | (g, .stall) => g
      | (g, e) =>
        (((g.wr (A.TUNC_CTX_ISSUED n) (W ((g.rd (A.TUNC_CTX_ISSUED n)).toNat + 1))).wr (A.TUNC_CTX_PC n)
          (W (h.ctx n).pc)).onSpare n).leave n e) := by
  have ⟨h1, h2⟩ : (∃ c r, h.decide_ 2 .fetch (progBase (n / 12) + 4 * (h.ctx n).pc) = .ok c r)
      ∧ h.badWord (progBase (n / 12) + 4 * (h.ctx n).pc) = false := by
    unfold Hub.fetchOk at ok
    split at ok
    · exact ⟨⟨_, _, by assumption⟩, by simpa [Hub.fetchAddr] using ok⟩
    · simp at ok
  obtain ⟨c, r, h1⟩ := h1
  simp only [Hub.issue, Hub.access, h1, h2, run]
  rfl

/-- Of a context that may issue: the core runs, it is RUNNING, its fetch succeeds and corrects nothing. -/
theorem Hub.canIssue_parts {h : Hub} {n : Nat} (c : h.canIssue n = true) :
    h.awake = true ∧ h.ctxState n = cxRunning ∧ h.fetchOk n = true ∧ h.corrected (h.fetchAddr n) 4 = h := by
  simp only [Hub.canIssue, Bool.and_eq_true, beq_iff_eq] at c
  exact ⟨c.1.1.1, c.1.1.2, c.1.2, Hub.corrected_of_clean c.2⟩

/-- The word fetched by a context that may issue is the one at its PC (R228). -/
theorem Hub.fetched_of_canIssue {h : Hub} {n : Nat} (c : h.canIssue n = true) :
    h.fetched n = some (h.mword (h.fetchAddr n)) := by
  obtain ⟨-, run, ok, -⟩ := Hub.canIssue_parts c
  unfold Hub.fetchOk at ok
  unfold Hub.fetched
  rw [if_pos run]
  split at ok
  · rename_i e
    have sound : h.badWord (h.fetchAddr n) = false := by simpa using ok
    simp [e, sound]
  · simp at ok

/-- A command acts where the word at the PC spells its instruction (R224–R226). -/
theorem Hub.fetching_of_spells {h : Hub} {n : Fin 96} {i : Instr} (c : h.canIssue n = true)
    (w : spelled n (h.mword (h.fetchAddr n)) = some i) (f : Hub → Hub) : h.fetching n (some i) f = f h := by
  simp [Hub.fetching, Hub.fetched_of_canIssue c, w]

/-- A word that spells no instruction traps whatever command issues it (R226). -/
theorem Hub.fetching_of_illegal {h : Hub} {n : Fin 96} (c : h.canIssue n = true)
    (w : spelled n (h.mword (h.fetchAddr n)) = none) (i : Option Instr) (f : Hub → Hub) :
    h.fetching n i f = h.issue n (fun h => (h, .illegal)) := by
  simp [Hub.fetching, Hub.fetched_of_canIssue c, w]

/-- Reading bytes of a held packet whose words hold no error changes nothing (R145). -/
theorem Hub.readHeld_of_sound {h : Hub} {n d : Nat} {x : Held} {s : Stored} (c : h.heldSound n d = some (x, s))
    (span : Stored → Nat × Nat) (inside : (span s).1 + (span s).2 ≤ 16 + 4 * s.pkt.length) :
    h.readHeld n d span = (h, some (x, s)) := by
  obtain ⟨held, sound⟩ : h.held n d = some (x, s) ∧ h.sound s = true := by
    simpa [Hub.heldSound, Option.filter_eq_some_iff] using c
  have clean : ∀ w ∈ h.fab.soft ++ h.tun.bad, (s.wordsAt (span s).1 (span s).2).contains w = false := by
    intro w m
    have out := List.all_eq_true.mp sound w m
    simp only [Stored.wordsAt, List.contains_eq_mem, List.mem_eraseDups, List.mem_map, List.mem_range, Bool.not_eq_true',
      decide_eq_false_iff_not, not_exists, not_and] at out ⊢
    intro i lt
    have := out ((span s).1 + i) (by omega)
    simpa using this
  have none : h.fab.soft.filter (s.wordsAt (span s).1 (span s).2).contains = [] := by
    rw [List.filter_eq_nil_iff]
    exact fun w m => by simpa using clean w (by simp [m])
  have keep : h.tun.bad.any (s.wordsAt (span s).1 (span s).2).contains = false := by
    rw [List.any_eq_false]
    exact fun w m => by simpa using clean w (by simp [m])
  simp [Hub.readHeld, held, none, keep]

/-! ### Erased memory -/

@[simp] theorem Hub.freshRange_mem (h : Hub) (a n : Nat) : (h.freshRange a n).mem = h.mem := rfl

/-- Zeros stored over a range: a byte inside reads 0, and every other as before. -/
theorem Hub.mrd_mzero (h : Hub) (a n x : Nat) : (h.mzero a n).mrd x = if a ≤ x ∧ x < a + n then 0#8 else h.mrd x := by
  have := SMap.get_filter memReset h.mem (fun k => !(decide (a ≤ k) && decide (k < a + n))) x
  rw [Hub.mrd, Hub.mzero, Hub.freshRange_mem, this, Hub.mrd]
  by_cases e : a ≤ x ∧ x < a + n
  · simp [e, memReset]
  · rw [if_neg e, if_pos (by simp; omega)]

/-- Erasing a range keeps memory canonical. -/
theorem Hub.memWf_mzero (h : Hub) (a n : Nat) (w : h.memWf = true) : (h.mzero a n).memWf = true :=
  SMap.wf_filter _ _ _ w

/-- A reset keeps memory and registers canonical. -/
theorem Hub.memWf_cleared (h : Hub) (keep : Nat → Bool) (w : h.memWf = true) : (h.cleared keep).memWf = true :=
  SMap.wf_filter _ _ _ w

theorem Hub.regsWf_cleared (h : Hub) (keep : Nat → Bool) (w : h.regsWf = true) : (h.cleared keep).regsWf = true := by
  unfold Hub.cleared
  exact Hub.regsWf_put _ _ _ (Hub.regsWf_put _ _ _ (SMap.wf_filter _ _ _ w))

/-- The memory of the hub after reset lists nothing. -/
theorem Hub.reset_memWf : Hub.reset.memWf = true := rfl

end Sys2Proof.Machine
end

