-- ==== Sys2Proof/Tests/Build.lean ====
section
/-! SUPPORT. Small states for tests: the hub at reset with some fields, words and bytes set. -/

namespace Sys2Proof.Machine

/-- The hub at reset with register fields put. -/
def hubWith (fs : List (RF × Nat)) : Hub := fs.foldl (fun h f => h.put f.1 f.2) Hub.reset

/-- A hub with register words written. -/
def Hub.withWords (h : Hub) (ws : List (Nat × Nat)) : Hub := ws.foldl (fun h w => h.wr w.1 (W w.2)) h

/-- One packet of five cells at the head of a queue of output 1, the pool's, class P. -/
def Hub.onePacket (h : Hub) : Hub :=
  let pk : Packet := ⟨130, .P, 3, 0, 0, 0, false, false, false, 0, 0, 0, []⟩
  { h with fab := { h.fab with
      pkts := [(0, ⟨pk, [0], .pool, 1, some .E, none, [], pk.cls⟩)], nextPid := 1,
      queues := [(qkey 1 130, ⟨[⟨0, .pool, false, false, pk.cls, pk.stamp, false⟩], 0, 0, 0, true⟩)] } }

/-- A hub whose context `n` is RUNNING at index 3 of a window of 8 instructions and 128 bytes of data, with fields put
and general registers set; every region of the access table allows what contexts do. -/
def ctxWith (n : Nat) (fs : List (RF × Nat)) (gs : List (Nat × Nat)) : Hub :=
  let h := hubWith ([(R.TUNC_CTX_STATUS_STATE n, 2), (R.TUNC_CTX_CODE_SIZE n, 8), (R.TUNC_CTX_DATA_SIZE n, 2),
    (R.TUNC_WDOG_LIMIT, 100), (R.ACC_CTRL_EN, 1), (R.ACC_REG_PERM_VALID 0, 1), (R.ACC_REG_PERM_PERM 0, 0x3FFFF),
    (word (A.ACC_REG_BASE 0), 0x100000 + 20), (R.ACC_REG_PERM_VALID 1, 1), (R.ACC_REG_PERM_PERM 1, 0x3FFFF),
    (word (A.ACC_REG_BASE 1), 0x200000 + 20), (R.ACC_REG_PERM_VALID 2, 1), (R.ACC_REG_PERM_PERM 2, 0x3FFFF),
    (word (A.ACC_REG_BASE 2), 0x300000 + 19)] ++ fs)
  h.setCtx n ((gs.foldl (fun x g => x.setGpr g.1 (W g.2)) { Ctx.empty with pc := 3 }))

/-- A hub with register fields put. -/
def Hub.withFields (h : Hub) (fs : List (RF × Nat)) : Hub := fs.foldl (fun h f => h.put f.1 f.2) h

/-- A hub with packet `s`, at place 0, alone in the queue of context `n`. -/
def Hub.queuePkt (h : Hub) (n : Nat) (s : Stored) : Hub :=
  { h with fab := { h.fab with pkts := [(0, s)], nextPid := 1, queues := [(qkey 13 n, ⟨[⟨0, s.acct, false, false, s.pkt.cls, s.pkt.stamp, false⟩], 0, 0, 0, false⟩)] } }

/-- A packet `s` at place `pid` held in register `d` of context `n`. -/
def Hub.holdMore (h : Hub) (n d pid : Nat) (s : Stored) : Hub :=
  ((h.onFab (fun f => { f with pkts := KMap.put f.pkts pid s, nextPid := pid + 1 })).setDd n d
    (some ⟨pid, capacityOf s.cells.length, if pid = 0 then 0 else 2, false, .pool⟩))

/-- `ctxWith` with a packet, at place 0, held in register `d`. -/
def holdPkt (n d : Nat) (s : Stored) (gs : List (Nat × Nat)) : Hub := (ctxWith n [] gs).holdMore n d 0 s

/-- A hub with a packet waiting at a tunnel's endpoint. -/
def Hub.epPkt (h : Hub) (n : Nat) (p : Packet) : Hub := { h with tun := { h.tun with epIn := setList h.tun.epIn n [p] } }

/-- A hub with the word of an instruction at the PC of its context. -/
def Hub.withWord (h : Hub) (c : Instr) : Hub :=
  match Instr.word? c with
  | some (n, w) => h.mstore (h.fetchAddr n) (wordBytes w)
  | none => h

/-- The hub after an instruction that stands at the PC of its context. -/
def ran (c : Instr) (h : Hub) : Hub :=
  match exec c ⟨h.withWord c, []⟩ with
  | .next t => t.hub
  | _ => h

/-- The hub after a command. -/
def after (c : Instr) (h : Hub) : Hub :=
  match exec c ⟨h, []⟩ with
  | .next t => t.hub
  | _ => h

end Sys2Proof.Machine
end

