-- ==== Sys2Proof/Tests/Slice0.lean ====
section
/-! SUPPORT. Checks on small states: an ill-formed command for each check of well-formedness, the worked examples and
published vectors as expected results, and for each statement a hub and operands that meet its hypotheses. -/

open Sys2Proof Sys2Proof.Machine

set_option maxRecDepth 100000

/-! ### Well-formedness -/

theorem test_wf_column :
    Instr.wf (.receiveColumn .W ⟨[], 0⟩) = false
    ∧ Instr.wf (.receiveColumn .W ⟨List.replicate 5 ⟨false, 0, false, false, false⟩, 0⟩) = true := by decide

theorem test_wf_width :
    Instr.wf (.narReceived .W 19 3) = false ∧ Instr.wf (.widReceived .W 19 0 false) = false
    ∧ Instr.wf (.narReceived .W 19 2) = true ∧ Instr.wf (.widReceived .W 19 2 false) = true := by decide

theorem test_wf_ordered_set :
    Instr.wf (.orderedSetReceived .W ⟨⟨256, 0, 0, 0, 0, 0, 0, 0, 0, 0, 0, 0⟩, true, 0, 0, [0, 1, 2, 3, 4]⟩) = false
    ∧ Instr.wf (.orderedSetReceived .W ⟨⟨1, 0, 0, 0, 0, 0, 0, 0, 0, 0, 0, 0⟩, true, 32, 0, [0, 1, 2, 3, 4]⟩) = false
    ∧ Instr.wf (.orderedSetReceived .W ⟨⟨1, 0, 0, 0, 0, 0, 0, 0, 0, 0, 0, 0⟩, true, 31, 32, [0, 1, 2, 3, 4]⟩) = false
    ∧ Instr.wf (.orderedSetReceived .W ⟨⟨1, 0, 0, 0, 0, 0, 0, 0, 0, 0, 0, 0⟩, true, 31, 31, []⟩) = false
    ∧ Instr.wf (.orderedSetReceived .W ⟨⟨1, 0, 0, 0, 0, 0, 0, 0, 0, 0, 0, 0⟩, true, 31, 31, [0, 1, 2, 3, 4]⟩) = true := by
  decide

theorem test_wf_packet :
    Instr.wf (.packetReceived .E ⟨List.replicate 260 0, 0, false, false, false, false⟩ none) = false
    ∧ Instr.wf (.packetReceived .E ⟨List.replicate 259 0, 0, false, false, false, false⟩ none) = true := by decide

theorem test_wf_frame : Instr.wf (.ethFrameReceived 0 [] false 0) = true := by decide

theorem test_wf_frame_length (f : List Byte) (h : f.length = 0x10000) : Instr.wf (.ethFrameReceived 0 f false 0) = false := by
  simp [Instr.wf, h]

theorem test_wf_response :
    Instr.wf (.emmcCommandDone .ok [0, 0, 0, 0, 0] [] false) = false
    ∧ Instr.wf (.emmcCommandDone .ok [0, 0, 0, 0] [] false) = true := by decide

theorem test_wf_capabilities :
    Instr.wf (.sourceCapabilities .W (List.replicate 8 ⟨100, 150⟩) false) = false
    ∧ Instr.wf (.sourceCapabilities .W [⟨1024, 150⟩] false) = false
    ∧ Instr.wf (.eprSourceCapabilities .W (List.replicate 12 ⟨100, 150⟩)) = false
    ∧ Instr.wf (.eprSourceCapabilities .W [⟨100, 1024⟩]) = false
    ∧ Instr.wf (.sinkCapabilities .W (List.replicate 12 ⟨100, 150⟩)) = false
    ∧ Instr.wf (.sinkCapabilities .W [⟨1024, 0⟩]) = false
    ∧ Instr.wf (.sourceCapabilities .W [⟨960, 500⟩] false) = true := by decide

theorem test_wf_request :
    Instr.wf (.request .W ⟨1024, 0⟩) = false ∧ Instr.wf (.eprRequest .W ⟨0, 1024⟩) = false
    ∧ Instr.wf (.request .W ⟨960, 500⟩) = true ∧ Instr.wf (.eprRequest .W ⟨960, 500⟩) = true := by decide

theorem test_wf_temperatures :
    Instr.wf (.fetTempUpdate [0, 0, 0, 0] .broken) = false ∧ Instr.wf (.fetTempUpdate [0, 0, 0, 0, 0] .broken) = true := by
  decide

theorem test_wf_reserved_op : Instr.wf (.secOpReserved 7) = false ∧ Instr.wf (.secOpReserved 8) = true := by decide

theorem test_wf_boundary :
    Instr.wf (.extest [true] []) = false ∧ Instr.wf (.samplePreload [] [true]) = false
    ∧ Instr.wf (.extest [true] [false]) = true := by decide

theorem test_wf_finding :
    Instr.wf (.coopSlice (some ⟨0, 0x200000, .none_⟩)) = false
    ∧ Instr.wf (.coopBufferSlice (some ⟨0, 0x200000, .none_⟩)) = false
    ∧ Instr.wf (.coopSlice (some ⟨71, 0x1FFFFF, .row⟩)) = true := by decide

/-! ### Decoding and the queue -/

/-- No row of the table has bits, so no word spells a command. -/
theorem test_no_word_spells_a_command (nbits w : Nat) : decodeTableWord nbits w = none := rfl

theorem test_fetch_word_leaves_state (s : State) (nbits w : Nat) : s.withFetchWord nbits w = s := rfl

theorem test_queue_is_first_in_first_out :
    step ⟨hubWith [], [.schDisarm, .idcode]⟩ = exec .schDisarm ⟨hubWith [], [.idcode]⟩ := rfl

theorem test_idle_tick_is_one_tick : ((hubWith []).onPw (fun p => { p with dark := true })).tick.root = 8 := by decide

/-! ### Worked examples of the spec -/

/-- Chapter 2, Narrow mode: an end that narrows sends bytes 0 and 1 of a word on its two lowest lanes with their XOR on the
highest, then bytes 2 and 3. -/
theorem test_narrow_word_columns :
    Layout.word ⟨0x13, 2, false⟩ 0x04030201
      = [⟨false, [(0, 1), (1, 2), (4, 3)]⟩, ⟨false, [(0, 3), (1, 4), (4, 7)]⟩] := by decide

/-- R40, R41: with one lane's symbols lost every lane's byte is there again. -/
theorem test_lost_lane_is_rebuilt :
    (let l : Layout := ⟨31, 4, false⟩
     let c := (l.dataColumn [0x12, 0x34, 0x56, 0x78]).arrives 2
     c.erasedLanes 31 (fun _ => false) = [2]
     ∧ (c.rebuild 31 [2]).bytes = [0x12, 0x34, 0x56, 0x78, 0x12 ^^^ 0x34 ^^^ 0x56 ^^^ 0x78]) := by decide

/-- Chapter 8, the routine of indexes 2,048 and 2,049: g5 becomes 0x0010_0000 and then 0x0010_0400. -/
theorem test_movhi_then_ori :
    (ran (.movhi 14 5 0x40) (ctxWith 14 [] [])).gpr 14 5 = 0x00100000#32
    ∧ (ran (.ori 14 5 5 0x400) (ctxWith 14 [] [(5, 0x100000)])).gpr 14 5 = 0x00100400#32 := by decide

/-- Chapter 8, index 2,055: ADDI g6, g6, −1 with imm18 0x3_FFFF, and index 2,056: Z when the count reaches 0. -/
theorem test_addi_minus_one_and_cmpi :
    (ran (.addi 14 6 6 0x3FFFF) (ctxWith 14 [] [(6, 1)])).gpr 14 6 = 0#32
    ∧ ((ran (.cmpi 14 6 0) (ctxWith 14 [] [(6, 0)])).ctx 14).z = true
    ∧ ((ran (.cmpi 14 6 0) (ctxWith 14 [] [(6, 1)])).ctx 14).z = false := by decide

/-- Chapter 8: LDW from 0x0010_0402 traps with cause ALIGN, CTX_ADDR holds the address, g4 its value. -/
theorem test_ldw_unaligned_traps :
    (let h := ran (.ldw 14 7 5 0) (ctxWith 14 [] [(5, 0x100402), (7, 9)])
     h.get (R.TUNC_CTX_STATUS_CAUSE 14) = trAlign ∧ h.rd (A.TUNC_CTX_ADDR 14) = 0x00100402#32 ∧ h.gpr 14 7 = 9#32) := by
  decide

/-- Chapter 8: a block that runs past 0x0017_FFFF traps with cause ADDR. -/
theorem test_ldw_past_common_memory_traps :
    (ran (.ldw 14 7 5 0) (ctxWith 14 [] [(5, 0x180000)])).get (R.TUNC_CTX_STATUS_CAUSE 14) = trAddr := by decide

/-- Chapter 8: LDW from common memory through the context's own address map, little end first. -/
theorem test_ldw_reads_common_memory :
    (ran (.ldw 14 7 5 0) ((ctxWith 14 [] [(5, 0x100400)]).mstore 0x300400 [0x78, 0x56, 0x34, 0x12])).gpr 14 7
      = 0x12345678#32 := by decide

/-- Chapter 5: RATE 36,000 and BURST 1,152 let in packet 0 of 144 bytes from 1,152.0 to 1,008.0 bytes, and 1.2 µs later
the bucket holds 1,013.4. -/
theorem test_policer_worked_example :
    (let h := ((hubWith [(R.POL_CFG_EN 2, 1), (R.POL_RATE_RATE 2, 36000), (R.POL_BURST_BURST 2, 1152)]).setPol 2
        ⟨1152 * 4000000, 0, 0, 0⟩)
     let (g, ok) := h.police 2 144
     ok = true ∧ (g.pol 2).tokens = 1008 * 4000000 ∧ (({ g with stime := 8 * 600 * 8 }).polRefill 2).tokens ≤ 1152 * 4000000) := by
  decide

/-- Chapter 4: the reply of the worked example gives 386 units of 0.125 ns, that is 193 of 0.25 ns. -/
theorem test_delay_probe_worked_example :
    (let x : PortPkt := ⟨⟨0, .M, 0, 6, 7, 0, false, false, false, 0, 5, 0, [3201]⟩, 4003587⟩
     let h := ((hubWith []).onLink .W (fun l => { l with ctl := [x] })).onTimePort .W
        (fun t => { t with probes := [(5, ⟨4000000, false, false⟩)], samples := [] })
     ((after (.delayReplyReceived .W) h).tm.ports.at .W).samples = [386]) := by decide

/-- Chapter 2, step 3: a NAR set with ARG0 0b1_0011 and width 2 leaves L0, L1 and L4. -/
theorem test_nar_worked_example :
    (let h := hubWith [(R.LNK_STATUS_STATE 0, 10), (R.LNK_STATUS_UP 0, 1)]
     let l := (after (.narReceived .E 0x13 2) h).links.at .E
     l.narMask = 0x13 ∧ l.txNext = some ⟨0x13, 2, false⟩) := by decide

/-- Chapter 17, step 2: presence after debounce moves the fuse from WAIT to DELAY. -/
theorem test_load_present_starts_delay :
    (after (.loadPresenceChange true) (hubWith [(R.LOAD_STATUS_STATE, 1), (R.LOAD_STATUS_WINDOW_OK, 1)])).get
      R.LOAD_STATUS_STATE = 2 := by decide

/-- Chapter 19: the words 0 and 3 of the nested entries at hub 7. -/
theorem test_nested_entries_worked_example :
    (let h := hubWith [(R.ERR_SEQ_NEWEST, 0x142), (R.ERR_SEQ_ACKED, 0x142), (R.ERR_STATUS_NEWEST, 2), (R.ERR_STATUS_VALID, 1),
        (R.TIME_STATUS_VALID, 1), (R.TIME_STATUS_QUALITY, 0)]
     let h3 := h.logBy 15 3 sevDG 0 0 0 (.narrow .W)
     let h4 := h3.log 15 9 sevC 0 0 0
     let h5 := (h4.recovered (.narrow .W)).log 15 4 sevDG 0 0 0
     let w := fun (g : Hub) (i k : Nat) => ((KMap.get? g.err.log i).map (fun r => r.words.getD k 0)).getD 0
     w h3 3 0 = 0x000300F1#32 ∧ w h3 3 3 = 0x01430000#32 ∧ w h4 4 0 = 0x000900FD#32 ∧ w h4 4 3 = 0x0144000C#32
     ∧ w h5 5 0 = 0x000400F1#32 ∧ w h5 5 3 = 0x01450000#32 ∧ h5.get R.ERR_COUNT_DG = 3) := by decide

/-- Chapter 15: user READs of the first 4 KiB pass and writes do not, with regions 2 and 7 as the example sets them. -/
theorem test_overlapped_region_worked_example :
    (let h := hubWith [(word (A.ACC_REG_BASE 2), 0x00300013), (word (A.ACC_REG_PERM 2), 0x4019B6DB),
        (word (A.ACC_REG_BASE 7), 0x0030000C), (word (A.ACC_REG_PERM 7), 0xC001B6CB)]
     h.decide_ 1 .read 0x300F00 = .ok false false ∧ h.decide_ 1 .read 0x301000 = .ok true true
     ∧ h.decide_ 1 .write 0x300F00 = .refused (denyInfo 1 .write false false true 71)
     ∧ h.decide_ 0 .write 0x300F00 = .ok false false) := by decide

/-! ### Published vectors of the functions the spec names -/

/-- The check value of CRC-32. -/
theorem test_crc32_check : crc32 (asciiBytes "123456789") = 0xCBF43926#32 := by decide

/-- FIPS 180: SHA-384 of "abc" begins CB00753F. -/
theorem test_sha384_abc : (sha384 (asciiBytes "abc")).take 4 = [0xCB#8, 0x00#8, 0x75#8, 0x3F#8] := by decide

/-- FIPS 197, C.3: AES-256 of 00112233445566778899AABBCCDDEEFF. -/
theorem test_aes256_block :
    aesEnc (aesKeys ((List.range 32).map (BitVec.ofNat 8))) ((List.range 16).map (fun i => BitVec.ofNat 8 (17 * i)))
      = [0x8E#8, 0xA2#8, 0xB7#8, 0xCA#8, 0x51#8, 0x67#8, 0x45#8, 0xBF#8, 0xEA#8, 0xFC#8, 0x49#8, 0x90#8, 0x4B#8, 0x49#8,
        0x60#8, 0x89#8] := by decide

/-! ### Boundaries of single commands -/

/-- A sum that wraps sets Z and C, clears N, and leaves V, since the operands' signs differ. -/
theorem test_add_wraps :
    (let x := (ran (.add 3 1 2 4 true) (ctxWith 3 [] [(2, 0xFFFFFFFF), (4, 1)])).ctx 3
     x.gpr 1 = 0#32 ∧ x.flags = ⟨true, false, true, false⟩) := by decide

/-- g0 reads as zero and discards writes. -/
theorem test_g0_discards_writes : (ran (.addi 3 0 0 5) (ctxWith 3 [] [])).gpr 3 0 = 0#32 := by decide

/-- A write of every bit of a read-only register changes nothing. -/
theorem test_read_only_register :
    (hubWith []).plain A.DEV_ID 0xFFFFFFFF 15 = hubWith [] := by decide

/-- A stopped hub's memory and log are as they were: POWER_LOSS leaves a dark hub, which takes no write. -/
theorem test_dark_hub_takes_nothing :
    after .schDisarm ((hubWith [(R.SCH_STATUS_ARMED, 1)]).onPw (fun p => { p with dark := true }))
      = (hubWith [(R.SCH_STATUS_ARMED, 1)]).onPw (fun p => { p with dark := true }) := by decide

theorem test_reset_tables_are_canonical :
    Hub.reset.memWf = true ∧ Hub.reset.regsWf = true ∧ Hub.reset.logWf = true := by decide

/-! ### States and operands that meet the hypotheses of each statement -/

set_option linter.unusedVariables false

theorem test_witness_StepTakesFrontCommand : Hub.reset.awake = true ∧ Hub.reset.tm.err = 0 ∧ Hub.reset.get R.TIME_STATUS_QUALITY = Hub.reset.qualityNow ∧ (∀ p : Port, Hub.reset.repeats p = none
 ∧ Hub.reset.lstate p ≠ stLoopFar) ∧ (∀ c < 8, (Hub.reset.chan c).tx = []) ∧ Hub.reset.tun.left = [] ∧ Hub.reset.brg.cplq = [] := by refine ⟨by decide, by decide, by decide, ?_, by decide, by decide, by decide⟩; intro p; cases p <;> decide

/-- States and operands that meet the hypotheses of `Obligations.DisarmEndsArming`. -/
theorem test_witness_DisarmEndsArming :
    (let h : Hub := hubWith [(R.SCH_STATUS_ARMED, 1)]; (h.awake = true) ∧ (h.on R.SCH_STATUS_ARMED = true))
    ∧ (let h : Hub := hubWith []; (h.awake = true) ∧ (h.on R.SCH_STATUS_ARMED = false)) :=
  by and_intros <;> decide

theorem test_witness_StoppedCoreTakesNothing : ofSupply .schDisarm = false ∧ ofPower .schDisarm = false ∧ ofRetention .schDisarm = false ∧ ofTap .schDisarm = false ∧ ((hubWith []).onPw (fun p => { p with rail := true })).pw.rail = true ∧ ((hubWith []).onPw (fun p => { p with steep := true })).pw.steep = true ∧ ({ hubWith [] with err := { (hubWith []).err with held := true } } : Hub).err.held = true := by decide

theorem test_witness_UnpoweredHubOnlyAges : State.unpowered ⟨(hubWith []).onPw (fun p => { p with dark := true }), [.schDisarm, .idcode]⟩ := by
  refine ⟨by decide, ?_⟩
  intro f m h
  simp at h

/-- States and operands that meet the hypotheses of `Obligations.LaneServiceCommands`. -/
theorem test_witness_LaneServiceCommands :
    (let p : Port := .W;
     let c : Column := ⟨[], 0⟩;
     let h : Hub := hubWith [(R.LNK_STATUS_STATE 1, 10), (R.LNK_STATUS_UP 1, 1), (R.LNK_LANE_RX_L 1 0, 0)];
     (h.awake = true) ∧ (h.carries p = true) ∧ (h.litLanes p ≠ 0))
    ∧ (let p : Port := .W;
       let c : Column := ⟨[], 0⟩;
       let h : Hub := hubWith [(R.LNK_STATUS_STATE 1, 19)]; (h.awake = true) ∧ (h.lstate p = stLoopRemote))
    ∧ (let p : Port := .W;
       let c : Column := ⟨[], 0⟩;
       let h : Hub := hubWith [(R.LNK_STATUS_STATE 1, 16), (R.LNK_PATTERN_RUN 1, 1)]; (h.awake = true)
       ∧ (h.patternRuns p = true))
    ∧ (let p : Port := .W;
       let h : Hub := hubWith [(R.LNK_STATUS_STATE 1, 10), (R.LNK_STATUS_UP 1, 1), (R.LNK_LANE_TX_L 1 0, 0), (R.CLK_STATUS_MODE, 2)];
       (h.awake = true) ∧ (h.carries p = true) ∧ (h.drives p = true) ∧ (h.silent = false))
    ∧ (let p : Port := .W;
       let l : Fin 5 := 0;
       let h : Hub := hubWith [(R.LNK_STATUS_STATE 1, 10), (R.LNK_STATUS_UP 1, 1), (R.LNK_LANE_RX_L 1 0, 0)];
       (h.awake = true) ∧ (h.carries p = true) ∧ (h.laneRx p l = 0))
    ∧ (let p : Port := .W;
       let l : Fin 5 := 0;
       let h : Hub := ((hubWith [(R.LNK_STATUS_STATE 1, 10), (R.LNK_LANE_RX_L 1 0, 0)]).onLink .W (fun x => { x with narSent := some 7 }));
       (h.awake = true) ∧ (h.carries p = true) ∧ (h.laneRx p l = 0) ∧ ((h.links.at p).withdrawn = none)
       ∧ ((h.links.at p).narSent.isSome = true))
    ∧ (let p : Port := .W;
       let mask : BitVec 5 := 19;
       let w : Nat := 2;
       let h : Hub := hubWith [(R.LNK_STATUS_STATE 1, 10), (R.LNK_STATUS_UP 1, 1), (R.LNK_LANE_RX_L 1 0, 0)];
       (h.awake = true) ∧ (h.carries p = true) ∧ (w = 1 ∨ w = 2 ∨ w = 4))
    ∧ (let p : Port := .W;
       let l : Layout := .full;
       let h : Hub := ((hubWith []).onLink .W (fun x => { x with txNext := some .full })); (h.awake = true)
       ∧ ((h.links.at p).txNext = some l))
    ∧ (let p : Port := .W;
       let mask : BitVec 5 := 19;
       let w : Nat := 2;
       let s : Bool := false;
       let h : Hub := hubWith [(R.LNK_STATUS_STATE 1, 10), (R.LNK_STATUS_UP 1, 1), (R.LNK_LANE_RX_L 1 0, 0)];
       (h.awake = true) ∧ (h.carries p = true) ∧ (w = 1 ∨ w = 2 ∨ w = 4))
    ∧ (let p : Port := .W;
       let h : Hub := (hubWith [(R.LNK_STATUS_STATE 1, 10), (R.LNK_STATUS_UP 1, 1), (R.LNK_STATUS_GEAR 1, 1)]).onLink .W (fun x => { x with bad := 250 });
       (h.awake = true) ∧ (h.carries p = true) ∧ (h.badForMicrosecond p = true))
    ∧ (let p : Port := .W;
       let l : Fin 5 := 0;
       let h : Hub := hubWith [(R.LNK_STATUS_STATE 1, 10), (R.LNK_STATUS_UP 1, 1), (R.LNK_LANE_RX_L 1 0, 1)];
       (h.awake = true) ∧ (h.carries p = true) ∧ (h.laneRx p l = 1))
    ∧ (let p : Port := .W;
       let l : Fin 5 := 0;
       let h : Hub := hubWith [(R.LNK_STATUS_STATE 1, 10), (R.LNK_STATUS_UP 1, 1), (R.LNK_LANE_RX_L 1 0, 4), (R.LNK_LANE_RX_L 1 1, 4)];
       (h.awake = true) ∧ (h.carries p = true) ∧ (h.laneRx p l = 4))
    ∧ (let p : Port := .W;
       let serial : Bool := true;
       let h : Hub := hubWith [(R.LNK_STATUS_STATE 1, 10), (R.LNK_STATUS_UP 1, 1)]; (h.awake = true)
       ∧ (h.lstate p ≠ stDisabled))
    ∧ (let p : Port := .W;
       let h : Hub := hubWith [(R.LNK_STATUS_STATE 1, 10), (R.LNK_STATUS_UP 1, 1)]; (h.awake = true)
       ∧ (h.lstate p ≠ stDisabled))
    ∧ (let p : Port := .W;
       let h : Hub := hubWith [(R.LNK_STATUS_STATE 1, 10), (R.LNK_STATUS_UP 1, 1)]; (h.awake = true)
       ∧ (h.lstate p = stActive) ∧ (h.on (R.LNK_CTRL_FAR_LOOP_ALLOW p.ix) = true))
    ∧ (let p : Port := .W;
       let h : Hub := hubWith [(R.LNK_STATUS_STATE 1, 10), (R.LNK_CTRL_FAR_LOOP_ALLOW 1, 0)]; (h.awake = true)
       ∧ (h.lstate p = stActive) ∧ (h.on (R.LNK_CTRL_FAR_LOOP_ALLOW p.ix) = false))
    ∧ (let p : Port := .W;
       let h : Hub := hubWith [(R.LNK_STATUS_STATE 1, 18), (R.LNK_CTRL_LOOPBACK 1, 3)]; (h.awake = true)
       ∧ (h.lstate p = stLoopFar))
    ∧ (let p : Port := .W;
       let h : Hub := hubWith [(R.LNK_STATUS_STATE 1, 17), (R.LNK_CTRL_LOOPBACK 1, 2)]; (h.awake = true)
       ∧ (h.lstate p = stLoopPar ∨ h.lstate p = stLoopSer ∨ h.lstate p = stLoopFar))
    ∧ (let p : Port := .W;
       let h : Hub := hubWith [(R.LNK_STATUS_STATE 1, 19)]; (h.awake = true) ∧ (h.lstate p = stLoopRemote)) :=
  by and_intros <;> decide

/-- States and operands that meet the hypotheses of `Obligations.LaneWithdrawAndPower`. -/
theorem test_witness_LaneWithdrawAndPower :
    (let p : Port := .W;
     let l : BitVec 3 := 4;
     let h : Hub := hubWith [(R.LNK_STATUS_STATE 1, 10), (R.LNK_STATUS_UP 1, 1), (word (A.LNK_LANE_RX 1), 0)];
     (h.awake = true) ∧ (h.inService p = true) ∧ (l.toNat ≤ 4) ∧ ((h.links.at p).asked = none)
     ∧ ((h.links.at p).withdrawn = none))
    ∧ (let p : Port := .W;
       let l : BitVec 3 := 4;
       let h : Hub := ((hubWith []).onLink .W (fun x => { x with withdrawn := some 2 })); (h.awake = true)
       ∧ ((h.links.at p).withdrawn.isSome = true))
    ∧ (let p : Port := .W;
       let l : Fin 5 := 3;
       let h : Hub := hubWith [(R.LNK_STATUS_STATE 1, 10), (R.LNK_STATUS_UP 1, 1), (word (A.LNK_LANE_RX 1), 0), (word (A.LNK_LANE_TX 1), 0)];
       (h.awake = true) ∧ (h.inService p = true) ∧ ((h.links.at p).asked = none) ∧ (h.mayWithdraw p = true))
    ∧ (let p : Port := .W;
       let l : Fin 5 := 3;
       let h : Hub := hubWith [(R.LNK_STATUS_STATE 1, 10), (R.LNK_STATUS_UP 1, 1), (word (A.LNK_LANE_RX 1), 0)];
       (h.awake = true) ∧ (h.inService p = true) ∧ ((h.links.at p).asked = none) ∧ (h.mayWithdraw p = false))
    ∧ (let p : Port := .W;
       let l : Nat := 2;
       let h : Hub := ((hubWith []).onLink .W (fun x => { x with withdrawn := some 2 })); (h.awake = true)
       ∧ ((h.links.at p).withdrawn = some l))
    ∧ (let p : Port := .W;
       let l : Fin 5 := 2;
       let h : Hub := ((hubWith []).onLink .W (fun x => { x with withdrawn := some 2 })); (h.awake = true)
       ∧ ((h.links.at p).withdrawn = some l.val))
    ∧ (let p : Port := .W;
       let h : Hub := hubWith [(R.LNK_STATUS_STATE 2, 10), (R.LNK_STATUS_UP 2, 1)]; (h.awake = true)
       ∧ (h.on (R.LNK_LOWPWR_LULL_EN 2) = true) ∧ (h.on (R.LNK_STATUS_TX_LULL 2) = false) ∧ (h.inService .S = true)
       ∧ (h.nothingToSend .S = true))
    ∧ (let p : Port := .W;
       let h : Hub := hubWith [(R.LNK_STATUS_TX_LULL 1, 1)]; (h.awake = true) ∧ (h.on (R.LNK_STATUS_TX_LULL p.ix) = true))
    ∧ (let p : Port := .W;
       let h : Hub := ((hubWith [(R.LNK_STATUS_STATE 1, 10), (R.LNK_STATUS_UP 1, 1), (R.LNK_LOWPWR_SHED_WAKE 1, 0)]).onePacket.onLink .W (fun x => { x with tx := layoutOf 19 1 false }));
       (h.awake = true) ∧ (h.inService p = true) ∧ (h.overWake p = true) ∧ ((h.links.at p).tx ≠ (h.links.at p).ceiling))
    ∧ (let p : Port := .W;
       let h : Hub := hubWith [(R.LNK_STATUS_STATE 1, 10), (R.LNK_STATUS_UP 1, 1), (word (A.LNK_LANE_RX 1), 0)];
       (h.awake = true) ∧ (p ≠ .S) ∧ (h.lstate p = stActive) ∧ (h.up p = true) ∧ (h.on (R.LNK_LOWPWR_SHED_EN p.ix) = true)
       ∧ ((h.links.at p).withdrawn = none) ∧ (h.overWake p = false) ∧ (h.shedLayout p ≠ (h.links.at p).tx))
    ∧ (let p : Port := .W;
       let h : Hub := ((hubWith [(R.LNK_LOWPWR_PAR_SHED_EN 1, 1)]).onePacket.onLink .W (fun x => { x with tx := layoutOf 31 4 true }));
       (h.awake = true) ∧ ((h.links.at p).tx.parShed = true) ∧ (h.pWaits p.ix = true)) :=
  by and_intros <;> decide

/-- States and operands that meet the hypotheses of `Obligations.LaneTrainingCommands`. -/
theorem test_witness_LaneTrainingCommands :
    (let p : Port := .W;
     let x : RxSet := ⟨⟨1, 0, 0, 0, 0, 0, 0, 0, 0, 0, 0, 0⟩, true, 0, 0, []⟩;
     let h : Hub := hubWith []; (h.awake = true) ∧ (x.clean = false ∨ x.o.ok = false))
    ∧ (let p : Port := .W;
       let x : RxSet := ⟨⟨1, 0, 0, 0, 0, 0, 0, 0, 0, 0, 0, 1⟩, true, 31, 0, []⟩;
       let h : Hub := ((hubWith [(R.LNK_STATUS_STATE 1, 3)]).onLink .W (fun l => { l with pairs := 31 }));
       (h.awake = true) ∧ (x.clean = true) ∧ (x.o.ok = true) ∧ (x.o.typ = osTS1) ∧ (h.lstate p = stLock)
       ∧ ((h.links.at p).run < 19) ∧ (3 ≤ (lanesOf (Nat.land (h.links.at p).pairs x.lock)).length))
    ∧ (let p : Port := .W;
       let h : Hub := hubWith [(R.CC_STATUS_ATTACH 1, 1), (R.CC_STATUS_FLIPPED 1, 1)]; (h.awake = true)
       ∧ (h.lstate p = stDetectAttach) ∧ (h.ccAttached p = true))
    ∧ (let p : Port := .W;
       let m : BitVec 5 := 7;
       let h : Hub := hubWith [(R.LNK_STATUS_STATE 1, 2)]; (h.awake = true) ∧ (h.lstate p = stDetectRx)
       ∧ ((h.links.at p).dead = 0) ∧ (3 ≤ (lanesOf m.toNat).length))
    ∧ (let p : Port := .W;
       let h : Hub := hubWith [(R.LNK_STATUS_STATE 1, 2)]; (h.awake = true) ∧ (h.lstate p = stDetectRx))
    ∧ (let p : Port := .E;
       let h : Hub := hubWith [(R.LNK_STATUS_STATE 0, 7)]; (h.awake = true) ∧ (h.lstate p = stGearStep)
       ∧ (h.leads p = true) ∧ ((h.links.at p).accepted = false) ∧ ((h.links.at p).relock = false))
    ∧ (let p : Port := .W;
       let h : Hub := ((hubWith [(R.LNK_STATUS_STATE 1, 7)]).onLink .W (fun l => { l with accepted := true }));
       (h.awake = true) ∧ (h.lstate p = stGearStep) ∧ ((h.links.at p).accepted = true) ∧ (h.gear p < 4))
    ∧ (let p : Port := .W;
       let h : Hub := ((hubWith [(R.LNK_STATUS_STATE 1, 8)]).onLink .W (fun l => { l with doneThere := 31 }));
       (h.awake = true) ∧ (h.lstate p = stEqTrain) ∧ ((h.links.at p).doneThere = 31))
    ∧ (let p : Port := .W;
       let h : Hub := ((hubWith [(R.LNK_STATUS_STATE 1, 9), (R.LNK_STATUS_GEAR 1, 2)]).onLink .W (fun l => { l with target := 2, checkThere := some true }));
       (h.awake = true) ∧ (h.lstate p = stEqCheck) ∧ ((h.links.at p).checkThere = some true)
       ∧ ((h.links.at p).target ≤ h.gear p))
    ∧ (let p : Port := .W;
       let h : Hub := ((hubWith [(R.LNK_STATUS_STATE 1, 9), (R.LNK_STATUS_GEAR 1, 2)]).onLink .W (fun l => { l with target := 2 }));
       (h.awake = true) ∧ (h.lstate p = stEqCheck))
    ∧ (let p : Port := .W;
       let h : Hub := hubWith [(R.LNK_STATUS_STATE 1, 10)]; (h.awake = true) ∧ (h.lstate p = stActive) ∧ (h.up p = false))
    ∧ (let p : Port := .W; let h : Hub := hubWith []; (h.awake = true))
    ∧ (let p : Port := .W;
       let h : Hub := hubWith [(R.LNK_STATUS_STATE 1, 0)]; (h.awake = true) ∧ (h.lstate p = stDisabled)
       ∧ (h.get (R.CC_STATUS_ATTACH p.ix) = 0))
    ∧ (let p : Port := .W;
       let h : Hub := hubWith [(R.LNK_STATUS_STATE 1, 10)]; (h.awake = true) ∧ (h.lstate p ≠ stDisabled)
       ∧ (h.lstate p ≠ stDetectAttach))
    ∧ (let p : Port := .W;
       let h : Hub := hubWith [(R.LNK_STATUS_STATE 1, 10), (R.LNK_STATUS_UP 1, 1)]; (h.awake = true)
       ∧ (h.lstate p ≠ stDisabled))
    ∧ (let p : Port := .W;
       let h : Hub := hubWith [(R.LNK_STATUS_STATE 1, 13)]; (h.awake = true) ∧ (h.lstate p = stBackoff))
    ∧ (let p : Port := .W;
       let g : Byte := 4;
       let h : Hub := hubWith [(R.LNK_STATUS_STATE 1, 10), (R.LNK_STATUS_UP 1, 1)]; (h.awake = true)
       ∧ (h.lstate p = stActive)) :=
  by and_intros <;> decide

/-- States and operands that meet the hypotheses of `Obligations.LeavingService`. -/
theorem test_witness_LeavingService :
    (let p : Port := .W;
     let st : Nat := 2;
     let h : Hub := hubWith [(R.LNK_STATUS_STATE 1, 10), (R.LNK_STATUS_UP 1, 1)]; (st < 32))
    ∧ (let p : Port := .W;
       let st : Nat := 2;
       let q : Port := .E;
       let h : Hub := hubWith [(R.LNK_STATUS_STATE 1, 10), (R.LNK_STATUS_UP 1, 1)]; (st < 32) ∧ (q ≠ p)) :=
  by and_intros <;> decide

/-- States and operands that meet the hypotheses of `Obligations.PacketsOverTheLanes`. -/
theorem test_witness_PacketsOverTheLanes :
    (let l : Layout := layoutOf 29 2 false;
     let u : Nat := 29;
     let w : Nat := 2;
     let lost : Nat := 2;
     let s : Bool := false;
     let p : Packet := ⟨0x123, .B, 5, 3, 7, 0xABC, true, false, true, 0x1234, 0x8765, 0xDEADBEEF, [0x01020304, 0xF1F2F3F4]⟩;
     (l = layoutOf u w s) ∧ (w = 4 ∨ w = 2 ∨ w = 1) ∧ (l.dataLanes.length = w)
     ∧ (l.parityLane = none → lost ∉ lanesOf l.mask))
    ∧ (let l : Layout := layoutOf 29 2 false;
       let u : Nat := 29;
       let w : Nat := 2;
       let lost : Nat := 2;
       let s : Bool := false;
       let p : Packet := ⟨0x123, .B, 5, 3, 7, 0xABC, true, false, true, 0x1234, 0x8765, 0xDEADBEEF, [0x01020304, 0xF1F2F3F4]⟩;
       let a : List Word := [1, 2];
       let b : List Word := [3];
       let v : Word := 0x01020304; (l = layoutOf u w s) ∧ (w = 4 ∨ w = 2 ∨ w = 1) ∧ (l.dataLanes.length = w)
       ∧ (l.parityLane = none → lost ∉ lanesOf l.mask))
    ∧ (let l : Layout := layoutOf 29 2 false;
       let u : Nat := 29;
       let w : Nat := 2;
       let lost : Nat := 2;
       let s : Bool := false;
       let p : Packet := ⟨0x123, .B, 5, 3, 7, 0xABC, true, false, true, 0x1234, 0x8765, 0xDEADBEEF, [0x01020304, 0xF1F2F3F4]⟩;
       let a : List Word := [1, 2];
       let b : List Word := [3];
       let v : Nat := 0x0102030405060708; (l = layoutOf u w s) ∧ (w = 4 ∨ w = 2 ∨ w = 1) ∧ (l.dataLanes.length = w)
       ∧ (l.parityLane = none → lost ∉ lanesOf l.mask) ∧ (v < 2 ^ 64))
    ∧ (let l : Layout := layoutOf 29 2 false;
       let u : Nat := 29;
       let w : Nat := 2;
       let lost : Nat := 2;
       let s : Bool := false;
       let p : Packet := ⟨0x123, .B, 5, 3, 7, 0xABC, true, false, true, 0x1234, 0x8765, 0xDEADBEEF, [0x01020304, 0xF1F2F3F4]⟩;
       (l = layoutOf u w s) ∧ (w = 4 ∨ w = 2 ∨ w = 1) ∧ (l.dataLanes.length = w)
       ∧ (l.parityLane = none → lost ∉ lanesOf l.mask) ∧ (p.inRange = true)) :=
  by and_intros <;> decide

/-- States and operands that meet the hypotheses of `Obligations.LinkControlCommands`. -/
theorem test_witness_LinkControlCommands :
    (let p : Port := .W;
     let h : Hub := ((hubWith [(R.CLK_STATUS_MODE, 2), (R.LNK_STATUS_STATE 1, 10), (R.LNK_STATUS_UP 1, 1)]).onLink .W (fun l => { l with nakOut := true }));
     (h.awake = true) ∧ (h.inService p = true) ∧ (h.silent = false) ∧ ((h.links.at p).nakOut = true))
    ∧ (let p : Port := .W;
       let h : Hub := ((hubWith [(R.CLK_STATUS_MODE, 2), (R.LNK_STATUS_STATE 1, 10), (R.LNK_STATUS_UP 1, 1)]).onLink .W (fun l => { l with good := 1 }));
       (h.awake = true) ∧ (h.inService p = true) ∧ (h.silent = false) ∧ (0 < (h.links.at p).good))
    ∧ (let p : Port := .W;
       let n : BitVec 12 := 4095;
       let k : Nat := 1;
       let h : Hub := ((hubWith [(R.LNK_STATUS_STATE 1, 10), (R.LNK_STATUS_UP 1, 1)]).onLink .W (fun l => { l with replay := [⟨0, .M, 1, 0, 0, 4095, false, false, false, 0, 0, 0, []⟩] }));
       (h.awake = true) ∧ (h.inService p = true) ∧ ((h.links.at p).freeCount n.toNat = some k))
    ∧ (let p : Port := .W;
       let n : BitVec 12 := 0;
       let h : Hub := hubWith [(R.CLK_STATUS_MODE, 2), (R.LNK_STATUS_STATE 1, 10), (R.LNK_STATUS_UP 1, 1), (R.LNK_RX_SEQ_EXPECTED 1, 0)];
       (h.awake = true) ∧ (h.inService p = true) ∧ ((h.links.at p).freeCount n.toNat = none))
    ∧ (let p : Port := .W;
       let n : BitVec 12 := 7;
       let h : Hub := hubWith [(R.CLK_STATUS_MODE, 2), (R.LNK_STATUS_STATE 1, 10), (R.LNK_STATUS_UP 1, 1), (R.LNK_RX_SEQ_EXPECTED 1, 0)];
       (h.awake = true) ∧ (h.inService p = true) ∧ ((h.links.at p).replay = []))
    ∧ (let p : Port := .W;
       let n : BitVec 12 := 4095;
       let k : Nat := 1;
       let h : Hub := ((hubWith [(R.LNK_STATUS_STATE 1, 10), (R.LNK_STATUS_UP 1, 1)]).onLink .W (fun l => { l with replay := [⟨0, .M, 1, 0, 0, 4095, false, false, false, 0, 0, 0, []⟩, ⟨0, .M, 1, 0, 0, 0, false, false, false, 0, 0, 0, []⟩] }));
       (h.awake = true) ∧ (h.inService p = true) ∧ ((h.links.at p).freeCount n.toNat = some k)
       ∧ ((h.links.at p).replay.drop k ≠ []) ∧ (0 < h.get (R.LNK_PKT_CTRL_REPLAY_MAX p.ix)))
    ∧ (let p : Port := .W;
       let n : BitVec 12 := 4094;
       let o : Packet := ⟨0, .M, 1, 0, 0, 4095, false, false, false, 0, 0, 0, []⟩;
       let xs : List Packet := [];
       let h : Hub := ((hubWith [(R.LNK_STATUS_STATE 1, 10), (R.LNK_STATUS_UP 1, 1)]).onLink .W (fun l => { l with replay := [⟨0, .M, 1, 0, 0, 4095, false, false, false, 0, 0, 0, []⟩] }));
       (h.awake = true) ∧ (h.inService p = true) ∧ ((h.links.at p).replay = o :: xs) ∧ (n.toNat = subMod 4096 o.lseq 1)
       ∧ ((h.links.at p).replay.length < 2048) ∧ ((h.links.at p).noProg < h.get (R.LNK_PKT_CTRL_REPLAY_MAX p.ix)))
    ∧ (let p : Port := .W;
       let h : Hub := ((hubWith [(R.LNK_STATUS_STATE 1, 10), (R.LNK_STATUS_UP 1, 1)]).onLink .W (fun l => { l with replay := [⟨0, .M, 1, 0, 0, 4095, false, false, false, 0, 0, 0, []⟩] }));
       (h.awake = true) ∧ (h.inService p = true) ∧ ((h.links.at p).replay ≠ [])
       ∧ ((h.links.at p).noProg < h.get (R.LNK_PKT_CTRL_REPLAY_MAX p.ix)))
    ∧ (let p : Port := .W;
       let h : Hub := ((hubWith [(R.LNK_STATUS_STATE 1, 10), (R.LNK_STATUS_UP 1, 1)]).onLink .W (fun l => { l with replay := [⟨0, .M, 1, 0, 0, 4095, false, false, false, 0, 0, 0, []⟩], noProg := 99 }));
       (h.awake = true) ∧ (h.inService p = true) ∧ ((h.links.at p).replay ≠ [])
       ∧ (h.get (R.LNK_PKT_CTRL_REPLAY_MAX p.ix) ≤ (h.links.at p).noProg))
    ∧ (let p : Port := .W;
       let c : Cls := .D;
       let v : BitVec 16 := 2040;
       let h : Hub := hubWith [(R.CLK_STATUS_MODE, 2), (R.LNK_STATUS_STATE 1, 10), (R.LNK_STATUS_UP 1, 1), (R.LNK_RX_SEQ_EXPECTED 1, 0)];
       (h.awake = true) ∧ (h.inService p = true) ∧ (subMod 65536 v.toNat ((h.links.at p).used.at c) ≤ 2040))
    ∧ (let p : Port := .W;
       let c : Cls := .D;
       let v : BitVec 16 := 2041;
       let h : Hub := hubWith [(R.CLK_STATUS_MODE, 2), (R.LNK_STATUS_STATE 1, 10), (R.LNK_STATUS_UP 1, 1), (R.LNK_RX_SEQ_EXPECTED 1, 0)];
       (h.awake = true) ∧ (h.inService p = true) ∧ (2040 < subMod 65536 v.toNat ((h.links.at p).used.at c)))
    ∧ (let p : Port := .W;
       let c : Cls := .B;
       let h : Hub := hubWith [(R.CLK_STATUS_MODE, 2), (R.LNK_STATUS_STATE 1, 10), (R.LNK_STATUS_UP 1, 1), (R.LNK_RX_SEQ_EXPECTED 1, 0)];
       (h.awake = true) ∧ (h.inService p = true) ∧ (h.silent = false))
    ∧ (let p : Port := .W;
       let w : Word := 0x14;
       let h : Hub := hubWith [(R.CLK_STATUS_MODE, 2), (R.LNK_STATUS_STATE 1, 10), (R.LNK_STATUS_UP 1, 1), (R.LNK_RX_SEQ_EXPECTED 1, 0)];
       (h.awake = true) ∧ (h.inService p = true) ∧ (lcGood w = false))
    ∧ (let p : Port := .W; let w : Word := 0x11; let h : Hub := hubWith []; (h.awake = true) ∧ (h.inService p = false)) :=
  by and_intros <;> decide

/-- States and operands that meet the hypotheses of `Obligations.PacketAndRouteCommands`. -/
theorem test_witness_PacketAndRouteCommands :
    (let p : Port := .W;
     let w : Wire := ⟨[0x60FF, 0, 0, 0], crc32 (bytesOf [0x60FF, 0, 0, 0]), false, false, false, false⟩;
     let cut : Option Port := none;
     let q : Packet := ⟨0x20FF, .M, 0, 0, 0, 0, false, false, false, 0, 0, 0, []⟩;
     let h : Hub := hubWith [(R.CLK_STATUS_MODE, 2), (R.LNK_STATUS_STATE 1, 10), (R.LNK_STATUS_UP 1, 1)]; (h.awake = true)
     ∧ (h.inService p = true) ∧ (w.poisoned = false) ∧ (h.goodPacket p w = some q)
     ∧ (q.cls = .P ∨ q.lseq = h.get (R.LNK_RX_SEQ_EXPECTED p.ix)))
    ∧ (let p : Port := .W;
       let w : Wire := ⟨[0x4080, 0, 0, 0], crc32 (bytesOf [0x4080, 0, 0, 0]), false, false, false, false⟩;
       let q : Packet := ⟨128, .M, 0, 0, 0, 0, false, false, false, 0, 0, 0, []⟩;
       let h : Hub := hubWith [(R.CLK_STATUS_MODE, 2), (R.LNK_STATUS_STATE 1, 10), (R.LNK_STATUS_UP 1, 1)];
       (h.awake = true) ∧ (h.inService p = true) ∧ (w.poisoned = false) ∧ (h.goodPacket p w = some q) ∧ (q.cls ≠ .P)
       ∧ (q.lseq = h.get (R.LNK_RX_SEQ_EXPECTED p.ix)) ∧ (h.headerBad q p = false) ∧ (q.hops < 130) ∧ (q.portOwn = false)
       ∧ (h.on R.FAB_STATUS_REBUILD = false))
    ∧ (let p : Port := .W;
       let w : Wire := ⟨[0x0082, 0, 0, 0], crc32 (bytesOf [0x0082, 0, 0, 0]), false, false, false, false⟩;
       let q : Packet := ⟨130, .P, 0, 0, 0, 0, false, false, false, 0, 0, 0, []⟩;
       let n : Nat := 2;
       let o : Nat := 13;
       let pid : Nat := 0;
       let h : Hub := (hubWith [(R.CLK_STATUS_MODE, 2), (R.LNK_STATUS_STATE 1, 10), (R.LNK_STATUS_UP 1, 1), (R.DEV_STATUS_ADDR, 1), (R.TUNC_BOUND_BINDING 2, 2)]).onLink .W (fun l => { l with allot := ⟨100, 0, 0, 0⟩ });
       (h.awake = true) ∧ (h.inService p = true) ∧ (w.poisoned = false) ∧ (h.goodPacket p w = some q) ∧ (q.cls = .P)
       ∧ (h.headerBad q p = false) ∧ (q.portOwn = false) ∧ (h.on R.FAB_STATUS_REBUILD = false) ∧ (w.early = false)
       ∧ (h.way q (some p) = .deliver n) ∧ (h.winTest n q ≠ .duplicate) ∧ (h.localOut n = some o)
       ∧ ((h.ctx n).discard = false) ∧ (h.bindCls n = .P)
       ∧ (((h.winTake n q p).enqueue q (some p) none none [⟨o, n, false, false, false⟩]).2 = some pid))
    ∧ (let p : Port := .W;
       let q : Packet := ⟨128, .M, 0, 0, 0, 0, false, false, false, 0, 0, 0, []⟩;
       let h : Hub := hubWith [(R.DEV_STATUS_ADDR, 1)]; (h.awake = true) ∧ (h.hasAddr = true) ∧ (hubOf q.dest = h.addr))
    ∧ (let p : Port := .W;
       let q : Packet := ⟨0x3F81, .M, 0, 0, 0, 0, false, false, false, 0, 0, 0, []⟩;
       let h : Hub := hubWith [(R.CLK_STATUS_MODE, 2), (R.LNK_STATUS_STATE 1, 10), (R.LNK_STATUS_UP 1, 1)];
       (h.awake = true) ∧ (h.hasAddr = false ∨ hubOf q.dest ≠ h.addr) ∧ (hubOf q.dest = 127))
    ∧ (let p : Port := .W;
       let o : Port := .S;
       let h : Hub := hubWith [(R.CLK_STATUS_MODE, 2), (R.LNK_STATUS_STATE 1, 10), (R.LNK_STATUS_UP 1, 1)];
       (h.awake = true))
    ∧ (let p : Port := .W;
       let q : Packet := ⟨128, .M, 0, 0, 0, 0, true, false, false, 0, 0, 0, []⟩;
       let o : Port := .E;
       let h : Hub := hubWith [(R.CLK_STATUS_MODE, 2), (R.LNK_STATUS_STATE 1, 10), (R.LNK_STATUS_UP 1, 1)];
       (h.awake = true) ∧ (h.foreign q) ∧ (q.wrap = true) ∧ (p ≠ .S)
       ∧ (o = (if h.entryPort (hubOf q.dest) = some .S then .S else p.other)))
    ∧ (let p : Port := .W;
       let q : Packet := ⟨128, .P, 0, 0, 0, 0, false, false, false, 0, 0, 0, []⟩;
       let o : Port := .S;
       let h : Hub := hubWith [(R.LNK_ROUTE_VALID 0 1, 1), (R.LNK_ROUTE_PORT 0 1, 3)]; (h.awake = true) ∧ (h.foreign q)
       ∧ (q.cls = .P) ∧ (q.wrap = false) ∧ (p ≠ .S)
       ∧ (o = (if h.entryPort (hubOf q.dest) = some .S then .S else p.other)))
    ∧ (let p : Port := .W;
       let q : Packet := ⟨128, .P, 0, 0, 0, 0, false, false, false, 0, 0, 0, []⟩;
       let e : Bool := true;
       let w : Bool := true;
       let h : Hub := hubWith [(R.LNK_STATUS_UP 1, 1), (R.LNK_ROUTE_VALID 0 1, 1), (R.LNK_ROUTE_P_E 0 1, 1), (R.LNK_ROUTE_P_W 0 1, 1)];
       (h.awake = true) ∧ (h.foreign q) ∧ (q.cls = .P)
       ∧ (e = (h.on (R.LNK_ROUTE_VALID 0 (hubOf q.dest)) && h.on (R.LNK_ROUTE_P_E 0 (hubOf q.dest))))
       ∧ (w = (h.on (R.LNK_ROUTE_VALID 0 (hubOf q.dest)) && h.on (R.LNK_ROUTE_P_W 0 (hubOf q.dest))))
       ∧ (e = true ∨ w = true))
    ∧ (let p : Port := .W;
       let q : Packet := ⟨128, .P, 0, 0, 0, 0, false, false, false, 0, 0, 0, []⟩;
       let o : Port := .W;
       let h : Hub := hubWith [(R.LNK_STATUS_UP 1, 1), (R.LNK_ROUTE_VALID 0 1, 1), (R.LNK_ROUTE_PORT 0 1, 2)];
       (h.awake = true) ∧ (h.foreign q) ∧ (q.cls = .P) ∧ (h.entryPort (hubOf q.dest) = some o) ∧ (o ≠ .S)
       ∧ (h.on (R.LNK_ROUTE_P_E 0 (hubOf q.dest)) = false) ∧ (h.on (R.LNK_ROUTE_P_W 0 (hubOf q.dest)) = false))
    ∧ (let p : Port := .W;
       let q : Packet := ⟨128, .M, 0, 0, 0, 0, false, false, false, 0, 0, 0, []⟩;
       let o : Port := .E;
       let h : Hub := hubWith [(R.LNK_STATUS_UP 1, 1), (R.LNK_ROUTE_VALID 0 1, 1), (R.LNK_ROUTE_PORT 0 1, 1), (R.LNK_PKT_CTRL_WRAP_EN 0, 1)];
       (h.awake = true) ∧ (h.foreign q) ∧ (q.cls ≠ .P) ∧ (q.wrap = false ∨ p = .S) ∧ (h.entryPort (hubOf q.dest) = some o)
       ∧ (o ≠ p))
    ∧ (let p : Port := .W;
       let q : Packet := ⟨0, .M, 0, 0, 0, 0, false, false, false, 0, 0, 0, []⟩;
       let o : Port := .E;
       let h : Hub := hubWith [(R.DEV_STATUS_ADDR, 1), (R.DEV_STATUS_ENUM_PORT, 1)]; (h.awake = true) ∧ (h.foreign q)
       ∧ (q.cls ≠ .P) ∧ (q.wrap = false ∨ p = .S) ∧ (hubOf q.dest = 0) ∧ (h.on (R.LNK_ROUTE_VALID 0 0) = false)
       ∧ (Port.ofCode (h.get R.DEV_STATUS_ENUM_PORT) = some o))
    ∧ (let p : Port := .W;
       let q : Packet := ⟨128, .M, 0, 0, 0, 0, false, false, false, 0, 0, 0, []⟩;
       let h : Hub := hubWith [(R.CLK_STATUS_MODE, 2), (R.LNK_STATUS_STATE 1, 10), (R.LNK_STATUS_UP 1, 1)];
       (h.awake = true) ∧ (h.foreign q) ∧ (q.cls ≠ .P) ∧ (q.wrap = false ∨ p = .S)
       ∧ (h.entryPort (hubOf q.dest) = some p ∨ (h.entryPort (hubOf q.dest) = none ∧ (hubOf q.dest ≠ 0 ∨ h.on (R.LNK_ROUTE_VALID 0 0) = true ∨ Port.ofCode (h.get R.DEV_STATUS_ENUM_PORT) = none))))
    ∧ (let p : Port := .W;
       let q : Packet := ⟨128, .M, 0, 0, 0, 0, false, false, false, 0, 0, 0, []⟩;
       let t : Target := ⟨0, 128, false, false, false⟩;
       let h : Hub := hubWith [(R.CLK_STATUS_MODE, 2), (R.LNK_STATUS_STATE 1, 10), (R.LNK_STATUS_UP 1, 1)];
       (h.awake = true))
    ∧ (let p : Port := .W;
       let q : Packet := ⟨128, .M, 0, 0, 0, 0, false, false, false, 0, 0, 0, []⟩;
       let t : Target := ⟨0, 128, false, false, false⟩;
       let a : Acct := .pool;
       let h : Hub := hubWith [(R.CLK_STATUS_MODE, 2), (R.LNK_STATUS_STATE 1, 10), (R.LNK_STATUS_UP 1, 1)];
       (h.awake = true) ∧ (h.localCells q.cls q.cells = some .pool) ∧ (h.localDesc (q.cls == .M) = some a))
    ∧ (let p : Port := .W;
       let q : Packet := ⟨128, .M, 0, 0, 0, 0, false, false, false, 0, 0, 0, []⟩;
       let t : Target := ⟨0, 128, false, false, false⟩;
       let h : Hub := hubWith [(R.FAB_STATUS_REBUILD, 1)]; (h.awake = true) ∧ (h.localCells q.cls q.cells = none))
    ∧ (let p : Port := .W;
       let w : Wire := ⟨[0x4080, 0, 0, 0], crc32 (bytesOf [0x4080, 0, 0, 0]), false, false, false, false⟩;
       let q : Packet := ⟨128, .M, 0, 0, 0, 0, false, false, false, 0, 0, 0, []⟩;
       let a : Nat := 1;
       let y : Hold := ⟨[.W], []⟩;
       let h : Hub := { hubWith [(R.CLK_STATUS_MODE, 2), (R.LNK_STATUS_STATE 1, 10), (R.LNK_STATUS_UP 1, 1), (R.LNK_STATUS_UP 0, 1), (R.LNK_ROUTE_VALID 0 1, 1), (R.LNK_ROUTE_PORT 0 1, 1)] with rt := { (hubWith []).rt with holds := [(1, ⟨[.W], []⟩)] } };
       (h.awake = true) ∧ (h.routes p w q) ∧ (h.foreign q) ∧ (h.holdOf (h.way q (some p)) = some a)
       ∧ (KMap.get? h.rt.holds a = some y))
    ∧ (let p : Port := .W;
       let w : Wire := ⟨[0x4080, 0, 0, 0], crc32 (bytesOf [0x4080, 0, 0, 0]), false, false, false, false⟩;
       let q : Packet := ⟨128, .M, 0, 0, 0, 0, false, false, false, 0, 0, 0, []⟩;
       let o : Port := .E;
       let e : Option Nat := some 1;
       let h : Hub := hubWith [(R.CLK_STATUS_MODE, 2), (R.LNK_STATUS_STATE 1, 10), (R.LNK_STATUS_UP 1, 1), (R.LNK_STATUS_UP 0, 1), (R.LNK_ROUTE_VALID 0 1, 1), (R.LNK_ROUTE_PORT 0 1, 1)];
       (h.awake = true) ∧ (h.routes p w q) ∧ (h.foreign q) ∧ (h.way q (some p) = .out o e) ∧ (h.holdOf (.out o e) = none)
       ∧ (h.limitFail o.ix (linkQueue q.dest) q.cls q.cells = none))
    ∧ (let p : Port := .W;
       let w : Wire := ⟨[0x4080, 0, 0, 0], crc32 (bytesOf [0x4080, 0, 0, 0]), false, false, false, false⟩;
       let q : Packet := ⟨128, .M, 0, 0, 0, 0, false, false, false, 0, 0, 0, []⟩;
       let o : Port := .E;
       let e : Option Nat := some 1;
       let h : Hub := hubWith [(R.CLK_STATUS_MODE, 2), (R.LNK_STATUS_STATE 1, 10), (R.LNK_STATUS_UP 1, 1), (R.LNK_PKT_CTRL_WRAP_EN 0, 1), (R.LNK_ROUTE_VALID 0 1, 1), (R.LNK_ROUTE_PORT 0 1, 1)];
       (h.awake = true) ∧ (h.routes p w q) ∧ (h.foreign q) ∧ (h.way q (some p) = .wrapped o e)
       ∧ (h.holdOf (.wrapped o e) = none) ∧ (h.limitFail o.other.ix (linkQueue q.dest) q.cls q.cells = none))
    ∧ (let p : Port := .W;
       let w : Wire := ⟨[0x4080, 0, 0, 0], crc32 (bytesOf [0x4080, 0, 0, 0]), false, false, false, false⟩;
       let q : Packet := ⟨128, .M, 0, 0, 0, 0, false, false, false, 0, 0, 0, []⟩;
       let o : Port := .E;
       let h : Hub := hubWith [(R.CLK_STATUS_MODE, 2), (R.LNK_STATUS_STATE 1, 10), (R.LNK_STATUS_UP 1, 1), (R.LNK_ROUTE_VALID 0 1, 1), (R.LNK_ROUTE_PORT 0 1, 1)];
       (h.awake = true) ∧ (h.routes p w q) ∧ (h.foreign q)
       ∧ (h.way q (some p) = .wrapDrop o ∨ h.way q (some p) = .wrapDead o))
    ∧ (let p : Port := .W;
       let w : Wire := ⟨[0x4080, 0, 0, 0], crc32 (bytesOf [0x4080, 0, 0, 0]), false, false, false, false⟩;
       let q : Packet := ⟨128, .M, 0, 0, 0, 0, false, false, false, 0, 0, 0, []⟩;
       let h : Hub := hubWith [(R.CLK_STATUS_MODE, 2), (R.LNK_STATUS_STATE 1, 10), (R.LNK_STATUS_UP 1, 1)];
       (h.awake = true) ∧ (h.routes p w q) ∧ (h.foreign q) ∧ (h.way q (some p) = .none_))
    ∧ (let p : Port := .W;
       let w : Wire := ⟨[0x80, 0, 0, 0], crc32 (bytesOf [0x80, 0, 0, 0]), false, false, false, false⟩;
       let q : Packet := ⟨128, .P, 0, 0, 0, 0, false, false, false, 0, 0, 0, []⟩;
       let o : Port := .E;
       let e : Option Nat := none;
       let h : Hub := hubWith [(R.CLK_STATUS_MODE, 2), (R.LNK_STATUS_STATE 1, 10), (R.LNK_STATUS_UP 1, 1)];
       (h.awake = true) ∧ (h.routes p w q) ∧ (h.foreign q) ∧ (h.way q (some p) = .copies [] [o] e)
       ∧ (h.holdOf (.copies [] [o] e) = none))
    ∧ (let p : Port := .W;
       let w : Wire := ⟨[0x4080, 0, 0, 0], crc32 (bytesOf [0x4080, 0, 0, 0]), false, false, false, false⟩;
       let q : Packet := ⟨128, .M, 0, 0, 0, 0, false, false, false, 0, 0, 0, []⟩;
       let o : Port := .E;
       let e : Option Nat := some 1;
       let c : Nat := 2;
       let h : Hub := hubWith [(R.CLK_STATUS_MODE, 2), (R.LNK_STATUS_STATE 1, 10), (R.LNK_STATUS_UP 1, 1), (R.LNK_STATUS_UP 0, 1), (R.LNK_ROUTE_VALID 0 1, 1), (R.LNK_ROUTE_PORT 0 1, 1), (R.FAB_QLIM_M_LIM, 0)];
       (h.awake = true) ∧ (h.routes p w q) ∧ (h.foreign q) ∧ (h.way q (some p) = .out o e) ∧ (h.holdOf (.out o e) = none)
       ∧ (h.limitFail o.ix (linkQueue q.dest) q.cls q.cells = some c))
    ∧ (let p : Port := .W;
       let w : Wire := ⟨[0x7F83, 0, 0, 0], crc32 (bytesOf [0x7F83, 0, 0, 0]), false, false, false, false⟩;
       let q : Packet := ⟨0x3F83, .M, 0, 0, 0, 0, false, false, false, 0, 0, 0, []⟩;
       let n : Nat := 3;
       let h : Hub := hubWith [(R.CLK_STATUS_MODE, 2), (R.LNK_STATUS_STATE 1, 10), (R.LNK_STATUS_UP 1, 1), (R.LNK_STATUS_UP 0, 1)];
       (h.awake = true) ∧ (h.routes p w q) ∧ (h.way q (some p) = .bcast n) ∧ (w.early = false)
       ∧ (h.winTest n q ≠ .duplicate) ∧ (h.localOut n = none))
    ∧ (let p : Port := .W;
       let o : Port := .E;
       let h : Hub := hubWith [(R.CLK_STATUS_MODE, 2), (R.LNK_STATUS_STATE 1, 10), (R.LNK_STATUS_UP 1, 1)];
       (h.awake = true))
    ∧ (let p : Port := .W;
       let w : Wire := ⟨[0x7F83, 0, 0, 0], crc32 (bytesOf [0x7F83, 0, 0, 0]), false, false, false, false⟩;
       let q : Packet := ⟨0x3F83, .M, 0, 0, 0, 0, false, false, false, 0, 0, 0, []⟩;
       let n : Nat := 3;
       let h : Hub := { hubWith [(R.CLK_STATUS_MODE, 2), (R.LNK_STATUS_STATE 1, 10), (R.LNK_STATUS_UP 1, 1)] with rt := { (hubWith []).rt with win := [(384, ⟨0, false⟩)] } };
       (h.awake = true) ∧ (h.routes p w q) ∧ (h.way q (some p) = .bcast n) ∧ (h.winTest n q = .duplicate))
    ∧ (let p : Port := .W;
       let w : Wire := ⟨[], 0, false, false, false, false⟩;
       let h : Hub := hubWith []; (h.awake = true) ∧ (h.inService p = false)
       ∧ (h.lstate p ≠ stOpenEnd ∨ h.goodPacket p w = none))
    ∧ (let p : Port := .W;
       let w : Wire := ⟨[0x0700407F, 0, 0x00010000, 0], crc32 (bytesOf [0x0700407F, 0, 0x00010000, 0]), false, false, false, false⟩;
       let h : Hub := hubWith [(R.LNK_STATUS_STATE 1, stOpenEnd)];
       let q : Packet := (h.goodPacket p ⟨[0x0700407F, 0, 0x00010000, 0], crc32 (bytesOf [0x0700407F, 0, 0x00010000, 0]), false, false, false, false⟩).getD ⟨127, .M, 0, 7, 0, 0, false, false, false, 0, 1, 0, []⟩;
       (h.awake = true) ∧ (h.lstate p = stOpenEnd) ∧ (h.goodPacket p w = some q) ∧ (q.kind = 7) ∧ (q.aux % 16 = 1))
    ∧ (let p : Port := .W;
       let w : Wire := ⟨[], 0, true, false, false, false⟩;
       let h : Hub := hubWith [(R.CLK_STATUS_MODE, 2), (R.LNK_STATUS_STATE 1, 10), (R.LNK_STATUS_UP 1, 1)];
       (h.awake = true) ∧ (h.inService p = true) ∧ (w.poisoned = true))
    ∧ (let p : Port := .W;
       let w : Wire := ⟨[1, 2], 0, false, false, false, false⟩;
       let h : Hub := hubWith [(R.CLK_STATUS_MODE, 2), (R.LNK_STATUS_STATE 1, 10), (R.LNK_STATUS_UP 1, 1)];
       (h.awake = true) ∧ (h.inService p = true) ∧ (h.silent = false) ∧ (w.poisoned = false) ∧ (h.goodPacket p w = none)
       ∧ ((h.links.at p).nakOut = false))
    ∧ (let p : Port := .W;
       let w : Wire := ⟨[0x4080, 0x0FFF0000, 0, 0], crc32 (bytesOf [0x4080, 0x0FFF0000, 0, 0]), false, false, false, false⟩;
       let q : Packet := ⟨128, .M, 0, 0, 0, 4095, false, false, false, 0, 0, 0, []⟩;
       let h : Hub := hubWith [(R.CLK_STATUS_MODE, 2), (R.LNK_STATUS_STATE 1, 10), (R.LNK_STATUS_UP 1, 1)];
       (h.awake = true) ∧ (h.inService p = true) ∧ (h.silent = false) ∧ (w.poisoned = false) ∧ (h.goodPacket p w = some q)
       ∧ (q.cls ≠ .P) ∧ (subMod 4096 q.lseq (h.get (R.LNK_RX_SEQ_EXPECTED p.ix)) = 4095))
    ∧ (let p : Port := .W;
       let w : Wire := ⟨[0x4080, 0x00010000, 0, 0], crc32 (bytesOf [0x4080, 0x00010000, 0, 0]), false, false, false, false⟩;
       let q : Packet := ⟨128, .M, 0, 0, 0, 1, false, false, false, 0, 0, 0, []⟩;
       let h : Hub := hubWith [(R.CLK_STATUS_MODE, 2), (R.LNK_STATUS_STATE 1, 10), (R.LNK_STATUS_UP 1, 1)];
       (h.awake = true) ∧ (h.inService p = true) ∧ (h.silent = false) ∧ (w.poisoned = false) ∧ (h.goodPacket p w = some q)
       ∧ (q.cls ≠ .P) ∧ (subMod 4096 q.lseq (h.get (R.LNK_RX_SEQ_EXPECTED p.ix)) = 1) ∧ ((h.links.at p).nakOut = false))
    ∧ (let p : Port := .W;
       let w : Wire := ⟨[0x60FF, 0, 0, 0], crc32 (bytesOf [0x60FF, 0, 0, 0]), false, false, false, false⟩;
       let q : Packet := ⟨0x20FF, .M, 0, 0, 0, 0, false, false, false, 0, 0, 0, []⟩;
       let h : Hub := hubWith [(R.CLK_STATUS_MODE, 2), (R.LNK_STATUS_STATE 1, 10), (R.LNK_STATUS_UP 1, 1)];
       (h.awake = true) ∧ (h.inService p = true) ∧ (w.poisoned = false) ∧ (h.goodPacket p w = some q) ∧ (q.cls ≠ .P)
       ∧ (q.lseq = h.get (R.LNK_RX_SEQ_EXPECTED p.ix)) ∧ (h.headerBad q p = true))
    ∧ (let p : Port := .W;
       let h : Hub := ((hubWith []).onLink .W (fun l => { l with lost := true, replay := [⟨0, .M, 1, 0, 0, 4095, false, false, false, 0, 0, 0, []⟩] }));
       (h.awake = true) ∧ (h.up p = false) ∧ ((h.links.at p).lost = true))
    ∧ (let p : Port := .W;
       let h : Hub := ((hubWith []).onLink .W (fun l => { l with lost := true })); (h.awake = true) ∧ (h.up p = false)
       ∧ ((h.links.at p).lost = true) ∧ ((h.links.at p).replay = []) ∧ (h.queueKeys p.ix = []) ∧ (h.canWrap p = false))
    ∧ (let p : Port := .W;
       let h : Hub := hubWith [(R.CLK_STATUS_MODE, 2), (R.LNK_STATUS_STATE 1, 10), (R.LNK_STATUS_UP 1, 1)];
       (h.awake = true) ∧ (h.up p = true) ∧ (h.inService p = true))
    ∧ (let p : Port := .W; let h : Hub := hubWith []; (h.awake = true) ∧ (h.up p = false) ∧ ((h.links.at p).lost = false))
    ∧ (let p : Port := .W;
       let a : Fin 128 := 64;
       let v : Word := 0xFFFFFFDF;
       let h : Hub := hubWith [(R.CLK_STATUS_MODE, 2), (R.LNK_STATUS_STATE 1, 10), (R.LNK_STATUS_UP 1, 1)];
       (h.awake = true) ∧ (a.val ≤ 64))
    ∧ (let p : Port := .W;
       let a : Fin 128 := 64;
       let v : Word := 0xFFFFFFDF;
       let h : Hub := hubWith [(R.CLK_STATUS_MODE, 2), (R.LNK_STATUS_STATE 1, 10), (R.LNK_STATUS_UP 1, 1)];
       (h.awake = true) ∧ (0 < a.val) ∧ (a.val ≤ 64) ∧ (v.getLsbD 5 = false)
       ∧ (h.get R.TIME_STATUS_QUALITY = h.qualityNow))
    ∧ (let p : Port := .W;
       let a : Fin 128 := 3;
       let v : Word := 0x26;
       let q : Port := .E;
       let h : Hub := hubWith [(R.LNK_ROUTE_VALID 0 3, 1), (R.LNK_ROUTE_PORT 0 3, 1)]; (h.awake = true) ∧ (a.val ≤ 64)
       ∧ (v.getLsbD 5 = true) ∧ (h.entryPort a = some q) ∧ (slice v.toNat 0 2 ≠ q.code))
    ∧ (let p : Port := .W;
       let a : Fin 128 := 65;
       let v : Word := 7;
       let h : Hub := hubWith [(R.CLK_STATUS_MODE, 2), (R.LNK_STATUS_STATE 1, 10), (R.LNK_STATUS_UP 1, 1)];
       (h.awake = true) ∧ (64 < a.val) ∧ (h.get R.TIME_STATUS_QUALITY = h.qualityNow))
    ∧ (let p : Port := .W;
       let a : Fin 128 := 3;
       let x : Hold := ⟨[.W], []⟩;
       let h : Hub := { hubWith [] with rt := { (hubWith []).rt with holds := [(3, ⟨[.W], []⟩)] } }; (h.awake = true)
       ∧ (h.on R.FAB_STATUS_REBUILD = false) ∧ (KMap.get? h.rt.holds a = some x)
       ∧ (x.old.any (fun q => h.queuedFor q.ix a) = false))
    ∧ (let p : Port := .W;
       let a : Fin 128 := 3;
       let h : Hub := hubWith [(R.FAB_STATUS_REBUILD, 1)]; (h.awake = true) ∧ (h.on R.FAB_STATUS_REBUILD = true))
    ∧ (let p : Port := .W;
       let a : Fin 128 := 3;
       let h : Hub := hubWith [(R.CLK_STATUS_MODE, 2), (R.LNK_STATUS_STATE 1, 10), (R.LNK_STATUS_UP 1, 1)];
       (h.awake = true) ∧ (KMap.get? h.rt.holds a = none)) :=
  by and_intros <;> decide

/-- States and operands that meet the hypotheses of `Obligations.ClockModeCommands`. -/
theorem test_witness_ClockModeCommands :
    (let p : Port := .W; let h : Hub := hubWith []; (h.awake = true) ∧ (h.clkMode = ckFree) ∧ (h.candidate p = true))
    ∧ (let p : Port := .W;
       let h : Hub := { hubWith [(R.CLK_STATUS_MODE, 1)] with tm := { (hubWith []).tm with followed := some .W } };
       (h.awake = true) ∧ (h.clkMode = ckAcquire) ∧ (h.tm.followed = some p) ∧ (h.up p = false))
    ∧ (let h : Hub := hubWith [];
       (h.awake = true)
       ∧ (h.clkMode ≠ ckAcquire ∨ h.tm.followed = none ∨ h.up .E = true ∧ h.up .W = true ∧ h.up .S = true))
    ∧ (let p : Port := .W;
       let h : Hub := { hubWith [(R.CLK_STATUS_MODE, 1), (R.LNK_STATUS_UP 1, 1), (⟨A.TIME_DELAY_W, 31, 1⟩, 1)] with tm := { (hubWith []).tm with failW := false, ports := ⟨.reset, { TimePort.reset with mark := some ⟨0, 0⟩ }, .reset⟩ } };
       (h.awake = true) ∧ (h.clkMode = ckAcquire) ∧ (h.pickCandidate h.qualified = some p))
    ∧ (let p : Port := .E; let h : Hub := hubWith []; (h.awake = true))
    ∧ (let p : Port := .W;
       let h : Hub := { hubWith [(R.CLK_STATUS_MODE, 1), (R.LNK_STATUS_STATE 1, 7)] with tm := { (hubWith []).tm with followed := some .W } };
       (h.awake = true) ∧ (h.clkMode = ckAcquire) ∧ (h.tm.followed = some p) ∧ (h.lstate p = stGearStep))
    ∧ (let h : Hub := hubWith [(R.CLK_STATUS_MODE, 3)]; (h.awake = true) ∧ (h.clkMode = ckStepHold))
    ∧ (let h : Hub := hubWith []; (h.awake = true))
    ∧ (let a : Nat := 16000;
       let b : Nat := 16001;
       let h : Hub := { hubWith [(R.CLK_STATUS_MODE, 2), (R.CLK_STATUS_SEL, 1), (R.LNK_STATUS_UP 0, 1), (R.LNK_STATUS_UP 1, 1)] with tm := { (hubWith []).tm with memNum := 16000, memDen := 1 } };
       (h.awake = true) ∧ (h.up .W = true) ∧ (h.up .E = true) ∧ (h.isSpur = false) ∧ (h.farOff a = false)
       ∧ (h.farOff b = false) ∧ (h.tm.edgeW = false) ∧ (h.tm.edgeE = false))
    ∧ (let p : Port := .E; let h : Hub := hubWith []; (h.awake = true) ∧ (p ≠ .S))
    ∧ (let p : Port := .W;
       let h : Hub := { hubWith [(R.CLK_STATUS_MODE, 2), (R.CLK_STATUS_SEL, 1), (R.LNK_STATUS_UP 0, 1), (⟨A.TIME_DELAY_E, 31, 1⟩, 1)] with tm := { (hubWith []).tm with failE := false, ports := ⟨{ TimePort.reset with mark := some ⟨0, 0⟩ }, .reset, .reset⟩ } };
       (h.awake = true) ∧ (h.selPort = some p) ∧ (h.clkMode = ckRing) ∧ (h.qualified p = false)
       ∧ (h.qualified p.other = true) ∧ (h.err.handling = []))
    ∧ (let h : Hub := hubWith [];
       (h.awake = true)
       ∧ (h.clkMode ≠ ckRing ∨ h.selPort = none ∨ (h.qualified .W = true ∧ h.qualified .E = true) ∨ (h.qualified .W = false ∧ h.qualified .E = false)))
    ∧ (let p : Port := .W;
       let h : Hub := hubWith [(R.CLK_STATUS_MODE, 2), (R.CLK_STATUS_SEL, 1)]; (h.awake = true) ∧ (h.selPort = some p)
       ∧ (h.clkMode = ckRing) ∧ (h.qualified .W = false) ∧ (h.qualified .E = false))
    ∧ (let w : Bool := true;
       let e : Bool := false;
       let p : Port := .W;
       let h : Hub := { hubWith [(R.CLK_STATUS_MODE, 4), (R.LNK_STATUS_UP 1, 1), (⟨A.TIME_DELAY_W, 31, 1⟩, 1)] with tm := { (hubWith []).tm with failW := false, ports := ⟨.reset, { TimePort.reset with mark := some ⟨0, 0⟩ }, .reset⟩ } };
       (h.awake = true) ∧ (h.clkMode = ckHoldover)
       ∧ (h.pickCandidate (fun p => h.qualified p && (match p with | .W => w | .E => e | .S => false)) = some p))
    ∧ (let p : Port := .E;
       let h : Hub := { hubWith [(R.CLK_STATUS_MODE, 2), (R.CLK_STATUS_SEL, 2), (R.CLK_CTRL_REVERT_EN, 1), (R.LNK_STATUS_UP 0, 1), (⟨A.TIME_DELAY_E, 31, 1⟩, 1), (R.LNK_STATUS_UP 1, 1), (⟨A.TIME_DELAY_W, 31, 1⟩, 1)] with tm := { (hubWith []).tm with failE := false, failW := false, ports := ⟨{ TimePort.reset with mark := some ⟨0, 0⟩ }, { TimePort.reset with mark := some ⟨0, 0⟩ }, .reset⟩ } };
       (h.awake = true) ∧ (h.selPort = some p) ∧ (h.clkMode = ckRing) ∧ (p ≠ h.preferred)
       ∧ (h.qualified h.preferred = true) ∧ (h.on R.CLK_CTRL_REVERT_EN = true) ∧ (h.qualified p = true))
    ∧ (let hz : BitVec 32 := 23750000;
       let h : Hub := hubWith [(R.CLK_STATUS_MODE, 2)]; (h.awake = true) ∧ (h.clkMode = ckRing) ∧ (23750000 ≤ hz.toNat)
       ∧ (hz.toNat ≤ 26250000)) :=
  by and_intros <;> decide

/-- States and operands that meet the hypotheses of `Obligations.MarkerAndDelayCommands`. -/
theorem test_witness_MarkerAndDelayCommands :
    (let p : Port := .W;
     let v : BitVec 64 := 0;
     let e : Bool := true;
     let res : PerPort Nat := ⟨0, 0, 0⟩;
     let h : Hub := hubWith []; (h.awake = true) ∧ (h.up p = false))
    ∧ (let p : Port := .W;
       let v : BitVec 64 := 0;
       let res : PerPort Nat := ⟨0, 0, 0⟩;
       let h : Hub := hubWith [(R.LNK_STATUS_UP 1, 1)]; (h.awake = true) ∧ (h.up p = true))
    ∧ (let p : Port := .W;
       let v : BitVec 64 := 2000;
       let res : PerPort Nat := ⟨0, 0, 0⟩;
       let h : Hub := hubWith [(R.LNK_STATUS_UP 1, 1)]; (h.awake = true) ∧ (h.up p = true)
       ∧ ((h.tm.ports.at p).mark = none) ∧ (h.selPort ≠ some p))
    ∧ (let p : Port := .W;
       let v : BitVec 64 := 200;
       let res : PerPort Nat := ⟨0, 0, 0⟩;
       let h : Hub := hubWith [(R.LNK_STATUS_UP 1, 1), (R.CLK_STATUS_MODE, 2), (R.CLK_STATUS_SEL, 1), (⟨A.TIME_DELAY_W, 31, 1⟩, 1), (R.TIME_STATUS_VALID, 1)];
       (h.awake = true) ∧ (h.up p = true) ∧ ((h.tm.ports.at p).checkMark ⟨v.toNat, h.root⟩ = .accept)
       ∧ (h.selPort = some p) ∧ (h.calibrated p = true) ∧ (h.on R.TIME_STATUS_VALID = true)
       ∧ (((v.toNat : Int) + h.delay p - h.stime).natAbs ≤ 256))
    ∧ (let p : Port := .W;
       let v : BitVec 64 := 2000;
       let res : PerPort Nat := ⟨0, 0, 0⟩;
       let h : Hub := hubWith [(R.LNK_STATUS_UP 1, 1), (R.CLK_STATUS_MODE, 2), (R.CLK_STATUS_SEL, 1), (⟨A.TIME_DELAY_W, 31, 1⟩, 1), (R.TIME_STATUS_VALID, 1)];
       (h.awake = true) ∧ (h.up p = true) ∧ ((h.tm.ports.at p).checkMark ⟨v.toNat, h.root⟩ = .accept)
       ∧ (h.selPort = some p) ∧ (h.calibrated p = true) ∧ (h.on R.TIME_STATUS_VALID = true)
       ∧ (h.stime + 256 < v.toNat + h.delay p))
    ∧ (let p : Port := .W;
       let v : BitVec 64 := 2000;
       let res : PerPort Nat := ⟨0, 0, 0⟩;
       let h : Hub := hubWith [(R.LNK_STATUS_UP 1, 1), (R.CLK_STATUS_MODE, 2), (R.CLK_STATUS_SEL, 1), (⟨A.TIME_DELAY_W, 31, 1⟩, 1)];
       (h.awake = true) ∧ (h.up p = true) ∧ ((h.tm.ports.at p).checkMark ⟨v.toNat, h.root⟩ = .accept)
       ∧ (h.selPort = some p) ∧ (h.calibrated p = true) ∧ (h.on R.TIME_STATUS_VALID = false))
    ∧ (let p : Port := .W;
       let h : Hub := { hubWith [] with tm := { (hubWith []).tm with ports := ⟨.reset, { TimePort.reset with mark := some ⟨0, 0⟩ }, .reset⟩ } };
       (h.awake = true) ∧ ((h.tm.ports.at p).mark.isSome = true) ∧ ((h.tm.ports.at p).gap = false))
    ∧ (let p : Port := .W;
       let h : Hub := { hubWith [] with tm := { (hubWith []).tm with err := -256 } }; (h.awake = true) ∧ (h.tm.err ≠ 0)
       ∧ (-256 ≤ h.tm.err))
    ∧ (let p : Port := .W; let h : Hub := hubWith []; (h.awake = true) ∧ (h.up p = false))
    ∧ (let p : Port := .W;
       let h : Hub := hubWith [(R.LNK_STATUS_UP 1, 1)]; (h.awake = true) ∧ (h.up p = true)
       ∧ ((h.tm.ports.at p).calibrating = false))
    ∧ (let p : Port := .W;
       let h : Hub := hubWith [(R.LNK_STATUS_UP 1, 1)]; (h.awake = true) ∧ (h.up p = true) ∧ (h.calibrated p = false)
       ∧ ((h.tm.ports.at p).calibrating = false))
    ∧ (let p : Port := .W;
       let h : Hub := hubWith [(R.LNK_STATUS_UP 1, 1), (⟨A.TIME_DELAY_W, 31, 1⟩, 1), (R.TIME_CTRL_RECHECK_EN, 1)];
       (h.awake = true) ∧ (h.up p = true) ∧ (h.calibrated p = true) ∧ (h.on R.TIME_CTRL_RECHECK_EN = true))
    ∧ (let p : Port := .W;
       let h : Hub := hubWith [(R.LNK_STATUS_UP 1, 1)]; (h.awake = true) ∧ (h.up .E = false) ∧ (h.up .W = true)
       ∧ (h.up .S = false))
    ∧ (let p : Port := .W;
       let h : Hub := hubWith [(R.LNK_STATUS_UP 0, 1), (R.LNK_STATUS_UP 1, 1)]; (h.awake = true) ∧ (h.up .E = true)
       ∧ (h.up .W = true) ∧ (h.up .S = false))
    ∧ (let p : Port := .W;
       let x : PortPkt := ⟨⟨0, .M, 0, 5, 0, 0, false, false, false, 0, 0, 0, []⟩, 0⟩;
       let h : Hub := ((hubWith [(R.CLK_STATUS_MODE, 2), (R.LNK_STATUS_STATE 1, 10), (R.LNK_STATUS_UP 1, 1)]).onLink .W (fun l => { l with ctl := [⟨⟨0, .M, 0, 5, 0, 0, false, false, false, 0, 0, 0, []⟩, 0⟩], seen := ⟨1, 1, 1, 1⟩, limit := ⟨9, 9, 9, 9⟩ }));
       (h.awake = true) ∧ ((h.links.at p).ownOf 5 = some x)
       ∧ (h.portMay p (h.portPacket 6 x.pkt.aux [W (h.root - x.at_)]) = true))
    ∧ (let p : Port := .W;
       let x : PortPkt := ⟨⟨0, .M, 0, 6, 0, 0, false, false, false, 0, 0, 0, []⟩, 0⟩;
       let h : Hub := ((hubWith []).onLink .W (fun l => { l with ctl := [⟨⟨0, .M, 0, 6, 0, 0, false, false, false, 0, 0, 0, []⟩, 0⟩] }));
       (h.awake = true) ∧ ((h.links.at p).ownOf 6 = some x) ∧ (KMap.get? (h.tm.ports.at p).probes x.pkt.aux = none))
    ∧ (let p : Port := .W;
       let x : PortPkt := ⟨⟨0, .M, 0, 6, 7, 0, false, false, false, 0, 5, 0, [1200]⟩, 5000⟩;
       let b : Probe := ⟨1000, false, false⟩;
       let v : Int := 2800;
       let h : Hub := (((hubWith []).onLink .W (fun l => { l with ctl := [⟨⟨0, .M, 0, 6, 7, 0, false, false, false, 0, 5, 0, [1200]⟩, 5000⟩] })).onTimePort .W (fun t => { t with probes := [(5, ⟨1000, false, false⟩)] }));
       (h.awake = true) ∧ ((h.links.at p).ownOf 6 = some x) ∧ (KMap.get? (h.tm.ports.at p).probes x.pkt.aux = some b)
       ∧ (b.again = false) ∧ (b.recheck = false) ∧ (x.at_ ≤ b.t1 + 100 * us)
       ∧ (v = (x.at_ : Int) - b.t1 - (x.pkt.payload.headD 0#32).toNat))
    ∧ (let p : Port := .W;
       let k : BitVec 16 := 3;
       let h : Hub := hubWith []; (h.awake = true) ∧ ((h.tm.ports.at p).calibrating = false))
    ∧ (let p : Port := .W; let k : BitVec 16 := 3; let h : Hub := hubWith []; (h.awake = true)) :=
  by and_intros <;> decide

/-- States and operands that meet the hypotheses of `Obligations.EventPinCommands`. -/
theorem test_witness_EventPinCommands :
    (let n : Fin 32 := 31;
     let l : Bool := true;
     let h : Hub := hubWith [(R.TIME_EVI_FILT_FILTER 31, 3)]; (h.awake = true) ∧ ((h.pin n).pend = none)
     ∧ (l ≠ bit (h.rd A.TIME_EVI_LEVEL).toNat n) ∧ (h.get (R.TIME_EVI_FILT_FILTER n) ≠ 0))
    ∧ (let n : Fin 32 := 31;
       let l : Bool := false;
       let h : Hub := (hubWith []).setPin 31 ⟨some ⟨true, 5, 0⟩, 0⟩; (h.awake = true) ∧ ((h.pin n).pend.isSome = true)
       ∧ (l = bit (h.rd A.TIME_EVI_LEVEL).toNat n))
    ∧ (let n : Fin 32 := 0;
       let e : EviPend := ⟨true, 5, 0⟩;
       let h : Hub := (hubWith [(⟨A.TIME_EVI_EDGE0, 0, 2⟩, 3)]).setPin 0 ⟨some ⟨true, 5, 0⟩, 0⟩; (h.awake = true)
       ∧ ((h.pin n).pend = some e) ∧ (bit (h.edgeSel n) (if e.level then 0 else 1) = true) ∧ (h.tm.fifo.length < 256)
       ∧ (h.tm.fifo.all (fun x => x.entered != h.root / 8) = true))
    ∧ (let n : Fin 32 := 0;
       let e : EviPend := ⟨true, 5, 0⟩;
       let h : Hub := { (hubWith [(⟨A.TIME_EVI_EDGE0, 0, 2⟩, 3)]).setPin 0 ⟨some ⟨true, 5, 0⟩, 0⟩ with tm := { ((hubWith [(⟨A.TIME_EVI_EDGE0, 0, 2⟩, 3)]).setPin 0 ⟨some ⟨true, 5, 0⟩, 0⟩).tm with fifo := [⟨0, 5, 3, true, 0, 9, 0⟩] } };
       (h.awake = true) ∧ ((h.pin n).pend = some e) ∧ (bit (h.edgeSel n) (if e.level then 0 else 1) = true)
       ∧ (h.tm.fifo.length < 256))
    ∧ (let n : Fin 32 := 0;
       let e : EviPend := ⟨true, 5, 0⟩;
       let h : Hub := (hubWith []).setPin 0 ⟨some ⟨true, 5, 0⟩, 0⟩; (h.awake = true) ∧ ((h.pin n).pend = some e)
       ∧ (bit (h.edgeSel n) (if e.level then 0 else 1) = false))
    ∧ (let n : Nat := 95;
       let h : Hub := { hubWith [(R.TUNC_BOUND_BINDING 95, 0x2A5)] with tm := { (hubWith []).tm with fifo := [⟨0, 5, 1, true, 0, 7, 0⟩] } };
       (h.awake = true) ∧ (h.boundTo 0x2A 1 = some n) ∧ (h.tm.fifo ≠ []) ∧ (h.on R.FAB_STATUS_REBUILD = false))
    ∧ (let h : Hub := hubWith []; (h.awake = true) ∧ (h.boundTo 0x2A 1 = none))
    ∧ (let h : Hub := hubWith []; (h.awake = true))
    ∧ (let n : Fin 8 := 7;
       let h : Hub := hubWith [(R.TIME_EVO_CTRL_TUN_OWN 7, 1)]; (h.awake = true)
       ∧ (h.on (R.TIME_EVO_CTRL_TUN_OWN n) = true))
    ∧ (let n : Fin 8 := 7;
       let h : Hub := hubWith []; (h.awake = true) ∧ (h.on (R.TIME_EVO_CTRL_TUN_OWN n) = false)
       ∧ (h.get (R.TIME_EVO_CTRL_MODE n) = 0))
    ∧ (let n : Fin 8 := 7;
       let h : Hub := hubWith [(R.TIME_EVO_CTRL_MODE 7, 1), (word (A.TIME_EVO_WIDTH 7), 4), (word (A.TIME_EVO_START_LO 7), 64)];
       (h.awake = true) ∧ (h.on (R.TIME_EVO_CTRL_TUN_OWN n) = false) ∧ (h.get (R.TIME_EVO_CTRL_MODE n) = 1)
       ∧ ((h.rd (A.TIME_EVO_WIDTH n)).toNat ≠ 0) ∧ (h.now + 64 ≤ h.evoStartReg n))
    ∧ (let n : Fin 8 := 7; let h : Hub := hubWith []; (h.awake = true) ∧ (h.on (R.TIME_EVO_CTRL_TUN_OWN n) = false))
    ∧ (let n : Fin 8 := 7;
       let x : EvoSched := ⟨100, 40, 1, 4, true, 2⟩;
       let h : Hub := (hubWith []).setEvo 7 ⟨some ⟨100, 40, 1, 4, true, 2⟩, none, false, []⟩; (h.awake = true)
       ∧ ((h.evo n).sched = some x) ∧ (x.periodic = true) ∧ (h.gated n = false))
    ∧ (let n : Fin 8 := 7;
       let x : EvoSched := ⟨100, 40, 1, 4, true, 2⟩;
       let h : Hub := (hubWith [(R.TIME_EVO_CTRL_QUAL_GATE 7, 1), (R.TIME_STATUS_QUALITY, 2)]).setEvo 7 ⟨some ⟨100, 40, 1, 4, true, 2⟩, none, false, []⟩;
       (h.awake = true) ∧ ((h.evo n).sched = some x) ∧ (h.gated n = true))
    ∧ (let n : Fin 8 := 7;
       let e : Nat := 9;
       let h : Hub := (hubWith []).setEvo 7 ⟨none, some 9, true, []⟩; (h.awake = true) ∧ ((h.evo n).pulseEnd = some e)) :=
  by and_intros <;> decide

/-- States and operands that meet the hypotheses of `Obligations.FabricCommands`. -/
theorem test_witness_FabricCommands :
    (let h : Hub := hubWith [(R.FAB_CTRL_SWEEP_EN, 0)]; (h.awake = true) ∧ (h.on R.FAB_CTRL_SWEEP_EN = false))
    ∧ (let h : Hub := hubWith []; (h.awake = true) ∧ (h.on R.FAB_CTRL_SWEEP_EN = true))
    ∧ (let o : Nat := 1;
       let q : Nat := 130;
       let k : Nat := 0;
       let x : Desc := ⟨0, .pool, false, false, .P, 0, false⟩;
       let xs : List Desc := [];
       let p : Packet := ⟨130, .P, 3, 0, 0, 0, false, false, false, 0, 0, 0, []⟩;
       let h : Hub := (hubWith []).onePacket; (h.awake = true) ∧ ((h.queue o q).items = x :: xs)
       ∧ (h.pkt? x.pid = some p))
    ∧ (let o : Fin 16 := 0;
       let q : BitVec 14 := 8415;
       let h : Hub := hubWith []; (h.awake = true) ∧ (queueValid o q.toNat = true))
    ∧ (let o : Fin 16 := 3;
       let q : BitVec 14 := 96;
       let h : Hub := hubWith []; (h.awake = true) ∧ (queueValid o q.toNat = false) ∧ (o.val < 14))
    ∧ (let tid : BitVec 14 := 0x3FFF; let h : Hub := hubWith []; (h.awake = true) ∧ (h.on R.FAB_SPARGE_BUSY = false))
    ∧ (let tid : BitVec 14 := 920;
       let h : Hub := hubWith [(R.FAB_SPARGE_BUSY, 1)]; (h.awake = true) ∧ (h.on R.FAB_SPARGE_BUSY = true))
    ∧ (let o : Fin 14 := 13; let h : Hub := hubWith []; (h.awake = true) ∧ (h.fab.sparge = none) ∧ (h.ser = []))
    ∧ (let o : Fin 14 := 13;
       let tid : Nat := 130;
       let l : List Nat := [1, 13];
       let h : Hub := (hubWith []).onFab (fun f => { f with sparge := some ⟨130, [1, 13], none⟩ }); (h.awake = true)
       ∧ (h.fab.sparge = some ⟨tid, l, none⟩) ∧ (l.contains o.val = true) ∧ (o.val ≠ 10))
    ∧ (let o : Fin 14 := 13;
       let q : BitVec 14 := 95;
       let h : Hub := hubWith []; (h.awake = true) ∧ (queueValid o q.toNat = true))
    ∧ (let h : Hub := hubWith []; (h.awake = true) ∧ (h.on R.FAB_STATUS_REBUILD = false))
    ∧ (let h : Hub := hubWith [(R.FAB_STATUS_REBUILD, 1)]; (h.awake = true) ∧ (h.on R.FAB_STATUS_REBUILD = true))
    ∧ (let n : Fin 96 := 95;
       let v : Word := 1;
       let h : Hub := hubWith []; (h.awake = true) ∧ (h.on (R.POL_CFG_EN n) = false) ∧ (bit v.toNat 0 = true))
    ∧ (let n : Fin 96 := 95; let v : Word := 77; let h : Hub := hubWith []; (h.awake = true))
    ∧ (let n : Fin 96 := 95;
       let m : Fin 96 := 0;
       let reg : Fin 3 := 2;
       let v : Word := 5;
       let h : Hub := hubWith []; (h.awake = true) ∧ (reg.val ≠ 0)) :=
  by and_intros <;> decide

/-- States and operands that meet the hypotheses of `Obligations.SchedulerCommands`. -/
theorem test_witness_SchedulerCommands :
    (let p : Port := .W;
     let bad : Bool := true;
     let h : Hub := hubWith []; (h.awake = true) ∧ (h.inService p = false) ∧ ((h.links.at p).wire = none))
    ∧ (let p : Port := .W;
       let bad : Bool := false;
       let d : Desc := ⟨0, .pool, false, false, .P, 0, false⟩;
       let ds : List Desc := [];
       let h : Hub := ((hubWith [(R.CLK_STATUS_MODE, 2), (R.LNK_STATUS_STATE 1, 10), (R.LNK_STATUS_UP 1, 1)]).onePacket.onLink .W (fun l => { l with seen := ⟨1, 1, 1, 1⟩, limit := ⟨900, 900, 900, 900⟩ }));
       let k : Hub := h.refill 1;
       let step : Nat := ((h.choose 1 (h.candidates 1 h.closedTunnels)).getD (0, ⟨0, 0, ⟨0, .P, 0, 0, 0, 0, false, false, false, 0, 0, 0, []⟩, 0⟩)).1;
       let c : Cand := ((h.choose 1 (h.candidates 1 h.closedTunnels)).getD (0, ⟨0, 0, ⟨0, .P, 0, 0, 0, 0, false, false, false, 0, 0, 0, []⟩, 0⟩)).2;
       (h.awake = true) ∧ (h.inService p = true) ∧ ((h.links.at p).wire = none) ∧ ((h.links.at p).rq = [])
       ∧ (k = h.refill p.ix) ∧ (k.choose p.ix (k.candidates p.ix h.closedTunnels) = some (step, c))
       ∧ (d.tested = true ∨ k.expired c.pkt = false) ∧ ((k.queue c.o c.q).items = d :: ds) ∧ (k.spoiltAt d.pid = false)
       ∧ (0 < (h.fab.queues.map (fun e => e.2.items.length)).sum))
    ∧ (let bad : Bool := false;
       let d : Desc := ⟨0, .pool, false, false, .M, 0, false⟩;
       let ds : List Desc := [];
       let h : Hub := (hubWith []).onFab (fun f => { f with pkts := [(0, ⟨⟨128, .M, 0, 3, 0, 0, false, false, false, 0, 0, 0, []⟩, [0], .pool, 1, some .E, none, [], .M⟩)], nextPid := 1, queues := [(qkey 3 0, ⟨[⟨0, .pool, false, false, .M, 0, false⟩], 0, 0, 0, true⟩)] });
       let k : Hub := h.refill 3;
       let step : Nat := ((h.choose 3 (h.candidates 3 h.closedTunnels)).getD (0, ⟨0, 0, ⟨0, .P, 0, 0, 0, 0, false, false, false, 0, 0, 0, []⟩, 0⟩)).1;
       let c : Cand := ((h.choose 3 (h.candidates 3 h.closedTunnels)).getD (0, ⟨0, 0, ⟨0, .P, 0, 0, 0, 0, false, false, false, 0, 0, 0, []⟩, 0⟩)).2;
       (h.awake = true) ∧ (h.fab.wire = none) ∧ (c.o ≠ 13) ∧ (k = h.refill 3)
       ∧ (k.choose 3 (k.candidates 3 h.closedTunnels) = some (step, c)) ∧ (d.tested = true ∨ k.expired c.pkt = false)
       ∧ ((k.queue c.o c.q).items = d :: ds) ∧ (k.spoiltAt d.pid = false)
       ∧ (0 < (h.fab.queues.map (fun e => e.2.items.length)).sum))
    ∧ (let s : Fin 3 := 2;
       let h : Hub := hubWith [(R.LNK_STATUS_TX_NARROW 2, 1), (R.SCH_PCAP_ACTIVE, 4095)]; (h.awake = true)
       ∧ (h.on (R.LNK_STATUS_TX_NARROW s) = true) ∧ (4096 < 2 * h.dres s + h.get R.SCH_PCAP_ACTIVE + 42))
    ∧ (let h : Hub := hubWith []; (h.awake = true) ∧ ((∀ s : Fin 3, h.on (R.LNK_STATUS_TX_NARROW s) = false)))
    ∧ (let h : Hub := hubWith [(R.SCH_STATUS_ARMED, 1)]; (h.awake = true) ∧ (h.on R.SCH_STATUS_ARMED = true))
    ∧ (let h : Hub := hubWith [];
       (h.awake = true) ∧ (h.on R.SCH_STATUS_ARMED = false)
       ∧ (h.on R.TIME_STATUS_VALID = false ∨ h.get R.TIME_STATUS_QUALITY = 2))
    ∧ (let h : Hub := hubWith [(R.TIME_STATUS_VALID, 1), (R.TIME_STATUS_QUALITY, 0)];
       (h.awake = true) ∧ (h.on R.SCH_STATUS_ARMED = false) ∧ (h.on R.TIME_STATUS_VALID = true)
       ∧ (h.get R.TIME_STATUS_QUALITY ≠ 2)
       ∧ (h.get R.SCH_ARM_EPOCH = h.epoch ∨ 2 ^ 31 ≤ subMod (2 ^ 32) (h.get R.SCH_ARM_EPOCH) h.epoch))
    ∧ (let h : Hub := { hubWith [(R.TIME_STATUS_VALID, 1), (R.TIME_STATUS_QUALITY, 0), (R.SCH_ARM_EPOCH, 1)] with stime := 8 * 61501 };
       (h.awake = true) ∧ (h.on R.SCH_STATUS_ARMED = false) ∧ (h.on R.TIME_STATUS_VALID = true)
       ∧ (h.get R.TIME_STATUS_QUALITY ≠ 2) ∧ (subMod (2 ^ 32) (h.get R.SCH_ARM_EPOCH) h.epoch = 1)
       ∧ (62500 - h.now % 62500 < 1000))
    ∧ (let d : Nat := 1000;
       let s : Fin 3 := 2;
       let h : Hub := hubWith [(R.TIME_STATUS_VALID, 1), (R.TIME_STATUS_QUALITY, 0), (R.SCH_ARM_EPOCH, 1000), (R.SCH_GRANT_VALID 2 1 0, 1), (R.SCH_GRANT_QUEUE 2 1 0, 9), (R.SCH_GRANT_VALID 2 1 127, 1), (R.SCH_GRANT_QUEUE 2 1 127, 9)];
       (h.awake = true) ∧ (d = subMod (2 ^ 32) (h.get R.SCH_ARM_EPOCH) h.epoch) ∧ (h.on R.SCH_STATUS_ARMED = false)
       ∧ (h.on R.TIME_STATUS_VALID = true) ∧ (h.get R.TIME_STATUS_QUALITY ≠ 2) ∧ (1 ≤ d) ∧ (d < 2 ^ 31)
       ∧ (d ≠ 1 ∨ 1000 ≤ 62500 - h.now % 62500) ∧ (hasDup (h.bankEntries s (1 - h.get R.SCH_STATUS_ACTIVE_BANK)) = true))
    ∧ (let d : Nat := 1000;
       let s : Fin 4 := 0;
       let h : Hub := hubWith [(R.TIME_STATUS_VALID, 1), (R.TIME_STATUS_QUALITY, 0), (R.SCH_ARM_EPOCH, 1000), (R.SCH_PCAP_STAGED, 4095)];
       (h.awake = true) ∧ (d = subMod (2 ^ 32) (h.get R.SCH_ARM_EPOCH) h.epoch) ∧ (h.on R.SCH_STATUS_ARMED = false)
       ∧ (h.on R.TIME_STATUS_VALID = true) ∧ (h.get R.TIME_STATUS_QUALITY ≠ 2) ∧ (1 ≤ d) ∧ (d < 2 ^ 31)
       ∧ (d ≠ 1 ∨ 1000 ≤ 62500 - h.now % 62500)
       ∧ ((∀ k : Fin 3, hasDup (h.bankEntries k (1 - h.get R.SCH_STATUS_ACTIVE_BANK)) = false))
       ∧ (4096 < h.swapLoad s + h.get R.SCH_PCAP_STAGED + 41)
       ∧ ((∀ k : Fin 4, k < s → h.swapLoad k + h.get R.SCH_PCAP_STAGED + 41 ≤ 4096)))
    ∧ (let s : Nat := 0;
       let h : Hub := hubWith [(R.TIME_STATUS_VALID, 1), (R.TIME_STATUS_QUALITY, 0), (R.SCH_ARM_EPOCH, 1000)];
       (h.awake = true) ∧ (h.armResult = (1, s)))
    ∧ (let h : Hub := hubWith [(R.SCH_STATUS_ARMED, 1), (R.TIME_STATUS_VALID, 1), (R.TIME_STATUS_QUALITY, 1)];
       (h.awake = true) ∧ (h.on R.SCH_STATUS_ARMED = true) ∧ (h.get R.SCH_ARM_EPOCH = h.epoch)
       ∧ (h.on R.TIME_STATUS_VALID = true) ∧ (h.get R.TIME_STATUS_QUALITY < 2))
    ∧ (let h : Hub := hubWith [(R.SCH_STATUS_ARMED, 1), (R.TIME_STATUS_VALID, 1), (R.TIME_STATUS_QUALITY, 2)];
       (h.awake = true) ∧ (h.on R.SCH_STATUS_ARMED = true) ∧ (h.get R.SCH_ARM_EPOCH = h.epoch)
       ∧ (h.on R.TIME_STATUS_VALID = false ∨ h.get R.TIME_STATUS_QUALITY = 2) ∧ (h.err.handling = [])
       ∧ (h.pw.steep = false))
    ∧ (let h : Hub := hubWith [];
       (h.awake = true) ∧ (h.on R.SCH_STATUS_ARMED = false ∨ 2 ^ 31 ≤ subMod (2 ^ 32) h.epoch (h.get R.SCH_ARM_EPOCH)))
    ∧ (let h : Hub := hubWith [(R.SCH_STATUS_SETTLING, 1)]; (h.awake = true) ∧ (h.on R.SCH_STATUS_SETTLING = true))
    ∧ (let h : Hub := hubWith []; (h.awake = true))
    ∧ (let depth : Bool := true; let k : Nat := 0; let h : Hub := hubWith []; (h.awake = true) ∧ (h.qmonKey = some k))
    ∧ (let depth : Bool := false; let k : Nat := 0; let h : Hub := hubWith []; (h.awake = true) ∧ (h.qmonKey = some k)) :=
  by and_intros <;> decide

/-- States and operands that meet the hypotheses of `Obligations.AccessAndBindingCommands`. -/
theorem test_witness_AccessAndBindingCommands :
    (let h : Hub := hubWith []; (h.awake = true))
    ∧ (let h : Hub := hubWith [(R.ACC_CTRL_EN, 0)]; (h.awake = true) ∧ (h.on R.ACC_CTRL_EN = false))
    ∧ (let h : Hub := { hubWith [] with acc := { (hubWith []).acc with hashDue := true } };
       (h.awake = true) ∧ (h.acc.hashDue = true))
    ∧ (let h : Hub := hubWith []; (h.awake = true) ∧ (h.acc.hashDue = false))
    ∧ (let i : Fin 128 := 31;
       let v : Word := 0xFFFFFFFF;
       let h : Hub := hubWith [(R.ACC_CTRL_EN, 0)]; (h.awake = true) ∧ (i.val < 32) ∧ (h.on R.ACC_CTRL_EN = false)
       ∧ (bit (h.rd (A.ACC_SLOT i)).toNat 31 = false))
    ∧ (let i : Fin 128 := 32;
       let v : Word := 0xFFFFFFFF;
       let h : Hub := hubWith []; (h.awake = true) ∧ (32 ≤ i.val) ∧ (i.val < 64))
    ∧ (let i : Fin 128 := 0;
       let v : Word := 5;
       let h : Hub := hubWith [(R.ACC_CTRL_EN, 1)]; (h.awake = true) ∧ (i.val < 32)
       ∧ (h.on R.ACC_CTRL_EN = true ∨ bit (h.rd (A.ACC_SLOT i)).toNat 31 = true))
    ∧ (let i : Fin 128 := 126;
       let v : Word := 11;
       let h : Hub := hubWith [(R.ACC_CTRL_EN, 0)]; (h.awake = true) ∧ (64 ≤ i.val) ∧ (i.val % 2 = 0)
       ∧ (h.on R.ACC_CTRL_EN = false) ∧ (bit (h.rd (A.ACC_REG_PERM ((i.val - 64) / 2))).toNat 31 = false)
       ∧ (regionLegal v.toNat = false))
    ∧ (let i : Fin 128 := 126;
       let v : Word := 0x0030000C;
       let h : Hub := hubWith [(R.ACC_CTRL_EN, 0)]; (h.awake = true) ∧ (64 ≤ i.val) ∧ (i.val % 2 = 0)
       ∧ (h.on R.ACC_CTRL_EN = false) ∧ (bit (h.rd (A.ACC_REG_PERM ((i.val - 64) / 2))).toNat 31 = false)
       ∧ (regionLegal v.toNat = true))
    ∧ (let n : Fin 96 := 95;
       let b : BitVec 18 := 2;
       let h : Hub := hubWith []; (h.awake = true) ∧ (n.val ≠ 0) ∧ (bindReserved b.toNat = false)
       ∧ (h.on (R.TUNC_BOUND_PENDING n) = false) ∧ (h.ctxState n = cxEmpty) ∧ (bindPermitted b.toNat = true)
       ∧ (h.instanceTaken n b.toNat = false) ∧ (h.fab.sparge = none))
    ∧ (let n : Fin 96 := 0;
       let b : BitVec 18 := 5;
       let h : Hub := hubWith []; (h.awake = true)
       ∧ (n.val = 0 ∨ bindReserved b.toNat = true ∨ h.on (R.TUNC_BOUND_PENDING n) = true ∨ h.ctxState n ≠ cxEmpty ∨ bindPermitted b.toNat = false ∨ h.instanceTaken n b.toNat = true))
    ∧ (let n : Fin 96 := 95;
       let b : Nat := 0x3FFFF;
       let i : Nat := 0;
       let old : Option Nat := none;
       let sw : Bool := false;
       let h : Hub := { hubWith [(R.FAB_SPARGE_BUSY, 1), (R.TUNC_BOUND_PENDING 95, 1)] with fab := { (hubWith []).fab with sparge := some ⟨0, [], some ⟨95, 0x3FFFF, none, false⟩⟩ } };
       (h.awake = true) ∧ (h.fab.sparge = some ⟨i, [], some ⟨n, b, old, sw⟩⟩) ∧ (h.fab.spargeWait = []) ∧ (b < 2 ^ 18))
    ∧ (let n : Fin 96 := 95;
       let b : Nat := 2;
       let i : Nat := 0;
       let o : Nat := 13;
       let l : List Nat := [13];
       let h : Hub := { hubWith [] with fab := { (hubWith []).fab with sparge := some ⟨0, [13], some ⟨95, 2, some 13, false⟩⟩ } };
       (h.awake = true) ∧ (h.fab.sparge = some ⟨i, l, some ⟨n, b, some o, false⟩⟩) ∧ (o < 14) ∧ (o ≠ 10)
       ∧ (l.contains o = true))
    ∧ (let h : Hub := hubWith []; (h.awake = true) ∧ (h.fab.sparge = none)) :=
  by and_intros <;> decide

/-- States and operands that meet the hypotheses of `Obligations.ContextCommands`. -/
theorem test_witness_ContextCommands :
    (let n : Fin 96 := 95;
     let h : Hub := hubWith [(R.TUNC_CTX_STATUS_STATE 95, 2), (R.TUNC_WDOG_LIMIT, 5), (R.TUNC_CTX_CFG_TRAP_ACTION 95, 2), (R.TUNC_CTX_CFG_RESTART_MAX 95, 3)];
     (h.awake = true) ∧ (h.ctxState n = cxRunning) ∧ (h.get R.TUNC_WDOG_LIMIT ≠ 0))
    ∧ (let n : Fin 96 := 95;
       let h : Hub := hubWith [(R.TUNC_WDOG_LIMIT, 0)]; (h.awake = true)
       ∧ (h.get R.TUNC_WDOG_LIMIT = 0 ∨ h.ctxState n ≠ cxRunning))
    ∧ (let n : Fin 96 := 95;
       let h : Hub := (hubWith [(R.TUNC_CTX_STATUS_STATE 95, 5)]).setCtx 95 { Ctx.empty with restart := true, entry := 3, restartCause := 10 };
       (h.awake = true) ∧ (h.ctxState n = cxTrapped) ∧ ((h.ctx n).restart = true))
    ∧ (let n : Fin 96 := 95;
       let h : Hub := hubWith []; (h.awake = true) ∧ ((h.ctx n).restart = false ∨ h.ctxState n ≠ cxTrapped))
    ∧ (let n : Fin 96 := 95;
       let h : Hub := hubWith [(R.TUNC_CTX_STATUS_STATE 95, 4), (R.TUNC_CTX_CODE_SIZE 95, 3)]; (h.awake = true)
       ∧ (h.ctxState n = cxHalted) ∧ ((h.ctx n).held = []))
    ∧ (let n : Fin 96 := 95;
       let h : Hub := hubWith [(R.TUNC_CTX_STATUS_STATE 95, 2), (R.TUNC_CTX_CODE_SIZE 95, 3)]; (h.awake = true)
       ∧ (h.ctxState n = cxRunning ∨ h.ctxState n = cxWaiting ∨ h.ctxState n = cxTrapped))
    ∧ (let n : BitVec 7 := 95;
       let h : Hub := hubWith []; (h.awake = true) ∧ (n.toNat < 96)
       ∧ (h.ctxState n.toNat = cxEmpty ∨ h.ctxState n.toNat = cxLoading))
    ∧ (let n : BitVec 7 := 96; let h : Hub := hubWith []; (h.awake = true) ∧ (96 ≤ n.toNat))
    ∧ (let n : Fin 96 := 95;
       let h : Hub := hubWith [(R.TUNC_CTX_STATUS_STATE 95, 6)]; (h.awake = true) ∧ (h.ctxState n = cxMoving))
    ∧ (let n : BitVec 7 := 95;
       let h : Hub := hubWith []; (h.awake = true) ∧ (n.toNat < 96) ∧ (h.ctxState n.toNat ≠ cxMoving))
    ∧ (let n : BitVec 7 := 95;
       let h : Hub := hubWith [(R.TUNC_CTX_STATUS_STATE 95, 6)]; (h.awake = true) ∧ (n.toNat < 96)
       ∧ (h.ctxState n.toNat = cxMoving))
    ∧ (let t : Fin 9 := 7;
       let h : Hub := hubWith [(R.TUNC_CTRL_SPARE_EN, 1), (R.TUNC_CTX_STATUS_STATE 95, 2), (R.TUNC_CTX_STATUS_STATE 94, 1), (R.TUNC_CTX_STATUS_STATE 3, 2)];
       (h.awake = true) ∧ (t.val < 8) ∧ (bit (h.get R.TUNC_STATUS_FAILED) t = false) ∧ (h.canTakeOver = true))
    ∧ (let t : Fin 9 := 7;
       let h : Hub := hubWith [(R.TUNC_STATUS_SPARE, 2), (R.TUNC_CTX_STATUS_STATE 95, 2), (R.TUNC_CTX_STATUS_STATE 94, 4), (R.TUNC_CTX_CFG_TRAP_ACTION 95, 2)];
       (h.awake = true) ∧ (t.val < 8) ∧ (bit (h.get R.TUNC_STATUS_FAILED) t = false) ∧ (h.canTakeOver = false)
       ∧ (h.tun.moving ≠ some t.val))
    ∧ (let t : Fin 9 := 7;
       let h : Hub := hubWith [(R.TUNC_STATUS_FAILED, 128)]; (h.awake = true) ∧ (t.val < 8)
       ∧ (bit (h.get R.TUNC_STATUS_FAILED) t = true))
    ∧ (let h : Hub := hubWith []; (h.awake = true) ∧ (h.get R.TUNC_STATUS_SPARE = 0))
    ∧ (let t : Fin 8 := 7;
       let n : Fin 96 := 95;
       let h : Hub := hubWith [(R.TUNC_STATUS_SPARE, 1), (R.TUNC_STATUS_SERVED, 7), (R.TUNC_STATUS_FAILED, 128), (R.TUNC_CTX_STATUS_STATE 95, 2)];
       (h.awake = true) ∧ (h.get R.TUNC_STATUS_SPARE = 1) ∧ (h.get R.TUNC_STATUS_SERVED = t.val)
       ∧ (h.tun.moving ≠ some t.val) ∧ (n.val / 12 = t.val) ∧ (h.ctxState n = cxRunning))
    ∧ (let t : Fin 8 := 7;
       let n : Fin 96 := 95;
       let h : Hub := { (hubWith [(R.TUNC_STATUS_SPARE, 1), (R.TUNC_STATUS_SERVED, 7), (R.TUNC_STATUS_FAILED, 128), (R.TUNC_STATUS_MOVING, 1), (R.TUNC_CTX_STATUS_STATE 95, 6)]) with tun := { (hubWith []).tun with moving := some 7, ctxs := ((hubWith []).setCtx 95 { Ctx.empty with was := 2 }).tun.ctxs } };
       (h.awake = true) ∧ (h.get R.TUNC_STATUS_SPARE = 1) ∧ (h.get R.TUNC_STATUS_SERVED = t.val)
       ∧ (h.tun.moving = some t.val) ∧ (n.val / 12 = t.val) ∧ (h.ctxState n = cxMoving)
       ∧ ((h.ctx n).was = cxRunning ∨ (h.ctx n).was = cxWaiting) ∧ ((h.ctx n).stopLater = false) ∧ (h.acc.held = []))
    ∧ (let t : BitVec 4 := 7;
       let h : Hub := hubWith [(R.TUNC_CTRL_SPARE_EN, 1), (R.TUNC_CTX_STATUS_STATE 95, 3)]; (h.awake = true)
       ∧ (t.toNat < 8) ∧ (h.canTakeOver = true))
    ∧ (let t : BitVec 4 := 8; let h : Hub := hubWith []; (h.awake = true) ∧ (8 ≤ t.toNat ∨ h.canTakeOver = false))
    ∧ (let t : Fin 8 := 7;
       let h : Hub := hubWith [(R.TUNC_STATUS_SPARE, 2), (R.TUNC_CTX_STATUS_STATE 84, 3), (R.TUNC_CTX_STATUS_STATE 85, 4)];
       (h.awake = true) ∧ (h.canTakeOver = false) ∧ (bit (h.get R.TUNC_STATUS_FAILED) t = false)
       ∧ (h.tun.moving ≠ some t.val))
    ∧ (let t : Fin 8 := 7;
       let h : Hub := hubWith [(R.TUNC_CTRL_SPARE_EN, 1)]; (h.awake = true)
       ∧ (h.canTakeOver = true ∨ bit (h.get R.TUNC_STATUS_FAILED) t = true))
    ∧ (let t : Fin 8 := 7;
       let n : Fin 96 := 95;
       let h : Hub := { (hubWith [(R.TUNC_CTX_STATUS_STATE 95, 6), (R.TUNC_STATUS_MOVING, 1)]) with tun := { (hubWith []).tun with moving := some 7, ctxs := ((hubWith []).setCtx 95 { Ctx.empty with was := 5 }).tun.ctxs } };
       (h.awake = true) ∧ (h.tun.moving = some t.val) ∧ (n.val / 12 = t.val) ∧ (h.ctxState n = cxMoving)
       ∧ ((h.ctx n).stopLater = false) ∧ ((h.ctx n).mailLater = false) ∧ ((h.ctx n).was ≠ cxMoving) ∧ ((h.ctx n).was < 8))
    ∧ (let t : Fin 8 := 7;
       let n : Fin 96 := 95;
       let h : Hub := { (hubWith [(R.TUNC_CTX_STATUS_STATE 95, 6), (R.TUNC_STATUS_MOVING, 1)]) with tun := { (hubWith []).tun with moving := some 7, ctxs := ((hubWith []).setCtx 95 { Ctx.empty with was := 3, stopLater := true }).tun.ctxs } };
       (h.awake = true) ∧ (h.tun.moving = some t.val) ∧ (n.val / 12 = t.val) ∧ (h.ctxState n = cxMoving)
       ∧ ((h.ctx n).stopLater = true) ∧ ((h.ctx n).was ≠ cxMoving) ∧ ((h.ctx n).was ≠ cxLoading) ∧ ((h.ctx n).was < 8))
    ∧ (let t : Fin 8 := 7;
       let n : Fin 96 := 95;
       let h : Hub := { (hubWith [(R.TUNC_CTX_STATUS_STATE 95, 6), (R.TUNC_STATUS_MOVING, 1)]) with tun := { (hubWith []).tun with moving := some 7, ctxs := ((hubWith []).setCtx 95 { Ctx.empty with was := 2, mailLater := true }).tun.ctxs } };
       (h.awake = true) ∧ (h.tun.moving = some t.val) ∧ (n.val / 12 = t.val) ∧ (h.ctxState n = cxMoving)
       ∧ ((h.ctx n).stopLater = false) ∧ ((h.ctx n).mailLater = true) ∧ ((h.ctx n).was = cxRunning))
    ∧ (let t : Fin 8 := 7;
       let k : Fin 0x10000 := 0xFFFF;
       let h : Hub := { hubWith [(R.TUNC_STATUS_MOVING, 1)] with tun := { (hubWith []).tun with moving := some 7 } };
       (h.awake = true) ∧ (h.tun.moving = some t.val) ∧ (h.acc.held = []) ∧ (h.tun.left = []))
    ∧ (let h : Hub := hubWith []; (h.awake = true) ∧ (h.tun.moving = none))
    ∧ (let n : Fin 96 := 95; let h : Hub := hubWith []; (h.awake = true)) :=
  by and_intros <;> decide

/-- States and operands that meet the hypotheses of `Obligations.PitchCommands`. -/
theorem test_witness_PitchCommands :
    (let n : BitVec 7 := 95;
     let share : Bool := false;
     let h : Hub := hubWith [(R.TUNC_PITCH_STATUS_BUSY, 1)]; (h.awake = true) ∧ (h.on R.TUNC_PITCH_STATUS_BUSY = true))
    ∧ (let n : BitVec 7 := 95;
       let share : Bool := false;
       let h : Hub := hubWith [(R.SEC_STATUS_LIFECYCLE, 3)]; (h.awake = true) ∧ (h.on R.TUNC_PITCH_STATUS_BUSY = false)
       ∧ (h.lifecycle = 3 ∨ h.lifecycle = 4))
    ∧ (let n : BitVec 7 := 95;
       let share : Bool := false;
       let h : Hub := hubWith [(R.TUNC_STATUS_FAILED, 128), (R.TUNC_STATUS_SERVED, 15)]; (h.awake = true)
       ∧ (h.on R.TUNC_PITCH_STATUS_BUSY = false) ∧ (h.lifecycle ≠ 3) ∧ (h.lifecycle ≠ 4)
       ∧ (96 ≤ n.toNat ∨ (bit (h.get R.TUNC_STATUS_FAILED) (n.toNat / 12) = true ∧ (h.get R.TUNC_STATUS_SERVED ≠ n.toNat / 12 ∨ bit (h.get R.TUNC_STATUS_FAILED) 8 = true))))
    ∧ (let n : BitVec 7 := 95;
       let share : Bool := false;
       let h : Hub := hubWith [(R.TUNC_CTX_STATUS_STATE 95, 6)]; (h.awake = true)
       ∧ (h.on R.TUNC_PITCH_STATUS_BUSY = false) ∧ (h.lifecycle ≠ 3) ∧ (h.lifecycle ≠ 4) ∧ (n.toNat < 96)
       ∧ (h.tunServed (n.toNat / 12) = true)
       ∧ (h.ctxState n.toNat = cxLoading ∨ h.ctxState n.toNat = cxRunning ∨ h.ctxState n.toNat = cxWaiting ∨ h.ctxState n.toNat = cxMoving))
    ∧ (let n : BitVec 7 := 95;
       let share : Bool := false;
       let h : Hub := hubWith [(word A.TUNC_PITCH_SRC, 0x300001)]; (h.awake = true)
       ∧ (h.on R.TUNC_PITCH_STATUS_BUSY = false) ∧ (h.lifecycle ≠ 3) ∧ (h.lifecycle ≠ 4) ∧ (n.toNat < 96)
       ∧ (h.tunServed (n.toNat / 12) = true)
       ∧ (h.ctxState n.toNat = cxEmpty ∨ h.ctxState n.toNat = cxHalted ∨ h.ctxState n.toNat = cxTrapped)
       ∧ ((h.rd A.TUNC_PITCH_SRC).toNat % 64 ≠ 0))
    ∧ (let n : BitVec 7 := 95;
       let share : Bool := false;
       let src : Nat := 0x300000;
       let code : Nat := 0;
       let data : Nat := 0;
       let r : Nat := 3;
       let h : Hub := hubWith [(R.TUNC_BOUND_BINDING 95, 2), (R.ACC_CTRL_EN, 1), (R.ACC_REG_PERM_VALID 0, 1), (R.ACC_REG_PERM_PERM 0, 0x1000), (word (A.ACC_REG_BASE 0), 0x300000 + 19), (word A.TUNC_PITCH_SRC, 0x300000)];
       (h.awake = true) ∧ (h.on R.TUNC_PITCH_STATUS_BUSY = false) ∧ (h.pitchPre n.toNat = none)
       ∧ (src = (h.rd A.TUNC_PITCH_SRC).toNat) ∧ (code = h.get R.TUNC_PITCH_BASE_CODE_BASE)
       ∧ (data = h.get R.TUNC_PITCH_BASE_DATA_BASE) ∧ (h.sourceOk src (max 160 (h.imageHead src).total) = (h, some true))
       ∧ (h.pitchChecks n.toNat share src code data false = some r) ∧ (r < 16))
    ∧ (let n : BitVec 7 := 95;
       let share : Bool := false;
       let src : Nat := 0x300000;
       let code : Nat := 0;
       let data : Nat := 0;
       let cold : Bool := true;
       let h : Hub := hubWith []; (h.awake = true) ∧ ((h.imageHead src).wellFormed = false))
    ∧ (let n : BitVec 7 := 95;
       let share : Bool := false;
       let src : Nat := 0x300000;
       let code : Nat := 0;
       let data : Nat := 0;
       let cold : Bool := true;
       let h : Hub := (hubWith []).mstore 0x300000 [0x43, 0x4C, 0x53, 0x54, 1, 0, 0, 0, 4, 0, 0, 0, 0, 0, 0, 0, 64, 0, 0, 0, 0, 0, 0, 0, 0, 0, 1, 0, 0, 0, 0, 0, 2];
       let x : ImageHead := h.imageHead 0x300000; (h.awake = true) ∧ (x = h.imageHead src) ∧ (x.wellFormed = true)
       ∧ ((h.rd A.DEV_BEHAVIOUR).toNat < x.behaviour))
    ∧ (let n : BitVec 7 := 95;
       let share : Bool := false;
       let src : Nat := 0x300000;
       let code : Nat := 0;
       let data : Nat := 0;
       let cold : Bool := false;
       let b : Nat := 1;
       let h : Hub := (hubWith [(R.TUNC_BOUND_BINDING 95, 1)]).mstore 0x300000 [0x43, 0x4C, 0x53, 0x54, 1, 0, 0, 0, 4, 0, 0, 0, 0, 0, 0, 0, 64, 0, 0, 0, 0, 0, 0, 0, 0, 0, 1];
       let x : ImageHead := h.imageHead 0x300000; (h.awake = true) ∧ (x = h.imageHead src) ∧ (b = h.bindingShown n.toNat)
       ∧ (x.wellFormed = true) ∧ (x.behaviour ≤ (h.rd A.DEV_BEHAVIOUR).toNat) ∧ (cold = false ∨ bit x.flags 0 = true)
       ∧ (slice b 0 2 ≠ 2 ∨ (x.endpoint ≠ 0xFF ∧ x.endpoint ≠ slice b 4 6) ∨ bit x.classes (slice b 2 2) = false))
    ∧ (let n : BitVec 7 := 95;
       let share : Bool := false;
       let src : Nat := 0x300000;
       let code : Nat := 8192;
       let data : Nat := 0;
       let b : Nat := 2;
       let h : Hub := (hubWith [(R.TUNC_BOUND_BINDING 95, 2)]).mstore 0x300000 [0x43, 0x4C, 0x53, 0x54, 1, 0, 0, 0, 4, 0, 0, 0, 0, 0, 0, 0, 64, 0, 0, 0, 0, 0, 0, 0, 0, 0, 1];
       let x : ImageHead := h.imageHead 0x300000; (h.awake = true) ∧ (x = h.imageHead src) ∧ (b = h.bindingShown n.toNat)
       ∧ (x.wellFormed = true) ∧ (x.behaviour ≤ (h.rd A.DEV_BEHAVIOUR).toNat) ∧ (slice b 0 2 = 2)
       ∧ (x.endpoint = 0xFF ∨ x.endpoint = slice b 4 6) ∧ (bit x.classes (slice b 2 2) = true)
       ∧ (8192 < code + x.codeBytes / 4 ∨ 65536 < data * 64 + x.dataBytes))
    ∧ (let n : BitVec 7 := 95;
       let share : Bool := false;
       let src : Nat := 0x300000;
       let code : Nat := 3;
       let data : Nat := 0;
       let b : Nat := 2;
       let h : Hub := (hubWith [(R.TUNC_BOUND_BINDING 95, 2), (R.TUNC_CTX_STATUS_STATE 84, 2), (R.TUNC_CTX_CODE_SIZE 84, 4)]).mstore 0x300000 [0x43, 0x4C, 0x53, 0x54, 1, 0, 0, 0, 4, 0, 0, 0, 0, 0, 0, 0, 64, 0, 0, 0, 0, 0, 0, 0, 0, 0, 1];
       let x : ImageHead := h.imageHead 0x300000; (h.awake = true) ∧ (x = h.imageHead src) ∧ (b = h.bindingShown n.toNat)
       ∧ (x.wellFormed = true) ∧ (x.behaviour ≤ (h.rd A.DEV_BEHAVIOUR).toNat) ∧ (slice b 0 2 = 2)
       ∧ (x.endpoint = 0xFF ∨ x.endpoint = slice b 4 6) ∧ (bit x.classes (slice b 2 2) = true)
       ∧ (code + x.codeBytes / 4 ≤ 8192) ∧ (data * 64 + x.dataBytes ≤ 65536)
       ∧ ((share = false ∧ (h.peers n.toNat).any (fun m => overlap code (x.codeBytes / 4) (h.codeWin m).1 (h.codeWin m).2) = true) ∨ (h.peers n.toNat).any (fun m => overlap data (x.dataBytes / 64) (h.dataWin m).1 (h.dataWin m).2) = true))
    ∧ (let n : BitVec 7 := 95;
       let share : Bool := true;
       let src : Nat := 0x300000;
       let code : Nat := 3;
       let data : Nat := 0;
       let b : Nat := 2;
       let h : Hub := (hubWith [(R.TUNC_BOUND_BINDING 95, 2)]).mstore 0x300000 [0x43, 0x4C, 0x53, 0x54, 1, 0, 0, 0, 4, 0, 0, 0, 0, 0, 0, 0, 64, 0, 0, 0, 0, 0, 0, 0, 0, 0, 1];
       let x : ImageHead := h.imageHead 0x300000; (h.awake = true) ∧ (x = h.imageHead src) ∧ (b = h.bindingShown n.toNat)
       ∧ (share = true) ∧ (x.wellFormed = true) ∧ (x.behaviour ≤ (h.rd A.DEV_BEHAVIOUR).toNat) ∧ (slice b 0 2 = 2)
       ∧ (x.endpoint = 0xFF ∨ x.endpoint = slice b 4 6) ∧ (bit x.classes (slice b 2 2) = true)
       ∧ (code + x.codeBytes / 4 ≤ 8192) ∧ (data * 64 + x.dataBytes ≤ 65536)
       ∧ ((h.peers n.toNat).any (fun m => overlap data (x.dataBytes / 64) (h.dataWin m).1 (h.dataWin m).2) = false)
       ∧ ((h.peers n.toNat).any (fun m => h.codeWin m == (code, x.codeBytes / 4) && (h.ctx m).shareable && h.on (R.TUNC_MEAS_INFO_VALID m)) = false))
    ∧ (let n : BitVec 7 := 95;
       let share : Bool := false;
       let src : Nat := 0x300000;
       let code : Nat := 3;
       let data : Nat := 0;
       let b : Nat := 2;
       let h : Hub := (hubWith [(R.TUNC_BOUND_BINDING 95, 2), (R.SEC_STATUS_LIFECYCLE, 2)]).mstore 0x300000 [0x43, 0x4C, 0x53, 0x54, 1, 0, 0, 0, 4, 0, 0, 0, 0, 0, 0, 0, 64, 0, 0, 0, 0, 0, 0, 0, 0, 0, 1];
       let x : ImageHead := h.imageHead 0x300000; (h.awake = true) ∧ (x = h.imageHead src) ∧ (b = h.bindingShown n.toNat)
       ∧ (share = false) ∧ (h.lifecycle = 2) ∧ (bit (h.get R.SEC_STATUS_PKEYS) x.key = false) ∧ (x.wellFormed = true)
       ∧ (x.behaviour ≤ (h.rd A.DEV_BEHAVIOUR).toNat) ∧ (slice b 0 2 = 2) ∧ (x.endpoint = 0xFF ∨ x.endpoint = slice b 4 6)
       ∧ (bit x.classes (slice b 2 2) = true) ∧ (code + x.codeBytes / 4 ≤ 8192) ∧ (data * 64 + x.dataBytes ≤ 65536)
       ∧ ((h.peers n.toNat).any (fun m => overlap data (x.dataBytes / 64) (h.dataWin m).1 (h.dataWin m).2) = false)
       ∧ ((h.peers n.toNat).any (fun m => overlap code (x.codeBytes / 4) (h.codeWin m).1 (h.codeWin m).2) = false))
    ∧ (let n : BitVec 7 := 95;
       let share : Bool := false;
       let src : Nat := 0x300000;
       let code : Nat := 0;
       let data : Nat := 0;
       let h : Hub := (hubWith [(R.TUNC_BOUND_BINDING 95, 2), (R.ACC_CTRL_EN, 1), (R.ACC_REG_PERM_VALID 0, 1), (R.ACC_REG_PERM_PERM 0, 0x1000), (word (A.ACC_REG_BASE 0), 0x300000 + 19), (word A.TUNC_PITCH_SRC, 0x300000)]).mstore 0x300000 ([0x43, 0x4C, 0x53, 0x54, 1, 0, 0, 0, 4, 0, 0, 0, 0, 0, 0, 0, 64, 0, 0, 0, 0, 0, 0, 0, 0, 0, 1]);
       (h.awake = true) ∧ (h.on R.TUNC_PITCH_STATUS_BUSY = false) ∧ (h.pitchPre n.toNat = none)
       ∧ (src = (h.rd A.TUNC_PITCH_SRC).toNat) ∧ (code = h.get R.TUNC_PITCH_BASE_CODE_BASE)
       ∧ (data = h.get R.TUNC_PITCH_BASE_DATA_BASE) ∧ (h.sourceOk src (max 160 (h.imageHead src).total) = (h, some true))
       ∧ (h.pitchChecks n.toNat share src code data false = none))
    ∧ (let n : BitVec 7 := 95;
       let share : Bool := false;
       let x : Pitching := ⟨95, true, 0x300000, 0, 0, 4, 0, 64, 0, 0, false, false, none⟩;
       let h : Hub := { hubWith [(R.TUNC_PITCH_STATUS_BUSY, 1)] with tun := { (hubWith []).tun with pitch := some ⟨95, true, 0x300000, 0, 0, 4, 0, 64, 0, 0, false, false, none⟩ } };
       (h.awake = true) ∧ (h.tun.pitch = some x) ∧ (x.signed = false) ∧ (h.tun.moving ≠ some (x.tunnel / 12))
       ∧ (x.tunnel < 96) ∧ (h.tunServed (x.tunnel / 12) = true) ∧ (x.cold = none))
    ∧ (let n : BitVec 7 := 95;
       let share : Bool := false;
       let x : Pitching := ⟨95, true, 0x300000, 0, 0, 4, 0, 64, 0, 0, true, false, none⟩;
       let h : Hub := { hubWith [(R.TUNC_PITCH_STATUS_BUSY, 1)] with tun := { (hubWith []).tun with pitch := some ⟨95, true, 0x300000, 0, 0, 4, 0, 64, 0, 0, true, false, none⟩ } };
       (h.awake = true) ∧ (h.tun.pitch = some x) ∧ (x.signed = true) ∧ (h.imageSigned x.src (h.imageHead x.src) = false)
       ∧ (h.acc.held = []) ∧ (h.tun.moving ≠ some (x.tunnel / 12)) ∧ (x.tunnel < 96) ∧ (x.cold = none))
    ∧ (let n : BitVec 7 := 95;
       let share : Bool := false;
       let h : Hub := hubWith []; (h.awake = true) ∧ (h.tun.pitch = none)) :=
  by and_intros <;> decide

/-- States and operands that meet the hypotheses of `Obligations.AluInstructions`. -/
theorem test_witness_AluInstructions :
    (let n : Fin 96 := 95;
     let gd : Fin 16 := 3;
     let ga : Fin 16 := 1;
     let gb : Fin 16 := 2;
     let f : Bool := true;
     let h : Hub := (ctxWith 95 [] [(1, 0x80000001), (2, 0xFFFFFFFF)]).withWord (.add n gd ga gb f);
     let a : Word := h.gpr n ga;
     let b : Word := h.gpr n gb; (h.canIssue n = true) ∧ (h.inCode n ((h.ctx n).pc + 1) = true) ∧ (a = h.gpr n ga)
     ∧ (b = h.gpr n gb) ∧ (h.spells n (.add n gd ga gb f)))
    ∧ (let n : Fin 96 := 95;
       let gd : Fin 16 := 3;
       let ga : Fin 16 := 1;
       let gb : Fin 16 := 2;
       let f : Bool := true;
       let h : Hub := (ctxWith 95 [] [(1, 0x80000001), (2, 0xFFFFFFFF)]).withWord (.sub n gd ga gb f);
       let a : Word := h.gpr n ga;
       let b : Word := h.gpr n gb; (h.canIssue n = true) ∧ (h.inCode n ((h.ctx n).pc + 1) = true) ∧ (a = h.gpr n ga)
       ∧ (b = h.gpr n gb) ∧ (h.spells n (.sub n gd ga gb f)))
    ∧ (let n : Fin 96 := 95;
       let gd : Fin 16 := 3;
       let ga : Fin 16 := 1;
       let gb : Fin 16 := 2;
       let f : Bool := true;
       let h : Hub := (ctxWith 95 [] [(1, 0x80000001), (2, 0xFFFFFFFF)]).withWord (.adc n gd ga gb f);
       let a : Word := h.gpr n ga;
       let b : Word := h.gpr n gb; (h.canIssue n = true) ∧ (h.inCode n ((h.ctx n).pc + 1) = true) ∧ (a = h.gpr n ga)
       ∧ (b = h.gpr n gb) ∧ (h.spells n (.adc n gd ga gb f)))
    ∧ (let n : Fin 96 := 95;
       let gd : Fin 16 := 3;
       let ga : Fin 16 := 1;
       let gb : Fin 16 := 2;
       let f : Bool := true;
       let h : Hub := (ctxWith 95 [] [(1, 0x80000001), (2, 0xFFFFFFFF)]).withWord (.sbc n gd ga gb f);
       let a : Word := h.gpr n ga;
       let b : Word := h.gpr n gb; (h.canIssue n = true) ∧ (h.inCode n ((h.ctx n).pc + 1) = true) ∧ (a = h.gpr n ga)
       ∧ (b = h.gpr n gb) ∧ (h.spells n (.sbc n gd ga gb f)))
    ∧ (let n : Fin 96 := 95;
       let gd : Fin 16 := 3;
       let ga : Fin 16 := 1;
       let gb : Fin 16 := 2;
       let f : Bool := true;
       let h : Hub := (ctxWith 95 [] [(1, 0x80000001), (2, 0xFFFFFFFF)]).withWord (.and n gd ga gb f);
       let a : Word := h.gpr n ga;
       let b : Word := h.gpr n gb; (h.canIssue n = true) ∧ (h.inCode n ((h.ctx n).pc + 1) = true) ∧ (a = h.gpr n ga)
       ∧ (b = h.gpr n gb) ∧ (h.spells n (.and n gd ga gb f)))
    ∧ (let n : Fin 96 := 95;
       let gd : Fin 16 := 3;
       let ga : Fin 16 := 1;
       let gb : Fin 16 := 2;
       let f : Bool := true;
       let h : Hub := (ctxWith 95 [] [(1, 0x80000001), (2, 0xFFFFFFFF)]).withWord (.or n gd ga gb f);
       let a : Word := h.gpr n ga;
       let b : Word := h.gpr n gb; (h.canIssue n = true) ∧ (h.inCode n ((h.ctx n).pc + 1) = true) ∧ (a = h.gpr n ga)
       ∧ (b = h.gpr n gb) ∧ (h.spells n (.or n gd ga gb f)))
    ∧ (let n : Fin 96 := 95;
       let gd : Fin 16 := 3;
       let ga : Fin 16 := 1;
       let gb : Fin 16 := 2;
       let f : Bool := true;
       let h : Hub := (ctxWith 95 [] [(1, 0x80000001), (2, 0xFFFFFFFF)]).withWord (.xor n gd ga gb f);
       let a : Word := h.gpr n ga;
       let b : Word := h.gpr n gb; (h.canIssue n = true) ∧ (h.inCode n ((h.ctx n).pc + 1) = true) ∧ (a = h.gpr n ga)
       ∧ (b = h.gpr n gb) ∧ (h.spells n (.xor n gd ga gb f)))
    ∧ (let n : Fin 96 := 95;
       let gd : Fin 16 := 3;
       let ga : Fin 16 := 1;
       let gb : Fin 16 := 2;
       let f : Bool := true;
       let h : Hub := (ctxWith 95 [] [(1, 0x80000001), (2, 0xFFFFFFFF)]).withWord (.andn n gd ga gb f);
       let a : Word := h.gpr n ga;
       let b : Word := h.gpr n gb; (h.canIssue n = true) ∧ (h.inCode n ((h.ctx n).pc + 1) = true) ∧ (a = h.gpr n ga)
       ∧ (b = h.gpr n gb) ∧ (h.spells n (.andn n gd ga gb f)))
    ∧ (let n : Fin 96 := 95;
       let gd : Fin 16 := 3;
       let ga : Fin 16 := 1;
       let gb : Fin 16 := 2;
       let f : Bool := true;
       let h : Hub := (ctxWith 95 [] [(1, 0x80000001), (2, 0xFFFFFFFF)]).withWord (.shl n gd ga gb f);
       let a : Word := h.gpr n ga;
       let b : Word := h.gpr n gb; (h.canIssue n = true) ∧ (h.inCode n ((h.ctx n).pc + 1) = true) ∧ (a = h.gpr n ga)
       ∧ (b = h.gpr n gb) ∧ (h.spells n (.shl n gd ga gb f)))
    ∧ (let n : Fin 96 := 95;
       let gd : Fin 16 := 3;
       let ga : Fin 16 := 1;
       let gb : Fin 16 := 2;
       let f : Bool := true;
       let h : Hub := (ctxWith 95 [] [(1, 0x80000001), (2, 0xFFFFFFFF)]).withWord (.shr n gd ga gb f);
       let a : Word := h.gpr n ga;
       let b : Word := h.gpr n gb; (h.canIssue n = true) ∧ (h.inCode n ((h.ctx n).pc + 1) = true) ∧ (a = h.gpr n ga)
       ∧ (b = h.gpr n gb) ∧ (h.spells n (.shr n gd ga gb f)))
    ∧ (let n : Fin 96 := 95;
       let gd : Fin 16 := 3;
       let ga : Fin 16 := 1;
       let gb : Fin 16 := 2;
       let f : Bool := true;
       let h : Hub := (ctxWith 95 [] [(1, 0x80000001), (2, 0xFFFFFFFF)]).withWord (.sar n gd ga gb f);
       let a : Word := h.gpr n ga;
       let b : Word := h.gpr n gb; (h.canIssue n = true) ∧ (h.inCode n ((h.ctx n).pc + 1) = true) ∧ (a = h.gpr n ga)
       ∧ (b = h.gpr n gb) ∧ (h.spells n (.sar n gd ga gb f)))
    ∧ (let n : Fin 96 := 95;
       let gd : Fin 16 := 3;
       let ga : Fin 16 := 1;
       let gb : Fin 16 := 2;
       let f : Bool := true;
       let h : Hub := (ctxWith 95 [] [(1, 0x80000001), (2, 0xFFFFFFFF)]).withWord (.ror n gd ga gb f);
       let a : Word := h.gpr n ga;
       let b : Word := h.gpr n gb; (h.canIssue n = true) ∧ (h.inCode n ((h.ctx n).pc + 1) = true) ∧ (a = h.gpr n ga)
       ∧ (b = h.gpr n gb) ∧ (h.spells n (.ror n gd ga gb f)))
    ∧ (let n : Fin 96 := 95;
       let gd : Fin 16 := 3;
       let ga : Fin 16 := 1;
       let gb : Fin 16 := 2;
       let f : Bool := true;
       let h : Hub := (ctxWith 95 [] [(1, 0x80000001), (2, 0xFFFFFFFF)]).withWord (.mul n gd ga gb f);
       let a : Word := h.gpr n ga;
       let b : Word := h.gpr n gb; (h.canIssue n = true) ∧ (h.inCode n ((h.ctx n).pc + 1) = true) ∧ (a = h.gpr n ga)
       ∧ (b = h.gpr n gb) ∧ (h.spells n (.mul n gd ga gb f)))
    ∧ (let n : Fin 96 := 95;
       let gd : Fin 16 := 3;
       let ga : Fin 16 := 1;
       let gb : Fin 16 := 2;
       let f : Bool := true;
       let h : Hub := (ctxWith 95 [] [(1, 0x80000001), (2, 0xFFFFFFFF)]).withWord (.mulhu n gd ga gb f);
       let a : Word := h.gpr n ga;
       let b : Word := h.gpr n gb; (h.canIssue n = true) ∧ (h.inCode n ((h.ctx n).pc + 1) = true) ∧ (a = h.gpr n ga)
       ∧ (b = h.gpr n gb) ∧ (h.spells n (.mulhu n gd ga gb f)))
    ∧ (let n : Fin 96 := 95;
       let gd : Fin 16 := 3;
       let ga : Fin 16 := 1;
       let gb : Fin 16 := 2;
       let f : Bool := true;
       let h : Hub := (ctxWith 95 [] [(1, 0x80000001), (2, 0xFFFFFFFF)]).withWord (.mulhs n gd ga gb f);
       let a : Word := h.gpr n ga;
       let b : Word := h.gpr n gb; (h.canIssue n = true) ∧ (h.inCode n ((h.ctx n).pc + 1) = true) ∧ (a = h.gpr n ga)
       ∧ (b = h.gpr n gb) ∧ (h.spells n (.mulhs n gd ga gb f)))
    ∧ (let n : Fin 96 := 95;
       let gd : Fin 16 := 3;
       let ga : Fin 16 := 1;
       let gb : Fin 16 := 2;
       let f : Bool := true;
       let h : Hub := (ctxWith 95 [] [(1, 0x80000001), (2, 0xFFFFFFFF)]).withWord (.minu n gd ga gb f);
       let a : Word := h.gpr n ga;
       let b : Word := h.gpr n gb; (h.canIssue n = true) ∧ (h.inCode n ((h.ctx n).pc + 1) = true) ∧ (a = h.gpr n ga)
       ∧ (b = h.gpr n gb) ∧ (h.spells n (.minu n gd ga gb f)))
    ∧ (let n : Fin 96 := 95;
       let gd : Fin 16 := 3;
       let ga : Fin 16 := 1;
       let gb : Fin 16 := 2;
       let f : Bool := true;
       let h : Hub := (ctxWith 95 [] [(1, 0x80000001), (2, 0xFFFFFFFF)]).withWord (.maxu n gd ga gb f);
       let a : Word := h.gpr n ga;
       let b : Word := h.gpr n gb; (h.canIssue n = true) ∧ (h.inCode n ((h.ctx n).pc + 1) = true) ∧ (a = h.gpr n ga)
       ∧ (b = h.gpr n gb) ∧ (h.spells n (.maxu n gd ga gb f)))
    ∧ (let n : Fin 96 := 95;
       let gd : Fin 16 := 3;
       let ga : Fin 16 := 1;
       let gb : Fin 16 := 2;
       let f : Bool := true;
       let h : Hub := (ctxWith 95 [] [(1, 0x80000001), (2, 0xFFFFFFFF)]).withWord (.mins n gd ga gb f);
       let a : Word := h.gpr n ga;
       let b : Word := h.gpr n gb; (h.canIssue n = true) ∧ (h.inCode n ((h.ctx n).pc + 1) = true) ∧ (a = h.gpr n ga)
       ∧ (b = h.gpr n gb) ∧ (h.spells n (.mins n gd ga gb f)))
    ∧ (let n : Fin 96 := 95;
       let gd : Fin 16 := 3;
       let ga : Fin 16 := 1;
       let gb : Fin 16 := 2;
       let f : Bool := true;
       let h : Hub := (ctxWith 95 [] [(1, 0x80000001), (2, 0xFFFFFFFF)]).withWord (.maxs n gd ga gb f);
       let a : Word := h.gpr n ga;
       let b : Word := h.gpr n gb; (h.canIssue n = true) ∧ (h.inCode n ((h.ctx n).pc + 1) = true) ∧ (a = h.gpr n ga)
       ∧ (b = h.gpr n gb) ∧ (h.spells n (.maxs n gd ga gb f)))
    ∧ (let n : Fin 96 := 95;
       let gd : Fin 16 := 3;
       let ga : Fin 16 := 1;
       let gb : Fin 16 := 2;
       let f : Bool := true;
       let h : Hub := (ctxWith 95 [] [(1, 0x80000001), (2, 0xFFFFFFFF)]).withWord (.clz n gd ga f);
       let a : Word := h.gpr n ga;
       let b : Word := h.gpr n gb; (h.canIssue n = true) ∧ (h.inCode n ((h.ctx n).pc + 1) = true) ∧ (a = h.gpr n ga)
       ∧ (b = h.gpr n gb) ∧ (h.spells n (.clz n gd ga f)))
    ∧ (let n : Fin 96 := 95;
       let gd : Fin 16 := 3;
       let ga : Fin 16 := 1;
       let gb : Fin 16 := 2;
       let f : Bool := true;
       let h : Hub := (ctxWith 95 [] [(1, 0x80000001), (2, 0xFFFFFFFF)]).withWord (.popc n gd ga f);
       let a : Word := h.gpr n ga;
       let b : Word := h.gpr n gb; (h.canIssue n = true) ∧ (h.inCode n ((h.ctx n).pc + 1) = true) ∧ (a = h.gpr n ga)
       ∧ (b = h.gpr n gb) ∧ (h.spells n (.popc n gd ga f)))
    ∧ (let n : Fin 96 := 95;
       let gd : Fin 16 := 3;
       let ga : Fin 16 := 1;
       let gb : Fin 16 := 2;
       let f : Bool := true;
       let h : Hub := (ctxWith 95 [] [(1, 0x80000001), (2, 0xFFFFFFFF)]).withWord (.bswap n gd ga f);
       let a : Word := h.gpr n ga;
       let b : Word := h.gpr n gb; (h.canIssue n = true) ∧ (h.inCode n ((h.ctx n).pc + 1) = true) ∧ (a = h.gpr n ga)
       ∧ (b = h.gpr n gb) ∧ (h.spells n (.bswap n gd ga f))) :=
  by and_intros <;> decide

/-- States and operands that meet the hypotheses of `Obligations.ImmediateAndCompareInstructions`. -/
theorem test_witness_ImmediateAndCompareInstructions :
    (let n : Fin 96 := 95;
     let gd : Fin 16 := 3;
     let ga : Fin 16 := 1;
     let gb : Fin 16 := 2;
     let imm : BitVec 18 := 0x3FFFF;
     let k : Fin 32 := 31;
     let h : Hub := (ctxWith 95 [] [(1, 0x80000001), (2, 0xFFFFFFFF)]).withWord (.addi n gd ga imm);
     let a : Word := h.gpr n ga;
     let b : Word := h.gpr n gb; (h.canIssue n = true) ∧ (h.inCode n ((h.ctx n).pc + 1) = true) ∧ (a = h.gpr n ga)
     ∧ (b = h.gpr n gb) ∧ (h.spells n (.addi n gd ga imm)))
    ∧ (let n : Fin 96 := 95;
       let gd : Fin 16 := 3;
       let ga : Fin 16 := 1;
       let gb : Fin 16 := 2;
       let imm : BitVec 18 := 0x3FFFF;
       let k : Fin 32 := 31;
       let h : Hub := (ctxWith 95 [] [(1, 0x80000001), (2, 0xFFFFFFFF)]).withWord (.andi n gd ga imm);
       let a : Word := h.gpr n ga;
       let b : Word := h.gpr n gb; (h.canIssue n = true) ∧ (h.inCode n ((h.ctx n).pc + 1) = true) ∧ (a = h.gpr n ga)
       ∧ (b = h.gpr n gb) ∧ (h.spells n (.andi n gd ga imm)))
    ∧ (let n : Fin 96 := 95;
       let gd : Fin 16 := 3;
       let ga : Fin 16 := 1;
       let gb : Fin 16 := 2;
       let imm : BitVec 18 := 0x3FFFF;
       let k : Fin 32 := 31;
       let h : Hub := (ctxWith 95 [] [(1, 0x80000001), (2, 0xFFFFFFFF)]).withWord (.ori n gd ga imm);
       let a : Word := h.gpr n ga;
       let b : Word := h.gpr n gb; (h.canIssue n = true) ∧ (h.inCode n ((h.ctx n).pc + 1) = true) ∧ (a = h.gpr n ga)
       ∧ (b = h.gpr n gb) ∧ (h.spells n (.ori n gd ga imm)))
    ∧ (let n : Fin 96 := 95;
       let gd : Fin 16 := 3;
       let ga : Fin 16 := 1;
       let gb : Fin 16 := 2;
       let imm : BitVec 18 := 0x3FFFF;
       let k : Fin 32 := 31;
       let h : Hub := (ctxWith 95 [] [(1, 0x80000001), (2, 0xFFFFFFFF)]).withWord (.xori n gd ga imm);
       let a : Word := h.gpr n ga;
       let b : Word := h.gpr n gb; (h.canIssue n = true) ∧ (h.inCode n ((h.ctx n).pc + 1) = true) ∧ (a = h.gpr n ga)
       ∧ (b = h.gpr n gb) ∧ (h.spells n (.xori n gd ga imm)))
    ∧ (let n : Fin 96 := 95;
       let gd : Fin 16 := 3;
       let ga : Fin 16 := 1;
       let gb : Fin 16 := 2;
       let imm : BitVec 18 := 0x3FFFF;
       let k : Fin 32 := 31;
       let h : Hub := (ctxWith 95 [] [(1, 0x80000001), (2, 0xFFFFFFFF)]).withWord (.movhi n gd imm);
       let a : Word := h.gpr n ga;
       let b : Word := h.gpr n gb; (h.canIssue n = true) ∧ (h.inCode n ((h.ctx n).pc + 1) = true) ∧ (a = h.gpr n ga)
       ∧ (b = h.gpr n gb) ∧ (h.spells n (.movhi n gd imm)))
    ∧ (let n : Fin 96 := 95;
       let gd : Fin 16 := 3;
       let ga : Fin 16 := 1;
       let gb : Fin 16 := 2;
       let imm : BitVec 18 := 0x3FFFF;
       let k : Fin 32 := 31;
       let h : Hub := (ctxWith 95 [] [(1, 0x80000001), (2, 0xFFFFFFFF)]).withWord (.shli n gd ga k);
       let a : Word := h.gpr n ga;
       let b : Word := h.gpr n gb; (h.canIssue n = true) ∧ (h.inCode n ((h.ctx n).pc + 1) = true) ∧ (a = h.gpr n ga)
       ∧ (b = h.gpr n gb) ∧ (h.spells n (.shli n gd ga k)))
    ∧ (let n : Fin 96 := 95;
       let gd : Fin 16 := 3;
       let ga : Fin 16 := 1;
       let gb : Fin 16 := 2;
       let imm : BitVec 18 := 0x3FFFF;
       let k : Fin 32 := 31;
       let h : Hub := (ctxWith 95 [] [(1, 0x80000001), (2, 0xFFFFFFFF)]).withWord (.shri n gd ga k);
       let a : Word := h.gpr n ga;
       let b : Word := h.gpr n gb; (h.canIssue n = true) ∧ (h.inCode n ((h.ctx n).pc + 1) = true) ∧ (a = h.gpr n ga)
       ∧ (b = h.gpr n gb) ∧ (h.spells n (.shri n gd ga k)))
    ∧ (let n : Fin 96 := 95;
       let gd : Fin 16 := 3;
       let ga : Fin 16 := 1;
       let gb : Fin 16 := 2;
       let imm : BitVec 18 := 0x3FFFF;
       let k : Fin 32 := 31;
       let h : Hub := (ctxWith 95 [] [(1, 0x80000001), (2, 0xFFFFFFFF)]).withWord (.sari n gd ga k);
       let a : Word := h.gpr n ga;
       let b : Word := h.gpr n gb; (h.canIssue n = true) ∧ (h.inCode n ((h.ctx n).pc + 1) = true) ∧ (a = h.gpr n ga)
       ∧ (b = h.gpr n gb) ∧ (h.spells n (.sari n gd ga k)))
    ∧ (let n : Fin 96 := 95;
       let gd : Fin 16 := 3;
       let ga : Fin 16 := 1;
       let gb : Fin 16 := 2;
       let imm : BitVec 18 := 0x3FFFF;
       let k : Fin 32 := 31;
       let h : Hub := (ctxWith 95 [] [(1, 0x80000001), (2, 0xFFFFFFFF)]).withWord (.rori n gd ga k);
       let a : Word := h.gpr n ga;
       let b : Word := h.gpr n gb; (h.canIssue n = true) ∧ (h.inCode n ((h.ctx n).pc + 1) = true) ∧ (a = h.gpr n ga)
       ∧ (b = h.gpr n gb) ∧ (h.spells n (.rori n gd ga k)))
    ∧ (let n : Fin 96 := 95;
       let gd : Fin 16 := 3;
       let ga : Fin 16 := 1;
       let gb : Fin 16 := 2;
       let imm : BitVec 18 := 0x3FFFF;
       let k : Fin 32 := 31;
       let h : Hub := (ctxWith 95 [] [(1, 0x80000001), (2, 0xFFFFFFFF)]).withWord (.cmp n ga gb);
       let a : Word := h.gpr n ga;
       let b : Word := h.gpr n gb; (h.canIssue n = true) ∧ (h.inCode n ((h.ctx n).pc + 1) = true) ∧ (a = h.gpr n ga)
       ∧ (b = h.gpr n gb) ∧ (h.spells n (.cmp n ga gb)))
    ∧ (let n : Fin 96 := 95;
       let gd : Fin 16 := 3;
       let ga : Fin 16 := 1;
       let gb : Fin 16 := 2;
       let imm : BitVec 18 := 0x3FFFF;
       let k : Fin 32 := 31;
       let h : Hub := (ctxWith 95 [] [(1, 0x80000001), (2, 0xFFFFFFFF)]).withWord (.cmpi n ga imm);
       let a : Word := h.gpr n ga;
       let b : Word := h.gpr n gb; (h.canIssue n = true) ∧ (h.inCode n ((h.ctx n).pc + 1) = true) ∧ (a = h.gpr n ga)
       ∧ (b = h.gpr n gb) ∧ (h.spells n (.cmpi n ga imm)))
    ∧ (let n : Fin 96 := 95;
       let gd : Fin 16 := 3;
       let ga : Fin 16 := 1;
       let gb : Fin 16 := 2;
       let imm : BitVec 18 := 0x3FFFF;
       let k : Fin 32 := 31;
       let h : Hub := (ctxWith 95 [] [(1, 0x80000001), (2, 0xFFFFFFFF)]).withWord (.tst n ga gb);
       let a : Word := h.gpr n ga;
       let b : Word := h.gpr n gb; (h.canIssue n = true) ∧ (h.inCode n ((h.ctx n).pc + 1) = true) ∧ (a = h.gpr n ga)
       ∧ (b = h.gpr n gb) ∧ (h.spells n (.tst n ga gb)))
    ∧ (let n : Fin 96 := 95;
       let gd : Fin 16 := 3;
       let ga : Fin 16 := 1;
       let gb : Fin 16 := 2;
       let imm : BitVec 18 := 0x3FFFF;
       let k : Fin 32 := 31;
       let h : Hub := (ctxWith 95 [] [(1, 0x80000001), (2, 0xFFFFFFFF)]).withWord (.tsti n ga imm);
       let a : Word := h.gpr n ga;
       let b : Word := h.gpr n gb; (h.canIssue n = true) ∧ (h.inCode n ((h.ctx n).pc + 1) = true) ∧ (a = h.gpr n ga)
       ∧ (b = h.gpr n gb) ∧ (h.spells n (.tsti n ga imm)))
    ∧ (let n : Fin 96 := 95;
       let gd : Fin 16 := 3;
       let ga : Fin 16 := 1;
       let gb : Fin 16 := 2;
       let imm : BitVec 18 := 0x3FFFF;
       let k : Fin 32 := 31;
       let x : Word := 0x80000000;
       let y : Word := 1;
       let h : Hub := ctxWith 95 [] [(1, 0x80000001), (2, 0xFFFFFFFF)];
       let a : Word := h.gpr n ga;
       let b : Word := h.gpr n gb; (h.canIssue n = true) ∧ (h.inCode n ((h.ctx n).pc + 1) = true) ∧ (a = h.gpr n ga)
       ∧ (b = h.gpr n gb)) :=
  by and_intros <;> decide

/-- States and operands that meet the hypotheses of `Obligations.SystemInstructions`. -/
theorem test_witness_SystemInstructions :
    (let n : Fin 96 := 95;
     let gd : Fin 16 := 3;
     let ga : Fin 16 := 1;
     let a : Word := 0x80000005;
     let h : Hub := (ctxWith 95 [] [(1, 0x80000005)]).withWord (.nop n); (h.canIssue n = true)
     ∧ (h.inCode n ((h.ctx n).pc + 1) = true) ∧ (a = h.gpr n ga) ∧ (h.spells n (.nop n)))
    ∧ (let n : Fin 96 := 95;
       let gd : Fin 16 := 3;
       let ga : Fin 16 := 1;
       let a : Word := 0x80000005;
       let h : Hub := (ctxWith 95 [] [(1, 0x80000005)]).withWord (.fence n); (h.canIssue n = true)
       ∧ (h.inCode n ((h.ctx n).pc + 1) = true) ∧ (a = h.gpr n ga) ∧ (h.spells n (.fence n)))
    ∧ (let n : Fin 96 := 95;
       let gd : Fin 16 := 3;
       let ga : Fin 16 := 1;
       let a : Word := 0x80000005;
       let h : Hub := (ctxWith 95 [] [(1, 0x80000005)]).withWord (.yield n); (h.canIssue n = true)
       ∧ (h.inCode n ((h.ctx n).pc + 1) = true) ∧ (a = h.gpr n ga) ∧ (h.spells n (.yield n)))
    ∧ (let n : Fin 96 := 95;
       let gd : Fin 16 := 3;
       let ga : Fin 16 := 1;
       let a : Word := 0x80000005;
       let h : Hub := (ctxWith 95 [] [(1, 0x80000005)]).withWord (.halt n); (h.canIssue n = true)
       ∧ (h.inCode n ((h.ctx n).pc + 1) = true) ∧ (a = h.gpr n ga) ∧ (h.spells n (.halt n)))
    ∧ (let n : Fin 96 := 95;
       let gd : Fin 16 := 3;
       let ga : Fin 16 := 1;
       let a : Word := 0x80000005;
       let code : BitVec 12 := 0xFFF;
       let h : Hub := (ctxWith 95 [] [(1, 0x80000005)]).withWord (.trap n code); (h.canIssue n = true)
       ∧ (h.inCode n ((h.ctx n).pc + 1) = true) ∧ (a = h.gpr n ga) ∧ (h.spells n (.trap n code)))
    ∧ (let n : Fin 96 := 95;
       let gd : Fin 16 := 3;
       let ga : Fin 16 := 1;
       let a : Word := 0x80000005;
       let w : Word := BitVec.ofNat 32 0xFFFFFFFF;
       let h : Hub := (ctxWith 95 [] [(1, 0x80000005)]).mstore 0x13800C (wordBytes w); (h.canIssue n = true)
       ∧ (h.inCode n ((h.ctx n).pc + 1) = true) ∧ (a = h.gpr n ga) ∧ (h.fetched n = some w) ∧ (spelled n w = none))
    ∧ (let n : Fin 96 := 95;
       let gd : Fin 16 := 3;
       let ga : Fin 16 := 1;
       let a : Word := 0x80000005;
       let csr : BitVec 12 := 9;
       let v : Word := 1;
       let h : Hub := (ctxWith 95 [] [(1, 0x80000005)]).withWord (.csrr n gd csr); (h.canIssue n = true)
       ∧ (h.inCode n ((h.ctx n).pc + 1) = true) ∧ (a = h.gpr n ga) ∧ (h.csr n csr.toNat = some v)
       ∧ (h.spells n (.csrr n gd csr)))
    ∧ (let n : Fin 96 := 95;
       let gd : Fin 16 := 3;
       let ga : Fin 16 := 1;
       let a : Word := 0x80000005;
       let h : Hub := (ctxWith 95 [] [(1, 0x80000005)]).withWord (.csrw n 0 ga); (h.canIssue n = true)
       ∧ (h.inCode n ((h.ctx n).pc + 1) = true) ∧ (a = h.gpr n ga) ∧ (h.spells n (.csrw n 0 ga)))
    ∧ (let n : Fin 96 := 95;
       let gd : Fin 16 := 3;
       let ga : Fin 16 := 1;
       let a : Word := 0x80000005;
       let h : Hub := ctxWith 95 [] [(1, 0x80000005)]; (h.canIssue n = true) ∧ (h.inCode n ((h.ctx n).pc + 1) = true)
       ∧ (a = h.gpr n ga)) :=
  by and_intros <;> decide

/-- States and operands that meet the hypotheses of `Obligations.UnlistedCsrIsIllegal`. -/
theorem test_witness_UnlistedCsrIsIllegal :
    (let n : Fin 96 := 95;
     let g : Fin 16 := 3;
     let csr : BitVec 12 := 10;
     let h : Hub := (ctxWith 95 [] []).withWord (.csrr 95 g csr); (h.canIssue n = true) ∧ (9 < csr.toNat)
     ∧ (h.fetched n = some (wordI 0 g 0 (0x5000 + csr.toNat))))
    ∧ (let n : Fin 96 := 95;
       let g : Fin 16 := 3;
       let csr : BitVec 12 := 9;
       let h : Hub := ctxWith 95 [] []; (h.canIssue n = true) ∧ (csr.toNat ≤ 9))
    ∧ (let n : Fin 96 := 95;
       let g : Fin 16 := 3;
       let csr : BitVec 12 := 1;
       let h : Hub := (ctxWith 95 [] []).withWord (.csrw 95 csr g); (h.canIssue n = true) ∧ (csr.toNat ≠ 0)
       ∧ (h.fetched n = some (wordI 0 0 g (0x6000 + csr.toNat)))) :=
  by and_intros <;> decide

/-- States and operands that meet the hypotheses of `Obligations.BranchInstructions`. -/
theorem test_witness_BranchInstructions :
    (let n : Fin 96 := 95;
     let cc : BitVec 4 := 0;
     let off : BitVec 22 := 0x3FFFFF;
     let ga : Fin 16 := 15;
     let link : Bool := true;
     let t : Nat := 2;
     let h : Hub := (ctxWith 95 [] [(15, 2)]).withWord (.b n cc off); (h.canIssue n = true)
     ∧ ((h.ctx n).flags.cond cc.toNat = true) ∧ (t = (BitVec.ofNat 32 (h.ctx n).pc + off.signExtend 32).toNat)
     ∧ (h.inCode n t = true) ∧ (h.spells n (.b n cc off)))
    ∧ (let n : Fin 96 := 95;
       let cc : BitVec 4 := 0;
       let off : BitVec 22 := 0x3FFFFF;
       let ga : Fin 16 := 15;
       let link : Bool := true;
       let t : Nat := 2;
       let h : Hub := (ctxWith 95 [] [(15, 2)]).withWord (.call n cc off); (h.canIssue n = true)
       ∧ ((h.ctx n).flags.cond cc.toNat = true) ∧ (t = (BitVec.ofNat 32 (h.ctx n).pc + off.signExtend 32).toNat)
       ∧ (h.inCode n t = true) ∧ (h.spells n (.call n cc off)))
    ∧ (let n : Fin 96 := 95;
       let cc : BitVec 4 := 0;
       let off : BitVec 22 := 0x3FFFFF;
       let ga : Fin 16 := 15;
       let link : Bool := true;
       let t : Nat := 2;
       let h : Hub := (ctxWith 95 [] [(15, 2)]).withWord (.jr n cc ga true); (h.canIssue n = true)
       ∧ ((h.ctx n).flags.cond cc.toNat = true) ∧ (t = (h.gpr n ga).toNat) ∧ (h.inCode n t = true)
       ∧ (h.spells n (.jr n cc ga true)))
    ∧ (let n : Fin 96 := 95;
       let cc : BitVec 4 := 0;
       let off : BitVec 22 := 0x3FFFFF;
       let ga : Fin 16 := 15;
       let link : Bool := true;
       let t : Nat := 2;
       let h : Hub := (ctxWith 95 [] [(15, 2)]).withWord (.jr n cc ga false); (h.canIssue n = true)
       ∧ ((h.ctx n).flags.cond cc.toNat = true) ∧ (t = (h.gpr n ga).toNat) ∧ (h.inCode n t = true)
       ∧ (h.spells n (.jr n cc ga false)))
    ∧ (let n : Fin 96 := 95;
       let cc : BitVec 4 := 1;
       let off : BitVec 22 := 0x3FFFFF;
       let ga : Fin 16 := 15;
       let link : Bool := true;
       let t : Nat := 2;
       let h : Hub := (ctxWith 95 [] [(15, 2)]).withWord (.b n cc off); (h.canIssue n = true) ∧ (cc ≠ 15)
       ∧ ((h.ctx n).flags.cond cc.toNat = false) ∧ (h.inCode n ((h.ctx n).pc + 1) = true) ∧ (h.spells n (.b n cc off)))
    ∧ (let n : Fin 96 := 95;
       let cc : BitVec 4 := 1;
       let off : BitVec 22 := 0x3FFFFF;
       let ga : Fin 16 := 15;
       let link : Bool := true;
       let t : Nat := 2;
       let h : Hub := (ctxWith 95 [] [(15, 2)]).withWord (.call n cc off); (h.canIssue n = true) ∧ (cc ≠ 15)
       ∧ ((h.ctx n).flags.cond cc.toNat = false) ∧ (h.inCode n ((h.ctx n).pc + 1) = true) ∧ (h.spells n (.call n cc off)))
    ∧ (let n : Fin 96 := 95;
       let cc : BitVec 4 := 1;
       let off : BitVec 22 := 0x3FFFFF;
       let ga : Fin 16 := 15;
       let link : Bool := true;
       let t : Nat := 2;
       let h : Hub := (ctxWith 95 [] [(15, 2)]).withWord (.jr n cc ga link); (h.canIssue n = true) ∧ (cc ≠ 15)
       ∧ ((h.ctx n).flags.cond cc.toNat = false) ∧ (h.inCode n ((h.ctx n).pc + 1) = true)
       ∧ (h.spells n (.jr n cc ga link)))
    ∧ (let n : Fin 96 := 95;
       let cc : BitVec 4 := 0;
       let off : BitVec 22 := 0x3FFFFF;
       let ga : Fin 16 := 15;
       let link : Bool := true;
       let t : Nat := 2;
       let h : Hub := (ctxWith 95 [] []).withWord (.b 95 15 off); (h.canIssue n = true)
       ∧ (h.fetched n = some (wordB 0x10 15 off)))
    ∧ (let n : Fin 96 := 95;
       let cc : BitVec 4 := 0;
       let off : BitVec 22 := 0x3FFFFF;
       let ga : Fin 16 := 15;
       let link : Bool := true;
       let t : Nat := 2;
       let h : Hub := (ctxWith 95 [] []).withWord (.call 95 15 off); (h.canIssue n = true)
       ∧ (h.fetched n = some (wordB 0x11 15 off)))
    ∧ (let n : Fin 96 := 95;
       let cc : BitVec 4 := 0;
       let off : BitVec 22 := 0x3FFFFF;
       let ga : Fin 16 := 15;
       let link : Bool := true;
       let t : Nat := 2;
       let v : Word := ((Instr.word? (.jr 95 15 ga link)).map Prod.snd).getD 0;
       let h : Hub := (ctxWith 95 [] []).withWord (.jr 95 15 ga link); (h.canIssue n = true)
       ∧ (Instr.word? (.jr n 15 ga link) = some (n, v)) ∧ (h.fetched n = some v))
    ∧ (let n : Fin 96 := 95;
       let cc : BitVec 4 := 0;
       let off : BitVec 22 := 5;
       let ga : Fin 16 := 14;
       let link : Bool := true;
       let t : Nat := 8;
       let h : Hub := (ctxWith 95 [] [(14, 8)]).withWord (.call n cc off); (h.canIssue n = true)
       ∧ ((h.ctx n).flags.cond cc.toNat = true) ∧ (t = (BitVec.ofNat 32 (h.ctx n).pc + off.signExtend 32).toNat)
       ∧ (h.inCode n t = false) ∧ (h.spells n (.call n cc off)))
    ∧ (let n : Fin 96 := 95;
       let cc : BitVec 4 := 0;
       let off : BitVec 22 := 5;
       let ga : Fin 16 := 14;
       let link : Bool := true;
       let t : Nat := 8;
       let h : Hub := (ctxWith 95 [] [(14, 8)]).withWord (.jr n cc ga link); (h.canIssue n = true)
       ∧ ((h.ctx n).flags.cond cc.toNat = true) ∧ (t = (h.gpr n ga).toNat) ∧ (h.inCode n t = false)
       ∧ (h.spells n (.jr n cc ga link)))
    ∧ (let n : Fin 96 := 95;
       let cc : BitVec 4 := 0;
       let off : BitVec 22 := 0x3FFFFF;
       let ga : Fin 16 := 15;
       let link : Bool := true;
       let t : Nat := 2;
       let h : Hub := (ctxWith 95 [(R.TUNC_CTX_CODE_SIZE 95, 4)] []).withWord (.nop n); (h.canIssue n = true)
       ∧ ((h.ctx n).flags.cond cc.toNat = true) ∧ (h.inCode n ((h.ctx n).pc + 1) = false) ∧ (h.spells n (.nop n))) :=
  by and_intros <;> decide

/-- States and operands that meet the hypotheses of `Obligations.LoadAndStoreInstructions`. -/
theorem test_witness_LoadAndStoreInstructions :
    (let n : Fin 96 := 95;
     let gd : Fin 16 := 3;
     let ga : Fin 16 := 1;
     let imm : BitVec 18 := 0x3FFFC;
     let ea : Nat := 0x40;
     let a : Nat := 0x270040;
     let h : Hub := ((ctxWith 95 [] [(1, 0x44), (3, 0x8899AABB)]).mstore (0x270000 + 0x40) [1, 2, 3, 0xF4]).withWord (.ldw n gd ga imm);
     (h.canIssue n = true) ∧ (h.inCode n ((h.ctx n).pc + 1) = true) ∧ (ea = (h.gpr n ga + imm.signExtend 32).toNat)
     ∧ (a = dataBase (n / 12) + ea) ∧ (ea < 0x10000) ∧ (ea % 4 = 0) ∧ (h.inData n ea 4 = true) ∧ (h.badRange a 4 = false)
     ∧ (h.spells n (.ldw n gd ga imm)))
    ∧ (let n : Fin 96 := 95;
       let gd : Fin 16 := 3;
       let ga : Fin 16 := 1;
       let imm : BitVec 18 := 0x3FFFC;
       let ea : Nat := 0x40;
       let a : Nat := 0x270040;
       let h : Hub := ((ctxWith 95 [] [(1, 0x44), (3, 0x8899AABB)]).mstore (0x270000 + 0x40) [1, 2, 3, 0xF4]).withWord (.ldh n gd ga imm);
       (h.canIssue n = true) ∧ (h.inCode n ((h.ctx n).pc + 1) = true) ∧ (ea = (h.gpr n ga + imm.signExtend 32).toNat)
       ∧ (a = dataBase (n / 12) + ea) ∧ (ea < 0x10000) ∧ (ea % 2 = 0) ∧ (h.inData n ea 2 = true)
       ∧ (h.badRange a 2 = false) ∧ (h.spells n (.ldh n gd ga imm)))
    ∧ (let n : Fin 96 := 95;
       let gd : Fin 16 := 3;
       let ga : Fin 16 := 1;
       let imm : BitVec 18 := 0x3FFFC;
       let ea : Nat := 0x40;
       let a : Nat := 0x270040;
       let h : Hub := ((ctxWith 95 [] [(1, 0x44), (3, 0x8899AABB)]).mstore (0x270000 + 0x40) [1, 2, 3, 0xF4]).withWord (.ldb n gd ga imm);
       (h.canIssue n = true) ∧ (h.inCode n ((h.ctx n).pc + 1) = true) ∧ (ea = (h.gpr n ga + imm.signExtend 32).toNat)
       ∧ (a = dataBase (n / 12) + ea) ∧ (ea < 0x10000) ∧ (h.inData n ea 1 = true) ∧ (h.badRange a 1 = false)
       ∧ (h.spells n (.ldb n gd ga imm)))
    ∧ (let n : Fin 96 := 95;
       let gd : Fin 16 := 3;
       let ga : Fin 16 := 1;
       let imm : BitVec 18 := 0x3FFFC;
       let ea : Nat := 0x40;
       let a : Nat := 0x270040;
       let h : Hub := ({ (ctxWith 95 [] [(1, 0x44), (3, 0x8899AABB)]) with tun := { (ctxWith 95 [] [(1, 0x44), (3, 0x8899AABB)]).tun with bad := [0x270040 / 8] } }).withWord (.ldw n gd ga imm);
       (h.canIssue n = true) ∧ (h.inCode n ((h.ctx n).pc + 1) = true) ∧ (ea = (h.gpr n ga + imm.signExtend 32).toNat)
       ∧ (ea < 0x10000) ∧ (ea % 4 = 0) ∧ (h.inData n ea 4 = true) ∧ (h.badRange (dataBase (n / 12) + ea) 4 = true)
       ∧ (h.spells n (.ldw n gd ga imm)))
    ∧ (let n : Fin 96 := 95;
       let gd : Fin 16 := 3;
       let ga : Fin 16 := 1;
       let imm : BitVec 18 := 0x3FFFC;
       let ea : Nat := 0x40;
       let a : Nat := 0x270040;
       let h : Hub := ((ctxWith 95 [] [(1, 0x44), (3, 0x8899AABB)]).mstore (0x270000 + 0x40) [1, 2, 3, 0xF4]).withWord (.stw n gd ga imm);
       (h.canIssue n = true) ∧ (h.inCode n ((h.ctx n).pc + 1) = true) ∧ (ea = (h.gpr n ga + imm.signExtend 32).toNat)
       ∧ (a = dataBase (n / 12) + ea) ∧ (ea < 0x10000) ∧ (ea % 4 = 0) ∧ (h.inData n ea 4 = true)
       ∧ (h.rangeHeld a 4 = false) ∧ (h.spells n (.stw n gd ga imm)))
    ∧ (let n : Fin 96 := 95;
       let gd : Fin 16 := 3;
       let ga : Fin 16 := 1;
       let imm : BitVec 18 := 0x3FFFC;
       let ea : Nat := 0x40;
       let a : Nat := 0x270040;
       let h : Hub := ((ctxWith 95 [] [(1, 0x44), (3, 0x8899AABB)]).mstore (0x270000 + 0x40) [1, 2, 3, 0xF4]).withWord (.sth n gd ga imm);
       (h.canIssue n = true) ∧ (h.inCode n ((h.ctx n).pc + 1) = true) ∧ (ea = (h.gpr n ga + imm.signExtend 32).toNat)
       ∧ (a = dataBase (n / 12) + ea) ∧ (ea < 0x10000) ∧ (ea % 2 = 0) ∧ (h.inData n ea 2 = true)
       ∧ (h.rangeHeld a 2 = false) ∧ (h.spells n (.sth n gd ga imm)))
    ∧ (let n : Fin 96 := 95;
       let gd : Fin 16 := 3;
       let ga : Fin 16 := 1;
       let imm : BitVec 18 := 0x3FFFC;
       let ea : Nat := 0x40;
       let a : Nat := 0x270040;
       let h : Hub := ((ctxWith 95 [] [(1, 0x44), (3, 0x8899AABB)]).mstore (0x270000 + 0x40) [1, 2, 3, 0xF4]).withWord (.stb n gd ga imm);
       (h.canIssue n = true) ∧ (h.inCode n ((h.ctx n).pc + 1) = true) ∧ (ea = (h.gpr n ga + imm.signExtend 32).toNat)
       ∧ (a = dataBase (n / 12) + ea) ∧ (ea < 0x10000) ∧ (h.inData n ea 1 = true) ∧ (h.rangeHeld a 1 = false)
       ∧ (h.spells n (.stb n gd ga imm)))
    ∧ (let n : Fin 96 := 95;
       let gd : Fin 16 := 3;
       let ga : Fin 16 := 1;
       let imm : BitVec 18 := 0x3FFFC;
       let ea : Nat := 0x40;
       let a : Nat := 0x270040;
       let v : Nat := 0;
       let h : Hub := ({ (ctxWith 95 [] [(1, 0x44), (3, 0x8899AABB)]) with tun := { (ctxWith 95 [] [(1, 0x44), (3, 0x8899AABB)]).tun with moving := some 7 } }).withWord (.stw n gd ga imm);
       (h.canIssue n = true) ∧ (h.inCode n ((h.ctx n).pc + 1) = true) ∧ (ea = (h.gpr n ga + imm.signExtend 32).toNat)
       ∧ (a = dataBase (n / 12) + ea) ∧ (ea < 0x10000) ∧ (ea % 4 = 0) ∧ (h.inData n ea 4 = true)
       ∧ (h.rangeHeld a 4 = true) ∧ (h.spells n (.stw n gd ga imm)))
    ∧ (let n : Fin 96 := 95;
       let gd : Fin 16 := 3;
       let ga : Fin 16 := 1;
       let imm : BitVec 18 := 0;
       let ea : Nat := 0x100040;
       let a : Nat := 0x300040;
       let c : Bool := false;
       let r : Bool := false;
       let h : Hub := (ctxWith 95 [] [(1, 0x100040)]).withWord (.ldw n gd ga imm); (h.canIssue n = true)
       ∧ (h.inCode n ((h.ctx n).pc + 1) = true) ∧ (ea = (h.gpr n ga + imm.signExtend 32).toNat) ∧ (0x100000 ≤ ea)
       ∧ (ea < 0x180000) ∧ (ea % 4 = 0) ∧ (a = ea + 0x200000) ∧ (h.decide_ 2 .read a = .ok c r) ∧ (h.badRange a 4 = false)
       ∧ (h.spells n (.ldw n gd ga imm)))
    ∧ (let n : Fin 96 := 95;
       let gd : Fin 16 := 3;
       let ga : Fin 16 := 1;
       let imm : BitVec 18 := 0;
       let ea : Nat := 0x100040;
       let a : Nat := 0x300040;
       let c : Bool := false;
       let r : Bool := false;
       let h : Hub := (ctxWith 95 [] [(1, 0x100040)]).withWord (.ldh n gd ga imm); (h.canIssue n = true)
       ∧ (h.inCode n ((h.ctx n).pc + 1) = true) ∧ (ea = (h.gpr n ga + imm.signExtend 32).toNat) ∧ (0x100000 ≤ ea)
       ∧ (ea < 0x180000) ∧ (ea % 2 = 0) ∧ (a = ea + 0x200000) ∧ (h.decide_ 2 .read a = .ok c r) ∧ (h.badRange a 2 = false)
       ∧ (h.spells n (.ldh n gd ga imm)))
    ∧ (let n : Fin 96 := 95;
       let gd : Fin 16 := 3;
       let ga : Fin 16 := 1;
       let imm : BitVec 18 := 0;
       let ea : Nat := 0x100041;
       let a : Nat := 0x300041;
       let c : Bool := false;
       let r : Bool := false;
       let h : Hub := (ctxWith 95 [] [(1, 0x100041)]).withWord (.ldb n gd ga imm); (h.canIssue n = true)
       ∧ (h.inCode n ((h.ctx n).pc + 1) = true) ∧ (ea = (h.gpr n ga + imm.signExtend 32).toNat) ∧ (0x100000 ≤ ea)
       ∧ (ea < 0x180000) ∧ (a = ea + 0x200000) ∧ (h.decide_ 2 .read a = .ok c r) ∧ (h.badRange a 1 = false)
       ∧ (h.spells n (.ldb n gd ga imm)))
    ∧ (let n : Fin 96 := 95;
       let gd : Fin 16 := 3;
       let ga : Fin 16 := 1;
       let imm : BitVec 18 := 0;
       let ea : Nat := 0x100040;
       let a : Nat := 0x300040;
       let c : Bool := false;
       let r : Bool := false;
       let h : Hub := ({ (ctxWith 95 [] [(1, 0x100040)]) with tun := { (ctxWith 95 [] [(1, 0x100040)]).tun with bad := [0x300040 / 8] } }).withWord (.ldw n gd ga imm);
       (h.canIssue n = true) ∧ (h.inCode n ((h.ctx n).pc + 1) = true) ∧ (ea = (h.gpr n ga + imm.signExtend 32).toNat)
       ∧ (0x100000 ≤ ea) ∧ (ea < 0x180000) ∧ (ea % 4 = 0) ∧ (a = ea + 0x200000) ∧ (h.decide_ 2 .read a = .ok c r)
       ∧ (h.badRange a 4 = true) ∧ (h.spells n (.ldw n gd ga imm)))
    ∧ (let n : Fin 96 := 95;
       let gd : Fin 16 := 3;
       let ga : Fin 16 := 1;
       let imm : BitVec 18 := 0;
       let ea : Nat := 0x100040;
       let a : Nat := 0x300040;
       let c : Bool := false;
       let r : Bool := false;
       let h : Hub := (ctxWith 95 [] [(1, 0x100040)]).withWord (.stw n gd ga imm); (h.canIssue n = true)
       ∧ (h.inCode n ((h.ctx n).pc + 1) = true) ∧ (ea = (h.gpr n ga + imm.signExtend 32).toNat) ∧ (0x100000 ≤ ea)
       ∧ (ea < 0x180000) ∧ (ea % 4 = 0) ∧ (a = ea + 0x200000) ∧ (h.decide_ 2 .write a = .ok c r)
       ∧ (h.rangeHeld a 4 = false) ∧ (h.spells n (.stw n gd ga imm)))
    ∧ (let n : Fin 96 := 95;
       let gd : Fin 16 := 3;
       let ga : Fin 16 := 1;
       let imm : BitVec 18 := 0;
       let ea : Nat := 0x100042;
       let a : Nat := 0x300042;
       let c : Bool := false;
       let r : Bool := false;
       let h : Hub := (ctxWith 95 [] [(1, 0x100042)]).withWord (.sth n gd ga imm); (h.canIssue n = true)
       ∧ (h.inCode n ((h.ctx n).pc + 1) = true) ∧ (ea = (h.gpr n ga + imm.signExtend 32).toNat) ∧ (0x100000 ≤ ea)
       ∧ (ea < 0x180000) ∧ (ea % 2 = 0) ∧ (a = ea + 0x200000) ∧ (h.decide_ 2 .write a = .ok c r)
       ∧ (h.rangeHeld a 2 = false) ∧ (h.spells n (.sth n gd ga imm)))
    ∧ (let n : Fin 96 := 95;
       let gd : Fin 16 := 3;
       let ga : Fin 16 := 1;
       let imm : BitVec 18 := 0;
       let ea : Nat := 0x100043;
       let a : Nat := 0x300043;
       let c : Bool := false;
       let r : Bool := false;
       let h : Hub := (ctxWith 95 [] [(1, 0x100043)]).withWord (.stb n gd ga imm); (h.canIssue n = true)
       ∧ (h.inCode n ((h.ctx n).pc + 1) = true) ∧ (ea = (h.gpr n ga + imm.signExtend 32).toNat) ∧ (0x100000 ≤ ea)
       ∧ (ea < 0x180000) ∧ (a = ea + 0x200000) ∧ (h.decide_ 2 .write a = .ok c r) ∧ (h.rangeHeld a 1 = false)
       ∧ (h.spells n (.stb n gd ga imm)))
    ∧ (let n : Fin 96 := 95;
       let gd : Fin 16 := 3;
       let ga : Fin 16 := 1;
       let imm : BitVec 18 := 0;
       let ea : Nat := 0x100040;
       let a : Nat := 0x300040;
       let c : Bool := false;
       let r : Bool := false;
       let h : Hub := ({ (ctxWith 95 [] [(1, 0x100040)]) with tun := { (ctxWith 95 [] [(1, 0x100040)]).tun with pitch := some ⟨94, true, 0x300000, 0, 0, 4, 0, 64, 0, 0, false, false, none⟩ } }).withWord (.stw n gd ga imm);
       (h.canIssue n = true) ∧ (h.inCode n ((h.ctx n).pc + 1) = true) ∧ (ea = (h.gpr n ga + imm.signExtend 32).toNat)
       ∧ (0x100000 ≤ ea) ∧ (ea < 0x180000) ∧ (ea % 4 = 0) ∧ (a = ea + 0x200000) ∧ (h.decide_ 2 .write a = .ok c r)
       ∧ (h.rangeHeld a 4 = true) ∧ (h.spells n (.stw n gd ga imm)))
    ∧ (let n : Fin 96 := 95;
       let gd : Fin 16 := 3;
       let ga : Fin 16 := 1;
       let imm : BitVec 18 := 0;
       let ea : Nat := 0x140040;
       let a : Nat := 0x340040;
       let info : Nat := 34;
       let h : Hub := (ctxWith 95 [(R.ACC_REG_PERM_VALID 2, 0)] [(1, 0x140040)]).withWord (.ldw n gd ga imm);
       (h.canIssue n = true) ∧ (h.inCode n ((h.ctx n).pc + 1) = true) ∧ (ea = (h.gpr n ga + imm.signExtend 32).toNat)
       ∧ (0x100000 ≤ ea) ∧ (ea < 0x180000) ∧ (ea % 4 = 0) ∧ (a = ea + 0x200000) ∧ (h.decide_ 2 .read a = .refused info)
       ∧ (h.spells n (.ldw n gd ga imm)))
    ∧ (let n : Fin 96 := 95;
       let gd : Fin 16 := 3;
       let ga : Fin 16 := 1;
       let imm : BitVec 18 := 0;
       let ea : Nat := 0x140040;
       let a : Nat := 0x340040;
       let info : Nat := 34;
       let h : Hub := (ctxWith 95 [(R.ACC_REG_PERM_VALID 2, 0)] [(1, 0x140040)]).withWord (.ldh n gd ga imm);
       (h.canIssue n = true) ∧ (h.inCode n ((h.ctx n).pc + 1) = true) ∧ (ea = (h.gpr n ga + imm.signExtend 32).toNat)
       ∧ (0x100000 ≤ ea) ∧ (ea < 0x180000) ∧ (ea % 4 = 0) ∧ (a = ea + 0x200000) ∧ (h.decide_ 2 .read a = .refused info)
       ∧ (h.spells n (.ldh n gd ga imm)))
    ∧ (let n : Fin 96 := 95;
       let gd : Fin 16 := 3;
       let ga : Fin 16 := 1;
       let imm : BitVec 18 := 0;
       let ea : Nat := 0x140040;
       let a : Nat := 0x340040;
       let info : Nat := 34;
       let h : Hub := (ctxWith 95 [(R.ACC_REG_PERM_VALID 2, 0)] [(1, 0x140040)]).withWord (.ldb n gd ga imm);
       (h.canIssue n = true) ∧ (h.inCode n ((h.ctx n).pc + 1) = true) ∧ (ea = (h.gpr n ga + imm.signExtend 32).toNat)
       ∧ (0x100000 ≤ ea) ∧ (ea < 0x180000) ∧ (ea % 4 = 0) ∧ (a = ea + 0x200000) ∧ (h.decide_ 2 .read a = .refused info)
       ∧ (h.spells n (.ldb n gd ga imm)))
    ∧ (let n : Fin 96 := 95;
       let gd : Fin 16 := 3;
       let ga : Fin 16 := 1;
       let imm : BitVec 18 := 0;
       let ea : Nat := 0x140040;
       let a : Nat := 0x340040;
       let info : Nat := 42;
       let h : Hub := (ctxWith 95 [(R.ACC_REG_PERM_VALID 2, 0)] [(1, 0x140040)]).withWord (.stw n gd ga imm);
       (h.canIssue n = true) ∧ (h.inCode n ((h.ctx n).pc + 1) = true) ∧ (ea = (h.gpr n ga + imm.signExtend 32).toNat)
       ∧ (0x100000 ≤ ea) ∧ (ea < 0x180000) ∧ (ea % 4 = 0) ∧ (a = ea + 0x200000) ∧ (h.decide_ 2 .write a = .refused info)
       ∧ (h.spells n (.stw n gd ga imm)))
    ∧ (let n : Fin 96 := 95;
       let gd : Fin 16 := 3;
       let ga : Fin 16 := 1;
       let imm : BitVec 18 := 0;
       let ea : Nat := 0x140040;
       let a : Nat := 0x340040;
       let info : Nat := 42;
       let h : Hub := (ctxWith 95 [(R.ACC_REG_PERM_VALID 2, 0)] [(1, 0x140040)]).withWord (.sth n gd ga imm);
       (h.canIssue n = true) ∧ (h.inCode n ((h.ctx n).pc + 1) = true) ∧ (ea = (h.gpr n ga + imm.signExtend 32).toNat)
       ∧ (0x100000 ≤ ea) ∧ (ea < 0x180000) ∧ (ea % 4 = 0) ∧ (a = ea + 0x200000) ∧ (h.decide_ 2 .write a = .refused info)
       ∧ (h.spells n (.sth n gd ga imm)))
    ∧ (let n : Fin 96 := 95;
       let gd : Fin 16 := 3;
       let ga : Fin 16 := 1;
       let imm : BitVec 18 := 0;
       let ea : Nat := 0x140040;
       let a : Nat := 0x340040;
       let info : Nat := 42;
       let h : Hub := (ctxWith 95 [(R.ACC_REG_PERM_VALID 2, 0)] [(1, 0x140040)]).withWord (.stb n gd ga imm);
       (h.canIssue n = true) ∧ (h.inCode n ((h.ctx n).pc + 1) = true) ∧ (ea = (h.gpr n ga + imm.signExtend 32).toNat)
       ∧ (0x100000 ≤ ea) ∧ (ea < 0x180000) ∧ (ea % 4 = 0) ∧ (a = ea + 0x200000) ∧ (h.decide_ 2 .write a = .refused info)
       ∧ (h.spells n (.stb n gd ga imm)))
    ∧ (let n : Fin 96 := 95;
       let gd : Fin 16 := 3;
       let ga : Fin 16 := 1;
       let imm : BitVec 18 := 0;
       let ea : Nat := 0x1028024;
       let a : Nat := 0x28024;
       let c : Bool := false;
       let r : Bool := false;
       let h : Hub := (ctxWith 95 [(⟨A.ACC_SLOT 10, 0, 31⟩, 0x4003FFFF)] [(1, 0x1028024)]).withWord (.ldw n gd ga imm);
       let t : Hub := (h.busRead a 4).1;
       let v : Nat := ((h.busRead a 4).2.getD 0); (h.canIssue n = true) ∧ (h.inCode n ((h.ctx n).pc + 1) = true)
       ∧ (ea = (h.gpr n ga + imm.signExtend 32).toNat) ∧ (0x1000000 ≤ ea) ∧ (ea < 0x2000000) ∧ (ea % 4 = 0)
       ∧ (a = ea - 0x1000000) ∧ (h.decide_ 2 .read a = .ok c r) ∧ (h.busRead a 4 = (t, some v))
       ∧ (h.spells n (.ldw n gd ga imm)))
    ∧ (let n : Fin 96 := 95;
       let gd : Fin 16 := 3;
       let ga : Fin 16 := 1;
       let imm : BitVec 18 := 0;
       let ea : Nat := 0x1028026;
       let a : Nat := 0x28026;
       let c : Bool := false;
       let r : Bool := false;
       let h : Hub := (ctxWith 95 [(⟨A.ACC_SLOT 10, 0, 31⟩, 0x4003FFFF)] [(1, 0x1028026)]).withWord (.ldh n gd ga imm);
       let t : Hub := (h.busRead a 2).1;
       let v : Nat := ((h.busRead a 2).2.getD 0); (h.canIssue n = true) ∧ (h.inCode n ((h.ctx n).pc + 1) = true)
       ∧ (ea = (h.gpr n ga + imm.signExtend 32).toNat) ∧ (0x1000000 ≤ ea) ∧ (ea < 0x2000000) ∧ (ea % 2 = 0)
       ∧ (a = ea - 0x1000000) ∧ (h.decide_ 2 .read a = .ok c r) ∧ (h.busRead a 2 = (t, some v))
       ∧ (h.spells n (.ldh n gd ga imm)))
    ∧ (let n : Fin 96 := 95;
       let gd : Fin 16 := 3;
       let ga : Fin 16 := 1;
       let imm : BitVec 18 := 0;
       let ea : Nat := 0x1300041;
       let a : Nat := 0x300041;
       let c : Bool := false;
       let r : Bool := false;
       let h : Hub := (ctxWith 95 [] [(1, 0x1300041)]).withWord (.ldb n gd ga imm);
       let t : Hub := (h.busRead a 1).1;
       let v : Nat := ((h.busRead a 1).2.getD 0); (h.canIssue n = true) ∧ (h.inCode n ((h.ctx n).pc + 1) = true)
       ∧ (ea = (h.gpr n ga + imm.signExtend 32).toNat) ∧ (0x1000000 ≤ ea) ∧ (ea < 0x2000000) ∧ (a = ea - 0x1000000)
       ∧ (h.decide_ 2 .read a = .ok c r) ∧ (h.busRead a 1 = (t, some v)) ∧ (h.spells n (.ldb n gd ga imm)))
    ∧ (let n : Fin 96 := 95;
       let gd : Fin 16 := 3;
       let ga : Fin 16 := 1;
       let imm : BitVec 18 := 0x3FFFC;
       let ea : Nat := 0x40;
       let a : Nat := 0x28026;
       let m : Nat := 2;
       let h : Hub := (ctxWith 95 [] [(1, 0x44), (3, 0x8899AABB)]).mstore (0x270000 + 0x40) [1, 2, 3, 0xF4];
       (h.canIssue n = true) ∧ (h.inCode n ((h.ctx n).pc + 1) = true) ∧ (ea = (h.gpr n ga + imm.signExtend 32).toNat)
       ∧ (a < 0x100000) ∧ (a % 4 + m ≤ 4))
    ∧ (let n : Fin 96 := 95;
       let gd : Fin 16 := 3;
       let ga : Fin 16 := 1;
       let imm : BitVec 18 := 0;
       let ea : Nat := 0x1300040;
       let a : Nat := 0x300040;
       let c : Bool := false;
       let r : Bool := false;
       let h : Hub := ({ (ctxWith 95 [] [(1, 0x1300040)]) with tun := { (ctxWith 95 [] [(1, 0x1300040)]).tun with bad := [0x300040 / 8] } }).withWord (.ldw n gd ga imm);
       (h.canIssue n = true) ∧ (h.inCode n ((h.ctx n).pc + 1) = true) ∧ (ea = (h.gpr n ga + imm.signExtend 32).toNat)
       ∧ (0x1000000 ≤ ea) ∧ (ea < 0x2000000) ∧ (ea % 4 = 0) ∧ (a = ea - 0x1000000) ∧ (h.decide_ 2 .read a = .ok c r)
       ∧ (h.busRead a 4 = (h, none)) ∧ (h.spells n (.ldw n gd ga imm)))
    ∧ (let n : Fin 96 := 95;
       let gd : Fin 16 := 3;
       let ga : Fin 16 := 1;
       let imm : BitVec 18 := 0;
       let ea : Nat := 0x1300040;
       let a : Nat := 0x300040;
       let c : Bool := false;
       let r : Bool := false;
       let h : Hub := (ctxWith 95 [] [(1, 0x1300040), (3, 0x8899AABB)]).withWord (.stw n gd ga imm);
       let t : Hub := ((h.winDone n).busWriteWord 2 a 4 (h.gpr n gd).toNat); (h.canIssue n = true)
       ∧ (h.inCode n ((h.ctx n).pc + 1) = true) ∧ (ea = (h.gpr n ga + imm.signExtend 32).toNat) ∧ (0x1000000 ≤ ea)
       ∧ (ea < 0x2000000) ∧ (ea % 4 = 0) ∧ (a = ea - 0x1000000) ∧ (h.decide_ 2 .write a = .ok c r)
       ∧ (h.rangeHeld a 4 = false) ∧ (t = (h.winDone n).busWriteWord 2 a 4 (h.gpr n gd).toNat)
       ∧ (t.ctxState n = cxRunning) ∧ (t.inCode n ((t.ctx n).pc + 1) = true) ∧ (h.spells n (.stw n gd ga imm)))
    ∧ (let n : Fin 96 := 95;
       let gd : Fin 16 := 3;
       let ga : Fin 16 := 1;
       let imm : BitVec 18 := 0;
       let ea : Nat := 0x1000000 + A.TUNC_STOP;
       let a : Nat := A.TUNC_STOP;
       let c : Bool := false;
       let r : Bool := false;
       let h : Hub := (ctxWith 95 [(⟨A.ACC_SLOT (A.TUNC_STOP / 0x4000), 0, 31⟩, 0x4003FFFF)] [(1, 0x1000000 + A.TUNC_STOP), (3, 223)]).withWord (.stw n gd ga imm);
       let t : Hub := ((h.winDone n).busWriteWord 2 a 4 (h.gpr n gd).toNat); (h.canIssue n = true)
       ∧ (h.inCode n ((h.ctx n).pc + 1) = true) ∧ (ea = (h.gpr n ga + imm.signExtend 32).toNat) ∧ (0x1000000 ≤ ea)
       ∧ (ea < 0x2000000) ∧ (ea % 4 = 0) ∧ (a = ea - 0x1000000) ∧ (h.decide_ 2 .write a = .ok c r)
       ∧ (h.rangeHeld a 4 = false) ∧ (t = (h.winDone n).busWriteWord 2 a 4 (h.gpr n gd).toNat)
       ∧ (t.ctxState n ≠ cxRunning) ∧ (h.spells n (.stw n gd ga imm)))
    ∧ (let n : Fin 96 := 95;
       let gd : Fin 16 := 3;
       let ga : Fin 16 := 1;
       let imm : BitVec 18 := 0;
       let ea : Nat := 0x1300042;
       let a : Nat := 0x300042;
       let c : Bool := false;
       let r : Bool := false;
       let h : Hub := (ctxWith 95 [] [(1, 0x1300042), (3, 0x8899AABB)]).withWord (.sth n gd ga imm);
       let t : Hub := ((h.winDone n).busWriteWord 2 a 2 (h.gpr n gd).toNat); (h.canIssue n = true)
       ∧ (h.inCode n ((h.ctx n).pc + 1) = true) ∧ (ea = (h.gpr n ga + imm.signExtend 32).toNat) ∧ (0x1000000 ≤ ea)
       ∧ (ea < 0x2000000) ∧ (ea % 2 = 0) ∧ (a = ea - 0x1000000) ∧ (h.decide_ 2 .write a = .ok c r)
       ∧ (h.rangeHeld a 2 = false) ∧ (t = (h.winDone n).busWriteWord 2 a 2 (h.gpr n gd).toNat)
       ∧ (t.ctxState n = cxRunning) ∧ (t.inCode n ((t.ctx n).pc + 1) = true) ∧ (h.spells n (.sth n gd ga imm)))
    ∧ (let n : Fin 96 := 95;
       let gd : Fin 16 := 3;
       let ga : Fin 16 := 1;
       let imm : BitVec 18 := 0;
       let ea : Nat := 0x1300043;
       let a : Nat := 0x300043;
       let c : Bool := false;
       let r : Bool := false;
       let h : Hub := (ctxWith 95 [] [(1, 0x1300043), (3, 0x8899AABB)]).withWord (.stb n gd ga imm);
       let t : Hub := ((h.winDone n).busWriteWord 2 a 1 (h.gpr n gd).toNat); (h.canIssue n = true)
       ∧ (h.inCode n ((h.ctx n).pc + 1) = true) ∧ (ea = (h.gpr n ga + imm.signExtend 32).toNat) ∧ (0x1000000 ≤ ea)
       ∧ (ea < 0x2000000) ∧ (a = ea - 0x1000000) ∧ (h.decide_ 2 .write a = .ok c r) ∧ (h.rangeHeld a 1 = false)
       ∧ (t = (h.winDone n).busWriteWord 2 a 1 (h.gpr n gd).toNat) ∧ (t.ctxState n = cxRunning)
       ∧ (t.inCode n ((t.ctx n).pc + 1) = true) ∧ (h.spells n (.stb n gd ga imm)))
    ∧ (let n : Fin 96 := 95;
       let gd : Fin 16 := 3;
       let ga : Fin 16 := 1;
       let imm : BitVec 18 := 0x3FFFC;
       let ea : Nat := 0x40;
       let a : Nat := 0x28026;
       let m : Nat := 2;
       let v : Nat := 5;
       let h : Hub := (ctxWith 95 [] [(1, 0x44), (3, 0x8899AABB)]).mstore (0x270000 + 0x40) [1, 2, 3, 0xF4];
       (h.canIssue n = true) ∧ (h.inCode n ((h.ctx n).pc + 1) = true) ∧ (ea = (h.gpr n ga + imm.signExtend 32).toNat)
       ∧ (a < 0x100000) ∧ (a % 4 + m ≤ 4))
    ∧ (let n : Fin 96 := 95;
       let gd : Fin 16 := 3;
       let ga : Fin 16 := 1;
       let imm : BitVec 18 := 0;
       let ea : Nat := 0x1300040;
       let a : Nat := 0x300040;
       let c : Bool := false;
       let r : Bool := false;
       let h : Hub := ({ (ctxWith 95 [] [(1, 0x1300040)]) with tun := { (ctxWith 95 [] [(1, 0x1300040)]).tun with pitch := some ⟨94, true, 0x300000, 0, 0, 4, 0, 64, 0, 0, false, false, none⟩ } }).withWord (.stw n gd ga imm);
       (h.canIssue n = true) ∧ (h.inCode n ((h.ctx n).pc + 1) = true) ∧ (ea = (h.gpr n ga + imm.signExtend 32).toNat)
       ∧ (0x1000000 ≤ ea) ∧ (ea < 0x2000000) ∧ (ea % 4 = 0) ∧ (a = ea - 0x1000000) ∧ (h.decide_ 2 .write a = .ok c r)
       ∧ (h.rangeHeld a 4 = true) ∧ (h.spells n (.stw n gd ga imm)))
    ∧ (let n : Fin 96 := 95;
       let gd : Fin 16 := 3;
       let ga : Fin 16 := 1;
       let imm : BitVec 18 := 0;
       let ea : Nat := 0x1028024;
       let a : Nat := 0x28024;
       let info : Nat := 34;
       let h : Hub := (ctxWith 95 [] [(1, 0x1028024)]).withWord (.ldw n gd ga imm); (h.canIssue n = true)
       ∧ (h.inCode n ((h.ctx n).pc + 1) = true) ∧ (ea = (h.gpr n ga + imm.signExtend 32).toNat) ∧ (0x1000000 ≤ ea)
       ∧ (ea < 0x2000000) ∧ (ea % 4 = 0) ∧ (a = ea - 0x1000000) ∧ (h.decide_ 2 .read a = .refused info)
       ∧ (h.spells n (.ldw n gd ga imm)))
    ∧ (let n : Fin 96 := 95;
       let gd : Fin 16 := 3;
       let ga : Fin 16 := 1;
       let imm : BitVec 18 := 0;
       let ea : Nat := 0x1400000;
       let a : Nat := 0x400000;
       let h : Hub := (ctxWith 95 [] [(1, 0x1400000)]).withWord (.stw n gd ga imm); (h.canIssue n = true)
       ∧ (h.inCode n ((h.ctx n).pc + 1) = true) ∧ (ea = (h.gpr n ga + imm.signExtend 32).toNat) ∧ (0x1000000 ≤ ea)
       ∧ (ea < 0x2000000) ∧ (ea % 4 = 0) ∧ (a = ea - 0x1000000) ∧ (h.decide_ 2 .write a = .error)
       ∧ (h.spells n (.stw n gd ga imm)))
    ∧ (let n : Fin 96 := 95;
       let gd : Fin 16 := 3;
       let ga : Fin 16 := 1;
       let imm : BitVec 18 := 0;
       let ea : Nat := 0x10000;
       let a : Nat := 0x270040;
       let h : Hub := (ctxWith 95 [] [(1, 0x10000)]).withWord (.ldw n gd ga imm); (h.canIssue n = true)
       ∧ (h.inCode n ((h.ctx n).pc + 1) = true) ∧ (ea = (h.gpr n ga + imm.signExtend 32).toNat) ∧ (spaceOf ea = .outside)
       ∧ (h.spells n (.ldw n gd ga imm)))
    ∧ (let n : Fin 96 := 95;
       let gd : Fin 16 := 3;
       let ga : Fin 16 := 1;
       let imm : BitVec 18 := 0;
       let ea : Nat := 0x10000;
       let a : Nat := 0x270040;
       let h : Hub := (ctxWith 95 [] [(1, 0x10000)]).withWord (.stb n gd ga imm); (h.canIssue n = true)
       ∧ (h.inCode n ((h.ctx n).pc + 1) = true) ∧ (ea = (h.gpr n ga + imm.signExtend 32).toNat) ∧ (spaceOf ea = .outside)
       ∧ (h.spells n (.stb n gd ga imm)))
    ∧ (let n : Fin 96 := 95;
       let gd : Fin 16 := 3;
       let ga : Fin 16 := 1;
       let imm : BitVec 18 := 0;
       let ea : Nat := 0xFFFF;
       let a : Nat := 0x270040;
       let h : Hub := (ctxWith 95 [] [(1, 0xFFFF)]).withWord (.ldh n gd ga imm); (h.canIssue n = true)
       ∧ (h.inCode n ((h.ctx n).pc + 1) = true) ∧ (ea = (h.gpr n ga + imm.signExtend 32).toNat) ∧ (spaceOf ea ≠ .outside)
       ∧ (ea % 2 = 1) ∧ (h.spells n (.ldh n gd ga imm)))
    ∧ (let n : Fin 96 := 95;
       let gd : Fin 16 := 3;
       let ga : Fin 16 := 1;
       let imm : BitVec 18 := 0;
       let ea : Nat := 0xFFFF;
       let a : Nat := 0x270040;
       let h : Hub := (ctxWith 95 [] [(1, 0xFFFF)]).withWord (.stw n gd ga imm); (h.canIssue n = true)
       ∧ (h.inCode n ((h.ctx n).pc + 1) = true) ∧ (ea = (h.gpr n ga + imm.signExtend 32).toNat) ∧ (spaceOf ea ≠ .outside)
       ∧ (ea % 2 = 1) ∧ (h.spells n (.stw n gd ga imm)))
    ∧ (let n : Fin 96 := 95;
       let gd : Fin 16 := 3;
       let ga : Fin 16 := 1;
       let imm : BitVec 18 := 0;
       let ea : Nat := 0x1000;
       let a : Nat := 0x270040;
       let h : Hub := (ctxWith 95 [] [(1, 0x1000)]).withWord (.ldb n gd ga imm); (h.canIssue n = true)
       ∧ (h.inCode n ((h.ctx n).pc + 1) = true) ∧ (ea = (h.gpr n ga + imm.signExtend 32).toNat) ∧ (ea < 0x10000)
       ∧ (h.inData n ea 1 = false) ∧ (h.spells n (.ldb n gd ga imm)))
    ∧ (let n : Fin 96 := 95;
       let gd : Fin 16 := 3;
       let ga : Fin 16 := 1;
       let imm : BitVec 18 := 0;
       let ea : Nat := 0x1000;
       let a : Nat := 0x270040;
       let h : Hub := (ctxWith 95 [] [(1, 0x1000)]).withWord (.stb n gd ga imm); (h.canIssue n = true)
       ∧ (h.inCode n ((h.ctx n).pc + 1) = true) ∧ (ea = (h.gpr n ga + imm.signExtend 32).toNat) ∧ (ea < 0x10000)
       ∧ (h.inData n ea 1 = false) ∧ (h.spells n (.stb n gd ga imm))) :=
  by and_intros <;> decide

/-- States and operands that meet the hypotheses of `Obligations.WordsAtThePc`. -/
theorem test_witness_WordsAtThePc :
    (let n : Fin 96 := 95;
     let c : Instr := .add 95 3 1 2 true;
     let v : Word := 0x04C4A000;
     let w : Word := 0xFFFFFFFF;
     let a : Nat := 0x13800C;
     let h : Hub := (ctxWith 95 [] []).mstore 0x13800C [0xFF, 0xFF, 0xFF, 0xFF];
     (Instr.word? c = some (n, v) ∨ c = .illegalInstruction n) ∧ (h.awake = true) ∧ (a = h.fetchAddr n)
     ∧ (h.canIssue n = true) ∧ (w = h.mword a) ∧ (spelled n w = none))
    ∧ (let n : Fin 96 := 95;
       let c : Instr := .add 95 3 1 2 true;
       let v : Word := 0x04C4A000;
       let w : Word := 0xFFFFFFFF;
       let a : Nat := 0x13800C;
       let q : List Instr := [];
       let h : Hub := { (ctxWith 95 [] []).withWord (.add 95 3 1 2 true) with fab := { (ctxWith 95 [] []).fab with soft := [0x13800C / 8] } };
       (Instr.word? c = some (n, v) ∨ c = .illegalInstruction n) ∧ (h.awake = true) ∧ (a = h.fetchAddr n)
       ∧ (h.ctxState n = cxRunning) ∧ (h.fetchOk n = true))
    ∧ (let n : Fin 96 := 95;
       let c : Instr := .add 95 3 1 2 true;
       let v : Word := 0x04C4A000;
       let w : Word := 0xFFFFFFFF;
       let a : Nat := 0x13800C;
       let x : Bool := false;
       let y : Bool := false;
       let h : Hub := { ctxWith 95 [] [] with tun := { (ctxWith 95 [] []).tun with bad := [0x13800C / 8] } };
       (Instr.word? c = some (n, v) ∨ c = .illegalInstruction n) ∧ (h.awake = true) ∧ (a = h.fetchAddr n)
       ∧ (h.ctxState n = cxRunning) ∧ (h.decide_ 2 .fetch a = .ok x y) ∧ (h.badWord a = true))
    ∧ (let n : Fin 96 := 95;
       let c : Instr := .add 95 3 1 2 true;
       let v : Word := 0x04C4A000;
       let w : Word := 0xFFFFFFFF;
       let a : Nat := 0x13800C;
       let info : Nat := 16402;
       let h : Hub := ctxWith 95 [(R.ACC_REG_PERM_PERM 0, 0)] [];
       (Instr.word? c = some (n, v) ∨ c = .illegalInstruction n) ∧ (h.awake = true) ∧ (a = h.fetchAddr n)
       ∧ (h.ctxState n = cxRunning) ∧ (h.decide_ 2 .fetch a = .refused info))
    ∧ (let n : Fin 96 := 95;
       let c : Instr := .add 95 3 1 2 true;
       let v : Word := 0x04C4A000;
       let w : Word := 0xFFFFFFFF;
       let a : Nat := 0x13800C;
       let h : Hub := ctxWith 95 [(R.ACC_CTRL_EN, 0)] []; (Instr.word? c = some (n, v) ∨ c = .illegalInstruction n)
       ∧ (h.awake = true) ∧ (a = h.fetchAddr n) ∧ (h.ctxState n = cxRunning) ∧ (h.decide_ 2 .fetch a = .held))
    ∧ (let n : Fin 96 := 95;
       let c : Instr := .add 95 3 1 2 true;
       let v : Word := 0x04C4A000;
       let w : Word := 0xFFFFFFFF;
       let a : Nat := 0x13800C;
       let i : Instr := .nop 95;
       let h : Hub := ctxWith 95 [] []; (Instr.word? c = some (n, v) ∨ c = .illegalInstruction n) ∧ (h.awake = true)
       ∧ (a = h.fetchAddr n) ∧ (h.canIssue n = true) ∧ (spelled n (h.mword a) = some i) ∧ (i ≠ Instr.spelling c))
    ∧ (let n : Fin 96 := 95;
       let c : Instr := .add 95 3 1 2 true;
       let v : Word := 0x04C4A000;
       let w : Word := 0xFFFFFFFF;
       let a : Nat := 0x13800C;
       let h : Hub := ctxWith 95 [(R.TUNC_CTX_STATUS_STATE 95, 4)] [];
       (Instr.word? c = some (n, v) ∨ c = .illegalInstruction n) ∧ (h.awake = true) ∧ (a = h.fetchAddr n)
       ∧ (h.ctxState n ≠ cxRunning)) :=
  by and_intros <;> decide

theorem test_witness_WordsOfInstructions : Instr.word? (.qdepth 95 3 1 1 2) = some (95, wordI 0x28 3 1 0x10002) ∧ Instr.legal (.qdepth 95 3 1 1 2) = true ∧ spelled 95 (wordI 0x28 3 1 0x10002) = some (.qdepth 95 3 1 1 2) ∧ Instr.word? (.sealXts 0 15 15) = some (0, wordI 0x3D 15 15 0) ∧ Instr.legal (.sealXts 0 15 15) = true ∧ spelled 0 (wordI 0x3D 15 15 0) = some (.sealGcmSeal 0 15 15) := by and_intros <;> decide

/-- States and operands that meet the hypotheses of `Obligations.PacketInstructions`. -/
theorem test_witness_PacketInstructions :
    (let n : Fin 96 := 95;
     let d : Fin 4 := 3;
     let gd : Fin 16 := 4;
     let ga : Fin 16 := 1;
     let x : Held := ⟨0, 28, 0, false, .pool⟩;
     let s : Stored := ⟨⟨130, .M, 3, 2, 5, 0, false, true, true, 9, 6, 7, [0x03020100, 0x07060504]⟩, [4, 5], .pool, 1, none, none, [], .M⟩;
     let y : Desc := ⟨0, .pool, false, false, .M, 7, false⟩;
     let ys : List Desc := [];
     let h : Hub := ((ctxWith 95 [] []).queuePkt 95 ⟨⟨130, .M, 3, 2, 5, 0, false, true, true, 9, 6, 7, [0x03020100, 0x07060504]⟩, [4, 5], .pool, 1, none, none, [], .M⟩).withWord (.pget n d gd false);
     let k : Hub := ((h.refill 3).serveContext n (h.queue 13 n).items.length).1; (h.canIssue n = true)
     ∧ (h.inCode n ((h.ctx n).pc + 1) = true) ∧ ((h.ctx n).dd d = none)
     ∧ ((h.refill 3).serveContext n (h.queue 13 n).items.length = (k, true)) ∧ ((k.queue 13 n).items = y :: ys)
     ∧ (KMap.get? k.fab.pkts y.pid = some s) ∧ (s.refs ≤ 1) ∧ (h.spells n (.pget n d gd false)))
    ∧ (let n : Fin 96 := 95;
       let d : Fin 4 := 3;
       let gd : Fin 16 := 4;
       let ga : Fin 16 := 1;
       let x : Held := ⟨0, 28, 0, false, .pool⟩;
       let s : Stored := ⟨⟨130, .M, 3, 2, 5, 0, false, true, true, 9, 6, 7, [0x03020100, 0x07060504]⟩, [4, 5], .pool, 2, none, none, [], .M⟩;
       let y : Desc := ⟨0, .pool, false, false, .M, 7, false⟩;
       let ys : List Desc := [];
       let h : Hub := (((ctxWith 95 [] []).queuePkt 95 ⟨⟨130, .M, 3, 2, 5, 0, false, true, true, 9, 6, 7, [0x03020100, 0x07060504]⟩, [4, 5], .pool, 2, none, none, [], .M⟩).withFields [(R.FAB_STATUS_REBUILD, 1)]).withWord (.pget n d gd false);
       let k : Hub := ((h.refill 3).serveContext n (h.queue 13 n).items.length).1; (h.canIssue n = true)
       ∧ (h.inCode n ((h.ctx n).pc + 1) = true) ∧ ((h.ctx n).dd d = none)
       ∧ ((h.refill 3).serveContext n (h.queue 13 n).items.length = (k, true)) ∧ ((k.queue 13 n).items = y :: ys)
       ∧ (KMap.get? k.fab.pkts y.pid = some s) ∧ (1 < s.refs) ∧ (k.roomFor s.cells.length = false)
       ∧ (h.spells n (.pget n d gd false)))
    ∧ (let n : Fin 96 := 95;
       let d : Fin 4 := 3;
       let gd : Fin 16 := 4;
       let ga : Fin 16 := 1;
       let x : Held := ⟨0, 28, 0, false, .pool⟩;
       let s : Stored := ⟨⟨130, .M, 3, 2, 5, 0, false, true, true, 9, 6, 7, [0x03020100, 0x07060504]⟩, [4, 5], .pool, 2, none, none, [], .M⟩;
       let y : Desc := ⟨0, .pool, false, false, .M, 7, false⟩;
       let ys : List Desc := [];
       let h : Hub := ((ctxWith 95 [] []).queuePkt 95 ⟨⟨130, .M, 3, 2, 5, 0, false, true, true, 9, 6, 7, [0x03020100, 0x07060504]⟩, [4, 5], .pool, 2, none, none, [], .M⟩).withWord (.pget n d gd false);
       let k : Hub := ((h.refill 3).serveContext n (h.queue 13 n).items.length).1; (h.canIssue n = true)
       ∧ (h.inCode n ((h.ctx n).pc + 1) = true) ∧ ((h.ctx n).dd d = none)
       ∧ ((h.refill 3).serveContext n (h.queue 13 n).items.length = (k, true)) ∧ ((k.queue 13 n).items = y :: ys)
       ∧ (KMap.get? k.fab.pkts y.pid = some s) ∧ (1 < s.refs) ∧ (k.roomFor s.cells.length = true)
       ∧ (h.spells n (.pget n d gd false)))
    ∧ (let n : Fin 96 := 95;
       let d : Fin 4 := 3;
       let gd : Fin 16 := 4;
       let ga : Fin 16 := 1;
       let x : Held := ⟨0, 28, 0, false, .pool⟩;
       let s : Stored := ⟨⟨130, .D, 3, 2, 5, 0, false, true, true, 9, 6, 7, [0x03020100, 0x07060504]⟩, [4, 5], .pool, 1, none, none, [], .D⟩;
       let h : Hub := ({ (ctxWith 95 [] []).queuePkt 95 ⟨⟨130, .M, 3, 2, 5, 0, false, true, true, 9, 6, 7, [0x03020100, 0x07060504]⟩, [4, 5], .pool, 1, none, none, [], .M⟩ with stime := 2 ^ 34 }).withWord (.pget n d gd false);
       let k : Hub := ((h.refill 3).serveContext n (h.queue 13 n).items.length).1; (h.canIssue n = true)
       ∧ (h.inCode n ((h.ctx n).pc + 1) = true) ∧ ((h.ctx n).dd d = none)
       ∧ ((h.refill 3).serveContext n (h.queue 13 n).items.length = (k, false)) ∧ (k.ctxState n = cxRunning)
       ∧ (k.inCode n ((k.ctx n).pc + 1) = true) ∧ (h.spells n (.pget n d gd false)))
    ∧ (let n : Fin 96 := 95;
       let d : Fin 4 := 3;
       let gd : Fin 16 := 4;
       let ga : Fin 16 := 1;
       let x : Held := ⟨0, 28, 0, false, .pool⟩;
       let s : Stored := ⟨⟨130, .D, 3, 2, 5, 0, false, true, true, 9, 6, 7, [0x03020100, 0x07060504]⟩, [4, 5], .pool, 1, none, none, [], .D⟩;
       let h : Hub := (ctxWith 95 [] []).withWord (.pget n d gd false); (h.canIssue n = true)
       ∧ (h.inCode n ((h.ctx n).pc + 1) = true) ∧ ((h.ctx n).dd d = none) ∧ ((h.queue 13 n).items = [])
       ∧ (h.spells n (.pget n d gd false)))
    ∧ (let n : Fin 96 := 95;
       let d : Fin 4 := 3;
       let gd : Fin 16 := 4;
       let ga : Fin 16 := 1;
       let x : Held := ⟨0, 28, 0, false, .pool⟩;
       let s : Stored := ⟨⟨130, .D, 3, 2, 5, 0, false, true, true, 9, 6, 7, [0x03020100, 0x07060504]⟩, [4, 5], .pool, 1, none, none, [], .D⟩;
       let e : Bool := true;
       let h : Hub := (holdPkt 95 3 ⟨⟨130, .D, 3, 2, 5, 0, false, true, true, 9, 6, 7, [0x03020100, 0x07060504]⟩, [4, 5], .pool, 1, none, none, [], .D⟩ [(1, 4), (4, 0)]).withWord (.pget n d gd e);
       (h.canIssue n = true) ∧ (h.inCode n ((h.ctx n).pc + 1) = true) ∧ (((h.ctx n).dd d).isSome = true)
       ∧ (h.spells n (.pget n d gd e)))
    ∧ (let n : Fin 96 := 95;
       let d : Fin 4 := 3;
       let gd : Fin 16 := 4;
       let ga : Fin 16 := 1;
       let x : Held := ⟨0, 28, 0, false, .pool⟩;
       let s : Stored := ⟨⟨130, .D, 3, 2, 5, 0, false, true, true, 9, 6, 7, [0x03020100, 0x07060504]⟩, [4, 5], .pool, 1, none, none, [], .D⟩;
       let h : Hub := (ctxWith 95 [] []).withWord (.pget n d gd true); (h.canIssue n = true)
       ∧ (h.inCode n ((h.ctx n).pc + 1) = true) ∧ ((h.ctx n).dd d = none) ∧ (h.bindEnd n = 0)
       ∧ (h.spells n (.pget n d gd true)))
    ∧ (let n : Fin 96 := 95;
       let d : Fin 4 := 3;
       let gd : Fin 16 := 4;
       let ga : Fin 16 := 1;
       let x : Held := ⟨0, 28, 0, false, .pool⟩;
       let s : Stored := ⟨⟨130, .D, 3, 2, 5, 0, false, true, true, 9, 6, 7, [0x03020100, 0x07060504]⟩, [4, 5], .pool, 1, none, none, [], .D⟩;
       let h : Hub := ((ctxWith 95 [(R.TUNC_BOUND_BINDING 95, 0x82)] []).epPkt 95 ⟨0, .P, 0, 0, 0, 0, false, false, false, 0, 4, 5, [1]⟩).withWord (.pget n d gd true);
       let k : Hub := (h.adpTake n).1;
       let p : Packet := ((h.adpTake n).2.getD (Packet.blank 0)); (h.canIssue n = true)
       ∧ (h.inCode n ((h.ctx n).pc + 1) = true) ∧ ((h.ctx n).dd d = none) ∧ (h.bindEnd n ≠ 0)
       ∧ (h.adpTake n = (k, some p)) ∧ (h.roomFor p.cells = true) ∧ (h.spells n (.pget n d gd true)))
    ∧ (let n : Fin 96 := 95;
       let d : Fin 4 := 3;
       let gd : Fin 16 := 4;
       let ga : Fin 16 := 1;
       let x : Held := ⟨0, 28, 0, false, .pool⟩;
       let s : Stored := ⟨⟨130, .D, 3, 2, 5, 0, false, true, true, 9, 6, 7, [0x03020100, 0x07060504]⟩, [4, 5], .pool, 1, none, none, [], .D⟩;
       let h : Hub := ((ctxWith 95 [(R.TUNC_BOUND_BINDING 95, 0x82), (R.FAB_STATUS_REBUILD, 1)] []).epPkt 95 ⟨0, .P, 0, 0, 0, 0, false, false, false, 0, 4, 5, [1]⟩).withWord (.pget n d gd true);
       let k : Hub := (h.adpTake n).1;
       let p : Packet := ((h.adpTake n).2.getD (Packet.blank 0)); (h.canIssue n = true)
       ∧ (h.inCode n ((h.ctx n).pc + 1) = true) ∧ ((h.ctx n).dd d = none) ∧ (h.bindEnd n ≠ 0)
       ∧ (h.adpTake n = (k, some p)) ∧ (h.roomFor p.cells = false) ∧ (h.spells n (.pget n d gd true)))
    ∧ (let n : Fin 96 := 95;
       let d : Fin 4 := 3;
       let gd : Fin 16 := 4;
       let ga : Fin 16 := 1;
       let x : Held := ⟨0, 28, 0, false, .pool⟩;
       let s : Stored := ⟨⟨130, .D, 3, 2, 5, 0, false, true, true, 9, 6, 7, [0x03020100, 0x07060504]⟩, [4, 5], .pool, 1, none, none, [], .D⟩;
       let h : Hub := (ctxWith 95 [(R.TUNC_BOUND_BINDING 95, 0x82)] []).withWord (.pget n d gd true);
       let k : Hub := (h.adpTake n).1; (h.canIssue n = true) ∧ (h.inCode n ((h.ctx n).pc + 1) = true)
       ∧ ((h.ctx n).dd d = none) ∧ (h.bindEnd n ≠ 0) ∧ (h.adpTake n = (k, none)) ∧ (h.spells n (.pget n d gd true)))
    ∧ (let n : Fin 96 := 95;
       let d : Fin 4 := 3;
       let gd : Fin 16 := 4;
       let ga : Fin 16 := 1;
       let x : Held := ⟨0, 28, 0, false, .pool⟩;
       let s : Stored := ⟨⟨130, .D, 3, 2, 5, 0, false, true, true, 9, 6, 7, [0x03020100, 0x07060504]⟩, [4, 5], .pool, 1, none, none, [], .D⟩;
       let f : BitVec 12 := 9;
       let v : Nat := 6;
       let h : Hub := (holdPkt 95 3 ⟨⟨130, .D, 3, 2, 5, 0, false, true, true, 9, 6, 7, [0x03020100, 0x07060504]⟩, [4, 5], .pool, 1, none, none, [], .D⟩ [(1, 4), (4, 0)]).withWord (.phdr n gd d f);
       (h.canIssue n = true) ∧ (h.inCode n ((h.ctx n).pc + 1) = true) ∧ (h.heldSound n d = some (x, s))
       ∧ (h.headerField x s.pkt f.toNat = some v) ∧ (h.spells n (.phdr n gd d f)))
    ∧ (let n : Fin 96 := 95;
       let d : Fin 4 := 3;
       let gd : Fin 16 := 4;
       let ga : Fin 16 := 1;
       let x : Held := ⟨0, 28, 0, false, .pool⟩;
       let s : Stored := ⟨⟨130, .D, 3, 2, 5, 0, false, true, true, 9, 6, 7, [0x03020100, 0x07060504]⟩, [4, 5], .pool, 1, none, none, [], .D⟩;
       let p : Packet := ⟨130, .D, 3, 2, 5, 0, false, true, true, 9, 6, 7, [1, 2]⟩;
       let h : Hub := holdPkt 95 3 ⟨⟨130, .D, 3, 2, 5, 0, false, true, true, 9, 6, 7, [0x03020100, 0x07060504]⟩, [4, 5], .pool, 1, none, none, [], .D⟩ [(1, 4), (4, 0)];
       (h.canIssue n = true) ∧ (h.inCode n ((h.ctx n).pc + 1) = true))
    ∧ (let n : Fin 96 := 95;
       let d : Fin 4 := 3;
       let gd : Fin 16 := 4;
       let ga : Fin 16 := 1;
       let x : Held := ⟨0, 28, 0, false, .pool⟩;
       let s : Stored := ⟨⟨130, .D, 3, 2, 5, 0, false, true, true, 9, 6, 7, [0x03020100, 0x07060504]⟩, [4, 5], .pool, 1, none, none, [], .D⟩;
       let h : Hub := (holdPkt 95 3 ⟨⟨130, .D, 3, 2, 5, 0, false, true, true, 9, 6, 7, [0x03020100, 0x07060504]⟩, [4, 5], .pool, 1, none, none, [], .D⟩ [(1, 4), (4, 0)]).withWord (.pseth n d 0 ga);
       (h.canIssue n = true) ∧ (h.inCode n ((h.ctx n).pc + 1) = true) ∧ (h.heldSound n d = some (x, s))
       ∧ (h.spells n (.pseth n d 0 ga)))
    ∧ (let n : Fin 96 := 95;
       let d : Fin 4 := 3;
       let gd : Fin 16 := 4;
       let ga : Fin 16 := 1;
       let x : Held := ⟨0, 28, 0, false, .pool⟩;
       let s : Stored := ⟨⟨130, .D, 3, 2, 5, 0, false, true, true, 9, 6, 7, [0x03020100, 0x07060504]⟩, [4, 5], .pool, 1, none, none, [], .D⟩;
       let h : Hub := (holdPkt 95 3 ⟨⟨130, .D, 3, 2, 5, 0, false, true, true, 9, 6, 7, [0x03020100, 0x07060504]⟩, [4, 5], .pool, 1, none, none, [], .D⟩ [(1, 4), (4, 0)]).withWord (.pseth n d 7 ga);
       (h.canIssue n = true) ∧ (h.inCode n ((h.ctx n).pc + 1) = true) ∧ (h.heldSound n d = some (x, s))
       ∧ (h.spells n (.pseth n d 7 ga)))
    ∧ (let n : Fin 96 := 95;
       let d : Fin 4 := 3;
       let gd : Fin 16 := 4;
       let ga : Fin 16 := 1;
       let x : Held := ⟨0, 28, 0, false, .pool⟩;
       let s : Stored := ⟨⟨130, .D, 3, 2, 5, 0, false, true, true, 9, 6, 7, [0x03020100, 0x07060504]⟩, [4, 5], .pool, 1, none, none, [], .D⟩;
       let h : Hub := (holdPkt 95 3 ⟨⟨130, .D, 3, 2, 5, 0, false, true, true, 9, 6, 7, [0x03020100, 0x07060504]⟩, [4, 5], .pool, 1, none, none, [], .D⟩ [(1, 4), (4, 0)]).withWord (.pseth n d 4 ga);
       (h.canIssue n = true) ∧ (h.inCode n ((h.ctx n).pc + 1) = true) ∧ (h.heldSound n d = some (x, s))
       ∧ ((h.gpr n ga).toNat % 256 ≤ x.cap) ∧ (h.spells n (.pseth n d 4 ga)))
    ∧ (let n : Fin 96 := 95;
       let d : Fin 4 := 3;
       let gd : Fin 16 := 4;
       let ga : Fin 16 := 1;
       let x : Held := ⟨0, 28, 0, false, .pool⟩;
       let s : Stored := ⟨⟨130, .D, 3, 2, 5, 0, false, true, true, 9, 6, 7, [0x03020100, 0x07060504]⟩, [4, 5], .pool, 1, none, none, [], .D⟩;
       let h : Hub := (holdPkt 95 3 s [(1, 29)]).withWord (.pseth n d 4 ga); (h.canIssue n = true)
       ∧ (h.inCode n ((h.ctx n).pc + 1) = true) ∧ (h.heldSound n d = some (x, s)) ∧ (x.cap < (h.gpr n ga).toNat % 256)
       ∧ (h.spells n (.pseth n d 4 ga)))
    ∧ (let n : Fin 96 := 95;
       let d : Fin 4 := 3;
       let gd : Fin 16 := 4;
       let ga : Fin 16 := 1;
       let x : Held := ⟨0, 28, 0, false, .pool⟩;
       let s : Stored := ⟨⟨130, .D, 3, 2, 5, 0, false, true, true, 9, 6, 7, [0x03020100, 0x07060504]⟩, [4, 5], .pool, 1, none, none, [], .D⟩;
       let h : Hub := (holdPkt 95 3 ⟨⟨130, .D, 3, 2, 5, 0, false, true, true, 9, 6, 7, [0x03020100, 0x07060504]⟩, [4, 5], .pool, 1, none, none, [], .D⟩ [(1, 4), (4, 0)]).withWord (.pseth n d 8 ga);
       (h.canIssue n = true) ∧ (h.inCode n ((h.ctx n).pc + 1) = true) ∧ (h.heldSound n d = some (x, s))
       ∧ (h.spells n (.pseth n d 8 ga)))
    ∧ (let n : Fin 96 := 95;
       let d : Fin 4 := 3;
       let gd : Fin 16 := 4;
       let ga : Fin 16 := 1;
       let x : Held := ⟨0, 28, 0, false, .pool⟩;
       let s : Stored := ⟨⟨130, .D, 3, 2, 5, 0, false, true, true, 9, 6, 7, [0x03020100, 0x07060504]⟩, [4, 5], .pool, 1, none, none, [], .D⟩;
       let f : BitVec 12 := 1;
       let h : Hub := (ctxWith 95 [] []).withWord (.pseth 95 d f ga); (h.canIssue n = true)
       ∧ (h.inCode n ((h.ctx n).pc + 1) = true) ∧ (f.toNat ≠ 0) ∧ (f.toNat ≠ 4) ∧ (f.toNat ≠ 7) ∧ (f.toNat ≠ 8)
       ∧ (h.fetched n = some (wordP 0x1A d 0 ga 0 f.toNat)))
    ∧ (let n : Fin 96 := 95;
       let d : Fin 4 := 3;
       let gd : Fin 16 := 4;
       let ga : Fin 16 := 1;
       let x : Held := ⟨0, 28, 0, false, .pool⟩;
       let s : Stored := ⟨⟨130, .D, 3, 2, 5, 0, false, true, true, 9, 6, 7, [0x03020100, 0x07060504]⟩, [4, 5], .pool, 1, none, none, [], .D⟩;
       let f : BitVec 12 := 8;
       let imm : BitVec 12 := 0;
       let m : BitVec 4 := 1;
       let h : Hub := (ctxWith 95 [] []).withWord (.phdr n gd d f); (h.canIssue n = true)
       ∧ (h.inCode n ((h.ctx n).pc + 1) = true) ∧ (h.held n d = none) ∧ (h.spells n (.phdr n gd d f)))
    ∧ (let n : Fin 96 := 95;
       let d : Fin 4 := 3;
       let gd : Fin 16 := 4;
       let ga : Fin 16 := 1;
       let x : Held := ⟨0, 28, 0, false, .pool⟩;
       let s : Stored := ⟨⟨130, .D, 3, 2, 5, 0, false, true, true, 9, 6, 7, [0x03020100, 0x07060504]⟩, [4, 5], .pool, 1, none, none, [], .D⟩;
       let f : BitVec 12 := 8;
       let imm : BitVec 12 := 0;
       let m : BitVec 4 := 1;
       let h : Hub := (ctxWith 95 [] []).withWord (.pseth n d f ga); (h.canIssue n = true)
       ∧ (h.inCode n ((h.ctx n).pc + 1) = true) ∧ (h.held n d = none) ∧ (h.spells n (.pseth n d f ga)))
    ∧ (let n : Fin 96 := 95;
       let d : Fin 4 := 3;
       let gd : Fin 16 := 4;
       let ga : Fin 16 := 1;
       let x : Held := ⟨0, 28, 0, false, .pool⟩;
       let s : Stored := ⟨⟨130, .D, 3, 2, 5, 0, false, true, true, 9, 6, 7, [0x03020100, 0x07060504]⟩, [4, 5], .pool, 1, none, none, [], .D⟩;
       let f : BitVec 12 := 8;
       let imm : BitVec 12 := 0;
       let m : BitVec 4 := 1;
       let h : Hub := (ctxWith 95 [] []).withWord (.pld n gd d ga imm m); (h.canIssue n = true)
       ∧ (h.inCode n ((h.ctx n).pc + 1) = true) ∧ (h.held n d = none) ∧ (h.spells n (.pld n gd d ga imm m)))
    ∧ (let n : Fin 96 := 95;
       let d : Fin 4 := 3;
       let gd : Fin 16 := 4;
       let ga : Fin 16 := 1;
       let x : Held := ⟨0, 28, 0, false, .pool⟩;
       let s : Stored := ⟨⟨130, .D, 3, 2, 5, 0, false, true, true, 9, 6, 7, [0x03020100, 0x07060504]⟩, [4, 5], .pool, 1, none, none, [], .D⟩;
       let f : BitVec 12 := 8;
       let imm : BitVec 12 := 0;
       let m : BitVec 4 := 1;
       let h : Hub := (ctxWith 95 [] []).withWord (.pst n gd d ga imm m); (h.canIssue n = true)
       ∧ (h.inCode n ((h.ctx n).pc + 1) = true) ∧ (h.held n d = none) ∧ (h.spells n (.pst n gd d ga imm m)))
    ∧ (let n : Fin 96 := 95;
       let d : Fin 4 := 3;
       let gd : Fin 16 := 4;
       let ga : Fin 16 := 1;
       let x : Held := ⟨0, 28, 0, false, .pool⟩;
       let s : Stored := ⟨⟨130, .D, 3, 2, 5, 0, false, true, true, 9, 6, 7, [0x03020100, 0x07060504]⟩, [4, 5], .pool, 1, none, none, [], .D⟩;
       let imm : BitVec 12 := 0;
       let o : Nat := 4;
       let h : Hub := (holdPkt 95 3 ⟨⟨130, .D, 3, 2, 5, 0, false, true, true, 9, 6, 7, [0x03020100, 0x07060504]⟩, [4, 5], .pool, 1, none, none, [], .D⟩ [(1, 4), (4, 0)]).withWord (.pst n gd d ga imm 0);
       (h.canIssue n = true) ∧ (h.inCode n ((h.ctx n).pc + 1) = true) ∧ (h.heldSound n d = some (x, s))
       ∧ (o = (h.gpr n ga + imm.zeroExtend 32).toNat) ∧ (o % 4 = 0) ∧ (o + 4 ≤ 4 * s.pkt.length)
       ∧ (h.spells n (.pst n gd d ga imm 0)))
    ∧ (let n : Fin 96 := 95;
       let d : Fin 4 := 3;
       let gd : Fin 16 := 4;
       let ga : Fin 16 := 1;
       let x : Held := ⟨0, 28, 0, false, .pool⟩;
       let s : Stored := ⟨⟨130, .D, 3, 2, 5, 0, false, true, true, 9, 6, 7, [0x03020100, 0x07060504]⟩, [4, 5], .pool, 1, none, none, [], .D⟩;
       let imm : BitVec 12 := 2;
       let o : Nat := 6;
       let h : Hub := (holdPkt 95 3 ⟨⟨130, .D, 3, 2, 5, 0, false, true, true, 9, 6, 7, [0x03020100, 0x07060504]⟩, [4, 5], .pool, 1, none, none, [], .D⟩ [(1, 4), (4, 0)]).withWord (.pld n gd d ga imm 1);
       (h.canIssue n = true) ∧ (h.inCode n ((h.ctx n).pc + 1) = true) ∧ (h.heldSound n d = some (x, s))
       ∧ (o = (h.gpr n ga + imm.zeroExtend 32).toNat) ∧ (o % 2 = 0) ∧ (o + 2 ≤ 4 * s.pkt.length)
       ∧ (h.spells n (.pld n gd d ga imm 1)))
    ∧ (let n : Fin 96 := 95;
       let d : Fin 4 := 3;
       let gd : Fin 16 := 4;
       let ga : Fin 16 := 1;
       let x : Held := ⟨0, 28, 0, false, .pool⟩;
       let s : Stored := ⟨⟨130, .D, 3, 2, 5, 0, false, true, true, 9, 6, 7, [0x03020100, 0x07060504]⟩, [4, 5], .pool, 1, none, none, [], .D⟩;
       let imm : BitVec 12 := 2;
       let o : Nat := 6;
       let h : Hub := (holdPkt 95 3 ⟨⟨130, .D, 3, 2, 5, 0, false, true, true, 9, 6, 7, [0x03020100, 0x07060504]⟩, [4, 5], .pool, 1, none, none, [], .D⟩ [(1, 4), (4, 0)]).withWord (.pst n gd d ga imm 1);
       (h.canIssue n = true) ∧ (h.inCode n ((h.ctx n).pc + 1) = true) ∧ (h.heldSound n d = some (x, s))
       ∧ (o = (h.gpr n ga + imm.zeroExtend 32).toNat) ∧ (o % 2 = 0) ∧ (o + 2 ≤ 4 * s.pkt.length)
       ∧ (h.spells n (.pst n gd d ga imm 1)))
    ∧ (let n : Fin 96 := 95;
       let d : Fin 4 := 3;
       let gd : Fin 16 := 4;
       let ga : Fin 16 := 1;
       let x : Held := ⟨0, 28, 0, false, .pool⟩;
       let s : Stored := ⟨⟨130, .D, 3, 2, 5, 0, false, true, true, 9, 6, 7, [0x03020100, 0x07060504]⟩, [4, 5], .pool, 1, none, none, [], .D⟩;
       let imm : BitVec 12 := 0;
       let o : Nat := 4;
       let h : Hub := (holdPkt 95 3 ⟨⟨130, .D, 3, 2, 5, 0, false, true, true, 9, 6, 7, [0x03020100, 0x07060504]⟩, [4, 5], .pool, 1, none, none, [], .D⟩ [(1, 4), (4, 0)]).withWord (.pld n gd d ga imm 0);
       (h.canIssue n = true) ∧ (h.inCode n ((h.ctx n).pc + 1) = true) ∧ (h.heldSound n d = some (x, s))
       ∧ (o = (h.gpr n ga + imm.zeroExtend 32).toNat) ∧ (o % 4 = 0) ∧ (o + 4 ≤ 4 * s.pkt.length)
       ∧ (h.spells n (.pld n gd d ga imm 0)))
    ∧ (let n : Fin 96 := 95;
       let d : Fin 4 := 3;
       let gd : Fin 16 := 4;
       let ga : Fin 16 := 1;
       let x : Held := ⟨0, 28, 0, false, .pool⟩;
       let s : Stored := ⟨⟨130, .D, 3, 2, 5, 0, false, true, true, 9, 6, 7, [0x03020100, 0x07060504]⟩, [4, 5], .pool, 1, none, none, [], .D⟩;
       let imm : BitVec 12 := 3;
       let o : Nat := 7;
       let h : Hub := (holdPkt 95 3 ⟨⟨130, .D, 3, 2, 5, 0, false, true, true, 9, 6, 7, [0x03020100, 0x07060504]⟩, [4, 5], .pool, 1, none, none, [], .D⟩ [(1, 4), (4, 0)]).withWord (.pld n gd d ga imm 2);
       (h.canIssue n = true) ∧ (h.inCode n ((h.ctx n).pc + 1) = true) ∧ (h.heldSound n d = some (x, s))
       ∧ (o = (h.gpr n ga + imm.zeroExtend 32).toNat) ∧ (o + 1 ≤ 4 * s.pkt.length) ∧ (h.spells n (.pld n gd d ga imm 2)))
    ∧ (let n : Fin 96 := 95;
       let d : Fin 4 := 3;
       let gd : Fin 16 := 4;
       let ga : Fin 16 := 1;
       let x : Held := ⟨0, 28, 0, false, .pool⟩;
       let s : Stored := ⟨⟨130, .D, 3, 2, 5, 0, false, true, true, 9, 6, 7, [0x03020100, 0x07060504]⟩, [4, 5], .pool, 1, none, none, [], .D⟩;
       let imm : BitVec 12 := 3;
       let o : Nat := 7;
       let h : Hub := (holdPkt 95 3 ⟨⟨130, .D, 3, 2, 5, 0, false, true, true, 9, 6, 7, [0x03020100, 0x07060504]⟩, [4, 5], .pool, 1, none, none, [], .D⟩ [(1, 4), (4, 0)]).withWord (.pst n gd d ga imm 2);
       (h.canIssue n = true) ∧ (h.inCode n ((h.ctx n).pc + 1) = true) ∧ (h.heldSound n d = some (x, s))
       ∧ (o = (h.gpr n ga + imm.zeroExtend 32).toNat) ∧ (o + 1 ≤ 4 * s.pkt.length) ∧ (h.spells n (.pst n gd d ga imm 2)))
    ∧ (let n : Fin 96 := 95;
       let d : Fin 4 := 3;
       let gd : Fin 16 := 4;
       let ga : Fin 16 := 1;
       let x : Held := ⟨0, 28, 0, false, .pool⟩;
       let s : Stored := ⟨⟨130, .D, 3, 2, 5, 0, false, true, true, 9, 6, 7, [0x03020100, 0x07060504]⟩, [4, 5], .pool, 1, none, none, [], .D⟩;
       let imm : BitVec 12 := 4;
       let o : Nat := 8;
       let h : Hub := (holdPkt 95 3 ⟨⟨130, .D, 3, 2, 5, 0, false, true, true, 9, 6, 7, [0x03020100, 0x07060504]⟩, [4, 5], .pool, 1, none, none, [], .D⟩ [(1, 4), (4, 0)]).withWord (.pld n gd d ga imm 0);
       (h.canIssue n = true) ∧ (h.inCode n ((h.ctx n).pc + 1) = true) ∧ (h.heldSound n d = some (x, s))
       ∧ (o = (h.gpr n ga + imm.zeroExtend 32).toNat) ∧ (o % 4 = 0) ∧ (4 * s.pkt.length < o + 4)
       ∧ (h.spells n (.pld n gd d ga imm 0)))
    ∧ (let n : Fin 96 := 95;
       let d : Fin 4 := 3;
       let gd : Fin 16 := 4;
       let ga : Fin 16 := 1;
       let x : Held := ⟨0, 28, 0, false, .pool⟩;
       let s : Stored := ⟨⟨130, .D, 3, 2, 5, 0, false, true, true, 9, 6, 7, [0x03020100, 0x07060504]⟩, [4, 5], .pool, 1, none, none, [], .D⟩;
       let imm : BitVec 12 := 4;
       let o : Nat := 8;
       let h : Hub := (holdPkt 95 3 ⟨⟨130, .D, 3, 2, 5, 0, false, true, true, 9, 6, 7, [0x03020100, 0x07060504]⟩, [4, 5], .pool, 1, none, none, [], .D⟩ [(1, 4), (4, 0)]).withWord (.pst n gd d ga imm 0);
       (h.canIssue n = true) ∧ (h.inCode n ((h.ctx n).pc + 1) = true) ∧ (h.heldSound n d = some (x, s))
       ∧ (o = (h.gpr n ga + imm.zeroExtend 32).toNat) ∧ (o % 4 = 0) ∧ (4 * s.pkt.length < o + 4)
       ∧ (h.spells n (.pst n gd d ga imm 0)))
    ∧ (let n : Fin 96 := 95;
       let d : Fin 4 := 3;
       let gd : Fin 16 := 4;
       let ga : Fin 16 := 1;
       let x : Held := ⟨0, 28, 0, false, .pool⟩;
       let s : Stored := ⟨⟨130, .D, 3, 2, 5, 0, false, true, true, 9, 6, 7, [0x03020100, 0x07060504]⟩, [4, 5], .pool, 1, none, none, [], .D⟩;
       let m : BitVec 12 := 8;
       let o : Nat := 0;
       let ea : Nat := 4;
       let a : Nat := 0x270004;
       let h : Hub := (holdPkt 95 3 ⟨⟨130, .D, 3, 2, 5, 0, false, true, true, 9, 6, 7, [0x03020100, 0x07060504]⟩, [4, 5], .pool, 1, none, none, [], .D⟩ [(1, 4), (4, 0)]).withWord (.pcopyFromMemory n d gd ga m);
       (h.canIssue n = true) ∧ (h.inCode n ((h.ctx n).pc + 1) = true) ∧ (copyBytesOk m.toNat = true)
       ∧ (ea = (h.gpr n ga).toNat) ∧ (o = (h.gpr n gd).toNat) ∧ (ea % 4 = 0) ∧ (ea < 0x10000)
       ∧ (h.inData n ea m.toNat = true) ∧ (a = dataBase (n / 12) + ea) ∧ (h.heldSound n d = some (x, s)) ∧ (o % 4 = 0)
       ∧ (o + m.toNat ≤ 4 * s.pkt.length) ∧ (h.badRange a m.toNat = false) ∧ (h.spells n (.pcopyFromMemory n d gd ga m)))
    ∧ (let n : Fin 96 := 95;
       let d : Fin 4 := 3;
       let gd : Fin 16 := 4;
       let ga : Fin 16 := 1;
       let x : Held := ⟨0, 28, 0, false, .pool⟩;
       let s : Stored := ⟨⟨130, .D, 3, 2, 5, 0, false, true, true, 9, 6, 7, [0x03020100, 0x07060504]⟩, [4, 5], .pool, 1, none, none, [], .D⟩;
       let m : BitVec 12 := 8;
       let o : Nat := 0;
       let ea : Nat := 4;
       let a : Nat := 0x270004;
       let h : Hub := (holdPkt 95 3 ⟨⟨130, .D, 3, 2, 5, 0, false, true, true, 9, 6, 7, [0x03020100, 0x07060504]⟩, [4, 5], .pool, 1, none, none, [], .D⟩ [(1, 4), (4, 0)]).withWord (.pcopyToMemory n d gd ga m);
       (h.canIssue n = true) ∧ (h.inCode n ((h.ctx n).pc + 1) = true) ∧ (copyBytesOk m.toNat = true)
       ∧ (ea = (h.gpr n ga).toNat) ∧ (o = (h.gpr n gd).toNat) ∧ (ea % 4 = 0) ∧ (ea < 0x10000)
       ∧ (h.inData n ea m.toNat = true) ∧ (a = dataBase (n / 12) + ea) ∧ (h.heldSound n d = some (x, s)) ∧ (o % 4 = 0)
       ∧ (o + m.toNat ≤ 4 * s.pkt.length) ∧ ((∀ i ∈ List.range m.toNat, h.writeHeld (a + i) = false))
       ∧ (h.spells n (.pcopyToMemory n d gd ga m)))
    ∧ (let n : Fin 96 := 95;
       let d : Fin 4 := 3;
       let gd : Fin 16 := 4;
       let ga : Fin 16 := 1;
       let x : Held := ⟨0, 28, 0, false, .pool⟩;
       let s : Stored := ⟨⟨130, .D, 3, 2, 5, 0, false, true, true, 9, 6, 7, [0x03020100, 0x07060504]⟩, [4, 5], .pool, 1, none, none, [], .D⟩;
       let w : BitVec 12 := 128;
       let h : Hub := (ctxWith 95 [] []).withWord (.pnew n d gd w); (h.canIssue n = true)
       ∧ (h.inCode n ((h.ctx n).pc + 1) = true) ∧ (w.toNat ≤ 128) ∧ ((h.ctx n).dd d = none)
       ∧ (h.roomFor (cellsOf w.toNat) = true) ∧ (h.spells n (.pnew n d gd w)))
    ∧ (let n : Fin 96 := 95;
       let d : Fin 4 := 3;
       let gd : Fin 16 := 4;
       let ga : Fin 16 := 1;
       let x : Held := ⟨0, 28, 0, false, .pool⟩;
       let s : Stored := ⟨⟨130, .D, 3, 2, 5, 0, false, true, true, 9, 6, 7, [0x03020100, 0x07060504]⟩, [4, 5], .pool, 1, none, none, [], .D⟩;
       let w : BitVec 12 := 1;
       let h : Hub := (ctxWith 95 [(R.FAB_STATUS_REBUILD, 1)] []).withWord (.pnew n d gd w); (h.canIssue n = true)
       ∧ (h.inCode n ((h.ctx n).pc + 1) = true) ∧ (w.toNat ≤ 128) ∧ ((h.ctx n).dd d = none)
       ∧ (h.roomFor (cellsOf w.toNat) = false) ∧ (h.spells n (.pnew n d gd w)))
    ∧ (let n : Fin 96 := 95;
       let d : Fin 4 := 3;
       let gd : Fin 16 := 4;
       let ga : Fin 16 := 1;
       let x : Held := ⟨0, 28, 0, false, .pool⟩;
       let s : Stored := ⟨⟨130, .D, 3, 2, 5, 0, false, true, true, 9, 6, 7, [0x03020100, 0x07060504]⟩, [4, 5], .pool, 1, none, none, [], .D⟩;
       let e : Fin 4 := 0;
       let o : Nat := 4;
       let h : Hub := (holdPkt 95 3 ⟨⟨130, .D, 3, 2, 5, 0, false, true, true, 9, 6, 7, [0x03020100, 0x07060504]⟩, [4, 5], .pool, 1, none, none, [], .D⟩ [(1, 4), (4, 0)]).withWord (.psplit n d gd ga e);
       (h.canIssue n = true) ∧ (h.inCode n ((h.ctx n).pc + 1) = true) ∧ (d ≠ e) ∧ (h.heldSound n d = some (x, s))
       ∧ ((h.ctx n).dd e = none) ∧ (o = (h.gpr n ga).toNat) ∧ (o % 4 = 0) ∧ (4 ≤ o) ∧ (o + 4 ≤ 4 * s.pkt.length)
       ∧ (h.roomFor (cellsOf (s.pkt.length - o / 4)) = true) ∧ (h.spells n (.psplit n d gd ga e)))
    ∧ (let n : Fin 96 := 95;
       let d : Fin 4 := 3;
       let gd : Fin 16 := 4;
       let ga : Fin 16 := 1;
       let x : Held := ⟨0, 28, 0, false, .pool⟩;
       let s : Stored := ⟨⟨130, .D, 3, 2, 5, 0, false, true, true, 9, 6, 7, [0x03020100, 0x07060504]⟩, [4, 5], .pool, 1, none, none, [], .D⟩;
       let e : Fin 4 := 0;
       let y : Held := ⟨1, 12, 2, false, .pool⟩;
       let t : Stored := ⟨Packet.blank 1, [6], .pool, 1, none, none, [], .P⟩;
       let h : Hub := ((holdPkt 95 3 s []).holdMore 95 0 1 t).withWord (.pjoin n d gd e); (h.canIssue n = true)
       ∧ (h.inCode n ((h.ctx n).pc + 1) = true) ∧ (d ≠ e) ∧ (h.heldSound n d = some (x, s))
       ∧ (h.heldSound n e = some (y, t)) ∧ (cellsOf (s.pkt.length + t.pkt.length) ≤ s.cells.length)
       ∧ (s.pkt.length + t.pkt.length ≤ 128) ∧ (h.spells n (.pjoin n d gd e)))
    ∧ (let n : Fin 96 := 95;
       let d : Fin 4 := 3;
       let gd : Fin 16 := 4;
       let ga : Fin 16 := 1;
       let x : Held := ⟨0, 28, 0, false, .pool⟩;
       let s : Stored := ⟨⟨130, .D, 3, 2, 5, 0, false, true, true, 9, 6, 7, [0x03020100, 0x07060504]⟩, [4, 5], .pool, 1, none, none, [], .D⟩;
       let e : Fin 4 := 0;
       let y : Held := ⟨1, 12, 2, false, .pool⟩;
       let t : Stored := ⟨Packet.blank 127, [6], .pool, 1, none, none, [], .P⟩;
       let h : Hub := ((holdPkt 95 3 s []).holdMore 95 0 1 t).withWord (.pjoin n d gd e); (h.canIssue n = true)
       ∧ (h.inCode n ((h.ctx n).pc + 1) = true) ∧ (d ≠ e) ∧ (h.heldSound n d = some (x, s))
       ∧ (h.heldSound n e = some (y, t)) ∧ (128 < s.pkt.length + t.pkt.length) ∧ (h.spells n (.pjoin n d gd e)))
    ∧ (let n : Fin 96 := 95;
       let d : Fin 4 := 3;
       let gd : Fin 16 := 4;
       let ga : Fin 16 := 1;
       let x : Held := ⟨0, 28, 0, false, .pool⟩;
       let s : Stored := ⟨⟨130, .D, 3, 2, 5, 0, false, true, true, 9, 6, 7, [0x03020100, 0x07060504]⟩, [4, 5], .pool, 1, none, none, [], .D⟩;
       let h : Hub := (holdPkt 95 3 ⟨⟨130, .D, 3, 2, 5, 0, false, true, true, 9, 6, 7, [0x03020100, 0x07060504]⟩, [4, 5], .pool, 1, none, none, [], .D⟩ [(1, 4), (4, 0)]).withWord (.psplit n d gd ga d);
       (h.canIssue n = true) ∧ (h.inCode n ((h.ctx n).pc + 1) = true) ∧ (h.spells n (.psplit n d gd ga d)))
    ∧ (let n : Fin 96 := 95;
       let d : Fin 4 := 3;
       let gd : Fin 16 := 4;
       let ga : Fin 16 := 1;
       let x : Held := ⟨0, 28, 0, false, .pool⟩;
       let s : Stored := ⟨⟨130, .D, 3, 2, 5, 0, false, true, true, 9, 6, 7, [0x03020100, 0x07060504]⟩, [4, 5], .pool, 1, none, none, [], .D⟩;
       let h : Hub := (holdPkt 95 3 ⟨⟨130, .D, 3, 2, 5, 0, false, true, true, 9, 6, 7, [0x03020100, 0x07060504]⟩, [4, 5], .pool, 1, none, none, [], .D⟩ [(1, 4), (4, 0)]).withWord (.pjoin n d gd d);
       (h.canIssue n = true) ∧ (h.inCode n ((h.ctx n).pc + 1) = true) ∧ (h.spells n (.pjoin n d gd d)))
    ∧ (let n : Fin 96 := 95;
       let d : Fin 4 := 3;
       let gd : Fin 16 := 4;
       let ga : Fin 16 := 1;
       let x : Held := ⟨0, 28, 0, false, .pool⟩;
       let s : Stored := ⟨⟨130, .D, 3, 2, 5, 0, false, true, true, 9, 6, 7, [0x03020100, 0x07060504]⟩, [4, 5], .pool, 1, none, none, [], .D⟩;
       let h : Hub := (holdPkt 95 3 ⟨⟨130, .D, 3, 2, 5, 0, false, true, true, 9, 6, 7, [0x03020100, 0x07060504]⟩, [4, 5], .pool, 1, none, none, [], .D⟩ [(1, 4), (4, 0)]).withWord (.pdrop n d);
       (h.canIssue n = true) ∧ (h.inCode n ((h.ctx n).pc + 1) = true) ∧ ((h.ctx n).dd d = some x)
       ∧ (h.spells n (.pdrop n d)))
    ∧ (let n : Fin 96 := 95;
       let d : Fin 4 := 3;
       let gd : Fin 16 := 4;
       let ga : Fin 16 := 1;
       let x : Held := ⟨0, 28, 0, false, .pool⟩;
       let s : Stored := ⟨⟨130, .D, 3, 2, 5, 0, false, true, true, 9, 6, 7, [0x03020100, 0x07060504]⟩, [4, 5], .pool, 1, none, none, [], .D⟩;
       let h : Hub := (ctxWith 95 [] []).withWord (.pdrop n d); (h.canIssue n = true)
       ∧ (h.inCode n ((h.ctx n).pc + 1) = true) ∧ ((h.ctx n).dd d = none) ∧ (h.spells n (.pdrop n d))) :=
  by and_intros <;> decide

/-- States and operands that meet the hypotheses of `Obligations.EmitAndQueueInstructions`. -/
theorem test_witness_EmitAndQueueInstructions :
    (let n : Fin 96 := 95;
     let d : Fin 4 := 3;
     let gd : Fin 16 := 4;
     let ga : Fin 16 := 1;
     let x : Held := ⟨0, 28, 0, false, .pool⟩;
     let s : Stored := ⟨⟨130, .D, 3, 2, 5, 0, false, true, true, 9, 6, 7, [0x03020100, 0x07060504]⟩, [4, 5], .pool, 1, none, none, [], .D⟩;
     let keep : Bool := true;
     let h : Hub := (holdPkt 95 3 s [(1, 4)]).withWord (.pemitFabric n d gd keep); (h.canIssue n = true)
     ∧ (h.inCode n ((h.ctx n).pc + 1) = true) ∧ (h.heldSound n d = some (x, s))
     ∧ (tidValid s.pkt.dest = false ∨ h.unroutable (h.emitPacket n x s.pkt) = true)
     ∧ (h.spells n (.pemitFabric n d gd keep)))
    ∧ (let n : Fin 96 := 95;
       let d : Fin 4 := 3;
       let gd : Fin 16 := 4;
       let ga : Fin 16 := 1;
       let x : Held := ⟨0, 28, 0, false, .pool⟩;
       let s : Stored := ⟨⟨130, .D, 3, 2, 5, 0, false, true, true, 9, 6, 7, [0x03020100, 0x07060504]⟩, [4, 5], .pool, 1, none, none, [], .D⟩;
       let keep : Bool := true;
       let h : Hub := ((holdPkt 95 3 s [(1, 4)]).withFields [(R.DEV_STATUS_ADDR, 1), (R.POL_CFG_EN 95, 1)]).withWord (.pemitFabric n d gd true);
       (h.canIssue n = true) ∧ (h.inCode n ((h.ctx n).pc + 1) = true) ∧ (h.heldSound n d = some (x, s))
       ∧ (tidValid s.pkt.dest = true) ∧ (h.unroutable (h.emitPacket n x s.pkt) = false)
       ∧ (h.polConforms n (16 + 4 * s.pkt.length) = false) ∧ (h.spells n (.pemitFabric n d gd true)))
    ∧ (let n : Fin 96 := 95;
       let d : Fin 4 := 3;
       let gd : Fin 16 := 4;
       let ga : Fin 16 := 1;
       let x : Held := ⟨0, 28, 0, false, .pool⟩;
       let s : Stored := ⟨⟨130, .D, 3, 2, 5, 0, false, true, true, 9, 6, 7, [0x03020100, 0x07060504]⟩, [4, 5], .pool, 1, none, none, [], .D⟩;
       let keep : Bool := true;
       let h : Hub := ((holdPkt 95 3 s [(1, 4)]).withFields [(R.DEV_STATUS_ADDR, 1), (R.POL_CFG_EN 95, 1)]).withWord (.pemitFabric n d gd false);
       (h.canIssue n = true) ∧ (h.inCode n ((h.ctx n).pc + 1) = true) ∧ (h.heldSound n d = some (x, s))
       ∧ (tidValid s.pkt.dest = true) ∧ (h.unroutable (h.emitPacket n x s.pkt) = false)
       ∧ (h.polConforms n (16 + 4 * s.pkt.length) = false) ∧ (h.spells n (.pemitFabric n d gd false)))
    ∧ (let n : Fin 96 := 95;
       let d : Fin 4 := 3;
       let gd : Fin 16 := 4;
       let ga : Fin 16 := 1;
       let x : Held := ⟨0, 28, 0, false, .pool⟩;
       let s : Stored := ⟨⟨130, .D, 3, 2, 5, 0, false, true, true, 9, 6, 7, [0x03020100, 0x07060504]⟩, [4, 5], .pool, 1, none, none, [], .D⟩;
       let keep : Bool := true;
       let h : Hub := ((holdPkt 95 3 s [(1, 4)]).withFields [(R.DEV_STATUS_ADDR, 1)]).withWord (.pemitFabric n d gd keep);
       let k : Hub := ((h.police n (16 + 4 * s.pkt.length)).1.emitRouted n d x s (h.emitPacket n x s.pkt)).1;
       (h.canIssue n = true) ∧ (h.inCode n ((h.ctx n).pc + 1) = true) ∧ (h.heldSound n d = some (x, s))
       ∧ (tidValid s.pkt.dest = true) ∧ (h.unroutable (h.emitPacket n x s.pkt) = false)
       ∧ (h.polConforms n (16 + 4 * s.pkt.length) = true) ∧ (k.ctxState n = cxRunning)
       ∧ (k.inCode n ((k.ctx n).pc + 1) = true)
       ∧ (((h.police n (16 + 4 * s.pkt.length)).1.emitRouted n d x s (h.emitPacket n x s.pkt)) = (k, true))
       ∧ (h.spells n (.pemitFabric n d gd keep)))
    ∧ (let n : Fin 96 := 95;
       let d : Fin 4 := 3;
       let gd : Fin 16 := 4;
       let ga : Fin 16 := 1;
       let x : Held := ⟨0, 28, 0, false, .pool⟩;
       let s : Stored := ⟨⟨223, .D, 3, 2, 5, 0, false, true, true, 9, 6, 7, [0x03020100, 0x07060504]⟩, [4, 5], .pool, 1, none, none, [], .D⟩;
       let keep : Bool := true;
       let h : Hub := ((holdPkt 95 3 s [(1, 4)]).withFields [(R.DEV_STATUS_ADDR, 1), (R.TUNC_BOUND_BINDING 95, 0x8A), (R.FAB_TLIM_LIM 95, 1)]).withWord (.pemitFabric n d gd true);
       let p : Packet := (h.emitPacket n x s.pkt);
       let b : Hub := (h.police n p.polBytes).1;
       let k : Hub := (b.ownTargets n p).1;
       let g : Hub := ((k.setStored x.pid { s with pkt := p, arr := none, orig := some n.val }).setDd n d none);
       let u : Target := ((b.ownTargets n p).2.headD ⟨0, 0, false, false, false⟩); (h.canIssue n = true)
       ∧ (h.inCode n ((h.ctx n).pc + 1) = true) ∧ (h.heldSound n d = some (x, s)) ∧ (p = h.emitPacket n x s.pkt)
       ∧ (tidValid p.dest = true) ∧ (h.unroutable p = false) ∧ (h.police n p.polBytes = (b, true))
       ∧ (b.holdOf (b.way p none) = none) ∧ (b.ownTargets n p = (k, [u]))
       ∧ (g = (k.setStored x.pid { s with pkt := p, arr := none, orig := some n.val }).setDd n d none)
       ∧ (g.queueLimit u.out u.q p.cls < g.queueCells u.out u.q + s.cells.length)
       ∧ (h.spells n (.pemitFabric n d gd true)))
    ∧ (let n : Fin 96 := 95;
       let d : Fin 4 := 3;
       let gd : Fin 16 := 4;
       let ga : Fin 16 := 1;
       let x : Held := ⟨0, 28, 0, false, .pool⟩;
       let s : Stored := ⟨⟨223, .D, 3, 2, 5, 0, false, true, true, 9, 6, 7, [0x03020100, 0x07060504]⟩, [4, 5], .pool, 1, none, none, [], .D⟩;
       let keep : Bool := true;
       let h : Hub := ((holdPkt 95 3 s [(1, 4)]).withFields [(R.DEV_STATUS_ADDR, 1), (R.TUNC_BOUND_BINDING 95, 0x8A), (R.FAB_TLIM_LIM 95, 1)]).withWord (.pemitFabric n d gd false);
       let p : Packet := (h.emitPacket n x s.pkt);
       let b : Hub := (h.police n p.polBytes).1;
       let k : Hub := (b.ownTargets n p).1;
       let g : Hub := ((k.setStored x.pid { s with pkt := p, arr := none, orig := some n.val }).setDd n d none);
       let u : Target := ((b.ownTargets n p).2.headD ⟨0, 0, false, false, false⟩); (h.canIssue n = true)
       ∧ (h.inCode n ((h.ctx n).pc + 1) = true) ∧ (h.heldSound n d = some (x, s)) ∧ (p = h.emitPacket n x s.pkt)
       ∧ (tidValid p.dest = true) ∧ (h.unroutable p = false) ∧ (h.police n p.polBytes = (b, true))
       ∧ (b.holdOf (b.way p none) = none) ∧ (b.ownTargets n p = (k, [u]))
       ∧ (g = (k.setStored x.pid { s with pkt := p, arr := none, orig := some n.val }).setDd n d none)
       ∧ (g.queueLimit u.out u.q p.cls < g.queueCells u.out u.q + s.cells.length)
       ∧ (h.spells n (.pemitFabric n d gd false)))
    ∧ (let n : Fin 96 := 95;
       let d : Fin 4 := 3;
       let gd : Fin 16 := 4;
       let ga : Fin 16 := 1;
       let x : Held := ⟨0, 28, 0, false, .pool⟩;
       let s : Stored := ⟨⟨223, .D, 3, 2, 5, 0, false, true, true, 9, 6, 7, [0x03020100, 0x07060504]⟩, [4, 5], .pool, 1, none, none, [], .D⟩;
       let keep : Bool := true;
       let h : Hub := ((holdPkt 95 3 s [(1, 4)]).withFields [(R.DEV_STATUS_ADDR, 1), (R.TUNC_BOUND_BINDING 95, 0x8A), (R.FAB_TLIM_LIM 95, 64), (R.FAB_OLIM_LIM 13 2, 0)]).withWord (.pemitFabric n d gd true);
       let p : Packet := (h.emitPacket n x s.pkt);
       let b : Hub := (h.police n p.polBytes).1;
       let k : Hub := (b.ownTargets n p).1;
       let g : Hub := ((k.setStored x.pid { s with pkt := p, arr := none, orig := some n.val }).setDd n d none);
       let u : Target := ((b.ownTargets n p).2.headD ⟨0, 0, false, false, false⟩); (h.canIssue n = true)
       ∧ (h.inCode n ((h.ctx n).pc + 1) = true) ∧ (h.heldSound n d = some (x, s)) ∧ (p = h.emitPacket n x s.pkt)
       ∧ (tidValid p.dest = true) ∧ (h.unroutable p = false) ∧ (h.police n p.polBytes = (b, true))
       ∧ (b.holdOf (b.way p none) = none) ∧ (b.ownTargets n p = (k, [u]))
       ∧ (g = (k.setStored x.pid { s with pkt := p, arr := none, orig := some n.val }).setDd n d none)
       ∧ (g.queueCells u.out u.q + s.cells.length ≤ g.queueLimit u.out u.q p.cls)
       ∧ (g.get (R.FAB_OLIM_LIM u.out p.cls.ix) < g.outUse u.out p.cls + s.cells.length)
       ∧ (h.spells n (.pemitFabric n d gd true)))
    ∧ (let n : Fin 96 := 95;
       let d : Fin 4 := 3;
       let gd : Fin 16 := 4;
       let ga : Fin 16 := 1;
       let x : Held := ⟨0, 28, 0, false, .pool⟩;
       let s : Stored := ⟨⟨223, .D, 3, 2, 5, 0, false, true, true, 9, 6, 7, [0x03020100, 0x07060504]⟩, [4, 5], .pool, 1, none, none, [], .D⟩;
       let keep : Bool := true;
       let h : Hub := ((holdPkt 95 3 s [(1, 4)]).withFields [(R.DEV_STATUS_ADDR, 1), (R.TUNC_BOUND_BINDING 95, 0x8A), (R.FAB_TLIM_LIM 95, 64), (R.FAB_OLIM_LIM 13 2, 0)]).withWord (.pemitFabric n d gd false);
       let p : Packet := (h.emitPacket n x s.pkt);
       let b : Hub := (h.police n p.polBytes).1;
       let k : Hub := (b.ownTargets n p).1;
       let g : Hub := ((k.setStored x.pid { s with pkt := p, arr := none, orig := some n.val }).setDd n d none);
       let u : Target := ((b.ownTargets n p).2.headD ⟨0, 0, false, false, false⟩); (h.canIssue n = true)
       ∧ (h.inCode n ((h.ctx n).pc + 1) = true) ∧ (h.heldSound n d = some (x, s)) ∧ (p = h.emitPacket n x s.pkt)
       ∧ (tidValid p.dest = true) ∧ (h.unroutable p = false) ∧ (h.police n p.polBytes = (b, true))
       ∧ (b.holdOf (b.way p none) = none) ∧ (b.ownTargets n p = (k, [u]))
       ∧ (g = (k.setStored x.pid { s with pkt := p, arr := none, orig := some n.val }).setDd n d none)
       ∧ (g.queueCells u.out u.q + s.cells.length ≤ g.queueLimit u.out u.q p.cls)
       ∧ (g.get (R.FAB_OLIM_LIM u.out p.cls.ix) < g.outUse u.out p.cls + s.cells.length)
       ∧ (h.spells n (.pemitFabric n d gd false)))
    ∧ (let n : Fin 96 := 95;
       let d : Fin 4 := 3;
       let gd : Fin 16 := 4;
       let ga : Fin 16 := 1;
       let x : Held := ⟨0, 28, 0, false, .pool⟩;
       let s : Stored := ⟨⟨130, .D, 3, 2, 5, 0, false, true, true, 9, 6, 7, [0x03020100, 0x07060504]⟩, [4, 5], .pool, 1, none, none, [], .D⟩;
       let keep : Bool := true;
       let h : Hub := ((holdPkt 95 3 s [(1, 4)]).withFields [(R.TUNC_BOUND_BINDING 95, 0x280)]).withWord (.pemitEndpoint n d gd true);
       (h.canIssue n = true) ∧ (h.inCode n ((h.ctx n).pc + 1) = true) ∧ (h.heldSound n d = some (x, s))
       ∧ (h.bindEnd n ≠ 0) ∧ (h.adpRoom n = false) ∧ (h.spells n (.pemitEndpoint n d gd true)))
    ∧ (let n : Fin 96 := 95;
       let d : Fin 4 := 3;
       let gd : Fin 16 := 4;
       let ga : Fin 16 := 1;
       let x : Held := ⟨0, 28, 0, false, .pool⟩;
       let s : Stored := ⟨⟨130, .D, 3, 2, 5, 0, false, true, true, 9, 6, 7, [0x03020100, 0x07060504]⟩, [4, 5], .pool, 1, none, none, [], .D⟩;
       let keep : Bool := true;
       let h : Hub := ((holdPkt 95 3 s [(1, 4)]).withFields [(R.TUNC_BOUND_BINDING 95, 0x280)]).withWord (.pemitEndpoint n d gd false);
       (h.canIssue n = true) ∧ (h.inCode n ((h.ctx n).pc + 1) = true) ∧ (h.heldSound n d = some (x, s))
       ∧ (h.bindEnd n ≠ 0) ∧ (h.adpRoom n = false) ∧ (h.spells n (.pemitEndpoint n d gd false)))
    ∧ (let n : Fin 96 := 95;
       let d : Fin 4 := 3;
       let gd : Fin 16 := 4;
       let ga : Fin 16 := 1;
       let x : Held := ⟨0, 28, 0, false, .pool⟩;
       let s : Stored := ⟨⟨130, .D, 3, 2, 5, 0, false, true, true, 9, 6, 7, [0x03020100, 0x07060504]⟩, [4, 5], .pool, 1, none, none, [], .D⟩;
       let keep : Bool := true;
       let h : Hub := ((holdPkt 95 3 s [(1, 4)]).withFields [(R.TUNC_BOUND_BINDING 95, 0x82)]).withWord (.pemitEndpoint n d gd keep);
       (h.canIssue n = true) ∧ (h.inCode n ((h.ctx n).pc + 1) = true) ∧ (h.heldSound n d = some (x, s))
       ∧ (h.bindEnd n ≠ 0) ∧ (h.adpRoom n = true) ∧ (h.spells n (.pemitEndpoint n d gd keep)))
    ∧ (let n : Fin 96 := 95;
       let d : Fin 4 := 3;
       let gd : Fin 16 := 4;
       let ga : Fin 16 := 1;
       let x : Held := ⟨0, 28, 0, false, .pool⟩;
       let s : Stored := ⟨⟨130, .D, 3, 2, 5, 0, false, true, true, 9, 6, 7, [0x03020100, 0x07060504]⟩, [4, 5], .pool, 1, none, none, [], .D⟩;
       let keep : Bool := true;
       let h : Hub := (holdPkt 95 3 s [(1, 4)]).withWord (.pemitEndpoint n d gd keep); (h.canIssue n = true)
       ∧ (h.inCode n ((h.ctx n).pc + 1) = true) ∧ (h.heldSound n d = some (x, s)) ∧ (h.bindEnd n = 0)
       ∧ (h.spells n (.pemitEndpoint n d gd keep)))
    ∧ (let n : Fin 96 := 95;
       let d : Fin 4 := 3;
       let gd : Fin 16 := 4;
       let ga : Fin 16 := 1;
       let x : Held := ⟨0, 28, 0, false, .pool⟩;
       let s : Stored := ⟨⟨130, .D, 3, 2, 5, 0, false, true, true, 9, 6, 7, [0x03020100, 0x07060504]⟩, [4, 5], .pool, 1, none, none, [], .D⟩;
       let keep : Bool := true;
       let h : Hub := (holdPkt 95 3 s [(1, 4)]).withWord (.qdepth n gd 0 0 0); (h.canIssue n = true)
       ∧ (h.inCode n ((h.ctx n).pc + 1) = true) ∧ (h.spells n (.qdepth n gd 0 0 0)))
    ∧ (let n : Fin 96 := 95;
       let d : Fin 4 := 3;
       let gd : Fin 16 := 4;
       let ga : Fin 16 := 1;
       let x : Held := ⟨0, 28, 0, false, .pool⟩;
       let s : Stored := ⟨⟨130, .D, 3, 2, 5, 0, false, true, true, 9, 6, 7, [0x03020100, 0x07060504]⟩, [4, 5], .pool, 1, none, none, [], .D⟩;
       let keep : Bool := true;
       let h : Hub := (holdPkt 95 3 s [(1, 4)]).withWord (.qdepth n gd 0 3 0); (h.canIssue n = true)
       ∧ (h.inCode n ((h.ctx n).pc + 1) = true) ∧ (h.spells n (.qdepth n gd 0 3 0)))
    ∧ (let n : Fin 96 := 95;
       let d : Fin 4 := 3;
       let gd : Fin 16 := 4;
       let ga : Fin 16 := 1;
       let x : Held := ⟨0, 28, 0, false, .pool⟩;
       let s : Stored := ⟨⟨130, .D, 3, 2, 5, 0, false, true, true, 9, 6, 7, [0x03020100, 0x07060504]⟩, [4, 5], .pool, 1, none, none, [], .D⟩;
       let keep : Bool := true;
       let o : Fin 4 := 2;
       let q : Nat := 4;
       let h : Hub := (holdPkt 95 3 s [(1, 4)]).withWord (.qdepth n gd ga 1 o); (h.canIssue n = true)
       ∧ (h.inCode n ((h.ctx n).pc + 1) = true) ∧ (o.val ≠ 3) ∧ (q = (h.gpr n ga).toNat % 2 ^ 14)
       ∧ (queueValid o q = true) ∧ (h.spells n (.qdepth n gd ga 1 o)))
    ∧ (let n : Fin 96 := 95;
       let d : Fin 4 := 3;
       let gd : Fin 16 := 4;
       let ga : Fin 16 := 1;
       let x : Held := ⟨0, 28, 0, false, .pool⟩;
       let s : Stored := ⟨⟨130, .D, 3, 2, 5, 0, false, true, true, 9, 6, 7, [0x03020100, 0x07060504]⟩, [4, 5], .pool, 1, none, none, [], .D⟩;
       let keep : Bool := true;
       let h : Hub := (ctxWith 95 [] []).withWord (.qdepth 95 gd ga 1 3); (h.canIssue n = true)
       ∧ (h.inCode n ((h.ctx n).pc + 1) = true) ∧ (h.fetched n = some (wordI 0x28 gd ga (1 * 2 ^ 16 + 3))))
    ∧ (let n : Fin 96 := 95;
       let d : Fin 4 := 3;
       let gd : Fin 16 := 4;
       let ga : Fin 16 := 1;
       let x : Held := ⟨0, 28, 0, false, .pool⟩;
       let s : Stored := ⟨⟨130, .D, 3, 2, 5, 0, false, true, true, 9, 6, 7, [0x03020100, 0x07060504]⟩, [4, 5], .pool, 1, none, none, [], .D⟩;
       let keep : Bool := true;
       let o : Fin 4 := 2;
       let q : Nat := 0x3F80;
       let h : Hub := (ctxWith 95 [] [(1, 0x3F80)]).withWord (.qdepth n gd ga 1 o); (h.canIssue n = true)
       ∧ (h.inCode n ((h.ctx n).pc + 1) = true) ∧ (q = (h.gpr n ga).toNat % 2 ^ 14) ∧ (queueValid o q = false)
       ∧ (h.spells n (.qdepth n gd ga 1 o)))
    ∧ (let n : Fin 96 := 95;
       let d : Fin 4 := 3;
       let gd : Fin 16 := 4;
       let ga : Fin 16 := 1;
       let x : Held := ⟨0, 28, 0, false, .pool⟩;
       let s : Stored := ⟨⟨130, .D, 3, 2, 5, 0, false, true, true, 9, 6, 7, [0x03020100, 0x07060504]⟩, [4, 5], .pool, 1, none, none, [], .D⟩;
       let keep : Bool := true;
       let h : Hub := (ctxWith 95 [] []).withWord (.qdepth n gd 0 2 0); (h.canIssue n = true)
       ∧ (h.inCode n ((h.ctx n).pc + 1) = true) ∧ ((h.queue 13 n).items = []) ∧ (h.spells n (.qdepth n gd 0 2 0)))
    ∧ (let n : Fin 96 := 95;
       let d : Fin 4 := 3;
       let gd : Fin 16 := 4;
       let ga : Fin 16 := 1;
       let x : Held := ⟨0, 28, 0, false, .pool⟩;
       let s : Stored := ⟨⟨130, .D, 3, 2, 5, 0, false, true, true, 9, 6, 7, [0x03020100, 0x07060504]⟩, [4, 5], .pool, 1, none, none, [], .D⟩;
       let keep : Bool := true;
       let h : Hub := ((ctxWith 95 [] []).queuePkt 95 s).withWord (.qdepth n gd 0 2 0); (h.canIssue n = true)
       ∧ (h.inCode n ((h.ctx n).pc + 1) = true) ∧ ((h.queue 13 n).items ≠ []) ∧ (h.spells n (.qdepth n gd 0 2 0)))
    ∧ (let n : Fin 96 := 95;
       let d : Fin 4 := 3;
       let gd : Fin 16 := 4;
       let ga : Fin 16 := 1;
       let x : Held := ⟨0, 28, 0, false, .pool⟩;
       let s : Stored := ⟨⟨130, .D, 3, 2, 5, 0, false, true, true, 9, 6, 7, [0x03020100, 0x07060504]⟩, [4, 5], .pool, 1, none, none, [], .D⟩;
       let keep : Bool := true;
       let h : Hub := ((holdPkt 95 3 s [(1, 0x40DF)]).withFields [(R.DEV_STATUS_ADDR, 1)]).withWord (.sparge n gd ga);
       (h.canIssue n = true) ∧ (h.inCode n ((h.ctx n).pc + 1) = true) ∧ ((h.gpr n ga).toNat % 2 ^ 14 = h.spargeTid n)
       ∧ (h.on R.FAB_SPARGE_BUSY = false) ∧ (h.spells n (.sparge n gd ga)))
    ∧ (let n : Fin 96 := 95;
       let d : Fin 4 := 3;
       let gd : Fin 16 := 4;
       let ga : Fin 16 := 1;
       let x : Held := ⟨0, 28, 0, false, .pool⟩;
       let s : Stored := ⟨⟨130, .D, 3, 2, 5, 0, false, true, true, 9, 6, 7, [0x03020100, 0x07060504]⟩, [4, 5], .pool, 1, none, none, [], .D⟩;
       let keep : Bool := true;
       let h : Hub := ((holdPkt 95 3 s [(1, 0x40DF)]).withFields [(R.DEV_STATUS_ADDR, 1), (R.FAB_SPARGE_BUSY, 1)]).withWord (.sparge n gd ga);
       (h.canIssue n = true) ∧ (h.inCode n ((h.ctx n).pc + 1) = true) ∧ ((h.gpr n ga).toNat % 2 ^ 14 = h.spargeTid n)
       ∧ (h.on R.FAB_SPARGE_BUSY = true) ∧ (h.spells n (.sparge n gd ga)))
    ∧ (let n : Fin 96 := 95;
       let d : Fin 4 := 3;
       let gd : Fin 16 := 4;
       let ga : Fin 16 := 1;
       let x : Held := ⟨0, 28, 0, false, .pool⟩;
       let s : Stored := ⟨⟨130, .D, 3, 2, 5, 0, false, true, true, 9, 6, 7, [0x03020100, 0x07060504]⟩, [4, 5], .pool, 1, none, none, [], .D⟩;
       let keep : Bool := true;
       let u : Bool := false;
       let v : Bool := false;
       let tid : Nat := 0x84;
       let h : Hub := ((holdPkt 95 3 s [(1, 0x84)]).withFields [(R.DEV_STATUS_ADDR, 1), (R.ACC_SLOT_VALID 10, 1), (R.ACC_SLOT_PERM 10, 0x3FFFF)]).withWord (.sparge n gd ga);
       (h.canIssue n = true) ∧ (h.inCode n ((h.ctx n).pc + 1) = true) ∧ (tid = (h.gpr n ga).toNat % 2 ^ 14)
       ∧ (tid ≠ h.spargeTid n) ∧ (h.decide_ 2 .write A.FAB_SPARGE = .ok u v) ∧ (h.on R.FAB_SPARGE_BUSY = false)
       ∧ (h.spells n (.sparge n gd ga)))
    ∧ (let n : Fin 96 := 95;
       let d : Fin 4 := 3;
       let gd : Fin 16 := 4;
       let ga : Fin 16 := 1;
       let x : Held := ⟨0, 28, 0, false, .pool⟩;
       let s : Stored := ⟨⟨130, .D, 3, 2, 5, 0, false, true, true, 9, 6, 7, [0x03020100, 0x07060504]⟩, [4, 5], .pool, 1, none, none, [], .D⟩;
       let keep : Bool := true;
       let info : Nat := 42;
       let tid : Nat := 0x84;
       let h : Hub := (holdPkt 95 3 s [(1, 0x84)]).withWord (.sparge n gd ga); (h.canIssue n = true)
       ∧ (h.inCode n ((h.ctx n).pc + 1) = true) ∧ (tid = (h.gpr n ga).toNat % 2 ^ 14) ∧ (tid ≠ h.spargeTid n)
       ∧ (h.decide_ 2 .write A.FAB_SPARGE = .refused info) ∧ (h.spells n (.sparge n gd ga))) :=
  by and_intros <;> decide

/-- States and operands that meet the hypotheses of `Obligations.EventAndTimeInstructions`. -/
theorem test_witness_EventAndTimeInstructions :
    (let n : Fin 96 := 95;
     let gd : Fin 16 := 4;
     let ga : Fin 16 := 1;
     let m : BitVec 9 := 0x1FF;
     let ev : Nat := 0x10;
     let h : Hub := ((ctxWith 95 [] []).latchEvent 4 95).withWord (.wait n gd m); (h.awake = true)
     ∧ (h.inCode n ((h.ctx n).pc + 1) = true) ∧ (h.canIssue n = true) ∧ (ev = Nat.land (h.eventBits n) m.toNat) ∧ (ev ≠ 0)
     ∧ (h.spells n (.wait n gd m)))
    ∧ (let n : Fin 96 := 95;
       let gd : Fin 16 := 4;
       let ga : Fin 16 := 1;
       let m : BitVec 9 := 8;
       let h : Hub := (ctxWith 95 [] [(1, 0x80000001)]).withWord (.wait n gd m); (h.awake = true)
       ∧ (h.inCode n ((h.ctx n).pc + 1) = true) ∧ (h.canIssue n = true) ∧ (m ≠ 0) ∧ (Nat.land (h.eventBits n) m.toNat = 0)
       ∧ (h.spells n (.wait n gd m)))
    ∧ (let n : Fin 96 := 95;
       let gd : Fin 16 := 4;
       let ga : Fin 16 := 1;
       let h : Hub := (ctxWith 95 [] []).withWord (.wait 95 gd 0); (h.awake = true)
       ∧ (h.inCode n ((h.ctx n).pc + 1) = true) ∧ (h.canIssue n = true) ∧ (h.fetched n = some (wordI 0x30 gd 0 0)))
    ∧ (let n : Fin 96 := 95;
       let gd : Fin 16 := 4;
       let ga : Fin 16 := 1;
       let ev : Nat := 0x10;
       let h : Hub := ((ctxWith 95 [(R.TUNC_CTX_STATUS_STATE 95, 3)] []).setCtx 95 { Ctx.empty with pc := 3, mask := 0x18, waitGd := 5 }).latchEvent 4 95;
       (h.awake = true) ∧ (h.inCode n ((h.ctx n).pc + 1) = true) ∧ (h.ctxState n = cxWaiting)
       ∧ (ev = Nat.land (h.eventBits n) (h.ctx n).mask) ∧ (ev ≠ 0))
    ∧ (let n : Fin 96 := 95;
       let gd : Fin 16 := 4;
       let ga : Fin 16 := 1;
       let h : Hub := ctxWith 95 [(R.TUNC_CTX_STATUS_STATE 95, 3)] []; (h.awake = true)
       ∧ (h.inCode n ((h.ctx n).pc + 1) = true) ∧ (h.ctxState n = cxWaiting)
       ∧ (Nat.land (h.eventBits n) (h.ctx n).mask = 0))
    ∧ (let n : Fin 96 := 95;
       let gd : Fin 16 := 4;
       let ga : Fin 16 := 1;
       let h : Hub := (ctxWith 95 [] [(1, 0x80000001)]).withWord (.tnowSample n gd); (h.awake = true)
       ∧ (h.inCode n ((h.ctx n).pc + 1) = true) ∧ (h.canIssue n = true) ∧ (h.spells n (.tnowSample n gd)))
    ∧ (let n : Fin 96 := 95;
       let gd : Fin 16 := 4;
       let ga : Fin 16 := 1;
       let x : Sample := ⟨2 ^ 33, 5, 3, true⟩;
       let h : Hub := ((ctxWith 95 [] []).setCtx 95 { Ctx.empty with sample := some ⟨2 ^ 33, 5, 3, true⟩ }).withWord (.tnowPart n gd 1);
       (h.awake = true) ∧ (h.inCode n ((h.ctx n).pc + 1) = true) ∧ (h.canIssue n = true) ∧ ((h.ctx n).sample = some x)
       ∧ (h.spells n (.tnowPart n gd 1)))
    ∧ (let n : Fin 96 := 95;
       let gd : Fin 16 := 4;
       let ga : Fin 16 := 1;
       let x : Sample := ⟨2 ^ 33, 5, 3, true⟩;
       let h : Hub := ((ctxWith 95 [] []).setCtx 95 { Ctx.empty with sample := some ⟨2 ^ 33, 5, 3, true⟩ }).withWord (.tnowPart n gd 2);
       (h.awake = true) ∧ (h.inCode n ((h.ctx n).pc + 1) = true) ∧ (h.canIssue n = true) ∧ ((h.ctx n).sample = some x)
       ∧ (h.spells n (.tnowPart n gd 2)))
    ∧ (let n : Fin 96 := 95;
       let gd : Fin 16 := 4;
       let ga : Fin 16 := 1;
       let part : BitVec 18 := 3;
       let h : Hub := (ctxWith 95 [] []).withWord (.tnowPart 95 gd part); (h.awake = true)
       ∧ (h.inCode n ((h.ctx n).pc + 1) = true) ∧ (h.canIssue n = true) ∧ (2 < part.toNat)
       ∧ (h.fetched n = some (wordI 0x31 gd 0 part.toNat)))
    ∧ (let n : Fin 96 := 95;
       let gd : Fin 16 := 4;
       let ga : Fin 16 := 1;
       let h : Hub := (ctxWith 95 [] [(1, 0x80000001)]).withWord (.tstamp n gd ga 0);
       let age : Nat := (h.now + 2 ^ 32 - (h.gpr n ga).toNat) % 2 ^ 32; (h.awake = true)
       ∧ (h.inCode n ((h.ctx n).pc + 1) = true) ∧ (h.canIssue n = true)
       ∧ (age = (h.now + 2 ^ 32 - (h.gpr n ga).toNat) % 2 ^ 32) ∧ (h.spells n (.tstamp n gd ga 0)))
    ∧ (let n : Fin 96 := 95;
       let gd : Fin 16 := 4;
       let ga : Fin 16 := 1;
       let age : Nat := 0;
       let h : Hub := (ctxWith 95 [] []).withWord (.tstamp n gd ga 1); (h.awake = true)
       ∧ (h.inCode n ((h.ctx n).pc + 1) = true) ∧ (h.canIssue n = true)
       ∧ (age = (h.now + 2 ^ 32 - (h.gpr n ga).toNat) % 2 ^ 32) ∧ (age ≤ h.now) ∧ (h.now < 2 ^ 64)
       ∧ (h.spells n (.tstamp n gd ga 1)))
    ∧ (let n : Fin 96 := 95;
       let gd : Fin 16 := 4;
       let ga : Fin 16 := 1;
       let k : Nat := 2 ^ 31 - 1;
       let h : Hub := (ctxWith 95 [] [(1, 0x7FFFFFFF)]).withWord (.tarmAt n gd ga); (h.awake = true)
       ∧ (h.inCode n ((h.ctx n).pc + 1) = true) ∧ (h.canIssue n = true) ∧ (1 ≤ k) ∧ (k < 2 ^ 31)
       ∧ ((h.gpr n ga).toNat = (h.now + k) % 2 ^ 32) ∧ (h.spells n (.tarmAt n gd ga)))
    ∧ (let n : Fin 96 := 95;
       let gd : Fin 16 := 4;
       let ga : Fin 16 := 1;
       let k : Nat := 2 ^ 31;
       let h : Hub := (ctxWith 95 [] [(1, 0x80000000)]).withWord (.tarmAt n gd ga); (h.awake = true)
       ∧ (h.inCode n ((h.ctx n).pc + 1) = true) ∧ (h.canIssue n = true) ∧ (k < 2 ^ 32) ∧ (k = 0 ∨ 2 ^ 31 ≤ k)
       ∧ ((h.gpr n ga).toNat = (h.now + k) % 2 ^ 32) ∧ (h.spells n (.tarmAt n gd ga)))
    ∧ (let n : Fin 96 := 95;
       let gd : Fin 16 := 4;
       let ga : Fin 16 := 1;
       let k : Nat := 2 ^ 31 - 1;
       let h : Hub := (ctxWith 95 [] [(1, 0x7FFFFFFF)]).withWord (.tarmAfter n gd ga); (h.awake = true)
       ∧ (h.inCode n ((h.ctx n).pc + 1) = true) ∧ (h.canIssue n = true) ∧ (k = (h.gpr n ga).toNat) ∧ (1 ≤ k)
       ∧ (k < 2 ^ 31) ∧ (h.spells n (.tarmAfter n gd ga)))
    ∧ (let n : Fin 96 := 95;
       let gd : Fin 16 := 4;
       let ga : Fin 16 := 1;
       let k : Nat := 0x80000001;
       let h : Hub := (ctxWith 95 [] [(1, 0x80000001)]).withWord (.tarmAfter n gd ga); (h.awake = true)
       ∧ (h.inCode n ((h.ctx n).pc + 1) = true) ∧ (h.canIssue n = true) ∧ (k = (h.gpr n ga).toNat) ∧ (k = 0 ∨ 2 ^ 31 ≤ k)
       ∧ (h.spells n (.tarmAfter n gd ga)))
    ∧ (let n : Fin 96 := 95;
       let gd : Fin 16 := 4;
       let ga : Fin 16 := 1;
       let h : Hub := (ctxWith 95 [] [(1, 0x80000001)]).withWord (.tarmCancel n gd); (h.awake = true)
       ∧ (h.inCode n ((h.ctx n).pc + 1) = true) ∧ (h.canIssue n = true) ∧ (h.spells n (.tarmCancel n gd)))
    ∧ (let n : Fin 96 := 95;
       let gd : Fin 16 := 4;
       let ga : Fin 16 := 1;
       let k : Nat := 7;
       let h : Hub := (ctxWith 95 [] []).setTimer 95 (some 7); (h.awake = true) ∧ (h.inCode n ((h.ctx n).pc + 1) = true)
       ∧ ((h.ctx n).timer = some k)) :=
  by and_intros <;> decide

/-- States and operands that meet the hypotheses of `Obligations.OutputAndGrantInstructions`. -/
theorem test_witness_OutputAndGrantInstructions :
    (let n : Fin 96 := 95;
     let gd : Fin 16 := 4;
     let ga : Fin 16 := 1;
     let o : Fin 8 := 7;
     let ea : Nat := 64;
     let h : Hub := (ctxWith 95 [] [(1, 64)]).withWord (.tarmOutput n gd ga o); (h.awake = true)
     ∧ (h.inCode n ((h.ctx n).pc + 1) = true) ∧ (ea = (h.gpr n ga).toNat) ∧ (h.canIssue n = true)
     ∧ (h.blockOk n ea 24 = true) ∧ (h.ownsOutput n o = false) ∧ (h.spells n (.tarmOutput n gd ga o)))
    ∧ (let n : Fin 96 := 95;
       let gd : Fin 16 := 4;
       let ga : Fin 16 := 1;
       let o : Fin 8 := 7;
       let ea : Nat := 64;
       let r : Word := 0;
       let h : Hub := ((ctxWith 95 [(R.TUNC_BOUND_BINDING 95, 0x2B2), (R.TIME_EVO_CTRL_TUN_OWN 7, 1)] [(1, 64)]).mstore 0x270040 [0, 1, 0, 0, 0, 0, 0, 0, 0, 0, 0, 0, 1, 0, 0, 0, 8, 0, 0, 0, 1, 0, 0, 0]).withWord (.tarmOutput n gd ga o);
       let k : Hub := (h.armOutput 7 (h.blockAt 95 64 24)).1; (h.awake = true) ∧ (h.inCode n ((h.ctx n).pc + 1) = true)
       ∧ (ea = (h.gpr n ga).toNat) ∧ (h.canIssue n = true) ∧ (h.blockOk n ea 24 = true) ∧ (h.ownsOutput n o = true)
       ∧ (h.armOutput o (h.blockAt n ea 24) = (k, r)) ∧ (h.spells n (.tarmOutput n gd ga o)))
    ∧ (let n : Fin 96 := 95;
       let gd : Fin 16 := 4;
       let ga : Fin 16 := 1;
       let o : Fin 8 := 7;
       let ea : Nat := 64;
       let b : List Word := [256, 0, 0, 1, 8, 1];
       let h : Hub := ctxWith 95 [(R.TUNC_BOUND_BINDING 95, 0x2B2), (R.TIME_EVO_CTRL_TUN_OWN 7, 1)] [(1, 64)];
       let k : Hub := (h.armOutput 7 [256, 0, 0, 1, 8, 1]).1; (h.awake = true) ∧ (h.inCode n ((h.ctx n).pc + 1) = true)
       ∧ (ea = (h.gpr n ga).toNat) ∧ (h.armOutput o b = (k, 0#32)) ∧ (b.length = 6))
    ∧ (let n : Fin 96 := 95;
       let gd : Fin 16 := 4;
       let ga : Fin 16 := 1;
       let o : Fin 8 := 7;
       let ea : Nat := 64;
       let b : List Word := [256, 0, 0, 0, 8, 1];
       let h : Hub := ctxWith 95 [(R.TUNC_BOUND_BINDING 95, 0x2B2), (R.TIME_EVO_CTRL_TUN_OWN 7, 1)] [(1, 64)];
       let k : Hub := (h.armOutput 7 [256, 0, 0, 0, 8, 1]).1;
       let r : Word := (h.armOutput 7 [256, 0, 0, 0, 8, 1]).2; (h.awake = true) ∧ (h.inCode n ((h.ctx n).pc + 1) = true)
       ∧ (ea = (h.gpr n ga).toNat) ∧ (h.armOutput o b = (k, r)))
    ∧ (let n : Fin 96 := 95;
       let gd : Fin 16 := 4;
       let ga : Fin 16 := 1;
       let o : Fin 8 := 7;
       let ea : Nat := 64;
       let act : Bool := true;
       let h : Hub := (ctxWith 95 [] [(1, 64)]).withWord (.outat n gd ga o act); (h.awake = true)
       ∧ (h.inCode n ((h.ctx n).pc + 1) = true) ∧ (ea = (h.gpr n ga).toNat) ∧ (h.canIssue n = true)
       ∧ (h.ownsOutput n o = false) ∧ (h.spells n (.outat n gd ga o act)))
    ∧ (let n : Fin 96 := 95;
       let gd : Fin 16 := 4;
       let ga : Fin 16 := 1;
       let o : Fin 8 := 7;
       let ea : Nat := 64;
       let act : Bool := true;
       let h : Hub := (ctxWith 95 [] [(1, 64)]).withWord (.outatCancel n gd o); (h.awake = true)
       ∧ (h.inCode n ((h.ctx n).pc + 1) = true) ∧ (ea = (h.gpr n ga).toNat) ∧ (h.canIssue n = true)
       ∧ (h.ownsOutput n o = false) ∧ (h.spells n (.outatCancel n gd o)))
    ∧ (let n : Fin 96 := 95;
       let gd : Fin 16 := 4;
       let ga : Fin 16 := 1;
       let o : Fin 8 := 7;
       let ea : Nat := 64;
       let act : Bool := true;
       let k : Nat := 64;
       let h : Hub := (ctxWith 95 [(R.TUNC_BOUND_BINDING 95, 0x2B2), (R.TIME_EVO_CTRL_TUN_OWN 7, 1)] [(1, 64)]).withWord (.outat n gd ga o act);
       (h.awake = true) ∧ (h.inCode n ((h.ctx n).pc + 1) = true) ∧ (ea = (h.gpr n ga).toNat) ∧ (h.canIssue n = true)
       ∧ (h.ownsOutput n o = true) ∧ (64 ≤ k) ∧ (k < 2 ^ 31) ∧ (ea = (h.now + k) % 2 ^ 32) ∧ ((h.evo o).sched = none)
       ∧ ((h.evo o).queue = []) ∧ (h.spells n (.outat n gd ga o act)))
    ∧ (let n : Fin 96 := 95;
       let gd : Fin 16 := 4;
       let ga : Fin 16 := 1;
       let o : Fin 8 := 7;
       let ea : Nat := 64;
       let act : Bool := false;
       let k : Nat := 64;
       let h : Hub := ((ctxWith 95 [(R.TUNC_BOUND_BINDING 95, 0x2B2), (R.TIME_EVO_CTRL_TUN_OWN 7, 1)] [(1, 64)]).setEvo 7 { Evo.idle with queue := [⟨70, true⟩] }).withWord (.outat n gd ga o act);
       (h.awake = true) ∧ (h.inCode n ((h.ctx n).pc + 1) = true) ∧ (ea = (h.gpr n ga).toNat) ∧ (h.canIssue n = true)
       ∧ (h.ownsOutput n o = true) ∧ (64 ≤ k) ∧ (k < 2 ^ 31) ∧ (ea = (h.now + k) % 2 ^ 32) ∧ ((h.evo o).sched = none)
       ∧ ((queueTrans (h.evo o).queue ⟨h.now + k, act⟩).length ≤ 2) ∧ (h.spells n (.outat n gd ga o act)))
    ∧ (let n : Fin 96 := 95;
       let gd : Fin 16 := 4;
       let ga : Fin 16 := 1;
       let o : Fin 8 := 7;
       let ea : Nat := 64;
       let act : Bool := true;
       let k : Nat := 64;
       let sc : EvoSched := ⟨100, 8, 1, 1, true, 0⟩;
       let h : Hub := ((ctxWith 95 [(R.TUNC_BOUND_BINDING 95, 0x2B2), (R.TIME_EVO_CTRL_TUN_OWN 7, 1)] [(1, 64)]).setEvo 7 { Evo.idle with sched := some ⟨100, 8, 1, 1, true, 0⟩ }).withWord (.outat n gd ga o act);
       (h.awake = true) ∧ (h.inCode n ((h.ctx n).pc + 1) = true) ∧ (ea = (h.gpr n ga).toNat) ∧ (h.canIssue n = true)
       ∧ (h.ownsOutput n o = true) ∧ (64 ≤ k) ∧ (k < 2 ^ 31) ∧ (ea = (h.now + k) % 2 ^ 32) ∧ ((h.evo o).sched = some sc)
       ∧ (h.spells n (.outat n gd ga o act)))
    ∧ (let n : Fin 96 := 95;
       let gd : Fin 16 := 4;
       let ga : Fin 16 := 1;
       let o : Fin 8 := 7;
       let ea : Nat := 64;
       let act : Bool := true;
       let k : Nat := 64;
       let t : Trans := ⟨5, true⟩;
       let u : Trans := ⟨70, false⟩;
       let h : Hub := ((ctxWith 95 [(R.TUNC_BOUND_BINDING 95, 0x2B2), (R.TIME_EVO_CTRL_TUN_OWN 7, 1)] [(1, 64)]).setEvo 7 { Evo.idle with queue := [⟨5, true⟩, ⟨70, false⟩] }).withWord (.outat n gd ga o act);
       (h.awake = true) ∧ (h.inCode n ((h.ctx n).pc + 1) = true) ∧ (ea = (h.gpr n ga).toNat) ∧ (h.canIssue n = true)
       ∧ (h.ownsOutput n o = true) ∧ (64 ≤ k) ∧ (k < 2 ^ 31) ∧ (ea = (h.now + k) % 2 ^ 32) ∧ ((h.evo o).sched = none)
       ∧ ((h.evo o).queue = [t, u]) ∧ (t.at_ ≠ h.now + k) ∧ (u.at_ ≠ h.now + k) ∧ (h.spells n (.outat n gd ga o act)))
    ∧ (let n : Fin 96 := 95;
       let gd : Fin 16 := 4;
       let ga : Fin 16 := 1;
       let o : Fin 8 := 7;
       let ea : Nat := 63;
       let act : Bool := true;
       let k : Nat := 63;
       let h : Hub := (ctxWith 95 [(R.TUNC_BOUND_BINDING 95, 0x2B2), (R.TIME_EVO_CTRL_TUN_OWN 7, 1)] [(1, 63)]).withWord (.outat n gd ga o act);
       (h.awake = true) ∧ (h.inCode n ((h.ctx n).pc + 1) = true) ∧ (ea = (h.gpr n ga).toNat) ∧ (h.canIssue n = true)
       ∧ (h.ownsOutput n o = true) ∧ (k < 2 ^ 32) ∧ (k < 64 ∨ 2 ^ 31 ≤ k) ∧ (ea = (h.now + k) % 2 ^ 32)
       ∧ (h.spells n (.outat n gd ga o act)))
    ∧ (let n : Fin 96 := 95;
       let gd : Fin 16 := 4;
       let ga : Fin 16 := 1;
       let o : Fin 8 := 7;
       let ea : Nat := 64;
       let h : Hub := (ctxWith 95 [(R.TUNC_BOUND_BINDING 95, 0x2B2), (R.TIME_EVO_CTRL_TUN_OWN 7, 1)] [(1, 64)]).withWord (.outatCancel n gd o);
       (h.awake = true) ∧ (h.inCode n ((h.ctx n).pc + 1) = true) ∧ (ea = (h.gpr n ga).toNat) ∧ (h.canIssue n = true)
       ∧ (h.ownsOutput n o = true) ∧ (h.spells n (.outatCancel n gd o)))
    ∧ (let n : Fin 96 := 95;
       let gd : Fin 16 := 4;
       let ga : Fin 16 := 1;
       let o : Fin 8 := 7;
       let ea : Nat := 64;
       let t : Trans := ⟨5, true⟩;
       let ts : List Trans := [];
       let h : Hub := (ctxWith 95 [] [(1, 64)]).setEvo 7 { Evo.idle with queue := [⟨5, true⟩] }; (h.awake = true)
       ∧ (h.inCode n ((h.ctx n).pc + 1) = true) ∧ (ea = (h.gpr n ga).toNat) ∧ ((h.evo o).queue = t :: ts)
       ∧ (h.gated o = false))
    ∧ (let n : Fin 96 := 95;
       let gd : Fin 16 := 4;
       let ga : Fin 16 := 1;
       let o : Fin 8 := 7;
       let ea : Nat := 64;
       let t : Trans := ⟨5, true⟩;
       let ts : List Trans := [];
       let h : Hub := (ctxWith 95 [(R.TIME_EVO_CTRL_QUAL_GATE 7, 1), (R.TIME_STATUS_QUALITY, 2)] [(1, 64)]).setEvo 7 { Evo.idle with queue := [⟨5, true⟩] };
       (h.awake = true) ∧ (h.inCode n ((h.ctx n).pc + 1) = true) ∧ (ea = (h.gpr n ga).toNat) ∧ ((h.evo o).queue = t :: ts)
       ∧ (h.gated o = true))
    ∧ (let n : Fin 96 := 95;
       let gd : Fin 16 := 4;
       let ga : Fin 16 := 1;
       let o : Fin 8 := 7;
       let ea : Nat := 64;
       let s : Fin 4 := 3;
       let e : Fin 128 := 127;
       let c : Bool := false;
       let r : Bool := false;
       let b : Nat := 1;
       let h : Hub := (ctxWith 95 [(⟨A.ACC_SLOT 12, 0, 31⟩, 0x4003FFFF)] [(1, 64)]).withWord (.gstage n gd ga s e);
       (h.awake = true) ∧ (h.inCode n ((h.ctx n).pc + 1) = true) ∧ (ea = (h.gpr n ga).toNat) ∧ (h.canIssue n = true)
       ∧ (b = 1 - h.get R.SCH_STATUS_ACTIVE_BANK) ∧ (h.decide_ 2 .write (A.SCH_GRANT s b e) = .ok c r)
       ∧ (h.on R.SCH_STATUS_ARMED = false) ∧ (h.spells n (.gstage n gd ga s e)))
    ∧ (let n : Fin 96 := 95;
       let gd : Fin 16 := 4;
       let ga : Fin 16 := 1;
       let o : Fin 8 := 7;
       let ea : Nat := 64;
       let s : Fin 4 := 3;
       let e : Fin 128 := 127;
       let c : Bool := false;
       let r : Bool := false;
       let b : Nat := 1;
       let h : Hub := (ctxWith 95 [(⟨A.ACC_SLOT 12, 0, 31⟩, 0x4003FFFF), (R.SCH_STATUS_ARMED, 1)] [(1, 64)]).withWord (.gstage n gd ga s e);
       (h.awake = true) ∧ (h.inCode n ((h.ctx n).pc + 1) = true) ∧ (ea = (h.gpr n ga).toNat) ∧ (h.canIssue n = true)
       ∧ (b = 1 - h.get R.SCH_STATUS_ACTIVE_BANK) ∧ (h.decide_ 2 .write (A.SCH_GRANT s b e) = .ok c r)
       ∧ (h.on R.SCH_STATUS_ARMED = true) ∧ (h.spells n (.gstage n gd ga s e)))
    ∧ (let n : Fin 96 := 95;
       let gd : Fin 16 := 4;
       let ga : Fin 16 := 1;
       let o : Fin 8 := 7;
       let ea : Nat := 64;
       let c : Bool := false;
       let r : Bool := false;
       let h : Hub := (ctxWith 95 [(⟨A.ACC_SLOT 12, 0, 31⟩, 0x4003FFFF), (R.SCH_STATUS_ARMED, 1)] [(1, 64)]).withWord (.garmDisarm n gd);
       (h.awake = true) ∧ (h.inCode n ((h.ctx n).pc + 1) = true) ∧ (ea = (h.gpr n ga).toNat) ∧ (h.canIssue n = true)
       ∧ (h.decide_ 2 .write A.SCH_CTRL = .ok c r) ∧ (h.spells n (.garmDisarm n gd)))
    ∧ (let n : Fin 96 := 95;
       let gd : Fin 16 := 4;
       let ga : Fin 16 := 1;
       let o : Fin 8 := 7;
       let ea : Nat := 64;
       let c : Bool := false;
       let r : Bool := false;
       let b : List Word := [0, 0, 0];
       let h : Hub := (ctxWith 95 [(⟨A.ACC_SLOT 11, 0, 31⟩, 0x4003FFFF)] [(1, 64)]).withWord (.polset n gd ga);
       (h.awake = true) ∧ (h.inCode n ((h.ctx n).pc + 1) = true) ∧ (ea = (h.gpr n ga).toNat) ∧ (h.canIssue n = true)
       ∧ (h.blockOk n ea 12 = true) ∧ (b = h.blockAt n ea 12) ∧ (h.decide_ 2 .write (A.POL_CFG n) = .ok c r)
       ∧ (h.spells n (.polset n gd ga)))
    ∧ (let n : Fin 96 := 95;
       let gd : Fin 16 := 4;
       let ga : Fin 16 := 1;
       let o : Fin 8 := 7;
       let ea : Nat := 64;
       let info : Nat := 42;
       let h : Hub := (ctxWith 95 [(R.TUNC_BOUND_BINDING 95, 0x2B2), (R.TIME_EVO_CTRL_TUN_OWN 7, 1)] [(1, 64)]).withWord (.garmDisarm n gd);
       (h.awake = true) ∧ (h.inCode n ((h.ctx n).pc + 1) = true) ∧ (ea = (h.gpr n ga).toNat) ∧ (h.canIssue n = true)
       ∧ (h.decide_ 2 .write A.SCH_CTRL = .refused info) ∧ (h.spells n (.garmDisarm n gd))) :=
  by and_intros <;> decide

/-- States and operands that meet the hypotheses of `Obligations.AsyncInstructions`. -/
theorem test_witness_AsyncInstructions :
    (let n : Fin 96 := 95;
     let gd : Fin 16 := 4;
     let ga : Fin 16 := 1;
     let ea : Nat := 8;
     let c : Bool := false;
     let r : Bool := false;
     let h : Hub := (ctxWith 95 [(⟨A.ACC_SLOT 12, 0, 31⟩, 0x4003FFFF)] [(1, 8)]).withWord (.garm n gd ga);
     (h.canIssue n = true) ∧ (h.inCode n ((h.ctx n).pc + 1) = true) ∧ (ea = (h.gpr n ga).toNat)
     ∧ (h.blockOk n ea 8 = true) ∧ (h.decide_ 2 .write A.SCH_CTRL = .ok c r) ∧ (h.asyncRoom n .garm = true)
     ∧ (h.spells n (.garm n gd ga)))
    ∧ (let n : Fin 96 := 95;
       let gd : Fin 16 := 4;
       let ga : Fin 16 := 1;
       let ea : Nat := 8;
       let h : Hub := (ctxWith 95 [] [(1, 8)]).withWord (.tap n gd ga); (h.canIssue n = true)
       ∧ (h.inCode n ((h.ctx n).pc + 1) = true) ∧ (ea = (h.gpr n ga).toNat) ∧ (h.blockOk n ea 0x70 = true)
       ∧ (h.asyncRoom n .tap = true) ∧ (h.spells n (.tap n gd ga)))
    ∧ (let n : Fin 96 := 95;
       let gd : Fin 16 := 4;
       let ga : Fin 16 := 1;
       let ea : Nat := 8;
       let h : Hub := (((ctxWith 95 [] [(1, 8)]).asyncStart 95 .tap 0 [])).withWord (.tap n gd ga); (h.canIssue n = true)
       ∧ (h.inCode n ((h.ctx n).pc + 1) = true) ∧ (ea = (h.gpr n ga).toNat) ∧ (h.blockOk n ea 0x70 = true)
       ∧ (h.asyncRoom n .tap = false) ∧ (h.spells n (.tap n gd ga)))
    ∧ (let n : Fin 96 := 95;
       let gd : Fin 16 := 4;
       let ga : Fin 16 := 1;
       let ea : Nat := 8;
       let h : Hub := ((ctxWith 95 [] [(1, 8)]).mstore 0x270008 [0]).withWord (.sealGcmSeal n gd ga);
       (h.canIssue n = true) ∧ (h.inCode n ((h.ctx n).pc + 1) = true) ∧ (ea = (h.gpr n ga).toNat)
       ∧ (h.blockOk n ea 0x28 = true) ∧ (((h.blockAt n ea 0x28).getD 0 0#32).toNat % 4 = 0) ∧ (h.asyncRoom n .seal = true)
       ∧ (h.spells n (.sealGcmSeal n gd ga)))
    ∧ (let n : Fin 96 := 95;
       let gd : Fin 16 := 4;
       let ga : Fin 16 := 1;
       let ea : Nat := 8;
       let h : Hub := ((ctxWith 95 [] [(1, 8)]).mstore 0x270008 [1]).withWord (.sealGcmOpen n gd ga);
       (h.canIssue n = true) ∧ (h.inCode n ((h.ctx n).pc + 1) = true) ∧ (ea = (h.gpr n ga).toNat)
       ∧ (h.blockOk n ea 0x28 = true) ∧ (((h.blockAt n ea 0x28).getD 0 0#32).toNat % 4 = 1) ∧ (h.asyncRoom n .seal = true)
       ∧ (h.spells n (.sealGcmOpen n gd ga)))
    ∧ (let n : Fin 96 := 95;
       let gd : Fin 16 := 4;
       let ga : Fin 16 := 1;
       let ea : Nat := 8;
       let h : Hub := ((ctxWith 95 [] [(1, 8)]).mstore 0x270008 [2]).withWord (.sealHmac n gd ga); (h.canIssue n = true)
       ∧ (h.inCode n ((h.ctx n).pc + 1) = true) ∧ (ea = (h.gpr n ga).toNat) ∧ (h.blockOk n ea 0x28 = true)
       ∧ (((h.blockAt n ea 0x28).getD 0 0#32).toNat % 4 = 2) ∧ (h.asyncRoom n .seal = true)
       ∧ (h.spells n (.sealHmac n gd ga)))
    ∧ (let n : Fin 96 := 95;
       let gd : Fin 16 := 4;
       let ga : Fin 16 := 1;
       let ea : Nat := 8;
       let h : Hub := ((ctxWith 95 [] [(1, 8)]).mstore 0x270008 [3]).withWord (.sealXts n gd ga); (h.canIssue n = true)
       ∧ (h.inCode n ((h.ctx n).pc + 1) = true) ∧ (ea = (h.gpr n ga).toNat) ∧ (h.blockOk n ea 0x28 = true)
       ∧ (((h.blockAt n ea 0x28).getD 0 0#32).toNat % 4 = 3) ∧ (h.asyncRoom n .seal = true)
       ∧ (h.spells n (.sealXts n gd ga)))
    ∧ (let n : Fin 96 := 95;
       let gd : Fin 16 := 4;
       let ga : Fin 16 := 1;
       let ea : Nat := 8;
       let i : Instr := .tap 95 4 1;
       let m : Nat := 0x70;
       let q : List Instr := [];
       let h : Hub := { (ctxWith 95 [] [(1, 8)]).withWord (.tap 95 4 1) with fab := { (ctxWith 95 [] []).fab with soft := [0x270040 / 8] } };
       (h.canIssue n = true) ∧ (h.inCode n ((h.ctx n).pc + 1) = true) ∧ (ea = (h.gpr n ga).toNat)
       ∧ ((i, m) ∈ [(Instr.tap n gd ga, 0x70), (Instr.sealGcmSeal n gd ga, 0x28), (Instr.sealGcmOpen n gd ga, 0x28), (Instr.sealHmac n gd ga, 0x28), (Instr.sealXts n gd ga, 0x28)])
       ∧ (h.blockReadable n ea m = true) ∧ (h.spells n i = true))
    ∧ (let n : Fin 96 := 95;
       let gd : Fin 16 := 4;
       let ga : Fin 16 := 1;
       let ea : Nat := 8;
       let h : Hub := (((((ctxWith 95 [] [(1, 8)]).mstore 0x270008 [2]).asyncStart 95 .seal 0 []).asyncStart 95 .seal 4 [])).withWord (.sealHmac n gd ga);
       (h.canIssue n = true) ∧ (h.inCode n ((h.ctx n).pc + 1) = true) ∧ (ea = (h.gpr n ga).toNat)
       ∧ (h.blockOk n ea 0x28 = true) ∧ (((h.blockAt n ea 0x28).getD 0 0#32).toNat % 4 = 2)
       ∧ (h.asyncRoom n .seal = false) ∧ (h.spells n (.sealHmac n gd ga)))
    ∧ (let n : Fin 96 := 95;
       let gd : Fin 16 := 4;
       let ga : Fin 16 := 1;
       let ea : Nat := 8;
       let c : Bool := false;
       let r : Bool := false;
       let h : Hub := ((ctxWith 95 [(⟨A.ACC_SLOT 12, 0, 31⟩, 0x4003FFFF)] [(1, 8)]).asyncStart 95 .garm 0 []).withWord (.garm n gd ga);
       (h.canIssue n = true) ∧ (h.inCode n ((h.ctx n).pc + 1) = true) ∧ (ea = (h.gpr n ga).toNat)
       ∧ (h.blockOk n ea 8 = true) ∧ (h.decide_ 2 .write A.SCH_CTRL = .ok c r) ∧ (h.asyncRoom n .garm = false)
       ∧ (h.spells n (.garm n gd ga)))
    ∧ (let n : Fin 96 := 95;
       let gd : Fin 16 := 4;
       let ga : Fin 16 := 1;
       let ea : Nat := 8;
       let c : Bool := false;
       let r : Bool := false;
       let h : Hub := (ctxWith 95 [(⟨A.ACC_SLOT 9, 0, 31⟩, 0x4003FFFF)] [(1, 8)]).withWord (.jrec n gd ga);
       (h.canIssue n = true) ∧ (h.inCode n ((h.ctx n).pc + 1) = true) ∧ (ea = (h.gpr n ga).toNat)
       ∧ (h.blockOk n ea 0x20 = true) ∧ (h.decide_ 2 .write A.JRN_CTRL = .ok c r) ∧ (h.asyncRoom n .jrec = true)
       ∧ (h.spells n (.jrec n gd ga)))
    ∧ (let n : Fin 96 := 95;
       let gd : Fin 16 := 4;
       let ga : Fin 16 := 1;
       let ea : Nat := 4;
       let h : Hub := (ctxWith 95 [] [(1, 4)]).withWord (.tap n gd ga); (h.canIssue n = true)
       ∧ (h.inCode n ((h.ctx n).pc + 1) = true) ∧ (ea = (h.gpr n ga).toNat) ∧ (spaceOf ea ≠ .outside) ∧ (ea % 8 ≠ 0)
       ∧ (h.spells n (.tap n gd ga)))
    ∧ (let n : Fin 96 := 95;
       let gd : Fin 16 := 4;
       let ga : Fin 16 := 1;
       let ea : Nat := 4;
       let h : Hub := (ctxWith 95 [] [(1, 4)]).withWord (.jrec n gd ga); (h.canIssue n = true)
       ∧ (h.inCode n ((h.ctx n).pc + 1) = true) ∧ (ea = (h.gpr n ga).toNat) ∧ (spaceOf ea ≠ .outside) ∧ (ea % 8 ≠ 0)
       ∧ (h.spells n (.jrec n gd ga))) :=
  by and_intros <;> decide

/-- States and operands that meet the hypotheses of `Obligations.AsyncCompletion`. -/
theorem test_witness_AsyncCompletion :
    (let k : AsyncKind := .garm;
     let o : AsyncOp := ⟨.garm, 95, true, 12, [5, 0x80000000], none⟩;
     let h : Hub := ctxWith 95 [] []; (h.awake = true) ∧ (h.tun.ops.find? (fun x => x.kind == k) = none))
    ∧ (let k : AsyncKind := .garm;
       let o : AsyncOp := ⟨.garm, 95, true, 12, [5, 0x80000000], none⟩;
       let h : Hub := (ctxWith 95 [] [(1, 8)]).asyncStart 95 .garm 12 [5, 0x80000000];
       let g : Hub := (h.asyncRun o).1;
       let r : Nat := ((h.asyncRun o).2).getD 0; (h.awake = true) ∧ (h.tun.ops.find? (fun x => x.kind == k) = some o)
       ∧ (h.tun.moving = none) ∧ (h.asyncRun o = (g, some r)) ∧ (o.live = true))
    ∧ (let k : AsyncKind := .garm;
       let o : AsyncOp := ⟨.garm, 95, false, 12, [5, 0x80000000], none⟩;
       let h : Hub := ((ctxWith 95 [] [(1, 8)]).asyncStart 95 .garm 12 [5, 0x80000000]).orphanOps 95;
       let g : Hub := (h.asyncRun o).1;
       let r : Nat := ((h.asyncRun o).2).getD 0; (h.awake = true) ∧ (h.tun.ops.find? (fun x => x.kind == k) = some o)
       ∧ (h.tun.moving = none) ∧ (h.asyncRun o = (g, some r)) ∧ (o.live = false))
    ∧ (let k : AsyncKind := .jrec;
       let o : AsyncOp := ⟨.jrec, 95, true, 12, [5], none⟩;
       let h : Hub := (ctxWith 95 [] [(1, 8)]).asyncStart 95 .jrec 12 [5];
       let g : Hub := (h.asyncRun o).1; (h.awake = true) ∧ (h.tun.ops.find? (fun x => x.kind == k) = some o)
       ∧ (h.tun.moving = none) ∧ (h.asyncRun o = (g, none)))
    ∧ (let k : AsyncKind := .garm;
       let o : AsyncOp := ⟨.garm, 95, true, 12, [5, 0x80000000], none⟩;
       let h : Hub := { (ctxWith 95 [] [(1, 8)]).asyncStart 95 .garm 12 [5, 0x80000000] with tun := { ((ctxWith 95 [] [(1, 8)]).asyncStart 95 .garm 12 [5, 0x80000000]).tun with moving := some 7 } };
       (h.awake = true) ∧ (h.tun.ops.find? (fun x => x.kind == k) = some o) ∧ (h.tun.moving = some (o.ctx / 12)))
    ∧ (let k : AsyncKind := .garm;
       let o : AsyncOp := ⟨.jrec, 95, true, 12, [5], none⟩;
       let h : Hub := (ctxWith 95 [] [(1, 8)]).asyncStart 95 .jrec 12 [5]; (h.awake = true)
       ∧ (h.tun.ops.find? (fun x => x.kind == .jrec) = some o) ∧ (o.kind = .jrec) ∧ (o.outcome = none)) :=
  by and_intros <;> decide

/-- States and operands that meet the hypotheses of `Obligations.DisplayCommands`. -/
theorem test_witness_DisplayCommands :
    (let d : Fin 2 := 1;
     let h : Hub := hubWith [(R.DSP_CTRL_N 1, 40), (word (A.DSP_HTIME0 1), 640 + 16 * 65536), (word (A.DSP_HTIME1 1), 96 + 48 * 65536), (word (A.DSP_VTIME0 1), 480 + 10 * 65536), (word (A.DSP_VTIME1 1), 2 + 33 * 65536)];
     (h.awake = true) ∧ (h.on (R.DSP_CTRL_EN d) = false) ∧ (h.dspReason d = 0) ∧ (h.now + 2000 < 2 ^ 64))
    ∧ (let d : Fin 2 := 1;
       let h : Hub := hubWith [(R.DSP_CTRL_N 1, 19)]; (h.awake = true) ∧ (h.on (R.DSP_CTRL_EN d) = false)
       ∧ (h.dspReason d ≠ 0))
    ∧ (let d : Fin 2 := 1;
       let h : Hub := hubWith [(R.DSP_CTRL_EN 1, 1)]; (h.awake = true) ∧ (h.on (R.DSP_CTRL_EN d) = true))
    ∧ (let d : Fin 2 := 1; let h : Hub := hubWith []; (h.awake = true) ∧ (h.on (R.DSP_CTRL_EN d) = false))
    ∧ (let d : Fin 2 := 1;
       let h : Hub := hubWith [(R.DSP_CTRL_EN 1, 1), (R.CLK_STATUS_MODE, 2)]; (h.awake = true) ∧ (h.dspRuns d = true)
       ∧ ((h.dsp d).inFrame = false))
    ∧ (let d : Fin 2 := 1;
       let bad : Option Nat := none;
       let h : Hub := (hubWith [(R.DSP_CTRL_EN 1, 1), (R.CLK_STATUS_MODE, 2), (word (A.DSP_VTIME0 1), 1)]).setDsp 1 { DspHead.reset with inFrame := true };
       (h.awake = true) ∧ (h.dspRuns d = true) ∧ ((h.dsp d).inFrame = true) ∧ ((h.dsp d).line < (h.dspV d).1))
    ∧ (let d : Fin 2 := 1;
       let bad : Option Nat := none;
       let h : Hub := (hubWith [(R.DSP_CTRL_EN 1, 1), (R.CLK_STATUS_MODE, 2), (word (A.DSP_VTIME0 1), 1)]).setDsp 1 { DspHead.reset with inFrame := true, line := 1 };
       (h.awake = true) ∧ (h.dspRuns d = true) ∧ ((h.dsp d).inFrame = true)
       ∧ ((h.dsp d).line = 0 ∨ (h.dsp d).line - 1 < (h.dsp d).main.set.y ∨ (h.dsp d).main.set.y + (h.dsp d).main.set.h ≤ (h.dsp d).line - 1))
    ∧ (let d : Fin 2 := 1;
       let bad : Option Nat := none;
       let q : DspLine := ⟨0, [1, 2, 3, 4], 1, true⟩;
       let qs : List DspLine := [];
       let h : Hub := (hubWith [(R.DSP_CTRL_EN 1, 1), (R.CLK_STATUS_MODE, 2), (word (A.DSP_VTIME0 1), 1)]).setDsp 1 { DspHead.reset with inFrame := true, line := 1, main := { DspHead.reset.main with set := { DspHead.reset.main.set with en := true, h := 1 }, bound := true, geom := true, off := false, fifo := [⟨0, [1, 2, 3, 4], 1, true⟩] } };
       (h.awake = true) ∧ (h.dspRuns d = true) ∧ ((h.dsp d).inFrame = true) ∧ ((h.dsp d).main.set.y < (h.dsp d).line)
       ∧ ((h.dsp d).line - 1 < (h.dsp d).main.set.y + (h.dsp d).main.set.h) ∧ ((h.dsp d).main.fifo = q :: qs)
       ∧ (q.y = (h.dsp d).line - 1 - (h.dsp d).main.set.y) ∧ (q.done = true) ∧ ((h.dsp d).main.set.en = true)
       ∧ ((h.dsp d).main.bound = true) ∧ ((h.dsp d).main.geom = true) ∧ ((h.dsp d).main.off = false))
    ∧ (let d : Fin 2 := 1;
       let bad : Option Nat := none;
       let h : Hub := (hubWith [(R.DSP_CTRL_EN 1, 1), (R.CLK_STATUS_MODE, 2), (word (A.DSP_VTIME0 1), 1)]).setDsp 1 { DspHead.reset with inFrame := true, line := 1, main := { DspHead.reset.main with set := { DspHead.reset.main.set with en := true, h := 1 }, bound := true, geom := true, off := false } };
       (h.awake = true) ∧ (h.dspRuns d = true) ∧ ((h.dsp d).inFrame = true) ∧ ((h.dsp d).main.set.y < (h.dsp d).line)
       ∧ ((h.dsp d).line - 1 < (h.dsp d).main.set.y + (h.dsp d).main.set.h) ∧ ((h.dsp d).main.fifo = [])
       ∧ ((h.dsp d).main.set.en = true) ∧ ((h.dsp d).main.bound = true) ∧ ((h.dsp d).main.geom = true)
       ∧ ((h.dsp d).main.off = false) ∧ (h.on (R.DSP_STATUS_FALLBACK d) = false))
    ∧ (let d : Fin 2 := 1;
       let bad : Option Nat := none;
       let h : Hub := (hubWith [(R.DSP_CTRL_EN 1, 1), (R.CLK_STATUS_MODE, 2), (word (A.DSP_VTIME0 1), 1), (word (A.DSP_HTIME0 1), 2)]).setDsp 1 { DspHead.reset with inFrame := true, line := 1 };
       (h.awake = true) ∧ (h.dspRuns d = true) ∧ ((h.dsp d).inFrame = true) ∧ ((h.dsp d).line = (h.dspV d).1)
       ∧ ((h.dsp d).base.set.en = false) ∧ ((h.dsp d).main.set.en = false))
    ∧ (let d : Fin 2 := 1;
       let l : Fin 2 := 1;
       let n : Nat := 95;
       let p : Packet := ⟨0, .D, 0, 0, 0, 0, false, false, false, 0, 0, 0, [1]⟩;
       let h : Hub := (hubWith [(R.TUNC_BOUND_BINDING 95, 0x69)]).epGive 95 ⟨0, .D, 0, 0, 0, 0, false, false, false, 0, 0, 0, [1]⟩;
       (h.awake = true) ∧ (h.dspTunnel d l = some n) ∧ (h.epNext (4 + d) n = some p) ∧ (h.on (R.DSP_CTRL_EN d) = false))
    ∧ (let d : Fin 2 := 1;
       let l : Fin 2 := 1;
       let n : Nat := 95;
       let p : Packet := ⟨0, .D, 0, 0, 0, 0, false, false, false, 0, 0, 0, [1]⟩;
       let v : DspLayer := ⟨[⟨0, [1, 0, 0, 0], 1, true⟩], DspHead.reset.main.set, DspHead.reset.main.geom, DspHead.reset.main.bound, DspHead.reset.main.off, DspHead.reset.main.lines⟩;
       let h : Hub := (hubWith [(R.DSP_CTRL_EN 1, 1), (R.TUNC_BOUND_BINDING 95, 0x69), (word (A.DSP_L_SIZE 1 1), 2 + 65536), (word (A.DSP_L_CTRL 1 1), 1)]).epGive 95 ⟨0, .D, 0, 0, 0, 0, false, false, false, 0, 0, 0, [1]⟩;
       (h.awake = true) ∧ (h.dspTunnel d l = some n) ∧ (h.epNext (4 + d) n = some p) ∧ (h.on (R.DSP_CTRL_EN d) = true)
       ∧ (p.aux % 4096 < (h.dspSet d l).h) ∧ (segWords (h.dspSet d l).lineBytes (p.aux / 4096 % 16) = some p.length)
       ∧ (((h.dsp d).layer l).take (h.dspSet d l).lineBytes (p.aux % 4096) (p.aux / 4096 % 16) (bytesOf p.payload) = some v))
    ∧ (let d : Fin 2 := 1;
       let n : Nat := 95;
       let p : Packet := ⟨0, .D, 0, 3, 0, 0, false, false, false, 0, 0, 0, [1]⟩;
       let h : Hub := (hubWith [(R.TUNC_BOUND_BINDING 95, 0x79)]).epGive 95 ⟨0, .D, 0, 3, 0, 0, false, false, false, 0, 0, 0, [1]⟩;
       (h.awake = true) ∧ (h.dspTunnel d 2 = some n) ∧ (h.epNext (4 + d) n = some p) ∧ (p.kind ≠ 0))
    ∧ (let d : Fin 2 := 1;
       let n : Nat := 95;
       let p : Packet := ⟨0, .D, 0, 0, 0, 0, false, false, false, 0, 0, 0, [1]⟩;
       let a : Nat := 0x300000;
       let h : Hub := (hubWith [(R.TUNC_BOUND_BINDING 95, 0x79), (R.ACC_CTRL_EN, 1), (R.ACC_REG_PERM_VALID 0, 1), (R.ACC_REG_PERM_PERM 0, 0x3FFFF), (word (A.ACC_REG_BASE 0), 0x300000 + 19), (word (A.DSP_L_ADDR 1 2), 0x300000), (word (A.DSP_L_STRIDE 1 2), 4), (word (A.DSP_L_SIZE 1 2), 1 + 65536)]).epGive 95 ⟨0, .D, 0, 0, 0, 0, false, false, false, 0, 0, 0, [1]⟩;
       let k : Hub := (h.dmaWrite 0x300000 [1, 0, 0, 0]).1; (h.awake = true) ∧ (h.dspTunnel d 2 = some n)
       ∧ (h.epNext (4 + d) n = some p) ∧ (p.kind = 0) ∧ (a = (h.dspSet d 2).addr + 64 * p.aux)
       ∧ (a + 4 * p.length ≤ (h.dspSet d 2).addr + (h.dspSet d 2).h * (h.dspSet d 2).stride)
       ∧ (h.dmaWrite a (bytesOf p.payload) = (k, .ok))) :=
  by and_intros <;> decide

/-- States and operands that meet the hypotheses of `Obligations.EthernetCommands`. -/
theorem test_witness_EthernetCommands :
    (let x : Fin 4 := 3;
     let f : List Byte := [];
     let c : Bool := false;
     let d : Fin 8 := 7;
     let h : Hub := hubWith []; (h.awake = true) ∧ (h.ethLink x ≠ 2))
    ∧ (let x : Fin 4 := 3;
       let f : List Byte := [];
       let d : Fin 8 := 7;
       let h : Hub := hubWith [(R.ETH_STATUS_LINK 3, 2), (R.ETH_CTRL_MAX_FRAME 3, 1522)]; (h.awake = true)
       ∧ (h.defPower = false) ∧ (h.ethLink x = 2) ∧ (h.ethRxFill x + f.length ≤ 16384))
    ∧ (let x : Fin 4 := 3;
       let f : List Byte := [];
       let c : Bool := true;
       let g : BitVec 16 := 0;
       let d : Fin 8 := 7;
       let h : Hub := hubWith [(R.LOAD_STATUS_DEFAULT, 1)]; (h.awake = true) ∧ (h.defPower = true))
    ∧ (let x : Fin 4 := 3;
       let g : List Byte := List.replicate 59 0;
       let d : Fin 8 := 7;
       let h : Hub := hubWith [(R.ETH_STATUS_LINK 3, 2), (R.ETH_CTRL_MAX_FRAME 3, 1522)]; (h.awake = true)
       ∧ (h.defPower = false) ∧ (h.ethLink x = 2) ∧ (h.ethRxFill x + g.length + 4 ≤ 16384)
       ∧ (g.length < 60 ∨ h.get (R.ETH_CTRL_MAX_FRAME x) < g.length + 4))
    ∧ (let x : Fin 4 := 3;
       let g : List Byte := List.replicate 60 0;
       let d : Fin 8 := 7;
       let h : Hub := hubWith [(R.ETH_STATUS_LINK 3, 2), (R.ETH_CTRL_MAX_FRAME 3, 1522)]; (h.awake = true)
       ∧ (h.defPower = false) ∧ (h.ethLink x = 2) ∧ (h.ethRxFill x + g.length + 4 ≤ 16384) ∧ (60 ≤ g.length)
       ∧ (g.length + 4 ≤ h.get (R.ETH_CTRL_MAX_FRAME x)) ∧ (half g 12 ≠ 0x8808) ∧ (h.isPtp x g = false)
       ∧ (h.ruleSet x g = none))
    ∧ (let x : Fin 4 := 3;
       let g : List Byte := [0x01, 0x1B, 0x19, 0, 0, 0, 0, 0, 0, 0, 0, 0, 0x88, 0xF7] ++ List.replicate 46 0;
       let d : Fin 8 := 7;
       let h : Hub := hubWith [(R.ETH_STATUS_LINK 3, 2), (R.ETH_CTRL_MAX_FRAME 3, 1522), (R.PTP_PORT_CTRL_EN 3, 1)];
       (h.awake = true) ∧ (h.defPower = false) ∧ (h.ethLink x = 2) ∧ (h.ethRxFill x + g.length + 4 ≤ 16384)
       ∧ (60 ≤ g.length) ∧ (g.length + 4 ≤ h.get (R.ETH_CTRL_MAX_FRAME x)) ∧ (half g 12 ≠ 0x8808) ∧ (h.isPtp x g = true))
    ∧ (let x : Fin 4 := 3;
       let g : List Byte := List.replicate 60 0;
       let s : Nat := 0;
       let d : Fin 8 := 7;
       let h : Hub := hubWith [(R.ETH_STATUS_LINK 3, 2), (R.ETH_CTRL_MAX_FRAME 3, 1522), (R.ETH_RULE_A_EN 3 0, 1), (R.ETH_RULE_A_UNTAG 3 0, 1), (R.ETH_RULE_B_PCP_MASK 3 0, 255), (R.FAB_STATUS_REBUILD, 1)];
       (h.awake = true) ∧ (h.defPower = false) ∧ (h.ethLink x = 2) ∧ (h.ethRxFill x + g.length + 4 ≤ 16384)
       ∧ (60 ≤ g.length) ∧ (g.length + 4 ≤ h.get (R.ETH_CTRL_MAX_FRAME x)) ∧ (half g 12 ≠ 0x8808) ∧ (h.isPtp x g = false)
       ∧ (h.ruleSet x g = some s) ∧ (h.on R.FAB_STATUS_REBUILD = true))
    ∧ (let x : Fin 4 := 3;
       let g : List Byte := List.replicate 60 0;
       let s : Nat := 0;
       let n : Nat := 95;
       let dest : Nat := 0x100;
       let d : Fin 8 := 7;
       let h : Hub := (hubWith [(R.ETH_STATUS_LINK 3, 2), (R.ETH_CTRL_MAX_FRAME 3, 1522), (R.ETH_RULE_A_EN 3 0, 1), (R.ETH_RULE_A_UNTAG 3 0, 1), (R.ETH_RULE_B_PCP_MASK 3 0, 255), (R.TUNC_BOUND_BINDING 95, 0xB5), (word (A.ETH_SET_DEST 3 0), 0x100), (R.DEV_STATUS_ADDR, 1), (R.LNK_ROUTE_VALID 0 2, 1), (R.LNK_ROUTE_PORT 0 2, 1)]);
       let k : Hub := ((h.bump (word (A.ETH_RX_FRAMES x))).sendSegments n dest (segments g none)).1; (h.awake = true)
       ∧ (h.defPower = false) ∧ (h.ethLink x = 2) ∧ (h.ethRxFill x + g.length + 4 ≤ 16384) ∧ (60 ≤ g.length)
       ∧ (g.length + 4 ≤ h.get (R.ETH_CTRL_MAX_FRAME x)) ∧ (half g 12 ≠ 0x8808) ∧ (h.isPtp x g = false)
       ∧ (h.ruleSet x g = some s) ∧ (h.on R.FAB_STATUS_REBUILD = false) ∧ (h.setTunnel x s = some n) ∧ (h.bindMode n = 1)
       ∧ (h.on (R.ETH_SET_EGRESS_TRAILER x s) = false) ∧ (dest = (h.rd (A.ETH_SET_DEST x s)).toNat % 16384)
       ∧ (tidValid dest = true) ∧ (hubOf dest ≠ 127) ∧ ((h.hasAddr && hubOf dest == h.addr) = false)
       ∧ ((h.bump (word (A.ETH_RX_FRAMES x))).sendSegments n dest (segments g none) = (k, true)))
    ∧ (let x : Fin 4 := 3;
       let g : List Byte := List.replicate 60 0;
       let s : Nat := 0;
       let n : Nat := 95;
       let d : Fin 8 := 7;
       let h : Hub := hubWith [(R.ETH_STATUS_LINK 3, 2), (R.ETH_CTRL_MAX_FRAME 3, 1522), (R.ETH_RULE_A_EN 3 0, 1), (R.ETH_RULE_A_UNTAG 3 0, 1), (R.ETH_RULE_B_PCP_MASK 3 0, 255), (R.TUNC_BOUND_BINDING 95, 0xB2)];
       (h.awake = true) ∧ (h.ethLink x = 2) ∧ (h.ethRxFill x + g.length + 4 ≤ 16384) ∧ (60 ≤ g.length) ∧ (g.length ≤ 500)
       ∧ (g.length + 4 ≤ h.get (R.ETH_CTRL_MAX_FRAME x)) ∧ (half g 12 ≠ 0x8808) ∧ (h.isPtp x g = false)
       ∧ (h.ruleSet x g = some s) ∧ (h.setTunnel x s = some n) ∧ (h.bindMode n = 2)
       ∧ (h.on (R.ETH_SET_EGRESS_TRAILER x s) = false) ∧ (h.on R.FAB_STATUS_REBUILD = false) ∧ (h.defPower = false))
    ∧ (let x : Fin 4 := 3;
       let s : Fin 8 := 0;
       let n : Nat := 95;
       let p : Packet := ⟨0, .M, 0, 0, 0, 0, false, false, false, 0, 0, 0, [0x3C0008]⟩;
       let h : Hub := (hubWith [(R.TUNC_BOUND_BINDING 95, 0xB2)]).epGive 95 ⟨0, .M, 0, 0, 0, 0, false, false, false, 0, 0, 0, [0x3C0008]⟩;
       (h.awake = true) ∧ (h.setTunnel x s = some n) ∧ (h.epNext (6 + x) n = some p) ∧ (h.ethLink x ≠ 2)
       ∧ ((h.ethPort x).parts = []) ∧ ((p.payload.getD 0 0#32).toNat % 8 = 0))
    ∧ (let x : Fin 4 := 3;
       let s : Fin 8 := 0;
       let n : Nat := 95;
       let p : Packet := ⟨0, .M, 0, 0, 0, 0, false, false, false, 0, 0, 0, [0x40008, 0x04030201]⟩;
       let bs : List Byte := [1, 2, 3, 4];
       let h : Hub := (hubWith [(R.ETH_STATUS_LINK 3, 2), (R.TUNC_BOUND_BINDING 95, 0xB2)]).epGive 95 ⟨0, .M, 0, 0, 0, 0, false, false, false, 0, 0, 0, [0x40008, 0x04030201]⟩;
       (h.awake = true) ∧ (h.setTunnel x s = some n) ∧ (h.epNext (6 + x) n = some p) ∧ (h.ethLink x = 2)
       ∧ ((h.ethPort x).parts = []) ∧ ((p.payload.getD 0 0#32).toNat % 16 = 8) ∧ (segData p = some bs))
    ∧ (let x : Fin 4 := 3;
       let s : Fin 8 := 7;
       let src : Fin 128 := 64;
       let q : EthPart := ⟨7, 64, 60, false, 1, [], 0⟩;
       let h : Hub := (hubWith []).setEthPort 3 { EthPort.reset with parts := [⟨7, 64, 60, false, 1, [], 0⟩] };
       (h.awake = true) ∧ ((h.ethPort x).parts.find? (fun e => e.set == s.val && e.src == src.val) = some q))
    ∧ (let x : Fin 4 := 3;
       let s : Fin 8 := 7;
       let src : Fin 128 := 64;
       let h : Hub := hubWith [(R.ETH_STATUS_LINK 3, 2), (R.ETH_CTRL_MAX_FRAME 3, 1522)]; (h.awake = true)
       ∧ ((h.ethPort x).parts.find? (fun e => e.set == s.val && e.src == src.val) = none))
    ∧ (let x : Fin 4 := 3;
       let s : Nat := 0;
       let f : List Byte := [1, 2];
       let rest : List (Nat × List Byte) := [];
       let h : Hub := (hubWith [(R.ETH_STATUS_LINK 3, 2)]).setEthPort 3 { EthPort.reset with txq := [(0, [1, 2])] };
       (h.awake = true) ∧ ((h.ethPort x).txq = (s, f) :: rest) ∧ (h.ethLink x = 2) ∧ (h.defPower = false))
    ∧ (let x : Fin 4 := 3;
       let h : Hub := hubWith [(R.ETH_CTRL_MODE 3, 2), (R.CLK_STATUS_MODE, 2)]; (h.awake = true) ∧ (h.defPower = false)
       ∧ (h.ethLink x = 0) ∧ (h.get (R.ETH_CTRL_MODE x) ≠ 0) ∧ (h.clkMode ≠ ckFree) ∧ (h.ethAn x = false))
    ∧ (let x : Fin 4 := 3;
       let h : Hub := hubWith [(R.ETH_CTRL_MODE 3, 1), (R.ETH_CTRL_AN_EN 3, 1), (R.CLK_STATUS_MODE, 2)]; (h.awake = true)
       ∧ (h.defPower = false) ∧ (h.ethLink x = 0) ∧ (h.clkMode ≠ ckFree) ∧ (h.ethAn x = true))
    ∧ (let x : Fin 4 := 3;
       let page : BitVec 16 := 0;
       let h : Hub := hubWith [(R.ETH_CTRL_MODE 3, 2), (R.ETH_STATUS_LINK 3, 1)]; (h.awake = true) ∧ (h.defPower = false)
       ∧ (h.ethLink x = 1) ∧ (h.ethAn x = false))
    ∧ (let x : Fin 4 := 3;
       let page : BitVec 16 := 0x3020;
       let h : Hub := hubWith [(R.ETH_CTRL_MODE 3, 1), (R.ETH_CTRL_AN_EN 3, 1), (R.ETH_STATUS_LINK 3, 1)];
       (h.awake = true) ∧ (h.defPower = false) ∧ (h.ethLink x = 1) ∧ (h.ethAn x = true) ∧ (page.getLsbD 5 = true))
    ∧ (let x : Fin 4 := 3;
       let page : BitVec 16 := 0x3000;
       let h : Hub := hubWith [(R.ETH_CTRL_MODE 3, 1), (R.ETH_CTRL_AN_EN 3, 1), (R.ETH_STATUS_LINK 3, 1)];
       (h.awake = true) ∧ (h.defPower = false) ∧ (h.ethLink x = 1) ∧ (h.ethAn x = true) ∧ (page.getLsbD 5 = false))
    ∧ (let x : Fin 4 := 3;
       let los : Bool := true;
       let h : Hub := hubWith [(R.ETH_STATUS_LINK 3, 2), (R.ETH_CTRL_MAX_FRAME 3, 1522)]; (h.awake = true)
       ∧ (h.ethLink x = 2))
    ∧ (let x : Fin 4 := 3;
       let los : Bool := false;
       let h : Hub := hubWith [(R.ETH_STATUS_LINK 3, 1)]; (h.awake = true) ∧ (h.ethLink x ≠ 2))
    ∧ (let x : Fin 4 := 3;
       let m : BitVec 2 := 2;
       let an : Bool := true;
       let h : Hub := hubWith [(R.ETH_STATUS_LINK 3, 2), (R.ETH_CTRL_MAX_FRAME 3, 1522)]; (h.awake = true) ∧ (m ≠ 3)
       ∧ (m.toNat ≠ h.get (R.ETH_CTRL_MODE x)))
    ∧ (let x : Fin 4 := 3;
       let m : BitVec 2 := 3;
       let an : Bool := true;
       let h : Hub := hubWith [(R.ETH_STATUS_LINK 3, 2), (R.ETH_CTRL_MAX_FRAME 3, 1522)]; (h.awake = true)
       ∧ (m = 3 ∨ m.toNat = h.get (R.ETH_CTRL_MODE x)) ∧ (an = h.on (R.ETH_CTRL_AN_EN x)))
    ∧ (let x : Fin 4 := 3;
       let h : Hub := hubWith [(R.ETH_STATUS_LINK 3, 2), (R.ETH_CTRL_MAX_FRAME 3, 1522)]; (h.awake = true)) :=
  by and_intros <;> decide

/-- States and operands that meet the hypotheses of `Obligations.PtpCommands`. -/
theorem test_witness_PtpCommands :
    (let x : Fin 4 := 3;
     let m : List Byte := List.replicate 44 0xFF;
     let t : Nat := 0;
     let rest : List (List Byte × Nat) := [];
     let h : Hub := (hubWith [(R.PTP_CTRL_EN, 1)]).setPtp 3 { PtpPort.reset with inq := [(List.replicate 44 0xFF, 0)] };
     (h.awake = true) ∧ ((h.ptp x).inq = (m, t) :: rest) ∧ (h.on R.PTP_CTRL_EN = true) ∧ (44 ≤ m.length)
     ∧ (m.getD 4 0#8 ≠ BitVec.ofNat 8 (h.rd A.PTP_DS).toNat))
    ∧ (let x : Fin 4 := 3;
       let m : List Byte := 0x0B :: List.replicate 43 0;
       let t : Nat := 0;
       let rest : List (List Byte × Nat) := [];
       let h : Hub := (hubWith [(R.PTP_CTRL_EN, 1)]).setPtp 3 { PtpPort.reset with inq := [(0x0B :: List.replicate 43 0, 0)] };
       (h.awake = true) ∧ ((h.ptp x).inq = (m, t) :: rest) ∧ (h.on R.PTP_CTRL_EN = true) ∧ (44 ≤ m.length)
       ∧ (m.getD 4 0#8 = BitVec.ofNat 8 (h.rd A.PTP_DS).toNat)
       ∧ ((m.getD 0 0#8).toNat % 16 = 0 ∨ (m.getD 0 0#8).toNat % 16 = 11))
    ∧ (let x : Fin 4 := 3;
       let m : List Byte := 0x02 :: List.replicate 53 0;
       let t : Nat := 0;
       let rest : List (List Byte × Nat) := [];
       let h : Hub := (hubWith [(R.PTP_CTRL_EN, 1), (R.PTP_PORT_CTRL_EN 3, 1), (R.ETH_STATUS_LINK 3, 2)]).setPtp 3 { PtpPort.reset with inq := [(0x02 :: List.replicate 53 0, 0)] };
       (h.awake = true) ∧ (h.on R.PTP_STATUS_APPLY_PENDING = false) ∧ ((h.ptp x).inq = (m, t) :: rest) ∧ (44 ≤ m.length)
       ∧ (m.getD 4 0#8 = BitVec.ofNat 8 (h.rd A.PTP_DS).toNat) ∧ ((m.getD 0 0#8).toNat % 16 = 2) ∧ (h.ptpState x ≠ 0)
       ∧ (h.on R.PTP_CTRL_TWO_STEP = false))
    ∧ (let x : Fin 4 := 3;
       let m : List Byte := [3, 0x12, 0, 54] ++ List.replicate 49 0 ++ [4];
       let t : Nat := 1000;
       let rest : List (List Byte × Nat) := [];
       let r : PtpReq := ⟨0, 0, none⟩;
       let h : Hub := (hubWith [(R.PTP_CTRL_EN, 1)]).setPtp 3 { PtpPort.reset with req := some ⟨0, 0, none⟩, inq := [([3, 0x12, 0, 54] ++ List.replicate 49 0 ++ [4], 1000)] };
       (h.awake = true) ∧ ((h.ptp x).inq = (m, t) :: rest) ∧ (h.on R.PTP_CTRL_EN = true) ∧ (44 ≤ m.length)
       ∧ (m.getD 4 0#8 = BitVec.ofNat 8 (h.rd A.PTP_DS).toNat) ∧ ((m.getD 0 0#8).toNat % 16 = 3)
       ∧ ((h.ptp x).req = some r) ∧ (msgSeq m = r.seq) ∧ ((m.drop 44).take 10 = h.ptpPortId x)
       ∧ ((m.getD 6 0#8).getLsbD 1 = false))
    ∧ (let x : Fin 4 := 3;
       let h : Hub := hubWith [(R.PTP_CTRL_EN, 1)]; (h.awake = true) ∧ (h.on R.PTP_STATUS_APPLY_PENDING = false)
       ∧ (h.ptpState x ≠ 1))
    ∧ (let x : Fin 4 := 3;
       let h : Hub := hubWith [(R.PTP_CTRL_EN, 1), (R.PTP_STATUS_APPLY_PENDING, 1)]; (h.awake = true)
       ∧ (h.on R.PTP_STATUS_APPLY_PENDING = true) ∧ (h.ptpAdopt.ptpState x ≠ 1))
    ∧ (let x : Fin 4 := 3;
       let h : Hub := hubWith [(R.PTP_CTRL_EN, 1), (R.PTP_PORT_CTRL_EN 3, 1), (R.ETH_STATUS_LINK 3, 2), (R.TIME_STATUS_VALID, 1), (R.PTP_STATUS_APPLY_PENDING, 1)];
       let t : Hub := h; (h.awake = true) ∧ (h.on R.PTP_STATUS_APPLY_PENDING = true) ∧ (h.ptpAdopt.ptpState x = 1))
    ∧ (let x : Fin 4 := 3;
       let h : Hub := hubWith [(R.PTP_CTRL_EN, 1), (R.PTP_PORT_CTRL_EN 3, 1), (R.ETH_STATUS_LINK 3, 2), (R.TIME_STATUS_VALID, 1), (R.PTP_STATUS_ORIGIN_SET, 1)];
       (h.awake = true) ∧ (h.ptpState x = 1) ∧ (h.on R.PTP_STATUS_APPLY_PENDING = false)
       ∧ (h.on R.PTP_CTRL_TWO_STEP = false))
    ∧ (let x : Fin 4 := 3;
       let h : Hub := hubWith [(R.PTP_CTRL_EN, 1), (R.PTP_PORT_CTRL_EN 3, 1), (R.ETH_STATUS_LINK 3, 2), (R.TIME_STATUS_VALID, 1), (R.PTP_STATUS_ORIGIN_SET, 1)];
       (h.awake = true) ∧ (h.ptpState x = 1) ∧ (h.on R.PTP_STATUS_APPLY_PENDING = false))
    ∧ (let x : Fin 4 := 3; let h : Hub := hubWith [(R.PTP_CTRL_EN, 1)]; (h.awake = true)) :=
  by and_intros <;> decide

/-- States and operands that meet the hypotheses of `Obligations.SerialCommands`. -/
theorem test_witness_SerialCommands :
    (let c : Fin 8 := 7;
     let b : Byte := 0xFF;
     let par : Bool := false;
     let n : Nat := 95;
     let h : Hub := hubWith [(R.SER_CFG_EN 7, 1), (R.SER_CFG_FRAME_MODE 7, 1), (R.TUNC_BOUND_BINDING 95, 0x20102)];
     (h.awake = true) ∧ (h.defPower = false) ∧ (h.on (R.SER_CFG_EN c) = true) ∧ (h.serDeaf c = false)
     ∧ ((h.parityOf c ((List.range (h.dataBits c)).map (fun i => bit b.toNat i))).all (fun q => q == par) = true)
     ∧ (h.serTunnel c = some n) ∧ ((h.chan c).closed = []) ∧ (h.on (R.SER_CFG_FRAME_MODE c) = true)
     ∧ ((h.chan c).fill.length < 511))
    ∧ (let c : Fin 8 := 7;
       let b : Byte := 1;
       let err : Bool := true;
       let v : Byte := 1;
       let par : Bool := false;
       let stop : Bool := false;
       let n : Nat := 95;
       let h : Hub := hubWith [(R.SER_CFG_EN 7, 1), (R.SER_CFG_FRAME_MODE 7, 1), (R.TUNC_BOUND_BINDING 95, 0x20102)];
       (h.awake = true) ∧ (h.defPower = false) ∧ (h.on (R.SER_CFG_EN c) = true) ∧ (h.serDeaf c = false)
       ∧ (h.serRead c v par stop = (b, err, false)) ∧ (h.serTunnel c = some n) ∧ ((h.chan c).closed.length < 2)
       ∧ (h.on (R.SER_CFG_FRAME_MODE c) = true) ∧ ((h.chan c).fill.length < 511))
    ∧ (let c : Fin 8 := 7;
       let b : Byte := 0;
       let err : Bool := true;
       let v : Byte := 0;
       let par : Bool := true;
       let stop : Bool := false;
       let h : Hub := hubWith [(R.SER_CFG_EN 7, 1)]; (h.awake = true) ∧ (h.defPower = false)
       ∧ (h.on (R.SER_CFG_EN c) = true) ∧ (h.serDeaf c = false) ∧ (h.serRead c v par stop = (b, err, true)))
    ∧ (let c : Fin 8 := 7;
       let b : Byte := 1;
       let err : Bool := true;
       let v : Byte := 1;
       let par : Bool := false;
       let stop : Bool := false;
       let n : Nat := 95;
       let h : Hub := (hubWith [(R.SER_CFG_EN 7, 1), (R.TUNC_BOUND_BINDING 95, 0x20102)]).setChan 7 { SerChan.reset with closed := [⟨[1], true, false, 0⟩, ⟨[1], true, false, 0⟩] };
       (h.awake = true) ∧ (h.defPower = false) ∧ (h.on (R.SER_CFG_EN c) = true) ∧ (h.serDeaf c = false)
       ∧ (h.serRead c v par stop = (b, err, false)) ∧ (h.serTunnel c = some n) ∧ (2 ≤ (h.chan c).closed.length))
    ∧ (let c : Fin 8 := 7;
       let b : Byte := 1;
       let err : Bool := true;
       let v : Byte := 1;
       let par : Bool := false;
       let stop : Bool := false;
       let n : Nat := 95;
       let h : Hub := (hubWith [(R.SER_CFG_EN 7, 1), (R.SER_CFG_FRAME_MODE 7, 1), (R.TUNC_BOUND_BINDING 95, 0x20102)]).setChan 7 { SerChan.reset with fill := List.replicate 511 0 };
       (h.awake = true) ∧ (h.defPower = false) ∧ (h.on (R.SER_CFG_EN c) = true) ∧ (h.serDeaf c = false)
       ∧ (h.serRead c v par stop = (b, err, false)) ∧ (h.serTunnel c = some n) ∧ ((h.chan c).closed = [])
       ∧ (h.on (R.SER_CFG_FRAME_MODE c) = true) ∧ ((h.chan c).fill.length = 511))
    ∧ (let c : Fin 8 := 7;
       let b : Byte := 1;
       let err : Bool := true;
       let v : Byte := 1;
       let par : Bool := false;
       let stop : Bool := false;
       let h : Hub := hubWith [(R.SER_CFG_EN 7, 1)]; (h.awake = true) ∧ (h.defPower = false)
       ∧ (h.on (R.SER_CFG_EN c) = true) ∧ (h.serDeaf c = false) ∧ (h.serRead c v par stop = (b, err, false))
       ∧ (h.serTunnel c = none))
    ∧ (let c : Fin 8 := 7;
       let v : Byte := 0;
       let par : Bool := false;
       let stop : Bool := false;
       let h : Hub := hubWith []; (h.awake = true) ∧ (h.defPower = false)
       ∧ (h.on (R.SER_CFG_EN c) = false ∨ h.serDeaf c = true))
    ∧ (let c : Fin 8 := 7;
       let h : Hub := (hubWith []).setChan 7 { SerChan.reset with fill := [1] }; (h.awake = true) ∧ (h.defPower = false)
       ∧ ((h.chan c).fill ≠ []))
    ∧ (let c : Fin 8 := 7;
       let n : Nat := 95;
       let p : SerRx := ⟨[1], true, false, 5⟩;
       let ps : List SerRx := [];
       let h : Hub := (hubWith [(R.SER_CFG_EN 7, 1), (R.TUNC_BOUND_BINDING 95, 0x20101)]).setChan 7 { SerChan.reset with closed := [⟨[1], true, false, 5⟩] };
       (h.awake = true) ∧ (h.defPower = false) ∧ (h.serTunnel c = some n) ∧ (h.bindMode n = 1)
       ∧ (h.on R.FAB_STATUS_REBUILD = false) ∧ ((h.chan c).closed = p :: ps))
    ∧ (let c : Fin 8 := 7;
       let h : Hub := (hubWith [(R.SER_CFG_EN 7, 1), (R.TUNC_BOUND_BINDING 95, 0x20101), (R.FAB_STATUS_REBUILD, 1)]).setChan 7 { SerChan.reset with closed := [⟨[1], true, false, 5⟩] };
       (h.awake = true) ∧ (h.defPower = false) ∧ (h.on R.FAB_STATUS_REBUILD = true))
    ∧ (let c : Fin 8 := 7;
       let n : Fin 96 := 95;
       let p : Packet := ⟨0, .M, 0, 0, 0, 0, false, false, false, 0, 0x87, 0, [0x0201]⟩;
       let h : Hub := (hubWith [(R.SER_CFG_EN 7, 1), (R.TUNC_BOUND_BINDING 95, 0x20102)]).epGive 95 ⟨0, .M, 0, 0, 0, 0, false, false, false, 0, 0x87, 0, [0x0201]⟩;
       (h.awake = true) ∧ (h.defPower = false) ∧ (h.bindMode n ≠ 0) ∧ (h.bindEnd n = 0x10) ∧ (h.epNext 10 n = some p)
       ∧ (p.aux % 8 = c.val) ∧ (bit (h.bindArg n) c = true) ∧ (p.kind = 0) ∧ (0 < p.aux / 64) ∧ (p.aux / 64 ≤ 512)
       ∧ (p.length = (p.aux / 64 + 3) / 4) ∧ (h.on (R.SER_CFG_EN c) = true) ∧ ((h.chan c).tx = []))
    ∧ (let c : Fin 8 := 7;
       let n : Fin 96 := 95;
       let p : Packet := ⟨0, .M, 0, 0, 0, 0, false, false, false, 0, 0x87, 0, [0x0201]⟩;
       let h : Hub := (hubWith [(R.SER_CFG_EN 7, 1), (R.TUNC_BOUND_BINDING 95, 0x10102)]).epGive 95 ⟨0, .M, 0, 0, 0, 0, false, false, false, 0, 0x87, 0, [0x0201]⟩;
       (h.awake = true) ∧ (h.defPower = false) ∧ (h.bindMode n ≠ 0) ∧ (h.bindEnd n = 0x10) ∧ (h.epNext 10 n = some p)
       ∧ (p.aux % 8 = c.val) ∧ (bit (h.bindArg n) c = false))
    ∧ (let c : Fin 8 := 7;
       let b : Byte := 0xAB;
       let bs : List Byte := [1];
       let s : Bool := true;
       let n : Nat := 95;
       let ts : List SerTx := [];
       let h : Hub := (hubWith [(R.SER_CFG_EN 7, 1)]).setChan 7 { SerChan.reset with tx := [⟨[0xAB, 1], false, true, 95⟩] };
       let x : SerChan := h.serRaise c (h.chan c); (h.awake = true) ∧ (h.defPower = false)
       ∧ (h.on (R.SER_CFG_EN c) = true) ∧ (x = h.serRaise c (h.chan c)) ∧ (h.serMay c x = true)
       ∧ (x.tx = ⟨b :: bs, false, s, n⟩ :: ts))
    ∧ (let c : Fin 8 := 7;
       let bs : List Byte := [1];
       let s : Bool := false;
       let n : Nat := 95;
       let ts : List SerTx := [];
       let h : Hub := (hubWith [(R.SER_CFG_EN 7, 1)]).setChan 7 { SerChan.reset with tx := [⟨[1], true, false, 95⟩] };
       let x : SerChan := h.serRaise c (h.chan c); (h.awake = true) ∧ (h.defPower = false)
       ∧ (h.on (R.SER_CFG_EN c) = true) ∧ (x = h.serRaise c (h.chan c)) ∧ (h.serMay c x = true)
       ∧ (x.tx = ⟨bs, true, s, n⟩ :: ts))
    ∧ (let c : Fin 8 := 7;
       let h : Hub := (hubWith [(R.SER_CFG_EN 7, 1), (R.SER_CFG_RS485 7, 1), (R.SER_DE_LEAD 7, 4)]).setChan 7 { SerChan.reset with rts := true, deAt := 0, tx := [⟨[0xAB, 1], false, true, 95⟩] };
       (h.awake = true) ∧ (h.defPower = false) ∧ (h.on (R.SER_CFG_EN c) = true)
       ∧ (h.serMay c (h.serRaise c (h.chan c)) = false))
    ∧ (let c : Fin 8 := 7;
       let h : Hub := hubWith []; (h.awake = true) ∧ (h.defPower = false) ∧ (h.on (R.SER_CFG_EN c) = false))
    ∧ (let c : Fin 8 := 7;
       let h : Hub := { (hubWith [(R.SER_CFG_EN 7, 1), (R.SER_CFG_RS485 7, 1)]).setChan 7 { SerChan.reset with rts := true } with root := 2 ^ 30 };
       (h.awake = true) ∧ (h.defPower = false) ∧ (h.rs485 c = true) ∧ (h.on (R.SER_CFG_EN c) = true)
       ∧ ((h.chan c).tx = []) ∧ ((h.chan c).charEnd + h.get (R.SER_DE_TRAIL c) * h.bitTime c ≤ h.root))
    ∧ (let c : Fin 8 := 7;
       let a : Bool := true;
       let h : Hub := hubWith [(R.SER_CFG_EN 7, 1)]; (h.awake = true) ∧ (h.defPower = false))
    ∧ (let c : Fin 8 := 7;
       let h : Hub := (hubWith []).setChan 7 { SerChan.reset with fill := [1] }; (h.awake = true) ∧ (h.defPower = false))
    ∧ (let c : Fin 8 := 7; let h : Hub := hubWith [(R.SER_CFG_EN 7, 1)]; (h.awake = true) ∧ (h.defPower = false)) :=
  by and_intros <;> decide

/-- States and operands that meet the hypotheses of `Obligations.UsbPortCommands`. -/
theorem test_witness_UsbPortCommands :
    (let p : Fin 4 := 3;
     let h : Hub := hubWith [(R.USBH_CTRL_EN, 1)]; (h.awake = true) ∧ (h.defPower = false) ∧ (h.on R.USBH_CTRL_EN = true)
     ∧ (h.usbState p = upOff) ∧ (h.on (R.USBH_PORT_STATUS_OC p) = false))
    ∧ (let p : Fin 4 := 3;
       let h : Hub := hubWith [(R.USBH_CTRL_EN, 1), (R.USBH_PORT_STATUS_OC 3, 1)]; (h.awake = true) ∧ (h.defPower = false)
       ∧ (h.on (R.USBH_PORT_STATUS_OC p) = true))
    ∧ (let p : Fin 4 := 3;
       let h : Hub := (hubWith []).setUsbPort 3 { UsbPort.reset with vbus := true }; (h.awake = true)
       ∧ (h.defPower = false) ∧ (h.usbState p = upOff) ∧ ((h.usbPort p).vbus = true))
    ∧ (let p : Fin 4 := 3; let h : Hub := hubWith []; (h.awake = true) ∧ (h.defPower = false))
    ∧ (let p : Fin 4 := 3;
       let h : Hub := hubWith [(R.USBH_PORT_STATUS_STATE 3, 4)]; (h.awake = true) ∧ (h.defPower = false)
       ∧ (h.usbState p = upDisabled ∨ h.usbState p = upEnabled))
    ∧ (let p : Fin 4 := 3;
       let h : Hub := hubWith [(R.USBH_PORT_STATUS_STATE 3, 3)]; (h.awake = true) ∧ (h.defPower = false)
       ∧ (h.usbState p = upResetting))
    ∧ (let p : Fin 4 := 3;
       let h : Hub := hubWith [(R.USBH_PORT_STATUS_STATE 3, 4)]; (h.awake = true) ∧ (h.defPower = false)
       ∧ (h.usbState p = upEnabled))
    ∧ (let p : Fin 4 := 3;
       let h : Hub := hubWith [(R.USBH_PORT_STATUS_STATE 3, 5)]; (h.awake = true) ∧ (h.defPower = false)
       ∧ (h.usbState p = upSuspended))
    ∧ (let p : Fin 4 := 3;
       let h : Hub := hubWith []; (h.awake = true) ∧ (h.defPower = false) ∧ (h.usbState p ≠ upSuspended))
    ∧ (let p : Fin 4 := 3;
       let h : Hub := hubWith [(R.USBH_PORT_STATUS_STATE 3, 6)]; (h.awake = true) ∧ (h.defPower = false)
       ∧ (h.usbState p = upResuming))
    ∧ (let p : Fin 4 := 3;
       let low : Bool := true;
       let h : Hub := hubWith [(R.USBH_PORT_STATUS_STATE 3, 1)]; (h.awake = true) ∧ (h.defPower = false)
       ∧ (h.usbState p = upDisconnected))
    ∧ (let p : Fin 4 := 3;
       let low : Bool := true;
       let h : Hub := hubWith []; (h.awake = true) ∧ (h.defPower = false) ∧ (h.usbState p ≠ upDisconnected))
    ∧ (let p : Fin 4 := 3;
       let h : Hub := hubWith [(R.USBH_PORT_STATUS_STATE 3, 4)]; (h.awake = true) ∧ (h.defPower = false)
       ∧ (h.usbState p ≠ upOff) ∧ (h.usbState p ≠ upDisconnected)) :=
  by and_intros <;> decide

/-- States and operands that meet the hypotheses of `Obligations.UsbSplitCommands`. -/
theorem test_witness_UsbSplitCommands :
    (let p : Fin 4 := 3;
     let k : Fin 3 := 0;
     let r : UsbRec := recOf 0x80 0x80000 [];
     let h : Hub := (hubWith [(R.CLK_STATUS_MODE, 2), (R.TUNC_BOUND_BINDING 95, 0x211)]).epGive 95 ⟨0, .M, 0, 0, 0, 0, false, false, false, 0, 0, 0, [0x80, 0x40080000]⟩;
     let g : Hub := (h.usbTake 3 0 0).1; (h.awake = true) ∧ (h.usbStopped = false) ∧ (h.usbTake p k 0 = (g, some r))
     ∧ (g.usbHalts p k r = false) ∧ (r.hub = false) ∧ (g.usbState p ≠ upEnabled))
    ∧ (let p : Fin 4 := 3;
       let k : Fin 3 := 0;
       let r : UsbRec := recOf 0x80 0x80000 [];
       let h : Hub := (hubWith [(R.CLK_STATUS_MODE, 2), (R.USBH_PORT_STATUS_STATE 3, 4), (R.TUNC_BOUND_BINDING 95, 0x211)]).epGive 95 ⟨0, .M, 0, 0, 0, 0, false, false, false, 0, 0, 0, [0x80, 0x40080000]⟩;
       let g : Hub := (h.usbTake 3 0 0).1; (h.awake = true) ∧ (h.usbStopped = false) ∧ (h.usbTake p k 0 = (g, some r))
       ∧ (g.usbHalts p k r = false) ∧ (r.hub = false))
    ∧ (let p : Fin 4 := 3;
       let k : Fin 3 := 0;
       let r : UsbRec := recOf 0x8080 0x80000 [];
       let h : Hub := (hubWith [(R.CLK_STATUS_MODE, 2), (R.TUNC_BOUND_BINDING 95, 0x211)]).epGive 95 ⟨0, .M, 0, 0, 0, 0, false, false, false, 0, 0, 0, [0x8080, 0x40080000]⟩;
       let g : Hub := (h.usbTake 3 0 0).1; (h.awake = true) ∧ (h.usbStopped = false) ∧ (h.usbTake p k 0 = (g, some r))
       ∧ (g.usbHalts p k r = false) ∧ (r.hub = true))
    ∧ (let p : Fin 4 := 3;
       let k : Fin 3 := 0;
       let h : Hub := (hubWith [(R.CLK_STATUS_MODE, 2), (R.TUNC_BOUND_BINDING 95, 0x211)]).epGive 95 ⟨0, .M, 0, 0, 0, 0, false, false, false, 0, 0, 0, [0x80]⟩;
       let g : Hub := (h.usbTake 3 0 0).1; (h.awake = true) ∧ (h.usbStopped = false) ∧ (h.usbTake p k 0 = (g, none)))
    ∧ (let p : Fin 4 := 3;
       let k : Fin 3 := 0;
       let r : UsbRec := recOf 0x80 0x80000 [];
       let h : Hub := ((hubWith [(R.CLK_STATUS_MODE, 2), (R.TUNC_BOUND_BINDING 95, 0x211)]).epGive 95 ⟨0, .M, 0, 0, 0, 0, false, false, false, 0, 0, 0, [0x80, 0x40080000]⟩).setUsbPort 3 { UsbPort.reset with i0 := { UsbInst.reset with halted := true } };
       let g : Hub := (h.usbTake 3 0 0).1; (h.awake = true) ∧ (h.usbStopped = false) ∧ (h.usbTake p k 0 = (g, some r))
       ∧ (g.usbHalts p k r = true))
    ∧ (let p : Fin 4 := 3;
       let k : Fin 3 := 0;
       let r : UsbRec := recOf 0x80 0x80000 [];
       let h : Hub := hubWith [(R.CLK_STATUS_MODE, 2)]; (h.awake = true) ∧ (h.usbStopped = false)
       ∧ ((h.usbPort p).splits = []))
    ∧ (let p : Fin 4 := 3;
       let k : Fin 3 := 0;
       let r : UsbRec := recOf 0x10 0 [];
       let h : Hub := (hubWith [(R.CLK_STATUS_MODE, 2), (R.TUNC_BOUND_BINDING 95, 0x211)]).epGive 95 ⟨0, .M, 0, 0, 0, 0, false, false, false, 0, 0, 0, [0x10, 0]⟩;
       let g : Hub := (h.usbTake 3 0 1).1; (h.awake = true) ∧ (h.usbStopped = false) ∧ (h.usbTake p k 1 = (g, some r))
       ∧ ((g.usbPort p).named k r = none))
    ∧ (let p : Fin 4 := 3;
       let k : Fin 3 := 0;
       let r : UsbRec := recOf 0x10 0 [];
       let s : UsbSplit := ⟨0, recOf 0 0 [], some ⟨0, false, []⟩, 0, 0, 0⟩;
       let v : UsbRes := ⟨0, false, []⟩;
       let h : Hub := ((hubWith [(R.CLK_STATUS_MODE, 2), (R.TUNC_BOUND_BINDING 95, 0x211)]).epGive 95 ⟨0, .M, 0, 0, 0, 0, false, false, false, 0, 0, 0, [0x10, 0]⟩).setUsbPort 3 { UsbPort.reset with splits := [⟨0, recOf 0 0 [], some ⟨0, false, []⟩, 0, 0, 0⟩] };
       let g : Hub := (h.usbTake 3 0 1).1; (h.awake = true) ∧ (h.usbStopped = false) ∧ (h.usbTake p k 1 = (g, some r))
       ∧ ((g.usbPort p).named k r = some s) ∧ (s.res = some v))
    ∧ (let p : Fin 4 := 3;
       let k : Fin 3 := 0;
       let r : UsbRec := recOf 0x10 0 [];
       let s : UsbSplit := ⟨0, recOf 0 0 [], none, 0, 0, 0⟩;
       let h : Hub := ((hubWith [(R.CLK_STATUS_MODE, 2), (R.TUNC_BOUND_BINDING 95, 0x211)]).epGive 95 ⟨0, .M, 0, 0, 0, 0, false, false, false, 0, 0, 0, [0x10, 0]⟩).setUsbPort 3 { UsbPort.reset with splits := [⟨0, recOf 0 0 [], none, 0, 0, 0⟩] };
       let g : Hub := (h.usbTake 3 0 1).1; (h.awake = true) ∧ (h.usbStopped = false) ∧ (h.usbTake p k 1 = (g, some r))
       ∧ ((g.usbPort p).named k r = some s) ∧ (s.res = none))
    ∧ (let p : Fin 4 := 3;
       let k : Fin 3 := 0;
       let r : UsbRec := recOf 0x30 0 [];
       let h : Hub := ((hubWith [(R.CLK_STATUS_MODE, 2), (R.TUNC_BOUND_BINDING 95, 0x211)]).epGive 95 ⟨0, .M, 0, 0, 0, 0, false, false, false, 0, 0, 0, [0x30, 0]⟩).setUsbPort 3 { UsbPort.reset with i0 := { UsbInst.reset with halted := true } };
       let g : Hub := (h.usbTake 3 0 3).1; (h.awake = true) ∧ (h.usbStopped = false) ∧ (h.usbTake p k 3 = (g, some r))
       ∧ ((g.usbPort p).named k r = none))
    ∧ (let p : Fin 4 := 3;
       let k : Fin 3 := 0;
       let r : UsbRec := recOf 0x30 0 [];
       let s : UsbSplit := ⟨0, recOf 0 0 [], none, 0, 0, 0⟩;
       let h : Hub := ((hubWith [(R.CLK_STATUS_MODE, 2), (R.TUNC_BOUND_BINDING 95, 0x211)]).epGive 95 ⟨0, .M, 0, 0, 0, 0, false, false, false, 0, 0, 0, [0x30, 0]⟩).setUsbPort 3 { UsbPort.reset with i0 := { UsbInst.reset with halted := true }, splits := [⟨0, recOf 0 0 [], none, 0, 0, 0⟩] };
       let g : Hub := (h.usbTake 3 0 3).1; (h.awake = true) ∧ (h.usbStopped = false) ∧ (h.usbTake p k 3 = (g, some r))
       ∧ ((g.usbPort p).named k r = some s))
    ∧ (let p : Fin 4 := 3;
       let k : Fin 3 := 0;
       let s : UsbSplit := ⟨0, recOf 0x40 0x80000 [1, 2, 3, 4, 5, 6, 7, 8], none, 0, 0, 0⟩;
       let out : Bool := false;
       let h : Hub := (hubWith [(R.CLK_STATUS_MODE, 2), (R.USBH_PORT_STATUS_STATE 3, 4)]).setUsbPort 3 { UsbPort.reset with splits := [⟨0, recOf 0x40 0x80000 [1, 2, 3, 4, 5, 6, 7, 8], none, 0, 0, 0⟩] };
       (h.awake = true) ∧ (h.usbStopped = false) ∧ (h.usbState p = upEnabled) ∧ (h.usbNext p = some s)
       ∧ (s.rec_.token ≠ 2) ∧ ((h.usbPort p).pings.contains s.rec_.endpoint = false)
       ∧ (out = (s.rec_.token == 1 && (s.rec_.typ == 0 || s.rec_.typ == 2) && h.usbSpeed p == 2)))
    ∧ (let p : Fin 4 := 3;
       let k : Fin 3 := 0;
       let s : UsbSplit := ⟨0, recOf 0x40 0x80000 [1, 2, 3, 4, 5, 6, 7, 8], none, 0, 0, 0⟩;
       let out : Bool := false;
       let h : Hub := (hubWith [(R.CLK_STATUS_MODE, 2), (R.USBH_PORT_STATUS_STATE 3, 4), (R.USBH_PORT_STATUS_SPEED 3, 2)]).setUsbPort 3 { UsbPort.reset with pings := [(0, 0, false)], splits := [⟨0, recOf 0x40 0x80000 [1, 2, 3, 4, 5, 6, 7, 8], none, 0, 0, 0⟩] };
       (h.awake = true) ∧ (h.usbStopped = false) ∧ (h.usbState p = upEnabled) ∧ (h.usbNext p = some s)
       ∧ (s.rec_.token = 1) ∧ (s.rec_.typ = 0 ∨ s.rec_.typ = 2) ∧ (h.usbSpeed p = 2)
       ∧ ((h.usbPort p).pings.contains s.rec_.endpoint = true))
    ∧ (let p : Fin 4 := 3;
       let k : Fin 3 := 0;
       let s : UsbSplit := ⟨0, recOf 0x80 0x80000 [], none, 0, 0, 0⟩;
       let d1 : Bool := true;
       let bs : List Byte := [1];
       let h : Hub := (hubWith [(R.CLK_STATUS_MODE, 2), (R.USBH_PORT_STATUS_STATE 3, 4)]).setUsbPort 3 { UsbPort.reset with splits := [⟨0, recOf 0x80 0x80000 [], none, 0, 0, 0⟩] };
       (h.awake = true) ∧ (h.usbStopped = false) ∧ (h.usbState p = upEnabled) ∧ (h.usbNext p = some s)
       ∧ (s.rec_.token = 2) ∧ (bs.length ≤ s.rec_.bytes))
    ∧ (let p : Fin 4 := 3;
       let k : Fin 3 := 0;
       let s : UsbSplit := ⟨0, recOf 0x40 0x80000 [1, 2, 3, 4, 5, 6, 7, 8], none, 0, 0, 0⟩;
       let h : Hub := (hubWith [(R.CLK_STATUS_MODE, 2), (R.USBH_PORT_STATUS_STATE 3, 4), (R.USBH_CTRL_NAK_LIMIT, 9)]).setUsbPort 3 { UsbPort.reset with splits := [⟨0, recOf 0x40 0x80000 [1, 2, 3, 4, 5, 6, 7, 8], none, 0, 0, 0⟩] };
       (h.awake = true) ∧ (h.usbStopped = false) ∧ (h.usbState p = upEnabled) ∧ (h.usbNext p = some s)
       ∧ (s.naks + 1 < h.get R.USBH_CTRL_NAK_LIMIT))
    ∧ (let p : Fin 4 := 3;
       let k : Fin 3 := 0;
       let o : UsbOutcome := .nak;
       let h : Hub := hubWith [(R.CLK_STATUS_MODE, 2)]; (h.awake = true) ∧ (h.usbStopped = false)
       ∧ (h.usbState p ≠ upEnabled))
    ∧ (let p : Fin 4 := 3;
       let k : Fin 3 := 0;
       let a : Fin 16 := 0;
       let s : UsbSplit := ⟨0, recOf 0 0 [], some ⟨0, false, []⟩, 0, 0, 0⟩;
       let h : Hub := ({ hubWith [(R.CLK_STATUS_MODE, 2)] with usb := { (hubWith [(R.CLK_STATUS_MODE, 2)]).usb with uf := 70000 } }).setUsbPort 3 { UsbPort.reset with splits := [⟨0, recOf 0 0 [], some ⟨0, false, []⟩, 0, 0, 0⟩] };
       (h.awake = true) ∧ (h.usbStopped = false) ∧ ((h.usbPort p).split? k a = some s) ∧ (s.res.isSome = true)
       ∧ (s.doneUf + h.get R.USBH_CTRL_HOLD_UF ≤ h.usb.uf))
    ∧ (let p : Fin 4 := 3;
       let k : Fin 3 := 0;
       let h : Hub := hubWith [(R.CLK_STATUS_MODE, 2), (R.USBH_CTRL_SOF_EN, 1)]; (h.awake = true) ∧ (h.usbStopped = false)
       ∧ (h.on R.USBH_CTRL_SOF_EN = true))
    ∧ (let p : Fin 4 := 3;
       let k : Fin 3 := 0;
       let h : Hub := hubWith [(R.CLK_STATUS_MODE, 2)]; (h.awake = true) ∧ (h.usbStopped = false)
       ∧ (h.on R.USBH_CTRL_SOF_EN = false)) :=
  by and_intros <;> decide

/-- States and operands that meet the hypotheses of `Obligations.UsbFunctionCommands`. -/
theorem test_witness_UsbFunctionCommands :
    (let q : Nat := 3;
     let bs : List Byte := [0x80, 6, 0, 1, 0, 0, 18, 0];
     let r : UsbReq := reqOf bs;
     let h : Hub := { hubWith [(R.CLK_STATUS_MODE, 2)] with usb := { UsbState.reset with setup := some (q, bs) } };
     (h.awake = true) ∧ (h.usbStopped = false) ∧ (h.usb.setup = some (q, bs)) ∧ (r = reqOf bs)
     ∧ (r.kind = .getDescriptor))
    ∧ (let q : Nat := 3;
       let bs : List Byte := [0, 9, 1, 0, 0, 0, 0, 0];
       let r : UsbReq := reqOf bs;
       let h : Hub := { hubWith [(R.CLK_STATUS_MODE, 2)] with usb := { UsbState.reset with setup := some (q, bs) } };
       (h.awake = true) ∧ (h.usbStopped = false) ∧ (h.usb.setup = some (q, bs)) ∧ (r = reqOf bs)
       ∧ (r.kind = .setConfiguration))
    ∧ (let q : Nat := 3;
       let bs : List Byte := [0x80, 0, 0, 0, 0, 0, 2, 0];
       let r : UsbReq := reqOf bs;
       let h : Hub := { hubWith [(R.CLK_STATUS_MODE, 2)] with usb := { UsbState.reset with setup := some (q, bs) } };
       (h.awake = true) ∧ (h.usbStopped = false) ∧ (h.usb.setup = some (q, bs)) ∧ (r = reqOf bs) ∧ (r.kind = .getStatus))
    ∧ (let q : Nat := 3;
       let bs : List Byte := [0xA0, 0, 0, 0, 0, 0, 4, 0];
       let r : UsbReq := reqOf bs;
       let h : Hub := { hubWith [(R.CLK_STATUS_MODE, 2)] with usb := { UsbState.reset with setup := some (q, bs) } };
       (h.awake = true) ∧ (h.usbStopped = false) ∧ (h.usb.setup = some (q, bs)) ∧ (r = reqOf bs)
       ∧ (r.kind = .getHubStatus))
    ∧ (let q : Nat := 3;
       let bs : List Byte := [0xA3, 0, 0, 0, 4, 0, 4, 0];
       let r : UsbReq := reqOf bs;
       let p : Nat := 3;
       let h : Hub := { hubWith [(R.CLK_STATUS_MODE, 2)] with usb := { UsbState.reset with setup := some (q, bs) } };
       (h.awake = true) ∧ (h.usbStopped = false) ∧ (h.usb.setup = some (q, bs)) ∧ (r = reqOf bs)
       ∧ (r.kind = .getPortStatus) ∧ (r.port = some p))
    ∧ (let q : Nat := 3;
       let bs : List Byte := [0x23, 3, 4, 0, 4, 0, 0, 0];
       let r : UsbReq := reqOf bs;
       let p : Nat := 3;
       let h : Hub := { hubWith [(R.CLK_STATUS_MODE, 2), (R.USBH_PORT_STATUS_STATE 3, 4)] with usb := { UsbState.reset with setup := some (q, bs) } };
       (h.awake = true) ∧ (h.usbStopped = false) ∧ (h.usb.setup = some (q, bs)) ∧ (r = reqOf bs)
       ∧ (r.kind = .setPortFeature) ∧ (r.port = some p) ∧ (r.value = 4) ∧ (h.usbState p = upEnabled))
    ∧ (let q : Nat := 3;
       let bs : List Byte := [0x23, 3, 2, 0, 4, 0, 0, 0];
       let r : UsbReq := reqOf bs;
       let p : Nat := 3;
       let h : Hub := { hubWith [(R.CLK_STATUS_MODE, 2), (R.USBH_PORT_STATUS_STATE 3, 4)] with usb := { UsbState.reset with setup := some (q, bs) } };
       (h.awake = true) ∧ (h.usbStopped = false) ∧ (h.usb.setup = some (q, bs)) ∧ (r = reqOf bs)
       ∧ (r.kind = .setPortFeature) ∧ (r.port = some p) ∧ (r.value = 2) ∧ (h.usbState p = upEnabled))
    ∧ (let q : Nat := 3;
       let bs : List Byte := [0x23, 3, 8, 0, 4, 0, 0, 0];
       let r : UsbReq := reqOf bs;
       let p : Nat := 3;
       let h : Hub := { hubWith [(R.CLK_STATUS_MODE, 2), (R.USBH_CTRL_EN, 1)] with usb := { UsbState.reset with setup := some (q, bs) } };
       (h.awake = true) ∧ (h.usbStopped = false) ∧ (h.usb.setup = some (q, bs)) ∧ (r = reqOf bs)
       ∧ (r.kind = .setPortFeature) ∧ (r.port = some p) ∧ (r.value = 8) ∧ (h.on R.USBH_CTRL_EN = true)
       ∧ (h.usbState p = upOff) ∧ (h.on (R.USBH_PORT_STATUS_OC p) = false) ∧ (h.defPower = false))
    ∧ (let q : Nat := 3;
       let bs : List Byte := [0x23, 3, 4, 0, 0, 0, 0, 0];
       let r : UsbReq := reqOf bs;
       let h : Hub := { hubWith [(R.CLK_STATUS_MODE, 2)] with usb := { UsbState.reset with setup := some (q, bs) } };
       (h.awake = true) ∧ (h.usbStopped = false) ∧ (h.usb.setup = some (q, bs)) ∧ (r = reqOf bs) ∧ (r.resetsHub = true))
    ∧ (let q : Nat := 3;
       let bs : List Byte := [0x23, 1, 1, 0, 4, 0, 0, 0];
       let r : UsbReq := reqOf bs;
       let p : Nat := 3;
       let h : Hub := { hubWith [(R.CLK_STATUS_MODE, 2), (R.USBH_PORT_STATUS_STATE 3, 4)] with usb := { UsbState.reset with setup := some (q, bs) } };
       (h.awake = true) ∧ (h.usbStopped = false) ∧ (h.usb.setup = some (q, bs)) ∧ (r = reqOf bs)
       ∧ (r.kind = .clearPortFeature) ∧ (r.port = some p) ∧ (r.value = 1) ∧ (h.usbState p = upEnabled))
    ∧ (let q : Nat := 3;
       let bs : List Byte := [0x23, 1, 16, 0, 4, 0, 0, 0];
       let r : UsbReq := reqOf bs;
       let p : Nat := 3;
       let h : Hub := { hubWith [(R.CLK_STATUS_MODE, 2)] with usb := { UsbState.reset with setup := some (q, bs) } };
       (h.awake = true) ∧ (h.usbStopped = false) ∧ (h.usb.setup = some (q, bs)) ∧ (r = reqOf bs)
       ∧ (r.kind = .clearPortFeature) ∧ (r.port = some p) ∧ (r.value = 16))
    ∧ (let q : Nat := 3;
       let bs : List Byte := [0x23, 8, 0, 0, 4, 0, 0, 0];
       let r : UsbReq := reqOf bs;
       let p : Nat := 3;
       let h : Hub := { hubWith [(R.CLK_STATUS_MODE, 2)] with usb := { UsbState.reset with setup := some (q, bs) } };
       (h.awake = true) ∧ (h.usbStopped = false) ∧ (h.usb.setup = some (q, bs)) ∧ (r = reqOf bs)
       ∧ (r.kind = .clearTtBuffer) ∧ (r.port = some p))
    ∧ (let q : Nat := 3;
       let bs : List Byte := [0x23, 9, 0, 0, 4, 0, 0, 0];
       let r : UsbReq := reqOf bs;
       let p : Nat := 3;
       let h : Hub := { hubWith [(R.CLK_STATUS_MODE, 2)] with usb := { UsbState.reset with setup := some (q, bs) } };
       (h.awake = true) ∧ (h.usbStopped = false) ∧ (h.usb.setup = some (q, bs)) ∧ (r = reqOf bs) ∧ (r.kind = .resetTt)
       ∧ (r.port = some p))
    ∧ (let q : Nat := 3;
       let bs : List Byte := [0xFF, 0, 0, 0, 0, 0, 0, 0];
       let r : UsbReq := reqOf bs;
       let h : Hub := { hubWith [(R.CLK_STATUS_MODE, 2)] with usb := { UsbState.reset with setup := some (q, bs) } };
       (h.awake = true) ∧ (h.usbStopped = false) ∧ (h.usb.setup = some (q, bs)) ∧ (r = reqOf bs)
       ∧ (r.kind = .unsupported))
    ∧ (let q : Nat := 3;
       let bs : List Byte := [0xFF, 0, 0, 0, 0, 0, 0, 0];
       let r : UsbReq := reqOf bs;
       let h : Hub := { hubWith [(R.CLK_STATUS_MODE, 2)] with usb := { UsbState.reset with setup := some (q, bs) } };
       (h.awake = true) ∧ (h.usbStopped = false) ∧ (h.usb.setup = some (q, bs)) ∧ (r = reqOf bs)
       ∧ (r.kind ≠ .getDescriptor))
    ∧ (let q : Nat := 3;
       let bs : List Byte := [0x80, 6, 0, 1, 0, 0, 18, 0];
       let r : UsbReq := reqOf bs;
       let h : Hub := { hubWith [(R.CLK_STATUS_MODE, 2)] with usb := { UsbState.reset with setup := some (q, bs) } };
       (h.awake = true) ∧ (h.usbStopped = false) ∧ (h.usb.setup = some (q, bs)) ∧ (r = reqOf bs)) :=
  by and_intros <;> decide

/-- States and operands that meet the hypotheses of `Obligations.EmmcCommands`. -/
theorem test_witness_EmmcCommands :
    (let i : BitVec 6 := 17;
     let r : BitVec 2 := 1;
     let d : BitVec 2 := 1;
     let h : Hub := hubWith [(R.EMMC_STATUS_BUSY, 1)]; (h.awake = true) ∧ (h.defPower = false)
     ∧ (h.on R.EMMC_STATUS_BUSY = true) ∧ (d ≠ 3))
    ∧ (let i : BitVec 6 := 17;
       let r : BitVec 2 := 1;
       let d : BitVec 2 := 1;
       let h : Hub := hubWith [(R.LOAD_STATUS_DEFAULT, 1)]; (h.awake = true) ∧ (h.defPower = true) ∧ (d ≠ 3))
    ∧ (let i : BitVec 6 := 17;
       let r : BitVec 2 := 1;
       let d : BitVec 2 := 1;
       let h : Hub := hubWith [(R.EMMC_CTRL_DIV, 8)]; (h.awake = true) ∧ (h.defPower = false)
       ∧ (h.on R.EMMC_STATUS_BUSY = false) ∧ (d ≠ 3) ∧ (h.emmcModeOk = true) ∧ ((h.rd A.EMMC_DMA_ADDR).toNat % 4 = 0))
    ∧ (let i : BitVec 6 := 17;
       let r : BitVec 2 := 1;
       let d : BitVec 2 := 1;
       let h : Hub := hubWith [(R.EMMC_CTRL_DIV, 7)]; (h.awake = true) ∧ (h.defPower = false)
       ∧ (h.on R.EMMC_STATUS_BUSY = false) ∧ (h.emmcModeOk = false))
    ∧ (let i : BitVec 6 := 17;
       let r : BitVec 2 := 1;
       let d : BitVec 2 := 1;
       let h : Hub := hubWith [(R.EMMC_CTRL_DIV, 8), (word A.EMMC_DMA_ADDR, 0x300002)]; (h.awake = true)
       ∧ (h.defPower = false) ∧ (h.on R.EMMC_STATUS_BUSY = false) ∧ (h.emmcModeOk = true)
       ∧ ((h.rd A.EMMC_DMA_ADDR).toNat % 4 ≠ 0))
    ∧ (let i : BitVec 6 := 17;
       let r : BitVec 2 := 1;
       let d : BitVec 2 := 1;
       let w : Word := 0x900;
       let dat0 : Bool := true;
       let h : Hub := { hubWith [(R.EMMC_STATUS_BUSY, 1)] with emmc := ⟨1, 0, 0, 0⟩ }; (h.awake = true)
       ∧ (h.defPower = false) ∧ (h.on R.EMMC_STATUS_BUSY = true) ∧ (h.emmc.data = 0) ∧ (h.emmc.resp = 1))
    ∧ (let i : BitVec 6 := 17;
       let r : BitVec 2 := 1;
       let d : BitVec 2 := 1;
       let resp : List Word := [0];
       let bs : List Byte := [1, 2, 3, 4];
       let dat0 : Bool := true;
       let h : Hub := { hubWith [(R.EMMC_STATUS_BUSY, 1), (R.ACC_CTRL_EN, 1), (R.ACC_REG_PERM_VALID 0, 1), (R.ACC_REG_PERM_PERM 0, 0x3FFFF), (word (A.ACC_REG_BASE 0), 0x300000 + 19)] with emmc := ⟨1, 1, 0x300000, 512⟩ };
       let k : Hub := (h.dmaStore h.emmc.addr (bs.take h.emmc.bytes)).1; (h.awake = true) ∧ (h.defPower = false)
       ∧ (h.on R.EMMC_STATUS_BUSY = true) ∧ (h.emmc.data = 1)
       ∧ (h.dmaStore h.emmc.addr (bs.take h.emmc.bytes) = (k, .ok)))
    ∧ (let i : BitVec 6 := 17;
       let r : BitVec 2 := 1;
       let d : BitVec 2 := 1;
       let resp : List Word := [];
       let bs : List Byte := [];
       let dat0 : Bool := false;
       let h : Hub := hubWith [(R.EMMC_STATUS_BUSY, 1)]; (h.awake = true) ∧ (h.defPower = false)
       ∧ (h.on R.EMMC_STATUS_BUSY = true))
    ∧ (let i : BitVec 6 := 17;
       let r : BitVec 2 := 1;
       let d : BitVec 2 := 1;
       let e : EmmcEnd := .ok;
       let resp : List Word := [];
       let bs : List Byte := [];
       let dat0 : Bool := true;
       let h : Hub := hubWith [(R.EMMC_CTRL_DIV, 8)]; (h.awake = true) ∧ (h.on R.EMMC_STATUS_BUSY = false))
    ∧ (let i : BitVec 6 := 17;
       let r : BitVec 2 := 1;
       let d : BitVec 2 := 1;
       let e : EmmcEnd := .ok;
       let resp : List Word := [];
       let bs : List Byte := [];
       let dat0 : Bool := true;
       let h : Hub := hubWith [(R.LOAD_STATUS_DEFAULT, 1), (R.EMMC_STATUS_BUSY, 1)]; (h.awake = true)
       ∧ (h.defPower = true)) :=
  by and_intros <;> decide

/-- States and operands that meet the hypotheses of `Obligations.JournalCommands`. -/
theorem test_witness_JournalCommands :
    (let h : Hub := hubWith []; (h.awake = true) ∧ (h.opWaiting .jrec = none))
    ∧ (let o : AsyncOp := ⟨.jrec, 95, true, 12, [0, 1, 2, 3, 4, 5, 6, 7], none⟩;
       let h : Hub := (hubWith [(R.SEC_STATUS_LIFECYCLE, 4)]).asyncStart 95 .jrec 12 [0, 1, 2, 3, 4, 5, 6, 7];
       (h.awake = true) ∧ (h.opWaiting .jrec = some o) ∧ (h.lifecycle = 4))
    ∧ (let o : AsyncOp := ⟨.jrec, 95, true, 12, [1, 1, 2, 3, 4, 5, 6, 7], none⟩;
       let h : Hub := (hubWith [(R.JRN_PROT_LIMIT_LIMIT, 0)]).asyncStart 95 .jrec 12 [1, 1, 2, 3, 4, 5, 6, 7];
       (h.awake = true) ∧ (h.opWaiting .jrec = some o) ∧ (h.lifecycle ≠ 4) ∧ ((o.block.getD 0 0#32).getLsbD 0 = true)
       ∧ (h.get R.JRN_PROT_LIMIT_LIMIT ≤ h.get R.JRN_PROT_CNT_COUNT))
    ∧ (let o : AsyncOp := ⟨.jrec, 95, true, 12, [0, 1, 2, 3, 4, 5, 6, 7], none⟩;
       let i : Nat := 1;
       let pass : Nat := 0;
       let k : Nat := 0;
       let h : Hub := (hubWith []).asyncStart 95 .jrec 12 [0, 1, 2, 3, 4, 5, 6, 7]; (h.awake = true)
       ∧ (h.opWaiting .jrec = some o) ∧ (h.lifecycle ≠ 4) ∧ ((o.block.getD 0 0#32).getLsbD 0 = false)
       ∧ (o.block.length = 8) ∧ (h.sealerKey = none)
       ∧ (h.slotFrom 16385 (h.get R.JRN_STATUS_HEAD) (h.get R.JRN_STATUS_PASS) 0 = (i, pass, k)))
    ∧ (let s : Nat := 2;
       let i : Nat := 1;
       let h : Hub := (hubWith [(R.JRN_CTRL_WEAR_EN, 1)]).mstore (tagAddr 2) (leBytes 4 (tagWord 95 true false false true 0));
       let g : Hub := (h.commit (h.record 2) (tagTid (h.tag 2)) true true).1; (h.awake = true)
       ∧ (h.on R.JRN_CTRL_WEAR_EN = true) ∧ (h.opWaiting .jrec = none) ∧ (h.moveNext = some s)
       ∧ (h.commit (h.record s) (tagTid (h.tag s)) true true = (g, i)))
    ∧ (let h : Hub := hubWith [(R.JRN_CTRL_WEAR_EN, 0)]; (h.awake = true) ∧ (h.on R.JRN_CTRL_WEAR_EN = false))
    ∧ (let s : BitVec 16 := 0xFFFF;
       let k : Nat := 0xFFFF;
       let h : Hub := (hubWith [(R.JRN_PROT_CNT_COUNT, 1)]).mstore (tagAddr 0xFFFF) (leBytes 4 (tagWord 95 true false false true 0));
       (h.awake = true) ∧ (k = h.currentCopy 16 s.toNat) ∧ (tagValid (h.tag k) = true) ∧ (tagProtect (h.tag k) = true))
    ∧ (let s : BitVec 16 := 5;
       let k : Nat := 5;
       let h : Hub := hubWith []; (h.awake = true) ∧ (k = h.currentCopy 16 s.toNat)
       ∧ ((tagValid (h.tag k) && tagProtect (h.tag k)) = false))
    ∧ (let e : BitVec 5 := 16;
       let n : BitVec 7 := 95;
       let share : Bool := true;
       let h : Hub := hubWith [(R.JRN_STORE_STATUS_BUSY, 1)]; (h.awake = true) ∧ (h.on R.JRN_STORE_STATUS_BUSY = true))
    ∧ (let n : BitVec 7 := 95;
       let share : Bool := true;
       let src : Nat := 0x300000;
       let k : Nat := 4;
       let h : Hub := hubWith [(R.JRN_STORE_LEN_LEN, 4), (R.ACC_CTRL_EN, 1), (R.ACC_REG_PERM_VALID 0, 1), (R.ACC_REG_PERM_PERM 0, 0x1000), (word (A.ACC_REG_BASE 0), 0x300000 + 19), (word A.JRN_STORE_SRC, 0x300000)];
       (h.awake = true) ∧ (h.on R.JRN_STORE_STATUS_BUSY = false) ∧ (h.tun.pitch = none)
       ∧ (src = (h.rd A.JRN_STORE_SRC).toNat) ∧ (k = h.get R.JRN_STORE_LEN_LEN) ∧ (0 < k) ∧ (k ≤ 229376)
       ∧ (h.sourceOk src k = (h, some true)))
    ∧ (let e : BitVec 5 := 15;
       let n : BitVec 7 := 95;
       let share : Bool := true;
       let src : Nat := 0x300000;
       let h : Hub := (hubWith [(R.ACC_CTRL_EN, 1), (R.ACC_REG_PERM_VALID 0, 1), (R.ACC_REG_PERM_PERM 0, 0x1000), (word (A.ACC_REG_BASE 0), 0x300000 + 19), (word A.JRN_STORE_SRC, 0x300000)]).mstore 0x300000 [0x43, 0x4C, 0x53, 0x54, 1, 0, 1, 0, 4, 0, 0, 0, 0, 0, 0, 0, 64, 0, 0, 0, 0, 0, 0, 0, 0, 0xFF, 0xF];
       let x : ImageHead := h.imageHead src; (h.awake = true) ∧ (e.toNat < 16) ∧ (h.on R.JRN_STORE_STATUS_BUSY = false)
       ∧ (h.coldReading e.toNat = false) ∧ (h.lifecycle ≠ 3) ∧ (h.lifecycle ≠ 4) ∧ (src = (h.rd A.JRN_STORE_SRC).toNat)
       ∧ (x = h.imageHead src) ∧ (h.sourceOk src (max 160 x.total) = (h, some true)) ∧ (h.storeChecks src n.toNat = none))
    ∧ (let e : BitVec 5 := 16;
       let h : Hub := hubWith []; (h.awake = true) ∧ (h.on R.JRN_STORE_STATUS_BUSY = false) ∧ (h.tun.pitch = none)
       ∧ (e.toNat ≤ 16))
    ∧ (let x : JrnStore := ⟨15, true, [], [], 0, false, 0, 0⟩;
       let h : Hub := { hubWith [(R.JRN_STORE_STATUS_BUSY, 1)] with jrn := { JrnState.reset with store := some ⟨15, true, [], [], 0, false, 0, 0⟩ } };
       (h.awake = true) ∧ (h.jrn.store = some x) ∧ (x.target < 16) ∧ (x.erase = true))
    ∧ (let h : Hub := hubWith []; (h.awake = true) ∧ (h.jrn.store = none)) :=
  by and_intros <;> decide

/-- States and operands that meet the hypotheses of `Obligations.BridgeCommands`. -/
theorem test_witness_BridgeCommands :
    (let d : Delivered := ⟨0, ⟨127, .M, 0, 1, 0, 0, false, false, false, 0, 0xF, 0, [0x300000, 0x11223344]⟩⟩;
     let r : BrgReq := ⟨1, 0x300000, 1, 15, 0, [0x11223344]⟩;
     let h : Hub := (hubWith [(R.ACC_CTRL_EN, 1), (R.ACC_REG_PERM_VALID 0, 1), (R.ACC_REG_PERM_PERM 0, 0x3FFFF), (word (A.ACC_REG_BASE 0), 0x300000 + 19)]).onFab (fun f => { f with inbox := [(3, [⟨0, ⟨127, .M, 0, 1, 0, 0, false, false, false, 0, 0xF, 0, [0x300000, 0x11223344]⟩⟩])] });
     let k : Hub := h.markHeld;
     let g : Hub := ((k.take3 ⟨0, ⟨127, .M, 0, 1, 0, 0, false, false, false, 0, 0xF, 0, [0x300000, 0x11223344]⟩⟩).brgApply ⟨1, 0x300000, 1, 15, 0, [0x11223344]⟩ [⟨0x300000, 0, 1⟩]).1;
     (h.awake = true) ∧ (k = h.markHeld) ∧ (k.brgNext = some d) ∧ (d.pkt.kind = 1) ∧ (d.pkt.src = 0)
     ∧ (brgWrite? d.pkt = some r) ∧ ((k.take3 d).brgRefused .write r = none)
     ∧ ((k.take3 d).brgApply r r.bursts = (g, none)))
    ∧ (let a : Nat := 0x37FFFC;
       let v : Word := 0xFF010203;
       let h : Hub := hubWith []; (h.awake = true) ∧ (0x100000 ≤ a) ∧ (a < 0x800000) ∧ (a % 4 = 0)
       ∧ (h.decide_ 1 .write a ≠ .error) ∧ ((∀ i : Fin 4, h.writeHeld (a + i) = false)))
    ∧ (let d : Delivered := ⟨0, ⟨127, .M, 0, 1, 0, 0, false, false, false, 0, 0xF, 0, [0x300001, 0x11223344]⟩⟩;
       let h : Hub := (hubWith []).onFab (fun f => { f with inbox := [(3, [⟨0, ⟨127, .M, 0, 1, 0, 0, false, false, false, 0, 0xF, 0, [0x300001, 0x11223344]⟩⟩])] });
       let k : Hub := h.markHeld; (h.awake = true) ∧ (k = h.markHeld) ∧ (k.brgNext = some d) ∧ (d.pkt.kind = 1)
       ∧ (d.pkt.src = 0) ∧ (brgWrite? d.pkt = none))
    ∧ (let d : Delivered := ⟨0, ⟨127, .M, 5, 1, 0, 0, false, false, false, 0, 0xF, 0, [0x300001, 0x11223344]⟩⟩;
       let h : Hub := (hubWith []).onFab (fun f => { f with inbox := [(3, [⟨0, ⟨127, .M, 5, 1, 0, 0, false, false, false, 0, 0xF, 0, [0x300001, 0x11223344]⟩⟩])] });
       let k : Hub := h.markHeld; (h.awake = true) ∧ (k = h.markHeld) ∧ (k.brgNext = some d) ∧ (d.pkt.kind = 1)
       ∧ (d.pkt.src ≠ 0))
    ∧ (let h : Hub := hubWith []; let k : Hub := h.markHeld; (h.awake = true) ∧ (k = h.markHeld) ∧ (k.brgNext = none))
    ∧ (let d : Delivered := ⟨0, ⟨127, .M, 0, 2, 0, 0, false, false, false, 0, 0x1FF, 0, [0x300001, 0xF01]⟩⟩;
       let h : Hub := (hubWith [(R.DEV_STATUS_ADDR, 1)]).onFab (fun f => { f with inbox := [(3, [⟨0, ⟨127, .M, 0, 2, 0, 0, false, false, false, 0, 0x1FF, 0, [0x300001, 0xF01]⟩⟩])] });
       let k : Hub := h.dropReused.markHeld;
       let g : Hub := (k.brgDoRead ⟨127, .M, 0, 2, 0, 0, false, false, false, 0, 0x1FF, 0, [0x300001, 0xF01]⟩).getD h;
       (h.awake = true) ∧ (h.brg.cplq = []) ∧ (k = h.dropReused.markHeld) ∧ (k.brgNext = some d) ∧ (d.pkt.kind = 2)
       ∧ (d.pkt.src = 0) ∧ (k.brgDoRead d.pkt = some g))
    ∧ (let a : Delivered := ⟨0, ⟨127, .M, 0, 2, 0, 0, false, false, false, 0, 0x1FF, 0, [0x300001, 0xF01]⟩⟩;
       let b : Delivered := ⟨0, ⟨127, .M, 0, 2, 0, 0, false, false, false, 0, 0x1FF, 0, [0x300005, 0xF01]⟩⟩;
       let h : Hub := (hubWith [(R.DEV_STATUS_ADDR, 1)]).onFab (fun f => { f with inbox := [(3, [⟨0, ⟨127, .M, 0, 2, 0, 0, false, false, false, 0, 0x1FF, 0, [0x300001, 0xF01]⟩⟩, ⟨0, ⟨127, .M, 0, 2, 0, 0, false, false, false, 0, 0x1FF, 0, [0x300005, 0xF01]⟩⟩])] });
       (h.awake = true) ∧ (h.fab.inbox = [(3, [a, b])]) ∧ (a.pkt.kind = 2) ∧ (a.pkt.src = 0) ∧ (b.pkt.kind = 2)
       ∧ (b.pkt.src = 0) ∧ (a.pkt.aux % 512 = b.pkt.aux % 512) ∧ (h.brg.cplq = []))
    ∧ (let h : Hub := hubWith [];
       let k : Hub := h.dropReused.markHeld; (h.awake = true) ∧ (h.brg.cplq = []) ∧ (k = h.dropReused.markHeld)
       ∧ (k.brgNext = none))
    ∧ (let d : Delivered := ⟨0, ⟨127, .M, 0, 3, 0, 0, false, false, false, 0, 0x1FF, 0, []⟩⟩;
       let h : Hub := (hubWith []).onFab (fun f => { f with inbox := [(3, [⟨0, ⟨127, .M, 0, 3, 0, 0, false, false, false, 0, 0x1FF, 0, []⟩⟩])] });
       (h.awake = true) ∧ (h.inbox3 (fun p => p.kind == 3) = some d) ∧ (d.pkt.aux / 2 ^ 15 % 2 = 0)
       ∧ (KMap.get? h.brg.tags (d.pkt.aux % 512) = none) ∧ (KMap.get? h.brg.late (d.pkt.aux % 512) = none))
    ∧ (let d : Delivered := ⟨0, ⟨127, .M, 0, 3, 0, 0, false, false, false, 0, 0x4100, 0, []⟩⟩;
       let r : OutReq := ⟨0, false, 0x300000, 0, 4, 0, false⟩;
       let h : Hub := { (hubWith []).onFab (fun f => { f with inbox := [(3, [⟨0, ⟨127, .M, 0, 3, 0, 0, false, false, false, 0, 0x4100, 0, []⟩⟩])] }) with brg := { BrgState.reset with tags := [(256, ⟨0, false, 0x300000, 0, 4, 0, false⟩)] } };
       let g : Hub := (((h.take3 ⟨0, ⟨127, .M, 0, 3, 0, 0, false, false, false, 0, 0x4100, 0, []⟩⟩).outData 256 ⟨0, false, 0x300000, 0, 4, 0, false⟩ [] true).getD h);
       (h.awake = true) ∧ (h.inbox3 (fun p => p.kind == 3) = some d) ∧ (d.pkt.aux / 2 ^ 15 % 2 = 0)
       ∧ (d.pkt.aux / 2 ^ 9 % 8 = 0) ∧ (KMap.get? h.brg.tags (d.pkt.aux % 512) = some r)
       ∧ ((h.take3 d).outData (d.pkt.aux % 512) r d.pkt.payload (bit d.pkt.aux 14) = some g))
    ∧ (let k : Fin 4 := 3;
       let n : BitVec 21 := 1048576;
       let dir : Bool := true;
       let h : Hub := hubWith []; (h.awake = true) ∧ (h.on (R.BRG_OUT_STATUS_BUSY k) = false) ∧ (4 ≤ n.toNat)
       ∧ (n.toNat ≤ 1048576) ∧ (n.toNat % 4 = 0) ∧ ((h.rd (A.BRG_OUT_LOCAL k)).toNat % 4 = 0)
       ∧ ((h.rd (A.BRG_OUT_HOST k)).toNat % 4 = 0))
    ∧ (let k : Fin 4 := 3;
       let n : BitVec 21 := 1048580;
       let dir : Bool := true;
       let h : Hub := hubWith []; (h.awake = true)
       ∧ (h.on (R.BRG_OUT_STATUS_BUSY k) = true ∨ n.toNat < 4 ∨ 1048576 < n.toNat ∨ n.toNat % 4 ≠ 0))
    ∧ (let k : Fin 4 := 3;
       let t : Nat := 256;
       let c : OutChan := ⟨true, false, 0x300000, 0x1000, 600, 0, 0⟩;
       let h : Hub := { hubWith [(R.DEV_STATUS_ADDR, 1), (R.LNK_STATUS_UP 0, 1), (R.LNK_STATUS_STATE 0, 10), (R.DEV_STATUS_ENUM_PORT, 1)] with brg := { BrgState.reset with chans := [(3, ⟨true, false, 0x300000, 0x1000, 600, 0, 0⟩)] }, fab := { (hubWith []).fab with nextPid := 7 } };
       let g : Hub := (h.sendRead 256 0x1000 512).1; (h.awake = true) ∧ (c = h.outChan k) ∧ (c.live = true)
       ∧ (c.write = false) ∧ (c.next < c.len) ∧ (h.nextTag = some t) ∧ (h.sendRead t (c.host + c.next) c.size = (g, .ok)))
    ∧ (let k : Fin 4 := 3; let h : Hub := hubWith []; (h.awake = true) ∧ ((h.outChan k).live = false))
    ∧ (let a : Fin 512 := 256;
       let r : OutReq := ⟨3, true, 0x300000, 0x1000, 512, 0, true⟩;
       let h : Hub := { hubWith [(R.DEV_STATUS_ADDR, 1), (R.LNK_STATUS_UP 0, 1), (R.LNK_STATUS_STATE 0, 10), (R.DEV_STATUS_ENUM_PORT, 1)] with brg := { BrgState.reset with tags := [(256, ⟨3, true, 0x300000, 0x1000, 512, 0, true⟩)] } };
       let g : Hub := (h.sendRead 256 0x1000 512).1; (h.awake = true) ∧ (KMap.get? h.brg.tags a = some r)
       ∧ (r.retry = true) ∧ (r.live = true) ∧ (h.sendRead a r.host r.bytes = (g, .ok)))
    ∧ (let a : Fin 512 := 511; let h : Hub := hubWith []; (h.awake = true) ∧ (KMap.get? h.brg.tags a = none))
    ∧ (let a : Fin 512 := 511;
       let r : OutReq := ⟨3, true, 0x300000, 0x1000, 512, 0, true⟩;
       let h : Hub := { hubWith [] with brg := { BrgState.reset with tags := [(511, ⟨3, true, 0x300000, 0x1000, 512, 0, true⟩)], chans := [(3, ⟨true, false, 0x300000, 0x1000, 600, 512, 0⟩)] } };
       (h.awake = true) ∧ (KMap.get? h.brg.tags a = some r) ∧ (r.chan < 4) ∧ ((h.outChan r.chan).live = true)) :=
  by and_intros <;> decide

/-- States and operands that meet the hypotheses of `Obligations.ErrorCommands`. -/
theorem test_witness_ErrorCommands :
    (let s : BitVec 2 := 3;
     let d : BitVec 16 := 0xABCD;
     let h : Hub := hubWith [];
     let r : Rec := h.mkRec 3 0xFFFF 3 0xABCD 0 0; (h.awake = true) ∧ (h.err.handling = [])
     ∧ (r = h.mkRec 3 0xFFFF s.toNat d.toNat 0 0))
    ∧ (let s : BitVec 2 := 2; let d : BitVec 16 := 0; let h : Hub := hubWith []; (h.awake = true) ∧ (h.err.handling = []))
    ∧ (let q : BitVec 16 := 1;
       let h : Hub := hubWith [(R.ERR_SEQ_NEWEST, 1), (R.ERR_STATUS_ALERT, 1)]; (h.awake = true)
       ∧ (h.unacked q.toNat = true))
    ∧ (let q : BitVec 16 := 5; let h : Hub := hubWith []; (h.awake = true) ∧ (h.unacked q.toNat = false))
    ∧ (let e : Ev := ⟨⟨1, false, false, 1, false, 2, 3, 0, 0, 0, 1, 0, 0, 0, 1⟩, 0, false⟩;
       let h : Hub := { hubWith [(R.DEV_STATUS_ADDR, 1)] with err := { (hubWith []).err with evtq := [⟨⟨1, false, false, 1, false, 2, 3, 0, 0, 0, 1, 0, 0, 0, 1⟩, 0, false⟩] } };
       (h.awake = true) ∧ (h.brg.cplq = []) ∧ (h.err.evtq.find? (fun x => !x.missed) = some e))
    ∧ (let e : Ev := ⟨⟨1, false, false, 1, false, 2, 3, 0, 0, 0, 1, 0, 0, 0, 1⟩, 0, false⟩;
       let h : Hub := hubWith [(R.DEV_STATUS_ADDR, 1), (R.LNK_STATUS_UP 0, 1), (R.LNK_STATUS_STATE 0, 10), (R.DEV_STATUS_ENUM_PORT, 1)];
       let g : Hub := (h.sendM 4 0 (Rec.words ⟨1, false, false, 1, false, 2, 3, 0, 0, 0, 1, 0, 0, 0, 1⟩)).1;
       (h.awake = true) ∧ (h.unroutable (h.ownPacket 0 0 .M 4 e.aux 0 e.rec_.words) = false)
       ∧ (h.sendM 4 e.aux e.rec_.words = (g, .ok)))
    ∧ (let h : Hub := hubWith []; (h.awake = true) ∧ (h.brg.cplq = []) ∧ (h.err.evtq = []))
    ∧ (let e : Ev := ⟨⟨1, false, false, 1, false, 2, 3, 0, 0, 0, 1, 0, 0, 0, 1⟩, 0, true⟩;
       let h : Hub := { hubWith [(R.DEV_STATUS_ADDR, 1), (R.LNK_STATUS_UP 0, 1), (R.LNK_STATUS_STATE 0, 10), (R.DEV_STATUS_ENUM_PORT, 1), (R.TIME_STATUS_VALID, 1), (R.TIME_STATUS_QUALITY, 0)] with err := { (hubWith []).err with evtq := [⟨⟨1, false, false, 1, false, 2, 3, 0, 0, 0, 1, 0, 0, 0, 1⟩, 0, true⟩] } };
       (h.awake = true) ∧ (h.err.evtq.find? (fun x => x.missed) = some e) ∧ (h.missedMayGo = true))
    ∧ (let e : Ev := ⟨⟨1, false, false, 1, false, 2, 3, 0, 0, 0, 1, 0, 0, 0, 1⟩, 0, true⟩;
       let h : Hub := { hubWith [] with err := { (hubWith []).err with evtq := [⟨⟨1, false, false, 1, false, 2, 3, 0, 0, 0, 1, 0, 0, 0, 1⟩, 0, true⟩] } };
       (h.awake = true) ∧ (h.err.evtq.find? (fun x => x.missed) = some e) ∧ (h.missedMayGo = false)) :=
  by and_intros <;> decide

/-- States and operands that meet the hypotheses of `Obligations.CableAttach`. -/
theorem test_witness_CableAttach :
    (let p : Port := .W; let h : Hub := hubWith []; (h.pw.dark = false))
    ∧ (let p : Port := .W; let l : Fin 4 := 3; let m : Fin 4 := 0; let h : Hub := hubWith []; (h.pw.dark = false))
    ∧ (let p : Port := .W;
       let a : CcSense := .ra;
       let b : CcSense := .rd;
       let f : Bool := true;
       let v : Bool := true;
       let h : Hub := (hubWith [(R.CC_CTRL_VCONN_EN 1, 1)]).onCc .W (fun x => { x with rp := true, tried := 1 });
       (h.pw.dark = false) ∧ (ccOutcome (h.cc.at p).rp a b = (1, f, v)) ∧ (h.attach p = 0 ∨ h.attach p = 5)
       ∧ (h.pdState p ≠ 7) ∧ ((h.cc.at p).barred = false) ∧ (h.defPower = false) ∧ (h.ccTries p 1 = false)
       ∧ (h.pw.steep = false) ∧ (h.get R.PWRS_STATUS_STATE ≠ 1))
    ∧ (let p : Port := .W;
       let a : CcSense := .ra;
       let b : CcSense := .rp 3;
       let f : Bool := true;
       let v : Bool := true;
       let h : Hub := hubWith [(R.CC_CTRL_EN 1, 1)]; (h.pw.dark = false) ∧ (ccOutcome (h.cc.at p).rp a b = (2, f, v))
       ∧ (h.attach p = 0 ∨ h.attach p = 5) ∧ (h.pdState p ≠ 7) ∧ (h.on (R.CC_CTRL_EN p.ix) = true)
       ∧ (h.ccTries p 2 = false) ∧ (h.pw.steep = false) ∧ (h.get R.PWRS_STATUS_STATE ≠ 1))
    ∧ (let p : Port := .W;
       let a : CcSense := .rp 1;
       let b : CcSense := .rp 3;
       let f : Bool := false;
       let v : Bool := false;
       let h : Hub := hubWith []; (h.pw.dark = false) ∧ (ccOutcome (h.cc.at p).rp a b = (6, f, v))
       ∧ (h.attach p = 0 ∨ h.attach p = 5) ∧ (h.pdState p ≠ 7) ∧ (h.pw.steep = false) ∧ (h.get R.PWRS_STATUS_STATE ≠ 1))
    ∧ (let p : Port := .W;
       let a : CcSense := .open_;
       let b : CcSense := .rd;
       let o : Nat := 1;
       let f : Bool := true;
       let v : Bool := false;
       let h : Hub := (hubWith [(R.CC_CTRL_EN 1, 1)]).onCc .W (fun x => { x with rp := true }); (h.pw.dark = false)
       ∧ (ccOutcome (h.cc.at p).rp a b = (o, f, v)) ∧ (o ≠ 0) ∧ (h.attach p = 0 ∨ h.attach p = 5) ∧ (h.pdState p ≠ 7)
       ∧ (h.ccTries p o = true))
    ∧ (let p : Port := .W; let o : Nat := 2; let h : Hub := hubWith []; (h.pw.dark = false))
    ∧ (let p : Port := .W;
       let a : CcSense := .rd;
       let b : CcSense := .rd;
       let f : Bool := false;
       let v : Bool := false;
       let h : Hub := (hubWith [(R.SEC_STATUS_SERVICE, 1)]).onCc .W (fun x => { x with rp := true }); (h.pw.dark = false)
       ∧ (ccOutcome (h.cc.at p).rp a b = (3, f, v)) ∧ (h.attach p = 0 ∨ h.attach p = 5) ∧ (h.pdState p ≠ 7)
       ∧ ((h.cc.at p).barred = false) ∧ (h.defPower = false) ∧ (h.pw.steep = false) ∧ (h.get R.PWRS_STATUS_STATE ≠ 1)
       ∧ (h.pw.rail = true ∨ h.err.held = true ∨ h.on R.SEC_STATUS_SERVICE = true))
    ∧ (let p : Port := .W;
       let a : CcSense := .rd;
       let b : CcSense := .rd;
       let f : Bool := false;
       let v : Bool := false;
       let h : Hub := (hubWith []).onCc .W (fun x => { x with rp := true }); (h.pw.dark = false)
       ∧ (ccOutcome (h.cc.at p).rp a b = (3, f, v)) ∧ (h.attach p = 0 ∨ h.attach p = 5) ∧ (h.pdState p ≠ 7)
       ∧ ((h.cc.at p).barred = false) ∧ (h.defPower = false) ∧ (h.pw.steep = false) ∧ (h.get R.PWRS_STATUS_STATE ≠ 1)
       ∧ (h.pw.rail = false) ∧ (h.err.held = false) ∧ (h.on R.SEC_STATUS_SERVICE = false))
    ∧ (let p : Port := .W;
       let a : CcSense := .open_;
       let b : CcSense := .ra;
       let o : Nat := 5;
       let f : Bool := false;
       let v : Bool := false;
       let h : Hub := (hubWith [(R.CC_STATUS_ATTACH 1, 5)]).onCc .W (fun x => { x with rp := true }); (h.pw.dark = false)
       ∧ (ccOutcome (h.cc.at p).rp a b = (o, f, v))
       ∧ (h.pdState p = 7 ∨ o = 0 ∨ (h.attach p ≠ 0 ∧ h.attach p ≠ 2 ∧ h.attach p ≠ 5) ∨ (h.attach p = 2 ∧ o ≠ 2) ∨ (h.attach p = 5 ∧ o = 5)))
    ∧ (let p : Port := .W;
       let a : CcSense := .rp 2;
       let b : CcSense := .open_;
       let f : Bool := false;
       let v : Bool := false;
       let h : Hub := hubWith [(R.CC_STATUS_ATTACH 1, 2)]; (h.pw.dark = false)
       ∧ (ccOutcome (h.cc.at p).rp a b = (2, f, v)) ∧ (h.attach p = 2) ∧ (h.pdState p ≠ 7)
       ∧ (max a.level b.level ≠ 3 ∨ (h.cc.at p).due = []))
    ∧ (let p : Port := .W;
       let a : CcSense := .rp 3;
       let b : CcSense := .open_;
       let f : Bool := false;
       let v : Bool := false;
       let h : Hub := (hubWith [(R.CC_STATUS_ATTACH 1, 2), (R.CC_CTRL_EN 1, 1)]).onCc .W (fun x => { x with epr := true, due := [.keepAlive] });
       (h.pw.dark = false) ∧ (ccOutcome (h.cc.at p).rp a b = (2, f, v)) ∧ (h.attach p = 2) ∧ (h.pdState p ≠ 7)
       ∧ (max a.level b.level = 3) ∧ (h.pdLive p = true) ∧ ((h.cc.at p).source = false) ∧ ((h.cc.at p).wait = .none)
       ∧ ((h.cc.at p).epr = true) ∧ ((h.cc.at p).due = [.keepAlive]))
    ∧ (let p : Port := .W;
       let a : CcSense := .rp 1;
       let b : CcSense := .open_;
       let o : Nat := 2;
       let f : Bool := false;
       let v : Bool := false;
       let h : Hub := { hubWith [(R.PINS_WAKE_CTRL_CC_EN, 2), (R.CC_CTRL_EN 1, 1)] with pw := { (hubWith []).pw with steep := true } };
       (h.pw.dark = false) ∧ (ccOutcome (h.cc.at p).rp a b = (o, f, v)) ∧ (o ≠ 0) ∧ (h.attach p = 0) ∧ (h.pdState p ≠ 7)
       ∧ (h.ccTries p o = false) ∧ (o ≠ 3) ∧ (h.pw.steep = true) ∧ (h.pw.rail = false) ∧ (h.err.held = false)
       ∧ (bit (h.get R.PINS_WAKE_CTRL_CC_EN) p.ix = true))
    ∧ (let p : Port := .W;
       let h : Hub := (hubWith [(R.CC_STATUS_ATTACH 1, 1), (R.CC_STATUS_PD_STATE 1, 7), (R.CC_STATUS_VCONN_ON 1, 1)]).onCc .W (fun x => { x with rp := true, source := true, vout := 400 });
       (h.pw.dark = false) ∧ (h.attach p ≠ 0))
    ∧ (let p : Port := .W; let h : Hub := hubWith []; (h.pw.dark = false) ∧ (h.attach p = 0))
    ∧ (let p : Port := .W;
       let h : Hub := hubWith [(R.CC_CTRL_EN 1, 1)]; (h.pw.dark = false) ∧ (h.attach p = 0)
       ∧ (h.on (R.CC_CTRL_EN p.ix) = true) ∧ (h.get (R.CC_CTRL_ROLE p.ix) = 0) ∧ (h.defPower = false) ∧ (h.pdState p ≠ 7))
    ∧ (let p : Port := .W;
       let h : Hub := hubWith [(R.CC_CTRL_EN 1, 1), (R.CC_CTRL_ROLE 1, 2)]; (h.pw.dark = false)
       ∧ (h.attach p ≠ 0 ∨ h.on (R.CC_CTRL_EN p.ix) = false ∨ h.get (R.CC_CTRL_ROLE p.ix) ≠ 0 ∨ h.defPower = true ∨ h.pdState p = 7))
    ∧ (let p : Port := .W;
       let l : BitVec 3 := 4;
       let i : BitVec 4 := 10;
       let h : Hub := hubWith []; (h.pw.dark = false) ∧ (h.awake = true) ∧ (h.pdLive p = false))
    ∧ (let p : Port := .W;
       let l : BitVec 3 := 4;
       let i : BitVec 4 := 10;
       let h : Hub := (hubWith [(R.CC_STATUS_ATTACH 1, 1), (R.CC_STATUS_PD_STATE 1, 2), (R.CC_CTRL_EN 1, 1)]).onCc .W (fun x => { x with rp := true, source := true, vout := 100 });
       (h.pw.dark = false) ∧ (h.awake = true) ∧ (h.pdLive p = true) ∧ ((h.cc.at p).before = none)
       ∧ ((h.cc.at p).source = true) ∧ (0 < (h.cc.at p).vout) ∧ ((h.cc.at p).epr = false))
    ∧ (let p : Port := .W;
       let l : BitVec 3 := 4;
       let i : BitVec 4 := 10;
       let h : Hub := (hubWith [(R.CC_STATUS_ATTACH 1, 2), (R.CC_STATUS_PD_STATE 1, 2), (R.CC_CTRL_EN 1, 1), (R.CC_STATUS_RP_SEEN 1, 3)]).onCc .W (fun x => { x with caps := [⟨100, 150⟩] });
       let g : Hub := (if 1 ≤ i.toNat ∧ i.toNat ≤ 10 then (if l.toNat ≤ 4 then h.put (R.CC_SNK_CFG_MAX_LEVEL p.ix) l.toNat else h).put (R.CC_SNK_CFG_I_MAX p.ix) i.toNat else if l.toNat ≤ 4 then h.put (R.CC_SNK_CFG_MAX_LEVEL p.ix) l.toNat else h);
       (h.pw.dark = false) ∧ (h.awake = true) ∧ (h.pdLive p = true) ∧ ((h.cc.at p).before = none)
       ∧ ((h.cc.at p).source = false) ∧ (h.get (R.CC_STATUS_RP_SEEN p.ix) = 3)
       ∧ (g = (if 1 ≤ i.toNat ∧ i.toNat ≤ 10 then (if l.toNat ≤ 4 then h.put (R.CC_SNK_CFG_MAX_LEVEL p.ix) l.toNat else h).put (R.CC_SNK_CFG_I_MAX p.ix) i.toNat else if l.toNat ≤ 4 then h.put (R.CC_SNK_CFG_MAX_LEVEL p.ix) l.toNat else h)))
    ∧ (let p : Port := .W;
       let l : BitVec 3 := 4;
       let i : BitVec 4 := 10;
       let h : Hub := hubWith [(R.CC_STATUS_ATTACH 1, 2), (R.CC_STATUS_PD_STATE 1, 2), (R.CC_CTRL_EN 1, 1), (R.CC_STATUS_RP_SEEN 1, 1)];
       (h.pw.dark = false) ∧ (h.awake = true) ∧ (h.pdLive p = true) ∧ ((h.cc.at p).before = none)
       ∧ ((h.cc.at p).source = false) ∧ (h.get (R.CC_STATUS_RP_SEEN p.ix) ≠ 3)) :=
  by and_intros <;> decide

/-- States and operands that meet the hypotheses of `Obligations.CableMessages`. -/
theorem test_witness_CableMessages :
    (let p : Port := .W;
     let g : Bool := true;
     let h : Hub := (hubWith [(R.CC_STATUS_ATTACH 1, 1), (R.CC_STATUS_PD_STATE 1, 2), (R.CC_CTRL_EN 1, 1)]).onCc .W (fun x => { x with rp := true, source := true, vout := 100 });
     (h.pw.dark = false) ∧ (h.pdLive p = true) ∧ ((h.cc.at p).source = true) ∧ ((h.cc.at p).good = false)
     ∧ ((h.cc.at p).sent < 50) ∧ (0 < (h.cc.at p).vout) ∧ ((h.cc.at p).pend = none))
    ∧ (let p : Port := .W;
       let g : Bool := true;
       let h : Hub := (hubWith [(R.CC_STATUS_ATTACH 1, 1), (R.CC_CTRL_EN 1, 1)]).onCc .W (fun x => { x with source := true, sent := 50, vout := 100 });
       (h.pw.dark = false) ∧ (h.pdLive p = true)
       ∧ ((h.cc.at p).source = false ∨ (h.cc.at p).good = true ∨ 50 ≤ (h.cc.at p).sent ∨ (h.cc.at p).pend ≠ none))
    ∧ (let p : Port := .W;
       let ps : List Pdo := [⟨100, 150⟩, ⟨400, 300⟩];
       let e : Bool := true;
       let d : Pdo := ⟨100, 150⟩;
       let h : Hub := hubWith [(R.CC_STATUS_ATTACH 1, 2), (R.CC_CTRL_EN 1, 1), (R.CC_SNK_CFG_MAX_LEVEL 1, 0)];
       (h.pw.dark = false) ∧ (h.pdLive p = true) ∧ ((h.cc.at p).source = false) ∧ (h.pickPdo p ps = some d))
    ∧ (let p : Port := .W;
       let ps : List Pdo := [⟨100, 150⟩, ⟨400, 300⟩, ⟨960, 500⟩];
       let d : Pdo := ⟨960, 250⟩;
       let h : Hub := (hubWith [(R.CC_STATUS_ATTACH 1, 2), (R.CC_CTRL_EN 1, 1), (R.CC_SNK_CFG_MAX_LEVEL 1, 4), (R.CC_SNK_CFG_I_MAX 1, 5)]).onCc .W (fun x => { x with epr := true });
       (h.pw.dark = false) ∧ (h.pdLive p = true) ∧ ((h.cc.at p).source = false) ∧ ((h.cc.at p).epr = true)
       ∧ (h.pickPdo p ps = some d))
    ∧ (let p : Port := .W;
       let ps : List Pdo := [⟨100, 150⟩, ⟨400, 300⟩, ⟨960, 500⟩];
       let d : Pdo := ⟨960, 250⟩;
       let o : Pdo := ⟨400, 300⟩;
       let h : Hub := hubWith [(R.CC_STATUS_ATTACH 1, 2), (R.CC_CTRL_EN 1, 1), (R.CC_SNK_CFG_MAX_LEVEL 1, 4), (R.CC_SNK_CFG_I_MAX 1, 5)];
       (h.pw.dark = false) ∧ (h.pdLive p = true) ∧ (h.pickPdo p ps = some d) ∧ (o ∈ ps) ∧ (400 ≤ o.volts)
       ∧ (o.volts ≤ levelVolts (h.get (R.CC_SNK_CFG_MAX_LEVEL p.ix))))
    ∧ (let p : Port := .W;
       let ps : List Pdo := [];
       let v : Pdo := ⟨400, 1⟩;
       let h : Hub := (hubWith [(R.CC_STATUS_ATTACH 1, 1), (R.CC_STATUS_PD_STATE 1, 2), (R.CC_CTRL_EN 1, 1)]).onCc .W (fun x => { x with rp := true, source := true, vout := 100 });
       (h.pw.dark = false) ∧ (h.pdLive p = true))
    ∧ (let p : Port := .W;
       let d : Pdo := ⟨100, 150⟩;
       let h : Hub := (hubWith [(R.CC_STATUS_ATTACH 1, 1), (R.CC_STATUS_PD_STATE 1, 2), (R.CC_CTRL_EN 1, 1)]).onCc .W (fun x => { x with rp := true, source := true, vout := 100 });
       (h.pw.dark = false) ∧ (h.pdLive p = true) ∧ ((h.cc.at p).source = true) ∧ ((h.cc.at p).before = none)
       ∧ ((h.cc.at p).epr = false) ∧ ((h.sprPdos p).any (fun o => o.volts == d.volts && decide (d.amps ≤ o.amps)) = true))
    ∧ (let p : Port := .W;
       let d : Pdo := ⟨100, 151⟩;
       let h : Hub := (hubWith [(R.CC_STATUS_ATTACH 1, 1), (R.CC_STATUS_PD_STATE 1, 2), (R.CC_CTRL_EN 1, 1)]).onCc .W (fun x => { x with rp := true, source := true, vout := 100 });
       (h.pw.dark = false) ∧ (h.pdLive p = true) ∧ ((h.cc.at p).source = true) ∧ ((h.cc.at p).before = none)
       ∧ ((h.cc.at p).epr = false)
       ∧ ((h.sprPdos p).any (fun o => o.volts == d.volts && decide (d.amps ≤ o.amps)) = false))
    ∧ (let p : Port := .W;
       let d : Pdo := ⟨100, 150⟩;
       let h : Hub := (hubWith [(R.CC_STATUS_ATTACH 1, 1), (R.CC_STATUS_PD_STATE 1, 2), (R.CC_CTRL_EN 1, 1)]).onCc .W (fun x => { x with rp := true, source := true, vout := 100, epr := true });
       (h.pw.dark = false) ∧ (h.pdLive p = true) ∧ ((h.cc.at p).source = true) ∧ ((h.cc.at p).before = none)
       ∧ ((h.cc.at p).epr = true) ∧ ((h.eprPdos p).any (fun o => o.volts == d.volts && decide (d.amps ≤ o.amps)) = true))
    ∧ (let p : Port := .W;
       let h : Hub := (hubWith [(R.CC_STATUS_ATTACH 1, 2), (R.CC_CTRL_EN 1, 1)]).onCc .W (fun x => { x with wait := .answer });
       (h.pw.dark = false) ∧ (h.pdLive p = true) ∧ ((h.cc.at p).wait = .answer))
    ∧ (let p : Port := .W;
       let h : Hub := (hubWith [(R.CC_STATUS_ATTACH 1, 2), (R.CC_CTRL_EN 1, 1)]).onCc .W (fun x => { x with wait := .answer });
       (h.pw.dark = false) ∧ (h.pdLive p = true) ∧ ((h.cc.at p).wait = .answer) ∧ ((h.cc.at p).source = false)
       ∧ (h.hasOtherFeed p = false))
    ∧ (let p : Port := .W;
       let d : Pdo := ⟨400, 300⟩;
       let h : Hub := (hubWith [(R.CC_STATUS_ATTACH 1, 2), (R.CC_CTRL_EN 1, 1)]).onCc .W (fun x => { x with wait := .psRdy, pend := some ⟨400, 300⟩ });
       (h.pw.dark = false) ∧ (h.pdLive p = true) ∧ ((h.cc.at p).wait = .psRdy) ∧ ((h.cc.at p).pend = some d)
       ∧ ((h.cc.at p).capsEpr = false) ∧ ((h.cc.at p).epr = false))
    ∧ (let p : Port := .W;
       let d : Pdo := ⟨100, 300⟩;
       let h : Hub := (hubWith [(R.CC_STATUS_ATTACH 1, 2), (R.CC_CTRL_EN 1, 1), (R.CC_CTRL_EPR_EN 1, 1), (R.CC_SNK_CFG_MAX_LEVEL 1, 4), (R.CC_STATUS_RP_SEEN 1, 3)]).onCc .W (fun x => { x with wait := .psRdy, capsEpr := true, pend := some ⟨100, 300⟩ });
       (h.pw.dark = false) ∧ (h.pdLive p = true) ∧ ((h.cc.at p).wait = .psRdy) ∧ ((h.cc.at p).pend = some d)
       ∧ ((h.cc.at p).capsEpr = true) ∧ ((h.cc.at p).epr = false) ∧ (h.on (R.CC_CTRL_EPR_EN p.ix) = true)
       ∧ (2 ≤ h.get (R.CC_SNK_CFG_MAX_LEVEL p.ix)) ∧ (h.get (R.CC_STATUS_RP_SEEN p.ix) = 3 ∨ (h.cc.at p).source = true))
    ∧ (let p : Port := .W;
       let d : Pdo := ⟨100, 300⟩;
       let h : Hub := (hubWith [(R.CC_STATUS_ATTACH 1, 2), (R.CC_CTRL_EN 1, 1), (R.CC_CTRL_EPR_EN 1, 1), (R.CC_SNK_CFG_MAX_LEVEL 1, 4)]).onCc .W (fun x => { x with wait := .psRdy, capsEpr := true, pend := some ⟨100, 300⟩ });
       (h.pw.dark = false) ∧ (h.pdLive p = true) ∧ ((h.cc.at p).wait = .psRdy) ∧ ((h.cc.at p).pend = some d)
       ∧ ((h.cc.at p).capsEpr = true) ∧ ((h.cc.at p).epr = false) ∧ (h.on (R.CC_CTRL_EPR_EN p.ix) = true)
       ∧ (2 ≤ h.get (R.CC_SNK_CFG_MAX_LEVEL p.ix)) ∧ ((h.cc.at p).source = false)
       ∧ (h.get (R.CC_STATUS_RP_SEEN p.ix) ≠ 3))
    ∧ (let p : Port := .W;
       let d : Pdo := ⟨400, 300⟩;
       let i : CableId := none;
       let h : Hub := (hubWith [(R.CC_STATUS_ATTACH 1, 1), (R.CC_STATUS_PD_STATE 1, 2), (R.CC_CTRL_EN 1, 1)]).onCc .W (fun x => { x with rp := true, source := true, vout := 100, pend := some ⟨400, 300⟩ });
       (h.pw.dark = false) ∧ (h.pdLive p = true) ∧ ((h.cc.at p).pend = some d) ∧ ((h.cc.at p).source = true)
       ∧ ((h.cc.at p).barred = false) ∧ (h.defPower = false) ∧ (h.on (R.CC_STATUS_VCONN_ON p.ix) = false))
    ∧ (let p : Port := .W;
       let d : Pdo := ⟨400, 300⟩;
       let a : Bool := true;
       let e : Bool := false;
       let h : Hub := (hubWith [(R.CC_STATUS_ATTACH 1, 1), (R.CC_STATUS_VCONN_ON 1, 1), (R.CC_CTRL_EN 1, 1)]).onCc .W (fun x => { x with rp := true, source := true, vout := 100, pend := some ⟨400, 300⟩ });
       (h.pw.dark = false) ∧ (h.pdLive p = true) ∧ ((h.cc.at p).pend = some d) ∧ ((h.cc.at p).source = true)
       ∧ (h.on (R.CC_STATUS_VCONN_ON p.ix) = true))
    ∧ (let p : Port := .W;
       let h : Hub := (hubWith [(R.CC_STATUS_ATTACH 1, 1), (R.CC_STATUS_PD_STATE 1, 2), (R.CC_CTRL_EN 1, 1)]).onCc .W (fun x => { x with rp := true, source := true, vout := 100 });
       (h.pw.dark = false) ∧ (h.pdLive p = true))
    ∧ (let p : Port := .W;
       let h : Hub := (hubWith [(R.CC_STATUS_ATTACH 1, 1), (R.CC_STATUS_PD_STATE 1, 2), (R.CC_CTRL_EN 1, 1)]).onCc .W (fun x => { x with rp := true, source := true, vout := 100 });
       (h.pw.dark = false) ∧ (h.pdLive p = true) ∧ ((h.cc.at p).epr = false))
    ∧ (let p : Port := .W;
       let h : Hub := (hubWith [(R.CC_STATUS_ATTACH 1, 1), (R.CC_STATUS_PD_STATE 1, 2), (R.CC_CTRL_EN 1, 1), (R.CC_SRC_CFG_HV_LEVEL 1, 4)]).onCc .W (fun x => { x with rp := true, source := true, vout := 100 });
       (h.pw.dark = false) ∧ (h.pdLive p = true) ∧ (h.defPower = false) ∧ (h.get (R.CC_SRC_CFG_HV_LEVEL p.ix) ≠ 1))
    ∧ (let p : Port := .W;
       let ps : List Pdo := [⟨100, 50⟩];
       let h : Hub := (hubWith [(R.CC_STATUS_ATTACH 1, 1), (R.CC_STATUS_PD_STATE 1, 2), (R.CC_CTRL_EN 1, 1)]).onCc .W (fun x => { x with rp := true, source := true, vout := 100 });
       (h.pw.dark = false) ∧ (h.pdLive p = true))
    ∧ (let p : Port := .W;
       let a : Bool := false;
       let h : Hub := (hubWith [(R.CC_STATUS_ATTACH 1, 1), (R.CC_STATUS_PD_STATE 1, 2), (R.CC_CTRL_EN 1, 1)]).onCc .W (fun x => { x with rp := true, source := true, vout := 100 });
       (h.pw.dark = false) ∧ (h.pdLive p = true))
    ∧ (let p : Port := .W;
       let h : Hub := (hubWith [(R.CC_STATUS_ATTACH 1, 1), (R.CC_STATUS_PD_STATE 1, 2), (R.CC_CTRL_EN 1, 1), (R.CC_CTRL_EPR_EN 1, 1), (R.CC_STATUS_CABLE_EPR 1, 1), (R.CC_SRC_CFG_HV_LEVEL 1, 4)]).onCc .W (fun x => { x with rp := true, source := true, vout := 100 });
       (h.pw.dark = false) ∧ (h.pdLive p = true) ∧ ((h.cc.at p).source = true) ∧ (h.eprSource p = true)
       ∧ (h.pdState p = 2))
    ∧ (let p : Port := .W;
       let h : Hub := (hubWith [(R.CC_STATUS_ATTACH 1, 1), (R.CC_STATUS_PD_STATE 1, 2), (R.CC_CTRL_EN 1, 1)]).onCc .W (fun x => { x with rp := true, source := true, vout := 100 });
       (h.pw.dark = false) ∧ (h.pdLive p = true) ∧ ((h.cc.at p).source = true) ∧ (h.eprSource p = false))
    ∧ (let p : Port := .W;
       let h : Hub := (hubWith [(R.CC_STATUS_ATTACH 1, 2), (R.CC_CTRL_EN 1, 1)]).onCc .W (fun x => { x with wait := .epr });
       (h.pw.dark = false) ∧ (h.pdLive p = true) ∧ ((h.cc.at p).source = false) ∧ ((h.cc.at p).wait = .epr))
    ∧ (let p : Port := .W;
       let h : Hub := (hubWith [(R.CC_STATUS_ATTACH 1, 1), (R.CC_STATUS_PD_STATE 1, 3), (R.CC_CTRL_EN 1, 1)]).onCc .W (fun x => { x with rp := true, source := true, vout := 960, epr := true });
       (h.pw.dark = false) ∧ (h.pdLive p = true) ∧ ((h.cc.at p).epr = true) ∧ ((h.cc.at p).source = true))
    ∧ (let p : Port := .W;
       let h : Hub := (hubWith [(R.CC_STATUS_ATTACH 1, 2), (R.CC_CTRL_EN 1, 1), (R.CC_STATUS_RP_SEEN 1, 3)]).onCc .W (fun x => { x with epr := true });
       (h.pw.dark = false) ∧ (h.pdLive p = true) ∧ ((h.cc.at p).epr = true) ∧ ((h.cc.at p).source = false)
       ∧ (h.get (R.CC_STATUS_RP_SEEN p.ix) = 3))
    ∧ (let p : Port := .W;
       let h : Hub := (hubWith [(R.CC_STATUS_ATTACH 1, 2), (R.CC_CTRL_EN 1, 1)]).onCc .W (fun x => { x with epr := true });
       (h.pw.dark = false) ∧ (h.pdLive p = true) ∧ ((h.cc.at p).epr = true) ∧ ((h.cc.at p).source = false)
       ∧ (h.get (R.CC_STATUS_RP_SEEN p.ix) ≠ 3) ∧ ((h.cc.at p).due = []))
    ∧ (let p : Port := .W;
       let v : Nat := 400;
       let h : Hub := (hubWith [(R.CC_STATUS_ATTACH 1, 1), (R.CC_STATUS_PD_STATE 1, 2), (R.CC_CTRL_EN 1, 1), (R.CC_SRC_CFG_HV_LEVEL 1, 1), (R.CC_CONTRACT_VOLTAGE 1, 400)]).onCc .W (fun x => { x with rp := true, source := true, vout := 400 });
       (h.pw.dark = false) ∧ (h.pdLive p = true) ∧ ((h.cc.at p).source = true)
       ∧ (v = levelVolts (h.get (R.CC_SRC_CFG_HV_LEVEL p.ix))) ∧ (400 ≤ v) ∧ (inWindow (h.vcomFor p) v = false)
       ∧ (h.get (R.CC_CONTRACT_VOLTAGE p.ix) = v))
    ∧ (let p : Port := .W;
       let h : Hub := hubWith [(R.CC_STATUS_ATTACH 1, 2), (R.CC_CTRL_EN 1, 1)]; (h.pw.dark = false) ∧ (h.pdLive p = true)
       ∧ ((h.cc.at p).source = false)) :=
  by and_intros <;> decide

/-- States and operands that meet the hypotheses of `Obligations.CableSwapsAndTrips`. -/
theorem test_witness_CableSwapsAndTrips :
    (let p : Port := .W;
     let h : Hub := (hubWith [(R.CC_STATUS_ATTACH 1, 1), (R.CC_STATUS_PD_STATE 1, 2), (R.CC_CTRL_EN 1, 1), (R.CC_CONTRACT_VOLTAGE 1, 100)]).onCc .W (fun x => { x with rp := true, source := true, vout := 100 });
     (h.pw.dark = false) ∧ (h.pdLive p = true) ∧ (h.awake = true) ∧ ((h.cc.at p).wait = .none)
     ∧ ((h.cc.at p).before = none) ∧ (h.rd (A.CC_CONTRACT p.ix) ≠ 0) ∧ ((h.cc.at p).retryAt ≤ h.root)
     ∧ ((h.cc.at p).source = true ∨ h.get (R.CC_STATUS_RP_SEEN p.ix) = 3))
    ∧ (let p : Port := .W;
       let h : Hub := hubWith [(R.CC_STATUS_ATTACH 1, 2), (R.CC_STATUS_PD_STATE 1, 2), (R.CC_CTRL_EN 1, 1), (R.CC_CONTRACT_VOLTAGE 1, 100)];
       (h.pw.dark = false) ∧ (h.pdLive p = true) ∧ (h.awake = true) ∧ ((h.cc.at p).wait = .none)
       ∧ ((h.cc.at p).before = none) ∧ (h.rd (A.CC_CONTRACT p.ix) ≠ 0) ∧ ((h.cc.at p).retryAt ≤ h.root)
       ∧ ((h.cc.at p).source = false) ∧ (h.get (R.CC_STATUS_RP_SEEN p.ix) ≠ 3) ∧ ((h.cc.at p).due = []))
    ∧ (let p : Port := .W;
       let h : Hub := (hubWith [(R.CC_STATUS_ATTACH 1, 1), (R.CC_STATUS_PD_STATE 1, 2), (R.CC_CTRL_EN 1, 1)]).onCc .W (fun x => { x with rp := true, source := true, vout := 100 });
       (h.pw.dark = false) ∧ (h.pdLive p = true) ∧ (h.awake = true)
       ∧ (h.rd (A.CC_CONTRACT p.ix) = 0 ∨ h.root < (h.cc.at p).retryAt ∨ (h.cc.at p).wait ≠ .none))
    ∧ (let p : Port := .W;
       let h : Hub := (hubWith [(R.CC_STATUS_ATTACH 1, 1), (R.CC_STATUS_PD_STATE 1, 2), (R.CC_CTRL_EN 1, 1)]).onCc .W (fun x => { x with rp := true, source := true, vout := 100 });
       (h.pw.dark = false) ∧ (h.pdLive p = true) ∧ ((h.cc.at p).before = none) ∧ (h.pdState p ≠ 5) ∧ (h.pdState p ≠ 6)
       ∧ ((h.cc.at p).wait ≠ .swapAnswer) ∧ (h.fedOtherwise p = false))
    ∧ (let p : Port := .W;
       let h : Hub := (hubWith [(R.CC_STATUS_ATTACH 1, 1), (R.CC_STATUS_PD_STATE 1, 2), (R.CC_CTRL_EN 1, 1), (R.CC_CONTRACT_VOLTAGE 1, 100), (R.LOAD_FEED_E_VOLT, 180), (R.LOAD_FEED_E_ON, 1)]).onCc .W (fun x => { x with rp := true, source := true, vout := 100 });
       (h.pw.dark = false) ∧ (h.pdLive p = true) ∧ ((h.cc.at p).before = none) ∧ (h.pdState p ≠ 5) ∧ (h.pdState p ≠ 6)
       ∧ ((h.cc.at p).wait ≠ .swapAnswer) ∧ (h.fedOtherwise p = true) ∧ (h.fuse ≠ 4) ∧ ((h.cc.at p).source = true))
    ∧ (let p : Port := .W;
       let h : Hub := hubWith [(R.CC_STATUS_ATTACH 1, 2), (R.CC_STATUS_PD_STATE 1, 2), (R.CC_CTRL_EN 1, 1), (R.LOAD_FEED_E_VOLT, 180), (R.LOAD_FEED_E_ON, 1)];
       (h.pw.dark = false) ∧ (h.pdLive p = true) ∧ ((h.cc.at p).before = none) ∧ (h.pdState p ≠ 5) ∧ (h.pdState p ≠ 6)
       ∧ ((h.cc.at p).wait ≠ .swapAnswer) ∧ (h.fedOtherwise p = true) ∧ (h.fuse ≠ 4) ∧ ((h.cc.at p).source = false))
    ∧ (let p : Port := .W;
       let h : Hub := (hubWith [(R.CC_STATUS_ATTACH 1, 1), (R.CC_STATUS_PD_STATE 1, 2), (R.CC_CTRL_EN 1, 1)]).onCc .W (fun x => { x with rp := true, source := true, vout := 100, wait := .swapAnswer });
       (h.pw.dark = false) ∧ (h.pdLive p = true) ∧ ((h.cc.at p).before = none) ∧ (h.pdState p ≠ 5) ∧ (h.pdState p ≠ 6)
       ∧ ((h.cc.at p).wait = .swapAnswer) ∧ ((h.cc.at p).source = true))
    ∧ (let p : Port := .W;
       let h : Hub := hubWith [(R.CC_STATUS_ATTACH 1, 2), (R.CC_STATUS_PD_STATE 1, 5), (R.CC_CTRL_EN 1, 1)];
       (h.pw.dark = false) ∧ (h.pdLive p = true) ∧ ((h.cc.at p).before ≠ none ∨ h.pdState p = 5 ∨ h.pdState p = 6))
    ∧ (let p : Port := .W;
       let h : Hub := (hubWith [(R.CC_STATUS_ATTACH 1, 1), (R.CC_CTRL_EN 1, 1)]).onCc .W (fun x => { x with wait := .swapAnswer });
       (h.pw.dark = false) ∧ (h.pdLive p = true) ∧ ((h.cc.at p).wait = .swapAnswer))
    ∧ (let p : Port := .W;
       let h : Hub := (hubWith [(R.CC_STATUS_ATTACH 1, 2), (R.CC_STATUS_PD_STATE 1, 4), (R.CC_CTRL_EN 1, 1)]).onCc .W (fun x => { x with wait := .sourceOff, before := some false, path := true });
       (h.pw.dark = false) ∧ (h.pdLive p = true) ∧ ((h.cc.at p).wait = .sourceOff) ∧ ((h.cc.at p).epr = false)
       ∧ ((h.cc.at p).barred = false) ∧ (h.defPower = false))
    ∧ (let p : Port := .W;
       let h : Hub := (hubWith [(R.CC_STATUS_ATTACH 1, 1), (R.CC_STATUS_PD_STATE 1, 4), (R.CC_CTRL_EN 1, 1)]).onCc .W (fun x => { x with wait := .sourceOn, before := some true, source := true });
       (h.pw.dark = false) ∧ (h.pdLive p = true) ∧ ((h.cc.at p).wait = .sourceOn))
    ∧ (let p : Port := .W;
       let h : Hub := (hubWith [(R.CC_STATUS_ATTACH 1, 1), (R.CC_CTRL_EN 1, 1), (R.CC_CTRL_VCONN_EN 1, 0)]);
       (h.pw.dark = false) ∧ (h.pdLive p = true) ∧ (h.on (R.CC_CTRL_VCONN_EN p.ix) = false))
    ∧ (let p : Port := .W;
       let h : Hub := hubWith [(R.CC_STATUS_ATTACH 1, 1), (R.CC_CTRL_EN 1, 1), (R.CC_CTRL_VCONN_EN 1, 1)];
       (h.pw.dark = false) ∧ (h.pdLive p = true) ∧ (h.on (R.CC_CTRL_VCONN_EN p.ix) = true)
       ∧ (h.on (R.CC_STATUS_VCONN_ON p.ix) = false))
    ∧ (let p : Port := .W;
       let h : Hub := hubWith [(R.CC_STATUS_ATTACH 1, 1), (R.CC_CTRL_EN 1, 1), (R.CC_CTRL_VCONN_EN 1, 1), (R.CC_STATUS_VCONN_ON 1, 1)];
       (h.pw.dark = false) ∧ (h.pdLive p = true) ∧ (h.on (R.CC_CTRL_VCONN_EN p.ix) = true)
       ∧ (h.on (R.CC_STATUS_VCONN_ON p.ix) = true))
    ∧ (let p : Port := .W;
       let src : Bool := true;
       let h : Hub := (hubWith [(R.CC_STATUS_ATTACH 1, 1), (R.CC_STATUS_PD_STATE 1, 2), (R.CC_CTRL_EN 1, 1)]).onCc .W (fun x => { x with rp := true, source := true, vout := 100 });
       (h.pw.dark = false) ∧ (h.pdLive p = true) ∧ (h.fuse ≠ 4) ∧ (src = ((h.cc.at p).before).getD (h.cc.at p).source))
    ∧ (let p : Port := .W;
       let h : Hub := (hubWith [(R.CC_STATUS_ATTACH 1, 1), (R.CC_STATUS_PD_STATE 1, 2), (R.CC_CTRL_EN 1, 1)]).onCc .W (fun x => { x with rp := true, source := true, vout := 100 });
       (h.pw.dark = false) ∧ (h.pdLive p = true) ∧ (h.awake = true) ∧ (h.fuse ≠ 4)
       ∧ ((h.cc.at p).source = true ∨ h.hasOtherFeed p = true))
    ∧ (let p : Port := .W;
       let h : Hub := hubWith [(R.CC_STATUS_ATTACH 1, 2), (R.CC_CTRL_EN 1, 1)]; (h.pw.dark = false) ∧ (h.pdLive p = true)
       ∧ (h.awake = true) ∧ ((h.cc.at p).source = false) ∧ (h.hasOtherFeed p = false))
    ∧ (let p : Port := .W;
       let h : Hub := (hubWith [(R.CC_STATUS_ATTACH 1, 1), (R.CC_STATUS_PD_STATE 1, 6), (R.CC_CTRL_EN 1, 1)]).onCc .W (fun x => { x with source := true });
       (h.pw.dark = false) ∧ (h.pdLive p = true) ∧ (h.pdState p = 6) ∧ ((h.cc.at p).barred = false)
       ∧ (h.defPower = false))
    ∧ (let p : Port := .W;
       let h : Hub := (hubWith [(R.CC_STATUS_ATTACH 1, 1), (R.CC_STATUS_PD_STATE 1, 2), (R.CC_CTRL_EN 1, 1)]).onCc .W (fun x => { x with rp := true, source := true, vout := 100 });
       (h.pw.dark = false) ∧ (h.pdLive p = true) ∧ (h.pdState p ≠ 6))
    ∧ (let p : Port := .W;
       let d : Pdo := ⟨960, 500⟩;
       let h : Hub := (hubWith [(R.CC_STATUS_ATTACH 1, 1), (R.CC_STATUS_PD_STATE 1, 2), (R.CC_CTRL_EN 1, 1)]).onCc .W (fun x => { x with rp := true, source := true, vout := 100, pend := some ⟨960, 500⟩ });
       (h.pw.dark = false) ∧ (h.pdLive p = true) ∧ ((h.cc.at p).source = true) ∧ ((h.cc.at p).pend = some d)
       ∧ ((h.cc.at p).before = none) ∧ (h.fuse ≠ 4))
    ∧ (let p : Port := .W;
       let h : Hub := (hubWith [(R.CC_STATUS_ATTACH 1, 1), (R.CC_STATUS_PD_STATE 1, 4), (R.CC_CTRL_EN 1, 1), (R.LOAD_FEED_E_ON, 1)]).onCc .W (fun x => { x with wait := .sourceOn, before := some true, source := false });
       (h.pw.dark = false) ∧ (h.pdLive p = true) ∧ (h.fuse ≠ 4) ∧ ((h.cc.at p).wait = .sourceOn)
       ∧ ((h.cc.at p).before = some true) ∧ (h.hasOtherFeed p = true))
    ∧ (let p : Port := .W;
       let h : Hub := (hubWith [(R.CC_STATUS_ATTACH 1, 1), (R.CC_STATUS_PD_STATE 1, 2), (R.CC_CTRL_EN 1, 1), (R.CC_PROT_RETRY_MAX 1, 3)]).onCc .W (fun x => { x with rp := true, source := true, vout := 100 });
       (h.pw.dark = false) ∧ (h.pdLive p = true) ∧ (h.fuse ≠ 4)
       ∧ ((h.cc.at p).trips.length + 1 < h.get (R.CC_PROT_RETRY_MAX p.ix)) ∧ ((h.cc.at p).before = none)
       ∧ ((h.cc.at p).source = true))
    ∧ (let p : Port := .W;
       let h : Hub := (hubWith [(R.CC_STATUS_ATTACH 1, 1), (R.CC_STATUS_PD_STATE 1, 2), (R.CC_CTRL_EN 1, 1), (R.CC_PROT_RETRY_MAX 1, 1)]).onCc .W (fun x => { x with rp := true, source := true, vout := 100 });
       (h.pw.dark = false) ∧ (h.pdLive p = true) ∧ (h.get (R.CC_PROT_RETRY_MAX p.ix) ≤ 1))
    ∧ (let p : Port := .W;
       let h : Hub := (hubWith [(R.CC_STATUS_ATTACH 1, 2), (R.CC_STATUS_PD_STATE 1, 2), (R.CC_CTRL_EN 1, 1), (R.CC_PROT_RETRY_MAX 1, 3)]).onCc .W (fun x => { x with path := true });
       (h.pw.dark = false) ∧ (h.pdLive p = true) ∧ ((h.cc.at p).vout = 0) ∧ ((h.cc.at p).source = false)
       ∧ (h.hasOtherFeed p = false) ∧ ((h.cc.at p).before = none)
       ∧ ((h.cc.at p).trips.length + 1 < h.get (R.CC_PROT_RETRY_MAX p.ix)) ∧ (h.fuse ≠ 4))
    ∧ (let p : Port := .W;
       let h : Hub := hubWith [(R.CC_STATUS_ATTACH 1, 2), (R.CC_CTRL_EN 1, 1)]; (h.pw.dark = false) ∧ (h.pdLive p = true)
       ∧ ((h.cc.at p).source = false))
    ∧ (let p : Port := .W;
       let h : Hub := (hubWith [(R.CC_STATUS_ATTACH 1, 1), (R.CC_STATUS_VCONN_ON 1, 1), (R.CC_CTRL_EN 1, 1), (R.CC_PROT_RETRY_MAX 1, 3)]);
       (h.pw.dark = false) ∧ (h.pdLive p = true) ∧ (h.on (R.CC_STATUS_VCONN_ON p.ix) = true)
       ∧ ((h.cc.at p).trips.length + 1 < h.get (R.CC_PROT_RETRY_MAX p.ix)) ∧ ((h.cc.at p).pend = none)
       ∧ ((h.cc.at p).before = none) ∧ ((h.cc.at p).wait = .none))
    ∧ (let p : Port := .W;
       let d : Pdo := ⟨400, 300⟩;
       let h : Hub := (hubWith [(R.CC_STATUS_ATTACH 1, 1), (R.CC_STATUS_VCONN_ON 1, 1), (R.CC_CTRL_EN 1, 1), (R.CC_PROT_RETRY_MAX 1, 3)]).onCc .W (fun x => { x with rp := true, source := true, vout := 100, pend := some ⟨400, 300⟩ });
       (h.pw.dark = false) ∧ (h.pdLive p = true) ∧ (h.on (R.CC_STATUS_VCONN_ON p.ix) = true)
       ∧ ((h.cc.at p).trips.length + 1 < h.get (R.CC_PROT_RETRY_MAX p.ix)) ∧ ((h.cc.at p).source = true)
       ∧ ((h.cc.at p).pend = some d) ∧ ((h.cc.at p).before = none) ∧ (h.fuse ≠ 4))
    ∧ (let p : Port := .W;
       let g : Hub := hubWith [(R.CC_STATUS_ATTACH 1, 2), (R.CC_STATUS_PD_STATE 1, 7), (R.CC_CTRL_EN 1, 1)];
       let h : Hub := (hubWith [(R.CC_STATUS_ATTACH 1, 1), (R.CC_STATUS_PD_STATE 1, 2), (R.CC_CTRL_EN 1, 1)]).onCc .W (fun x => { x with rp := true, source := true, vout := 100 });
       (h.pw.dark = false) ∧ (h.pdLive p = true) ∧ (g.awake = true) ∧ (g.pdState p = 7) ∧ (g.attach p = 2)
       ∧ (g.on (R.CC_CTRL_EN p.ix) = true))
    ∧ (let p : Port := .W;
       let g : Hub := hubWith [(R.CC_STATUS_ATTACH 1, 1), (R.CC_STATUS_PD_STATE 1, 7), (R.CC_CTRL_EN 1, 0)];
       let h : Hub := (hubWith [(R.CC_STATUS_ATTACH 1, 1), (R.CC_STATUS_PD_STATE 1, 2), (R.CC_CTRL_EN 1, 1)]).onCc .W (fun x => { x with rp := true, source := true, vout := 100 });
       (h.pw.dark = false) ∧ (h.pdLive p = true) ∧ (g.awake = true) ∧ (g.pdState p = 7)
       ∧ (g.on (R.CC_CTRL_EN p.ix) = false))
    ∧ (let p : Port := .W;
       let g : Hub := hubWith [];
       let h : Hub := (hubWith [(R.CC_STATUS_ATTACH 1, 1), (R.CC_STATUS_PD_STATE 1, 2), (R.CC_CTRL_EN 1, 1)]).onCc .W (fun x => { x with rp := true, source := true, vout := 100 });
       (h.pw.dark = false) ∧ (h.pdLive p = true) ∧ (g.awake = true) ∧ (g.pdState p ≠ 7)) :=
  by and_intros <;> decide

/-- States and operands that meet the hypotheses of `Obligations.FeedsAndFuse`. -/
theorem test_witness_FeedsAndFuse :
    (let f : Fin 3 := 2;
     let h : Hub := hubWith [(R.LOAD_CTRL_LOCAL_EN, 1)]; (h.pw.dark = false) ∧ (h.feedPermitted f = true)
     ∧ (h.feedOn f = false) ∧ (f = 2 ∨ h.fetHot f = false))
    ∧ (let f : Fin 3 := 0;
       let h : Hub := hubWith []; (h.pw.dark = false) ∧ (h.feedPermitted f = false ∨ (f ≠ 2 ∧ h.fetHot f = true)))
    ∧ (let h : Hub := hubWith []; (h.pw.dark = false))
    ∧ (let f : Fin 3 := 1;
       let h : Hub := hubWith [(R.LOAD_FEED_W_ON, 1)]; (h.pw.dark = false) ∧ (h.feedOn f = true)
       ∧ (h.otherFeed f = false))
    ∧ (let f : Fin 3 := 1;
       let h : Hub := hubWith [(R.LOAD_FEED_W_ON, 1), (R.LOAD_FEED_L_ON, 1)]; (h.pw.dark = false) ∧ (h.feedOn f = true)
       ∧ (h.otherFeed f = true))
    ∧ (let f : Fin 3 := 1; let h : Hub := hubWith []; (h.pw.dark = false) ∧ (h.feedOn f = false))
    ∧ (let h : Hub := hubWith []; (h.pw.dark = false) ∧ (h.awake = true))
    ∧ (let h : Hub := hubWith [];
       (h.pw.dark = false) ∧ (h.awake = true) ∧ (h.feedPermitted 0 = false ∨ h.feedVolts 0 < 90)
       ∧ (h.feedPermitted 1 = false ∨ h.feedVolts 1 < 90))
    ∧ (let h : Hub := (hubWith [(R.LOAD_CTRL_LOCAL_EN, 1), (R.LOAD_FEED_E_VOLT, 100)]).onCc .E (fun x => { x with path := true });
       (h.pw.dark = false) ∧ (h.awake = true) ∧ (h.feedPermitted 0 = true) ∧ (90 ≤ h.feedVolts 0) ∧ (h.feedOn 2 = false))
    ∧ (let h : Hub := hubWith [(R.LOAD_STATUS_PRESENT, 1), (R.LOAD_STATUS_WINDOW_OK, 1)];
       (h.pw.dark = false) ∧ (h.awake = true) ∧ (h.fuse = 0) ∧ (h.defPower = false) ∧ (h.load.barred = false))
    ∧ (let h : Hub := hubWith [(R.LOAD_STATUS_STATE, 6)]; (h.pw.dark = false) ∧ (h.awake = true))
    ∧ (let h : Hub := hubWith [(R.LOAD_STATUS_STATE, 6), (R.LOAD_CTRL_EN, 1)];
       (h.pw.dark = false) ∧ (h.awake = true) ∧ (h.fuse = 6) ∧ (h.on R.LOAD_CTRL_EN = true) ∧ (h.defPower = false)
       ∧ (h.load.barred = false))
    ∧ (let h : Hub := hubWith []; (h.pw.dark = false) ∧ (h.awake = true) ∧ (h.fuse ≠ 6))
    ∧ (let h : Hub := hubWith [(R.LOAD_STATUS_STATE, 1), (R.LOAD_STATUS_WINDOW_OK, 1)];
       (h.pw.dark = false) ∧ (h.on R.LOAD_STATUS_PRESENT = false) ∧ (h.fuse = 1))
    ∧ (let h : Hub := hubWith [(R.LOAD_STATUS_STATE, 5)];
       (h.pw.dark = false) ∧ (h.on R.LOAD_STATUS_PRESENT = false) ∧ (h.fuse = 5))
    ∧ (let h : Hub := hubWith [(R.LOAD_STATUS_STATE, 4), (R.LOAD_STATUS_PG, 1), (R.LOAD_STATUS_PRESENT, 1)];
       (h.pw.dark = false) ∧ (h.on R.LOAD_STATUS_PRESENT = true) ∧ (h.fuse = 4) ∧ (h.on R.LOAD_CTRL_PRES_IGNORE = false))
    ∧ (let v : BitVec 12 := 0xFFF;
       let h : Hub := hubWith [(R.LOAD_STATUS_STATE, 4), (R.LOAD_STATUS_PG, 1)]; (h.pw.dark = false)
       ∧ (h.get R.LOAD_WINDOW_OV ≤ v.toNat) ∧ (h.fuse = 4))
    ∧ (let v : BitVec 12 := 0x3C0;
       let h : Hub := hubWith [(R.LOAD_STATUS_STATE, 1), (R.LOAD_STATUS_PRESENT, 1)]; (h.pw.dark = false)
       ∧ (v.toNat < h.get R.LOAD_WINDOW_OV) ∧ (h.load.uv < v.toNat) ∧ (h.fuse = 1) ∧ (h.loadPresent = true))
    ∧ (let h : Hub := hubWith [(R.LOAD_STATUS_STATE, 2)]; (h.pw.dark = false) ∧ (h.fuse = 2))
    ∧ (let h : Hub := hubWith [(R.LOAD_STATUS_STATE, 3), (R.LOAD_STATUS_PRESENT, 1), (R.LOAD_STATUS_WINDOW_OK, 1)];
       (h.pw.dark = false) ∧ (h.fuse = 3) ∧ (h.loadPresent = true) ∧ (h.on R.LOAD_STATUS_WINDOW_OK = true))
    ∧ (let h : Hub := hubWith [(R.LOAD_STATUS_STATE, 3)];
       (h.pw.dark = false) ∧ (h.fuse = 3) ∧ (h.loadPresent = false ∨ h.on R.LOAD_STATUS_WINDOW_OK = false))
    ∧ (let h : Hub := hubWith [(R.LOAD_STATUS_STATE, 4)]; (h.pw.dark = false) ∧ (h.fuse = 4))
    ∧ (let h : Hub := hubWith [(R.LOAD_STATUS_STATE, 3)]; (h.pw.dark = false) ∧ (h.fuse ≠ 4))
    ∧ (let h : Hub := hubWith [(R.LOAD_STATUS_STATE, 4), (R.LOAD_CTRL_EN, 1), (R.LOAD_STATUS_PG, 1), (R.LOAD_TIMING_RETRY_MAX, 3)];
       (h.pw.dark = false) ∧ (h.fuse = 3 ∨ h.fuse = 4) ∧ (h.on R.LOAD_CTRL_EN = true) ∧ (h.defPower = false)
       ∧ (h.on R.LOAD_CTRL_FAULT_MODE = false) ∧ (h.get R.LOAD_STATUS_RETRIES < h.get R.LOAD_TIMING_RETRY_MAX))
    ∧ (let h : Hub := hubWith [(R.LOAD_STATUS_STATE, 3), (R.LOAD_CTRL_EN, 1), (R.LOAD_CTRL_FAULT_MODE, 1)];
       (h.pw.dark = false) ∧ (h.fuse = 3) ∧ (h.on R.LOAD_CTRL_EN = true) ∧ (h.defPower = false)
       ∧ (h.on R.LOAD_CTRL_FAULT_MODE = true ∨ h.get R.LOAD_TIMING_RETRY_MAX ≤ h.get R.LOAD_STATUS_RETRIES))
    ∧ (let h : Hub := hubWith []; (h.pw.dark = false) ∧ (h.fuse ≠ 3))
    ∧ (let h : Hub := hubWith [(R.LOAD_STATUS_STATE, 5)];
       (h.pw.dark = false) ∧ (h.fuse = 5) ∧ (h.fetTemp 4 < 8 * h.get (R.LOAD_TM_LIM_TJ_RETRY 4)))
    ∧ (let h : Hub := hubWith [(R.LOAD_STATUS_STATE, 5), (R.LOAD_TM_TEMP_TEMP 4, 2000)];
       (h.pw.dark = false) ∧ (h.fuse = 5) ∧ (8 * (h.get (R.LOAD_TM_LIM_TJ_RETRY 4) : Int) ≤ h.fetTemp 4))
    ∧ (let h : Hub := hubWith [(R.LOAD_STATUS_PG, 1)]; (h.pw.dark = false) ∧ (h.on R.LOAD_STATUS_PG = true))
    ∧ (let h : Hub := hubWith []; (h.pw.dark = false) ∧ (h.on R.LOAD_STATUS_PG = false)) :=
  by and_intros <;> decide

/-- States and operands that meet the hypotheses of `Obligations.PowerModes`. -/
theorem test_witness_PowerModes :
    (let h : Hub := (hubWith [(R.LOAD_STATUS_STATE, 4), (R.CC_STATUS_ATTACH 1, 1)]).onCc .W (fun x => { x with source := true, vout := 100 });
     (h.pw.dark = false) ∧ (h.defPower = false) ∧ (h.fuse ≠ 6))
    ∧ (let h : Hub := hubWith [(R.LOAD_STATUS_DEFAULT, 1), (R.LOAD_CTRL_EN, 1)];
       (h.pw.dark = false) ∧ (h.defPower = true))
    ∧ (let h : Hub := hubWith []; (h.pw.dark = false) ∧ (h.defPower = false))
    ∧ (let w : List Nat := [1000000, 0, 0, 0, 2000000];
       let d : Diode := .temp 300;
       let h : Hub := hubWith []; (h.pw.dark = false) ∧ (h.coop.held = false))
    ∧ (let p : Port := .S;
       let h : Hub := (hubWith [(R.LOAD_TM_TEMP_TEMP 2, 2000), (R.CC_STATUS_ATTACH 2, 1), (R.CC_STATUS_PD_STATE 2, 2), (R.CC_CTRL_EN 2, 1), (R.CC_PROT_RETRY_MAX 2, 3)]).onCc .S (fun x => { x with rp := true, source := true, vout := 100 });
       (h.pw.dark = false) ∧ (h.fetHot p.ix = true) ∧ (h.armed p = true) ∧ ((h.cc.at p).source = true)
       ∧ ((h.cc.at p).before = none) ∧ (h.attach p ≠ 3) ∧ (h.fuse ≠ 4)
       ∧ ((h.cc.at p).trips.length + 1 < h.get (R.CC_PROT_RETRY_MAX p.ix)))
    ∧ (let p : Port := .S;
       let h : Hub := hubWith [(R.LOAD_TM_TEMP_TEMP 2, 2000)]; (h.pw.dark = false) ∧ (h.fetHot p.ix = true)
       ∧ (h.armed p = false))
    ∧ (let h : Hub := hubWith [(R.LOAD_TM_TEMP_TEMP 3, 2000)];
       (h.pw.dark = false) ∧ (h.fetHot 3 = true) ∧ (h.feedOn 2 = false))
    ∧ (let h : Hub := hubWith [(R.LOAD_TM_TEMP_TEMP 4, 2000), (R.LOAD_STATUS_STATE, 4), (R.LOAD_CTRL_EN, 1), (R.LOAD_CTRL_FAULT_MODE, 1), (R.LOAD_STATUS_PG, 1)];
       (h.pw.dark = false) ∧ (h.fetHot 4 = true) ∧ (h.fuse ≠ 5) ∧ (h.fuse ≠ 6) ∧ (h.on R.LOAD_CTRL_EN = true)
       ∧ (h.defPower = false) ∧ (h.on R.LOAD_CTRL_FAULT_MODE = true))
    ∧ (let f : Fin 5 := 4; let h : Hub := hubWith []; (h.pw.dark = false) ∧ (h.fetHot f = false))
    ∧ (let x : Telemetry := ⟨-40, 320, 960, 0xFFF, 960, 100, 0, 70000, ⟨⟨960, 2000, true⟩, ⟨100, 5, false⟩, ⟨0, 0, false⟩⟩⟩;
       let h : Hub := hubWith []; (h.pw.dark = false) ∧ (h.coop.noRefs = false))
    ∧ (let x : Telemetry := ⟨-40, 320, 960, 0xFFF, 960, 100, 0, 70000, ⟨⟨960, 2000, true⟩, ⟨100, 5, false⟩, ⟨0, 0, false⟩⟩⟩;
       let h : Hub := { hubWith [] with coop := { CoopState.reset with noRefs := true } }; (h.pw.dark = false)
       ∧ (h.coop.noRefs = true)) :=
  by and_intros <;> decide

/-- States and operands that meet the hypotheses of `Obligations.LifecycleRequests`. -/
theorem test_witness_LifecycleRequests :
    (let k : BitVec 16 := 0x4C42;
     let h : Hub := hubWith []; (h.awake = true) ∧ (h.sec.openedAt ≠ some h.root) ∧ (k ≠ 0x4C43))
    ∧ (let h : Hub := hubWith [(R.SEC_STATUS_LIFECYCLE, 1)];
       (h.awake = true) ∧ (h.sec.openedAt ≠ some h.root) ∧ (h.lifecycle ≠ 0) ∧ (h.lifecycle ≠ 3))
    ∧ (let h : Hub := hubWith [(R.SEC_STATUS_TRNG_FAIL, 1)];
       (h.awake = true) ∧ (h.sec.openedAt ≠ some h.root) ∧ (h.lifecycle = 0 ∨ h.lifecycle = 3)
       ∧ (h.on R.SEC_STATUS_TRNG_FAIL = true))
    ∧ (let h : Hub := hubWith [];
       (h.awake = true) ∧ (h.sec.openedAt ≠ some h.root) ∧ (h.lifecycle = 0 ∨ h.lifecycle = 3)
       ∧ (h.on R.SEC_STATUS_TRNG_FAIL = false))
    ∧ (let h : Hub := hubWith [(R.SEC_STATUS_LIFECYCLE, 1)];
       (h.awake = true) ∧ (h.sec.openedAt ≠ some h.root) ∧ (h.lifecycle = 1) ∧ (h.get R.SEC_STATUS_PKEYS = 0))
    ∧ (let h : Hub := hubWith [(R.SEC_STATUS_LIFECYCLE, 1), (R.SEC_STATUS_PKEYS, 8)];
       (h.awake = true) ∧ (h.sec.openedAt ≠ some h.root) ∧ (h.lifecycle = 1) ∧ (h.get R.SEC_STATUS_PKEYS ≠ 0))
    ∧ (let h : Hub := hubWith [(R.SEC_STATUS_LIFECYCLE, 1), (R.SEC_STATUS_ORS_VALID, 1)];
       (h.awake = true) ∧ (h.sec.openedAt ≠ some h.root) ∧ (h.lifecycle = 1))
    ∧ (let h : Hub := hubWith [(R.SEC_STATUS_LIFECYCLE, 2)];
       (h.awake = true) ∧ (h.sec.openedAt ≠ some h.root) ∧ (h.lifecycle = 2))
    ∧ (let h : Hub := hubWith [(R.SEC_STATUS_LIFECYCLE, 3)];
       (h.awake = true) ∧ (h.sec.openedAt ≠ some h.root) ∧ (h.lifecycle < 4))
    ∧ (let h : Hub := hubWith [(R.SEC_STATUS_LIFECYCLE, 4)];
       (h.awake = true) ∧ (h.sec.openedAt ≠ some h.root) ∧ (h.lifecycle = 4))
    ∧ (let k : BitVec 16 := 0x4C43;
       let h : Hub := { hubWith [] with sec := { (hubWith []).sec with openedAt := some 0 } }; (h.awake = true)
       ∧ (h.sec.openedAt = some h.root))
    ∧ (let h : Hub := hubWith []; (h.awake = true) ∧ (h.on R.SEC_STATUS_TRNG_FAIL = false))
    ∧ (let h : Hub := hubWith [(R.SEC_STATUS_TRNG_FAIL, 1)]; (h.awake = true) ∧ (h.on R.SEC_STATUS_TRNG_FAIL = true))
    ∧ (let h : Hub := hubWith []; (h.awake = true)) :=
  by and_intros <;> decide

/-- States and operands that meet the hypotheses of `Obligations.SecOperations`. -/
theorem test_witness_SecOperations :
    (let o : BitVec 4 := 9;
     let h : Hub := hubWith [(R.SEC_OP_STATUS_BUSY, 1)]; (h.awake = true) ∧ (h.on R.SEC_OP_STATUS_BUSY = true))
    ∧ (let o : BitVec 4 := 9;
       let h : Hub := (hubWith [(R.ACC_CTRL_EN, 1), (R.ACC_REG_PERM_VALID 0, 1), (R.ACC_REG_PERM_PERM 0, 0x3FFFF), (word (A.ACC_REG_BASE 0), 0x300000 + 19), (word A.SEC_OP_ADDR, 0x300040)]);
       (h.awake = true) ∧ (h.on R.SEC_OP_STATUS_BUSY = false) ∧ (o = 0 ∨ 8 ≤ o.toNat))
    ∧ (let o : BitVec 4 := 9;
       let a : Nat := 0x300020;
       let h : Hub := hubWith [(word A.SEC_OP_ADDR, 0x300020)]; (h.awake = true) ∧ (h.on R.SEC_OP_STATUS_BUSY = false)
       ∧ (a = (h.rd A.SEC_OP_ADDR).toNat) ∧ (a % 64 ≠ 0 ∨ a < 0x300000 ∨ 0x380000 ≤ a))
    ∧ (let o : BitVec 4 := 9;
       let n : Nat := 7;
       let a : Nat := 0x300040;
       let b : List Byte := [0, 0, 0, 0];
       let h : Hub := (hubWith [(R.ACC_CTRL_EN, 1), (R.ACC_REG_PERM_VALID 0, 1), (R.ACC_REG_PERM_PERM 0, 0x3FFFF), (word (A.ACC_REG_BASE 0), 0x300000 + 19), (word A.SEC_OP_ADDR, 0x300040)]);
       let g : Hub := ((h.put R.SEC_OP_CTRL_OP 7).put R.SEC_OP_STATUS_BUSY 1); (h.awake = true)
       ∧ (h.on R.SEC_OP_STATUS_BUSY = false) ∧ (a = (h.rd A.SEC_OP_ADDR).toNat) ∧ (a % 64 = 0) ∧ (0x300000 ≤ a)
       ∧ (a < 0x380000) ∧ (h.keyWaits n = false)
       ∧ (((h.put R.SEC_OP_CTRL_OP n).put R.SEC_OP_STATUS_BUSY 1).dmaRead a (secBlockLen n) = (g, .ok b)))
    ∧ (let o : BitVec 4 := 9;
       let a : Nat := 0x300040;
       let h : Hub := hubWith [(word A.SEC_OP_ADDR, 0x300040), (R.TUNC_PITCH_STATUS_BUSY, 1)]; (h.awake = true)
       ∧ (h.on R.SEC_OP_STATUS_BUSY = false) ∧ (a = (h.rd A.SEC_OP_ADDR).toNat) ∧ (a % 64 = 0) ∧ (0x300000 ≤ a)
       ∧ (a < 0x380000) ∧ (h.on R.TUNC_PITCH_STATUS_BUSY = true ∨ h.on R.JRN_STORE_STATUS_BUSY = true))
    ∧ (let o : BitVec 4 := 9;
       let a : Nat := 0x300040;
       let b : List Byte := 8 :: List.replicate 71 0;
       let h : Hub := (hubWith [(R.ACC_CTRL_EN, 1), (R.ACC_REG_PERM_VALID 0, 1), (R.ACC_REG_PERM_PERM 0, 0x3FFFF), (word (A.ACC_REG_BASE 0), 0x300000 + 19), (word A.SEC_OP_ADDR, 0x300040)]).mstore 0x300040 [8];
       let g : Hub := ((h.put R.SEC_OP_CTRL_OP 3).put R.SEC_OP_STATUS_BUSY 1); (h.awake = true)
       ∧ (h.on R.SEC_OP_STATUS_BUSY = false) ∧ (a = (h.rd A.SEC_OP_ADDR).toNat) ∧ (a % 64 = 0) ∧ (0x300000 ≤ a)
       ∧ (a < 0x380000) ∧ (((h.put R.SEC_OP_CTRL_OP 3).put R.SEC_OP_STATUS_BUSY 1).dmaRead a 0x48 = (g, .ok b))
       ∧ (8 ≤ kegWord b 0) ∧ (kegWord b 0 ≤ 64) ∧ (kegWord b 4 = 0))
    ∧ (let o : BitVec 4 := 9;
       let a : Nat := 0x300040;
       let b : List Byte := List.replicate 72 0;
       let h : Hub := (hubWith [(R.ACC_CTRL_EN, 1), (R.ACC_REG_PERM_VALID 0, 1), (R.ACC_REG_PERM_PERM 0, 0x3FFFF), (word (A.ACC_REG_BASE 0), 0x300000 + 19), (word A.SEC_OP_ADDR, 0x300040)]);
       let g : Hub := ((h.put R.SEC_OP_CTRL_OP 3).put R.SEC_OP_STATUS_BUSY 1); (h.awake = true)
       ∧ (h.on R.SEC_OP_STATUS_BUSY = false) ∧ (a = (h.rd A.SEC_OP_ADDR).toNat) ∧ (a % 64 = 0) ∧ (0x300000 ≤ a)
       ∧ (a < 0x380000) ∧ (((h.put R.SEC_OP_CTRL_OP 3).put R.SEC_OP_STATUS_BUSY 1).dmaRead a 0x48 = (g, .ok b))
       ∧ (kegWord b 0 < 8 ∨ 64 < kegWord b 0))
    ∧ (let o : BitVec 4 := 9;
       let h : Hub := (hubWith [(R.ACC_CTRL_EN, 1), (R.ACC_REG_PERM_VALID 0, 1), (R.ACC_REG_PERM_PERM 0, 0x3FFFF), (word (A.ACC_REG_BASE 0), 0x300000 + 19), (word A.SEC_OP_ADDR, 0x300040)]);
       (h.awake = true) ∧ (h.sec.op = none))
    ∧ (let o : BitVec 4 := 9;
       let s : SecOp := ⟨7, 0x300040, some [5, 0, 0, 0], []⟩;
       let b : List Byte := [5, 0, 0, 0];
       let h : Hub := (hubWith [(R.SEC_SLOT_LOADED 5, 1), (R.SEC_OP_STATUS_BUSY, 1)]).onSec (fun x => { x with op := some ⟨7, 0x300040, some [5, 0, 0, 0], []⟩, slots := [(5, ⟨[], [], 2, 0⟩)] });
       (h.awake = true) ∧ (h.sec.op = some s) ∧ (s.op = 7) ∧ (s.block = some b) ∧ (h.sealUses (kegWord b 0 % 32) = false))
    ∧ (let o : BitVec 4 := 9;
       let s : SecOp := ⟨1, 0x300040, some (List.replicate 0x6C 0), []⟩;
       let b : List Byte := List.replicate 0x6C 0;
       let c : Nat := 4;
       let h : Hub := (hubWith [(R.SEC_OP_STATUS_BUSY, 1)]).onSec (fun x => { x with op := some ⟨1, 0x300040, some (List.replicate 0x6C 0), []⟩ });
       (h.awake = true) ∧ (h.sec.op = some s) ∧ (s.op = 1) ∧ (s.block = some b)
       ∧ (h.sealUses (kegWord b 0x60 % 32) = false)
       ∧ (h.tapCode none (b.take 96) (kegWord b 0x60 % 32) (kegWord b 0x64 % 8) (kegWord b 0x68 % 16384) = .error c))
    ∧ (let o : BitVec 4 := 9;
       let s : SecOp := ⟨4, 0x300040, some [2, 0, 0, 0], []⟩;
       let b : List Byte := [2, 0, 0, 0];
       let h : Hub := (hubWith [(R.SEC_OP_STATUS_BUSY, 1)]).onSec (fun x => { x with op := some ⟨4, 0x300040, some [2, 0, 0, 0], []⟩ });
       (h.awake = true) ∧ (h.sec.op = some s) ∧ (s.op = 4) ∧ (s.block = some b) ∧ (1 < kegWord b 0))
    ∧ (let o : BitVec 4 := 9;
       let s : Fin 32 := 31;
       let e : Nat := 0;
       let tid : Nat := 5;
       let id : Nat := 7;
       let key : List Byte := List.replicate 32 0xA5;
       let h : Hub := (hubWith [(R.ACC_CTRL_EN, 1), (R.ACC_REG_PERM_VALID 0, 1), (R.ACC_REG_PERM_PERM 0, 0x3FFFF), (word (A.ACC_REG_BASE 0), 0x300000 + 19), (word A.SEC_OP_ADDR, 0x300040)]);
       (h.awake = true) ∧ (key.length = 32) ∧ (e ≠ 2))
    ∧ (let o : BitVec 4 := 9;
       let g : Hub := (hubWith []).onSec (fun x => { x with slots := [(3, ⟨[1, 2], [3, 4], 0, 9⟩)], ors := [7, 7], orsMask := [1, 2], turn := 3 });
       let h : Hub := (hubWith [(R.ACC_CTRL_EN, 1), (R.ACC_REG_PERM_VALID 0, 1), (R.ACC_REG_PERM_PERM 0, 0x3FFFF), (word (A.ACC_REG_BASE 0), 0x300000 + 19), (word A.SEC_OP_ADDR, 0x300040)]);
       (h.awake = true) ∧ (g.pw.dark = false) ∧ (g.pw.rail = false) ∧ (g.err.held = false)
       ∧ (∀ e ∈ g.sec.slots, e.2.masked.length = e.2.mask.length ∧ e.2.mask.length ≤ 32)
       ∧ (g.sec.ors.length = g.sec.orsMask.length) ∧ (g.sec.ors.length ≤ 32)) :=
  by and_intros <;> decide

/-- States and operands that meet the hypotheses of `Obligations.TestAccessPort`. -/
theorem test_witness_TestAccessPort :
    (let h : Hub := hubWith []; (h.pw.dark = false) ∧ (h.pw.rail = false) ∧ (h.pw.steep = false))
    ∧ (let p : List Bool := [true, false, true];
       let d : List Bool := [false, false, true];
       let h : Hub := hubWith []; (h.pw.dark = false) ∧ (h.pw.rail = false) ∧ (h.pw.steep = false))
    ∧ (let c : Byte := 0x85;
       let h : Hub := hubWith []; (h.pw.dark = false) ∧ (h.pw.rail = false) ∧ (h.pw.steep = false)
       ∧ (irListed.contains c.toNat = false))
    ∧ (let h : Hub := hubWith [(R.SEC_STATUS_LIFECYCLE, 3)];
       (h.pw.dark = false) ∧ (h.pw.rail = false) ∧ (h.pw.steep = false) ∧ (h.lcOpen = true))
    ∧ (let h : Hub := hubWith [(R.SEC_STATUS_LIFECYCLE, 2)];
       (h.pw.dark = false) ∧ (h.pw.rail = false) ∧ (h.pw.steep = false) ∧ (h.lcOpen = false))
    ∧ (let w : Bool := true;
       let a : BitVec 25 := 0x300000;
       let d : Word := 5;
       let h : Hub := hubWith []; (h.pw.dark = false) ∧ (h.pw.rail = false) ∧ (h.pw.steep = false)
       ∧ (h.on R.SEC_STATUS_SERVICE = false))
    ∧ (let w : Bool := true;
       let a : BitVec 25 := 0x300000;
       let d : Word := 5;
       let r : Nat := 5;
       let h : Hub := hubWith [(R.SEC_STATUS_SERVICE, 1)];
       let g : Hub := ((h.irSelect 0x84).debugDo true 0x300000 5).1; (h.pw.dark = false) ∧ (h.pw.rail = false)
       ∧ (h.pw.steep = false) ∧ (h.on R.SEC_STATUS_SERVICE = true)
       ∧ ((h.irSelect 0x84).debugDo w a.toNat d = (g, some r)))
    ∧ (let a : Nat := 0x37FFFC;
       let d : Word := 0x01020304;
       let h : Hub := hubWith [(R.SEC_STATUS_SERVICE, 1)]; (h.pw.dark = false) ∧ (h.pw.rail = false)
       ∧ (h.pw.steep = false) ∧ (0x300000 ≤ a) ∧ (a + 4 ≤ 0x380000) ∧ (a % 4 = 0) ∧ (h.access 5 .write a = (h, .ok))
       ∧ ((∀ i : Fin 4, h.writeHeld (a + i) = false)))
    ∧ (let h : Hub := hubWith [(R.SEC_STATUS_LIFECYCLE, 2), (R.SEC_STATUS_ORS_VALID, 1)];
       (h.pw.dark = false) ∧ (h.pw.rail = false) ∧ (h.pw.steep = false) ∧ (h.awake = true)
       ∧ (h.on R.SEC_STATUS_SERVICE = false))
    ∧ (let p : Port := .S;
       let h : Hub := hubWith [(R.CC_STATUS_ATTACH 2, 3), (R.SEC_STATUS_LIFECYCLE, 1)]; (h.pw.dark = false)
       ∧ (h.pw.rail = false) ∧ (h.pw.steep = false) ∧ (h.awake = true) ∧ (h.on R.SEC_STATUS_SERVICE = false)
       ∧ (h.attach p = 3))
    ∧ (let p : Port := .S;
       let r : Bool := true;
       let h : Hub := hubWith []; (h.pw.dark = false) ∧ (h.pw.rail = false) ∧ (h.pw.steep = false) ∧ (h.awake = true)
       ∧ (h.attach p ≠ 3))
    ∧ (let h : Hub := hubWith [(R.SEC_STATUS_SERVICE, 1)];
       (h.pw.dark = false) ∧ (h.pw.rail = false) ∧ (h.pw.steep = false) ∧ (h.awake = true)) :=
  by and_intros <;> decide

/-- States and operands that meet the hypotheses of `Obligations.CooperTests`. -/
theorem test_witness_CooperTests :
    (let f : Option MemFail := none;
     let h : Hub := hubWith [(R.COOP_CTRL_SLICE_EN, 0)]; (h.awake = true) ∧ (h.on R.COOP_CTRL_SLICE_EN = false))
    ∧ (let a : Nat := 0x100000;
       let h : Hub := hubWith [(R.COOP_CTRL_SLICE_EN, 1), (R.ACC_CTRL_EN, 1)]; (h.awake = true)
       ∧ (h.on R.COOP_CTRL_SLICE_EN = true) ∧ (h.coop.slice < 288) ∧ (a = 0x100000 + 1024 * h.coop.slice)
       ∧ (h.access 3 .read a = (h, .ok)))
    ∧ (let a : Nat := 0x100000;
       let h : Hub := hubWith [(R.COOP_CTRL_SLICE_EN, 1), (R.ACC_CTRL_EN, 1), (R.ACC_REG_PERM_VALID 0, 1), (word (A.ACC_REG_BASE 0), 0x100000 + 20)];
       let g : Hub := (h.access 3 .read 0x100000).1; (h.awake = true) ∧ (h.on R.COOP_CTRL_SLICE_EN = true)
       ∧ (h.coop.slice < 288) ∧ (a = 0x100000 + 1024 * h.coop.slice) ∧ (h.access 3 .read a = (g, .refused)))
    ∧ (let a : Nat := 0x100000;
       let w : Nat := 127;
       let k : Nat := 8;
       let b : Fin 72 := 71;
       let h : Hub := hubWith [(R.COOP_CTRL_SLICE_EN, 1), (R.ACC_CTRL_EN, 1)]; (h.awake = true)
       ∧ (h.on R.COOP_CTRL_SLICE_EN = true) ∧ (h.coop.slice < 288) ∧ (a = 0x100000 + 1024 * h.coop.slice)
       ∧ (h.access 3 .read a = (h, .ok)) ∧ (w < 128) ∧ (k = h.spareKey 1 (a + 8 * w) 0) ∧ (h.spareFor 1 k .row = .row))
    ∧ (let a : Nat := 0x300000;
       let w : Nat := 127;
       let b : Fin 72 := 71;
       let s : Spare := .row;
       let h : Hub := { hubWith [(R.COOP_CTRL_SLICE_EN, 1), (R.ACC_CTRL_EN, 1), (R.ACC_SLOT_VALID 2, 1), (R.ACC_SLOT_PERM 2, 0x3FFFF)] with coop := { CoopState.reset with slice := 864, used := [(26, (8, 4))] } };
       (h.awake = true) ∧ (h.on R.COOP_CTRL_SLICE_EN = true) ∧ (864 ≤ h.coop.slice) ∧ (h.coop.slice < 1376)
       ∧ (a = 0x300000 + 1024 * (h.coop.slice - 864)) ∧ (h.access 3 .read a = (h, .ok)) ∧ (h.access 3 .write a = (h, .ok))
       ∧ (w < 128) ∧ (h.spareFor 3 26 s = .none_))
    ∧ (let m : Nat := 3;
       let k : Nat := 26;
       let s : Spare := .row;
       let h : Hub := { hubWith [] with coop := { CoopState.reset with used := [(26, (8, 3))] } }; (h.awake = true)
       ∧ (m ≤ 4))
    ∧ (let h : Hub := hubWith [(R.COOP_CTRL_SLICE_EN, 1), (R.COOP_CTRL_LANE_EN, 1), (R.COOP_CTRL_ADC_EN, 1)];
       let cs : List Nat := (List.range 16).map (fun i => h.coop.cells + i); (h.awake = true)
       ∧ (h.on R.COOP_CTRL_SLICE_EN = true) ∧ (1024 ≤ h.cellsFree)
       ∧ (cs = (List.range 16).map (fun i => h.coop.cells + i)) ∧ (cs.all (fun c => (h.cellOwner c).isNone) = true)
       ∧ (h.coop.cells + 16 < cellTotal) ∧ (h.coop.cellsDone = []) ∧ (h.fab.retired = []))
    ∧ (let cs : List Nat := [0, 1, 2, 3, 4, 5, 6, 7, 8, 9, 10, 11, 12, 13, 14];
       let h : Hub := (hubWith [(R.COOP_CTRL_SLICE_EN, 1)]).onFab (fun f => { f with pkts := [(0, ⟨⟨127, .M, 0, 1, 0, 0, false, false, false, 0, 0, 0, []⟩, [15], .pool, 1, none, none, [], .M⟩)] });
       (h.awake = true) ∧ (h.on R.COOP_CTRL_SLICE_EN = true) ∧ (1024 ≤ h.cellsFree) ∧ (h.fab.retired = [])
       ∧ (h.coop.cellsDone = [])
       ∧ (cs = ((List.range 16).map (fun i => h.coop.cells + i)).filter (fun c => (h.cellOwner c).isNone))
       ∧ (cs.length < 16) ∧ (h.root < h.coop.cellsAt + 10 * second))
    ∧ (let h : Hub := (hubWith [(R.COOP_CTRL_SLICE_EN, 1)]).onFab (fun f => { f with pkts := List.replicate 512 (0, ⟨⟨127, .M, 0, 1, 0, 0, false, false, false, 0, 0, 0, []⟩, List.replicate 256 15, .pool, 1, none, none, [], .M⟩) });
       (h.awake = true) ∧ (h.on R.COOP_CTRL_SLICE_EN = true) ∧ (h.cellsFree < 1024) ∧ (h.fab.retired = [])
       ∧ (h.coop.cellsDone.length < 16) ∧ (h.root < h.coop.cellsAt + 10 * second))
    ∧ (let cs : List Nat := [0, 1, 2, 3, 4, 5, 6, 7, 8, 9, 10, 11, 12, 13, 14];
       let h : Hub := { (hubWith [(R.COOP_CTRL_SLICE_EN, 1)]).onFab (fun f => { f with pkts := [(0, ⟨⟨127, .M, 0, 1, 0, 0, false, false, false, 0, 0, 0, []⟩, [15], .pool, 1, none, none, [], .M⟩)] }) with root := 40000000000 };
       (h.awake = true) ∧ (h.on R.COOP_CTRL_SLICE_EN = true) ∧ (1024 ≤ h.cellsFree) ∧ (h.fab.retired = [])
       ∧ (h.coop.cellsDone = [])
       ∧ (cs = ((List.range 16).map (fun i => h.coop.cells + i)).filter (fun c => (h.cellOwner c).isNone))
       ∧ (cs.length < 16) ∧ (h.coop.cellsAt + 10 * second ≤ h.root) ∧ (h.coop.cells + 16 < cellTotal))
    ∧ (let p : Port := .E;
       let l : Fin 5 := 4;
       let k : LaneCheck := .passed;
       let h : Hub := hubWith [(R.COOP_CTRL_SLICE_EN, 1), (R.COOP_CTRL_LANE_EN, 1), (R.COOP_CTRL_ADC_EN, 1)];
       (h.awake = true) ∧ (h.on R.COOP_CTRL_LANE_EN = false ∨ h.up p = false ∨ h.on (R.LNK_CTRL_CAL_EN p.ix) = false))
    ∧ (let p : Port := .E;
       let l : Fin 5 := 4;
       let k : LaneCheck := .refused;
       let h : Hub := ((hubWith [(R.CLK_STATUS_MODE, 2), (R.COOP_CTRL_LANE_EN, 1), (R.LNK_STATUS_UP 0, 1), (R.LNK_STATUS_STATE 0, 10), (R.LNK_CTRL_CAL_EN 0, 1), (word (A.LNK_LANE_RX 0), 0), (word (A.LNK_LANE_TX 0), 0)]).onLink .E (fun l => { l with rx := .full, tx := .full })).onLink .E (fun l => { l with tx := ⟨31, 2, false⟩ });
       (h.awake = true) ∧ (h.on R.COOP_CTRL_LANE_EN = true) ∧ (h.up p = true) ∧ (h.on (R.LNK_CTRL_CAL_EN p.ix) = true)
       ∧ (h.laneRx p l ≠ 3) ∧ (h.laneTx p l ≠ 3) ∧ ((h.links.at p).rx ≠ .full ∨ (h.links.at p).tx ≠ .full))
    ∧ (let p : Port := .E;
       let l : Fin 5 := 4;
       let k : LaneCheck := .passed;
       let h : Hub := ((hubWith [(R.CLK_STATUS_MODE, 2), (R.COOP_CTRL_LANE_EN, 1), (R.LNK_STATUS_UP 0, 1), (R.LNK_STATUS_STATE 0, 10), (R.LNK_CTRL_CAL_EN 0, 1), (word (A.LNK_LANE_RX 0), 0), (word (A.LNK_LANE_TX 0), 0)]).onLink .E (fun l => { l with rx := .full, tx := .full })).setRx .E 4 3;
       (h.awake = true) ∧ (h.on R.COOP_CTRL_LANE_EN = true) ∧ (h.up p = true) ∧ (h.on (R.LNK_CTRL_CAL_EN p.ix) = true)
       ∧ (h.laneRx p l = 3) ∧ (k ≠ .failed))
    ∧ (let p : Port := .E;
       let l : Fin 5 := 4;
       let k : LaneCheck := .passed;
       let h : Hub := ((hubWith [(R.CLK_STATUS_MODE, 2), (R.COOP_CTRL_LANE_EN, 1), (R.LNK_STATUS_UP 0, 1), (R.LNK_STATUS_STATE 0, 10), (R.LNK_CTRL_CAL_EN 0, 1), (word (A.LNK_LANE_RX 0), 0), (word (A.LNK_LANE_TX 0), 0)]).onLink .E (fun l => { l with rx := .full, tx := .full })).setRx .E 2 1;
       (h.awake = true) ∧ (h.on R.COOP_CTRL_LANE_EN = true) ∧ (h.up p = true) ∧ (h.on (R.LNK_CTRL_CAL_EN p.ix) = true)
       ∧ (h.laneRx p l ≠ 3) ∧ (h.laneTx p l ≠ 3) ∧ ((h.links.at p).rx = .full) ∧ ((h.links.at p).tx = .full)
       ∧ (k = .refused ∨ h.mayWithdraw p = false))
    ∧ (let p : Port := .E;
       let l : Fin 5 := 4;
       let h : Hub := (hubWith [(R.CLK_STATUS_MODE, 2), (R.COOP_CTRL_LANE_EN, 1), (R.LNK_STATUS_UP 0, 1), (R.LNK_STATUS_STATE 0, 10), (R.LNK_CTRL_CAL_EN 0, 1), (word (A.LNK_LANE_RX 0), 0), (word (A.LNK_LANE_TX 0), 0)]).onLink .E (fun l => { l with rx := .full, tx := .full });
       (h.awake = true) ∧ (h.carries p = true) ∧ (h.on R.COOP_CTRL_LANE_EN = true) ∧ (h.up p = true)
       ∧ (h.on (R.LNK_CTRL_CAL_EN p.ix) = true) ∧ (h.laneRx p l ≠ 3) ∧ (h.laneTx p l ≠ 3) ∧ (h.mayWithdraw p = true))
    ∧ (let a : BitVec 16 := 1000;
       let b : BitVec 16 := 1010;
       let c : BitVec 16 := 991;
       let h : Hub := hubWith [(R.COOP_CTRL_SLICE_EN, 1), (R.COOP_CTRL_LANE_EN, 1), (R.COOP_CTRL_ADC_EN, 1)];
       (h.awake = true) ∧ (h.on R.COOP_CTRL_ADC_EN = true) ∧ (refsAgree a.toNat b.toNat = true)
       ∧ (refsAgree a.toNat c.toNat = true))
    ∧ (let a : BitVec 16 := 1000;
       let b : BitVec 16 := 1010;
       let c : BitVec 16 := 500;
       let h : Hub := hubWith [(R.COOP_CTRL_SLICE_EN, 1), (R.COOP_CTRL_LANE_EN, 1), (R.COOP_CTRL_ADC_EN, 1)];
       (h.awake = true) ∧ (h.on R.COOP_CTRL_ADC_EN = true) ∧ (h.coop.dropped = []) ∧ (refsAgree a.toNat b.toNat = true)
       ∧ (refsAgree a.toNat c.toNat = false) ∧ (refsAgree b.toNat c.toNat = false))
    ∧ (let a : BitVec 16 := 1000;
       let b : BitVec 16 := 1010;
       let c : BitVec 16 := 500;
       let h : Hub := { hubWith [(R.COOP_CTRL_ADC_EN, 1)] with coop := { CoopState.reset with dropped := [2] } };
       (h.awake = true) ∧ (h.on R.COOP_CTRL_ADC_EN = true) ∧ (h.coop.dropped = [2]) ∧ (refsAgree a.toNat b.toNat = true)
       ∧ (refsAgree a.toNat c.toNat = false) ∧ (refsAgree b.toNat c.toNat = false))
    ∧ (let a : BitVec 16 := 1000;
       let b : BitVec 16 := 1500;
       let c : BitVec 16 := 500;
       let h : Hub := hubWith [(R.COOP_CTRL_SLICE_EN, 1), (R.COOP_CTRL_LANE_EN, 1), (R.COOP_CTRL_ADC_EN, 1)];
       (h.awake = true) ∧ (h.on R.COOP_CTRL_ADC_EN = true) ∧ (refsAgree a.toNat b.toNat = false)
       ∧ (refsAgree a.toNat c.toNat = false) ∧ (refsAgree b.toNat c.toNat = false))
    ∧ (let h : Hub := { hubWith [] with coop := { CoopState.reset with noRefs := true } };
       (h.awake = true) ∧ (h.coop.noRefs = true))
    ∧ (let h : Hub := hubWith [(R.COOP_CTRL_SLICE_EN, 1), (R.COOP_CTRL_LANE_EN, 1), (R.COOP_CTRL_ADC_EN, 1)];
       (h.awake = true) ∧ (h.coop.noRefs = false))
    ∧ (let w : Nat := 0x20000;
       let h : Hub := hubWith [(R.COOP_CTRL_SLICE_EN, 1), (R.COOP_CTRL_LANE_EN, 1), (R.COOP_CTRL_ADC_EN, 1)];
       (h.awake = true) ∧ (w = scrubAddr h.coop.scrub / 8) ∧ (h.fab.soft.contains w = false))
    ∧ (let w : Nat := 0x20000;
       let h : Hub := (hubWith []).onFab (fun f => { f with soft := [0x20000] }); (h.awake = true)
       ∧ (w = scrubAddr h.coop.scrub / 8) ∧ (h.fab.soft = [w]))
    ∧ (let h : Hub := hubWith [(R.COOP_CTRL_SLICE_EN, 1), (R.COOP_CTRL_LANE_EN, 1), (R.COOP_CTRL_ADC_EN, 1)];
       (h.awake = true) ∧ (h.coop.scrub < 36864) ∧ ((h.tun.bad.contains ((0x100000 + 8 * h.coop.scrub) / 8)) = false)) :=
  by and_intros <;> decide

/-- States and operands that meet the hypotheses of `Obligations.CountersCleared`. -/
theorem test_witness_CountersCleared :
    (let p : Port := .S; let h : Hub := hubWith [(word A.ERR_EVT_LOST, 5)]; (h.awake = true))
    ∧ (let h : Hub := hubWith [(word A.ERR_EVT_LOST, 5)]; (h.awake = true))
    ∧ (let d : Fin 2 := 1; let h : Hub := hubWith [(word A.ERR_EVT_LOST, 5)]; (h.awake = true))
    ∧ (let x : Fin 4 := 3; let h : Hub := hubWith [(word A.ERR_EVT_LOST, 5)]; (h.awake = true)) :=
  by and_intros <;> decide

/-- States and operands that meet the hypotheses of `Obligations.SleepAndWake`. -/
theorem test_witness_SleepAndWake :
    (let c : Fin 6 := 0;
     let k : BitVec 16 := 0x5253;
     let h : Hub := hubWith []; (h.pw.dark = false) ∧ (h.pw.rail = false) ∧ (h.err.held = false) ∧ (h.pw.steep = false))
    ∧ (let h : Hub := hubWith [];
       (h.pw.dark = false) ∧ (h.pw.rail = false) ∧ (h.err.held = false) ∧ (h.pw.steep = false)
       ∧ (h.on R.DEV_IMAGE_CTRL_BUSY = true ∨ (h.rd A.DEV_IMAGE_ADDR).toNat % 64 ≠ 0 ∨ (h.rd A.DEV_IMAGE_ADDR).toNat < 0x300000 ∨ 0x380000 < (h.rd A.DEV_IMAGE_ADDR).toNat + 229376))
    ∧ (let a : Nat := 0x348000;
       let h : Hub := hubWith [(word A.DEV_IMAGE_ADDR, 0x348000)]; (h.pw.dark = false) ∧ (h.pw.rail = false)
       ∧ (h.err.held = false) ∧ (h.pw.steep = false) ∧ (a = (h.rd A.DEV_IMAGE_ADDR).toNat)
       ∧ (h.on R.DEV_IMAGE_CTRL_BUSY = false) ∧ (a % 64 = 0) ∧ (0x300000 ≤ a) ∧ (a + 229376 ≤ 0x380000))
    ∧ (let c : Fin 6 := 5;
       let h : Hub := hubWith []; (h.pw.dark = false) ∧ (h.pw.rail = false) ∧ (h.err.held = false) ∧ (h.pw.steep = false)
       ∧ (c ≠ 0 ∨ h.pw.reset = true ∨ h.get R.PWRS_STATUS_STATE = 1))
    ∧ (let n : Nat := 12;
       let h : Hub := hubWith [(R.SCH_STATUS_ARMED, 1), (R.DSP_CTRL_EN 0, 1)]; (h.pw.dark = false) ∧ (h.pw.rail = false)
       ∧ (h.err.held = false) ∧ (h.pw.steep = false) ∧ (h.pw.reset = false) ∧ (h.get R.PWRS_STATUS_STATE ≠ 1)
       ∧ (h.refuser = some n))
    ∧ (let h : Hub := hubWith [];
       (h.pw.dark = false) ∧ (h.pw.rail = false) ∧ (h.err.held = false) ∧ (h.pw.steep = false) ∧ (h.pw.reset = false)
       ∧ (h.get R.PWRS_STATUS_STATE ≠ 1) ∧ (h.refuser = none))
    ∧ (let p : Option Port := some .E;
       let h : Hub := hubWith []; (h.pw.dark = false) ∧ (h.pw.rail = false) ∧ (h.err.held = false) ∧ (h.pw.steep = false)
       ∧ (h.get R.PWRS_STATUS_STATE ≠ 1))
    ∧ (let p : Port := .W;
       let h : Hub := hubWith [(R.PWRS_STATUS_STATE, 1), (R.LNK_STATUS_UP 1, 1), (R.LNK_STATUS_STATE 1, 10), (R.LNK_STATUS_GEAR 1, 4), (R.CLK_STATUS_MODE, 2)];
       (h.pw.dark = false) ∧ (h.pw.rail = false) ∧ (h.err.held = false) ∧ (h.pw.steep = false)
       ∧ (h.get R.PWRS_STATUS_STATE = 1) ∧ (h.up p = true) ∧ (h.silent = false))
    ∧ (let h : Hub := hubWith [(R.PWRS_STATUS_STATE, 1)];
       (h.pw.dark = false) ∧ (h.pw.rail = false) ∧ (h.err.held = false) ∧ (h.pw.steep = false)
       ∧ (h.get R.PWRS_STATUS_STATE = 1) ∧ (Port.all.any h.up = false) ∧ (h.pw.wake = none))
    ∧ (let n : Nat := 2;
       let h : Hub := (hubWith [(R.PWRS_STATUS_STATE, 1)]).onPw (fun p => { p with wake := some 2 }); (h.pw.dark = false)
       ∧ (h.pw.rail = false) ∧ (h.err.held = false) ∧ (h.pw.steep = false) ∧ (h.get R.PWRS_STATUS_STATE = 1)
       ∧ (Port.all.any h.up = false) ∧ (h.pw.wake = some n))
    ∧ (let a : BitVec 4 := 15;
       let c : BitVec 3 := 7;
       let t : BitVec 3 := 7;
       let l : BitVec 3 := 7;
       let h : Hub := hubWith [(R.PINS_WAKE_CTRL_PIN_EN, 0), (R.PINS_WAKE_CTRL_CC_EN, 0), (R.PINS_WAKE_CTRL_TONE_EN, 0)];
       (h.pw.dark = false) ∧ (h.pw.rail = false) ∧ (h.err.held = false)
       ∧ ((h.put R.PINS_WAKE_LEVEL_LEVEL (h.activePins a.toNat)).wakeCode (h.activePins a.toNat + c.toNat * 16 + t.toNat * 128) = none))
    ∧ (let a : BitVec 4 := 5;
       let i : Fin 4 := 2;
       let h : Hub := hubWith []; (h.pw.dark = false) ∧ (h.pw.rail = false) ∧ (h.err.held = false))
    ∧ (let a : BitVec 4 := 13;
       let c : BitVec 3 := 0;
       let t : BitVec 3 := 0;
       let l : BitVec 3 := 0;
       let n : Nat := 2;
       let h : Hub := (hubWith [(R.PINS_WAKE_CTRL_PIN_EN, 15)]).onPw (fun p => { p with steep := true });
       (h.pw.dark = false) ∧ (h.pw.rail = false) ∧ (h.err.held = false)
       ∧ ((h.put R.PINS_WAKE_LEVEL_LEVEL (h.activePins a.toNat)).wakeCode (h.activePins a.toNat + c.toNat * 16 + t.toNat * 128) = some n)
       ∧ (h.pw.steep = true))
    ∧ (let a : BitVec 4 := 13;
       let c : BitVec 3 := 0;
       let t : BitVec 3 := 0;
       let l : BitVec 3 := 0;
       let n : Nat := 2;
       let h : Hub := hubWith [(R.PINS_WAKE_CTRL_PIN_EN, 15), (R.PWRS_STATUS_STATE, 1)]; (h.pw.dark = false)
       ∧ (h.pw.rail = false) ∧ (h.err.held = false)
       ∧ ((h.put R.PINS_WAKE_LEVEL_LEVEL (h.activePins a.toNat)).wakeCode (h.activePins a.toNat + c.toNat * 16 + t.toNat * 128) = some n)
       ∧ (h.pw.steep = false) ∧ (h.get R.PWRS_STATUS_STATE = 1) ∧ (h.pw.wake = none) ∧ (h.pw.stp = false))
    ∧ (let m : BitVec 3 := 7;
       let h : Hub := hubWith [(R.CLK_STATUS_MODE, 2), (R.LNK_STATUS_STATE 1, stPartnerSteep), (R.LNK_STATUS_STATE 2, stPartnerSteep)];
       (h.pw.dark = false) ∧ (h.pw.rail = false) ∧ (h.err.held = false) ∧ (h.silent = false) ∧ (h.pw.steep = false))
    ∧ (let m : BitVec 3 := 7;
       let h : Hub := hubWith [(R.LNK_STATUS_STATE 1, stPartnerSteep), (R.CLK_STATUS_MODE, 0)]; (h.pw.dark = false)
       ∧ (h.pw.rail = false) ∧ (h.err.held = false) ∧ (h.silent = true)) :=
  by and_intros <;> decide

/-- States and operands that meet the hypotheses of `Obligations.PowerAndResets`. -/
theorem test_witness_PowerAndResets :
    (let f : SelfTest := ⟨[], ⟨0, 0, 0⟩, 1000, 1000, 1000, ⟨0, 0, 0⟩, 0, 0, false, ⟨none, none, none⟩⟩;
     let ms : BitVec 16 := 25;
     let h : Hub := (hubWith []).onPw (fun p => { p with dark := true }); (h.pw.dark = true)
     ∧ (f.mems.all (fun m => m.mem != 4) = true))
    ∧ (let f : SelfTest := ⟨[⟨4, 0, ⟨0, 0, .none_⟩⟩], ⟨0, 0, 0⟩, 1000, 1000, 1000, ⟨0, 0, 0⟩, 0, 0, false, ⟨none, none, none⟩⟩;
       let m : MemFinding := ⟨4, 0, ⟨0, 0, .none_⟩⟩;
       let ms : BitVec 16 := 25;
       let h : Hub := (hubWith []).onPw (fun p => { p with dark := true }); (h.pw.dark = true) ∧ (m ∈ f.mems)
       ∧ (m.mem = 4) ∧ (m.fail.spare = .none_))
    ∧ (let f : SelfTest := ⟨[], ⟨0, 0, 0⟩, 1000, 1000, 1000, ⟨0, 0, 0⟩, 0, 0, false, ⟨none, none, none⟩⟩;
       let ms : BitVec 16 := 25;
       let h : Hub := hubWith [(R.DEV_STATUS_RELEASED, 1)]; (h.pw.dark = false)
       ∧ (h.on R.DEV_STATUS_RELEASED = true ∨ h.err.held = true))
    ∧ (let h : Hub := (hubWith []).onCc .W (fun x => { x with rp := true, vout := 100 });
       (h.pw.dark = false) ∧ (h.commitDue = false))
    ∧ (let cut : CommitCut := .record;
       let h : Hub := { hubWith [(R.JRN_STATUS_HEAD, 5), (R.SEC_STATUS_LIFECYCLE, 2)] with tun := { (hubWith []).tun with ops := [⟨.jrec, 3, true, 0, [], none⟩] } };
       (h.pw.dark = false) ∧ (h.commitDue = true))
    ∧ (let h : Hub := hubWith []; (h.pw.dark = false))
    ∧ (let c : CommitCut := .tag;
       let r : Option (SelfTest × BitVec 16) := none;
       let h : Hub := (hubWith []).onPw (fun p => { p with dark := true }); (h.pw.dark = true))
    ∧ (let f : SelfTest := ⟨[], ⟨0, 0, 0⟩, 1000, 1000, 1000, ⟨0, 0, 0⟩, 0, 0, false, ⟨none, none, none⟩⟩;
       let ms : BitVec 16 := 25;
       let h : Hub := (hubWith []).onPw (fun p => { p with rail := true }); (h.pw.dark = false) ∧ (h.pw.rail = true)
       ∧ (f.mems.all (fun m => m.mem != 4) = true))
    ∧ (let ms : BitVec 16 := 9; let h : Hub := hubWith []; (h.awake = true) ∧ (h.err.fatalPending = false))
    ∧ (let ms : BitVec 16 := 9;
       let h : Hub := { hubWith [] with err := { (hubWith []).err with fatalPending := true } }; (h.awake = true)
       ∧ (h.err.fatalPending = true) ∧ ((h.err.fatalAt.filter (fun t => decide (h.root < t + 600 * second))).length < 3))
    ∧ (let ms : BitVec 16 := 9;
       let h : Hub := { hubWith [] with root := 40, err := { (hubWith []).err with fatalPending := true, fatalAt := [1, 2, 3] } };
       (h.awake = true) ∧ (h.err.fatalPending = true)
       ∧ (3 ≤ (h.err.fatalAt.filter (fun t => decide (h.root < t + 600 * second))).length))
    ∧ (let ms : BitVec 16 := 9;
       let h : Hub := { hubWith [] with err := { (hubWith []).err with held := true } }; (h.pw.dark = false)
       ∧ (h.pw.rail = false) ∧ (h.pw.steep = false))
    ∧ (let ms : BitVec 16 := 9;
       let h : Hub := (hubWith []).onPw (fun p => { p with reset := true }); (h.awake = true) ∧ (h.pw.reset = true))
    ∧ (let ms : BitVec 16 := 9; let h : Hub := hubWith []; (h.awake = true) ∧ (h.pw.reset = false))
    ∧ (let a : Nat := 0x300000;
       let h : Hub := (hubWith [(word A.DEV_IMAGE_ADDR, 0x300000)]).onPw (fun p => { p with capture := some 0x300000 });
       (h.awake = true) ∧ (h.pw.capture = some a))
    ∧ (let h : Hub := hubWith []; (h.awake = true) ∧ (h.pw.capture = none)) :=
  by and_intros <;> decide

/-- States and operands that meet the hypotheses of `Obligations.EnumerationAndRegisters`. -/
theorem test_witness_EnumerationAndRegisters :
    (let p : Port := .S; let h : Hub := hubWith []; (h.awake = true) ∧ ((h.links.at p).ownOf 7 = none))
    ∧ (let p : Port := .W;
       let x : PortPkt := ⟨⟨127, .M, 0, 7, 0, 0, false, false, false, 0, 1, 0, [0xC0]⟩, 5⟩;
       let w : Nat := 0xC0;
       let h : Hub := (hubWith [(R.DEV_STATUS_ADDR, 127)]).onLink .W (fun l => { l with ctl := [⟨⟨127, .M, 0, 7, 0, 0, false, false, false, 0, 1, 0, [0xC0]⟩, 5⟩] });
       (h.awake = true) ∧ ((h.links.at p).ownOf 7 = some x) ∧ (w = (x.pkt.payload.headD 0#32).toNat) ∧ (h.addr = 127)
       ∧ (1 ≤ w % 128) ∧ (w % 128 ≤ 64) ∧ (h.lstate p ≠ stMiswired) ∧ (h.on (R.LNK_STATUS_OPEN_END p.ix) = false))
    ∧ (let p : Port := .W;
       let x : PortPkt := ⟨⟨127, .M, 0, 7, 0, 0, false, false, false, 0, 1, 0, [0xC0]⟩, 5⟩;
       let w : Nat := 0xC0;
       let h : Hub := (hubWith [(R.DEV_STATUS_ADDR, 7)]).onLink .W (fun l => { l with ctl := [⟨⟨127, .M, 0, 7, 0, 0, false, false, false, 0, 1, 0, [0xC0]⟩, 5⟩] });
       (h.awake = true) ∧ ((h.links.at p).ownOf 7 = some x) ∧ (w = (x.pkt.payload.headD 0#32).toNat) ∧ (h.hasAddr = true)
       ∧ (1 ≤ w % 128) ∧ (w % 128 ≤ 64) ∧ (h.addr ≠ w % 128) ∧ (h.lstate p ≠ stMiswired)
       ∧ (h.on (R.LNK_STATUS_OPEN_END p.ix) = false))
    ∧ (let p : Port := .W;
       let x : PortPkt := ⟨⟨127, .M, 0, 7, 0, 0, false, false, false, 0, 1, 0, [0xC0]⟩, 5⟩;
       let w : Nat := 0xC0;
       let h : Hub := (hubWith [(R.DEV_STATUS_ADDR, 64)]).onLink .W (fun l => { l with ctl := [⟨⟨127, .M, 0, 7, 0, 0, false, false, false, 0, 1, 0, [0xC0]⟩, 5⟩] });
       (h.awake = true) ∧ ((h.links.at p).ownOf 7 = some x) ∧ (w = (x.pkt.payload.headD 0#32).toNat) ∧ (h.hasAddr = true)
       ∧ (1 ≤ w % 128) ∧ (w % 128 ≤ 64) ∧ (h.addr = w % 128) ∧ (h.lstate p ≠ stMiswired)
       ∧ (h.on (R.LNK_STATUS_OPEN_END p.ix) = false))
    ∧ (let p : Port := .W;
       let x : PortPkt := ⟨⟨127, .M, 0, 7, 0, 0, false, false, false, 0, 1, 0, [65]⟩, 5⟩;
       let w : Nat := 65;
       let h : Hub := (hubWith [(R.DEV_STATUS_ADDR, 127)]).onLink .W (fun l => { l with ctl := [⟨⟨127, .M, 0, 7, 0, 0, false, false, false, 0, 1, 0, [65]⟩, 5⟩] });
       (h.awake = true) ∧ ((h.links.at p).ownOf 7 = some x) ∧ (w = (x.pkt.payload.headD 0#32).toNat)
       ∧ (w % 128 = 0 ∨ 64 < w % 128))
    ∧ (let d : Delivered := ⟨0, ⟨127, .M, 0, 7, 0, 0, false, false, false, 0, 2, 0, [0x502]⟩⟩;
       let p : Port := .W;
       let w : Nat := 0x502;
       let h : Hub := ((hubWith [(R.DEV_STATUS_ADDR, 1), (R.CLK_STATUS_MODE, 2), (R.LNK_STATUS_UP 0, 1), (R.LNK_STATUS_STATE 0, 10), (R.LNK_STATUS_UP 1, 1), (R.LNK_STATUS_STATE 1, 10), (R.LNK_STATUS_UP 2, 1), (R.LNK_STATUS_STATE 2, 10)]).onLink .W (fun l => { l with limit := ⟨100, 100, 100, 100⟩, seen := ⟨1, 1, 1, 1⟩ })).onFab (fun f => { f with inbox := [(3, [⟨0, ⟨127, .M, 0, 7, 0, 0, false, false, false, 0, 2, 0, [0x502]⟩⟩])] });
       let k : Packet := h.portPacket 7 1 [5]; (h.awake = true) ∧ (h.hasAddr = true)
       ∧ (h.inbox3 (fun p => p.kind == 7 && p.aux % 16 == 2) = some d) ∧ (w = (d.pkt.payload.headD 0#32).toNat)
       ∧ (Port.ofCode (w % 4) = some p) ∧ (h.up p = true)
       ∧ (k = h.portPacket 7 1 [W (slice w 8 7 + slice w 15 1 * 2 ^ 7)]) ∧ (h.portMay p k = true))
    ∧ (let d : Delivered := ⟨0, ⟨127, .M, 0, 7, 0, 0, false, false, false, 0, 2, 0, [0x502]⟩⟩;
       let p : Port := .W;
       let w : Nat := 0x502;
       let h : Hub := (hubWith [(R.DEV_STATUS_ADDR, 1), (R.LNK_STATUS_UP 1, 1), (R.LNK_STATUS_STATE 1, 10)]).onFab (fun f => { f with inbox := [(3, [⟨0, ⟨127, .M, 0, 7, 0, 0, false, false, false, 0, 2, 0, [0x502]⟩⟩])] });
       let k : Packet := h.portPacket 7 1 [5]; (h.awake = true)
       ∧ (h.inbox3 (fun p => p.kind == 7 && p.aux % 16 == 2) = some d) ∧ (w = (d.pkt.payload.headD 0#32).toNat)
       ∧ (Port.ofCode (w % 4) = some p) ∧ (h.up p = true) ∧ (h.hasAddr = true)
       ∧ (k = h.portPacket 7 1 [W (slice w 8 7 + slice w 15 1 * 2 ^ 7)]) ∧ (h.portMay p k = false))
    ∧ (let d : Delivered := ⟨0, ⟨127, .M, 0, 7, 0, 0, false, false, false, 0, 2, 0, [0x502]⟩⟩;
       let p : Port := .W;
       let w : Nat := 0x502;
       let h : Hub := (hubWith [(R.LNK_STATUS_UP 1, 1), (R.LNK_STATUS_STATE 1, 10)]).onFab (fun f => { f with inbox := [(3, [⟨0, ⟨127, .M, 0, 7, 0, 0, false, false, false, 0, 2, 0, [0x502]⟩⟩])] });
       (h.awake = true) ∧ (h.inbox3 (fun p => p.kind == 7 && p.aux % 16 == 2) = some d)
       ∧ (w = (d.pkt.payload.headD 0#32).toNat) ∧ (Port.ofCode (w % 4) = some p) ∧ (h.up p = false ∨ h.hasAddr = false))
    ∧ (let d : Delivered := ⟨0, ⟨127, .M, 0, 7, 0, 0, false, false, false, 0, 2, 0, [0x500]⟩⟩;
       let w : Nat := 0x500;
       let h : Hub := (hubWith []).onFab (fun f => { f with inbox := [(3, [⟨0, ⟨127, .M, 0, 7, 0, 0, false, false, false, 0, 2, 0, [0x500]⟩⟩])] });
       (h.awake = true) ∧ (h.inbox3 (fun p => p.kind == 7 && p.aux % 16 == 2) = some d)
       ∧ (w = (d.pkt.payload.headD 0#32).toNat) ∧ (Port.ofCode (w % 4) = none))
    ∧ (let h : Hub := hubWith []; (h.awake = true) ∧ (h.inbox3 (fun p => p.kind == 7 && p.aux % 16 == 2) = none))
    ∧ (let c : Fin 6 := 2;
       let k : AccKind := .write;
       let a : Nat := 0x7FFFC;
       let h : Hub := hubWith [(R.ACC_CTRL_EN, 1)]; (h.awake = true) ∧ (a < 0x80000) ∧ (h.on R.ACC_CTRL_EN = true)
       ∧ (h.entriesAt a = []))
    ∧ (let c : Fin 6 := 2;
       let k : AccKind := .read;
       let a : Nat := 0;
       let e : AccEntry := ⟨0, 0x40000040⟩;
       let h : Hub := hubWith [(R.ACC_CTRL_EN, 1), (word (A.ACC_SLOT 0), 0x40000040)]; (h.awake = true) ∧ (a < 0x80000)
       ∧ (h.on R.ACC_CTRL_EN = true) ∧ (h.entriesAt a = [e]) ∧ (e.privOnly = false) ∧ (e.allows c k = true))
    ∧ (let c : Fin 6 := 2;
       let k : AccKind := .write;
       let a : Nat := 0;
       let e : AccEntry := ⟨0, 0x40000040⟩;
       let h : Hub := hubWith [(R.ACC_CTRL_EN, 1), (word (A.ACC_SLOT 0), 0x40000040)]; (h.awake = true) ∧ (a < 0x80000)
       ∧ (h.on R.ACC_CTRL_EN = true) ∧ (h.entriesAt a = [e]) ∧ (c.val ≠ 5)
       ∧ (e.privOnly = true ∧ userClass c = true ∨ e.allows c k = false))
    ∧ (let c : Fin 6 := 0;
       let k : AccKind := .read;
       let a : Nat := 0x8008;
       let h : Hub := hubWith [(R.ACC_CTRL_EN, 0)]; (h.awake = true) ∧ (a < 0x80000) ∧ (h.on R.ACC_CTRL_EN = false)
       ∧ (c.val ≠ 5) ∧ (¬ (c.val = 0 ∧ a / 0x4000 = 4)))
    ∧ (let c : Fin 6 := 5;
       let k : AccKind := .read;
       let a : Nat := 0x80000;
       let h : Hub := hubWith []; (h.awake = true) ∧ (0x80000 ≤ a) ∧ (a < 0x100000))
    ∧ (let c : Fin 6 := 0;
       let a : BitVec 25 := 0x4000;
       let be : BitVec 4 := 15;
       let v : Word := 1;
       let x : Bool := false;
       let y : Bool := false;
       let h : Hub := hubWith []; (h.awake = true) ∧ (a.toNat < 0x100000) ∧ (a.toNat % 4 = 0)
       ∧ (h.decide_ c .write a.toNat = .ok x y))
    ∧ (let c : Fin 6 := 1;
       let a : BitVec 25 := 0x4000;
       let be : BitVec 4 := 15;
       let v : Word := 1;
       let info : Nat := 41;
       let h : Hub := hubWith []; (h.awake = true) ∧ (a.toNat < 0x100000) ∧ (a.toNat % 4 = 0)
       ∧ (h.decide_ c .write a.toNat = .refused info))
    ∧ (let c : Fin 6 := 0;
       let a : BitVec 25 := 0x80000;
       let be : BitVec 4 := 15;
       let v : Word := 1;
       let h : Hub := hubWith []; (h.awake = true) ∧ (a.toNat < 0x100000) ∧ (a.toNat % 4 = 0)
       ∧ (h.decide_ c .write a.toNat = .error))
    ∧ (let c : Fin 6 := 4;
       let a : BitVec 25 := 0x4000;
       let be : BitVec 4 := 15;
       let v : Word := 1;
       let h : Hub := hubWith [(R.ACC_CTRL_EN, 0)]; (h.awake = true) ∧ (a.toNat < 0x100000) ∧ (a.toNat % 4 = 0)
       ∧ (h.decide_ c .write a.toNat = .held))
    ∧ (let c : Fin 6 := 0;
       let a : BitVec 25 := 0x4001;
       let be : BitVec 4 := 15;
       let v : Word := 1;
       let h : Hub := hubWith []; (h.awake = true) ∧ (0x100000 ≤ a.toNat ∨ a.toNat % 4 ≠ 0))
    ∧ (let c : Fin 6 := 0;
       let a : BitVec 25 := BitVec.ofNat 25 A.EMMC_ARG;
       let be : BitVec 4 := 5;
       let v : Word := 0x80000001;
       let x : Bool := false;
       let y : Bool := false;
       let h : Hub := hubWith []; (h.awake = true) ∧ (a.toNat = A.EMMC_ARG) ∧ (h.decide_ c .write A.EMMC_ARG = .ok x y))
    ∧ (let c : Fin 6 := 0;
       let v : Word := 0x80000001;
       let x : Bool := false;
       let y : Bool := false;
       let h : Hub := hubWith []; (h.awake = true) ∧ (h.decide_ c .write A.PINS_WAKE_CTRL = .ok x y))
    ∧ (let c : Fin 6 := 0;
       let v : Word := 0x100;
       let x : Bool := false;
       let y : Bool := false;
       let h : Hub := hubWith []; (h.awake = true) ∧ (h.decide_ c .write A.PINS_WAKE_FILT = .ok x y))
    ∧ (let c : Fin 6 := 0;
       let be : BitVec 4 := 1;
       let v : Word := 0x80000001;
       let i : Fin 8 := 0;
       let x : Bool := false;
       let y : Bool := false;
       let h : Hub := hubWith [(R.LOAD_EVENT_SHORT, 1)]; (h.awake = true) ∧ (h.decide_ c .write A.LOAD_EVENT = .ok x y))
    ∧ (let c : Fin 6 := 0;
       let be : BitVec 4 := 15;
       let v : Word := 5;
       let x : Bool := false;
       let y : Bool := false;
       let h : Hub := hubWith []; (h.awake = true) ∧ (h.decide_ c .write A.DEV_ID = .ok x y))
    ∧ (let c : Fin 6 := 0;
       let be : BitVec 4 := 15;
       let v : Word := 5;
       let x : Bool := false;
       let y : Bool := false;
       let h : Hub := hubWith []; (h.awake = true) ∧ (h.decide_ c .write 0x3FFC = .ok x y))
    ∧ (let c : Fin 6 := 0;
       let be : BitVec 4 := 1;
       let v : Word := 1;
       let x : Bool := false;
       let y : Bool := false;
       let h : Hub := hubWith []; (h.awake = true) ∧ (h.decide_ c .write 0x18024 = .ok x y))
    ∧ (let c : Fin 6 := 0;
       let x : Bool := false;
       let y : Bool := false;
       let h : Hub := hubWith []; (h.awake = true) ∧ (h.decide_ c .read A.TIME_NOW_LO = .ok x y))
    ∧ (let c : Fin 6 := 0;
       let x : Bool := false;
       let y : Bool := false;
       let h : Hub := hubWith []; (h.awake = true) ∧ (h.decide_ c .read A.FAB_CNT_LO = .ok x y))
    ∧ (let c : Fin 6 := 0;
       let n : Fin 96 := 95;
       let x : Bool := false;
       let y : Bool := false;
       let h : Hub := hubWith []; (h.awake = true) ∧ (h.decide_ c .read (A.POL_DROP_LO n) = .ok x y))
    ∧ (let c : Fin 6 := 0;
       let x : Bool := false;
       let y : Bool := false;
       let h : Hub := hubWith []; (h.awake = true) ∧ (h.decide_ c .read A.USBH_SOF_LO = .ok x y))
    ∧ (let c : Fin 6 := 0;
       let x : Bool := false;
       let y : Bool := false;
       let h : Hub := hubWith []; (h.awake = true) ∧ (h.decide_ c .read A.PWRS_WAKE_LO = .ok x y))
    ∧ (let c : Fin 6 := 0;
       let p : Port := .S;
       let x : Bool := false;
       let y : Bool := false;
       let h : Hub := hubWith []; (h.awake = true) ∧ (h.decide_ c .read (A.LNK_WIN_DUP_P_LO p.ix) = .ok x y))
    ∧ (let c : Fin 6 := 0;
       let d : Fin 2 := 1;
       let x : Bool := false;
       let y : Bool := false;
       let h : Hub := hubWith []; (h.awake = true) ∧ (h.decide_ c .read (A.DSP_FLIP_LO d) = .ok x y))
    ∧ (let c : Fin 6 := 1;
       let a : BitVec 25 := 0x8008;
       let info : Nat := 33;
       let h : Hub := hubWith []; (h.awake = true) ∧ (latching a.toNat = true)
       ∧ (h.decide_ c .read a.toNat = .refused info))
    ∧ (let c : Fin 6 := 3;
       let a : BitVec 25 := 0x8008;
       let h : Hub := hubWith [(R.ACC_CTRL_EN, 0)]; (h.awake = true) ∧ (latching a.toNat = true)
       ∧ (h.decide_ c .read a.toNat = .held))
    ∧ (let c : Fin 6 := 0;
       let a : BitVec 25 := 4;
       let h : Hub := hubWith []; (h.awake = true) ∧ (latching a.toNat = false)) :=
  by and_intros <;> decide
end

section
/-! SUPPORT. The statements of the family of the scope: the state after reset (O3), and the register write that refutes
`Obligations.EnumerationAndRegisters` (O60). -/

open Sys2Proof Sys2Proof.Machine

namespace Sys2Proof.Machine

/-! ### The hub at reset -/

@[simp] theorem Hub.reset_rd (a : Nat) : Hub.reset.rd a = regReset a := rfl

@[simp] theorem Hub.reset_mrd (a : Nat) : Hub.reset.mrd a = 0#8 := rfl

/-- The registers of the hub after reset list nothing. -/
theorem Hub.reset_regsWf : Hub.reset.regsWf = true := rfl

@[simp] theorem Hub.reset_log (i : Nat) : KMap.get? Hub.reset.err.log i = none := rfl

@[simp] theorem Hub.reset_slots (i : Nat) : KMap.get? Hub.reset.sec.slots i = none := rfl

/-- A field of the hub after reset is that of its register's reset value. -/
theorem Hub.reset_get (f : RF) : Hub.reset.get f = slice (regReset f.addr).toNat f.lo f.width := rfl

theorem Hub.reset_addr : Hub.reset.addr = 127 := by
  rw [Hub.addr, Hub.reset_get]; decide

theorem Hub.reset_lifecycle : Hub.reset.lifecycle = 0 := by
  rw [Hub.lifecycle, Hub.reset_get]; decide

theorem Hub.reset_fuse : Hub.reset.fuse = 0 := by
  rw [Hub.fuse, Hub.reset_get]; decide

theorem Hub.reset_attach (p : Port) : Hub.reset.attach p = 0 := by
  rw [Hub.attach, Hub.reset_get]; cases p <;> decide

theorem Hub.reset_up (p : Port) : Hub.reset.up p = false := by
  rw [Hub.up, Hub.on, Hub.reset_get]; cases p <;> decide

end Sys2Proof.Machine

/-- Settles O3: every table of the hub after reset is empty, so that each register word, and each field of it, reads as the
register table's reset value. -/
theorem resetState : Obligations.ResetState := by
  have noAddr : Hub.reset.hasAddr = false := by simp [Hub.hasAddr, Hub.reset_addr]
  have devId : regReset A.DEV_ID = 0x4A4803C4#32 := by decide
  have devBehaviour : regReset A.DEV_BEHAVIOUR = 1#32 := by decide
  exact ⟨rfl, Hub.reset_rd, Hub.reset_mrd, Hub.reset_memWf, Hub.reset_regsWf, rfl, rfl, rfl, devId, devBehaviour, noAddr,
    Hub.reset_lifecycle, rfl, fun p _ => ⟨Hub.reset_attach p, Hub.reset_up p⟩, Hub.reset_fuse, rfl,
    fun i _ => Hub.reset_log i, fun i _ => Hub.reset_slots i⟩

namespace Sys2Proof.Machine

/-! ### Register writes -/

theorem exec_registerWrite (c : Fin 6) (a : BitVec 25) (be : BitVec 4) (v : Word) (s : State) :
    exec (.registerWrite c a be v) s = s.upd (fun h => h.registerWrite c a.toNat v be.toNat) := rfl

/-- What a running hub becomes by a register write. -/
theorem becomes_registerWrite {h : Hub} (awake : h.awake = true) (c : Fin 6) (a : BitVec 25) (be : BitVec 4) (v : Word) :
    becomes (.registerWrite c a be v) h (h.registerWrite c a.toNat v be.toNat) := fun q => by
  rw [exec_registerWrite, State.upd_of_awake awake]; rfl

/-- A command that takes a hub to another completes as the other says. -/
theorem of_does_of_becomes {c : Instr} {h h' : Hub} {P : Hub → Prop} (d : does c h P) (b : becomes c h h') : P h' := by
  obtain ⟨t, ht, et⟩ := d
  have e : t = h' := by simpa [b []] using (et []).symm
  exact e ▸ ht

/-- A register write that the access table allows is made by the rules of its register. -/
theorem Hub.registerWrite_of_ok {h : Hub} {cls a : Nat} {x y : Bool} (range : a < 0x100000) (aligned : a % 4 = 0)
    (ok : h.decide_ cls .write a = .ok x y) (v : Word) (be : Nat) : h.registerWrite cls a v be = h.writeReg cls a v be := by
  have hit : h.access cls .write a = (h, .ok) := by simp [Hub.access, ok]
  have inside : ¬ (0x100000 ≤ a ∨ a % 4 ≠ 0) := by omega
  simp [Hub.registerWrite, inside, hit]

/-- The row of PINS_WAKE_CTRL: fields in bits 0–13, bits 14–31 reserved. -/
theorem regRow_wakeCtrl :
    regRow? A.PINS_WAKE_CTRL
      = some ⟨0x0, [], 0x3f00, [⟨0, 4, .rw, []⟩, ⟨4, 4, .rw, []⟩, ⟨8, 3, .rw, []⟩, ⟨11, 3, .rw, []⟩]⟩ := rfl

/-- A write of PINS_WAKE_CTRL is plain. -/
theorem Hub.writeReg_wakeCtrl (h : Hub) (cls : Nat) (v : Word) (be : Nat) :
    h.writeReg cls A.PINS_WAKE_CTRL v be = h.plain A.PINS_WAKE_CTRL v be := by
  have own : linkAlias A.PINS_WAKE_CTRL = A.PINS_WAKE_CTRL := by decide
  have slot : A.PINS_WAKE_CTRL / 0x4000 = 31 := by decide
  simp only [Hub.writeReg, Hub.regWrite, own, slot, Hub.plainW]

/-- A plain write of PINS_WAKE_CTRL keeps its reserved bits as they stand. -/
theorem Hub.plain_wakeCtrl_reserved (h : Hub) (v : Word) (be : Nat) :
    slice ((h.plain A.PINS_WAKE_CTRL v be).rd A.PINS_WAKE_CTRL).toNat 14 18 = slice (h.rd A.PINS_WAKE_CTRL).toNat 14 18 := by
  have lt : (h.rd A.PINS_WAKE_CTRL).toNat < 2 ^ 32 := BitVec.isLt _
  simp only [Hub.plain, regRow_wakeCtrl, Hub.rd_wr_self, List.foldl, writeField, WField.takes, List.isEmpty_nil,
    Bool.true_or, if_true]
  rw [toNat_W (setSlice_lt (setSlice_lt (setSlice_lt (setSlice_lt lt (by decide)) (by decide)) (by decide)) (by decide))]
  iterate 4 rw [slice_setSlice_of_disjoint _ _ _ _ _ _ (by decide)]

/-- A hub whose PINS_WAKE_CTRL holds reserved bit 14: the registers of the statement's hub are arbitrary words. -/
def wakeReserved : Hub := Hub.reset.wr A.PINS_WAKE_CTRL 0x4000#32

theorem wakeReserved_awake : wakeReserved.awake = true := rfl

/-- The head's driver, class 0, may write the register while the access table lists no entry for its slot. -/
theorem wakeReserved_allows : wakeReserved.decide_ 0 .write A.PINS_WAKE_CTRL = .ok false false := by decide

end Sys2Proof.Machine

/-- Refutes O60 at its clause on PINS_WAKE_CTRL, which says of every hub that an allowed write of `v` leaves the register at
`v &&& 0x3FFF`. A plain write keeps the reserved bits as the word held them, and the statement's hub is any running hub, so
where reserved bit 14 stands in the word before (no write of the register sets it) a write of 0 leaves it standing. -/
theorem not_enumerationAndRegisters : ¬ Obligations.EnumerationAndRegisters := by
  intro all
  obtain ⟨-, -, -, -, -, -, -, -, -, -, -, -, -, -, -, -, -, -, -, -, -, wakeCtrl, -⟩ := all wakeReserved wakeReserved_awake
  obtain ⟨zero, -⟩ := of_does_of_becomes (wakeCtrl 0 0#32 false false wakeReserved_allows)
    (becomes_registerWrite wakeReserved_awake _ _ _ _)
  have kept := Hub.plain_wakeCtrl_reserved wakeReserved 0#32 15
  rw [← Hub.writeReg_wakeCtrl _ 0, ← Hub.registerWrite_of_ok (by decide) (by decide) wakeReserved_allows] at kept
  have reserved : slice (wakeReserved.rd A.PINS_WAKE_CTRL).toNat 14 18 = 1 := by decide
  have cleared : slice (0#32 &&& 0x3FFF#32).toNat 14 18 = 0 := by decide
  rw [← zero] at cleared
  exact absurd (reserved.symm.trans (kept.symm.trans cleared)) (by decide)
end

section
/-! SUPPORT. Register fields through the operations of the lane layer: what a set of fields reads after an ordered set, the
end of Lull and the like. -/

open Sys2Proof Sys2Proof.Machine

namespace Sys2Proof.Machine

/-! ### Completions -/

/-- A command takes a hub to one hub only. -/
theorem becomes_unique {c : Instr} {h a b : Hub} (ha : becomes c h a) (hb : becomes c h b) : a = b := by
  simpa using (ha []).symm.trans (hb [])

/-- What a command of the core die does to a running hub. -/
theorem becomes_of_upd {c : Instr} {h : Hub} {f : Hub → Hub} (awake : h.awake = true)
    (row : ∀ s, exec c s = s.upd f) : becomes c h (f h) := fun q => by
  rw [row, State.upd_of_awake awake]; rfl

/-! ### Frames of register words -/

theorem onlyRegs_put (h : Hub) (f : RF) (v : Nat) : onlyRegs h (h.put f v) [f.addr] :=
  ⟨fun _ out => Hub.rd_put_of_ne _ _ _ (by simpa using out), rfl⟩

/-- Changes of register words one after another. -/
theorem onlyRegs_trans {h t u : Hub} {ws vs : List Nat} (first : onlyRegs h t ws) (second : onlyRegs t u vs) :
    onlyRegs h u (ws ++ vs) := by
  obtain ⟨words, rest⟩ := first
  obtain ⟨words', rest'⟩ := second
  refine ⟨fun a out => ?_, by rw [rest', rest]⟩
  rw [List.mem_append, not_or] at out
  rw [words' a out.2, words a out.1]

/-! ### Fields that an operation leaves alone -/

/-- Hubs with the same register words read the same fields. -/
theorem Hub.get_of_regs {h t : Hub} (e : t.regs = h.regs) (f : RF) : t.get f = h.get f := by simp [Hub.get, Hub.rd, e]

@[simp] theorem Hub.emit_get (h : Hub) (t : Tx) (f : RF) : (h.emit t).get f = h.get f := rfl

@[simp] theorem Hub.onLink_get (h : Hub) (p : Port) (k : LinkPort → LinkPort) (f : RF) : (h.onLink p k).get f = h.get f := rfl

@[simp] theorem Hub.emit_rd (h : Hub) (t : Tx) (a : Nat) : (h.emit t).rd a = h.rd a := rfl

@[simp] theorem Hub.onLink_rd (h : Hub) (p : Port) (k : LinkPort → LinkPort) (a : Nat) : (h.onLink p k).rd a = h.rd a := rfl

/-- What is done to each lane in turn keeps what it keeps of one. -/
theorem Hub.eachLane_get {h : Hub} {f : Hub → Nat → Hub} {g : RF} (keep : ∀ x l, (f x l).get g = x.get g) :
    (h.eachLane f).get g = h.get g := foldl_keeps (fun x => x.get g) f _ h keep

@[simp] theorem Hub.sendSetReq_get (h : Hub) (p : Port) (typ req a0 a1 a2 a3 : Nat) (f : RF) :
    (h.sendSetReq p typ req a0 a1 a2 a3).get f = h.get f := by
  unfold Hub.sendSetReq; split <;> simp

@[simp] theorem Hub.sendSet_get (h : Hub) (p : Port) (typ a0 a1 a2 a3 : Nat) (f : RF) :
    (h.sendSet p typ a0 a1 a2 a3).get f = h.get f := Hub.sendSetReq_get ..

@[simp] theorem Hub.sendSets_get (h : Hub) (p : Port) (typ a0 a1 n : Nat) (f : RF) :
    (h.sendSets p typ a0 a1 n).get f = h.get f := by
  induction n generalizing h with
  | zero => rfl
  | succ n ih => rw [Hub.sendSets, ih, Hub.sendSet_get]

/-- A field of a word of the same address that shares no bit with a lane's transmit state. -/
theorem Hub.setTx_get (h : Hub) (p : Port) (l v : Nat) {g : RF} (e : g.addr ≠ A.LNK_LANE_TX p.ix) :
    (h.setTx p l v).get g = h.get g := Hub.get_wr_of_ne _ _ _ _ e

/-- After the end of Lull TX_LULL is 0 (R63). -/
theorem Hub.lullExit_off (h : Hub) (p : Port) : (h.lullExit p).on (R.LNK_STATUS_TX_LULL p.ix) = false := by
  unfold Hub.lullExit
  split
  next asleep =>
    rw [Hub.on, Hub.sendSet_get, Hub.sendSets_get, Hub.eachLane_get, Hub.get_put_self _ _ _ rfl]
    · rfl
    · intro x l
      split
      · exact Hub.setTx_get _ _ _ _ (by cases p <;> decide)
      · rfl
  next awake => simpa using awake

end Sys2Proof.Machine
end

section
/-! SUPPORT. The statements of the lane layer that fail: a set that leaves a port in Lull ends Lull first (R63), which
`Obligations.LaneServiceCommands` (O7) and `Obligations.LaneWithdrawAndPower` (O8) leave out; and a gear that reads 0, of which
`Obligations.LaneTrainingCommands` (O9) asks 1. -/

open Sys2Proof Sys2Proof.Machine

namespace Sys2Proof.Machine

/-! ### A spur port in Lull -/

/-- A hub whose spur port is ACTIVE with its transmit direction in Lull (TX_LULL 1, every transmit lane idle), receive lane 1
failed and the other receive lanes in service. -/
def lulled : Hub :=
  hubWith [(R.CLK_STATUS_MODE, ckRing), (R.LNK_STATUS_STATE 2, stActive), (R.LNK_STATUS_TX_LULL 2, 1),
    (word (A.LNK_LANE_TX 2), 0x55555), (word (A.LNK_LANE_RX 2), 0x10)]

theorem lulled_awake : lulled.awake = true := rfl

theorem lulled_inService : lulled.inService .S = true := by decide

theorem lulled_asleep : lulled.on (R.LNK_STATUS_TX_LULL 2) = true := by decide

theorem lulled_mayNotWithdraw : lulled.mayWithdraw .S = false := by decide

/-- A second lane fails: the NAR set of R46 ends Lull, and transmit lane 0 goes from idle to in service. -/
theorem lulled_laneFailed : (lulled.laneFailed .S 0 .lostLock false).laneTx .S 0 = 0 := by decide +kernel

/-- A refused withdrawal: the refusing WDR set leaves once Lull has ended. -/
theorem lulled_wdrReceived : lulled.wdrReceived .S 0 0 = (lulled.lullExit .S).sendSet .S osWDR 0 2 0 0 := by
  have notOpen : lulled.lstate .S ≠ stOpenEnd := by decide
  have none : (lulled.links.at .S).asked = none := rfl
  simp [Hub.wdrReceived, lulled_inService, none, lulled_mayNotWithdraw, Hub.workSet, notOpen]

/-! ### A port in EQ_CHECK whose gear reads 0 -/

/-- A hub whose port E is in EQ_CHECK with its partner's check passed, and LNKE_STATUS.GEAR still 0. -/
def ungeared : Hub := (hubWith [(R.LNK_STATUS_STATE 0, stEqCheck)]).onLink .E (fun l => { l with checkThere := some true })

theorem ungeared_awake : ungeared.awake = true := rfl

theorem ungeared_gear : ungeared.gear .E = 1 := by decide

/-- The entry to ACTIVE leaves GEAR as it reads. -/
theorem ungeared_eqCheckDone : (ungeared.eqCheckDone .E true).get (R.LNK_STATUS_GEAR 0) = 0 := by decide +kernel

end Sys2Proof.Machine

/-- Refutes O7 at its clause on LANE_FAILED, which has every transmit state as it was: where the failure is the second at full
width and the port's transmit direction is in Lull, the NAR set it sends ends Lull, and the idle lanes are in service. -/
theorem not_laneServiceCommands : ¬ Obligations.LaneServiceCommands := by
  intro all
  obtain ⟨-, -, -, -, failed, -⟩ := all lulled .S lulled_awake
  have carries : lulled.carries .S = true := by simp [Hub.carries, lulled_inService]
  obtain ⟨-, kept, -⟩ := of_does_of_becomes (failed 0 carries (by decide))
    (becomes_of_upd (f := fun h => h.laneFailed .S 0 .lostLock false) lulled_awake fun _ => rfl)
  have idle : lulled.laneTx .S 0 = 5 := by decide
  have runs := lulled_laneFailed
  exact absurd (runs.symm.trans (kept.trans idle)) (by decide)

/-- Refutes O8 at its clause on a WDR request that is refused, which has the hub as it was but for the set sent: a port in Lull
may not withdraw a lane, and the refusing set ends its Lull, so that TX_LULL falls. -/
theorem not_laneWithdrawAndPower : ¬ Obligations.LaneWithdrawAndPower := by
  intro all
  obtain ⟨-, -, -, refused, -⟩ := all lulled .S lulled_awake
  have same := becomes_unique (refused 0 lulled_inService rfl lulled_mayNotWithdraw)
    (becomes_of_upd (f := fun h => h.wdrReceived .S 0 0) lulled_awake fun _ => rfl)
  rw [lulled_wdrReceived] at same
  have lull : lulled.on (R.LNK_STATUS_TX_LULL 2) = (lulled.lullExit .S).on (R.LNK_STATUS_TX_LULL 2) := by
    simpa [Hub.on] using congrArg (fun h : Hub => h.on (R.LNK_STATUS_TX_LULL 2)) same
  have ends : (lulled.lullExit .S).on (R.LNK_STATUS_TX_LULL 2) = false := lulled.lullExit_off .S
  exact absurd (lulled_asleep.symm.trans (lull.trans ends)) (by decide)

/-- Refutes O9 at its clause on a check passed at the target gear, which has GEAR read the gear in force afterwards: that gear
is Gear 1 where GEAR reads 0, and the entry to ACTIVE writes no gear. The hub of the statement is any running hub, so its port
may be in EQ_CHECK with GEAR 0, where training never leaves it. -/
theorem not_laneTrainingCommands : ¬ Obligations.LaneTrainingCommands := by
  intro all
  obtain ⟨-, -, -, -, -, -, -, -, passed, -⟩ := all ungeared .E ungeared_awake
  have target : (ungeared.links.at .E).target ≤ ungeared.gear .E := Nat.zero_le _
  obtain ⟨-, -, gear, -⟩ := of_does_of_becomes (passed (by decide) rfl target)
    (becomes_of_upd (f := fun h => h.eqCheckDone .E true) ungeared_awake fun _ => rfl)
  exact absurd (ungeared_eqCheckDone.symm.trans (gear.trans ungeared_gear)) (by decide)
end

section
/-! SUPPORT. The counter clears (O57): a range of register words back at reset values that are 0, and clears one after
another. -/

open Sys2Proof Sys2Proof.Machine

namespace Sys2Proof.Machine

/-- A command of the core die completes on a running hub, which becomes as `P` says. -/
theorem does_of_upd {c : Instr} {h : Hub} {f : Hub → Hub} {P : Hub → Prop} (awake : h.awake = true)
    (row : ∀ s, exec c s = s.upd f) (holds : P (f h)) : does c h P := ⟨f h, holds, becomes_of_upd awake row⟩

/-! ### Register words that read 0 -/

/-- Whether every register word from `lo` to `hi` has the reset value 0. -/
def resetsTo0 (lo hi : Nat) : Bool := (List.range (hi + 1 - lo)).all (fun d => regReset (lo + d) == 0#32)

theorem regReset_of_resetsTo0 {lo hi a : Nat} (z : resetsTo0 lo hi = true) (l : lo ≤ a) (u : a ≤ hi) :
    regReset a = 0#32 := by
  have := List.all_eq_true.mp z (a - lo) (List.mem_range.mpr (by omega))
  simpa [Nat.add_sub_cancel' l] using this

/-- Counters whose reset value is 0 read 0 once their range is cleared. -/
theorem Hub.zeroed_clearRange (h : Hub) {lo hi : Nat} (z : resetsTo0 lo hi = true) :
    zeroed h (h.clearRange lo hi) [(lo, hi)] := by
  refine ⟨fun a => ?_, rfl⟩
  rw [Hub.rd_clearRange]
  by_cases inside : lo ≤ a ∧ a ≤ hi
  · simp [inside, regReset_of_resetsTo0 z inside.1 inside.2]
  · rw [if_neg inside, if_neg (by simpa using inside)]

/-- One word written 0. -/
theorem Hub.zeroed_wr (h : Hub) (a : Nat) : zeroed h (h.wr a 0) [(a, a)] := by
  refine ⟨fun b => ?_, rfl⟩
  have single : (a ≤ b ∧ b ≤ a) ↔ b = a := by omega
  simp [Hub.rd_wr, single]

/-- Clears one after another. -/
theorem zeroed_trans {h t u : Hub} {rs ss : List (Nat × Nat)} (first : zeroed h t rs) (second : zeroed t u ss) :
    zeroed h u (rs ++ ss) := by
  obtain ⟨words, rest⟩ := first
  obtain ⟨words', rest'⟩ := second
  refine ⟨fun a => ?_, by rw [rest', rest]⟩
  rw [words', words, List.any_append]
  cases ss.any (fun r => decide (r.1 ≤ a) && decide (a ≤ r.2))
  · rw [Bool.or_false, if_neg Bool.false_ne_true]
  · rw [Bool.or_true, if_pos rfl, if_pos rfl]

/-- A clear for each of a list. -/
theorem zeroed_foldl {ι : Type} {f : Hub → ι → Hub} {r : ι → Nat × Nat} (l : List ι)
    (step : ∀ h, ∀ i ∈ l, zeroed h (f h i) [r i]) (h : Hub) : zeroed h (l.foldl f h) (l.map r) := by
  induction l generalizing h with
  | nil => exact ⟨fun a => by simp, rfl⟩
  | cons i t ih =>
    exact zeroed_trans (step h i (by simp)) (ih (fun h j m => step h j (List.mem_cons_of_mem _ m)) (f h i))

theorem resetsTo0_cc (p : Port) : resetsTo0 (A.CC_ATTACHES p.ix) (A.CC_UNSUPPORTED p.ix) = true := by cases p <;> decide

theorem resetsTo0_lanes (p : Port) : resetsTo0 (A.LNK_ERASED p.ix 0) (A.LNK_DISCARD p.ix) = true := by
  cases p <;> decide

theorem resetsTo0_packets (p : Port) : resetsTo0 (A.LNK_CRC_ERR p.ix) (A.LNK_CREDIT_ERR p.ix) = true := by
  cases p <;> decide

theorem resetsTo0_dsp : ∀ d : Fin 2, resetsTo0 (A.DSP_UNDER_BASE d) (A.DSP_FB_CNT d) = true := by decide

theorem resetsTo0_eth : ∀ x : Fin 4, resetsTo0 (A.ETH_RX_FRAMES x) (A.ETH_LINK_DOWN_CNT x) = true := by decide

/-! ### Policers -/

theorem Hub.pol_setPol (h : Hub) (n m : Nat) (x : Pol) : (h.setPol n x).pol m = if m = n then x else h.pol m :=
  SMap.get_set _ _ _ _ _

/-- The counts of each policer of a list are 0, its bucket and every other policer as before. -/
theorem Hub.pols_cleared_pol (l : List Nat) (h : Hub) (m : Nat) :
    (l.foldl (fun h n => h.setPol n { h.pol n with pass := 0, drop := 0 }) h).pol m
      = if m ∈ l then { h.pol m with pass := 0, drop := 0 } else h.pol m := by
  induction l generalizing h with
  | nil => simp
  | cons n t ih =>
    rw [List.foldl_cons, ih, Hub.pol_setPol]
    by_cases first : m = n
    · subst first; simp
    · simp [first]

theorem Hub.polClear_eq (h : Hub) :
    h.polClear = (List.range 96).foldl (fun h n => h.setPol n { h.pol n with pass := 0, drop := 0 }) h := rfl

theorem Hub.polClear_pol (h : Hub) {n : Nat} (lt : n < 96) : h.polClear.pol n = { h.pol n with pass := 0, drop := 0 } := by
  rw [Hub.polClear_eq, Hub.pols_cleared_pol, if_pos (List.mem_range.mpr lt)]

/-- A hub that agrees with another outside the shared buffer is that hub with its shared buffer replaced. -/
theorem Hub.of_blot_fab {h t : Hub} (e : t.blot [.fab] = h.blot [.fab]) : t = { h with fab := t.fab } := by
  simpa using Hub.of_blot e

theorem Hub.pols_cleared_blot (l : List Nat) (h : Hub) :
    (l.foldl (fun h n => h.setPol n { h.pol n with pass := 0, drop := 0 }) h).blot [.fab] = h.blot [.fab] :=
  foldl_keeps (Hub.blot [.fab]) _ _ _ (fun _ _ => by simp)

theorem Hub.polClear_frame (h : Hub) : h.polClear = { h with fab := h.polClear.fab } :=
  Hub.of_blot_fab (Hub.pols_cleared_blot (List.range 96) h)

/-! ### Schedulers -/

/-- OVERSUB and SWAP_CNT read 0 and no other word changes. -/
theorem Hub.schClear_clears (h : Hub) :
    h.schClear.get R.SCH_OVERSUB = 0 ∧ h.schClear.get R.SCH_STATUS_SWAP_CNT = 0
      ∧ h.schClear.get R.SCH_STATUS_ACTIVE_BANK = h.get R.SCH_STATUS_ACTIVE_BANK
      ∧ onlyRegs h h.schClear [R.SCH_OVERSUB.addr, R.SCH_STATUS_SWAP_CNT.addr] := by
  have oversub : R.SCH_OVERSUB.ok = true := by decide
  have count : R.SCH_STATUS_SWAP_CNT.ok = true := by decide
  refine ⟨?_, ?_, ?_, onlyRegs_trans (onlyRegs_put ..) (onlyRegs_put ..)⟩
  · rw [Hub.schClear, Hub.get_put_of_apart _ _ _ _ count (by decide), Hub.get_put_self _ _ _ oversub, Nat.zero_mod]
  · rw [Hub.schClear, Hub.get_put_self _ _ _ count, Nat.zero_mod]
  · rw [Hub.schClear, Hub.get_put_of_apart _ _ _ _ count (by decide), Hub.get_put_of_apart _ _ _ _ oversub (by decide)]

end Sys2Proof.Machine

/-- Settles O57: each clear takes ranges of words back to reset values, all of them 0, or writes 0. -/
theorem countersCleared : Obligations.CountersCleared := by
  intro h awake
  have range {lo hi : Nat} {c : Instr} (z : resetsTo0 lo hi = true)
      (row : ∀ s, exec c s = s.upd (fun h => h.clearRange lo hi)) :
      does c h (fun t => zeroed h t [(lo, hi)]) := does_of_upd awake row (h.zeroed_clearRange z)
  have word {a : Nat} {c : Instr} (row : ∀ s, exec c s = s.upd (fun h => h.wr a 0)) :
      does c h (fun t => zeroed h t [(a, a)]) := does_of_upd awake row (h.zeroed_wr a)
  have ports {c : Instr} {l : List Nat} {lo hi : Nat → Nat} (z : ∀ n ∈ l, resetsTo0 (lo n) (hi n) = true)
      (row : ∀ s, exec c s = s.upd (fun h => l.foldl (fun h n => h.clearRange (lo n) (hi n)) h)) :
      does c h (fun t => zeroed h t (l.map fun n => (lo n, hi n))) :=
    does_of_upd awake row (zeroed_foldl (r := fun n => (lo n, hi n)) l (fun h n m => h.zeroed_clearRange (z n m)) h)
  refine ⟨fun p => ⟨range (resetsTo0_cc p) fun _ => rfl, range (resetsTo0_lanes p) fun _ => rfl,
    range (resetsTo0_packets p) fun _ => rfl⟩, ?_, ?_, range (by decide) fun _ => rfl, ?_,
    becomes_of_upd (f := Hub.fabClear) awake fun _ => rfl, ?_, fun d => range (resetsTo0_dsp d) fun _ => rfl,
    fun x => range (resetsTo0_eth x) fun _ => rfl, ?_, ?_, ?_, ?_⟩
  · exact does_of_upd (f := Hub.clearWindowCounters) awake (fun _ => rfl)
      ⟨Hub.zeroed_clearRange { h with rt := { h.rt with dupP := 0 } } (by decide), rfl⟩
  · exact does_of_upd (f := Hub.clkClear) awake (fun _ => rfl)
      ⟨Hub.zeroed_clearRange { h with tm := { h.tm with holdAt := h.root } } (by decide), rfl⟩
  · exact does_of_upd awake (fun _ => rfl) (zeroed_trans (h.zeroed_clearRange (by decide))
      (zeroed_foldl (r := fun n => (A.TIME_EVO_SKIP n, A.TIME_EVO_SKIP n)) (List.range 8) (fun h n _ => h.zeroed_wr _) _))
  · exact does_of_upd (f := Hub.polClear) awake (fun _ => rfl) ⟨fun n => h.polClear_pol n.isLt, h.polClear_frame⟩
  · exact ⟨ports (by decide) fun _ => rfl, ports (by decide +kernel) fun _ => rfl,
      ports (by decide) fun _ => rfl⟩
  · exact ⟨range (by decide) fun _ => rfl, range (by decide +kernel) fun _ => rfl,
      range (by decide) fun _ => rfl, word fun _ => rfl⟩
  · exact ⟨range (by decide) fun _ => rfl, does_of_upd awake (fun _ => rfl)
      (zeroed_trans (h.zeroed_clearRange (lo := A.ERR_OVERFLOW) (hi := A.ERR_COUNT_F) (by decide))
        (Hub.zeroed_wr _ A.ERR_EVT_LOST)),
      range (by decide) fun _ => rfl, range (by decide +kernel) fun _ => rfl⟩
  · exact ⟨does_of_upd (f := Hub.schClear) awake (fun _ => rfl) h.schClear_clears, word fun _ => rfl⟩
end

section
/-! SUPPORT. Leaving service (O10): the words, the link state, the time port and the contexts that the end of service and the
forgetting of the lanes reach. -/

open Sys2Proof Sys2Proof.Machine

namespace Sys2Proof.Machine

/-! ### Fields and words -/

/-- What is done to each lane in turn keeps the words it keeps of one. -/
theorem Hub.eachLane_rd {h : Hub} {f : Hub → Nat → Hub} {a : Nat} (keep : ∀ x l, (f x l).rd a = x.rd a) :
    (h.eachLane f).rd a = h.rd a := foldl_keeps (fun x => x.rd a) f _ h keep

/-- What is done to each lane in turn sets a field of a lane as it does to that lane. -/
theorem Hub.eachLane_get_self {h : Hub} {f : Hub → Nat → Hub} {g : RF} {l v : Nat} (lt : l < 5)
    (own : ∀ x, (f x l).get g = v) (other : ∀ x m, m < 5 → m ≠ l → (f x m).get g = x.get g) :
    (h.eachLane f).get g = v := by
  have after (x : Hub) (ms : List Nat) (lanes : ∀ m ∈ ms, m < 5) (out : l ∉ ms) : (ms.foldl f x).get g = x.get g := by
    induction ms generalizing x with
    | nil => rfl
    | cons m t ih =>
      rw [List.mem_cons, not_or] at out
      rw [List.foldl_cons, ih _ (fun n mem => lanes n (List.mem_cons_of_mem _ mem)) out.2,
        other x m (lanes m (by simp)) (Ne.symm out.1)]
  have mem : l ∈ [0, 1, 2, 3, 4] := by simp; omega
  obtain ⟨before, rest, split⟩ := List.append_of_mem mem
  have nodup : (before ++ l :: rest).Nodup := split ▸ (by decide)
  have out : l ∉ rest := (List.nodup_cons.mp (List.nodup_append.mp nodup).2.1).1
  have lanes : ∀ m ∈ rest, m < 5 := by
    intro m inside
    have : m ∈ [0, 1, 2, 3, 4] := split ▸ (by simp [inside])
    simp at this; omega
  rw [Hub.eachLane, split, List.foldl_append, List.foldl_cons, after _ _ lanes out, own]

/-! ### Lane states -/

/-- The fields of two lanes share no bit. -/
theorem laneApart {a l m : Nat} (ne : m ≠ l) : RF.apart ⟨a, 4 * l, 4⟩ ⟨a, 4 * m, 4⟩ = true := by
  simp only [RF.apart, bne_self_eq_false, Bool.false_or, Bool.or_eq_true, decide_eq_true_eq]; omega

theorem Hub.setRx_laneRx (h : Hub) (p : Port) {l m : Nat} (v : Nat) (lt : l < 5) :
    (h.setRx p l v).laneRx p m = if m = l then v % 16 else h.laneRx p m := by
  have ok : (R.LNK_LANE_RX_L p.ix l).ok = true := by simp [RF.ok, R.LNK_LANE_RX_L]; omega
  split
  next same => rw [same]; exact Hub.get_put_self _ _ _ ok
  next other => exact Hub.get_put_of_apart _ _ _ _ ok (laneApart other)

theorem Hub.setTx_laneTx (h : Hub) (p : Port) {l m : Nat} (v : Nat) (lt : l < 5) :
    (h.setTx p l v).laneTx p m = if m = l then v % 16 else h.laneTx p m := by
  have ok : (R.LNK_LANE_TX_L p.ix l).ok = true := by simp [RF.ok, R.LNK_LANE_TX_L]; omega
  split
  next same => rw [same]; exact Hub.get_put_self _ _ _ ok
  next other => exact Hub.get_put_of_apart _ _ _ _ ok (laneApart other)

theorem Hub.setTx_laneRx (h : Hub) (p : Port) (l m v : Nat) : (h.setTx p l v).laneRx p m = h.laneRx p m :=
  Hub.setTx_get _ _ _ _ (by cases p <;> simp [R.LNK_LANE_RX_L, A.LNK_LANE_RX, A.LNK_LANE_TX])

theorem Hub.setRx_laneTx (h : Hub) (p : Port) (l m v : Nat) : (h.setRx p l v).laneTx p m = h.laneTx p m :=
  Hub.get_wr_of_ne _ _ _ _ (by cases p <;> simp [R.LNK_LANE_RX_L, R.LNK_LANE_TX_L, A.LNK_LANE_RX, A.LNK_LANE_TX])

/-! ### Contexts -/

/-- What a latched event leaves of the hub: everything but its contexts. -/
theorem Hub.latchAll_keeps {α : Type} (P : Hub → α) (keep : ∀ x b n, P (x.latchEvent b n) = P x) (h : Hub) (b : Nat) :
    P (h.latchAll b) = P h := foldl_keeps P _ _ h (fun x n => keep x b n)

@[simp] theorem Hub.latchAll_regs (h : Hub) (b : Nat) : (h.latchAll b).regs = h.regs :=
  Hub.latchAll_keeps (·.regs) (fun _ _ _ => rfl) h b

@[simp] theorem Hub.latchAll_out (h : Hub) (b : Nat) : (h.latchAll b).out = h.out :=
  Hub.latchAll_keeps (·.out) (fun _ _ _ => rfl) h b

@[simp] theorem Hub.latchAll_links (h : Hub) (b : Nat) : (h.latchAll b).links = h.links :=
  Hub.latchAll_keeps (·.links) (fun _ _ _ => rfl) h b

@[simp] theorem Hub.latchAll_tm (h : Hub) (b : Nat) : (h.latchAll b).tm = h.tm :=
  Hub.latchAll_keeps (·.tm) (fun _ _ _ => rfl) h b

@[simp] theorem Hub.latchAll_get (h : Hub) (b : Nat) (f : RF) : (h.latchAll b).get f = h.get f :=
  Hub.get_of_regs (by simp) f

@[simp] theorem Hub.latchAll_rd (h : Hub) (b a : Nat) : (h.latchAll b).rd a = h.rd a := by simp [Hub.rd]

/-- Tuns that agree outside their contexts. -/
theorem TunState.eq_of_ctxs {t u : TunState} (e : { t with ctxs := [] } = { u with ctxs := [] }) :
    t = { u with ctxs := t.ctxs } :=
  congrArg (fun x : TunState => { x with ctxs := t.ctxs }) e

/-- An event latched in every context changes nothing of the tuns but their contexts. -/
theorem Hub.latchAll_tun (h : Hub) (b : Nat) : (h.latchAll b).tun = { h.tun with ctxs := (h.latchAll b).tun.ctxs } :=
  TunState.eq_of_ctxs (Hub.latchAll_keeps (fun x => { x.tun with ctxs := [] }) (fun _ _ _ => rfl) h b)

theorem Hub.ctx_latchEvent (h : Hub) (b n m : Nat) :
    (h.latchEvent b n).ctx m = if m = n then { h.ctx n with events := setSlice (h.ctx n).events b 1 1 } else h.ctx m :=
  Hub.ctx_setCtx ..

/-- An event latched in every context of a list stands in each of them, and every other is as before. -/
theorem Hub.ctx_latchEvents {l : List Nat} (nodup : l.Nodup) (h : Hub) (b m : Nat) :
    (l.foldl (fun h n => h.latchEvent b n) h).ctx m
      = if m ∈ l then { h.ctx m with events := setSlice (h.ctx m).events b 1 1 } else h.ctx m := by
  induction l generalizing h with
  | nil => simp
  | cons n t ih =>
    obtain ⟨out, nodup⟩ := List.nodup_cons.mp nodup
    rw [List.foldl_cons, ih nodup, Hub.ctx_latchEvent]
    by_cases first : m = n
    · subst first; simp [out]
    · simp [first]

theorem Hub.ctx_latchAll (h : Hub) (b : Nat) {n : Nat} (lt : n < 96) :
    (h.latchAll b).ctx n = { h.ctx n with events := setSlice (h.ctx n).events b 1 1 } := by
  rw [Hub.latchAll, Hub.ctx_latchEvents List.nodup_range, if_pos (List.mem_range.mpr lt)]

/-! ### The links -/

theorem Hub.onLink_links_at_of_ne (h : Hub) {p q : Port} (f : LinkPort → LinkPort) (ne : q ≠ p) :
    (h.onLink p f).links.at q = h.links.at q := by simp [Hub.onLink, PerPort.at_set, ne]

/-! ### What a link that goes down takes from station time -/

/-- The words of station time that a link which goes down takes with it: its delay and, of a ring port, its clock offset. -/
def downWords (p : Port) : List Nat :=
  aDelay p :: (match p with | .E => [A.CLK_OFFSET_E] | .W => [A.CLK_OFFSET_W] | .S => [])

theorem Hub.portTimeDown_rd (h : Hub) (p : Port) {a : Nat} (out : a ∉ downWords p) : (h.portTimeDown p).rd a = h.rd a := by
  unfold Hub.portTimeDown
  cases p <;> simp only [downWords, List.mem_cons, List.not_mem_nil, or_false, not_or] at out
  case S => exact Hub.rd_wr_of_ne _ _ out
  all_goals exact (Hub.rd_wr_of_ne _ _ out.2).trans (Hub.rd_wr_of_ne _ _ out.1)

/-- A field outside the words of station time. -/
theorem Hub.portTimeDown_get (h : Hub) (p : Port) {g : RF} (out : g.addr ∉ downWords p) :
    (h.portTimeDown p).get g = h.get g := by rw [Hub.get, Hub.portTimeDown_rd _ _ out, Hub.get]

@[simp] theorem Hub.portTimeDown_out (h : Hub) (p : Port) : (h.portTimeDown p).out = h.out := by cases p <;> rfl

@[simp] theorem Hub.portTimeDown_links (h : Hub) (p : Port) : (h.portTimeDown p).links = h.links := by cases p <;> rfl

@[simp] theorem Hub.portTimeDown_tun (h : Hub) (p : Port) : (h.portTimeDown p).tun = h.tun := by cases p <;> rfl

@[simp] theorem Hub.portTimeDown_ports (h : Hub) (p : Port) :
    (h.portTimeDown p).tm.ports = h.tm.ports.set p .reset := by cases p <;> rfl

theorem status_notMem_downWords (p q : Port) : A.LNK_STATUS q.ix ∉ downWords p := by cases p <;> cases q <;> decide

/-! ### The end of service -/

/-- The fields of LNKE_STATUS that the forgetting of the lanes clears, GEAR last. -/
def laneFields (p : Port) : List RF :=
  [R.LNK_STATUS_RX_WIDTH p.ix, R.LNK_STATUS_TX_WIDTH p.ix, R.LNK_STATUS_RX_NARROW p.ix, R.LNK_STATUS_TX_NARROW p.ix,
    R.LNK_STATUS_RX_LULL p.ix, R.LNK_STATUS_TX_LULL p.ix, R.LNK_STATUS_GEAR p.ix]

/-- The fields of LNKE_STATUS that fall with service. -/
def serviceFields (p : Port) : List RF := [R.LNK_STATUS_UP p.ix, R.LNK_STATUS_MISWIRED p.ix, R.LNK_STATUS_OPEN_END p.ix]

/-- The hub with the fields of a list cleared. -/
def Hub.putZeros (h : Hub) (l : List RF) : Hub := l.foldl (fun h f => h.put f 0) h

theorem Hub.putZeros_keeps {α : Type} (P : Hub → α) (keep : ∀ x f v, P (x.put f v) = P x) (h : Hub) (l : List RF) :
    P (h.putZeros l) = P h := foldl_keeps P _ _ h (fun x f => keep x f 0)

theorem Hub.putZeros_rd (h : Hub) {l : List RF} {a : Nat} (out : ∀ f ∈ l, f.addr ≠ a) : (h.putZeros l).rd a = h.rd a := by
  induction l generalizing h with
  | nil => rfl
  | cons f t ih =>
    exact (ih _ fun f m => out f (List.mem_cons_of_mem _ m)).trans (Hub.rd_put_of_ne _ _ _ (out f (by simp)).symm)

theorem Hub.putZeros_get (h : Hub) {l : List RF} {g : RF} (ok : ∀ f ∈ l, f.ok = true)
    (apart : ∀ f ∈ l, f.apart g = true) : (h.putZeros l).get g = h.get g := by
  induction l generalizing h with
  | nil => rfl
  | cons f t ih =>
    exact (ih _ (fun f m => ok f (List.mem_cons_of_mem _ m)) fun f m => apart f (List.mem_cons_of_mem _ m)).trans
      (Hub.get_put_of_apart _ _ _ _ (ok f (by simp)) (apart f (by simp)))

/-- A field of the list reads 0, the fields cleared after it being itself or apart from it. -/
theorem Hub.putZeros_get_self (h : Hub) {l : List RF} {g : RF} (ok : ∀ f ∈ l, f.ok = true) (mem : g ∈ l)
    (apart : ∀ f ∈ l, f = g ∨ f.apart g = true) : (h.putZeros l).get g = 0 := by
  induction l generalizing h with
  | nil => simp at mem
  | cons f t ih =>
    by_cases again : g ∈ t
    · exact ih _ (fun f m => ok f (List.mem_cons_of_mem _ m)) again fun f m => apart f (List.mem_cons_of_mem _ m)
    · have first : g = f := by simpa [again] using mem
      have rest : ∀ x ∈ t, x.apart g = true := fun x m =>
        (apart x (List.mem_cons_of_mem _ m)).resolve_left fun e => again (e ▸ m)
      refine (Hub.putZeros_get _ (fun f m => ok f (List.mem_cons_of_mem _ m)) rest).trans ?_
      rw [first, Hub.get_put_self _ _ _ (ok f (by simp)), Nat.zero_mod]

/-- A link port's state once its lanes are forgotten. -/
def LinkPort.forgotten (l : LinkPort) : LinkPort :=
  { l with rx := .full, tx := .full, txNext := none, narMask := 31, narWidth := 4, narSent := none, narAsked := 4,
           erased := [], stray := 0, inverted := 0, bad := 0, pktBad := false, stream := .empty, drift := 0,
           asked := none, withdrawn := none, accepted := false, relock := false, doneHere := 0, doneThere := 0,
           checkHere := none, checkThere := none, eqNow := [], pairs := 0, woken := false, slept := false }

/-- Every lane untrained in both directions. -/
def Hub.lanesUntrained (h : Hub) (p : Port) : Hub := h.eachLane (fun h l => (h.setRx p l 6).setTx p l 6)

theorem Hub.forgetLanes_eq (h : Hub) (p : Port) :
    h.forgetLanes p = ((h.lanesUntrained p).putZeros (laneFields p)).onLink p LinkPort.forgotten := rfl

theorem Hub.lanesUntrained_rd (h : Hub) (p : Port) {a : Nat} (rx : a ≠ A.LNK_LANE_RX p.ix) (tx : a ≠ A.LNK_LANE_TX p.ix) :
    (h.lanesUntrained p).rd a = h.rd a :=
  Hub.eachLane_rd fun _ _ => (Hub.rd_put_of_ne _ _ _ tx).trans (Hub.rd_put_of_ne _ _ _ rx)

theorem Hub.lanesUntrained_get (h : Hub) (p : Port) {g : RF} (rx : g.addr ≠ A.LNK_LANE_RX p.ix)
    (tx : g.addr ≠ A.LNK_LANE_TX p.ix) : (h.lanesUntrained p).get g = h.get g := by
  rw [Hub.get, Hub.lanesUntrained_rd _ _ rx tx, Hub.get]

theorem Hub.lanesUntrained_keeps {α : Type} (P : Hub → α) (keep : ∀ x f v, P (x.put f v) = P x) (h : Hub) (p : Port) :
    P (h.lanesUntrained p) = P h := foldl_keeps P _ _ h (fun _ _ => (keep _ _ _).trans (keep _ _ _))

theorem Hub.forgetLanes_out (h : Hub) (p : Port) : (h.forgetLanes p).out = h.out := by
  rw [Hub.forgetLanes_eq, Hub.onLink_out, Hub.putZeros_keeps (·.out) (fun _ _ _ => rfl),
    Hub.lanesUntrained_keeps (·.out) (fun _ _ _ => rfl)]

theorem Hub.forgetLanes_links (h : Hub) (p : Port) :
    (h.forgetLanes p).links = h.links.set p (h.links.at p).forgotten := by
  have keep : ((h.lanesUntrained p).putZeros (laneFields p)).links = h.links :=
    (Hub.putZeros_keeps (·.links) (fun _ _ _ => rfl) _ _).trans (Hub.lanesUntrained_keeps (·.links) (fun _ _ _ => rfl) _ _)
  rw [Hub.forgetLanes_eq, Hub.onLink, keep]

theorem Hub.forgetLanes_tm (h : Hub) (p : Port) : (h.forgetLanes p).tm = h.tm := by
  rw [Hub.forgetLanes_eq, Hub.onLink_tm, Hub.putZeros_keeps (·.tm) (fun _ _ _ => rfl),
    Hub.lanesUntrained_keeps (·.tm) (fun _ _ _ => rfl)]

theorem Hub.forgetLanes_tun (h : Hub) (p : Port) : (h.forgetLanes p).tun = h.tun := by
  rw [Hub.forgetLanes_eq, Hub.onLink_tun, Hub.putZeros_keeps (·.tun) (fun _ _ _ => rfl),
    Hub.lanesUntrained_keeps (·.tun) (fun _ _ _ => rfl)]

theorem Hub.forgetLanes_rd (h : Hub) (p : Port) {a : Nat} (status : a ≠ A.LNK_STATUS p.ix) (rx : a ≠ A.LNK_LANE_RX p.ix)
    (tx : a ≠ A.LNK_LANE_TX p.ix) : (h.forgetLanes p).rd a = h.rd a := by
  have fields : ∀ f ∈ laneFields p, f.addr ≠ a := by simp [laneFields, R.LNK_STATUS_RX_WIDTH, R.LNK_STATUS_TX_WIDTH,
    R.LNK_STATUS_RX_NARROW, R.LNK_STATUS_TX_NARROW, R.LNK_STATUS_RX_LULL, R.LNK_STATUS_TX_LULL, R.LNK_STATUS_GEAR, status.symm]
  rw [Hub.forgetLanes_eq, Hub.onLink_rd, Hub.putZeros_rd _ fields, Hub.lanesUntrained_rd _ _ rx tx]

theorem laneFields_ok (p : Port) : ∀ f ∈ laneFields p, f.ok = true := by cases p <;> decide

/-- The forgetting of the lanes writes their states and the fields of `laneFields`, and no other. -/
theorem Hub.forgetLanes_get (h : Hub) (p : Port) {g : RF} (status : ∀ f ∈ laneFields p, f.apart g = true)
    (rx : g.addr ≠ A.LNK_LANE_RX p.ix) (tx : g.addr ≠ A.LNK_LANE_TX p.ix) : (h.forgetLanes p).get g = h.get g := by
  rw [Hub.forgetLanes_eq, Hub.onLink_get, Hub.putZeros_get _ (laneFields_ok p) status, Hub.lanesUntrained_get _ _ rx tx]

theorem Hub.forgetLanes_gear (h : Hub) (p : Port) : (h.forgetLanes p).get (R.LNK_STATUS_GEAR p.ix) = 0 := by
  rw [Hub.forgetLanes_eq, Hub.onLink_get]
  exact Hub.putZeros_get_self _ (laneFields_ok p) (by simp [laneFields]) (by cases p <;> decide)

theorem Hub.lanesUntrained_laneRx (h : Hub) (p : Port) {l : Nat} (lt : l < 5) : (h.lanesUntrained p).laneRx p l = 6 :=
  Hub.eachLane_get_self (g := R.LNK_LANE_RX_L p.ix l) lt
    (fun _ => (Hub.setTx_laneRx ..).trans (by rw [Hub.setRx_laneRx _ _ _ lt, if_pos rfl]))
    (fun _ _ lt ne => (Hub.setTx_laneRx ..).trans (by rw [Hub.setRx_laneRx _ _ _ lt, if_neg ne.symm]; rfl))

theorem Hub.lanesUntrained_laneTx (h : Hub) (p : Port) {l : Nat} (lt : l < 5) : (h.lanesUntrained p).laneTx p l = 6 :=
  Hub.eachLane_get_self (g := R.LNK_LANE_TX_L p.ix l) lt
    (fun _ => (Hub.setTx_laneTx _ _ _ lt).trans (if_pos rfl))
    (fun _ _ lt ne => (Hub.setTx_laneTx _ _ _ lt).trans ((if_neg ne.symm).trans (Hub.setRx_laneTx ..)))

/-- The fields cleared lie in LNKE_STATUS. -/
theorem laneFields_apart (p : Port) {g : RF} (out : g.addr ≠ A.LNK_STATUS p.ix) :
    ∀ f ∈ laneFields p, f.apart g = true := by
  simp [laneFields, RF.apart, R.LNK_STATUS_RX_WIDTH, R.LNK_STATUS_TX_WIDTH, R.LNK_STATUS_RX_NARROW, R.LNK_STATUS_TX_NARROW,
    R.LNK_STATUS_RX_LULL, R.LNK_STATUS_TX_LULL, R.LNK_STATUS_GEAR, out.symm]

/-- Every lane reads untrained once the lanes are forgotten. -/
theorem Hub.forgetLanes_lane (h : Hub) (p : Port) {l : Nat} (lt : l < 5) :
    (h.forgetLanes p).laneRx p l = 6 ∧ (h.forgetLanes p).laneTx p l = 6 := by
  have keep (g : RF) (out : g.addr ≠ A.LNK_STATUS p.ix) : (h.forgetLanes p).get g = (h.lanesUntrained p).get g := by
    rw [Hub.forgetLanes_eq, Hub.onLink_get, Hub.putZeros_get _ (laneFields_ok p) (laneFields_apart p out)]
  exact ⟨(keep _ (by cases p <;> simp [R.LNK_LANE_RX_L, A.LNK_LANE_RX, A.LNK_STATUS])).trans (h.lanesUntrained_laneRx p lt),
    (keep _ (by cases p <;> simp [R.LNK_LANE_TX_L, A.LNK_LANE_TX, A.LNK_STATUS])).trans (h.lanesUntrained_laneTx p lt)⟩

/-- A link port's state once service has ended: its training run over, and due for LINK_DOWN where it was in service. -/
def LinkPort.ended (l : LinkPort) (was : Bool) : LinkPort := { l with lost := l.lost || was, wire := none }

/-- The hub as service ends, before its contexts learn of it. -/
def Hub.serviceOver (h : Hub) (p : Port) (st : Nat) : Hub := ((h.putZeros (serviceFields p)).portTimeDown p).toState p st

theorem Hub.endService_eq (h : Hub) (p : Port) (st : Nat) :
    h.endService p st
      = (if h.up p then (h.serviceOver p st).latchAll evLink else h.serviceOver p st).onLink p (·.ended (h.inService p)) := rfl

/-- What the contexts' LINK event leaves alone is that of the hub as service ends. -/
theorem Hub.endService_keeps {α : Type} (P : Hub → α) (latch : ∀ x b n, P (x.latchEvent b n) = P x)
    (link : ∀ x q f, P (x.onLink q f) = P x) (h : Hub) (p : Port) (st : Nat) :
    P (h.endService p st) = P (h.serviceOver p st) := by
  rw [Hub.endService_eq, link]
  split
  · exact Hub.latchAll_keeps P latch _ _
  · rfl

theorem serviceFields_ok (p : Port) : ∀ f ∈ serviceFields p, f.ok = true := by cases p <;> decide

theorem Hub.endService_lstate (h : Hub) (p : Port) {st : Nat} (lt : st < 32) : (h.endService p st).lstate p = st := by
  rw [Hub.lstate, Hub.endService_keeps (·.get _) (fun _ _ _ => rfl) (fun _ _ _ => rfl), Hub.serviceOver, Hub.toState,
    Hub.onLink_get, Hub.get_put_self _ _ _ rfl]
  exact Nat.mod_eq_of_lt lt

/-- UP, MISWIRED and OPEN_END read 0 once service has ended. -/
theorem Hub.endService_fallen (h : Hub) (p : Port) (st : Nat) {g : RF} (mem : g ∈ serviceFields p) :
    (h.endService p st).get g = 0 := by
  have state : (R.LNK_STATUS_STATE p.ix).apart g = true := by
    revert g; cases p <;> decide
  have time : g.addr ∉ downWords p := by
    revert g; cases p <;> decide
  have others : ∀ f ∈ serviceFields p, f = g ∨ f.apart g = true := by
    revert g; cases p <;> decide
  rw [Hub.endService_keeps (·.get g) (fun _ _ _ => rfl) (fun _ _ _ => rfl), Hub.serviceOver, Hub.toState, Hub.onLink_get,
    Hub.get_put_of_apart _ _ _ _ rfl state, Hub.portTimeDown_get _ _ time,
    Hub.putZeros_get_self _ (serviceFields_ok p) mem others]

theorem Hub.endService_rd (h : Hub) (p : Port) (st : Nat) {a : Nat} (status : a ≠ A.LNK_STATUS p.ix)
    (time : a ∉ downWords p) : (h.endService p st).rd a = h.rd a := by
  have service : ∀ f ∈ serviceFields p, f.addr ≠ a := by
    simp [serviceFields, R.LNK_STATUS_UP, R.LNK_STATUS_MISWIRED, R.LNK_STATUS_OPEN_END, status.symm]
  rw [Hub.endService_keeps (·.rd a) (fun _ _ _ => rfl) (fun _ _ _ => rfl), Hub.serviceOver, Hub.toState, Hub.onLink_rd,
    Hub.rd_put_of_ne _ _ _ status, Hub.portTimeDown_rd _ _ time, Hub.putZeros_rd _ service]

theorem Hub.endService_out (h : Hub) (p : Port) (st : Nat) : (h.endService p st).out = h.out := by
  rw [Hub.endService_keeps (·.out) (fun _ _ _ => rfl) (fun _ _ _ => rfl), Hub.serviceOver, Hub.toState, Hub.onLink_out,
    Hub.put_out, Hub.portTimeDown_out, Hub.putZeros_keeps (·.out) (fun _ _ _ => rfl)]

theorem Hub.endService_ports (h : Hub) (p : Port) (st : Nat) : (h.endService p st).tm.ports = h.tm.ports.set p .reset := by
  rw [Hub.endService_keeps (·.tm.ports) (fun _ _ _ => rfl) (fun _ _ _ => rfl), Hub.serviceOver, Hub.toState, Hub.onLink_tm,
    Hub.put_tm, Hub.portTimeDown_ports, Hub.putZeros_keeps (·.tm.ports) (fun _ _ _ => rfl)]

theorem Hub.serviceOver_tun (h : Hub) (p : Port) (st : Nat) : (h.serviceOver p st).tun = h.tun := by
  rw [Hub.serviceOver, Hub.toState, Hub.onLink_tun, Hub.put_tun, Hub.portTimeDown_tun,
    Hub.putZeros_keeps (·.tun) (fun _ _ _ => rfl)]

theorem Hub.serviceOver_links (h : Hub) (p : Port) (st : Nat) :
    (h.serviceOver p st).links
      = h.links.set p { h.links.at p with run := 0, lastTs2 := none, sets := 0, ready := false } := by
  have keep : ((h.putZeros (serviceFields p)).portTimeDown p).links = h.links :=
    (Hub.portTimeDown_links ..).trans (Hub.putZeros_keeps (·.links) (fun _ _ _ => rfl) _ _)
  rw [Hub.serviceOver, Hub.toState, Hub.onLink, Hub.put_links, keep]

theorem Hub.endService_link (h : Hub) (p : Port) (st : Nat) :
    (h.endService p st).links.at p
      = LinkPort.ended { h.links.at p with run := 0, lastTs2 := none, sets := 0, ready := false } (h.inService p) := by
  have latch (x : Hub) : (if h.up p then x.latchAll evLink else x).links = x.links := by split <;> simp
  rw [Hub.endService_eq, Hub.onLink_links_at, latch, Hub.serviceOver_links, PerPort.at_set_self]

theorem Hub.endService_link_of_ne (h : Hub) {p q : Port} (st : Nat) (ne : q ≠ p) :
    (h.endService p st).links.at q = h.links.at q := by
  have latch (x : Hub) : (if h.up p then x.latchAll evLink else x).links = x.links := by split <;> simp
  rw [Hub.endService_eq, Hub.onLink_links_at_of_ne _ _ ne, latch, Hub.serviceOver_links, PerPort.at_set, if_neg ne]

/-- The contexts learn of the end of service by LINK, where the port was UP (R200). -/
theorem Hub.endService_ctx (h : Hub) (p : Port) (st : Nat) {n : Nat} (lt : n < 96) :
    (h.endService p st).ctx n
      = if h.up p then { h.ctx n with events := setSlice (h.ctx n).events evLink 1 1 } else h.ctx n := by
  have same : (h.serviceOver p st).ctx n = h.ctx n := by rw [Hub.ctx, Hub.serviceOver_tun, Hub.ctx]
  have link (x : Hub) (f : LinkPort → LinkPort) : (x.onLink p f).ctx n = x.ctx n := rfl
  rw [Hub.endService_eq, link]
  split
  · rw [Hub.ctx_latchAll _ _ lt, same]
  · exact same

theorem Hub.endService_tun (h : Hub) (p : Port) (st : Nat) :
    (h.endService p st).tun = { h.tun with ctxs := (h.endService p st).tun.ctxs } := by
  rw [Hub.endService_eq, Hub.onLink_tun, ← Hub.serviceOver_tun h p st]
  split
  · exact Hub.latchAll_tun _ _
  · rfl

/-! ### Leaving service -/

theorem Hub.leaveService_eq (h : Hub) (p : Port) (st : Nat) :
    h.leaveService p st = ((h.endService p st).emit (.idle p)).forgetLanes p := rfl

theorem Hub.leaveService_get (h : Hub) (p : Port) (st : Nat) {g : RF} (lanes : ∀ f ∈ laneFields p, f.apart g = true)
    (rx : g.addr ≠ A.LNK_LANE_RX p.ix) (tx : g.addr ≠ A.LNK_LANE_TX p.ix) :
    (h.leaveService p st).get g = (h.endService p st).get g := by
  rw [Hub.leaveService_eq, Hub.forgetLanes_get _ _ lanes rx tx, Hub.emit_get]

theorem Hub.leaveService_lstate (h : Hub) (p : Port) {st : Nat} (lt : st < 32) : (h.leaveService p st).lstate p = st :=
  (Hub.leaveService_get _ _ _ (by cases p <;> decide) (by cases p <;> decide) (by cases p <;> decide)).trans
    (h.endService_lstate p lt)

theorem Hub.leaveService_fallen (h : Hub) (p : Port) (st : Nat) {g : RF} (mem : g ∈ serviceFields p) :
    (h.leaveService p st).get g = 0 := by
  have lanes : ∀ f ∈ laneFields p, f.apart g = true := by revert g; cases p <;> decide
  have rx : g.addr ≠ A.LNK_LANE_RX p.ix := by revert g; cases p <;> decide
  have tx : g.addr ≠ A.LNK_LANE_TX p.ix := by revert g; cases p <;> decide
  rw [Hub.leaveService_get _ _ _ lanes rx tx, Hub.endService_fallen _ _ _ mem]

theorem Hub.leaveService_out (h : Hub) (p : Port) (st : Nat) : (h.leaveService p st).out = .idle p :: h.out := by
  rw [Hub.leaveService_eq, Hub.forgetLanes_out, Hub.emit_out, Hub.endService_out]

theorem Hub.leaveService_rd (h : Hub) (p : Port) (st : Nat) {a : Nat} (status : a ≠ A.LNK_STATUS p.ix)
    (rx : a ≠ A.LNK_LANE_RX p.ix) (tx : a ≠ A.LNK_LANE_TX p.ix) (time : a ∉ downWords p) :
    (h.leaveService p st).rd a = h.rd a := by
  rw [Hub.leaveService_eq, Hub.forgetLanes_rd _ _ status rx tx, Hub.emit_rd, Hub.endService_rd _ _ _ status time]

theorem Hub.leaveService_link (h : Hub) (p : Port) (st : Nat) :
    (h.leaveService p st).links.at p = ((h.endService p st).links.at p).forgotten := by
  rw [Hub.leaveService_eq, Hub.forgetLanes_links, PerPort.at_set_self, Hub.emit_links]

theorem Hub.leaveService_link_of_ne (h : Hub) {p q : Port} (st : Nat) (ne : q ≠ p) :
    (h.leaveService p st).links.at q = h.links.at q := by
  rw [Hub.leaveService_eq, Hub.forgetLanes_links, PerPort.at_set, if_neg ne, Hub.emit_links, h.endService_link_of_ne st ne]

theorem Hub.leaveService_ports (h : Hub) (p : Port) (st : Nat) :
    (h.leaveService p st).tm.ports = h.tm.ports.set p .reset := by
  rw [Hub.leaveService_eq, Hub.forgetLanes_tm, Hub.emit_tm, Hub.endService_ports]

theorem Hub.leaveService_tun (h : Hub) (p : Port) (st : Nat) : (h.leaveService p st).tun = (h.endService p st).tun := by
  rw [Hub.leaveService_eq, Hub.forgetLanes_tun, Hub.emit_tun]

/-- Nothing but the registers, what leaves, the links, the clock and the tuns changes as a port leaves service. -/
theorem Hub.leaveService_frame (h : Hub) (p : Port) (st : Nat) :
    h.leaveService p st
      = { h with
            regs := (h.leaveService p st).regs, out := (h.leaveService p st).out, links := (h.leaveService p st).links,
            tm := (h.leaveService p st).tm, tun := (h.leaveService p st).tun } := by
  have blot := Hub.leaveService_blot (S := [.regs, .out, .links, .tm, .tun]) h p st (by simp) (by simp) (by simp) (by simp)
    (by simp)
  simpa using Hub.of_blot blot

end Sys2Proof.Machine

/-- Settles O10: `leaveService` is the end of service, electrical idle, and the forgetting of the lanes; each clause is what
these do to one part. -/
theorem leavingService : Obligations.LeavingService := by
  intro h p st lt
  have fallen {g : RF} (mem : g ∈ serviceFields p) := h.leaveService_fallen p st mem
  have tun (n : Nat) : (h.leaveService p st).ctx n = (h.endService p st).ctx n := by
    rw [Hub.ctx, Hub.leaveService_tun, Hub.ctx]
  refine ⟨⟨h.leaveService_lstate p lt, ?_, ?_, ?_, ?_, h.leaveService_out p st⟩, ?_, ⟨?_, ?_, ?_, ?_, ?_⟩, ⟨?_, ?_⟩,
    ⟨?_, ?_⟩, fun q ne => ⟨h.leaveService_link_of_ne st ne, ?_, ?_⟩⟩
  · simp [Hub.up, Hub.on, fallen (g := R.LNK_STATUS_UP p.ix) (by simp [serviceFields])]
  · rw [Hub.leaveService_eq, Hub.forgetLanes_gear]
  · simp [Hub.on, fallen (g := R.LNK_STATUS_MISWIRED p.ix) (by simp [serviceFields])]
  · simp [Hub.on, fallen (g := R.LNK_STATUS_OPEN_END p.ix) (by simp [serviceFields])]
  · exact fun l => Hub.forgetLanes_lane _ p l.isLt
  · rw [Hub.leaveService_link, Hub.endService_link]; rfl
  · rw [Hub.leaveService_link]; rfl
  · rw [Hub.leaveService_link]; rfl
  · rw [Hub.leaveService_link]; rfl
  · rw [Hub.leaveService_ports, PerPort.at_set_self]
  · intro a out
    have out : a ∉ [A.LNK_STATUS p.ix, A.LNK_LANE_RX p.ix, A.LNK_LANE_TX p.ix] ++ downWords p := out
    simp only [List.mem_append, List.mem_cons, List.not_mem_nil, or_false, not_or] at out
    obtain ⟨⟨status, rx, tx⟩, time⟩ := out
    exact h.leaveService_rd p st status rx tx time
  · have frame := h.leaveService_frame p st
    have out := h.leaveService_out p st
    generalize h.leaveService p st = t at frame out ⊢
    rw [← out]
    exact frame
  · intro n
    rw [tun, h.endService_ctx p st n.isLt]
  · rw [Hub.leaveService_tun]
    exact h.endService_tun p st
  · exact h.leaveService_rd p st (by revert ne; cases p <;> cases q <;> decide) (by cases p <;> cases q <;> decide)
      (by cases p <;> cases q <;> decide) (status_notMem_downWords p q)
  · rw [Hub.leaveService_ports, PerPort.at_set, if_neg ne]
end

section
/-! SUPPORT. Columns and reassembly (O11): what a receiver makes of a column with one lane lost, of a word, and of what lies
between a start and an end column. -/

open Sys2Proof Sys2Proof.Machine

namespace Sys2Proof.Machine

/-! ### Parity -/

theorem xorAll_eq_foldr (bs : List Byte) : xorAll bs = bs.foldr (· ^^^ ·) 0#8 := by
  simp [xorAll, List.foldl_eq_foldr]

theorem xorAll_cons (b : Byte) (bs : List Byte) : xorAll (b :: bs) = b ^^^ xorAll bs := by simp [xorAll_eq_foldr]

theorem xorAll_append (bs cs : List Byte) : xorAll (bs ++ cs) = xorAll bs ^^^ xorAll cs := by
  induction bs with
  | nil => simp [xorAll]
  | cons b t ih => rw [List.cons_append, xorAll_cons, xorAll_cons, ih, BitVec.xor_assoc]

/-- The bytes of the other lanes and the byte of one lane together are the bytes of all. -/
theorem xorAll_others {ps : List (Nat × Byte)} {e : Nat × Byte} (nodup : (ps.map Prod.fst).Nodup) (mem : e ∈ ps) :
    xorAll ((ps.filter (fun x => x.1 != e.1)).map Prod.snd) ^^^ e.2 = xorAll (ps.map Prod.snd) := by
  induction ps with
  | nil => simp at mem
  | cons p t ih =>
    obtain ⟨out, nodup⟩ := List.nodup_cons.mp nodup
    rw [List.map_cons, xorAll_cons]
    rcases List.mem_cons.mp mem with rfl | mem
    · have all : t.filter (fun x => x.1 != e.1) = t := by
        rw [List.filter_eq_self]
        intro x m
        simpa using fun same : x.1 = e.1 => out (same ▸ List.mem_map_of_mem m)
      rw [List.filter_cons_of_neg (by simp), all, BitVec.xor_comm]
    · have ne : p.1 ≠ e.1 := fun same => out (same ▸ List.mem_map_of_mem mem)
      rw [List.filter_cons_of_pos (by simpa using ne), List.map_cons, xorAll_cons, BitVec.xor_assoc, ih nodup mem]

/-! ### A column as it arrives -/

theorem find?_of_key {ps : List (Nat × Byte)} {e : Nat × Byte} (nodup : (ps.map Prod.fst).Nodup) (mem : e ∈ ps) :
    ps.find? (fun x => x.1 == e.1) = some e := by
  induction ps with
  | nil => simp at mem
  | cons p t ih =>
    obtain ⟨out, nodup⟩ := List.nodup_cons.mp nodup
    rcases List.mem_cons.mp mem with rfl | mem
    · simp
    · have ne : p.1 ≠ e.1 := fun same => out (same ▸ List.mem_map_of_mem mem)
      rw [List.find?_cons_of_neg (by simpa using ne), ih nodup mem]

theorem getD_lanes {α : Type} (f : Nat → α) (d : α) {n : Nat} (lt : n < 5) : ([0, 1, 2, 3, 4].map f).getD n d = f n := by
  interval_cases n <;> rfl

/-- The symbol of a lane that was sent: its byte, a violation where the lane is lost. -/
theorem TxCol.arrives_sym {c : TxCol} {e : Nat × Byte} (lost : Nat) (nodup : (c.lanes.map Prod.fst).Nodup) (mem : e ∈ c.lanes)
    (lt : e.1 < 5) : (c.arrives lost).sym e.1 = ⟨c.control, e.2, e.1 == lost, false, false⟩ := by
  unfold Column.sym TxCol.arrives
  rw [getD_lanes _ _ lt, find?_of_key nodup mem]

theorem lanesOf_nodup (mask : Nat) : (lanesOf mask).Nodup := List.Nodup.filter _ (by decide)

theorem lt_of_mem_lanesOf {mask n : Nat} (mem : n ∈ lanesOf mask) : n < 5 := by
  have := List.mem_of_mem_filter mem
  simp at this
  omega

/-- A column sent on exactly the lanes of a mask. -/
def TxCol.on (c : TxCol) (mask : Nat) : Prop := c.lanes.map Prod.fst = lanesOf mask

theorem TxCol.on.nodup {c : TxCol} {mask : Nat} (on : c.on mask) : (c.lanes.map Prod.fst).Nodup := on ▸ lanesOf_nodup mask

theorem TxCol.on.sym {c : TxCol} {mask : Nat} {e : Nat × Byte} (on : c.on mask) (lost : Nat) (mem : e ∈ c.lanes) :
    (c.arrives lost).sym e.1 = ⟨c.control, e.2, e.1 == lost, false, false⟩ :=
  TxCol.arrives_sym lost on.nodup mem (lt_of_mem_lanesOf (mask := mask) (on ▸ List.mem_map_of_mem mem))

theorem TxCol.on.sent {c : TxCol} {mask n : Nat} (on : c.on mask) (mem : n ∈ lanesOf mask) : ∃ b, (n, b) ∈ c.lanes := by
  rw [← on, List.mem_map] at mem
  obtain ⟨⟨m, b⟩, mem, rfl⟩ := mem
  exact ⟨b, mem⟩

/-- A lane is spoilt exactly where it is lost, the K-codes sent being listed ones. -/
theorem TxCol.on.spoilt {c : TxCol} {mask n : Nat} (on : c.on mask) (lost : Nat)
    (known : c.control = true → ∀ e ∈ c.lanes, e.2 ∈ knownK) (mem : n ∈ lanesOf mask) :
    ((c.arrives lost).sym n).spoilt = (n == lost) := by
  obtain ⟨b, sent⟩ := on.sent mem
  rw [on.sym lost sent]
  cases control : c.control
  · simp [Sym.spoilt]
  · simp [Sym.spoilt, known control _ sent]

theorem TxCol.on.soundLanes {c : TxCol} {mask : Nat} (on : c.on mask) (lost : Nat)
    (known : c.control = true → ∀ e ∈ c.lanes, e.2 ∈ knownK) :
    (c.arrives lost).soundLanes mask (fun _ => false) = (lanesOf mask).filter (fun n => n != lost) :=
  List.filter_congr fun n mem => by rw [on.spoilt lost known mem]; simp [bne]

/-- With the lost lane erased, the lanes that are not erased are the others. -/
theorem filter_not_erased (lost mask : Nat) :
    (lanesOf mask).filter (fun l => !((lanesOf mask).filter (fun n => n == lost)).contains l)
      = (lanesOf mask).filter (fun n => n != lost) :=
  List.filter_congr fun n mem => by
    rw [Bool.eq_iff_iff]
    simp [mem]

/-! ### Control columns -/

/-- Lanes that all hold one K-code agree on it. -/
theorem Column.agreed_of_all {x : Column} {ls : List Nat} {k : Byte} (some_ : ls ≠ [])
    (all : ∀ n ∈ ls, (x.sym n).k = true ∧ (x.sym n).byte = k) : x.agreed ls = some k := by
  have kept : ls.filter (fun l => (x.sym l).k) = ls := List.filter_eq_self.mpr fun n m => (all n m).1
  have counted : ls.filter (fun l => (x.sym l).k && (x.sym l).byte == k) = ls :=
    List.filter_eq_self.mpr fun n m => by simp [all n m]
  obtain ⟨n, t, rfl⟩ := List.exists_cons_of_ne_nil some_
  unfold Column.agreed
  rw [kept, List.map_cons, (all n (by simp)).2]
  refine List.find?_cons_of_pos ?_
  simp only [counted]
  simp

/-- Where the lanes of a control column hold a listed K-code and one of them is sound, the column is rebuilt as that K-code. -/
theorem TxCol.on.rebuild_control {c : TxCol} {mask lost n : Nat} {k : Byte} (on : c.on mask) (control : c.control = true)
    (all : ∀ e ∈ c.lanes, e.2 = k) (known : k ∈ knownK) (mem : n ∈ lanesOf mask) (ne : n ≠ lost) :
    (c.arrives lost).rebuild mask ((c.arrives lost).erasedLanes mask (fun _ => false)) = ⟨true, [0, 1, 2, 3, 4].map (fun _ => k)⟩ := by
  have listed : c.control = true → ∀ e ∈ c.lanes, e.2 ∈ knownK := fun _ e m => all e m ▸ known
  have same : ∀ n ∈ (lanesOf mask).filter (fun n => n != lost),
      ((c.arrives lost).sym n).k = true ∧ ((c.arrives lost).sym n).byte = k := fun m mm => by
    obtain ⟨b, sent⟩ := on.sent (List.mem_of_mem_filter mm)
    rw [on.sym lost sent]
    exact ⟨control, all _ sent⟩
  have agreed := Column.agreed_of_all (List.ne_nil_of_mem (List.mem_filter.mpr ⟨mem, by simpa using ne⟩)) same
  have right : ((lanesOf mask).filter (fun n => n != lost)).filter
      (fun l => !(((c.arrives lost).sym l).k && ((c.arrives lost).sym l).byte == k)) = [] :=
    List.filter_eq_nil_iff.mpr fun m mm => by simp [same m mm]
  have erased : (c.arrives lost).erasedLanes mask (fun _ => false) = (lanesOf mask).filter (fun n => n == lost) := by
    unfold Column.erasedLanes
    simp only [on.soundLanes lost listed, agreed, right]
    exact List.filter_congr fun m mm => by simp [on.spoilt lost listed mm]
  unfold Column.rebuild
  simp only [erased, filter_not_erased, agreed]

/-! ### Data columns -/

theorem Column.agreed_of_none {x : Column} {ls : List Nat} (no : ∀ n ∈ ls, (x.sym n).k = false) : x.agreed ls = none := by
  have kept : ls.filter (fun l => (x.sym l).k) = [] := List.filter_eq_nil_iff.mpr fun n m => by simp [no n m]
  unfold Column.agreed
  rw [kept]
  rfl

/-- A data column whose bytes have parity, or which lost no lane, is rebuilt with the byte of every lane that was sent. -/
theorem TxCol.on.rebuild_data {c : TxCol} {mask lost : Nat} (on : c.on mask) (data : c.control = false)
    (parity : lost ∈ lanesOf mask → xorAll (c.lanes.map Prod.snd) = 0#8) :
    ((c.arrives lost).rebuild mask ((c.arrives lost).erasedLanes mask (fun _ => false))).control = false
    ∧ ∀ e ∈ c.lanes,
        ((c.arrives lost).rebuild mask ((c.arrives lost).erasedLanes mask (fun _ => false))).bytes.getD e.1 0 = e.2 := by
  have listed : c.control = true → ∀ e ∈ c.lanes, e.2 ∈ knownK := fun t => by simp [data] at t
  have none_ : ∀ n ∈ (lanesOf mask).filter (fun n => n != lost), ((c.arrives lost).sym n).k = false := fun m mm => by
    obtain ⟨b, sent⟩ := on.sent (List.mem_of_mem_filter mm)
    rw [on.sym lost sent]
    exact data
  have agreed := Column.agreed_of_none none_
  have right : ((lanesOf mask).filter (fun n => n != lost)).filter (fun l => ((c.arrives lost).sym l).k) = [] :=
    List.filter_eq_nil_iff.mpr fun m mm => by simp [none_ m mm]
  have erased : (c.arrives lost).erasedLanes mask (fun _ => false) = (lanesOf mask).filter (fun n => n == lost) := by
    unfold Column.erasedLanes
    simp only [on.soundLanes lost listed, agreed, right]
    exact List.filter_congr fun m mm => by simp [on.spoilt lost listed mm]
  have others : ((lanesOf mask).filter (fun n => n != lost)).map (fun l => ((c.arrives lost).sym l).byte)
      = (c.lanes.filter (fun x => x.1 != lost)).map Prod.snd := by
    rw [← show c.lanes.map Prod.fst = lanesOf mask from on, List.filter_map, List.map_map]
    exact List.map_congr_left fun e m => by simp [on.sym lost (List.mem_of_mem_filter m)]
  unfold Column.rebuild
  simp only [erased, filter_not_erased, agreed, others, true_and]
  intro e m
  have key : e.1 ∈ lanesOf mask := on ▸ List.mem_map_of_mem m
  rw [getD_lanes _ _ (lt_of_mem_lanesOf key)]
  by_cases same : e.1 = lost
  · rw [if_pos (by simp [same, same ▸ key])]
    have all := xorAll_others on.nodup m
    rw [parity (same ▸ key), same] at all
    exact BitVec.xor_eq_zero_iff.mp all
  · rw [if_neg (by simp [key, same]), on.sym lost m]

/-! ### Layouts -/

/-- A layout of 1, 2 or 4 data lanes, which are with the parity lane the lanes of its mask. -/
structure Layout.Fits (l : Layout) : Prop where
  width : l.width = 4 ∨ l.width = 2 ∨ l.width = 1
  data : l.dataLanes.length = l.width
  lanes : lanesOf l.mask = l.dataLanes ++ l.parityLane.toList

theorem lanesOf_mod (u : Nat) : lanesOf u = lanesOf (u % 32) := by
  have low : ∀ n < 5, bit u n = bit (u % 32) n := fun n lt => by
    interval_cases n <;> simp only [bit] <;> congr 1 <;> omega
  exact List.filter_congr fun n m => low n (by simp at m; omega)

theorem layoutOf_mod (u w : Nat) (s : Bool) : layoutOf u w s = layoutOf (u % 32) w s := by
  unfold layoutOf
  rw [lanesOf_mod u]

/-- Every layout of usable lanes that finds its data lanes, of the 32 masks there are. -/
theorem layoutOf_fits_small : ∀ (u : Fin 32) (s : Bool), ∀ w ∈ [4, 2, 1], (layoutOf u w s).dataLanes.length = w →
    (layoutOf u w s).width = w
    ∧ lanesOf (layoutOf u w s).mask = (layoutOf u w s).dataLanes ++ (layoutOf u w s).parityLane.toList := by
  decide

theorem layoutOf_fits {u w : Nat} {s : Bool} (width : w = 4 ∨ w = 2 ∨ w = 1) (data : (layoutOf u w s).dataLanes.length = w) :
    (layoutOf u w s).Fits := by
  rw [layoutOf_mod] at data ⊢
  obtain ⟨same, lanes⟩ := layoutOf_fits_small ⟨u % 32, Nat.mod_lt _ (by decide)⟩ s w (by simpa using width) data
  exact ⟨same.symm ▸ width, data.trans same.symm, lanes⟩

section
variable {l : Layout} {lost : Nat} (fits : l.Fits) (kept : l.parityLane = none → lost ∉ lanesOf l.mask)
include fits

omit fits in
theorem Layout.control_on (k : Byte) : (l.control k).on l.mask := by
  simp [TxCol.on, Layout.control, List.map_map, Function.comp_def]

theorem Layout.Fits.dataColumn_on {bs : List Byte} (full : bs.length = l.width) : (l.dataColumn bs).on l.mask := by
  have zipped : (l.dataLanes.zip bs).map Prod.fst = l.dataLanes := List.map_fst_zip (by rw [full, fits.data])
  unfold TxCol.on Layout.dataColumn
  rw [List.map_append, zipped, fits.lanes]
  cases l.parityLane <;> rfl

/-- With parity sent, the bytes of a data column XOR to 0. -/
theorem Layout.Fits.parity {bs : List Byte} (full : bs.length = l.width) (sent : l.parityLane ≠ none) :
    xorAll ((l.dataColumn bs).lanes.map Prod.snd) = 0#8 := by
  obtain ⟨p, parity⟩ := Option.ne_none_iff_exists'.mp sent
  have zipped : (l.dataLanes.zip bs).map Prod.snd = bs := List.map_snd_zip (by rw [full, fits.data])
  simp [Layout.dataColumn, parity, zipped, xorAll_append, xorAll_cons, xorAll_eq_foldr []]

include kept

/-- One lane at least is not lost. -/
theorem Layout.Fits.heard : ∃ n ∈ lanesOf l.mask, n ≠ lost := by
  cases parity : l.parityLane with
  | none =>
    have pos : 0 < l.dataLanes.length := by rw [fits.data]; rcases fits.width with w | w | w <;> omega
    obtain ⟨n, m⟩ := List.exists_mem_of_length_pos pos
    have mem : n ∈ lanesOf l.mask := by rw [fits.lanes]; exact List.mem_append_left _ m
    exact ⟨n, mem, fun same => kept parity (same ▸ mem)⟩
  | some p =>
    have two : 2 ≤ (lanesOf l.mask).length := by
      rw [fits.lanes, List.length_append, fits.data, parity]
      rcases fits.width with w | w | w <;> simp [w]
    by_contra none_
    push Not at none_
    have same := List.eq_replicate_of_mem none_
    have nodup := lanesOf_nodup l.mask
    rw [same, List.nodup_replicate] at nodup
    omega

/-! ### What a receiver hears of one column -/

theorem Layout.Fits.hears_control (s : RxStream) {k : Byte} (known : k ∈ knownK) : s.hears l lost [l.control k] = s.control k := by
  obtain ⟨n, mem, ne⟩ := fits.heard kept
  have same : ∀ e ∈ (l.control k).lanes, e.2 = k := fun e m => by
    obtain ⟨x, _, rfl⟩ := List.mem_map.mp m
    rfl
  simp only [RxStream.hears, List.foldl_cons, List.foldl_nil, (Layout.control_on k).rebuild_control rfl same known mem ne]
  simp [RxStream.column]

theorem Layout.Fits.hears_data (s : RxStream) {bs : List Byte} (full : bs.length = l.width) :
    s.hears l lost [l.dataColumn bs] = s.data bs := by
  have on := fits.dataColumn_on full
  obtain ⟨data, bytes⟩ := on.rebuild_data (lost := lost) rfl
    (fun m => fits.parity full fun none_ => kept none_ m)
  have read : l.dataLanes.map (fun n => (((l.dataColumn bs).arrives lost).rebuild l.mask
      (((l.dataColumn bs).arrives lost).erasedLanes l.mask (fun _ => false))).bytes.getD n 0) = bs := by
    have zipped : (l.dataLanes.zip bs).map Prod.fst = l.dataLanes := List.map_fst_zip (by rw [full, fits.data])
    have seconds : (l.dataLanes.zip bs).map Prod.snd = bs := List.map_snd_zip (by rw [full, fits.data])
    conv_lhs => rw [← zipped]
    conv_rhs => rw [← seconds]
    rw [List.map_map]
    exact List.map_congr_left fun e m => bytes e (List.mem_append_left _ m)
  simp only [RxStream.hears, List.foldl_cons, List.foldl_nil, RxStream.column, data, Bool.false_eq_true, if_false, read]

end

theorem RxStream.hears_append (s : RxStream) (l : Layout) (lost : Nat) (a b : List TxCol) :
    s.hears l lost (a ++ b) = (s.hears l lost a).hears l lost b := List.foldl_append

theorem RxStream.hears_cons (s : RxStream) (l : Layout) (lost : Nat) (c : TxCol) (cs : List TxCol) :
    s.hears l lost (c :: cs) = (s.hears l lost [c]).hears l lost cs := rfl

/-! ### Words -/

theorem leNat_wordBytes (v : Word) : W (leNat (wordBytes v)) = v := by
  apply BitVec.eq_of_toNat_eq
  have := v.isLt
  simp [wordBytes, leNat, W]
  omega

theorem wordBytes_eq (v : Word) : ∃ a b c d, wordBytes v = [a, b, c, d] := ⟨_, _, _, _, rfl⟩

/-- A word as a packet's next: its four bytes join the words of the packet. -/
theorem RxStream.data_words (s : RxStream) {l : Layout} (fits : l.Fits) (v : Word) (inside : s.inPacket = true) (main : s.side = 0)
    (whole : s.part = []) :
    (splitWord l.width v).foldl RxStream.data s = { s with words := s.words ++ [v] } := by
  obtain ⟨inPacket, words, part, side, sideWords, sidePart⟩ := s
  subst inside main whole
  have read := leNat_wordBytes v
  obtain ⟨a, b, c, d, spelt⟩ := wordBytes_eq v
  rw [spelt] at read
  rcases fits.width with w | w | w <;> simp [w, splitWord, bytesOf, spelt, RxStream.data, read]

/-- A word of a sequence taken out of a packet's stream. -/
theorem RxStream.data_side (s : RxStream) {l : Layout} (fits : l.Fits) (v : Word) {n : Nat} (out : s.side = n + 1)
    (whole : s.sidePart = []) :
    (splitWord l.width v).foldl RxStream.data s = { s with side := n, sideWords := s.sideWords ++ [v] } := by
  obtain ⟨inPacket, words, part, side, sideWords, sidePart⟩ := s
  subst out whole
  have read := leNat_wordBytes v
  obtain ⟨a, b, c, d, spelt⟩ := wordBytes_eq v
  rw [spelt] at read
  rcases fits.width with w | w | w <;> simp [w, splitWord, bytesOf, spelt, RxStream.data, read]

theorem length_of_mem_splitWord {width : Nat} {v : Word} {bs : List Byte} (w : width = 4 ∨ width = 2 ∨ width = 1)
    (mem : bs ∈ splitWord width v) : bs.length = width := by
  rcases w with rfl | rfl | rfl <;> simp [splitWord, bytesOf, wordBytes] at mem
  · simp [mem]
  · rcases mem with rfl | rfl <;> rfl
  · rcases mem with rfl | rfl | rfl | rfl <;> rfl

section
variable {l : Layout} {lost : Nat} (fits : l.Fits) (kept : l.parityLane = none → lost ∉ lanesOf l.mask)
include fits kept

theorem Layout.Fits.hears_columns (s : RxStream) {bss : List (List Byte)} (full : ∀ bs ∈ bss, bs.length = l.width) :
    s.hears l lost (bss.map l.dataColumn) = bss.foldl RxStream.data s := by
  induction bss generalizing s with
  | nil => rfl
  | cons bs t ih =>
    rw [List.map_cons, RxStream.hears_cons, fits.hears_data kept s (full bs (by simp)),
      ih _ fun x m => full x (List.mem_cons_of_mem _ m)]
    rfl

theorem Layout.Fits.hears_word (s : RxStream) (v : Word) : s.hears l lost (l.word v) = (splitWord l.width v).foldl RxStream.data s :=
  fits.hears_columns kept s fun _ m => length_of_mem_splitWord fits.width m

/-- Words inside a packet join it. -/
theorem Layout.Fits.hears_words (s : RxStream) (ws : List Word) (inside : s.inPacket = true) (main : s.side = 0) (whole : s.part = []) :
    s.hears l lost (ws.flatMap l.word) = { s with words := s.words ++ ws } := by
  induction ws generalizing s with
  | nil => simp [RxStream.hears]
  | cons v t ih =>
    rw [List.flatMap_cons, RxStream.hears_append, fits.hears_word kept, RxStream.data_words s fits v inside main whole]
    exact (ih { s with words := s.words ++ [v] } inside main whole).trans (by simp)

/-- The words of a sequence are taken out of what it interrupts. -/
theorem Layout.Fits.hears_side (s : RxStream) (ws : List Word) (n : Nat) (out : s.side = n + ws.length) (whole : s.sidePart = []) :
    s.hears l lost (ws.flatMap l.word) = { s with side := n, sideWords := s.sideWords ++ ws } := by
  induction ws generalizing s with
  | nil => simp [RxStream.hears, show n = s.side by simpa using out.symm]
  | cons v t ih =>
    have out : s.side = (n + t.length) + 1 := by simpa [Nat.add_assoc] using out
    rw [List.flatMap_cons, RxStream.hears_append, fits.hears_word kept, RxStream.data_side s fits v out whole]
    exact (ih { s with side := n + t.length, sideWords := s.sideWords ++ [v] } rfl whole).trans (by simp)

/-! ### Packets -/

theorem Layout.Fits.hears_start (s : RxStream) :
    s.hears l lost [l.control kStart] = { s with inPacket := true, words := [], part := [] } :=
  fits.hears_control kept s (by decide)

theorem Layout.Fits.hears_end (s : RxStream) {k : Byte} (end_ : k = kEnd ∨ k = kPoison) :
    s.hears l lost [l.control k] = { s with inPacket := false, part := [] } := by
  rcases end_ with rfl | rfl <;> exact fits.hears_control kept s (by decide)

/-- Words between a start column and an end column are a packet's. -/
theorem Layout.Fits.hears_enclosed (ws : List Word) {k : Byte} (end_ : k = kEnd ∨ k = kPoison) :
    RxStream.empty.hears l lost ([l.control kStart] ++ ws.flatMap l.word ++ [l.control k]) = { RxStream.empty with words := ws } := by
  rw [RxStream.hears_append, RxStream.hears_append, fits.hears_start kept, fits.hears_words kept _ ws rfl rfl rfl,
    fits.hears_end kept _ end_]
  rfl

/-- A sequence of side words between two words of a packet is taken out whole and leaves the packet whole. -/
theorem Layout.Fits.hears_interrupted (a b ws : List Word) {k : Byte} (known : k ∈ knownK)
    (begins : ∀ s : RxStream, s.control k = { s with side := ws.length, sideWords := [], sidePart := [] }) :
    RxStream.empty.hears l lost
        ([l.control kStart] ++ a.flatMap l.word ++ l.control k :: ws.flatMap l.word ++ b.flatMap l.word ++ [l.control kEnd])
      = { RxStream.empty with words := a ++ b, sideWords := ws } := by
  rw [RxStream.hears_append _ _ _ (_ ++ _ ++ _ ++ _), RxStream.hears_append _ _ _ (_ ++ _ ++ _),
    RxStream.hears_append _ _ _ (_ ++ _), RxStream.hears_append _ _ _ [_], fits.hears_start kept,
    fits.hears_words kept _ a rfl rfl rfl, RxStream.hears_cons _ _ _ _ (ws.flatMap _), fits.hears_control kept _ known, begins,
    fits.hears_side kept _ ws 0 (Nat.zero_add _).symm rfl, fits.hears_words kept _ b rfl rfl rfl, fits.hears_end kept _ (.inl rfl)]
  rfl

theorem Layout.Fits.hears_packet (p : Packet) :
    RxStream.empty.hears l lost (l.packet p false) = { RxStream.empty with words := p.header ++ p.payload ++ [p.crc] } := by
  rw [← fits.hears_enclosed kept _ (.inl rfl)]
  simp [Layout.packet, List.flatMap_append]

theorem Layout.Fits.hears_poisoned (p : Packet) :
    RxStream.empty.hears l lost (l.packet p true) = { RxStream.empty with words := p.header ++ p.payload } :=
  fits.hears_enclosed kept _ (.inr rfl)

theorem Layout.Fits.hears_lc (a b : List Word) (v : Word) :
    RxStream.empty.hears l lost
        ([l.control kStart] ++ a.flatMap l.word ++ Tx.columns l (.lc .E v) ++ b.flatMap l.word ++ [l.control kEnd])
      = { RxStream.empty with words := a ++ b, sideWords := [v] } := by
  rw [← fits.hears_interrupted kept a b [v] (k := kCtl) (by decide) fun _ => rfl]
  simp [Tx.columns]

theorem Layout.Fits.hears_time (a b : List Word) (v : Nat) :
    RxStream.empty.hears l lost
        ([l.control kStart] ++ a.flatMap l.word ++ Tx.columns l (.time .E v) ++ b.flatMap l.word ++ [l.control kEnd])
      = { RxStream.empty with words := a ++ b, sideWords := [W (v % 2 ^ 32), W (v / 2 ^ 32)] } := by
  rw [← fits.hears_interrupted kept a b [W (v % 2 ^ 32), W (v / 2 ^ 32)] (k := kTime) (by decide) fun _ => rfl]
  simp [Tx.columns]

end

/-! ### Headers -/

theorem Cls.ofIx_ix (c : Cls) : Cls.ofIx c.ix = c := by cases c <;> rfl

theorem Cls.ix_lt (c : Cls) : c.ix < 4 := by cases c <;> decide

theorem bit_of_b2n {n i : Nat} {b : Bool} (at_ : n / 2 ^ i % 2 = b2n b) : bit n i = b := by
  rw [bit, at_]
  cases b <;> rfl

/-- A header whose fields are in range spells the packet it was written from. -/
theorem Packet.parse?_header {p : Packet} (range : p.inRange = true) : Packet.parse? (p.header ++ p.payload) = some (p, p.length) := by
  simp only [Packet.inRange, Bool.and_eq_true, decide_eq_true_eq] at range
  obtain ⟨⟨⟨⟨⟨⟨⟨⟨dest, src⟩, kind⟩, hops⟩, lseq⟩, tseq⟩, aux⟩, stamp⟩, length⟩ := range
  have cls := p.cls.ix_lt
  have wrap := b2n_lt_two p.wrap
  have west := b2n_lt_two p.west
  have resync := b2n_lt_two p.resync
  unfold Packet.header Packet.parse?
  simp only [List.cons_append, List.nil_append, Nat.mod_eq_of_lt dest, Nat.mod_eq_of_lt src, Nat.mod_eq_of_lt kind,
    Nat.mod_eq_of_lt hops, Nat.mod_eq_of_lt lseq, Nat.mod_eq_of_lt tseq, Nat.mod_eq_of_lt aux, Nat.mod_eq_of_lt length]
  rw [toNat_W (by omega), toNat_W (by omega), toNat_W (by omega), toNat_W stamp]
  have clsBits : slice (p.dest + p.cls.ix * 2 ^ 14 + p.src * 2 ^ 16 + p.kind * 2 ^ 24) 14 2 = p.cls.ix := by
    unfold slice; omega
  rw [clsBits, Cls.ofIx_ix, bit_of_b2n (b := p.wrap) (by omega), bit_of_b2n (b := p.west) (by omega),
    bit_of_b2n (b := p.resync) (by omega)]
  simp only [slice, Option.some.injEq, Prod.mk.injEq]
  refine ⟨?_, by omega⟩
  cases p
  simp only [Packet.mk.injEq, true_and, and_true] at *
  exact ⟨by omega, by omega, by omega, by omega, by omega, by omega, by omega⟩

end Sys2Proof.Machine

/-- Settles O11: the columns of a word are rebuilt byte for byte with at most one lane lost, so a receiver's stream is that of
the words between the control columns; header fields in range sit in disjoint bits. -/
theorem packetsOverTheLanes : Obligations.PacketsOverTheLanes := by
  intro l u w lost s p layout width data kept
  subst layout
  have fits := layoutOf_fits width data
  exact ⟨fits.hears_packet kept p, fits.hears_poisoned kept p, fits.hears_lc kept, fun a b v _ => fits.hears_time kept a b v,
    Packet.parse?_header⟩

end

section
/-! SUPPORT. Receiving, routing and losing a link (O13). The proofs of this part are elaborated one after another, so that the
whole text, which is compiled as one, keeps within its memory. -/

set_option Elab.async false

section
/-! SUPPORT. The log of a hub that is not in Steep: it changes the registers of the log and what the log holds, and nothing
else; every field outside the log's slot reads as before. -/

open Sys2Proof Sys2Proof.Machine

namespace Sys2Proof.Machine

/-! ### Hubs that agree outside some fields and some parts -/

/-- Whether a field lies outside the log's slot. -/
def RF.offLog (g : RF) : Bool := g.addr / 0x4000 != 3

/-- Whether a field lies outside the log's slot and shares no bit with the fields of a list. -/
def RF.off (fs : List RF) (g : RF) : Bool := g.offLog && fs.all (fun f => f.apart g)

/-- Two hubs agree in every field that is off the fields of `fs` and the log's slot, and in every part but those of `S`. -/
structure Hub.Alike (fs : List RF) (S : List Part) (h t : Hub) : Prop where
  get : ∀ g : RF, g.off fs = true → t.get g = h.get g
  blot : t.blot S = h.blot S

theorem Hub.Alike.refl (fs : List RF) (S : List Part) (h : Hub) : h.Alike fs S h := ⟨fun _ _ => rfl, rfl⟩

theorem Hub.Alike.trans {fs : List RF} {S : List Part} {h t u : Hub} (a : h.Alike fs S t) (b : t.Alike fs S u) : h.Alike fs S u :=
  ⟨fun g off => (b.get g off).trans (a.get g off), b.blot.trans a.blot⟩

/-- What is blotted out of a blotted hub. -/
theorem Hub.blot_blot {S T : List Part} (sub : S ⊆ T) (h : Hub) : (h.blot S).blot T = h.blot T := by
  have part {α : Type} (x : Part) (r v : α) : (if x ∈ T then r else if x ∈ S then r else v) = if x ∈ T then r else v := by
    by_cases out : x ∈ T
    · simp [out]
    · rw [if_neg out, if_neg out, if_neg fun mem => out (sub mem)]
  simp only [Hub.blot, part]

theorem Hub.Alike.mono {fs gs : List RF} {S T : List Part} {h t : Hub} (a : h.Alike fs S t) (fields : fs ⊆ gs := by simp)
    (parts : S ⊆ T := by simp) : h.Alike gs T t where
  get g off := a.get g <| by
    simp only [RF.off, Bool.and_eq_true, List.all_eq_true] at off ⊢
    exact ⟨off.1, fun f m => off.2 f (fields m)⟩
  blot := by rw [← Hub.blot_blot parts t, a.blot, Hub.blot_blot parts h]

theorem Hub.Alike.pw {fs : List RF} {S : List Part} {h t : Hub} (a : h.Alike fs S t) (out : Part.pw ∉ S) : t.pw = h.pw := by
  simpa [Hub.blot, out] using congrArg Hub.pw a.blot

theorem Hub.Alike.fab {fs : List RF} {S : List Part} {h t : Hub} (a : h.Alike fs S t) (out : Part.fab ∉ S) : t.fab = h.fab := by
  simpa [Hub.blot, out] using congrArg Hub.fab a.blot

theorem Hub.Alike.rt {fs : List RF} {S : List Part} {h t : Hub} (a : h.Alike fs S t) (out : Part.rt ∉ S) : t.rt = h.rt := by
  simpa [Hub.blot, out] using congrArg Hub.rt a.blot

theorem Hub.Alike.tun {fs : List RF} {S : List Part} {h t : Hub} (a : h.Alike fs S t) (out : Part.tun ∉ S) : t.tun = h.tun := by
  simpa [Hub.blot, out] using congrArg Hub.tun a.blot

theorem Hub.Alike.links {fs : List RF} {S : List Part} {h t : Hub} (a : h.Alike fs S t) (out : Part.links ∉ S) :
    t.links = h.links := by
  simpa [Hub.blot, out] using congrArg Hub.links a.blot

theorem Hub.Alike.out {fs : List RF} {S : List Part} {h t : Hub} (a : h.Alike fs S t) (out : Part.out ∉ S) : t.out = h.out := by
  simpa [Hub.blot, out] using congrArg Hub.out a.blot

/-- A further step, within the fields and parts of those before it. -/
theorem Hub.Alike.next {fs gs : List RF} {S T : List Part} {h t u : Hub} (a : h.Alike gs T t) (b : t.Alike fs S u)
    (fields : fs ⊆ gs := by simp) (parts : S ⊆ T := by simp) : h.Alike gs T u := a.trans (b.mono fields parts)

theorem Hub.alike_put (h : Hub) (f : RF) (v : Nat) (ok : f.ok = true) : h.Alike [f] [.regs] (h.put f v) where
  get g off := Hub.get_put_of_apart _ _ _ _ ok (by simp [RF.off] at off; exact off.2)
  blot := Hub.put_blot _ _ _ (by simp)

theorem Hub.alike_bump (h : Hub) (f : RF) (ok : f.ok = true) : h.Alike [f] [.regs] (h.bump f) := Hub.alike_put h f _ ok

theorem Hub.alike_onLink (h : Hub) (p : Port) (k : LinkPort → LinkPort) : h.Alike [] [.links] (h.onLink p k) :=
  ⟨fun _ _ => rfl, Hub.onLink_blot _ _ _ (by simp)⟩

theorem Hub.alike_emit (h : Hub) (t : Tx) : h.Alike [] [.out] (h.emit t) := ⟨fun _ _ => rfl, Hub.emit_blot _ _ (by simp)⟩

theorem Hub.alike_onFab (h : Hub) (k : FabState → FabState) : h.Alike [] [.fab] (h.onFab k) :=
  ⟨fun _ _ => rfl, Hub.onFab_blot _ _ (by simp)⟩

theorem Hub.Alike.ite {fs : List RF} {S : List Part} {h t u : Hub} {c : Prop} [Decidable c] (yes : h.Alike fs S t)
    (no : h.Alike fs S u) : h.Alike fs S (if c then t else u) := by
  split
  · exact yes
  · exact no

/-! ### The log -/

/-- Two hubs agree but for the log and its slot's registers. -/
abbrev Hub.LogOnly (h t : Hub) : Prop := h.Alike [] [.regs, .err] t

/-- A change of what the log holds. -/
theorem Hub.logOnly_of_err (h : Hub) (x : ErrState) : h.LogOnly { h with err := x } :=
  ⟨fun _ _ => rfl, Hub.err_replaced _ _ (by simp)⟩

theorem Hub.logOnly_put (h : Hub) (f : RF) (v : Nat) (slot : f.offLog = false) : h.LogOnly (h.put f v) :=
  ⟨fun g off => Hub.get_wr_of_ne _ _ _ _ fun same => by simp [RF.off, RF.offLog, ← same] at slot off; omega,
    Hub.put_blot _ _ _ (by simp)⟩

theorem Hub.logOnly_bump (h : Hub) (f : RF) (slot : f.offLog = false) : h.LogOnly (h.bump f) := Hub.logOnly_put h f _ slot

theorem Hub.logOnly_setHandling (h : Hub) (l : List Handling) : h.LogOnly (h.setHandling l) :=
  (Hub.logOnly_of_err h _).trans (Hub.logOnly_put _ _ _ rfl)

theorem Hub.logOnly_queueEvent (h : Hub) (e : Ev) : h.LogOnly (h.queueEvent e) := by
  unfold Hub.queueEvent
  by_cases room : h.err.evtq.length < 64
  · simp only [room, if_true]
    exact Hub.logOnly_of_err _ _
  · simp only [room, if_false]
    exact (Hub.logOnly_bump _ _ rfl).trans (Hub.logOnly_of_err _ _)

theorem Hub.logOnly_expireHandling (h : Hub) : h.LogOnly h.expireHandling := by
  unfold Hub.expireHandling
  simp only []
  split
  · exact Hub.logOnly_setHandling _ _
  · exact .refl _ _ h

theorem countOf_offLog (sev : Nat) : (countOf sev).offLog = false := by
  unfold countOf
  split <;> rfl

theorem Hub.logOnly_if {h : Hub} {c : Prop} [Decidable c] {t : Hub} (step : h.LogOnly t) : h.LogOnly (if c then t else h) :=
  step.ite (.refl _ _ h)

theorem Hub.logOnly_entryNow (h : Hub) (r : Rec) (b : Option Recovery) (m : Bool) : h.LogOnly (h.entryNow r b m) := by
  unfold Hub.entryNow
  lift_lets
  intro slot isOver h1 _ h2 h3 h4 h5 h6 add h7
  have e1 : h.LogOnly h1 := Hub.logOnly_if (Hub.logOnly_bump _ _ rfl)
  clear_value h1
  have e2 : h.LogOnly h2 := e1.trans (Hub.logOnly_of_err _ _)
  clear_value h2
  have e3 : h.LogOnly h3 := (e2.trans (Hub.logOnly_put _ _ _ rfl)).trans (Hub.logOnly_put _ _ _ rfl)
  clear_value h3
  have e4 : h.LogOnly h4 := ((e3.trans (Hub.logOnly_put _ _ _ rfl)).trans (Hub.logOnly_put _ _ _ rfl)).trans
    (Hub.logOnly_bump _ _ (countOf_offLog _))
  clear_value h4
  have e5 : h.LogOnly h5 := e4.trans (Hub.logOnly_if (Hub.logOnly_put _ _ _ rfl))
  clear_value h5
  have e6 : h.LogOnly h6 := e5.trans (Hub.logOnly_if (Hub.logOnly_queueEvent _ _))
  clear_value h6 add
  have e7 : h.LogOnly h7 := by
    simp only [h7]
    split
    · exact e6
    · exact e6.trans (Hub.logOnly_setHandling _ _)
  clear_value h7
  exact e7.trans (Hub.logOnly_if (Hub.logOnly_of_err _ _))

/-- Out of Steep an entry is made in the log at once (R488). -/
theorem Hub.logOnly_entry {h : Hub} (up : h.pw.steep = false) (r : Rec) (b : Option Recovery) (m : Bool) :
    h.LogOnly (h.entry r b m) := by
  rw [Hub.entry, if_neg (by simp [up])]
  exact Hub.logOnly_entryNow h r b m

theorem Hub.logOnly_log {h : Hub} (up : h.pw.steep = false) (src code sev d0 d1 d2 : Nat) :
    h.LogOnly (h.log src code sev d0 d1 d2) :=
  have early := Hub.logOnly_expireHandling h
  early.trans (Hub.logOnly_entry ((early.pw (by simp)).symm ▸ up) _ _ _)

theorem Hub.logOnly_logBy {h : Hub} (up : h.pw.steep = false) (src code sev d0 d1 d2 : Nat) (b : Recovery) :
    h.LogOnly (h.logBy src code sev d0 d1 d2 b) :=
  have early := Hub.logOnly_expireHandling h
  early.trans (Hub.logOnly_entry ((early.pw (by simp)).symm ▸ up) _ _ _)

theorem Hub.logOnly_suppress (h : Hub) (slot seq : Nat) : h.LogOnly (h.suppress slot seq) := by
  unfold Hub.suppress
  have bumped := Hub.logOnly_bump h R.ERR_SUPPRESSED rfl
  simp only []
  split
  · exact bumped.trans (Hub.logOnly_if (Hub.logOnly_of_err _ _))
  · exact bumped

theorem Hub.logOnly_logLim {h : Hub} (up : h.pw.steep = false) (src code inst sev d0 d1 d2 : Nat) :
    h.LogOnly (h.logLim src code inst sev d0 d1 d2) := by
  have early := Hub.logOnly_expireHandling h
  have made (r : Rec) := early.trans (Hub.logOnly_entry ((early.pw (by simp)).symm ▸ up) r none false)
  unfold Hub.logLim
  simp only []
  split
  · split
    · exact Hub.logOnly_suppress _ _ _
    · exact (made _).trans (Hub.logOnly_of_err _ _)
  · exact (made _).trans (Hub.logOnly_of_err _ _)

theorem Hub.logOnly_lnkLog {h : Hub} (up : h.pw.steep = false) (p : Port) (code sev d0 d2 : Nat) :
    h.LogOnly (h.lnkLog p code sev d0 d2) := Hub.logOnly_log up ..

theorem Hub.logOnly_lnkLogLim {h : Hub} (up : h.pw.steep = false) (p : Port) (code inst d0 d2 : Nat) :
    h.LogOnly (h.lnkLogLim p code inst d0 d2) := Hub.logOnly_logLim up ..

end Sys2Proof.Machine
end

section
/-! SUPPORT. The steps of receiving and routing a packet: which fields and parts each reaches (chapters 03 and 05). -/

open Sys2Proof Sys2Proof.Machine

namespace Sys2Proof.Machine

/-- A field apart from a whole word reads as before when the word is written. -/
theorem Hub.get_wr_of_word_apart (h : Hub) {a : Nat} (v : Word) {g : RF} (apart : (word a).apart g = true) :
    (h.wr a v).get g = h.get g := by
  have outside (x : Word) (out : 32 ≤ g.lo ∨ decide (g.lo + g.width ≤ 0) = true) : slice x.toNat g.lo g.width = 0 := by
    rcases out with high | none_
    · rw [slice, Nat.div_eq_of_lt (lt_of_lt_of_le x.isLt (Nat.pow_le_pow_right (by decide) high)), Nat.zero_mod]
    · rw [slice, show g.width = 0 by simp at none_; omega, Nat.pow_zero, Nat.mod_one]
  simp only [RF.apart, word, Nat.zero_add, Bool.or_eq_true, bne_iff_ne, ne_eq, decide_eq_true_eq, or_assoc] at apart
  rcases apart with other | out
  · exact Hub.get_wr_of_ne _ _ _ _ (Ne.symm other)
  · rw [Hub.get, Hub.get, outside _ out, outside _ out]

/-! ### Lull and link control -/

/-- The fields that the end of Lull writes (R63). -/
def lullFields (p : Port) : List RF := [R.LNK_STATUS_TX_LULL p.ix, word (A.LNK_LANE_TX p.ix)]

theorem Hub.alike_lullExit (h : Hub) (p : Port) : h.Alike (lullFields p) [.regs, .out, .links] (h.lullExit p) where
  get g off := by
    simp only [RF.off, lullFields, List.all_cons, List.all_nil, Bool.and_eq_true, Bool.and_true] at off
    obtain ⟨_, lull, lanes⟩ := off
    unfold Hub.lullExit
    split
    · rw [Hub.sendSet_get, Hub.sendSets_get, Hub.eachLane_get, Hub.get_put_of_apart _ _ _ _ rfl lull]
      intro x l
      split
      · exact Hub.get_wr_of_word_apart _ _ lanes
      · rfl
    · rfl
  blot := Hub.lullExit_blot _ _ (by simp) (by simp) (by simp)

theorem Hub.alike_ackNow (h : Hub) (p : Port) : h.Alike (lullFields p) [.regs, .out, .links] (h.ackNow p) := by
  unfold Hub.ackNow Hub.sendLc
  split
  · exact .refl _ _ h
  · exact ((Hub.alike_lullExit h p).next (Hub.alike_emit ..)).next (Hub.alike_onLink ..)


/-- The fields that link control of a port writes. -/
def lcFields (p : Port) : List RF := R.LNK_NAK_TX p.ix :: lullFields p

theorem Hub.alike_nakNow (h : Hub) (p : Port) : h.Alike (lcFields p) [.regs, .out, .links] (h.nakNow p) := by
  unfold Hub.nakNow Hub.sendLc
  split
  · exact .refl _ _ h
  · exact (((Hub.Alike.refl _ _ h).next (Hub.alike_lullExit h p) (by simp [lcFields])).next (Hub.alike_emit ..)).next
      (Hub.alike_onLink ..) |>.next (Hub.alike_bump _ _ rfl) (by simp [lcFields])

theorem Hub.alike_sendNak (h : Hub) (p : Port) : h.Alike (lcFields p) [.regs, .out, .links] (h.sendNak p) :=
  .ite (.refl _ _ h) (Hub.alike_nakNow h p)

/-- The fields that the taking of an expected packet writes. -/
def takenFields (p : Port) : List RF := R.LNK_RX_SEQ_EXPECTED p.ix :: lullFields p

theorem Hub.alike_inOrder (h : Hub) (p : Port) : h.Alike (takenFields p) [.regs, .out, .links] (h.inOrder p) := by
  unfold Hub.inOrder
  have stepped := ((Hub.Alike.refl (takenFields p) [.regs, .out, .links] h).next
    (Hub.alike_put h (R.LNK_RX_SEQ_EXPECTED p.ix) ((h.get (R.LNK_RX_SEQ_EXPECTED p.ix) + 1) % 4096) rfl)
    (by simp [takenFields])).next (Hub.alike_onLink _ p (fun l => { l with good := l.good + 1, nakOut := false }))
  exact (stepped.next (Hub.alike_ackNow _ p) (by simp [takenFields])).ite stepped

theorem Hub.alike_taken (h : Hub) (p : Port) (q : Packet) : h.Alike (takenFields p) [.regs, .out, .links] (h.taken p q) :=
  .ite (.refl _ _ h) (Hub.alike_inOrder h p)

/-- The expected LSEQ has advanced (R83). -/
theorem Hub.inOrder_expected (h : Hub) (p : Port) :
    (h.inOrder p).get (R.LNK_RX_SEQ_EXPECTED p.ix) = (h.get (R.LNK_RX_SEQ_EXPECTED p.ix) + 1) % 4096 := by
  have put : (h.put (R.LNK_RX_SEQ_EXPECTED p.ix) ((h.get (R.LNK_RX_SEQ_EXPECTED p.ix) + 1) % 4096)).get
      (R.LNK_RX_SEQ_EXPECTED p.ix) = (h.get (R.LNK_RX_SEQ_EXPECTED p.ix) + 1) % 4096 :=
    (Hub.get_put_self _ _ _ rfl).trans (Nat.mod_mod _ _)
  unfold Hub.inOrder
  simp only []
  split
  · rw [(Hub.alike_ackNow _ p).get _ (by cases p <;> rfl), Hub.onLink_get, put]
  · rw [Hub.onLink_get, put]

/-! ### Counts -/

theorem Hub.alike_credit (h : Hub) (p : Port) (c : Cls) (n : Nat) : h.Alike [] [.links] (h.credit p c n) :=
  Hub.alike_onLink ..

theorem Hub.alike_creditBack (h : Hub) (arr : Option Port) (q : Packet) : h.Alike [] [.links] (h.creditBack arr q) := by
  unfold Hub.creditBack
  split
  · exact Hub.alike_credit ..
  · exact .refl _ _ h

theorem Hub.alike_count {h : Hub} (up : h.pw.steep = false) (o q : Nat) (c : Cls) (cause : Nat) :
    h.Alike [] [.regs, .err, .fab] (h.count o q c cause) := by
  unfold Hub.count
  have counted : h.Alike [] [.regs, .err, .fab] (h.bumpCnt o c cause) := (Hub.alike_onFab ..).mono
  exact (counted.next (Hub.logOnly_logLim ((counted.pw (by simp)).symm ▸ up) ..)).ite counted

/-- A count of a link port and its entry in the log. -/
theorem Hub.alike_bumpLog {h : Hub} (up : h.pw.steep = false) (f : RF) (ok : f.ok = true) (p : Port) (code sev d0 d2 : Nat) :
    h.Alike [f] [.regs, .err] ((h.bump f).lnkLog p code sev d0 d2) :=
  (Hub.alike_bump h f ok).mono.next (Hub.logOnly_lnkLog (by simpa using up) ..)

/-- Such a count stands one higher. -/
theorem Hub.get_bumpLog {h : Hub} (up : h.pw.steep = false) (f : RF) (ok : f.ok = true) (off : f.offLog = true) (p : Port)
    (code sev d0 d2 : Nat) : ((h.bump f).lnkLog p code sev d0 d2).get f = min (2 ^ f.width - 1) (h.get f + 1) := by
  rw [(Hub.logOnly_lnkLog (by simpa using up) ..).get f (by simpa [RF.off] using off), Hub.get_bump_self _ _ ok]

theorem Hub.alike_countWrapDrop {h : Hub} (up : h.pw.steep = false) (p : Port) (dest : Nat) :
    h.Alike [R.LNK_WRAP_DROP p.ix] [.regs, .err] (h.countWrapDrop p dest) := Hub.alike_bumpLog up _ rfl ..

theorem Hub.alike_countNoRoute {h : Hub} (up : h.pw.steep = false) (p : Port) (dest : Nat) :
    h.Alike [R.LNK_NOROUTE p.ix] [.regs, .err] (h.countNoRoute p dest) := Hub.alike_bumpLog up _ rfl ..

theorem Hub.alike_countHdrErr {h : Hub} (up : h.pw.steep = false) (p : Port) (dest : Nat) :
    h.Alike [R.LNK_HDR_ERR p.ix] [.regs, .err] (h.countHdrErr p dest) := Hub.alike_bumpLog up _ rfl ..

/-! ### The window -/

/-- The counters of the acceptance window (R94). -/
def winFields : List RF := [R.LNK_WIN_RESYNC 0, R.LNK_WIN_OUT 0]

theorem Hub.alike_winTake {h : Hub} (up : h.pw.steep = false) (n : Nat) (q : Packet) (p : Port) :
    h.Alike winFields [.regs, .rt, .err] (h.winTake n q p) := by
  have entered : h.Alike winFields [.regs, .rt, .err]
      { h with rt := { h.rt with win := KMap.put h.rt.win (winKey n q.src) ⟨q.tseq, q.resync⟩ } } :=
    ⟨fun _ _ => rfl, Hub.rt_replaced _ _ (by simp)⟩
  have resynced := (entered.next (Hub.alike_bump _ (R.LNK_WIN_RESYNC 0) rfl) (by simp [winFields])).ite (c := q.resync = true) entered
  exact (resynced.next (Hub.alike_bumpLog ((resynced.pw (by simp)).symm ▸ up) (R.LNK_WIN_OUT 0) rfl ..) (by simp [winFields])).ite
    resynced

/-! ### The shared buffer -/

theorem Hub.alike_store (h : Hub) (q : Packet) (n : Nat) (a : Acct) (arr : Option Port) (orig : Option Nat) :
    h.Alike [] [.fab, .tun] (h.store q n a arr orig).1 :=
  ⟨fun _ _ => rfl, by rw [Hub.store]; simp⟩

theorem Hub.alike_addRef (h : Hub) (pid : Nat) : h.Alike [] [.fab] (h.addRef pid) := by
  unfold Hub.addRef
  split
  · exact .refl _ _ h
  · exact Hub.alike_onFab ..

theorem Hub.alike_push (h : Hub) (o q : Nat) (d : Desc) : h.Alike [] [.fab] (h.push o q d) := by
  unfold Hub.push Hub.setQueue
  exact Hub.alike_onFab ..

section
variable (h : Hub) (q : Packet) (arr : Option Port) (orig : Option Nat) (t : Target) (ts : List Target)

/-- No output more to offer a packet to. -/
theorem Hub.enqueue_nil (pid? : Option Nat) : h.enqueue q arr orig pid? [] = (h, pid?) := by rw [Hub.enqueue.eq_def]

/-- A copy that fails admission is counted (R150). -/
theorem Hub.enqueue_failed {cause : Nat} {pid? : Option Nat} (test : h.admitTest q arr pid?.isNone t = .error cause) :
    h.enqueue q arr orig pid? (t :: ts) = (h.count t.out t.q q.cls cause).enqueue q arr orig pid? ts := by
  rw [Hub.enqueue.eq_def]
  simp only [test]

/-- A further copy that passes is queued. -/
theorem Hub.enqueue_further {a : Acct} {pid : Nat} (test : h.admitTest q arr false t = .ok a) :
    h.enqueue q arr orig (some pid) (t :: ts)
      = ((h.addRef pid).push t.out t.q (t.desc pid a q)).enqueue q arr orig (some pid) ts := by
  rw [Hub.enqueue.eq_def]
  simp only [Option.isNone_some, test]

/-- Whose cells the first copy of a packet takes (R151). -/
def Hub.cellAcct (h : Hub) (q : Packet) (arr : Option Port) : Acct :=
  match arr with
  | some port => Acct.link port
  | none => (h.localCells q.cls q.cells).getD .pool

/-- The first copy that passes is stored and queued. -/
theorem Hub.enqueue_first {a : Acct} (test : h.admitTest q arr true t = .ok a) :
    h.enqueue q arr orig none (t :: ts)
      = (((h.store q q.cells (h.cellAcct q arr) arr orig).1.addRef h.fab.nextPid).push t.out t.q
          (t.desc h.fab.nextPid a q)).enqueue q arr orig (some h.fab.nextPid) ts := by
  rw [Hub.enqueue.eq_def]
  simp only [Option.isNone_none, test]
  rfl

end

/-- The fields that the offer of a packet to its outputs writes: none but the log's. -/
theorem Hub.alike_enqueue {h : Hub} (up : h.pw.steep = false) (q : Packet) (arr : Option Port) (orig pid? : Option Nat)
    (ts : List Target) : h.Alike [] [.regs, .err, .fab, .tun] (h.enqueue q arr orig pid? ts).1 := by
  induction ts generalizing h pid? with
  | nil => rw [Hub.enqueue_nil]; exact .refl _ _ h
  | cons t ts ih =>
    have next {u : Hub} (pid? : Option Nat) (step : h.Alike [] [.regs, .err, .fab, .tun] u) :=
      step.trans (ih (h := u) ((step.pw (by simp)).symm ▸ up) pid?)
    cases test : h.admitTest q arr pid?.isNone t with
    | error cause =>
      rw [Hub.enqueue_failed _ _ _ _ _ _ test]
      exact next _ (Hub.alike_count up ..).mono
    | ok a =>
      cases pid? with
      | some pid =>
        rw [Hub.enqueue_further _ _ _ _ _ _ test]
        exact next _ ((Hub.alike_addRef h _).mono.next (Hub.alike_push ..))
      | none =>
        rw [Hub.enqueue_first _ _ _ _ _ _ test]
        exact next _ (((Hub.alike_store h ..).mono.next (Hub.alike_addRef ..)).next (Hub.alike_push ..))

end Sys2Proof.Machine
end

section
/-! SUPPORT. The routing order and admission, case by case (R95–R99, R150): where a packet goes, and what an output
answers. -/

open Sys2Proof Sys2Proof.Machine

namespace Sys2Proof.Machine

section
variable {h : Hub} {q : Packet} {p o : Port}

/-! ### Orders 1 and 2 -/

theorem Hub.way_own (arr : Option Port) (has : h.hasAddr = true) (own : hubOf q.dest = h.addr) :
    h.way q arr = .deliver (idxOf q.dest) := by simp [Hub.way, has, own]

theorem Hub.not_own (other : h.hasAddr = false ∨ hubOf q.dest ≠ h.addr) : (h.hasAddr && hubOf q.dest == h.addr) = false := by
  rcases other with none_ | ne
  · simp [none_]
  · simp [ne]

theorem Hub.way_broadcast (arr : Option Port) (other : h.hasAddr = false ∨ hubOf q.dest ≠ h.addr) (all : hubOf q.dest = 127) :
    h.way q arr = .bcast (idxOf q.dest) := by rw [Hub.way, Hub.not_own other, all]; rfl

/-! ### Order 3 -/

theorem ring_of_ne_S (ring : p ≠ .S) : (some p == some Port.E || some p == some Port.W) = true := by cases p <;> simp_all

/-- The onward port of a ring port is S exactly where the entry says so, else the other ring port. -/
theorem Hub.onward_cases (ring : p ≠ .S) (onward : o = if h.entryPort (hubOf q.dest) = some .S then .S else p.other) :
    (h.entryPort (hubOf q.dest) = some .S ∧ o = .S) ∨ (h.entryPort (hubOf q.dest) ≠ some .S ∧ o = p.other ∧ o ≠ .S) := by
  by_cases spur : h.entryPort (hubOf q.dest) = some .S
  · exact .inl ⟨spur, by rw [onward, if_pos spur]⟩
  · have here : o = p.other := by rw [onward, if_neg spur]
    refine .inr ⟨spur, here, ?_⟩
    cases p <;> simp_all [Port.other]

theorem Hub.way_wrapped (foreign : h.foreign q) (wrap : q.wrap = true) (ring : p ≠ .S)
    (onward : o = if h.entryPort (hubOf q.dest) = some .S then .S else p.other) :
    h.way q (some p) = if h.usable o then .out o (if o = .S then some (hubOf q.dest) else none) else .wrapDead o := by
  obtain ⟨other, all⟩ := foreign
  rw [Hub.way, Hub.not_own other, if_neg Bool.false_ne_true, if_neg all, wrap, ring_of_ne_S ring]
  rcases Hub.onward_cases ring onward with ⟨spur, rfl⟩ | ⟨spur, here, ne⟩
  · simp [spur]
  · rw [here] at ne ⊢
    simp [spur, ne]

/-! ### Order 4 -/

/-- Copies onto one port: out of it, or dropped there. -/
theorem Hub.copiesTo_one (h : Hub) (q : Packet) (launch : Bool) (o : Port) (e : Option Nat) :
    h.copiesTo q launch [o] e
      = .copies (if h.usable o then [linkTarget q o (if launch then o == .W else q.west) q.wrap] else [])
          (if h.usable o then [] else [o]) e := by
  cases usable : h.usable o <;> simp [Hub.copiesTo, usable]

/-- A packet that order 3 does not take. -/
theorem not_order3 (straight : q.wrap = false ∨ p = .S) : (q.wrap && (some p == some Port.E || some p == some Port.W)) = false := by
  rcases straight with unwrapped | rfl
  · simp [unwrapped]
  · simp

theorem Hub.way_P (foreign : h.foreign q) (cls : q.cls = .P) (straight : q.wrap = false ∨ p = .S) :
    h.way q (some p) = h.wayP q (some p) := by
  obtain ⟨other, all⟩ := foreign
  rw [Hub.way, Hub.not_own other, if_neg Bool.false_ne_true, if_neg all, not_order3 straight, if_neg Bool.false_ne_true, if_pos cls]

theorem Hub.wayP_ring (ring : p ≠ .S) : h.wayP q (some p) = h.continueP q (hubOf q.dest) p := by cases p <;> simp_all [Hub.wayP]

theorem Hub.way_continued (foreign : h.foreign q) (cls : q.cls = .P) (unwrapped : q.wrap = false) (ring : p ≠ .S)
    (onward : o = if h.entryPort (hubOf q.dest) = some .S then .S else p.other) :
    h.way q (some p) = .copies (if h.usable o then [⟨o.ix, linkQueue q.dest, q.west, false, false⟩] else [])
      (if h.usable o then [] else [o]) (if o = .S then some (hubOf q.dest) else none) := by
  rw [Hub.way_P foreign cls (.inl unwrapped), Hub.wayP_ring ring, Hub.continueP]
  rcases Hub.onward_cases ring onward with ⟨spur, rfl⟩ | ⟨spur, here, ne⟩
  · simp [spur, Hub.copiesTo_one, linkTarget, unwrapped]
  · rw [← here]
    simp [spur, ne, Hub.copiesTo_one, linkTarget, unwrapped]

/-- Launched by P_E and P_W (R96): onto the usable ones of these ports, dropped at the others. -/
theorem Hub.way_launched {e w : Bool} (foreign : h.foreign q) (cls : q.cls = .P)
    (east : e = (h.on (R.LNK_ROUTE_VALID 0 (hubOf q.dest)) && h.on (R.LNK_ROUTE_P_E 0 (hubOf q.dest))))
    (west : w = (h.on (R.LNK_ROUTE_VALID 0 (hubOf q.dest)) && h.on (R.LNK_ROUTE_P_W 0 (hubOf q.dest))))
    (some_ : e = true ∨ w = true) :
    h.way q (some .S) = .copies
      ((if e && h.usable .E then [⟨0, linkQueue q.dest, false, q.wrap, false⟩] else [])
        ++ (if w && h.usable .W then [⟨1, linkQueue q.dest, true, q.wrap, false⟩] else []))
      ((if e && !h.usable .E then [.E] else []) ++ (if w && !h.usable .W then [.W] else [])) none := by
  rw [Hub.way_P foreign cls (.inr rfl)]
  unfold Hub.wayP
  simp only [← east, ← west]
  rw [if_pos (by simpa using some_), Hub.copiesTo]
  cases e <;> cases w <;> cases ue : h.usable .E <;> cases uw : h.usable .W <;> simp [linkTarget, Port.ix, ue, uw]

theorem Hub.way_launched_port (foreign : h.foreign q) (cls : q.cls = .P) (entry : h.entryPort (hubOf q.dest) = some o)
    (ne : o ≠ .S) (east : h.on (R.LNK_ROUTE_P_E 0 (hubOf q.dest)) = false)
    (west : h.on (R.LNK_ROUTE_P_W 0 (hubOf q.dest)) = false) :
    h.way q (some .S) = .copies (if h.usable o then [⟨o.ix, linkQueue q.dest, o == .W, q.wrap, false⟩] else [])
      (if h.usable o then [] else [o]) (some (hubOf q.dest)) := by
  rw [Hub.way_P foreign cls (.inr rfl)]
  unfold Hub.wayP
  simp [east, west, entry, ne, Hub.copiesTo_one, linkTarget]

/-! ### Orders 5 to 7 -/

/-- The way of an M, D or B packet by its destination's entry, or by the enumeration port where hub 0 has none (R95). -/
def Hub.wayMDB (h : Hub) (q : Packet) (arr : Option Port) : Way :=
  match h.entryPort (hubOf q.dest) with
  | some port => if some port = arr then .none_ else h.outOrWrap q port (some (hubOf q.dest))
  | none =>
    if hubOf q.dest = 0 && !h.on (R.LNK_ROUTE_VALID 0 0) then
      match Port.ofCode (h.get R.DEV_STATUS_ENUM_PORT) with
      | some port => h.outOrWrap q port none
      | none => .none_
    else .none_

theorem Hub.way_MDB (foreign : h.foreign q) (cls : q.cls ≠ .P) (straight : q.wrap = false ∨ p = .S) :
    h.way q (some p) = h.wayMDB q (some p) := by
  obtain ⟨other, all⟩ := foreign
  rw [Hub.way, Hub.not_own other, if_neg Bool.false_ne_true, if_neg all, not_order3 straight, if_neg Bool.false_ne_true, if_neg cls,
    Hub.wayMDB] <;> rfl

theorem Hub.way_entry (foreign : h.foreign q) (cls : q.cls ≠ .P) (straight : q.wrap = false ∨ p = .S)
    (entry : h.entryPort (hubOf q.dest) = some o) (ne : o ≠ p) :
    h.way q (some p) = h.outOrWrap q o (some (hubOf q.dest)) := by
  rw [Hub.way_MDB foreign cls straight, Hub.wayMDB, entry]
  simp [ne]

theorem Hub.way_enumeration (foreign : h.foreign q) (cls : q.cls ≠ .P) (straight : q.wrap = false ∨ p = .S)
    (zero : hubOf q.dest = 0) (invalid : h.on (R.LNK_ROUTE_VALID 0 0) = false)
    (enum : Port.ofCode (h.get R.DEV_STATUS_ENUM_PORT) = some o) : h.way q (some p) = h.outOrWrap q o none := by
  have entry : h.entryPort 0 = none := by simp [Hub.entryPort, invalid]
  rw [Hub.way_MDB foreign cls straight, Hub.wayMDB, zero, entry]
  simp [invalid, enum]

theorem Hub.way_none (foreign : h.foreign q) (cls : q.cls ≠ .P) (straight : q.wrap = false ∨ p = .S)
    (closed : h.entryPort (hubOf q.dest) = some p ∨ (h.entryPort (hubOf q.dest) = none ∧ (hubOf q.dest ≠ 0
      ∨ h.on (R.LNK_ROUTE_VALID 0 0) = true ∨ Port.ofCode (h.get R.DEV_STATUS_ENUM_PORT) = none))) :
    h.way q (some p) = .none_ := by
  rw [Hub.way_MDB foreign cls straight, Hub.wayMDB]
  rcases closed with back | ⟨entry, other | valid | none_⟩
  · simp [back]
  · simp [entry, other]
  · simp [entry, valid]
  · simp [entry, none_]

end

/-! ### Admission -/

section
variable (h : Hub) (q : Packet) (p : Port) (t : Target)

theorem Hub.bcastPorts_contains (o : Port) : (h.bcastPorts (some p)).contains o = (h.usable o && o != p) := by
  rw [Bool.eq_iff_iff]
  have all : o ∈ Port.all := by cases o <;> simp [Port.all]
  simp [Hub.bcastPorts, all]

/-- The account of a descriptor once tests 4 and 5 are passed, or the cause of the failure (R150). -/
def Hub.pastLimits (a : Acct) : Except Nat Acct :=
  if h.queueLimit t.out t.q q.cls < h.queueCells t.out t.q + q.cells then .error 2
  else if h.get (R.FAB_OLIM_LIM t.out q.cls.ix) < h.outUse t.out q.cls + q.cells then .error 3 else .ok a

theorem Hub.pastLimits_failed (a : Acct) {c : Nat} (fail : h.limitFail t.out t.q q.cls q.cells = some c) :
    h.pastLimits q t a = .error c := by
  unfold Hub.limitFail at fail
  unfold Hub.pastLimits
  split at fail
  next four => rw [if_pos four, ← Option.some.inj fail]
  next four =>
    rw [if_neg four]
    split at fail
    next five => rw [if_pos five, ← Option.some.inj fail]
    next => cases fail

theorem Hub.pastLimits_passed (a : Acct) (pass : h.limitFail t.out t.q q.cls q.cells = none) : h.pastLimits q t a = .ok a := by
  unfold Hub.limitFail at pass
  unfold Hub.pastLimits
  split at pass
  next => cases pass
  next four =>
    rw [if_neg four]
    split at pass
    next => cases pass
    next five => rw [if_neg five]

/-- The first copy of an arrival has its link input's reserve (R152). -/
theorem Hub.admitTest_arrival : h.admitTest q (some p) true t = h.pastLimits q t (.link p) := by
  unfold Hub.admitTest
  simp only [if_true]
  cases limit : h.limitFail t.out t.q q.cls q.cells with
  | some c => rw [h.pastLimits_failed q t _ limit]
  | none => rw [h.pastLimits_passed q t _ limit]

/-- A further copy takes a descriptor of the pool, or fails test 3 (R152). -/
theorem Hub.admitTest_further :
    h.admitTest q (some p) false t
      = if h.descThere = false ∨ h.poolDescs ≤ h.descsOn .pool then .error 5 else h.pastLimits q t .pool := by
  have desc : h.localDesc false = if h.descThere = false ∨ h.poolDescs ≤ h.descsOn .pool then none else some .pool := by
    unfold Hub.localDesc
    by_cases there : h.descThere = false
    · simp [there]
    · by_cases pool : h.descsOn .pool < h.poolDescs
      · simp [there, pool]
      · simp [there, pool, Nat.not_lt.mp pool]
  unfold Hub.admitTest
  simp only [Bool.false_eq_true, if_false, desc]
  split
  next none_ => split at none_ <;> simp_all
  next a got =>
    split at got
    next => cases got
    next room =>
      rw [if_neg room, ← Option.some.inj got]
      cases limit : h.limitFail t.out t.q q.cls q.cells with
      | some c => rw [h.pastLimits_failed q t _ limit]
      | none => rw [h.pastLimits_passed q t _ limit]

/-- A packet of the hub's own with cells and a descriptor to be had (R151, R152). -/
theorem Hub.admitTest_own {b a : Acct} (cells : h.localCells q.cls q.cells = some b) (desc : h.localDesc (q.cls == .M) = some a) :
    h.admitTest q none true t = h.pastLimits q t a := by
  unfold Hub.admitTest
  simp only [if_true, cells, desc]
  cases limit : h.limitFail t.out t.q q.cls q.cells with
  | some c => rw [h.pastLimits_failed q t _ limit]
  | none => rw [h.pastLimits_passed q t _ limit]

/-- Without cells it fails test 2. -/
theorem Hub.admitTest_no_cells (cells : h.localCells q.cls q.cells = none) : h.admitTest q none true t = .error 4 := by
  unfold Hub.admitTest
  simp only [if_true, cells]

end

end Sys2Proof.Machine
end

section
/-! SUPPORT. What routing and admission read of a hub, and hubs on which they answer alike (chapters 03 and 05). -/

open Sys2Proof Sys2Proof.Machine

namespace Sys2Proof.Machine

/-! ### Fields that routing reads -/

/-- Whether fields lie in the slots of the link ports and outside their route tables. -/
def inLinkSlots (fs : List RF) : Bool :=
  fs.all (fun f => decide (14 ≤ f.addr / 0x4000) && !(decide (0x38400 ≤ f.addr) && decide (f.addr < 0x38600)))

/-- Whether no field of a list is read by the routing order (R95). -/
def offRouting (fs : List RF) : Bool :=
  inLinkSlots fs && Port.all.all (fun o =>
    (R.LNK_STATUS_UP o.ix).off fs && (R.LNK_STATUS_OPEN_END o.ix).off fs && (R.LNK_PKT_CTRL_WRAP_EN o.ix).off fs)

theorem offRouting_taken (p : Port) : offRouting (takenFields p) = true := by cases p <;> decide

theorem RF.off_of_slot {fs : List RF} {g : RF} (links : inLinkSlots fs = true) (slot : g.addr / 0x4000 < 14)
    (log : g.addr / 0x4000 ≠ 3) : g.off fs = true := by
  simp only [inLinkSlots, List.all_eq_true, Bool.and_eq_true, decide_eq_true_eq] at links
  simp only [RF.off, RF.offLog, RF.apart, List.all_eq_true, Bool.and_eq_true, bne_iff_ne, Bool.or_eq_true]
  refine ⟨log, fun f m => .inl (.inl fun same => ?_)⟩
  have := (links f m).1
  omega

theorem RF.off_of_route {fs : List RF} {g : RF} (links : inLinkSlots fs = true) {a : Nat} (entry : a < 128)
    (addr : g.addr = A.LNK_ROUTE 0 a) : g.off fs = true := by
  simp only [inLinkSlots, List.all_eq_true, Bool.and_eq_true, decide_eq_true_eq, Bool.not_eq_true', Bool.and_eq_false_imp,
    decide_eq_false_iff_not] at links
  simp only [RF.off, RF.offLog, RF.apart, List.all_eq_true, Bool.and_eq_true, bne_iff_ne, Bool.or_eq_true]
  simp only [A.LNK_ROUTE, Nat.mul_zero, Nat.add_zero] at addr
  refine ⟨by omega, fun f m => .inl (.inl fun same => ?_)⟩
  have := (links f m).2
  omega

/-- The destination hub of a valid tunnel ID. -/
theorem hubOf_lt {tid : Nat} (valid : tidValid tid = true) : hubOf tid < 128 := by
  simp only [tidValid, Bool.or_eq_true, Bool.and_eq_true, beq_iff_eq, decide_eq_true_eq] at valid
  omega

section
variable {fs : List RF} {S : List Part} {h t : Hub} (a : h.Alike fs S t) (off : offRouting fs = true)
include a off

theorem Hub.Alike.slot {g : RF} (slot : g.addr / 0x4000 < 14) (log : g.addr / 0x4000 ≠ 3) : t.get g = h.get g :=
  a.get g (RF.off_of_slot (by simp [offRouting] at off; exact off.1) slot log)

theorem Hub.Alike.route {g : RF} {n : Nat} (entry : n < 128) (addr : g.addr = A.LNK_ROUTE 0 n) : t.get g = h.get g :=
  a.get g (RF.off_of_route (by simp [offRouting] at off; exact off.1) entry addr)

theorem Hub.Alike.usable (o : Port) : t.usable o = h.usable o := by
  simp only [offRouting, Bool.and_eq_true, List.all_eq_true] at off
  obtain ⟨⟨up, openEnd⟩, _⟩ := off.2 o (by cases o <;> simp [Port.all])
  simp only [Hub.usable, Hub.up, Hub.on, a.get _ up, a.get _ openEnd]

theorem Hub.Alike.wrapEn (o : Port) : t.on (R.LNK_PKT_CTRL_WRAP_EN o.ix) = h.on (R.LNK_PKT_CTRL_WRAP_EN o.ix) := by
  simp only [offRouting, Bool.and_eq_true, List.all_eq_true] at off
  rw [Hub.on, a.get _ (off.2 o (by cases o <;> simp [Port.all])).2, Hub.on]

theorem Hub.Alike.addr : t.addr = h.addr := a.slot off (by decide) (by decide)

theorem Hub.Alike.hasAddr : t.hasAddr = h.hasAddr := by rw [Hub.hasAddr, a.addr off, Hub.hasAddr]

theorem Hub.Alike.entryPort {n : Nat} (entry : n < 128) : t.entryPort n = h.entryPort n := by
  have valid : t.on (R.LNK_ROUTE_VALID 0 n) = h.on (R.LNK_ROUTE_VALID 0 n) := by
    rw [Hub.on, a.route off entry rfl, Hub.on]
  rw [Hub.entryPort, valid, a.route off (g := R.LNK_ROUTE_PORT 0 n) entry rfl, Hub.entryPort]

/-- Hubs alike in what the routing order reads send a packet the same way. -/
theorem Hub.Alike.way {q : Packet} (valid : tidValid q.dest = true) (arr : Option Port) : t.way q arr = h.way q arr := by
  have entry := hubOf_lt valid
  have on_ {g : RF} (addr : g.addr = A.LNK_ROUTE 0 (hubOf q.dest)) : t.on g = h.on g := by
    rw [Hub.on, a.route off entry addr, Hub.on]
  have valid0 : t.on (R.LNK_ROUTE_VALID 0 0) = h.on (R.LNK_ROUTE_VALID 0 0) := by
    rw [Hub.on, a.route off (n := 0) (by decide) rfl, Hub.on]
  have usable : t.usable = h.usable := funext (a.usable off)
  have enum : t.get R.DEV_STATUS_ENUM_PORT = h.get R.DEV_STATUS_ENUM_PORT := a.slot off (by decide) (by decide)
  unfold Hub.way Hub.wayP Hub.continueP Hub.copiesTo Hub.outOrWrap
  simp only [a.addr off, a.hasAddr off, a.entryPort off entry, usable, a.wrapEn off, enum, valid0,
    on_ (g := R.LNK_ROUTE_VALID 0 (hubOf q.dest)) rfl, on_ (g := R.LNK_ROUTE_P_E 0 (hubOf q.dest)) rfl,
    on_ (g := R.LNK_ROUTE_P_W 0 (hubOf q.dest)) rfl]

theorem Hub.Alike.bcastPorts (arr : Option Port) : t.bcastPorts arr = h.bcastPorts arr := by
  simp only [Hub.bcastPorts, a.usable off]

/-- The limits of the queues of a link output (R153). -/
theorem Hub.Alike.limitFail (fab : Part.fab ∉ S) (o : Port) (q n : Nat) (c : Cls) : t.limitFail o.ix q c n = h.limitFail o.ix q c n := by
  have same := a.fab fab
  have queue : t.queueLimit o.ix q c = h.queueLimit o.ix q c := by
    unfold Hub.queueLimit
    cases c <;> simp only [a.slot off (g := R.FAB_QLIM_P_LIM) (by decide) (by decide),
      a.slot off (g := R.FAB_QLIM_M_LIM) (by decide) (by decide), a.slot off (g := R.FAB_QLIM_D_LIM) (by decide) (by decide),
      a.slot off (g := R.FAB_QLIM_B_LIM) (by decide) (by decide)] <;> cases o <;> rfl
  have out : t.get (R.FAB_OLIM_LIM o.ix c.ix) = h.get (R.FAB_OLIM_LIM o.ix c.ix) :=
    a.slot off (by cases o <;> cases c <;> decide) (by cases o <;> cases c <;> decide)
  have cells : t.queueCells o.ix q = h.queueCells o.ix q := by simp only [Hub.queueCells, Hub.queue, Hub.pidCells, same]
  have use : t.outUse o.ix c = h.outUse o.ix c := by simp only [Hub.outUse, Hub.queueKeys, Hub.queue, Hub.pidCells, same]
  rw [Hub.limitFail, queue, out, cells, use, Hub.limitFail]

theorem Hub.Alike.binding (fab : Part.fab ∉ S) {n : Nat} (tunnel : n < 128) : t.binding n = h.binding n := by
  have shown : t.get (R.TUNC_BOUND_BINDING n) = h.get (R.TUNC_BOUND_BINDING n) :=
    a.slot off (by simp [R.TUNC_BOUND_BINDING, A.TUNC_BOUND]; omega) (by simp [R.TUNC_BOUND_BINDING, A.TUNC_BOUND]; omega)
  simp only [Hub.binding, Hub.bindingShown, a.fab fab, shown]

end

end Sys2Proof.Machine
end

section
/-! SUPPORT. The receive checks in their order (R79), and what routing does with a packet that has passed them (R95–R102). -/

open Sys2Proof Sys2Proof.Machine

namespace Sys2Proof.Machine

/-! ### The receive checks -/

section
variable {h : Hub} {p : Port} {w : Wire} {q : Packet} (cut : Option Port)

theorem Hub.packetReceived_outside (out : h.inService p = false) : h.packetReceived p w cut = h.outOfService p w := by
  simp [Hub.packetReceived, out]

theorem Hub.packetReceived_poisoned (in_ : h.inService p = true) (poisoned : w.poisoned = true) :
    h.packetReceived p w cut = (((h.bump (R.LNK_POISON_RX p.ix)).dropArrival p w cut).onLink p (fun l => { l with pktBad := false })) := by
  simp [Hub.packetReceived, in_, poisoned]

theorem Hub.packetReceived_bad (in_ : h.inService p = true) (clean : w.poisoned = false) (bad : h.goodPacket p w = none) :
    h.packetReceived p w cut
      = (((((h.bump (R.LNK_CRC_ERR p.ix)).lnkLogLim p 0x09 0 0 ((h.bump (R.LNK_CRC_ERR p.ix)).get (R.LNK_CRC_ERR p.ix))).dropArrival
          p w cut).sendNak p).onLink p (fun l => { l with pktBad := false })) := by
  simp only [Hub.packetReceived, in_, clean, bad, Bool.not_true, Bool.false_eq_true, if_false]

theorem subMod_self (m a : Nat) (pos : 0 < m) : subMod m a a = 0 := by
  have := Nat.mod_lt a pos
  rw [subMod, show a % m + (m - a % m) = m by omega, Nat.mod_self]

theorem Hub.packetReceived_expected (in_ : h.inService p = true) (clean : w.poisoned = false) (good : h.goodPacket p w = some q)
    (next : q.cls = .P ∨ q.lseq = h.get (R.LNK_RX_SEQ_EXPECTED p.ix)) :
    h.packetReceived p w cut = h.acceptPacket p q w.early cut := by
  have taken : q.cls = .P ∨ subMod 4096 q.lseq (h.get (R.LNK_RX_SEQ_EXPECTED p.ix)) = 0 :=
    next.imp_right fun same => by rw [same, subMod_self _ _ (by decide)]
  simp only [Hub.packetReceived, in_, clean, good, Bool.not_true, Bool.false_eq_true, if_false, if_pos taken]

/-- A good packet that is not the expected one: an ACK where it is old, a NAK where packets are missing. -/
theorem Hub.packetReceived_unexpected (in_ : h.inService p = true) (clean : w.poisoned = false)
    (good : h.goodPacket p w = some q) (cls : q.cls ≠ .P) {d : Nat}
    (gap : subMod 4096 q.lseq (h.get (R.LNK_RX_SEQ_EXPECTED p.ix)) = d) (ne : d ≠ 0) :
    h.packetReceived p w cut = if 2048 ≤ d then (h.dropArrival p w cut).ackNow p else (h.dropArrival p w cut).sendNak p := by
  simp only [Hub.packetReceived, in_, clean, good, gap, Bool.not_true, Bool.false_eq_true, if_false, cls, ne, or_self]

theorem Hub.acceptPacket_headerBad (early : Bool) (bad : h.headerBad q p = true) :
    h.acceptPacket p q early cut = ((h.taken p q).credit p q.cls q.cells).countHdrErr p q.dest := by
  unfold Hub.acceptPacket
  simp only [bad, if_true]
  rfl

theorem Hub.acceptPacket_good (early : Bool) (good : h.headerBad q p = false)
    (few : ¬ (130 ≤ q.hops ∧ (!(h.hasAddr && hubOf q.dest == h.addr)) = true)) (own : q.portOwn = false)
    (rebuild : h.on R.FAB_STATUS_REBUILD = false) : h.acceptPacket p q early cut = (h.taken p q).forward q p early cut := by
  unfold Hub.acceptPacket
  simp only [good, few, own, rebuild, Bool.false_eq_true, if_false]
  rfl

/-- A packet that passes every receive check is taken and routed. -/
theorem Hub.packetReceived_routes (routes : h.routes p w q) :
    h.packetReceived p w cut = (h.taken p q).forward q p w.early cut := by
  obtain ⟨in_, clean, good, next, header, hops, own, rebuild⟩ := routes
  rw [Hub.packetReceived_expected cut in_ clean good next, Hub.acceptPacket_good cut w.early header (fun many => by omega) own rebuild]

theorem Hub.valid_of_header (good : h.headerBad q p = false) : tidValid q.dest = true := by
  simp only [Hub.headerBad, Bool.or_eq_false_iff, Bool.not_eq_false'] at good
  obtain ⟨⟨⟨⟨⟨⟨_, _⟩, valid⟩, _⟩, _⟩, _⟩, _⟩ := good
  exact valid

/-- A broadcast that passes the header check is of class M. -/
theorem Hub.cls_of_broadcast (good : h.headerBad q p = false) (all : hubOf q.dest = 127) : q.cls = .M := by
  simp [Hub.headerBad, all] at good
  tauto

end

/-! ### Routing -/

section
variable {h : Hub} {q : Packet} {p : Port} {early : Bool}

/-- A packet that no output took has its cells back. -/
theorem Hub.admitOr_fst (arr : Option Port) (orig : Option Nat) (ts : List Target) :
    (h.admitOr q arr orig ts).1
      = if (h.enqueue q arr orig none ts).2.isSome then (h.enqueue q arr orig none ts).1
        else (h.enqueue q arr orig none ts).1.creditBack arr q := by
  unfold Hub.admitOr
  cases stored : (h.enqueue q arr orig none ts).2 <;> simp [stored]

/-- What becomes of a packet on a way over links that no hold catches. -/
theorem Hub.forward_links (w : Way) (way : h.way q (some p) = w) (free : h.holdOf w = none) (deliver : ∀ n, w ≠ .deliver n)
    (bcast : ∀ n, w ≠ .bcast n) :
    h.forward q p early none = ((h.takeWay q p w).1.admitOr q (some p) none (h.takeWay q p w).2).1 := by
  unfold Hub.forward
  simp only [way]
  cases w with
  | deliver n => exact absurd rfl (deliver n)
  | bcast n => exact absurd rfl (bcast n)
  | wrapDead | copies | out | wrapped | wrapDrop | none_ => simp only [free, Hub.cutTest]

theorem Hub.forward_held {a : Nat} (caught : h.holdOf (h.way q (some p)) = some a) :
    h.forward q p early none = h.hold a ⟨q, some p, none⟩ := by
  unfold Hub.forward
  cases way : h.way q (some p) with
  | deliver n => simp [way, Hub.holdOf] at caught
  | bcast n => simp [way, Hub.holdOf] at caught
  | wrapDead | copies | out | wrapped | wrapDrop | none_ =>
    rw [way] at caught
    simp only [way, caught]

/-- A packet for a local tunnel that began after the latest boundary of its binding (R30), and no duplicate (R94). -/
theorem Hub.forward_deliver {n : Nat} (way : h.way q (some p) = .deliver n) (fresh : h.winTest n q ≠ .duplicate) :
    h.forward q p false none
      = (((h.winTake n q p).localTarget n q.cls).1.admitOr q (some p) none ((h.winTake n q p).localTarget n q.cls).2).1 := by
  unfold Hub.forward
  cases win : h.winTest n q with
  | duplicate => exact absurd win fresh
  | accept | outside => simp only [way, win, Hub.lateOut, Bool.false_eq_true, if_false]

/-- A broadcast that the window accepts: the local tunnel's copy, and one for each usable port but its own (R98). -/
theorem Hub.forward_bcast {n : Nat} (way : h.way q (some p) = .bcast n) (fresh : h.winTest n q ≠ .duplicate) :
    h.forward q p false none
      = (((h.winTake n q p).localTarget n q.cls).1.admitOr q (some p) none
          (((h.winTake n q p).localTarget n q.cls).2
            ++ (((h.winTake n q p).localTarget n q.cls).1.bcastPorts (some p)).map (fun o => linkTarget q o false false))).1 := by
  unfold Hub.forward
  cases win : h.winTest n q with
  | duplicate => exact absurd win fresh
  | accept | outside => simp only [way, win, Hub.lateOut, Hub.cutTest, Bool.false_eq_true, if_false]

theorem Hub.forward_duplicate {n : Nat} (way : h.way q (some p) = .bcast n) (dup : h.winTest n q = .duplicate) :
    h.forward q p early none = (h.winDup q).creditBack (some p) q := by
  unfold Hub.forward
  simp only [way, dup]

end

/-! ### Commands -/

/-- What PACKET_RECEIVED does to a running hub. -/
theorem becomes_packetReceived {h t : Hub} {p : Port} {w : Wire} {cut : Option Port} (awake : h.awake = true)
    (e : h.packetReceived p w cut = t) : becomes (.packetReceived p w cut) h t :=
  e ▸ becomes_of_upd (f := fun h => h.packetReceived p w cut) awake (fun _ => rfl)

theorem does_packetReceived {h t : Hub} {p : Port} {w : Wire} {cut : Option Port} {P : Hub → Prop} (awake : h.awake = true)
    (e : h.packetReceived p w cut = t) (holds : P t) : does (.packetReceived p w cut) h P :=
  ⟨t, holds, becomes_packetReceived awake e⟩

end Sys2Proof.Machine
end

section
/-! SUPPORT. A packet that passes the receive checks (O13): held, queued, wrapped, dropped, refused by a limit, or sent as a
broadcast. -/

open Sys2Proof Sys2Proof.Machine

namespace Sys2Proof.Machine

/-! ### One copy in the buffer -/

/-- The hub with a packet stored and its one descriptor queued. -/
def Hub.placed (h : Hub) (q : Packet) (arr : Option Port) (orig : Option Nat) (a : Acct) (t : Target) : Hub :=
  ((h.store q q.cells (h.cellAcct q arr) arr orig).1.addRef h.fab.nextPid).push t.out t.q (t.desc h.fab.nextPid a q)

section
variable (h : Hub) (q : Packet) (arr : Option Port) (orig : Option Nat) (t : Target)

theorem Hub.enqueue_one {a : Acct} (test : h.admitTest q arr true t = .ok a) :
    h.enqueue q arr orig none [t] = (h.placed q arr orig a t, some h.fab.nextPid) := by
  rw [Hub.enqueue_first h q arr orig t [] test, Hub.enqueue_nil]
  rfl

theorem Hub.enqueue_none {c : Nat} (test : h.admitTest q arr true t = .error c) :
    h.enqueue q arr orig none [t] = (h.count t.out t.q q.cls c, none) := by
  rw [Hub.enqueue_failed h q arr orig t [] (pid? := none) test, Hub.enqueue_nil]

end

/-- A packet with one output, which admits it. -/
theorem Hub.admitOr_one {h : Hub} {q : Packet} {arr : Option Port} {t : Target} {a : Acct} (orig : Option Nat)
    (test : h.admitTest q arr true t = .ok a) : (h.admitOr q arr orig [t]).1 = h.placed q arr orig a t := by
  rw [Hub.admitOr_fst, Hub.enqueue_one _ _ _ _ _ test, Option.isSome_some, if_pos rfl]

/-- A packet with one output, which does not: its cells go back. -/
theorem Hub.admitOr_refused {h : Hub} {q : Packet} {arr : Option Port} {t : Target} {c : Nat} (orig : Option Nat)
    (test : h.admitTest q arr true t = .error c) :
    (h.admitOr q arr orig [t]).1 = (h.count t.out t.q q.cls c).creditBack arr q := by
  rw [Hub.admitOr_fst, Hub.enqueue_none _ _ _ _ _ test, Option.isSome_none, if_neg Bool.false_ne_true]

/-- A packet with no output: its cells go back. -/
theorem Hub.admitOr_nil (h : Hub) (q : Packet) (arr : Option Port) (orig : Option Nat) :
    (h.admitOr q arr orig []).1 = h.creditBack arr q := by
  rw [Hub.admitOr_fst, Hub.enqueue_nil, Option.isSome_none, if_neg Bool.false_ne_true]

theorem Hub.addRef_queues (h : Hub) (pid : Nat) : (h.addRef pid).fab.queues = h.fab.queues := by
  unfold Hub.addRef
  split <;> rfl

theorem Hub.queue_setQueue_self (h : Hub) (o q : Nat) (x : Queue) : (h.setQueue o q x).queue o q = x := SMap.get_set_self ..

theorem Hub.push_items (h : Hub) (o q : Nat) (d : Desc) : ((h.push o q d).queue o q).items = (h.queue o q).items ++ [d] := by
  unfold Hub.push
  rw [Hub.queue_setQueue_self]
  by_cases empty : (h.queue o q).items.isEmpty = true
  · rw [if_pos empty, List.isEmpty_iff.mp empty, List.nil_append]
  · rw [if_neg empty]

/-- The descriptor joins the tail of its queue. -/
theorem Hub.placed_items (h : Hub) (q : Packet) (arr : Option Port) (orig : Option Nat) (a : Acct) (t : Target) :
    ((h.placed q arr orig a t).queue t.out t.q).items = (h.queue t.out t.q).items ++ [t.desc h.fab.nextPid a q] := by
  have before : ((h.store q q.cells (h.cellAcct q arr) arr orig).1.addRef h.fab.nextPid).queue t.out t.q = h.queue t.out t.q := by
    rw [Hub.queue, Hub.addRef_queues]; rfl
  rw [Hub.placed, Hub.push_items, before]

/-- The packet lies at the place given next, named by one descriptor. -/
theorem Hub.placed_pkt (h : Hub) (q : Packet) (arr : Option Port) (orig : Option Nat) (a : Acct) (t : Target) :
    (KMap.get? (h.placed q arr orig a t).fab.pkts h.fab.nextPid).map (fun s => (s.pkt, s.refs)) = some (q, 1) := by
  have stored : KMap.get? (h.store q q.cells (h.cellAcct q arr) arr orig).1.fab.pkts h.fab.nextPid
      = some ⟨q, (takeCells ((h.fab.pkts.vals.flatMap Stored.cells) ++ h.fab.retired) h.fab.bank q.cells).1, h.cellAcct q arr, 0,
          arr, orig, [], q.cls⟩ := KMap.get?_put_self ..
  have pushed : (h.placed q arr orig a t).fab.pkts
      = ((h.store q q.cells (h.cellAcct q arr) arr orig).1.addRef h.fab.nextPid).fab.pkts := rfl
  rw [pushed, Hub.addRef]
  simp only [stored, Hub.onFab, KMap.get?_put_self, Option.map_some]

theorem Hub.alike_placed (h : Hub) (q : Packet) (arr : Option Port) (orig : Option Nat) (a : Acct) (t : Target) :
    h.Alike [] [.fab, .tun] (h.placed q arr orig a t) :=
  ((Hub.alike_store h ..).next (Hub.alike_addRef ..)).next (Hub.alike_push ..)

/-! ### Holds -/

theorem Hub.alike_hold (h : Hub) (a : Nat) (x : HeldPkt) : h.Alike [] [.rt] (h.hold a x) := by
  unfold Hub.hold
  split
  · exact ⟨fun _ _ => rfl, Hub.rt_replaced _ _ (by simp)⟩
  · exact .refl _ _ h

/-- A held packet waits behind those held before it (R102). -/
theorem Hub.hold_pkts {h : Hub} {a : Nat} {y : Hold} (x : HeldPkt) (hold : KMap.get? h.rt.holds a = some y) :
    KMap.get? (h.hold a x).rt.holds a = some { y with pkts := y.pkts ++ [x] } := by
  unfold Hub.hold
  simp only [hold, KMap.get?_put_self]

/-! ### What the taking of a packet leaves to routing -/

theorem Hub.holdOf_of_rt {h t : Hub} (e : t.rt = h.rt) (w : Way) : t.holdOf w = h.holdOf w := by
  unfold Hub.holdOf
  rw [e]

theorem Hub.winTest_of_rt {h t : Hub} (e : t.rt = h.rt) (n : Nat) (q : Packet) : t.winTest n q = h.winTest n q := by
  unfold Hub.winTest
  rw [e]

section
variable {h : Hub} {p : Port} {w : Wire} {q : Packet}

theorem Hub.taken_way (routes : h.routes p w q) (arr : Option Port) : (h.taken p q).way q arr = h.way q arr :=
  have ⟨_, _, _, _, header, _⟩ := routes
  (Hub.alike_taken h p q).way (offRouting_taken p) (Hub.valid_of_header header) arr

theorem Hub.taken_rt : (h.taken p q).rt = h.rt := (Hub.alike_taken h p q).rt (by simp)

theorem Hub.taken_fab : (h.taken p q).fab = h.fab := (Hub.alike_taken h p q).fab (by simp)

theorem Hub.taken_steep (awake : h.awake = true) : (h.taken p q).pw.steep = false := by
  rw [(Hub.alike_taken h p q).pw (by simp)]
  exact (Hub.awake_parts awake).2.2.1

theorem Hub.taken_queue (o n : Nat) : (h.taken p q).queue o n = h.queue o n := by rw [Hub.queue, Hub.taken_fab, Hub.queue]

/-- What becomes of a packet on a way over links that no hold catches. -/
theorem Hub.packetReceived_links {wy : Way} (routes : h.routes p w q) (way : h.way q (some p) = wy) (free : h.holdOf wy = none)
    (deliver : ∀ n, wy ≠ .deliver n) (bcast : ∀ n, wy ≠ .bcast n) :
    h.packetReceived p w none
      = (((h.taken p q).takeWay q p wy).1.admitOr q (some p) none ((h.taken p q).takeWay q p wy).2).1 := by
  rw [Hub.packetReceived_routes none routes,
    Hub.forward_links wy ((Hub.taken_way routes _).trans way) ((Hub.holdOf_of_rt Hub.taken_rt _).trans free) deliver bcast]

/-! ### Held -/

/-- A packet on a way of a hold's entry waits behind those held before it (R102). -/
theorem does_packetReceived_held {a : Nat} {y : Hold} (awake : h.awake = true) (routes : h.routes p w q)
    (caught : h.holdOf (h.way q (some p)) = some a) (hold : KMap.get? h.rt.holds a = some y) :
    does (.packetReceived p w none) h (fun t =>
      KMap.get? t.rt.holds a = some { y with pkts := y.pkts ++ [⟨q, some p, none⟩] } ∧ t.fab = h.fab
        ∧ t = { h with regs := t.regs, out := t.out, links := t.links, rt := t.rt }) := by
  have caught' : (h.taken p q).holdOf ((h.taken p q).way q (some p)) = some a := by
    rw [Hub.taken_way routes, Hub.holdOf_of_rt Hub.taken_rt, caught]
  have step := (Hub.alike_taken h p q).mono (gs := takenFields p) (T := [.regs, .out, .links, .rt]) (by simp) |>.next
    (Hub.alike_hold (h.taken p q) a ⟨q, some p, none⟩)
  refine does_packetReceived awake ((Hub.packetReceived_routes none routes).trans (Hub.forward_held caught'))
    ⟨Hub.hold_pkts _ (by rw [Hub.taken_rt, hold]), step.fab (by simp), ?_⟩
  simpa using Hub.of_blot step.blot

/-! ### Queued -/

theorem Hub.taken_limitFail (o : Port) (n k : Nat) (c : Cls) : (h.taken p q).limitFail o.ix n c k = h.limitFail o.ix n c k :=
  (Hub.alike_taken h p q).limitFail (offRouting_taken p) (by simp) ..

/-- The one copy of a packet at a link output with room. -/
theorem Hub.admitTest_room {h : Hub} {q : Packet} {p o : Port} {west wrap : Bool}
    (room : h.limitFail o.ix (linkQueue q.dest) q.cls q.cells = none) :
    h.admitTest q (some p) true (linkTarget q o west wrap) = .ok (.link p) := by
  rw [Hub.admitTest_arrival, Hub.pastLimits_passed]
  exact room

/-- A packet out of a port with room is stored and joins its queue there. -/
theorem Hub.packetReceived_out {o : Port} {e : Option Nat} (routes : h.routes p w q) (way : h.way q (some p) = .out o e)
    (free : h.holdOf (.out o e) = none) (room : h.limitFail o.ix (linkQueue q.dest) q.cls q.cells = none) :
    h.packetReceived p w none = (h.taken p q).placed q (some p) none (.link p) (linkTarget q o q.west q.wrap) := by
  rw [Hub.packetReceived_links routes way free (fun _ => Way.noConfusion) (fun _ => Way.noConfusion), Hub.takeWay,
    Hub.admitOr_one none (Hub.admitTest_room ((Hub.taken_limitFail ..).trans room))]

theorem does_packetReceived_out {o : Port} {e : Option Nat} (awake : h.awake = true) (routes : h.routes p w q)
    (way : h.way q (some p) = .out o e) (free : h.holdOf (.out o e) = none)
    (room : h.limitFail o.ix (linkQueue q.dest) q.cls q.cells = none) :
    does (.packetReceived p w none) h (fun t =>
      t = ((h.taken p q).enqueue q (some p) none none [⟨o.ix, linkQueue q.dest, q.west, q.wrap, false⟩]).1
        ∧ (t.queue o.ix (linkQueue q.dest)).items
          = (h.queue o.ix (linkQueue q.dest)).items ++ [⟨h.fab.nextPid, .link p, q.west, q.wrap, q.cls, q.stamp, false⟩]
        ∧ (KMap.get? t.fab.pkts h.fab.nextPid).map (fun s => (s.pkt, s.refs)) = some (q, 1)
        ∧ t = { h with regs := t.regs, mem := t.mem, out := t.out, links := t.links, err := t.err, fab := t.fab, tun := t.tun }) := by
  have test : (h.taken p q).admitTest q (some p) true (linkTarget q o q.west q.wrap) = .ok (.link p) :=
    Hub.admitTest_room ((Hub.taken_limitFail ..).trans room)
  have step := (Hub.alike_taken h p q).mono (gs := takenFields p) (T := [.regs, .mem, .out, .links, .err, .fab, .tun]) (by simp) |>.next
    (Hub.alike_placed (h.taken p q) q (some p) none (.link p) (linkTarget q o q.west q.wrap))
  have items := Hub.placed_items (h.taken p q) q (some p) none (.link p) (linkTarget q o q.west q.wrap)
  have pkt := Hub.placed_pkt (h.taken p q) q (some p) none (.link p) (linkTarget q o q.west q.wrap)
  have stored := Hub.enqueue_one (h.taken p q) q (some p) none _ test
  rw [Hub.taken_queue] at items
  rw [Hub.taken_fab] at items pkt
  refine does_packetReceived awake (Hub.packetReceived_out routes way free room) ⟨(congrArg Prod.fst stored).symm, items, pkt, ?_⟩
  simpa using Hub.of_blot step.blot

end

end Sys2Proof.Machine
end

section
/-! SUPPORT. A packet that passes the receive checks (O13), continued: wrapped, dropped at a port, without a way, refused by a
limit, for a local tunnel or for all. -/

open Sys2Proof Sys2Proof.Machine

namespace Sys2Proof.Machine

section
variable {h : Hub} {p o : Port} {w : Wire} {q : Packet}

/-! ### Wrapped -/

theorem Hub.steep_of_awake (awake : h.awake = true) : h.pw.steep = false := (Hub.awake_parts awake).2.2.1

/-- The hub once a taken packet is counted as wrapped at a port. -/
theorem Hub.alike_wrapped (h : Hub) (p o : Port) (q : Packet) :
    h.Alike (R.LNK_WRAPPED o.ix :: takenFields p) [.regs, .out, .links] ((h.taken p q).bump (R.LNK_WRAPPED o.ix)) :=
  ((Hub.alike_taken h p q).mono (gs := R.LNK_WRAPPED o.ix :: takenFields p)).next (Hub.alike_bump _ _ rfl)

theorem Hub.packetReceived_wrapped {e : Option Nat} (routes : h.routes p w q) (way : h.way q (some p) = .wrapped o e)
    (free : h.holdOf (.wrapped o e) = none) (room : h.limitFail o.other.ix (linkQueue q.dest) q.cls q.cells = none) :
    h.packetReceived p w none = ((h.taken p q).bump (R.LNK_WRAPPED o.ix)).placed q (some p) none (.link p)
      (linkTarget q o.other q.west true) := by
  have off : offRouting (R.LNK_WRAPPED o.ix :: takenFields p) = true := by cases o <;> cases p <;> decide
  rw [Hub.packetReceived_links routes way free (fun _ => Way.noConfusion) (fun _ => Way.noConfusion), Hub.takeWay,
    Hub.admitOr_one none (Hub.admitTest_room (((Hub.alike_wrapped h p o q).limitFail off (by simp) ..).trans room))]

theorem does_packetReceived_wrapped {e : Option Nat} (awake : h.awake = true) (routes : h.routes p w q)
    (way : h.way q (some p) = .wrapped o e) (free : h.holdOf (.wrapped o e) = none)
    (room : h.limitFail o.other.ix (linkQueue q.dest) q.cls q.cells = none) :
    does (.packetReceived p w none) h (fun t =>
      (t.queue o.other.ix (linkQueue q.dest)).items
          = (h.queue o.other.ix (linkQueue q.dest)).items ++ [⟨h.fab.nextPid, .link p, q.west, true, q.cls, q.stamp, false⟩]
        ∧ (KMap.get? t.fab.pkts h.fab.nextPid).map (fun s => (s.pkt, s.refs)) = some (q, 1)
        ∧ t.get (R.LNK_WRAPPED o.ix) = min (2 ^ (R.LNK_WRAPPED o.ix).width - 1) (h.get (R.LNK_WRAPPED o.ix) + 1)
        ∧ t.get (R.LNK_WRAP_DROP o.ix) = h.get (R.LNK_WRAP_DROP o.ix)
        ∧ t = { h with regs := t.regs, mem := t.mem, out := t.out, links := t.links, err := t.err, fab := t.fab, tun := t.tun }) := by
  refine does_packetReceived awake (Hub.packetReceived_wrapped routes way free room) ?_
  have counted := Hub.alike_wrapped h p o q
  have fab := counted.fab (by simp)
  have stands : ((h.taken p q).bump (R.LNK_WRAPPED o.ix)).get (R.LNK_WRAPPED o.ix)
      = min (2 ^ (R.LNK_WRAPPED o.ix).width - 1) (h.get (R.LNK_WRAPPED o.ix) + 1) := by
    rw [Hub.get_bump_self _ _ rfl, (Hub.alike_taken h p q).get _ (by cases p <;> cases o <;> rfl)]
  generalize (h.taken p q).bump (R.LNK_WRAPPED o.ix) = u at *
  have items := Hub.placed_items u q (some p) none (.link p) (linkTarget q o.other q.west true)
  have pkt := Hub.placed_pkt u q (some p) none (.link p) (linkTarget q o.other q.west true)
  have last := Hub.alike_placed u q (some p) none (.link p) (linkTarget q o.other q.west true)
  have queue : u.queue o.other.ix (linkQueue q.dest) = h.queue o.other.ix (linkQueue q.dest) := by rw [Hub.queue, fab, Hub.queue]
  rw [fab] at items pkt
  refine ⟨items.trans (congrArg (fun x : Queue => x.items ++ _) queue), pkt, ?_, ?_, ?_⟩
  · rw [last.get _ (by cases o <;> rfl), stands]
  · rw [last.get _ (by cases o <;> rfl), counted.get _ (by cases p <;> cases o <;> rfl)]
  · simpa using Hub.of_blot ((counted.mono (gs := R.LNK_WRAPPED o.ix :: takenFields p)
      (T := [.regs, .mem, .out, .links, .err, .fab, .tun])).next last).blot

/-! ### Counted and let go -/

/-- What is left of a packet that is counted in one field of its port and goes nowhere: its count and its credit. -/
theorem does_packetReceived_counted {f : RF} {fs : List RF} {u : Hub} (awake : h.awake = true)
    (received : h.packetReceived p w none = u.creditBack (some p) q) (step : (h.taken p q).Alike fs [.regs, .err] u)
    (stands : u.get f = min (2 ^ f.width - 1) ((h.taken p q).get f + 1)) (off : f.off (takenFields p) = true) :
    does (.packetReceived p w none) h (fun t =>
      t.get f = min (2 ^ f.width - 1) (h.get f + 1) ∧ t.fab.pkts = h.fab.pkts ∧ t.fab.queues = h.fab.queues
        ∧ t = { h with regs := t.regs, out := t.out, links := t.links, err := t.err, fab := t.fab }) := by
  have back := Hub.alike_creditBack u (some p) q
  have all : h.Alike (fs ++ takenFields p) [.regs, .out, .links, .err] (u.creditBack (some p) q) :=
    (((Hub.alike_taken h p q).mono (gs := fs ++ takenFields p)).next step).next back
  have fab := all.fab (by simp)
  refine does_packetReceived awake received ⟨?_, by rw [fab], by rw [fab], ?_⟩
  · rw [Hub.get_of_regs (show (u.creditBack (some p) q).regs = u.regs from rfl), stands, (Hub.alike_taken h p q).get _ off]
  · simpa using Hub.of_blot (all.mono (gs := fs ++ takenFields p) (T := [.regs, .out, .links, .err, .fab])).blot

/-- A packet that could not be wrapped, or whose onward port is not up (R99). -/
theorem does_packetReceived_wrapDrop (awake : h.awake = true) (routes : h.routes p w q)
    (way : h.way q (some p) = .wrapDrop o ∨ h.way q (some p) = .wrapDead o) :
    does (.packetReceived p w none) h (fun t =>
      t.get (R.LNK_WRAP_DROP o.ix) = min (2 ^ (R.LNK_WRAP_DROP o.ix).width - 1) (h.get (R.LNK_WRAP_DROP o.ix) + 1)
        ∧ t.fab.pkts = h.fab.pkts ∧ t.fab.queues = h.fab.queues
        ∧ t = { h with regs := t.regs, out := t.out, links := t.links, err := t.err, fab := t.fab }) := by
  have received : h.packetReceived p w none = ((h.taken p q).countWrapDrop o q.dest).creditBack (some p) q := by
    rcases way with way | way <;>
    rw [Hub.packetReceived_links routes way rfl (fun _ => Way.noConfusion) (fun _ => Way.noConfusion), Hub.takeWay, Hub.admitOr_nil]
  have up := Hub.taken_steep (p := p) (q := q) awake
  exact does_packetReceived_counted awake received (Hub.alike_countWrapDrop up o q.dest)
    (Hub.get_bumpLog up _ rfl (by cases o <;> rfl) ..) (by cases p <;> cases o <;> rfl)

/-- A packet with no usable route (R95). -/
theorem does_packetReceived_noRoute (awake : h.awake = true) (routes : h.routes p w q) (way : h.way q (some p) = .none_) :
    does (.packetReceived p w none) h (fun t =>
      t.get (R.LNK_NOROUTE p.ix) = min (2 ^ (R.LNK_NOROUTE p.ix).width - 1) (h.get (R.LNK_NOROUTE p.ix) + 1)
        ∧ t.fab.pkts = h.fab.pkts ∧ t.fab.queues = h.fab.queues
        ∧ t = { h with regs := t.regs, out := t.out, links := t.links, err := t.err, fab := t.fab }) := by
  have received : h.packetReceived p w none = ((h.taken p q).countNoRoute p q.dest).creditBack (some p) q := by
    rw [Hub.packetReceived_links routes way rfl (fun _ => Way.noConfusion) (fun _ => Way.noConfusion), Hub.takeWay, Hub.admitOr_nil]
  have up := Hub.taken_steep (p := p) (q := q) awake
  exact does_packetReceived_counted awake received (Hub.alike_countNoRoute up p q.dest)
    (Hub.get_bumpLog up _ rfl (by cases p <;> rfl) ..) (by cases p <;> rfl)

/-- A P packet whose one copy is dropped at its onward port (R96). -/
theorem does_packetReceived_copyDrop {e : Option Nat} (awake : h.awake = true) (routes : h.routes p w q)
    (way : h.way q (some p) = .copies [] [o] e) (free : h.holdOf (.copies [] [o] e) = none) :
    does (.packetReceived p w none) h (fun t =>
      t.get (R.LNK_P_COPY_DROP o.ix) = min (2 ^ (R.LNK_P_COPY_DROP o.ix).width - 1) (h.get (R.LNK_P_COPY_DROP o.ix) + 1)
        ∧ t.fab.pkts = h.fab.pkts ∧ t.fab.queues = h.fab.queues
        ∧ t = { h with regs := t.regs, out := t.out, links := t.links, err := t.err, fab := t.fab }) := by
  have received : h.packetReceived p w none = ((h.taken p q).bump (R.LNK_P_COPY_DROP o.ix)).creditBack (some p) q := by
    rw [Hub.packetReceived_links routes way free (fun _ => Way.noConfusion) (fun _ => Way.noConfusion), Hub.takeWay, Hub.admitOr_nil]
    rfl
  exact does_packetReceived_counted awake received ((Hub.alike_bump _ (R.LNK_P_COPY_DROP o.ix) rfl).mono (List.Subset.refl _))
    (Hub.get_bump_self _ _ rfl) (by cases p <;> cases o <;> rfl)

/-! ### Refused by a limit -/

/-- The count of a packet under a cause at an output stands one higher, and no packet or queue of the buffer changes (R165). -/
theorem Hub.count_fab {h : Hub} (up : h.pw.steep = false) (o q : Nat) (c : Cls) (cause : Nat) :
    (h.count o q c cause).cnt o c cause = min top48 (h.cnt o c cause + 1)
      ∧ (h.count o q c cause).fab.pkts = h.fab.pkts ∧ (h.count o q c cause).fab.queues = h.fab.queues := by
  have fab : (h.count o q c cause).fab = (h.bumpCnt o c cause).fab := by
    unfold Hub.count
    simp only []
    split
    · exact (Hub.logOnly_logLim (h := h.bumpCnt o c cause) up ..).fab (by simp)
    · rfl
  rw [Hub.cnt, fab]
  exact ⟨SMap.get_set_self .., rfl, rfl⟩

/-- A packet over a limit of its output (R150, R153). -/
theorem does_packetReceived_limit {e : Option Nat} {c : Nat} (awake : h.awake = true) (routes : h.routes p w q)
    (way : h.way q (some p) = .out o e) (free : h.holdOf (.out o e) = none)
    (full : h.limitFail o.ix (linkQueue q.dest) q.cls q.cells = some c) :
    does (.packetReceived p w none) h (fun t =>
      t.cnt o.ix q.cls c = min top48 (h.cnt o.ix q.cls c + 1) ∧ t.fab.pkts = h.fab.pkts ∧ t.fab.queues = h.fab.queues
        ∧ t = { h with regs := t.regs, out := t.out, links := t.links, err := t.err, fab := t.fab }) := by
  have test : (h.taken p q).admitTest q (some p) true (linkTarget q o q.west q.wrap) = .error c := by
    rw [Hub.admitTest_arrival, Hub.pastLimits_failed]
    exact (Hub.taken_limitFail ..).trans full
  have received : h.packetReceived p w none = ((h.taken p q).count o.ix (linkQueue q.dest) q.cls c).creditBack (some p) q := by
    rw [Hub.packetReceived_links routes way free (fun _ => Way.noConfusion) (fun _ => Way.noConfusion), Hub.takeWay,
      Hub.admitOr_refused none test]
    rfl
  have up := Hub.taken_steep (p := p) (q := q) awake
  obtain ⟨counted, pkts, queues⟩ := Hub.count_fab up o.ix (linkQueue q.dest) q.cls c
  have step := ((Hub.alike_taken h p q).mono (gs := takenFields p) (T := [.regs, .out, .links, .err, .fab])).next
    (Hub.alike_count up o.ix (linkQueue q.dest) q.cls c)
  have before : (h.taken p q).cnt o.ix q.cls c = h.cnt o.ix q.cls c := by rw [Hub.cnt, Hub.taken_fab, Hub.cnt]
  rw [before] at counted
  rw [Hub.taken_fab] at pkts queues
  generalize (h.taken p q).count o.ix (linkQueue q.dest) q.cls c = u at *
  have back := Hub.alike_creditBack u (some p) q
  refine does_packetReceived awake received ⟨?_, ?_, ?_, ?_⟩
  · rw [Hub.cnt, back.fab (by simp)]; exact counted
  · rw [back.fab (by simp), pkts]
  · rw [back.fab (by simp), queues]
  · simpa using Hub.of_blot (step.next back).blot

end

end Sys2Proof.Machine
end

section
/-! SUPPORT. A packet that passes the receive checks (O13), continued: for a local tunnel, or for all. -/

open Sys2Proof Sys2Proof.Machine

namespace Sys2Proof.Machine

section
variable {h : Hub} {p : Port} {w : Wire} {q : Packet} {n : Nat}

/-! ### Orders 1 and 2 only deliver and broadcast -/

/-- The first two orders deliver and broadcast, the others do neither. -/
theorem Hub.way_foreign_ne (arr : Option Port) (foreign : h.foreign q) (n : Nat) :
    h.way q arr ≠ .deliver n ∧ h.way q arr ≠ .bcast n := by
  have wrapped (port : Port) (e : Option Nat) : h.outOrWrap q port e ≠ .deliver n ∧ h.outOrWrap q port e ≠ .bcast n := by
    unfold Hub.outOrWrap
    split
    · simp
    · split <;> simp
  have continued (a : Nat) (port : Port) : h.continueP q a port ≠ .deliver n ∧ h.continueP q a port ≠ .bcast n := by
    unfold Hub.continueP
    split <;> simp [Hub.copiesTo]
  have copied : h.wayP q arr ≠ .deliver n ∧ h.wayP q arr ≠ .bcast n := by
    unfold Hub.wayP
    simp only []
    split
    · exact continued _ _
    · exact continued _ _
    · split
      · simp [Hub.copiesTo]
      · split
        · split <;> simp [Hub.copiesTo]
        · simp
  obtain ⟨other, all⟩ := foreign
  rw [Hub.way, Hub.not_own other, if_neg Bool.false_ne_true, if_neg all]
  split
  · simp only []
    split <;> split <;> simp
  · split
    · exact copied
    · split
      · split
        · simp
        · exact wrapped _ _
      · split
        · split
          · exact wrapped _ _
          · simp
        · simp

theorem Hub.other_of_not_own (own : ¬ (h.hasAddr && hubOf q.dest == h.addr) = true) : h.hasAddr = false ∨ hubOf q.dest ≠ h.addr := by
  by_cases has : h.hasAddr = true
  · exact .inr fun same => own (by simp [has, same])
  · exact .inl (by simpa using has)

theorem Hub.own_of_deliver {arr : Option Port} (way : h.way q arr = .deliver n) :
    (h.hasAddr && hubOf q.dest == h.addr) = true ∧ n = idxOf q.dest := by
  by_cases own : (h.hasAddr && hubOf q.dest == h.addr) = true
  · rw [Hub.way, if_pos own] at way
    exact ⟨own, (Way.deliver.inj way).symm⟩
  · have other := Hub.other_of_not_own own
    by_cases all : hubOf q.dest = 127
    · rw [Hub.way_broadcast arr other all] at way
      cases way
    · exact absurd way (Hub.way_foreign_ne arr ⟨other, all⟩ n).1

theorem Hub.all_of_bcast {arr : Option Port} (way : h.way q arr = .bcast n) : hubOf q.dest = 127 ∧ n = idxOf q.dest := by
  by_cases own : (h.hasAddr && hubOf q.dest == h.addr) = true
  · rw [Hub.way, if_pos own] at way
    cases way
  · have other := Hub.other_of_not_own own
    by_cases all : hubOf q.dest = 127
    · rw [Hub.way_broadcast arr other all] at way
      exact ⟨all, (Way.bcast.inj way).symm⟩
    · exact absurd way (Hub.way_foreign_ne arr ⟨other, all⟩ n).2

theorem idxOf_lt (tid : Nat) : idxOf tid < 128 := Nat.mod_lt _ (by decide)

/-! ### A local tunnel -/

theorem offRouting_winFields : offRouting winFields = true := by decide

/-- A packet of its tunnel's class goes to the tunnel's output, unless the tunnel discards (R28, R216). -/
theorem Hub.localTarget_bound {o : Nat} {c : Cls} (out : h.localOut n = some o) (keep : (h.ctx n).discard = false)
    (cls : h.bindCls n = c) : h.localTarget n c = (h, [⟨o, n, false, false, false⟩]) := by
  simp [Hub.localTarget, out, keep, cls]

/-- An unbound tunnel counts what comes (R26). -/
theorem Hub.localTarget_unbound (c : Cls) (out : h.localOut n = none) : h.localTarget n c = (h.countTunnel n, []) := by
  simp [Hub.localTarget, out]

theorem becomes_packetReceived_deliver {o pid : Nat} (awake : h.awake = true) (in_ : h.inService p = true)
    (clean : w.poisoned = false) (good : h.goodPacket p w = some q) (cls : q.cls = .P) (header : h.headerBad q p = false)
    (own : q.portOwn = false) (rebuild : h.on R.FAB_STATUS_REBUILD = false) (late : w.early = false)
    (way : h.way q (some p) = .deliver n) (fresh : h.winTest n q ≠ .duplicate) (out : h.localOut n = some o)
    (keep : (h.ctx n).discard = false) (bound : h.bindCls n = .P)
    (stored : ((h.winTake n q p).enqueue q (some p) none none [⟨o, n, false, false, false⟩]).2 = some pid) :
    becomes (.packetReceived p w none) h ((h.winTake n q p).enqueue q (some p) none none [⟨o, n, false, false, false⟩]).1 := by
  obtain ⟨mine, index⟩ := Hub.own_of_deliver way
  have taken : h.taken p q = h := if_pos cls
  have window := Hub.alike_winTake (Hub.steep_of_awake awake) n q p
  have binding : (h.winTake n q p).binding n = h.binding n :=
    window.binding offRouting_winFields (by simp) (index ▸ idxOf_lt _)
  have target : (h.winTake n q p).localTarget n q.cls = (h.winTake n q p, [⟨o, n, false, false, false⟩]) := by
    refine Hub.localTarget_bound ?_ ?_ ?_
    · rw [Hub.localOut, binding]; exact out
    · rw [Hub.ctx, window.tun (by simp)]; exact keep
    · rw [Hub.bindCls, binding, cls]; exact bound
  refine becomes_packetReceived awake ?_
  rw [Hub.packetReceived_expected none in_ clean good (.inl cls),
    Hub.acceptPacket_good none w.early header (fun many => by simp [mine] at many) own rebuild, taken, late,
    Hub.forward_deliver way fresh, target, Hub.admitOr_fst, stored, Option.isSome_some, if_pos rfl]

/-! ### A broadcast -/

theorem Hub.alike_windowed (awake : h.awake = true) :
    h.Alike (winFields ++ takenFields p) [.regs, .out, .links, .rt, .err] ((h.taken p q).winTake n q p) :=
  ((Hub.alike_taken h p q).mono (gs := winFields ++ takenFields p)).next (Hub.alike_winTake (Hub.taken_steep awake) n q p)

theorem offRouting_windowed (p : Port) : offRouting (winFields ++ takenFields p) = true := by cases p <;> decide

theorem does_packetReceived_bcast (awake : h.awake = true) (routes : h.routes p w q) (way : h.way q (some p) = .bcast n)
    (late : w.early = false) (fresh : h.winTest n q ≠ .duplicate) (out : h.localOut n = none) :
    does (.packetReceived p w none) h (fun t =>
      ((((h.taken p q).winTake n q p).countTunnel n).enqueue q (some p) none none
          ((h.bcastPorts (some p)).map (fun o => ⟨o.ix, linkQueue q.dest, false, false, false⟩))).2 ≠ none →
        t = ((((h.taken p q).winTake n q p).countTunnel n).enqueue q (some p) none none
          ((h.bcastPorts (some p)).map (fun o => ⟨o.ix, linkQueue q.dest, false, false, false⟩))).1) := by
  have window := Hub.alike_windowed (p := p) (q := q) (n := n) awake
  have unbound : ((h.taken p q).winTake n q p).localOut n = none := by
    rw [Hub.localOut, window.binding (offRouting_windowed p) (by simp) ((Hub.all_of_bcast way).2 ▸ idxOf_lt _)]
    exact out
  have ports : (((h.taken p q).winTake n q p).countTunnel n).bcastPorts (some p) = h.bcastPorts (some p) :=
    window.bcastPorts (offRouting_windowed p) (some p)
  refine does_packetReceived awake (Hub.packetReceived_routes none routes) fun stored => ?_
  rw [late, Hub.forward_bcast ((Hub.taken_way routes _).trans way) (by rw [Hub.winTest_of_rt Hub.taken_rt]; exact fresh),
    Hub.localTarget_unbound _ unbound, List.nil_append, ports, Hub.admitOr_fst]
  exact if_pos (Option.isSome_iff_ne_none.mpr stored)

theorem does_packetReceived_duplicate (awake : h.awake = true) (routes : h.routes p w q) (way : h.way q (some p) = .bcast n)
    (dup : h.winTest n q = .duplicate) :
    does (.packetReceived p w none) h (fun t =>
      t.get (R.LNK_WIN_DUP 0) = min (2 ^ (R.LNK_WIN_DUP 0).width - 1) (h.get (R.LNK_WIN_DUP 0) + 1) ∧ t.fab = h.fab
        ∧ t = { h with regs := t.regs, out := t.out, links := t.links }) := by
  obtain ⟨_, _, _, _, header, _⟩ := id routes
  have cls : q.cls ≠ .P := by rw [Hub.cls_of_broadcast header (Hub.all_of_bcast way).1]; decide
  have received : h.packetReceived p w none = ((h.taken p q).bump (R.LNK_WIN_DUP 0)).creditBack (some p) q := by
    rw [Hub.packetReceived_routes none routes,
      Hub.forward_duplicate ((Hub.taken_way routes _).trans way) ((Hub.winTest_of_rt Hub.taken_rt n q).trans dup), Hub.winDup, if_neg cls]
  have step := ((Hub.alike_taken h p q).mono (gs := R.LNK_WIN_DUP 0 :: takenFields p)
    (T := [.regs, .out, .links])).next
    (Hub.alike_bump (h.taken p q) (R.LNK_WIN_DUP 0) rfl)
  have all := step.next (Hub.alike_creditBack _ (some p) q)
  refine does_packetReceived awake received ⟨?_, all.fab (by simp), by simpa using Hub.of_blot all.blot⟩
  rw [(Hub.alike_creditBack _ (some p) q).get _ rfl, Hub.get_bump_self _ _ rfl, (Hub.alike_taken h p q).get _ (by cases p <;> rfl)]

end

end Sys2Proof.Machine
end

section
/-! SUPPORT. An arrival that a receive check refuses (O13): outside service, poisoned, damaged, out of order, with a bad
header (R79, R82, R84). -/

open Sys2Proof Sys2Proof.Machine

namespace Sys2Proof.Machine

section
variable {h : Hub} {p : Port} {w : Wire} {q : Packet}

/-- A counter of a whole word stands one higher, or at its top. -/
theorem Hub.get_bump_word (h : Hub) {f : RF} (ok : f.ok = true) (wide : f.width = 32) :
    (h.bump f).get f = min (2 ^ 32 - 1) (h.get f + 1) := by rw [Hub.get_bump_self _ _ ok, wide]

/-! ### Outside service -/

theorem becomes_packetReceived_outside (awake : h.awake = true) (out : h.inService p = false)
    (assign : h.lstate p ≠ stOpenEnd ∨ h.goodPacket p w = none) :
    becomes (.packetReceived p w none) h (h.bump (R.LNK_DISCARD p.ix)) := by
  refine becomes_packetReceived awake ((Hub.packetReceived_outside none out).trans ?_)
  rw [Hub.outOfService]
  rcases assign with other | bad
  · simp [other]
  · simp [bad]

/-- An ASSIGN at an open end is a header error (R477). -/
theorem becomes_packetReceived_openEnd (awake : h.awake = true) (openEnd : h.lstate p = stOpenEnd)
    (good : h.goodPacket p w = some q) (kind : q.kind = 7) (op : q.aux % 16 = 1) :
    becomes (.packetReceived p w none) h (h.countHdrErr p 0) := by
  have out : h.inService p = false := by rw [Hub.inService, openEnd]; rfl
  refine becomes_packetReceived awake ((Hub.packetReceived_outside none out).trans ?_)
  simp [Hub.outOfService, openEnd, good, kind, op]

/-! ### What a discarded arrival leaves -/

theorem Hub.dropArrival_none (h : Hub) (p : Port) (w : Wire) : h.dropArrival p w none = h.creditSeen p w := by
  unfold Hub.dropArrival
  simp only [Hub.poisonCut]
  split <;> rfl

theorem Hub.alike_creditSeen (h : Hub) (p : Port) (w : Wire) : h.Alike [] [.links] (h.creditSeen p w) := by
  unfold Hub.creditSeen
  split
  · exact Hub.alike_credit ..
  · exact .refl _ _ h

theorem Hub.creditSeen_nakOut (h : Hub) (p : Port) (w : Wire) : ((h.creditSeen p w).links.at p).nakOut = (h.links.at p).nakOut := by
  unfold Hub.creditSeen
  split
  · rw [Hub.credit, Hub.onLink_links_at]
  · rfl

theorem does_packetReceived_poisoned (awake : h.awake = true) (in_ : h.inService p = true) (poisoned : w.poisoned = true) :
    does (.packetReceived p w none) h (fun t =>
      t.get (R.LNK_POISON_RX p.ix) = min (2 ^ 32 - 1) (h.get (R.LNK_POISON_RX p.ix) + 1) ∧ (t.links.at p).pktBad = false
        ∧ t.fab.pkts = h.fab.pkts
        ∧ t = { h with regs := t.regs, free := t.free, out := t.out, links := t.links, rt := t.rt, err := t.err, fab := t.fab }) := by
  have counted := Hub.get_bump_word h (f := R.LNK_POISON_RX p.ix) rfl rfl
  have step := (((Hub.alike_bump h (R.LNK_POISON_RX p.ix) rfl).mono (gs := [R.LNK_POISON_RX p.ix])
    (T := [.regs, .free, .out, .links, .rt, .err, .fab])).next (Hub.alike_creditSeen _ p w)).next
      (Hub.alike_onLink _ p (fun l => { l with pktBad := false }))
  have fab := ((Hub.alike_creditSeen (h.bump (R.LNK_POISON_RX p.ix)) p w).next
    (Hub.alike_onLink _ p (fun l => { l with pktBad := false }))).fab (by simp)
  have received := Hub.packetReceived_poisoned none in_ poisoned
  rw [Hub.dropArrival_none] at received
  refine does_packetReceived awake received ⟨?_, by rw [Hub.onLink_links_at], by rw [fab, Hub.bump_fab], by simpa using Hub.of_blot step.blot⟩
  rw [Hub.onLink_get, (Hub.alike_creditSeen _ p w).get _ (by cases p <;> rfl)]
  exact counted

/-! ### ACK and NAK -/

theorem Hub.Alike.silent {fs : List RF} {S : List Part} {t : Hub} (a : h.Alike fs S t) (off : R.CLK_STATUS_MODE.off fs = true) :
    t.silent = h.silent := by rw [Hub.silent, Hub.clkMode, a.get _ off, Hub.silent, Hub.clkMode]

theorem Hub.Alike.lastGood {fs : List RF} {S : List Part} {t : Hub} (a : h.Alike fs S t)
    (off : (R.LNK_RX_SEQ_EXPECTED p.ix).off fs = true) : t.lastGood p = h.lastGood p := by
  rw [Hub.lastGood, a.get _ off, Hub.lastGood]

/-- An ACK leaves, after what ends Lull (R82). -/
theorem Hub.ackNow_head (loud : h.silent = false) : (h.ackNow p).out.head? = some (.lc p (lcWord 1 (h.lastGood p))) := by
  rw [Hub.ackNow, if_neg (by simp [loud])]
  rfl

/-- The first NAK of a gap leaves (R84). -/
theorem Hub.sendNak_first (loud : h.silent = false) (first : (h.links.at p).nakOut = false) :
    (h.sendNak p).out.head? = some (.lc p (lcWord 2 (h.lastGood p))) ∧ ((h.sendNak p).links.at p).nakOut = true := by
  rw [Hub.sendNak, if_neg (by simp [first]), Hub.nakNow, if_neg (by simp [loud])]
  refine ⟨rfl, ?_⟩
  rw [Hub.bump_links, Hub.onLink_links_at]

theorem does_packetReceived_bad (awake : h.awake = true) (in_ : h.inService p = true) (loud : h.silent = false)
    (clean : w.poisoned = false) (bad : h.goodPacket p w = none) (first : (h.links.at p).nakOut = false) :
    does (.packetReceived p w none) h (fun t =>
      t.get (R.LNK_CRC_ERR p.ix) = min (2 ^ 32 - 1) (h.get (R.LNK_CRC_ERR p.ix) + 1) ∧ (t.links.at p).nakOut = true
        ∧ t.get (R.LNK_RX_SEQ_EXPECTED p.ix) = h.get (R.LNK_RX_SEQ_EXPECTED p.ix)
        ∧ t = { h with regs := t.regs, free := t.free, out := t.out, links := t.links, rt := t.rt, err := t.err, fab := t.fab }) := by
  have counted := Hub.get_bump_word h (f := R.LNK_CRC_ERR p.ix) rfl rfl
  have bumped := Hub.alike_bump h (R.LNK_CRC_ERR p.ix) rfl
  have logged := Hub.logOnly_lnkLogLim (h := h.bump (R.LNK_CRC_ERR p.ix))
    (by rw [Hub.bump_pw]; exact Hub.steep_of_awake awake) p 0x09 0 0
    ((h.bump (R.LNK_CRC_ERR p.ix)).get (R.LNK_CRC_ERR p.ix))
  have received := Hub.packetReceived_bad none in_ clean bad
  rw [Hub.dropArrival_none] at received
  generalize (h.bump (R.LNK_CRC_ERR p.ix)).lnkLogLim p 0x09 0 0 _ = u at *
  have credited := Hub.alike_creditSeen u p w
  have before := ((bumped.mono (gs := R.LNK_CRC_ERR p.ix :: lcFields p) (T := [.regs, .free, .out, .links, .rt, .err, .fab])).next
    logged).next credited
  have open_ : ((u.creditSeen p w).links.at p).nakOut = false := by
    rw [Hub.creditSeen_nakOut, logged.links (by simp), Hub.bump_links, first]
  have nak := (Hub.sendNak_first (h := u.creditSeen p w) (by rw [before.silent (by cases p <;> rfl), loud]) open_).2
  have crc : (u.creditSeen p w).get (R.LNK_CRC_ERR p.ix) = min (2 ^ 32 - 1) (h.get (R.LNK_CRC_ERR p.ix) + 1) := by
    rw [credited.get _ (by cases p <;> rfl), logged.get _ (by cases p <;> rfl)]; exact counted
  generalize u.creditSeen p w = v at *
  have sent := Hub.alike_sendNak v p
  have all := (before.next sent (List.subset_cons_self _ _)).next
    (Hub.alike_onLink _ p (fun l => { l with pktBad := false }))
  refine does_packetReceived awake received ⟨?_, ?_, all.get _ (by cases p <;> rfl), by simpa using Hub.of_blot all.blot⟩
  · rw [Hub.onLink_get, sent.get _ (by cases p <;> rfl), crc]
  · rw [Hub.onLink_links_at]; exact nak

/-- An old packet is discarded with an ACK (R79). -/
theorem does_packetReceived_old (awake : h.awake = true) (in_ : h.inService p = true) (loud : h.silent = false)
    (clean : w.poisoned = false) (good : h.goodPacket p w = some q) (cls : q.cls ≠ .P)
    (old : subMod 4096 q.lseq (h.get (R.LNK_RX_SEQ_EXPECTED p.ix)) = 4095) :
    does (.packetReceived p w none) h (fun t =>
      t.out.head? = some (.lc p (lcWord 1 (h.lastGood p))) ∧ t.fab.pkts = h.fab.pkts
        ∧ t = { h with regs := t.regs, free := t.free, out := t.out, links := t.links, rt := t.rt, err := t.err, fab := t.fab }) := by
  have received := Hub.packetReceived_unexpected none in_ clean good cls old (by decide)
  rw [if_pos (by decide), Hub.dropArrival_none] at received
  have credited := Hub.alike_creditSeen h p w
  have all := (credited.mono (gs := lullFields p) (T := [.regs, .free, .out, .links, .rt, .err, .fab])).next
    (Hub.alike_ackNow (h.creditSeen p w) p)
  have fab := ((credited.mono (gs := lullFields p) (T := [.regs, .out, .links])).next (Hub.alike_ackNow _ p)).fab (by simp)
  refine does_packetReceived awake received ⟨?_, by rw [fab], by simpa using Hub.of_blot all.blot⟩
  rw [Hub.ackNow_head (by rw [credited.silent rfl, loud]), credited.lastGood (by cases p <;> rfl)]

/-- A packet ahead of the expected one is discarded with a NAK (R79, R84). -/
theorem does_packetReceived_ahead (awake : h.awake = true) (in_ : h.inService p = true) (loud : h.silent = false)
    (clean : w.poisoned = false) (good : h.goodPacket p w = some q) (cls : q.cls ≠ .P)
    (ahead : subMod 4096 q.lseq (h.get (R.LNK_RX_SEQ_EXPECTED p.ix)) = 1) (first : (h.links.at p).nakOut = false) :
    does (.packetReceived p w none) h (fun t =>
      t.out.head? = some (.lc p (lcWord 2 (h.lastGood p))) ∧ (t.links.at p).nakOut = true ∧ t.fab.pkts = h.fab.pkts
        ∧ t = { h with regs := t.regs, free := t.free, out := t.out, links := t.links, rt := t.rt, err := t.err, fab := t.fab }) := by
  have received := Hub.packetReceived_unexpected none in_ clean good cls ahead (by decide)
  rw [if_neg (by decide), Hub.dropArrival_none] at received
  have credited := Hub.alike_creditSeen h p w
  have all := (credited.mono (gs := lcFields p) (T := [.regs, .free, .out, .links, .rt, .err, .fab])).next
    (Hub.alike_sendNak (h.creditSeen p w) p)
  have fab := ((credited.mono (gs := lcFields p) (T := [.regs, .out, .links])).next (Hub.alike_sendNak _ p)).fab (by simp)
  obtain ⟨head, nak⟩ := Hub.sendNak_first (h := h.creditSeen p w) (p := p) (by rw [credited.silent rfl, loud])
    (by rw [Hub.creditSeen_nakOut, first])
  refine does_packetReceived awake received ⟨?_, nak, by rw [fab], by simpa using Hub.of_blot all.blot⟩
  rw [head, credited.lastGood (by cases p <;> rfl)]

/-! ### A bad header -/

theorem does_packetReceived_headerBad (awake : h.awake = true) (in_ : h.inService p = true) (clean : w.poisoned = false)
    (good : h.goodPacket p w = some q) (cls : q.cls ≠ .P) (next : q.lseq = h.get (R.LNK_RX_SEQ_EXPECTED p.ix))
    (bad : h.headerBad q p = true) :
    does (.packetReceived p w none) h (fun t =>
      t.get (R.LNK_RX_SEQ_EXPECTED p.ix) = (q.lseq + 1) % 4096
        ∧ t.get (R.LNK_HDR_ERR p.ix) = min (2 ^ 32 - 1) (h.get (R.LNK_HDR_ERR p.ix) + 1) ∧ t.fab.pkts = h.fab.pkts
        ∧ t = { h with regs := t.regs, free := t.free, out := t.out, links := t.links, rt := t.rt, err := t.err, fab := t.fab }) := by
  have taken : h.taken p q = h.inOrder p := if_neg cls
  have received := (Hub.packetReceived_expected none in_ clean good (.inr next)).trans
    (Hub.acceptPacket_headerBad none w.early bad)
  rw [taken] at received
  have ordered := Hub.alike_inOrder h p
  have credited := Hub.alike_credit (h.inOrder p) p q.cls q.cells
  have before := (ordered.mono (gs := takenFields p) (T := [.regs, .out, .links])).next credited
  have up : ((h.inOrder p).credit p q.cls q.cells).pw.steep = false := by
    rw [before.pw (by simp)]; exact Hub.steep_of_awake awake
  have counted := Hub.alike_countHdrErr up p q.dest
  have all := (before.mono (gs := R.LNK_HDR_ERR p.ix :: takenFields p) (T := [.regs, .free, .out, .links, .rt, .err, .fab])).next counted
  have fab := (before.mono (gs := R.LNK_HDR_ERR p.ix :: takenFields p) (T := [.regs, .out, .links, .err])).next counted |>.fab (by simp)
  refine does_packetReceived awake received ⟨?_, ?_, by rw [fab], by simpa using Hub.of_blot all.blot⟩
  · rw [counted.get _ (by cases p <;> rfl), credited.get _ (by cases p <;> rfl), Hub.inOrder_expected, next]
  · have stands := Hub.get_bumpLog up (R.LNK_HDR_ERR p.ix) rfl (by cases p <;> rfl) p 0x0A sevCT q.dest
      ((((h.inOrder p).credit p q.cls q.cells).bump (R.LNK_HDR_ERR p.ix)).get (R.LNK_HDR_ERR p.ix))
    rw [show (R.LNK_HDR_ERR p.ix).width = 32 from rfl] at stands
    rw [Hub.countHdrErr, stands, before.get _ (by cases p <;> rfl)]

end

end Sys2Proof.Machine
end

section
/-! SUPPORT. Route entries and their holds (O13): what a write leaves, and when a hold lets go (R101, R102, R106). -/

open Sys2Proof Sys2Proof.Machine

namespace Sys2Proof.Machine

/-! ### Time quality -/

theorem Hub.ball_rd (h : Hub) (t : Tx) (a : Nat) : (h.ball t).rd a = h.rd a := by
  unfold Hub.ball
  split <;> rfl

theorem Hub.evoRefresh_rd (h : Hub) (n : Nat) {a : Nat} (ne : a ≠ A.TIME_EVO_STATUS n) : (h.evoRefresh n).rd a = h.rd a := by
  have puts (x y : Nat) : ((h.put (R.TIME_EVO_STATUS_GATED n) x).put (R.TIME_EVO_STATUS_ACTIVE n) y).rd a = h.rd a :=
    (Hub.rd_put_of_ne _ _ _ ne).trans (Hub.rd_put_of_ne _ _ _ ne)
  unfold Hub.evoRefresh
  simp only []
  split
  · exact puts _ _
  · rw [Hub.ball_rd]; exact puts _ _

/-- A word outside the slot of time is as before when the quality follows the clock. -/
theorem Hub.refreshQuality_rd (h : Hub) {a : Nat} (slot : 0xC000 ≤ a) : h.refreshQuality.rd a = h.rd a := by
  have outputs (x : Hub) (l : List Nat) (few : ∀ n ∈ l, n < 8) : (l.foldl Hub.evoRefresh x).rd a = x.rd a := by
    induction l generalizing x with
    | nil => rfl
    | cons n t ih =>
      have := few n (by simp)
      rw [List.foldl_cons, ih _ fun m mem => few m (List.mem_cons_of_mem _ mem),
        Hub.evoRefresh_rd _ _ (by simp only [A.TIME_EVO_STATUS]; omega)]
  unfold Hub.refreshQuality
  split
  · rfl
  · rw [outputs _ _ (by decide), Hub.latchAll_rd, Hub.rd_put_of_ne _ _ _ (by simp only [R.TIME_STATUS_QUALITY, A.TIME_STATUS]; omega)]

theorem Hub.refreshQuality_same {h : Hub} (same : h.get R.TIME_STATUS_QUALITY = h.qualityNow) : h.refreshQuality = h := by
  rw [Hub.refreshQuality, if_pos same]

/-- A field outside an entry's word. -/
theorem Hub.get_wr_route (h : Hub) (a : Nat) (v : Word) {g : RF} (ne : g.addr ≠ A.LNK_ROUTE 0 a) :
    (h.wr (A.LNK_ROUTE 0 a) v).get g = h.get g := Hub.get_wr_of_ne _ _ _ _ ne

/-- The quality the clock stands for hangs on route entry 0 only (R118, R127). -/
theorem Hub.qualityNow_wr_route (h : Hub) {a : Nat} (v : Word) (pos : 0 < a) (few : a ≤ 64) :
    (h.wr (A.LNK_ROUTE 0 a) v).qualityNow = h.qualityNow := by
  have low {g : RF} (slot : g.addr < 0x38400) : (h.wr (A.LNK_ROUTE 0 a) v).get g = h.get g :=
    Hub.get_wr_route h a v (by simp only [A.LNK_ROUTE]; omega)
  have zero {g : RF} (addr : g.addr = A.LNK_ROUTE 0 0) : (h.wr (A.LNK_ROUTE 0 a) v).get g = h.get g :=
    Hub.get_wr_route h a v (by simp only [addr, A.LNK_ROUTE]; omega)
  have partner : (h.wr (A.LNK_ROUTE 0 a) v).get (R.LNK_STATUS_PARTNER 1) = h.get (R.LNK_STATUS_PARTNER 1) :=
    Hub.get_wr_route h a v (by simp only [R.LNK_STATUS_PARTNER, A.LNK_STATUS, A.LNK_ROUTE]; omega)
  have sel : (h.wr (A.LNK_ROUTE 0 a) v).selPort = h.selPort := by unfold Hub.selPort; rw [low (by decide)]
  have spur : (h.wr (A.LNK_ROUTE 0 a) v).isSpur = h.isSpur := by unfold Hub.isSpur Hub.on; rw [low (by decide), partner]
  have entry : (h.wr (A.LNK_ROUTE 0 a) v).entryPort 0 = h.entryPort 0 := by
    unfold Hub.entryPort Hub.on
    rw [zero (g := R.LNK_ROUTE_VALID 0 0) rfl, zero (g := R.LNK_ROUTE_PORT 0 0) rfl]
  have pref : (h.wr (A.LNK_ROUTE 0 a) v).preferred = h.preferred := by
    unfold Hub.preferred
    rw [spur, entry, low (by decide)]
  have mode : (h.wr (A.LNK_ROUTE 0 a) v).clkMode = h.clkMode := low (by decide)
  unfold Hub.qualityNow
  rw [sel, mode, pref, Hub.wr_tm]

/-! ### A route entry -/

/-- Bits above 5 of an entry stay zero (R101). -/
theorem entry_bits (v : Word) : W (v.toNat % 64) = v &&& 0x3F#32 := by
  apply BitVec.eq_of_toNat_eq
  have low : v.toNat % 64 < 2 ^ 32 := by omega
  rw [toNat_W low, BitVec.toNat_and]
  exact (Nat.and_two_pow_sub_one_eq_mod v.toNat 6).symm

theorem bit_eq_getLsbD (v : Word) (i : Nat) : bit v.toNat i = v.getLsbD i := by
  rw [BitVec.getLsbD, Nat.testBit_eq_decide_div_mod_eq, bit]
  rfl

/-- Whether the write of an entry begins a hold (R102): HOLD, and a PORT changed over an entry in use. -/
def Hub.holdsAt (h : Hub) (a : Nat) (v : Word) : Option Port :=
  (h.entryPort a).filter (fun q => v.getLsbD 5 && slice v.toNat 0 2 != q.code)

theorem Port.code_of_ofCode {c : Nat} {q : Port} (e : Port.ofCode c = some q) : q.code = c := by
  unfold Port.ofCode at e
  split at e <;> cases e <;> rfl

/-- What the write of an entry does: the entry is written whole, and a hold begins where one does (R101, R102). -/
theorem Hub.routeWrite_eq (h : Hub) {a : Nat} (few : a ≤ 64) (v : Word) :
    h.routeWrite a v = match h.holdsAt a v with
      | some q => (h.wr (A.LNK_ROUTE 0 a) (v &&& 0x3F#32)).startHold a q
      | none => h.wr (A.LNK_ROUTE 0 a) (v &&& 0x3F#32) := by
  have valid : h.on (R.LNK_ROUTE_VALID 0 a) = bit (h.rd (A.LNK_ROUTE 0 a)).toNat 2 := rfl
  have port : h.get (R.LNK_ROUTE_PORT 0 a) = slice (h.rd (A.LNK_ROUTE 0 a)).toNat 0 2 := rfl
  unfold Hub.routeWrite Hub.holdsAt Hub.entryPort
  rw [if_pos few]
  simp only [entry_bits, valid, port, ← bit_eq_getLsbD]
  generalize (h.rd (A.LNK_ROUTE 0 a)).toNat = old
  cases named : Port.ofCode (slice old 0 2) with
  | none => cases bit old 2 <;> rfl
  | some q =>
    rw [← Port.code_of_ofCode named]
    cases bit old 2 <;> cases bit v.toNat 5 <;> cases changed : slice v.toNat 0 2 != q.code <;>
      simp [Option.filter, changed]

theorem Hub.routeWrite_rd (h : Hub) {a : Nat} (few : a ≤ 64) (v : Word) :
    (h.routeWrite a v).rd (A.LNK_ROUTE 0 a) = v &&& 0x3F#32 := by
  rw [Hub.routeWrite_eq h few]
  split <;> exact Hub.rd_wr_self ..

theorem Hub.routeWrite_blot {S : List Part} (h : Hub) {a : Nat} (few : a ≤ 64) (v : Word) (regs : Part.regs ∈ S) (rt : Part.rt ∈ S) :
    (h.routeWrite a v).blot S = h.blot S := by
  rw [Hub.routeWrite_eq h few]
  split
  · exact (Hub.rt_replaced _ _ rt).trans (Hub.wr_blot _ _ _ regs)
  · exact Hub.wr_blot _ _ _ regs

/-- Entries 65 to 127 stay zero (R106). -/
theorem Hub.routeWrite_high (h : Hub) {a : Nat} (high : 64 < a) (v : Word) : h.routeWrite a v = h := by
  rw [Hub.routeWrite, if_neg (by omega)]

section
variable {h : Hub} {a : Fin 128} {v : Word}

/-- What ROUTE_ENTRY_WRITE does to a running hub. -/
theorem becomes_routeEntryWrite {t : Hub} (awake : h.awake = true) (e : (h.routeWrite a v).refreshQuality = t) :
    becomes (.routeEntryWrite a v) h t := e ▸ becomes_of_upd (f := fun h => h.routeEntryWrite a v) awake (fun _ => rfl)

theorem does_routeEntryWrite (awake : h.awake = true) (few : a.val ≤ 64) :
    does (.routeEntryWrite a v) h (fun t => t.rd (A.LNK_ROUTE 0 a) = v &&& 0x3F#32
      ∧ t = { h with regs := t.regs, out := t.out, rt := t.rt, tm := t.tm, tun := t.tun }) := by
  refine ⟨_, ⟨?_, ?_⟩, becomes_routeEntryWrite awake rfl⟩
  · rw [Hub.refreshQuality_rd _ (by simp only [A.LNK_ROUTE]; omega), Hub.routeWrite_rd h few]
  · simpa using Hub.of_blot (S := [.regs, .out, .rt, .tm, .tun])
      ((Hub.refreshQuality_blot _ (by simp) (by simp) (by simp)).trans (Hub.routeWrite_blot h few v (by simp) (by simp)))

theorem becomes_routeEntryWrite_plain (awake : h.awake = true) (pos : 0 < a.val) (few : a.val ≤ 64) (free : v.getLsbD 5 = false)
    (same : h.get R.TIME_STATUS_QUALITY = h.qualityNow) :
    becomes (.routeEntryWrite a v) h (h.wr (A.LNK_ROUTE 0 a) (v &&& 0x3F#32)) := by
  have none_ : h.holdsAt a v = none := by
    simp only [Hub.holdsAt, free, Bool.false_and]
    cases h.entryPort a <;> rfl
  refine becomes_routeEntryWrite awake ?_
  rw [Hub.routeWrite_eq h few, none_]
  refine Hub.refreshQuality_same ?_
  rw [Hub.qualityNow_wr_route h _ pos few, Hub.get_wr_route _ _ _ (by simp only [R.TIME_STATUS_QUALITY, A.TIME_STATUS, A.LNK_ROUTE]; omega),
    same]

theorem does_routeEntryWrite_hold {q : Port} (awake : h.awake = true) (few : a.val ≤ 64) (hold : v.getLsbD 5 = true)
    (entry : h.entryPort a = some q) (changed : slice v.toNat 0 2 ≠ q.code) :
    does (.routeEntryWrite a v) h (fun t => ∃ x, KMap.get? t.rt.holds a = some x ∧ x.old.getLast? = some q) := by
  have begins : h.holdsAt a v = some q := by simp [Hub.holdsAt, entry, hold, changed]
  refine ⟨_, ?_, becomes_routeEntryWrite awake rfl⟩
  have rt : ((h.routeWrite a v).refreshQuality).rt = (h.routeWrite a v).rt := by
    simpa [Hub.blot] using congrArg Hub.rt (Hub.refreshQuality_blot (S := [.regs, .out, .tun]) (h.routeWrite a v) (by simp) (by simp) (by simp))
  beta_reduce
  rw [rt, Hub.routeWrite_eq h few, begins]
  exact ⟨_, KMap.get?_put_self .., by simp⟩

theorem becomes_routeEntryWrite_high (awake : h.awake = true) (high : 64 < a.val)
    (same : h.get R.TIME_STATUS_QUALITY = h.qualityNow) : becomes (.routeEntryWrite a v) h h :=
  becomes_routeEntryWrite awake ((congrArg Hub.refreshQuality (Hub.routeWrite_high h high v)).trans (Hub.refreshQuality_same same))

/-! ### The end of a hold -/

/-- What ROUTE_HOLD_RELEASE does to a running hub. -/
theorem becomes_routeHoldRelease {t : Hub} (awake : h.awake = true) (e : h.holdRelease a = t) :
    becomes (.routeHoldRelease a) h t := e ▸ becomes_of_upd (f := fun h => h.holdRelease a) awake (fun _ => rfl)

theorem Hub.holdRelease_drained {x : Hold} (rebuild : h.on R.FAB_STATUS_REBUILD = false) (hold : KMap.get? h.rt.holds a = some x)
    (drained : x.old.any (fun q => h.queuedFor q.ix a) = false) :
    h.holdRelease a = x.pkts.foldl Hub.releaseHeld { h with rt := { h.rt with holds := KMap.del h.rt.holds a } } := by
  unfold Hub.holdRelease
  simp only [hold, drained, rebuild, Bool.or_self, Bool.false_eq_true, if_false]

theorem Hub.holdRelease_rebuild (rebuild : h.on R.FAB_STATUS_REBUILD = true) : h.holdRelease a = h := by
  unfold Hub.holdRelease
  cases hold : KMap.get? h.rt.holds a with
  | none => rfl
  | some x => simp only [rebuild, Bool.or_true, if_true]

theorem Hub.holdRelease_none (none_ : KMap.get? h.rt.holds a = none) : h.holdRelease a = h := by
  unfold Hub.holdRelease
  simp only [none_]

end

end Sys2Proof.Machine
end

section
/-! SUPPORT. LINK_DOWN (O13, R99): the loss counted and logged once, the replay buffer emptied, the queues moved or let go. -/

open Sys2Proof Sys2Proof.Machine

namespace Sys2Proof.Machine

/-! ### The release of a packet -/

theorem Hub.alike_leaveBytes (h : Hub) (cs : List Nat) (bs : List Byte) : h.Alike [] [.mem] (h.leaveBytes cs bs) := by
  have blot := Hub.leaveBytes_blot (S := [.mem]) h cs bs (by simp)
  exact ⟨fun g _ => Hub.get_of_regs (by simpa [Hub.blot] using congrArg Hub.regs blot) g, blot⟩

theorem Hub.alike_freePkt (h : Hub) (pid : Nat) : h.Alike [] [.mem, .fab, .links] (h.freePkt pid) := by
  unfold Hub.freePkt
  split
  · exact .refl _ _ h
  · rename_i s _
    have left := ((Hub.alike_leaveBytes h s.cells s.bytes).mono (gs := []) (T := [.mem, .fab, .links])).next
      (Hub.alike_onFab _ (fun f => { f with pkts := KMap.del f.pkts pid }))
    simp only []
    split
    · exact left.next (Hub.alike_credit ..)
    · exact left

theorem Hub.alike_release (h : Hub) (pid : Nat) : h.Alike [] [.mem, .fab, .links] (h.release pid) := by
  unfold Hub.release
  split
  · exact .refl _ _ h
  · exact (Hub.alike_freePkt ..).ite (Hub.alike_onFab ..).mono

/-! ### What a port holds for replay -/

/-- What a link port keeps of a session that was lost: the mark, the packets held, those still to be replayed. -/
def Hub.session (h : Hub) (p : Port) : Bool × List Packet × List Packet :=
  ((h.links.at p).lost, (h.links.at p).replay, (h.links.at p).rq)

theorem Hub.session_of_links {h t : Hub} (e : t.links = h.links) (p : Port) : t.session p = h.session p := by
  rw [Hub.session, e, Hub.session]

theorem Hub.Alike.session {fs : List RF} {S : List Part} {h t : Hub} (a : h.Alike fs S t) (out : Part.links ∉ S) (p : Port) :
    t.session p = h.session p := Hub.session_of_links (a.links out) p

theorem Hub.credit_session (h : Hub) (o p : Port) (c : Cls) (n : Nat) : (h.credit o c n).session p = h.session p := by
  simp only [Hub.session, Hub.credit, Hub.onLink, PerPort.at_set]
  split
  next same => rw [same]
  next => rfl

theorem Hub.release_session (h : Hub) (pid : Nat) (p : Port) : (h.release pid).session p = h.session p := by
  unfold Hub.release
  split
  · rfl
  · split
    · unfold Hub.freePkt
      split
      · rfl
      · rename_i s _
        have left := ((Hub.alike_leaveBytes h s.cells s.bytes).mono (gs := []) (T := [.mem, .fab])).next
          (Hub.alike_onFab _ (fun f => { f with pkts := KMap.del f.pkts pid }))
        have same := left.session (by simp) p
        simp only []
        split
        · rw [Hub.credit_session]; exact same
        · exact same
    · rfl

/-! ### The packets of a port that is down -/

/-- The counters that the wrap of a port's traffic advances (R99, R96). -/
def wrapFields (p : Port) : List RF := [R.LNK_WRAPPED p.ix, R.LNK_WRAP_DROP p.ix, R.LNK_P_COPY_DROP p.ix]

theorem Hub.alike_wrapReplay {h : Hub} (up : h.pw.steep = false) (p : Port) (orig : KMap Nat) (held : List Packet) :
    h.Alike (wrapFields p) [.regs, .err, .fab, .tun] (h.wrapReplay p orig held) := by
  induction held generalizing h with
  | nil => exact .refl _ _ h
  | cons q rest ih =>
    have next {u : Hub} (step : h.Alike (wrapFields p) [.regs, .err, .fab, .tun] u) :=
      step.trans (ih (h := u) ((step.pw (by simp)).symm ▸ up))
    rw [Hub.wrapReplay]
    split
    · have counted := (Hub.alike_bump h (R.LNK_WRAPPED p.ix) rfl).mono (gs := wrapFields p) (T := [.regs, .err, .fab, .tun])
        (by simp [wrapFields])
      exact next (counted.next (Hub.alike_enqueue ((counted.pw (by simp)).symm ▸ up) ..))
    · exact next ((Hub.alike_countWrapDrop up ..).mono (by simp [wrapFields]))

/-- What the wrap of queued traffic reaches. -/
def wrapParts : List Part := [.regs, .mem, .links, .err, .fab]

theorem Hub.alike_wrapDesc {h : Hub} (up : h.pw.steep = false) (p : Port) (q : Nat) (d : Desc) :
    h.Alike (wrapFields p) wrapParts (h.wrapDesc p q d) ∧ (h.wrapDesc p q d).session p = h.session p := by
  unfold Hub.wrapDesc
  split
  · exact ⟨.refl _ _ h, rfl⟩
  · rename_i k _
    split
    · have counted := Hub.alike_bump h (R.LNK_P_COPY_DROP p.ix) rfl
      exact ⟨(counted.mono (by simp [wrapFields]) (by simp [wrapParts])).next (Hub.alike_release ..) (by simp) (by simp [wrapParts]),
        (Hub.release_session ..).trans (counted.session (by simp) p)⟩
    · split
      · have moved := ((Hub.alike_bump h (R.LNK_WRAPPED p.ix) rfl).mono (gs := wrapFields p) (T := [.regs, .fab])
          (by simp [wrapFields])).next (Hub.alike_push _ p.other.ix q { d with wrap := true })
        exact ⟨moved.mono (by simp) (by simp [wrapParts]), moved.session (by simp) p⟩
      · have counted := Hub.alike_countWrapDrop up p k.dest
        exact ⟨(counted.mono (by simp [wrapFields]) (by simp [wrapParts])).next (Hub.alike_release ..) (by simp) (by simp [wrapParts]),
          (Hub.release_session ..).trans (counted.session (by simp) p)⟩

theorem Hub.alike_wrapDescs {h : Hub} (up : h.pw.steep = false) (p : Port) (q : Nat) (ds : List Desc) :
    h.Alike (wrapFields p) wrapParts (ds.foldl (fun h d => h.wrapDesc p q d) h)
      ∧ (ds.foldl (fun h d => h.wrapDesc p q d) h).session p = h.session p := by
  induction ds generalizing h with
  | nil => exact ⟨.refl _ _ h, rfl⟩
  | cons d ds ih =>
    obtain ⟨step, same⟩ := Hub.alike_wrapDesc up p q d
    obtain ⟨rest, kept⟩ := ih (h := h.wrapDesc p q d) ((step.pw (by decide)).symm ▸ up)
    exact ⟨step.trans rest, kept.trans same⟩

theorem Hub.alike_wrapQueues {h : Hub} (up : h.pw.steep = false) (p : Port) (qs : List Nat) :
    h.Alike (wrapFields p) wrapParts (h.wrapQueues p qs) ∧ (h.wrapQueues p qs).session p = h.session p := by
  induction qs generalizing h with
  | nil => exact ⟨.refl _ _ h, rfl⟩
  | cons q qs ih =>
    have emptied : h.Alike [] [.fab] (h.setQueue p.ix q { h.queue p.ix q with items := [] }) := Hub.alike_onFab ..
    obtain ⟨moved, same⟩ := Hub.alike_wrapDescs ((emptied.pw (by simp)).symm ▸ up) p q (h.queue p.ix q).items
    have step := (emptied.mono (gs := wrapFields p) (T := wrapParts) (by simp) (by simp [wrapParts])).trans moved
    obtain ⟨rest, kept⟩ := ih ((step.pw (by decide)).symm ▸ up)
    rw [Hub.wrapQueues]
    exact ⟨step.trans rest, kept.trans (same.trans (emptied.session (by simp) p))⟩

/-! ### LINK_DOWN -/

/-- The loss of a link counted and logged, its session forgotten (R99). -/
def Hub.loseLink (h : Hub) (p : Port) : Hub :=
  let h := (h.onLink p (fun l => { l with lost := false, replay := [], rq := [], orig := [], noProg := 0 })).bump
    (R.LNK_DOWN_CNT p.ix)
  let h := h.logBy (14 + p.ix) 0x06 sevDG 0 (h.rd (A.LNK_STATUS p.ix)).toNat (h.get (R.LNK_DOWN_CNT p.ix)) (.linkDown p)
  if h.canWrap p then h.latchAll evLink else h

/-- A port that has lost its link: the loss, then its replay buffer, then its queues (R99). -/
theorem Hub.linkDown_lost {h : Hub} {p : Port} (down : h.up p = false) (lost : (h.links.at p).lost = true) :
    h.linkDown p = ((h.loseLink p).wrapReplay p (h.links.at p).orig (h.links.at p).replay).wrapQueues p
      ((h.loseLink p).queueKeys p.ix) := by
  unfold Hub.linkDown
  simp only [down, lost, Bool.false_eq_true, if_false, if_true]
  rfl

theorem Hub.linkDown_up {h : Hub} {p : Port} (up : h.up p = true) (down : (h.retrain p).up p = false) :
    h.linkDown p = (h.retrain p).linkDown p := by
  unfold Hub.linkDown
  simp only [up, down, Bool.false_eq_true, if_false, if_true]

theorem Hub.alike_latchAll (h : Hub) (b : Nat) : h.Alike [] [.tun] (h.latchAll b) :=
  ⟨fun g _ => Hub.latchAll_get h b g, Hub.latchAll_blot _ _ (by simp)⟩

section
variable {h : Hub} {p : Port}

/-- What the loss of a link reaches, the events of the contexts apart. -/
theorem Hub.alike_loseLink (up : h.pw.steep = false) :
    h.Alike [R.LNK_DOWN_CNT p.ix] [.regs, .links, .err, .tun] (h.loseLink p) := by
  have counted := ((Hub.alike_onLink h p (fun l => { l with lost := false, replay := [], rq := [], orig := [], noProg := 0 })).mono
    (gs := [R.LNK_DOWN_CNT p.ix]) (T := [.regs, .links, .err, .tun])).next (Hub.alike_bump _ (R.LNK_DOWN_CNT p.ix) rfl)
  have logged := fun src code sev d0 d1 d2 b => counted.next (Hub.logOnly_logBy ((counted.pw (by simp)).symm ▸ up) src code sev d0 d1 d2 b)
  exact ((logged ..).next (Hub.alike_latchAll ..)).ite (logged ..)

theorem Hub.loseLink_session (up : h.pw.steep = false) : (h.loseLink p).session p = (false, [], []) := by
  unfold Hub.loseLink
  simp only []
  generalize e : (h.onLink p (fun l => { l with lost := false, replay := [], rq := [], orig := [], noProg := 0 })).bump
    (R.LNK_DOWN_CNT p.ix) = u
  have fresh : u.session p = (false, [], []) := by
    rw [← e, Hub.session, Hub.bump_links, Hub.onLink_links_at]
  have calm : u.pw.steep = false := by rw [← e, Hub.bump_pw, Hub.onLink_pw, up]
  have logged := (Hub.logOnly_logBy calm (14 + p.ix) 0x06 sevDG 0 (u.rd (A.LNK_STATUS p.ix)).toNat
    (u.get (R.LNK_DOWN_CNT p.ix)) (.linkDown p)).session (by simp) p
  split
  · exact ((Hub.alike_latchAll ..).session (by simp) p).trans (logged.trans fresh)
  · exact logged.trans fresh

theorem Hub.loseLink_count (up : h.pw.steep = false) :
    (h.loseLink p).get (R.LNK_DOWN_CNT p.ix) = min (2 ^ 32 - 1) (h.get (R.LNK_DOWN_CNT p.ix) + 1) := by
  unfold Hub.loseLink
  simp only []
  have counted := Hub.get_bump_word
    (h.onLink p (fun l => { l with lost := false, replay := [], rq := [], orig := [], noProg := 0 })) (f := R.LNK_DOWN_CNT p.ix) rfl rfl
  rw [Hub.onLink_get] at counted
  generalize e : (h.onLink p (fun l => { l with lost := false, replay := [], rq := [], orig := [], noProg := 0 })).bump
    (R.LNK_DOWN_CNT p.ix) = u at *
  have calm : u.pw.steep = false := by rw [← e, Hub.bump_pw, Hub.onLink_pw, up]
  have logged := (Hub.logOnly_logBy calm (14 + p.ix) 0x06 sevDG 0 (u.rd (A.LNK_STATUS p.ix)).toNat
    (u.get (R.LNK_DOWN_CNT p.ix)) (.linkDown p)).get (R.LNK_DOWN_CNT p.ix) (by cases p <;> rfl)
  split
  · rw [Hub.latchAll_get, logged, counted]
  · rw [logged, counted]

/-- What LINK_DOWN makes of a port whose loss is marked: the loss is counted once, the session is forgotten, and what it held
is moved or let go. -/
theorem Hub.linkDown_lost_does (calm : h.pw.steep = false) (down : h.up p = false) (lost : (h.links.at p).lost = true) :
    (h.linkDown p).session p = (false, [], [])
      ∧ (h.linkDown p).get (R.LNK_DOWN_CNT p.ix) = min (2 ^ 32 - 1) (h.get (R.LNK_DOWN_CNT p.ix) + 1)
      ∧ h.Alike (R.LNK_DOWN_CNT p.ix :: wrapFields p) [.regs, .mem, .links, .err, .fab, .tun] (h.linkDown p) := by
  rw [Hub.linkDown_lost down lost]
  have lose := Hub.alike_loseLink (p := p) calm
  have session := Hub.loseLink_session (p := p) calm
  have count := Hub.loseLink_count (p := p) calm
  generalize h.loseLink p = u at *
  have calm1 : u.pw.steep = false := (lose.pw (by simp)).symm ▸ calm
  have replay := Hub.alike_wrapReplay calm1 p (h.links.at p).orig (h.links.at p).replay
  have same := replay.session (by simp) p
  have kept := replay.get (R.LNK_DOWN_CNT p.ix) (by cases p <;> rfl)
  generalize u.wrapReplay p (h.links.at p).orig (h.links.at p).replay = v at *
  obtain ⟨queues, same'⟩ := Hub.alike_wrapQueues ((replay.pw (by simp)).symm ▸ calm1) p (u.queueKeys p.ix)
  refine ⟨same'.trans (same.trans session), ?_, ?_⟩
  · rw [queues.get _ (by cases p <;> rfl), kept, count]
  · exact ((lose.mono (gs := R.LNK_DOWN_CNT p.ix :: wrapFields p) (T := [.regs, .mem, .links, .err, .fab, .tun])).next replay).next
      queues (by simp) (by simp [wrapParts])

/-! ### The command -/

theorem becomes_linkDown {t : Hub} (awake : h.awake = true) (e : h.linkDown p = t) : becomes (.linkDown p) h t :=
  e ▸ becomes_of_upd (f := fun h => h.linkDown p) awake (fun _ => rfl)

theorem Hub.session_parts {t : Hub} (e : t.session p = (false, [], [])) :
    (t.links.at p).lost = false ∧ (t.links.at p).replay = [] ∧ (t.links.at p).rq = [] := by
  simpa [Hub.session] using e

theorem does_linkDown_lost (awake : h.awake = true) (down : h.up p = false) (lost : (h.links.at p).lost = true) :
    does (.linkDown p) h (fun t => (t.links.at p).lost = false ∧ (t.links.at p).replay = [] ∧ (t.links.at p).rq = []
      ∧ t.get (R.LNK_DOWN_CNT p.ix) = min (2 ^ 32 - 1) (h.get (R.LNK_DOWN_CNT p.ix) + 1)
      ∧ t = { h with regs := t.regs, mem := t.mem, free := t.free, out := t.out, links := t.links, rt := t.rt,
                      err := t.err, fab := t.fab, sch := t.sch, tm := t.tm, tun := t.tun }) := by
  obtain ⟨session, count, alike⟩ := Hub.linkDown_lost_does (Hub.steep_of_awake awake) down lost
  obtain ⟨unmarked, replay, rq⟩ := Hub.session_parts session
  refine ⟨_, ⟨unmarked, replay, rq, count, ?_⟩, becomes_linkDown awake rfl⟩
  simpa using Hub.of_blot (alike.mono (gs := R.LNK_DOWN_CNT p.ix :: wrapFields p)
    (T := [.regs, .mem, .free, .out, .links, .rt, .err, .fab, .sch, .tm, .tun])).blot

/-- A port that held nothing: the buffer and the queues are as before. -/
theorem does_linkDown_idle (awake : h.awake = true) (down : h.up p = false) (lost : (h.links.at p).lost = true)
    (held : (h.links.at p).replay = []) (queued : h.queueKeys p.ix = []) :
    does (.linkDown p) h (fun t => (t.links.at p).lost = false
      ∧ t.get (R.LNK_DOWN_CNT p.ix) = min (2 ^ 32 - 1) (h.get (R.LNK_DOWN_CNT p.ix) + 1)
      ∧ t = { h with regs := t.regs, mem := t.mem, free := t.free, out := t.out, links := t.links, err := t.err, tm := t.tm,
                      tun := t.tun }) := by
  have calm := Hub.steep_of_awake awake
  have lose := Hub.alike_loseLink (p := p) calm
  have keys : (h.loseLink p).queueKeys p.ix = [] := by rw [Hub.queueKeys, lose.fab (by simp)]; exact queued
  have done_ : h.linkDown p = h.loseLink p := by
    rw [Hub.linkDown_lost down lost, held, keys, Hub.wrapReplay, Hub.wrapQueues]
  obtain ⟨unmarked, _, _⟩ := Hub.session_parts (Hub.loseLink_session (p := p) calm)
  refine ⟨_, ⟨unmarked, Hub.loseLink_count calm, ?_⟩, becomes_linkDown awake done_⟩
  simpa using Hub.of_blot (lose.mono (gs := [R.LNK_DOWN_CNT p.ix]) (T := [.regs, .mem, .free, .out, .links, .err, .tm, .tun])).blot

/-- A port still in service stops service first. -/
theorem does_linkDown_up (awake : h.awake = true) (up : h.up p = true) (in_ : h.inService p = true) :
    does (.linkDown p) h (fun t => t.lstate p = stDetectRx ∧ t.up p = false ∧ (t.links.at p).lost = false
      ∧ (t.links.at p).replay = [] ∧ t.get (R.LNK_DOWN_CNT p.ix) = min (2 ^ 32 - 1) (h.get (R.LNK_DOWN_CNT p.ix) + 1)) := by
  obtain ⟨⟨state, fallen, _⟩, _, ⟨marked, _⟩, _⟩ := leavingService h p stDetectRx (by decide)
  have count : (h.retrain p).get (R.LNK_DOWN_CNT p.ix) = h.get (R.LNK_DOWN_CNT p.ix) := by
    rw [Hub.get, Hub.retrain, Hub.leaveService_rd _ _ _ (by cases p <;> decide) (by cases p <;> decide) (by cases p <;> decide)
      (by cases p <;> decide), Hub.get]
  have calm : (h.retrain p).pw.steep = false := by
    have pw : (h.retrain p).pw = h.pw := by rw [Hub.retrain, Hub.leaveService_frame]
    rw [pw]; exact Hub.steep_of_awake awake
  rw [in_, Bool.or_true] at marked
  obtain ⟨session, counted, alike⟩ := Hub.linkDown_lost_does (h := h.retrain p) calm fallen marked
  obtain ⟨unmarked, replay, _⟩ := Hub.session_parts session
  refine ⟨_, ⟨?_, ?_, unmarked, replay, counted.trans (by rw [count])⟩, becomes_linkDown awake (Hub.linkDown_up up fallen)⟩
  · exact (alike.get _ (by cases p <;> rfl)).trans state
  · rw [Hub.up, Hub.on, alike.get _ (by cases p <;> rfl)]; exact fallen

theorem becomes_linkDown_unmarked (awake : h.awake = true) (down : h.up p = false) (unmarked : (h.links.at p).lost = false) :
    becomes (.linkDown p) h h := by
  refine becomes_linkDown awake ?_
  unfold Hub.linkDown
  simp only [down, unmarked, Bool.false_eq_true, if_false]

end

end Sys2Proof.Machine
end

section
open Sys2Proof Sys2Proof.Machine

/-- Settles O13: each clause is the lemma about its command or its step of routing; they rest on what the receive checks, the
routing order, the buffer, the log and LINK_DOWN each leave alone. -/
theorem packetAndRouteCommands : Obligations.PacketAndRouteCommands := by
  intro h p awake
  refine ⟨?expected, ?inOrder, ?deliver, fun q => Hub.way_own _, fun q => Hub.way_broadcast _, fun o => rfl,
    fun q o => Hub.way_wrapped, fun q o => Hub.way_continued, fun q e w => Hub.way_launched, fun q o => Hub.way_launched_port,
    fun q o => Hub.way_entry, fun q o => Hub.way_enumeration, fun q => Hub.way_none, fun q => h.admitTest_arrival q p,
    fun q => h.admitTest_further q p, fun q t a => h.admitTest_own q t, fun q t => h.admitTest_no_cells q t,
    fun w q a y routes _ => does_packetReceived_held awake routes, fun w q o e routes _ => does_packetReceived_out awake routes,
    fun w q o e routes _ => does_packetReceived_wrapped awake routes, fun w q o routes _ => does_packetReceived_wrapDrop awake routes,
    fun w q routes _ => does_packetReceived_noRoute awake routes, fun w q o e routes _ => does_packetReceived_copyDrop awake routes,
    fun w q o e c routes _ => does_packetReceived_limit awake routes, fun w q n => does_packetReceived_bcast awake, h.bcastPorts_contains p,
    fun w q n => does_packetReceived_duplicate awake, fun w => becomes_packetReceived_outside awake,
    fun w q => becomes_packetReceived_openEnd awake, fun w => does_packetReceived_poisoned awake,
    fun w => does_packetReceived_bad awake, fun w q => does_packetReceived_old awake, fun w q => does_packetReceived_ahead awake,
    fun w q => does_packetReceived_headerBad awake, does_linkDown_lost awake, ?idle, does_linkDown_up awake,
    becomes_linkDown_unmarked awake, fun a v => does_routeEntryWrite awake, fun a v => becomes_routeEntryWrite_plain awake,
    fun a v q => does_routeEntryWrite_hold awake, fun a v => becomes_routeEntryWrite_high awake, ?drained, ?rebuild, ?none_⟩
  case expected =>
    exact fun w cut q in_ clean good next => becomes_packetReceived awake (Hub.packetReceived_expected cut in_ clean good next)
  case inOrder =>
    intro w q in_ clean good cls next header hops own rebuild
    have taken : h.taken p q = h.inOrder p := if_neg cls
    have received := Hub.packetReceived_routes (w := w) none ⟨in_, clean, good, .inr next, header, hops, own, rebuild⟩
    exact ⟨becomes_packetReceived awake (taken ▸ received), by rw [Hub.inOrder_expected, next]⟩
  case deliver => exact fun w q n o pid => becomes_packetReceived_deliver awake
  case idle => exact fun down lost held queued _ => does_linkDown_idle awake down lost held queued
  case drained =>
    exact fun a x rebuild hold drained => becomes_routeHoldRelease awake (Hub.holdRelease_drained rebuild hold drained)
  case rebuild => exact fun a rebuild => becomes_routeHoldRelease awake (Hub.holdRelease_rebuild rebuild)
  case none_ => exact fun a none_ => becomes_routeHoldRelease awake (Hub.holdRelease_none none_)

end

end

section
/-! SUPPORT. Link control, replay and credits (O12): what leaves, what frees and replays held packets, and what a CREDIT sets
(R80–R90). -/

open Sys2Proof Sys2Proof.Machine

namespace Sys2Proof.Machine

section
variable {h : Hub} {p : Port}

/-! ### Completions through what an operation comes to -/

theorem becomes_of_eq {c : Instr} {f : Hub → Hub} {t : Hub} (awake : h.awake = true) (e : f h = t)
    (row : ∀ s, exec c s = s.upd f) : becomes c h t := e ▸ becomes_of_upd awake row

theorem does_of_eq {c : Instr} {f : Hub → Hub} {t : Hub} {P : Hub → Prop} (awake : h.awake = true) (e : f h = t)
    (row : ∀ s, exec c s = s.upd f) (holds : P t) : does c h P := ⟨t, holds, becomes_of_eq awake e row⟩

/-! ### Frames -/

/-- Where registers and links alone differ, a hub is the other with these replaced. -/
theorem Hub.of_alike_links {fs : List RF} {t : Hub} (alike : h.Alike fs [.regs, .links] t) :
    t = { h with regs := t.regs, links := t.links } := by simpa using Hub.of_blot alike.blot

/-- The frame that the loss of a link would fill, of which a replay fills these two parts. -/
theorem Hub.of_alike_links_wide {fs : List RF} {t : Hub} (alike : h.Alike fs [.regs, .links] t) :
    t = { h with regs := t.regs, out := t.out, links := t.links, err := t.err, tm := t.tm, tun := t.tun } := by
  simpa using Hub.of_blot (alike.mono (gs := fs) (T := [.regs, .out, .links, .err, .tm, .tun])).blot

/-! ### Link-control words in and out of service (R55, R80) -/

theorem Hub.lcOnly_inService (f : Hub → Hub) (in_ : h.inService p = true) : h.lcOnly p f = f h := if_pos in_

theorem Hub.lcOnly_outside (f : Hub → Hub) (out : h.inService p = false) : h.lcOnly p f = h.bump (R.LNK_DISCARD p.ix) :=
  if_neg (by simp [out])

/-- A bad word is counted (R80). -/
theorem Hub.lcError_bad {w : Word} (in_ : h.inService p = true) (bad : lcGood w = false) :
    h.lcError p w = h.bump (R.LNK_LC_ERR p.ix) :=
  (Hub.lcOnly_inService _ in_).trans (if_neg (by simp [bad]))

/-! ### Link-control words sent (R63) -/

theorem Hub.sendLc_out (h : Hub) (p : Port) (w : Word) : (h.sendLc p w).out = .lc p w :: (h.lullExit p).out := rfl

theorem Hub.alike_sendLc (h : Hub) (p : Port) (w : Word) : h.Alike (lullFields p) [.regs, .out, .links] (h.sendLc p w) :=
  (Hub.alike_lullExit h p).next (Hub.alike_emit ..)

/-! ### ACK and NAK sent (R82, R84) -/

/-- Outside FREE a NAK leaves, is counted, and nothing good is left unanswered. -/
theorem Hub.nakNow_loud (loud : h.silent = false) :
    h.nakNow p = ((h.sendLc p (lcWord 2 (h.lastGood p))).onLink p (fun l => { l with good := 0, nakOut := true })).bump
      (R.LNK_NAK_TX p.ix) := if_neg (by simp [loud])

theorem Hub.nakNow_out (loud : h.silent = false) :
    (h.nakNow p).out = .lc p (lcWord 2 (h.lastGood p)) :: (h.lullExit p).out := by
  rw [Hub.nakNow_loud loud, Hub.bump_out, Hub.onLink_out, Hub.sendLc_out]

theorem Hub.nakNow_good (loud : h.silent = false) : ((h.nakNow p).links.at p).good = 0 := by
  rw [Hub.nakNow_loud loud, Hub.bump_links, Hub.onLink_links_at]

theorem Hub.nakNow_count (loud : h.silent = false) :
    (h.nakNow p).get (R.LNK_NAK_TX p.ix) = min (2 ^ 32 - 1) (h.get (R.LNK_NAK_TX p.ix) + 1) := by
  rw [Hub.nakNow_loud loud, Hub.get_bump_word _ rfl rfl, Hub.onLink_get,
    (Hub.alike_sendLc h p _).get _ (by cases p <;> rfl)]

theorem does_nakRepeat (awake : h.awake = true) (in_ : h.inService p = true) (loud : h.silent = false)
    (nak : (h.links.at p).nakOut = true) :
    does (.nakRepeat p) h (fun t => t.out = .lc p (lcWord 2 (h.lastGood p)) :: (h.lullExit p).out
      ∧ t.get (R.LNK_NAK_TX p.ix) = min (2 ^ 32 - 1) (h.get (R.LNK_NAK_TX p.ix) + 1) ∧ (t.links.at p).good = 0
      ∧ t = { h with regs := t.regs, out := t.out, links := t.links }) := by
  have sent : h.nakRepeat p = h.nakNow p := if_pos (by simp [in_, nak])
  refine does_of_eq (f := fun h => h.nakRepeat p) awake sent (fun _ => rfl)
    ⟨Hub.nakNow_out loud, Hub.nakNow_count loud, Hub.nakNow_good loud, ?_⟩
  simpa using Hub.of_blot (Hub.alike_nakNow h p).blot

theorem becomes_sendAck (awake : h.awake = true) (in_ : h.inService p = true) (loud : h.silent = false)
    (owed : 0 < (h.links.at p).good) :
    becomes (.sendAck p) h (((h.lullExit p).emit (.lc p (lcWord 1 (h.lastGood p)))).onLink p (fun l => { l with good := 0 })) := by
  have sent : h.sendAck p = h.ackNow p := if_pos (by simp [in_, owed])
  have acked : h.ackNow p = (h.sendLc p (lcWord 1 (h.lastGood p))).onLink p (fun l => { l with good := 0 }) :=
    if_neg (by simp [loud])
  exact becomes_of_eq (f := fun h => h.sendAck p) awake (sent.trans acked) fun _ => rfl

/-! ### Which held packets an ACK or a NAK frees (R82) -/

theorem LinkPort.freeCount_nil {l : LinkPort} (held : l.replay = []) (n : Nat) : l.freeCount n = none := by
  simp [LinkPort.freeCount, held]

/-- The LSEQ before another lies 4095 past it. -/
theorem subMod_before (a : Nat) : subMod 4096 (subMod 4096 a 1) a = 4095 := by
  unfold subMod
  omega

/-- The packet freed last, that is the one before the oldest held, frees nothing. -/
theorem LinkPort.freeCount_before {l : LinkPort} {o : Packet} {xs : List Packet} (held : l.replay = o :: xs)
    (few : l.replay.length < 2048) : l.freeCount (subMod 4096 o.lseq 1) = none := by
  have far : ¬ subMod 4096 (subMod 4096 o.lseq 1) o.lseq < l.replay.length := by rw [subMod_before]; omega
  simp only [LinkPort.freeCount, held] at far ⊢
  exact if_neg far

theorem Hub.freeHeld_replay (k n : Nat) : ((h.freeHeld p k n).links.at p).replay = (h.links.at p).replay.drop k := by
  rw [Hub.freeHeld, Hub.put_links, Hub.onLink_links_at]

theorem Hub.freeHeld_noProg (k n : Nat) : ((h.freeHeld p k n).links.at p).noProg = 0 := by
  rw [Hub.freeHeld, Hub.put_links, Hub.onLink_links_at]

theorem Hub.freeHeld_acked (k : Nat) (n : BitVec 12) :
    (h.freeHeld p k n.toNat).get (R.LNK_REPLAY_SEQ_ACKED p.ix) = n.toNat := by
  rw [Hub.freeHeld, Hub.get_put_self _ _ _ rfl]
  exact Nat.mod_eq_of_lt n.isLt

theorem Hub.alike_freeHeld (h : Hub) (p : Port) (k n : Nat) :
    h.Alike [R.LNK_REPLAY_SEQ_ACKED p.ix] [.regs, .links] (h.freeHeld p k n) :=
  (Hub.alike_onLink h p _).mono.next (Hub.alike_put _ _ n rfl)

theorem does_ackReceived_held {n : BitVec 12} {k : Nat} (awake : h.awake = true) (in_ : h.inService p = true)
    (named : (h.links.at p).freeCount n.toNat = some k) :
    does (.ackReceived p n) h (fun t => (t.links.at p).replay = (h.links.at p).replay.drop k ∧ (t.links.at p).noProg = 0
      ∧ t.get (R.LNK_REPLAY_SEQ_ACKED p.ix) = n.toNat ∧ t = { h with regs := t.regs, links := t.links }) := by
  have freed : h.ackReceived p n.toNat = h.freeHeld p k n.toNat := by rw [Hub.ackReceived, Hub.lcOnly_inService _ in_, named]
  exact does_of_eq (f := fun h => h.ackReceived p n.toNat) awake freed (fun _ => rfl)
    ⟨Hub.freeHeld_replay .., Hub.freeHeld_noProg .., Hub.freeHeld_acked .., Hub.of_alike_links (Hub.alike_freeHeld ..)⟩

theorem becomes_ackReceived_unnamed {n : BitVec 12} (awake : h.awake = true) (in_ : h.inService p = true)
    (named : (h.links.at p).freeCount n.toNat = none) : becomes (.ackReceived p n) h h := by
  have same : h.ackReceived p n.toNat = h := by rw [Hub.ackReceived, Hub.lcOnly_inService _ in_, named]
  exact becomes_of_eq (f := fun h => h.ackReceived p n.toNat) awake same fun _ => rfl

/-! ### Replay (R85, R86) -/

/-- A port that begins to replay all it holds, once more without progress. -/
def LinkPort.replaying (l : LinkPort) : LinkPort := { l with rq := l.replay, noProg := l.noProg + 1 }

@[simp] theorem LinkPort.replaying_replay (l : LinkPort) : l.replaying.replay = l.replay := rfl

@[simp] theorem LinkPort.replaying_rq (l : LinkPort) : l.replaying.rq = l.replay := rfl

@[simp] theorem LinkPort.replaying_noProg (l : LinkPort) : l.replaying.noProg = l.noProg + 1 := rfl

theorem Hub.replayAll_nothing (held : (h.links.at p).replay = []) : h.replayAll p = h := by simp [Hub.replayAll, held]

/-- Short of REPLAY_MAX replays without progress, all that is held is replayed. -/
theorem Hub.replayAll_again (held : (h.links.at p).replay ≠ [])
    (short : (h.links.at p).noProg < h.get (R.LNK_PKT_CTRL_REPLAY_MAX p.ix)) :
    h.replayAll p = h.onLink p LinkPort.replaying := by
  have listed : ¬ (h.links.at p).replay.isEmpty = true := by simpa using held
  rw [Hub.replayAll, if_neg listed, if_neg (Nat.not_le.mpr short)]
  rfl

/-- A count apart from REPLAY_MAX takes nothing from the replay that follows it. -/
theorem Hub.replayAll_counted {f : RF} (ok : f.ok = true) (off : (R.LNK_PKT_CTRL_REPLAY_MAX p.ix).off [f] = true)
    (held : (h.links.at p).replay ≠ []) (short : (h.links.at p).noProg < h.get (R.LNK_PKT_CTRL_REPLAY_MAX p.ix)) :
    (h.bump f).replayAll p = (h.bump f).onLink p LinkPort.replaying := by
  refine Hub.replayAll_again ?_ ?_
  · rw [Hub.bump_links]; exact held
  · rw [Hub.bump_links, (Hub.alike_bump h f ok).get _ off]; exact short

/-- What a NAK does once it is counted: it frees the packets up to the one it names and replays the rest, or only replays
where it names the one freed last (R85). -/
def Hub.nakTaken (h : Hub) (p : Port) (n : Nat) : Hub :=
  match (h.links.at p).freeCount n, (h.links.at p).replay with
  | some k, _ => (h.freeHeld p k n).replayAll p
  | none, o :: _ => if n = subMod 4096 o.lseq 1 then h.replayAll p else h
  | none, [] => if n = h.get (R.LNK_REPLAY_SEQ_ACKED p.ix) then h.replayAll p else h

/-- In service a NAK is counted and taken. -/
theorem Hub.nakReceived_inService (n : Nat) (in_ : h.inService p = true) :
    h.nakReceived p n = (h.bump (R.LNK_NAK_RX p.ix)).nakTaken p n := by
  rw [Hub.nakReceived, Hub.lcOnly_inService _ in_]
  generalize h.bump (R.LNK_NAK_RX p.ix) = u
  cases named : (u.links.at p).freeCount n <;> cases held : (u.links.at p).replay <;> simp only [Hub.nakTaken, named, held]

theorem Hub.nakTaken_held {n k : Nat} (named : (h.links.at p).freeCount n = some k) :
    h.nakTaken p n = (h.freeHeld p k n).replayAll p := by simp only [Hub.nakTaken, named]

theorem Hub.nakTaken_nothing (n : Nat) (held : (h.links.at p).replay = []) : h.nakTaken p n = h := by
  simp only [Hub.nakTaken, LinkPort.freeCount_nil held, held, Hub.replayAll_nothing held, ite_self]

theorem Hub.nakTaken_before {o : Packet} {xs : List Packet} (held : (h.links.at p).replay = o :: xs)
    (few : (h.links.at p).replay.length < 2048) : h.nakTaken p (subMod 4096 o.lseq 1) = h.replayAll p := by
  simp only [Hub.nakTaken, LinkPort.freeCount_before held few, held, if_true]

theorem becomes_nakReceived_nothing {n : BitVec 12} (awake : h.awake = true) (in_ : h.inService p = true)
    (held : (h.links.at p).replay = []) : becomes (.nakReceived p n) h (h.bump (R.LNK_NAK_RX p.ix)) :=
  becomes_of_eq (f := fun h => h.nakReceived p n.toNat) awake
    ((Hub.nakReceived_inService _ in_).trans (Hub.nakTaken_nothing _ (by rw [Hub.bump_links, held]))) fun _ => rfl

theorem does_nakReceived_held {n : BitVec 12} {k : Nat} (awake : h.awake = true) (in_ : h.inService p = true)
    (named : (h.links.at p).freeCount n.toNat = some k) (rest : (h.links.at p).replay.drop k ≠ [])
    (some_ : 0 < h.get (R.LNK_PKT_CTRL_REPLAY_MAX p.ix)) :
    does (.nakReceived p n) h (fun t => (t.links.at p).replay = (h.links.at p).replay.drop k
      ∧ (t.links.at p).rq = (h.links.at p).replay.drop k ∧ (t.links.at p).noProg = 1
      ∧ t.get (R.LNK_REPLAY_SEQ_ACKED p.ix) = n.toNat ∧ t = { h with regs := t.regs, links := t.links }) := by
  have received := (Hub.nakReceived_inService n.toNat in_).trans (Hub.nakTaken_held (k := k) (by rw [Hub.bump_links, named]))
  have acked := Hub.freeHeld_acked (h := h.bump (R.LNK_NAK_RX p.ix)) (p := p) k n
  have left := Hub.freeHeld_replay (h := h.bump (R.LNK_NAK_RX p.ix)) (p := p) k n.toNat
  have progress := Hub.freeHeld_noProg (h := h.bump (R.LNK_NAK_RX p.ix)) (p := p) k n.toNat
  have freed : h.Alike [R.LNK_NAK_RX p.ix, R.LNK_REPLAY_SEQ_ACKED p.ix] [.regs, .links]
      ((h.bump (R.LNK_NAK_RX p.ix)).freeHeld p k n.toNat) :=
    (Hub.alike_bump h (R.LNK_NAK_RX p.ix) rfl).mono.next (Hub.alike_freeHeld ..)
  rw [Hub.bump_links] at left
  generalize (h.bump (R.LNK_NAK_RX p.ix)).freeHeld p k n.toNat = u at *
  have short : (u.links.at p).noProg < u.get (R.LNK_PKT_CTRL_REPLAY_MAX p.ix) := by
    rw [progress, freed.get _ (by cases p <;> rfl)]
    exact some_
  rw [Hub.replayAll_again (by rw [left]; exact rest) short] at received
  refine does_of_eq (f := fun h => h.nakReceived p n.toNat) awake received (fun _ => rfl) ⟨?_, ?_, ?_, ?_, ?_⟩
  · rw [Hub.onLink_links_at, LinkPort.replaying_replay, left]
  · rw [Hub.onLink_links_at, LinkPort.replaying_rq, left]
  · rw [Hub.onLink_links_at, LinkPort.replaying_noProg, progress]
  · rw [Hub.onLink_get, acked]
  · exact Hub.of_alike_links (freed.next (Hub.alike_onLink u p LinkPort.replaying))

/-- Nothing but a counter and the port's link changes as all it holds is replayed. -/
theorem Hub.alike_counted_replaying (h : Hub) (p : Port) {f : RF} (ok : f.ok = true) :
    h.Alike [f] [.regs, .links] ((h.bump f).onLink p LinkPort.replaying) :=
  (Hub.alike_bump h f ok).mono.next (Hub.alike_onLink ..)

theorem does_nakReceived_before {n : BitVec 12} {o : Packet} {xs : List Packet} (awake : h.awake = true)
    (in_ : h.inService p = true) (held : (h.links.at p).replay = o :: xs) (named : n.toNat = subMod 4096 o.lseq 1)
    (few : (h.links.at p).replay.length < 2048)
    (short : (h.links.at p).noProg < h.get (R.LNK_PKT_CTRL_REPLAY_MAX p.ix)) :
    does (.nakReceived p n) h (fun t => (t.links.at p).rq = o :: xs ∧ (t.links.at p).noProg = (h.links.at p).noProg + 1
      ∧ t = { h with regs := t.regs, out := t.out, links := t.links, err := t.err, tm := t.tm, tun := t.tun }) := by
  have received : h.nakReceived p n.toNat = (h.bump (R.LNK_NAK_RX p.ix)).onLink p LinkPort.replaying := by
    rw [Hub.nakReceived_inService _ in_, named, Hub.nakTaken_before (xs := xs) (by rw [Hub.bump_links, held])
      (by rw [Hub.bump_links]; exact few), Hub.replayAll_counted rfl (by cases p <;> rfl) (by simp [held]) short]
  refine does_of_eq (f := fun h => h.nakReceived p n.toNat) awake received (fun _ => rfl) ⟨?_, ?_, ?_⟩
  · rw [Hub.onLink_links_at, LinkPort.replaying_rq, Hub.bump_links, held]
  · rw [Hub.onLink_links_at, LinkPort.replaying_noProg, Hub.bump_links]
  · exact Hub.of_alike_links_wide (Hub.alike_counted_replaying h p rfl)

/-- What a timeout comes to in a port that holds packets. -/
theorem Hub.replayTimeout_held (in_ : h.inService p = true) (held : (h.links.at p).replay ≠ []) :
    h.replayTimeout p = if h.get (R.LNK_PKT_CTRL_REPLAY_MAX p.ix) ≤ (h.links.at p).noProg then h.replayLost p
      else (h.bump (R.LNK_REPLAY_TO p.ix)).replayAll p :=
  if_pos (by simp [in_, held])

theorem does_replayTimeout_again (awake : h.awake = true) (in_ : h.inService p = true) (held : (h.links.at p).replay ≠ [])
    (short : (h.links.at p).noProg < h.get (R.LNK_PKT_CTRL_REPLAY_MAX p.ix)) :
    does (.replayTimeout p) h (fun t => (t.links.at p).rq = (h.links.at p).replay
      ∧ t.get (R.LNK_REPLAY_TO p.ix) = min (2 ^ 32 - 1) (h.get (R.LNK_REPLAY_TO p.ix) + 1)
      ∧ t = { h with regs := t.regs, out := t.out, links := t.links, err := t.err, tm := t.tm, tun := t.tun }) := by
  have replayed : h.replayTimeout p = (h.bump (R.LNK_REPLAY_TO p.ix)).onLink p LinkPort.replaying := by
    rw [Hub.replayTimeout_held in_ held, if_neg (Nat.not_le.mpr short),
      Hub.replayAll_counted rfl (by cases p <;> rfl) held short]
  refine does_of_eq (f := fun h => h.replayTimeout p) awake replayed (fun _ => rfl) ⟨?_, ?_, ?_⟩
  · rw [Hub.onLink_links_at, LinkPort.replaying_rq, Hub.bump_links]
  · rw [Hub.onLink_get, Hub.get_bump_word _ rfl rfl]
  · exact Hub.of_alike_links_wide (Hub.alike_counted_replaying h p rfl)

theorem becomes_replayTimeout_lost (awake : h.awake = true) (in_ : h.inService p = true) (held : (h.links.at p).replay ≠ [])
    (spent : h.get (R.LNK_PKT_CTRL_REPLAY_MAX p.ix) ≤ (h.links.at p).noProg) :
    becomes (.replayTimeout p) h ((h.lnkLog p 0x10 sevDG 0 0).leaveService p stDetectRx) := by
  have lost : h.replayTimeout p = h.replayLost p := (Hub.replayTimeout_held in_ held).trans (if_pos spent)
  exact becomes_of_eq (f := fun h => h.replayTimeout p) awake lost fun _ => rfl

/-! ### Credits (R89, R90) -/

/-- A class's number, once replaced. -/
@[simp] theorem PerCls.at_set_self (x : PerCls) (c : Cls) (v : Nat) : (x.set c v).at c = v := by cases c <;> rfl

/-- No credit is available to a class whose last CREDIT was not sane (R90). -/
theorem LinkPort.avail_unseen {l : LinkPort} {c : Cls} (unseen : l.seen.at c = 0) : l.avail c = 0 := if_pos unseen

theorem does_creditReceived_sane {c : Cls} {v : BitVec 16} (awake : h.awake = true) (in_ : h.inService p = true)
    (sane : subMod 65536 v.toNat ((h.links.at p).used.at c) ≤ 2040) :
    does (.creditReceived p c v) h (fun t => (t.links.at p).limit.at c = v.toNat ∧ (t.links.at p).seen.at c = 1
      ∧ t = { h with links := t.links, err := t.err }) := by
  have received : h.creditReceived p c v.toNat
      = h.onLink p (fun l => { l with limit := l.limit.set c (v.toNat % 65536), seen := l.seen.set c 1 }) :=
    (Hub.lcOnly_inService _ in_).trans (if_pos sane)
  refine does_of_eq (f := fun h => h.creditReceived p c v.toNat) awake received (fun _ => rfl) ⟨?_, ?_, ?_⟩
  · rw [Hub.onLink_links_at, PerCls.at_set_self, Nat.mod_eq_of_lt v.isLt]
  · rw [Hub.onLink_links_at, PerCls.at_set_self]
  · simpa using Hub.of_blot ((Hub.alike_onLink h p _).mono (gs := []) (T := [.links, .err])).blot

theorem does_creditReceived_insane {c : Cls} {v : BitVec 16} (awake : h.awake = true) (in_ : h.inService p = true)
    (insane : 2040 < subMod 65536 v.toNat ((h.links.at p).used.at c)) :
    does (.creditReceived p c v) h (fun t => (t.links.at p).seen.at c = 0 ∧ (t.links.at p).avail c = 0
      ∧ t.get (R.LNK_CREDIT_ERR p.ix) = min (2 ^ 32 - 1) (h.get (R.LNK_CREDIT_ERR p.ix) + 1)
      ∧ t = { h with regs := t.regs, links := t.links, err := t.err }) := by
  obtain ⟨u, unmarked⟩ : ∃ u, u = h.onLink p (fun l => { l with seen := l.seen.set c 0 }) := ⟨_, rfl⟩
  have received : h.creditReceived p c v.toNat = (u.bump (R.LNK_CREDIT_ERR p.ix)).lnkLog p 0x0E sevCT 0
      ((u.bump (R.LNK_CREDIT_ERR p.ix)).get (R.LNK_CREDIT_ERR p.ix)) :=
    unmarked ▸ (Hub.lcOnly_inService _ in_).trans (if_neg (Nat.not_le.mpr insane))
  have unseen : (u.links.at p).seen.at c = 0 := by rw [unmarked, Hub.onLink_links_at, PerCls.at_set_self]
  have alike : h.Alike [] [.links] u := unmarked ▸ Hub.alike_onLink ..
  have up : u.pw.steep = false := by rw [alike.pw (by simp)]; exact Hub.steep_of_awake awake
  have logged := Hub.alike_bumpLog up (R.LNK_CREDIT_ERR p.ix) rfl p 0x0E sevCT 0
    ((u.bump (R.LNK_CREDIT_ERR p.ix)).get (R.LNK_CREDIT_ERR p.ix))
  have links := logged.links (by simp)
  have counted := Hub.get_bumpLog up (R.LNK_CREDIT_ERR p.ix) rfl (by cases p <;> rfl) p 0x0E sevCT 0
    ((u.bump (R.LNK_CREDIT_ERR p.ix)).get (R.LNK_CREDIT_ERR p.ix))
  refine does_of_eq (f := fun h => h.creditReceived p c v.toNat) awake received (fun _ => rfl) ⟨?_, ?_, ?_, ?_⟩
  · rw [links, unseen]
  · rw [links, LinkPort.avail_unseen unseen]
  · exact counted.trans (by rw [alike.get _ (by cases p <;> rfl)]; rfl)
  · simpa using Hub.of_blot ((alike.mono (gs := [R.LNK_CREDIT_ERR p.ix]) (T := [.regs, .links, .err])).next logged).blot

theorem does_sendCredit {c : Cls} (awake : h.awake = true) (in_ : h.inService p = true) (loud : h.silent = false) :
    does (.sendCredit p c) h (fun t =>
      t.out = .lc p (lcWord 3 (c.ix * 65536 + (h.links.at p).rel.at c)) :: (h.lullExit p).out
        ∧ (t.links.at p).relSent.at c = (h.links.at p).rel.at c
        ∧ t = { h with regs := t.regs, out := t.out, links := t.links }) := by
  have sent : h.sendCredit p c = (h.sendLc p (lcWord 3 (c.ix * 65536 + (h.links.at p).rel.at c))).onLink p
      (fun l => { l with relSent := l.relSent.set c ((h.links.at p).rel.at c) }) := if_pos (by simp [in_, loud])
  have frame := (Hub.alike_sendLc h p (lcWord 3 (c.ix * 65536 + (h.links.at p).rel.at c))).next
    (Hub.alike_onLink _ p (fun l => { l with relSent := l.relSent.set c ((h.links.at p).rel.at c) }))
  refine does_of_eq (f := fun h => h.sendCredit p c) awake sent (fun _ => rfl) ⟨?_, ?_, by simpa using Hub.of_blot frame.blot⟩
  · rw [Hub.onLink_out, Hub.sendLc_out]
  · rw [Hub.onLink_links_at, PerCls.at_set_self]

/-! ### Bad link-control words -/

theorem becomes_linkControlError_bad {w : Word} (awake : h.awake = true) (in_ : h.inService p = true) (bad : lcGood w = false) :
    becomes (.linkControlError p w) h (h.bump (R.LNK_LC_ERR p.ix)) :=
  becomes_of_eq (f := fun h => h.lcError p w) awake (Hub.lcError_bad in_ bad) fun _ => rfl

theorem becomes_linkControlError_outside {w : Word} (awake : h.awake = true) (out : h.inService p = false) :
    becomes (.linkControlError p w) h (h.bump (R.LNK_DISCARD p.ix)) :=
  becomes_of_eq (f := fun h => h.lcError p w) awake (Hub.lcOnly_outside _ out) fun _ => rfl

end

end Sys2Proof.Machine
end

section
open Sys2Proof Sys2Proof.Machine

/-- Settles O12: each clause is the lemma about its command; they rest on what the sending of a link-control word, the freeing of
held packets and the replay of the rest each come to. That REPLAY_MAX replays without progress may start, and that the attempt
after them loses the link, is the model's reading of R86 (assumption 25, DEDUCED). -/
theorem linkControlCommands : Obligations.LinkControlCommands := by
  intro h p awake
  exact ⟨does_nakRepeat awake, becomes_sendAck awake, fun n k => does_ackReceived_held awake,
    fun n => becomes_ackReceived_unnamed awake, fun n => becomes_nakReceived_nothing awake,
    fun n k => does_nakReceived_held awake, fun n o xs => does_nakReceived_before awake, does_replayTimeout_again awake,
    becomes_replayTimeout_lost awake, fun c v => does_creditReceived_sane awake, fun c v => does_creditReceived_insane awake,
    fun c => does_sendCredit awake, fun w => becomes_linkControlError_bad awake, fun w => becomes_linkControlError_outside awake⟩
end

section
set_option Elab.async false

section
/-! SUPPORT. Station time: fields that share a word, hubs that agree, the triggered outputs and time quality (R127, R137–R142). -/

open Sys2Proof Sys2Proof.Machine

namespace Sys2Proof.Machine

/-! ### Fields -/

/-- Fields whose bits do not meet share no bit, whatever their words. -/
theorem RF.apart_of_bits {f g : RF} (bits : (decide (f.lo + f.width ≤ g.lo) || decide (g.lo + g.width ≤ f.lo)) = true) :
    f.apart g = true := by simp only [RF.apart, Bool.or_assoc, bits, Bool.or_true]

/-- One bit of a word is the field of that bit. -/
theorem Hub.bit_rd (h : Hub) (a i : Nat) : bit (h.rd a).toNat i = h.on ⟨a, i, 1⟩ := rfl

/-! ### Hubs that agree -/

/-- Hubs that agree outside some parts agree outside more. -/
theorem Hub.blot_mono {S T : List Part} {h t : Hub} (e : t.blot S = h.blot S) (sub : S ⊆ T := by simp) :
    t.blot T = h.blot T := by rw [← Hub.blot_blot sub t, e, Hub.blot_blot sub h]

theorem Hub.Alike.tm {fs : List RF} {S : List Part} {h t : Hub} (a : h.Alike fs S t) (out : Part.tm ∉ S) : t.tm = h.tm := by
  simpa [Hub.blot, out] using congrArg Hub.tm a.blot

theorem Hub.Alike.err {fs : List RF} {S : List Part} {h t : Hub} (a : h.Alike fs S t) (out : Part.err ∉ S) : t.err = h.err := by
  simpa [Hub.blot, out] using congrArg Hub.err a.blot

theorem Hub.Alike.root {fs : List RF} {S : List Part} {h t : Hub} (a : h.Alike fs S t) (out : Part.root ∉ S) :
    t.root = h.root := by
  simpa [Hub.blot, out] using congrArg Hub.root a.blot

theorem Hub.Alike.stime {fs : List RF} {S : List Part} {h t : Hub} (a : h.Alike fs S t) (out : Part.stime ∉ S) :
    t.stime = h.stime := by
  simpa [Hub.blot, out] using congrArg Hub.stime a.blot

/-- A word off the fields of `fs` and the log's slot reads as before. -/
theorem Hub.Alike.rd {fs : List RF} {S : List Part} {h t : Hub} (a : h.Alike fs S t) {w : Nat} (off : (word w).off fs = true) :
    t.rd w = h.rd w := BitVec.eq_of_toNat_eq (by simpa [Hub.get_word] using a.get (word w) off)

/-- A one-bit field off the fields of `fs` reads as before. -/
theorem Hub.Alike.on {fs : List RF} {S : List Part} {h t : Hub} (a : h.Alike fs S t) {g : RF} (off : g.off fs = true) :
    t.on g = h.on g := by rw [Hub.on, a.get g off, Hub.on]

theorem Hub.alike_wr (h : Hub) (a : Nat) (v : Word) : h.Alike [word a] [.regs] (h.wr a v) where
  get g off := Hub.get_wr_of_word_apart h v (by simp [RF.off] at off; exact off.2)
  blot := Hub.wr_blot _ _ _ (by simp)

/-- A change of the clock's state beyond its registers. -/
theorem Hub.alike_tm (h : Hub) (x : TimeState) : h.Alike [] [.tm] { h with tm := x } :=
  ⟨fun _ _ => rfl, Hub.tm_replaced _ _ (by simp)⟩

theorem Hub.alike_onTimePort (h : Hub) (p : Port) (f : TimePort → TimePort) : h.Alike [] [.tm] (h.onTimePort p f) :=
  Hub.alike_tm _ _

theorem Hub.alike_bumpBy (h : Hub) (f : RF) (n : Nat) (ok : f.ok = true) : h.Alike [f] [.regs] (h.bumpBy f n) :=
  Hub.alike_put h f _ ok

/-- What each step of a fold keeps to, the fold keeps to. -/
theorem Hub.alike_foldl {ι : Type} {fs : List RF} {S : List Part} {f : Hub → ι → Hub} (l : List ι)
    (step : ∀ h : Hub, ∀ i ∈ l, h.Alike fs S (f h i)) (h : Hub) : h.Alike fs S (l.foldl f h) := by
  induction l generalizing h with
  | nil => exact .refl _ _ h
  | cons i t ih => exact (step h i (by simp)).trans (ih (fun h j m => step h j (List.mem_cons_of_mem _ m)) (f h i))

theorem Hub.alike_ball (h : Hub) (t : Tx) : h.Alike [] [.out] (h.ball t) := by
  unfold Hub.ball
  exact (Hub.Alike.refl _ _ h).ite (Hub.alike_emit ..)

/-! ### The log -/

theorem Hub.logOnly_notice (h : Hub) (src code d0 d1 : Nat) : h.LogOnly (h.notice src code d0 d1) :=
  Hub.logOnly_if (Hub.logOnly_queueEvent ..)

theorem Hub.logOnly_recovered (h : Hub) (b : Recovery) : h.LogOnly (h.recovered b) :=
  Hub.logOnly_if (Hub.logOnly_setHandling ..)

/-! ### Triggered outputs (R137–R139) -/

/-- The fields of STATUS that follow an output's drive and its gating. -/
def driveFields (n : Nat) : List RF := [R.TIME_EVO_STATUS_GATED n, R.TIME_EVO_STATUS_ACTIVE n]

theorem Hub.alike_evoRefresh (h : Hub) (n : Nat) : h.Alike (driveFields n) [.regs, .out] (h.evoRefresh n) := by
  have shown (x y : Nat) : h.Alike (driveFields n) [.regs, .out]
      ((h.put (R.TIME_EVO_STATUS_GATED n) x).put (R.TIME_EVO_STATUS_ACTIVE n) y) :=
    ((Hub.alike_put h _ x rfl).mono (by simp [driveFields])).next (Hub.alike_put _ _ y rfl) (by simp [driveFields])
  unfold Hub.evoRefresh
  exact (shown _ _).ite ((shown _ _).next (Hub.alike_ball ..))

/-- ACTIVE shows what the output drives where it is not gated. -/
theorem Hub.evoRefresh_active (h : Hub) (n : Nat) :
    (h.evoRefresh n).get (R.TIME_EVO_STATUS_ACTIVE n) = b2n ((h.evo n).on && !h.gated n) := by
  have shown (x : Nat) (b : Bool) : ((h.put (R.TIME_EVO_STATUS_GATED n) x).put (R.TIME_EVO_STATUS_ACTIVE n) (b2n b)).get
      (R.TIME_EVO_STATUS_ACTIVE n) = b2n b :=
    (Hub.get_put_self _ _ _ rfl).trans (Nat.mod_eq_of_lt (b2n_lt_two b))
  unfold Hub.evoRefresh
  simp only []
  split
  · exact shown _ _
  · rw [Hub.get, Hub.ball_rd]; exact shown _ _

/-- The fields that follow an output's state. -/
def evoFields (n : Nat) : List RF := R.TIME_EVO_STATUS_ARMED n :: driveFields n

theorem Hub.alike_setEvo (h : Hub) (n : Nat) (x : Evo) : h.Alike (evoFields n) [.regs, .out, .tm] (h.setEvo n x) := by
  unfold Hub.setEvo
  exact ((Hub.alike_tm h _).mono.next (Hub.alike_put _ _ _ rfl) (by simp [evoFields])).next (Hub.alike_evoRefresh ..)
    (by simp [evoFields])

/-- Of the clock's state beyond its registers only the outputs change. -/
theorem Hub.setEvo_tm (h : Hub) (n : Nat) (x : Evo) :
    (h.setEvo n x).tm = { h.tm with evo := SMap.set (fun _ => Evo.idle) h.tm.evo n x } := by
  rw [Hub.setEvo, (Hub.alike_evoRefresh ..).tm (by simp), Hub.put_tm]

/-- The output just set, and every other as before. -/
theorem Hub.evo_setEvo (h : Hub) (n m : Nat) (x : Evo) : (h.setEvo n x).evo m = if m = n then x else h.evo m := by
  rw [Hub.evo, Hub.setEvo_tm, SMap.get_set]
  rfl

@[simp] theorem Hub.evo_setEvo_self (h : Hub) (n : Nat) (x : Evo) : (h.setEvo n x).evo n = x := by simp [Hub.evo_setEvo]

theorem Hub.evo_of_tm {h t : Hub} (e : t.tm = h.tm) (n : Nat) : t.evo n = h.evo n := by rw [Hub.evo, e, Hub.evo]

/-- ARMED shows whether the output holds a schedule. -/
theorem Hub.setEvo_armed (h : Hub) (n : Fin 8) (x : Evo) :
    (h.setEvo n x).get (R.TIME_EVO_STATUS_ARMED n) = b2n x.sched.isSome := by
  rw [Hub.setEvo, (Hub.alike_evoRefresh ..).get _ (by revert n; decide), Hub.get_put_self _ _ _ rfl]
  exact Nat.mod_eq_of_lt (b2n_lt_two _)

/-- An output that drives nothing is not active. -/
theorem Hub.setEvo_inactive (h : Hub) (n : Nat) {x : Evo} (off : x.on = false) :
    (h.setEvo n x).get (R.TIME_EVO_STATUS_ACTIVE n) = 0 := by
  have state : (({ h with tm := { h.tm with evo := SMap.set (fun _ => Evo.idle) h.tm.evo n x } }.put (R.TIME_EVO_STATUS_ARMED n)
      (b2n x.sched.isSome)).evo n) = x := SMap.get_set_self ..
  rw [Hub.setEvo, Hub.evoRefresh_active, state, off]
  rfl

/-! ### Time quality (R127) -/

/-- The fields that follow the time quality: itself, and what the gated outputs show. -/
def qualityFields : List RF := R.TIME_STATUS_QUALITY :: evoAll.flatMap driveFields

theorem Hub.alike_refreshQuality (h : Hub) : h.Alike qualityFields [.regs, .out, .tun] h.refreshQuality := by
  have put := (Hub.alike_put h R.TIME_STATUS_QUALITY h.qualityNow rfl).mono (gs := qualityFields) (T := [.regs, .out, .tun])
    (by simp [qualityFields])
  have outputs (x : Hub) : x.Alike qualityFields [.regs, .out, .tun] (evoAll.foldl Hub.evoRefresh x) :=
    Hub.alike_foldl evoAll (fun x n mem => (Hub.alike_evoRefresh x n).mono (T := [.regs, .out, .tun]) fun f m =>
      List.mem_cons_of_mem _ (List.mem_flatMap.mpr ⟨n, mem, m⟩)) x
  unfold Hub.refreshQuality
  exact (Hub.Alike.refl _ _ h).ite ((put.next (Hub.alike_latchAll ..)).trans (outputs _))

/-! ### What leaves -/

theorem Hub.ball_keeps {h : Hub} {x : Tx} (t : Tx) (left : x ∈ h.out) : x ∈ (h.ball t).out := by
  unfold Hub.ball
  split
  · exact left
  · exact List.mem_cons_of_mem _ left

theorem Hub.evoRefresh_keeps {h : Hub} {x : Tx} (n : Nat) (left : x ∈ h.out) : x ∈ (h.evoRefresh n).out := by
  unfold Hub.evoRefresh
  simp only []
  split
  · exact left
  · exact Hub.ball_keeps _ left

/-- What has left when the quality follows the clock has left before, or is an output's level. -/
theorem Hub.refreshQuality_keeps {h : Hub} {x : Tx} (left : x ∈ h.out) : x ∈ h.refreshQuality.out := by
  have outputs (l : List Nat) (u : Hub) (left : x ∈ u.out) : x ∈ (l.foldl Hub.evoRefresh u).out := by
    induction l generalizing u with
    | nil => exact left
    | cons n t ih => exact ih _ (Hub.evoRefresh_keeps n left)
  unfold Hub.refreshQuality
  split
  · exact left
  · exact outputs _ _ (by rw [Hub.latchAll_out]; exact left)

end Sys2Proof.Machine
end

section
/-! SUPPORT. The output block of TARM mode 3 that refutes `Obligations.OutputAndGrantInstructions` (O34). -/

open Sys2Proof Sys2Proof.Machine

namespace Sys2Proof.Machine

/-- A block of MODE 0 halts the output and answers OK (R138, R272). -/
theorem Hub.armOutput_halts (h : Hub) (o : Nat) {b : List Word} (mode : (b.getD 5 0#32).toNat % 4 = 0)
    (count : 1 ≤ (b.getD 3 0#32).toNat) (fits : (b.getD 3 0#32).toNat ≤ 65535) :
    ∃ k : Hub, h.armOutput o b = (k, 0#32) ∧ (k.evo o).sched = none := by
  have legal : ¬ (0 = 3 ∨ (b.getD 3 0#32).toNat = 0 ∨ 65535 < (b.getD 3 0#32).toNat) := by omega
  simp only [Hub.armOutput, mode, if_neg legal, Hub.evoStart, if_true]
  refine ⟨_, rfl, ?_⟩
  rw [Hub.evoHalt, Hub.evo_setEvo_self]
  rfl

/-- A hub whose context 0 has a window of eight instructions. -/
def windowed : Hub := Hub.reset.put (R.TUNC_CTX_CODE_SIZE 0) 8

theorem windowed_awake : windowed.awake = true := rfl

theorem windowed_inCode : windowed.inCode 0 ((windowed.ctx 0).pc + 1) = true := by decide

end Sys2Proof.Machine

/-- Refutes O34 at its clause on a block that is armed with result OK, which has the output hold a schedule: a block of MODE 0
halts the output, and its result is OK too (R138, R272). -/
theorem not_outputAndGrantInstructions : ¬ Obligations.OutputAndGrantInstructions := by
  intro all
  obtain ⟨-, -, armed, -⟩ := all windowed 0 0 0 0 _ windowed_awake windowed_inCode rfl
  obtain ⟨k, ok, halted⟩ := windowed.armOutput_halts 0 (b := [0, 0, 0, 1, 0, 0]) (by decide) (by decide) (by decide)
  obtain ⟨-, -, -, sched, -⟩ := armed k _ ok rfl
  simp [halted] at sched
end

section
/-! SUPPORT. Event inputs and triggered outputs (O16): what a sample, a filter, a packet of records, an arm and an edge each come
to (R134–R142). -/

open Sys2Proof Sys2Proof.Machine

namespace Sys2Proof.Machine

section
variable {h : Hub}

/-! ### The state of the inputs -/

/-- The input just set, and every other as before. -/
theorem Hub.pin_setPin (h : Hub) (n m : Nat) (x : EviPin) : (h.setPin n x).pin m = if m = n then x else h.pin m :=
  SMap.get_set _ _ _ _ _

@[simp] theorem Hub.pin_setPin_self (h : Hub) (n : Nat) (x : EviPin) : (h.setPin n x).pin n = x := by simp [Hub.pin_setPin]

theorem Hub.pin_of_tm {t : Hub} (e : t.tm = h.tm) (n : Nat) : t.pin n = h.pin n := by rw [Hub.pin, e, Hub.pin]

@[simp] theorem Hub.setPin_get (h : Hub) (n : Nat) (x : EviPin) (f : RF) : (h.setPin n x).get f = h.get f := rfl

@[simp] theorem Hub.setPin_rd (h : Hub) (n : Nat) (x : EviPin) (a : Nat) : (h.setPin n x).rd a = h.rd a := rfl

@[simp] theorem Hub.setPin_root (h : Hub) (n : Nat) (x : EviPin) : (h.setPin n x).root = h.root := rfl

@[simp] theorem Hub.setPin_fifo (h : Hub) (n : Nat) (x : EviPin) : (h.setPin n x).tm.fifo = h.tm.fifo := rfl

/-- The hub with the FIFO of records replaced. -/
def Hub.setFifo (h : Hub) (l : List EviRec) : Hub := { h with tm := { h.tm with fifo := l } }

@[simp] theorem Hub.setFifo_fifo (h : Hub) (l : List EviRec) : (h.setFifo l).tm.fifo = l := rfl

@[simp] theorem Hub.setFifo_get (h : Hub) (l : List EviRec) (f : RF) : (h.setFifo l).get f = h.get f := rfl

@[simp] theorem Hub.setFifo_rd (h : Hub) (l : List EviRec) (a : Nat) : (h.setFifo l).rd a = h.rd a := rfl

@[simp] theorem Hub.setFifo_pin (h : Hub) (l : List EviRec) (n : Nat) : (h.setFifo l).pin n = h.pin n := rfl

/-! ### Levels and filters (R134) -/

theorem does_eviLevelChange_filtered {n : Fin 32} {l : Bool} (awake : h.awake = true) (idle : (h.pin n).pend = none)
    (change : l ≠ bit (h.rd A.TIME_EVI_LEVEL).toNat n) (filtered : h.get (R.TIME_EVI_FILT_FILTER n) ≠ 0) :
    does (.eviLevelChange n l) h (fun t => (t.pin n).pend = some ⟨l, h.now, h.quality⟩ ∧ t.tm.fifo = h.tm.fifo
      ∧ t = { h with err := t.err, tm := t.tm }) := by
  have waits : h.eviLevelChange n l = h.setPin n { h.pin n with pend := some ⟨l, h.now, h.quality⟩ } := by
    unfold Hub.eviLevelChange
    simp only [idle, if_neg change, if_neg filtered]
  exact does_of_eq (f := fun h => h.eviLevelChange n l) awake waits (fun _ => rfl) ⟨by rw [Hub.pin_setPin_self], rfl, rfl⟩

theorem does_eviLevelChange_glitch {n : Fin 32} {l : Bool} (awake : h.awake = true) (waits : (h.pin n).pend.isSome = true)
    (back : l = bit (h.rd A.TIME_EVI_LEVEL).toNat n) :
    does (.eviLevelChange n l) h (fun t => (t.pin n).pend = none ∧ (t.pin n).glitch = min 255 ((h.pin n).glitch + 1)
      ∧ t.get R.TIME_EVI_GLITCH = min (2 ^ R.TIME_EVI_GLITCH.width - 1) (h.get R.TIME_EVI_GLITCH + 1)
      ∧ t.tm.fifo = h.tm.fifo ∧ t = { h with regs := t.regs, err := t.err, tm := t.tm }) := by
  obtain ⟨e, pend⟩ := Option.isSome_iff_exists.mp waits
  have glitch : h.eviLevelChange n l = (h.setPin n ⟨none, satAdd 255 (h.pin n).glitch 1⟩).bump R.TIME_EVI_GLITCH := by
    unfold Hub.eviLevelChange
    simp only [pend, if_pos back]
  have pin : ((h.setPin n ⟨none, satAdd 255 (h.pin n).glitch 1⟩).bump R.TIME_EVI_GLITCH).pin n
      = ⟨none, satAdd 255 (h.pin n).glitch 1⟩ := (Hub.pin_of_tm (Hub.bump_tm ..) n).trans (Hub.pin_setPin_self ..)
  refine does_of_eq (f := fun h => h.eviLevelChange n l) awake glitch (fun _ => rfl) ⟨?_, ?_, ?_, ?_, ?_⟩
  · rw [pin]
  · rw [pin, satAdd]
  · rw [Hub.get_bump_self _ _ rfl, Hub.setPin_get]
  · rw [Hub.bump_tm, Hub.setPin_fifo]
  · simpa using Hub.of_blot (S := [.regs, .err, .tm]) ((Hub.bump_blot _ _ (by simp)).trans (Hub.setPin_blot _ _ _ (by simp)))

/-! ### Accepted levels and their records (R134, R135) -/

/-- The hub once a level is accepted, before its record is made. -/
def Hub.levelled (h : Hub) (n : Nat) (e : EviPend) : Hub :=
  (h.put ⟨A.TIME_EVI_LEVEL, n, 1⟩ (b2n e.level)).setPin n { h.pin n with pend := none }

/-- The record of an accepted level. -/
def Hub.eviRec (h : Hub) (n : Nat) (e : EviPend) : EviRec :=
  ⟨h.root / 8, e.stamp, n, e.level, e.quality, h.get R.TIME_EVI_FIFO_STAT_NEXT_SEQ, (h.pin n).glitch⟩

/-- The hub once an input's record has taken its sequence number and the glitches since the last. -/
def Hub.numbered (h : Hub) (n : Nat) : Hub :=
  (h.put R.TIME_EVI_FIFO_STAT_NEXT_SEQ ((h.get R.TIME_EVI_FIFO_STAT_NEXT_SEQ + 1) % 65536)).setPin n { h.pin n with glitch := 0 }

/-- The hub once the record of an accepted level is in the FIFO, where there is room for it. -/
def Hub.recorded (h : Hub) (n : Nat) (e : EviPend) : Hub := (h.numbered n).setFifo ((h.eviRec n e).join h.tm.fifo)

theorem EviRec.join_length (r : EviRec) (l : List EviRec) : (r.join l).length = l.length + 1 := by
  induction l generalizing r with
  | nil => rfl
  | cons x xs ih =>
    rw [EviRec.join]
    split <;> simp [ih]

/-- A record that shares no tick of entry goes behind all others. -/
theorem EviRec.join_of_alone {r : EviRec} {l : List EviRec} (alone : ∀ x ∈ l, x.entered ≠ r.entered) :
    r.join l = l ++ [r] := by
  induction l with
  | nil => rfl
  | cons x xs ih =>
    have other : ¬ (x.entered = r.entered ∧ x.stamp = r.stamp ∧ r.pin < x.pin) := fun same => alone x (by simp) same.1
    rw [EviRec.join, if_neg other, ih fun y m => alone y (List.mem_cons_of_mem _ m), List.cons_append]

theorem Hub.eviRecord_room (n : Nat) (e : EviPend) (room : h.tm.fifo.length < 256) : h.eviRecord n e = h.recorded n e := by
  have fits : ((h.eviRec n e).join h.tm.fifo).length ≤ 256 := by rw [EviRec.join_length]; omega
  unfold Hub.eviRecord
  extract_lets seq x u fifo v w
  have joined : fifo = (h.eviRec n e).join h.tm.fifo := by
    have root : u.root = h.root := (Hub.setPin_root ..).trans (Hub.put_root ..)
    have before : u.tm.fifo = h.tm.fifo := (Hub.setPin_fifo ..).trans (congrArg TimeState.fifo (Hub.put_tm ..))
    simp only [fifo, root, before, seq, x, Hub.eviRec]
  have taken : u = h.numbered n := by simp only [u, seq, x, Hub.numbered]
  clear_value fifo u
  subst joined taken
  have all : ((h.eviRec n e).join h.tm.fifo).take 256 = (h.eviRec n e).join h.tm.fifo := List.take_of_length_le fits
  have none : ((h.eviRec n e).join h.tm.fifo).drop 256 = [] := List.drop_eq_nil_of_le fits
  simp only [none, w, v, all, Hub.recorded, Hub.setFifo]

/-- The words other than the levels are as before. -/
theorem Hub.levelled_rd (n : Nat) (e : EviPend) {a : Nat} (ne : a ≠ A.TIME_EVI_LEVEL) : (h.levelled n e).rd a = h.rd a := by
  rw [Hub.levelled, Hub.setPin_rd, Hub.rd_put_of_ne _ _ _ ne]

theorem Hub.levelled_edgeSel (n : Nat) (e : EviPend) : (h.levelled n e).edgeSel n = h.edgeSel n := by
  unfold Hub.edgeSel
  split
  · rw [Hub.levelled_rd _ _ (by decide)]
  · rw [Hub.levelled_rd _ _ (by decide)]

theorem Hub.levelled_seq (n : Nat) (e : EviPend) :
    (h.levelled n e).get R.TIME_EVI_FIFO_STAT_NEXT_SEQ = h.get R.TIME_EVI_FIFO_STAT_NEXT_SEQ := by
  have other : R.TIME_EVI_FIFO_STAT_NEXT_SEQ.addr ≠ A.TIME_EVI_LEVEL := by decide
  rw [Hub.get, Hub.levelled_rd _ _ other, Hub.get]

theorem Hub.levelled_bit (n : Fin 32) (e : EviPend) : bit ((h.levelled n e).rd A.TIME_EVI_LEVEL).toNat n = e.level := by
  have ok : RF.ok ⟨A.TIME_EVI_LEVEL, n, 1⟩ = true := by revert n; decide
  rw [Hub.bit_rd, Hub.on, Hub.levelled, Hub.setPin_get, Hub.get_put_self _ _ _ ok]
  cases e.level <;> rfl

theorem Hub.levelled_pin (n : Nat) (e : EviPend) : (h.levelled n e).pin n = { h.pin n with pend := none } := by
  rw [Hub.levelled, Hub.pin_setPin_self]

theorem Hub.levelled_fifo (n : Nat) (e : EviPend) : (h.levelled n e).tm.fifo = h.tm.fifo := by
  rw [Hub.levelled, Hub.setPin_fifo, Hub.put_tm]

theorem Hub.levelled_rec (n : Nat) (e : EviPend) : (h.levelled n e).eviRec n e = h.eviRec n e := by
  have root : (h.levelled n e).root = h.root := by rw [Hub.levelled, Hub.setPin_root, Hub.put_root]
  rw [Hub.eviRec, Hub.levelled_seq, Hub.levelled_pin, root, Hub.eviRec]

theorem Hub.levelled_blot {S : List Part} (n : Nat) (e : EviPend) (regs : Part.regs ∈ S) (tm : Part.tm ∈ S) :
    (h.levelled n e).blot S = h.blot S := by
  rw [Hub.levelled, Hub.setPin_blot _ _ _ tm, Hub.put_blot _ _ _ regs]

theorem Hub.recorded_blot {S : List Part} (n : Nat) (e : EviPend) (regs : Part.regs ∈ S) (tm : Part.tm ∈ S) :
    (h.recorded n e).blot S = h.blot S :=
  (Hub.tm_replaced _ _ tm).trans ((Hub.setPin_blot _ _ _ tm).trans (Hub.put_blot _ _ _ regs))

/-- A level accepted on an edge that is not selected makes no record. -/
theorem Hub.eviAccept_unselected {n : Nat} {e : EviPend} (out : bit (h.edgeSel n) (if e.level then 0 else 1) = false) :
    h.eviAccept n e = h.levelled n e :=
  if_neg (by rw [← Hub.levelled, Hub.levelled_edgeSel, out]; exact Bool.false_ne_true)

/-- A level accepted on a selected edge makes its record. -/
theorem Hub.eviAccept_selected {n : Nat} {e : EviPend} (sel : bit (h.edgeSel n) (if e.level then 0 else 1) = true)
    (room : h.tm.fifo.length < 256) : h.eviAccept n e = (h.levelled n e).recorded n e :=
  (if_pos (by rw [← Hub.levelled, Hub.levelled_edgeSel, sel])).trans
    (Hub.eviRecord_room (h := h.levelled n e) n e (by rw [Hub.levelled_fifo]; exact room))

theorem Hub.eviFilterAccept_pending {n : Nat} {e : EviPend} (pend : (h.pin n).pend = some e) :
    h.eviFilterAccept n = h.eviAccept n e := by
  unfold Hub.eviFilterAccept
  simp only [pend]

theorem does_eviFilterAccept_unselected {n : Fin 32} {e : EviPend} (awake : h.awake = true) (pend : (h.pin n).pend = some e)
    (out : bit (h.edgeSel n) (if e.level then 0 else 1) = false) :
    does (.eviFilterAccept n) h (fun t => bit (t.rd A.TIME_EVI_LEVEL).toNat n = e.level ∧ (t.pin n).pend = none
      ∧ t.tm.fifo = h.tm.fifo ∧ t = { h with regs := t.regs, tm := t.tm }) :=
  does_of_eq (f := fun h => h.eviFilterAccept n) awake
    ((Hub.eviFilterAccept_pending pend).trans (Hub.eviAccept_unselected out)) (fun _ => rfl)
    ⟨Hub.levelled_bit n e, by rw [Hub.levelled_pin], Hub.levelled_fifo .., by
      simpa using Hub.of_blot (S := [.regs, .tm]) (Hub.levelled_blot (h := h) n e (by simp) (by simp))⟩

/-- The FIFO once a level is accepted on a selected edge. -/
theorem Hub.recorded_fifo (n : Nat) (e : EviPend) :
    ((h.levelled n e).recorded n e).tm.fifo = (h.eviRec n e).join h.tm.fifo := by
  rw [Hub.recorded, Hub.setFifo_fifo, Hub.levelled_rec, Hub.levelled_fifo]

theorem does_eviFilterAccept_joined {n : Fin 32} {e : EviPend} (awake : h.awake = true) (pend : (h.pin n).pend = some e)
    (sel : bit (h.edgeSel n) (if e.level then 0 else 1) = true) (room : h.tm.fifo.length < 256) :
    does (.eviFilterAccept n) h (fun t => t.tm.fifo = (h.eviRec n e).join h.tm.fifo) :=
  does_of_eq (f := fun h => h.eviFilterAccept n) awake
    ((Hub.eviFilterAccept_pending pend).trans (Hub.eviAccept_selected sel room)) (fun _ => rfl) (Hub.recorded_fifo n e)

/-- A record that enters alone in its tick is the FIFO's last and takes the next group sequence (R135). -/
theorem does_eviFilterAccept_recorded {n : Fin 32} {e : EviPend} (awake : h.awake = true) (pend : (h.pin n).pend = some e)
    (sel : bit (h.edgeSel n) (if e.level then 0 else 1) = true) (room : h.tm.fifo.length < 256)
    (alone : h.tm.fifo.all (fun x => x.entered != h.root / 8) = true) :
    does (.eviFilterAccept n) h (fun t => bit (t.rd A.TIME_EVI_LEVEL).toNat n = e.level ∧ (t.pin n).pend = none
      ∧ t.tm.fifo = h.tm.fifo ++ [h.eviRec n e]
      ∧ t.get R.TIME_EVI_FIFO_STAT_NEXT_SEQ = (h.get R.TIME_EVI_FIFO_STAT_NEXT_SEQ + 1) % 65536
      ∧ t = { h with regs := t.regs, err := t.err, tm := t.tm }) := by
  have last : (h.eviRec n e).join h.tm.fifo = h.tm.fifo ++ [h.eviRec n e] :=
    EviRec.join_of_alone fun x mem => by simpa [Hub.eviRec] using List.all_eq_true.mp alone x mem
  refine does_of_eq (f := fun h => h.eviFilterAccept n) awake
    ((Hub.eviFilterAccept_pending pend).trans (Hub.eviAccept_selected sel room)) (fun _ => rfl)
        ⟨?level, ?pin, ?fifo, ?seq, ?frame⟩
  case level =>
    have other : A.TIME_EVI_LEVEL ≠ R.TIME_EVI_FIFO_STAT_NEXT_SEQ.addr := by decide
    rw [Hub.recorded, Hub.setFifo_rd, Hub.numbered, Hub.setPin_rd, Hub.rd_put_of_ne _ _ _ other, Hub.levelled_bit]
  case pin => rw [Hub.recorded, Hub.setFifo_pin, Hub.numbered, Hub.pin_setPin_self, Hub.levelled_pin]
  case fifo => rw [Hub.recorded_fifo, last]
  case seq =>
    rw [Hub.recorded, Hub.setFifo_get, Hub.numbered, Hub.setPin_get, Hub.get_put_self _ _ _ rfl, Hub.levelled_seq]
    exact Nat.mod_eq_of_lt (Nat.mod_lt _ (by decide))
  case frame =>
    simpa using Hub.of_blot (S := [.regs, .err, .tm])
      ((Hub.recorded_blot n e (by simp) (by simp)).trans (Hub.levelled_blot n e (by simp) (by simp)))

/-! ### The packet of records (R136) -/

/-- What the sending of a packet of the hub's own reaches out of Steep. -/
def sendParts : List Part := [.regs, .rt, .err, .fab, .tun]

theorem Hub.steep_of_blot {t : Hub} (same : t.blot sendParts = h.blot sendParts) : t.pw.steep = h.pw.steep := by
  simpa [Hub.blot, sendParts] using congrArg (fun x : Hub => x.pw.steep) same

theorem Hub.countCopyDrops_reach (ps : List Port) : (h.countCopyDrops ps).blot sendParts = h.blot sendParts := by
  induction ps generalizing h with
  | nil => rfl
  | cons p ps ih => rw [Hub.countCopyDrops, ih, Hub.bump_blot _ _ (by simp [sendParts])]

theorem Hub.takeWay_reach (calm : h.pw.steep = false) (q : Packet) (p : Port) (w : Way) :
    (h.takeWay q p w).1.blot sendParts = h.blot sendParts := by
  have wrapDrop (p : Port) := Hub.blot_mono (Hub.alike_countWrapDrop calm p q.dest).blot (T := sendParts) (by simp [sendParts])
  cases w with
  | copies ts ds e => exact Hub.countCopyDrops_reach ds
  | wrapped o e => exact Hub.bump_blot _ _ (by simp [sendParts])
  | wrapDead o => exact wrapDrop o
  | wrapDrop o => exact wrapDrop o
  | none_ => exact Hub.blot_mono (Hub.alike_countNoRoute calm p q.dest).blot (by simp [sendParts])
  | out o e => rfl
  | deliver m => rfl
  | bcast m => rfl

theorem Hub.localTarget_reach (n : Nat) (c : Cls) : (h.localTarget n c).1.blot sendParts = h.blot sendParts := by
  have counted : (h.countTunnel n).blot sendParts = h.blot sendParts := Hub.onFab_blot _ _ (by simp [sendParts])
  unfold Hub.localTarget
  split
  · split
    · exact counted
    · split
      · rfl
      · exact counted
  · exact counted

theorem Hub.winDup_reach (q : Packet) : (h.winDup q).blot sendParts = h.blot sendParts := by
  unfold Hub.winDup
  split
  · exact Hub.rt_replaced _ _ (by simp [sendParts])
  · exact Hub.bump_blot _ _ (by simp [sendParts])

theorem Hub.ownTargets_reach (calm : h.pw.steep = false) (m : Nat) (q : Packet) :
    (h.ownTargets m q).1.blot sendParts = h.blot sendParts := by
  unfold Hub.ownTargets
  split
  · split
    · exact (Hub.tseqTake_blot _ _ _ (by simp [sendParts])).trans (Hub.winDup_reach q)
    · exact Hub.localTarget_reach ..
  · exact Hub.blot_mono (Hub.alike_countNoRoute calm _ q.dest).blot (by simp [sendParts])
  · exact Hub.takeWay_reach calm ..

theorem Hub.ownTaken_reach (calm : h.pw.steep = false) (n : Nat) (q : Packet) :
    (h.ownTaken n q).blot sendParts = h.blot sendParts := by
  have numbered : (h.tseqTake n q.dest).blot sendParts = h.blot sendParts := Hub.tseqTake_blot _ _ _ (by simp [sendParts])
  have calm' : (h.tseqTake n q.dest).pw.steep = false := (Hub.steep_of_blot numbered).trans calm
  unfold Hub.ownTaken
  simp only []
  split
  · exact (Hub.blot_mono (Hub.alike_winTake calm' ..).blot (by simp [sendParts])).trans numbered
  · exact numbered

theorem Hub.launch_reach (calm : h.pw.steep = false) (n : Nat) (q : Packet) :
    (h.launch n q).1.blot sendParts = h.blot sendParts := by
  have offered {u : Hub} (same : u.blot sendParts = h.blot sendParts) (ts : List Target) :
      (u.enqueue q none (some n) none ts).1.blot sendParts = h.blot sendParts :=
    (Hub.blot_mono (Hub.alike_enqueue ((Hub.steep_of_blot same).trans calm) ..).blot (by simp [sendParts])).trans same
  unfold Hub.launch
  split
  · exact Hub.hold_blot _ _ _ (by simp [sendParts]) (by simp [sendParts])
  · have targets := Hub.ownTargets_reach calm n q
    split
    · next found => rw [found] at targets; exact targets
    · next ts _ found =>
      rw [found] at targets
      have queued := offered targets ts
      split
      · next taken =>
        rw [taken] at queued
        exact (Hub.ownTaken_reach ((Hub.steep_of_blot queued).trans calm) n q).trans queued
      · next taken => rw [taken] at queued; exact queued

/-- A packet of the hub's own is policed, and then launched or counted. -/
theorem Hub.send_reach (calm : h.pw.steep = false) (n dest : Nat) (c : Cls) (kind aux stamp : Nat) (ws : List Word) :
    (h.send n dest c kind aux stamp ws).1.blot sendParts = h.blot sendParts := by
  unfold Hub.send
  have policed := Hub.police_blot (S := sendParts) h n (h.ownPacket n dest c kind aux stamp ws).polBytes (by simp [sendParts])
  have calm' := (Hub.steep_of_blot policed).trans calm
  simp only []
  split
  · exact policed
  · split
    · exact (Hub.blot_mono (Hub.alike_countHdrErr calm' ..).blot (by simp [sendParts])).trans policed
    · split
      · exact (Hub.blot_mono (Hub.alike_countNoRoute calm' ..).blot (by simp [sendParts])).trans policed
      · exact (Hub.launch_reach calm' ..).trans policed

theorem does_eviPacketSend {n : Nat} (awake : h.awake = true) (bound : h.boundTo 0x2A 1 = some n) (some_ : h.tm.fifo ≠ [])
    (running : h.on R.FAB_STATUS_REBUILD = false) :
    does .eviPacketSend h (fun t => t.tm.fifo = h.tm.fifo.drop 32
      ∧ t = { h with regs := t.regs, free := t.free, rt := t.rt, err := t.err, fab := t.fab, tun := t.tun, tm := t.tm }) := by
  obtain ⟨u, taken⟩ : ∃ u : Hub, u = { h with tm := { h.tm with fifo := h.tm.fifo.drop 32 } } := ⟨_, rfl⟩
  have sent : h.eviPacketSend = (u.send n (Config.evtDest n).toNat (u.bindCls n) 0 0 u.stamp
      ((h.tm.fifo.take 32).flatMap EviRec.words)).1 := by
    have waits : ¬ (h.tm.fifo.isEmpty || h.on R.FAB_STATUS_REBUILD) = true := by simp [some_, running]
    unfold Hub.eviPacketSend
    simp only [bound, if_neg waits, taken]
  have reach := Hub.send_reach (h := u) (by rw [taken]; exact Hub.steep_of_awake awake) n (Config.evtDest n).toNat (u.bindCls n)
      0 0
    u.stamp ((h.tm.fifo.take 32).flatMap EviRec.words)
  refine does_of_eq (f := Hub.eviPacketSend) awake sent (fun _ => rfl) ⟨?_, ?_⟩
  · have tm := congrArg Hub.tm reach
    simp only [Hub.blot, sendParts, List.mem_cons, List.not_mem_nil, or_false, reduceCtorEq, if_false] at tm
    rw [tm, taken]
  · have from_h : u.blot [.regs, .free, .rt, .err, .fab, .tun, .tm] = h.blot [.regs, .free, .rt, .err, .fab, .tun, .tm] := by
      rw [taken]; exact Hub.tm_replaced _ _ (by simp)
    simpa using Hub.of_blot ((Hub.blot_mono reach (T := [.regs, .free, .rt, .err, .fab, .tun, .tm])
        (by simp [sendParts])).trans from_h)

theorem becomes_eviPacketSend_unbound (awake : h.awake = true) (free : h.boundTo 0x2A 1 = none) : becomes .eviPacketSend h h :=
  becomes_of_eq (f := Hub.eviPacketSend) awake (by unfold Hub.eviPacketSend; simp only [free]) fun _ => rfl

theorem does_eviPop (awake : h.awake = true) :
    does .eviPop h (fun t => t.tm.fifo = h.tm.fifo.drop 1 ∧ t = { h with tm := t.tm }) :=
  does_of_upd (f := Hub.eviPop) awake (fun _ => rfl) ⟨rfl, rfl⟩

/-! ### Triggered outputs (R137–R142) -/

/-- The parts that a change of an output reaches. -/
theorem Hub.of_alike_output {fs : List RF} {t : Hub} (alike : h.Alike fs [.regs, .out, .tm] t) :
    t = { h with regs := t.regs, out := t.out, tm := t.tm } := by simpa using Hub.of_blot alike.blot

/-- The fields that follow an output's state lie apart from its REFUSED, MODE and SKIP. -/
theorem evoFields_apart : ∀ n : Fin 8, (R.TIME_EVO_STATUS_REFUSED n).off (evoFields n) = true
    ∧ (R.TIME_EVO_CTRL_MODE n).off (evoFields n) = true ∧ (R.TIME_EVO_SKIP n).off (evoFields n) = true := by decide

theorem becomes_evoArm_owned {n : Fin 8} (awake : h.awake = true) (owned : h.on (R.TIME_EVO_CTRL_TUN_OWN n) = true) :
    becomes (.evoArm n) h h := becomes_of_eq (f := fun h => h.evoArm n) awake (if_pos owned) fun _ => rfl

theorem Hub.evoArm_free {n : Nat} (free : h.on (R.TIME_EVO_CTRL_TUN_OWN n) = false) :
    h.evoArm n = (h.evoStart n (h.get (R.TIME_EVO_CTRL_MODE n)) (h.evoStartReg n) (h.rd (A.TIME_EVO_PERIOD n)).toNat
      (h.get (R.TIME_EVO_COUNT_COUNT n)) (h.rd (A.TIME_EVO_WIDTH n)).toNat).1 := if_neg (by simp [free])

theorem becomes_evoArm_halts {n : Fin 8} (awake : h.awake = true) (free : h.on (R.TIME_EVO_CTRL_TUN_OWN n) = false)
    (mode : h.get (R.TIME_EVO_CTRL_MODE n) = 0) : becomes (.evoArm n) h (h.evoHalt n) :=
  becomes_of_eq (f := fun h => h.evoArm n) awake ((Hub.evoArm_free free).trans (congrArg Prod.fst (if_pos mode))) fun _ => rfl

/-- A single pulse far enough ahead is armed (R138). -/
theorem Hub.evoStart_single (n : Nat) {start period count width : Nat} (wide : width ≠ 0) (ahead : h.now + 64 ≤ start) :
    h.evoStart n 1 start period count width
      = ((h.put (R.TIME_EVO_STATUS_REFUSED n) 0).setEvo n
          { h.evo n with sched := some ⟨start, period, count, width, false, 0⟩, queue := [] }, .ok) := by
  have starts : (h.put (R.TIME_EVO_STATUS_REFUSED n) 0).now + 64 ≤ start := ahead
  unfold Hub.evoStart
  rw [if_neg (by decide), if_neg (by simp [wide])]
  simp only [if_pos starts]
  rfl

theorem does_evoArm_single {n : Fin 8} (awake : h.awake = true) (free : h.on (R.TIME_EVO_CTRL_TUN_OWN n) = false)
    (mode : h.get (R.TIME_EVO_CTRL_MODE n) = 1) (wide : (h.rd (A.TIME_EVO_WIDTH n)).toNat ≠ 0)
    (ahead : h.now + 64 ≤ h.evoStartReg n) :
    does (.evoArm n) h (fun t => (t.evo n).sched = some ⟨h.evoStartReg n, (h.rd (A.TIME_EVO_PERIOD n)).toNat,
        h.get (R.TIME_EVO_COUNT_COUNT n), (h.rd (A.TIME_EVO_WIDTH n)).toNat, false, 0⟩
      ∧ (t.evo n).queue = [] ∧ t.get (R.TIME_EVO_STATUS_REFUSED n) = 0
      ∧ t = { h with regs := t.regs, out := t.out, tm := t.tm }) := by
  have starts := (Hub.evoArm_free free).trans (by rw [mode, Hub.evoStart_single n wide ahead])
  have put := Hub.alike_put h (R.TIME_EVO_STATUS_REFUSED n) 0 rfl
  refine does_of_eq (f := fun h => h.evoArm n) awake starts (fun _ => rfl) ⟨?_, ?_, ?_, ?_⟩
  · rw [Hub.evo_setEvo_self]
  · rw [Hub.evo_setEvo_self]
  · rw [(Hub.alike_setEvo ..).get _ (evoFields_apart n).1, Hub.get_put_self _ _ _ rfl, Nat.zero_mod]
  · exact Hub.of_alike_output (fs := R.TIME_EVO_STATUS_REFUSED n :: evoFields n) (put.mono.next (Hub.alike_setEvo ..))

theorem does_evoStop {n : Fin 8} (awake : h.awake = true) (free : h.on (R.TIME_EVO_CTRL_TUN_OWN n) = false) :
    does (.evoStop n false) h (fun t => t.get (R.TIME_EVO_CTRL_MODE n) = 0 ∧ t.evo n = Evo.idle
      ∧ t.get (R.TIME_EVO_STATUS_ARMED n) = 0 ∧ t = { h with regs := t.regs, out := t.out, tm := t.tm }) := by
  have stops : h.evoStop n false = (h.put (R.TIME_EVO_CTRL_MODE n) 0).setEvo n .idle :=
    (if_neg Bool.false_ne_true).trans (if_neg (by simp [free]))
  have put := Hub.alike_put h (R.TIME_EVO_CTRL_MODE n) 0 rfl
  refine does_of_eq (f := fun h => h.evoStop n false) awake stops (fun _ => rfl)
    ⟨?_, Hub.evo_setEvo_self .., Hub.setEvo_armed .., ?_⟩
  · rw [(Hub.alike_setEvo ..).get _ (evoFields_apart n).2.1, Hub.get_put_self _ _ _ rfl, Nat.zero_mod]
  · exact Hub.of_alike_output (fs := R.TIME_EVO_CTRL_MODE n :: evoFields n) (put.mono.next (Hub.alike_setEvo ..))

theorem does_evoEdge_periodic {n : Fin 8} {x : EvoSched} (awake : h.awake = true) (sched : (h.evo n).sched = some x)
    (periodic : x.periodic = true) (ungated : h.gated n = false) :
    does (.evoEdge n) h (fun t => (t.evo n).on = true ∧ (t.evo n).pulseEnd = some (x.edge x.k + x.width)
      ∧ (t.evo n).sched = some { x with k := x.k + 1 } ∧ t = { h with regs := t.regs, out := t.out, tm := t.tm }) := by
  have due : h.evoEdge n = h.setEvo n { h.evo n with
      sched := some { x with k := x.k + 1 }, on := true, pulseEnd := some (x.edge x.k + x.width) } := by
    unfold Hub.evoEdge
    simp only [sched, periodic, ungated, if_true, Bool.false_eq_true, if_false]
  refine does_of_eq (f := fun h => h.evoEdge n) awake due (fun _ => rfl) ⟨?_, ?_, ?_, Hub.of_alike_output (Hub.alike_setEvo ..)⟩
  all_goals rw [Hub.evo_setEvo_self]

theorem does_evoEdge_gated {n : Fin 8} {x : EvoSched} (awake : h.awake = true) (sched : (h.evo n).sched = some x)
    (gated : h.gated n = true) :
    does (.evoEdge n) h (fun t => (t.evo n).on = (h.evo n).on
      ∧ t.get (R.TIME_EVO_SKIP n) = min (2 ^ (R.TIME_EVO_SKIP n).width - 1) (h.get (R.TIME_EVO_SKIP n) + 1)
      ∧ t = { h with regs := t.regs, out := t.out, tm := t.tm }) := by
  have skips : h.evoEdge n = (h.setEvo n { h.evo n with
      sched := if x.periodic then some { x with k := x.k + 1 } else none }).bump (R.TIME_EVO_SKIP n) := by
    unfold Hub.evoEdge
    simp only [sched, gated, if_true]
  have set := Hub.alike_setEvo h n { h.evo n with sched := if x.periodic then some { x with k := x.k + 1 } else none }
  refine does_of_eq (f := fun h => h.evoEdge n) awake skips (fun _ => rfl) ⟨?_, ?_, ?_⟩
  · rw [Hub.evo_of_tm (Hub.bump_tm ..), Hub.evo_setEvo_self]
  · rw [Hub.get_bump_self _ _ rfl, set.get _ (evoFields_apart n).2.2]
  · exact Hub.of_alike_output (fs := R.TIME_EVO_SKIP n :: evoFields n) (set.mono.next (Hub.alike_bump _ _ rfl))

theorem does_evoPulseEnd {n : Fin 8} {e : Nat} (awake : h.awake = true) (pulse : (h.evo n).pulseEnd = some e) :
    does (.evoPulseEnd n) h (fun t => (t.evo n).on = false ∧ (t.evo n).pulseEnd = none ∧ (t.evo n).sched = (h.evo n).sched
      ∧ t.get (R.TIME_EVO_STATUS_ACTIVE n) = 0 ∧ t = { h with regs := t.regs, out := t.out, tm := t.tm }) := by
  have ends : h.evoPulseEnd n = h.setEvo n { h.evo n with on := false, pulseEnd := none } := if_pos (by simp [pulse])
  refine does_of_eq (f := fun h => h.evoPulseEnd n) awake ends (fun _ => rfl)
    ⟨?_, ?_, ?_, Hub.setEvo_inactive _ _ rfl, Hub.of_alike_output (Hub.alike_setEvo ..)⟩
  all_goals rw [Hub.evo_setEvo_self]

end

end Sys2Proof.Machine
end

section
open Sys2Proof Sys2Proof.Machine

/-- Settles O16: each clause is the lemma about its command; they rest on what an accepted level, a packet of the hub's own and a
change of an output each come to. The place a record takes among those of its tick (R135) and the clearing of REFUSED by an
accepted arm are the model's readings (assumptions 103 and 37, DEDUCED). -/
theorem eventPinCommands : Obligations.EventPinCommands := by
  intro h awake
  exact ⟨fun n l => does_eviLevelChange_filtered awake, fun n l => does_eviLevelChange_glitch awake,
    fun n e => does_eviFilterAccept_recorded awake, fun n e => does_eviFilterAccept_joined awake,
    fun n e => does_eviFilterAccept_unselected awake, fun n => does_eviPacketSend awake, becomes_eviPacketSend_unbound awake,
    does_eviPop awake, fun n => becomes_evoArm_owned awake, fun n => becomes_evoArm_halts awake,
    fun n => does_evoArm_single awake, fun n => does_evoStop awake, fun n x => does_evoEdge_periodic awake,
    fun n x => does_evoEdge_gated awake, fun n e => does_evoPulseEnd awake⟩
end

section
/-! SUPPORT. The clock modes (O14): what the setting of the mode, the entry to RING, the fall to FREE, a window of the monitor and
an entry of the log come to (R110–R120, R306, R458, R513). -/

open Sys2Proof Sys2Proof.Machine

namespace Sys2Proof.Machine

section
variable {h : Hub}

/-! ### Mode and selection -/

/-- The fields of the mode and the selection. -/
def clockFields : List RF := [R.CLK_STATUS_MODE, R.CLK_STATUS_SEL]

theorem Hub.alike_setClk (h : Hub) (mode sel : Nat) : h.Alike clockFields [.regs] (h.setClk mode sel) :=
  ((Hub.alike_put h R.CLK_STATUS_MODE mode rfl).mono (by simp [clockFields])).next (Hub.alike_put _ R.CLK_STATUS_SEL sel rfl)
    (by simp [clockFields])

theorem Hub.setClk_mode (h : Hub) {mode : Nat} (sel : Nat) (small : mode < 8) : (h.setClk mode sel).clkMode = mode := by
  rw [Hub.clkMode, Hub.setClk, Hub.get_put_of_apart _ R.CLK_STATUS_SEL _ _ rfl (by decide), Hub.get_put_self _ _ _ rfl]
  exact Nat.mod_eq_of_lt small

theorem Hub.setClk_sel (h : Hub) (mode : Nat) {sel : Nat} (small : sel < 4) : (h.setClk mode sel).get R.CLK_STATUS_SEL = sel := by
  rw [Hub.setClk, Hub.get_put_self _ _ _ rfl]
  exact Nat.mod_eq_of_lt small

theorem selCode_lt (p : Port) : selCode p < 4 := by cases p <;> decide

/-- The mode is a field like any other. -/
theorem Hub.Alike.clkMode {fs : List RF} {S : List Part} {t : Hub} (a : h.Alike fs S t) (off : R.CLK_STATUS_MODE.off fs = true) :
    t.clkMode = h.clkMode := a.get _ off

theorem clock_off_quality : R.CLK_STATUS_MODE.off qualityFields = true ∧ R.CLK_STATUS_SEL.off qualityFields = true := by decide

theorem Hub.ring_of_selPort {p : Port} (sel : h.selPort = some p) : p = .W ∨ p = .E := by
  unfold Hub.selPort at sel
  split at sel
  · exact .inl (Option.some.inj sel).symm
  · exact .inr (Option.some.inj sel).symm
  · exact absurd sel (by simp)

/-! ### The display links (R296) -/

theorem Hub.alike_lvdsAll (h : Hub) : h.Alike [] [.out] h.lvdsAll :=
  Hub.alike_foldl _ (fun x _ _ => ((Hub.alike_emit ..).trans (Hub.alike_emit ..)).ite (.refl _ _ x)) h

theorem Hub.lvdsAll_keeps {x : Tx} (left : x ∈ h.out) : x ∈ h.lvdsAll.out := by
  have shown (u : Hub) (i : Nat) (left : x ∈ u.out) : x ∈ (if u.on (R.DSP_CTRL_EN i) then u.lvdsShow i else u).out := by
    split
    · exact List.mem_cons_of_mem _ (List.mem_cons_of_mem _ left)
    · exact left
  exact shown _ 1 (shown _ 0 left)

/-! ### The Ethernet links fall (R306) -/

/-- The fields of an Ethernet port that its fall reaches. -/
def ethFields (x : Nat) : List RF :=
  [R.ETH_STATUS_LINK x, R.ETH_STATUS_AN_DONE x, R.ETH_STATUS_AN_FAIL x, R.ETH_STATUS_RF x, word (A.ETH_TX_DOWN_DROP x),
    word (A.ETH_LINK_DOWN_CNT x)]

/-- The hub with a port's link DOWN, nothing counted. -/
def Hub.ethCleared (h : Hub) (x : Nat) : Hub :=
  (((h.put (R.ETH_STATUS_LINK x) 0).put (R.ETH_STATUS_AN_DONE x) 0).put (R.ETH_STATUS_AN_FAIL x) 0).put (R.ETH_STATUS_RF x) 0

/-- The hub with a fallen link counted and the frames that waited for its wire discarded. -/
def Hub.ethCounted (h : Hub) (x : Nat) : Hub :=
  (((h.ethCleared x).bumpBy (word (A.ETH_TX_DOWN_DROP x)) ((h.ethCleared x).ethPort x).txq.length).setEthPort x
    { (h.ethCleared x).ethPort x with txq := [] }).bump (word (A.ETH_LINK_DOWN_CNT x))

theorem Hub.ethDown_idle {x : Nat} (idle : h.ethLink x ≠ 2) : h.ethDown x = h.ethCleared x := if_neg idle

theorem Hub.ethDown_up {x : Nat} (up : h.ethLink x = 2) : h.ethDown x = (h.ethCounted x).ethNotice x := if_pos up

theorem Hub.alike_ethCleared (h : Hub) (x : Nat) : h.Alike (ethFields x) [.regs] (h.ethCleared x) :=
  ((((Hub.alike_put h _ _ rfl).mono (by simp [ethFields])).next (Hub.alike_put _ _ _ rfl) (by simp [ethFields])).next
    (Hub.alike_put _ _ _ rfl) (by simp [ethFields])).next (Hub.alike_put _ _ _ rfl) (by simp [ethFields])

/-- The counters of a fall to DOWN. -/
def ethCounts (x : Nat) : List RF := [word (A.ETH_TX_DOWN_DROP x), word (A.ETH_LINK_DOWN_CNT x)]

theorem Hub.alike_ethCounted (h : Hub) (x : Nat) : (h.ethCleared x).Alike (ethCounts x) [.regs, .eth] (h.ethCounted x) := by
  have emptied (u : Hub) (v : EthPort) : u.Alike [] [.eth] (u.setEthPort x v) := ⟨fun _ _ => rfl, Hub.setEthPort_blot _ _ _
      (by simp)⟩
  exact (((Hub.alike_bumpBy (h.ethCleared x) _ _ rfl).mono (by simp [ethCounts])).next (emptied ..)).next (Hub.alike_bump _ _ rfl)
    (by simp [ethCounts])

/-- A fall to DOWN beyond the link's own fields: the counts, the frames that waited, and the notice. -/
theorem Hub.alike_ethDown_cleared (h : Hub) (x : Nat) : (h.ethCleared x).Alike (ethCounts x) [.regs, .err, .eth] (h.ethDown x)
    := by
  by_cases up : h.ethLink x = 2
  · rw [Hub.ethDown_up up]
    exact (Hub.alike_ethCounted h x).mono.next (Hub.logOnly_notice ..)
  · rw [Hub.ethDown_idle up]
    exact .refl _ _ _

theorem Hub.alike_ethDown (h : Hub) (x : Nat) : h.Alike (ethFields x) [.regs, .err, .eth] (h.ethDown x) :=
  ((Hub.alike_ethCleared h x).mono (by simp)).next (Hub.alike_ethDown_cleared h x) (by simp [ethFields, ethCounts])

/-- The port that fell is DOWN, and every other link is as it was. -/
theorem Hub.ethDown_link (h : Hub) (x y : Fin 4) : (h.ethDown x).ethLink y = if y = x then 0 else h.ethLink y := by
  split
  case isTrue same =>
    subst same
    have off : (R.ETH_STATUS_LINK y).off (ethCounts y) = true := by
      revert y; decide
    rw [Hub.ethLink, (Hub.alike_ethDown_cleared h y).get _ off, Hub.ethCleared,
      Hub.get_put_of_apart _ (R.ETH_STATUS_RF y) _ _ rfl (RF.apart_of_bits rfl),
      Hub.get_put_of_apart _ (R.ETH_STATUS_AN_FAIL y) _ _ rfl (RF.apart_of_bits rfl),
      Hub.get_put_of_apart _ (R.ETH_STATUS_AN_DONE y) _ _ rfl (RF.apart_of_bits rfl), Hub.get_put_self _ _ _ rfl, Nat.zero_mod]
  case isFalse other =>
    have off : ∀ x y : Fin 4, y ≠ x → (R.ETH_STATUS_LINK y).off (ethFields x) = true := by decide
    exact (Hub.alike_ethDown h x).get _ (off x y other)

theorem Hub.queueEvent_err (h : Hub) (e : Ev) : (h.queueEvent e).err = { h.err with evtq := (h.queueEvent e).err.evtq } := by
  unfold Hub.queueEvent
  by_cases room : h.err.evtq.length < 64
  · simp only [room, if_true]
  · have same := Hub.bump_err h R.ERR_EVT_LOST
    simp only [room, if_false]
    generalize h.bump R.ERR_EVT_LOST = u at same ⊢
    simp only [same]

theorem Hub.notice_err (h : Hub) (src code d0 d1 : Nat) :
    (h.notice src code d0 d1).err = { h.err with evtq := (h.notice src code d0 d1).err.evtq } := by
  unfold Hub.notice
  split
  · exact Hub.queueEvent_err ..
  · rfl

/-- Of the log a fall changes the EVENTs that wait. -/
theorem Hub.ethDown_err (h : Hub) (x : Nat) : (h.ethDown x).err = { h.err with evtq := (h.ethDown x).err.evtq } := by
  have cleared := (Hub.alike_ethCleared h x).err (by simp)
  by_cases up : h.ethLink x = 2
  · have counted := (Hub.alike_ethCounted h x).err (by simp)
    rw [Hub.ethDown_up up, ← cleared, ← counted]
    exact Hub.notice_err ..
  · rw [Hub.ethDown_idle up, cleared]

/-- Every link is DOWN. -/
theorem Hub.ethAllDown_link (h : Hub) (y : Fin 4) : h.ethAllDown.ethLink y = 0 := by
  have falls : h.ethAllDown = (((h.ethDown (0 : Fin 4)).ethDown (1 : Fin 4)).ethDown (2 : Fin 4)).ethDown (3 : Fin 4) := rfl
  rw [falls]
  simp only [Hub.ethDown_link]
  fin_cases y <;> rfl

/-- Where no link was UP nothing is noticed. -/
theorem Hub.ethAllDown_err_idle (idle : ∀ x : Fin 4, h.ethLink x ≠ 2) : h.ethAllDown.err = h.err := by
  have falls : h.ethAllDown = (((h.ethDown (0 : Fin 4)).ethDown (1 : Fin 4)).ethDown (2 : Fin 4)).ethDown (3 : Fin 4) := rfl
  have fall (u : Hub) (x : Fin 4) (idle : ∀ y : Fin 4, u.ethLink y ≠ 2) :
      (∀ y : Fin 4, (u.ethDown x).ethLink y ≠ 2) ∧ (u.ethDown x).err = u.err := by
    refine ⟨fun y => ?_, ?_⟩
    · rw [Hub.ethDown_link]
      split
      · decide
      · exact idle y
    · rw [Hub.ethDown_idle (idle x)]
      exact (Hub.alike_ethCleared u x).err (by simp)
  obtain ⟨i0, e0⟩ := fall h 0 idle
  obtain ⟨i1, e1⟩ := fall _ 1 i0
  obtain ⟨i2, e2⟩ := fall _ 2 i1
  obtain ⟨-, e3⟩ := fall _ 3 i2
  rw [falls, e3, e2, e1, e0]

theorem Hub.ethAllDown_err (h : Hub) : h.ethAllDown.err = { h.err with evtq := h.ethAllDown.err.evtq } := by
  have falls : h.ethAllDown = (((h.ethDown 0).ethDown 1).ethDown 2).ethDown 3 := rfl
  rw [falls, Hub.ethDown_err, Hub.ethDown_err (((h.ethDown 0).ethDown 1)), Hub.ethDown_err (h.ethDown 0), Hub.ethDown_err h]

/-- The fields that the fall of every Ethernet link reaches. -/
def ethAllFields : List RF := [0, 1, 2, 3].flatMap ethFields

theorem Hub.alike_ethAllDown (h : Hub) : h.Alike ethAllFields [.regs, .err, .eth] h.ethAllDown :=
  Hub.alike_foldl _ (fun u x m => (Hub.alike_ethDown u x).mono fun _ f => List.mem_flatMap.mpr ⟨x, m, f⟩) h

/-! ### FREE (R111, R115) -/

/-- What the fall to FREE reaches beyond the mode, the selection and the time of HOLDOVER. -/
def freeFields : List RF := ethAllFields ++ qualityFields

/-- The parts the fall to FREE reaches. -/
def freeParts : List Part := [.regs, .err, .out, .tm, .tun, .eth]

/-- The hub in FREE, with every transmitter idle. -/
def Hub.idled (h : Hub) : Hub := Port.all.foldl (fun h p => h.emit (.idle p)) (h.holdoverOver.setClk ckFree 0)

theorem Hub.goFree_eq (h : Hub) :
    h.goFree = ({ h.idled.ethAllDown.lvdsAll with tm := { h.idled.ethAllDown.lvdsAll.tm with followed := none } }).refreshQuality := rfl

theorem Hub.alike_goFree_idled (h : Hub) : h.idled.Alike freeFields freeParts h.goFree := by
  have down := (Hub.alike_ethAllDown h.idled).mono (gs := freeFields) (T := freeParts) (by simp [freeFields])
      (by simp [freeParts])
  have tail := ((down.next (Hub.alike_lvdsAll _) (by simp) (by simp [freeParts])).next
    (Hub.alike_tm _ { h.idled.ethAllDown.lvdsAll.tm with followed := none }) (by simp) (by simp [freeParts])).next
    (Hub.alike_refreshQuality _) (by simp [freeFields]) (by simp [freeParts])
  rwa [Hub.goFree_eq]

theorem Hub.alike_holdoverOver (h : Hub) : h.Alike [word A.CLK_HOLDOVER_TIME] [.regs] h.holdoverOver :=
  (Hub.alike_wr ..).ite (.refl _ _ h)

theorem Hub.alike_idled_setClk (h : Hub) : (h.holdoverOver.setClk ckFree 0).Alike [] [.out] h.idled :=
  Hub.alike_foldl Port.all (fun _ _ _ => Hub.alike_emit ..) _

theorem Hub.alike_idled (h : Hub) : h.Alike (word A.CLK_HOLDOVER_TIME :: clockFields) [.regs, .out] h.idled :=
  (((Hub.alike_holdoverOver h).mono).next (Hub.alike_setClk ..)).next (Hub.alike_idled_setClk h)

theorem Hub.idled_mode (h : Hub) : h.idled.clkMode = ckFree :=
  ((Hub.alike_idled_setClk h).clkMode (by decide)).trans (Hub.setClk_mode _ _ (by decide))

theorem Hub.idled_sel (h : Hub) : h.idled.get R.CLK_STATUS_SEL = 0 :=
  ((Hub.alike_idled_setClk h).get _ (by decide)).trans (Hub.setClk_sel _ _ (by decide))

theorem Hub.alike_goFree (h : Hub) : h.Alike (word A.CLK_HOLDOVER_TIME :: clockFields ++ freeFields) freeParts h.goFree :=
  ((Hub.alike_idled h).mono (by simp) (by simp [freeParts])).next (Hub.alike_goFree_idled h) (by simp)

theorem clock_off_free : R.CLK_STATUS_MODE.off freeFields = true ∧ R.CLK_STATUS_SEL.off freeFields = true := by decide

theorem Hub.goFree_mode (h : Hub) : h.goFree.clkMode = ckFree :=
  ((Hub.alike_goFree_idled h).clkMode clock_off_free.1).trans h.idled_mode

theorem Hub.goFree_sel (h : Hub) : h.goFree.get R.CLK_STATUS_SEL = 0 :=
  ((Hub.alike_goFree_idled h).get _ clock_off_free.2).trans h.idled_sel

theorem Hub.goFree_followed (h : Hub) : h.goFree.tm.followed = none := by
  rw [Hub.goFree_eq, (Hub.alike_refreshQuality _).tm (by simp)]

/-- Every transmitter goes to electrical idle. -/
theorem Hub.goFree_idle (h : Hub) {q : Port} (mem : q ∈ Port.all) : .idle q ∈ h.goFree.out := by
  have left : .idle q ∈ h.idled.out := by revert mem; cases q <;> simp [Hub.idled, Port.all]
  rw [Hub.goFree_eq]
  exact Hub.refreshQuality_keeps (Hub.lvdsAll_keeps ((Hub.alike_ethAllDown h.idled).out (by simp) ▸ left))

theorem Hub.goFree_link (h : Hub) (x : Fin 4) : h.goFree.ethLink x = 0 := by
  have off : ∀ x : Fin 4, (R.ETH_STATUS_LINK x).off qualityFields = true := by decide
  rw [Hub.goFree_eq, Hub.ethLink, (Hub.alike_refreshQuality _).get _ (off x)]
  exact ((Hub.alike_lvdsAll _).get _ (by revert x; decide)).trans (Hub.ethAllDown_link _ x)

theorem Hub.goFree_err (h : Hub) : h.goFree.err = h.idled.ethAllDown.err := by
  rw [Hub.goFree_eq, (Hub.alike_refreshQuality _).err (by simp)]
  exact (Hub.alike_lvdsAll _).err (by simp)

theorem Hub.idled_err (h : Hub) : h.idled.err = h.err := (Hub.alike_idled h).err (by simp)

/-- The fall to FREE logs nothing. -/
theorem Hub.goFree_err_frame (h : Hub) : h.goFree.err = { h.err with evtq := h.goFree.err.evtq } := by
  rw [Hub.goFree_err, Hub.ethAllDown_err, Hub.idled_err]

/-- Where no Ethernet port was UP nothing is noticed either. -/
theorem Hub.goFree_err_idle (idle : ∀ x : Fin 4, h.ethLink x ≠ 2) : h.goFree.err = h.err := by
  have off : ∀ x : Fin 4, (R.ETH_STATUS_LINK x).off (word A.CLK_HOLDOVER_TIME :: clockFields) = true := by decide
  rw [Hub.goFree_err, Hub.ethAllDown_err_idle fun x => ?_, Hub.idled_err]
  rw [Hub.ethLink, (Hub.alike_idled h).get _ (off x)]
  exact idle x

theorem Hub.goFree_frame (h : Hub) : h.goFree = { h with
    regs := h.goFree.regs, err := h.goFree.err, out := h.goFree.out, tm := h.goFree.tm, tun := h.goFree.tun
    eth := h.goFree.eth } := by
  simpa [freeParts] using Hub.of_blot (Hub.alike_goFree h).blot

/-! ### RING (R114, R115) -/

/-- The hub with the clock's state beyond its registers replaced. -/
def Hub.withTm (h : Hub) (x : TimeState) : Hub := { h with tm := x }

@[simp] theorem Hub.withTm_tm (h : Hub) (x : TimeState) : (h.withTm x).tm = x := rfl

@[simp] theorem Hub.withTm_withTm (h : Hub) (x y : TimeState) : (h.withTm x).withTm y = h.withTm y := rfl

theorem Hub.alike_withTm (h : Hub) (x : TimeState) : h.Alike [] [.tm] (h.withTm x) := Hub.alike_tm h x

/-- The mean over the windows changes the frequency memory and nothing else. -/
theorem Hub.updateMemory_eq (h : Hub) : ∃ n d, h.updateMemory = h.withTm { h.tm with memNum := n, memDen := d } := by
  unfold Hub.updateMemory
  split
  · simp only []
    split
    · exact ⟨_, _, rfl⟩
    · exact ⟨_, _, rfl⟩
  · exact ⟨_, _, rfl⟩

/-- The hub with its root on a candidate: of the clock's state beyond its registers the memory may change, and no candidate is
followed. -/
theorem Hub.enterRing_eq (h : Hub) (p : Port) : ∃ x : TimeState, x.followed = none
    ∧ h.enterRing p = ((h.setClk ckRing (selCode p)).withTm x).refreshQuality := by
  unfold Hub.enterRing
  extract_lets clk first mean y
  have set : ∃ x, first = clk.withTm x := by
    simp only [first]
    split
    · split
      · exact ⟨_, rfl⟩
      · exact ⟨_, rfl⟩
    · exact ⟨_, rfl⟩
  obtain ⟨x, ex⟩ := set
  obtain ⟨n, d, em⟩ := first.updateMemory_eq
  refine ⟨{ mean.tm with followed := none }, rfl, ?_⟩
  have from_clk : mean = clk.withTm { x with memNum := n, memDen := d } := by simp only [mean, em, ex, Hub.withTm_withTm,
      Hub.withTm_tm]
  change ((mean.withTm { mean.tm with followed := none }).refreshQuality) = _
  rw [from_clk]
  rfl

/-- The fields that the entry to RING reaches. -/
def ringFields : List RF := clockFields ++ qualityFields

theorem Hub.alike_enterRing (h : Hub) (p : Port) : h.Alike ringFields [.regs, .out, .tm, .tun] (h.enterRing p) := by
  obtain ⟨x, -, e⟩ := h.enterRing_eq p
  rw [e]
  exact (((Hub.alike_setClk h ckRing (selCode p)).mono (by simp [ringFields])).next (Hub.alike_withTm _ x)).next
    (Hub.alike_refreshQuality _) (by simp [ringFields])

theorem Hub.enterRing_mode (h : Hub) (p : Port) : (h.enterRing p).clkMode = ckRing := by
  obtain ⟨x, -, e⟩ := h.enterRing_eq p
  rw [e, (Hub.alike_refreshQuality _).clkMode clock_off_quality.1, (Hub.alike_withTm _ x).clkMode (by decide)]
  exact Hub.setClk_mode _ _ (by decide)

theorem Hub.enterRing_sel (h : Hub) (p : Port) : (h.enterRing p).get R.CLK_STATUS_SEL = selCode p := by
  obtain ⟨x, -, e⟩ := h.enterRing_eq p
  rw [e, (Hub.alike_refreshQuality _).get _ clock_off_quality.2, (Hub.alike_withTm _ x).get _ (by decide)]
  exact Hub.setClk_sel _ _ (selCode_lt p)

theorem Hub.enterRing_followed (h : Hub) (p : Port) : (h.enterRing p).tm.followed = none := by
  obtain ⟨x, none, e⟩ := h.enterRing_eq p
  rw [e, (Hub.alike_refreshQuality _).tm (by simp), Hub.withTm_tm, none]

end

end Sys2Proof.Machine
end

section
/-! SUPPORT. The record an entry of the log makes, and what is handled once a clock's recovery has ended (R455, R458). -/

open Sys2Proof Sys2Proof.Machine

namespace Sys2Proof.Machine

section
variable {h t : Hub}

/-- Hubs with the same words of the log's slot and the same entries choose the same slot for the next. -/
theorem Hub.nextSlot_congr (words : ∀ a, a / 0x4000 = 3 → t.rd a = h.rd a) (log : t.err.log = h.err.log) :
    t.nextSlot = h.nextSlot := by
  have field (f : RF) (slot : f.addr / 0x4000 = 3) : t.get f = h.get f := by rw [Hub.get, words _ slot, Hub.get]
  have held (i : Nat) : t.slotHeld i = h.slotHeld i := by
    simp only [Hub.slotHeld, Hub.unacked, log, field R.ERR_SEQ_ACKED rfl, field R.ERR_SEQ_NEWEST rfl, words A.ERR_CTRL rfl]
  simp only [Hub.nextSlot, Hub.worstHeld, held, log, field R.ERR_STATUS_NEWEST rfl, field R.ERR_SEQ_NEWEST rfl]

/-- A record tells what is handled, when, and by which hub; nothing else of the hub. -/
theorem Hub.mkRec_congr (handling : t.err.handling = h.err.handling) (stime : t.stime = h.stime)
    (seq : t.get R.ERR_SEQ_NEWEST = h.get R.ERR_SEQ_NEWEST) (valid : t.get R.TIME_STATUS_VALID = h.get R.TIME_STATUS_VALID)
    (quality : t.get R.TIME_STATUS_QUALITY = h.get R.TIME_STATUS_QUALITY) (addr : t.get R.DEV_STATUS_ADDR
        = h.get R.DEV_STATUS_ADDR)
    (src code sev d0 d1 d2 : Nat) : t.mkRec src code sev d0 d1 d2 = h.mkRec src code sev d0 d1 d2 := by
  unfold Hub.mkRec Hub.now Hub.quality Hub.on Hub.addr
  rw [handling, stime, seq, valid, quality, addr]

@[simp] theorem Hub.setHandling_handling (h : Hub) (l : List Handling) : (h.setHandling l).err.handling = l := by
  rw [Hub.setHandling, Hub.put_err]

@[simp] theorem Hub.queueEvent_handling (h : Hub) (e : Ev) : (h.queueEvent e).err.handling = h.err.handling := by
  rw [Hub.queueEvent_err]

/-- An entry below FATAL that starts a recovery is handled for it alone, after what was handled before. -/
theorem Hub.entryNow_handling (h : Hub) {r : Rec} (b : Recovery) (m : Bool) (calm : r.sev ≠ 3) :
    ∃ x : Handling, x.by_ = b ∧ (h.entryNow r (some b) m).err.handling = h.err.handling ++ [x] := by
  obtain ⟨t, e⟩ : ∃ t, t = h.entryNow r (some b) m := ⟨_, rfl⟩
  rw [← e]
  unfold Hub.entryNow at e
  extract_lets slot isOver h1 y h2 h3 h4 h5 h6 add h7 at e
  have e1 : h1.err = h.err := by
    simp only [h1]
    split
    · exact Hub.bump_err _ _
    · rfl
  have e2 : h2.err.handling = h.err.handling := by rw [← e1]
  have e4 : h4.err = h2.err := (Hub.bump_err _ _).trans <| (Hub.setUnacked_err _).trans <| (Hub.put_err _ _ _).trans <|
    (Hub.put_err _ _ _).trans (Hub.put_err _ _ _)
  have e5 : h5.err = h2.err := by
    simp only [h5]
    split
    · exact (Hub.put_err _ _ _).trans e4
    · exact e4
  have e6 : h6.err.handling = h2.err.handling := by
    simp only [h6]
    split
    · rw [Hub.queueEvent_handling, e5]
    · rw [e5]
  have single : add = [⟨slot, r.source, b, h6.root⟩] := by simp [add, calm]
  refine ⟨⟨slot, r.source, b, h6.root⟩, rfl, ?_⟩
  rw [e, if_neg (by simpa using calm)]
  simp only [h7, single, List.isEmpty_cons, Bool.false_eq_true, if_false]
  rw [Hub.setHandling_handling, e6, e2]

/-- Where nothing is handled there is nothing to end. -/
theorem Hub.expireHandling_idle (idle : h.err.handling = []) : h.expireHandling = h := by
  unfold Hub.expireHandling
  simp only [idle, List.any_nil, Bool.false_eq_true, if_false]

/-- An entry logged while nothing is handled: its record stands in the next slot, and its recovery alone is handled. -/
theorem Hub.logBy_idle (up : h.pw.steep = false) (idle : h.err.handling = []) (src code : Nat) {sev : Nat} (calm : sev ≠ 3)
    (d0 d1 d2 : Nat) (b : Recovery) :
    KMap.get? (h.logBy src code sev d0 d1 d2 b).err.log h.nextSlot = some (h.mkRec src code sev d0 d1 d2)
    ∧ ∃ x : Handling, x.by_ = b ∧ (h.logBy src code sev d0 d1 d2 b).err.handling = [x] := by
  have sevOf : (h.mkRec src code sev d0 d1 d2).sev ≠ 3 := by simpa [Hub.mkRec, idle] using calm
  rw [Hub.logBy, Hub.expireHandling_idle idle]
  refine ⟨Hub.entry_log up .., ?_⟩
  obtain ⟨x, by_, made⟩ := h.entryNow_handling b false sevOf
  exact ⟨x, by_, by rw [Hub.entry, if_neg (by simp [up]), made, idle, List.nil_append]⟩

@[simp] theorem Hub.recovered_log (h : Hub) (b : Recovery) : (h.recovered b).err.log = h.err.log := by
  unfold Hub.recovered
  split
  · exact Hub.setHandling_log ..
  · rfl

/-- The end of the one recovery that was handled. -/
theorem Hub.recovered_single {x : Handling} {b : Recovery} (by_ : x.by_ = b) (one : h.err.handling = [x]) :
    (h.recovered b).err.handling = [] := by
  unfold Hub.recovered
  simp [one, by_]

end

end Sys2Proof.Machine
end

section
/-! SUPPORT. The commands of the clock modes (O14): what each does where its conditions hold (R110–R120, R513). -/

open Sys2Proof Sys2Proof.Machine

namespace Sys2Proof.Machine

section
variable {h : Hub}

/-! ### ACQUIRE and STEP_HOLD (R111, R115) -/

theorem does_clockAcquire {p : Port} (awake : h.awake = true) (free : h.clkMode = ckFree) (candidate : h.candidate p = true) :
    does (.clockAcquire p) h (fun t => t.clkMode = ckAcquire ∧ t.get R.CLK_STATUS_SEL = selCode p ∧ t.tm.followed = some p
      ∧ t = { h with regs := t.regs, out := t.out, tm := t.tm }) := by
  have follows : h.clockAcquire p = (h.setClk ckAcquire (selCode p)).lvdsAll.withTm
      { (h.setClk ckAcquire (selCode p)).lvdsAll.tm with followed := some p } := if_pos ⟨free, candidate⟩
  have shown := ((Hub.alike_lvdsAll (h.setClk ckAcquire (selCode p))).mono (gs := []) (T := [.out, .tm])).next (Hub.alike_withTm _
    { (h.setClk ckAcquire (selCode p)).lvdsAll.tm with followed := some p })
  refine does_of_eq (f := fun h => h.clockAcquire p) awake follows (fun _ => rfl) ⟨?_, ?_, rfl, ?_⟩
  · exact (shown.clkMode (by decide)).trans (Hub.setClk_mode _ _ (by decide))
  · exact (shown.get _ (by decide)).trans (Hub.setClk_sel _ _ (selCode_lt p))
  · simpa using Hub.of_blot (((Hub.alike_setClk h ckAcquire (selCode p)).mono (gs := clockFields)
      (T := [.regs, .out, .tm])).next shown).blot

theorem does_acquireTimeout {p : Port} (awake : h.awake = true) (acquire : h.clkMode = ckAcquire)
    (follows : h.tm.followed = some p)
    (down : h.up p = false) :
    does .acquireTimeout h (fun t => t = h.goFree ∧ t.clkMode = ckFree ∧ t.get R.CLK_STATUS_SEL = 0 ∧ t.tm.followed = none
      ∧ t.get R.CLK_SWITCH_CNT = h.get R.CLK_SWITCH_CNT ∧ t.rd A.CLK_EVENT = h.rd A.CLK_EVENT ∧ (∀ q ∈ Port.all, .idle q ∈ t.out)
      ∧ (∀ x : Fin 4, t.ethLink x = 0) ∧ ((∀ x : Fin 4, h.ethLink x ≠ 2) → t.err = h.err)
      ∧ t.err = { h.err with evtq := t.err.evtq }
      ∧ t = { h with regs := t.regs, err := t.err, out := t.out, tm := t.tm, tun := t.tun, eth := t.eth }) := by
  have falls : h.acquireTimeout = h.goFree := by
    unfold Hub.acquireTimeout
    simp only [follows, acquire, down, and_self, if_true]
  have alike := Hub.alike_goFree h
  exact does_of_eq (f := Hub.acquireTimeout) awake falls (fun _ => rfl) ⟨rfl, h.goFree_mode, h.goFree_sel, h.goFree_followed,
    alike.get _ (by decide), alike.rd (by decide), fun q => Hub.goFree_idle h, h.goFree_link, Hub.goFree_err_idle,
        h.goFree_err_frame,
    h.goFree_frame⟩

theorem becomes_acquireTimeout_same (awake : h.awake = true)
    (stays : h.clkMode ≠ ckAcquire ∨ h.tm.followed = none ∨ h.up .E = true ∧ h.up .W = true ∧ h.up .S = true) :
    becomes .acquireTimeout h h := by
  have same : h.acquireTimeout = h := by
    unfold Hub.acquireTimeout
    split
    next p follows =>
      refine if_neg fun falls => ?_
      obtain ⟨acquire, down⟩ := falls
      obtain other | none | ⟨e, w, s⟩ := stays
      · exact other acquire
      · simp [none] at follows
      · cases p <;> simp_all
    · rfl
  exact becomes_of_eq (f := Hub.acquireTimeout) awake same fun _ => rfl

theorem becomes_clockEnterRing {p : Port} (awake : h.awake = true) (acquire : h.clkMode = ckAcquire)
    (pick : h.pickCandidate h.qualified = some p) : becomes .clockEnterRing h (h.enterRing p) :=
  becomes_of_eq (f := Hub.clockEnterRing) awake (by unfold Hub.clockEnterRing; simp only [acquire, pick, if_true]) fun _ => rfl

theorem does_stepHoldEnter {p : Port} (awake : h.awake = true) (acquire : h.clkMode = ckAcquire)
    (follows : h.tm.followed = some p)
    (step : h.lstate p = stGearStep) :
    does .stepHoldEnter h (fun t => t.clkMode = ckStepHold ∧ t.tm.holdFrom = ckAcquire
      ∧ t = { h with regs := t.regs, tm := t.tm }) := by
  have holds : h.stepHoldEnter = (h.put R.CLK_STATUS_MODE ckStepHold).withTm { h.tm with holdFrom := ckAcquire } := by
    unfold Hub.stepHoldEnter
    simp only [follows, acquire, step, and_self, if_true]
    rfl
  refine does_of_eq (f := Hub.stepHoldEnter) awake holds (fun _ => rfl) ⟨?_, rfl, ?_⟩
  · rw [(Hub.alike_withTm _ _).clkMode (by decide), Hub.clkMode, Hub.get_put_self _ _ _ rfl]
    rfl
  · simpa using Hub.of_blot (((Hub.alike_put h R.CLK_STATUS_MODE ckStepHold rfl).mono (gs := clockFields) (T := [.regs, .tm])
      (by simp [clockFields])).next
      (Hub.alike_withTm _ _)).blot

theorem becomes_stepHoldRelock (awake : h.awake = true) (hold : h.clkMode = ckStepHold) :
    becomes .stepHoldRelock h (h.put R.CLK_STATUS_MODE h.tm.holdFrom) :=
  becomes_of_eq (f := Hub.stepHoldRelock) awake (if_pos hold) fun _ => rfl

theorem does_stepHoldOverrun (awake : h.awake = true) (hold : h.clkMode = ckStepHold) :
    does .stepHoldOverrun h (fun t => t.clkMode = ckFree ∧ t.get R.CLK_EVENT_STEP_OVERRUN = 1 ∧ t.get R.CLK_STATUS_SEL = 0
      ∧ t = { h with regs := t.regs, out := t.out, err := t.err, tm := t.tm, tun := t.tun, eth := t.eth }) := by
  obtain ⟨off, overruns⟩ : ∃ off, h.stepHoldOverrun = ((h.put R.CLK_EVENT_STEP_OVERRUN 1).log 1 0x04 sevCT
      ((h.put R.CLK_EVENT_STEP_OVERRUN 1).get R.CLK_STATUS_SEL) off 0).goFree := ⟨_, if_pos hold⟩
  have put := Hub.alike_put h R.CLK_EVENT_STEP_OVERRUN 1 rfl
  have logged := Hub.logOnly_log (h := h.put R.CLK_EVENT_STEP_OVERRUN 1) ((put.pw (by simp)).symm ▸ Hub.steep_of_awake awake)
      1 0x04 sevCT
    ((h.put R.CLK_EVENT_STEP_OVERRUN 1).get R.CLK_STATUS_SEL) off 0
  refine does_of_eq (f := Hub.stepHoldOverrun) awake overruns (fun _ => rfl) ⟨Hub.goFree_mode _, ?_, Hub.goFree_sel _, ?_⟩
  · rw [(Hub.alike_goFree _).get _ (by decide), logged.get _ (by decide), Hub.get_put_self _ _ _ rfl]
    rfl
  · have alike := ((put.mono (gs := R.CLK_EVENT_STEP_OVERRUN :: (word A.CLK_HOLDOVER_TIME :: clockFields ++ freeFields))
      (T := freeParts)
      (by simp) (by simp [freeParts])).next logged (by simp) (by simp [freeParts])).next (Hub.alike_goFree _)
    simpa [freeParts] using Hub.of_blot alike.blot

/-! ### The monitor (R114) -/

/-- The fields of the candidates' offsets. -/
def offsetFields : List RF := [R.CLK_OFFSET_E_OFFSET, R.CLK_OFFSET_W_OFFSET]

theorem Hub.alike_setOffset (h : Hub) (p : Port) (c : Option Nat) : h.Alike offsetFields [.regs, .free] (h.setOffset p c) := by
  have fresh : h.Alike offsetFields [.regs, .free] h.fresh.2 := ⟨fun _ _ => rfl, Hub.free_replaced _ _ (by simp)⟩
  have put (u : Hub) (v : Nat) : u.Alike offsetFields [.regs, .free]
      (u.put (match p with | .E => R.CLK_OFFSET_E_OFFSET | _ => R.CLK_OFFSET_W_OFFSET) v) := by
    cases p <;> exact (Hub.alike_put u _ v rfl).mono (by simp [offsetFields])
  unfold Hub.setOffset
  cases c with
  | none => exact .refl _ _ h
  | some c => exact (fresh.trans (put ..)).ite (put ..)

/-- The clock's state once the candidates of a window have been judged: the verdicts and windows are recorded, and the missing
edges of the window are forgotten. -/
def TimeState.judged (x : TimeState) (cw ce : Option Nat) (badW badE : Bool) : TimeState :=
  { x with
    failW := badW, failE := badE, edgeW := false, edgeE := false
    winW := ((if badW then none else cw) :: x.winW).take 102, winE := ((if badE then none else ce) :: x.winE).take 102 }

/-- The hub once the candidates of a window have been judged. -/
def Hub.judged (h : Hub) (cw ce : Option Nat) (badW badE : Bool) : Hub :=
  (((h.setOffset .W cw).setOffset .E ce).withTm (((h.setOffset .W cw).setOffset .E ce).tm.judged cw ce badW badE)).updateMemory

theorem Hub.judged_eq (h : Hub) (cw ce : Option Nat) (badW badE : Bool) : ∃ n d, h.judged cw ce badW badE
    = ((h.setOffset .W cw).setOffset .E ce).withTm { h.tm.judged cw ce badW badE with memNum := n, memDen := d } := by
  have same : ((h.setOffset .W cw).setOffset .E ce).tm = h.tm :=
    ((Hub.alike_setOffset h .W cw).trans (Hub.alike_setOffset _ .E ce)).tm (by simp)
  obtain ⟨n, d, e⟩ := Hub.updateMemory_eq (((h.setOffset .W cw).setOffset .E ce).withTm (h.tm.judged cw ce badW badE))
  exact ⟨n, d, by rw [Hub.judged, same, e, Hub.withTm_withTm, Hub.withTm_tm]⟩

theorem Hub.alike_judged (h : Hub) (cw ce : Option Nat) (badW badE : Bool) :
    h.Alike offsetFields [.regs, .free, .tm] (h.judged cw ce badW badE) := by
  obtain ⟨n, d, e⟩ := h.judged_eq cw ce badW badE
  rw [e]
  exact ((Hub.alike_setOffset h .W cw).mono.next (Hub.alike_setOffset _ .E ce)).next (Hub.alike_withTm _ _)

theorem Hub.setFail_W (h : Hub) (b : Bool) : h.setFail .W b = h.withTm { h.tm with failW := b } := rfl

theorem Hub.setFail_E (h : Hub) (b : Bool) : h.setFail .E b = h.withTm { h.tm with failE := b } := rfl

theorem Hub.pushWindow_W (h : Hub) (c : Option Nat) : h.pushWindow .W c
    = h.withTm { h.tm with winW := (c :: h.tm.winW).take 102 } := rfl

theorem Hub.pushWindow_E (h : Hub) (c : Option Nat) : h.pushWindow .E c
    = h.withTm { h.tm with winE := (c :: h.tm.winE).take 102 } := rfl

/-- The verdicts of a window, recorded one after another. -/
theorem Hub.judged_steps (h : Hub) (cw ce : Option Nat) (badW badE : Bool) : ∃ u : Hub,
    u = (((h.setFail .W badW).setFail .E badE).pushWindow .W (if badW then none else cw)).pushWindow .E
        (if badE then none else ce)
    ∧ u.withTm { u.tm with edgeW := false, edgeE := false } = h.withTm (h.tm.judged cw ce badW badE) := by
  refine ⟨_, rfl, ?_⟩
  simp only [Hub.setFail_W, Hub.setFail_E, Hub.pushWindow_W, Hub.pushWindow_E, Hub.withTm_withTm, Hub.withTm_tm, TimeState.judged]

/-- The hub with the memory one window older. -/
def Hub.aged (h : Hub) : Hub := h.withTm { h.tm with memAge := if h.tm.memDen = 0 then 0 else h.tm.memAge + 1 }

theorem Hub.liveCount_none (h : Hub) (p : Port) : h.liveCount p none = none := by
  unfold Hub.liveCount
  split <;> rfl

/-- A window whose verdicts are `badW` and `badE`, and which does not set the memory anew. -/
theorem Hub.monitorWindowEnd_judged {cw ce : Option Nat} {badW badE : Bool} (liveW : h.liveCount .W cw = cw)
    (liveE : h.liveCount .E ce = ce) (nearW : ∀ a ∈ cw, h.farOff a = false) (nearE : ∀ b ∈ ce, h.farOff b = false)
    (verdictW : (h.tm.edgeW || cw.isNone) = badW) (verdictE : (h.tm.edgeE || ce.isNone) = badE) :
    h.monitorWindowEnd cw ce = h.aged.judged cw ce badW badE := by
  unfold Hub.monitorWindowEnd
  extract_lets w e agree far before h1 h2 failedW failedE h3 h4 h5 after
  have near (c : Option Nat) (near : ∀ a ∈ c, h.farOff a = false) : far c = false := by
    cases c with
    | none => rfl
    | some a => exact near a rfl
  have ew : cw = w := liveW.symm
  have ee : ce = e := liveE.symm
  clear_value w e
  subst ew ee
  have nearW' : far cw = false := near cw nearW
  have nearE' : far ce = false := near ce nearE
  have same : h2 = h.aged := by
    simp only [h2]
    split
    next a b =>
      have aged : h1.farOff a = false := nearW a rfl
      exact if_neg (by simp [aged])
    · rfl
  have badW' : failedW = badW := by
    have edge : h2.tm.edgeW = h.tm.edgeW := by rw [same]; rfl
    simp only [failedW, nearW', edge, Bool.false_and, Bool.or_false]
    exact verdictW
  have badE' : failedE = badE := by
    have edge : h2.tm.edgeE = h.tm.edgeE := by rw [same]; rfl
    simp only [failedE, nearE', edge, Bool.false_and, Bool.or_false]
    exact verdictE
  obtain ⟨u, eu, judged⟩ := Hub.judged_steps ((h.aged.setOffset .W cw).setOffset .E ce) cw ce badW badE
  have pushed : h5 = u := by
    rw [eu]
    simp only [h5, h4, h3, same, badW', badE']
  clear_value h5
  subst pushed
  exact congrArg Hub.updateMemory judged

theorem Hub.liveCount_up {p : Port} (candidate : h.candidate p = true) (up : h.up p = true) (c : Option Nat) :
    h.liveCount p c = c := if_pos (by simp [candidate, up])

theorem does_monitorWindowEnd_none (awake : h.awake = true) :
    does (.monitorWindowEnd none none) h (fun t => t.tm.failW = true ∧ t.tm.failE = true ∧ t.clkMode = h.clkMode
      ∧ t = { h with regs := t.regs, free := t.free, tm := t.tm }) := by
  have fails : h.monitorWindowEnd none none = h.aged.judged none none true true :=
    Hub.monitorWindowEnd_judged (Hub.liveCount_none ..) (Hub.liveCount_none ..) (by simp) (by simp) (by simp) (by simp)
  obtain ⟨n, d, e⟩ := h.aged.judged_eq none none true true
  have alike := ((Hub.alike_withTm h h.aged.tm).mono (gs := offsetFields) (T := [.regs, .free, .tm])).next
    (Hub.alike_judged h.aged none none true true)
  refine does_of_eq (f := fun h => h.monitorWindowEnd none none) awake fails (fun _ => rfl)
    ⟨by rw [e]; rfl, by rw [e]; rfl, alike.clkMode (by decide), by simpa using Hub.of_blot alike.blot⟩

theorem does_monitorWindowEnd_near {a b : Nat} (awake : h.awake = true) (upW : h.up .W = true) (upE : h.up .E = true)
    (ring : h.isSpur = false) (nearW : h.farOff a = false) (nearE : h.farOff b = false) (edgeW : h.tm.edgeW = false)
    (edgeE : h.tm.edgeE = false) :
    does (.monitorWindowEnd (some a) (some b)) h (fun t => t.tm.failW = false ∧ t.tm.failE = false
      ∧ t.tm.winW = (some a :: h.tm.winW).take 102 ∧ t.tm.winE = (some b :: h.tm.winE).take 102 ∧ t.clkMode = h.clkMode
      ∧ t = { h with regs := t.regs, free := t.free, tm := t.tm }) := by
  have passes : h.monitorWindowEnd (some a) (some b) = h.aged.judged (some a) (some b) false false :=
    Hub.monitorWindowEnd_judged (Hub.liveCount_up rfl upW _) (Hub.liveCount_up (by simp [Hub.candidate, ring]) upE _)
      (by simpa using nearW) (by simpa using nearE) (by simp [edgeW]) (by simp [edgeE])
  obtain ⟨n, d, e⟩ := h.aged.judged_eq (some a) (some b) false false
  have alike := ((Hub.alike_withTm h h.aged.tm).mono (gs := offsetFields) (T := [.regs, .free, .tm])).next
    (Hub.alike_judged h.aged (some a) (some b) false false)
  exact does_of_eq (f := fun h => h.monitorWindowEnd (some a) (some b)) awake passes (fun _ => rfl)
    ⟨by rw [e]; rfl, by rw [e]; rfl, by rw [e]; rfl, by rw [e]; rfl, alike.clkMode (by decide),
        by simpa using Hub.of_blot alike.blot⟩

theorem does_missingEdges {p : Port} (awake : h.awake = true) (ring : p ≠ .S) :
    does (.missingEdges p) h (fun t => t.winFailed p = true ∧ (if p = .W then t.tm.edgeW else t.tm.edgeE) = true
      ∧ t.winFailed p.other = h.winFailed p.other ∧ t = { h with tm := t.tm }) := by
  refine does_of_upd (f := fun h => h.missingEdges p) awake (fun _ => rfl) ?_
  cases p with
  | E => exact ⟨rfl, rfl, rfl, rfl⟩
  | W => exact ⟨rfl, rfl, rfl, rfl⟩
  | S => exact absurd rfl ring

/-! ### RING and HOLDOVER (R113–R118, R513) -/

/-- The hub with a switch of its root flagged and counted. -/
def Hub.switched (h : Hub) : Hub := (h.put R.CLK_EVENT_SWITCHED 1).bump R.CLK_SWITCH_CNT

/-- The hub with a switch of its root logged. -/
def Hub.switchLogged (h : Hub) (old new : Port) : Hub :=
  h.switched.logBy 1 0x01 sevDG (selCode new) (h.switched.clkOffset old) (h.switched.get R.CLK_SWITCH_CNT) .clock

theorem Hub.switchTo_eq (h : Hub) (old new : Port) : h.switchTo old new =
    ((h.switchLogged old new).enterRing new).recovered .clock := rfl

/-- The fields that a switch of the root flags and counts. -/
def switchFields : List RF := [R.CLK_EVENT_SWITCHED, R.CLK_SWITCH_CNT]

theorem Hub.alike_switched (h : Hub) : h.Alike switchFields [.regs] h.switched :=
  ((Hub.alike_put h R.CLK_EVENT_SWITCHED 1 rfl).mono (by simp [switchFields])).next (Hub.alike_bump _ _ rfl)
      (by simp [switchFields])

theorem Hub.switched_rd (h : Hub) {a : Nat} (event : a ≠ A.CLK_EVENT) (count : a ≠ A.CLK_SWITCH_CNT) : h.switched.rd a
    = h.rd a := by
  rw [Hub.switched, Hub.bump, Hub.bumpBy, Hub.rd_put_of_ne _ _ _ count, Hub.rd_put_of_ne _ _ _ event]

theorem Hub.switched_count (h : Hub) :
    h.switched.get R.CLK_SWITCH_CNT = min (2 ^ R.CLK_SWITCH_CNT.width - 1) (h.get R.CLK_SWITCH_CNT + 1) := by
  rw [Hub.switched, Hub.get_bump_self _ _ rfl, Hub.get_put_of_apart _ _ _ _ rfl (by decide)]

theorem Hub.switched_flag (h : Hub) : h.switched.get R.CLK_EVENT_SWITCHED = 1 := by
  rw [Hub.switched, Hub.get_bump_of_apart _ _ _ rfl (by decide), Hub.get_put_self _ _ _ rfl]
  rfl

theorem Hub.clkOffset_of_alike {t : Hub} (a : h.Alike switchFields [.regs] t) (p : Port) : t.clkOffset p = h.clkOffset p := by
  have up : t.up p = h.up p := a.on (by cases p <;> decide)
  simp only [Hub.clkOffset, up, a.get R.CLK_OFFSET_E_OFFSET (by decide), a.get R.CLK_OFFSET_W_OFFSET (by decide)]

/-- A switch's record: it tells of the new selection, the offset of the old one, and the count. -/
theorem Hub.switched_mkRec (h : Hub) (old new : Port) :
    h.switched.mkRec 1 1 sevDG (selCode new) (h.switched.clkOffset old) (h.switched.get R.CLK_SWITCH_CNT)
      = h.mkRec 1 1 sevDG (selCode new) (h.clkOffset old) (min (2 ^ R.CLK_SWITCH_CNT.width - 1) (h.get R.CLK_SWITCH_CNT + 1))
          := by
  have alike := h.alike_switched
  have newest : h.switched.get R.ERR_SEQ_NEWEST = h.get R.ERR_SEQ_NEWEST := by
    rw [Hub.get, Hub.switched_rd h (by decide) (by decide), Hub.get]
  rw [h.switched_count, Hub.clkOffset_of_alike alike]
  exact Hub.mkRec_congr (congrArg ErrState.handling (alike.err (by simp))) (alike.stime (by simp)) newest
    (alike.get _ (by decide)) (alike.get _ (by decide)) (alike.get _ (by decide)) ..

theorem Hub.switched_nextSlot (h : Hub) : h.switched.nextSlot = h.nextSlot :=
  Hub.nextSlot_congr (fun a slot => Hub.switched_rd h (fun e => absurd (e ▸ slot) (by decide))
      (fun e => absurd (e ▸ slot) (by decide)))
    (congrArg ErrState.log (h.alike_switched.err (by simp)))

/-- A switch of the root while nothing is handled: one entry is logged, and its handling ends with the switch. -/
theorem Hub.switchTo_log (awake : h.awake = true) (idle : h.err.handling = []) (old new : Port) :
    KMap.get? (h.switchTo old new).err.log h.nextSlot = some (h.mkRec 1 1 sevDG (selCode new) (h.clkOffset old)
      (min (2 ^ R.CLK_SWITCH_CNT.width - 1) (h.get R.CLK_SWITCH_CNT + 1)))
    ∧ (h.switchTo old new).err.handling = [] := by
  have alike := h.alike_switched
  obtain ⟨logged, x, by_, one⟩ := Hub.logBy_idle (h := h.switched) ((alike.pw (by simp)).symm ▸ Hub.steep_of_awake awake)
    ((congrArg ErrState.handling (alike.err (by simp))).trans idle) 1 1 (sev := sevDG) (by decide) (selCode new)
    (h.switched.clkOffset old) (h.switched.get R.CLK_SWITCH_CNT) .clock
  have same := (Hub.alike_enterRing (h.switchLogged old new) new).err (by simp)
  rw [Hub.switchTo_eq, Hub.recovered_log, same, ← Hub.switched_nextSlot, ← Hub.switched_mkRec]
  exact ⟨logged, Hub.recovered_single by_ ((congrArg ErrState.handling same).trans one)⟩

/-- The parts that a change of the root's reference reaches. -/
def rootParts : List Part := [.regs, .out, .err, .tm, .tun]

theorem Hub.alike_switchTo (awake : h.awake = true) (old new : Port) :
    h.switched.Alike ringFields rootParts (h.switchTo old new) := by
  have logged := Hub.logOnly_logBy (h := h.switched) ((h.alike_switched.pw (by simp)).symm ▸ Hub.steep_of_awake awake)
      1 0x01 sevDG
    (selCode new) (h.switched.clkOffset old) (h.switched.get R.CLK_SWITCH_CNT) .clock
  exact ((logged.mono (by simp) (by simp [rootParts])).next (Hub.alike_enterRing ..) (by simp) (by simp [rootParts])).next
    (Hub.logOnly_recovered ..) (by simp) (by simp [rootParts])

theorem does_clockSwitch {p : Port} (awake : h.awake = true) (sel : h.selPort = some p) (ring : h.clkMode = ckRing)
    (fails : h.qualified p = false) (other : h.qualified p.other = true) (idle : h.err.handling = []) :
    does .clockSwitch h (fun t => t = h.switchTo p p.other ∧ t.clkMode = ckRing ∧ t.get R.CLK_STATUS_SEL = selCode p.other
      ∧ t.on R.CLK_EVENT_SWITCHED = true ∧ t.get R.CLK_SWITCH_CNT = min (2 ^ R.CLK_SWITCH_CNT.width - 1)
          (h.get R.CLK_SWITCH_CNT + 1)
      ∧ t.tm.followed = none
      ∧ KMap.get? t.err.log h.nextSlot = some (h.mkRec 1 1 sevDG (selCode p.other) (h.clkOffset p)
          (min (2 ^ R.CLK_SWITCH_CNT.width - 1) (h.get R.CLK_SWITCH_CNT + 1)))
      ∧ t.err.handling = [] ∧ t = { h with regs := t.regs, out := t.out, err := t.err, tm := t.tm, tun := t.tun }) := by
  have switches : h.clockSwitch = h.switchTo p p.other := by
    unfold Hub.clockSwitch
    simp only [sel, ring, fails, other, and_self, if_true]
  have alike := Hub.alike_switchTo awake p p.other
  have recovered := Hub.logOnly_recovered ((h.switchLogged p p.other).enterRing p.other) .clock
  obtain ⟨logged, done⟩ := Hub.switchTo_log awake idle p p.other
  refine does_of_eq (f := Hub.clockSwitch) awake switches (fun _ => rfl) ⟨rfl, ?_, ?_, ?_, ?_, ?_, logged, done, ?_⟩
  · exact (recovered.clkMode (by decide)).trans (Hub.enterRing_mode ..)
  · exact (recovered.get _ (by decide)).trans (Hub.enterRing_sel ..)
  · rw [Hub.on, alike.get _ (by decide), h.switched_flag]
    rfl
  · rw [alike.get _ (by decide), h.switched_count]
  · exact (congrArg TimeState.followed (recovered.tm (by simp))).trans (Hub.enterRing_followed ..)
  · simpa [rootParts] using Hub.of_blot (((h.alike_switched.mono (gs := switchFields ++ ringFields) (T := rootParts) (by simp)
      (by simp [rootParts])).next alike (by simp))).blot

theorem becomes_clockSwitch_same (awake : h.awake = true) (stays : h.clkMode ≠ ckRing ∨ h.selPort = none
    ∨ (h.qualified .W = true ∧ h.qualified .E = true) ∨ (h.qualified .W = false ∧ h.qualified .E = false)) :
    becomes .clockSwitch h h := by
  have same : h.clockSwitch = h := by
    unfold Hub.clockSwitch
    split
    next p sel =>
      refine if_neg fun falls => ?_
      obtain ⟨ring, fails, other⟩ := falls
      obtain off | none | both | neither := stays
      · exact off ring
      · simp [none] at sel
      · obtain rfl | rfl := Hub.ring_of_selPort sel <;> simp_all
      · obtain rfl | rfl := Hub.ring_of_selPort sel <;> simp_all [Port.other]
    · rfl
  exact becomes_of_eq (f := Hub.clockSwitch) awake same fun _ => rfl

/-- The fields that HOLDOVER flags and counts. -/
def holdoverFields : List RF := [R.CLK_EVENT_HOLDOVER, R.CLK_HOLDOVER_CNT]

/-- The hub with HOLDOVER flagged and counted. -/
def Hub.heldOver (h : Hub) : Hub := (h.put R.CLK_EVENT_HOLDOVER 1).bump R.CLK_HOLDOVER_CNT

theorem Hub.alike_heldOver (h : Hub) : h.Alike holdoverFields [.regs] h.heldOver :=
  ((Hub.alike_put h R.CLK_EVENT_HOLDOVER 1 rfl).mono (by simp [holdoverFields])).next (Hub.alike_bump _ _ rfl)
      (by simp [holdoverFields])

theorem does_holdoverEnter {p : Port} (awake : h.awake = true) (sel : h.selPort = some p) (ring : h.clkMode = ckRing)
    (failW : h.qualified .W = false) (failE : h.qualified .E = false) :
    does .holdoverEnter h (fun t => t.clkMode = ckHoldover ∧ t.get R.CLK_STATUS_SEL = 0 ∧ t.get R.CLK_EVENT_HOLDOVER = 1
      ∧ t.tm.holdAt = h.root ∧ t = { h with regs := t.regs, out := t.out, err := t.err, tm := t.tm, tun := t.tun }) := by
  obtain ⟨u, eu⟩ : ∃ u, u = h.heldOver.logBy 1 0x02 sevDG 0 (h.heldOver.clkOffset p) (h.heldOver.get R.CLK_HOLDOVER_CNT)
      .clock := ⟨_, rfl⟩
  have enters : h.holdoverEnter = ((((u.setClk ckHoldover 0).withTm { (u.setClk ckHoldover 0).tm with
      holdAt := (u.setClk ckHoldover 0).root }).refreshQuality).recovered .clock) := by
    unfold Hub.holdoverEnter
    simp only [sel, ring, failW, failE, and_self, if_true]
    rw [eu]
    rfl
  have logged : h.heldOver.LogOnly u := eu ▸ Hub.logOnly_logBy ((h.alike_heldOver.pw (by simp)).symm ▸ Hub.steep_of_awake awake)
      ..
  have root : (u.setClk ckHoldover 0).root = h.root := ((Hub.alike_setClk ..).root (by simp)).trans
    ((logged.root (by simp)).trans (h.alike_heldOver.root (by simp)))
  have held := Hub.alike_withTm (u.setClk ckHoldover 0) { (u.setClk ckHoldover 0).tm with holdAt := (u.setClk ckHoldover 0).root }
  have tail := ((held.mono (gs := qualityFields) (T := rootParts) (by simp) (by simp [rootParts])).next
      (Hub.alike_refreshQuality _)
    (by simp) (by simp [rootParts])).next (Hub.logOnly_recovered _ .clock) (by simp) (by simp [rootParts])
  refine does_of_eq (f := Hub.holdoverEnter) awake enters (fun _ => rfl) ⟨?_, ?_, ?_, ?_, ?_⟩
  · exact (tail.clkMode clock_off_quality.1).trans (Hub.setClk_mode _ _ (by decide))
  · exact (tail.get _ clock_off_quality.2).trans (Hub.setClk_sel _ _ (by decide))
  · rw [tail.get _ (by decide), (Hub.alike_setClk ..).get _ (by decide), logged.get _ (by decide), Hub.heldOver,
      Hub.get_bump_of_apart _ _ _ rfl (by decide), Hub.get_put_self _ _ _ rfl]
    rfl
  · rw [(Hub.logOnly_recovered ..).tm (by simp), (Hub.alike_refreshQuality _).tm (by simp), Hub.withTm_tm, root]
  · have alike := (((h.alike_heldOver.mono (gs := holdoverFields ++ ringFields) (T := rootParts) (by simp)
      (by simp [rootParts])).next
      logged (by simp) (by simp [rootParts])).next (Hub.alike_setClk ..) (by simp [ringFields]) (by simp [rootParts])).next tail
      (by simp [ringFields])
    simpa [rootParts] using Hub.of_blot alike.blot

theorem does_holdoverExit {w e : Bool} {p : Port} (awake : h.awake = true) (held : h.clkMode = ckHoldover)
    (pick : h.pickCandidate (fun p => h.qualified p && (match p with | .W => w | .E => e | .S => false)) = some p) :
    does (.holdoverExit w e) h (fun t => t.clkMode = ckRing ∧ t.get R.CLK_STATUS_SEL = selCode p ∧ t.get R.CLK_EVENT_RECOVERED = 1
      ∧ t.rd A.CLK_HOLDOVER_TIME = W h.holdTime
      ∧ t = { h with regs := t.regs, out := t.out, err := t.err, tm := t.tm, tun := t.tun }) := by
  obtain ⟨u, eu⟩ : ∃ u, u = (h.wr A.CLK_HOLDOVER_TIME (W h.holdTime)).put R.CLK_EVENT_RECOVERED 1 := ⟨_, rfl⟩
  have leaves : h.holdoverExit w e = (u.enterRing p).notice 1 0x82 (selCode p) h.holdTime := by
    unfold Hub.holdoverExit
    rw [if_pos held]
    split
    next q picked =>
      obtain rfl : q = p := Option.some.inj (picked.symm.trans pick)
      simp only [eu, Hub.holdoverOver, if_pos held]
    next none => exact absurd (none.symm.trans pick) (by simp)
  have noticed := Hub.logOnly_notice (u.enterRing p) 1 0x82 (selCode p) h.holdTime
  have tail := ((Hub.alike_enterRing u p).mono (gs := ringFields) (T := rootParts) (by simp) (by simp [rootParts])).next noticed
    (by simp) (by simp [rootParts])
  refine does_of_eq (f := fun h => h.holdoverExit w e) awake leaves (fun _ => rfl) ⟨?_, ?_, ?_, ?_, ?_⟩
  · exact (noticed.clkMode (by decide)).trans (Hub.enterRing_mode ..)
  · exact (noticed.get _ (by decide)).trans (Hub.enterRing_sel ..)
  · rw [tail.get _ (by decide), eu, Hub.get_put_self _ _ _ rfl]
    rfl
  · rw [tail.rd (by decide), eu, Hub.rd_put_of_ne _ _ _ (by decide), Hub.rd_wr_self]
  · have head : h.Alike [word A.CLK_HOLDOVER_TIME, R.CLK_EVENT_RECOVERED] [.regs] u :=
      eu ▸ ((Hub.alike_wr h A.CLK_HOLDOVER_TIME (W h.holdTime)).mono.next (Hub.alike_put _ R.CLK_EVENT_RECOVERED 1 rfl))
    simpa [rootParts] using Hub.of_blot ((Hub.blot_mono head.blot (T := rootParts) (by simp [rootParts])) |> tail.blot.trans)

theorem becomes_clockRevert {p : Port} (awake : h.awake = true) (sel : h.selPort = some p) (ring : h.clkMode = ckRing)
    (other : p ≠ h.preferred) (good : h.qualified h.preferred = true) (revert : h.on R.CLK_CTRL_REVERT_EN = true)
    (still : h.qualified p = true) :
    becomes .clockRevert h (((h.put R.CLK_EVENT_REVERTED 1).enterRing h.preferred).notice 1 0x81 (selCode h.preferred) 0) := by
  have reverts : h.clockRevert = ((h.put R.CLK_EVENT_REVERTED 1).enterRing h.preferred).notice 1 0x81 (selCode h.preferred)
      0 := by
    unfold Hub.clockRevert
    simp only [sel]
    rw [if_pos ⟨ring, other, good, revert⟩, if_pos still]
  exact becomes_of_eq (f := Hub.clockRevert) awake reverts fun _ => rfl

/-! ### The slow clock (R120) -/

theorem does_slowClockMeasure {hz : BitVec 32} (awake : h.awake = true) (ring : h.clkMode = ckRing) (low : 23750000 ≤ hz.toNat)
    (high : hz.toNat ≤ 26250000) :
    does (.slowClockMeasure hz) h (fun t => t.rd A.CLK_SLOW_FREQ = hz ∧ t.tm.slowBad = false
      ∧ t = { h with regs := t.regs, tm := t.tm }) := by
  have near : (decide (hz.toNat < 23750000) || decide (26250000 < hz.toNat)) = false := by
    rw [Bool.or_eq_false_iff, decide_eq_false_iff_not, decide_eq_false_iff_not]
    exact ⟨by omega, by omega⟩
  have measured : h.slowClockMeasure hz.toNat = (h.wr A.CLK_SLOW_FREQ (W hz.toNat)).withTm
      { (h.wr A.CLK_SLOW_FREQ (W hz.toNat)).tm with slowBad := false } := by
    unfold Hub.slowClockMeasure
    rw [if_pos ring]
    simp only [near, Bool.false_and, Bool.false_eq_true, if_false]
    rfl
  have alike := ((Hub.alike_wr h A.CLK_SLOW_FREQ (W hz.toNat)).mono (gs := [word A.CLK_SLOW_FREQ]) (T := [.regs, .tm])).next
    (Hub.alike_withTm _ { (h.wr A.CLK_SLOW_FREQ (W hz.toNat)).tm with slowBad := false })
  refine does_of_eq (f := fun h => h.slowClockMeasure hz.toNat) awake measured (fun _ => rfl)
      ⟨?_, rfl, by simpa using Hub.of_blot alike.blot⟩
  rw [(Hub.alike_withTm _ _).rd (by decide), Hub.rd_wr_self]
  exact (BitVec.ofNat_toNat 32 hz).trans (BitVec.setWidth_eq hz)

/-! ### Transmit clocks (R110) -/

/-- A ring port's transmitter is passed the other ring port's recovered clock on a ring member, while that port is qualified. -/
theorem Hub.txClock_chain (h : Hub) {p : Port} (ring : p ≠ .S) :
    if h.isSpur = false ∧ h.qualified p.other = true ∧ h.on (R.LNK_STATUS_OPEN_END p.ix) = false then
      h.txClock p = .recovered p.other
    else h.txClock p = .root := by
  have chained : h.txClock p = if !h.isSpur && h.qualified p.other && !h.on (R.LNK_STATUS_OPEN_END p.ix) then
      .recovered p.other else .root := by
    cases p with
    | E => rfl
    | W => rfl
    | S => exact absurd rfl ring
  rw [chained]
  split
  next all => exact if_pos (by simpa [and_assoc] using all)
  next missing => exact if_neg (by simpa [and_assoc] using missing)

end

end Sys2Proof.Machine
end

section
open Sys2Proof Sys2Proof.Machine

/-- Settles O14: each clause is the lemma about its command; they rest on what the entry to RING, the fall to FREE, a judged window
and an entry of the log each come to. What the rows of the monitor and of HOLDOVER name is assumption 31 (DEDUCED), SEL in ACQUIRE
and STEP_HOLD assumption 118 (DEDUCED). -/
theorem clockModeCommands : Obligations.ClockModeCommands := by
  intro h awake
  exact ⟨fun p => does_clockAcquire awake, fun p => does_acquireTimeout awake, fun _ => becomes_acquireTimeout_same awake,
    fun p => becomes_clockEnterRing awake, fun p => ⟨h.enterRing_mode p, h.enterRing_sel p, h.enterRing_followed p⟩,
    fun p => does_stepHoldEnter awake, becomes_stepHoldRelock awake, does_stepHoldOverrun awake, does_monitorWindowEnd_none awake,
    fun a b => does_monitorWindowEnd_near awake, fun p => does_missingEdges awake, fun p => does_clockSwitch awake,
    becomes_clockSwitch_same awake, fun p => does_holdoverEnter awake, fun w e p => does_holdoverExit awake,
    fun p => becomes_clockRevert awake, fun hz => does_slowClockMeasure awake, h.txClock_chain (p := .E) (by decide),
    h.txClock_chain (p := .W) (by decide), rfl⟩
end

section
/-! SUPPORT. Station time and hop delay (O15): what the packets of a port's own, an accepted marker, a step of station time and a
backward set come to (R122–R130, R139, R183–R185, R271, R514). -/

open Sys2Proof Sys2Proof.Machine

namespace Sys2Proof.Machine

section
variable {h : Hub}

/-! ### A port's own packets (R128–R130) -/

theorem Hub.alike_endWire (h : Hub) (s : Nat) : h.Alike [] [.links, .fab] (h.endWire s) := by
  have counted (u : Hub) (c : Cls) (o : Nat) : u.Alike [] [.links, .fab] (u.bumpCnt o c 11) := (Hub.alike_onFab ..).mono
  unfold Hub.endWire
  split
  · simp only []
    split
    · exact ((Hub.alike_onLink h _ _).mono).trans (.ite (.refl _ _ _) (counted ..))
    · exact .refl _ _ h
  · split
    · exact ((Hub.alike_onFab h _).mono).trans (counted ..)
    · exact .refl _ _ h

/-- The parts that a port's own packet reaches as it leaves. -/
def portParts : List Part := [.regs, .out, .links, .fab, .tm]

theorem Hub.alike_portSend (h : Hub) (p : Port) (k : Packet) : h.Alike [R.LNK_REPLAY_SEQ_NEXT p.ix] portParts (h.portSend p k)
    := by
  unfold Hub.portSend
  extract_lets ended next sent left
  have first : h.Alike [R.LNK_REPLAY_SEQ_NEXT p.ix] portParts ended := (Hub.alike_endWire h p.ix).mono (by simp)
      (by simp [portParts])
  have credited : h.Alike [R.LNK_REPLAY_SEQ_NEXT p.ix] portParts ((ended.useCredit p k).emit (.packet p sent)) :=
    (first.next (Hub.alike_onLink ..) (by simp) (by simp [portParts])).next (Hub.alike_emit ..) (by simp) (by simp [portParts])
  have numbered : h.Alike [R.LNK_REPLAY_SEQ_NEXT p.ix] portParts left :=
    credited.next (Hub.alike_put _ (R.LNK_REPLAY_SEQ_NEXT p.ix) _ rfl) (by simp) (by simp [portParts])
  exact numbered.next (Hub.alike_onLink ..) (by simp) (by simp [portParts])

theorem Hub.alike_sendProbe (h : Hub) (p : Port) (recheck : Bool) :
    h.Alike [R.LNK_REPLAY_SEQ_NEXT p.ix] portParts (h.sendProbe p recheck) := by
  unfold Hub.sendProbe
  exact ((Hub.alike_portSend ..).next (Hub.alike_onTimePort ..) (by simp) (by simp [portParts])).ite (.refl _ _ h)

/-- A calibration's first probe leaves every port UP or not as it was. -/
theorem Hub.calibrate_up (h : Hub) (p q : Port) : ((h.calStart p).sendProbe p false).up q = h.up q := by
  have calStart : (h.calStart p).up q = h.up q := rfl
  rw [Hub.up, (Hub.alike_sendProbe ..).on (by cases p <;> cases q <;> decide), ← Hub.up, calStart]

/-! ### The state of a port's markers -/

theorem Hub.onTimePort_at (h : Hub) (p : Port) (f : TimePort → TimePort) : (h.onTimePort p f).tm.ports.at p = f
    (h.tm.ports.at p) := by
  rw [Hub.onTimePort, PerPort.at_set_self]

theorem Hub.onTimePort_onTimePort (h : Hub) (p : Port) (f g : TimePort → TimePort) :
    (h.onTimePort p f).onTimePort p g = h.onTimePort p (fun t => g (f t)) := by
  unfold Hub.onTimePort
  simp only [PerPort.at_set_self]
  cases p <;> rfl

/-! ### A marker that is accepted (R124–R126) -/

theorem Hub.alike_forwardMarker (h : Hub) (p : Port) (v : Nat) (res : PerPort Nat) : h.Alike [] [.out] (h.forwardMarker p v res)
    :=
  (Hub.Alike.refl _ _ h).ite (Hub.alike_foldl _ (fun _ _ _ => Hub.alike_emit ..) h)

/-- The hub with an accepted marker of a port recorded and passed on. -/
def Hub.marked (h : Hub) (p : Port) (v : Nat) (res : PerPort Nat) : Hub :=
  (h.onTimePort p (fun t => { t with mark := some ⟨v, h.root⟩, badRun := [], gap := false })).refreshQuality.forwardMarker p v res

/-- The parts that an accepted marker reaches before it disciplines station time. -/
def markedParts : List Part := [.regs, .out, .tm, .tun]

theorem Hub.alike_marked (h : Hub) (p : Port) (v : Nat) (res : PerPort Nat) : h.Alike qualityFields markedParts
    (h.marked p v res) :=
  (((Hub.alike_onTimePort h p _).mono (by simp) (by simp [markedParts])).next (Hub.alike_refreshQuality _) (by simp)
    (by simp [markedParts])).next (Hub.alike_forwardMarker ..) (by simp) (by simp [markedParts])

theorem Hub.marked_at (h : Hub) (p : Port) (v : Nat) (res : PerPort Nat) :
    (h.marked p v res).tm.ports.at p = { h.tm.ports.at p with mark := some ⟨v, h.root⟩, badRun := [], gap := false } := by
  rw [Hub.marked, (Hub.alike_forwardMarker ..).tm (by simp), (Hub.alike_refreshQuality _).tm (by simp), Hub.onTimePort_at]

theorem Hub.marked_delay (h : Hub) (p : Port) (v : Nat) (res : PerPort Nat) : (h.marked p v res).delay p = h.delay p :=
  (h.alike_marked p v res).get _ (by cases p <;> decide)

theorem Hub.marked_stime (h : Hub) (p : Port) (v : Nat) (res : PerPort Nat) : (h.marked p v res).stime = h.stime :=
  (h.alike_marked p v res).stime (by simp [markedParts])

theorem Hub.marked_valid (h : Hub) (p : Port) (v : Nat) (res : PerPort Nat) :
    (h.marked p v res).on R.TIME_STATUS_VALID = h.on R.TIME_STATUS_VALID := (h.alike_marked p v res).on (by decide)

/-- A marker that passes the check disciplines station time where its port is the selected and calibrated candidate. -/
theorem Hub.markerReceived_accept {p : Port} {v : Nat} (res : PerPort Nat) (up : h.up p = true)
    (accept : (h.tm.ports.at p).checkMark ⟨v, h.root⟩ = .accept) :
    h.markerReceived p v false res = if h.selPort = some p ∧ h.calibrated p = true then (h.marked p v res).discipline p v
      else h.marked p v res := by
  have sel : (h.marked p v res).selPort = h.selPort := by
    rw [Hub.selPort, (h.alike_marked p v res).get _ (by decide), Hub.selPort]
  have calibrated : (h.marked p v res).calibrated p = h.calibrated p := (h.alike_marked p v res).on (by cases p <;> decide)
  unfold Hub.markerReceived
  simp only [up, accept, Bool.false_eq_true, Bool.true_eq_false, if_false, reduceCtorEq]
  rw [← Hub.marked, sel, calibrated]

/-! ### The error to slew (R126) -/

theorem Hub.alike_setErr (h : Hub) (e : Int) : h.Alike [R.TIME_STATUS_SLEWING] [.regs, .tm] (h.setErr e) :=
  ((Hub.alike_tm h { h.tm with err := e }).mono).next (Hub.alike_put _ R.TIME_STATUS_SLEWING _ rfl)

theorem Hub.setErr_tm (h : Hub) (e : Int) : (h.setErr e).tm = { h.tm with err := e } := by rw [Hub.setErr, Hub.put_tm]

theorem Hub.setErr_slewing (h : Hub) {e : Int} (near : -256 ≤ e) : (h.setErr e).get R.TIME_STATUS_SLEWING = 0 := by
  have within : decide (e < -(markTol : Int)) = false := decide_eq_false (by simp only [markTol]; omega)
  rw [Hub.setErr, Hub.get_put_self _ _ _ rfl, within]
  rfl

/-! ### Outputs and timers that a step passes (R139, R271) -/

/-- The fields of an output that a step of station time reaches. -/
def steppedFields (n : Nat) : List RF := R.TIME_EVO_SKIP n :: R.TIME_EVO_STATUS_LATE n :: evoFields n

theorem Hub.alike_evoStepped (h : Hub) (t n : Nat) : h.Alike (steppedFields n) [.regs, .out, .tm] (h.evoStepped t n) := by
  have set (x : Evo) := (Hub.alike_setEvo h n x).mono (gs := steppedFields n) (T := [.regs, .out, .tm]) (by simp [steppedFields])
  unfold Hub.evoStepped
  exact (set _).ite (((set _).next (Hub.alike_bumpBy _ (R.TIME_EVO_SKIP n) _ rfl) (by simp [steppedFields])).next
    (Hub.alike_put _ (R.TIME_EVO_STATUS_LATE n) _ rfl) (by simp [steppedFields]))

theorem Hub.setEvo_ports (h : Hub) (n : Nat) (x : Evo) : (h.setEvo n x).tm.ports = h.tm.ports := by rw [Hub.setEvo_tm]

theorem Hub.evoStepped_ports (h : Hub) (t n : Nat) : (h.evoStepped t n).tm.ports = h.tm.ports := by
  have skipped (u : Hub) (m : Nat) : ((u.bumpBy (R.TIME_EVO_SKIP n) m).put (R.TIME_EVO_STATUS_LATE n) 1).tm = u.tm :=
    (Hub.put_tm ..).trans (Hub.bumpBy_tm ..)
  unfold Hub.evoStepped
  extract_lets x isOver y skips sched gone set
  have ports : set.tm.ports = h.tm.ports := Hub.setEvo_ports ..
  split
  · exact ports
  · rw [skipped, ports]

theorem Hub.alike_fireTimers (h : Hub) (due : Nat → Bool) : h.Alike [] [.tun] (h.fireTimers due) := by
  have latched (u : Hub) (n : Nat) : u.Alike [] [.tun] ((u.setCtx n { u.ctx n with timer := none }).latchEvent evTimer n) :=
    ⟨fun _ _ => rfl, (Hub.latchEvent_blot _ _ _ (by simp)).trans (Hub.setCtx_blot _ _ _ (by simp))⟩
  refine Hub.alike_foldl _ (fun u n _ => ?_) h
  split
  · exact (latched u n).ite (.refl _ _ u)
  · exact .refl _ _ u

/-! ### A swap whose epoch is reached (R183–R185) -/

theorem Hub.alike_announce (h : Hub) (p : Port) (l : Layout) : h.Alike (lullFields p) [.regs, .out, .links] (h.announce p l) := by
  have set (u : Hub) (typ a0 a1 a2 a3 : Nat) : u.Alike [] [.out, .links] (u.sendSet p typ a0 a1 a2 a3) :=
    ⟨fun g _ => Hub.sendSet_get .., Hub.sendSet_blot _ _ _ _ _ _ _ (by simp) (by simp)⟩
  unfold Hub.announce Hub.workSet
  exact (((Hub.Alike.refl _ _ h).ite (Hub.alike_lullExit h p)).next (set ..)).next (Hub.alike_onLink ..)

theorem Hub.alike_shedRecalc (h : Hub) (p : Port) : h.Alike (lullFields p) [.regs, .out, .links] (h.shedRecalc p) :=
  (Hub.alike_announce ..).ite (.refl _ _ h)

/-- The fields that a swap, made or missed, reaches. -/
def swapFields : List RF :=
  [R.SCH_STATUS_ACTIVE_BANK, R.SCH_PCAP_ACTIVE, R.SCH_STATUS_ARMED, R.SCH_STATUS_RESULT, R.SCH_STATUS_OVER_SCHED,
    R.SCH_STATUS_SWAP_CNT, R.SCH_STATUS_SETTLING, R.SCH_STATUS_MISSED, word A.SCH_MISSED_EPOCH] ++ lullFields .E ++ lullFields .W

/-- The parts that a swap, made or missed, reaches. -/
def swapParts : List Part := [.regs, .out, .links, .err, .sch, .tun]

theorem Hub.alike_sch (h : Hub) (x : SchState) : h.Alike [] [.sch] { h with sch := x } :=
  ⟨fun _ _ => rfl, Hub.sch_replaced _ _ (by simp)⟩

theorem Hub.alike_setSched (h : Hub) (i : Nat) (x : Sched) : h.Alike [] [.sch] (h.setSched i x) := Hub.alike_sch ..

/-- A field of the swap put anew. -/
theorem Hub.Alike.swapPut {u : Hub} (a : h.Alike swapFields swapParts u) (f : RF) (v : Nat) (ok : f.ok = true)
    (mem : f ∈ swapFields) :
    h.Alike swapFields swapParts (u.put f v) :=
  a.next (Hub.alike_put u f v ok) (by simpa using mem) (by simp [swapParts])

theorem Hub.alike_swapNow (h : Hub) : h.Alike swapFields swapParts h.swapNow := by
  have refilled (u : Hub) (f : Hub → Nat → Hub) (step : ∀ (x : Hub) (i : Nat), x.Alike [] [.sch] (f x i)) :
      u.Alike [] [.sch] (u.eachSched f) := Hub.alike_foldl _ (fun x i _ => step x i) u
  unfold Hub.swapNow
  extract_lets filled bank old settle banked done latched counted before settled
  have filled' : h.Alike swapFields swapParts filled :=
    (refilled h _ fun x i => Hub.alike_setSched ..).mono (by simp) (by simp [swapParts])
  clear_value filled
  have banked' : h.Alike swapFields swapParts banked :=
    (filled'.swapPut _ _ rfl (by simp [swapFields])).swapPut _ _ rfl (by simp [swapFields])
  clear_value banked
  have done' : h.Alike swapFields swapParts done :=
    ((banked'.swapPut _ _ rfl (by simp [swapFields])).swapPut _ _ rfl (by simp [swapFields])).swapPut _ _ rfl
        (by simp [swapFields])
  clear_value done
  have latched' : h.Alike swapFields swapParts latched := done'.next (Hub.alike_latchAll ..) (by simp) (by simp [swapParts])
  clear_value latched
  have counted' : h.Alike swapFields swapParts counted :=
    (latched'.swapPut R.SCH_STATUS_SWAP_CNT _ rfl (by simp [swapFields])).swapPut _ _ rfl (by simp [swapFields])
  clear_value counted
  have settled' : h.Alike swapFields swapParts settled := counted'.next (Hub.alike_sch ..) (by simp) (by simp [swapParts])
  clear_value settled
  have synced := settled'.next (refilled settled Hub.syncBuckets fun x i => Hub.alike_setSched ..) (by simp) (by simp [swapParts])
  exact (synced.next (Hub.alike_shedRecalc _ .E) (by simp [swapFields, lullFields]) (by simp [swapParts])).next
    (Hub.alike_shedRecalc _ .W) (by simp [swapFields, lullFields]) (by simp [swapParts])

theorem Hub.alike_swapMissed (up : h.pw.steep = false) : h.Alike swapFields swapParts h.swapMissed := by
  unfold Hub.swapMissed
  extract_lets epoch missed latched
  have missed' : h.Alike swapFields swapParts missed :=
    (((Hub.Alike.refl swapFields swapParts h).swapPut _ _ rfl (by simp [swapFields])).swapPut _ _ rfl
        (by simp [swapFields])).swapPut
      _ _ rfl (by simp [swapFields])
  clear_value missed
  have told : h.Alike swapFields swapParts ((missed.put R.SCH_STATUS_OVER_SCHED 0).wr A.SCH_MISSED_EPOCH (W epoch)) :=
    (missed'.swapPut _ _ rfl (by simp [swapFields])).next (Hub.alike_wr ..) (by simp [swapFields]) (by simp [swapParts])
  have latched' : h.Alike swapFields swapParts latched :=
    (told.next (Hub.alike_latchAll ..) (by simp) (by simp [swapParts])).next (Hub.logOnly_expireHandling _) (by simp)
      (by simp [swapParts])
  clear_value latched
  exact latched'.next (Hub.logOnly_entry ((latched'.pw (by simp [swapParts])).symm ▸ up) ..) (by simp) (by simp [swapParts])

theorem Hub.alike_grantSwap (up : h.pw.steep = false) : h.Alike swapFields swapParts h.grantSwap :=
  ((Hub.alike_swapNow h).ite (Hub.alike_swapMissed up)).ite (.refl _ _ h)

/-! ### A step of station time (R126, R139, R183, R271) -/

theorem Hub.alike_timeTo (h : Hub) (r was s : Nat) : h.Alike [] [.stime, .tm] (h.timeTo r was s) where
  get _ _ := rfl
  blot := (Hub.tm_replaced { h with stime := s } _ (by simp)).trans (Hub.stime_replaced _ _ (by simp))

theorem Hub.timeTo_ports (h : Hub) (r was s : Nat) : (h.timeTo r was s).tm.ports = h.tm.ports := rfl

/-- The fields that a step of station time reaches. -/
def stepFields : List RF := evoAll.flatMap steppedFields ++ swapFields

/-- The parts that a step of station time reaches beyond the time itself. -/
def stepParts : List Part := .tm :: swapParts

/-- The hub with its outputs past the edges stepped over, and its timers fired. -/
def Hub.fired (h : Hub) (s : Nat) : Hub :=
  (evoAll.foldl (fun h n => h.evoStepped (s / 8) n) (h.timeTo h.root h.stime s)).fireTimers (fun t => decide (t ≤ s / 8))

theorem Hub.stepTo_eq (h : Hub) (s : Nat) : h.stepTo s = (h.fired s).grantSwap := rfl

theorem steppedFields_subset {n : Nat} (mem : n ∈ evoAll) : steppedFields n ⊆ stepFields := fun _ m => by
  rw [stepFields, List.mem_append, List.mem_flatMap]
  exact .inl ⟨n, mem, m⟩

theorem Hub.alike_fired (h : Hub) (s : Nat) : (h.timeTo h.root h.stime s).Alike stepFields stepParts (h.fired s) := by
  have outputs (u : Hub) : u.Alike stepFields stepParts (evoAll.foldl (fun h n => h.evoStepped (s / 8) n) u) :=
    Hub.alike_foldl evoAll (fun v n m => (Hub.alike_evoStepped v (s / 8) n).mono (steppedFields_subset m)
      (by simp [stepParts, swapParts])) u
  exact (outputs _).next (Hub.alike_fireTimers ..) (by simp) (by simp [stepParts, swapParts])

theorem Hub.fired_steep (up : h.pw.steep = false) (s : Nat) : (h.fired s).pw.steep = false := by
  rw [(Hub.alike_fired h s).pw (by simp [stepParts, swapParts]), (Hub.alike_timeTo ..).pw (by simp), up]

theorem Hub.alike_stepTo (up : h.pw.steep = false) (s : Nat) : (h.timeTo h.root h.stime s).Alike stepFields stepParts
    (h.stepTo s) := by
  rw [Hub.stepTo_eq]
  exact (Hub.alike_fired h s).next (Hub.alike_grantSwap (Hub.fired_steep up s)) (by simp [stepFields]) (by simp [stepParts])

theorem Hub.stepTo_stime (up : h.pw.steep = false) (s : Nat) : (h.stepTo s).stime = s :=
  (Hub.alike_stepTo up s).stime (by simp [stepParts, swapParts])

theorem Hub.stepTo_ports (up : h.pw.steep = false) (s : Nat) : (h.stepTo s).tm.ports = h.tm.ports := by
  have outputs (u : Hub) : (evoAll.foldl (fun h n => h.evoStepped (s / 8) n) u).tm.ports = u.tm.ports :=
    foldl_keeps (fun u : Hub => u.tm.ports) (fun h n => h.evoStepped (s / 8) n) evoAll u fun u n => Hub.evoStepped_ports ..
  rw [Hub.stepTo_eq, (Hub.alike_grantSwap (Hub.fired_steep up s)).tm (by simp [swapParts]), Hub.fired,
    (Hub.alike_fireTimers ..).tm (by simp), outputs, Hub.timeTo_ports]

/-- A word that no step of station time reaches. -/
theorem Hub.stepTo_rd (up : h.pw.steep = false) (s : Nat) {a : Nat} (off : (word a).off stepFields = true) :
    (h.stepTo s).rd a = h.rd a := by
  have slot : (word a).off [] = true := by simpa [RF.off] using (Bool.and_eq_true_iff.mp off).1
  exact ((Hub.alike_stepTo up s).rd off).trans ((Hub.alike_timeTo ..).rd slot)

/-! ### A backward set (R514) -/

theorem Hub.tm_of_blot {S : List Part} {t : Hub} (e : t.blot S = h.blot S) (out : Part.tm ∉ S := by simp) : t.tm = h.tm := by
  simpa [Hub.blot, out] using congrArg Hub.tm e

theorem Hub.dropHolds_tm (h : Hub) (cause : Nat) : (h.dropHolds cause).tm = h.tm := by
  have dropped (u : Hub) (o q : Nat) (c : Cls) (arr : Option Port) (k : Packet) : ((u.count o q c cause).creditBack arr k).tm
      = u.tm :=
    Hub.tm_of_blot (S := [.regs, .err, .fab, .pw, .links])
      ((Hub.creditBack_blot _ _ _ (by simp)).trans (Hub.count_blot _ _ _ _ _ (by simp) (by simp) (by simp) (by simp)))
  unfold Hub.dropHolds
  exact foldl_keeps Hub.tm _ _ _ fun u e => foldl_keeps Hub.tm _ _ _ fun v x => dropped ..

theorem Hub.emptyQueue_tm (h : Hub) (o q cause : Nat) : (h.emptyQueue o q cause).tm = h.tm :=
  Hub.tm_of_blot (S := [.regs, .out, .mem, .links, .err, .fab, .pw])
    ((Hub.purge_blot _ _ _ _ _ (by simp) (by simp) (by simp) (by simp) (by simp) (by simp)).trans
      (Hub.cutOff_blot _ _ _ _ (by simp) (by simp) (by simp) (by simp) (by simp) (by simp)))

theorem Hub.setPol_tm (h : Hub) (n : Nat) (x : Pol) : (h.setPol n x).tm = h.tm := rfl

/-- An output as a backward set leaves it: its schedule and pulse end, its transitions are gone. -/
def Hub.outputSettled (h : Hub) (n : Nat) : Hub :=
  if (h.evo n).sched.isSome then (h.evoHalt n).put (R.TIME_EVO_STATUS_LATE n) 1
  else if (h.evo n).pulseEnd.isSome then h.evoHalt n
  else h.setEvo n { h.evo n with queue := [] }

theorem Hub.outputSettled_ports (h : Hub) (n : Nat) : (h.outputSettled n).tm.ports = h.tm.ports := by
  unfold Hub.outputSettled
  split
  · rw [Hub.put_tm]; exact Hub.setEvo_ports ..
  · split <;> exact Hub.setEvo_ports ..

theorem Hub.settleTimes_ports (h : Hub) (s : Nat) : (h.settleTimes s).tm.ports = h.tm.ports := by
  unfold Hub.settleTimes
  extract_lets policed fired halted dropped
  have policed' : policed.tm = h.tm := foldl_keeps Hub.tm _ _ _ fun u n => Hub.setPol_tm ..
  have fired' : fired.tm = h.tm := ((Hub.alike_fireTimers ..).tm (by simp)).trans policed'
  have settled : halted = evoAll.foldl Hub.outputSettled fired := rfl
  have halted' : halted.tm.ports = fired.tm.ports := by
    rw [settled]
    exact foldl_keeps (fun u : Hub => u.tm.ports) Hub.outputSettled evoAll fired fun u n => Hub.outputSettled_ports ..
  have dropped' : dropped.tm = halted.tm := Hub.dropHolds_tm ..
  have emptied (l : List Nat) : (l.foldl (fun h k => h.emptyQueue (k / 16384) (k % 16384) 6) dropped).tm = dropped.tm :=
    foldl_keeps Hub.tm _ _ _ fun u k => Hub.emptyQueue_tm ..
  rw [emptied, dropped', halted', fired']

/-- The waits for a start in station time change registers and the frame clock only. -/
theorem Hub.restartWaits_reach (h : Hub) : h.restartWaits.blot [.regs, .usb] = h.blot [.regs, .usb] := by
  have heads (u : Hub) (i : Nat) : (u.dspTimeSet i).blot [.regs, .usb] = u.blot [.regs, .usb] := by
    unfold Hub.dspTimeSet
    split
    · exact (Hub.wr_blot _ _ _ (by simp)).trans (Hub.wr_blot _ _ _ (by simp))
    · rfl
  have started : ([0, 1].foldl Hub.dspTimeSet h).blot [.regs, .usb] = h.blot [.regs, .usb] := (heads _ 1).trans (heads h 0)
  unfold Hub.restartWaits
  extract_lets u start based
  split
  · exact (Hub.usb_replaced _ _ (by simp)).trans
      (((Hub.wr_blot _ _ _ (by simp)).trans (Hub.wr_blot _ _ _ (by simp))).trans started)
  · exact started

/-- The first setting of station time: whichever way it moves, the markers of the ports stay. -/
theorem Hub.setTime_eq (up : h.pw.steep = false) (s : Nat) : ∃ u : Hub, u.stime = s ∧ u.tm.ports = h.tm.ports
    ∧ h.setTime s = (u.setErr 0).put R.TIME_STATUS_VALID 1 := by
  unfold Hub.setTime
  by_cases back : s < h.stime
  · have waits := Hub.restartWaits_reach ((h.settleTimes s).timeTo h.root h.stime s)
    refine ⟨_, ?_, ?_, by rw [if_pos back]⟩
    · simpa [Hub.blot, Hub.timeTo] using congrArg Hub.stime waits
    · rw [Hub.tm_of_blot waits, Hub.timeTo_ports, Hub.settleTimes_ports]
  · have recorded := Hub.alike_wr h A.TIME_STEP_LAST (W (min (2 ^ 32 - 1) ((s - h.stime) / 8)))
    have calm : (h.recordStep (s - h.stime)).pw.steep = false := (recorded.pw (by simp)).symm ▸ up
    exact ⟨_, Hub.stepTo_stime calm s, (Hub.stepTo_ports calm s).trans (congrArg TimeState.ports (recorded.tm (by simp))),
      by rw [if_neg back]⟩

end

end Sys2Proof.Machine
end

section
/-! SUPPORT. Time markers and hop delay (O15): what each command does where its conditions hold (R122–R130, R141). -/

open Sys2Proof Sys2Proof.Machine

namespace Sys2Proof.Machine

section
variable {h : Hub} {p : Port}

/-! ### Time markers (R122–R126) -/

theorem exec_timeMarkerReceived (v : BitVec 64) (e : Bool) (res : PerPort Nat) (s : State) :
    exec (.timeMarkerReceived p v e res) s = s.upd (fun h => h.markerReceived p v.toNat e res) := rfl

theorem becomes_timeMarkerReceived_down {v : BitVec 64} {e : Bool} {res : PerPort Nat} (awake : h.awake = true)
    (down : h.up p = false) :
    becomes (.timeMarkerReceived p v e res) h h :=
  becomes_of_eq (f := fun h => h.markerReceived p v.toNat e res) awake (if_pos down) (exec_timeMarkerReceived v e res)

theorem becomes_timeMarkerReceived_erased {v : BitVec 64} {res : PerPort Nat} (awake : h.awake = true) (up : h.up p = true) :
    becomes (.timeMarkerReceived p v true res) h (h.bump R.TIME_MARK_BAD) :=
  becomes_of_eq (f := fun h => h.markerReceived p v.toNat true res) awake
    ((if_neg (by simp [up])).trans (if_pos rfl)) (exec_timeMarkerReceived v true res)

/-- The first marker of a port that is not the selected candidate's is accepted and passed on. -/
theorem does_timeMarkerReceived_first {v : BitVec 64} {res : PerPort Nat} (awake : h.awake = true) (up : h.up p = true)
    (first : (h.tm.ports.at p).mark = none) (other : h.selPort ≠ some p) :
    does (.timeMarkerReceived p v false res) h (fun t => (t.tm.ports.at p).mark = some ⟨v.toNat, h.root⟩
      ∧ (t.tm.ports.at p).badRun = []
      ∧ t = { h with
          regs := t.regs, mem := t.mem, out := t.out, links := t.links, err := t.err, fab := t.fab, sch := t.sch, tm := t.tm
          tun := t.tun, usb := t.usb }) := by
  have accept : (h.tm.ports.at p).checkMark ⟨v.toNat, h.root⟩ = .accept := by
    unfold TimePort.checkMark
    simp only [first]
  have marks := (Hub.markerReceived_accept res up accept).trans (if_neg fun both => other both.1)
  refine does_of_eq (f := fun h => h.markerReceived p v.toNat false res) awake marks (exec_timeMarkerReceived v false res)
      ⟨?_, ?_, ?_⟩
  · rw [Hub.marked_at]
  · rw [Hub.marked_at]
  · simpa using Hub.of_blot (Hub.blot_mono (h.alike_marked p v.toNat res).blot
      (T := [.regs, .mem, .out, .links, .err, .fab, .sch, .tm, .tun, .usb]) (by simp [markedParts]))

/-- What an accepted marker of the selected and calibrated candidate is held against. -/
theorem Hub.discipline_marked (res : PerPort Nat) (v : Nat) : (h.marked p v res).discipline p v =
    let u := (h.marked p v res).wr A.TIME_MARK_ERR (W (unsigned 32 ((v + h.delay p : Nat) - h.stime : Int)))
    if h.on R.TIME_STATUS_VALID = false then u.setTime (v + h.delay p)
    else if (markTol : Int) < ((v + h.delay p : Nat) : Int) - h.stime then
      ((u.recordStep (v + h.delay p - h.stime)).stepTo (v + h.delay p)).setErr 0
    else u.setErr (((v + h.delay p : Nat) : Int) - h.stime) := by
  have valid (w : Word) : ((h.marked p v res).wr A.TIME_MARK_ERR w).on R.TIME_STATUS_VALID = h.on R.TIME_STATUS_VALID := by
    rw [(Hub.alike_wr ..).on (by decide), h.marked_valid]
  have stime (w : Word) : ((h.marked p v res).wr A.TIME_MARK_ERR w).stime = h.stime :=
    ((Hub.alike_wr ..).stime (by simp)).trans (h.marked_stime p v res)
  unfold Hub.discipline
  simp only [h.marked_delay, h.marked_stime, valid, stime]

/-- An accepted marker of the selected and calibrated candidate disciplines station time. -/
theorem Hub.markerReceived_disciplines {v : Nat} (res : PerPort Nat) (up : h.up p = true)
    (accept : (h.tm.ports.at p).checkMark ⟨v, h.root⟩ = .accept) (sel : h.selPort = some p) (calibrated : h.calibrated p = true) :
    h.markerReceived p v false res = (h.marked p v res).discipline p v :=
  (Hub.markerReceived_accept res up accept).trans (if_pos ⟨sel, calibrated⟩)

/-- The hub with an accepted marker's error shown. -/
def Hub.compared (h : Hub) (p : Port) (v : Nat) (res : PerPort Nat) : Hub :=
  (h.marked p v res).wr A.TIME_MARK_ERR (W (unsigned 32 ((v + h.delay p : Nat) - h.stime : Int)))

theorem Hub.compared_mark (h : Hub) (p : Port) (v : Nat) (res : PerPort Nat) :
    ((h.compared p v res).tm.ports.at p).mark = some ⟨v, h.root⟩ := by
  rw [Hub.compared, (Hub.alike_wr ..).tm (by simp), Hub.marked_at]

theorem Hub.compared_steep (up : h.pw.steep = false) (p : Port) (v : Nat) (res : PerPort Nat) :
    (h.compared p v res).pw.steep = false := by
  rw [Hub.compared, (Hub.alike_wr ..).pw (by simp), (h.alike_marked p v res).pw (by simp [markedParts]), up]

/-- A marker within 64 ns leaves its error to be slewed. -/
theorem does_timeMarkerReceived_near {v : BitVec 64} {res : PerPort Nat} (awake : h.awake = true) (up : h.up p = true)
    (accept : (h.tm.ports.at p).checkMark ⟨v.toNat, h.root⟩ = .accept) (sel : h.selPort = some p)
        (calibrated : h.calibrated p = true)
    (valid : h.on R.TIME_STATUS_VALID = true) (near : ((v.toNat : Int) + h.delay p - h.stime).natAbs ≤ 256) :
    does (.timeMarkerReceived p v false res) h (fun t => t.stime = h.stime ∧ t.tm.err = (v.toNat : Int) + h.delay p - h.stime
      ∧ (t.tm.ports.at p).mark = some ⟨v.toNat, h.root⟩
      ∧ t.rd A.TIME_MARK_ERR = W (unsigned 32 ((v.toNat : Int) + h.delay p - h.stime))) := by
  have within : ¬ (markTol : Int) < ((v.toNat + h.delay p : Nat) : Int) - h.stime := by simp only [markTol]; omega
  have slews : h.markerReceived p v.toNat false res
      = (h.compared p v.toNat res).setErr (((v.toNat + h.delay p : Nat) : Int) - h.stime) := by
    rw [Hub.markerReceived_disciplines res up accept sel calibrated, Hub.discipline_marked, valid]
    exact (if_neg (by simp)).trans (if_neg within)
  have set := Hub.alike_setErr (h.compared p v.toNat res) (((v.toNat + h.delay p : Nat) : Int) - h.stime)
  refine does_of_eq (f := fun h => h.markerReceived p v.toNat false res) awake slews (exec_timeMarkerReceived v false res)
      ⟨?_, ?_, ?_, ?_⟩
  · rw [set.stime (by simp), Hub.compared, (Hub.alike_wr ..).stime (by simp), h.marked_stime]
  · rw [Hub.setErr_tm, Nat.cast_add]
  · rw [Hub.setErr_tm]; exact h.compared_mark ..
  · rw [set.rd (by decide), Hub.compared, Hub.rd_wr_self, Nat.cast_add]

/-- A marker more than 64 ns ahead steps station time forward, and the step is recorded in whole ticks. -/
theorem does_timeMarkerReceived_behind {v : BitVec 64} {res : PerPort Nat} (awake : h.awake = true) (up : h.up p = true)
    (accept : (h.tm.ports.at p).checkMark ⟨v.toNat, h.root⟩ = .accept) (sel : h.selPort = some p)
        (calibrated : h.calibrated p = true)
    (valid : h.on R.TIME_STATUS_VALID = true) (behind : h.stime + 256 < v.toNat + h.delay p) :
    does (.timeMarkerReceived p v false res) h (fun t => t.stime = v.toNat + h.delay p ∧ t.tm.err = 0
      ∧ t.rd A.TIME_STEP_LAST = W (min (2 ^ 32 - 1) ((v.toNat + h.delay p - h.stime) / 8))
      ∧ (t.tm.ports.at p).mark = some ⟨v.toNat, h.root⟩) := by
  have far : (markTol : Int) < ((v.toNat + h.delay p : Nat) : Int) - h.stime := by simp only [markTol]; omega
  obtain ⟨u, eu⟩ : ∃ u, u = (h.compared p v.toNat res).recordStep (v.toNat + h.delay p - h.stime) := ⟨_, rfl⟩
  have steps : h.markerReceived p v.toNat false res = (u.stepTo (v.toNat + h.delay p)).setErr 0 := by
    rw [Hub.markerReceived_disciplines res up accept sel calibrated, Hub.discipline_marked, valid, eu]
    exact (if_neg (by simp)).trans (if_pos far)
  have recorded : (h.compared p v.toNat res).Alike [word A.TIME_STEP_LAST] [.regs] u := eu ▸ Hub.alike_wr ..
  have calm : u.pw.steep = false := (recorded.pw (by simp)).symm ▸ Hub.compared_steep (Hub.steep_of_awake awake) p v.toNat res
  have set := Hub.alike_setErr (u.stepTo (v.toNat + h.delay p)) 0
  refine does_of_eq (f := fun h => h.markerReceived p v.toNat false res) awake steps (exec_timeMarkerReceived v false res)
      ⟨?_, ?_, ?_, ?_⟩
  · rw [set.stime (by simp), Hub.stepTo_stime calm]
  · rw [Hub.setErr_tm]
  · rw [set.rd (by decide), Hub.stepTo_rd calm _ (by decide), eu, Hub.recordStep, Hub.rd_wr_self]
  · rw [Hub.setErr_tm]
    simp only [Hub.stepTo_ports calm, recorded.tm (by simp)]
    exact h.compared_mark ..

/-- The first marker of the selected and calibrated candidate sets station time. -/
theorem does_timeMarkerReceived_sets {v : BitVec 64} {res : PerPort Nat} (awake : h.awake = true) (up : h.up p = true)
    (accept : (h.tm.ports.at p).checkMark ⟨v.toNat, h.root⟩ = .accept) (sel : h.selPort = some p)
        (calibrated : h.calibrated p = true)
    (invalid : h.on R.TIME_STATUS_VALID = false) :
    does (.timeMarkerReceived p v false res) h (fun t => t.stime = v.toNat + h.delay p ∧ t.on R.TIME_STATUS_VALID = true
        ∧ t.tm.err = 0
      ∧ (t.tm.ports.at p).mark = some ⟨v.toNat, h.root⟩) := by
  obtain ⟨u, stime, ports, set⟩ := Hub.setTime_eq (Hub.compared_steep (Hub.steep_of_awake awake) p v.toNat res)
      (v.toNat + h.delay p)
  have sets : h.markerReceived p v.toNat false res = (u.setErr 0).put R.TIME_STATUS_VALID 1 := by
    rw [Hub.markerReceived_disciplines res up accept sel calibrated, Hub.discipline_marked, invalid]
    exact (if_pos rfl).trans set
  have alike := (Hub.alike_setErr u 0).mono.next (Hub.alike_put _ R.TIME_STATUS_VALID 1 rfl)
      (gs := [R.TIME_STATUS_SLEWING, R.TIME_STATUS_VALID])
    (T := [.regs, .tm])
  have tm : ((u.setErr 0).put R.TIME_STATUS_VALID 1).tm = { u.tm with err := 0 } := by rw [Hub.put_tm, Hub.setErr_tm]
  refine does_of_eq (f := fun h => h.markerReceived p v.toNat false res) awake sets (exec_timeMarkerReceived v false res)
      ⟨?_, ?_, ?_, ?_⟩
  · rw [alike.stime (by simp), stime]
  · rw [Hub.on, Hub.get_put_self _ _ _ rfl]; rfl
  · rw [tm]
  · rw [tm]
    simp only [ports]
    exact h.compared_mark ..

theorem does_markerGap (awake : h.awake = true) (marked : (h.tm.ports.at p).mark.isSome = true)
    (first : (h.tm.ports.at p).gap = false) :
    does (.markerGap p) h (fun t => (t.tm.ports.at p).gap = true
      ∧ t.get R.TIME_MARK_MISS = min (2 ^ R.TIME_MARK_MISS.width - 1) (h.get R.TIME_MARK_MISS + 1)
      ∧ t = { h with regs := t.regs, out := t.out, tm := t.tm, tun := t.tun }) := by
  have opens : h.markerGap p = ((h.onTimePort p (fun t => { t with gap := true })).bump R.TIME_MARK_MISS).refreshQuality :=
    if_pos (by simp [marked, first])
  have gap := Hub.alike_onTimePort h p (fun t => { t with gap := true })
  have missed := Hub.alike_bump (h.onTimePort p (fun t => { t with gap := true })) R.TIME_MARK_MISS rfl
  have shown := Hub.alike_refreshQuality ((h.onTimePort p (fun t => { t with gap := true })).bump R.TIME_MARK_MISS)
  refine does_of_eq (f := fun h => h.markerGap p) awake opens (fun _ => rfl) ⟨?_, ?_, ?_⟩
  · rw [shown.tm (by simp), missed.tm (by simp), Hub.onTimePort_at]
  · rw [shown.get _ (by decide), Hub.get_bump_self _ _ rfl, gap.get _ (by decide)]
  · have alike := ((gap.mono (gs := R.TIME_MARK_MISS :: qualityFields) (T := markedParts) (by simp)
      (by simp [markedParts])).next missed
      (by simp) (by simp [markedParts])).next shown (by simp) (by simp [markedParts])
    simpa [markedParts] using Hub.of_blot alike.blot

/-! ### Slewing (R126) -/

theorem does_slewComplete (awake : h.awake = true) (error : h.tm.err ≠ 0) (near : -256 ≤ h.tm.err) :
    does .slewComplete h (fun t => t.tm.err = 0 ∧ t.root = h.root + 4000 * h.tm.err.natAbs
      ∧ (t.stime : Int) = h.stime + 4000 * h.tm.err.natAbs + h.tm.err ∧ t.get R.TIME_STATUS_SLEWING = 0
      ∧ t = { h with root := t.root, stime := t.stime, regs := t.regs, err := t.err, tm := t.tm }) := by
  obtain ⟨d, ed⟩ : ∃ d, d = h.tm.err.natAbs * 4000 := ⟨_, rfl⟩
  have within : ¬ h.tm.err < -(markTol : Int) := by simp only [markTol]; omega
  have slews : h.slewComplete
      = (Hub.timeTo { h with root := h.root + d } h.root (h.stime + d) (h.stime + d + h.tm.err : Int).toNat).setErr 0 := by
    unfold Hub.slewComplete
    simp only [if_neg error, if_neg within, ed]
  have moved := Hub.alike_timeTo { h with root := h.root + d } h.root (h.stime + d) (h.stime + d + h.tm.err : Int).toNat
  have set := Hub.alike_setErr (Hub.timeTo { h with root := h.root + d } h.root (h.stime + d)
      (h.stime + d + h.tm.err : Int).toNat) 0
  refine does_of_eq (f := Hub.slewComplete) awake slews (fun _ => rfl) ⟨?_, ?_, ?_, Hub.setErr_slewing _ (by decide), ?_⟩
  · rw [Hub.setErr_tm]
  · rw [set.root (by simp), moved.root (by simp), ed, Nat.mul_comm]
  · rw [set.stime (by simp)]
    simp only [Hub.timeTo]
    omega
  · have parts : ∀ t : Hub, t.blot [.root, .stime, .regs, .err, .tm] = ({ h with root := h.root + d } : Hub).blot [.root,
      .stime, .regs, .err, .tm]
        → t = { h with root := t.root, stime := t.stime, regs := t.regs, err := t.err, tm := t.tm } := fun t e => by
      simpa using Hub.of_blot (e.trans (Hub.root_replaced h _ (by simp)))
    exact parts _ ((Hub.blot_mono set.blot).trans (Hub.blot_mono moved.blot))

/-! ### Calibration (R130, R141) -/

theorem becomes_delayCalibration_down (awake : h.awake = true) (down : h.up p = false) : becomes (.delayCalibration p) h h :=
  becomes_of_eq (f := fun h => h.delayCalibration p) awake (if_neg (by simp [down])) fun _ => rfl

/-- The first probe of a calibration begins it. -/
theorem becomes_delayCalibration_first (awake : h.awake = true) (up : h.up p = true)
    (idle : (h.tm.ports.at p).calibrating = false) :
    becomes (.delayCalibration p) h ((h.calStart p).sendProbe p false) := by
  have none : ((h.calStart p).tm.ports.at p).sentProbes < 64 := by rw [Hub.calStart, Hub.onTimePort_at]; exact Nat.zero_lt_succ _
  have begins : h.delayCalibration p = (h.calStart p).sendProbe p false := by
    unfold Hub.delayCalibration
    simp only [up, idle, if_true, Bool.false_eq_true, if_false, if_pos none]
  exact becomes_of_eq (f := fun h => h.delayCalibration p) awake begins fun _ => rfl

theorem becomes_calibrationRetry (awake : h.awake = true) (up : h.up p = true) (un : h.calibrated p = false)
    (idle : (h.tm.ports.at p).calibrating = false) : becomes (.calibrationRetry p) h ((h.calStart p).sendProbe p false) :=
  becomes_of_eq (f := fun h => h.calibrationRetry p) awake (if_pos (by simp [up, un, idle])) fun _ => rfl

theorem becomes_delayRecheck (awake : h.awake = true) (up : h.up p = true) (calibrated : h.calibrated p = true)
    (enabled : h.on R.TIME_CTRL_RECHECK_EN = true) : becomes (.delayRecheck p) h (h.sendProbe p true) :=
  becomes_of_eq (f := fun h => h.delayRecheck p) awake (if_pos (by simp [up, calibrated, enabled])) fun _ => rfl

/-- A port recalibrates where it is UP. -/
def Hub.recalibrate (h : Hub) (p : Port) : Hub := if h.up p then (h.calStart p).sendProbe p false else h

theorem Hub.calNow_eq (h : Hub) : h.calNow = ((h.recalibrate .E).recalibrate .W).recalibrate .S := rfl

theorem Hub.recalibrate_up (up : h.up p = true) : h.recalibrate p = (h.calStart p).sendProbe p false := if_pos up

theorem Hub.recalibrate_down (down : h.up p = false) : h.recalibrate p = h := if_neg (by simp [down])

theorem becomes_calNow_W (awake : h.awake = true) (e : h.up .E = false) (w : h.up .W = true) (s : h.up .S = false) :
    becomes .calNow h ((h.calStart .W).sendProbe .W false) := by
  have only : h.calNow = (h.calStart .W).sendProbe .W false := by
    rw [Hub.calNow_eq, Hub.recalibrate_down e, Hub.recalibrate_up w, Hub.recalibrate_down (by rw [Hub.calibrate_up, s])]
  exact becomes_of_eq (f := Hub.calNow) awake only fun _ => rfl

theorem becomes_calNow_EW (awake : h.awake = true) (e : h.up .E = true) (w : h.up .W = true) (s : h.up .S = false) :
    becomes .calNow h ((((h.calStart .E).sendProbe .E false).calStart .W).sendProbe .W false) := by
  have both : h.calNow = (((h.calStart .E).sendProbe .E false).calStart .W).sendProbe .W false := by
    rw [Hub.calNow_eq, Hub.recalibrate_up e, Hub.recalibrate_up (p := .W) (by rw [Hub.calibrate_up, w]),
      Hub.recalibrate_down (p := .S) (by rw [Hub.calibrate_up, Hub.calibrate_up, s])]
  exact becomes_of_eq (f := Hub.calNow) awake both fun _ => rfl

/-! ### Probes and replies (R129) -/

theorem becomes_delayProbeReceived {x : PortPkt} (awake : h.awake = true) (probe : (h.links.at p).ownOf 5 = some x)
    (may : h.portMay p (h.portPacket 6 x.pkt.aux [W (h.root - x.at_)]) = true) :
    becomes (.delayProbeReceived p) h ((h.takeOwn p x).portSend p (h.portPacket 6 x.pkt.aux [W (h.root - x.at_)])) := by
  have answers : h.delayProbeReceived p = (h.takeOwn p x).portSend p (h.portPacket 6 x.pkt.aux [W (h.root - x.at_)]) := by
    unfold Hub.delayProbeReceived
    simp only [probe, may, if_true]
  exact becomes_of_eq (f := fun h => h.delayProbeReceived p) awake answers fun _ => rfl

theorem becomes_delayReplyReceived_stray {x : PortPkt} (awake : h.awake = true) (reply : (h.links.at p).ownOf 6 = some x)
    (stray : KMap.get? (h.tm.ports.at p).probes x.pkt.aux = none) : becomes (.delayReplyReceived p) h (h.takeOwn p x) := by
  have same : (h.takeOwn p x).tm = h.tm := Hub.onLink_tm ..
  have taken : h.delayReplyReceived p = h.takeOwn p x := by
    unfold Hub.delayReplyReceived
    simp only [reply, same, stray]
  exact becomes_of_eq (f := fun h => h.delayReplyReceived p) awake taken fun _ => rfl

/-- A reply within 100 µs to a probe of a calibration gives its sample. -/
theorem becomes_delayReplyReceived_sample {x : PortPkt} {b : Probe} {v : Int} (awake : h.awake = true)
    (reply : (h.links.at p).ownOf 6 = some x) (probe : KMap.get? (h.tm.ports.at p).probes x.pkt.aux = some b)
        (once : b.again = false)
    (calibration : b.recheck = false) (soon : x.at_ ≤ b.t1 + 100 * us)
    (value : v = (x.at_ : Int) - b.t1 - (x.pkt.payload.headD 0#32).toNat) :
    becomes (.delayReplyReceived p) h (((h.takeOwn p x).onTimePort p
      (fun t => { t with probes := KMap.del t.probes x.pkt.aux, samples := v :: t.samples })).calFinish p) := by
  have same : (h.takeOwn p x).tm = h.tm := Hub.onLink_tm ..
  have late : decide (b.t1 + 100 * us < x.at_) = false := decide_eq_false (Nat.not_lt.mpr soon)
  have samples : h.delayReplyReceived p = ((h.takeOwn p x).onTimePort p
      (fun t => { t with probes := KMap.del t.probes x.pkt.aux, samples := v :: t.samples })).calFinish p := by
    unfold Hub.delayReplyReceived
    simp only [reply, same, probe, once, calibration, late, Bool.or_false, Bool.false_eq_true, if_false,
        Hub.onTimePort_onTimePort, value]
    rfl
  exact becomes_of_eq (f := fun h => h.delayReplyReceived p) awake samples fun _ => rfl

/-- A probe that got no reply is forgotten; where no calibration runs that is all. -/
theorem does_delayProbeTimeout {k : BitVec 16} (awake : h.awake = true) (idle : (h.tm.ports.at p).calibrating = false) :
    does (.delayProbeTimeout p k) h (fun t => KMap.get? (t.tm.ports.at p).probes k.toNat = none
      ∧ t = { h with err := t.err, tm := t.tm }) := by
  have state := Hub.onTimePort_at h p (fun t => { t with probes := KMap.del t.probes k.toNat })
  have forgets : h.delayProbeTimeout p k.toNat = h.onTimePort p (fun t => { t with probes := KMap.del t.probes k.toNat }) :=
    if_neg (by rw [state]; simp [idle])
  refine does_of_eq (f := fun h => h.delayProbeTimeout p k.toNat) awake forgets (fun _ => rfl) ⟨?_, ?_⟩
  · rw [state]
    exact KMap.get?_del_self ..
  · simpa using Hub.of_blot (Hub.blot_mono (Hub.alike_onTimePort h p _).blot (T := [.err, .tm]))

end

end Sys2Proof.Machine
end

section
open Sys2Proof Sys2Proof.Machine

/-- Settles O15: each clause is the lemma about its command; they rest on what an accepted marker, a step of station time, a first
setting and a port's own packet each come to. That SLEW_COMPLETE moves root and station time by 4000 units for each unit of error
is the model's reading (assumption 35, DEDUCED), TIME_STEP_LAST rounded down to whole ticks its choice (assumption 117, DESIGN
CHOICE). -/
theorem markerAndDelayCommands : Obligations.MarkerAndDelayCommands := by
  intro h p awake
  exact ⟨fun v e res => becomes_timeMarkerReceived_down awake, fun v res => becomes_timeMarkerReceived_erased awake,
    fun v res => does_timeMarkerReceived_first awake, fun v res => does_timeMarkerReceived_near awake,
    fun v res => does_timeMarkerReceived_behind awake, fun v res => does_timeMarkerReceived_sets awake, does_markerGap awake,
    does_slewComplete awake, becomes_delayCalibration_down awake, becomes_delayCalibration_first awake,
        becomes_calibrationRetry awake,
    becomes_delayRecheck awake, becomes_calNow_W awake, becomes_calNow_EW awake, fun x => becomes_delayProbeReceived awake,
    fun x => becomes_delayReplyReceived_stray awake, fun x b v => becomes_delayReplyReceived_sample awake,
    fun k => does_delayProbeTimeout awake, fun k => becomes_of_upd (f := fun h => h.delayProbeTimeout p k.toNat) awake fun _
        => rfl⟩
end

end

section
/-! SUPPORT. The schedulers (O18): what a packet boundary, the start of an epoch and an arm each come to (R174–R176, R181). -/

open Sys2Proof Sys2Proof.Machine

namespace Sys2Proof.Machine

section
variable {h : Hub} {p : Port}

/-! ### Frames -/

/-- Where the schedulers alone differ, a hub is the other with these replaced. -/
theorem Hub.of_blot_sch {t : Hub} (same : t.blot [.sch] = h.blot [.sch]) : t = { h with sch := t.sch } := by
  simpa using Hub.of_blot same

theorem Hub.alike_eachSched (h : Hub) {f : Hub → Nat → Hub} (step : ∀ (x : Hub) (i : Nat), x.Alike [] [.sch] (f x i)) :
    h.Alike [] [.sch] (h.eachSched f) := Hub.alike_foldl _ (fun x i _ => step x i) h

theorem Hub.alike_refill (h : Hub) (i : Nat) : h.Alike [] [.sch] (h.refill i) := Hub.alike_setSched ..

theorem Hub.alike_syncBuckets (h : Hub) (i : Nat) : h.Alike [] [.sch] (h.syncBuckets i) := Hub.alike_setSched ..

/-! ### Packet boundaries (R174, R175) -/

theorem Port.ofIx_ix (p : Port) : Port.ofIx p.ix = p := by cases p <;> rfl

theorem Port.ix_lt (p : Port) : p.ix < 3 := by cases p <;> decide

theorem Hub.endWire_link (idle : (h.links.at p).wire = none) : h.endWire p.ix = h := by
  simp only [Hub.endWire, p.ix_lt, if_true, p.ofIx_ix, idle]

theorem Hub.endWire_local (idle : h.fab.wire = none) : h.endWire 3 = h := by
  simp only [Hub.endWire, Nat.lt_irrefl, if_false, idle]

theorem Hub.refill_fab (h : Hub) (s : Nat) : (h.refill s).fab = h.fab := (Hub.alike_refill h s).fab (by simp)

theorem Hub.refill_links (h : Hub) (s : Nat) : (h.refill s).links = h.links := (Hub.alike_refill h s).links (by simp)

theorem Hub.refill_inService (h : Hub) (s : Nat) (p : Port) : (h.refill s).inService p = h.inService p := rfl

/-- What a boundary selects is sent as it stands once its tags have moved, its bucket has paid and its cells are read, where it
has not expired (R158) and no word of it is spoilt (R145). -/
theorem Hub.selectFrom_sends {s fuel step : Nat} {closed : List Nat} {bad : Bool} {c : Cand} {d : Desc} {ds : List Desc}
    (room : 0 < fuel) (choice : h.choose s (h.candidates s closed) = some (step, c))
    (live : d.tested = true ∨ h.expired c.pkt = false) (head : (h.queue c.o c.q).items = d :: ds)
    (sound : h.spoiltAt d.pid = false) {k : Hub}
    (paid : k = ((h.moveTags s c.o c.q c.pkt).charge s step c.q c.pkt).readCells (h.cellsAt d.pid)) :
    h.selectFrom s closed bad fuel =
      if s < 3 then k.sendLink (Port.ofIx s) c.q c.pkt d bad
      else if c.o = 13 then k.serveHead c.q bad else k.sendLocal c.o c.q c.pkt d bad := by
  obtain ⟨n, rfl⟩ := Nat.exists_eq_succ_of_ne_zero room.ne'
  have fresh : (!d.tested && (h.moveTags s c.o c.q c.pkt).expired c.pkt) = false := by
    obtain tested | young := live
    · simp [tested]
    · exact (congrArg (!d.tested && ·) young).trans (Bool.and_false _)
  have whole : (h.moveTags s c.o c.q c.pkt).spoiltAt d.pid = false := sound
  have cells : (h.moveTags s c.o c.q c.pkt).cellsAt d.pid = h.cellsAt d.pid := rfl
  simp only [Hub.selectFrom, choice, head, fresh, whole, cells, Bool.false_eq_true, if_false, paid]

theorem exec_schedulerSelect (s : Fin 4) (bad : Bool) (t : State) :
    exec (.schedulerSelect s bad) t = t.upd (fun h => h.schedulerSelect s h.closedTunnels bad) := rfl

theorem Port.ofNat_ix (p : Port) : (Fin.ofNat 4 p.ix).val = p.ix := by cases p <;> rfl

theorem becomes_schedulerSelect_down {bad : Bool} (awake : h.awake = true) (down : h.inService p = false)
    (idle : (h.links.at p).wire = none) : becomes (.schedulerSelect (Fin.ofNat 4 p.ix) bad) h (h.refill p.ix) := by
  refine becomes_of_eq awake ?_ (exec_schedulerSelect _ bad)
  simp only [p.ofNat_ix, Hub.schedulerSelect, Hub.endWire_link idle, p.ix_lt, if_true, p.ofIx_ix, Hub.refill_inService, down,
    Bool.not_false]

theorem becomes_schedulerSelect_link {bad : Bool} {k : Hub} {step : Nat} {c : Cand} {d : Desc} {ds : List Desc}
    (awake : h.awake = true) (up : h.inService p = true) (idle : (h.links.at p).wire = none) (fresh : (h.links.at p).rq = [])
    (filled : k = h.refill p.ix) (choice : k.choose p.ix (k.candidates p.ix h.closedTunnels) = some (step, c))
    (live : d.tested = true ∨ k.expired c.pkt = false) (head : (k.queue c.o c.q).items = d :: ds)
    (sound : k.spoiltAt d.pid = false) (waiting : 0 < (h.fab.queues.map (fun e => e.2.items.length)).sum) :
    becomes (.schedulerSelect (Fin.ofNat 4 p.ix) bad) h ((((k.moveTags p.ix c.o c.q c.pkt).charge p.ix step c.q c.pkt).readCells
      (k.cellsAt d.pid)).sendLink p c.q c.pkt d bad) := by
  subst filled
  refine becomes_of_eq awake ?_ (exec_schedulerSelect _ bad)
  have selects := Hub.selectFrom_sends (bad := bad) waiting choice live head sound rfl
  simp only [p.ix_lt, if_true, p.ofIx_ix] at selects
  simp only [p.ofNat_ix, Hub.schedulerSelect, Hub.endWire_link idle, p.ix_lt, if_true, p.ofIx_ix, Hub.refill_inService, up,
    Hub.refill_links, fresh, List.isEmpty_nil, Bool.not_true, Bool.false_and, Bool.false_eq_true, if_false, Hub.refill_fab, selects]

theorem becomes_schedulerSelect_local {bad : Bool} {k : Hub} {step : Nat} {c : Cand} {d : Desc} {ds : List Desc}
    (awake : h.awake = true) (idle : h.fab.wire = none) (endpoint : c.o ≠ 13) (filled : k = h.refill 3)
    (choice : k.choose 3 (k.candidates 3 h.closedTunnels) = some (step, c))
    (live : d.tested = true ∨ k.expired c.pkt = false) (head : (k.queue c.o c.q).items = d :: ds)
    (sound : k.spoiltAt d.pid = false) (waiting : 0 < (h.fab.queues.map (fun e => e.2.items.length)).sum) :
    becomes (.schedulerSelect 3 bad) h ((((k.moveTags 3 c.o c.q c.pkt).charge 3 step c.q c.pkt).readCells
      (k.cellsAt d.pid)).sendLocal c.o c.q c.pkt d bad) := by
  subst filled
  refine becomes_of_eq awake ?_ (exec_schedulerSelect _ bad)
  have selects := Hub.selectFrom_sends (bad := bad) waiting choice live head sound rfl
  simp only [Nat.lt_irrefl, if_false, endpoint] at selects
  have place : ((3 : Fin 4) : Nat) = 3 := rfl
  simp only [place, Hub.schedulerSelect, Hub.endWire_local idle, Nat.lt_irrefl, if_false, Hub.refill_fab, selects]

/-! ### Epochs (R176) -/

/-- A link scheduler is one of the three. -/
theorem Fin.val_mem_links (s : Fin 3) : s.val ∈ [0, 1, 2] := by revert s; decide

theorem becomes_epochStart_over {s : Fin 3} (awake : h.awake = true) (narrow : h.on (R.LNK_STATUS_TX_NARROW s) = true)
    (exceeded : 4096 < 2 * h.dres s + h.get R.SCH_PCAP_ACTIVE + 42) : becomes .epochStart h (h.bump R.SCH_OVERSUB) :=
  becomes_of_eq (f := Hub.epochStart) awake
    (if_pos (List.any_eq_true.mpr ⟨s.val, Fin.val_mem_links s, by simp [narrow, exceeded]⟩)) fun _ => rfl

theorem becomes_epochStart_wide (awake : h.awake = true) (wide : ∀ s : Fin 3, h.on (R.LNK_STATUS_TX_NARROW s) = false) :
    becomes .epochStart h h := by
  have e : h.on (R.LNK_STATUS_TX_NARROW 0) = false := wide 0
  have w : h.on (R.LNK_STATUS_TX_NARROW 1) = false := wide 1
  have s : h.on (R.LNK_STATUS_TX_NARROW 2) = false := wide 2
  exact becomes_of_eq (f := Hub.epochStart) awake (if_neg (by simp [e, w, s])) fun _ => rfl

/-! ### Arming (R181) -/

theorem Hub.armResult_armed (armed : h.on R.SCH_STATUS_ARMED = true) : h.armResult = (6, 0) := if_pos armed

theorem Hub.armResult_untimed (idle : h.on R.SCH_STATUS_ARMED = false)
    (untimed : h.on R.TIME_STATUS_VALID = false ∨ h.get R.TIME_STATUS_QUALITY = 2) : h.armResult = (7, 0) := by
  simp [Hub.armResult, idle, untimed]

/-- What the checks of the staged bank answer (R181). -/
def Hub.stagedResult (h : Hub) : Nat × Nat :=
  if [0, 1, 2].any (fun s => hasDup (h.bankEntries s (1 - h.get R.SCH_STATUS_ACTIVE_BANK))) then (5, 0)
  else
    match [0, 1, 2, 3].find? (fun s => decide (4096 < h.swapLoad s + h.get R.SCH_PCAP_STAGED + 41)) with
    | some s => (4, s)
    | none => (1, 0)

/-- What the checks of R181 after the first two answer. -/
theorem Hub.armResult_timed {d : Nat} (target : d = subMod (2 ^ 32) (h.get R.SCH_ARM_EPOCH) h.epoch)
    (idle : h.on R.SCH_STATUS_ARMED = false) (valid : h.on R.TIME_STATUS_VALID = true)
    (locked : h.get R.TIME_STATUS_QUALITY ≠ 2) :
    h.armResult =
      if d = 0 ∨ 2 ^ 31 ≤ d then (2, 0)
      else if d = 1 ∧ 62500 - h.now % 62500 < 1000 then (3, 0)
      else h.stagedResult := by
  subst target
  rw [Hub.armResult, if_neg (by simp [idle]), if_neg (by simp [valid, locked])]
  rfl

/-- A refused arm records the result and the scheduler it names. -/
theorem becomes_schArm_refused {r s : Nat} (awake : h.awake = true) (result : h.armResult = (r, s)) (refused : r ≠ 1) :
    becomes .schArm h ((h.put R.SCH_STATUS_RESULT r).put R.SCH_STATUS_OVER_SCHED s) :=
  becomes_of_eq (f := Hub.schArm) awake (by simp only [Hub.schArm, result, if_neg refused]) fun _ => rfl

/-- A target that is the current epoch or past. -/
theorem Hub.armResult_past (idle : h.on R.SCH_STATUS_ARMED = false) (valid : h.on R.TIME_STATUS_VALID = true)
    (locked : h.get R.TIME_STATUS_QUALITY ≠ 2)
    (past : h.get R.SCH_ARM_EPOCH = h.epoch ∨ 2 ^ 31 ≤ subMod (2 ^ 32) (h.get R.SCH_ARM_EPOCH) h.epoch) :
    h.armResult = (2, 0) := by
  rw [Hub.armResult_timed rfl idle valid locked, if_pos (past.imp_left fun same => by rw [same, subMod_self _ _ (by decide)])]

/-- The next epoch, less than 2 µs away. -/
theorem Hub.armResult_soon (idle : h.on R.SCH_STATUS_ARMED = false) (valid : h.on R.TIME_STATUS_VALID = true)
    (locked : h.get R.TIME_STATUS_QUALITY ≠ 2) (next : subMod (2 ^ 32) (h.get R.SCH_ARM_EPOCH) h.epoch = 1)
    (soon : 62500 - h.now % 62500 < 1000) : h.armResult = (3, 0) := by
  rw [Hub.armResult_timed next.symm idle valid locked, if_neg (by decide), if_pos ⟨rfl, soon⟩]

section
variable {d : Nat} (target : d = subMod (2 ^ 32) (h.get R.SCH_ARM_EPOCH) h.epoch) (idle : h.on R.SCH_STATUS_ARMED = false)
  (valid : h.on R.TIME_STATUS_VALID = true) (locked : h.get R.TIME_STATUS_QUALITY ≠ 2) (ahead : 1 ≤ d) (near : d < 2 ^ 31)
  (early : d ≠ 1 ∨ 1000 ≤ 62500 - h.now % 62500)
include target idle valid locked ahead near early

/-- A target in time leaves the answer to the staged bank. -/
theorem Hub.armResult_ahead : h.armResult = h.stagedResult := by
  rw [Hub.armResult_timed target idle valid locked, if_neg (by omega), if_neg (by omega)]

theorem Hub.armResult_dup {s : Fin 3} (dup : hasDup (h.bankEntries s (1 - h.get R.SCH_STATUS_ACTIVE_BANK)) = true) :
    h.armResult = (5, 0) :=
  (Hub.armResult_ahead target idle valid locked ahead near early).trans
    (if_pos (List.any_eq_true.mpr ⟨s.val, Fin.val_mem_links s, dup⟩))

/-- The first scheduler whose reservation would be exceeded is named. -/
theorem Hub.armResult_exceeded {s : Fin 4}
    (single : ∀ k : Fin 3, hasDup (h.bankEntries k (1 - h.get R.SCH_STATUS_ACTIVE_BANK)) = false)
    (exceeded : 4096 < h.swapLoad s + h.get R.SCH_PCAP_STAGED + 41)
    (first : ∀ k : Fin 4, k < s → h.swapLoad k + h.get R.SCH_PCAP_STAGED + 41 ≤ 4096) : h.armResult = (4, s.val) := by
  have distinct : ([0, 1, 2].any fun s => hasDup (h.bankEntries s (1 - h.get R.SCH_STATUS_ACTIVE_BANK))) = false := by
    simpa using ⟨single 0, single 1, single 2⟩
  have found : [0, 1, 2, 3].find? (fun s => decide (4096 < h.swapLoad s + h.get R.SCH_PCAP_STAGED + 41)) = some s.val :=
    List.find?_range_eq_some (n := 4) |>.mpr ⟨decide_eq_true exceeded, List.mem_range.mpr s.isLt, fun j lt => by
      simpa using first ⟨j, lt.trans s.isLt⟩ lt⟩
  rw [Hub.armResult_ahead target idle valid locked ahead near early, Hub.stagedResult, distinct, if_neg Bool.false_ne_true, found]

end

theorem does_schArm {s : Nat} (awake : h.awake = true) (result : h.armResult = (1, s)) :
    does .schArm h (fun t => t.on R.SCH_STATUS_ARMED = true ∧ t.get R.SCH_STATUS_RESULT = 1
      ∧ t.get R.SCH_STATUS_ACTIVE_BANK = h.get R.SCH_STATUS_ACTIVE_BANK ∧ t = { h with regs := t.regs }) := by
  have arms : h.schArm = ((h.put R.SCH_STATUS_RESULT 1).put R.SCH_STATUS_OVER_SCHED s).put R.SCH_STATUS_ARMED 1 := by
    simp only [Hub.schArm, result, if_true]
  refine does_of_eq (f := Hub.schArm) awake arms (fun _ => rfl) ⟨?_, ?_, ?_, rfl⟩
  all_goals simp (disch := decide) only [Hub.on, Hub.get_put_self, Hub.get_put_of_apart]
  all_goals rfl

end

end Sys2Proof.Machine
end

section
/-! SUPPORT. The schedulers (O4, O18), continued: what a disarm, a swap, made or missed, the end of its settling and a monitor's
sample and read each come to (R182–R188). -/

open Sys2Proof Sys2Proof.Machine

namespace Sys2Proof.Machine

section
variable {h : Hub}

/-! ### Disarming (R182) -/

/-- The hub with its arming ended as DISARM ends it. -/
def Hub.disarmed (h : Hub) : Hub := ((h.put R.SCH_STATUS_ARMED 0).put R.SCH_STATUS_RESULT 9).put R.SCH_STATUS_OVER_SCHED 0

theorem Hub.schDisarm_armed (armed : h.on R.SCH_STATUS_ARMED = true) : h.schDisarm = h.disarmed := if_pos armed

theorem becomes_schDisarm_idle (awake : h.awake = true) (idle : h.on R.SCH_STATUS_ARMED = false) : becomes .schDisarm h h :=
  becomes_of_eq (f := Hub.schDisarm) awake (if_neg (by simp [idle])) fun _ => rfl

theorem Hub.disarmed_on (h : Hub) : h.disarmed.on R.SCH_STATUS_ARMED = false := by
  simp (disch := decide) only [Hub.disarmed, Hub.on, Hub.get_put_self, Hub.get_put_of_apart]
  rfl

theorem Hub.disarmed_result (h : Hub) : h.disarmed.get R.SCH_STATUS_RESULT = 9 := by
  simp (disch := decide) only [Hub.disarmed, Hub.get_put_self, Hub.get_put_of_apart]
  rfl

theorem Hub.disarmed_bank (h : Hub) : h.disarmed.get R.SCH_STATUS_ACTIVE_BANK = h.get R.SCH_STATUS_ACTIVE_BANK := by
  simp (disch := decide) only [Hub.disarmed, Hub.get_put_of_apart]

theorem Hub.disarmed_onlyRegs (h : Hub) : onlyRegs h h.disarmed [A.SCH_STATUS] := by
  have all := onlyRegs_trans (onlyRegs_trans (onlyRegs_put h R.SCH_STATUS_ARMED 0) (onlyRegs_put _ R.SCH_STATUS_RESULT 9))
    (onlyRegs_put _ R.SCH_STATUS_OVER_SCHED 0)
  obtain ⟨words, rest⟩ := all
  refine ⟨fun a out => words a fun mem => out ?_, rest⟩
  simpa [R.SCH_STATUS_ARMED, R.SCH_STATUS_RESULT, R.SCH_STATUS_OVER_SCHED] using mem

theorem does_schDisarm (awake : h.awake = true) (armed : h.on R.SCH_STATUS_ARMED = true) :
    does .schDisarm h (fun t => t.on R.SCH_STATUS_ARMED = false ∧ t.get R.SCH_STATUS_RESULT = 9
      ∧ t = { h with regs := t.regs }) :=
  does_of_eq (f := Hub.schDisarm) awake (Hub.schDisarm_armed armed) (fun _ => rfl)
    ⟨h.disarmed_on, h.disarmed_result, rfl⟩

/-! ### The swap (R183) -/

/-- A swap reaches its target where the epoch is no more than half the count past it. -/
theorem Hub.grantSwap_due (armed : h.on R.SCH_STATUS_ARMED = true) (target : h.get R.SCH_ARM_EPOCH = h.epoch) :
    h.grantSwap = if h.on R.TIME_STATUS_VALID && decide (h.get R.TIME_STATUS_QUALITY < 2) then h.swapNow else h.swapMissed :=
  if_pos (by simp [armed, target, subMod_self _ _ (Nat.two_pow_pos 32)])

theorem becomes_grantSwap_waits (awake : h.awake = true)
    (waits : h.on R.SCH_STATUS_ARMED = false ∨ 2 ^ 31 ≤ subMod (2 ^ 32) h.epoch (h.get R.SCH_ARM_EPOCH)) :
    becomes .grantSwap h h := by
  refine becomes_of_eq (f := Hub.grantSwap) awake (if_neg ?_) fun _ => rfl
  obtain idle | ahead := waits
  · simp [idle]
  · rw [decide_eq_false (Nat.not_lt.mpr ahead), Bool.and_false]
    exact Bool.false_ne_true

/-- The hub with the banks exchanged, the staged PCAP active, and RESULT SWAPPED. -/
def Hub.exchanged (h : Hub) : Hub :=
  ((((h.put R.SCH_STATUS_ACTIVE_BANK (1 - h.get R.SCH_STATUS_ACTIVE_BANK)).put R.SCH_PCAP_ACTIVE (h.get R.SCH_PCAP_STAGED)).put
    R.SCH_STATUS_ARMED 0).put R.SCH_STATUS_RESULT 8).put R.SCH_STATUS_OVER_SCHED 0

/-- The hub once a swap is counted and settles from the grants `old`, its D buckets and its Shed following the new bank. -/
def Hub.settles (h : Hub) (settle : Bool) (old : KMap Nat) : Hub :=
  let h := ((h.latchAll evEpoch).bump R.SCH_STATUS_SWAP_CNT).put R.SCH_STATUS_SETTLING (b2n settle)
  let h := { h with sch := { h.sch with settle := old } }
  ((h.eachSched Hub.syncBuckets).shedRecalc .E).shedRecalc .W

/-- A swap brings the buckets up to now, exchanges the banks and settles. -/
theorem Hub.swapNow_eq (h : Hub) : ∃ settle old, h.swapNow = (h.eachSched Hub.refill).exchanged.settles settle old :=
  ⟨_, _, rfl⟩

/-- The fields that the settling of a swap reaches. -/
def settlingFields : List RF := [R.SCH_STATUS_SWAP_CNT, R.SCH_STATUS_SETTLING] ++ lullFields .E ++ lullFields .W

theorem Hub.alike_settles (h : Hub) (settle : Bool) (old : KMap Nat) :
    h.Alike settlingFields swapParts (h.settles settle old) := by
  unfold Hub.settles
  extract_lets counted before settled
  have counted' : h.Alike settlingFields swapParts counted :=
    (((Hub.alike_latchAll h evEpoch).mono (by simp) (by simp [swapParts])).next (Hub.alike_bump _ _ rfl)
      (by simp [settlingFields]) (by simp [swapParts])).next (Hub.alike_put _ _ _ rfl) (by simp [settlingFields])
      (by simp [swapParts])
  clear_value counted
  have settled' : h.Alike settlingFields swapParts settled := counted'.next (Hub.alike_sch ..) (by simp) (by simp [swapParts])
  clear_value settled
  have synced := settled'.next (settled.alike_eachSched Hub.alike_syncBuckets) (by simp) (by simp [swapParts])
  exact (synced.next (Hub.alike_shedRecalc _ .E) (fun f mem => by simp [settlingFields, mem]) (by simp [swapParts])).next
    (Hub.alike_shedRecalc _ .W) (fun f mem => by simp [settlingFields, mem]) (by simp [swapParts])

theorem Hub.exchanged_bank (h : Hub) : h.exchanged.get R.SCH_STATUS_ACTIVE_BANK = 1 - h.get R.SCH_STATUS_ACTIVE_BANK := by
  simp (disch := decide) only [Hub.exchanged, Hub.get_put_self, Hub.get_put_of_apart]
  exact Nat.mod_eq_of_lt (Nat.lt_succ_of_le (Nat.sub_le ..))

theorem Hub.exchanged_pcap (h : Hub) : h.exchanged.get R.SCH_PCAP_ACTIVE = h.get R.SCH_PCAP_STAGED := by
  simp (disch := decide) only [Hub.exchanged, Hub.get_put_self, Hub.get_put_of_apart]
  exact Nat.mod_eq_of_lt (h.get_lt R.SCH_PCAP_STAGED)

theorem Hub.exchanged_on (h : Hub) : h.exchanged.on R.SCH_STATUS_ARMED = false := by
  simp (disch := decide) only [Hub.exchanged, Hub.on, Hub.get_put_self, Hub.get_put_of_apart]
  rfl

theorem Hub.exchanged_result (h : Hub) : h.exchanged.get R.SCH_STATUS_RESULT = 8 := by
  simp (disch := decide) only [Hub.exchanged, Hub.get_put_self, Hub.get_put_of_apart]
  rfl

theorem does_grantSwap_swaps (awake : h.awake = true) (armed : h.on R.SCH_STATUS_ARMED = true)
    (target : h.get R.SCH_ARM_EPOCH = h.epoch) (valid : h.on R.TIME_STATUS_VALID = true)
    (locked : h.get R.TIME_STATUS_QUALITY < 2) :
    does .grantSwap h (fun t => t.get R.SCH_STATUS_ACTIVE_BANK = 1 - h.get R.SCH_STATUS_ACTIVE_BANK
      ∧ t.get R.SCH_PCAP_ACTIVE = h.get R.SCH_PCAP_STAGED ∧ t.on R.SCH_STATUS_ARMED = false ∧ t.get R.SCH_STATUS_RESULT = 8
      ∧ t = { h with regs := t.regs, out := t.out, links := t.links, err := t.err, sch := t.sch, tun := t.tun }) := by
  have swaps : h.grantSwap = h.swapNow := (Hub.grantSwap_due armed target).trans (if_pos (by simp [valid, locked]))
  obtain ⟨settle, old, settles⟩ := h.swapNow_eq
  have filled := h.alike_eachSched Hub.alike_refill
  have rest := settles ▸ Hub.alike_settles (h.eachSched Hub.refill).exchanged settle old
  refine does_of_eq (f := Hub.grantSwap) awake swaps (fun _ => rfl) ⟨?_, ?_, ?_, ?_, ?_⟩
  · rw [rest.get _ (by decide), Hub.exchanged_bank, filled.get _ (by decide)]
  · rw [rest.get _ (by decide), Hub.exchanged_pcap, filled.get _ (by decide)]
  · rw [rest.on (by decide), Hub.exchanged_on]
  · rw [rest.get _ (by decide), Hub.exchanged_result]
  · simpa [swapParts] using Hub.of_blot h.alike_swapNow.blot

/-! ### A missed swap (R185) -/

/-- The hub with its arming ended as a missed swap ends it. -/
def Hub.missMarked (h : Hub) : Hub :=
  ((((h.put R.SCH_STATUS_ARMED 0).put R.SCH_STATUS_MISSED 1).put R.SCH_STATUS_RESULT 10).put R.SCH_STATUS_OVER_SCHED 0).wr
    A.SCH_MISSED_EPOCH (W (h.get R.SCH_ARM_EPOCH))

/-- What a missed swap leaves before it is logged. -/
def Hub.missTold (h : Hub) : Hub := h.missMarked.latchAll evEpoch

/-- The fields that a missed swap marks. -/
def missFields : List RF :=
  [R.SCH_STATUS_ARMED, R.SCH_STATUS_MISSED, R.SCH_STATUS_RESULT, R.SCH_STATUS_OVER_SCHED, word A.SCH_MISSED_EPOCH]

theorem Hub.alike_missTold (h : Hub) : h.Alike missFields [.regs, .tun] h.missTold := by
  have fields : h.Alike missFields [.regs, .tun]
      ((((h.put R.SCH_STATUS_ARMED 0).put R.SCH_STATUS_MISSED 1).put R.SCH_STATUS_RESULT 10).put R.SCH_STATUS_OVER_SCHED 0) :=
    ((((Hub.alike_put _ _ _ rfl).mono (by simp [missFields])).next (Hub.alike_put _ _ _ rfl) (by simp [missFields])).next
      (Hub.alike_put _ _ _ rfl) (by simp [missFields])).next (Hub.alike_put _ _ _ rfl) (by simp [missFields])
  exact (fields.next (Hub.alike_wr ..) (by simp [missFields])).next (Hub.alike_latchAll ..)

theorem Hub.missTold_get (h : Hub) (f : RF) : h.missTold.get f = h.missMarked.get f := Hub.latchAll_get ..

/-- While nothing is handled a missed swap is logged as it stands. -/
theorem Hub.swapMissed_idle (idle : h.err.handling = []) :
    h.swapMissed = h.missTold.entry (h.missTold.mkRec 12 1 sevCT (h.get R.SCH_ARM_EPOCH) 0 0) none true := by
  have quiet : h.missTold.expireHandling = h.missTold := Hub.expireHandling_idle ((h.alike_missTold.err (by simp)).symm ▸ idle)
  have logs : h.swapMissed
      = h.missTold.expireHandling.entry (h.missTold.expireHandling.mkRec 12 1 sevCT (h.get R.SCH_ARM_EPOCH) 0 0) none true := rfl
  rw [logs, quiet]

/-- A word that a missed swap does not mark. -/
theorem Hub.missTold_rd (h : Hub) {a : Nat} (status : a ≠ A.SCH_STATUS) (missed : a ≠ A.SCH_MISSED_EPOCH) :
    h.missTold.rd a = h.rd a := by
  rw [Hub.missTold, Hub.latchAll_rd, Hub.missMarked, Hub.rd_wr_of_ne _ _ missed]
  rw [Hub.rd_put_of_ne, Hub.rd_put_of_ne, Hub.rd_put_of_ne, Hub.rd_put_of_ne] <;> exact status

theorem Hub.missTold_nextSlot (h : Hub) : h.missTold.nextSlot = h.nextSlot :=
  Hub.nextSlot_congr
    (fun a slot => Hub.missTold_rd h (by rintro rfl; exact absurd slot (by decide)) (by rintro rfl; exact absurd slot (by decide)))
    (congrArg ErrState.log (h.alike_missTold.err (by simp)))

theorem Hub.missTold_mkRec (h : Hub) (src code sev d0 d1 d2 : Nat) :
    h.missTold.mkRec src code sev d0 d1 d2 = h.mkRec src code sev d0 d1 d2 :=
  have seq : h.missTold.get R.ERR_SEQ_NEWEST = h.get R.ERR_SEQ_NEWEST := by
    rw [Hub.get, h.missTold_rd (by decide) (by decide), Hub.get]
  Hub.mkRec_congr (congrArg ErrState.handling (h.alike_missTold.err (by simp))) (h.alike_missTold.stime (by simp)) seq
    (h.alike_missTold.get _ (by decide)) (h.alike_missTold.get _ (by decide)) (h.alike_missTold.get _ (by decide)) ..

theorem Hub.missMarked_missed (h : Hub) : h.missMarked.on R.SCH_STATUS_MISSED = true := by
  rw [Hub.on, Hub.missMarked, Hub.get_wr_of_ne _ _ _ _ (by decide)]
  simp (disch := decide) only [Hub.get_put_self, Hub.get_put_of_apart]
  rfl

theorem Hub.missMarked_result (h : Hub) : h.missMarked.get R.SCH_STATUS_RESULT = 10 := by
  rw [Hub.missMarked, Hub.get_wr_of_ne _ _ _ _ (by decide)]
  simp (disch := decide) only [Hub.get_put_self, Hub.get_put_of_apart]
  rfl

theorem Hub.missMarked_on (h : Hub) : h.missMarked.on R.SCH_STATUS_ARMED = false := by
  rw [Hub.on, Hub.missMarked, Hub.get_wr_of_ne _ _ _ _ (by decide)]
  simp (disch := decide) only [Hub.get_put_self, Hub.get_put_of_apart]
  rfl

theorem Hub.missMarked_epoch (h : Hub) : h.missMarked.get R.SCH_MISSED_EPOCH = h.get R.SCH_ARM_EPOCH := by
  have target : (W (h.get R.SCH_ARM_EPOCH)).toNat = h.get R.SCH_ARM_EPOCH := toNat_W (h.get_lt R.SCH_ARM_EPOCH)
  rw [show R.SCH_MISSED_EPOCH = word A.SCH_MISSED_EPOCH from rfl, Hub.get_word, Hub.missMarked, Hub.rd_wr_self, target]

theorem does_grantSwap_misses (awake : h.awake = true) (armed : h.on R.SCH_STATUS_ARMED = true)
    (target : h.get R.SCH_ARM_EPOCH = h.epoch) (untimed : h.on R.TIME_STATUS_VALID = false ∨ h.get R.TIME_STATUS_QUALITY = 2)
    (idle : h.err.handling = []) (up : h.pw.steep = false) :
    does .grantSwap h (fun t => t.get R.SCH_STATUS_ACTIVE_BANK = h.get R.SCH_STATUS_ACTIVE_BANK
      ∧ t.get R.SCH_PCAP_ACTIVE = h.get R.SCH_PCAP_ACTIVE ∧ t.on R.SCH_STATUS_MISSED = true ∧ t.get R.SCH_STATUS_RESULT = 10
      ∧ t.get R.SCH_MISSED_EPOCH = h.get R.SCH_ARM_EPOCH ∧ t.on R.SCH_STATUS_ARMED = false
      ∧ KMap.get? t.err.log h.nextSlot = some (h.mkRec 12 1 sevCT (h.get R.SCH_ARM_EPOCH) 0 0)
      ∧ t = { h with regs := t.regs, out := t.out, links := t.links, err := t.err, sch := t.sch, tun := t.tun }) := by
  have misses : h.grantSwap = h.swapMissed :=
    (Hub.grantSwap_due armed target).trans (if_neg (by obtain invalid | held := untimed <;> simp [*]))
  have calm : h.missTold.pw.steep = false := (h.alike_missTold.pw (by simp)).symm ▸ up
  have logged := Hub.logOnly_entry calm (h.missTold.mkRec 12 1 sevCT (h.get R.SCH_ARM_EPOCH) 0 0) none true
  have kept {f : RF} (off : f.offLog = true) : h.swapMissed.get f = h.missTold.get f := by
    rw [Hub.swapMissed_idle idle, logged.get _ (by simp [RF.off, off])]
  refine does_of_eq (f := Hub.grantSwap) awake misses (fun _ => rfl) ⟨?_, ?_, ?_, ?_, ?_, ?_, ?_, ?_⟩
  · rw [kept rfl, h.alike_missTold.get _ (by decide)]
  · rw [kept rfl, h.alike_missTold.get _ (by decide)]
  · rw [Hub.on, kept rfl, h.missTold_get]
    exact h.missMarked_missed
  · rw [kept rfl, h.missTold_get, h.missMarked_result]
  · rw [kept rfl, h.missTold_get, h.missMarked_epoch]
  · rw [Hub.on, kept rfl, h.missTold_get]
    exact h.missMarked_on
  · rw [Hub.swapMissed_idle idle, ← h.missTold_nextSlot, Hub.entry_log calm, h.missTold_mkRec]
  · simpa [swapParts] using Hub.of_blot (Hub.alike_swapMissed up).blot

/-! ### The end of the settle interval (R184) -/

theorem Hub.setSched_settle (h : Hub) (i : Nat) (x : Sched) : (h.setSched i x).sch.settle = h.sch.settle := by
  unfold Hub.setSched
  simp only []
  split <;> rfl

theorem does_settleEnd (awake : h.awake = true) (settling : h.on R.SCH_STATUS_SETTLING = true) :
    does .settleEnd h (fun t => t.on R.SCH_STATUS_SETTLING = false ∧ t.sch.settle = []
      ∧ t = { h with regs := t.regs, sch := t.sch }) := by
  obtain ⟨u, eu⟩ : ∃ u, u = h.eachSched Hub.refill := ⟨_, rfl⟩
  obtain ⟨v, ev⟩ : ∃ v : Hub, v = { u with sch := { u.sch with settle := [] } }.put R.SCH_STATUS_SETTLING 0 := ⟨_, rfl⟩
  have ends : h.settleEnd = v.eachSched Hub.syncBuckets := by
    rw [ev, eu]
    exact if_pos settling
  have synced := v.alike_eachSched Hub.alike_syncBuckets
  refine does_of_eq (f := Hub.settleEnd) awake ends (fun _ => rfl) ⟨?_, ?_, ?_⟩
  · rw [synced.on (by decide), ev, Hub.on, Hub.get_put_self _ _ _ rfl]
    rfl
  · have kept := foldl_keeps (·.sch.settle) Hub.syncBuckets [0, 1, 2, 3] v fun x i => x.setSched_settle i _
    exact kept.trans (by rw [ev, Hub.put_sch])
  · have filled := h.alike_eachSched Hub.alike_refill
    rw [← eu] at filled
    have cleared := (((filled.next (Hub.alike_sch u { u.sch with settle := [] })).mono (gs := [R.SCH_STATUS_SETTLING])
      (T := [.regs, .sch])).next (Hub.alike_put _ R.SCH_STATUS_SETTLING 0 rfl)).next (ev ▸ synced)
    simpa [← ev] using Hub.of_blot cleared.blot

/-! ### Monitors (R188) -/

theorem Hub.qmonSample_samples (h : Hub) : h.qmonSample.sch.samples = h.sch.samples + 1 := by
  unfold Hub.qmonSample
  exact foldl_keeps (fun x : Hub => x.sch.samples) _ _ _ fun _ _ => rfl

theorem Hub.alike_qmonSample (h : Hub) : h.Alike [] [.sch] h.qmonSample := by
  unfold Hub.qmonSample
  exact (Hub.alike_sch h { h.sch with samples := h.sch.samples + 1 }).trans
    (Hub.alike_foldl _ (fun x _ _ => Hub.alike_sch x _) _)

theorem does_qmonSample (awake : h.awake = true) :
    does .qmonSample h (fun t => t.sch.samples = h.sch.samples + 1 ∧ t = { h with sch := t.sch }) :=
  does_of_upd (f := Hub.qmonSample) awake (fun _ => rfl) ⟨h.qmonSample_samples, Hub.of_blot_sch h.alike_qmonSample.blot⟩

/-- The monitor of the selected queue after a read of MAX, or of MEAN. -/
def Hub.monRead (h : Hub) (mean : Bool) (m : Mon) : Mon :=
  if mean then { m with sum := 0, base := h.sch.samples } else { m with again := true }

/-- A read changes the monitor it reads. -/
theorem Hub.qmonRead_qmon {k : Nat} (selected : h.qmonKey = some k) (depth mean : Bool) :
    (h.qmonRead depth mean).qmon depth = h.monRead mean (h.qmon depth) := by
  have key (x : SchState) : ({ h with sch := x } : Hub).qmonKey = some k := selected
  cases depth <;> simp [Hub.qmonRead, selected, Hub.qmon, key, Hub.monRead]

theorem Hub.qmonRead_sch (h : Hub) (depth mean : Bool) :
    h.qmonRead depth mean = { h with sch := (h.qmonRead depth mean).sch } :=
  Hub.of_blot_sch (Hub.qmonRead_blot h depth mean (by simp))

theorem does_qmonMaxRead {depth : Bool} {k : Nat} (awake : h.awake = true) (selected : h.qmonKey = some k) :
    does (.qmonMaxMeanRead depth false) h (fun t => (t.qmon depth).again = true ∧ t = { h with sch := t.sch }) :=
  does_of_upd (f := fun h => h.qmonRead depth false) awake (fun _ => rfl)
    ⟨congrArg Mon.again (Hub.qmonRead_qmon selected depth false), h.qmonRead_sch ..⟩

theorem does_qmonMeanRead {depth : Bool} {k : Nat} (awake : h.awake = true) (selected : h.qmonKey = some k) :
    does (.qmonMaxMeanRead depth true) h (fun t => (t.qmon depth).sum = 0 ∧ (t.qmon depth).base = h.sch.samples
      ∧ t = { h with sch := t.sch }) :=
  have read := Hub.qmonRead_qmon selected depth true
  does_of_upd (f := fun h => h.qmonRead depth true) awake (fun _ => rfl)
    ⟨congrArg Mon.sum read, congrArg Mon.base read, h.qmonRead_sch ..⟩

end

end Sys2Proof.Machine
end

section
open Sys2Proof Sys2Proof.Machine

/-- Settles O4: a DISARM of an armed hub puts three fields of SCH_STATUS and nothing else; of any other it changes nothing. -/
theorem disarmEndsArming : Obligations.DisarmEndsArming := fun h awake =>
  ⟨fun armed => does_of_eq (f := Hub.schDisarm) awake (Hub.schDisarm_armed armed) (fun _ => rfl)
    ⟨h.disarmed_on, h.disarmed_result, h.disarmed_bank, h.disarmed_onlyRegs⟩, becomes_schDisarm_idle awake⟩

/-- Settles O18: each clause is the lemma about its command; they rest on the first choice of a boundary, the checks of an arm in
their order, and what a swap, made or missed, leaves. -/
theorem schedulerCommands : Obligations.SchedulerCommands := by
  intro h awake
  exact ⟨fun p bad => becomes_schedulerSelect_down awake, fun p bad k step c d ds => becomes_schedulerSelect_link awake,
    fun bad k step c d ds => becomes_schedulerSelect_local awake, fun s => becomes_epochStart_over awake,
    becomes_epochStart_wide awake, fun armed => becomes_schArm_refused awake (Hub.armResult_armed armed) (by decide),
    fun idle untimed => becomes_schArm_refused awake (Hub.armResult_untimed idle untimed) (by decide),
    fun idle valid locked past => becomes_schArm_refused awake (Hub.armResult_past idle valid locked past) (by decide),
    fun idle valid locked next soon =>
      becomes_schArm_refused awake (Hub.armResult_soon idle valid locked next soon) (by decide),
    fun d s target idle valid locked ahead near early dup =>
      becomes_schArm_refused awake (Hub.armResult_dup target idle valid locked ahead near early dup) (by decide),
    fun d s target idle valid locked ahead near early single exceeded first => becomes_schArm_refused awake
      (Hub.armResult_exceeded target idle valid locked ahead near early single exceeded first) (by decide),
    fun s => does_schArm awake, does_schDisarm awake, does_grantSwap_swaps awake, does_grantSwap_misses awake,
    becomes_grantSwap_waits awake, does_settleEnd awake, does_qmonSample awake, fun depth k => does_qmonMaxRead awake,
    fun depth k => does_qmonMeanRead awake⟩

end

section
/-! SUPPORT. The hub that refutes `Obligations.ErrorCommands` (O47): the EVENT of a FATAL entry waits behind an older one. -/

open Sys2Proof Sys2Proof.Machine

namespace Sys2Proof.Machine

theorem exec_eventRetry (s : State) : exec .eventRetry s = s.upd (fun h =>
    if h.fatalEvent.isSome then h.eventRetry.offerCpls h.eventRetry.brg.cplq
    else (h.offerCpls h.brg.cplq).eventRetry) := rfl

/-- Where the EVENT of a FATAL entry waits, EVENT_RETRY offers it before every other (R459). -/
theorem becomes_eventRetry_fatal {h : Hub} {e : Ev} (awake : h.awake = true) (waits : h.fatalEvent = some e)
    (idle : (h.offerEvent e).brg.cplq = []) : becomes .eventRetry h (h.offerEvent e) := by
  have offers : h.eventRetry = h.offerEvent e := by simp only [Hub.eventRetry, waits]
  refine becomes_of_eq awake ?_ exec_eventRetry
  simp only [waits, Option.isSome_some, if_true, offers, idle, Hub.offerCpls]

/-- The EVENT of a CONTAINED entry with SEQ 1. -/
def containedEvent : Ev := ⟨⟨2, false, false, 1, false, 2, 3, 0, 0, 0, 1, 0, 0, 0, 1⟩, 0, false⟩

/-- The EVENT of a FATAL entry with SEQ 2. -/
def fatalEvent : Ev := ⟨⟨3, false, false, 1, false, 2, 3, 0, 0, 0, 2, 0, 0, 0, 1⟩, 0, false⟩

/-- Hub 1, enumerated from port E, which is UP. -/
def enumerated : Hub :=
  hubWith [(R.DEV_STATUS_ADDR, 1), (R.DEV_STATUS_ENUM_PORT, 1), (R.LNK_STATUS_UP 0, 1), (R.LNK_STATUS_STATE 0, stActive)]

/-- The same hub with both EVENTs waiting, that of the FATAL entry behind the older one. -/
def twoEvents : Hub := { enumerated with err := { enumerated.err with evtq := [containedEvent, fatalEvent] } }

theorem twoEvents_contained : (twoEvents.offerEvent containedEvent).err.evtq = [fatalEvent] := by decide

theorem twoEvents_fatal : (twoEvents.offerEvent fatalEvent).err.evtq = [containedEvent] := by decide

end Sys2Proof.Machine

/-- Refutes O47 at its clause on the oldest waiting EVENT: the EVENT of a FATAL entry goes ahead of every other packet of tunnel 0
(R459), so an older EVENT of a lower severity is not the one that EVENT_RETRY offers. -/
theorem not_errorCommands : ¬ Obligations.ErrorCommands := by
  intro all
  obtain ⟨-, -, -, -, oldest, -⟩ := all twoEvents rfl
  have fatal := becomes_eventRetry_fatal (h := twoEvents) rfl (e := fatalEvent) rfl (by decide)
  have same := becomes_unique (oldest containedEvent rfl rfl) fatal
  have queue := congrArg (fun t => t.err.evtq) same
  rw [twoEvents_contained, twoEvents_fatal] at queue
  exact absurd queue (by decide)

end

section
/-! SUPPORT. The hub that refutes `Obligations.ContextCommands` (O20): a context that traps while it holds a packet. -/

open Sys2Proof Sys2Proof.Machine

namespace Sys2Proof.Machine

/-- A packet of 16 bytes in cell 0, held by one descriptor of context 0. -/
def heldStored : Stored := ⟨⟨130, .P, 3, 0, 0, 0, false, false, false, 0, 0, 0, []⟩, [0], .pool, 1, none, some 0, [], .P⟩

/-- A hub whose context 0 holds that packet in register d0. -/
def holdingPacket : Hub := Hub.reset.holdMore 0 0 0 heldStored

theorem holdingPacket_awake : holdingPacket.awake = true := rfl

theorem holdingPacket_cell : holdingPacket.mrd (cellAddr 0) = 0#8 := rfl

/-- The trap releases the packet, whose bytes stay in its cell (R146, R215). -/
theorem holdingPacket_trapped : (holdingPacket.trap 0 0xA 5 0).mrd (cellAddr 0) = 130#8 := by decide +kernel

end Sys2Proof.Machine

/-- Refutes O20 at its last clause, which has every trap leave memory as it was: a trap releases the packets that its context
holds (R215), and the bytes of a packet whose last descriptor is released stay in its cells (R146), which are memory. -/
theorem not_contextCommands : ¬ Obligations.ContextCommands := by
  intro all
  obtain ⟨-, -, -, -, -, -, -, -, -, -, -, -, -, -, -, -, -, -, -, -, -, -, -, -, -, -, -, traps⟩ :=
    all holdingPacket holdingPacket_awake
  obtain ⟨-, -, -, -, -, memory⟩ := traps 0
  have cell := congrArg (fun m => SMap.get memReset m (cellAddr 0)) memory
  exact absurd (holdingPacket_trapped.symm.trans (cell.trans holdingPacket_cell)) (by decide)
end

section
/-! SUPPORT. The hub that refutes `Obligations.PitchCommands` (O21): an operation on program keys that PITCH_COMPLETE starts. -/

open Sys2Proof Sys2Proof.Machine

namespace Sys2Proof.Machine

/-- A hub with no pitch in progress and a PKEY_SET that has not read its block at 0x0030_0000, as one is whose read was held while
the access table's EN was 0 (R397, R446). -/
def keyWaiting : Hub :=
  { hubWith [(R.SEC_OP_STATUS_BUSY, 1), (R.ACC_CTRL_EN, 1), (R.ACC_REG_PERM_VALID 0, 1), (R.ACC_REG_PERM_PERM 0, 0x3FFFF),
      (word (A.ACC_REG_BASE 0), 0x300000 + 19)] with sec := { Hub.reset.sec with op := some ⟨5, 0x300000, none, []⟩ } }

theorem keyWaiting_awake : keyWaiting.awake = true := rfl

/-- PITCH_COMPLETE does nothing to a pitch, and reads the block. -/
theorem becomes_pitchComplete_keyWaiting : becomes .pitchComplete keyWaiting keyWaiting.keysGo :=
  becomes_of_upd (f := fun h => h.pitchComplete.keysGo) keyWaiting_awake fun _ => rfl

theorem keyWaiting_reads : (keyWaiting.keysGo.sec.op.bind (·.block)).isSome = true := by decide

end Sys2Proof.Machine

/-- Refutes O21 at its last clause, which has PITCH_COMPLETE do nothing while no pitch is in progress: the command also starts an
operation on program keys that waits and need wait no longer (R446). -/
theorem not_pitchCommands : ¬ Obligations.PitchCommands := by
  intro all
  obtain ⟨-, -, -, -, -, -, -, -, -, -, -, -, -, -, -, -, noPitch⟩ := all keyWaiting 0 false keyWaiting_awake
  have same := becomes_unique (noPitch rfl) becomes_pitchComplete_keyWaiting
  have unread : (keyWaiting.sec.op.bind (·.block)).isSome = false := rfl
  rw [same, keyWaiting_reads] at unread
  exact absurd unread (by decide)
end

section
/-! SUPPORT. The issue of an instruction (R191, R228), once for all: what each way out of it leaves of the hub, and the commands
that issue it. -/

open Sys2Proof Sys2Proof.Machine

namespace Sys2Proof.Machine

/-! ### A context written twice -/

theorem KMap.del_del {α : Type} (m : KMap α) (k : Nat) : KMap.del (KMap.del m k) k = KMap.del m k := by
  simp [KMap.del]

theorem KMap.del_ins {α : Type} (m : KMap α) (k : Nat) (v : α) : KMap.del (KMap.ins m k v) k = KMap.del m k := by
  induction m with
  | nil => simp [KMap.ins, KMap.del]
  | cons e t ih =>
    rw [KMap.ins]
    split
    · simp [KMap.del]
    · simp only [KMap.del, List.filter_cons] at ih ⊢
      rw [ih]

/-- Of two writes at one key the second stands. -/
theorem SMap.set_set {α : Type} [DecidableEq α] (d : Nat → α) (m : SMap α) (k : Nat) (v w : α) :
    SMap.set d (SMap.set d m k v) k w = SMap.set d m k w := by
  have gone : KMap.del (SMap.set d m k v) k = KMap.del m k := by
    unfold SMap.set
    split
    · exact KMap.del_del m k
    · rw [KMap.put, KMap.del_ins, KMap.del_del]
  simp only [SMap.set, KMap.put] at gone ⊢
  rw [gone]

theorem Hub.setCtx_setCtx (h : Hub) (n : Nat) (x y : Ctx) : (h.setCtx n x).setCtx n y = h.setCtx n y :=
  congrArg (fun l => { h with tun := { h.tun with ctxs := l } }) (SMap.set_set _ h.tun.ctxs n x y)

/-- A context that is replaced at its PC and then retires. -/
theorem Hub.finish_setCtx {h : Hub} {n : Nat} {x : Ctx} (pc : x.pc = (h.ctx n).pc) :
    (h.setCtx n x).finish n = h.retired n x := by
  rw [Hub.finish, Hub.retired, Hub.retired, Hub.issued, Hub.ctx_setCtx_self, pc]
  exact Hub.setCtx_setCtx (h.issued n) n x _

/-! ### The place of a context -/

/-- A context stands in one hub as in another: the same state, code window and PC. -/
structure Hub.SamePlace (n : Nat) (h g : Hub) : Prop where
  state : g.ctxState n = h.ctxState n
  window : g.codeWin n = h.codeWin n
  pc : (g.ctx n).pc = (h.ctx n).pc

section
variable {h g k : Hub} {n : Nat}

theorem Hub.SamePlace.refl (n : Nat) (h : Hub) : Hub.SamePlace n h h := ⟨rfl, rfl, rfl⟩

theorem Hub.SamePlace.trans (a : Hub.SamePlace n h g) (b : Hub.SamePlace n g k) : Hub.SamePlace n h k :=
  ⟨b.state.trans a.state, b.window.trans a.window, b.pc.trans a.pc⟩

theorem Hub.SamePlace.inCode (a : Hub.SamePlace n h g) (i : Nat) : g.inCode n i = h.inCode n i := by
  rw [Hub.inCode, a.window, Hub.inCode]

/-- Hubs that read the same fields of a context and hold it at the same PC. -/
theorem Hub.samePlace_of_fields (fields : ∀ f : RF, f.addr = A.TUNC_CTX_STATUS n ∨ f.addr = A.TUNC_CTX_CODE n → g.get f = h.get f)
    (pc : (g.ctx n).pc = (h.ctx n).pc) : Hub.SamePlace n h g :=
  ⟨fields _ (.inl rfl), congrArg₂ Prod.mk (fields _ (.inr rfl)) (fields _ (.inr rfl)), pc⟩

theorem Hub.samePlace_setCtx {x : Ctx} (pc : x.pc = (h.ctx n).pc) : Hub.SamePlace n h (h.setCtx n x) :=
  Hub.samePlace_of_fields (fun _ _ => rfl) (by rw [Hub.ctx_setCtx_self, pc])

theorem Hub.samePlace_setGpr (h : Hub) (n r : Nat) (v : Word) : Hub.SamePlace n h (h.setGpr n r v) :=
  Hub.samePlace_setCtx (by simp)

/-- A field of a context's place lies outside the log's slot. -/
theorem place_offLog {f : RF} (own : f.addr = A.TUNC_CTX_STATUS n ∨ f.addr = A.TUNC_CTX_CODE n) : f.offLog = true := by
  simp only [RF.offLog, bne_iff_ne, A.TUNC_CTX_STATUS, A.TUNC_CTX_CODE] at own ⊢
  omega

/-- Hubs that agree but for fields of other slots than the tuns' and for other parts than theirs. -/
theorem Hub.Alike.samePlace {fs : List RF} {S : List Part} (a : h.Alike fs S g) (fields : ∀ f ∈ fs, f.addr < 0x34000 := by simp)
    (tun : Part.tun ∉ S := by simp) : Hub.SamePlace n h g := by
  refine Hub.samePlace_of_fields (fun f own => a.get f ?_) (by rw [Hub.ctx, a.tun tun, Hub.ctx])
  simp only [RF.off, place_offLog own, Bool.true_and, List.all_eq_true, RF.apart, Bool.or_eq_true, bne_iff_ne]
  intro x mem
  have low := fields x mem
  simp only [A.TUNC_CTX_STATUS, A.TUNC_CTX_CODE] at own
  exact .inl (.inl (by omega))

/-! ### The count of issues -/

theorem Hub.issued_rd {a : Nat} (count : a ≠ A.TUNC_CTX_ISSUED n) (place : a ≠ A.TUNC_CTX_PC n) : (h.issued n).rd a = h.rd a :=
  (Hub.rd_wr_of_ne _ _ place).trans (Hub.rd_wr_of_ne _ _ count)

@[simp] theorem Hub.issued_ctx (m : Nat) : (h.issued n).ctx m = h.ctx m := rfl

theorem Hub.samePlace_issued (h : Hub) (n : Nat) : Hub.SamePlace n h (h.issued n) := by
  refine Hub.samePlace_of_fields (fun f own => ?_) rfl
  simp only [A.TUNC_CTX_STATUS, A.TUNC_CTX_CODE] at own
  rw [Hub.get, Hub.issued_rd (by simp only [A.TUNC_CTX_ISSUED]; omega) (by simp only [A.TUNC_CTX_PC]; omega), Hub.get]

/-! ### The ways out of an instruction -/

section
variable {F : Hub → Hub × Exit}

/-- An instruction that takes place is counted, its place recorded, and left by its exit. -/
theorem Hub.issue_counted (can : h.canIssue n = true) {e : Exit} (effect : F h = (g, e)) (goes : e ≠ .stall) :
    h.issue n F = (((g.wr (A.TUNC_CTX_ISSUED n) (g.rd (A.TUNC_CTX_ISSUED n) + 1)).wr (A.TUNC_CTX_PC n)
      (W (h.ctx n).pc)).onSpare n).leave n e := by
  obtain ⟨-, run, ok, clean⟩ := Hub.canIssue_parts can
  have count : W ((g.rd (A.TUNC_CTX_ISSUED n)).toNat + 1) = g.rd (A.TUNC_CTX_ISSUED n) + 1 := by
    rw [W, BitVec.ofNat_add, BitVec.ofNat_toNat, BitVec.setWidth_eq]; rfl
  rw [Hub.issue_of_fetch run ok, clean, effect, ← count]
  cases e
  case stall => exact absurd rfl goes
  all_goals rfl

theorem Hub.issue_of_can (can : h.canIssue n = true) {e : Exit} (effect : F h = (g, e)) (goes : e ≠ .stall)
    (pc : (g.ctx n).pc = (h.ctx n).pc) : h.issue n F = (g.issued n).leave n e := by
  rw [Hub.issue_counted can effect goes, Hub.issued, pc]

/-- A stalled instruction has only the effect it gives itself. -/
theorem Hub.issue_stall (can : h.canIssue n = true) (effect : F h = (g, .stall)) : h.issue n F = g := by
  obtain ⟨-, run, ok, clean⟩ := Hub.canIssue_parts can
  rw [Hub.issue_of_fetch run ok, clean, effect]

theorem Hub.issue_trap (can : h.canIssue n = true) {cause addr : Nat} (effect : F h = (g, .trap cause addr))
    (pc : (g.ctx n).pc = (h.ctx n).pc) : h.issue n F = (g.issued n).trap n cause (h.ctx n).pc addr := by
  rw [Hub.issue_of_can can effect (by simp) pc, Hub.leave, Hub.issued_ctx, pc]

/-- A running context goes on to the next index, which lies in its window. -/
theorem Hub.leave_next (run : g.ctxState n = cxRunning) (inside : g.inCode n ((g.ctx n).pc + 1) = true) :
    (g.issued n).leave n .next = g.finish n := by
  have same := Hub.samePlace_issued g n
  rw [Hub.leave, if_pos (same.state.trans run), Hub.goTo, Hub.issued_ctx, same.inCode, if_pos inside]
  rfl

/-- An instruction that retires. -/
theorem Hub.issue_next (can : h.canIssue n = true) (inside : h.inCode n ((h.ctx n).pc + 1) = true) (effect : F h = (g, .next))
    (same : Hub.SamePlace n h g) : h.issue n F = g.finish n := by
  obtain ⟨-, run, -⟩ := Hub.canIssue_parts can
  rw [Hub.issue_of_can can effect (by simp) same.pc,
    Hub.leave_next (same.state.trans run) (by rw [same.inCode, same.pc, inside])]

end

/-- A context that retires as it stands. -/
theorem Hub.finish_eq_retired (ctx : g.ctx n = h.ctx n) : g.finish n = g.retired n (h.ctx n) := by rw [Hub.finish, ctx]

/-- A register written as its context retires. -/
theorem Hub.finish_setGpr (h : Hub) (n r : Nat) (v : Word) : (h.setGpr n r v).finish n = h.retired n ((h.ctx n).setGpr r v) :=
  Hub.finish_setCtx (by simp)

end

/-! ### Commands that issue an instruction -/

section
variable {h t : Hub} {n : Fin 96} {c : Instr} {f : Hub → Hub}

/-- A command acts where the word at the PC spells its instruction. -/
theorem runs_of_eq (can : h.canIssue n = true) (row : ∀ s, exec c s = s.fetching n (some (Machine.Instr.spelling c)) f) (e : f h = t) :
    runs n c h t := by
  intro spells
  refine becomes_of_eq (Hub.canIssue_parts can).1 (e := ?_) row
  rw [Hub.fetching_of_spells can (by simpa [Hub.spells] using spells), e]

theorem runsTo_of_eq {P : Hub → Prop} (can : h.canIssue n = true) (row : ∀ s, exec c s = s.fetching n (some (Machine.Instr.spelling c)) f)
    (e : f h = t) (holds : P t) : runsTo n c h P := fun spells => ⟨t, holds, runs_of_eq can row e spells⟩

/-- A word that spells no instruction is illegal, whatever command issues it (R226). -/
theorem becomes_illegal {w : Word} (can : h.canIssue n = true) (word : h.fetched n = some w) (none_ : spelled n w = none)
    {i : Option Instr} (row : ∀ s, exec c s = s.fetching n i f) : becomes c h ((h.issued n).trap n 1 (h.ctx n).pc 0) := by
  rw [Hub.fetched_of_canIssue can, Option.some.injEq] at word
  refine becomes_of_eq (Hub.canIssue_parts can).1 (e := ?_) row
  rw [Hub.fetching_of_illegal can (word ▸ none_), Hub.issue_trap can rfl rfl]

end

end Sys2Proof.Machine
end

section
/-! SUPPORT. WAIT, station time, short stamps and the context timer (O33). -/

open Sys2Proof Sys2Proof.Machine

namespace Sys2Proof.Machine

/-! ### A context's registers -/

@[simp] theorem Ctx.setGpr_events (x : Ctx) (r : Nat) (v : Word) : (x.setGpr r v).events = x.events := by
  unfold Ctx.setGpr; split <;> rfl

@[simp] theorem Ctx.setGpr_wdogAt (x : Ctx) (r : Nat) (v : Word) : (x.setGpr r v).wdogAt = x.wdogAt := by
  unfold Ctx.setGpr; split <;> rfl

@[simp] theorem Ctx.setGpr_sample (x : Ctx) (r : Nat) (v : Word) : (x.setGpr r v).sample = x.sample := by
  unfold Ctx.setGpr; split <;> rfl

/-- What a register reads once it is written: g0 reads 0 (R223). -/
theorem Ctx.gpr_setGpr_self (x : Ctx) (r : Nat) (v : Word) : (x.setGpr r v).gpr r = if r = 0 then 0#32 else v := by
  by_cases zero : r = 0
  · rw [if_pos zero, Ctx.gpr, if_pos zero]
  · rw [if_neg zero, Ctx.gpr_setGpr, if_pos ⟨rfl, zero⟩]

section
variable {h g : Hub} {n : Fin 96} {gd ga : Fin 16}

/-- A retired instruction moves its context on and leaves all else of it. -/
theorem Hub.ctx_finish (g : Hub) (n : Nat) : (g.finish n).ctx n = { g.ctx n with pc := (g.ctx n).pc + 1 } :=
  Hub.ctx_setCtx_self ..

/-! ### WAIT (R200, R201, R267, R268) -/

theorem testBit_div_mul_8 (e : Nat) {k : Nat} (latched : 3 ≤ k) : (e / 8 * 8).testBit k = e.testBit k := by
  rw [show e / 8 * 8 = e / 2 ^ 3 * 2 ^ 3 from rfl, Nat.testBit_mul_two_pow, Nat.testBit_div_two_pow, Nat.sub_add_cancel latched]
  simp [latched]

theorem bit_eq_testBit (n i : Nat) : bit n i = n.testBit i := by
  rw [Nat.testBit_eq_decide_div_mod_eq, bit]
  rfl

/-- The latched events that WAIT keeps are the ones it does not return. -/
theorem bit_waitDone (h : Hub) (n gd ev : Nat) {k : Nat} (latched : 3 ≤ k) :
    bit ((h.waitDone n gd ev).ctx n).events k = (bit (h.ctx n).events k && !bit ev k) := by
  have keep := Nat.testBit_bitwise (f := fun a b => a && !b) rfl (h.ctx n).events (ev / 8 * 8) k
  rw [testBit_div_mul_8 ev latched] at keep
  rw [Hub.waitDone, Hub.ctx_setCtx_self, Ctx.setGpr_events]
  simpa only [bit_eq_testBit] using keep

theorem Hub.gpr_waitDone (h : Hub) (n gd ev : Nat) : (h.waitDone n gd ev).gpr n gd = if gd = 0 then 0#32 else W ev := by
  rw [Hub.gpr, Hub.waitDone, Hub.ctx_setCtx_self, Ctx.gpr_setGpr_self]

theorem Hub.samePlace_waitDone (h : Hub) (n gd ev : Nat) : Hub.SamePlace n h (h.waitDone n gd ev) :=
  Hub.samePlace_setCtx (by simp)

theorem Hub.iWait_of_event {mask ev : Nat} (can : h.canIssue n = true) (inside : h.inCode n ((h.ctx n).pc + 1) = true)
    (is : ev = Nat.land (h.eventBits n) mask) (some_ : ev ≠ 0) : h.iWait n gd mask = (h.waitDone n gd ev).finish n := by
  have masked : mask ≠ 0 := fun z => some_ (by rw [is, z]; exact Nat.and_zero _)
  rw [Hub.iWait, if_neg masked]
  exact Hub.issue_next can inside (by simp only [← is, if_neg some_]) (Hub.samePlace_waitDone h n gd ev)

/-- A WAIT whose mask names no event that stands leaves its context WAITING at its place. -/
theorem Hub.iWait_of_none {mask : Nat} (can : h.canIssue n = true) (masked : mask ≠ 0)
    (none_ : Nat.land (h.eventBits n) mask = 0) :
    h.iWait n gd mask
      = ((h.setCtx n { h.ctx n with mask := mask, waitGd := gd }).issued n).setCtxState n cxWaiting := by
  rw [Hub.iWait, if_neg masked,
    Hub.issue_of_can can (e := .wait) (if_pos none_) (by simp) (by rw [Hub.ctx_setCtx_self])]
  rfl

theorem Hub.ctxState_setCtx (h : Hub) (n m : Nat) (x : Ctx) : (h.setCtx n x).ctxState m = h.ctxState m := rfl

@[simp] theorem Hub.ctx_setCtxState (h : Hub) (n m st : Nat) : (h.setCtxState n st).ctx m = h.ctx m := rfl

theorem Hub.ctxState_setCtxState (h : Hub) (n : Nat) {st : Nat} (small : st < 8 := by decide) :
    (h.setCtxState n st).ctxState n = st := by
  rw [Hub.ctxState, Hub.setCtxState, Hub.get_put_self _ _ _ rfl]
  exact Nat.mod_eq_of_lt small

theorem Hub.inCode_setCtxState (h : Hub) (n st i : Nat) : (h.setCtxState n st).inCode n i = h.inCode n i := by
  have out : ∀ f : RF, f.addr = A.TUNC_CTX_CODE n → (h.setCtxState n st).get f = h.get f := fun f own =>
    Hub.get_wr_of_ne _ _ _ _ (by rw [own]; show 0x34118 + 64 * n ≠ 0x3410c + 64 * n; omega)
  rw [Hub.inCode, Hub.inCode, Hub.codeWin, Hub.codeWin, out _ rfl, out _ rfl]

/-- A waiting context that is woken: its WAIT is done and it runs on. -/
theorem Hub.contextWake_of_event {ev : Nat} (waiting : h.ctxState n = cxWaiting)
    (inside : h.inCode n ((h.ctx n).pc + 1) = true) (is : ev = Nat.land (h.eventBits n) (h.ctx n).mask) (some_ : ev ≠ 0) :
    h.contextWake n = ((h.waitDone n (h.ctx n).waitGd ev).setCtxState n cxRunning).setCtx n
      { (h.waitDone n (h.ctx n).waitGd ev).ctx n with pc := (h.ctx n).pc + 1 } := by
  have same := Hub.samePlace_waitDone h n (h.ctx n).waitGd ev
  rw [Hub.contextWake]
  simp only [← is]
  rw [if_neg (by simp [waiting, some_]), Hub.goTo, if_pos (by rw [Hub.inCode_setCtxState, same.inCode, inside])]
  rfl

theorem Hub.contextWake_of_none (none_ : Nat.land (h.eventBits n) (h.ctx n).mask = 0) : h.contextWake n = h :=
  if_pos (.inr none_)

/-! ### Words that spell nothing (R267, R269) -/

/-- The immediate field and the opcode of a word whose ga field is 0. -/
theorem slices_wordI {op imm : Nat} (gd : Fin 16) (opcode : op < 64) (small : imm < 2 ^ 18) :
    slice (wordI op gd 0 imm).toNat 26 6 = op ∧ slice (wordI op gd 0 imm).toNat 0 18 = imm := by
  have := gd.isLt
  rw [wordI, toNat_W (by simp; omega), slice, slice]
  simp only [Fin.val_zero]
  omega

theorem spelled_wait_0 (n : Fin 96) (gd : Fin 16) : spelled n (wordI 0x30 gd 0 0) = none := by
  obtain ⟨op, imm⟩ := slices_wordI (op := 0x30) (imm := 0) gd (by decide) (by decide)
  simp [spelled, op, spellEvent, imm, legalIf]

theorem spelled_tnow_of_gt (n : Fin 96) (gd : Fin 16) {part : BitVec 18} (large : 2 < part.toNat) :
    spelled n (wordI 0x31 gd 0 part.toNat) = none := by
  obtain ⟨op, imm⟩ := slices_wordI (op := 0x31) gd (by decide) part.isLt
  simp [spelled, op, spellEvent, imm, legalIf, large]

/-! ### Instructions that write one register -/

/-- An instruction that answers one word, whatever it did before to its own context. -/
theorem Hub.issue_done (can : h.canIssue n = true) (inside : h.inCode n ((h.ctx n).pc + 1) = true) {F : Hub → Hub × Exit}
    {v : Word} (effect : F h = g.done n gd v) (same : Hub.SamePlace n h g) : h.issue n F = (g.setGpr n gd v).finish n :=
  Hub.issue_next can inside effect (same.trans (Hub.samePlace_setGpr ..))

/-! ### Stamps and the timer (R133, R270, R271) -/

/-- The low word of a stamp some ticks ahead says how many. -/
theorem Hub.ahead_of_add {s k : Nat} (small : k < 2 ^ 32) (is : s = (h.now + k) % 2 ^ 32) : h.ahead s = k := by
  rw [Hub.ahead, subMod]
  omega

theorem Hub.samePlace_setTimer (h : Hub) (n : Nat) (t : Option Nat) : Hub.SamePlace n h (h.setTimer n t) :=
  Hub.samePlace_setCtx rfl

theorem Hub.samePlace_latchEvent (h : Hub) (b n : Nat) : Hub.SamePlace n h (h.latchEvent b n) := Hub.samePlace_setCtx rfl

theorem Hub.timerFire_of_some {k : Nat} (set_ : (h.ctx n).timer = some k) :
    h.timerFire n = (h.setTimer n none).latchEvent evTimer n := by
  rw [Hub.timerFire, set_]

/-! ### Frames -/

@[simp] theorem Hub.onSpare_blot {S : List Part} (h : Hub) (n : Nat) (tun : Part.tun ∈ S) :
    (h.onSpare n).blot S = h.blot S := by
  simp [Hub.blot, Hub.onSpare, tun]

@[simp] theorem Hub.issued_blot {S : List Part} (h : Hub) (n : Nat) (regs : Part.regs ∈ S) (tun : Part.tun ∈ S) :
    (h.issued n).blot S = h.blot S := by
  rw [Hub.issued, Hub.onSpare_blot _ _ tun, Hub.wr_blot _ _ _ regs, Hub.wr_blot _ _ _ regs]

@[simp] theorem Hub.finish_blot {S : List Part} (h : Hub) (n : Nat) (regs : Part.regs ∈ S) (tun : Part.tun ∈ S) :
    (h.finish n).blot S = h.blot S := by
  rw [Hub.finish, Hub.retired, Hub.setCtx_blot _ _ _ tun, Hub.issued_blot _ _ regs tun]

@[simp] theorem Hub.waitDone_blot {S : List Part} (h : Hub) (n gd ev : Nat) (tun : Part.tun ∈ S) :
    (h.waitDone n gd ev).blot S = h.blot S := Hub.setCtx_blot _ _ _ tun

/-- The frame of an instruction of event or time. -/
theorem Hub.of_blot_event {t : Hub} (same : t.blot [.regs, .links, .err, .tun] = h.blot [.regs, .links, .err, .tun]) :
    t = { h with regs := t.regs, links := t.links, err := t.err, tun := t.tun } := by simpa using Hub.of_blot same

end

/-! ### What the commands do (O33) -/

section
variable {h : Hub} {n : Fin 96} {gd : Fin 16} (inside : h.inCode n ((h.ctx n).pc + 1) = true)
include inside

theorem runsTo_wait_of_event {m : BitVec 9} {ev : Nat} (can : h.canIssue n = true)
    (is : ev = Nat.land (h.eventBits n) m.toNat) (some_ : ev ≠ 0) :
    runsTo n (.wait n gd m) h (fun t => t.gpr n gd = (if gd.val = 0 then 0#32 else W ev) ∧ (t.ctx n).wdogAt = h.root
      ∧ (∀ k : Fin 18, 3 ≤ k.val → bit (t.ctx n).events k = (bit (h.ctx n).events k && !bit ev k))
      ∧ (t.ctx n).pc = (h.ctx n).pc + 1 ∧ t = { h with regs := t.regs, links := t.links, err := t.err, tun := t.tun }) := by
  have place := Hub.samePlace_waitDone h n gd ev
  refine runsTo_of_eq can (fun _ => rfl) (Hub.iWait_of_event can inside is some_) ⟨?_, ?_, fun k latched => ?_, ?_, ?_⟩
  · rw [Hub.gpr, Hub.ctx_finish]
    exact Hub.gpr_waitDone h n gd ev
  · simp [Hub.ctx_finish, Hub.waitDone]
  · rw [Hub.ctx_finish]
    exact bit_waitDone h n gd ev latched
  · rw [Hub.ctx_finish, place.pc]
  · exact Hub.of_blot_event (by simp)

theorem does_contextWake_of_event {ev : Nat} (awake : h.awake = true) (waiting : h.ctxState n = cxWaiting)
    (is : ev = Nat.land (h.eventBits n) (h.ctx n).mask) (some_ : ev ≠ 0) :
    does (.contextWake n) h (fun t => t.ctxState n = cxRunning
      ∧ t.gpr n (h.ctx n).waitGd = (if (h.ctx n).waitGd = 0 then 0#32 else W ev) ∧ (t.ctx n).pc = (h.ctx n).pc + 1
      ∧ t = { h with regs := t.regs, links := t.links, err := t.err, tun := t.tun }) := by
  refine does_of_eq awake (f := fun h => h.contextWake n) (Hub.contextWake_of_event waiting inside is some_) (fun _ => rfl) ⟨?_, ?_, ?_, ?_⟩
  · rw [Hub.ctxState_setCtx, Hub.ctxState_setCtxState]
  · rw [Hub.gpr, Hub.ctx_setCtx_self]
    exact Hub.gpr_waitDone ..
  · rw [Hub.ctx_setCtx_self]
  · exact Hub.of_blot_event (by simp)

theorem runsTo_tnowSample (can : h.canIssue n = true) :
    runsTo n (.tnowSample n gd) h (fun t => t.gpr n gd = (if gd.val = 0 then 0#32 else W h.now)
      ∧ (t.ctx n).sample = some ⟨h.now, h.stime % 8, h.get R.TIME_STATUS_QUALITY, h.on R.TIME_STATUS_VALID⟩
      ∧ (t.ctx n).pc = (h.ctx n).pc + 1
      ∧ t = { h with regs := t.regs, links := t.links, err := t.err, fab := t.fab, tun := t.tun }) := by
  refine runsTo_of_eq can (fun _ => rfl) (Hub.issue_done can inside rfl (Hub.samePlace_setCtx rfl)) ⟨?_, ?_, ?_, ?_⟩
  · rw [Hub.gpr, Hub.ctx_finish, Hub.setGpr, Hub.ctx_setCtx_self]
    exact Ctx.gpr_setGpr_self ..
  · simp [Hub.ctx_finish, Hub.setGpr]
  · simp [Hub.ctx_finish, Hub.setGpr]
  · simpa using Hub.of_blot (S := [.regs, .links, .err, .fab, .tun]) (by simp)

omit inside in
theorem runsTo_wait_of_none {m : BitVec 9} (can : h.canIssue n = true) (masked : m ≠ 0)
    (none_ : Nat.land (h.eventBits n) m.toNat = 0) :
    runsTo n (.wait n gd m) h (fun t => t.ctxState n = cxWaiting ∧ (t.ctx n).mask = m.toNat
      ∧ (t.ctx n).pc = (h.ctx n).pc ∧ t = { h with regs := t.regs, links := t.links, err := t.err, tun := t.tun }) := by
  refine runsTo_of_eq can (fun _ => rfl)
    (Hub.iWait_of_none can (fun z => masked (BitVec.eq_of_toNat_eq z)) none_) ⟨Hub.ctxState_setCtxState .., ?_, ?_, ?_⟩
  · rw [Hub.ctx_setCtxState, Hub.issued_ctx, Hub.ctx_setCtx_self]
  · rw [Hub.ctx_setCtxState, Hub.issued_ctx, Hub.ctx_setCtx_self]
  · exact Hub.of_blot_event (by simp)

theorem runs_tnowPart {x : Sample} {part : BitVec 18} {v : Nat} (can : h.canIssue n = true) (some_ : (h.ctx n).sample = some x)
    (which : part.toNat = 1 ∨ part.toNat = 2) (is : v = if part.toNat = 1 then x.ticks / 2 ^ 32 else x.status) :
    runs n (.tnowPart n gd part) h ((h.setGpr n gd (W v)).finish n) := by
  have legal : ¬ (part.toNat ≠ 1 ∧ part.toNat ≠ 2) := by omega
  refine runs_of_eq can (f := fun h => h.iTnowPart n gd part.toNat) (fun _ => rfl) ?_
  rw [Hub.iTnowPart, if_neg legal]
  exact Hub.issue_done can inside (by rw [some_, is]) (.refl n h)

theorem runs_tstamp {ga : Fin 16} {part : BitVec 18} {v age : Nat} (can : h.canIssue n = true) (legal : part.toNat ≤ 1)
    (of : age = (h.now + 2 ^ 32 - (h.gpr n ga).toNat) % 2 ^ 32)
    (is : v = if part.toNat = 0 then age else subMod (2 ^ 64) h.now age / 2 ^ 32) :
    runs n (.tstamp n gd ga part) h ((h.setGpr n gd (W v)).finish n) := by
  have short := (h.gpr n ga).isLt
  have old : subMod (2 ^ 32) h.now (h.gpr n ga).toNat = age := by rw [subMod]; omega
  refine runs_of_eq can (f := fun h => h.iTstamp n gd ga part.toNat) (fun _ => rfl) ?_
  rw [Hub.iTstamp, if_neg (by omega)]
  exact Hub.issue_done can inside (by rw [is, old]) (.refl n h)

end

end Sys2Proof.Machine

/-- Settles O33: an instruction of event or time is issued, does to its own context what its rule says and retires. -/
theorem eventAndTimeInstructions : Obligations.EventAndTimeInstructions := by
  unfold Obligations.EventAndTimeInstructions
  intro h n gd ga awake inside
  refine ⟨?_, ?_, ?_, ?_, ?_, ?_, ?_, ?_, ?_, ?_, ?_, ?_, ?_, ?_, ?_, ?_, ?_⟩
  · intro m ev can is some_
    exact runsTo_wait_of_event inside can is some_
  · intro m can masked none_
    exact runsTo_wait_of_none can masked none_
  · intro can word
    exact ⟨becomes_illegal can word (spelled_wait_0 n gd) fun _ => rfl,
      becomes_illegal can word (spelled_wait_0 n gd) fun _ => rfl⟩
  · intro ev waiting is some_
    exact does_contextWake_of_event inside awake waiting is some_
  · intro _ none_
    exact becomes_of_eq awake (f := fun h => h.contextWake n) (Hub.contextWake_of_none none_) fun _ => rfl
  · intro can
    exact runsTo_tnowSample inside can
  · intro x can sampled
    exact runs_tnowPart inside can sampled (.inl rfl) rfl
  · intro x can sampled
    exact runs_tnowPart inside can sampled (.inr rfl) (by simp [Sample.status]; omega)
  · intro part can large word
    exact ⟨becomes_illegal can word (spelled_tnow_of_gt n gd large) fun _ => rfl,
      becomes_illegal can word (spelled_tnow_of_gt n gd large) fun _ => rfl⟩
  · intro age can is
    exact runs_tstamp inside can (by decide) is rfl
  · intro age can is past small
    exact runs_tstamp inside can (by decide) is (by simp [subMod]; omega)
  · intro k can pos small is
    refine runs_of_eq can (fun _ => rfl) (Hub.issue_done can inside ?_ (Hub.samePlace_setTimer ..))
    simp only [Hub.ahead_of_add (show k < 2 ^ 32 by omega) is]
    rw [if_pos ⟨pos, small⟩]
  · intro k can small far is
    refine runs_of_eq can (fun _ => rfl)
      (Hub.issue_done can inside ?_ ((Hub.samePlace_setTimer ..).trans (Hub.samePlace_latchEvent ..)))
    simp only [Hub.ahead_of_add small is]
    rw [if_neg (by omega)]
  · intro k can is pos small
    refine runs_of_eq can (fun _ => rfl) (Hub.issue_done can inside ?_ (Hub.samePlace_setTimer ..))
    simp only [← is]
    rw [if_pos ⟨pos, small⟩]
  · intro k can is far
    refine runs_of_eq can (fun _ => rfl) (Hub.issue_done can inside ?_ (.refl n h))
    simp only [← is]
    rw [if_neg (by omega)]
  · intro can
    exact runs_of_eq can (fun _ => rfl) (Hub.issue_done can inside rfl (Hub.samePlace_setTimer ..))
  · intro k set_
    exact becomes_of_eq awake (f := fun h => h.timerFire n) (Hub.timerFire_of_some set_) fun _ => rfl
end

section
/-! SUPPORT. What register writes leave of the contexts (O27): most of them leave the tuns as they were. -/

open Sys2Proof Sys2Proof.Machine

namespace Sys2Proof.Machine

/-- Every part of a hub but its tuns. -/
def offTun : List Part :=
  [.root, .stime, .regs, .mem, .latch, .free, .out, .links, .rt, .err, .fab, .sch, .tm, .acc, .sec, .dsp0, .dsp1, .eth, .ser,
    .usb, .emmc, .jrn, .brg, .cc, .load, .coop, .pw, .jtag]

@[simp] theorem mem_offTun {x : Part} : x ∈ offTun ↔ x ≠ .tun := by
  cases x <;> decide

/-- Hubs that agree but for other parts hold the same tuns. -/
theorem Hub.tun_of_offTun {h t : Hub} (e : t.blot offTun = h.blot offTun) : t.tun = h.tun := by
  simpa [Hub.blot] using congrArg Hub.tun e

theorem Hub.offTun_of_tun {h t : Hub} (e : t.tun = h.tun) : t.blot offTun = h.blot offTun := by
  simp [Hub.blot, e]

/-! ### What follows under a condition -/

@[simp] theorem Hub.when_offTun {h : Hub} {c : Bool} {f : Hub → Hub} (step : (f h).blot offTun = h.blot offTun) :
    (h.when c f).blot offTun = h.blot offTun := by
  unfold Hub.when; split <;> simp [step]

@[simp] theorem Hub.unlessHeld_offTun {h : Hub} {f : Hub → Hub} (step : (f h).blot offTun = h.blot offTun) :
    (h.unlessHeld f).blot offTun = h.blot offTun := by
  unfold Hub.unlessHeld; split <;> simp [step]

/-- Steps one after another. -/
theorem Hub.foldl_offTun {ι : Type} {f : Hub → ι → Hub} (l : List ι) (step : ∀ h i, (f h i).blot offTun = h.blot offTun)
    (h : Hub) : (l.foldl f h).blot offTun = h.blot offTun := foldl_keeps (Hub.blot offTun) f l h fun h i => step h i

@[simp] theorem Hub.plainBut_offTun (h : Hub) (w : RegWrite) (fs : List RF) : (h.plainBut w fs).blot offTun = h.blot offTun :=
  (Hub.foldl_offTun fs (fun _ _ => by simp) _).trans (by simp)

/-! ### Slot by slot -/

section
variable (h : Hub)

@[simp] theorem Hub.writeDev_offTun (cls : Nat) (w : RegWrite) : (h.writeDev cls w).blot offTun = h.blot offTun := by
  have reset : ∀ g : Hub, ∀ key, (g.devHubReset cls key).blot offTun = g.blot offTun := fun g key => by
    unfold Hub.devHubReset; split <;> simp
  have capture : ∀ g : Hub, g.imageCapture.blot offTun = g.blot offTun := fun g => by
    unfold Hub.imageCapture; dsimp only; split <;> simp
  unfold Hub.writeDev; split_ifs <;> simp [reset, capture]

theorem Hub.evoStart_offTun (n mode start period count width : Nat) :
    (h.evoStart n mode start period count width).1.blot offTun = h.blot offTun := by
  unfold Hub.evoStart; dsimp only; split_ifs <;> simp

theorem Hub.evoStop_offTun (n : Nat) (own : Bool) : (h.evoStop n own).blot offTun = h.blot offTun := by
  unfold Hub.evoStop; split_ifs <;> simp

theorem Hub.evoPolarity_offTun (n : Nat) (low : Bool) : (h.evoPolarity n low).blot offTun = h.blot offTun := by
  unfold Hub.evoPolarity; dsimp only; split <;> simp

theorem Hub.evoArm_offTun (n : Nat) : (h.evoArm n).blot offTun = h.blot offTun := by
  unfold Hub.evoArm; split
  · rfl
  · exact Hub.evoStart_offTun ..

theorem Hub.evoCtrl_offTun (n : Nat) (w : RegWrite) : (h.evoCtrl n w).blot offTun = h.blot offTun := by
  unfold Hub.evoCtrl; dsimp only
  split_ifs <;> simp [Hub.evoStop_offTun, Hub.evoPolarity_offTun, Hub.evoArm_offTun]

theorem Hub.calNow_offTun : h.calNow.blot offTun = h.blot offTun :=
  Hub.foldl_offTun _ (fun g p => by split <;> simp) h

theorem Hub.timeClearEvents_offTun : h.timeClearEvents.blot offTun = h.blot offTun :=
  (Hub.foldl_offTun _ (fun g p => by simp) _).trans (by simp)

theorem Hub.eviPop_offTun : h.eviPop.blot offTun = h.blot offTun := Hub.offTun_of_tun rfl

@[simp] theorem Hub.writeTime_offTun (w : RegWrite) : (h.writeTime w).blot offTun = h.blot offTun := by
  unfold Hub.writeTime; dsimp only
  split_ifs <;> simp [Hub.calNow_offTun, Hub.timeClearMarkers, Hub.timeClearEvents_offTun, Hub.eviPop_offTun, Hub.evoCtrl_offTun]

@[simp] theorem Hub.writeErr_offTun (cls : Nat) (w : RegWrite) : (h.writeErr cls w).blot offTun = h.blot offTun := by
  have ack : ∀ g : Hub, ∀ seq, (g.errAck seq).blot offTun = g.blot offTun := fun g seq => by
    unfold Hub.errAck; dsimp only; split_ifs <;> simp
  unfold Hub.writeErr; split_ifs <;> simp [ack, Hub.errInject, Hub.errClear]

@[simp] theorem Hub.writeBrg_offTun (w : RegWrite) : (h.writeBrg w).blot offTun = h.blot offTun := by
  have start : ∀ g : Hub, ∀ k len dir, (g.outboundStart k len dir).blot offTun = g.blot offTun := fun g k len dir => by
    unfold Hub.outboundStart; dsimp only; split <;> simp
  unfold Hub.writeBrg; split_ifs <;> simp [start, Hub.brgClear]

@[simp] theorem Hub.writePwrs_offTun (cls : Nat) (w : RegWrite) : (h.writePwrs cls w).blot offTun = h.blot offTun := by
  have request : ∀ g : Hub, (g.steepRequest cls).blot offTun = g.blot offTun := fun g => by
    unfold Hub.steepRequest; split
    · rfl
    · split <;> simp
  have tone : ∀ g : Hub, ∀ m, (g.wakeTone m).blot offTun = g.blot offTun := fun g m =>
    Hub.foldl_offTun _ (fun k p => by split <;> simp) g
  unfold Hub.writePwrs; split_ifs <;> simp [request, tone, Hub.pwrsClear]

@[simp] theorem Hub.writeCoop_offTun (w : RegWrite) : (h.writeCoop w).blot offTun = h.blot offTun := by
  unfold Hub.writeCoop; split <;> simp [Hub.coopClear]

@[simp] theorem Hub.writeFab_offTun (w : RegWrite) : (h.writeFab w).blot offTun = h.blot offTun := by
  have dump : ∀ g : Hub, ∀ o q, (g.queueDump o q).blot offTun = g.blot offTun := fun g o q => by
    unfold Hub.queueDump; dsimp only; split_ifs <;> simp [Hub.emptyQueue]
  unfold Hub.writeFab; split_ifs <;> simp [dump, Hub.fabClear]

@[simp] theorem Hub.writePol_offTun (w : RegWrite) : (h.writePol w).blot offTun = h.blot offTun := by
  have clear : ∀ g : Hub, g.polClear.blot offTun = g.blot offTun := fun g =>
    Hub.foldl_offTun _ (fun k p => by simp) g
  unfold Hub.writePol; split_ifs <;> simp [clear]

@[simp] theorem Hub.writeSch_offTun (w : RegWrite) : (h.writeSch w).blot offTun = h.blot offTun := by
  have grant : ∀ g : Hub, ∀ s b e v, (g.grantWrite s b e v).blot offTun = g.blot offTun := fun g s b e v => by
    unfold Hub.grantWrite; split <;> simp
  unfold Hub.writeSch; split_ifs <;> simp [grant, Hub.eachSched, Hub.schClear]

theorem Hub.startAms_offTun (p : Port) : (h.startAms p).blot offTun = h.blot offTun := by
  unfold Hub.startAms; split <;> simp

theorem Hub.underTxOk_offTun {h : Hub} {p : Port} {k : SinkSeq} {f : Hub → Hub} (step : (f h).blot offTun = h.blot offTun) :
    (h.underTxOk p k f).blot offTun = h.blot offTun := by
  unfold Hub.underTxOk; split <;> simp [step]

theorem Hub.newExchange_offTun (p : Port) : (h.newExchange p).blot offTun = h.blot offTun := by
  unfold Hub.newExchange
  split_ifs <;> simp [Hub.underTxOk_offTun, Hub.offerCaps, Hub.startAms_offTun]

theorem Hub.ccConfig_offTun (p : Port) (sink : Bool) (level amps : Nat) :
    (h.ccConfig p sink level amps).blot offTun = h.blot offTun := by
  unfold Hub.ccConfig; dsimp only; split_ifs <;> simp [Hub.newExchange_offTun]

theorem Hub.ccDisable_offTun (p : Port) : (h.ccDisable p).blot offTun = h.blot offTun := by
  unfold Hub.ccDisable; dsimp only; split <;> simp

theorem Hub.prSwap_offTun (p : Port) : (h.prSwap p).blot offTun = h.blot offTun := by
  unfold Hub.prSwap; dsimp only; split <;> simp [Hub.underTxOk_offTun, Hub.startAms_offTun]

theorem Hub.faultClear_offTun (p : Port) : (h.faultClear p).blot offTun = h.blot offTun := by
  unfold Hub.faultClear; dsimp only; split_ifs <;> (try split) <;> simp

theorem Hub.cceHardReset_offTun (p : Port) : (h.cceHardReset p).blot offTun = h.blot offTun := by
  unfold Hub.cceHardReset; split <;> simp

@[simp] theorem Hub.writeCc_offTun (p : Port) (w : RegWrite) : (h.writeCc p w).blot offTun = h.blot offTun := by
  unfold Hub.writeCc; dsimp only
  split_ifs <;> simp [Hub.ccConfig_offTun, Hub.ccDisable_offTun, Hub.prSwap_offTun, Hub.faultClear_offTun,
    Hub.cceHardReset_offTun, Hub.ccClear]

theorem Hub.loadLocalEn_offTun (en : Bool) : (h.loadLocalEn en).blot offTun = h.blot offTun := by
  unfold Hub.loadLocalEn; split_ifs <;> simp

theorem Hub.loadCtrl_offTun (w : RegWrite) : (h.loadCtrl w).blot offTun = h.blot offTun := by
  have clear : ∀ g : Hub, g.loadFaultClear.blot offTun = g.blot offTun := fun g => by
    unfold Hub.loadFaultClear; split <;> simp
  have enable : ∀ g : Hub, ∀ en, (g.loadEnWrite en).blot offTun = g.blot offTun := fun g en => by
    unfold Hub.loadEnWrite; dsimp only; split <;> simp
  simp [Hub.loadCtrl, clear, enable, Hub.loadLocalEn_offTun]

@[simp] theorem Hub.writeLoad_offTun (w : RegWrite) : (h.writeLoad w).blot offTun = h.blot offTun := by
  unfold Hub.writeLoad; dsimp only; split_ifs <;> simp [Hub.loadCtrl_offTun, Hub.takeUv, Hub.loadClear]

theorem Hub.displayEnable_offTun (i : Nat) : (h.displayEnable i).blot offTun = h.blot offTun := by
  unfold Hub.displayEnable Hub.setDspStart; dsimp only; split_ifs <;> simp

theorem Hub.displayDisable_offTun (i : Nat) : (h.displayDisable i).blot offTun = h.blot offTun := by
  unfold Hub.displayDisable; dsimp only; split_ifs <;> simp

@[simp] theorem Hub.writeDsp_offTun (d : Nat) (w : RegWrite) : (h.writeDsp d w).blot offTun = h.blot offTun := by
  unfold Hub.writeDsp Hub.dspCtrl
  split_ifs <;> simp [Hub.displayEnable_offTun, Hub.displayDisable_offTun, Hub.dspClear]

theorem Hub.ethShow_offTun (x : Nat) (was : Bool × Bool) : (h.ethShow x was).blot offTun = h.blot offTun := by
  unfold Hub.ethShow; split <;> simp

theorem Hub.ethModeChange_offTun (x mode : Nat) (an : Bool) : (h.ethModeChange x mode an).blot offTun = h.blot offTun := by
  unfold Hub.ethModeChange; dsimp only; split_ifs <;> simp [Hub.ethShow_offTun]

@[simp] theorem Hub.writeEth_offTun (x : Nat) (w : RegWrite) : (h.writeEth x w).blot offTun = h.blot offTun := by
  unfold Hub.writeEth; dsimp only; split_ifs <;> simp [Hub.ethShow_offTun, Hub.ethModeChange_offTun, Hub.ethClear]

@[simp] theorem Hub.writePtp_offTun (w : RegWrite) : (h.writePtp w).blot offTun = h.blot offTun := by
  unfold Hub.writePtp; split_ifs <;> simp [Hub.ptpApply, Hub.ptpClear]

theorem Hub.serCut_offTun (c : Nat) : (h.serCut c).blot offTun = h.blot offTun := by
  unfold Hub.serCut; split <;> simp

@[simp] theorem Hub.writeSer_offTun (w : RegWrite) : (h.writeSer w).blot offTun = h.blot offTun := by
  have clear : ∀ g : Hub, g.serClear.blot offTun = g.blot offTun := fun g =>
    Hub.foldl_offTun _ (fun k p => by simp) g
  unfold Hub.writeSer; dsimp only
  split_ifs <;> simp [clear, Hub.serCut_offTun, Hub.serStop, Hub.serDumpRx, Hub.serDumpTx]

@[simp] theorem Hub.writeEmmc_offTun (w : RegWrite) : (h.writeEmmc w).blot offTun = h.blot offTun := by
  have go : ∀ g : Hub, g.emmcGo.blot offTun = g.blot offTun := fun g => by
    unfold Hub.emmcGo; dsimp only; split_ifs
    · simp
    · simp
    · simp
    · exact (Hub.ball_blot _ _ (by simp)).trans (Hub.offTun_of_tun rfl)
  unfold Hub.writeEmmc; split_ifs <;> simp [go, Hub.emmcClear]

theorem Hub.usbHubDisable_offTun : h.usbHubDisable.blot offTun = h.blot offTun := by
  simp [Hub.usbHubDisable]

theorem Hub.usbSofEnable_offTun : h.usbSofEnable.blot offTun = h.blot offTun := by
  unfold Hub.usbSofEnable; split
  · rfl
  · exact Hub.offTun_of_tun rfl

theorem Hub.usbCtrl_offTun (w : RegWrite) : (h.usbCtrl w).blot offTun = h.blot offTun := by
  unfold Hub.usbCtrl
  split <;> split <;> simp [Hub.usbHubDisable_offTun, Hub.usbSofEnable_offTun, Hub.usbSofDisable]

theorem Hub.usbPortCtrl_offTun (p on : Nat) : (h.usbPortCtrl p on).blot offTun = h.blot offTun := by
  unfold Hub.usbPortCtrl; split <;> simp

@[simp] theorem Hub.writeUsb_offTun (w : RegWrite) : (h.writeUsb w).blot offTun = h.blot offTun := by
  unfold Hub.writeUsb; split_ifs <;> simp [Hub.usbCtrl_offTun, Hub.usbClear, Hub.usbPortCtrl_offTun]

end

/-! ### The program counters -/

/-- The program counters of the contexts. -/
def Hub.pcs (h : Hub) (m : Nat) : Nat := (h.ctx m).pc

theorem Hub.pcs_of_ctxs {h t : Hub} (e : t.tun.ctxs = h.tun.ctxs) : t.pcs = h.pcs := by
  funext m; rw [Hub.pcs, Hub.ctx, e]; rfl

theorem Hub.pcs_of_offTun {h t : Hub} (e : t.blot offTun = h.blot offTun) : t.pcs = h.pcs :=
  Hub.pcs_of_ctxs (congrArg TunState.ctxs (Hub.tun_of_offTun e))

/-- Steps one after another. -/
theorem Hub.foldl_pcs {ι : Type} {f : Hub → ι → Hub} (l : List ι) (step : ∀ h i, (f h i).pcs = h.pcs)
    (h : Hub) : (l.foldl f h).pcs = h.pcs := foldl_keeps Hub.pcs f l h fun h i => step h i

@[simp] theorem Hub.when_pcs {h : Hub} {c : Bool} {f : Hub → Hub} (step : (f h).pcs = h.pcs) : (h.when c f).pcs = h.pcs := by
  unfold Hub.when; split <;> simp [step]

section
variable (h : Hub)

@[simp] theorem Hub.put_pcs (f : RF) (v : Nat) : (h.put f v).pcs = h.pcs := Hub.pcs_of_ctxs rfl

theorem Hub.setCtx_pcs {n : Nat} {x : Ctx} (pc : x.pc = (h.ctx n).pc) : (h.setCtx n x).pcs = h.pcs := by
  funext m
  rw [Hub.pcs, Hub.ctx_setCtx]
  split
  next same => rw [pc, Hub.pcs, same]
  next => rfl

@[simp] theorem Hub.latchEvent_pcs (b n : Nat) : (h.latchEvent b n).pcs = h.pcs := Hub.setCtx_pcs h rfl

@[simp] theorem Hub.latchAll_pcs (b : Nat) : (h.latchAll b).pcs = h.pcs := Hub.foldl_pcs _ (fun g n => by simp) h

theorem Hub.refreshQuality_pcs : h.refreshQuality.pcs = h.pcs := by
  unfold Hub.refreshQuality; split
  · rfl
  · refine (Hub.pcs_of_offTun (Hub.foldl_offTun _ (fun g n => by simp) _)).trans ?_
    rw [Hub.latchAll_pcs]
    rfl

theorem Hub.endService_pcs (p : Port) (st : Nat) : (h.endService p st).pcs = h.pcs := by
  have ended : (h.serviceOver p st).pcs = h.pcs := Hub.pcs_of_ctxs (congrArg TunState.ctxs (h.serviceOver_tun p st))
  rw [Hub.endService_eq]
  refine (Hub.pcs_of_ctxs (congrArg TunState.ctxs (Hub.onLink_tun ..))).trans ?_
  split
  · rw [Hub.latchAll_pcs, ended]
  · exact ended

@[simp] theorem Hub.leaveService_pcs (p : Port) (st : Nat) : (h.leaveService p st).pcs = h.pcs :=
  (Hub.pcs_of_ctxs (congrArg TunState.ctxs (h.leaveService_tun p st))).trans (h.endService_pcs p st)

/-! ### Links -/

theorem Hub.sendSets_offTun (p : Port) (typ a0 a1 : Nat) (k : Nat) : (h.sendSets p typ a0 a1 k).blot offTun = h.blot offTun := by
  induction k generalizing h with
  | zero => rfl
  | succ k ih => rw [Hub.sendSets, ih]; simp

@[simp] theorem Hub.seedPattern_pcs (p : Port) : (h.seedPattern p).pcs = h.pcs := Hub.pcs_of_offTun (by simp)

@[simp] theorem Hub.loopNear_pcs (p : Port) (serial : Bool) : (h.loopNear p serial).pcs = h.pcs := by
  unfold Hub.loopNear; dsimp only; split_ifs <;> simp

@[simp] theorem Hub.loopFar_pcs (p : Port) : (h.loopFar p).pcs = h.pcs := by
  have sets : ∀ g : Hub, (g.sendSets p osLPB 1 0 16).pcs = g.pcs := fun g => Hub.pcs_of_offTun (Hub.sendSets_offTun ..)
  unfold Hub.loopFar; dsimp only; split <;> simp [Hub.endService_pcs, sets]

@[simp] theorem Hub.loopEnd_pcs (p : Port) : (h.loopEnd p).pcs = h.pcs := by
  unfold Hub.loopEnd Hub.retrain; dsimp only; split <;> simp

theorem Hub.linkAttach_offTun (p : Port) : (h.linkAttach p).blot offTun = h.blot offTun := by
  unfold Hub.linkAttach; dsimp only; split <;> simp

@[simp] theorem Hub.linkEnable_pcs (p : Port) : (h.linkEnable p).pcs = h.pcs := by
  refine Hub.pcs_of_offTun ?_
  unfold Hub.linkEnable; dsimp only; split <;> simp [Hub.linkAttach_offTun]

@[simp] theorem Hub.linkDisable_pcs (p : Port) : (h.linkDisable p).pcs = h.pcs := by
  simp [Hub.linkDisable]

@[simp] theorem Hub.linkRetrain_pcs (p : Port) : (h.linkRetrain p).pcs = h.pcs := by
  unfold Hub.linkRetrain Hub.retrain; split <;> simp

theorem Hub.lnkCtrl_pcs (p : Port) (w : RegWrite) : (h.lnkCtrl p w).pcs = h.pcs := by
  have plain : ∀ fs, (h.plainBut w fs).pcs = h.pcs := fun fs => Hub.pcs_of_offTun (by simp)
  unfold Hub.lnkCtrl; dsimp only
  split_ifs <;> (try split) <;> simp [plain]

theorem Hub.openEndLanes_offTun (p : Port) : (h.openEndLanes p).blot offTun = h.blot offTun := by
  unfold Hub.openEndLanes; dsimp only
  refine (Hub.eachLane_blot _ _ fun g l => ?_).trans (by simp)
  split <;> simp

theorem Hub.lullWritten_offTun (p : Port) : (h.lullWritten p).blot offTun = h.blot offTun := by
  unfold Hub.lullWritten; split_ifs <;> simp [Hub.openEndLanes_offTun]

theorem Hub.withdrawRequest_offTun (p : Port) (l : Nat) : (h.withdrawRequest p l).blot offTun = h.blot offTun := by
  unfold Hub.withdrawRequest; dsimp only; split_ifs <;> simp

theorem Hub.clearWindowCounters_offTun : h.clearWindowCounters.blot offTun = h.blot offTun := Hub.offTun_of_tun rfl

@[simp] theorem Hub.plainW_pcs (w : RegWrite) : (h.plainW w).pcs = h.pcs := Hub.pcs_of_offTun (by simp)

theorem Hub.routeWrite_pcs (a : Nat) (v : Word) : (h.routeWrite a v).pcs = h.pcs := by
  refine Hub.pcs_of_offTun ?_
  by_cases few : a ≤ 64
  · exact Hub.routeWrite_blot h few v (by simp) (by simp)
  · rw [Hub.routeWrite, if_neg few]

@[simp] theorem Hub.writeLnk_pcs (p : Port) (w : RegWrite) : (h.writeLnk p w).pcs = h.pcs := by
  unfold Hub.writeLnk; split_ifs
  · exact Hub.lnkCtrl_pcs ..
  · exact Hub.pcs_of_offTun (by simp [Hub.withdrawRequest_offTun])
  · exact Hub.pcs_of_offTun (by simp [Hub.lnkPattern])
  · exact Hub.pcs_of_offTun (by simp [Hub.lnkLowPower, Hub.lullWritten_offTun])
  · exact Hub.pcs_of_offTun (by
      simp [Hub.clearLaneCounters, Hub.clearPacketCounters, Hub.clearWindowCounters_offTun])
  · rw [Hub.routeEntryWrite, Hub.refreshQuality_pcs, Hub.routeWrite_pcs]
  · exact Hub.plainW_pcs ..

@[simp] theorem Hub.writeClk_pcs (w : RegWrite) : (h.writeClk w).pcs = h.pcs := by
  have clear : ∀ g : Hub, g.clkClear.pcs = g.pcs := fun g => Hub.pcs_of_ctxs rfl
  unfold Hub.writeClk; split_ifs <;> simp [Hub.refreshQuality_pcs, clear]

end

end Sys2Proof.Machine
end

section
/-! SUPPORT. What register writes leave of the contexts' program counters (O27): the writes that reach the tuns, and the
stops among them. -/

open Sys2Proof Sys2Proof.Machine
namespace Sys2Proof.Machine

section
variable (h : Hub)

/-! ### The journal and the access table -/

theorem Hub.sourceOk_offTun (src total : Nat) : (h.sourceOk src total).1.blot offTun = h.blot offTun := by
  have read := Hub.accessRange_blot (S := offTun) h 4 .read src total (by simp) (by simp) (by simp) (by simp) (by simp)
  unfold Hub.sourceOk; split
  · rfl
  · split <;> simp_all

theorem Hub.nvStore_pcs (a : Nat) (bs : List Byte) : (h.nvStore a bs).pcs = h.pcs := by
  have stored : (h.mstore a bs).pcs = h.pcs := Hub.pcs_of_offTun (by simp)
  exact (Hub.pcs_of_ctxs rfl).trans stored

theorem Hub.jrnUnprotect_pcs (slot : Nat) : (h.jrnUnprotect slot).pcs = h.pcs := by
  unfold Hub.jrnUnprotect; dsimp only; split <;> simp [Hub.nvStore_pcs]

theorem Hub.storeStart_offTun (x : JrnStore) : (h.storeStart x).blot offTun = h.blot offTun := Hub.offTun_of_tun rfl

theorem Hub.storeHeld_offTun (q : StoreReq) : (h.storeHeld q).blot offTun = h.blot offTun := Hub.offTun_of_tun rfl

theorem Hub.storeDecide_offTun (q : StoreReq) : (h.storeDecide q).blot offTun = h.blot offTun := by
  have source : ∀ m g r, h.sourceOk q.src m = (g, r) → g.blot offTun = h.blot offTun := fun m g r e => by
    simpa [e] using h.sourceOk_offTun q.src m
  unfold Hub.storeDecide
  split_ifs
  · simp
  · split
    next e => rw [Hub.storeHeld_offTun, source _ _ _ e]
    next e => simp [source _ _ _ e]
    next e => rw [Hub.storeStart_offTun, source _ _ _ e]
  · simp
  · split
    next e => rw [Hub.storeHeld_offTun, source _ _ _ e]
    next e => simp [source _ _ _ e]
    next e =>
      split
      · simp [source _ _ _ e]
      · rw [Hub.storeStart_offTun, source _ _ _ e]

theorem Hub.storeFields_offTun (target : Nat) : (h.storeFields target).blot offTun = h.blot offTun := by
  unfold Hub.storeFields; split <;> simp

theorem Hub.writeJrn_pcs (w : RegWrite) : (h.writeJrn w).pcs = h.pcs := by
  have limit : ∀ v, (h.protLimit v).pcs = h.pcs := fun v => Hub.pcs_of_offTun (by
    unfold Hub.protLimit; dsimp only; split_ifs <;> simp)
  have erase : ∀ g : Hub, ∀ t, (g.jrnErase t).pcs = g.pcs := fun g t => Hub.pcs_of_offTun (by
    unfold Hub.jrnErase; dsimp only; split <;> simp [Hub.storeFields_offTun, Hub.storeStart_offTun])
  have store : ∀ g : Hub, ∀ t n share, (g.jrnStore t n share).pcs = g.pcs := fun g t n share => Hub.pcs_of_offTun (by
    unfold Hub.jrnStore; dsimp only; split <;> simp [Hub.storeFields_offTun, Hub.storeDecide_offTun])
  have clear : ∀ g : Hub, g.jrnClear.pcs = g.pcs := fun g => Hub.pcs_of_ctxs rfl
  unfold Hub.writeJrn; dsimp only
  split_ifs <;> simp [limit, erase, store, clear, Hub.jrnUnprotect_pcs]

theorem Hub.dmaRead_offTun (a n : Nat) : (h.dmaRead a n).1.blot offTun = h.blot offTun := by
  have read := Hub.accessRange_blot (S := offTun) h 4 .read a n (by simp) (by simp) (by simp) (by simp) (by simp)
  unfold Hub.dmaRead; split
  next e => split <;> simp_all
  next e => simp_all

theorem Hub.bannerRead_offTun (i : Nat) (q : BannerFetch) : (h.bannerRead i q).blot offTun = h.blot offTun := by
  have read := h.dmaRead_offTun q.addr q.bytes
  unfold Hub.bannerRead; dsimp only; split
  · split_ifs <;> simp [read]
  · simp [read]
  · split <;> simp [read]

theorem Hub.bannerResume_offTun (i : Nat) : (h.bannerResume i).blot offTun = h.blot offTun :=
  (Hub.foldl_offTun _ (fun g q => g.bannerRead_offTun i q) _).trans (by simp)

/-! ### Pitching and binding -/

theorem Hub.pcs_pitching (p : Option Pitching) : ({ h with tun := { h.tun with pitch := p } } : Hub).pcs = h.pcs :=
  Hub.pcs_of_ctxs rfl

theorem Hub.pitchStart_pcs (n : Nat) (share : Bool) (src code data : Nat) (cold : Option Nat) :
    (h.pitchStart n share src code data cold).pcs = h.pcs := by
  unfold Hub.pitchStart; dsimp only
  exact (Hub.pcs_pitching ..).trans (Hub.pcs_of_offTun (by simp))

theorem Hub.pitchDecide_pcs (q : PitchReq) : (h.pitchDecide q).pcs = h.pcs := by
  have source : ∀ m g r, h.sourceOk q.src m = (g, r) → g.pcs = h.pcs := fun m g r e =>
    Hub.pcs_of_offTun (by simpa [e] using h.sourceOk_offTun q.src m)
  have answered : ∀ g : Hub, ∀ r, (g.pitchResult q.tunnel r).pcs = g.pcs := fun g r => Hub.pcs_of_offTun (by simp)
  unfold Hub.pitchDecide; split
  · exact answered ..
  · split
    next e =>
      rw [Hub.put_pcs, ← source _ _ _ e]
      exact Hub.pcs_of_ctxs rfl
    next e => rw [answered, source _ _ _ e]
    next e =>
      split
      · rw [answered, source _ _ _ e]
      · rw [Hub.pitchStart_pcs, source _ _ _ e]

theorem Hub.pitch_pcs (n : Nat) (share : Bool) : (h.pitch n share).pcs = h.pcs := by
  unfold Hub.pitch; dsimp only; split <;> simp [Hub.pitchDecide_pcs]

theorem Hub.pitchResume_pcs : h.pitchResume.pcs = h.pcs := by
  unfold Hub.pitchResume; split
  · rw [Hub.pitchDecide_pcs]; exact Hub.pcs_of_ctxs rfl
  · rfl

theorem Hub.heldResume_pcs : h.heldResume.pcs = h.pcs := by
  have pitched : ((h.bannerResume 0).bannerResume 1).pitchResume.pcs = h.pcs := by
    rw [Hub.pitchResume_pcs, Hub.pcs_of_offTun (Hub.bannerResume_offTun ..), Hub.pcs_of_offTun (Hub.bannerResume_offTun ..)]
  unfold Hub.heldResume; dsimp only; split
  · refine (Hub.pcs_of_offTun (Hub.storeDecide_offTun ..)).trans ?_
    exact (Hub.pcs_of_ctxs rfl).trans pitched
  · exact pitched

theorem Hub.accEnable_offTun : h.accEnable.blot offTun = h.blot offTun := by
  unfold Hub.accEnable; split
  · rfl
  · exact Hub.offTun_of_tun rfl

theorem Hub.writeAcc_pcs (w : RegWrite) : (h.writeAcc w).pcs = h.pcs := by
  have enabled : h.accEnable.heldResume.pcs = h.pcs := by
    rw [Hub.heldResume_pcs, Hub.pcs_of_offTun (Hub.accEnable_offTun h)]
  have entry : ∀ i v, (h.accEntryWrite i v).pcs = h.pcs := fun i v => Hub.pcs_of_offTun (by simp)
  have clear : ∀ g : Hub, g.accClear.pcs = g.pcs := fun g => Hub.pcs_of_ctxs rfl
  unfold Hub.writeAcc; split_ifs <;> simp [enabled, entry, clear, Hub.accDisable]

theorem Hub.bindRequest_offTun (n b : Nat) : (h.bindRequest n b).blot offTun = h.blot offTun := by
  unfold Hub.bindRequest; dsimp only; split <;> simp

theorem Hub.doorbell_pcs (n : Nat) : (h.doorbell n).pcs = h.pcs := by
  unfold Hub.doorbell; split_ifs
  · exact Hub.setCtx_pcs h rfl
  · simp
  · rfl

theorem Hub.leaveWin_pcs (n : Nat) : (h.leaveWin n).pcs = h.pcs := by
  unfold Hub.leaveWin; split
  · exact (Hub.pcs_of_ctxs rfl).trans (Hub.setCtx_pcs h (n := n) rfl)
  · rfl

theorem Hub.takeOver_pcs (t : Nat) : (h.takeOver t).pcs = h.pcs := by
  unfold Hub.takeOver; dsimp only
  refine (Hub.foldl_pcs _ (fun g n => ?_) _).trans ?_
  · split
    · rfl
    · rw [Hub.setCtxState, Hub.put_pcs, Hub.setCtx_pcs _ (by rfl)]
      split
      · exact Hub.leaveWin_pcs ..
      · rfl
  · have logged : (((((h.markFailed t).put R.TUNC_STATUS_SPARE 1).put R.TUNC_STATUS_SERVED t).put R.TUNC_STATUS_MOVING 1).logBy
        13 0x02 sevDG t 0 0 .takeover).pcs = h.pcs := Hub.pcs_of_offTun (by simp)
    rw [← logged]
    exact Hub.pcs_of_ctxs rfl

theorem Hub.tuncForce_pcs (t : Nat) : (h.tuncForce t).pcs = h.pcs := by
  unfold Hub.tuncForce; dsimp only; split <;> simp [Hub.takeOver_pcs]

/-! ### Lifecycle and keys -/

theorem Hub.random_offTun (k : Nat) : (h.random k).1.blot offTun = h.blot offTun := by
  induction k generalizing h with
  | zero => rfl
  | succ k ih => exact (ih h.fresh.2).trans (Hub.offTun_of_tun rfl)

theorem Hub.attest_offTun (block : List Byte) : (h.attest block).1.blot offTun = h.blot offTun := by
  unfold Hub.attest; dsimp only; split
  · rfl
  · split
    · rfl
    · exact h.random_offTun 12

theorem Hub.secRead_offTun (op a : Nat) : (h.secRead op a).blot offTun = h.blot offTun := by
  have read : ∀ g r, h.dmaRead a (secBlockLen op) = (g, r) → g.blot offTun = h.blot offTun := fun g r e => by
    simpa [e] using h.dmaRead_offTun a (secBlockLen op)
  have signed : ∀ g b k r, Hub.attest g b = (k, r) → k.blot offTun = g.blot offTun := fun g b k r e => by
    simpa [e] using g.attest_offTun b
  unfold Hub.secRead; split
  · simp
  · split
    next e => simp [read _ _ e]
    next e => simp [read _ _ e]
    next e =>
      split
      · split
        next s => simp [signed _ _ _ _ s, read _ _ e]
        next s => simp [signed _ _ _ _ s, read _ _ e]
      · simp [read _ _ e]

theorem Hub.secStart_offTun (op : Nat) : (h.secStart op).blot offTun = h.blot offTun := by
  unfold Hub.secStart; dsimp only; split_ifs <;> simp [Hub.secRead_offTun]

theorem Hub.emptySlots_offTun : h.emptySlots.blot offTun = h.blot offTun := Hub.foldl_offTun _ (fun g k => by simp) h

theorem Hub.eraseOwner_offTun : h.eraseOwner.blot offTun = h.blot offTun := by
  simp [Hub.eraseOwner, Hub.emptySlots_offTun]

theorem Hub.drawOrs_offTun : h.drawOrs.blot offTun = h.blot offTun := by
  simp [Hub.drawOrs, Hub.random_offTun]

end

/-! ### Stops -/

section
variable {h : Hub} {m n : Nat}

/-- Hubs that agree but for other parts hold the same registers. -/
theorem Hub.regs_of_blot {S : List Part} {t : Hub} (out : Part.regs ∉ S) (e : t.blot S = h.blot S) : t.regs = h.regs := by
  simpa [Hub.blot, out] using congrArg Hub.regs e

theorem Hub.dropHeld_regs (h : Hub) (n : Nat) (x : Held) : (h.dropHeld n x).regs = h.regs :=
  Hub.regs_of_blot (S := [.mem, .fab, .links]) (by simp) (Hub.alike_release ..).blot

theorem Hub.dropAllHeld_regs (h : Hub) (n : Nat) : (h.dropAllHeld n).regs = h.regs :=
  foldl_keeps Hub.regs _ _ _ fun g x => Hub.dropHeld_regs g n x

theorem Hub.leaveWin_regs (h : Hub) (n : Nat) : (h.leaveWin n).regs = h.regs := by
  unfold Hub.leaveWin; split <;> rfl

theorem Hub.orphanOps_regs (h : Hub) (n : Nat) : (h.orphanOps n).regs = h.regs := Hub.leaveWin_regs ..

theorem Hub.emptyCtx_status (ne : m ≠ n) (lt : n < 96) :
    (h.emptyCtx m).rd (A.TUNC_CTX_STATUS n) = h.rd (A.TUNC_CTX_STATUS n) := by
  have own : A.TUNC_CTX_STATUS n ≠ (R.TUNC_CTX_STATUS_STATE m).addr := by
    show 0x3410c + 64 * n ≠ 0x3410c + 64 * m; omega
  unfold Hub.emptyCtx; dsimp only
  rw [Hub.setCtxState, Hub.rd_put_of_ne _ _ _ own, Hub.setCtx_rd, Hub.rd_wr_of_ne, Hub.rd_clearRange, if_neg,
    Hub.rd_wr_of_ne, Hub.rd_wr_of_ne]
  all_goals simp only [A.TUNC_CTX_STATUS, A.TUNC_CTX_CODE, A.TUNC_CTX_DATA, A.TUNC_MEAS, A.TUNC_MEAS_INFO]; omega

/-- A stop of one context leaves the state of every other (R217). -/
theorem Hub.stopCtx_ctxState_of_ne (ne : m ≠ n) (lt : n < 96) : (h.stopCtx m).ctxState n = h.ctxState n := by
  unfold Hub.stopCtx; dsimp only; split_ifs
  · rfl
  · rfl
  · have regs : ((h.dropAllHeld m).orphanOps m).regs = h.regs := by rw [Hub.orphanOps_regs, Hub.dropAllHeld_regs]
    have status := Hub.emptyCtx_status (h := (h.dropAllHeld m).orphanOps m) ne lt
    rw [Hub.rd, Hub.rd, regs] at status
    exact congrArg (fun w => slice (BitVec.toNat w) 0 3) status

/-- A context that was stopped does not run. -/
theorem Hub.stopCtx_idle (h : Hub) (n : Nat) : (h.stopCtx n).ctxState n ≠ cxRunning := by
  unfold Hub.stopCtx; dsimp only; split_ifs with rests moves
  · rintro run; rw [run] at rests; exact absurd rests (by decide)
  · rw [Hub.ctxState_setCtx, moves]; decide
  · rw [Hub.emptyCtx, Hub.ctxState_setCtxState]; decide

theorem Hub.stopAll_idle (h : Hub) (lt : n < 96) : h.stopAll.ctxState n ≠ cxRunning := by
  have keeps : ∀ (l : List Nat) (g : Hub), n ∈ l ∨ g.ctxState n ≠ cxRunning → (l.foldl Hub.stopCtx g).ctxState n ≠ cxRunning := by
    intro l
    induction l with
    | nil => intro g idle; exact idle.resolve_left (by simp)
    | cons m l ih =>
      intro g idle
      refine ih _ ?_
      by_cases same : m = n
      · subst same; exact .inr (g.stopCtx_idle m)
      · rw [Hub.stopCtx_ctxState_of_ne same lt]
        simpa [Ne.symm same] using idle
  exact keeps _ h (.inl (List.mem_range.mpr lt))

/-- A field of another word than a context's status is put. -/
theorem Hub.ctxState_put (h : Hub) {f : RF} (v : Nat) (ne : A.TUNC_CTX_STATUS n ≠ f.addr) :
    (h.put f v).ctxState n = h.ctxState n := Hub.get_wr_of_ne _ _ _ _ ne

theorem Hub.onSec_ctxState (h : Hub) (f : SecState → SecState) : (h.onSec f).ctxState n = h.ctxState n := rfl

theorem Hub.emptySlot_ctxState (h : Hub) {s : Nat} (few : s < 32) : (h.emptySlot s).ctxState n = h.ctxState n := by
  have apart : A.TUNC_CTX_STATUS n ≠ A.SEC_SLOT s := by simp only [A.TUNC_CTX_STATUS, A.SEC_SLOT]; omega
  unfold Hub.emptySlot; dsimp only
  rw [Hub.onSec_ctxState, Hub.ctxState_put (f := R.SEC_SLOT_KEG_ID s) _ _ apart,
    Hub.ctxState_put (f := R.SEC_SLOT_ENGINE s) _ _ apart, Hub.ctxState_put (f := R.SEC_SLOT_LOADED s) _ _ apart]

/-- The erasure of keys leaves the contexts' states. -/
theorem Hub.eraseOwner_ctxState (h : Hub) : h.eraseOwner.ctxState n = h.ctxState n := by
  have apart : A.TUNC_CTX_STATUS n ≠ A.SEC_STATUS := by simp only [A.TUNC_CTX_STATUS, A.SEC_STATUS]; omega
  have slots : h.emptySlots.ctxState n = h.ctxState n :=
    List.foldlRecOn (motive := fun g => g.ctxState n = h.ctxState n) (List.range 32) Hub.emptySlot rfl
      fun g same s few => (Hub.emptySlot_ctxState g (List.mem_range.mp few)).trans same
  unfold Hub.eraseOwner; dsimp only
  rw [Hub.ctxState_put (f := R.SEC_STATUS_PKEYS) _ _ apart, Hub.ctxState_put (f := R.SEC_STATUS_ORS_VALID) _ _ apart,
    Hub.onSec_ctxState, slots]

/-! ### The context that writes -/

/-- Of a context that runs on, the program counter has not moved. -/
structure Hub.StaysAt (n : Nat) (h t : Hub) : Prop where
  pc : t.ctxState n = cxRunning → (t.ctx n).pc = (h.ctx n).pc

theorem Hub.staysAt_of_pcs {t : Hub} (same : t.pcs = h.pcs) : Hub.StaysAt n h t := ⟨fun _ => congrFun same n⟩

theorem Hub.staysAt_of_offTun {t : Hub} (same : t.blot offTun = h.blot offTun) : Hub.StaysAt n h t :=
  Hub.staysAt_of_pcs (Hub.pcs_of_offTun same)

theorem Hub.staysAt_of_idle {t : Hub} (idle : t.ctxState n ≠ cxRunning) : Hub.StaysAt n h t := ⟨fun run => absurd run idle⟩

/-- Puts of another word than the context's status, before and after. -/
theorem Hub.StaysAt.put {h t : Hub} (s : Hub.StaysAt n h t) {f : RF} (v : Nat) (ne : A.TUNC_CTX_STATUS n ≠ f.addr) :
    Hub.StaysAt n h (t.put f v) := ⟨fun run => s.pc ((Hub.ctxState_put t v ne).symm.trans run)⟩

theorem Hub.StaysAt.after {h g t : Hub} (s : Hub.StaysAt n g t) (same : g.pcs = h.pcs) : Hub.StaysAt n h t :=
  ⟨fun run => (s.pc run).trans (congrFun same n)⟩

theorem Hub.staysAt_emptyCtx (h : Hub) (m : Nat) : Hub.StaysAt n h (h.emptyCtx m) := by
  by_cases same : m = n
  · subst same
    exact Hub.staysAt_of_idle (by rw [Hub.emptyCtx, Hub.ctxState_setCtxState]; decide)
  · refine ⟨fun _ => ?_⟩
    rw [Hub.emptyCtx, Hub.ctx_setCtxState, Hub.ctx_setCtx_of_ne _ _ (Ne.symm same)]
    rfl

theorem Hub.dropAllHeld_pcs (h : Hub) (n : Nat) : (h.dropAllHeld n).pcs = h.pcs := by
  refine (Hub.foldl_pcs _ (fun g x => Hub.pcs_of_offTun (by simp)) _).trans ?_
  exact Hub.setCtx_pcs h rfl

theorem Hub.orphanOps_pcs (h : Hub) (n : Nat) : (h.orphanOps n).pcs = h.pcs :=
  (Hub.leaveWin_pcs ..).trans (Hub.pcs_of_ctxs rfl)

theorem Hub.staysAt_stopCtx (h : Hub) (m : Nat) : Hub.StaysAt n h (h.stopCtx m) := by
  unfold Hub.stopCtx; dsimp only; split_ifs
  · exact Hub.staysAt_of_pcs rfl
  · exact Hub.staysAt_of_pcs (Hub.setCtx_pcs h rfl)
  · exact (Hub.staysAt_emptyCtx ..).after ((Hub.orphanOps_pcs ..).trans (Hub.dropAllHeld_pcs ..))

theorem Hub.staysAt_contextStop (h : Hub) (m : Nat) : Hub.StaysAt n h (h.contextStop m) := by
  unfold Hub.contextStop; dsimp only; split
  · exact (Hub.staysAt_stopCtx ..).after (Hub.put_pcs ..)
  · exact Hub.staysAt_of_pcs (Hub.put_pcs ..)

theorem Hub.staysAt_lcEffect (h : Hub) (lt : n < 96) (dst : Nat) : Hub.StaysAt n h (h.lcEffect dst) := by
  have set_ : (h.setLifecycle dst).pcs = h.pcs := Hub.pcs_of_offTun (by simp)
  unfold Hub.lcEffect; dsimp only; split
  · exact Hub.staysAt_of_pcs ((Hub.pcs_of_offTun (Hub.drawOrs_offTun _)).trans set_)
  · exact Hub.staysAt_of_pcs set_
  · exact Hub.staysAt_of_pcs ((Hub.pcs_of_offTun (Hub.eraseOwner_offTun _)).trans set_)
  · split
    · exact Hub.staysAt_of_idle (by rw [Hub.eraseOwner_ctxState]; exact Hub.stopAll_idle _ lt)
    · exact Hub.staysAt_of_pcs ((Hub.pcs_of_offTun (Hub.eraseOwner_offTun _)).trans set_)

theorem Hub.staysAt_lcRequest (h : Hub) (lt : n < 96) (target key : Nat) : Hub.StaysAt n h (h.lcRequest target key) := by
  have apart : A.TUNC_CTX_STATUS n ≠ A.SEC_LC_REQ := by simp only [A.TUNC_CTX_STATUS, A.SEC_LC_REQ]; omega
  have named : Hub.StaysAt n h (h.put R.SEC_LC_REQ_TARGET target) := Hub.staysAt_of_pcs (Hub.put_pcs ..)
  unfold Hub.lcRequest; dsimp only; split_ifs
  case neg => exact ((Hub.staysAt_lcEffect _ lt _).after (Hub.put_pcs ..)).put _ apart
  all_goals exact named.put _ apart

theorem Hub.staysAt_writeSec (h : Hub) (lt : n < 96) (cls : Nat) (w : RegWrite) : Hub.StaysAt n h (h.writeSec cls w) := by
  have clear : ∀ g : Hub, g.secClear.pcs = g.pcs := fun g => Hub.pcs_of_ctxs rfl
  unfold Hub.writeSec; split_ifs
  · exact Hub.staysAt_lcRequest h lt ..
  · exact Hub.staysAt_of_pcs (Hub.plainW_pcs ..)
  · exact Hub.staysAt_of_offTun (Hub.secStart_offTun ..)
  · exact Hub.staysAt_of_pcs (Hub.plainW_pcs ..)
  · exact Hub.staysAt_of_pcs rfl
  · exact Hub.staysAt_of_pcs (Hub.when_pcs (clear h))
  · exact Hub.staysAt_of_pcs (Hub.plainW_pcs ..)

theorem Hub.staysAt_writeTunc (h : Hub) (w : RegWrite) : Hub.StaysAt n h (h.writeTunc w) := by
  unfold Hub.writeTunc; dsimp only; split_ifs
  · exact Hub.staysAt_of_pcs (Hub.tuncForce_pcs ..)
  · exact Hub.staysAt_of_pcs (Hub.pitch_pcs ..)
  · exact Hub.staysAt_contextStop ..
  · exact Hub.staysAt_of_pcs (Hub.when_pcs (Hub.doorbell_pcs ..))
  · exact Hub.staysAt_of_offTun (Hub.bindRequest_offTun ..)
  · exact Hub.staysAt_of_offTun (by simp)
  · exact Hub.staysAt_of_pcs (Hub.plainW_pcs ..)

theorem Hub.staysAt_writeReg (h : Hub) (lt : n < 96) (cls a : Nat) (v : Word) (be : Nat) :
    Hub.StaysAt n h (h.writeReg cls a v be) := by
  unfold Hub.writeReg; dsimp only; split
  case h_8 => exact Hub.staysAt_writeSec h lt ..
  case h_14 => exact Hub.staysAt_writeTunc ..
  case h_2 => exact Hub.staysAt_of_pcs (Hub.writeClk_pcs ..)
  case h_5 => exact Hub.staysAt_of_pcs (Hub.writeAcc_pcs ..)
  case h_10 => exact Hub.staysAt_of_pcs (Hub.writeJrn_pcs ..)
  case h_15 | h_16 | h_17 => exact Hub.staysAt_of_pcs (Hub.writeLnk_pcs ..)
  all_goals exact Hub.staysAt_of_offTun (by simp)

end

theorem Hub.busStore_offTun (h : Hub) (a : Nat) (bs : List Byte) : (h.busStore a bs).blot offTun = h.blot offTun := by
  induction bs generalizing h a with
  | nil => rfl
  | cons b bs ih => rw [Hub.busStore, ih]; simp

/-- A write on the bus does not move a context that runs on. -/
theorem Hub.staysAt_busWriteWord (h : Hub) {n : Nat} (lt : n < 96) (cls a m v : Nat) :
    Hub.StaysAt n h (h.busWriteWord cls a m v) := by
  unfold Hub.busWriteWord; split
  · exact Hub.staysAt_writeReg h lt ..
  · exact Hub.staysAt_of_offTun (Hub.busStore_offTun ..)

end Sys2Proof.Machine
end

section
/-! SUPPORT. Loads and stores (O27): the spaces, the values and the bytes, and what an access leaves of its context. -/

open Sys2Proof Sys2Proof.Machine

namespace Sys2Proof.Machine

/-! ### Bytes and words -/

theorem toNat_append_eq_add {k m : Nat} (x : BitVec k) (y : BitVec m) : (x ++ y).toNat = x.toNat * 2 ^ m + y.toNat := by
  rw [BitVec.toNat_append, ← Nat.shiftLeft_add_eq_or_of_lt y.isLt, Nat.shiftLeft_eq]

theorem W_leNat_4 (a b c d : Byte) : W (leNat [a, b, c, d]) = d ++ c ++ b ++ a := by
  have := a.isLt; have := b.isLt; have := c.isLt; have := d.isLt
  refine BitVec.eq_of_toNat_eq ?_
  rw [toNat_append_eq_add, toNat_append_eq_add, toNat_append_eq_add, toNat_W (by simp only [leNat]; omega)]
  simp only [leNat]
  omega

theorem W_leNat_2 (a b : Byte) : W (leNat [a, b]) = (b ++ a).zeroExtend 32 := by
  have := a.isLt; have := b.isLt
  refine BitVec.eq_of_toNat_eq ?_
  rw [BitVec.toNat_setWidth, toNat_append_eq_add, toNat_W (by simp only [leNat]; omega)]
  simp only [leNat]
  omega

theorem W_leNat_1 (a : Byte) : W (leNat [a]) = a.zeroExtend 32 := by
  have := a.isLt
  refine BitVec.eq_of_toNat_eq ?_
  rw [BitVec.toNat_setWidth, toNat_W (by simp only [leNat]; omega)]
  simp only [leNat]
  omega

/-- A number cut to as many bytes as are stored of it. -/
theorem leBytes_mod (m v : Nat) : leBytes m (v % 2 ^ (8 * m)) = leBytes m v := by
  induction m generalizing v with
  | zero => rfl
  | succ m ih =>
    have size : 2 ^ (8 * (m + 1)) = 256 * 2 ^ (8 * m) := by rw [Nat.mul_succ, Nat.pow_add, Nat.mul_comm]
    have low : BitVec.ofNat 8 (v % 2 ^ (8 * (m + 1))) = BitVec.ofNat 8 v := by
      refine BitVec.eq_of_toNat_eq ?_
      rw [BitVec.toNat_ofNat, BitVec.toNat_ofNat, size]
      exact Nat.mod_mod_of_dvd _ (Dvd.intro _ rfl)
    rw [leBytes, leBytes, low, size, Nat.mod_mul_right_div_self, ih]

theorem leBytes_4 (w : Word) : leBytes 4 w.toNat = wordBytes w := by
  simp [leBytes, wordBytes, Nat.div_div_eq_div_mul]

theorem leBytes_2 (w : Word) : leBytes 2 w.toNat = [w.extractLsb' 0 8, w.extractLsb' 8 8] := by
  simp [leBytes, BitVec.extractLsb', Nat.shiftRight_eq_div_pow]

theorem leBytes_1 (w : Word) : leBytes 1 w.toNat = [w.extractLsb' 0 8] := by
  simp [leBytes, BitVec.extractLsb']

/-- The bytes a byte enable selects are all that a merge takes. -/
theorem mergeBytes_congr {old v w be : Nat} (same : ∀ i, bit be i = true → slice v (8 * i) 8 = slice w (8 * i) 8) :
    mergeBytes old v be = mergeBytes old w be := by
  have step : (fun o i => if bit be i then setSlice o (8 * i) 8 (slice v (8 * i) 8) else o)
      = fun o i => if bit be i then setSlice o (8 * i) 8 (slice w (8 * i) 8) else o := by
    funext o i
    split
    next enabled => rw [same i enabled]
    next => rfl
  rw [mergeBytes, mergeBytes, step]

/-- Bytes shifted into place, those above them cut or not: the enabled ones are the same. -/
theorem mergeBytes_mod (old m v k : Nat) :
    mergeBytes old (W (v % 2 ^ (8 * m) * 2 ^ (8 * k))).toNat ((2 ^ m - 1) * 2 ^ k)
      = mergeBytes old (W (v * 2 ^ (8 * k))).toNat ((2 ^ m - 1) * 2 ^ k) := by
  refine mergeBytes_congr fun i enabled => Nat.eq_of_testBit_eq fun j => ?_
  rw [bit_eq_testBit, Nat.testBit_mul_two_pow, Nat.testBit_two_pow_sub_one] at enabled
  simp only [Bool.and_eq_true, decide_eq_true_eq] at enabled
  rw [testBit_slice, testBit_slice, W, W, BitVec.toNat_ofNat, BitVec.toNat_ofNat, Nat.testBit_mod_two_pow,
    Nat.testBit_mod_two_pow, Nat.testBit_mul_two_pow, Nat.testBit_mul_two_pow, Nat.testBit_mod_two_pow]
  by_cases low : j < 8
  · have cut : 8 * i + j - 8 * k < 8 * m := by omega
    simp [cut]
  · simp [low]

/-! ### Writes of some bytes of a register -/

section
variable (h : Hub) {v x : Word} {be : Nat}

theorem Hub.plain_congr (a : Nat) (same : ∀ old, mergeBytes old v.toNat be = mergeBytes old x.toNat be) :
    h.plain a v be = h.plain a x be := by
  have field : ∀ old, writeField old v.toNat be = writeField old x.toNat be := fun old => by
    funext w f
    simp only [writeField, same]
  unfold Hub.plain
  simp only [field]

/-- A write through its enabled bytes: the word enters a slot's rules as what the bytes make of it, or as a plain write. -/
theorem Hub.regWrite_congr (a : Nat) (same : ∀ old, mergeBytes old v.toNat be = mergeBytes old x.toNat be) :
    h.regWrite a x be = { h.regWrite a v be with v := x } := by
  simp only [Hub.regWrite, same]

section
variable {w : RegWrite} (same : ∀ g : Hub, g.plainW { w with v := x } = g.plainW w)
include same

theorem Hub.plainBut_congr (fs : List RF) : h.plainBut { w with v := x } fs = h.plainBut w fs := by
  rw [Hub.plainBut, same, Hub.plainBut]

theorem Hub.writeDev_congr (cls : Nat) : h.writeDev cls { w with v := x } = h.writeDev cls w := by
  simp only [Hub.writeDev, same]

theorem Hub.writeClk_congr : h.writeClk { w with v := x } = h.writeClk w := by
  simp only [Hub.writeClk, same]

theorem Hub.writeTime_congr : h.writeTime { w with v := x } = h.writeTime w := by
  simp only [Hub.writeTime, Hub.evoCtrl, same, Hub.plainBut_congr _ same]

theorem Hub.writeErr_congr (cls : Nat) : h.writeErr cls { w with v := x } = h.writeErr cls w := by
  simp only [Hub.writeErr, same]

theorem Hub.writeAcc_congr : h.writeAcc { w with v := x } = h.writeAcc w := by
  simp only [Hub.writeAcc, same]

theorem Hub.writeBrg_congr : h.writeBrg { w with v := x } = h.writeBrg w := by
  simp only [Hub.writeBrg, same]

theorem Hub.writePwrs_congr (cls : Nat) : h.writePwrs cls { w with v := x } = h.writePwrs cls w := by
  simp only [Hub.writePwrs, same]

theorem Hub.writeSec_congr (cls : Nat) : h.writeSec cls { w with v := x } = h.writeSec cls w := by
  simp only [Hub.writeSec, same]

theorem Hub.writeCoop_congr : h.writeCoop { w with v := x } = h.writeCoop w := by
  simp only [Hub.writeCoop, same]

theorem Hub.writeJrn_congr : h.writeJrn { w with v := x } = h.writeJrn w := by
  simp only [Hub.writeJrn, same]

theorem Hub.writeFab_congr : h.writeFab { w with v := x } = h.writeFab w := by
  simp only [Hub.writeFab, same]

theorem Hub.writePol_congr : h.writePol { w with v := x } = h.writePol w := by
  simp only [Hub.writePol, same]

theorem Hub.writeSch_congr : h.writeSch { w with v := x } = h.writeSch w := by
  simp only [Hub.writeSch, same]

theorem Hub.writeTunc_congr : h.writeTunc { w with v := x } = h.writeTunc w := by
  simp only [Hub.writeTunc, same]

theorem Hub.writeLnk_congr (p : Port) : h.writeLnk p { w with v := x } = h.writeLnk p w := by
  simp only [Hub.writeLnk, Hub.lnkCtrl, Hub.lnkPattern, Hub.lnkLowPower, same, Hub.plainBut_congr _ same]

theorem Hub.writeCc_congr (p : Port) : h.writeCc p { w with v := x } = h.writeCc p w := by
  simp only [Hub.writeCc, same]

theorem Hub.writeLoad_congr : h.writeLoad { w with v := x } = h.writeLoad w := by
  simp only [Hub.writeLoad, Hub.loadCtrl, same, Hub.plainBut_congr _ same]

theorem Hub.writeDsp_congr (d : Nat) : h.writeDsp d { w with v := x } = h.writeDsp d w := by
  simp only [Hub.writeDsp, Hub.dspCtrl, same, Hub.plainBut_congr _ same]

theorem Hub.writeEth_congr (k : Nat) : h.writeEth k { w with v := x } = h.writeEth k w := by
  simp only [Hub.writeEth, same, Hub.plainBut_congr _ same]

theorem Hub.writePtp_congr : h.writePtp { w with v := x } = h.writePtp w := by
  simp only [Hub.writePtp, same]

theorem Hub.writeSer_congr : h.writeSer { w with v := x } = h.writeSer w := by
  simp only [Hub.writeSer, same]

theorem Hub.writeUsb_congr : h.writeUsb { w with v := x } = h.writeUsb w := by
  simp only [Hub.writeUsb, Hub.usbCtrl, same, Hub.plainBut_congr _ same]

theorem Hub.writeEmmc_congr : h.writeEmmc { w with v := x } = h.writeEmmc w := by
  simp only [Hub.writeEmmc, same]

end

/-- A register takes of a written word the bytes that are enabled (R11). -/
theorem Hub.writeReg_congr (cls a : Nat) (same : ∀ old, mergeBytes old v.toNat be = mergeBytes old x.toNat be) :
    h.writeReg cls a x be = h.writeReg cls a v be := by
  have plain : ∀ g : Hub, g.plainW { h.regWrite (linkAlias a) v be with v := x } = g.plainW (h.regWrite (linkAlias a) v be) :=
    fun g => (Hub.plain_congr g _ same).symm
  rw [Hub.writeReg, Hub.writeReg, Hub.regWrite_congr h _ same]
  simp only [plain, Hub.writeDev_congr _ plain, Hub.writeClk_congr _ plain, Hub.writeTime_congr _ plain,
    Hub.writeErr_congr _ plain, Hub.writeAcc_congr _ plain, Hub.writeBrg_congr _ plain, Hub.writePwrs_congr _ plain,
    Hub.writeSec_congr _ plain, Hub.writeCoop_congr _ plain, Hub.writeJrn_congr _ plain, Hub.writeFab_congr _ plain,
    Hub.writePol_congr _ plain, Hub.writeSch_congr _ plain, Hub.writeTunc_congr _ plain, Hub.writeLnk_congr _ plain,
    Hub.writeCc_congr _ plain, Hub.writeLoad_congr _ plain, Hub.writeDsp_congr _ plain, Hub.writeEth_congr _ plain,
    Hub.writePtp_congr _ plain, Hub.writeSer_congr _ plain, Hub.writeUsb_congr _ plain, Hub.writeEmmc_congr _ plain]

end

end Sys2Proof.Machine
end

section
/-! SUPPORT. Reads and writes on the bus, and what they leave of the context that makes them (O27); the spaces of R196. -/

open Sys2Proof Sys2Proof.Machine

namespace Sys2Proof.Machine

/-! ### Writes on the bus -/

/-- A write of `m` bytes takes the low ones of its number. -/
theorem Hub.busWriteWord_mod (h : Hub) (cls a m v : Nat) :
    h.busWriteWord cls a m (v % 2 ^ (8 * m)) = h.busWriteWord cls a m v := by
  unfold Hub.busWriteWord
  split
  · exact Hub.writeReg_congr _ _ _ fun old => (mergeBytes_mod old m v (a % 4)).symm
  · rw [leBytes_mod]

/-! ### What reads leave of a context -/

section
variable {h g : Hub} {n : Nat}

theorem Hub.samePlace_of_parts (regs : g.regs = h.regs) (tun : g.tun = h.tun) : Hub.SamePlace n h g :=
  Hub.samePlace_of_fields (fun f _ => by rw [Hub.get, Hub.rd, regs]; rfl) (by rw [Hub.ctx, tun]; rfl)

theorem Hub.alike_correctWord (up : h.pw.steep = false) (w : Nat) : h.Alike [] [.regs, .err, .fab] (h.correctWord w) := by
  have soft := Hub.alike_onFab h fun f => { f with soft := f.soft.filter (· != w) }
  unfold Hub.correctWord; dsimp only
  split_ifs
  · exact soft.mono.trans (Hub.logOnly_logLim ((soft.pw (by simp)).symm ▸ up) ..).mono
  · exact soft.mono
  · exact soft.mono.trans (Hub.logOnly_log ((soft.pw (by simp)).symm ▸ up) ..).mono

theorem Hub.alike_corrected (up : h.pw.steep = false) (a m : Nat) : h.Alike [] [.regs, .err, .fab] (h.corrected a m) :=
  List.foldlRecOn (motive := fun g => h.Alike [] [.regs, .err, .fab] g) _ Hub.correctWord (.refl ..)
    fun _ made w _ => made.trans (Hub.alike_correctWord ((made.pw (by simp)).symm ▸ up) w)

theorem Hub.samePlace_corrected (up : h.pw.steep = false) (a m : Nat) : Hub.SamePlace n h (h.corrected a m) :=
  (Hub.alike_corrected up a m).samePlace

@[simp] theorem Hub.corrected_ctx (h : Hub) (a m k : Nat) : (h.corrected a m).ctx k = h.ctx k := by
  have tun := Hub.tun_of_offTun (Hub.corrected_blot (S := offTun) h a m (by simp) (by simp) (by simp) (by simp))
  rw [Hub.ctx, tun, Hub.ctx]

theorem Hub.deny_ctx (h : Hub) (cls a info k : Nat) : (h.deny cls a info).ctx k = h.ctx k := by
  have tun := Hub.tun_of_offTun (Hub.deny_blot (S := offTun) h cls a info (by simp) (by simp) (by simp))
  rw [Hub.ctx, tun, Hub.ctx]

theorem Hub.samePlace_readReg (h : Hub) (n a : Nat) : Hub.SamePlace n h (h.readReg a).1 := by
  have err : ∀ off b, Hub.SamePlace n h (h.readErr off b).1 := fun off b => by
    unfold Hub.readErr; split
    · exact .refl n h
    · exact (Hub.logOnly_expireHandling h).samePlace
  have qmon : ∀ depth mean, Hub.SamePlace n h (h.qmonRead depth mean) := fun depth mean => by
    unfold Hub.qmonRead; split
    · exact .refl n h
    · dsimp only; split <;> exact Hub.samePlace_of_parts rfl rfl
  have time : ∀ off b, Hub.SamePlace n h (h.readTime off b).1 := fun off b => by
    unfold Hub.readTime; split_ifs <;> exact Hub.samePlace_of_parts rfl rfl
  have fab : ∀ off b, Hub.SamePlace n h (h.readFab off b).1 := fun off b => by
    unfold Hub.readFab; split_ifs <;> exact Hub.samePlace_of_parts rfl rfl
  have pol : ∀ off b, Hub.SamePlace n h (h.readPol off b).1 := fun off b => by
    unfold Hub.readPol; dsimp only; split
    · exact .refl n h
    · split <;> exact Hub.samePlace_of_parts rfl rfl
  have sch : ∀ off b, Hub.SamePlace n h (h.readSch off b).1 := fun off b => by
    unfold Hub.readSch; split
    case h_7 | h_8 | h_10 | h_11 => exact qmon ..
    all_goals exact .refl n h
  have link : ∀ p off b, Hub.SamePlace n h (h.readLnk p off b).1 := fun p off b => by
    unfold Hub.readLnk; dsimp only; split <;> exact Hub.samePlace_of_parts rfl rfl
  have dsp : ∀ d off b, Hub.SamePlace n h (h.readDsp d off b).1 := fun d off b => by
    unfold Hub.readDsp; split <;> exact Hub.samePlace_of_parts rfl rfl
  unfold Hub.readReg; dsimp only; split
  case h_3 => exact time ..
  case h_4 => exact err ..
  case h_8 => exact fab ..
  case h_9 => exact pol ..
  case h_10 => exact sch ..
  case h_12 | h_13 | h_14 => exact link ..
  case h_15 | h_16 => exact dsp ..
  all_goals (try split_ifs) <;> exact Hub.samePlace_of_parts rfl rfl

theorem Hub.samePlace_busRead (up : h.pw.steep = false) (n a m : Nat) : Hub.SamePlace n h (h.busRead a m).1 := by
  unfold Hub.busRead; split_ifs
  · exact h.samePlace_readReg n _
  · exact .refl n h
  · exact Hub.samePlace_corrected up a m

/-! ### Spaces (R196) -/

theorem spaceOf_data {ea : Nat} (low : ea < 0x10000) : spaceOf ea = .data := if_pos low

theorem spaceOf_common {ea : Nat} (from_ : 0x100000 ≤ ea) (below : ea < 0x180000) : spaceOf ea = .common := by
  rw [spaceOf, if_neg (by omega), if_pos ⟨from_, below⟩]

theorem spaceOf_window {ea : Nat} (from_ : 0x1000000 ≤ ea) (below : ea < 0x2000000) : spaceOf ea = .window := by
  rw [spaceOf, if_neg (by omega), if_neg (by omega), if_pos ⟨from_, below⟩]

/-! ### Loads by space (R196–R198, R228) -/

section
variable {ea a m v info : Nat} {e : Exit}

theorem Hub.memLoad_outside (out : spaceOf ea = .outside) : h.memLoad n ea m = (h, .error (.trap trAddr ea)) := by
  rw [Hub.memLoad, out]

theorem Hub.memLoad_misaligned (in_ : spaceOf ea ≠ .outside) (off : ea % m ≠ 0) :
    h.memLoad n ea m = (h, .error (.trap trAlign ea)) := by
  unfold Hub.memLoad
  split
  · contradiction
  all_goals exact if_pos off

theorem Hub.memLoad_bound (low : ea < 0x10000) (aligned : ea % m = 0) (out : h.inData n ea m = false) :
    h.memLoad n ea m = (h, .error (.trap trDataBound ea)) := by
  rw [Hub.memLoad, spaceOf_data low]
  simp [aligned, out]

theorem Hub.memLoad_data (low : ea < 0x10000) (aligned : ea % m = 0) (inside : h.inData n ea m = true) :
    h.memLoad n ea m = h.dataLoad ea (dataBase (n / 12) + ea) m := by
  rw [Hub.memLoad, spaceOf_data low]
  simp [aligned, inside]

theorem Hub.memLoad_common (from_ : 0x100000 ≤ ea) (below : ea < 0x180000) (aligned : ea % m = 0)
    (ok : h.access 2 .read (ea + 0x200000) = (h, .ok)) : h.memLoad n ea m = h.dataLoad ea (ea + 0x200000) m := by
  rw [Hub.memLoad, spaceOf_common from_ below]
  simp [aligned, ok]

theorem Hub.memLoad_common_refused (from_ : 0x100000 ≤ ea) (below : ea < 0x180000) (aligned : ea % m = 0)
    (refused : h.access 2 .read (ea + 0x200000) = (g, .refused)) : h.memLoad n ea m = (g, .error (.trap trAccess ea)) := by
  rw [Hub.memLoad, spaceOf_common from_ below]
  simp [aligned, refused, AccRes.exit]

theorem Hub.memLoad_window (from_ : 0x1000000 ≤ ea) (below : ea < 0x2000000) (aligned : ea % m = 0) :
    h.memLoad n ea m = h.winLoad n ea m := by
  rw [Hub.memLoad, spaceOf_window from_ below]
  simp [aligned]

/-! ### Stores by space (R196–R198, R228) -/

theorem Hub.storeTo_outside (out : spaceOf ea = .outside) : h.storeTo n ea m v = (h, .trap trAddr ea) := by
  rw [Hub.storeTo, out]

theorem Hub.storeTo_misaligned (in_ : spaceOf ea ≠ .outside) (off : ea % m ≠ 0) :
    h.storeTo n ea m v = (h, .trap trAlign ea) := by
  unfold Hub.storeTo
  split
  · contradiction
  all_goals exact if_pos off

theorem Hub.storeTo_bound (low : ea < 0x10000) (aligned : ea % m = 0) (out : h.inData n ea m = false) :
    h.storeTo n ea m v = (h, .trap trDataBound ea) := by
  rw [Hub.storeTo, spaceOf_data low]
  simp [aligned, out]

theorem Hub.storeTo_data (low : ea < 0x10000) (aligned : ea % m = 0) (inside : h.inData n ea m = true)
    (free : h.rangeHeld (dataBase (n / 12) + ea) m = false) :
    h.storeTo n ea m v = (h.mstore (dataBase (n / 12) + ea) (leBytes m v), .next) := by
  rw [Hub.storeTo, spaceOf_data low]
  simp [aligned, inside, free]

theorem Hub.storeTo_data_held (low : ea < 0x10000) (aligned : ea % m = 0) (inside : h.inData n ea m = true)
    (held : h.rangeHeld (dataBase (n / 12) + ea) m = true) : h.storeTo n ea m v = (h, .stall) := by
  rw [Hub.storeTo, spaceOf_data low]
  simp [aligned, inside, held]

theorem Hub.storeTo_common (from_ : 0x100000 ≤ ea) (below : ea < 0x180000) (aligned : ea % m = 0)
    (ok : h.access 2 .write (ea + 0x200000) = (h, .ok)) (free : h.rangeHeld (ea + 0x200000) m = false) :
    h.storeTo n ea m v = (h.mstore (ea + 0x200000) (leBytes m v), .next) := by
  rw [Hub.storeTo, spaceOf_common from_ below]
  simp [aligned, ok, free]

theorem Hub.storeTo_common_held (from_ : 0x100000 ≤ ea) (below : ea < 0x180000) (aligned : ea % m = 0)
    (ok : h.access 2 .write (ea + 0x200000) = (h, .ok)) (held : h.rangeHeld (ea + 0x200000) m = true) :
    h.storeTo n ea m v = (h, .stall) := by
  rw [Hub.storeTo, spaceOf_common from_ below]
  simp [aligned, ok, held]

theorem Hub.storeTo_common_refused (from_ : 0x100000 ≤ ea) (below : ea < 0x180000) (aligned : ea % m = 0)
    (refused : h.access 2 .write (ea + 0x200000) = (g, .refused)) : h.storeTo n ea m v = (g, .trap trAccess ea) := by
  rw [Hub.storeTo, spaceOf_common from_ below]
  simp [aligned, refused, AccRes.exit]

theorem Hub.storeTo_window (from_ : 0x1000000 ≤ ea) (below : ea < 0x2000000) (aligned : ea % m = 0) :
    h.storeTo n ea m v = h.winStore n ea m v := by
  rw [Hub.storeTo, spaceOf_window from_ below]
  simp [aligned]

end

/-! ### Accesses (R395–R397) -/

section
variable {k : AccKind} {a : Nat}

theorem Hub.access_of_ok {c r : Bool} (ok : h.decide_ 2 k a = .ok c r) : h.access 2 k a = (h, .ok) := by rw [Hub.access, ok]

theorem Hub.access_of_error (error : h.decide_ 2 k a = .error) : h.access 2 k a = (h, .error) := by rw [Hub.access, error]

theorem Hub.access_of_refused {info : Nat} (refused : h.decide_ 2 k a = .refused info) :
    h.access 2 k a = (h.deny 2 a info, .refused) := by rw [Hub.access, refused]

end

end

end Sys2Proof.Machine
end

section
/-! SUPPORT. Loads and stores as they issue (O27): the register window, memory, the traps, the values and the bytes. -/

open Sys2Proof Sys2Proof.Machine

namespace Sys2Proof.Machine

section
variable {h g t : Hub} {n ea m v : Nat}

/-! ### The register window (R196, R242–R244) -/

@[simp] theorem Hub.winDone_pc (h : Hub) (n : Nat) : ((h.winDone n).ctx n).pc = (h.ctx n).pc := by
  rw [Hub.winDone, Hub.ctx_setCtx_self]

theorem Hub.samePlace_winDone (h : Hub) (n : Nat) : Hub.SamePlace n h (h.winDone n) := Hub.samePlace_setCtx rfl

/-- A load through the window, by its internal address. -/
def Hub.winLoadAt (h : Hub) (n ea a m : Nat) : Hub × Except Exit Nat :=
  match h.access 2 .read a with
  | (h, .ok) =>
    match h.busRead a m with
    | (h, some v) => (h.winDone n, .ok v)
    | (h, none) => (h.winDone n, .error (.trap trEcc ea))
  | (h, .held) => (h.winPend n ⟨n, a, m, none⟩, .error .stall)
  | (h, r) => (h.winDone n, .error (r.exit ea))

/-- A store through the window, by its internal address. -/
def Hub.winStoreAt (h : Hub) (n ea a m v : Nat) : Hub × Exit :=
  match h.access 2 .write a with
  | (h, .ok) =>
    if h.rangeHeld a m then (h.winPend n ⟨n, a, m, some v⟩, .stall) else ((h.winDone n).busWriteWord 2 a m v, .next)
  | (h, .held) => (h.winPend n ⟨n, a, m, some v⟩, .stall)
  | (h, r) => (h.winDone n, r.exit ea)

section
variable {a : Nat} (at_ : a = ea - 0x1000000)
include at_

/-- The definition is unfolded as a function, before it meets its arguments: the kernel would evaluate the subtraction of a
literal of this size step by step. -/
theorem Hub.winLoad_eq : h.winLoad n ea m = h.winLoadAt n ea a m := by
  suffices all : ∀ f, f = @Hub.winLoad → f h n ea m = h.winLoadAt n ea a m from all _ rfl
  intro f unfolded
  delta Hub.winLoad at unfolded
  subst unfolded
  beta_reduce
  rw [← at_]
  rfl

theorem Hub.winStore_eq : h.winStore n ea m v = h.winStoreAt n ea a m v := by
  suffices all : ∀ f, f = @Hub.winStore → f h n ea m v = h.winStoreAt n ea a m v from all _ rfl
  intro f unfolded
  delta Hub.winStore at unfolded
  subst unfolded
  beta_reduce
  rw [← at_]
  rfl

theorem Hub.winLoad_value (ok : h.access 2 .read a = (h, .ok)) (read : h.busRead a m = (t, some v)) :
    h.winLoad n ea m = (t.winDone n, .ok v) := by
  simp only [Hub.winLoad_eq at_, Hub.winLoadAt, ok, read]

theorem Hub.winLoad_wrong (ok : h.access 2 .read a = (h, .ok)) (read : h.busRead a m = (t, none)) :
    h.winLoad n ea m = (t.winDone n, .error (.trap trEcc ea)) := by
  simp only [Hub.winLoad_eq at_, Hub.winLoadAt, ok, read]

theorem Hub.winLoad_refused (refused : h.access 2 .read a = (g, .refused)) :
    h.winLoad n ea m = (g.winDone n, .error (.trap trAccess ea)) := by
  simp [Hub.winLoad_eq at_, Hub.winLoadAt, refused, AccRes.exit]

theorem Hub.winStore_free (ok : h.access 2 .write a = (h, .ok)) (free : h.rangeHeld a m = false) :
    h.winStore n ea m v = ((h.winDone n).busWriteWord 2 a m v, .next) := by
  simp [Hub.winStore_eq at_, Hub.winStoreAt, ok, free]

theorem Hub.winStore_held (ok : h.access 2 .write a = (h, .ok)) (held : h.rangeHeld a m = true) :
    h.winStore n ea m v = (h.winPend n ⟨n, a, m, some v⟩, .stall) := by
  simp [Hub.winStore_eq at_, Hub.winStoreAt, ok, held]

theorem Hub.winStore_error (error : h.access 2 .write a = (h, .error)) :
    h.winStore n ea m v = (h.winDone n, .trap trAccess ea) := by
  simp [Hub.winStore_eq at_, Hub.winStoreAt, error, AccRes.exit]

end

/-! ### Memory -/

theorem Hub.dataLoad_value {a : Nat} (good : h.badRange a m = false) :
    h.dataLoad ea a m = (h.corrected a m, .ok (leNat (h.mbytes a m))) := by
  simp [Hub.dataLoad, good]

theorem Hub.dataLoad_wrong {a : Nat} (bad : h.badRange a m = true) : h.dataLoad ea a m = (h, .error (.trap trEcc ea)) := by
  simp [Hub.dataLoad, bad]

theorem Hub.mstore_regs (h : Hub) (a : Nat) (bs : List Byte) : (h.mstore a bs).regs = h.regs :=
  Hub.regs_of_blot (S := [.mem]) (by simp) (Hub.mstore_blot _ _ _ (by simp))

theorem Hub.mstore_tun (h : Hub) (a : Nat) (bs : List Byte) : (h.mstore a bs).tun = h.tun :=
  Hub.tun_of_offTun (by simp)

end

theorem W_mbytes_4 (h : Hub) (a : Nat) :
    W (leNat (h.mbytes a 4)) = h.mrd (a + 3) ++ h.mrd (a + 2) ++ h.mrd (a + 1) ++ h.mrd a := W_leNat_4 ..

theorem W_mbytes_2 (h : Hub) (a : Nat) : W (leNat (h.mbytes a 2)) = (h.mrd (a + 1) ++ h.mrd a).zeroExtend 32 := W_leNat_2 ..

theorem W_mbytes_1 (h : Hub) (a : Nat) : W (leNat (h.mbytes a 1)) = (h.mrd a).zeroExtend 32 := W_leNat_1 _

/-! ### Loads and stores as they issue -/

section
variable {h g t : Hub} {n gd ga ea a m v info : Nat} {imm : BitVec 18} {c r : Bool}
  (can : h.canIssue n = true) (addr : ea = h.effAddr n ga imm)
include can addr

theorem Hub.iLoad_trap {cause x : Nat} (load : h.memLoad n ea m = (g, .error (.trap cause x)))
    (pc : (g.ctx n).pc = (h.ctx n).pc) : h.iLoad n gd ga imm m = (g.issued n).trap n cause (h.ctx n).pc x :=
  Hub.issue_trap can (by rw [← addr, load]) pc

theorem Hub.iStore_trap {cause x : Nat} (store : h.storeTo n ea m ((h.gpr n gd).toNat % 2 ^ (8 * m)) = (g, .trap cause x))
    (pc : (g.ctx n).pc = (h.ctx n).pc) : h.iStore n gd ga imm m = (g.issued n).trap n cause (h.ctx n).pc x :=
  Hub.issue_trap can (by rw [← addr, store]) pc

theorem Hub.iStore_stall (store : h.storeTo n ea m ((h.gpr n gd).toNat % 2 ^ (8 * m)) = (g, .stall)) :
    h.iStore n gd ga imm m = g := Hub.issue_stall can (by rw [← addr, store])

/-! ### Traps -/

theorem Hub.iLoad_outside (out : spaceOf ea = .outside) :
    h.iLoad n gd ga imm m = (h.issued n).trap n trAddr (h.ctx n).pc ea :=
  Hub.iLoad_trap can addr (Hub.memLoad_outside out) rfl

theorem Hub.iStore_outside (out : spaceOf ea = .outside) :
    h.iStore n gd ga imm m = (h.issued n).trap n trAddr (h.ctx n).pc ea :=
  Hub.iStore_trap can addr (Hub.storeTo_outside out) rfl

theorem Hub.iLoad_misaligned (in_ : spaceOf ea ≠ .outside) (off : ea % m ≠ 0) :
    h.iLoad n gd ga imm m = (h.issued n).trap n trAlign (h.ctx n).pc ea :=
  Hub.iLoad_trap can addr (Hub.memLoad_misaligned in_ off) rfl

theorem Hub.iStore_misaligned (in_ : spaceOf ea ≠ .outside) (off : ea % m ≠ 0) :
    h.iStore n gd ga imm m = (h.issued n).trap n trAlign (h.ctx n).pc ea :=
  Hub.iStore_trap can addr (Hub.storeTo_misaligned in_ off) rfl

section
variable (aligned : ea % m = 0)
include aligned

theorem Hub.iLoad_bound (low : ea < 0x10000) (out : h.inData n ea m = false) :
    h.iLoad n gd ga imm m = (h.issued n).trap n trDataBound (h.ctx n).pc ea :=
  Hub.iLoad_trap can addr (Hub.memLoad_bound low aligned out) rfl

theorem Hub.iStore_bound (low : ea < 0x10000) (out : h.inData n ea m = false) :
    h.iStore n gd ga imm m = (h.issued n).trap n trDataBound (h.ctx n).pc ea :=
  Hub.iStore_trap can addr (Hub.storeTo_bound low aligned out) rfl

theorem Hub.iLoad_data_wrong (low : ea < 0x10000) (within : h.inData n ea m = true)
    (bad : h.badRange (dataBase (n / 12) + ea) m = true) :
    h.iLoad n gd ga imm m = (h.issued n).trap n trEcc (h.ctx n).pc ea :=
  Hub.iLoad_trap can addr ((Hub.memLoad_data low aligned within).trans (Hub.dataLoad_wrong bad)) rfl

theorem Hub.iStore_data_held (low : ea < 0x10000) (within : h.inData n ea m = true)
    (held : h.rangeHeld (dataBase (n / 12) + ea) m = true) : h.iStore n gd ga imm m = h :=
  Hub.iStore_stall can addr (Hub.storeTo_data_held low aligned within held)

section
variable (from_ : 0x100000 ≤ ea) (below : ea < 0x180000) (at_ : a = ea + 0x200000)
include from_ below at_

theorem Hub.iLoad_common_wrong (ok : h.decide_ 2 .read a = .ok c r) (bad : h.badRange a m = true) :
    h.iLoad n gd ga imm m = (h.issued n).trap n trEcc (h.ctx n).pc ea := by
  subst at_
  exact Hub.iLoad_trap can addr
    ((Hub.memLoad_common from_ below aligned (Hub.access_of_ok ok)).trans (Hub.dataLoad_wrong bad)) rfl

theorem Hub.iLoad_common_refused (refused : h.decide_ 2 .read a = .refused info) :
    h.iLoad n gd ga imm m = ((h.deny 2 a info).issued n).trap n trAccess (h.ctx n).pc ea := by
  subst at_
  exact Hub.iLoad_trap can addr (Hub.memLoad_common_refused from_ below aligned (Hub.access_of_refused refused))
    (by rw [Hub.deny_ctx])

theorem Hub.iStore_common_refused (refused : h.decide_ 2 .write a = .refused info) :
    h.iStore n gd ga imm m = ((h.deny 2 a info).issued n).trap n trAccess (h.ctx n).pc ea := by
  subst at_
  exact Hub.iStore_trap can addr (Hub.storeTo_common_refused from_ below aligned (Hub.access_of_refused refused))
    (by rw [Hub.deny_ctx])

theorem Hub.iStore_common_held (ok : h.decide_ 2 .write a = .ok c r) (held : h.rangeHeld a m = true) :
    h.iStore n gd ga imm m = h := by
  subst at_
  exact Hub.iStore_stall can addr (Hub.storeTo_common_held from_ below aligned (Hub.access_of_ok ok) held)

end

section
variable (from_ : 0x1000000 ≤ ea) (below : ea < 0x2000000) (at_ : a = ea - 0x1000000)
include from_ below at_

theorem Hub.iLoad_window_wrong (ok : h.decide_ 2 .read a = .ok c r) (read : h.busRead a m = (h, none)) :
    h.iLoad n gd ga imm m = ((h.winDone n).issued n).trap n trEcc (h.ctx n).pc ea :=
  Hub.iLoad_trap can addr
    ((Hub.memLoad_window from_ below aligned).trans (Hub.winLoad_wrong at_ (Hub.access_of_ok ok) read)) (by simp)

theorem Hub.iLoad_window_refused (refused : h.decide_ 2 .read a = .refused info) :
    h.iLoad n gd ga imm m = (((h.deny 2 a info).winDone n).issued n).trap n trAccess (h.ctx n).pc ea :=
  Hub.iLoad_trap can addr
    ((Hub.memLoad_window from_ below aligned).trans (Hub.winLoad_refused at_ (Hub.access_of_refused refused)))
    (by rw [Hub.winDone_pc, Hub.deny_ctx])

theorem Hub.iStore_window_error (error : h.decide_ 2 .write a = .error) :
    h.iStore n gd ga imm m = ((h.winDone n).issued n).trap n trAccess (h.ctx n).pc ea :=
  Hub.iStore_trap can addr
    ((Hub.storeTo_window from_ below aligned).trans (Hub.winStore_error at_ (Hub.access_of_error error))) (by simp)

theorem Hub.iStore_window_held (ok : h.decide_ 2 .write a = .ok c r) (held : h.rangeHeld a m = true) :
    h.iStore n gd ga imm m = h.winPend n ⟨n, a, m, some ((h.gpr n gd).toNat % 2 ^ (8 * m))⟩ :=
  Hub.iStore_stall can addr
    ((Hub.storeTo_window from_ below aligned).trans (Hub.winStore_held at_ (Hub.access_of_ok ok) held))

omit can in
/-- What a store through the window leaves before its context goes on. -/
theorem Hub.storeTo_window_free (ok : h.decide_ 2 .write a = .ok c r) (free : h.rangeHeld a m = false)
    (is : t = (h.winDone n).busWriteWord 2 a m (h.gpr n gd).toNat) :
    h.storeTo n (h.effAddr n ga imm) m ((h.gpr n gd).toNat % 2 ^ (8 * m)) = (t, .next) := by
  rw [← addr, Hub.storeTo_window from_ below aligned, Hub.winStore_free at_ (Hub.access_of_ok ok) free,
    Hub.busWriteWord_mod, is]

/-- A store through the window after which its context still runs. -/
theorem Hub.iStore_window_runs (lt : n < 96) (ok : h.decide_ 2 .write a = .ok c r) (free : h.rangeHeld a m = false)
    (is : t = (h.winDone n).busWriteWord 2 a m (h.gpr n gd).toNat) (run : t.ctxState n = cxRunning)
    (goes : t.inCode n ((t.ctx n).pc + 1) = true) : h.iStore n gd ga imm m = t.finish n := by
  have stays : Hub.StaysAt n (h.winDone n) t := is ▸ Hub.staysAt_busWriteWord _ lt ..
  exact (Hub.issue_of_can can (Hub.storeTo_window_free addr aligned from_ below at_ ok free is) (by simp)
    ((stays.pc run).trans (Hub.winDone_pc h n))).trans (Hub.leave_next run goes)

/-- A store through the window after which its context does not run: it stays where it then is. -/
theorem Hub.iStore_window_idle (ok : h.decide_ 2 .write a = .ok c r) (free : h.rangeHeld a m = false)
    (is : t = (h.winDone n).busWriteWord 2 a m (h.gpr n gd).toNat) (idle : t.ctxState n ≠ cxRunning) :
    h.iStore n gd ga imm m = ((t.wr (A.TUNC_CTX_ISSUED n) (t.rd (A.TUNC_CTX_ISSUED n) + 1)).wr (A.TUNC_CTX_PC n)
      (W (h.ctx n).pc)).onSpare n := by
  have stored := Hub.storeTo_window_free addr aligned from_ below at_ ok free is
  refine (Hub.issue_counted (F := fun h => h.storeTo n (h.effAddr n ga imm) m ((h.gpr n gd).toNat % 2 ^ (8 * m))) can stored
    (by simp)).trans ?_
  rw [Hub.leave]
  refine if_neg fun run => idle ?_
  have counted : (((t.wr (A.TUNC_CTX_ISSUED n) (t.rd (A.TUNC_CTX_ISSUED n) + 1)).wr (A.TUNC_CTX_PC n)
      (W (h.ctx n).pc)).onSpare n).ctxState n = t.ctxState n :=
    (Hub.get_wr_of_ne _ _ _ _ (by show 0x3410c + 64 * n ≠ 0x34110 + 64 * n; omega)).trans
      (Hub.get_wr_of_ne _ _ _ _ (by show 0x3410c + 64 * n ≠ 0x34124 + 64 * n; omega))
  exact counted.symm.trans run

end

/-! ### Values and bytes -/

section
variable (inside : h.inCode n ((h.ctx n).pc + 1) = true)
include inside

omit aligned in
theorem Hub.iLoad_value (load : h.memLoad n ea m = (g, .ok v)) (same : Hub.SamePlace n h g) :
    h.iLoad n gd ga imm m = (g.setGpr n gd (W v)).finish n :=
  Hub.issue_next can inside (by rw [← addr, load]) (same.trans (Hub.samePlace_setGpr ..))

omit aligned in
theorem Hub.iLoad_mem (load : h.memLoad n ea m = h.dataLoad ea a m) (good : h.badRange a m = false) :
    h.iLoad n gd ga imm m = (h.corrected a m).retired n ((h.ctx n).setGpr gd (W (leNat (h.mbytes a m)))) := by
  obtain ⟨awake, -⟩ := Hub.canIssue_parts can
  obtain ⟨-, -, up, -⟩ := Hub.awake_parts awake
  rw [Hub.iLoad_value can addr inside (load.trans (Hub.dataLoad_value good)) (Hub.samePlace_corrected up a m),
    Hub.finish_setGpr, Hub.corrected_ctx]

omit aligned in
theorem Hub.iStore_mem (store : h.storeTo n ea m ((h.gpr n gd).toNat % 2 ^ (8 * m))
      = (h.mstore a (leBytes m ((h.gpr n gd).toNat % 2 ^ (8 * m))), .next)) :
    h.iStore n gd ga imm m = (h.mstore a (leBytes m (h.gpr n gd).toNat)).retired n (h.ctx n) := by
  rw [leBytes_mod] at store
  have tun := h.mstore_tun a (leBytes m (h.gpr n gd).toNat)
  exact (Hub.issue_next can inside (by rw [← addr, store]) (Hub.samePlace_of_parts (h.mstore_regs ..) tun)).trans
    (Hub.finish_eq_retired (by rw [Hub.ctx, tun, Hub.ctx]))

theorem Hub.iLoad_data (at_ : a = dataBase (n / 12) + ea) (low : ea < 0x10000) (within : h.inData n ea m = true)
    (good : h.badRange a m = false) :
    h.iLoad n gd ga imm m = (h.corrected a m).retired n ((h.ctx n).setGpr gd (W (leNat (h.mbytes a m)))) :=
  Hub.iLoad_mem can addr inside (at_ ▸ Hub.memLoad_data low aligned within) good

theorem Hub.iStore_data (at_ : a = dataBase (n / 12) + ea) (low : ea < 0x10000) (within : h.inData n ea m = true)
    (free : h.rangeHeld a m = false) :
    h.iStore n gd ga imm m = (h.mstore a (leBytes m (h.gpr n gd).toNat)).retired n (h.ctx n) := by
  subst at_
  exact Hub.iStore_mem can addr inside (Hub.storeTo_data low aligned within free)

theorem Hub.iLoad_common (from_ : 0x100000 ≤ ea) (below : ea < 0x180000) (at_ : a = ea + 0x200000)
    (ok : h.decide_ 2 .read a = .ok c r) (good : h.badRange a m = false) :
    h.iLoad n gd ga imm m = (h.corrected a m).retired n ((h.ctx n).setGpr gd (W (leNat (h.mbytes a m)))) := by
  subst at_
  exact Hub.iLoad_mem can addr inside (Hub.memLoad_common from_ below aligned (Hub.access_of_ok ok)) good

theorem Hub.iStore_common (from_ : 0x100000 ≤ ea) (below : ea < 0x180000) (at_ : a = ea + 0x200000)
    (ok : h.decide_ 2 .write a = .ok c r) (free : h.rangeHeld a m = false) :
    h.iStore n gd ga imm m = (h.mstore a (leBytes m (h.gpr n gd).toNat)).retired n (h.ctx n) := by
  subst at_
  exact Hub.iStore_mem can addr inside (Hub.storeTo_common from_ below aligned (Hub.access_of_ok ok) free)

theorem Hub.iLoad_window (from_ : 0x1000000 ≤ ea) (below : ea < 0x2000000) (at_ : a = ea - 0x1000000)
    (ok : h.decide_ 2 .read a = .ok c r) (read : h.busRead a m = (t, some v)) :
    h.iLoad n gd ga imm m = ((t.winDone n).setGpr n gd (W v)).finish n := by
  obtain ⟨awake, -⟩ := Hub.canIssue_parts can
  obtain ⟨-, -, up, -⟩ := Hub.awake_parts awake
  have place : Hub.SamePlace n h t := by simpa [read] using Hub.samePlace_busRead up n a m
  exact Hub.iLoad_value can addr inside
    ((Hub.memLoad_window from_ below aligned).trans (Hub.winLoad_value at_ (Hub.access_of_ok ok) read))
    (place.trans (Hub.samePlace_winDone t n))

end

end

end

end Sys2Proof.Machine
end

section
open Sys2Proof Sys2Proof.Machine
namespace Sys2Proof.Machine

/-- A register read as bytes: its word shifted down and cut (R242). -/
theorem Hub.busRead_register (h : Hub) {a : Nat} (m : Nat) (low : a < 0x100000) :
    h.busRead a m = ((h.readReg (a / 4 * 4)).1,
      some ((h.readReg (a / 4 * 4)).2.toNat / 2 ^ (8 * (a % 4)) % 2 ^ (8 * m))) := if_pos low

theorem Hub.mwr_eq_mstore (h : Hub) (a : Nat) (w : Word) :
    h.mwr a (w.extractLsb' 0 8) = h.mstore a (leBytes 1 w.toNat) := by
  rw [leBytes_1]; rfl

/-- A word has four bytes. -/
theorem word_cut (w : Word) : w.toNat % 2 ^ (8 * 4) = w.toNat := Nat.mod_eq_of_lt w.isLt

end Sys2Proof.Machine

/-- Settles O27: an access is issued, has the effect its space gives it, and leaves its context at its place. -/
theorem loadAndStoreInstructions : Obligations.LoadAndStoreInstructions := by
  unfold Obligations.LoadAndStoreInstructions
  intro h n gd ga imm ea a can inside addr
  refine ⟨?_, ?_, ?_, ?_, ?_, ?_, ?_, ?_, ?_, ?_, ?_, ?_, ?_, ?_, ?_, ?_, ?_, ?_, ?_, ?_, ?_, ?_, ?_, ?_, ?_, ?_,
    ?_, ?_, ?_, ?_, ?_, ?_, ?_, ?_, ?_, ?_, ?_, ?_, ?_, ?_, ?_⟩
  · intro at_ low aligned within good
    rw [← W_mbytes_4]
    exact runs_of_eq can (fun _ => rfl) (Hub.iLoad_data can addr aligned inside at_ low within good)
  · intro at_ low aligned within good
    rw [← W_mbytes_2]
    exact runs_of_eq can (fun _ => rfl) (Hub.iLoad_data can addr aligned inside at_ low within good)
  · intro at_ low within good
    rw [← W_mbytes_1]
    exact runs_of_eq can (fun _ => rfl) (Hub.iLoad_data can addr (Nat.mod_one ea) inside at_ low within good)
  · intro low aligned within bad
    exact runs_of_eq can (fun _ => rfl) (Hub.iLoad_data_wrong can addr aligned low within bad)
  · intro at_ low aligned within free
    rw [← leBytes_4]
    exact runs_of_eq can (fun _ => rfl) (Hub.iStore_data can addr aligned inside at_ low within free)
  · intro at_ low aligned within free
    rw [← leBytes_2]
    exact runs_of_eq can (fun _ => rfl) (Hub.iStore_data can addr aligned inside at_ low within free)
  · intro at_ low within free
    rw [Hub.mwr_eq_mstore]
    exact runs_of_eq can (fun _ => rfl) (Hub.iStore_data can addr (Nat.mod_one ea) inside at_ low within free)
  · intro _ at_ low aligned within held
    exact runs_of_eq can (fun _ => rfl) (Hub.iStore_data_held can addr aligned low within (at_ ▸ held))
  · intro c r from_ below aligned at_ ok good
    rw [← W_mbytes_4]
    exact runs_of_eq can (fun _ => rfl) (Hub.iLoad_common can addr aligned inside from_ below at_ ok good)
  · intro c r from_ below aligned at_ ok good
    rw [← W_mbytes_2]
    exact runs_of_eq can (fun _ => rfl) (Hub.iLoad_common can addr aligned inside from_ below at_ ok good)
  · intro c r from_ below at_ ok good
    rw [← W_mbytes_1]
    exact runs_of_eq can (fun _ => rfl) (Hub.iLoad_common can addr (Nat.mod_one ea) inside from_ below at_ ok good)
  · intro c r from_ below aligned at_ ok bad
    exact runs_of_eq can (fun _ => rfl) (Hub.iLoad_common_wrong can addr aligned from_ below at_ ok bad)
  · intro c r from_ below aligned at_ ok free
    rw [← leBytes_4]
    exact runs_of_eq can (fun _ => rfl) (Hub.iStore_common can addr aligned inside from_ below at_ ok free)
  · intro c r from_ below aligned at_ ok free
    rw [← leBytes_2]
    exact runs_of_eq can (fun _ => rfl) (Hub.iStore_common can addr aligned inside from_ below at_ ok free)
  · intro c r from_ below at_ ok free
    rw [Hub.mwr_eq_mstore]
    exact runs_of_eq can (fun _ => rfl) (Hub.iStore_common can addr (Nat.mod_one ea) inside from_ below at_ ok free)
  · intro c r from_ below aligned at_ ok held
    exact runs_of_eq can (fun _ => rfl) (Hub.iStore_common_held can addr aligned from_ below at_ ok held)
  · intro info from_ below aligned at_ refused
    exact runs_of_eq can (fun _ => rfl) (Hub.iLoad_common_refused can addr aligned from_ below at_ refused)
  · intro info from_ below aligned at_ refused
    exact runs_of_eq can (fun _ => rfl) (Hub.iLoad_common_refused can addr (by omega) from_ below at_ refused)
  · intro info from_ below _ at_ refused
    exact runs_of_eq can (fun _ => rfl) (Hub.iLoad_common_refused can addr (Nat.mod_one ea) from_ below at_ refused)
  · intro info from_ below aligned at_ refused
    exact runs_of_eq can (fun _ => rfl) (Hub.iStore_common_refused can addr aligned from_ below at_ refused)
  · intro info from_ below aligned at_ refused
    exact runs_of_eq can (fun _ => rfl) (Hub.iStore_common_refused can addr (by omega) from_ below at_ refused)
  · intro info from_ below _ at_ refused
    exact runs_of_eq can (fun _ => rfl) (Hub.iStore_common_refused can addr (Nat.mod_one ea) from_ below at_ refused)
  · intro c r t v from_ below aligned at_ ok read
    exact runs_of_eq can (fun _ => rfl) (Hub.iLoad_window can addr aligned inside from_ below at_ ok read)
  · intro c r t v from_ below aligned at_ ok read
    exact runs_of_eq can (fun _ => rfl) (Hub.iLoad_window can addr aligned inside from_ below at_ ok read)
  · intro c r t v from_ below at_ ok read
    exact runs_of_eq can (fun _ => rfl) (Hub.iLoad_window can addr (Nat.mod_one ea) inside from_ below at_ ok read)
  · intro m low _
    exact Hub.busRead_register h m low
  · intro c r from_ below aligned at_ ok read
    exact runs_of_eq can (fun _ => rfl) (Hub.iLoad_window_wrong can addr aligned from_ below at_ ok read)
  · intro c r t from_ below aligned at_ ok free is run goes
    exact runs_of_eq can (fun _ => rfl) (Hub.iStore_window_runs can addr aligned from_ below at_ n.isLt ok free is run goes)
  · intro c r t from_ below aligned at_ ok free is idle
    exact runs_of_eq can (fun _ => rfl) (Hub.iStore_window_idle can addr aligned from_ below at_ ok free is idle)
  · intro c r t from_ below aligned at_ ok free is run goes
    exact runs_of_eq can (fun _ => rfl) (Hub.iStore_window_runs can addr aligned from_ below at_ n.isLt ok free is run goes)
  · intro c r t from_ below at_ ok free is run goes
    exact runs_of_eq can (fun _ => rfl) (Hub.iStore_window_runs can addr (Nat.mod_one ea) from_ below at_ n.isLt
      ok free is run goes)
  · intro m v low _
    exact if_pos low
  · intro c r from_ below aligned at_ ok held
    rw [← word_cut]
    exact runs_of_eq can (fun _ => rfl) (Hub.iStore_window_held can addr aligned from_ below at_ ok held)
  · intro info from_ below aligned at_ refused
    exact runs_of_eq can (fun _ => rfl) (Hub.iLoad_window_refused can addr aligned from_ below at_ refused)
  · intro from_ below aligned at_ error
    exact runs_of_eq can (fun _ => rfl) (Hub.iStore_window_error can addr aligned from_ below at_ error)
  · intro out
    exact runs_of_eq can (fun _ => rfl) (Hub.iLoad_outside can addr out)
  · intro out
    exact runs_of_eq can (fun _ => rfl) (Hub.iStore_outside can addr out)
  · intro in_ odd
    exact runs_of_eq can (fun _ => rfl) (Hub.iLoad_misaligned can addr in_ (by omega))
  · intro in_ odd
    exact runs_of_eq can (fun _ => rfl) (Hub.iStore_misaligned can addr in_ (by omega))
  · intro low out
    exact runs_of_eq can (fun _ => rfl) (Hub.iLoad_bound can addr (Nat.mod_one ea) low out)
  · intro low out
    exact runs_of_eq can (fun _ => rfl) (Hub.iStore_bound can addr (Nat.mod_one ea) low out)
end


section
/-! SUPPORT. Register operations of Decmond (O22, O23): what an instruction that writes registers and flags alone comes to, the
results in the terms of R234 to R239, and the flags as comparisons (R227, R235). -/

open Sys2Proof Sys2Proof.Machine

namespace Sys2Proof.Machine

/-! ### Instructions that write registers and flags alone -/

section
variable {h : Hub} {n : Fin 96} (can : h.canIssue n = true) (inside : h.inCode n ((h.ctx n).pc + 1) = true)
include can inside

/-- An instruction that replaces its own context at its place and retires. -/
theorem Hub.issue_setCtx {F : Hub → Hub × Exit} {x : Ctx} (effect : F h = (h.setCtx n x, .next)) (pc : x.pc = (h.ctx n).pc) :
    h.issue n F = h.retired n x :=
  (Hub.issue_next can inside effect (Hub.samePlace_setCtx pc)).trans (Hub.finish_setCtx pc)

theorem Hub.issueReg_eq {gd : Nat} {f : Ctx → Word} {r : Word} (is : f (h.ctx n) = r) :
    h.issueReg n gd f = h.retired n ((h.ctx n).setGpr gd r) :=
  is ▸ Hub.issue_setCtx can inside rfl (by simp)

theorem Hub.issueFlags_eq {f : Ctx → Flags} {fl : Flags} (is : f (h.ctx n) = fl) :
    h.issueFlags n f = h.retired n ((h.ctx n).setFlags fl) :=
  is ▸ Hub.issue_setCtx can inside rfl rfl

theorem Hub.issueAlu_eq {gd : Nat} {f : Bool} {res : Ctx → Word} {fl : Ctx → Flags} {r : Word} {x : Flags}
    (is : res (h.ctx n) = r) (flags : fl (h.ctx n) = x) :
    h.issueAlu n gd f res fl = h.retired n (((h.ctx n).setGpr gd r).flagged f x) := by
  subst is flags
  refine Hub.issue_setCtx can inside rfl ?_
  cases f
  · exact Ctx.setGpr_pc ..
  · exact Ctx.setGpr_pc ..

theorem Hub.issueLogic_eq {gd : Nat} {f : Bool} {res : Ctx → Word} {r : Word} (is : res (h.ctx n) = r) :
    h.issueLogic n gd f res = h.retired n ((h.ctx n).logical gd r f) :=
  Hub.issueAlu_eq can inside is (by rw [is]; rfl)

/-- A shift by `k`, its carry the bit that R236 names. -/
theorem Hub.issueShift_eq {gd k : Nat} {f c : Bool} {res : Ctx → Word} {fl : Ctx → Flags} {r : Word}
    (is : res (h.ctx n) = r) (flags : fl (h.ctx n) = (h.ctx n).flags.shift r (if k = 0 then none else some c)) :
    h.issueAlu n gd f res fl = h.retired n ((h.ctx n).shifted gd r f k c) := by
  refine Hub.issueAlu_eq can inside is (flags.trans ?_)
  by_cases none_ : k = 0
  · simp only [if_pos none_]; rfl
  · simp only [if_neg none_]; rfl

end

/-! ### Results (R234, R236) -/

theorem W_addSum (a b : Word) (c : Bool) : W (addSum a b c) = a + b + (if c then 1#32 else 0#32) := by
  cases c <;> simp [addSum, W, BitVec.ofNat_add]

theorem W_addSum_not (a b : Word) (c : Bool) : W (addSum a (~~~b) c) = a - b - 1#32 + (if c then 1#32 else 0#32) := by
  rw [W_addSum, BitVec.not_eq_neg_add, BitVec.sub_eq_add_neg, BitVec.sub_eq_add_neg, BitVec.sub_eq_add_neg,
    ← BitVec.add_assoc a]

theorem bit_toNat (w : Word) (i : Nat) : bit w.toNat i = w.getLsbD i := bit_eq_testBit ..

theorem W_mulhu (a b : Word) :
    W (a.toNat * b.toNat / 2 ^ 32) = (a.zeroExtend 64 * b.zeroExtend 64).extractLsb' 32 32 := by
  apply BitVec.eq_of_toNat_eq
  simp only [BitVec.extractLsb'_toNat, BitVec.toNat_mul, BitVec.truncate_eq_setWidth, BitVec.toNat_setWidth, BitVec.toNat_ofNat,
    Nat.shiftRight_eq_div_pow, Nat.mul_mod_mod, Nat.mod_mul_mod]
  omega

/-- The high half of a signed product: the extended words multiply to the product modulo 2^64. -/
theorem ofInt_mulhs (a b : Word) :
    BitVec.ofInt 32 (a.toInt * b.toInt / 2 ^ 32) = (a.signExtend 64 * b.signExtend 64).extractLsb' 32 32 := by
  rw [BitVec.signExtend, BitVec.signExtend, ← BitVec.ofInt_mul]
  apply BitVec.eq_of_toNat_eq
  simp only [BitVec.toNat_ofInt, BitVec.extractLsb'_toNat, Nat.shiftRight_eq_div_pow]
  omega

theorem ite_ule {α : Type} (a b : Word) (x y : α) : (if a.toNat ≤ b.toNat then x else y) = if a.ule b then x else y := by
  simp only [BitVec.ule_eq_decide, decide_eq_true_eq]

theorem ite_sle {α : Type} (a b : Word) (x y : α) : (if a.toInt ≤ b.toInt then x else y) = if a.sle b then x else y := by
  simp only [BitVec.sle_eq_decide, decide_eq_true_eq]

theorem ofNat_div_two_pow (a : Word) (k : Nat) : BitVec.ofNat 8 (a.toNat / 2 ^ k) = a.extractLsb' k 8 := by
  rw [BitVec.extractLsb', Nat.shiftRight_eq_div_pow]

theorem W_beNat (a : Word) : W (beNat (wordBytes a))
    = a.extractLsb' 0 8 ++ a.extractLsb' 8 8 ++ a.extractLsb' 16 8 ++ a.extractLsb' 24 8 := by
  simp only [← ofNat_div_two_pow, ← W_leNat_4]
  simp [beNat, wordBytes]

theorem zext18_shiftLeft (imm : BitVec 18) : zext18 imm <<< 14 = imm ++ 0#14 := by
  apply BitVec.eq_of_toNat_eq
  rw [toNat_append_eq_add]
  simp only [zext18, BitVec.truncate_eq_setWidth, BitVec.toNat_shiftLeft, BitVec.toNat_setWidth, BitVec.toNat_ofNat,
    Nat.shiftLeft_eq]
  omega

/-! ### Flags as comparisons (R227, R235) -/

theorem addFlags_c (x y : Word) (c : Bool) : (addFlags x y c).c = decide (2 ^ 32 ≤ x.toNat + y.toNat + b2n c) := rfl

/-- The overflow flag says that the exact signed sum is none of 32 bits. -/
theorem addFlags_v (x y : Word) (c : Bool) : (addFlags x y c).v
    = decide (x.toInt + y.toInt + b2n c < -2147483648 ∨ 2147483647 < x.toInt + y.toInt + b2n c) := by
  have := b2n_lt_two c
  have := x.isLt
  have := y.isLt
  rw [Bool.eq_iff_iff]
  simp only [addFlags, addSum, BitVec.msb_eq_decide, BitVec.toInt_eq_toNat_cond, BitVec.toNat_ofNat, W, Bool.and_eq_true,
    beq_iff_eq, bne_iff_ne, ne_eq, decide_eq_decide, decide_eq_true_eq]
  split_ifs <;> omega

/-- The sign and the overflow flag differ where the exact signed sum is negative. -/
theorem addFlags_n_bne_v (x y : Word) (c : Bool) : ((addFlags x y c).n != (addFlags x y c).v)
    = decide (x.toInt + y.toInt + b2n c < 0) := by
  have := b2n_lt_two c
  have := x.isLt
  have := y.isLt
  rw [addFlags_v, Bool.eq_iff_iff]
  simp only [addFlags, addSum, BitVec.msb_eq_decide, BitVec.toInt_eq_toNat_cond, BitVec.toNat_ofNat, W,
    bne_iff_ne, ne_eq, decide_eq_decide, decide_eq_true_eq]
  split_ifs <;> omega

section
variable (x y : Word)

theorem W_addSum_compare : W (addSum x (~~~y) true) = x - y := by
  rw [W_addSum_not, if_pos rfl, BitVec.sub_add_cancel]

theorem toInt_not (y : Word) : (~~~y).toInt = -y.toInt - 1 := by
  have := y.isLt
  rw [BitVec.toInt_eq_toNat_cond, BitVec.toInt_eq_toNat_cond, BitVec.toNat_not]
  split_ifs <;> omega

theorem compare_z : (addFlags x (~~~y) true).z = decide (x = y) := by
  rw [Bool.eq_iff_iff, decide_eq_true_eq, addFlags, W_addSum_compare, beq_iff_eq]
  exact sub_eq_zero

theorem compare_n : (addFlags x (~~~y) true).n = (x - y).msb := by rw [addFlags, W_addSum_compare]

theorem compare_c : (addFlags x (~~~y) true).c = decide (y.toNat ≤ x.toNat) := by
  have := y.isLt
  rw [addFlags_c, BitVec.toNat_not, decide_eq_decide, b2n_true]
  omega

theorem compare_v : (addFlags x (~~~y) true).v
    = decide (x.toInt - y.toInt < -2147483648 ∨ 2147483647 < x.toInt - y.toInt) := by
  rw [addFlags_v, toInt_not, decide_eq_decide, b2n_true]
  omega

theorem compare_n_bne_v : ((addFlags x (~~~y) true).n != (addFlags x (~~~y) true).v) = decide (x.toInt < y.toInt) := by
  rw [addFlags_n_bne_v, toInt_not, decide_eq_decide, b2n_true]
  omega

theorem compare_n_beq_v : ((addFlags x (~~~y) true).n == (addFlags x (~~~y) true).v) = decide (y.toInt ≤ x.toInt) := by
  rw [← Bool.not_not (_ == _), ← bne, compare_n_bne_v, ← decide_not, decide_eq_decide, Int.not_lt]

/-- EQ and NE. -/
theorem compare_equal : (addFlags x (~~~y) true).cond 1 = decide (x = y)
    ∧ (addFlags x (~~~y) true).cond 2 = decide (x ≠ y) := by
  simp only [Flags.cond, compare_z, ← decide_not, ne_eq, and_self]

/-- HS and LO. -/
theorem compare_carry : (addFlags x (~~~y) true).cond 3 = decide (y.toNat ≤ x.toNat)
    ∧ (addFlags x (~~~y) true).cond 4 = decide (x.toNat < y.toNat) := by
  simp only [Flags.cond, compare_c, ← decide_not, Nat.not_le, and_self]

/-- HI and LS. -/
theorem compare_unsigned : (addFlags x (~~~y) true).cond 9 = decide (y.toNat < x.toNat)
    ∧ (addFlags x (~~~y) true).cond 10 = decide (x.toNat ≤ y.toNat) := by
  simp only [Flags.cond, compare_c, compare_z, ← decide_not, ← Bool.decide_and, ← Bool.decide_or, decide_eq_decide,
    ← BitVec.toNat_inj]
  omega

/-- GE and LT. -/
theorem compare_signed : (addFlags x (~~~y) true).cond 11 = decide (y.toInt ≤ x.toInt)
    ∧ (addFlags x (~~~y) true).cond 12 = decide (x.toInt < y.toInt) := ⟨compare_n_beq_v x y, compare_n_bne_v x y⟩

/-- GT and LE. -/
theorem compare_signed_strict : (addFlags x (~~~y) true).cond 13 = decide (y.toInt < x.toInt)
    ∧ (addFlags x (~~~y) true).cond 14 = decide (x.toInt ≤ y.toInt) := by
  simp only [Flags.cond, compare_n_beq_v, compare_n_bne_v, compare_z, ← decide_not, ← Bool.decide_and, ← Bool.decide_or,
    decide_eq_decide, ← BitVec.toInt_inj]
  omega

end

end Sys2Proof.Machine

/-- Settles O22: an ALU operation is issued, writes its result and, with F, its flags, and retires; the results are those of the
rules as words. -/
theorem aluInstructions : Obligations.AluInstructions := by
  unfold Obligations.AluInstructions
  intro h n gd ga gb f a b can inside isA isB
  subst isA isB
  refine ⟨?_, ?_, ?_, ?_, ?_, ?_, ?_, ?_, ?_, ?_, ?_, ?_, ?_, ?_, ?_, ?_, ?_, ?_, ?_, ?_, ?_, ?_⟩
  · exact runs_of_eq can (fun _ => rfl) (Hub.issueAlu_eq can inside rfl rfl)
  · exact runs_of_eq can (fun _ => rfl) (Hub.issueAlu_eq can inside rfl rfl)
  · exact runs_of_eq can (fun _ => rfl) (Hub.issueAlu_eq can inside (W_addSum ..) rfl)
  · exact runs_of_eq can (fun _ => rfl) (Hub.issueAlu_eq can inside (W_addSum_not ..) rfl)
  · exact runs_of_eq can (fun _ => rfl) (Hub.issueLogic_eq can inside rfl)
  · exact runs_of_eq can (fun _ => rfl) (Hub.issueLogic_eq can inside rfl)
  · exact runs_of_eq can (fun _ => rfl) (Hub.issueLogic_eq can inside rfl)
  · exact runs_of_eq can (fun _ => rfl) (Hub.issueLogic_eq can inside rfl)
  · rw [← bit_toNat]
    exact runs_of_eq can (fun _ => rfl) (Hub.issueShift_eq can inside rfl rfl)
  · rw [← bit_toNat]
    exact runs_of_eq can (fun _ => rfl) (Hub.issueShift_eq can inside rfl rfl)
  · rw [← bit_toNat]
    exact runs_of_eq can (fun _ => rfl) (Hub.issueShift_eq can inside rfl rfl)
  · exact runs_of_eq can (fun _ => rfl) (Hub.issueShift_eq can inside rfl rfl)
  · exact runs_of_eq can (fun _ => rfl) (Hub.issueLogic_eq can inside rfl)
  · exact runs_of_eq can (fun _ => rfl) (Hub.issueLogic_eq can inside (W_mulhu ..))
  · exact runs_of_eq can (fun _ => rfl) (Hub.issueLogic_eq can inside (ofInt_mulhs ..))
  · exact runs_of_eq can (fun _ => rfl) (Hub.issueLogic_eq can inside (ite_ule ..))
  · exact runs_of_eq can (fun _ => rfl) (Hub.issueLogic_eq can inside (ite_ule ..))
  · exact runs_of_eq can (fun _ => rfl) (Hub.issueLogic_eq can inside (ite_sle ..))
  · exact runs_of_eq can (fun _ => rfl) (Hub.issueLogic_eq can inside (ite_sle ..))
  · exact runs_of_eq can (fun _ => rfl) (Hub.issueLogic_eq can inside rfl)
  · exact runs_of_eq can (fun _ => rfl) (Hub.issueLogic_eq can inside rfl)
  · exact runs_of_eq can (fun _ => rfl) (Hub.issueLogic_eq can inside (W_beNat _))

/-- Settles O23: an instruction that writes a register or flags is issued and retires with its result; the flags of a difference
are its comparisons. -/
theorem immediateAndCompareInstructions : Obligations.ImmediateAndCompareInstructions := by
  unfold Obligations.ImmediateAndCompareInstructions
  intro h n gd ga gb imm k a b can inside isA isB
  subst isA isB
  refine ⟨?_, ?_, ?_, ?_, ?_, ?_, ?_, ?_, ?_, ?_, ?_, ?_, ?_, compare_equal, compare_carry, compare_unsigned, compare_signed,
    compare_signed_strict, fun x y => ⟨compare_v x y, compare_n x y⟩, fun x y => ⟨rfl, ?_⟩⟩
  · exact runs_of_eq can (fun _ => rfl) (Hub.issueReg_eq can inside rfl)
  · exact runs_of_eq can (fun _ => rfl) (Hub.issueReg_eq can inside rfl)
  · exact runs_of_eq can (fun _ => rfl) (Hub.issueReg_eq can inside rfl)
  · exact runs_of_eq can (fun _ => rfl) (Hub.issueReg_eq can inside rfl)
  · exact runs_of_eq can (fun _ => rfl) (Hub.issueReg_eq can inside (zext18_shiftLeft imm))
  · exact runs_of_eq can (fun _ => rfl) (Hub.issueReg_eq can inside rfl)
  · exact runs_of_eq can (fun _ => rfl) (Hub.issueReg_eq can inside rfl)
  · exact runs_of_eq can (fun _ => rfl) (Hub.issueReg_eq can inside rfl)
  · exact runs_of_eq can (fun _ => rfl) (Hub.issueReg_eq can inside rfl)
  · exact runs_of_eq can (fun _ => rfl) (Hub.issueFlags_eq can inside rfl)
  · exact runs_of_eq can (fun _ => rfl) (Hub.issueFlags_eq can inside rfl)
  · exact runs_of_eq can (fun _ => rfl) (Hub.issueFlags_eq can inside rfl)
  · exact runs_of_eq can (fun _ => rfl) (Hub.issueFlags_eq can inside rfl)
  · simpa using addFlags_v x y false
end

section
/-! SUPPORT. The words of Decmond (O29, O30): the fields of each format, and the word that they make. -/

open Sys2Proof Sys2Proof.Machine

namespace Sys2Proof.Machine

/-! ### Fields -/

theorem regAt_val (w lo : Nat) : (regAt w lo).val = slice w lo 4 := Nat.mod_mod ..

theorem regAt_eq_zero {w lo : Nat} : regAt w lo = 0 ↔ slice w lo 4 = 0 := by
  rw [← regAt_val, Fin.ext_iff]; rfl

theorem b2n_bit (w i : Nat) : b2n (bit w i) = slice w i 1 := by
  rw [bit, slice]
  rcases Nat.mod_two_eq_zero_or_one (w / 2 ^ i) with e | e <;> simp [e]

theorem bit_eq_iff {w k : Nat} {f : Bool} : bit w k = f ↔ slice w k 1 = b2n f := by
  rw [← b2n_bit]
  cases bit w k <;> cases f <;> decide

theorem imm18_toNat (w : Nat) : (imm18 w).toNat = slice w 0 18 := by simp [imm18, slice]

theorem legalIf_eq_some {c : Bool} {i j : Instr} : legalIf c i = some j ↔ c = true ∧ i = j := by
  simp [legalIf]

section
variable {w : Word} {op imm : Nat}

/-- A word of formats I, M and S is the one its four fields make. -/
theorem eq_wordI_iff {gd ga : Fin 16} (opcode : op < 64) (small : imm < 2 ^ 18) :
    w = wordI op gd ga imm
      ↔ slice w.toNat 26 6 = op ∧ regAt w.toNat 22 = gd ∧ regAt w.toNat 18 = ga ∧ slice w.toNat 0 18 = imm := by
  have := w.isLt
  have := gd.isLt
  have := ga.isLt
  rw [← BitVec.toNat_inj, wordI, toNat_W (by omega), Fin.ext_iff, Fin.ext_iff, regAt_val, regAt_val]
  simp only [slice]
  omega

/-- A word of format B is the one its three fields make. -/
theorem eq_wordB_iff {cc : BitVec 4} {off : BitVec 22} (opcode : op < 64) :
    w = wordB op cc off ↔ slice w.toNat 26 6 = op ∧ slice w.toNat 22 4 = cc.toNat ∧ slice w.toNat 0 22 = off.toNat := by
  have := w.isLt
  have := cc.isLt
  have := off.isLt
  rw [← BitVec.toNat_inj, wordB, toNat_W (by omega)]
  simp only [slice]
  omega

/-- A word of format P is the one its six fields make. -/
theorem eq_wordP_iff {dd : Fin 4} {gd ga : Fin 16} {sub : Nat} (opcode : op < 64) (few : sub < 16) (small : imm < 2 ^ 12) :
    w = wordP op dd gd ga sub imm ↔ slice w.toNat 26 6 = op ∧ slice w.toNat 24 2 = dd ∧ regAt w.toNat 20 = gd
      ∧ regAt w.toNat 16 = ga ∧ slice w.toNat 12 4 = sub ∧ slice w.toNat 0 12 = imm := by
  have := w.isLt
  have := dd.isLt
  have := gd.isLt
  have := ga.isLt
  rw [← BitVec.toNat_inj, wordP, toNat_W (by omega), Fin.ext_iff, Fin.ext_iff, regAt_val, regAt_val]
  simp only [slice]
  omega

/-- A word of format A is the one its six fields make, its low byte 0. -/
theorem eq_wordA_iff {fn : Nat} {gd ga gb : Fin 16} {f : Bool} (few : fn < 32) :
    w = wordA fn gd ga gb f ↔ slice w.toNat 26 6 = 1 ∧ regAt w.toNat 22 = gd ∧ regAt w.toNat 18 = ga
      ∧ regAt w.toNat 14 = gb ∧ bit w.toNat 13 = f ∧ slice w.toNat 8 5 = fn ∧ slice w.toNat 0 8 = 0 := by
  have := gb.isLt
  have := b2n_lt_two f
  rw [wordA, eq_wordI_iff (by decide) (by omega), bit_eq_iff, Fin.ext_iff (a := regAt w.toNat 14), regAt_val]
  simp only [slice]
  omega

end

end Sys2Proof.Machine
end

section
/-! SUPPORT. What each opcode spells (O29): an instruction whose operands are legal, the word being its own. -/

open Sys2Proof Sys2Proof.Machine

namespace Sys2Proof.Machine

/-- A word is an instruction's own, the instruction's operands are legal and it is the one that the word spells. -/
def hasWord (n : Fin 96) (w : Word) (i : Instr) : Prop :=
  Instr.word? i = some (n, w) ∧ Instr.legal i = true ∧ Instr.spelling i = i

section
variable {n : Fin 96} {w : Word} {i : Instr} {op imm : Nat} {gd ga : Fin 16}

/-- An instruction of formats I, M and S whose fields a word holds. -/
theorem hasWord_of_wordI (opcode : slice w.toNat 26 6 = op) (low : slice w.toNat 0 18 = imm)
    (is : Instr.word? i = some (n, wordI op gd ga imm)) (left : slice w.toNat 22 4 = gd := by exact (regAt_val ..).symm)
    (right : slice w.toNat 18 4 = ga := by exact (regAt_val ..).symm) (legal : Instr.legal i = true := by rfl)
    (spelling : Instr.spelling i = i := by rfl) : hasWord n w i :=
  ⟨((eq_wordI_iff (opcode ▸ slice_lt ..) (low ▸ slice_lt ..)).2
    ⟨opcode, Fin.ext ((regAt_val ..).trans left), Fin.ext ((regAt_val ..).trans right), low⟩) ▸ is, legal, spelling⟩

theorem toNat_ofNat_slice (w lo k : Nat) : (BitVec.ofNat k (slice w lo k)).toNat = slice w lo k := by
  rw [BitVec.toNat_ofNat, Nat.mod_eq_of_lt (slice_lt ..)]

theorem hasWord_of_spellSys (opcode : slice w.toNat 26 6 = 0) (s : spellSys n w.toNat = some i) : hasWord n w i := by
  have low : slice w.toNat 0 18 = slice w.toNat 12 6 * 2 ^ 12 + slice w.toNat 0 12 := by simp only [slice]; omega
  have arg := toNat_ofNat_slice w.toNat 0 12
  simp only [spellSys] at s
  split at s
  case h_8 => cases s
  all_goals
    rename_i fn
    obtain ⟨zeros, rfl⟩ := legalIf_eq_some.1 s
    simp only [Bool.and_eq_true, beq_iff_eq, decide_eq_true_eq, regAt_eq_zero] at zeros
  case h_1 =>
    obtain ⟨⟨gd, ga⟩, zero⟩ := zeros
    exact hasWord_of_wordI (gd := 0) (ga := 0) (imm := 0) opcode (by omega) rfl gd ga
  case h_2 | h_3 | h_5 =>
    obtain ⟨⟨gd, ga⟩, zero⟩ := zeros
    exact hasWord_of_wordI opcode (by omega) rfl gd ga
  case h_4 =>
    obtain ⟨gd, ga⟩ := zeros
    exact hasWord_of_wordI opcode (by omega) rfl gd ga
  case h_6 =>
    obtain ⟨ga, listed⟩ := zeros
    exact hasWord_of_wordI opcode (by omega) rfl (right := ga) (legal := decide_eq_true (arg.trans_le listed))
  case h_7 =>
    obtain ⟨gd, zero⟩ := zeros
    rw [zero]
    exact hasWord_of_wordI opcode (low.trans (by rw [fn, zero]; rfl)) rfl gd

theorem hasWord_of_spellAlu (opcode : slice w.toNat 26 6 = 1) (s : spellAlu n w.toNat = some i) : hasWord n w i := by
  simp only [spellAlu] at s
  split at s
  · cases s
  have low : slice w.toNat 0 8 = 0 := by omega
  have made : ∀ {k gb} (few : k < 32), slice w.toNat 8 5 = k → regAt w.toNat 14 = gb →
      w = wordA k (regAt w.toNat 22) (regAt w.toNat 18) gb (bit w.toNat 13) := fun few fn gb =>
    (eq_wordA_iff few).2 ⟨opcode, rfl, rfl, gb, rfl, fn, low⟩
  split at s
  case h_23 => cases s
  case h_20 | h_21 | h_22 =>
    rename_i fn
    obtain ⟨gb, rfl⟩ := legalIf_eq_some.1 s
    exact ⟨congrArg (fun v => some (n, v)) (made (by decide) fn (by simpa using gb)).symm, rfl, rfl⟩
  all_goals
    rename_i fn
    cases s
    exact ⟨congrArg (fun v => some (n, v)) (made (by decide) fn rfl).symm, rfl, rfl⟩

theorem hasWord_of_spellShift (opcode : slice w.toNat 26 6 = 6) (s : spellShift n w.toNat = some i) : hasWord n w i := by
  have low : slice w.toNat 0 18 = slice w.toNat 16 2 * 2 ^ 16 + slice w.toNat 5 11 * 2 ^ 5 + slice w.toNat 0 5 := by
    simp only [slice]; omega
  have amount : (Fin.ofNat 32 (slice w.toNat 0 5)).val = slice w.toNat 0 5 := Nat.mod_mod ..
  have few := slice_lt w.toNat 16 2
  simp only [spellShift] at s
  split at s
  · cases s
  obtain kind | kind | kind | kind : slice w.toNat 16 2 = 0 ∨ slice w.toNat 16 2 = 1 ∨ slice w.toNat 16 2 = 2
      ∨ slice w.toNat 16 2 = 3 := by omega
  all_goals
    simp only [kind, Option.some.injEq] at s
    subst s
    exact hasWord_of_wordI opcode (by omega) rfl

theorem hasWord_of_spellCompare (opcode : slice w.toNat 26 6 = 8) (s : spellCompare n w.toNat = some i) : hasWord n w i := by
  have low : slice w.toNat 0 18 = slice w.toNat 14 4 * 2 ^ 14 + slice w.toNat 0 14 := by simp only [slice]; omega
  have gb := regAt_val w.toNat 14
  have imm := imm18_toNat w.toNat
  simp only [spellCompare] at s
  split at s
  case h_5 => cases s
  case h_1 | h_3 =>
    rename_i var
    obtain ⟨zero, rfl⟩ := legalIf_eq_some.1 s
    rw [beq_iff_eq] at zero
    refine hasWord_of_wordI opcode ?_ rfl var
    rw [low, gb, zero, add_zero]
  case h_2 | h_4 =>
    rename_i var
    cases s
    exact hasWord_of_wordI opcode imm.symm rfl var

theorem hasWord_of_spellPlain (opcode : slice w.toNat 26 6 = op) (s : spellPlain n op w.toNat = some i) : hasWord n w i := by
  have imm := imm18_toNat w.toNat
  have cond := toNat_ofNat_slice w.toNat 22 4
  have off : slice w.toNat 0 22 = (BitVec.ofNat 22 w.toNat).toNat := by simp [slice]
  have listed : (BitVec.ofNat 4 (slice w.toNat 22 4) != 15) = (slice w.toNat 22 4 != 15) := by
    rw [Bool.eq_iff_iff, bne_iff_ne, bne_iff_ne, ne_eq, ← BitVec.toNat_inj, cond]
    rfl
  simp only [spellPlain] at s
  split at s
  case h_15 => cases s
  case h_5 =>
    obtain ⟨ga, rfl⟩ := legalIf_eq_some.1 s
    rw [beq_iff_eq, regAt_eq_zero] at ga
    exact hasWord_of_wordI opcode imm.symm rfl (right := ga)
  case h_12 | h_13 =>
    obtain ⟨lists, rfl⟩ := legalIf_eq_some.1 s
    have made := (eq_wordB_iff (by decide)).2 ⟨opcode, cond.symm, off⟩
    exact ⟨congrArg (fun v => some (n, v)) made.symm, listed.trans lists, rfl⟩
  case h_14 =>
    obtain ⟨lists, rfl⟩ := legalIf_eq_some.1 s
    rw [Bool.and_eq_true, beq_iff_eq] at lists
    have off : slice w.toNat 0 22
        = (BitVec.ofNat 22 (regAt w.toNat 18 * 2 ^ 18 + b2n (bit w.toNat 17) * 2 ^ 17)).toNat := by
      rw [regAt_val, b2n_bit, BitVec.toNat_ofNat]
      simp only [slice] at lists ⊢
      omega
    have made := (eq_wordB_iff (by decide)).2 ⟨opcode, cond.symm, off⟩
    exact ⟨congrArg (fun v => some (n, v)) made.symm, listed.trans lists.1, rfl⟩
  all_goals
    cases s
    exact hasWord_of_wordI opcode imm.symm rfl

/-- An instruction of format P whose fields a word holds. -/
theorem hasWord_of_wordP {dd : Fin 4} {sub : Nat} (opcode : slice w.toNat 26 6 = op)
    (is : Instr.word? i = some (n, wordP op dd gd ga sub imm)) (kind : slice w.toNat 12 4 = sub)
    (low : slice w.toNat 0 12 = imm)
    (legal : Instr.legal i = true := by rfl)
    (left : slice w.toNat 20 4 = gd := by exact (regAt_val ..).symm)
    (right : slice w.toNat 16 4 = ga := by exact (regAt_val ..).symm)
    (desc : slice w.toNat 24 2 = dd := by exact (Nat.mod_mod ..).symm)
    (spelling : Instr.spelling i = i := by rfl) : hasWord n w i :=
  ⟨((eq_wordP_iff (opcode ▸ slice_lt ..) (kind ▸ slice_lt ..) (low ▸ slice_lt ..)).2
    ⟨opcode, desc, Fin.ext ((regAt_val ..).trans left), Fin.ext ((regAt_val ..).trans right), kind, low⟩) ▸ is, legal, spelling⟩

theorem hasWord_of_spellPacket (opcode : slice w.toNat 26 6 = op) (s : spellPacket n op w.toNat = some i) : hasWord n w i := by
  have imm : (BitVec.ofNat 12 w.toNat).toNat = slice w.toNat 0 12 := by simp [slice]
  have width := toNat_ofNat_slice w.toNat 12 4
  have other : (Fin.ofNat 4 (slice w.toNat 12 4)).val = slice w.toNat 12 4 % 4 := rfl
  simp only [spellPacket] at s
  split at s
  case h_12 => cases s
  all_goals
    obtain ⟨fields, e⟩ := legalIf_eq_some.1 s
    simp only [Bool.and_eq_true, beq_iff_eq, decide_eq_true_eq, regAt_eq_zero] at fields
  case h_1 =>
    subst e
    obtain ⟨⟨ga, two⟩, low⟩ := fields
    refine hasWord_of_wordP opcode rfl ?_ low (right := ga)
    obtain sub | sub : slice w.toNat 12 4 = 0 ∨ slice w.toNat 12 4 = 1 := by omega
    all_goals rw [sub]; rfl
  case h_2 =>
    subst e
    obtain ⟨⟨ga, sub⟩, low⟩ := fields
    exact hasWord_of_wordP opcode rfl sub imm.symm (right := ga) (legal := decide_eq_true (imm.trans_le low))
  case h_3 =>
    subst e
    obtain ⟨⟨gd, sub⟩, low⟩ := fields
    exact hasWord_of_wordP opcode rfl sub imm.symm (left := gd) (legal := (congrArg fieldWritable imm).trans low)
  case h_4 | h_5 =>
    subst e
    exact hasWord_of_wordP opcode rfl width.symm imm.symm (legal := decide_eq_true (width.trans_lt fields))
  case h_6 =>
    obtain ⟨⟨ga, four⟩, low⟩ := fields
    obtain sub | sub | sub | sub : slice w.toNat 12 4 = 0 ∨ slice w.toNat 12 4 = 1 ∨ slice w.toNat 12 4 = 2
      ∨ slice w.toNat 12 4 = 3 := by omega
    all_goals
      rw [sub] at e
      subst e
      exact hasWord_of_wordP opcode rfl sub low (right := ga)
  case h_7 =>
    subst e
    obtain ⟨⟨⟨gd, ga⟩, sub⟩, low⟩ := fields
    exact hasWord_of_wordP (gd := 0) opcode rfl sub low (left := gd) (right := ga)
  case h_8 =>
    obtain ⟨⟨⟨two, four⟩, most⟩, whole⟩ := fields
    have legal : (decide (4 ≤ (BitVec.ofNat 12 w.toNat).toNat) && decide ((BitVec.ofNat 12 w.toNat).toNat ≤ 512)
        && (BitVec.ofNat 12 w.toNat).toNat % 4 == 0) = true := by simp only [imm, four, most, whole]; rfl
    obtain sub | sub : slice w.toNat 12 4 = 0 ∨ slice w.toNat 12 4 = 1 := by omega
    all_goals
      rw [sub] at e
      subst e
      exact hasWord_of_wordP opcode rfl sub imm.symm (legal := legal)
  case h_9 =>
    subst e
    obtain ⟨few, low⟩ := fields
    exact hasWord_of_wordP opcode rfl (by omega) low
  case h_10 =>
    subst e
    obtain ⟨⟨ga, few⟩, low⟩ := fields
    exact hasWord_of_wordP opcode rfl (by omega) low (right := ga)
  case h_11 =>
    subst e
    obtain ⟨⟨ga, sub⟩, low⟩ := fields
    exact hasWord_of_wordP opcode rfl sub imm.symm (right := ga) (legal := decide_eq_true (imm.trans_le low))

theorem hasWord_of_spellTarm (opcode : slice w.toNat 26 6 = 0x32) (s : spellTarm n w.toNat = some i) : hasWord n w i := by
  have low : slice w.toNat 0 18 = slice w.toNat 16 2 * 2 ^ 16 + slice w.toNat 0 16 := by simp only [slice]; omega
  have last : slice w.toNat 0 16 = slice w.toNat 3 13 * 2 ^ 3 + slice w.toNat 0 3 := by simp only [slice]; omega
  have output : (Fin.ofNat 8 (slice w.toNat 0 3)).val = slice w.toNat 0 3 := Nat.mod_mod ..
  have few := slice_lt w.toNat 16 2
  obtain mode | mode | mode | mode : slice w.toNat 16 2 = 0 ∨ slice w.toNat 16 2 = 1 ∨ slice w.toNat 16 2 = 2
      ∨ slice w.toNat 16 2 = 3 := by omega
  all_goals
    simp only [spellTarm, mode] at s
    obtain ⟨zeros, rfl⟩ := legalIf_eq_some.1 s
    simp only [Bool.and_eq_true, beq_iff_eq, regAt_eq_zero] at zeros
  · exact hasWord_of_wordI opcode (by omega) rfl
  · exact hasWord_of_wordI opcode (by omega) rfl
  · exact hasWord_of_wordI opcode (by omega) rfl (right := zeros.1)
  · exact hasWord_of_wordI opcode (by omega) rfl

theorem hasWord_of_spellOutat (opcode : slice w.toNat 26 6 = 0x34) (s : spellOutat n w.toNat = some i) : hasWord n w i := by
  have low : slice w.toNat 0 18
      = slice w.toNat 6 12 * 2 ^ 6 + slice w.toNat 4 2 * 2 ^ 4 + b2n (bit w.toNat 3) * 2 ^ 3 + slice w.toNat 0 3 := by
    rw [b2n_bit]; simp only [slice]; omega
  have output : (Fin.ofNat 8 (slice w.toNat 0 3)).val = slice w.toNat 0 3 := Nat.mod_mod ..
  simp only [spellOutat] at s
  split at s
  · cases s
  rename_i zeros
  obtain ⟨high, third⟩ : slice w.toNat 6 12 = 0 ∧ bit w.toNat 3 = false := by simpa using zeros
  rw [high, third] at low
  split at s
  case h_4 => cases s
  case h_3 =>
    rename_i mode
    obtain ⟨ga, rfl⟩ := legalIf_eq_some.1 s
    rw [beq_iff_eq, regAt_eq_zero] at ga
    exact hasWord_of_wordI opcode (by rw [low, mode, output]; rfl) rfl (right := ga)
  all_goals
    rename_i mode
    cases s
    exact hasWord_of_wordI opcode (by rw [low, mode, output]; rfl) rfl

theorem hasWord_of_spellEvent (opcode : slice w.toNat 26 6 = op) (s : spellEvent n op w.toNat = some i) : hasWord n w i := by
  have imm := imm18_toNat w.toNat
  simp only [spellEvent] at s
  split at s
  case h_14 => cases s
  case h_5 => exact hasWord_of_spellTarm opcode s
  case h_7 => exact hasWord_of_spellOutat opcode s
  case h_9 =>
    split at s
    · cases s
      exact hasWord_of_wordI opcode ‹_› rfl
    · obtain ⟨zeros, rfl⟩ := legalIf_eq_some.1 s
      rw [Bool.and_eq_true, beq_iff_eq, beq_iff_eq, regAt_eq_zero] at zeros
      exact hasWord_of_wordI opcode zeros.1 rfl (right := zeros.2)
  all_goals
    obtain ⟨fields, e⟩ := legalIf_eq_some.1 s
    simp only [Bool.and_eq_true, beq_iff_eq, decide_eq_true_eq, regAt_eq_zero] at fields
  case h_1 =>
    subst e
    have low : slice w.toNat 0 18 = slice w.toNat 16 2 * 2 ^ 16 + slice w.toNat 2 14 * 2 ^ 2 + slice w.toNat 0 2 := by
      simp only [slice]; omega
    have sel : slice w.toNat 16 2 % 4 = slice w.toNat 16 2 := Nat.mod_mod ..
    have out : slice w.toNat 0 2 % 4 = slice w.toNat 0 2 := Nat.mod_mod ..
    obtain ⟨⟨zeros, below⟩, own⟩ := fields
    refine hasWord_of_wordI opcode (low.trans ?_) rfl (legal := ?_)
    · rw [zeros, zero_mul, add_zero]
      exact congrArg₂ (fun s o => s * 2 ^ 16 + o) sel.symm out.symm
    · simpa [Instr.legal, Fin.ext_iff, regAt_val, sel, out] using And.intro below own
  case h_3 =>
    subst e
    obtain ⟨⟨ga, pos⟩, small⟩ := fields
    have mask : (BitVec.ofNat 9 (slice w.toNat 0 18)).toNat = slice w.toNat 0 18 := by
      rw [BitVec.toNat_ofNat, Nat.mod_eq_of_lt small]
    refine hasWord_of_wordI opcode mask.symm rfl (right := ga) (legal := bne_iff_ne.2 fun zero => ?_)
    rw [zero] at mask
    exact absurd mask (Nat.ne_of_lt pos)
  case h_4 =>
    obtain ⟨ga, few⟩ := fields
    split at e
    · subst e
      exact hasWord_of_wordI opcode ‹_› rfl (right := ga)
    · subst e
      refine hasWord_of_wordI opcode imm.symm rfl (right := ga) (legal := ?_)
      simp only [Instr.legal, Bool.or_eq_true, beq_iff_eq, ← BitVec.toNat_inj, imm]
      show slice w.toNat 0 18 = 1 ∨ slice w.toNat 0 18 = 2
      omega
  case h_6 =>
    subst e
    exact hasWord_of_wordI opcode imm.symm rfl (legal := decide_eq_true (imm.trans_le fields))
  case h_8 =>
    subst e
    have low : slice w.toNat 0 18 = slice w.toNat 9 9 * 2 ^ 9 + slice w.toNat 2 7 * 2 ^ 2 + slice w.toNat 0 2 := by
      simp only [slice]; omega
    have entry : (Fin.ofNat 128 (slice w.toNat 2 7)).val = slice w.toNat 2 7 := Nat.mod_mod ..
    have sched : (Fin.ofNat 4 (slice w.toNat 0 2)).val = slice w.toNat 0 2 := Nat.mod_mod ..
    exact hasWord_of_wordI opcode (by omega) rfl
  all_goals
    subst e
    exact hasWord_of_wordI opcode fields rfl

/-- A word that spells an instruction is that instruction's own. -/
theorem hasWord_of_spelled (s : spelled n w = some i) : hasWord n w i := by
  simp only [spelled] at s
  split at s
  · exact hasWord_of_spellSys ‹_› s
  split at s
  · exact hasWord_of_spellAlu ‹_› s
  split at s
  · exact hasWord_of_spellShift ‹_› s
  split at s
  · exact hasWord_of_spellCompare ‹_› s
  split at s
  · exact hasWord_of_spellPlain rfl s
  split at s
  · exact hasWord_of_spellPacket rfl s
  · exact hasWord_of_spellEvent rfl s

end

end Sys2Proof.Machine
end

section
/-! SUPPORT. The words of Decmond spell their instructions (O29): the opcode chooses the format, its fields the operands. -/

open Sys2Proof Sys2Proof.Machine

namespace Sys2Proof.Machine

section
variable {n : Fin 96} {i : Instr} {op imm fn arg sub : Nat} {gd ga gb : Fin 16}

/-! ### Words by opcode -/

theorem ofNat_of_slice {k v : Nat} {x : BitVec k} (low : slice v 0 k = x.toNat) : BitVec.ofNat k v = x :=
  BitVec.eq_of_toNat_eq (.trans (by simp [slice]) low)

theorem imm18_of_slice {v : Nat} {x : BitVec 18} (low : slice v 0 18 = x.toNat) : imm18 v = x := ofNat_of_slice low

theorem regAt_of_slice {v lo : Nat} {r : Fin 16} (is : slice v lo 4 = r) : regAt v lo = r := Fin.ext ((regAt_val ..).trans is)

theorem spelled_of_opcode_0 {w : Word} (opcode : slice w.toNat 26 6 = 0) : spelled n w = spellSys n w.toNat := by
  rw [spelled, opcode, if_pos rfl]

theorem spelled_of_opcode_1 {w : Word} (opcode : slice w.toNat 26 6 = 1) : spelled n w = spellAlu n w.toNat := by
  rw [spelled, opcode, if_neg (by decide), if_pos rfl]

theorem spelled_of_opcode_6 {w : Word} (opcode : slice w.toNat 26 6 = 6) : spelled n w = spellShift n w.toNat := by
  rw [spelled, opcode, if_neg (by decide), if_neg (by decide), if_pos rfl]

theorem spelled_of_opcode_8 {w : Word} (opcode : slice w.toNat 26 6 = 8) : spelled n w = spellCompare n w.toNat := by
  rw [spelled, opcode, if_neg (by decide), if_neg (by decide), if_neg (by decide), if_pos rfl]

theorem spelled_sys (is : imm = fn * 2 ^ 12 + arg) (few : fn < 64) (small : arg < 2 ^ 12)
    (row : ∀ v, regAt v 22 = gd → regAt v 18 = ga → slice v 12 6 = fn → slice v 0 12 = arg → spellSys n v = some i) :
    spelled n (wordI 0 gd ga imm) = some i := by
  generalize e : wordI 0 gd ga imm = w
  obtain ⟨opcode, left, right, low⟩ := (eq_wordI_iff (by decide) (by omega)).1 e.symm
  have fields : slice w.toNat 12 6 = fn ∧ slice w.toNat 0 12 = arg := by simp only [slice] at low ⊢; omega
  exact (spelled_of_opcode_0 opcode).trans (row _ left right fields.1 fields.2)

theorem spelled_alu {f : Bool} (few : fn < 32) (row : ∀ v, regAt v 22 = gd → regAt v 18 = ga → regAt v 14 = gb → bit v 13 = f →
    slice v 8 5 = fn → slice v 0 8 = 0 → spellAlu n v = some i) : spelled n (wordA fn gd ga gb f) = some i := by
  generalize e : wordA fn gd ga gb f = w
  obtain ⟨opcode, left, right, second, flag, kind, low⟩ := (eq_wordA_iff few).1 e.symm
  exact (spelled_of_opcode_1 opcode).trans (row _ left right second flag kind low)

theorem spelled_shift {k : Fin 32} (is : imm = fn * 2 ^ 16 + k) (few : fn < 4)
    (row : ∀ v, regAt v 22 = gd → regAt v 18 = ga → slice v 16 2 = fn → slice v 5 11 = 0 → slice v 0 5 = k →
      spellShift n v = some i) : spelled n (wordI 6 gd ga imm) = some i := by
  generalize e : wordI 6 gd ga imm = w
  have amount := k.isLt
  obtain ⟨opcode, left, right, low⟩ := (eq_wordI_iff (by decide) (by omega)).1 e.symm
  obtain ⟨kind, zeros, low⟩ : slice w.toNat 16 2 = fn ∧ slice w.toNat 5 11 = 0 ∧ slice w.toNat 0 5 = k := by
    simp only [slice] at low ⊢; omega
  exact (spelled_of_opcode_6 opcode).trans (row _ left right kind zeros low)

theorem spelled_compare (small : imm < 2 ^ 18) (row : ∀ v, slice v 22 4 = gd → regAt v 18 = ga → slice v 0 18 = imm →
    spellCompare n v = some i) : spelled n (wordI 8 gd ga imm) = some i := by
  generalize e : wordI 8 gd ga imm = w
  obtain ⟨opcode, left, right, low⟩ := (eq_wordI_iff (by decide) small).1 e.symm
  exact (spelled_of_opcode_8 opcode).trans (row _ (by rw [← regAt_val, left]) right low)

/-- Which function an opcode's words are spelled by, beside the four of their own. -/
theorem spelled_of_opcode {w : Word} (opcode : slice w.toNat 26 6 = op) (own : 1 < op ∧ op ≠ 6 ∧ op ≠ 8) : spelled n w
    = if op < 0x18 then spellPlain n op w.toNat else if op < 0x28 then spellPacket n op w.toNat
      else spellEvent n op w.toNat := by
  obtain ⟨above, six, eight⟩ := own
  rw [spelled, opcode, if_neg (by omega), if_neg (by omega), if_neg six, if_neg eight]

theorem spelled_plain (immediate : 1 < op ∧ op < 0x18 ∧ op ≠ 6 ∧ op ≠ 8) (small : imm < 2 ^ 18)
    (row : ∀ v, regAt v 22 = gd → regAt v 18 = ga → slice v 0 18 = imm → spellPlain n op v = some i) :
    spelled n (wordI op gd ga imm) = some i := by
  generalize e : wordI op gd ga imm = w
  obtain ⟨opcode, left, right, low⟩ := (eq_wordI_iff (by omega) small).1 e.symm
  rw [spelled_of_opcode opcode (by omega), if_pos immediate.2.1]
  exact row _ left right low

theorem spelled_jump {cc : BitVec 4} {off : BitVec 22} (jump : 0x10 ≤ op ∧ op < 0x13)
    (row : ∀ v, slice v 22 4 = cc.toNat → slice v 0 22 = off.toNat → spellPlain n op v = some i) :
    spelled n (wordB op cc off) = some i := by
  generalize e : wordB op cc off = w
  obtain ⟨opcode, cond, low⟩ := (eq_wordB_iff (by omega)).1 e.symm
  rw [spelled_of_opcode opcode (by omega), if_pos (by omega)]
  exact row _ cond low

theorem spelled_packet {dd : Fin 4} (packet : 0x18 ≤ op ∧ op < 0x28) (few : sub < 16) (small : imm < 2 ^ 12)
    (row : ∀ v, Fin.ofNat 4 (slice v 24 2) = dd → regAt v 20 = gd → regAt v 16 = ga → slice v 12 4 = sub → slice v 0 12 = imm →
      spellPacket n op v = some i) : spelled n (wordP op dd gd ga sub imm) = some i := by
  generalize e : wordP op dd gd ga sub imm = w
  obtain ⟨opcode, desc, left, right, kind, low⟩ := (eq_wordP_iff (by omega) few small).1 e.symm
  rw [spelled_of_opcode opcode (by omega), if_neg (by omega), if_pos packet.2]
  exact row _ (Fin.ext (by rw [desc]; exact Nat.mod_eq_of_lt dd.isLt)) left right kind low

theorem spelled_event (event : 0x28 ≤ op ∧ op < 64) (small : imm < 2 ^ 18)
    (row : ∀ v, regAt v 22 = gd → regAt v 18 = ga → slice v 0 18 = imm → spellEvent n op v = some i) :
    spelled n (wordI op gd ga imm) = some i := by
  generalize e : wordI op gd ga imm = w
  obtain ⟨opcode, left, right, low⟩ := (eq_wordI_iff event.2 small).1 e.symm
  rw [spelled_of_opcode opcode (by omega), if_neg (by omega), if_neg (by omega)]
  exact row _ left right low

end

end Sys2Proof.Machine
end

section
/-! SUPPORT. Each instruction of Decmond is what its word spells (O29). -/

open Sys2Proof Sys2Proof.Machine

namespace Sys2Proof.Machine

section
variable (n : Fin 96) (gd ga : Fin 16)

/-! ### Words whose immediate holds fields of its own -/

theorem listed_of_legal {cc : BitVec 4} (legal : (cc != 15) = true) : cc.toNat ≠ 15 := fun e =>
  absurd (BitVec.eq_of_toNat_eq e) (bne_iff_ne.1 legal)

/-- A comparison of two registers has its second in the top bits of the immediate (R240). -/
theorem compare_fields {v : Nat} {gb : Fin 16} (low : slice v 0 18 = gb * 2 ^ 14) : regAt v 14 = gb ∧ slice v 0 14 = 0 := by
  have fields : slice v 14 4 = gb ∧ slice v 0 14 = 0 := by simp only [slice] at low ⊢; omega
  exact ⟨regAt_of_slice fields.1, fields.2⟩

theorem spelled_jr {cc : BitVec 4} (link : Bool) (listed : cc.toNat ≠ 15) :
    spelled n (wordB 0x12 cc (BitVec.ofNat 22 (ga * 2 ^ 18 + b2n link * 2 ^ 17))) = some (.jr n cc ga link) :=
  spelled_jump (by decide) fun v cond low => by
    have flag := b2n_lt_two link
    have fields : slice v 18 4 = ga ∧ slice v 17 1 = b2n link ∧ slice v 0 17 = 0 := by
      rw [BitVec.toNat_ofNat] at low; simp only [slice] at low ⊢; omega
    obtain ⟨right, flag, zeros⟩ := fields
    simp [spellPlain, cond, regAt_of_slice right, bit_eq_iff.2 flag, zeros, listed, legalIf]

theorem spelled_qdepth {sel out : Fin 4} (below : out ≠ 3) (own : sel = 1 ∨ out = 0 ∧ ga = 0) :
    spelled n (wordI 0x28 gd ga (sel * 2 ^ 16 + out)) = some (.qdepth n gd ga sel out) :=
  spelled_event (by decide) (by omega) fun v left right low => by
    have fields : slice v 16 2 = sel ∧ slice v 2 14 = 0 ∧ slice v 0 2 = out := by simp only [slice] at low ⊢; omega
    obtain ⟨which, zeros, place⟩ := fields
    have below : out.val ≠ 3 := fun e => below (Fin.ext e)
    have own : sel.val = 1 ∨ out.val = 0 ∧ ga = 0 := own.imp (congrArg Fin.val) (And.imp_left (congrArg Fin.val))
    simp [-Fin.val_eq_zero_iff, spellEvent, left, right, which, zeros, place, below, own, legalIf]

theorem spelled_tarmOutput (output : Fin 8) :
    spelled n (wordI 0x32 gd ga (0x30000 + output)) = some (.tarmOutput n gd ga output) :=
  spelled_event (by decide) (by omega) fun v left right low => by
    have fields : slice v 16 2 = 3 ∧ slice v 3 13 = 0 ∧ slice v 0 3 = output := by simp only [slice] at low ⊢; omega
    obtain ⟨mode, zeros, place⟩ := fields
    simp [spellEvent, spellTarm, left, right, mode, zeros, place, legalIf]

theorem spelled_outat (output : Fin 8) (active : Bool) :
    spelled n (wordI 0x34 gd ga (b2n (!active) * 0x10 + output)) = some (.outat n gd ga output active) :=
  have flag := b2n_lt_two (!active)
  spelled_event (by decide) (by omega) fun v left right low => by
    have fields : slice v 6 12 = 0 ∧ slice v 3 1 = b2n false ∧ slice v 4 2 = b2n (!active) ∧ slice v 0 3 = output := by
      rw [b2n_false]; simp only [slice] at low ⊢; omega
    obtain ⟨high, third, mode, place⟩ := fields
    cases active
    all_goals simp [spellEvent, spellOutat, left, right, high, bit_eq_iff.2 third, mode, place]

theorem spelled_outatCancel (output : Fin 8) :
    spelled n (wordI 0x34 gd 0 (0x20 + output)) = some (.outatCancel n gd output) :=
  spelled_event (by decide) (by omega) fun v left right low => by
    have fields : slice v 6 12 = 0 ∧ slice v 3 1 = b2n false ∧ slice v 4 2 = 2 ∧ slice v 0 3 = output := by
      rw [b2n_false]; simp only [slice] at low ⊢; omega
    obtain ⟨high, third, mode, place⟩ := fields
    simp [spellEvent, spellOutat, left, right, high, bit_eq_iff.2 third, mode, place, legalIf]

theorem spelled_gstage (sched : Fin 4) (entry : Fin 128) :
    spelled n (wordI 0x38 gd ga (entry * 4 + sched)) = some (.gstage n gd ga sched entry) :=
  spelled_event (by decide) (by omega) fun v left right low => by
    have fields : slice v 9 9 = 0 ∧ slice v 2 7 = entry ∧ slice v 0 2 = sched := by simp only [slice] at low ⊢; omega
    obtain ⟨high, place, which⟩ := fields
    simp [spellEvent, left, right, high, place, which, legalIf]

theorem spelled_wait {mask : BitVec 9} (some_ : mask ≠ 0) : spelled n (wordI 0x30 gd 0 mask.toNat) = some (.wait n gd mask) :=
  have small := mask.isLt
  have pos : mask.toNat ≠ 0 := fun e => some_ (BitVec.eq_of_toNat_eq e)
  spelled_event (by decide) (by omega) fun v left right low => by
    simp [spellEvent, left, right, low, small, Nat.one_le_iff_ne_zero, pos, legalIf]

end

/-- The word of an instruction whose operands are legal spells it, the rows of SEAL the first of them. -/
theorem spelled_of_word {n : Fin 96} {w : Word} {i : Instr} (word : Instr.word? i = some (n, w))
    (legal : Instr.legal i = true) : spelled n w = some (Instr.spelling i) := by
  cases i with
  | nop | yield | halt | fence => cases word; rfl
  | trap m code =>
    cases word
    exact spelled_sys (fn := 3) rfl (by decide) code.isLt fun v left right kind low => by
      simp [spellSys, left, right, kind, low, legalIf, Instr.spelling]
  | csrr m gd csr =>
    cases word
    have listed : csr.toNat ≤ 9 := of_decide_eq_true legal
    exact spelled_sys (fn := 5) rfl (by decide) csr.isLt fun v left right kind low => by
      simp [spellSys, left, right, kind, low, listed, legalIf, Instr.spelling]
  | csrw m csr ga =>
    cases word
    obtain rfl : csr = 0 := eq_of_beq legal
    exact spelled_sys (fn := 6) (arg := 0) rfl (by decide) (by decide) fun v left right kind low => by
      simp [spellSys, left, right, kind, low, legalIf, Instr.spelling]
  | add | sub | adc | sbc | and | or | xor | andn | shl | shr | sar | ror | mul | mulhu | mulhs | minu | maxu | mins | maxs
  | clz | popc | bswap =>
    cases word
    exact spelled_alu (by decide) fun v left right second flag kind low => by
      simp [spellAlu, left, right, second, flag, kind, low, legalIf, Instr.spelling]
  | addi | andi | ori | xori | movhi | ldw | ldh | ldb | stw | sth | stb =>
    cases word
    exact spelled_plain (by decide) (BitVec.isLt _) fun v left right low => by
      simp [spellPlain, left, right, imm18_of_slice low, legalIf, Instr.spelling]
  | shli m gd ga k =>
    cases word
    exact spelled_shift (k := k) (fn := 0) (by omega) (by decide) fun v left right kind zeros low => by
      simp [spellShift, left, right, kind, zeros, low, Instr.spelling]
  | shri m gd ga k =>
    cases word
    exact spelled_shift (k := k) (fn := 1) rfl (by decide) fun v left right kind zeros low => by
      simp [spellShift, left, right, kind, zeros, low, Instr.spelling]
  | sari m gd ga k =>
    cases word
    exact spelled_shift (k := k) (fn := 2) rfl (by decide) fun v left right kind zeros low => by
      simp [spellShift, left, right, kind, zeros, low, Instr.spelling]
  | rori m gd ga k =>
    cases word
    exact spelled_shift (k := k) (fn := 3) rfl (by decide) fun v left right kind zeros low => by
      simp [spellShift, left, right, kind, zeros, low, Instr.spelling]
  | cmp | tst =>
    cases word
    exact spelled_compare (by omega) fun v kind right low => by
      simp [spellCompare, kind, right, compare_fields low, legalIf, Instr.spelling]
  | cmpi | tsti =>
    cases word
    exact spelled_compare (BitVec.isLt _) fun v kind right low => by
      simp [spellCompare, kind, right, imm18_of_slice low, Instr.spelling]
  | b | call =>
    cases word
    exact spelled_jump (by decide) fun v cond low => by
      simp [spellPlain, cond, ofNat_of_slice low, listed_of_legal legal, legalIf, Instr.spelling]
  | jr m cc ga link => cases word; exact spelled_jr n ga link (listed_of_legal legal)
  | pget m dd gd endpoint =>
    cases word
    have few := b2n_lt_two endpoint
    exact spelled_packet (by decide) (by omega) (by decide) fun v desc left right kind low => by
      cases endpoint <;> simp [-Fin.ofNat_eq_cast, spellPacket, desc, left, right, kind, low, legalIf, Instr.spelling]
  | phdr | pseth | pld | pst | pnew =>
    cases word
    simp only [Instr.legal, decide_eq_true_eq] at legal
    exact spelled_packet (by decide) (by omega) (BitVec.isLt _) fun v desc left right kind low => by
      simp [-Fin.ofNat_eq_cast, spellPacket, desc, left, right, kind, low, ofNat_of_slice low, legal, legalIf, Instr.spelling]
  | pemitFabric m dd gd keep | pemitEndpoint m dd gd keep =>
    cases word
    have flag := b2n_lt_two keep
    exact spelled_packet (by decide) (by omega) (by decide) fun v desc left right kind low => by
      cases keep <;> simp [-Fin.ofNat_eq_cast, spellPacket, desc, left, right, kind, low, legalIf, bit, Instr.spelling]
  | pcopyToMemory | pcopyFromMemory =>
    cases word
    simp only [Instr.legal, Bool.and_eq_true, decide_eq_true_eq, beq_iff_eq] at legal
    exact spelled_packet (by decide) (by decide) (BitVec.isLt _) fun v desc left right kind low => by
      simp [-Fin.ofNat_eq_cast, spellPacket, desc, left, right, kind, low, ofNat_of_slice low, legal, legalIf, Instr.spelling]
  | pdrop | psplit | pjoin =>
    cases word
    exact spelled_packet (by decide) (by omega) (by decide) fun v desc left right kind low => by
      simp [-Fin.ofNat_eq_cast, spellPacket, desc, left, right, kind, low, legalIf, Instr.spelling]
  | qdepth m gd ga sel out =>
    cases word
    simp only [Instr.legal, Bool.and_eq_true, Bool.or_eq_true, bne_iff_ne, beq_iff_eq] at legal
    exact spelled_qdepth n gd ga legal.1 legal.2
  | sparge | polset | tap | sealGcmSeal | sealGcmOpen | sealHmac | sealXts | jrec | garm | garmDisarm | tnowSample =>
    cases word
    exact spelled_event (by decide) (by decide) fun v left right low => by
      simp [spellEvent, left, right, low, legalIf, Instr.spelling]
  | tarmAt | tarmAfter | tarmCancel =>
    cases word
    exact spelled_event (by decide) (by decide) fun v left right low => by
      have mode : slice v 16 2 = slice v 0 18 / 2 ^ 16 ∧ slice v 0 16 = slice v 0 18 % 2 ^ 16 := by simp only [slice]; omega
      simp [spellEvent, spellTarm, left, right, mode, low, legalIf, Instr.spelling]
  | tarmOutput m gd ga output => cases word; exact spelled_tarmOutput n gd ga output
  | wait m gd mask => cases word; exact spelled_wait n gd (bne_iff_ne.1 legal)
  | tnowPart m gd part =>
    cases word
    have part : part = 1 ∨ part = 2 := by simpa [Instr.legal] using legal
    exact spelled_event (by decide) (BitVec.isLt _) fun v left right low => by
      rcases part with rfl | rfl
      all_goals simp [spellEvent, left, right, low, imm18_of_slice low, legalIf, Instr.spelling]
  | tstamp m gd ga part =>
    cases word
    have few : part.toNat ≤ 1 := of_decide_eq_true legal
    exact spelled_event (by decide) (BitVec.isLt _) fun v left right low => by
      simp [spellEvent, left, right, low, imm18_of_slice low, few, legalIf, Instr.spelling]
  | outat m gd ga output active => cases word; exact spelled_outat n gd ga output active
  | outatCancel m gd output => cases word; exact spelled_outatCancel n gd output
  | gstage m gd ga sched entry => cases word; exact spelled_gstage n gd ga sched entry
  | _ => cases word

theorem spelled_of_own {n : Fin 96} {w : Word} {i : Instr} (word : Instr.word? i = some (n, w)) (legal : Instr.legal i = true)
    (own : Instr.spelling i = i) : spelled n w = some i := own ▸ spelled_of_word word legal

end Sys2Proof.Machine

/-- Settles O29: each word is read by the function of its opcode; an instruction's word holds its fields there, and a word that
passes its tests is made of them. -/
theorem wordsOfInstructions : Obligations.WordsOfInstructions := fun _ _ _ => ⟨spelled_of_word, hasWord_of_spelled⟩

/-- Settles O30: each word is the one its instruction is given, and spells it; the word of ones has an opcode of none. -/
theorem workedExampleWords : Obligations.WorkedExampleWords := by
  unfold Obligations.WorkedExampleWords
  intro n
  refine ⟨?_, ?_, ?_, ?_, ?_, rfl, ?_, ?_, ?_, ?_, ?_, ?_, ?_, ?_, ?_, ?_, ?_, ?_, ?_, ?_, ?_, ?_, ?_, ?_, ?_, ?_, ?_⟩
  all_goals exact spelled_of_own rfl rfl rfl
end

section
/-! SUPPORT. Status registers (O25): the words of opcode 0 that spell nothing (R233), and the numbers that are listed. -/

open Sys2Proof Sys2Proof.Machine

namespace Sys2Proof.Machine

theorem slices_of_sys {w : Word} {fn arg : Nat} {gd ga : Fin 16} (is : w = wordI 0 gd ga (fn * 2 ^ 12 + arg)) (few : fn < 64)
    (small : arg < 2 ^ 12) : slice w.toNat 26 6 = 0 ∧ slice w.toNat 12 6 = fn ∧ slice w.toNat 0 12 = arg := by
  obtain ⟨opcode, -, -, low⟩ := (eq_wordI_iff (by decide) (by omega)).1 is
  refine ⟨opcode, ?_⟩
  simp only [slice] at low ⊢
  omega

theorem spelled_csrr_of_gt (n : Fin 96) (gd : Fin 16) {csr : BitVec 12} (above : 9 < csr.toNat) :
    spelled n (wordI 0 gd 0 (0x5000 + csr.toNat)) = none := by
  generalize e : wordI 0 gd 0 (0x5000 + csr.toNat) = w
  obtain ⟨opcode, kind, arg⟩ := slices_of_sys (fn := 5) e.symm (by decide) csr.isLt
  simp [spelled_of_opcode_0 opcode, spellSys, kind, arg, legalIf, Nat.not_le.2 above]

theorem spelled_csrw_of_ne (n : Fin 96) (ga : Fin 16) {csr : BitVec 12} (other : csr.toNat ≠ 0) :
    spelled n (wordI 0 0 ga (0x6000 + csr.toNat)) = none := by
  generalize e : wordI 0 0 ga (0x6000 + csr.toNat) = w
  obtain ⟨opcode, kind, arg⟩ := slices_of_sys (fn := 6) e.symm (by decide) csr.isLt
  simp [spelled_of_opcode_0 opcode, spellSys, kind, arg, legalIf, other]

theorem Hub.csr_listed (h : Hub) (n : Nat) {k : Nat} (listed : k ≤ 9) : (h.csr n k).isSome = true := by
  interval_cases k <;> rfl

end Sys2Proof.Machine

/-- Settles O25: the word of an unlisted number, or of a write to a read-only register, spells no instruction, and such a word
traps whatever command issues it. -/
theorem unlistedCsrIsIllegal : Obligations.UnlistedCsrIsIllegal := by
  unfold Obligations.UnlistedCsrIsIllegal
  intro h n g csr can
  refine ⟨fun above word => ?_, fun listed => Hub.csr_listed h n listed, fun other word => ?_⟩
  · exact ⟨becomes_illegal can word (spelled_csrr_of_gt n g above) fun _ => rfl,
      becomes_illegal can word (spelled_csrr_of_gt n g above) fun _ => rfl⟩
  · exact ⟨becomes_illegal can word (spelled_csrw_of_ne n g other) fun _ => rfl,
      becomes_illegal can word (spelled_csrw_of_ne n g other) fun _ => rfl⟩
end

section
/-! SUPPORT. The hub that refutes `Obligations.SystemInstructions` (O24): a FENCE whose context has left an access
unfinished (R232, R244). -/

open Sys2Proof Sys2Proof.Machine

namespace Sys2Proof.Machine

theorem Hub.retired_pc (h : Hub) (n : Nat) (x : Ctx) : ((h.retired n x).ctx n).pc = (h.ctx n).pc + 1 := by
  rw [Hub.retired, Hub.ctx_setCtx_self]

/-- A hub whose context 0 stands at a FENCE, a load of its own through the register window unfinished. -/
def fencing : Hub :=
  let h := (ctxWith 0 [] []).withWord (.fence 0)
  { h with tun := { h.tun with left := [⟨0, 0, 4, none⟩] } }

theorem fencing_canIssue : fencing.canIssue 0 = true := by decide +kernel

theorem fencing_inCode : fencing.inCode 0 ((fencing.ctx 0).pc + 1) = true := by decide +kernel

theorem fencing_spells : fencing.spells 0 (.fence 0) = true := by decide +kernel

/-- The FENCE stalls: nothing has happened, and it issues again. -/
theorem runs_fencing : runs 0 (.fence 0) fencing fencing :=
  runs_of_eq fencing_canIssue (fun _ => rfl) (Hub.issue_stall fencing_canIssue (if_pos rfl))

end Sys2Proof.Machine

/-- Refutes O24 at its clause on FENCE, which has every FENCE retire: one whose context has left an access in the register
window unfinished waits for it (R232, R244). -/
theorem not_systemInstructions : ¬ Obligations.SystemInstructions := by
  intro all
  obtain ⟨-, retires, -⟩ := all fencing 0 0 0 _ fencing_canIssue fencing_inCode rfl
  have same := becomes_unique (retires fencing_spells) (runs_fencing fencing_spells)
  have pc := congrArg (fun u : Hub => (u.ctx (0 : Fin 96)).pc) same
  exact absurd ((Hub.retired_pc fencing (0 : Fin 96) _).symm.trans pc) (Nat.succ_ne_self _)
end

section
/-! SUPPORT. The hub that refutes `Obligations.BranchInstructions` (O26): a transfer out of the code window (R228, R247) that
traps while its context holds a packet. -/

open Sys2Proof Sys2Proof.Machine

namespace Sys2Proof.Machine

section
variable {h : Hub} {n : Fin 96} {cc : BitVec 4} {off : BitVec 22} {t : Nat}

theorem Hub.leave_jump_outside (run : h.ctxState n = cxRunning) (out : h.inCode n t = false) (link : Bool) :
    (h.issued n).leave n (.jump t link) = (h.issued n).trap n 3 (h.ctx n).pc t := by
  have same := Hub.samePlace_issued h n
  rw [Hub.leave, if_pos (same.state.trans run), Hub.goTo, same.inCode, out, if_neg Bool.false_ne_true, Hub.issued_ctx]

/-- A CALL taken out of the code window traps before it retires. -/
theorem runs_call_outside (can : h.canIssue n = true) (holds : (h.ctx n).flags.cond cc.toNat = true)
    (target : t = branchTarget (h.ctx n).pc off) (out : h.inCode n t = false) :
    runs n (.call n cc off) h ((h.issued n).trap n 3 (h.ctx n).pc t) := by
  obtain ⟨-, run, -⟩ := Hub.canIssue_parts can
  have listed : cc.toNat ≠ 15 := fun e => by rw [e] at holds; cases holds
  refine runs_of_eq can (f := fun h => h.iCall n cc.toNat off) (fun _ => rfl) ?_
  rw [Hub.iCall, Hub.issueJump, Hub.issue_of_can can (e := .jump t true) (g := h) ?_ (by simp) rfl]
  · exact Hub.leave_jump_outside run out true
  · simp only [if_neg listed, if_pos holds, target]

end

/-- What O26 has a trapped transfer leave keeps memory. -/
theorem Hub.mem_of_frame {h u : Hub}
    (frame : u = { h with regs := u.regs, links := u.links, err := u.err, fab := u.fab, tun := u.tun }) : u.mem = h.mem := by
  rw [frame]

/-- A hub whose context 0 holds a packet and stands at a CALL to the index after its code window. -/
def callingOut : Hub := (holdPkt 0 0 heldStored []).withWord (.call 0 0 5)

theorem callingOut_canIssue : callingOut.canIssue 0 = true := by decide +kernel

theorem callingOut_outside : callingOut.inCode 0 8 = false := by decide +kernel

theorem callingOut_always : (callingOut.ctx 0).flags.cond 0 = true := rfl

theorem callingOut_target : 8 = branchTarget (callingOut.ctx 0).pc 5 := by decide +kernel

theorem callingOut_spells : callingOut.spells 0 (.call 0 0 5) = true := by decide +kernel

theorem callingOut_cell : callingOut.mrd (cellAddr 0) = 0#8 := by decide +kernel

/-- The trap releases the packet, whose bytes stay in its cell (R146, R215). -/
theorem callingOut_trapped : ((callingOut.issued 0).trap 0 3 3 8).mrd (cellAddr 0) = 130#8 := by decide +kernel

end Sys2Proof.Machine

/-- Refutes O26 at its clause on a CALL taken out of the code window, which has memory as it was: the trap releases the packets
that the context holds (R215), and the bytes of a packet whose last descriptor is released stay in its cells (R146), which are
memory. -/
theorem not_branchInstructions : ¬ Obligations.BranchInstructions := by
  intro all
  obtain ⟨-, -, -, -, -, -, -, -, -, -, traps, -⟩ := all callingOut 0 0 5 0 false 8 callingOut_canIssue
  obtain ⟨u, ⟨-, -, -, -, -, frame⟩, goes⟩ := traps callingOut_always callingOut_target callingOut_outside callingOut_spells
  have trapped := runs_call_outside (n := 0) (cc := 0) (off := 5) callingOut_canIssue callingOut_always callingOut_target
    callingOut_outside callingOut_spells
  have memory : u.mem = callingOut.mem := Hub.mem_of_frame frame
  rw [becomes_unique goes trapped] at memory
  have cell := congrArg (fun m => SMap.get memReset m (cellAddr 0)) memory
  exact absurd (callingOut_trapped.symm.trans (cell.trans callingOut_cell)) (by decide)
end
